-- ==== Sys2Proof/Word.lean ====
section
/-! DEFINITION. The words of the HX7 (R11): a byte, a word of 64 bits, a block of 128 bits, and byte strings. -/

namespace Sys2Proof

/-- A byte of 8 bits (R11). -/
abbrev Byte := BitVec 8

/-- A word of 64 bits (R11). -/
abbrev Word := BitVec 64

/-- A block of 128 bits (R11). -/
abbrev Block := BitVec 128

/-- A byte string, lowest offset first. -/
abbrev Bytes := List (BitVec 8)

/-- A colour, the 12-bit tag of a partition (Table 0.4). -/
abbrev Colour := BitVec 12

end Sys2Proof
end

