-- ==== Sys2Proof/Syntax.lean ====
section
/-! DEFINITION. The commands of the HX7: one constructor per row of spec/opcode_table.json, and the plain data
their operands carry. The table gives a row no operands; the operands are the model's (log entry 5): the seat an
instruction runs in, the bytes a port or a card receives, the unit an event happens at. -/

namespace Sys2Proof

/-- A seat: cluster 9n + m of Qn.Cm, TE k, seat 0 or 1 (R25, R37). -/
structure SeatRef where
  cluster : Nat
  te      : Nat
  seat    : Nat
  deriving DecidableEq, Repr

/-- How a Bercon command came in (R329). -/
inductive Channel where
  | mailbox
  | ring
  deriving DecidableEq, Repr

/-- A Bercon command as its row takes it: the entry's header (Table 10.5) and the request body. -/
structure Cmd where
  fn      : Nat
  via     : Channel
  tag     : BitVec 32
  ticket  : Word
  colour  : Colour
  rspLen  : Nat
  rspAddr : Word
  body    : Bytes
  deriving DecidableEq, Repr

/-- Where a host-memory DMA failed (R331, Table 10.7). -/
inductive DmaPoint where
  | fetch
  | requestRead
  | responseWrite
  | completionWrite
  deriving DecidableEq, Repr

/-- A gate region's colour rule (Table 12.3). -/
inductive RegionMode where
  | fixed
  | tagged (granule64K : Bool)
  | seat (te seat : Nat)
  deriving DecidableEq, Repr

/-- A region of a target gate (Table 12.3); start and stop number 64-byte units, both inclusive. -/
structure Region where
  start    : Nat
  stop     : Nat
  mode     : RegionMode
  colour   : Colour
  rd       : Bool
  wr       : Bool
  vw       : Bool
  privOnly : Bool
  inner    : Bool
  enable   : Bool
  enableShadow : Bool := !enable
  deriving DecidableEq, Repr

/-- A claim to the referee (Table 12.8): from the South pair or the North, a renewal or a takeover, and the epoch
it carries. -/
structure Claim where
  south   : Bool
  renewal : Bool
  epoch   : BitVec 32
  deriving DecidableEq, Repr

/-- A PTP message as the timing port receives it (R398, R404): whether the frame is sound, the header fields the
port checks, and the timestamps. Times are nanoseconds; the receive timestamp is the counter's. -/
structure PtpMsg where
  frameOk     : Bool
  lengthOk    : Bool
  version     : Nat
  majorSdo    : Nat
  domain      : Nat
  source      : Word
  sequence    : BitVec 16
  twoStep     : Bool
  originNs    : Nat
  correction  : Int
  requester   : Word
  logInterval : Int
  rxNs        : Nat
  ptpTimescale : Bool
  dataset     : Nat
  deriving DecidableEq, Repr

/-- What a start-up step finds (R508-R510): the pairs' and clusters' self-tests, the image's signatures, the slot
settings record of boot flash (R432), the recorder copies (R488) and the TPORT_SGMII ball (R398). -/
structure BootObs where
  northOk    : Bool
  southOk    : Bool
  imageOk    : Bool
  failed     : List Nat
  slotRecord : Bytes
  newerCopyOk : Bool
  olderCopyOk : Bool
  sgmii      : Bool
  deriving DecidableEq, Repr

/-- The commands, one per row of spec/opcode_table.json, in its order. -/
inductive Instr where
  /-- ADD (R49): Integer instruction: rd gets rs1 plus rs2 modulo 2^64. -/
  | add (u : SeatRef) (rd rs1 rs2 : Fin 32)
  /-- SUB (R49): Integer instruction: rd gets rs1 minus rs2 modulo 2^64. -/
  | sub (u : SeatRef) (rd rs1 rs2 : Fin 32)
  /-- AND (R49): Integer instruction: rd gets the bitwise AND of rs1 and rs2. -/
  | and (u : SeatRef) (rd rs1 rs2 : Fin 32)
  /-- OR (R49): Integer instruction: rd gets the bitwise OR of rs1 and rs2. -/
  | or (u : SeatRef) (rd rs1 rs2 : Fin 32)
  /-- XOR (R49): Integer instruction: rd gets the bitwise XOR of rs1 and rs2. -/
  | xor (u : SeatRef) (rd rs1 rs2 : Fin 32)
  /-- SLL (R49): Integer instruction: rd gets rs1 shifted left by rs2[5:0]. -/
  | sll (u : SeatRef) (rd rs1 rs2 : Fin 32)
  /-- SRL (R49): Integer instruction: rd gets rs1 shifted right with zero fill. -/
  | srl (u : SeatRef) (rd rs1 rs2 : Fin 32)
  /-- SRA (R49): Integer instruction: rd gets rs1 shifted right with sign fill. -/
  | sra (u : SeatRef) (rd rs1 rs2 : Fin 32)
  /-- ROL (R49): Integer instruction: rd gets rs1 rotated left. -/
  | rol (u : SeatRef) (rd rs1 rs2 : Fin 32)
  /-- SLT (R49): Integer instruction: signed compare of rs1 and rs2 into rd. -/
  | slt (u : SeatRef) (rd rs1 rs2 : Fin 32)
  /-- SLTU (R49): Integer instruction: unsigned compare of rs1 and rs2 into rd. -/
  | sltu (u : SeatRef) (rd rs1 rs2 : Fin 32)
  /-- MUL (R49): Integer instruction: rd gets the low 64 bits of the product. -/
  | mul (u : SeatRef) (rd rs1 rs2 : Fin 32)
  /-- MULHU (R49): Integer instruction: rd gets the high 64 bits of the unsigned product. -/
  | mulhu (u : SeatRef) (rd rs1 rs2 : Fin 32)
  /-- BSWAP (R49): Integer instruction: rd gets rs1 with its byte order reversed. -/
  | bswap (u : SeatRef) (rd rs1 : Fin 32)
  /-- CMOVZ (R49): Integer instruction: rd gets rs1 if rs2 is zero, otherwise rd is unchanged. -/
  | cmovz (u : SeatRef) (rd rs1 rs2 : Fin 32)
  /-- ADDI (R50): Immediate instruction: rd gets rs1 plus the sign-extended imm16. -/
  | addi (u : SeatRef) (rd rs1 : Fin 32) (imm : BitVec 16)
  /-- ANDI (R50): Immediate instruction: rd gets rs1 AND the zero-extended imm16. -/
  | andi (u : SeatRef) (rd rs1 : Fin 32) (imm : BitVec 16)
  /-- ORI (R50): Immediate instruction: rd gets rs1 OR the zero-extended imm16. -/
  | ori (u : SeatRef) (rd rs1 : Fin 32) (imm : BitVec 16)
  /-- XORI (R50): Immediate instruction: rd gets rs1 XOR the zero-extended imm16. -/
  | xori (u : SeatRef) (rd rs1 : Fin 32) (imm : BitVec 16)
  /-- SLTI (R50): Immediate instruction: signed compare of rs1 with the sign-extended imm16. -/
  | slti (u : SeatRef) (rd rs1 : Fin 32) (imm : BitVec 16)
  /-- SHI (R50): Immediate instruction: shift or rotate by an immediate amount. -/
  | shi (u : SeatRef) (rd rs1 : Fin 32) (imm : BitVec 16)
  /-- INSQ (R50): Immediate instruction: insert imm16 into quarter q of rd. -/
  | insq (u : SeatRef) (rd : Fin 32) (q : Fin 4) (imm : BitVec 16)
  /-- SYS (R50): Immediate instruction: read a system value into rd; index 0x0010 stalls while the DRBG has no output. -/
  | sys (u : SeatRef) (rd : Fin 32) (idx : BitVec 16)
  /-- BEQ (R52): Branch instruction: branch if ra equals rb. -/
  | beq (u : SeatRef) (ra rb : Fin 32) (imm : BitVec 16)
  /-- BNE (R52): Branch instruction: branch if ra differs from rb. -/
  | bne (u : SeatRef) (ra rb : Fin 32) (imm : BitVec 16)
  /-- BLT (R52): Branch instruction: branch if ra is less than rb, signed. -/
  | blt (u : SeatRef) (ra rb : Fin 32) (imm : BitVec 16)
  /-- BGE (R52): Branch instruction: branch if ra is greater than or equal to rb, signed. -/
  | bge (u : SeatRef) (ra rb : Fin 32) (imm : BitVec 16)
  /-- BLTU (R52): Branch instruction: branch if ra is less than rb, unsigned. -/
  | bltu (u : SeatRef) (ra rb : Fin 32) (imm : BitVec 16)
  /-- BGEU (R52): Branch instruction: branch if ra is greater than or equal to rb, unsigned. -/
  | bgeu (u : SeatRef) (ra rb : Fin 32) (imm : BitVec 16)
  /-- JMP (R53): Instruction: jump relative by the sign-extended imm16 times 4. -/
  | jmp (u : SeatRef) (imm : BitVec 16)
  /-- CALL (R53): Instruction: push a CALL frame and jump; raises CALL_DEPTH on a seventeenth entry. -/
  | call (u : SeatRef) (imm : BitVec 16)
  /-- RET (R53): Instruction: pop a CALL frame into pc; raises FRAME if no such frame is on top. -/
  | ret (u : SeatRef)
  /-- LD8 (R55): Memory instruction: load one byte, zero-extended. -/
  | ld8 (u : SeatRef) (rt rb : Fin 32) (sp : BitVec 2) (off : BitVec 14)
  /-- LD16 (R55): Memory instruction: load 2 bytes, zero-extended. -/
  | ld16 (u : SeatRef) (rt rb : Fin 32) (sp : BitVec 2) (off : BitVec 14)
  /-- LD32 (R55): Memory instruction: load 4 bytes, zero-extended. -/
  | ld32 (u : SeatRef) (rt rb : Fin 32) (sp : BitVec 2) (off : BitVec 14)
  /-- LD64 (R55): Memory instruction: load 8 bytes. -/
  | ld64 (u : SeatRef) (rt rb : Fin 32) (sp : BitVec 2) (off : BitVec 14)
  /-- ST8 (R55): Memory instruction: store the low byte of rt. -/
  | st8 (u : SeatRef) (rt rb : Fin 32) (sp : BitVec 2) (off : BitVec 14)
  /-- ST16 (R55): Memory instruction: store the low 2 bytes of rt. -/
  | st16 (u : SeatRef) (rt rb : Fin 32) (sp : BitVec 2) (off : BitVec 14)
  /-- ST32 (R55): Memory instruction: store the low 4 bytes of rt. -/
  | st32 (u : SeatRef) (rt rb : Fin 32) (sp : BitVec 2) (off : BitVec 14)
  /-- ST64 (R55): Memory instruction: store 8 bytes of rt. -/
  | st64 (u : SeatRef) (rt rb : Fin 32) (sp : BitVec 2) (off : BitVec 14)
  /-- LDB (R55): Memory instruction: load 16 bytes into a b register. -/
  | ldb (u : SeatRef) (rt : Fin 8) (rb : Fin 32) (sp : BitVec 2) (off : BitVec 14)
  /-- STB (R55): Memory instruction: store a b register as 16 bytes. -/
  | stb (u : SeatRef) (rt : Fin 8) (rb : Fin 32) (sp : BitVec 2) (off : BitVec 14)
  /-- C_INIT (R58): Cipher instruction: open a cipher context in mode m on key slot k. -/
  | cInit (u : SeatRef) (y k : Fin 8) (m : BitVec 6)
  /-- C_ENC (R133): Cipher instruction: encrypt the next block under the open context. -/
  | cEnc (u : SeatRef) (x y : Fin 8) (m : BitVec 6)
  /-- C_DEC (R133): Cipher instruction: decrypt the next block under the open context. -/
  | cDec (u : SeatRef) (x y : Fin 8) (m : BitVec 6)
  /-- C_AAD (R134): Cipher instruction: absorb additional data for GCM or GMAC. -/
  | cAad (u : SeatRef) (y : Fin 8) (m : BitVec 6)
  /-- C_MAC (R136): Cipher instruction: absorb a block into CMAC, holding the last block back. -/
  | cMac (u : SeatRef) (y : Fin 8) (m : BitVec 6)
  /-- C_FIN (R136): Cipher instruction: produce the tag or CMAC value and close the context. -/
  | cFin (u : SeatRef) (x : Fin 8)
  /-- C_SAVE (R143): Cipher instruction: store the cipher context to scratch. -/
  | cSave (u : SeatRef) (g : Fin 32)
  /-- C_REST (R143): Cipher instruction: load a cipher context from scratch after checking it. -/
  | cRest (u : SeatRef) (g : Fin 32)
  /-- C_FF1E (R140): Cipher instruction: FF1-encrypt a descriptor in scratch in place. -/
  | cFf1e (u : SeatRef) (g : Fin 32)
  /-- C_FF1D (R140): Cipher instruction: FF1-decrypt a descriptor in scratch in place. -/
  | cFf1d (u : SeatRef) (g : Fin 32)
  /-- C_RAW (R57): Cipher instruction: one block encrypted or decrypted without a context. -/
  | cRaw (u : SeatRef) (x y k : Fin 8) (m : BitVec 6)
  /-- D_INIT (R59): Digest instruction: open a digest or HMAC context with a declared length. -/
  | dInit (u : SeatRef) (k : Fin 8) (g : Fin 32) (m : BitVec 6)
  /-- D_ABS (R152): Digest instruction: absorb 16 bytes, discarding those beyond the declared length. -/
  | dAbs (u : SeatRef) (y : Fin 8)
  /-- D_LAST (R153): Digest instruction: absorb the last bytes, then pad and finish the digest. -/
  | dLast (u : SeatRef) (g : Fin 32) (m : BitVec 6)
  /-- D_OUT (R155): Digest instruction: release a 16-byte piece of the finished digest. -/
  | dOut (u : SeatRef) (x : Fin 8) (m : BitVec 6)
  /-- D_CMP (R155): Digest instruction: compare the digest once, in constant time. -/
  | dCmp (u : SeatRef) (g : Fin 32) (m : BitVec 6)
  /-- D_SAVE (R156): Digest instruction: store an unfinished digest context to scratch. -/
  | dSave (u : SeatRef) (g : Fin 32)
  /-- D_REST (R156): Digest instruction: load a digest context from scratch after checking it. -/
  | dRest (u : SeatRef) (g : Fin 32)
  /-- GFM (R62): Instruction: multiply two b registers in GF(2^128). -/
  | gfm (u : SeatRef) (x y : Fin 8)
  /-- CMPCT (R62): Instruction: compare the first m bytes of two b registers in constant time. -/
  | cmpct (u : SeatRef) (x y : Fin 8) (g : Fin 32) (m : BitVec 6)
  /-- K_LOAD (R63): Key instruction: fill a slot with the key named by a handle, from the caddy or the warm store. -/
  | kLoad (u : SeatRef) (k : Fin 8) (g : Fin 32)
  /-- K_CLR (R63): Key instruction: empty a key slot. -/
  | kClr (u : SeatRef) (k : Fin 8)
  /-- K_DRV (R195): Key instruction: derive a key into slot x from parent slot k by method m. -/
  | kDrv (u : SeatRef) (x y k : Fin 8) (m : BitVec 6)
  /-- K_WRAP (R126): Key instruction: wrap slot x under slot k into scratch as a tin or an X9.143 block. -/
  | kWrap (u : SeatRef) (x k : Fin 8) (g : Fin 32) (m : BitVec 6)
  /-- K_UNWR (R126): Key instruction: unwrap a block from scratch into slot x. -/
  | kUnwr (u : SeatRef) (x k : Fin 8) (g : Fin 32) (m : BitVec 6)
  /-- K_STORE (R197): Vendor key instruction: create a key record from a slot and return a result in g. -/
  | kStore (u : SeatRef) (x : Fin 8) (g : Fin 32)
  /-- K_ATTR (R193): Key instruction: read the public attribute word of a slot. -/
  | kAttr (u : SeatRef) (k : Fin 8) (g : Fin 32)
  /-- GATE (R66): Instruction: push a GATE frame and enter a waymark in the vendor world. -/
  | gate (u : SeatRef) (w : BitVec 11)
  /-- GRET (R67): Vendor instruction: return from a waymark, clearing vendor state when it returns to the tenant world. -/
  | gret (u : SeatRef) (marks : List (Fin 8 × Bool))
  /-- MILE_P (R68): Instruction: write a PROGRESS milestone for a step. -/
  | mileP (u : SeatRef) (ga : Fin 32) (n : BitVec 11)
  /-- MILE_I (R254): Vendor instruction: open an intent and anchor it in MRAM, waiting for anchor log space if needed. -/
  | mileI (u : SeatRef) (ga gb : Fin 32) (kind : BitVec 11)
  /-- MILE_C (R68): Vendor instruction: close the open intent with a COMMIT. -/
  | mileC (u : SeatRef) (ga gb : Fin 32) (kind : BitVec 11)
  /-- YIELD (R77): Instruction: a yield point where the TE may change seat. -/
  | yieldPoint (u : SeatRef)
  /-- EMIT (R72): Instruction: end the itinerary with a response and write the final milestone. -/
  | emit (u : SeatRef) (ga : Fin 32) (code : BitVec 11)
  /-- TRAP (R72): Instruction: end the itinerary with a trap code. -/
  | trap (u : SeatRef) (code : BitVec 11)
  /-- VGET (R232): Vendor instruction: request a vault unit read and wait for the vault. -/
  | vget (u : SeatRef) (ga gb st : Fin 32)
  /-- VPUT (R233): Vendor instruction: request a versioned vault unit write and wait for the vault. -/
  | vput (u : SeatRef) (ga gb st : Fin 32)
  /-- YIELD_OVERDUE (R81): The cycle count since the last yield point reaches 24,000 and the itinerary ends. -/
  | yieldOverdue (u : SeatRef)
  /-- SCRATCH_UNCORRECTABLE (R75): An uncorrectable scratch error ends the itinerary with MEMORY and raises a class 2 fault. -/
  | scratchUncorrectable (u : SeatRef) (off : BitVec 40)
  /-- VAULT_WAIT_DONE (R233): The vault engine returns the status of a VGET or VPUT to its waiting seat. -/
  | vaultWaitDone (u : SeatRef)
  /-- DRBG_READ_DONE (R417): A stalled read of an expander receives its bits. -/
  | drbgReadDone (e : Nat)
  /-- IMAGE_CACHE_FILL (R48): An image-cache miss completes and fetch resumes. -/
  | imageCacheFill (u : SeatRef)
  /-- CADDY_MISS_FILL (R200): A caddy miss reads, verifies and unwraps the tin and fills the slot. -/
  | caddyMissFill (u : SeatRef)
  /-- ANCHOR_SPACE_FREE (R259): Room in the anchor log frees and a waiting intent is written. -/
  | anchorSpaceFree
  /-- ITIN_RSP (R34): The final milestone reaches the journal ring and the response is handed to its port. -/
  | itinRsp
  /-- ITIN_REQ (R98): Receipt of an ITIN_REQ message: checks and enqueue to a lane. -/
  | itinReq (port vc : Nat) (msg : Bytes)
  /-- ITEM_DISPATCH (R101): The Depot offers a waiting item to a cluster, which takes it into a seat, its MAE or a stream. -/
  | itemDispatch (c : Nat)
  /-- PLACEMENT_EVALUATION (R107): Every 100 µs the placement loop grows or shrinks lane placement sets. -/
  | placementEvaluation
  /-- CLUSTER_SLEEP (R110): A cluster idle for the sleep delay goes to sleep, wrapping its stream contexts. -/
  | clusterSleep (c : Nat)
  /-- CLUSTER_WAKE_DONE (R111): A cluster wake completes, or fails and raises a class 2 fault. -/
  | clusterWakeDone (c : Nat) (ok : Bool)
  /-- OVERFLOW_REFILL (R113): A lane below half its quota refills its pool from overflow in enqueue order. -/
  | overflowRefill (lane : Nat)
  /-- OVERFLOW_REFILL_DONE (R115): The refill of a lane's head item from LPDDR6 completes. -/
  | overflowRefillDone (lane : Nat)
  /-- LINK_CREDIT_HOLD_RELEASE (R117): Room frees in pool or overflow and a held virtual channel's link credits are returned. -/
  | linkCreditHoldRelease (port vc : Nat)
  /-- DEPOT_CELL_UNCORRECTABLE (R94): An uncorrectable cell error discards the item or retires the cell and raises a class 2 fault. -/
  | depotCellUncorrectable (bank cell : Nat)
  /-- BULK_SEGMENT_END (R149): A 512-byte stream segment completes and the TE may change or release its stream. -/
  | bulkSegmentEnd (c te : Nat)
  /-- STREAM_KEY_FETCH_DONE (R149): The DMA's key fetch for an incoming stream completes. -/
  | streamKeyFetchDone (c te : Nat)
  /-- WRAPPED_MOVE_ARRIVAL (R146): A wrapped seat or stream package arrives and is unwrapped or fails its binding. -/
  | wrappedMoveArrival (c : Nat) (move : BitVec 32) (ok : Bool)
  /-- MAE_JOB_YIELD_POINT (R175): A running MAE job reaches a yield point and may be suspended for a higher-level job. -/
  | maeJobYieldPoint (c : Nat)
  /-- MAE_JOB_END (R171): An MAE job finishes its arithmetic and checks, then releases or rejects its output. -/
  | maeJobEnd (c : Nat) (ok : Bool)
  /-- MAE_KAT_DONE (R172): The MAE's known-answer tests after a check failure complete. -/
  | maeKatDone (c : Nat) (ok : Bool)
  /-- MAE_KEY_TABLE_MISS_DONE (R167): The MAE finishes loading and expanding a key on a key-table miss. -/
  | maeKeyTableMissDone (c : Nat)
  /-- VAULT_DATA (R237): Receipt of a VAULT_DATA message answering a vault request. -/
  | vaultData (port vc : Nat) (msg : Bytes)
  /-- VAULT_REQUEST_TIMEOUT (R240): A vault request times out; it is resent once, then fails. -/
  | vaultRequestTimeout (req : Word)
  /-- VAULT_REFILL (R243): A background refill reads the tree from the vault host after a power loss. -/
  | vaultRefill
  /-- WATERMARK_WRITE (R259): Every 1 ms the watermark table and Depot sequence counter are anchored in MRAM. -/
  | watermarkWrite
  /-- JOURNAL_SPILL (R257): The full ring spills its oldest records to LPDDR6, compacting settled tickets. -/
  | journalSpill
  /-- OUTCOME (R254): The HX7 writes an OUTCOME for an intent left without COMMIT once its in-flight call settles. -/
  | outcome
  /-- PFW_N_ASSERT (R265): Power-fail warning: dispatch stops and a 1.0 ms grace for running work begins. -/
  | pfwNAssert
  /-- PFW_GRACE_END (R265): At 1.0 ms after PFW_N running items are ended, open intents closed, root and watermarks anchored. -/
  | pfwGraceEnd
  /-- PFW_N_RELEASE (R497): PFW_N released with rails in range: the HX7 completes the warning steps, then warm-resets. -/
  | pfwNRelease
  /-- CDR_LOCK_LOSS (R272): An in-service receive lane loses CDR lock and is failing. -/
  | cdrLockLoss (port sl : Nat)
  /-- LANE_BER_EXCEEDED (R272): A lane's pre-FEC bit error ratio exceeds 1e-4 over 10 ms. -/
  | laneBerExceeded (port sl : Nat)
  /-- LANE_UNCORRECTABLE_TWICE (R272): Uncorrectable codewords attributed to a lane in two consecutive 1 ms intervals. -/
  | laneUncorrectableTwice (port sl : Nat)
  /-- DFE_TAP_AT_LIMIT (R272): A DFE tap stays at its limit for 10 ms. -/
  | dfeTapAtLimit (port sl : Nat)
  /-- LANE_FRAME (R273): Receipt of a LANE frame, REMAP or REMAP_DONE, driving the lane replacement. -/
  | laneFrame (port : Nat) (frame : Bytes)
  /-- REMAP_REALIGN_DONE (R273): The receiver re-aligns on the moved PCS lanes and sends a NAK for replay. -/
  | remapRealignDone (port : Nat)
  /-- REMAP_SUSPENSION_END (R274): The 50 µs suspension of loss detection or of the replay timer ends. -/
  | remapSuspensionEnd (port : Nat)
  /-- DATA_FRAME (R279): Receipt of a DATA frame: CRC, epoch and sequence checks, then its messages. -/
  | dataFrame (port : Nat) (frame : Bytes)
  /-- IDLE_FRAME (R278): Receipt of an IDLE frame carrying acknowledgement and credit limits. -/
  | idleFrame (port : Nat) (frame : Bytes)
  /-- NAK_FRAME (R281): Receipt of a NAK: the sender replays from the expected number. -/
  | nakFrame (port : Nat) (frame : Bytes)
  /-- INIT_FRAME (R287): Receipt of an INIT frame, driving INIT exchange, RETRAIN or DOWN. -/
  | initFrame (port : Nat) (frame : Bytes)
  /-- IDLE_FRAME_SEND (R278): The at-most-1 µs heartbeat timer sends an IDLE frame. -/
  | idleFrameSend (port : Nat)
  /-- INIT_FRAME_SEND (R286): In INIT or RETRAIN an INIT frame is sent every 1 µs. -/
  | initFrameSend (port : Nat)
  /-- ACK_SEND (R280): An acknowledgement leaves within 200 ns of a DATA frame's acceptance. -/
  | ackSend (port : Nat)
  /-- REPLAY_TIMEOUT (R281): 5 µs with frames outstanding and no new acknowledgement trigger a replay. -/
  | replayTimeout (port : Nat)
  /-- PCS_ALIGNMENT (R286): FEC lock and PCS alignment move the port from TRAINING to INIT. -/
  | pcsAlignment (port : Nat)
  /-- TRAINING_TIMEOUT (R286): 20 ms in TRAINING without alignment take the port DOWN; training restarts after 1 ms. -/
  | trainingTimeout (port : Nat)
  /-- TRAINING_RESTART (R286): 1 ms after a training timeout the port re-enters TRAINING. -/
  | trainingRestart (port : Nat)
  /-- INIT_TIMEOUT (R286): 5 ms in INIT take the port DOWN. -/
  | initTimeout (port : Nat)
  /-- RETRAIN_TIMEOUT (R286): A RETRAIN attempt not complete within 2 ms fails; three in a row take the port DOWN. -/
  | retrainTimeout (port : Nat)
  /-- PARTNER_LOSS (R313): 10 µs without a good IDLE or INIT frame: the partner is lost and the port goes DOWN. -/
  | partnerLoss (port : Nat)
  /-- VIOLATION_DOWN_END (R297): The 100 ms DOWN after repeated violation retrains ends and training starts. -/
  | violationDownEnd (port : Nat)
  /-- VIOLATION (R298): Receipt of a VIOLATION message, counted and recorded only. -/
  | violation (port vc : Nat) (msg : Bytes)
  /-- BULK_OPEN (R302): Receipt of a BULK_OPEN descriptor, answered with its status. -/
  | bulkOpen (port vc : Nat) (msg : Bytes)
  /-- BULK_DATA (R303): Receipt of BULK_DATA: order and size checks, then segments enqueued. -/
  | bulkData (port vc : Nat) (msg : Bytes)
  /-- BULK_CLOSE (R304): Receipt of BULK_CLOSE, answered after the stream's last output. -/
  | bulkClose (port vc : Nat) (msg : Bytes)
  /-- GOING_AWAY (R315): Receipt of a partner's GOING_AWAY: vault sessions avoid the port and the coming DOWN is planned. -/
  | goingAway (port vc : Nat) (msg : Bytes)
  /-- IDLE_MESSAGE (R310): A session silent for 10 ms sends an IDLE message. -/
  | idleMessage (port session : Nat)
  /-- IDLE_MESSAGE_RECEIPT (R310): Receipt of a session IDLE message, with no effect on loss detection. -/
  | idleMessageReceipt (port vc : Nat) (msg : Bytes)
  /-- CREDIT (R308): The HX7 sends a CREDIT when a lane limit advances, within 2 µs. -/
  | credit (port session : Nat)
  /-- SESSION_CLOSE_TIMEOUT (R294): A CLOSING session closes 10 ms after the command if work remains. -/
  | sessionCloseTimeout (port session : Nat)
  /-- SESSION_CLOSED (R294): A CLOSING session closes once nothing of it remains in flight. -/
  | sessionClosed (port session : Nat)
  /-- DRAIN_INTERVAL_END (R314): The planned-stop drain interval ends; open streams abort and the port waits for acknowledgements. -/
  | drainIntervalEnd (port : Nat)
  /-- PLANNED_STOP_DOWN (R314): Frames acknowledged or 100 µs passed after the drain interval: the port goes DOWN. -/
  | plannedStopDown (port : Nat)
  /-- PORT_ACK_WAIT_END (R314): The 100 µs wait for frame acknowledgements at the end of a planned stop expires. -/
  | portAckWaitEnd (port : Nat)
  /-- CMD_TAIL (R332): Write of the command doorbell with the host's producer index. -/
  | cmdTail (fn : Nat) (v : BitVec 32)
  /-- CPL_HEAD (R332): Write of the completion doorbell with the host's consumer index, delivering ring completions. -/
  | cplHead (fn : Nat) (v : BitVec 32)
  /-- RING_FETCH (R332): The HX7 fetches the next ring entry when a completion slot is free and fewer than 256 commands are in flight. -/
  | ringFetch (fn : Nat) (entry body : Bytes)
  /-- RING_CTRL_ENABLE (R332): Write of RING_CTRL: setting ENABLE starts both rings at index 0, clearing it stops them. -/
  | ringCtrlEnable (fn : Nat) (v : BitVec 32)
  /-- GO (R328): Write of GO to MBX_CTRL starts the mailbox command, or sets OVERRUN while BUSY. -/
  | go (fn : Nat) (v : BitVec 32)
  /-- EVENT_RW1C (R16): A write of 1 to an RW1C bit clears it in EVENT or MBX_STATUS. -/
  | eventRw1c (fn off : Nat) (v : BitVec 32)
  /-- REGISTER_WRITE (R326): A write to a BAR0 register with no row of its own. -/
  | registerWrite (fn off size : Nat) (v : Word)
  /-- COMPLETION_IRQ_DELAY (R333): The completion interrupt hold DELAY expires and the interrupt is sent. -/
  | completionIrqDelay (fn : Nat)
  /-- FLR (R335): Function-level reset of a VF starts an instance reset. -/
  | flr (fn : Nat)
  /-- INSTANCE_RESET_SQUASH (R335): At t = 100 µs lanes still draining are squashed and commands in flight are ended. -/
  | instanceResetSquash (fn : Nat)
  /-- INSTANCE_RESET_DONE (R335): Counts written, lanes reinstated and the function returns to ACTIVE. -/
  | instanceResetDone (fn : Nat)
  /-- LANE_EMPTY (R99): A DRAINING lane empties and goes to CLOSED. -/
  | laneEmpty (lane : Nat)
  /-- VF_ENABLE_CLEAR (R324): Clearing VF Enable or lowering NumVFs instance-resets each vanishing VF. -/
  | vfEnableClear (numVFs : Nat) (enable : Bool)
  /-- VF_ENABLE_SET (R324): Setting VF Enable brings assigned VFs back serving their colours. -/
  | vfEnableSet (numVFs : Nat)
  /-- D3HOT_ENTRY (R321): The PF enters D3hot: its BAR0 stops responding and its rings stop fetching. -/
  | d3hotEntry
  /-- D3HOT_EXIT (R321): The PF returns to D0 and its BAR0 and rings resume. -/
  | d3hotExit
  /-- FREEZE_AT_REST (R338): Everything of a freezing function is at rest: it enters FROZEN and VF.FREEZE completes. -/
  | freezeAtRest (fn : Nat)
  /-- DEVICE_INFO (R354): Command DEVICE.INFO returns identity, versions, life-cycle and measurement. -/
  | deviceInfo (c : Cmd)
  /-- DEVICE_STATUS (R354): Command DEVICE.STATUS returns device state and telemetry. -/
  | deviceStatus (c : Cmd)
  /-- DEVICE_RESET (R354): Command DEVICE.RESET writes its completion and schedules a warm reset 100 µs later. -/
  | deviceReset (c : Cmd)
  /-- WARM_RESET (R507): The warm reset begins, keeping LPDDR6, retention, MRAM and fault state and clearing the rest. -/
  | warmReset
  /-- DEVICE_STANDBY (R504): Command DEVICE.STANDBY enters deep standby. -/
  | deviceStandby (c : Cmd)
  /-- DEEP_STANDBY_ENTERED (R504): Deep standby entry completes with LPDDR6 in self-refresh and fast clocks stopped. -/
  | deepStandbyEntered
  /-- FAULT_READ (R471): Command FAULT.READ removes and returns queued fault messages. -/
  | faultRead (c : Cmd)
  /-- FAULT_CLEAR (R478): Command FAULT.CLEAR clears an active fault once its cause is confirmed gone. -/
  | faultClear (c : Cmd)
  /-- RECORDER_READ (R493): Command RECORDER.READ copies records tail first, body, head last. -/
  | recorderRead (c : Cmd)
  /-- LC_STATUS (R463): Command LC.STATUS returns life-cycle state, G and cycles left. -/
  | lcStatus (c : Cmd)
  /-- LC_ADVANCE (R464): Command LC.ADVANCE performs a life-cycle transition with its wipes. -/
  | lcAdvance (c : Cmd)
  /-- LC_REPROVISION (R457): Command LC.REPROVISION draws a new BBK and leaves TAMPER_ERASED. -/
  | lcReprovision (c : Cmd)
  /-- TAMPER_STATUS (R459): Command TAMPER.STATUS returns flags, counts and the HX3-compatible counter. -/
  | tamperStatus (c : Cmd)
  /-- TAMPER_CONFIG (R451): Command TAMPER.CONFIG sets a source's rank, N, M and period. -/
  | tamperConfig (c : Cmd)
  /-- RESERVE_STATUS (R22): Command RESERVE.STATUS returns cluster states and reserve designations. -/
  | reserveStatus (c : Cmd)
  /-- RESERVE_ENGAGE (R514): Command RESERVE.ENGAGE starts replacement of a named cluster. -/
  | reserveEngage (c : Cmd)
  /-- PART_FORMAT (R32): Command PART.FORMAT sets the partition profile. -/
  | partFormat (c : Cmd)
  /-- PART_CREATE (R33): Command PART.CREATE creates a partition of the entry's colour. -/
  | partCreate (c : Cmd)
  /-- PART_DELETE (R376): Command PART.DELETE drains or squashes lanes and frees the colour. -/
  | partDelete (c : Cmd)
  /-- PART_POLICY (R88): Command PART.POLICY sets a partition's policy classes. -/
  | partPolicy (c : Cmd)
  /-- PART_REKEY (R207): Command PART.REKEY advances E(c) and re-wraps the colour's tins. -/
  | partRekey (c : Cmd)
  /-- PART_STATUS (R354): Command PART.STATUS returns a partition's configuration and use. -/
  | partStatus (c : Cmd)
  /-- VF_CREATE (R323): Command VF.CREATE creates a partition and assigns a VF to it. -/
  | vfCreate (c : Cmd)
  /-- VF_DESTROY (R354): Command VF.DESTROY resets or discards a VF and unassigns it. -/
  | vfDestroy (c : Cmd)
  /-- VF_RESET (R335): Command VF.RESET starts an instance reset of a VF. -/
  | vfReset (c : Cmd)
  /-- VF_FREEZE (R338): Command VF.FREEZE stops a function at a ticket boundary. -/
  | vfFreeze (c : Cmd)
  /-- VF_THAW (R339): Command VF.THAW returns a FROZEN function to ACTIVE. -/
  | vfThaw (c : Cmd)
  /-- VF_SAVE (R339): Command VF.SAVE returns a piece of the migration package. -/
  | vfSave (c : Cmd)
  /-- VF_RESTORE (R342): Command VF.RESTORE accepts package pieces and rebuilds the function. -/
  | vfRestore (c : Cmd)
  /-- VF_STATUS (R354): Command VF.STATUS returns a function's state and colour. -/
  | vfStatus (c : Cmd)
  /-- LANE_CONFIG (R118): Command LANE.CONFIG sets a lane's level, quota, overflow and window. -/
  | laneConfig (c : Cmd)
  /-- LANE_STATUS (R121): Command LANE.STATUS returns a lane's state and counts. -/
  | laneStatus (c : Cmd)
  /-- DEPOT_SET (R112): Command DEPOT.SET sets warm floor and sleep delay. -/
  | depotSet (c : Cmd)
  /-- DEPOT_STATUS (R121): Command DEPOT.STATUS returns pool and error counts. -/
  | depotStatus (c : Cmd)
  /-- PLACE_STATUS (R121): Command PLACE.STATUS returns per-cluster placement state. -/
  | placeStatus (c : Cmd)
  /-- KEY_PUT (R187): Command KEY.PUT loads tins into the warm store after checks. -/
  | keyPut (c : Cmd)
  /-- KEY_GET (R354): Command KEY.GET reads tins and extensions out. -/
  | keyGet (c : Cmd)
  /-- KEY_LIST (R354): Command KEY.LIST lists handles, versions and attribute words. -/
  | keyList (c : Cmd)
  /-- KEY_GENERATE (R354): Command KEY.GENERATE creates a new key as a tin. -/
  | keyGenerate (c : Cmd)
  /-- KEY_DELETE (R181): Command KEY.DELETE deletes a record, leaving a tombstone. -/
  | keyDelete (c : Cmd)
  /-- KEY_SETATTR (R194): Command KEY.SETATTR narrows a record's attributes. -/
  | keySetattr (c : Cmd)
  /-- KEY_IMPORT (R208): Command KEY.IMPORT imports an X9.143 key block. -/
  | keyImport (c : Cmd)
  /-- KEY_EXPORT (R210): Command KEY.EXPORT exports a key as an X9.143 block. -/
  | keyExport (c : Cmd)
  /-- KEY_CARRY_OPEN (R215): Command KEY.CARRY.OPEN opens carry-forward for a staged image. -/
  | keyCarryOpen (c : Cmd)
  /-- KEY_CARRY_READ (R216): Command KEY.CARRY.READ returns carried tins from a position. -/
  | keyCarryRead (c : Cmd)
  /-- CADDY_STATUS (R218): Command CADDY.STATUS returns caddy quotas and counts. -/
  | caddyStatus (c : Cmd)
  /-- ITIN_LOAD (R84): Command ITIN.LOAD checks and loads an itinerary image. -/
  | itinLoad (c : Cmd)
  /-- ITIN_UNLOAD (R542): Command ITIN.UNLOAD removes an image. -/
  | itinUnload (c : Cmd)
  /-- ITIN_LIST (R354): Command ITIN.LIST lists loaded images. -/
  | itinList (c : Cmd)
  /-- ITIN_SIGNER_ADD (R354): Command ITIN.SIGNER.ADD installs an itinerary-signing key. -/
  | itinSignerAdd (c : Cmd)
  /-- ITIN_SIGNER_REMOVE (R354): Command ITIN.SIGNER.REMOVE removes an itinerary-signing key. -/
  | itinSignerRemove (c : Cmd)
  /-- VAULT_FORMAT (R229): Command VAULT.FORMAT creates or grows the vault. -/
  | vaultFormat (c : Cmd)
  /-- VAULT_ALLOC (R224): Command VAULT.ALLOC gives a colour an extent and XTS key pair. -/
  | vaultAlloc (c : Cmd)
  /-- VAULT_FREE (R227): Command VAULT.FREE zeroes a colour's extent through node puts. -/
  | vaultFree (c : Cmd)
  /-- VAULT_ATTACH (R236): Command VAULT.ATTACH names vault sessions and the timeout. -/
  | vaultAttach (c : Cmd)
  /-- VAULT_VERSION (R246): Command VAULT.VERSION returns a unit's verified version. -/
  | vaultVersion (c : Cmd)
  /-- VAULT_RECOVER (R244): Command VAULT.RECOVER leaves STALE under dual control. -/
  | vaultRecover (c : Cmd)
  /-- VAULT_STATUS (R249): Command VAULT.STATUS returns vault state and counts. -/
  | vaultStatus (c : Cmd)
  /-- JOURNAL_QUERY (R261): Command JOURNAL.QUERY answers for one colour and ticket. -/
  | journalQuery (c : Cmd)
  /-- JOURNAL_STATUS (R267): Command JOURNAL.STATUS returns horizon, use and watermarks. -/
  | journalStatus (c : Cmd)
  /-- FRERI_CONFIG (R314): Command FRERI.CONFIG sets port enable, equalisers, drain interval, base key or starts a planned stop. -/
  | freriConfig (c : Cmd)
  /-- FRERI_SESSION_OPEN (R291): Command FRERI.SESSION.OPEN opens a session and derives its GMAC key. -/
  | freriSessionOpen (c : Cmd)
  /-- FRERI_SESSION_CLOSE (R294): Command FRERI.SESSION.CLOSE moves a session to CLOSING. -/
  | freriSessionClose (c : Cmd)
  /-- FRERI_STATUS (R318): Command FRERI.STATUS returns link and session status. -/
  | freriStatus (c : Cmd)
  /-- TIME_STATUS (R405): Command TIME.STATUS returns milepost time and quality. -/
  | timeStatus (c : Cmd)
  /-- TIME_CONFIG (R405): Command TIME.CONFIG sets domain, delay mechanism, PPS_OUT and holdover source. -/
  | timeConfig (c : Cmd)
  /-- ENTROPY_STATUS (R410): Command ENTROPY.STATUS returns kettle credit and cell estimates. -/
  | entropyStatus (c : Cmd)
  /-- ENTROPY_CONFIG (R408): Command ENTROPY.CONFIG sets the strainer mode of each cell. -/
  | entropyConfig (c : Cmd)
  /-- ENTROPY_KAT (R422): Command ENTROPY.KAT runs a known-answer test on a unit. -/
  | entropyKat (c : Cmd)
  /-- CEREMONY_BEGIN (R438): Command CEREMONY.BEGIN starts a ceremony for a purpose and digest. -/
  | ceremonyBegin (c : Cmd)
  /-- CEREMONY_STATUS (R352): Command CEREMONY.STATUS returns state and any authorisation. -/
  | ceremonyStatus (c : Cmd)
  /-- CEREMONY_ABORT (R443): Command CEREMONY.ABORT aborts the ceremony. -/
  | ceremonyAbort (c : Cmd)
  /-- CEREMONY_OMK (R444): Command CEREMONY.OMK forms and stores the operator master key. -/
  | ceremonyOmk (c : Cmd)
  /-- FW_STATUS (R354): Command FW.STATUS returns running and staged measurements. -/
  | fwStatus (c : Cmd)
  /-- FW_STAGE (R355): Command FW.STAGE accepts a piece of a new image and verifies the last. -/
  | fwStage (c : Cmd)
  /-- FW_ACTIVATE (R216): Command FW.ACTIVATE enters STOPPING, re-wraps the warm store and commits the new image. -/
  | fwActivate (c : Cmd)
  /-- FW_REWRAP_DONE (R216): The in-place re-wrap completes, the boot image is committed and the device restarts. -/
  | fwRewrapDone
  /-- REKEY_REWRAP_DONE (R207): The re-wrap of a colour's tins for a new epoch completes. -/
  | rekeyRewrapDone (colour : Colour)
  /-- AUTHORISATION_VOID (R352): An authorisation not consumed within 300 s becomes void. -/
  | authorisationVoid
  /-- SYNC (R393): Receipt of a PTP Sync message, forming an offset for the servo. -/
  | sync (m : PtpMsg)
  /-- FOLLOW_UP (R404): Receipt of a PTP Follow_Up completing a two-step Sync. -/
  | followUp (m : PtpMsg)
  /-- ANNOUNCE (R398): Receipt of a PTP Announce, used for best-master selection. -/
  | announce (m : PtpMsg)
  /-- DELAY_RESP (R398): Receipt of a PTP Delay_Resp completing a path delay measurement. -/
  | delayResp (m : PtpMsg)
  /-- PDELAY_REQ (R398): Receipt of a PTP Pdelay_Req, answered two-step. -/
  | pdelayReq (m : PtpMsg)
  /-- PDELAY_RESP (R398): Receipt of a PTP Pdelay_Resp or its Follow_Up for peer delay. -/
  | pdelayResp (m : PtpMsg)
  /-- DELAY_REQ_SEND (R398): The timing port sends Delay_Req at the master's interval. -/
  | delayReqSend
  /-- PDELAY_REQ_SEND (R398): The timing port sends Pdelay_Req once per second. -/
  | pdelayReqSend
  /-- ANNOUNCE_RECEIPT_TIMEOUT (R393): announceReceiptTimeout expires and the master is no longer selected. -/
  | announceReceiptTimeout
  /-- SYNC_LOSS_TIMEOUT (R393): No usable offset for 4 Sync intervals takes LOCKED to HOLDOVER. -/
  | syncLossTimeout
  /-- HOLDOVER_ESTIMATE_EXCEEDED (R393): The error estimate passes 1 ms with no master and time becomes INVALID. -/
  | holdoverEstimateExceeded
  /-- REF10M_LOST (R396): No REF10M_IN edge for 1 µs: the servo changes to the internal source. -/
  | ref10mLost
  /-- PPS_IN_EDGE (R397): A PPS_IN rising edge is timestamped and qualifies or disqualifies PPS_IN. -/
  | ppsInEdge
  /-- PPS_IN_MISSED (R397): Two missed PPS_IN edges disqualify PPS_IN. -/
  | ppsInMissed
  /-- MILEPOST_SECOND (R402): The counter's nanoseconds carry into seconds and PPS_OUT rises when enabled and valid. -/
  | milepostSecond
  /-- PPS_OUT_FALL (R402): PPS_OUT falls 100 ms after the second boundary. -/
  | ppsOutFall
  /-- TIMING_LINK_DOWN (R393): The timing port link goes down and LOCKED moves to HOLDOVER. -/
  | timingLinkDown
  /-- CELL_STABILISED (R407): A noise cell's stabilisation ends and its start-up test begins. -/
  | cellStabilised (n : Nat)
  /-- NOISE_WINDOW_END (R410): A 4,096-bit strained window completes and is tested, absorbed and credited. -/
  | noiseWindowEnd (n : Nat) (raw : List (Bool × Bool))
  /-- FILL_TIME_EXCEEDED (R410): A window not filled within 4.096 ms fails the fill-time test. -/
  | fillTimeExceeded (n : Nat)
  /-- KETTLE_DRAW (R414): A waiting draw is served once the kettle holds 512 credited bits. -/
  | kettleDraw
  /-- DRBG_GENERATE (R416): An expander runs a 512-byte generate when its buffer holds 512 bytes or fewer. -/
  | drbgGenerate (e : Nat)
  /-- RESEED_REQUESTED (R416): An expander requests a reseed at 49,152 generates or 75 ms. -/
  | reseedRequested (e : Nat)
  /-- RESEED_REQUIRED (R416): An expander blocks generation at 65,536 generates or 100 ms. -/
  | reseedRequired (e : Nat)
  /-- SEED_WAIT (R424): A required reseed has waited 1 ms and a class 0 fault is raised. -/
  | seedWait (e : Nat)
  /-- KAT_DONE (R423): A kettle or expander known-answer test completes, passing or raising ENTROPY_KAT. -/
  | katDone (src : BitVec 16) (failed : Nat) (cell : Nat)
  /-- CARD_INSERTED (R427): CARDn_PRES_N low for 1 ms: insertion recognised and the slot activated. -/
  | cardInserted (slot : Nat)
  /-- CARD_REMOVED (R427): CARDn_PRES_N goes high: the slot is deactivated within 100 µs. -/
  | cardRemoved (slot : Nat)
  /-- ATR (R428): Receipt of a card's ATR, checked for T=1 and class. -/
  | atr (slot : Nat) (bytes : Bytes)
  /-- ATR_TIMEOUT (R426): No ATR within 40,000 clocks: class B reactivation or refusal. -/
  | atrTimeout (slot : Nat)
  /-- CLASS_B_REACTIVATE (R426): 10 ms after deactivation the slot activates again at class B. -/
  | classBReactivate (slot : Nat)
  /-- PPS_RESPONSE (R429): Receipt of the card's PPS response, checked for echo. -/
  | ppsResponse (slot : Nat) (bytes : Bytes)
  /-- T1_BLOCK (R431): Receipt of a T=1 block from the card. -/
  | t1Block (slot : Nat) (bytes : Bytes)
  /-- BLOCK_WAITING_TIMEOUT (R431): The block waiting time expires and an R-block is sent, up to 3 times. -/
  | blockWaitingTimeout (slot : Nat)
  /-- WTX_CEILING (R431): The total WTX wait reaches the ceiling and the card is deactivated. -/
  | wtxCeiling (slot : Nat)
  /-- CARD_INACTIVITY (R427): 60 s without a command to a card deactivates it. -/
  | cardInactivity (slot : Nat)
  /-- CEREMONY_TIMEOUT (R443): 900 s without GRANTED, or 300 s in GRANTED for 0x0C04, abort the ceremony. -/
  | ceremonyTimeout
  /-- SOURCE_SAMPLE (R450): A sampled tamper source is sampled at its period and its window updated. -/
  | sourceSample (samples : List (Nat × BitVec 8))
  /-- CONTINUOUS_INTERVAL (R446): A 1 ms interval of a continuous tamper source ends and counts as one sample. -/
  | continuousInterval (samples : List (Nat × BitVec 8))
  /-- TAMPER_RESPONSE_DONE (R454): A running response completes and the next rank of the set, or a waiting alarm, begins. -/
  | tamperResponseDone
  /-- SHADOW_CHECK (R462): The 1 ms check of shadowed registers; a mismatch raises a grave fault. -/
  | shadowCheck
  /-- BACKUP_SHADOW_MISMATCH (R460): On VBAT alone a configuration shadow mismatch sets flag 12 and restores defaults. -/
  | backupShadowMismatch
  /-- FAULT_ARRIVAL (R476): A fault message arrives at the collector, which acts by class, then queues it. -/
  | faultArrival (cls : Fin 5) (kind : Byte) (src : BitVec 16) (detail : Word)
  /-- CLASS3_SQUASH (R477): The Steward's handling of a class 3 fault squashes every tenant lane. -/
  | class3Squash
  /-- FAULT_HANDLING (R483): The Steward handles the next queued fault in class order. -/
  | faultHandling
  /-- GATE_LATCH_CLEAR (R368): 1 ms after a class 0 gate fault the gate's first-violation latch clears. -/
  | gateLatchClear (gate : Nat)
  /-- ALIVE_OUT_TOGGLE (R485): ALIVE_OUT toggles at its 500 µs half period while READY or STOPPING. -/
  | aliveOutToggle
  /-- PEER_ALIVE_IN_EDGE (R487): An edge on PEER_ALIVE_IN; after a loss it raises PEER_ALIVE_BACK. -/
  | peerAliveInEdge
  /-- PEER_ALIVE_LOST (R487): 3 ms without a PEER_ALIVE_IN edge: the peer is declared lost. -/
  | peerAliveLost
  /-- RECORDER_SAMPLE (R490): A recorder metric is sampled at its interval and its record updated. -/
  | recorderSample (rec : Nat) (value : Int)
  /-- RECORDER_FLUSH (R492): A flush of the recorder buffer to MRAM starts on a trigger. -/
  | recorderFlush
  /-- RECORDER_FLUSH_DONE (R492): A recorder flush completes and any pending flush starts. -/
  | recorderFlushDone
  /-- RECORDER_PERIODIC_FLUSH (R492): 16 operating hours pass and a flush is triggered. -/
  | recorderPeriodicFlush
  /-- OPERATING_HOURS_TICK (R491): Every 1/16 h the operating hours count is written to MRAM. -/
  | operatingHoursTick
  /-- HOLDER_RENEWAL (R387): The token holder renews its claim every 50 µs. -/
  | holderRenewal
  /-- REFEREE_CLAIM (R387): The referee decides a renewal or takeover claim by Table 12.8. -/
  | refereeClaim (claims : List Claim)
  /-- CLAIM_LAPSE (R387): 200 µs without renewal set the lapse flag. -/
  | claimLapse
  /-- LOCKSTEP_MISMATCH (R387): The holder's lockstep comparator reports a mismatch and the lapse flag is set. -/
  | lockstepMismatch
  /-- FAILOVER_GRANT (R388): A takeover is granted after gates drain; the new holder takes over interrupted work. -/
  | failoverGrant
  /-- STEWARD_SELFTEST_DONE (R388): The failed pair's self-test completes and it becomes standby or raises a fault. -/
  | stewardSelftestDone (south : Bool) (ok : Bool)
  /-- GATE_EPOCH_FLIP (R369): The Inner world flips a gate's epoch to its new rule bank. -/
  | gateEpochFlip (gate : Nat) (rules : List Region)
  /-- GATE_DRAIN_DONE (R369): A gate's old-epoch accesses drain and the rule change completes. -/
  | gateDrainDone (gate : Nat)
  /-- GATE_DRAIN_OVERDUE (R371): A gate's old epoch has not drained within 2 µs. -/
  | gateDrainOverdue (gate : Nat)
  /-- INNER_HOLD_OVERDUE (R382): An Inner-world hold lasts beyond 10 ms. -/
  | innerHoldOverdue (src : BitVec 16)
  /-- HOLD_RELEASE (R383): The last hold on a unit is released and deferred stop requests run in order. -/
  | holdRelease (src : BitVec 16)
  /-- FORCED_STOP (R384): Thermal protection at 108 °C or current limit zeroises and stops a unit. -/
  | forcedStop (c : Nat)
  /-- SHARE_STORE_PROPAGATED (R379): A store into mirrored share bytes reaches every cluster copy. -/
  | shareStorePropagated (colour : Colour)
  /-- PORST_N_ASSERT (R527): PORST_N asserted: transmitters idle and everything stops. -/
  | porstNAssert
  /-- PORST_N_RELEASE (R508): PORST_N released: cold start begins. -/
  | porstNRelease
  /-- RAIL_BELOW_THRESHOLD (R498): A monitored rail below its reset threshold for 1 µs acts as PORST_N. -/
  | railBelowThreshold (rail : Nat)
  /-- STARTUP_STEP_DONE (R508): A start-up step of Table 18.4 completes and the next begins. -/
  | startupStepDone (obs : BootObs)
  /-- GOVERNOR_TICK (R500): Every 10 µs the power governor estimates power and steps cluster clocks. -/
  | governorTick (power : Nat)
  /-- LOOP_ADJUST (R499): A cluster's adaptive loop steps its voltage or clock. -/
  | loopAdjust (c : Nat) (slack : Int) (temp : Int) (stretch : Bool)
  /-- MARGIN_LOW_1S (R511): A cluster's slack below 10 ps for 1 s flags it failing. -/
  | marginLow1s (c : Nat)
  /-- CORRECTED_RATE_HIGH (R511): More than 100 corrected errors per s over 10 s flag a cluster failing. -/
  | correctedRateHigh (c : Nat)
  /-- SELFTEST_DUE (R511): The 24 h self-test or known-answer test of a TE, MAE or reserve cluster falls due. -/
  | selftestDue (src : BitVec 16)
  /-- SELFTEST_DONE (R512): A unit self-test completes; a failure takes the unit out of service. -/
  | selftestDone (src : BitVec 16) (ok : Bool)
  /-- QUIESCE_DONE (R514): Quiesce of the failing cluster completes and its state moves to the reserve. -/
  | quiesceDone (c : Nat)
  /-- RESERVE_ENGAGED (R514): The reserve replaces the failing cluster in every placement set and it is retired. -/
  | reserveEngaged (c : Nat)
  /-- DRAM_PAGE_REMAP (R519): A failing LPDDR6 row's page is remapped to the spare pool. -/
  | dramPageRemap (page : Nat)
  /-- DRAM_UNCORRECTABLE (R518): An uncorrectable LPDDR6 error is reported and the row queued for remap. -/
  | dramUncorrectable (ch : Nat) (addr : BitVec 40)
  /-- CADDY_INTEGRITY (R202): An uncorrectable caddy word raises the grave fault. -/
  | caddyIntegrity (slot : BitVec 17)
  /-- SRAM_CORRECTED (R474): A corrected SRAM error is reported as a class 1 fault. -/
  | sramCorrected (src : BitVec 16) (detail : Word)
  /-- DEGRADED_VPUT_TIMEOUT (R242): A VPUT waiting in DEGRADED for the repair reaches the vault timeout and returns HOST_UNAVAILABLE. -/
  | degradedVputTimeout (u : SeatRef)
  /-- PPS_RESPONSE_TIMEOUT (R429): A card gives no PPS response and is deactivated and activated again at Fi = 372, Di = 1. -/
  | ppsResponseTimeout (slot : Nat)
  /-- DRAM_CORRECTED (R518): A corrected LPDDR6 error raises a class 1 fault and counts toward the three-word remap rule. -/
  | dramCorrected (ch : Nat) (addr : BitVec 40)
  /-- MRAM_CORRECTED (R474): A corrected MRAM error raises a class 1 fault from H.MRAM. -/
  | mramCorrected (off : BitVec 21)
  /-- DMA_FAULT (R331): A host-memory DMA read or write completes with Unsupported Request or Completer Abort, or times out, giving BUFFER_FAULT or a ring halt. -/
  | dmaFault (fn : Nat) (at_ : DmaPoint)
  /-- FRERI_REFCLK_PRESENT (R495): A Freri port's reference clock becomes present and the enabled port begins training. -/
  | freriRefclkPresent (port : Nat)
  /-- DBG_UNLOCK (R468): The JTAG instruction DBG_UNLOCK with a signed unlock record is checked, the BBK erased and debug opened in a RECLAIMED state. -/
  | dbgUnlock (unlock : Bytes)
  /-- VENDOR_TEST_MODE (R463): Vendor test mode on JTAG performs the transitions from WAFER and PACKAGE_TEST. -/
  | vendorTestMode (target : Byte)
  /-- LC_TRANSITION_DONE (R464): The wipes of a life-cycle transition complete, within 1.5 s or 4 s, and LC.ADVANCE completes in the new state. -/
  | lcTransitionDone
  /-- GRANULE_ZEROING_DONE (R376): The zeroing of a deleted colour's granules completes and they are tagged free, completing PART.DELETE. -/
  | granuleZeroingDone (colour : Colour)
  deriving DecidableEq, Repr

end Sys2Proof
end

