-- ==== Sys2Proof/Decode.lean ====
section
/-! DEFINITION. Commands spelt by words. No row of spec/opcode_table.json gives bits, so no word spells a command
(log entry 5). -/

namespace Sys2Proof

/-- The command a word spells by the table's bits: the table gives bits to no row, so a word spells none. -/
def decodeTableWord (_nbits _w : Nat) : Option Instr := .none

end Sys2Proof
end

