-- ==== Sys2Proof/Machine/Tbl.lean ====
section
/-! DEFINITION. A sparse table keyed by a number: a list of pairs, keys strictly rising, one entry per key. What an
unlisted key reads as is given at each read, so that a table of 16,384 lanes is empty where nothing has changed. -/

namespace Sys2Proof.Machine

/-- A table from numbers to records. -/
abbrev Tbl (α : Type) := List (Nat × α)

/-- The record listed at a key. -/
def Tbl.find? {α : Type} : Tbl α → Nat → Option α
  | [], _ => none
  | (k, v) :: t, i => if k = i then some v else Tbl.find? t i

/-- The record at a key; an unlisted key reads as `d`. -/
def Tbl.get {α : Type} (t : Tbl α) (i : Nat) (d : α) : α := (t.find? i).getD d

/-- List a record at a key, in the place of the one there. -/
def Tbl.set {α : Type} : Tbl α → Nat → α → Tbl α
  | [], i, x => [(i, x)]
  | (k, v) :: t, i, x =>
    if k = i then (i, x) :: t
    else if i < k then (i, x) :: (k, v) :: t
    else (k, v) :: Tbl.set t i x

/-- Unlist a key. -/
def Tbl.erase {α : Type} : Tbl α → Nat → Tbl α
  | [], _ => []
  | (k, v) :: t, i => if k = i then t else (k, v) :: Tbl.erase t i

/-- Whether a key is listed. -/
def Tbl.has {α : Type} (t : Tbl α) (i : Nat) : Bool := (t.find? i).isSome

/-- The listed keys. -/
def Tbl.keys {α : Type} (t : Tbl α) : List Nat := t.map Prod.fst

/-- The listed records. -/
def Tbl.vals {α : Type} (t : Tbl α) : List α := t.map Prod.snd

/-- Change every listed record. -/
def Tbl.mapVals {α : Type} (t : Tbl α) (f : α → α) : Tbl α := t.map fun p => (p.1, f p.2)

/-- The strict order of the keys. -/
abbrev Tbl.wf {α : Type} (t : Tbl α) : Prop := (t.map Prod.fst).Pairwise (· < ·)

end Sys2Proof.Machine
end

