-- ==== Sys2Proof/Machine/Bits.lean ====
section
/-! DEFINITION. Bytes and numbers: the two byte orders (R12, R13), fields of a byte string, exclusive-or of byte
strings, and the CRC-32 of IEEE 802.3 (log entry 9). -/

namespace Sys2Proof.Machine

/-- The low `n` bytes of a number, least significant first (R13). -/
def natLE : Nat → Nat → Bytes
  | 0, _ => []
  | n + 1, v => BitVec.ofNat 8 v :: natLE n (v / 256)

/-- The low `n` bytes of a number, most significant first (R12). -/
def natBE (n v : Nat) : Bytes := (natLE n v).reverse

/-- The number a little-endian byte string spells (R13). -/
def leNat : Bytes → Nat
  | [] => 0
  | b :: r => b.toNat + 256 * leNat r

/-- The number a big-endian byte string spells (R12). -/
def beNat (b : Bytes) : Nat := leNat b.reverse

/-- The bytes at an offset. -/
def slice (b : Bytes) (off len : Nat) : Bytes := (b.drop off).take len

/-- A big-endian field of a byte string. -/
def fieldBE (b : Bytes) (off n : Nat) : Nat := beNat (slice b off n)

/-- A little-endian field of a byte string. -/
def fieldLE (b : Bytes) (off n : Nat) : Nat := leNat (slice b off n)

/-- A byte string cut or filled with zeros to a length. -/
def padTo (n : Nat) (b : Bytes) : Bytes := b.take n ++ List.replicate (n - b.length) 0

/-- A byte string with `x` in the place of the bytes at an offset. -/
def splice (b : Bytes) (off : Nat) (x : Bytes) : Bytes := b.take off ++ x ++ b.drop (off + x.length)

/-- Bytewise exclusive-or, as long as the shorter string. -/
def xorBytes (a b : Bytes) : Bytes := List.zipWith (· ^^^ ·) a b

/-- Whether every byte is zero. -/
def allZero (b : Bytes) : Bool := b.all (· == 0)

/-- Cut a list into pieces of `n`, at most `fuel` of them. -/
def chunksFuel {α : Type} (n : Nat) : Nat → List α → List (List α)
  | 0, _ => []
  | _ + 1, [] => []
  | f + 1, l => l.take n :: chunksFuel n f (l.drop n)

/-- Cut a list into pieces of `n`, the last one short if need be. -/
def chunks {α : Type} (n : Nat) (l : List α) : List (List α) := chunksFuel n l.length l

/-- The block a byte string spells, byte 0 in bits [127:120] (Table 2.1). -/
def toBlock (b : Bytes) : Block := BitVec.ofNat 128 (beNat (padTo 16 b))

/-- The 16 bytes of a block. -/
def blockBytes (x : Block) : Bytes := natBE 16 x.toNat

/-- Bit `i` of a number. -/
def bit (v i : Nat) : Bool := v / 2 ^ i % 2 == 1

/-- Bits [hi:lo] of a number (R10). -/
def bits (v hi lo : Nat) : Nat := v / 2 ^ lo % 2 ^ (hi + 1 - lo)

/-- 1 for true, 0 for false. -/
def b2n (b : Bool) : Nat := if b then 1 else 0

/-- The bytes of a text, in ASCII. -/
def ascii (t : String) : Bytes := t.toList.map fun c => BitVec.ofNat 8 c.toNat

/-- One bit of the reflected CRC-32. -/
def crcBit (c : BitVec 32) : BitVec 32 := if c.getLsbD 0 then (c >>> 1) ^^^ 0xEDB88320#32 else c >>> 1

/-- One byte of the reflected CRC-32. -/
def crcByte (c : BitVec 32) (b : Byte) : BitVec 32 := Nat.repeat crcBit 8 (c ^^^ b.zeroExtend 32)

/-- CRC-32 with the IEEE 802.3 polynomial (PRESUMED, log entry 9). -/
def crc32 (b : Bytes) : BitVec 32 := ~~~(b.foldl crcByte 0xFFFFFFFF#32)

/-- Change the record at a position of a list. -/
def modNth {α : Type} (f : α → α) : Nat → List α → List α
  | _, [] => []
  | 0, x :: r => f x :: r
  | n + 1, x :: r => x :: modNth f n r

/-- Change the first record that meets a test. -/
def modFirst {α : Type} (p : α → Bool) (f : α → α) : List α → List α
  | [] => []
  | x :: r => if p x then f x :: r else x :: modFirst p f r

/-- The quotient rounded up. -/
def ceilDiv (a b : Nat) : Nat := (a + b - 1) / b

end Sys2Proof.Machine
end

