-- ==== Sys2Proof/Machine/Sha.lean ====
section
/-! DEFINITION. The hash functions of R59 as FIPS 180-4 and FIPS 202 publish them, and KMAC256 of SP 800-185
(PRESUMED, log entry 9). -/

namespace Sys2Proof.Machine

/-- The round constants of SHA-256. -/
def sha256K : List Nat :=
  [0x428A2F98, 0x71374491, 0xB5C0FBCF, 0xE9B5DBA5, 0x3956C25B, 0x59F111F1, 0x923F82A4, 0xAB1C5ED5,
   0xD807AA98, 0x12835B01, 0x243185BE, 0x550C7DC3, 0x72BE5D74, 0x80DEB1FE, 0x9BDC06A7, 0xC19BF174,
   0xE49B69C1, 0xEFBE4786, 0x0FC19DC6, 0x240CA1CC, 0x2DE92C6F, 0x4A7484AA, 0x5CB0A9DC, 0x76F988DA,
   0x983E5152, 0xA831C66D, 0xB00327C8, 0xBF597FC7, 0xC6E00BF3, 0xD5A79147, 0x06CA6351, 0x14292967,
   0x27B70A85, 0x2E1B2138, 0x4D2C6DFC, 0x53380D13, 0x650A7354, 0x766A0ABB, 0x81C2C92E, 0x92722C85] ++
  [0xA2BFE8A1, 0xA81A664B, 0xC24B8B70, 0xC76C51A3, 0xD192E819, 0xD6990624, 0xF40E3585, 0x106AA070,
   0x19A4C116, 0x1E376C08, 0x2748774C, 0x34B0BCB5, 0x391C0CB3, 0x4ED8AA4A, 0x5B9CCA4F, 0x682E6FF3,
   0x748F82EE, 0x78A5636F, 0x84C87814, 0x8CC70208, 0x90BEFFFA, 0xA4506CEB, 0xBEF9A3F7, 0xC67178F2]

/-- The round constants of SHA-512. -/
def sha512K : List Nat :=
  [0x428A2F98D728AE22, 0x7137449123EF65CD, 0xB5C0FBCFEC4D3B2F, 0xE9B5DBA58189DBBC,
   0x3956C25BF348B538, 0x59F111F1B605D019, 0x923F82A4AF194F9B, 0xAB1C5ED5DA6D8118,
   0xD807AA98A3030242, 0x12835B0145706FBE, 0x243185BE4EE4B28C, 0x550C7DC3D5FFB4E2,
   0x72BE5D74F27B896F, 0x80DEB1FE3B1696B1, 0x9BDC06A725C71235, 0xC19BF174CF692694,
   0xE49B69C19EF14AD2, 0xEFBE4786384F25E3, 0x0FC19DC68B8CD5B5, 0x240CA1CC77AC9C65,
   0x2DE92C6F592B0275, 0x4A7484AA6EA6E483, 0x5CB0A9DCBD41FBD4, 0x76F988DA831153B5,
   0x983E5152EE66DFAB, 0xA831C66D2DB43210, 0xB00327C898FB213F, 0xBF597FC7BEEF0EE4,
   0xC6E00BF33DA88FC2, 0xD5A79147930AA725, 0x06CA6351E003826F, 0x142929670A0E6E70,
   0x27B70A8546D22FFC, 0x2E1B21385C26C926, 0x4D2C6DFC5AC42AED, 0x53380D139D95B3DF,
   0x650A73548BAF63DE, 0x766A0ABB3C77B2A8, 0x81C2C92E47EDAEE6, 0x92722C851482353B] ++
  [0xA2BFE8A14CF10364, 0xA81A664BBC423001, 0xC24B8B70D0F89791, 0xC76C51A30654BE30,
   0xD192E819D6EF5218, 0xD69906245565A910, 0xF40E35855771202A, 0x106AA07032BBD1B8,
   0x19A4C116B8D2D0C8, 0x1E376C085141AB53, 0x2748774CDF8EEB99, 0x34B0BCB5E19B48A8,
   0x391C0CB3C5C95A63, 0x4ED8AA4AE3418ACB, 0x5B9CCA4F7763E373, 0x682E6FF3D6B2B8A3,
   0x748F82EE5DEFB2FC, 0x78A5636F43172F60, 0x84C87814A1F0AB72, 0x8CC702081A6439EC,
   0x90BEFFFA23631E28, 0xA4506CEBDE82BDE9, 0xBEF9A3F7B2C67915, 0xC67178F2E372532B,
   0xCA273ECEEA26619C, 0xD186B8C721C0C207, 0xEADA7DD6CDE0EB1E, 0xF57D4F7FEE6ED178,
   0x06F067AA72176FBA, 0x0A637DC5A2C898A6, 0x113F9804BEF90DAE, 0x1B710B35131C471B,
   0x28DB77F523047D84, 0x32CAAB7B40C72493, 0x3C9EBE0A15C9BEBC, 0x431D67C49C100D4C,
   0x4CC5D4BECB3E42B6, 0x597F299CFC657E2A, 0x5FCB6FAB3AD6FAEC, 0x6C44198C4A475817]

/-- The initial value of SHA-224. -/
def sha224H : List Nat :=
  [0xC1059ED8, 0x367CD507, 0x3070DD17, 0xF70E5939, 0xFFC00B31, 0x68581511, 0x64F98FA7, 0xBEFA4FA4]

/-- The initial value of SHA-256. -/
def sha256H : List Nat :=
  [0x6A09E667, 0xBB67AE85, 0x3C6EF372, 0xA54FF53A, 0x510E527F, 0x9B05688C, 0x1F83D9AB, 0x5BE0CD19]

/-- The initial value of SHA-384. -/
def sha384H : List Nat :=
  [0xCBBB9D5DC1059ED8, 0x629A292A367CD507, 0x9159015A3070DD17, 0x152FECD8F70E5939,
   0x67332667FFC00B31, 0x8EB44A8768581511, 0xDB0C2E0D64F98FA7, 0x47B5481DBEFA4FA4]

/-- The initial value of SHA-512. -/
def sha512H : List Nat :=
  [0x6A09E667F3BCC908, 0xBB67AE8584CAA73B, 0x3C6EF372FE94F82B, 0xA54FF53A5F1D36F1,
   0x510E527FADE682D1, 0x9B05688C2B3E6C1F, 0x1F83D9ABFB41BD6B, 0x5BE0CD19137E2179]

/-- What distinguishes the two SHA-2 word sizes: rotation and shift amounts of the four functions. -/
structure Sha2Params where
  width : Nat
  rounds : Nat
  k : List Nat
  bigA : Nat × Nat × Nat
  bigE : Nat × Nat × Nat
  small0 : Nat × Nat × Nat
  small1 : Nat × Nat × Nat

/-- The 32-bit family. -/
def sha2Narrow : Sha2Params :=
  { width := 32, rounds := 64, k := sha256K, bigA := (2, 13, 22), bigE := (6, 11, 25), small0 := (7, 18, 3), small1 := (17, 19, 10) }

/-- The 64-bit family. -/
def sha2Wide : Sha2Params :=
  { width := 64, rounds := 80, k := sha512K, bigA := (28, 34, 39), bigE := (14, 18, 41), small0 := (1, 8, 7), small1 := (19, 61, 6) }

/-- Rotate `w` bits right. -/
def rotr (w n x : Nat) : Nat := x / 2 ^ n + (x % 2 ^ n) * 2 ^ (w - n)

/-- Three rotations combined. -/
def sha2Big (w : Nat) (t : Nat × Nat × Nat) (x : Nat) : Nat :=
  Nat.xor (Nat.xor (rotr w t.1 x) (rotr w t.2.1 x)) (rotr w t.2.2 x)

/-- Two rotations and a shift combined. -/
def sha2Small (w : Nat) (t : Nat × Nat × Nat) (x : Nat) : Nat :=
  Nat.xor (Nat.xor (rotr w t.1 x) (rotr w t.2.1 x)) (x / 2 ^ t.2.2)

/-- The message schedule, newest word first. -/
def sha2Schedule (p : Sha2Params) : Nat → List Nat → List Nat
  | 0, ws => ws
  | f + 1, ws =>
    let w := (sha2Small p.width p.small1 (ws.getD 1 0) + ws.getD 6 0 + sha2Small p.width p.small0 (ws.getD 14 0) +
      ws.getD 15 0) % 2 ^ p.width
    sha2Schedule p f (w :: ws)

/-- One round on the eight working words, given schedule word plus constant. -/
def sha2Round (p : Sha2Params) (v : List Nat) (kw : Nat) : List Nat :=
  match v with
  | [a, b, c, d, e, f, g, h] =>
    let ch := Nat.xor (Nat.land e f) (Nat.land (2 ^ p.width - 1 - e) g)
    let maj := Nat.xor (Nat.xor (Nat.land a b) (Nat.land a c)) (Nat.land b c)
    let t1 := h + sha2Big p.width p.bigE e + ch + kw
    let t2 := sha2Big p.width p.bigA a + maj
    [(t1 + t2) % 2 ^ p.width, a, b, c, (d + t1) % 2 ^ p.width, e, f, g]
  | _ => v

/-- The compression of one block. -/
def sha2Compress (p : Sha2Params) (h : List Nat) (block : Bytes) : List Nat :=
  let ws := (chunks (p.width / 8) block).map beNat
  let ks := List.zipWith (· + ·) (sha2Schedule p (p.rounds - 16) ws.reverse).reverse p.k
  let v := ks.foldl (sha2Round p) h
  List.zipWith (fun x y => (x + y) % 2 ^ p.width) h v

/-- A byte of the feedback register that makes the round constants, t steps from 1: x^8 + x^6 + x^5 + x^4 + 1. -/
def keccakStep (t : Nat) : Nat := Nat.repeat (fun r => if 128 ≤ r then Nat.xor (2 * r) 0x171 else 2 * r) t 1

/-- The constant of a round: bit 2^j - 1 is the register's output at step 7i + j. -/
def keccakConst (i : Nat) : Nat := ((List.range 7).map fun j => keccakStep (7 * i + j) % 2 * 2 ^ (2 ^ j - 1)).sum

/-- The lanes other than (0, 0) in the order in which ρ and π walk over them, from a lane on: (x, y) goes to (y, 2x + 3y). -/
def keccakWalk : Nat → Nat → Nat → List (Nat × Nat)
  | 0, _, _ => []
  | n + 1, x, y => (x, y) :: keccakWalk n y ((2 * x + 3 * y) % 5)

/-- How far ρ turns each lane, with the place the lane comes from: the t-th of the walk by (t + 1)(t + 2) / 2. -/
def keccakTurns : List ((Nat × Nat) × Nat) := ((0, 0), 0) :: (keccakWalk 24 1 0).mapIdx fun t p => (p, (t + 1) * (t + 2) / 2 % 64)

/-- Which lane, turned how far, comes to each place 5y + x: lane (x', y') goes to (y', 2x' + 3y'). -/
def keccakMoves : List (Nat × Nat) :=
  (List.range 25).map fun i =>
    match keccakTurns.find? fun q => (5 * ((2 * q.1.1 + 3 * q.1.2) % 5) + q.1.2) == i with
    | some q => (5 * q.1.2 + q.1.1, q.2)
    | .none => (0, 0)

/-- Rotate 64 bits left. -/
def rotl64 (n x : Nat) : Nat := (x * 2 ^ n % 2 ^ 64) + x / 2 ^ (64 - n)

/-- χ on one row of five lanes. -/
def keccakRow (r : List Nat) : List Nat :=
  List.zipWith Nat.xor r (List.zipWith (fun u v => Nat.land (2 ^ 64 - 1 - u) v) (r.rotate 1) (r.rotate 2))

/-- One round of Keccak-f[1600] on 25 lanes. -/
def keccakRound (a : List Nat) (rc : Nat) : List Nat :=
  let par := (chunks 5 a).foldl (List.zipWith Nat.xor) (List.replicate 5 0)
  let mix := List.zipWith (fun l r => Nat.xor l (rotl64 1 r)) (par.rotate 4) (par.rotate 1)
  let a := (chunks 5 a).flatMap (List.zipWith Nat.xor mix)
  match (chunks 5 (keccakMoves.map fun m => rotl64 m.2 (a.getD m.1 0))).flatMap keccakRow with
  | first :: rest => Nat.xor first rc :: rest
  | [] => []

/-- Keccak-f[1600] on 200 bytes. -/
def keccakF (st : Bytes) : Bytes :=
  ((((List.range 24).map keccakConst).foldl keccakRound ((chunks 8 st).map leNat)).map (natLE 8)).flatten

/-- Absorb one block of the rate's bytes. -/
def keccakAbsorb (st block : Bytes) : Bytes :=
  keccakF (xorBytes st (padTo 200 block))

/-- The sponge over a whole message with a rate and the byte that starts the padding. -/
def sponge (rate : Nat) (dom : Byte) (msg : Bytes) : Bytes :=
  let r := msg.length % rate
  let padded := if r + 1 = rate then msg ++ [dom ||| 0x80]
    else msg ++ [dom] ++ List.replicate (rate - r - 2) 0 ++ [0x80]
  (chunks rate padded).foldl keccakAbsorb (List.replicate 200 0)

/-! ## The seven functions by their code (R59) -/

/-- Whether a code names SHA-3. -/
def algSha3 (alg : Nat) : Bool := 5 ≤ alg && alg ≤ 7

/-- The digest length in bytes. -/
def algLen (alg : Nat) : Nat :=
  match alg with
  | 1 => 28 | 2 => 32 | 3 => 48 | 4 => 64 | 5 => 32 | 6 => 48 | 7 => 64 | _ => 0

/-- The block length in bytes. -/
def algBlock (alg : Nat) : Nat :=
  match alg with
  | 1 => 64 | 2 => 64 | 3 => 128 | 4 => 128 | 5 => 136 | 6 => 104 | 7 => 72 | _ => 1

/-- The cycles of a compression (R59). -/
def algCost (alg : Nat) : Nat := if alg ≤ 2 then 64 else if alg ≤ 4 then 80 else 24

/-- The initial chaining value of SHA-2. -/
def algInit (alg : Nat) : List Nat :=
  match alg with
  | 1 => sha224H | 2 => sha256H | 3 => sha384H | 4 => sha512H | _ => []

/-- The parameters of a SHA-2 code. -/
def algParams (alg : Nat) : Sha2Params := if alg ≤ 2 then sha2Narrow else sha2Wide

/-- The padding of a SHA-2 message of `len` bytes. -/
def sha2Pad (alg len : Nat) : Bytes :=
  let bl := algBlock alg
  let lb := bl / 8
  0x80 :: List.replicate ((2 * bl - 1 - lb - len % bl) % bl) 0 ++ natBE lb (8 * len)

/-- The bytes of a SHA-2 chaining value. -/
def sha2Out (alg : Nat) (h : List Nat) : Bytes := (h.map (natBE ((algParams alg).width / 8))).flatten

/-- The hash of a message under a code. -/
def hash (alg : Nat) (msg : Bytes) : Bytes :=
  if algSha3 alg then (sponge (algBlock alg) 0x06 msg).take (algLen alg)
  else
    let h := (chunks (algBlock alg) (msg ++ sha2Pad alg msg.length)).foldl (sha2Compress (algParams alg)) (algInit alg)
    (sha2Out alg h).take (algLen alg)

/-- SHA-384, the digest of images, ceremonies and card keys. -/
def sha384 (msg : Bytes) : Bytes := hash 3 msg

/-- The key of HMAC as one block (FIPS 198-1). -/
def hmacBlock (alg : Nat) (key : Bytes) : Bytes :=
  padTo (algBlock alg) (if algBlock alg < key.length then hash alg key else key)

/-- HMAC of a message. -/
def hmac (alg : Nat) (key msg : Bytes) : Bytes :=
  let k := hmacBlock alg key
  hash alg (k.map (· ^^^ 0x5C#8) ++ hash alg (k.map (· ^^^ 0x36#8) ++ msg))

/-! ## KMAC256 (SP 800-185) -/

/-- The shortest bytes that hold a number, at least one. -/
def natMin (v : Nat) : Bytes := natBE (max 1 ((Nat.log2 v + 8) / 8)) v

/-- left_encode of a number. -/
def leftEncode (v : Nat) : Bytes := BitVec.ofNat 8 (natMin v).length :: natMin v

/-- right_encode of a number. -/
def rightEncode (v : Nat) : Bytes := natMin v ++ [BitVec.ofNat 8 (natMin v).length]

/-- encode_string. -/
def encodeString (b : Bytes) : Bytes := leftEncode (8 * b.length) ++ b

/-- bytepad to the rate of 136. -/
def bytepad (b : Bytes) : Bytes :=
  let x := leftEncode 136 ++ b
  x ++ List.replicate ((136 - x.length % 136) % 136) 0

/-- KMAC256 with a key, an input, an output length in bytes (at most 136) and a customisation string. -/
def kmac256 (key msg : Bytes) (len : Nat) (cust : Bytes) : Bytes :=
  let pre := bytepad (encodeString (ascii "KMAC") ++ encodeString cust)
  (sponge 136 0x04 (pre ++ bytepad (encodeString key) ++ msg ++ rightEncode (8 * len))).take len

end Sys2Proof.Machine
end

