-- ==== Sys2Proof/Machine/PublicKey.lean ====
section
/-! DEFINITION. The classical public-key arithmetic of the MAE (R162): RSA with PKCS #1 v1.5 and PSS (RFC 8017), ECDSA and ECDH on the
NIST curves (FIPS 186-5, RFC 6979, SP 800-56C), Ed25519 (RFC 8032). The manual names these standards; their text is PRESUMED
(log entry 10). -/

namespace Sys2Proof.Machine

/-! ## Numbers modulo m -/

/-- The bits of a number, the most significant first. -/
def numBits (e : Nat) : List Bool := (List.range (Nat.log2 e + 1)).reverse.map e.testBit

/-- A power modulo m. -/
def powMod (b e m : Nat) : Nat := (numBits e).foldl (fun a i => if i then a * a % m * b % m else a * a % m) (1 % m)

/-- The inverse modulo a prime. -/
def invPrime (a p : Nat) : Nat := powMod a (p - 2) p

/-- A difference modulo m. -/
def subMod (a b m : Nat) : Nat := (a + (m - b % m)) % m

/-- Euclid's algorithm: the coefficient of `a` modulo `m` at the end, in at most so many steps. -/
def euclid (m : Nat) : Nat → Nat → Nat → Nat → Nat → Nat
  | 0, _, _, _, u => u
  | f + 1, r, r', u, u' => if r' = 0 then u else euclid m f r' (r % r') u' (subMod u (r / r' * u') m)

/-- The inverse of a number modulo one it shares no divisor with. -/
def invMod (a m : Nat) : Nat := euclid m (2 * Nat.log2 m + 4) m (a % m) 0 1

/-! ## RSA (RFC 8017) -/

/-- The DigestInfo that goes before a digest, by the digest's code. -/
def digestInfo (alg : Nat) : Bytes :=
  [0x30, BitVec.ofNat 8 (17 + algLen alg), 0x30, 0x0D, 0x06, 0x09, 0x60, 0x86, 0x48, 0x01, 0x65, 0x03, 0x04, 0x02,
   BitVec.ofNat 8 (alg - 1), 0x05, 0x00, 0x04, BitVec.ofNat 8 (algLen alg)]

/-- EMSA-PKCS1-v1_5 of a digest, `n` bytes long. -/
def pkcs1 (n alg : Nat) (d : Bytes) : Bytes :=
  let t := digestInfo alg ++ d
  [0x00, 0x01] ++ List.replicate (n - t.length - 3) 0xFF ++ [0x00] ++ t

/-- MGF1 with a hash: `n` bytes from a seed. -/
def mgf1 (alg n : Nat) (seed : Bytes) : Bytes :=
  ((List.range (ceilDiv n (algLen alg))).flatMap fun i => hash alg (seed ++ natBE 4 i)).take n

/-- The hash that PSS makes of a digest and a salt. -/
def pssHash (alg : Nat) (d salt : Bytes) : Bytes := hash alg (List.replicate 8 0 ++ d ++ salt)

/-- A byte string with its first bit cleared. -/
def clearTop : Bytes → Bytes
  | [] => []
  | x :: r => (x &&& 0x7F) :: r

/-- EMSA-PSS of a digest with a salt of its own length, `n` bytes long, for a modulus of 8n bits. -/
def pss (n alg : Nat) (d salt : Bytes) : Bytes :=
  let h := pssHash alg d salt
  let db := List.replicate (n - 2 * algLen alg - 2) 0 ++ [0x01] ++ salt
  clearTop (xorBytes db (mgf1 alg db.length h)) ++ h ++ [0xBC]

/-- Whether an encoded message is the PSS encoding of a digest. -/
def pssOk (n alg : Nat) (d em : Bytes) : Bool :=
  let h := slice em (n - algLen alg - 1) (algLen alg)
  let db := clearTop (xorBytes (em.take (n - algLen alg - 1)) (mgf1 alg (n - algLen alg - 1) h))
  em == pss n alg d (db.drop (n - 2 * algLen alg - 1))

/-- The fields of an RSA private extension for a modulus of `n` bytes: modulus, exponent e, then p, q, dp, dq and qinv of half its
length each (Table 6.2). -/
def rsaField (n : Nat) (m : Bytes) (i : Nat) : Nat := fieldBE m (n + 4 + i * (n / 2)) (n / 2)

/-- The RSA private operation by the Chinese remainder theorem. -/
def rsaPrivate (n : Nat) (m : Bytes) (x : Nat) : Nat :=
  let p := rsaField n m 0
  let q := rsaField n m 1
  let a := powMod (x % p) (rsaField n m 2) p
  let b := powMod (x % q) (rsaField n m 3) q
  b + q * (rsaField n m 4 * subMod a b p % p)

/-- An RSA signature over a digest. -/
def rsaSign (n : Nat) (m : Bytes) (usePss : Bool) (alg : Nat) (d salt : Bytes) : Bytes :=
  natBE n (rsaPrivate n m (beNat (if usePss then pss n alg d salt else pkcs1 n alg d)))

/-- Whether an RSA signature verifies under a public key e ‖ n; a value that is not below the modulus does not. -/
def rsaVerify (n : Nat) (pub : Bytes) (usePss : Bool) (alg : Nat) (d sig : Bytes) : Bool :=
  let m := fieldBE pub 4 n
  let em := natBE n (powMod (beNat sig) (fieldBE pub 0 4) m)
  decide (beNat sig < m) && (if usePss then pssOk n alg d em else em == pkcs1 n alg d)

/-- Whether an RSA public key may be used: an odd modulus, an odd exponent of at least 3 (R162, Table 5.6). -/
def rsaPublicOk (n : Nat) (pub : Bytes) : Bool :=
  fieldBE pub 4 n % 2 == 1 && fieldBE pub 0 4 % 2 == 1 && decide (3 ≤ fieldBE pub 0 4)

/-- The private extension of two primes, e = 65,537 (R162). -/
def rsaMaterial (n : Nat) (p q : Nat) : Bytes :=
  natBE n (p * q) ++ natBE 4 65537 ++ natBE (n / 2) p ++ natBE (n / 2) q ++ natBE (n / 2) (invMod 65537 (p - 1)) ++
    natBE (n / 2) (invMod 65537 (q - 1)) ++ natBE (n / 2) (invMod q p)

/-! ## The NIST curves (FIPS 186-5) -/

/-- A curve y² = x³ - 3x + b over a prime field: its prime, b, the order and coordinates of its base point, the bytes of a coordinate. -/
structure Curve where
  p   : Nat
  b   : Nat
  n   : Nat
  gx  : Nat
  gy  : Nat
  len : Nat
  deriving DecidableEq, Repr

/-- P-256. -/
def p256 : Curve :=
  { p := 2 ^ 256 - 2 ^ 224 + 2 ^ 192 + 2 ^ 96 - 1,
    b := 0x5AC635D8AA3A93E7B3EBBD55769886BC651D06B0CC53B0F63BCE3C3E27D2604B,
    n := 0xFFFFFFFF00000000FFFFFFFFFFFFFFFFBCE6FAADA7179E84F3B9CAC2FC632551,
    gx := 0x6B17D1F2E12C4247F8BCE6E563A440F277037D812DEB33A0F4A13945D898C296,
    gy := 0x4FE342E2FE1A7F9B8EE7EB4A7C0F9E162BCE33576B315ECECBB6406837BF51F5, len := 32 }

/-- P-384. -/
def p384 : Curve :=
  { p := 2 ^ 384 - 2 ^ 128 - 2 ^ 96 + 2 ^ 32 - 1,
    b := 0xB3312FA7E23EE7E4988E056BE3F82D19181D9C6EFE8141120314088F5013875AC656398D8A2ED19D2A85C8EDD3EC2AEF,
    n := 0xFFFFFFFFFFFFFFFFFFFFFFFFFFFFFFFFFFFFFFFFFFFFFFFFC7634D81F4372DDF581A0DB248B0A77AECEC196ACCC52973,
    gx := 0xAA87CA22BE8B05378EB1C71EF320AD746E1D3B628BA79B9859F741E082542A385502F25DBF55296C3A545E3872760AB7,
    gy := 0x3617DE4A96262C6F5D9E98BF9292DC29F8F41DBD289A147CE9DA3113B5F0B8C00A60B1CE1D7E819D7A431D7C90EA0E5F, len := 48 }

/-- P-521. -/
def p521 : Curve :=
  { p := 2 ^ 521 - 1,
    b := 0x051953EB9618E1C9A1F929A21A0B68540EEA2DA725B99B315F3B8B489918EF109E156193951EC7E937B1652C0BD3BB1BF073573DF883D2C34F1EF451FD46B503F00,
    n := 0x1FFFFFFFFFFFFFFFFFFFFFFFFFFFFFFFFFFFFFFFFFFFFFFFFFFFFFFFFFFFFFFFFFA51868783BF2F966B7FCC0148F709A5D03BB5C9B8899C47AEBB6FB71E91386409,
    gx := 0xC6858E06B70404E9CD9E3ECB662395B4429C648139053FB521F828AF606B4D3DBAA14B5E77EFE75928FE1DC127A2FFA8DE3348B3C1856A429BF97E7E31C2E5BD66,
    gy := 0x11839296A789A3BC0045C8A5FB42C7D1BD998F54449579B446817AFBD17273E662C97EE72995EF42640C550B9013FAD0761353C7086A272C24088BE94769FD16650,
    len := 66 }

/-- The curve of a parameter set (Table 5.2). -/
def curveOf (set : Nat) : Curve := if set = 0x201 then p256 else if set = 0x202 then p384 else p521

/-- A point: nothing is the point at infinity. -/
abbrev CurvePoint := Option (Nat × Nat)

/-- The base point. -/
def Curve.base (c : Curve) : CurvePoint := some (c.gx, c.gy)

/-- The line of a slope through a point gives the third point. -/
def Curve.third (c : Curve) (s : Nat) (x y x' : Nat) : CurvePoint :=
  let x3 := subMod (s * s) (x + x') c.p
  some (x3, subMod (s * subMod x x3 c.p) y c.p)

/-- The sum of two points. -/
def Curve.add (c : Curve) : CurvePoint → CurvePoint → CurvePoint
  | .none, q => q
  | q, .none => q
  | some (x, y), some (x', y') =>
    if x ≠ x' then c.third (subMod y' y c.p * invPrime (subMod x' x c.p) c.p % c.p) x y x'
    else if (y + y') % c.p = 0 then .none
    else c.third (subMod (3 * x * x) 3 c.p * invPrime (2 * y % c.p) c.p % c.p) x y x'

/-- A multiple of a point. -/
def Curve.mul (c : Curve) (k : Nat) (q : CurvePoint) : CurvePoint :=
  (numBits k).foldl (fun a i => if i then c.add (c.add a a) q else c.add a a) .none

/-- The point an encoding 0x04 ‖ X ‖ Y spells: its coordinates below the prime, on the curve (Table 5.6). -/
def Curve.point (c : Curve) (b : Bytes) : CurvePoint :=
  let x := fieldBE b 1 c.len
  let y := fieldBE b (1 + c.len) c.len
  if b.length = 1 + 2 * c.len ∧ fieldBE b 0 1 = 4 ∧ x < c.p ∧ y < c.p ∧ y * y % c.p = subMod (x * x * x + c.b) (3 * x) c.p then some (x, y)
  else .none

/-- The encoding of a point (Table 5.2). -/
def Curve.encode (c : Curve) : CurvePoint → Bytes
  | some (x, y) => [0x04] ++ natBE c.len x ++ natBE c.len y
  | .none => [0x00]

/-- The public key of a private scalar. -/
def Curve.public (c : Curve) (d : Nat) : Bytes := c.encode (c.mul d c.base)

/-- A private scalar from random bytes: one more than their remainder by n - 1 (FIPS 186-5 A.2.1). -/
def Curve.scalar (c : Curve) (rnd : Bytes) : Nat := beNat rnd % (c.n - 1) + 1

/-- The leftmost bits of a byte string that the order of the base point has (FIPS 186-5). -/
def Curve.bits2int (c : Curve) (b : Bytes) : Nat :=
  let q := Nat.log2 c.n + 1
  if 8 * b.length ≤ q then beNat b else beNat b / 2 ^ (8 * b.length - q)

/-- One HMAC step of RFC 6979: the new K and V. -/
def hmacStep (alg : Nat) (kv : Bytes × Bytes) (x : Bytes) : Bytes × Bytes :=
  let k := hmac alg kv.1 (kv.2 ++ x)
  (k, hmac alg k kv.2)

/-- At least `n` bytes of V's, with the last V. -/
def hmacOut (alg n : Nat) (k : Bytes) : Nat → Bytes → Bytes → Bytes × Bytes
  | 0, v, t => (t, v)
  | f + 1, v, t => if n ≤ t.length then (t, v) else hmacOut alg n k f (hmac alg k v) (t ++ hmac alg k v)

/-- The signature that a nonce gives, unless it is out of range or gives a zero. -/
def Curve.signWith (c : Curve) (d z k : Nat) : Option (Nat × Nat) :=
  if k = 0 ∨ c.n ≤ k then .none
  else
    let r := ((c.mul k c.base).elim 0 Prod.fst) % c.n
    let s := invPrime k c.n * (z + r * d) % c.n
    if r = 0 ∨ s = 0 then .none else some (r, s)

/-- The nonces of RFC 6979 in turn, until one serves. -/
def Curve.nonces (c : Curve) (alg d z : Nat) : Nat → Bytes × Bytes → Option (Nat × Nat)
  | 0, _ => .none
  | f + 1, kv =>
    let (t, v) := hmacOut alg c.len kv.1 c.len kv.2 []
    match c.signWith d z (c.bits2int (t.take c.len)) with
    | some x => some x
    | .none => c.nonces alg d z f (hmacStep alg (kv.1, v) [0x00])

/-- An ECDSA signature r ‖ s over a digest: the nonce of RFC 6979 with additional data (R169). A hundred nonces are tried. -/
def Curve.sign (c : Curve) (alg d : Nat) (digest extra : Bytes) : Bytes :=
  let z := c.bits2int digest
  let seed := natBE c.len d ++ natBE c.len (z % c.n) ++ extra
  let kv := (List.replicate (algLen alg) (0x00 : Byte), List.replicate (algLen alg) (0x01 : Byte))
  let kv := hmacStep alg (hmacStep alg kv ([0x00] ++ seed)) ([0x01] ++ seed)
  match c.nonces alg d z 100 kv with
  | some (r, s) => natBE c.len r ++ natBE c.len s
  | .none => List.replicate (2 * c.len) 0

/-- Whether an ECDSA signature verifies under a public key. -/
def Curve.verify (c : Curve) (pub digest sig : Bytes) : Bool :=
  let r := fieldBE sig 0 c.len
  let s := fieldBE sig c.len c.len
  let w := invPrime (s % c.n) c.n
  let q := c.add (c.mul (c.bits2int digest * w % c.n) c.base) (c.mul (r * w % c.n) (c.point pub))
  decide (0 < r) && decide (r < c.n) && decide (0 < s) && decide (s < c.n) && (c.point pub).isSome && (q.any fun x => x.1 % c.n == r)

/-- The shared secret of ECDH: the x coordinate, or nothing where the point is infinity. -/
def Curve.ecdh (c : Curve) (d : Nat) (pub : Bytes) : Option Bytes := (c.mul d (c.point pub)).map fun x => natBE c.len x.1

/-- The one-step KDF of SP 800-56C: 32 bytes from a shared secret and its fixed info. -/
def oneStepKdf (alg : Nat) (z info : Bytes) : Bytes := (hash alg (natBE 4 1 ++ z ++ info)).take 32

/-- Whether an ECDSA P-256 signature verifies. -/
def ecdsaP256Verify (key digest sig : Bytes) : Bool := p256.verify key digest sig

/-- Whether an ECDSA P-384 signature verifies. -/
def ecdsaP384Verify (key digest sig : Bytes) : Bool := p384.verify key digest sig

/-! ## Ed25519 (RFC 8032) -/

/-- The prime of the field. -/
def edP : Nat := 2 ^ 255 - 19
/-- The order of the base point. -/
def edL : Nat := 2 ^ 252 + 27742317777372353535851937790883648493
/-- The constant of the curve. -/
def edD : Nat := (edP - 121665 % edP) * invPrime 121666 edP % edP

/-- The sum of two points. -/
def edAdd (a b : Nat × Nat) : Nat × Nat :=
  let t := edD * a.1 % edP * b.1 % edP * a.2 % edP * b.2 % edP
  ((a.1 * b.2 + b.1 * a.2) % edP * invPrime (1 + t) edP % edP, (a.2 * b.2 + a.1 * b.1) % edP * invPrime (subMod 1 t edP) edP % edP)

/-- A multiple of a point. -/
def edMul (k : Nat) (q : Nat × Nat) : Nat × Nat := (numBits k).foldl (fun a i => if i then edAdd (edAdd a a) q else edAdd a a) (0, 1)

/-- The point of an encoding, if it is one. -/
def edPoint (b : Bytes) : Option (Nat × Nat) :=
  let v := leNat b
  let y := v % 2 ^ 255
  let u := subMod (y * y) 1 edP
  let w := (edD * y % edP * y + 1) % edP
  let x2 := u * invPrime w edP % edP
  let r := powMod x2 ((edP + 3) / 8) edP
  let x := if r * r % edP = x2 then r else r * powMod 2 ((edP - 1) / 4) edP % edP
  let odd := v / 2 ^ 255 % 2
  if b.length ≠ 32 ∨ edP ≤ y ∨ x * x % edP ≠ x2 ∨ (x = 0 ∧ odd = 1) then .none
  else some (if x % 2 = odd then x else edP - x, y)

/-- The encoding of a point. -/
def edEncode (q : Nat × Nat) : Bytes := natLE 32 (q.1 % 2 * 2 ^ 255 + q.2)

/-- The base point: y = 4/5, x even. -/
def edBase : Nat × Nat := (edPoint (natLE 32 (4 * invPrime 5 edP % edP))).getD (0, 1)

/-- The scalar of a private seed. -/
def edScalar (seed : Bytes) : Nat := 2 ^ 254 + leNat ((hash 4 seed).take 32) % 2 ^ 254 / 8 * 8

/-- The public key of a private seed. -/
def edPublic (seed : Bytes) : Bytes := edEncode (edMul (edScalar seed) edBase)

/-- An Ed25519 signature. -/
def edSign (seed msg : Bytes) : Bytes :=
  let r := leNat (hash 4 ((hash 4 seed).drop 32 ++ msg)) % edL
  let rb := edEncode (edMul r edBase)
  let k := leNat (hash 4 (rb ++ edPublic seed ++ msg)) % edL
  rb ++ natLE 32 ((r + k * edScalar seed) % edL)

/-- Whether an Ed25519 signature verifies; S of the order or above does not (R170). -/
def edVerify (pub msg sig : Bytes) : Bool :=
  let s := leNat (sig.drop 32)
  let k := leNat (hash 4 (sig.take 32 ++ pub ++ msg)) % edL
  match edPoint pub, edPoint (sig.take 32) with
  | some a, some r => decide (s < edL) && edMul s edBase == edAdd r (edMul k a)
  | _, _ => false

/-! ## ML-KEM's modulus check (FIPS 203) -/

/-- Whether an encapsulation key's coefficients, two to three bytes, are below 3,329. -/
def mlkemPublicOk (pub : Bytes) : Bool :=
  (chunks 3 (pub.take (pub.length - 32))).all fun t => decide (leNat t % 4096 < 3329) && decide (leNat t / 4096 < 3329)

end Sys2Proof.Machine
end

