-- ==== Sys2Proof/Machine/Aes.lean ====
section
/-! DEFINITION. AES as FIPS 197 publishes it (PRESUMED, log entry 9): block encryption and decryption under keys of
16, 24 and 32 bytes. A state is 16 bytes in the order of the block. -/

namespace Sys2Proof.Machine

/-- Entry `i` of a byte table kept as eight numbers of 32 entries, entry 0 lowest. -/
def tableByte (t : List Nat) (i : Nat) : Byte := BitVec.ofNat 8 (t.getD (i / 32) 0 / 2 ^ (8 * (i % 32)))

/-- The S-box of FIPS 197. -/
def aesSboxTable : List Nat :=
  [0xC072A49CAFA2D4ADF04759FA7DC982CA76ABD7FE2B670130C56F6BF27B777C63,
   0x75B227EBE28012079A059618C323C7041531D871F1E5A534CCF73F362693FDB7,
   0xCF584C4A39BECB6A5BB1FC20ED00D153842FE329B3D63B52A05A6E1B1A2C8309,
   0xD2F3FF1021DAB6BCF5389D928F40A351A89F3C507F02F94585334D43FBAAEFD0,
   0xDB0B5EDE14B8EE4688902A22DC4F816073195D643D7EA7C41744975FEC130CCD,
   0x08AE7A65EAF4566CA94ED58D6D37C8E779E4959162ACD3C25C2406490A3A32E0,
   0x9E1DC186B95735610EF6034866B53E708A8BBD4B1F74DDE8C6B4A61C2E2578BA,
   0x16BB54B00F2D99416842E6BF0D89A18CDF2855CEE9871E9B948ED9691198F8E1]

/-- The inverse S-box of FIPS 197. -/
def aesInvTable : List Nat :=
  [0xCBE9DEC444438E3487FF2F9B8239E37CFBD7F3819EA340BF38A53630D56A0952,
   0x25D18B6D49A25B76B224D92866A12E084EC3FA420B954CEE3D23C2A632947B54,
   0x849D8DA75746155EDAB9EDFD5048706C92B6655DCC5CA4D41698688664F6F872,
   0x6B8A130103BDAFC1020F3FCA8F1E2CD00645B3B80558E4F70AD3BC8C00ABD890,
   0x6EDF751CE837F9E28535ADE72274AC9673E6B4F0CECFF297EADC674F4111913A,
   0xF45ACD78FEC0DB9A2079D2C64B3E56FC1BBE18AA0E62B76F89C5291D711AF147,
   0xEF9CC9939F7AE52D0D4AB519A97F51605FEC8027591012B131C7078833A8DD1F,
   0x7D0C2155631469E126D677BA7E042B17619953833CBBEBC8B0F52AAE4D3BE0A0]

/-- SubBytes on one byte. -/
def aesSub (b : Byte) : Byte := tableByte aesSboxTable b.toNat

/-- InvSubBytes on one byte. -/
def aesInvSub (b : Byte) : Byte := tableByte aesInvTable b.toNat

/-- Multiplication by x in GF(2^8). -/
def xtime (b : Byte) : Byte := (b <<< 1) ^^^ (if b.msb then 0x1B#8 else 0)

/-- Multiplication in GF(2^8) by a constant below 16. -/
def gmul (c : Nat) (b : Byte) : Byte :=
  let b2 := xtime b
  let b4 := xtime b2
  let b8 := xtime b4
  (if bit c 0 then b else 0) ^^^ (if bit c 1 then b2 else 0) ^^^ (if bit c 2 then b4 else 0) ^^^
    (if bit c 3 then b8 else 0)

/-- A permutation of a byte string by source positions. -/
def permute (p : List Nat) (b : Bytes) : Bytes := p.map fun i => b.getD i 0

/-- ShiftRows. -/
def shiftRows (b : Bytes) : Bytes := permute [0, 5, 10, 15, 4, 9, 14, 3, 8, 13, 2, 7, 12, 1, 6, 11] b

/-- InvShiftRows. -/
def invShiftRows (b : Bytes) : Bytes := permute [0, 13, 10, 7, 4, 1, 14, 11, 8, 5, 2, 15, 12, 9, 6, 3] b

/-- One column through the circulant matrix with first row `c`. -/
def mixColumn (c : List Nat) (col : Bytes) : Bytes :=
  (List.range 4).map fun r =>
    (List.range 4).foldl (fun a j => a ^^^ gmul (c.getD ((j + 4 - r) % 4) 0) (col.getD j 0)) 0

/-- MixColumns, or its inverse, by the first row of the matrix. -/
def mixColumns (c : List Nat) (b : Bytes) : Bytes := ((chunks 4 b).map (mixColumn c)).flatten

/-- The key schedule: each further word from the one before and the one a key length back, newest word first. -/
def aesWords (nk : Nat) : Nat → Nat → List Bytes → Byte → List Bytes
  | 0, _, ws, _ => ws
  | f + 1, i, ws, rcon =>
    let prev := ws.headD []
    let t :=
      if i % nk = 0 then xorBytes (permute [1, 2, 3, 0] prev |>.map aesSub) [rcon, 0, 0, 0]
      else if nk > 6 ∧ i % nk = 4 then prev.map aesSub
      else prev
    aesWords nk f (i + 1) (xorBytes (ws.getD (nk - 1) []) t :: ws) (if i % nk = 0 then xtime rcon else rcon)

/-- The number of rounds for a key of `n` bytes (R57). -/
def aesRounds (n : Nat) : Nat := n / 4 + 6

/-- The round keys, 16 bytes each, in order. -/
def aesSchedule (key : Bytes) : List Bytes :=
  let nk := key.length / 4
  let total := 4 * (aesRounds key.length + 1)
  ((chunks 4 (aesWords nk (total - nk) nk (chunks 4 key).reverse 1).reverse)).map List.flatten

/-- The middle rounds and the last of encryption. -/
def aesEncRounds : List Bytes → Bytes → Bytes
  | [], b => b
  | [k], b => xorBytes (shiftRows (b.map aesSub)) k
  | k :: r, b => aesEncRounds r (xorBytes (mixColumns [2, 3, 1, 1] (shiftRows (b.map aesSub))) k)

/-- The rounds of decryption, with the round keys from the last. -/
def aesDecRounds : List Bytes → Bytes → Bytes
  | [], b => b
  | [k], b => xorBytes ((invShiftRows b).map aesInvSub) k
  | k :: r, b => aesDecRounds r (mixColumns [14, 11, 13, 9] (xorBytes ((invShiftRows b).map aesInvSub) k))

/-- AES encryption of 16 bytes. -/
def aesEncB (key b : Bytes) : Bytes :=
  match aesSchedule key with
  | [] => b
  | k :: r => aesEncRounds r (xorBytes b k)

/-- AES decryption of 16 bytes. -/
def aesDecB (key b : Bytes) : Bytes :=
  match (aesSchedule key).reverse with
  | [] => b
  | k :: r => aesDecRounds r (xorBytes b k)

/-- AES encryption of a block. -/
def aesEnc (key : Bytes) (x : Block) : Block := toBlock (aesEncB key (blockBytes x))

/-- AES decryption of a block. -/
def aesDec (key : Bytes) (x : Block) : Block := toBlock (aesDecB key (blockBytes x))

end Sys2Proof.Machine
end

