-- ==== Sys2Proof/Machine/Des.lean ====
section
/-! DEFINITION. The Triple Data Encryption Algorithm as SP 800-67 publishes it (PRESUMED, log entry 9). Bits are
numbered from 1 at the most significant, as that standard numbers them. -/

namespace Sys2Proof.Machine

/-- The initial permutation. -/
def desIp : List Nat :=
  [58, 50, 42, 34, 26, 18, 10, 2, 60, 52, 44, 36, 28, 20, 12, 4, 62, 54, 46, 38, 30, 22, 14, 6, 64, 56,
   48, 40, 32, 24, 16, 8, 57, 49, 41, 33, 25, 17, 9, 1, 59, 51, 43, 35, 27, 19, 11, 3, 61, 53, 45, 37,
   29, 21, 13, 5, 63, 55, 47, 39, 31, 23, 15, 7]

/-- The final permutation. -/
def desFp : List Nat :=
  [40, 8, 48, 16, 56, 24, 64, 32, 39, 7, 47, 15, 55, 23, 63, 31, 38, 6, 46, 14, 54, 22, 62, 30, 37, 5,
   45, 13, 53, 21, 61, 29, 36, 4, 44, 12, 52, 20, 60, 28, 35, 3, 43, 11, 51, 19, 59, 27, 34, 2, 42, 10,
   50, 18, 58, 26, 33, 1, 41, 9, 49, 17, 57, 25]

/-- The expansion. -/
def desE : List Nat :=
  [32, 1, 2, 3, 4, 5, 4, 5, 6, 7, 8, 9, 8, 9, 10, 11, 12, 13, 12, 13, 14, 15, 16, 17, 16, 17, 18, 19,
   20, 21, 20, 21, 22, 23, 24, 25, 24, 25, 26, 27, 28, 29, 28, 29, 30, 31, 32, 1]

/-- The permutation after the S-boxes. -/
def desP : List Nat :=
  [16, 7, 20, 21, 29, 12, 28, 17, 1, 15, 23, 26, 5, 18, 31, 10, 2, 8, 24, 14, 32, 27, 3, 9, 19, 13, 30,
   6, 22, 11, 4, 25]

/-- Permuted choice 1. -/
def desPc1 : List Nat :=
  [57, 49, 41, 33, 25, 17, 9, 1, 58, 50, 42, 34, 26, 18, 10, 2, 59, 51, 43, 35, 27, 19, 11, 3, 60, 52,
   44, 36, 63, 55, 47, 39, 31, 23, 15, 7, 62, 54, 46, 38, 30, 22, 14, 6, 61, 53, 45, 37, 29, 21, 13, 5,
   28, 20, 12, 4]

/-- Permuted choice 2. -/
def desPc2 : List Nat :=
  [14, 17, 11, 24, 1, 5, 3, 28, 15, 6, 21, 10, 23, 19, 12, 4, 26, 8, 16, 7, 27, 20, 13, 2, 41, 52, 31,
   37, 47, 55, 30, 40, 51, 45, 33, 48, 44, 49, 39, 56, 34, 53, 46, 42, 50, 36, 29, 32]

/-- The eight S-boxes, one number each, entry 0 in the lowest four bits (row times 16 plus column). -/
def desS : List Nat :=
  [0xD60AE3B5719428CF05A379CFB26D8E148359BC6A1D2E47F07095C6A38BF21D4E,
   0x9E50C76B24F31A8DF2396C851D4AB7E05B96A10CE82F74D3A50CD27943B6E81F,
   0xC25B3EF478960DA17EA5C21B03F8946D1FBCE582A643907D824B7CD15F36E90A,
   0xE27CB5498D1A60F34825E31FD7BC096A9EA1C27430F65B8DF4CB5821A9603ED7,
   0x354A90F6D2E17C8BE0365C9F87DAB1246893AF051D74C2BE9E0DF3586BA714C2,
   0xD80671EBAF59C2346BD1A4073C825FE983B0ED1659C724FAB57E43D08629FA1C,
   0xC32EF0597A418DB6295086FAE73CDB4168F2C53EA1947B0D16A579C3D80FE2B4,
   0xB65309CFD8A47E12853FDA602EC914B729E0B65C473A8DF17C05E39A1BF6482D]

/-- The bits of `x` (of width `w`) at the listed positions, the first most significant. -/
def desPermute (t : List Nat) (w x : Nat) : Nat := t.foldl (fun a i => 2 * a + b2n (bit x (w - i))) 0

/-- The round function. -/
def desF (r k : Nat) : Nat :=
  let e := Nat.xor (desPermute desE 32 r) k
  let s := (List.range 8).foldl (fun a i =>
    let six := e / 2 ^ (42 - 6 * i) % 64
    let row := 2 * (six / 32) + six % 2
    16 * a + (desS.getD i 0) / 2 ^ (4 * (16 * row + six / 2 % 16)) % 16) 0
  desPermute desP 32 s

/-- Rotate 28 bits left. -/
def rot28 (n x : Nat) : Nat := (x * 2 ^ n + x / 2 ^ (28 - n)) % 2 ^ 28

/-- The sixteen round keys of an 8-byte key; parity bits are ignored (R130). -/
def desKeys (key : Nat) : List Nat :=
  let cd := desPermute desPc1 64 key
  let total := [1, 2, 4, 6, 8, 10, 12, 14, 15, 17, 19, 21, 23, 25, 27, 28]
  total.map fun n => desPermute desPc2 56 (rot28 (n % 28) (cd / 2 ^ 28) * 2 ^ 28 + rot28 (n % 28) (cd % 2 ^ 28))

/-- One DES pass with its round keys in the order of use. -/
def desRun (ks : List Nat) (x : Nat) : Nat :=
  let x := desPermute desIp 64 x
  let lr := ks.foldl (fun (p : Nat × Nat) k => (p.2, Nat.xor p.1 (desF p.2 k))) (x / 2 ^ 32, x % 2 ^ 32)
  desPermute desFp 64 (lr.2 * 2 ^ 32 + lr.1)

/-- The three 8-byte keys of a TDES key: two-key means K3 = K1 (R130). -/
def tdesParts (key : Bytes) : Nat × Nat × Nat :=
  let k1 := fieldBE key 0 8
  (k1, fieldBE key 8 8, if key.length ≤ 16 then k1 else fieldBE key 16 8)

/-- TDES encryption of a 64-bit block. -/
def tdesEnc (key : Bytes) (x : Nat) : Nat :=
  let (k1, k2, k3) := tdesParts key
  desRun (desKeys k3) (desRun (desKeys k2).reverse (desRun (desKeys k1) x))

/-- TDES decryption of a 64-bit block. -/
def tdesDec (key : Bytes) (x : Nat) : Nat :=
  let (k1, k2, k3) := tdesParts key
  desRun (desKeys k1).reverse (desRun (desKeys k2) (desRun (desKeys k3).reverse x))

end Sys2Proof.Machine
end

