-- ==== Sys2Proof/Machine/Modes.lean ====
section
/-! DEFINITION. The modes of operation the manual names, as NIST publishes them (PRESUMED, log entry 9): GCM, GMAC,
CMAC, XTS, FF1, key wrapping, the CTR_DRBG. A cipher is AES or TDES by its first argument; a TDES block lies in bits
[127:64] of a block (R57). -/

namespace Sys2Proof.Machine

/-- Encrypt one block under AES, or under TDES in bits [127:64]. -/
def cipherEnc (tdes : Bool) (key : Bytes) (x : Block) : Block :=
  if tdes then BitVec.ofNat 128 (tdesEnc key (x.toNat / 2 ^ 64) * 2 ^ 64) else aesEnc key x

/-- Decrypt one block. -/
def cipherDec (tdes : Bool) (key : Bytes) (x : Block) : Block :=
  if tdes then BitVec.ofNat 128 (tdesDec key (x.toNat / 2 ^ 64) * 2 ^ 64) else aesDec key x

/-- The block length in bytes (R132). -/
def blockLen (tdes : Bool) : Nat := if tdes then 8 else 16

/-- The first `n` bytes of a block, the rest zero (R132). -/
def keepHigh (n : Nat) (x : Block) : Block :=
  if 16 ≤ n then x else (x >>> (128 - 8 * n)) <<< (128 - 8 * n)

/-! ## GF(2^128) and GHASH -/

/-- One step of the multiplication in GF(2^128): the accumulator, the running multiple, the next bit of the other
factor. -/
def gfStep (x : Block) (p : Block × Block) (i : Nat) : Block × Block :=
  (if x.getMsbD i then p.1 ^^^ p.2 else p.1,
   if p.2.getLsbD 0 then (p.2 >>> 1) ^^^ (0xE1#128 <<< 120) else p.2 >>> 1)

/-- Multiplication in GF(2^128) with the GCM bit order (R62). -/
def gfMul (x y : Block) : Block := ((List.range 128).foldl (gfStep x) (0, y)).1

/-- Absorb one block into a GHASH accumulator. -/
def ghashStep (h acc x : Block) : Block := gfMul (acc ^^^ x) h

/-- GHASH over a byte string cut into blocks, the last filled with zeros. -/
def ghashBytes (h acc : Block) (b : Bytes) : Block := (chunks 16 b).foldl (fun a c => ghashStep h a (toBlock c)) acc

/-- The length block of GCM. -/
def gcmLengths (aad data : Nat) : Block := BitVec.ofNat 128 ((8 * aad % 2 ^ 64) * 2 ^ 64 + 8 * data % 2 ^ 64)

/-- Increment the low 32 bits of a counter block. -/
def inc32 (x : Block) : Block := BitVec.ofNat 128 (x.toNat / 2 ^ 32 * 2 ^ 32 + (x.toNat % 2 ^ 32 + 1) % 2 ^ 32)

/-- J0 of a 96-bit IV that stands in the high bits of a block. -/
def gcmJ0 (iv : Block) : Block := BitVec.ofNat 128 (iv.toNat / 2 ^ 32 * 2 ^ 32 + 1)

/-- Counter-mode output from a counter block on. -/
def gcmCtr (key : Bytes) (ctr : Block) (b : Bytes) : Bytes :=
  ((chunks 16 b).foldl (fun (p : Block × List Bytes) c =>
    (inc32 p.1, xorBytes c (blockBytes (aesEnc key p.1)) :: p.2)) (ctr, [])).2.reverse.flatten

/-- The GCM tag over additional data and ciphertext. -/
def gcmTag (key : Bytes) (iv : Bytes) (aad ct : Bytes) : Bytes :=
  let h := aesEnc key 0
  let j0 := gcmJ0 (toBlock iv)
  let s := ghashStep h (ghashBytes h (ghashBytes h 0 aad) ct) (gcmLengths aad.length ct.length)
  blockBytes (s ^^^ aesEnc key j0)

/-- GCM encryption with a 12-byte IV: ciphertext, then tag. -/
def gcmSeal (key iv aad pt : Bytes) : Bytes :=
  let ct := gcmCtr key (inc32 (gcmJ0 (toBlock iv))) pt
  ct ++ gcmTag key iv aad ct

/-- GCM decryption of ciphertext and tag; nothing when the tag fails. -/
def gcmOpen (key iv aad sealed : Bytes) : Option Bytes :=
  let ct := sealed.take (sealed.length - 16)
  if 16 ≤ sealed.length ∧ gcmTag key iv aad ct = sealed.drop (sealed.length - 16) then
    some (gcmCtr key (inc32 (gcmJ0 (toBlock iv))) ct)
  else none

/-! ## CMAC -/

/-- Double in the field of the block length. -/
def cmacDouble (tdes : Bool) (x : Block) : Block :=
  let s := x <<< 1
  if x.msb then s ^^^ (if tdes then 0x1B#128 <<< 64 else 0x87#128) else s

/-- The subkeys K1 and K2. -/
def cmacKeys (tdes : Bool) (key : Bytes) : Block × Block :=
  let k1 := cmacDouble tdes (cipherEnc tdes key 0)
  (k1, cmacDouble tdes k1)

/-- The last block of CMAC: `n` bytes held, padded and under K2 unless full (R136). -/
def cmacLast (tdes : Bool) (key : Bytes) (chain held : Block) (n : Nat) : Block :=
  let (k1, k2) := cmacKeys tdes key
  let last := if n = blockLen tdes then held ^^^ k1
    else keepHigh n held ^^^ (0x80#128 <<< (120 - 8 * n)) ^^^ k2
  cipherEnc tdes key (chain ^^^ last)

/-- CMAC of a byte string, as a block (TDES in the high 8 bytes). -/
def cmac (tdes : Bool) (key msg : Bytes) : Block :=
  let bl := blockLen tdes
  let full := (msg.length - 1) / bl
  let chain := (chunks bl (msg.take (full * bl))).foldl (fun c b => cipherEnc tdes key (c ^^^ toBlock b)) 0
  let last := msg.drop (full * bl)
  cmacLast tdes key chain (toBlock last) last.length

/-- AES-CMAC of a byte string. -/
def aesCmac (key msg : Bytes) : Bytes := blockBytes (cmac false key msg)

/-! ## CBC and XTS -/

/-- CBC encryption of whole blocks. -/
def cbcEnc (tdes : Bool) (key : Bytes) (iv : Block) (b : Bytes) : Bytes :=
  ((chunks (blockLen tdes) b).foldl (fun (p : Block × List Bytes) c =>
    let y := cipherEnc tdes key (toBlock c ^^^ p.1)
    (y, (blockBytes y).take (blockLen tdes) :: p.2)) (iv, [])).2.reverse.flatten

/-- CBC decryption of whole blocks. -/
def cbcDec (tdes : Bool) (key : Bytes) (iv : Block) (b : Bytes) : Bytes :=
  ((chunks (blockLen tdes) b).foldl (fun (p : Block × List Bytes) c =>
    (toBlock c, (blockBytes (cipherDec tdes key (toBlock c) ^^^ p.1)).take (blockLen tdes) :: p.2)) (iv, [])).2.reverse.flatten

/-- Multiply an XTS tweak by α; byte 0 of the block is the least significant (R137). -/
def xtsAlpha (x : Block) : Block :=
  let v := leNat (blockBytes x)
  let d := 2 * v % 2 ^ 128
  toBlock (natLE 16 (if 2 ^ 127 ≤ v then Nat.xor d 0x87 else d))

/-- The tweak block of a data unit number (R137). -/
def xtsTweak (n : Nat) : Block := toBlock (natLE 16 n)

/-- XTS over the whole blocks of one data unit, from a tweak value on. -/
def xtsRun (dec : Bool) (key : Bytes) (tweak : Block) (b : Bytes) : Bytes × Block :=
  let r := (chunks 16 b).foldl (fun (p : Block × List Bytes) c =>
    let x := toBlock c ^^^ p.1
    let y := (if dec then aesDec key x else aesEnc key x) ^^^ p.1
    (xtsAlpha p.1, blockBytes y :: p.2)) (tweak, [])
  (r.2.reverse.flatten, r.1)

/-- XTS of one data unit under a key pair. -/
def xtsUnit (dec : Bool) (key1 key2 : Bytes) (unit : Nat) (b : Bytes) : Bytes :=
  (xtsRun dec key1 (aesEnc key2 (xtsTweak unit)) b).1

/-! ## Key wrapping (SP 800-38F) -/

/-- One step of the wrap: the running block A and the semiblocks, at index `i` (from 0) and count `t`. -/
def kwStep (key : Bytes) (p : Bytes × List Bytes) (it : Nat × Nat) : Bytes × List Bytes :=
  let b := aesEncB key (p.1 ++ p.2.getD it.1 [])
  (xorBytes (b.take 8) (natBE 8 it.2), p.2.set it.1 (b.drop 8))

/-- One step of the unwrap. -/
def kwStepInv (key : Bytes) (p : Bytes × List Bytes) (it : Nat × Nat) : Bytes × List Bytes :=
  let b := aesDecB key (xorBytes p.1 (natBE 8 it.2) ++ p.2.getD it.1 [])
  (b.take 8, p.2.set it.1 (b.drop 8))

/-- The pairs (index, count) of the six passes over `n` semiblocks. -/
def kwSteps (n : Nat) : List (Nat × Nat) := (List.range (6 * n)).map fun t => (t % n, t + 1)

/-- AES-KWP encryption of 1 to 64 bytes of material. -/
def kwpWrap (key pt : Bytes) : Bytes :=
  let aiv := [0xA6, 0x59, 0x59, 0xA6] ++ natBE 4 pt.length
  let padded := pt ++ List.replicate ((8 - pt.length % 8) % 8) 0
  if padded.length = 8 then aesEncB key (aiv ++ padded)
  else
    let n := padded.length / 8
    let (a, rs) := (kwSteps n).foldl (kwStep key) (aiv, chunks 8 padded)
    a ++ rs.flatten

/-- AES-KWP decryption; nothing when the integrity check fails. -/
def kwpUnwrap (key ct : Bytes) : Option Bytes :=
  let n := ct.length / 8 - 1
  let (a, p) :=
    if ct.length = 16 then
      let b := aesDecB key ct
      (b.take 8, b.drop 8)
    else
      let (a, rs) := (kwSteps n).reverse.foldl (kwStepInv key) (ct.take 8, chunks 8 (ct.drop 8))
      (a, rs.flatten)
  let len := fieldBE a 4 4
  if ct.length % 8 = 0 ∧ 16 ≤ ct.length ∧ a.take 4 = [0xA6, 0x59, 0x59, 0xA6] ∧ len ≤ p.length ∧ p.length < len + 8 ∧
      allZero (p.drop len) then some (p.take len)
  else none

/-! ## FF1 (SP 800-38G) -/

/-- The number a digit string spells. -/
def ff1Num (radix : Nat) (x : List Nat) : Nat := x.foldl (fun a d => a * radix + d) 0

/-- The last `m` digits of a number, most significant first. -/
def ff1Str (radix : Nat) : Nat → Nat → List Nat
  | 0, _ => []
  | m + 1, v => ff1Str radix m (v / radix) ++ [v % radix]

/-- The least `k` with `v ≤ 2^k`. -/
def ceilLog2 (v : Nat) : Nat := if v ≤ 1 then 0 else Nat.log2 (v - 1) + 1

/-- The byte length b of R141. -/
def ff1B (radix n : Nat) : Nat := ceilDiv (ceilLog2 (radix ^ (n - n / 2))) 8

/-- The PRF block count p of R141. -/
def ff1P (radix n t : Nat) : Nat :=
  let b := ff1B radix n
  let d := 4 * ceilDiv b 4 + 4
  ceilDiv (t + b + 1) 16 + ceilDiv d 16

/-- CBC-MAC with a zero IV. -/
def cbcMac (key b : Bytes) : Bytes := (chunks 16 b).foldl (fun r c => aesEncB key (xorBytes r c)) (List.replicate 16 0)

/-- The round value y of FF1. -/
def ff1Y (key tweak : Bytes) (radix n i num : Nat) : Nat :=
  let u := n / 2
  let b := ff1B radix n
  let d := 4 * ceilDiv b 4 + 4
  let p := [0x01, 0x02, 0x01] ++ natBE 3 radix ++ [0x0A, BitVec.ofNat 8 u] ++ natBE 4 n ++ natBE 4 tweak.length
  let q := tweak ++ List.replicate ((16 - (tweak.length + b + 1) % 16) % 16) 0 ++ [BitVec.ofNat 8 i] ++ natBE b num
  let r := cbcMac key (p ++ q)
  let more := (List.range (ceilDiv d 16 - 1)).map fun j => aesEncB key (xorBytes r (natBE 16 (j + 1)))
  beNat ((r ++ more.flatten).take d)

/-- FF1 encryption of a digit string. -/
def ff1Enc (key tweak : Bytes) (radix : Nat) (x : List Nat) : List Nat :=
  let n := x.length
  let u := n / 2
  let (a, b) := (List.range 10).foldl (fun (p : List Nat × List Nat) i =>
    let m := if i % 2 = 0 then u else n - u
    let c := (ff1Num radix p.1 + ff1Y key tweak radix n i (ff1Num radix p.2)) % radix ^ m
    (p.2, ff1Str radix m c)) (x.take u, x.drop u)
  a ++ b

/-- FF1 decryption of a digit string. -/
def ff1Dec (key tweak : Bytes) (radix : Nat) (x : List Nat) : List Nat :=
  let n := x.length
  let u := n / 2
  let (a, b) := (List.range 10).reverse.foldl (fun (p : List Nat × List Nat) i =>
    let m := if i % 2 = 0 then u else n - u
    let y := ff1Y key tweak radix n i (ff1Num radix p.1) % radix ^ m
    let c := (ff1Num radix p.2 + radix ^ m - y) % radix ^ m
    (ff1Str radix m c, p.1)) (x.take u, x.drop u)
  a ++ b

/-! ## CTR_DRBG with AES-256, no derivation function (SP 800-90A) -/

/-- The update function on (Key, V) with 48 bytes. -/
def drbgUpdate (key v data : Bytes) : Bytes × Bytes :=
  let c := fun i => aesEncB key (natBE 16 (beNat v + i))
  let t := xorBytes (c 1 ++ c 2 ++ c 3) data
  (t.take 32, t.drop 32)

/-- Output blocks and the state after a generate of `n` blocks without additional input. -/
def drbgGen (key v : Bytes) (n : Nat) : Bytes × Bytes × Bytes :=
  let o := (List.range n).map fun i => aesEncB key (natBE 16 (beNat v + i + 1))
  let (k', v') := drbgUpdate key (natBE 16 (beNat v + n)) (List.replicate 48 0)
  (o.flatten, k', v')

end Sys2Proof.Machine
end

