-- ==== Sys2Proof/Config.lean ====
section
/-! DEFINITION. What one HX7 fixes and the manual does not say: the part's own constants, the free values, and the
public-key arithmetic published elsewhere. Every constant without a body is opaque: no proof can see a value. -/

namespace Sys2Proof.Config

/-- The free value numbered n (log entry 8): nothing constrains it. -/
opaque freeWord : Nat → BitVec 64

/-- The 128-bit device identifier (R319), Orilrum's, per part. -/
opaque deviceId : BitVec 128

/-- The device unique secret programmed at PACKAGE_TEST (Table 6.8). -/
opaque dus : BitVec 256

/-- The pair of designations of R22: which cluster of Quarter n is its reserve (taken modulo nine). -/
opaque reserveOf : Nat → Nat

/-- The factory baseline slack of each cluster in ps (R511): measured at factory test. -/
opaque baselineSlack : Nat → Int

/-- The four reserve noise cells of R406 are this number and the next three, modulo 16: factory test designates them
per device, and the manual says no more. -/
opaque reserveCellBase : Nat

/-- The source identifier of the Hub's records 36 and 73 (Table 17.8): Table 17.2 gives the Hub as a whole none. -/
opaque hubSource : BitVec 16

/-- Bercon minor version and build of the running release (Table 11.3, R3). -/
opaque berconMinor : BitVec 8
opaque berconBuild : BitVec 16

/-- The SHA-384 measurement of the Bercon image delivered in boot flash (R204). -/
opaque deliveredMeasurement : BitVec 384

/-- The bytes free for staging a migration package in Steward data (R355): the manual gives no size. -/
opaque stagingFree : Nat

/-- The lattice algorithms of FIPS 203 and FIPS 204 (R162, log entry 10), by parameter set: the public key of a private seed; an ML-DSA
signature by a seed over a message or a digest of an algorithm, with context and fresh randomness, nothing where its repetition bound
is reached (R168); whether one verifies. -/
opaque mldsaPublic : (set : Nat) → (seed : Bytes) → Bytes
opaque mldsaSign : (set digest : Nat) → (seed msg ctx rnd : Bytes) → Option Bytes
opaque mldsaVerify : (set digest : Nat) → (pub msg ctx sig : Bytes) → Bool

/-- ML-KEM: the encapsulation key of a private seed d ‖ z; the ciphertext and shared secret that a seed m gives under an encapsulation
key; the shared secret of a ciphertext, its implicit rejection included. -/
opaque mlkemPublic : (set : Nat) → (seed : Bytes) → Bytes
opaque mlkemEncaps : (set : Nat) → (pub m : Bytes) → Bytes × Bytes
opaque mlkemDecaps : (set : Nat) → (seed ct : Bytes) → Bytes

/-- The two primes an RSA KEYGEN finds from its seed, for a modulus of so many bytes: the search is not described (R168). -/
opaque rsaPrimes : (n : Nat) → (seed : Bytes) → Nat × Nat

/-- The bytes a key's expanded form and its public key take in an MAE's key table (R167), by key type and parameter set. -/
opaque expandedBytes : (ktype : BitVec 8) → (param : BitVec 16) → Nat

/-- Whether both Orilrum signatures of a Bercon image verify under the boot ROM's rules (R215, R355). -/
opaque bootRomVerify : (image : Bytes) → Bool

/-- Whether a debug unlock record verifies under Orilrum's debug keys for this device and nonce (R468). -/
opaque debugVerify : (record : Bytes) → (nonce : BitVec 128) → Bool

/-- The next pattern word the shield generator makes from its seed (R447). -/
opaque shieldPattern : (seed : BitVec 64) → (net : Nat) → BitVec 32

/-- The random bytes a card slot's ephemeral key is made from (R434). -/
opaque cardSeed : (seed : BitVec 64) → Bytes

/-- Where the vendor library of the running Bercon image enters a waymark, where its code lies, and its constants (R40, R48,
R66): the library is firmware, which the manual does not list. -/
opaque waymarkEntry : (waymark : BitVec 11) → BitVec 32
opaque libraryBase : Nat
opaque libraryConst : Nat → BitVec 8
opaque libraryConstLen : Nat

/-- The check value of a copy of the vault's anchor in MRAM, whose making the manual leaves open (Table 7.3). -/
opaque anchorCheck : (root : BitVec 128) → (version serial : BitVec 64) → BitVec 64

/-- The fixed input of iteration i of K.DRV method 0x04, whose counter and data lengths the manual leaves open (R63). -/
opaque kdfInput : (i : Nat) → (data : BitVec 128) → Bytes

end Sys2Proof.Config
end

