-- ==== Sys2Proof/Machine/State.lean ====
section
/-! DEFINITION. The state of one HX7, as plain data: everything the manual gives the part, chapter by chapter, and the
few fields that are the model's own (the queue of commands, the clock count, the free-value counter, the record of what
left the part). `State.reset` is the part as Orilrum delivers it, with PORST_N asserted (log entries 1 and 2). -/

namespace Sys2Proof.Machine

/-- The byte memory: listed cells in one canonical form, addresses strictly rising and no cell equal to what an
unlisted address reads as (log entry 7). -/
abbrev Memory := List Host.Cell

/-- The reasons the machine stops with a fault. -/
inductive Fault where
  /-- Raised by `exec` for a command that names a unit the HX7 does not have (R25): no such command exists on the
  part. Safe: the manual gives it no effect. -/
  | noSuchUnit
  deriving DecidableEq, Repr

/-- The reasons a command has no meaning. -/
inductive Refusal where
  /-- Raised by a refused arm of `exec`, by mnemonic. Safe: nothing is claimed of such a command. -/
  | notModelled (mnemonic : String)
  deriving DecidableEq, Repr

/-! ## Keys (chapter 6) -/

/-- The attributes a key carries (Tables 6.1, 6.4, 6.5, 6.6). -/
structure KeyAttrs where
  ktype         : Byte
  colour        : Colour
  gen           : Byte
  libOnly       : Bool
  engine        : BitVec 6
  derivedEngine : BitVec 6
  usage         : BitVec 16
  derivedUsage  : BitVec 16
  param         : BitVec 16
  notBefore     : BitVec 48
  notAfter      : BitVec 48
  deriving DecidableEq, Repr

/-- A key: its attributes and its material. -/
structure Key where
  attrs    : KeyAttrs
  material : Bytes
  deriving DecidableEq, Repr

/-- A filled key slot (R38, R64, R127): its world tag, its library-only tag, the mark of a returned slot, the serial
of its fill. -/
structure Slot where
  key          : Key
  vendorLoaded : Bool
  libOnly      : Bool
  returned     : Bool
  serial       : Word
  deriving DecidableEq, Repr

/-- A tin (Table 6.1). -/
structure Tin where
  attrs    : KeyAttrs
  extended : Bool
  context  : Byte
  matLen   : Nat
  handle   : Word
  version  : BitVec 32
  wrapped  : Bytes
  tag      : Block
  deriving DecidableEq, Repr

/-- What the warm store holds under a handle (R181). -/
inductive KeyRec where
  | live (tin : Tin) (ext : Bytes)
  | tombstone (version : BitVec 32)
  deriving DecidableEq, Repr

/-- A key held unwrapped in the caddy (R198, R199), with the slots it occupies. -/
structure CaddyEntry where
  handle  : Word
  slots   : List Nat
  lastUse : Nat
  key     : Key
  deriving DecidableEq, Repr

/-- A colour's caddy counts (CADDY.STATUS). -/
structure CaddyCount where
  hits      : Word := 0
  misses    : Word := 0
  evictions : Word := 0
  deriving DecidableEq, Repr

/-- An open carry (R214-R216): M', the handles still to stream from the opening, the tins streamed and appended. -/
structure Carry where
  measurement : BitVec 384
  stream      : List (Tin × Bytes)
  position    : Nat
  ended       : Bool
  deriving DecidableEq, Repr

/-- The key stores of the Hub (R182, R198, R204). `partKeys` holds the tin wrapping and binding keys of colour c, in slots 2c and 2c + 1. -/
structure Keys where
  bbk           : Option (BitVec 256)
  fbr           : Option (BitVec 256)
  devWrap       : Option (BitVec 256)
  devBind       : Option (BitVec 256)
  warm          : Tbl KeyRec
  caddy         : List CaddyEntry
  counts        : Tbl CaddyCount
  corrected     : Word
  useClock      : Nat
  carry         : Option Carry
  suspended     : Bool
  rekeying      : List (Colour × Cmd)
  partKeys      : Tbl (BitVec 256 × BitVec 256) := []
  deriving DecidableEq, Repr

/-! ## Seats and transaction engines (chapters 2 and 4) -/

/-- The two worlds of a seat (Table 2.1). -/
inductive World where
  | tenant
  | vendor
  deriving DecidableEq, Repr

/-- What a return-stack entry records (R53, R66, R67). -/
structure Frame where
  isGate  : Bool
  world   : World
  waymark : BitVec 11
  retPc   : BitVec 32
  deriving DecidableEq, Repr

/-- A cipher context (Table 4.4). -/
structure CipherCtx where
  mode       : Byte
  slot       : Fin 8
  ktype      : BitVec 2
  serial     : Word
  aadClosed  : Bool
  dataClosed : Bool
  heldFull   : Bool
  heldPartial : Bool
  held       : Nat
  ctrA       : Word
  ctrB       : Word
  chain      : Block
  aux        : Block
  deriving DecidableEq, Repr

/-- A digest context (Table 4.5): `st` is its 200 bytes of chaining state and buffer; `digest` is the finished digest
(R155). `vendor` is the world it was opened in (R129). -/
structure DigestCtx where
  alg      : Byte
  hmac     : Bool
  slot     : Fin 8
  serial   : Word
  len      : Word
  count    : Word
  st       : Bytes
  digest   : Option Bytes
  compared : Bool
  vendor   : Bool
  deriving DecidableEq, Repr

/-- The intent register (R68, R69): the open object, its version before, whether a call was issued and the version
the last call left it at (R254). -/
structure Intent where
  kind    : BitVec 11
  obj     : Word
  before  : Word
  issued  : Bool
  left    : Word
  deriving DecidableEq, Repr

/-- Where a seat stands: running, stopped so that its TE may run the other one (`ready`, `vaultWait`), or waiting while it
keeps its TE (R77, R81). -/
inductive Phase where
  | empty
  | running
  | ready
  | vaultWait
  | drbgWait (rd : Fin 32)
  | anchorWait (isCommit : Bool) (kind : BitVec 11) (obj version : Word)
  | fetchWait
  | caddyWait (k : Fin 8) (handle : Word)
  deriving DecidableEq, Repr

/-- Whether a seat keeps its TE: it runs, or it waits where no seat change is made (R37, R77). -/
def Phase.keepsTe : Phase → Bool
  | .empty => false
  | .ready => false
  | .vaultWait => false
  | .running => true
  | .drbgWait _ => true
  | .anchorWait _ _ _ _ => true
  | .fetchWait => true
  | .caddyWait _ _ => true

/-- The descriptor of a work item (R91): 32 bytes of the pool hold ticket, sequence number, session, id and length;
the port, colour and lane follow from the lane that holds it. `opened` is the open serial of its session, which tells it from a
later session of the same number (R292, R300); `since` is when it was enqueued (R103). `own` is the command for which the Steward
submitted the job itself (R160). -/
structure Desc where
  ticket  : Word
  seq     : BitVec 32
  colour  : Colour
  lane    : Nat
  laneIdx : Nat
  port    : Nat
  session : Nat
  id      : BitVec 32
  len     : Nat
  known   : Bool
  opened  : Word
  since   : Nat
  own     : Option Cmd := .none
  deriving DecidableEq, Repr

/-- The result the vault engine holds for a waiting seat (R71): the status, the version and whether a VPUT's call
was made. -/
structure VaultReply where
  status  : Nat
  version : Word
  plain   : Option Bytes
  deriving DecidableEq, Repr

/-- The vault operation a seat waits for: its registers and, once known, the answer. -/
structure VaultWait where
  isPut : Bool
  ga    : Fin 32
  st    : Fin 32
  addr  : Nat
  rel   : Word
  abs   : Nat
  reply : Option VaultReply
  deriving DecidableEq, Repr

/-- Where a call of FF1.TOKENISE stands (R248): the unit is to be read; its free slot, in the copy at a scratch address, waits for a
record; the record is built and to be written; the result is known. -/
inductive TokenStage where
  | reading
  | fresh (addr slot : Nat)
  | writing
  | done (result : Word)
  deriving DecidableEq, Repr

/-- A call of FF1.TOKENISE (R248): the unit, the numerals of the PAN, the times it has read again, the token's numerals. -/
structure Tokenise where
  unit  : Word
  pan   : Bytes
  tries : Nat
  token : Bytes
  stage : TokenStage
  deriving DecidableEq, Repr

/-- A seat's architectural state (Table 2.1). `sample` is the milepost sample of a SYS 0x0005 or 0x0006 (true) that the
very next instruction may share (R51); `cycles` and `sinceYield` count under R47 and R81. `started` is false until the
itinerary first runs (R87); `atYield` is true while the seat stands where a YIELD stopped it (R78, R79); `passed` holds g1-g4
and b0-b3 as the tenant passed them to the waymark it is in (R67), and `tok` its call
of FF1.TOKENISE (R248). -/
structure Seat where
  phase      : Phase
  desc       : Desc
  g          : Vector Word 32
  sp         : Word
  vsp        : Word
  b          : Vector Block 8
  k          : Vector (Option Slot) 8
  pc         : BitVec 32
  stack      : List Frame
  world      : World
  waymark    : BitVec 11
  cctx       : Option CipherCtx
  dctx       : Option DigestCtx
  intent     : Option Intent
  trunc      : Bool
  cycles     : Nat
  sinceYield : Nat
  sample     : Option (Bool × BitVec 48 × BitVec 32 × BitVec 16)
  codeBase   : Nat
  codeLen    : Nat
  constBase  : Nat
  constLen   : Nat
  version    : BitVec 32
  steps      : BitVec 16
  lastStep   : BitVec 11
  vwait      : Option VaultWait
  squash     : Bool
  started    : Bool
  atYield    : Bool
  passed     : Option (List Word × List Block)
  tok        : Option Tokenise := .none
  deriving DecidableEq, Repr

/-- A work item's empty descriptor. -/
def Desc.none : Desc :=
  { ticket := 0, seq := 0, colour := 0, lane := 0, laneIdx := 0, port := 0, session := 0, id := 0, len := 0, known := false,
    opened := 0, since := 0 }

/-- A seat with no itinerary. -/
def Seat.empty : Seat :=
  { phase := .empty, desc := Desc.none, g := Vector.replicate 32 0, sp := 0, vsp := 0, b := Vector.replicate 8 0,
    k := Vector.replicate 8 .none, pc := 0, stack := [], world := .tenant, waymark := 0, cctx := .none, dctx := .none,
    intent := .none, trunc := false, cycles := 0, sinceYield := 0, sample := .none, codeBase := 0, codeLen := 0,
    constBase := 0, constLen := 0, version := 0, steps := 0, lastStep := 0, vwait := .none, squash := false,
    started := false, atYield := false, passed := .none }

/-- A transaction engine (R37, R122, R127): its fill serial, the seat it runs, the stream it serves, the stream whose key comes in
while the last segment of that one runs (R149), and its stream context store of eight entries. -/
structure Te where
  serial  : Word
  current : Nat
  out     : Bool
  stream  : Option Nat
  next    : Option Nat
  store   : List Nat
  testing : Bool
  deriving DecidableEq, Repr

/-- A TE at power-up. -/
def Te.fresh : Te := { serial := 1, current := 0, out := false, stream := .none, next := .none, store := [], testing := false }

/-! ## Clusters, MAEs and expanders (chapters 3, 5, 14, 18) -/

/-- A reader waiting on an expander (R417). -/
inductive Reader where
  | seat (u : SeatRef)
  | mae (c : Nat)
  deriving DecidableEq, Repr

/-- A CTR_DRBG expander (R416). -/
structure Expander where
  seeded    : Bool
  key       : BitVec 256
  v         : BitVec 128
  generates : Nat
  seedTime  : Nat
  buffer    : Bytes
  requested : Bool
  required  : Bool
  requiredAt : Nat
  katFailed : Bool
  waiting   : List Reader
  deriving DecidableEq, Repr

/-- An expander before its instantiation. -/
def Expander.fresh : Expander :=
  { seeded := false, key := 0, v := 0, generates := 0, seedTime := 0, buffer := [], requested := false, required := false,
    requiredAt := 0, katFailed := false, waiting := [] }

/-- An entry of an MAE's key table (R167): a key in its expanded form, its public key, when it was last used. -/
structure MaeKey where
  handle  : Word
  key     : Key
  pub     : Bytes
  lastUse : Nat
  deriving DecidableEq, Repr

/-- An MAE job (R160, R163). `started` is set once its request and its keys were checked (R166): `verdict` is the phase and reason of
the check that failed, `keys` what it works with. `rnd` is what it has drawn (R169). -/
structure MaeJob where
  desc     : Desc
  level    : Nat
  payload  : Bytes
  keyWait  : Bool
  bracket  : Bool
  squash   : Bool
  started  : Bool := false
  verdict  : Option (Nat × Nat) := .none
  keys     : List MaeKey := []
  rnd      : Bytes := []
  deriving DecidableEq, Repr

/-- A modular arithmetic engine (R159, R167, R172, R175). -/
structure Mae where
  running   : Option MaeJob
  saved     : List MaeJob
  keyTable  : List MaeKey
  kat       : Bool
  lastFail  : Option Nat
  out       : Bool
  deriving DecidableEq, Repr

/-- The reserve states of RESERVE.STATUS. -/
inductive ReserveState where
  | inService
  | reserve
  | engaging
  | failing
  | retired
  deriving DecidableEq, Repr

/-- A cluster's power (R110, R111, R503). -/
inductive ClusterPower where
  | off
  | asleep
  | waking
  | awake
  deriving DecidableEq, Repr

/-- A wrapped package on its way (R145): its move sequence number, the clusters bound into it, the unit it comes from (a TE's number,
0x10 for the MAE, 0x14 for the cluster store), its wrapped bytes with the initialisation vector in front, and what moves, which stays where it is until the
package arrives: a seat by its key, a stream by its key, a saved MAE job by its item. -/
structure Package where
  move   : BitVec 32
  source : Nat
  target : Nat
  unit   : Nat
  sealed : Bytes
  seat   : Option Nat
  stream : Option Nat
  mae    : Option Desc
  deriving DecidableEq, Repr

/-- A cluster (Tables 1.1, 3.5, 18.5). `util` is its utilisation of the last evaluation's 100 µs in thousandths, `busyNs` what its
seats and MAE have been busy since, in unit-nanoseconds (Table 3.5). -/
structure Cluster where
  state      : ReserveState
  power      : ClusterPower
  clockMHz   : Nat
  supplyMV   : Nat
  temp       : Int
  slack      : Int
  marginLoss : Nat
  corrected  : List Nat
  transferKey : Option (BitVec 256)
  confined   : Bool
  shares     : List Colour
  wrapped    : List Nat
  util       : Nat
  busyNs     : Nat
  mae        : Mae
  drbg       : Expander
  testing    : Bool
  deriving DecidableEq, Repr

/-- An MAE with nothing in it. -/
def Mae.fresh : Mae := { running := .none, saved := [], keyTable := [], kat := false, lastFail := .none, out := false }

/-- The designation of a cluster at factory test (R22). -/
def reserveAtDelivery (c : Nat) : ReserveState :=
  if c % 9 = Config.reserveOf (c / 9) % 9 then .reserve else .inService

/-- A cluster before start-up. -/
def Cluster.delivered (c : Nat) : Cluster :=
  { state := reserveAtDelivery c, power := .off, clockMHz := 2000, supplyMV := 550, temp := 0, slack := 15,
    marginLoss := 0, corrected := [], transferKey := .none, confined := true, shares := [],
    wrapped := [], util := 0, busyNs := 0, mae := Mae.fresh, drbg := Expander.fresh, testing := false }

/-! ## Depot and lanes (chapter 3) -/

/-- Where an item stands (R113, R115). -/
inductive Place where
  | pool
  | overflow
  | refilling
  deriving DecidableEq, Repr

/-- A queued work item: a request, a job, a bulk segment of a stream at an offset, or a suspended itinerary (`migrated`: one that
came in a package, R342; `sealed`: as it left its TE, wrapped, R145). -/
structure Item where
  desc    : Desc
  payload : Bytes
  stream  : Option (Nat × Nat × Nat)
  cells   : List Nat
  units   : Nat
  place   : Place
  since   : Nat
  suspended : Option Seat
  migrated : Bool
  sealed : Bytes := []
  deriving DecidableEq, Repr

/-- The states of Table 3.3. -/
inductive LaneState where
  | opened
  | draining
  | frozen
  | squashing
  | closed
  deriving DecidableEq, Repr

/-- Why a lane closed (R99, R543). -/
inductive LaneCause where
  | none
  | deletion
  | instanceReset
  | class3
  | tamper
  | plannedStop (port : Nat)
  | restart
  deriving DecidableEq, Repr

/-- A lane (Table 3.1). `servedBy` counts what each cluster has taken since the last evaluation, `seen` the items enqueued up to it
(R107); `refill` is true while the Depot refills the pool from overflow (R113). -/
structure Lane where
  colour    : Colour
  index     : Nat
  cls       : Nat
  level     : Nat
  quota     : Nat
  overflow  : Bool
  window    : Nat
  state     : LaneState
  cause     : LaneCause
  placement : List Nat
  enqueued  : Word
  dispatched : Word
  squashed  : Word
  corrected : BitVec 32
  overruns  : BitVec 32
  exceptions : Nat
  warmUse   : List (Nat × Nat)
  servedBy  : Tbl Nat
  seen      : Word
  refill    : Bool
  deriving DecidableEq, Repr

/-- A free lane (R95): colour 0xFFF. -/
def Lane.free : Lane :=
  { colour := 0xFFF, index := 0, cls := 0, level := 2, quota := 2048, overflow := true, window := 65536, state := .closed,
    cause := .none, placement := [], enqueued := 0, dispatched := 0, squashed := 0, corrected := 0, overruns := 0,
    exceptions := 0, warmUse := [], servedBy := [], seen := 0, refill := false }

/-- The Depot (R92-R94, R110, R112, R117). `own` holds the Steward's own jobs in their order (R160). -/
structure Depot where
  seq        : BitVec 32
  seqAnchor  : BitVec 32
  items      : List Item
  retired    : List Nat
  retiredBanks : List Nat
  bankCorrected : Tbl Nat
  bankUncorrectable : Tbl Nat
  warmFloor  : Nat
  sleepDelay : Nat
  holds      : Word
  stopped    : Bool
  moveSeq    : BitVec 32
  packages   : List Package
  evalAt     : Nat
  own        : List MaeJob := []
  deriving DecidableEq, Repr

/-! ## Partitions and itineraries (chapters 1, 2, 12) -/

/-- The profiles of Table 1.6. -/
inductive Profile where
  | unformatted
  | compact
  | wide
  deriving DecidableEq, Repr

/-- A vault extent (R224). -/
structure Extent where
  base : Nat
  size : Nat
  key1 : Word
  key2 : Word
  deriving DecidableEq, Repr

/-- A partition (Tables 1.6, 10.2, 11.4). `granules` lists the granule of each page of its tenant space, in order: a
page table in Compact, one run in Wide (R375, R377). -/
structure Part where
  policy      : BitVec 16
  caddyQuota  : Nat
  keyQuota    : Nat
  granules    : List Nat
  readOnly    : List Nat
  epoch       : BitVec 32
  vf          : Nat
  share       : Nat
  vectors     : Nat
  vaultQuota  : Nat
  extent      : Option Extent
  deleting    : Option Cmd
  deriving DecidableEq, Repr

/-- A loaded itinerary image (R82-R87): where it lies, its header, and for a shared image the classes and waymarks
its code holds (R85). -/
structure Image where
  id       : BitVec 32
  colour   : Colour
  shared   : Bool
  version  : BitVec 32
  granule  : Nat
  entry    : BitVec 32
  codeOff  : Nat
  codeLen  : Nat
  constOff : Nat
  constLen : Nat
  stack    : Nat
  steps    : BitVec 16
  classes  : BitVec 16
  waymarks : List (BitVec 11)
  deriving DecidableEq, Repr

/-- An itinerary signer (ITIN.SIGNER.ADD). -/
structure Signer where
  ident : Word
  ecdsa : Bytes
  mldsa : Bytes
  deriving DecidableEq, Repr

/-- The partitions of the device. `serials` holds each colour's configuration serial (Table 8.3, kind 0x005). -/
structure Tenancy where
  profile : Profile
  parts   : Tbl Part
  serials : Tbl (BitVec 32)
  tags    : Tbl Colour
  images  : List Image
  signers : List Signer
  deriving DecidableEq, Repr

/-- A response that waits outside the TE for its milestones to be in the ring (R34, R72): the item, and the payload, which begins with
the completion record. -/
structure Held where
  desc    : Desc
  payload : Bytes
  deriving DecidableEq, Repr

/-! ## The vault (chapter 7) -/

/-- The states of Table 7.7. -/
inductive VaultState where
  | unformatted
  | opened
  | degraded
  | reloading
  | stale
  | lost
  deriving DecidableEq, Repr

/-- Who asked for a vault operation. -/
inductive VaultCaller where
  | seat (u : SeatRef)
  | version (c : Cmd)
  | outcome (ticket : Word)
  deriving DecidableEq, Repr

/-- Where a vault operation stands (R232-R234). -/
inductive VaultStage where
  | queued
  | fetching (req : Word) (previous : Bool)
  | node (req : Word) (level index : Nat) (previous : Bool)
  | putting (req : Word)
  | stored
  deriving DecidableEq, Repr

/-- A vault operation in arrival order (R231). -/
structure VaultOp where
  caller   : VaultCaller
  desc     : Desc
  isPut    : Bool
  colour   : Colour
  rel      : Word
  abs      : Nat
  plain    : Bytes
  expected : Word
  stage    : VaultStage
  unit     : Bytes
  serial   : Word
  nodes    : List (Nat × Nat × Bytes)
  root     : Block
  version  : Word
  tag      : Block
  deriving DecidableEq, Repr

/-- An outstanding vault request (R240): what it asked and how often it was sent. -/
structure VaultReq where
  id       : Word
  isPut    : Bool
  unit     : Bool
  previous : Bool
  level    : Nat
  index    : Nat
  port     : Nat
  session  : Nat
  retried  : Bool
  payload  : Bytes
  serial   : Word
  deriving DecidableEq, Repr

/-- A VAULT.FREE under way (R227). -/
structure VaultFree where
  cmd    : Cmd
  base   : Nat
  size   : Nat
  reqs   : List Word
  nodes  : List (Nat × Nat × Bytes)
  root   : Block
  deriving DecidableEq, Repr

/-- One copy of the vault's anchor in MRAM, with its check value (Table 7.3). -/
structure VaultAnchor where
  root    : Block := 0
  version : Word := 0
  serial  : Word := 0
  check   : Word := 0
  deriving DecidableEq, Repr

/-- The sector vault (Tables 7.3, 7.7): `repair` is the repair on its way or next to send, `repairs` those behind it. `anchorTurn` says
which copy of the anchor is the newer: true for the second. Nodes are keyed by level × 2^32 + index; an unlisted node is 256 zero bytes. -/
structure Vault where
  state       : VaultState
  n           : Nat
  root        : Block
  rootVersion : Word
  serial      : Word
  anchorA     : VaultAnchor := {}
  anchorB     : VaultAnchor := {}
  anchorTurn  : Bool := false
  nodes       : Tbl Bytes
  missing     : Bool
  verCache    : List (Nat × Word × Colour)
  ops         : List VaultOp
  reqs        : List VaultReq
  repair      : Option (Word × List (Nat × Nat × Bytes))
  freeing     : Option VaultFree
  recover     : Option Cmd
  sessions    : List (Nat × Nat)
  timeoutUs   : Nat
  refill      : Nat
  counts      : Vector Nat 7
  nextReq     : Word
  repairs     : List (List (Nat × Nat × Bytes)) := []
  strays      : Nat := 0
  lowCache    : List Nat := []
  treeHits    : Nat := 0
  treeLooks   : Nat := 0
  verHits     : Nat := 0
  verLooks    : Nat := 0
  deriving DecidableEq, Repr

/-! ## The journal (chapter 8) -/

/-- A milestone (Table 8.1). `secs` is the milepost seconds of its writing, which the horizon of R258 needs. -/
structure Milestone where
  typ      : BitVec 8
  anchored : Bool
  vendor   : Bool
  laneIdx  : Nat
  colour   : Colour
  seq      : BitVec 32
  ticket   : Word
  code     : BitVec 11
  aux      : BitVec 16
  valA     : Word
  valB     : BitVec 32
  lane     : Nat
  secs     : Nat
  nanos    : Nat
  deriving DecidableEq, Repr

/-- An intent whose item has ended (R254), or that waits for a store to come back (R266). -/
structure Orphan where
  record  : Milestone
  issued  : Bool
  left    : Word
  unknown : Bool
  settled : Bool
  deriving DecidableEq, Repr

/-- The journal (R257-R259): ring and spill newest last, the MRAM anchor log and watermarks. -/
structure Journal where
  ring       : List Milestone
  spill      : List Milestone
  anchors    : List Milestone
  watermarks : Tbl (BitVec 32)
  mramMarks  : Tbl (BitVec 32)
  unsettled  : Tbl (List (BitVec 32))
  orphans    : List Orphan
  early      : Word
  waits      : Word
  markSecs   : Nat
  markNanos  : Nat
  lostAt     : Option Nat
  tops       : Tbl (BitVec 32) := []
  deriving DecidableEq, Repr

/-! ## The Freri ports (chapter 9) -/

/-- The states of Table 9.3. -/
inductive LinkState where
  | down
  | training
  | init
  | up
  | retrain
  deriving DecidableEq, Repr

/-- A session's per-lane account (R308): units counted, units released, the limit last sent. -/
structure LaneUse where
  counted  : Nat
  released : Nat
  limit    : Nat
  sent     : Nat
  deriving DecidableEq, Repr

/-- A Freri session (R291-R294). -/
structure Session where
  colour  : Colour
  vc      : Nat
  itin    : Bool
  bulk    : Bool
  vault   : Bool
  weight  : Nat
  baseKey : Word
  serial  : Word
  key     : Bytes
  sendSeq : Word
  recvSeq : Word
  closing : Bool
  use     : Tbl LaneUse
  owed    : Bool := false
  deriving DecidableEq, Repr

/-- A bulk stream (R301-R305). -/
structure Stream where
  port     : Nat
  session  : Nat
  id       : BitVec 32
  lane     : Nat
  mode     : Nat
  decrypt  : Bool
  tdes     : Bool
  dataUnit : Nat
  handle1  : Word
  handle2  : Word
  key1     : Bytes
  key2     : Bytes
  start    : Block
  received : Nat
  processed : Nat
  short    : Bool
  chain    : Block
  aux      : Block
  pending  : List (Nat × Bytes)
  sizes    : List (Nat × Nat)
  output   : Bytes
  sentOff  : Nat
  closeReq : Option (Nat × Bytes)
  loading  : Bool
  frozen   : Bool
  te       : Option (Nat × Nat)
  announced : Bool := false
  deriving DecidableEq, Repr

/-- A DATA frame in the retry buffer (R281): its number, VC, units, and the tickets it delivers (R255), and the streams
whose OPENED it carries (R302). -/
structure RetryFrame where
  seq     : BitVec 16
  vc      : Nat
  bytes   : Bytes
  tickets : List Desc
  opens   : List Nat := []
  deriving DecidableEq, Repr

/-- A message waiting for credit or retry space (R282, R283). -/
structure OutMsg where
  vc      : Nat
  bytes   : Bytes
  ticket  : Option Desc
  opens   : List Nat := []
  deriving DecidableEq, Repr

/-- A receive lane's replacement under way (R273, R274): the failing lane, why, whether REMAP_DONE came, whether loss detection
is suspended and since when, and whether the moved lanes are aligned again. -/
structure Remap where
  failed    : Nat
  cause     : Nat
  doneSeen  : Bool
  suspended : Bool
  since     : Nat := 0
  aligned   : Bool := false
  deriving DecidableEq, Repr

/-- The planned stop of a port (R314). -/
inductive StopPhase where
  | none
  | draining
  | ackWait
  deriving DecidableEq, Repr

/-- A Freri port. Credits are modulo 2^24 (R283). -/
structure Port where
  link       : LinkState
  lastUp     : Nat
  enable     : Bool
  drainUs    : Nat
  equal      : Bytes
  baseKey    : Word
  refclk     : Bool
  epoch      : BitVec 16
  peerEpoch  : BitVec 16
  sendSeq    : BitVec 16
  expSeq     : BitVec 16
  ackValid   : Bool
  aligned    : Bool
  initGot    : Bool
  initAckSent : Bool
  initAckGot : Bool
  peerReserve : Bool
  retry      : List RetryFrame
  waitQ      : List OutMsg
  replayRuns : Nat
  used       : Vector (BitVec 24) 8
  limit      : Vector (BitVec 24) 8
  heard      : Vector (BitVec 24) 8
  granted    : Vector (BitVec 24) 8
  held       : List (Nat × Nat × Bytes)
  viol       : Tbl Nat
  violReceived : Nat
  violTimes  : List Nat
  lastViol   : Option Nat
  violRetrains : List Nat
  violDown   : Bool
  nakSent    : Word
  nakGot     : Word
  replays    : Word
  creditHolds : Word
  lastNak    : Option (BitVec 16 × Nat)
  laneMap    : Vector Nat 4
  rxMap      : Vector Nat 4
  txReserve  : Bool
  rxReserve  : Bool
  retiredLanes : List Nat
  remap      : Option Remap
  txSuspended : Bool
  failedRetrains : Nat
  stop       : StopPhase
  stopClears : Bool
  stopReason : Nat
  partnerStop : Option Nat
  sessions   : Tbl Session
  nextPort   : Option Session
  streams    : List Stream
  txSince    : Nat := 0
  plannedDowns : Nat := 0
  ctle       : Tbl Int := []
  tap1       : Tbl Int := []
  symbols    : Tbl Nat := []
  deriving DecidableEq, Repr

/-- A port at delivery: DOWN, not enabled, SL0-SL3 in service (R268, R314). -/
def Port.delivered : Port :=
  { link := .down, lastUp := 0, enable := false, drainUs := 1000, equal := List.replicate 20 0, baseKey := 0, refclk := false, epoch := 0,
    peerEpoch := 0, sendSeq := 0, expSeq := 0, ackValid := false, aligned := false, initGot := false, initAckSent := false, initAckGot := false,
    peerReserve := false, retry := [], waitQ := [], replayRuns := 0, used := Vector.replicate 8 0,
    limit := Vector.replicate 8 0, heard := Vector.replicate 8 0, granted := Vector.replicate 8 0, held := [], viol := [], violReceived := 0,
    violTimes := [], lastViol := .none, violRetrains := [], violDown := false, nakSent := 0, nakGot := 0, replays := 0,
    creditHolds := 0, lastNak := .none, laneMap := #v[0, 1, 2, 3], rxMap := #v[0, 1, 2, 3], txReserve := false,
    rxReserve := false, retiredLanes := [], remap := .none, txSuspended := false, failedRetrains := 0, stop := .none, stopClears := false,
    stopReason := 0, partnerStop := .none, sessions := [], nextPort := .none, streams := [] }

/-! ## PCIe functions (chapter 10) -/

/-- The function states of Table 10.3. -/
inductive FuncState where
  | unassigned
  | active
  | resetting
  | freezing
  | frozen
  | saved
  | restoring
  deriving DecidableEq, Repr

/-- An instance reset in progress (R335, R336). -/
structure ResetRun where
  start    : Nat
  drained  : Nat
  squashed : Nat
  cmdsDrained : Nat
  cmdsSquashed : Nat
  streams  : Nat
  waiting  : List Cmd
  squashDone : Bool
  destroy  : Bool
  deriving DecidableEq, Repr

/-- A PCIe function's registers and rings (Table 10.4). -/
structure Func where
  state     : FuncState
  colour    : Colour
  vectors   : Nat
  ringError : Bool
  cmdBase   : Word
  cplBase   : Word
  ringEnable : Bool
  cmdLog2   : Nat
  cplLog2   : Nat
  cmdTail   : BitVec 16
  cmdHead   : BitVec 16
  cplHead   : BitVec 16
  cplTail   : BitVec 16
  phase     : Bool
  irqCpl    : BitVec 32
  irqEvt    : BitVec 32
  event     : BitVec 32
  errReason : Byte
  errIndex  : BitVec 16
  rstSerial : BitVec 32
  rstItemsDrained : BitVec 32
  rstItemsSquashed : BitVec 32
  rstCmdsDrained : BitVec 32
  rstCmdsSquashed : BitVec 32
  rstStreams : BitVec 32
  rstTime   : BitVec 32
  mbxBusy   : Bool
  mbxDone   : Bool
  mbxOverrun : Bool
  mbxReq    : Bytes
  mbxCpl    : Bytes
  mbxData   : Tbl Byte
  mbxTicket : Option (Colour × Word)
  msix      : Tbl (BitVec 32)
  pba       : List Nat
  slots     : List (Nat × Colour × Word)
  unsignalled : Nat
  resetRun  : Option ResetRun
  package   : Bytes
  packageFor : Option (BitVec 128)
  staged    : Bytes
  stagedLast : Nat × Bytes
  stagedTotal : Nat
  freezeCmd : Option Cmd
  cplLost   : Bool := false
  msixEnable : Bool := true
  msixMask  : Bool := false
  deriving DecidableEq, Repr

/-- The reset values of Table 10.4; a register whose reset the table shows as a dash reads zero (log entry 2). -/
def Func.reset : Func :=
  { state := .unassigned, colour := 0xFFF, vectors := 0, ringError := false, cmdBase := 0, cplBase := 0,
    ringEnable := false, cmdLog2 := 0, cplLog2 := 0, cmdTail := 0, cmdHead := 0, cplHead := 0, cplTail := 0, phase := true,
    irqCpl := 0x100, irqEvt := 0, event := 0, errReason := 0, errIndex := 0, rstSerial := 0, rstItemsDrained := 0,
    rstItemsSquashed := 0, rstCmdsDrained := 0, rstCmdsSquashed := 0, rstStreams := 0, rstTime := 0, mbxBusy := false,
    mbxDone := false, mbxOverrun := false, mbxReq := List.replicate 64 0, mbxCpl := List.replicate 32 0, mbxData := [],
    mbxTicket := .none, msix := [], pba := [], slots := [], unsignalled := 0, resetRun := .none, package := [], packageFor := .none,
    staged := [], stagedLast := (0, []), stagedTotal := 0, freezeCmd := .none }

/-- A command fetched and not yet completed (R332, R351); `serial` is the entry's SERIAL flag. -/
structure InFlight where
  opcode  : BitVec 16
  cmd     : Cmd
  started : Bool
  serial  : Bool
  deriving DecidableEq, Repr

/-- The PF is always ACTIVE and serves colour 0 with 64 vectors (R322, R325, Table 10.2); a VF starts unassigned. -/
def Func.default (fn : Nat) : Func :=
  if fn = 0 then { Func.reset with state := .active, colour := 0, vectors := 64 } else Func.reset

/-- The PCIe endpoint. -/
structure Pcie where
  funcs    : Tbl Func
  vfEnable : Bool
  numVfs   : Nat
  d3hot    : Bool
  inFlight : List InFlight
  heldGo   : Bool
  pkgSerial : Word
  restored : List (BitVec 128 × Word)
  respFault : List Nat
  deriving DecidableEq, Repr

/-! ## Gates, Steward and referee (chapter 12) -/

/-- A target gate (R360-R372): its epoch and banks, whether the enables of every region agree with their shadows, its latch, and the
fence line of each Steward pair with its inverted shadow (R386). -/
structure Gate where
  epoch    : Bool
  bankA    : List Region
  bankB    : List Region
  shadowOk : Bool
  latched  : Option (Byte × BitVec 16 × Nat)
  refusals : Nat
  draining : Bool
  old      : Nat
  fenceNorth : Bool := false
  fenceSouth : Bool := true
  fenceNorthShadow : Bool := true
  fenceSouthShadow : Bool := false
  deriving DecidableEq, Repr

/-- A gate with no rules. -/
def Gate.blank : Gate :=
  { epoch := false, bankA := [], bankB := [], shadowOk := true, latched := .none, refusals := 0, draining := false, old := 0 }

/-- A Steward pair (R385-R388). -/
inductive PairState where
  | holder
  | standby
  | selfTest
  | failed
  deriving DecidableEq, Repr

/-- The Steward and the referee (Table 12.8). -/
structure Steward where
  epoch       : BitVec 32
  epochShadow : BitVec 32
  holderSouth : Bool
  lapse       : Bool
  north       : PairState
  south       : PairState
  mismatch    : Bool
  takeover    : Option Bool
  holds       : List (BitVec 16)
  deferred    : List (BitVec 16 × Nat)
  verifying   : Bool
  fenceOk     : Bool
  ruleCmds    : List (Nat × Cmd) := []
  deriving DecidableEq, Repr

/-! ## Time (chapter 13) -/

/-- The qualities of Table 13.2. -/
inductive Quality where
  | invalid
  | acquiring
  | locked
  | holdover
  deriving DecidableEq, Repr

/-- A foreign master known from its Announces (R398). -/
structure Master where
  ident    : Word
  dataset  : Nat
  announces : Nat
  deriving DecidableEq, Repr

/-- The milepost counter, its servo and the timing port. Offsets and errors are in nanoseconds; `rate` counts steps of
2^-40 ns per cycle (R389), and `sub` the part of the fraction below 2^-16 ns. -/
structure Time where
  secs      : BitVec 48
  nanos     : BitVec 32
  frac      : BitVec 16
  sub       : Nat
  rate      : Nat
  quality   : Quality
  masters   : List Master
  selected  : Option Word
  sync      : Option PtpMsg
  delay     : Option Nat
  ms        : Option Int
  delayAge  : Nat
  t3        : Option (BitVec 16 × Nat)
  pdelay    : Option (BitVec 16 × Nat)
  pdelayResp : Option (Nat × Nat)
  seqOut    : BitVec 16
  goodRun   : Nat
  badRun    : Nat
  usable    : Nat
  offset    : Int
  lastOffsets : List Nat
  band      : Nat
  bandRun   : Nat
  correction : Int
  e         : Nat
  eSince    : Nat
  slewing   : Bool
  domain    : Nat
  peer      : Bool
  ppsEnable : Bool
  ppsPending : Option Bool
  source    : Nat
  activeSource : Nat
  holdSince : Nat
  ppsGood   : Nat
  ppsQualified : Bool
  ppsMissed : Nat
  ppsIn     : Nat
  ppsOut    : Bool
  ref10m    : Bool
  drops     : Tbl Nat
  outliers  : Nat
  running   : Bool
  sgmii     : Bool
  deriving DecidableEq, Repr

/-! ## Entropy (chapter 14) -/

/-- The states of a noise cell (R406). -/
inductive CellState where
  | inService
  | reserve
  | failed
  deriving DecidableEq, Repr

/-- A noise cell (R406-R412). `starting` counts the start-up windows still to pass; `recent` lists the last results,
newest first, true for a failure. -/
structure Cell where
  state    : CellState
  running  : Bool
  stable   : Bool
  starting : Nat
  mode     : Bool
  nextMode : Bool
  windows  : BitVec 32
  failures : BitVec 32
  recent   : List Bool
  lastTest : Nat
  bias     : Int
  corr     : Vector Int 4
  deriving DecidableEq, Repr

/-- A cell as designated at delivery, stopped (R406). -/
def Cell.delivered (n : Nat) : Cell :=
  { state := if (n + 16 - Config.reserveCellBase % 16) % 16 < 4 then .reserve else .inService, running := false, stable := false,
    starting := 16, mode := false, nextMode := false, windows := 0, failures := 0, recent := [], lastTest := 0, bias := 0,
    corr := Vector.replicate 4 0 }

/-- A waiting kettle draw (R414): an expander (36 is H.DRBG) or the Steward's direct draw. -/
inductive Draw where
  | expander (e : Nat)
  | direct (forBbk : Bool)
  deriving DecidableEq, Repr

/-- The entropy path. `hubDrawn` is set while a first draw has been made and waits for H.DRBG's known-answer test (R415). -/
structure Entropy where
  cells    : Tbl Cell
  pool     : BitVec 512
  credit   : Nat
  serial   : Word
  draws    : List Draw
  hub      : Expander
  kettleKat : Bool
  hubKat   : Bool
  hubDrawn : Bool
  firstSeed : Bool
  kettleFailed : Bool
  deriving DecidableEq, Repr

/-! ## Cards and ceremonies (chapter 15) -/

/-- How far a slot's activation and exchange have come (R427-R439). -/
inductive SlotPhase where
  | off
  | present
  | awaitAtr
  | awaitB
  | awaitPps
  | awaitIfs
  | select
  | info
  | auth
  | share
  | read
  | waitRoom
  | write
  | idle
  | refused
  deriving DecidableEq, Repr

/-- A card slot. `lastCmd` is the block last sent, `txRest` what of a chained command still goes, `rx` what of a chained
answer has come; `record` is the record being written. -/
structure CardSlot where
  inserted  : Bool
  phase     : SlotPhase
  classB    : Bool
  fi        : Nat
  di        : Nat
  noPps     : Bool
  crc       : Bool
  ns        : Bool
  nr        : Bool
  retries   : Nat
  wtx       : Nat
  serial    : Word
  counter   : BitVec 32
  cardKey   : Bytes
  seed      : Word
  nonce     : BitVec 128
  kEnc      : Bytes
  kMac      : Bytes
  share     : Bytes
  record    : Bytes
  lastCmd   : Bytes
  ifsc      : Nat
  txRest    : Bytes
  rx        : Bytes
  deriving DecidableEq, Repr

/-- A slot with no card. -/
def CardSlot.fresh : CardSlot :=
  { inserted := false, phase := .off, classB := false, fi := 372, di := 1, noPps := false, crc := false, ns := false, nr := false,
    retries := 0, wtx := 0, serial := 0, counter := 0, cardKey := [], seed := 0, nonce := 0, kEnc := [], kMac := [],
    share := [], record := [], lastCmd := [], ifsc := 32, txRest := [], rx := [] }

/-- The ceremony states of Table 15.4. -/
inductive CeremonyState where
  | waiting
  | firstCard
  | granted
  | aborted
  | outcomeUnknown
  deriving DecidableEq, Repr

/-- A card that has joined: serial, key digest, share if given. -/
structure Joined where
  serial  : Word
  keyHash : Bytes
  share   : Bytes
  deriving DecidableEq, Repr

/-- A ceremony (R438-R443). -/
structure Ceremony where
  id      : Word
  purpose : BitVec 16
  digest  : Bytes
  state   : CeremonyState
  joined  : List Joined
  enrolled : List Joined
  auth    : Option Word
  grantedAt : Nat
  torn    : Option Word
  deriving DecidableEq, Repr

/-- A record write left without a receipt (R441, R442): the card, its counter before, the ceremony, and what the card brought
to it. -/
structure Torn where
  serial  : Word
  before  : BitVec 32
  ceremony : Word
  keyHash : Bytes
  share   : Bytes
  deriving DecidableEq, Repr

/-- The card slots and the Inner world's ceremony state. -/
structure Cards where
  slots    : Tbl CardSlot
  divisor  : Nat
  classB   : BitVec 2
  trailing : Nat
  wtxCeil  : Nat
  ceremony : Option Ceremony
  roster   : List (Word × Bytes)
  torn     : List Torn
  deriving DecidableEq, Repr

/-! ## Tamper and life-cycle (chapter 16) -/

/-- A source's configuration (Table 16.1). -/
structure SourceCfg where
  rank   : Nat
  n      : Nat
  m      : Nat
  period : Nat
  deriving DecidableEq, Repr

/-- A tamper source's window and evidence (R450, R459). `clean` counts event-free samples since an alarm. -/
structure Source where
  cfg    : SourceCfg
  shadow : SourceCfg
  window : List Bool
  armed  : Bool
  clean  : Nat
  flag   : Bool
  count  : BitVec 32
  lastRank : Nat
  heldHalt : Bool
  deriving DecidableEq, Repr

/-- An alarm waiting for, or in, its response (R454). -/
structure Alarm where
  source : Nat
  rank   : Nat
  multi  : Bool
  nets   : BitVec 8
  events : Nat
  deriving DecidableEq, Repr

/-- The backup domain. `current` holds the alarms of an erasing response that has not completed. -/
structure Tamper where
  sources : Tbl Source
  running : Option Nat
  waiting : List Alarm
  done    : List Nat
  hx3     : Nat
  hx3Due  : Nat
  current : List Alarm := []
  powered : Bool
  flag11  : Bool
  count11 : BitVec 32
  flag12  : Bool
  count12 : BitVec 32
  seed    : Word
  mramCfg : Tbl SourceCfg
  deriving DecidableEq, Repr

/-- The life-cycle machine (R463-R468). -/
structure Lifecycle where
  copy0   : Word
  copy1   : Word
  copy2   : Word
  code    : Byte
  shadow  : Byte
  gen     : Byte
  moving  : Option (Byte × Option Cmd)
  debug   : Bool
  nonce   : Option (BitVec 128)
  dus     : BitVec 256
  deriving DecidableEq, Repr

/-! ## Faults, ALIVE and recorder (chapter 17) -/

/-- A queue entry of the collector (Table 17.1). -/
structure FaultMsg where
  cls    : Nat
  kind   : Byte
  src    : BitVec 16
  seq    : BitVec 16
  rep    : Nat
  mile   : BitVec 13
  detail : Word
  deriving DecidableEq, Repr

/-- A fault of the active set (R482): when it last recurred. -/
structure Active where
  cls  : Nat
  kind : Byte
  src  : BitVec 16
  last : Nat
  deriving DecidableEq, Repr

/-- The fault collector and the ALIVE balls (R470-R487). -/
structure Faults where
  queue    : List FaultMsg
  active   : List Active
  seq      : BitVec 16
  overflow : BitVec 32
  grave    : Bool
  handling : List (Nat × Byte × BitVec 16)
  unhandled : List (Nat × Byte × BitVec 16)
  erasedAtFault : Bool
  aliveOn  : Bool
  aliveOut : Bool
  peerSeen : Bool
  peerLost : Bool
  peerLast : Nat
  deriving DecidableEq, Repr

/-- A recorder record's body (Table 17.7). -/
structure Rec where
  gen      : BitVec 32
  tailGen  : BitVec 32
  firstCycle : BitVec 32
  firstHours : BitVec 32
  lastCycle : BitVec 32
  lastHours : BitVec 32
  body     : List Int
  deriving DecidableEq, Repr

/-- The recorder (R488-R493). -/
structure Recorder where
  records : Tbl Rec
  copyA   : Tbl Rec
  copyB   : Tbl Rec
  serialA : Nat
  serialB : Nat
  validA  : Bool
  validB  : Bool
  flushing : Bool
  pendingFlush : Bool
  hours   : BitVec 32
  cycles  : BitVec 32
  deriving DecidableEq, Repr

/-! ## Power, start-up and reserve (chapter 18) -/

/-- The device states of Table 10.8. -/
inductive DevState where
  | booting
  | ready
  | tamperErased
  | faulted
  | grave
  | stopping
  deriving DecidableEq, Repr

/-- The kinds of start-up of Table 18.4. -/
inductive StartKind where
  | cold
  | warm
  | exit
  deriving DecidableEq, Repr

/-- The steps of Table 18.4 that complete as events, and the end of start-up. -/
inductive StartStep where
  | s1 | s2 | s3 | s4 | s4a | s5 | s6 | s7 | s8 | s9a | s9b | s10
  | done
  | stopped
  deriving DecidableEq, Repr

/-- Where the power-fail warning stands (R265, R496). -/
inductive PfwPhase where
  | none
  | grace
  | done
  deriving DecidableEq, Repr

/-- Deep standby (R504): asked for while a unit is held, its planned stops under way, entered. -/
inductive Standby where
  | none
  | deferred
  | entering
  | entered
  deriving DecidableEq, Repr

/-- An engagement of a reserve (R514). -/
structure Engagement where
  failing : Nat
  reserve : Nat
  cause   : Nat
  quiesced : Bool
  cmd     : Option Cmd
  deriving DecidableEq, Repr

/-- Power, start-up, firmware and reserve bookkeeping. -/
structure Power where
  porst     : Bool
  vinOff    : Bool
  vaonOff   : Bool
  pfw       : PfwPhase
  pfwReleased : Bool
  dev       : DevState
  erased    : Bool
  kind      : StartKind
  step      : StartStep
  standby   : Standby
  standbyCmd : Option Cmd
  resetDue  : Bool
  running   : BitVec 384
  boot      : BitVec 384
  staged    : Bytes
  stagedTotal : Nat
  stagedLast : Nat × Bytes
  stagedState : Nat
  bootSerial : Word
  activating : Bool
  activateCmd : Option Cmd
  samples   : List Nat
  released  : Nat := 0
  governed  : Bool
  engagements : List Engagement
  spare     : Nat
  remapped  : List Nat
  remapQueue : List (Nat × Nat)
  rowsCounted : Nat := 0
  rowErrors : List (Nat × Nat)
  flashSettings : Bytes
  selftests : List (BitVec 16)
  hubTemp   : Int
  deriving DecidableEq, Repr

/-! ## What leaves the part -/

/-- What the HX7 sends or drives, as its partners see it. -/
inductive Output where
  | message (port session vc : Nat) (bytes : Bytes)
  | frame (port : Nat) (bytes : Bytes)
  | idle (port : Nat)
  | completion (fn : Nat) (via : Channel) (bytes rsp : Bytes) (rspAddr : Word)
  | msix (fn vector : Nat)
  | smbAlert (low : Bool)
  | pmbAlert (low : Bool)
  | card (slot : Nat) (bytes : Bytes)
  | cardOff (slot : Nat)
  | cardOn (slot : Nat) (classB : Bool)
  | ptp (mac : BitVec 48) (clock : Word) (portNumber typ : Nat) (seq : BitVec 16) (ns : Nat) (requester : Word)
  | alive (level : Bool)
  | pps (level : Bool)
  | linkDown
  | debugNonce (n : BitVec 128)
  deriving DecidableEq, Repr

/-! ## The state -/

/-- The state of one HX7. -/
structure State where
  pending  : List Instr
  now      : Nat
  freeCtr  : Nat
  out      : List Output
  mem      : Memory
  seats    : Tbl Seat
  tes      : Tbl Te
  clusters : Tbl Cluster
  lanes    : Tbl Lane
  depot    : Depot
  tenancy  : Tenancy
  keys     : Keys
  vault    : Vault
  journal  : Journal
  held     : List Held
  port0    : Port
  port1    : Port
  openSerial : Word
  pcie     : Pcie
  gates    : Tbl Gate
  steward  : Steward
  time     : Time
  entropy  : Entropy
  cards    : Cards
  tamper   : Tamper
  lc       : Lifecycle
  faults   : Faults
  recorder : Recorder
  power    : Power
  deriving DecidableEq, Repr

/-! ## Reset -/

/-- The empty key stores of a delivered part. -/
def Keys.reset : Keys :=
  { bbk := .none, fbr := .none, devWrap := .none, devBind := .none, warm := [], caddy := [], counts := [], corrected := 0,
    useClock := 0, carry := .none, suspended := false, rekeying := [] }

/-- The Depot at power-up: warm floor 2, sleep delay 200 µs (R110, R112). -/
def Depot.reset : Depot :=
  { seq := 0, seqAnchor := 0, items := [], retired := [], retiredBanks := [], bankCorrected := [], bankUncorrectable := [],
    warmFloor := 2, sleepDelay := 200, holds := 0, stopped := false, moveSeq := 0, packages := [], evalAt := 0 }

/-- The vault at delivery: UNFORMATTED, timeout 100 µs (Table 7.7, R236). -/
def Vault.reset : Vault :=
  { state := .unformatted, n := 0, root := 0, rootVersion := 0, serial := 0, nodes := [], missing := false, verCache := [], ops := [], reqs := [], repair := .none,
    freeing := .none, recover := .none, sessions := [], timeoutUs := 100, refill := 0, counts := Vector.replicate 7 0, nextReq := 0 }

/-- An empty journal. -/
def Journal.reset : Journal :=
  { ring := [], spill := [], anchors := [], watermarks := [], mramMarks := [], unsettled := [], orphans := [], early := 0,
    waits := 0, markSecs := 0, markNanos := 0, lostAt := .none }

/-- The PCIe endpoint at power-up: VF Enable clear. -/
def Pcie.reset : Pcie :=
  { funcs := [], vfEnable := false, numVfs := 0, d3hot := false, inFlight := [], heldGo := false, pkgSerial := 0,
    restored := [], respFault := [] }

/-- The referee at power-up (R385): epoch 0, the token with North, the lapse flag set. -/
def Steward.reset : Steward :=
  { epoch := 0, epochShadow := 0xFFFFFFFF, holderSouth := false, lapse := true, north := .standby, south := .standby,
    mismatch := false, takeover := .none, holds := [], deferred := [], verifying := false, fenceOk := true }

/-- The counter at PORST_N (Table 13.4): 0 s, 0 ns, INVALID, at the nominal rate. -/
def Time.reset : Time :=
  { secs := 0, nanos := 0, frac := 0, sub := 0, rate := 2 ^ 40, quality := .invalid, masters := [], selected := .none,
    sync := .none, delay := .none, ms := .none, delayAge := 0, t3 := .none, pdelay := .none, pdelayResp := .none, seqOut := 0, goodRun := 0,
    badRun := 0, usable := 0, offset := 0, lastOffsets := [], band := 8, bandRun := 0, correction := 0, e := 0, eSince := 0,
    slewing := false, domain := 0, peer := false, ppsEnable := false, ppsPending := .none, source := 0, activeSource := 0,
    holdSince := 0, ppsGood := 0, ppsQualified := false, ppsMissed := 0, ppsIn := 0, ppsOut := false, ref10m := false,
    drops := [], outliers := 0, running := false, sgmii := false }

/-- The entropy path at power-up (R413): P, C and the draw serial zero. -/
def Entropy.reset : Entropy :=
  { cells := [], pool := 0, credit := 0, serial := 0, draws := [], hub := Expander.fresh, kettleKat := false, hubKat := false, hubDrawn := false,
    firstSeed := false, kettleFailed := false }

/-- The card slots with the defaults of Table 15.1. -/
def Cards.reset : Cards :=
  { slots := [], divisor := 25, classB := 0, trailing := 1860, wtxCeil := 1000, ceremony := .none, roster := [],
    torn := [] }

/-- The default configuration of a source (Table 16.1). -/
def SourceCfg.default (src : Nat) : SourceCfg :=
  if src = 0 then ⟨1, 1, 1, 64⟩
  else if src ≤ 4 then ⟨1, 2, 4, 64⟩
  else if src ≤ 6 then ⟨1, 4, 4, 1024⟩
  else if src = 7 then ⟨4, 4, 8, 1024⟩
  else if src = 8 then ⟨2, 1, 1, 0⟩
  else if src = 9 then ⟨3, 3, 8, 0⟩
  else ⟨1, 1, 1, 0⟩

/-- A source under its default configuration. -/
def Source.default (src : Nat) : Source :=
  { cfg := SourceCfg.default src, shadow := SourceCfg.default src, window := [], armed := true, clean := 0, flag := false, count := 0,
    lastRank := 0, heldHalt := false }

/-- The backup domain of a delivered part: unpowered (R539). -/
def Tamper.reset : Tamper :=
  { sources := [], running := .none, waiting := [], done := [], hx3 := 0, hx3Due := 0, powered := false,
    flag11 := false, count11 := 0, flag12 := false, count12 := 0, seed := 0, mramCfg := [] }

/-- The life-cycle word of VENDOR_PROVISIONED in its three copies (R466, R539). -/
def Lifecycle.reset : Lifecycle :=
  { copy0 := 0x3FF, copy1 := 0x3FF, copy2 := 0x3FF, code := 0x02, shadow := 0xFD, gen := 2, moving := .none, debug := false,
    nonce := .none, dus := Config.dus }

/-- The collector at power-up (R480): no entry, sequence 0, the latch clear. -/
def Faults.reset : Faults :=
  { queue := [], active := [], seq := 0, overflow := 0, grave := false, handling := [], unhandled := [], erasedAtFault := false, aliveOn := false,
    aliveOut := false, peerSeen := false, peerLost := false, peerLast := 0 }

/-- An empty recorder with neither copy valid. -/
def Recorder.reset : Recorder :=
  { records := [], copyA := [], copyB := [], serialA := 0, serialB := 0, validA := false, validB := false, flushing := false,
    pendingFlush := false, hours := 0, cycles := 0 }

/-- The part with its rails up and PORST_N asserted, BOOTING. -/
def Power.reset : Power :=
  { porst := true, vinOff := true, vaonOff := true, pfw := .none, pfwReleased := false, dev := .booting, erased := false, kind := .cold,
    step := .s1, standby := .none, standbyCmd := .none, resetDue := false, running := 0, boot := Config.deliveredMeasurement, staged := [], stagedTotal := 0,
    stagedLast := (0, []), stagedState := 0, bootSerial := 0, activating := false, activateCmd := .none, samples := [],
    governed := false, engagements := [], spare := 16384, remapped := [], remapQueue := [], rowErrors := [], flashSettings := [],
    selftests := [], hubTemp := 0 }

/-- The machine right after reset: the part as delivered (R539), PORST_N asserted, nothing pending. -/
def State.reset : State :=
  { pending := [], now := 0, freeCtr := 0, out := [], mem := [], seats := [], tes := [], clusters := [], lanes := [],
    depot := Depot.reset, tenancy := { profile := .unformatted, parts := [], serials := [], tags := [], images := [], signers := [] },
    keys := Keys.reset, vault := Vault.reset, journal := Journal.reset, held := [], port0 := Port.delivered,
    port1 := Port.delivered, openSerial := 0, pcie := Pcie.reset, gates := [], steward := Steward.reset, time := Time.reset,
    entropy := Entropy.reset, cards := Cards.reset, tamper := Tamper.reset, lc := Lifecycle.reset, faults := Faults.reset,
    recorder := Recorder.reset, power := Power.reset }

end Sys2Proof.Machine
end

