-- ==== Sys2Proof/WellFormed.lean ====
section
/-! DEFINITION. Which units the HX7 has (R25, R95, R268, R322, R360, R406, R425), and the check that a command names
one of them. A command that names none is no command of the part: the machine faults on it. -/

namespace Sys2Proof

/-- A cluster number 9n + m of Qn.Cm. -/
def clusterOk (c : Nat) : Bool := decide (c < 36)

/-- A seat of a TE of a cluster (R37). -/
def SeatRef.ok (u : SeatRef) : Bool := clusterOk u.cluster && decide (u.te < 16) && decide (u.seat < 2)

/-- A TE of a cluster. -/
def teOk (c t : Nat) : Bool := clusterOk c && decide (t < 16)

/-- A Freri port: 0 for F0, 1 for F1. -/
def portOk (p : Nat) : Bool := decide (p < 2)

/-- A virtual channel of a port. -/
def vcOk (p vc : Nat) : Bool := portOk p && decide (vc < 8)

/-- A session of a port. -/
def sessionOk (p x : Nat) : Bool := portOk p && decide (x < 4096)

/-- A physical lane of a port: SL0 to SL4. -/
def slOk (p sl : Nat) : Bool := portOk p && decide (sl < 5)

/-- A PCIe function: 0 is the PF. -/
def fnOk (f : Nat) : Bool := decide (f < 1024)

/-- A lane of the Depot. -/
def laneOk (l : Nat) : Bool := decide (l < 16384)

/-- A target gate of Table 12.2. -/
def gateOk (g : Nat) : Bool := decide (g < 47)

/-- An expander: of cluster e, or H.DRBG at 36. -/
def expanderOk (e : Nat) : Bool := decide (e < 37)

/-- A noise cell. -/
def cellOk (n : Nat) : Bool := decide (n < 16)

/-- A card slot. -/
def slotOk (n : Nat) : Bool := decide (n < 2)

/-- Whether a command names units the HX7 has. -/
def Instr.wf : Instr → Bool
  | .add u _ _ _ | .sub u _ _ _ | .and u _ _ _ | .or u _ _ _ | .xor u _ _ _ | .sll u _ _ _ | .srl u _ _ _
  | .sra u _ _ _ | .rol u _ _ _ | .slt u _ _ _ | .sltu u _ _ _ | .mul u _ _ _ | .mulhu u _ _ _ | .cmovz u _ _ _ => u.ok
  | .bswap u _ _ => u.ok
  | .addi u _ _ _ | .andi u _ _ _ | .ori u _ _ _ | .xori u _ _ _ | .slti u _ _ _ | .shi u _ _ _ | .insq u _ _ _ => u.ok
  | .sys u _ _ => u.ok
  | .beq u _ _ _ | .bne u _ _ _ | .blt u _ _ _ | .bge u _ _ _ | .bltu u _ _ _ | .bgeu u _ _ _ => u.ok
  | .jmp u _ | .call u _ | .ret u => u.ok
  | .ld8 u _ _ _ _ | .ld16 u _ _ _ _ | .ld32 u _ _ _ _ | .ld64 u _ _ _ _ | .st8 u _ _ _ _ | .st16 u _ _ _ _
  | .st32 u _ _ _ _ | .st64 u _ _ _ _ | .ldb u _ _ _ _ | .stb u _ _ _ _ => u.ok
  | .cInit u _ _ _ | .cEnc u _ _ _ | .cDec u _ _ _ | .cAad u _ _ | .cMac u _ _ | .cFin u _ | .cSave u _ | .cRest u _
  | .cFf1e u _ | .cFf1d u _ | .cRaw u _ _ _ _ => u.ok
  | .dInit u _ _ _ | .dAbs u _ | .dLast u _ _ | .dOut u _ _ | .dCmp u _ _ | .dSave u _ | .dRest u _ => u.ok
  | .gfm u _ _ | .cmpct u _ _ _ _ => u.ok
  | .kLoad u _ _ | .kClr u _ | .kDrv u _ _ _ _ | .kWrap u _ _ _ _ | .kUnwr u _ _ _ _ | .kStore u _ _ | .kAttr u _ _ => u.ok
  | .gate u _ | .gret u _ | .mileP u _ _ | .mileI u _ _ _ | .mileC u _ _ _ | .yieldPoint u | .emit u _ _ | .trap u _
  | .vget u _ _ _ | .vput u _ _ _ => u.ok
  | .yieldOverdue u | .scratchUncorrectable u _ | .vaultWaitDone u | .imageCacheFill u | .caddyMissFill u
  | .degradedVputTimeout u => u.ok
  | .drbgReadDone e | .drbgGenerate e | .reseedRequested e | .reseedRequired e | .seedWait e => expanderOk e
  | .itinReq p vc _ | .vaultData p vc _ | .violation p vc _ | .bulkOpen p vc _ | .bulkData p vc _ | .bulkClose p vc _
  | .goingAway p vc _ | .idleMessageReceipt p vc _ => vcOk p vc
  | .linkCreditHoldRelease p vc => vcOk p vc
  | .itemDispatch c | .clusterSleep c | .maeJobYieldPoint c | .maeKeyTableMissDone c | .quiesceDone c | .reserveEngaged c
  | .marginLow1s c | .correctedRateHigh c | .forcedStop c => clusterOk c
  | .clusterWakeDone c _ | .maeJobEnd c _ | .maeKatDone c _ => clusterOk c
  | .loopAdjust c _ _ _ => clusterOk c
  | .wrappedMoveArrival c _ _ => clusterOk c
  | .bulkSegmentEnd c t | .streamKeyFetchDone c t => teOk c t
  | .overflowRefill l | .overflowRefillDone l | .laneEmpty l => laneOk l
  | .depotCellUncorrectable b c => decide (b < 16) && decide (c < 4096)
  | .cdrLockLoss p sl | .laneBerExceeded p sl | .laneUncorrectableTwice p sl | .dfeTapAtLimit p sl => slOk p sl
  | .laneFrame p _ | .dataFrame p _ | .idleFrame p _ | .nakFrame p _ | .initFrame p _ => portOk p
  | .remapRealignDone p | .remapSuspensionEnd p | .idleFrameSend p | .initFrameSend p | .ackSend p | .replayTimeout p
  | .pcsAlignment p | .trainingTimeout p | .trainingRestart p | .initTimeout p | .retrainTimeout p | .partnerLoss p
  | .violationDownEnd p | .drainIntervalEnd p | .plannedStopDown p | .portAckWaitEnd p | .freriRefclkPresent p => portOk p
  | .idleMessage p x | .credit p x | .sessionCloseTimeout p x | .sessionClosed p x => sessionOk p x
  | .cmdTail f _ | .cplHead f _ | .ringCtrlEnable f _ | .go f _ => fnOk f
  | .ringFetch f _ _ => fnOk f
  | .eventRw1c f _ _ => fnOk f
  | .registerWrite f _ _ _ => fnOk f
  | .completionIrqDelay f | .flr f | .instanceResetSquash f | .instanceResetDone f | .freezeAtRest f => fnOk f
  | .dmaFault f _ => fnOk f
  | .vfEnableClear n _ | .vfEnableSet n => decide (n < 1024)
  | .deviceInfo c | .deviceStatus c | .deviceReset c | .deviceStandby c | .faultRead c | .faultClear c | .recorderRead c
  | .lcStatus c | .lcAdvance c | .lcReprovision c | .tamperStatus c | .tamperConfig c | .reserveStatus c
  | .reserveEngage c | .partFormat c | .partCreate c | .partDelete c | .partPolicy c | .partRekey c | .partStatus c
  | .vfCreate c | .vfDestroy c | .vfReset c | .vfFreeze c | .vfThaw c | .vfSave c | .vfRestore c | .vfStatus c
  | .laneConfig c | .laneStatus c | .depotSet c | .depotStatus c | .placeStatus c | .keyPut c | .keyGet c | .keyList c
  | .keyGenerate c | .keyDelete c | .keySetattr c | .keyImport c | .keyExport c | .keyCarryOpen c | .keyCarryRead c
  | .caddyStatus c | .itinLoad c | .itinUnload c | .itinList c | .itinSignerAdd c | .itinSignerRemove c | .vaultFormat c
  | .vaultAlloc c | .vaultFree c | .vaultAttach c | .vaultVersion c | .vaultRecover c | .vaultStatus c | .journalQuery c
  | .journalStatus c | .freriConfig c | .freriSessionOpen c | .freriSessionClose c | .freriStatus c | .timeStatus c
  | .timeConfig c | .entropyStatus c | .entropyConfig c | .entropyKat c | .ceremonyBegin c | .ceremonyStatus c
  | .ceremonyAbort c | .ceremonyOmk c | .fwStatus c | .fwStage c | .fwActivate c => fnOk c.fn
  | .cellStabilised n | .noiseWindowEnd n _ | .fillTimeExceeded n => cellOk n
  | .cardInserted n | .cardRemoved n | .atr n _ | .atrTimeout n | .classBReactivate n | .ppsResponse n _ | .t1Block n _
  | .blockWaitingTimeout n | .wtxCeiling n | .cardInactivity n | .ppsResponseTimeout n => slotOk n
  | .gateLatchClear g | .gateEpochFlip g _ | .gateDrainDone g | .gateDrainOverdue g => gateOk g
  | .railBelowThreshold r => decide (r < 8)
  | .dramUncorrectable ch _ | .dramCorrected ch _ => decide (ch < 16)
  | .anchorSpaceFree | .itinRsp | .placementEvaluation | .vaultRequestTimeout _ | .vaultRefill | .watermarkWrite
  | .journalSpill | .outcome | .pfwNAssert | .pfwGraceEnd | .pfwNRelease | .d3hotEntry | .d3hotExit | .warmReset
  | .deepStandbyEntered | .fwRewrapDone | .authorisationVoid | .sync _ | .followUp _ | .announce _ | .delayResp _
  | .pdelayReq _ | .pdelayResp _ | .delayReqSend | .pdelayReqSend | .announceReceiptTimeout | .syncLossTimeout
  | .holdoverEstimateExceeded | .ref10mLost | .ppsInEdge | .ppsInMissed | .milepostSecond | .ppsOutFall
  | .timingLinkDown | .kettleDraw | .katDone _ _ _ | .ceremonyTimeout | .tamperResponseDone | .shadowCheck
  | .backupShadowMismatch | .faultArrival _ _ _ _ | .class3Squash | .faultHandling | .aliveOutToggle | .peerAliveInEdge
  | .peerAliveLost | .recorderFlush | .recorderFlushDone | .recorderPeriodicFlush | .operatingHoursTick | .holderRenewal
  | .refereeClaim _ | .claimLapse | .lockstepMismatch | .failoverGrant | .stewardSelftestDone _ _ | .innerHoldOverdue _
  | .holdRelease _ | .porstNAssert | .porstNRelease | .startupStepDone _ | .governorTick _ | .selftestDue _
  | .selftestDone _ _ | .caddyIntegrity _ | .sramCorrected _ _ | .mramCorrected _ | .dbgUnlock _ | .vendorTestMode _
  | .lcTransitionDone | .sourceSample _ | .continuousInterval _ | .recorderSample _ _ | .dramPageRemap _
  | .shareStorePropagated _ | .rekeyRewrapDone _ | .granuleZeroingDone _ => true

end Sys2Proof
end

