-- ==== Sys2Proof/Machine/Ops.lean ====
section
/-! DEFINITION. The named operations over memory, registers and records that every meaning is written with. -/

namespace Sys2Proof.Machine

/-- What a command answers. -/
abbrev Res := Host.Outcome State Fault Refusal

/-- Answer a next state if the command names a unit the HX7 has, and fault otherwise. -/
def checked (ok : Bool) (t : State) : Res := if ok then .next t else .fault .noSuchUnit

/-! ## Records of the state -/

/-- The key of a seat in its table. -/
def seatKey (u : SeatRef) : Nat := (u.cluster * 16 + u.te) * 2 + u.seat

/-- The seat of a key. -/
def seatOfKey (k : Nat) : SeatRef := { cluster := k / 32, te := k / 2 % 16, seat := k % 2 }

/-- A seat. -/
def State.seat (s : State) (u : SeatRef) : Seat := s.seats.get (seatKey u) Seat.empty

/-- Put a seat. -/
def State.setSeat (s : State) (u : SeatRef) (t : Seat) : State := { s with seats := s.seats.set (seatKey u) t }

/-- A TE. -/
def State.te (s : State) (c t : Nat) : Te := s.tes.get (c * 16 + t) Te.fresh

/-- Put a TE. -/
def State.setTe (s : State) (c t : Nat) (x : Te) : State := { s with tes := s.tes.set (c * 16 + t) x }

/-- A cluster. -/
def State.cluster (s : State) (c : Nat) : Cluster := s.clusters.get c (Cluster.delivered c)

/-- Put a cluster. -/
def State.setCluster (s : State) (c : Nat) (x : Cluster) : State := { s with clusters := s.clusters.set c x }

/-- A lane. -/
def State.lane (s : State) (l : Nat) : Lane := s.lanes.get l Lane.free

/-- Put a lane. -/
def State.setLane (s : State) (l : Nat) (x : Lane) : State := { s with lanes := s.lanes.set l x }

/-- A PCIe function. -/
def State.func (s : State) (f : Nat) : Func := s.pcie.funcs.get f (Func.default f)

/-- Put a PCIe function. -/
def State.setFunc (s : State) (f : Nat) (x : Func) : State := { s with pcie := { s.pcie with funcs := s.pcie.funcs.set f x } }

/-- A target gate. -/
def State.gate (s : State) (g : Nat) : Gate := s.gates.get g Gate.blank

/-- Put a target gate. -/
def State.setGate (s : State) (g : Nat) (x : Gate) : State := { s with gates := s.gates.set g x }

/-- A noise cell. -/
def State.cell (s : State) (n : Nat) : Cell := s.entropy.cells.get n (Cell.delivered n)

/-- Put a noise cell. -/
def State.setCell (s : State) (n : Nat) (x : Cell) : State := { s with entropy := { s.entropy with cells := s.entropy.cells.set n x } }

/-- A card slot. -/
def State.card (s : State) (n : Nat) : CardSlot := s.cards.slots.get n CardSlot.fresh

/-- Put a card slot. -/
def State.setCard (s : State) (n : Nat) (x : CardSlot) : State := { s with cards := { s.cards with slots := s.cards.slots.set n x } }

/-- A tamper source. -/
def State.source (s : State) (n : Nat) : Source := s.tamper.sources.get n (Source.default n)

/-- Put a tamper source. -/
def State.setSource (s : State) (n : Nat) (x : Source) : State := { s with tamper := { s.tamper with sources := s.tamper.sources.set n x } }

/-- A Freri port. -/
def State.port (s : State) (p : Nat) : Port := if p = 0 then s.port0 else s.port1

/-- Put a Freri port. -/
def State.setPort (s : State) (p : Nat) (x : Port) : State := if p = 0 then { s with port0 := x } else { s with port1 := x }

/-- A partition by its colour. -/
def State.part? (s : State) (c : Colour) : Option Part := s.tenancy.parts.find? c.toNat

/-- A sum over the partitions. -/
def State.sumParts (s : State) (f : Part → Nat) : Nat := (s.tenancy.parts.map fun p => f p.2).sum

/-- The units of vault not yet in any extent or quota (Table 10.2). -/
def State.freeVault (s : State) : Nat := s.vault.n - s.sumParts fun p => max p.vaultQuota ((p.extent.map (·.size)).getD 0)

/-- Put a partition. -/
def State.setPart (s : State) (c : Colour) (x : Part) : State :=
  { s with tenancy := { s.tenancy with parts := s.tenancy.parts.set c.toNat x } }

/-- Record what leaves the HX7, newest first (log entry 14). -/
def State.emit (s : State) (o : Output) : State := { s with out := o :: s.out }

/-- The expander of a cluster, or H.DRBG at 36 (R416). -/
def State.expander (s : State) (e : Nat) : Expander := if e = 36 then s.entropy.hub else (s.cluster e).drbg

/-- Put an expander. -/
def State.setExpander (s : State) (e : Nat) (x : Expander) : State :=
  if e = 36 then { s with entropy := { s.entropy with hub := x } } else s.setCluster e { s.cluster e with drbg := x }

/-! ## Free values (log entry 8) -/

/-- The next free value. -/
def State.free (s : State) : Word := Config.freeWord s.freeCtr

/-- The state after a free value was taken. -/
def State.drawn (s : State) : State := { s with freeCtr := s.freeCtr + 1 }

/-- A free value of `n` bytes, eight to a drawn word. -/
def State.freeBytes (s : State) (n : Nat) : Bytes :=
  ((List.range (ceilDiv n 8)).flatMap fun i => natBE 8 (Config.freeWord (s.freeCtr + i)).toNat).take n

/-- The state after `n` free bytes were taken. -/
def State.drawnBytes (s : State) (n : Nat) : State := { s with freeCtr := s.freeCtr + ceilDiv n 8 }

/-! ## Byte memory (log entry 7) -/

/-- What an unlisted address reads as. -/
def Memory.blank : Byte := 0

/-- The canonical form: addresses strictly rising, no cell equal to what an unlisted address reads as. -/
abbrev Memory.wf (m : Memory) : Prop := (m.map Prod.fst).Pairwise (· < ·) ∧ ∀ c ∈ m, c.2 ≠ Memory.blank

/-- Read one byte. -/
def Memory.read : Memory → Nat → Byte
  | [], _ => Memory.blank
  | (k, v) :: r, a => if k = a then v else Memory.read r a

/-- Put a cell in front, unless it holds what an unlisted address reads as. -/
def Memory.cons (a : Nat) (v : Byte) (m : Memory) : Memory := if v = Memory.blank then m else (a, v) :: m

/-- Write one byte, keeping the canonical form. -/
def Memory.write : Memory → Nat → Byte → Memory
  | [], a, v => Memory.cons a v []
  | (k, x) :: r, a, v =>
    if k = a then Memory.cons a v r
    else if a < k then Memory.cons a v ((k, x) :: r)
    else (k, x) :: Memory.write r a v

/-- Write bytes from an address on. -/
def Memory.writeBytes (m : Memory) (a : Nat) : Bytes → Memory
  | [] => m
  | b :: r => Memory.writeBytes (m.write a b) (a + 1) r

/-- Read bytes from an address on. -/
def Memory.readBytes (m : Memory) (a n : Nat) : Bytes := (List.range n).map fun i => m.read (a + i)

/-- Every cell below `lo` or at or above `hi`. -/
def Memory.clear (m : Memory) (lo hi : Nat) : Memory := m.filter fun c => decide (c.1 < lo) || decide (hi ≤ c.1)

/-- Read bytes of the byte memory. -/
def State.load (s : State) (a n : Nat) : Bytes := s.mem.readBytes a n

/-- Write bytes of the byte memory. -/
def State.store (s : State) (a : Nat) (b : Bytes) : State := { s with mem := s.mem.writeBytes a b }

/-- Zero a range of the byte memory. -/
def State.wipe (s : State) (lo hi : Nat) : State := { s with mem := s.mem.clear lo hi }

/-- Where a seat's scratch begins in the byte memory. -/
def scratchBase (u : SeatRef) : Nat := 2 ^ 48 + seatKey u * 2 ^ 14

/-- Where a cluster store begins in the byte memory. -/
def storeBase (c : Nat) : Nat := 2 * 2 ^ 48 + c * 2 ^ 20

/-- Where LPDDR6 begins in the byte memory. -/
def dramBase : Nat := 3 * 2 ^ 48

/-- Where a seat's message window begins in its cluster store (Table 12.6). -/
def windowOff (u : SeatRef) : Nat := (2 * u.te + u.seat) * 0x4000

/-- The LPDDR6 address of a granule (R374). -/
def granuleAddr (g : Nat) : Nat := 0x1C00000000 + g * 0x10000

/-! ## Source identifiers (R473) -/

/-- A unit of a cluster. -/
def srcCluster (c unit : Nat) : BitVec 16 := BitVec.ofNat 16 (c / 9 * 8192 + c % 9 * 256 + unit)

/-- A cluster's address byte: [7:4] Quarter, [3:0] cluster. -/
def addrByte (c : Nat) : Nat := c / 9 * 16 + c % 9

/-- A Hub unit of group 0. -/
def srcHub (unit : Nat) : BitVec 16 := BitVec.ofNat 16 (4 * 8192 + unit)

/-- A Freri port or one of its lanes. -/
def srcPort (p unit : Nat) : BitVec 16 := BitVec.ofNat 16 (4 * 8192 + (3 + p) * 256 + unit)

/-- A TE. -/
def srcTe (u : SeatRef) : BitVec 16 := srcCluster u.cluster u.te

/-- The cluster and unit a source identifier names, if it is a cluster's (R473). -/
def clusterOfSrc (src : BitVec 16) : Option (Nat × Nat) :=
  let v := src.toNat
  let q := v / 8192
  let m := v / 256 % 32
  if q < 4 ∧ m < 9 then some (9 * q + m, v % 256) else .none

/-! ## Reads of H.DRBG (R417) -/

/-- One generate of 512 bytes. -/
def Expander.generate (x : Expander) : Expander :=
  let r := drbgGen (natBE 32 x.key.toNat) (natBE 16 x.v.toNat) 32
  { x with key := BitVec.ofNat 256 (beNat r.2.1), v := BitVec.ofNat 128 (beNat r.2.2), buffer := x.buffer ++ r.1, generates := x.generates + 1 }

/-- An expander after the generates that a read of `n` bytes waits for, one whenever the buffer holds too few (Table 14.3). -/
def Expander.filled (x : Expander) (n : Nat) : Expander :=
  Nat.repeat (fun (x : Expander) => if x.buffer.length < n then x.generate else x) (ceilDiv n 512) x

/-- Whether a read of H.DRBG is served: it is seeded, no required reseed blocks its generates, no test holds it or failed. -/
def State.hubReady (s : State) : Bool :=
  s.entropy.hub.seeded && !s.entropy.hub.required && !s.entropy.hub.katFailed && !s.steward.holds.contains (srcHub 0x0C)

/-- What the Steward or the caddy unit reads from H.DRBG. A read that stalls ends with bits of a later seed, which are free (log
entry 23). -/
def State.hubBytes (s : State) (n : Nat) : Bytes := if s.hubReady then (s.entropy.hub.filled n).buffer.take n else s.freeBytes n

/-- The state after such a read. -/
def State.hubRead (s : State) (n : Nat) : State :=
  if s.hubReady then
    let x := s.entropy.hub.filled n
    { s with entropy := { s.entropy with hub := { x with buffer := x.buffer.drop n } } }
  else s.drawnBytes n

/-! ## The recorder's counters (R490, R493) -/

/-- A record no update has reached. -/
def Rec.blank : Rec :=
  { gen := 0, tailGen := 0, firstCycle := 0, firstHours := 0, lastCycle := 0, lastHours := 0, body := [] }

/-- Update a record in the order of R493: the head generation, the body and stamps, the tail generation. -/
def State.updateRec (s : State) (n : Nat) (f : List Int → List Int) : State :=
  let r := s.recorder.records.get n Rec.blank
  let g := r.gen + 1
  let first := r.gen == 0
  let r' : Rec :=
    { gen := g, tailGen := g,
      firstCycle := if first then s.recorder.cycles else r.firstCycle,
      firstHours := if first then s.recorder.hours else r.firstHours,
      lastCycle := s.recorder.cycles, lastHours := s.recorder.hours, body := f r.body }
  { s with recorder := { s.recorder with records := s.recorder.records.set n r' } }

/-- Add to a counter of a record of type 0x03; an 8-byte counter wraps (R489). -/
def bumpCounter (i : Nat) (k : Nat) (body : List Int) : List Int :=
  let b := body ++ List.replicate (27 - body.length) 0
  modNth (fun x => (x + k) % 2 ^ 64) i b

/-- Count an event in a recorder counter. -/
def State.count (s : State) (rec i : Nat) : State := s.updateRec rec (bumpCounter i 1)

/-- Ask for a flush of the recorder buffer (R492). -/
def State.flushWanted (s : State) : State := { s with recorder := { s.recorder with pendingFlush := true } }

/-! ## Junction temperatures (R532) -/

/-- The hottest junction in 0.1 °C. -/
def State.hottest (s : State) : Int := (List.range 36).foldl (fun a c => max a (s.cluster c).temp) s.power.hubTemp

/-- Whether PMB_ALERT_N is low: a junction is at or above 100 °C. -/
def State.pmbLow (s : State) : Bool := decide (1000 ≤ s.hottest)

/-- PMB_ALERT_N follows a change of the temperatures. -/
def State.tempChange (s t : State) : State := if s.pmbLow = t.pmbLow then t else t.emit (.pmbAlert t.pmbLow)

/-! ## Function events and interrupts (R333) -/

/-- Whether a vector is masked, by the function's mask or its MSI-X entry, which is masked at reset under the PCIe specification
(PRESUMED, log entry 9). -/
def Func.masked (f : Func) (vec : Nat) : Bool := f.msixMask || (f.msix.get (4 * vec + 3) 1).getLsbD 0

/-- Send a message-signalled interrupt on a vector where MSI-X is enabled; a masked one is left pending in the PBA. -/
def State.msix (s : State) (fn vec : Nat) : State :=
  let f := s.func fn
  if f.vectors ≤ vec ∨ !f.msixEnable then s
  else if f.masked vec then s.setFunc fn { f with pba := if f.pba.contains vec then f.pba else f.pba ++ [vec] }
  else s.emit (.msix fn vec)

/-- Set an EVENT bit; a change from 0 to 1 sends the event interrupt when it is enabled (R333). -/
def State.setEvent (s : State) (fn b : Nat) : State :=
  let f := s.func fn
  if f.event.getLsbD b then s
  else
    let s := s.setFunc fn { f with event := f.event ||| (1#32 <<< b) }
    if f.irqEvt.getLsbD 31 then s.msix fn (bits f.irqEvt.toNat 21 16) else s

/-- The functions the host sees: the PF and the enabled VFs (R322). -/
def State.functions (s : State) : List Nat := 0 :: (if s.pcie.vfEnable then (List.range s.pcie.numVfs).map (· + 1) else [])

/-- Set an EVENT bit on every function. -/
def State.setEventAll (s : State) (b : Nat) : State := s.functions.foldl (fun s f => s.setEvent f b) s

/-- Stop ALIVE_OUT, driven low (R485). -/
def State.aliveStop (s : State) : State :=
  if s.faults.aliveOn then
    ({ s with faults := { s.faults with aliveOn := false, aliveOut := false } }.emit (.alive false)).count 304 8
  else { s with faults := { s.faults with aliveOut := false } }

/-- Enter a device state (Table 10.8): EVENT.DEV_STATE on a change, TAMPER_ERASED's own event, ALIVE_OUT (R485). -/
def State.setDev (s : State) (d : DevState) : State :=
  if s.power.dev = d then s
  else
    let s := { s with power := { s.power with dev := d } }
    let s := s.setEventAll 4
    let s := if d = .tamperErased then s.setEventAll 6 else s
    match d with
    | .ready => { s with faults := { s.faults with aliveOn := true } }
    | .stopping => { s with faults := { s.faults with aliveOn := true } }
    | _ => s.aliveStop

/-! ## The journal (chapter 8) -/

/-- The ring's and the spill area's sizes (R257). -/
def ringCap : Nat := 65536
def spillCap : Nat := 268435456

/-- The anchor log's size (R259). -/
def anchorCap : Nat := 6144

/-- A milestone of an item (Table 8.1), stamped with the milepost. -/
def State.mile (s : State) (d : Desc) (typ : BitVec 8) (anchored vendor : Bool) (code : BitVec 11) (aux : BitVec 16)
    (valA : Word) (valB : BitVec 32) : Milestone :=
  { typ := typ, anchored := anchored, vendor := vendor, laneIdx := d.laneIdx, colour := d.colour, seq := d.seq,
    ticket := d.ticket, code := code, aux := aux, valA := valA, valB := valB, lane := d.lane, secs := s.time.secs.toNat,
    nanos := s.time.nanos.toNat }

/-- Whether two milestones belong to one use of a ticket. -/
def Milestone.sameUse (a b : Milestone) : Bool :=
  a.colour == b.colour && a.ticket == b.ticket && a.seq == b.seq && a.laneIdx == b.laneIdx

/-- Whether a record closes an INTENT (R253, R254). -/
def Milestone.closes (c i : Milestone) : Bool :=
  c.sameUse i && (c.typ == 5 || c.typ == 6) && c.code == i.code && c.valA == i.valA

/-- Whether an INTENT record is open among the records that follow it. -/
def intentOpen (i : Milestone) (later : List Milestone) : Bool := i.typ == 4 && !later.any fun c => c.closes i

/-- The records of a list that are INTENTs still open. -/
def openIntents : List Milestone → List Milestone
  | [] => []
  | m :: r => if intentOpen m r then m :: openIntents r else openIntents r

/-- The INTENTs of a list, each with the first record after it that closes it (R253). -/
def intentPairs : List Milestone → List (Milestone × Option Milestone)
  | [] => []
  | m :: r => if m.typ == 4 then (m, r.find? fun c => c.closes m) :: intentPairs r else intentPairs r

/-- Whether a ticket's records show a landed effect: an intent closed with a version that is not the one before. -/
def landedEffect (rs : List Milestone) : Bool := (intentPairs rs).any fun p => p.2.any fun c => c.valB != p.1.valB

/-- Whether a ticket is settled by its records: its response or completion is delivered, or it ended without one and nothing of it has
landed or may land (R256, R547). -/
def settledBy (rs : List Milestone) : Bool :=
  rs.any (·.typ == 9) || (rs.any (·.typ == 8) && !rs.any (·.typ == 7) && !landedEffect rs && (openIntents rs).isEmpty)

/-- The runs of a list of records, each from an ACCEPTED on. -/
def useRuns : List Milestone → List (List Milestone)
  | [] => []
  | m :: r =>
    match useRuns r with
    | [] => [[m]]
    | (x :: y) :: z => if x.typ == 1 then [m] :: (x :: y) :: z else (m :: x :: y) :: z
    | [] :: z => [m] :: z

/-- The records of the use of a ticket that a record belongs to: those of one item, or for a command, which has no sequence number, those
from one ACCEPTED to the next. -/
def useOfRecord (all : List Milestone) (m : Milestone) : List Milestone :=
  let rs := all.filter (·.sameUse m)
  ((useRuns rs).find? (·.contains m)).getD rs

/-- The SETTLED record a settled ticket's records are compacted into (Table 8.2). -/
def compactRecord (m : Milestone) (rs : List Milestone) : Milestone :=
  let fin := rs.find? (·.typ == 7)
  { m with
    typ := 0x0B, anchored := false, vendor := true,
    code := match fin with
      | some f => BitVec.ofNat 11 (f.valA.toNat / 2 ^ 56)
      | .none => 4
    aux := if rs.any (·.typ == 9) then 1 else 0
    valA := match fin with
      | some f => f.valA
      | .none => 0
    valB := BitVec.ofNat 32 m.secs }

/-- Drop the oldest records beyond the spill area (R257). -/
def spillBound (l : List Milestone) : List Milestone := l.drop (l.length - spillCap)

/-- Move the oldest record of the ring to the spill area, compacting a settled ticket without an INTENT (R257). -/
def Journal.spillOne (j : Journal) : Journal :=
  match j.ring with
  | [] => j
  | m :: r =>
    let rs := useOfRecord (j.spill ++ j.ring) m
    if settledBy rs && !rs.any (·.typ == 4) && !m.anchored && m.typ != 0x0B then
      { j with ring := r.filter (fun x => !rs.contains x),
               spill := spillBound (j.spill.filter (fun x => !rs.contains x) ++ [compactRecord m rs]) }
    else { j with ring := r, spill := spillBound (j.spill ++ [m]) }

/-- Append a record to the ring; a full ring first spills its oldest (R252, R257). -/
def Journal.put (j : Journal) (m : Milestone) : Journal :=
  let j := if j.ring.length < ringCap then j else j.spillOne
  { j with ring := j.ring ++ [m] }

/-- Write a milestone to the ring. -/
def State.writeMile (s : State) (m : Milestone) : State := { s with journal := s.journal.put m }

/-- The ticket's records the journal holds, in the order of their events; of those the ring and the spill area have lost, the anchors
remain (R259). -/
def Journal.recordsOf (j : Journal) (c : Colour) (t : Word) : List Milestone :=
  let mine := fun (m : Milestone) => m.colour == c && m.ticket == t
  let live := (j.spill ++ j.ring).filter mine
  (j.anchors.filter fun m => mine m && !live.contains m) ++ live

/-- Whether anchors alone are left of a ticket's records (Table 8.6, bit 3): every use of it began with records that are none. -/
def anchorsAlone (rs : List Milestone) : Bool := !rs.isEmpty && rs.all (·.anchored)

/-- Whether sequence `a` lies at or below `b` in serial arithmetic over 2^31 (R256). -/
def seqLe (a b : BitVec 32) : Bool := decide ((b - a).toNat < 2 ^ 31)

/-- Whether an anchored record is reclaimable (R259): its lane's written watermark covers it, or, for a command's
record, its ticket was delivered. -/
def Journal.reclaimable (j : Journal) (m : Milestone) : Bool :=
  if m.seq == 0 && m.laneIdx == 0 && m.lane == 16384 then
    let rs := j.recordsOf m.colour m.ticket
    (useOfRecord rs m).any (·.typ == 9)
  else match j.mramMarks.find? m.lane with
    | some w => seqLe m.seq w
    | .none => false

/-- Remove the first record of a list that meets a test. -/
def eraseFirst {α : Type} (p : α → Bool) : List α → List α
  | [] => []
  | x :: r => if p x then r else x :: eraseFirst p r

/-- Whether an anchored record may go: an INTENT only where a COMMIT or OUTCOME follows it (R259). -/
def anchorClosed (m : Milestone) (later : List Milestone) : Bool := !intentOpen m later

/-- The log without its first record that is closed and meets a test; nothing where there is none. -/
def dropClosed (p : Milestone → Bool) : List Milestone → Option (List Milestone)
  | [] => .none
  | m :: r => if p m && anchorClosed m r then some r else (dropClosed p r).map (m :: ·)

/-- Remove one record from the anchor log: the oldest reclaimable one, or early the oldest closed one (R259). -/
def Journal.reclaimOne (j : Journal) : Journal :=
  match dropClosed j.reclaimable j.anchors, dropClosed (fun _ => true) j.anchors with
  | some l, _ => { j with anchors := l }
  | .none, some l => { j with anchors := l, early := j.early + 1 }
  | .none, .none => j

/-- Remove records until the log has `n` free, as far as it can. -/
def Journal.reclaim (j : Journal) (n : Nat) : Nat → Journal
  | 0 => j
  | f + 1 => if j.anchors.length + n ≤ anchorCap then j else Journal.reclaim j.reclaimOne n f

/-- The log with room for `n` more records, as far as it can be made. -/
def Journal.makeRoom (j : Journal) (n : Nat) : Journal := j.reclaim n n

/-- Whether an INTENT may be written: after it the log keeps a free record for each open INTENT (R259). -/
def Journal.intentRoom (j : Journal) : Bool :=
  let need := 2 + (openIntents j.anchors).length
  decide ((j.makeRoom need).anchors.length + need ≤ anchorCap)

/-- Write an anchored record to the ring and to the MRAM anchor log (R254). -/
def State.anchor (s : State) (m : Milestone) : State :=
  let j := s.journal.put m
  let j := if m.typ == 4 then j.makeRoom (2 + (openIntents j.anchors).length) else j.makeRoom 1
  { s with journal := { j with anchors := j.anchors ++ [m] } }

/-- The milepost nanoseconds as value B (Table 8.2). -/
def State.stamp (s : State) : BitVec 32 := s.time.nanos

/-- Mark an item's sequence number unsettled in its lane (R256). -/
def State.unsettle (s : State) (d : Desc) : State :=
  let u := s.journal.unsettled.get d.lane []
  { s with journal := { s.journal with unsettled := s.journal.unsettled.set d.lane (u ++ [d.seq]),
                                       tops := s.journal.tops.set d.lane d.seq } }

/-- The later of two sequence numbers. -/
def seqMax (a b : BitVec 32) : BitVec 32 := if seqLe a b then b else a

/-- Settle an item: its lane's delivered watermark becomes the highest number with nothing unsettled at or below it, the lane's last one
when nothing is unsettled (R256). -/
def State.settle (s : State) (d : Desc) : State :=
  let u := s.journal.unsettled.get d.lane []
  if u.any (· == d.seq) then
    let u' := u.filter (· != d.seq)
    let w := match u' with
      | q :: r => r.foldl (fun a b => if seqLe a b then a else b) q - 1
      | [] => seqMax d.seq (seqMax (s.journal.watermarks.get d.lane d.seq) (s.journal.tops.get d.lane d.seq))
    { s with journal := { s.journal with unsettled := s.journal.unsettled.set d.lane u',
                                          watermarks := s.journal.watermarks.set d.lane w } }
  else s

/-- Settle an item that ended without a response, if nothing of it has landed or may still land (R256). -/
def State.settleEnded (s : State) (d : Desc) : State :=
  let rs := (s.journal.recordsOf d.colour d.ticket).filter fun m => m.seq == d.seq && m.laneIdx == d.laneIdx
  if landedEffect rs || !(openIntents rs).isEmpty then s else s.settle d

/-- Write ENDED for an item with a reason of Table 8.5. -/
def State.ended (s : State) (d : Desc) (reason : BitVec 11) : State :=
  let s := s.writeMile (s.mile d 8 false true reason 0 0 s.stamp)
  s.settleEnded d

/-! ## OUTCOME (R254, R266) -/

/-- The item or command an intent's record belongs to. -/
def Milestone.desc (m : Milestone) : Desc :=
  { Desc.none with ticket := m.ticket, seq := m.seq, colour := m.colour, lane := m.lane, laneIdx := m.laneIdx }

/-- Write the OUTCOME of an intent; an item that has ended without a response may be settled by it. -/
def State.writeOutcome (s : State) (o : Orphan) : State :=
  let m := o.record
  let aux : BitVec 16 := BitVec.ofNat 16 (2 * b2n o.unknown + b2n o.issued)
  let v : BitVec 32 := if o.unknown then 0 else BitVec.ofNat 32 o.left.toNat
  let s := s.anchor { s.mile m.desc 6 true true m.code aux m.valA v with vendor := m.vendor }
  let s := { s with journal := { s.journal with orphans := eraseFirst (fun x => x == o) s.journal.orphans } }
  let rs := (s.journal.recordsOf m.colour m.ticket).filter fun x => x.sameUse m
  if (rs.any (·.typ == 8) && !rs.any (·.typ == 7)) || anchorsAlone rs then s.settleEnded m.desc else s

/-- Write every OUTCOME whose call has settled. -/
def State.writeOutcomes (s : State) : State := (s.journal.orphans.filter (·.settled)).foldl State.writeOutcome s

/-- Write the watermark table and the Depot counter to MRAM (R92, R259). -/
def State.writeMarks (s : State) : State :=
  { s with
    journal := { s.journal with mramMarks := s.journal.watermarks, markSecs := s.time.secs.toNat, markNanos := s.time.nanos.toNat },
    depot := { s.depot with seqAnchor := s.depot.seq } }

/-- A copy of the anchor whose check value fits (Table 7.3). -/
def VaultAnchor.ok (a : VaultAnchor) : Bool := a.check == Config.anchorCheck a.root a.version a.serial

/-- The anchor in force: the newer copy, or the older one where the newer fails its check value (Table 7.3). -/
def Vault.anchor (v : Vault) : VaultAnchor :=
  let new := if v.anchorTurn then v.anchorB else v.anchorA
  let old := if v.anchorTurn then v.anchorA else v.anchorB
  if new.ok then new else old

/-- What the anchor holds. -/
def Vault.anchorRoot (v : Vault) : Block := v.anchor.root
def Vault.anchorVersion (v : Vault) : Word := v.anchor.version
def Vault.anchorSerial (v : Vault) : Word := v.anchor.serial

/-- Write the root value, its version and the write serial over the older copy of the anchor (Table 7.3). -/
def Vault.anchored (v : Vault) : Vault :=
  let a : VaultAnchor := { root := v.root, version := v.rootVersion, serial := v.serial, check := Config.anchorCheck v.root v.rootVersion v.serial }
  if v.anchorTurn then { v with anchorA := a, anchorTurn := false } else { v with anchorB := a, anchorTurn := true }

/-- Anchor the vault root, its version and the write serial in MRAM (R243). -/
def State.anchorRoot (s : State) : State := { s with vault := s.vault.anchored }

end Sys2Proof.Machine
end

