-- ==== Sys2Proof/Machine/Link.lean ====
section
/-! DEFINITION. What the Freri ports do for everyone: building and sending messages and frames (R275-R283, R288-R293),
violations (R296, R297), the admission windows (R308, R309), and a port going DOWN (R287, R313). -/

namespace Sys2Proof.Machine

/-- 24-bit serial comparison: `a` does not pass `b` (R283). -/
def creditLe (a b : BitVec 24) : Bool := decide ((b - a).toNat < 2 ^ 23)

/-- The length of a DATA frame that carries one message (R275, R277). -/
def frameLen (n : Nat) : Nat := max 64 (8 * ceilDiv (16 + n + 4) 8)

/-- The units of 64 bytes a length takes (R283, R308). -/
def units64 (n : Nat) : Nat := ceilDiv n 64

/-- A frame header (Table 9.1). -/
def frameHeader (pt : Port) (typ vc count len : Nat) (seq : BitVec 16) : Bytes :=
  [BitVec.ofNat 8 typ, BitVec.ofNat 8 (vc * 32 + count)] ++ natBE 2 len ++ natBE 2 seq.toNat ++
    natBE 2 (pt.expSeq - 1).toNat ++ [BitVec.ofNat 8 (128 * b2n pt.ackValid + vc)] ++
    natBE 3 (pt.granted.toList.getD vc 0).toNat ++ natBE 2 pt.epoch.toNat ++ [0, 0]

/-- A whole frame: header, body filled with zeros, CRC-32 (R275). -/
def buildFrame (pt : Port) (typ vc count len : Nat) (seq : BitVec 16) (body : Bytes) : Bytes :=
  let x := padTo (len - 4) (frameHeader pt typ vc count len seq ++ body)
  x ++ natBE 4 (crc32 x).toNat

/-- The bytes the retry buffer holds (R282). -/
def retryBytes (pt : Port) : Nat := (pt.retry.map fun f => f.bytes.length).sum

/-- Whether a message is the output of a bulk stream. -/
def OutMsg.isBulk (m : OutMsg) : Bool := fieldBE m.bytes 0 1 == 0x11 || fieldBE m.bytes 0 1 == 0x12

/-- Start the DATA frames that credit and retry space allow, in order per VC, one message to a frame (R282, R283, log
entry 16); bulk output only with `bulk`. Answers the port, the frames sent and whether the retry buffer was full; `blocked` lists
the VCs that wait. -/
def pumpPass (bulk : Bool) : List OutMsg → Port → List Nat → List OutMsg → List Bytes → Port × List Bytes × Bool
  | [], pt, _, left, sent => ({ pt with waitQ := left.reverse }, sent.reverse, false)
  | m :: r, pt, blocked, left, sent =>
    let len := frameLen m.bytes.length
    let used := pt.used.toList.getD m.vc 0 + BitVec.ofNat 24 (units64 len)
    if blocked.contains m.vc || (m.isBulk && !bulk) || !creditLe used (pt.limit.toList.getD m.vc 0) then
      pumpPass bulk r pt (m.vc :: blocked) (m :: left) sent
    else if 262144 < retryBytes pt + len then ({ pt with waitQ := left.reverse ++ m :: r }, sent.reverse, true)
    else
      let f := buildFrame pt 1 m.vc 1 len pt.sendSeq m.bytes
      let rf : RetryFrame := { seq := pt.sendSeq, vc := m.vc, bytes := f, tickets := m.ticket.toList, opens := m.opens }
      pumpPass bulk r { pt with sendSeq := pt.sendSeq + 1, retry := pt.retry ++ [rf], used := pt.used.set! m.vc used } blocked left
        (f :: sent)

/-- What waits is sent, the output of bulk streams with what remains after the rest (R36). -/
def pumpPort (pt : Port) : Port × List Bytes :=
  match pumpPass false pt.waitQ pt [] [] [] with
  | (pt, fs, true) => (pt, fs)
  | (pt, fs, false) =>
    let (pt, gs, _) := pumpPass true pt.waitQ pt [] [] []
    (pt, fs ++ gs)

/-- Send what may be sent on a port that is UP. -/
def State.pump (s : State) (p : Nat) : State :=
  let pt := s.port p
  if pt.link = .up then
    let (pt', fs) := pumpPort pt
    fs.foldl (fun s f => s.emit (.frame p f)) (s.setPort p pt')
  else s

/-- The initialisation vector of a message (R292). -/
def messageIv (session dir p : Nat) (seq : Word) : Bytes :=
  natBE 2 session ++ natBE 1 dir ++ natBE 1 p ++ natBE 8 seq.toNat

/-- A message with its tag (R288, R292). -/
def buildMessage (key : Bytes) (p session typ laneIdx a : Nat) (seq b c : Word) (payload : Bytes) : Bytes :=
  let x := natBE 1 typ ++ natBE 1 laneIdx ++ natBE 2 session ++ natBE 2 (48 + payload.length) ++ natBE 2 a ++
    natBE 8 seq.toNat ++ natBE 8 b.toNat ++ natBE 8 c.toNat ++ payload
  x ++ gcmTag key (messageIv session 1 p seq) x []

/-- Whether a port can carry messages now or after its retrain. -/
def Port.carries (pt : Port) : Bool := pt.link == .up || pt.link == .retrain

/-- The session a message of a port goes or comes on: none while the port session waits for its base key (R546). -/
def Port.openSession (pt : Port) (n : Nat) : Option Session := if pt.sessions.has 0 then pt.sessions.find? n else .none

/-- Send a message on a session; a port that is DOWN, or a session that is not open, drops it (R300, R546). `opens` names the stream
an OPENED announces. -/
def State.sendMsg (s : State) (p session typ laneIdx a : Nat) (b c : Word) (payload : Bytes) (ticket : Option Desc)
    (opens : List Nat := []) : State :=
  let pt := s.port p
  match pt.openSession session with
  | .none => s
  | some x =>
    if pt.carries then
      let seq := x.sendSeq + 1
      let m := buildMessage x.key p session typ laneIdx a seq b c payload
      let pt := { pt with sessions := pt.sessions.set session { x with sendSeq := seq },
                          waitQ := pt.waitQ ++ [{ vc := x.vc, bytes := m, ticket := ticket, opens := opens }] }
      ((s.setPort p pt).emit (.message p session x.vc m)).pump p
    else s

/-! ## Streams and the loss of a port -/

/-- The number of a stream among the streams of all ports. -/
def streamKey (p session : Nat) (id : BitVec 32) : Nat := (p * 4096 + session) * 2 ^ 32 + id.toNat

/-- The number of a stream record. -/
def Stream.key (x : Stream) : Nat := streamKey x.port x.session x.id

/-- A TE without any of the listed streams in its slot or store. -/
def Te.dropStreams (t : Te) (ks : List Nat) : Te :=
  { t with stream := t.stream.filter (fun k => !ks.contains k), next := t.next.filter (fun k => !ks.contains k), store := t.store.filter fun k => !ks.contains k }

/-- Enter RETRAIN from UP, keeping the epoch, the numbers, the retry buffer and the tallies (R287). -/
def State.portRetrain (s : State) (p : Nat) : State :=
  let pt := s.port p
  if pt.link = .up then
    (s.setPort p { pt with link := .retrain, aligned := false, initGot := false, initAckSent := false, initAckGot := false, replayRuns := 0, failedRetrains := 0 }).count (298 + p) 18
  else s

/-! ## Violations -/

/-- Whether a violation code counts toward the threshold (Table 9.7). -/
def violationCounts (code : Nat) : Bool := code != 8 && code != 14

/-! ## Lanes of a colour and admission windows (R308, R309) -/

/-- The lane with an index in a colour. -/
def State.laneOf (s : State) (c : Colour) (idx : Nat) : Option Nat :=
  (List.find? (fun p => p.2.colour == c && p.2.index == idx) s.lanes).map Prod.fst

/-- The lanes of a colour. -/
def State.lanesOf (s : State) (c : Colour) : List Nat := (s.lanes.filter fun p => p.2.colour == c).map Prod.fst

/-- Whether a session may feed a lane (R309). -/
def Session.feeds (x : Session) (l : Lane) : Bool :=
  x.colour == l.colour && !x.closing && (if l.cls = 3 then x.bulk else x.itin)

/-- A session's account of a lane. -/
def Session.account (x : Session) (idx : Nat) : LaneUse := x.use.get idx { counted := 0, released := 0, limit := 0, sent := 0 }

/-- Every session of both ports, with its port and number. -/
def State.allSessions (s : State) : List (Nat × Nat × Session) :=
  (s.port0.sessions.map fun p => (0, p.1, p.2)) ++ s.port1.sessions.map fun p => (1, p.1, p.2)

/-- Put a session. -/
def State.setSession (s : State) (p n : Nat) (x : Session) : State :=
  s.setPort p { s.port p with sessions := (s.port p).sessions.set n x }

/-- Change a session that is open. -/
def State.modSession (s : State) (p n : Nat) (f : Session → Session) : State :=
  match (s.port p).sessions.find? n with
  | some x => s.setSession p n (f x)
  | .none => s

/-- What a session may hold of a lane at most: its limit less what was released. -/
def LaneUse.held (u : LaneUse) : Nat := u.limit - u.released

/-- The units the items of a closed session still hold of a lane (R309). -/
def State.closedHeld (s : State) (l : Lane) : Nat :=
  ((s.depot.items.filter fun i => i.desc.colour == l.colour && i.desc.laneIdx == l.index &&
    !(((s.port i.desc.port).sessions.find? i.desc.session).any fun x => x.serial == i.desc.opened)).map (·.units)).sum

/-- The limit a session's account of an OPEN lane may take: its share of the window by weight, never less than the last
limit, and never so much that all sessions together could hold more than the window, what items of closed sessions still hold
counted in (R309). -/
def State.newLimit (s : State) (p n : Nat) (x : Session) (l : Lane) : Nat :=
  let feed := s.allSessions.filter fun q => q.2.2.feeds l
  let total := (feed.map fun q => q.2.2.weight).sum
  let others := ((s.allSessions.filter fun q => q.2.2.colour == l.colour && !(q.1 == p && q.2.1 == n)).map
    fun q => (q.2.2.account l.index).held).sum + s.closedHeld l
  let u := x.account l.index
  let share := if total = 0 then 0 else l.window * x.weight / total
  max u.limit (u.released + min share (l.window - others))

/-- Whether a port's windows advance: not while its planned stop runs (R314). -/
def Port.windowsMove (pt : Port) : Bool := pt.stop == .none

/-- The 8-byte CREDIT entry of a lane (R308). -/
def creditEntry (idx limit : Nat) : Bytes := natBE 1 idx ++ [0, 0, 0] ++ natBE 4 (limit % 2 ^ 32)

/-- Advance the limits of a session's lanes and send one CREDIT for those that advanced or, with `all`, for every lane
the session may feed. A limit never decreases (R309), so a lane that is not OPEN, or whose port stops, is advertised by its limit
again, with no advance (log entry 17). A port that carries no messages sends the CREDIT once it is UP. -/
def State.sendCredit (s : State) (p n : Nat) (all : Bool) : State :=
  match (s.port p).sessions.find? n with
  | .none => s
  | some x =>
    let ls := (s.lanes.filter fun q => x.feeds q.2).map Prod.snd
    let news := ls.map fun l =>
      let u := x.account l.index
      let lim := if l.state = .opened ∧ (s.port p).windowsMove then s.newLimit p n x l else u.limit
      (l.index, { u with limit := lim, sent := if (s.port p).carries && ((s.port p).openSession n).isSome then lim else u.sent }, u)
    let open_ := (s.port p).carries && ((s.port p).openSession n).isSome
    let entries := news.filter fun q => all || q.2.1.sent != q.2.2.sent
    let x' := { x with use := news.foldl (fun t q => t.set q.1 q.2.1) x.use, owed := (x.owed || all) && !open_ }
    let s := s.setSession p n x'
    if entries.isEmpty then s
    else s.sendMsg p n 0x30 0 entries.length 0 0 (entries.flatMap fun q => creditEntry q.1 q.2.1.limit) .none

/-- Send the CREDITs that a change of a colour's lanes asks for, on every open session of the colour (R335, R543). -/
def State.creditColour (s : State) (c : Colour) : State :=
  (s.allSessions.filter fun q => q.2.2.colour == c).foldl (fun s q => s.sendCredit q.1 q.2.1 true) s

/-- Send the CREDITs that came due on a port's sessions while it carried no messages, those of their opening among them (R308). -/
def State.creditsDue (s : State) (p : Nat) : State := (s.port p).sessions.foldl (fun s q => s.sendCredit p q.1 q.2.owed) s

/-- Count a message against a session and lane (R308). -/
def Session.countUnits (x : Session) (idx n : Nat) : Session :=
  let u := x.account idx
  { x with use := x.use.set idx { u with counted := u.counted + n } }

/-- Release a message's units (R308). -/
def Session.releaseUnits (x : Session) (idx n : Nat) : Session :=
  let u := x.account idx
  { x with use := x.use.set idx { u with released := min u.counted (u.released + n) } }

/-! ## A port goes DOWN -/

/-- Whether a session is the one an item came on: it is open, and not one opened later under the number (R292, R300). -/
def Session.carried (x : Session) (d : Desc) : Bool := x.serial == d.opened

/-- Release the units of an item that leaves its lane, on the session it came on (R308). -/
def State.releaseItem (s : State) (i : Item) : State :=
  s.modSession i.desc.port i.desc.session fun x => if x.carried i.desc then x.releaseUnits i.desc.laneIdx i.units else x

/-- Release the units of the items that leave the Depot undone (R308). -/
def State.releaseItems (s : State) (p : Item → Bool) : State := (s.depot.items.filter p).foldl State.releaseItem s

/-- Forget streams in the TEs, the clusters' retention, the packages on their way and the Depot (R150, R305). -/
def State.forgetStreams (s : State) (ks : List Nat) : State :=
  let s := s.releaseItems fun i => i.stream.any fun q => ks.contains (streamKey q.1 q.2.1 (BitVec.ofNat 32 q.2.2))
  { s with
    tes := s.tes.mapVals (·.dropStreams ks),
    clusters := s.clusters.mapVals (fun c => { c with wrapped := c.wrapped.filter fun k => !ks.contains k }),
    depot := { s.depot with
      packages := s.depot.packages.filter (fun x => !(x.stream.any ks.contains)),
      items := s.depot.items.filter fun i => !(i.stream.any fun q => ks.contains (streamKey q.1 q.2.1 (BitVec.ofNat 32 q.2.2))) } }

/-- Take a port DOWN: transmit electrical idle, discard the retry buffer and what waits, end its streams without a
message; sessions stay (R286, R287, R305, R313). -/
def State.portDown (s : State) (p : Nat) : State :=
  let pt := s.port p
  if pt.link = .down then s
  else
    let ks := pt.streams.map Stream.key
    let s := s.setPort p { pt with
      link := .down, retry := [], waitQ := [], replayRuns := 0, remap := .none, failedRetrains := 0, streams := [],
      aligned := false, initGot := false, initAckSent := false, initAckGot := false, txSuspended := false, lastNak := .none, held := pt.held.map fun h => (h.1, 0, h.2.2) }
    (s.forgetStreams ks).emit (.idle p)

/-! ## Violations answered -/

/-- Act on the threshold: more than 64 counted violations within 1 ms retrain the link, a fourth such retrain within
1 s takes it DOWN for 100 ms (R297). -/
def State.violationThreshold (s : State) (p : Nat) : State :=
  let pt := s.port p
  if 64 < pt.violTimes.length ∧ pt.link = .up then
    let runs := (s.now :: pt.violRetrains).filter fun t => decide (s.now < t + 1000000000)
    let s := s.setPort p { pt with violTimes := [], violRetrains := runs }
    if 4 ≤ runs.length then
      let s := s.portDown p
      s.setPort p { s.port p with violDown := true, violRetrains := [] }
    else s.portRetrain p
  else s

/-- Count a violation and answer it: on the offending session from check 5 on, else on the port session; at most one
VIOLATION per µs per port (R296). -/
def State.violate (s : State) (p code onSession session typ frameSeq off : Nat) (msgSeq : Word) : State :=
  let pt := s.port p
  let times := (if violationCounts code then [s.now] else []) ++ pt.violTimes.filter fun t => decide (s.now < t + 1000000)
  let answer := match pt.lastViol with
    | some t => decide (t + 1000 ≤ s.now)
    | .none => true
  let s := s.setPort p { pt with viol := pt.viol.set code (pt.viol.get code 0 + 1), violTimes := times,
                                 lastViol := if answer then some s.now else pt.lastViol }
  let s := s.count (298 + p) (code - 1)
  let b := BitVec.ofNat 64 (session % 4096 * 2 ^ 40 + typ % 256 * 2 ^ 32 + frameSeq % 65536 * 2 ^ 16 + off % 65536)
  let s := if answer then s.sendMsg p onSession 0x33 0 code b msgSeq [] .none else s
  s.violationThreshold p

end Sys2Proof.Machine
end

