-- ==== Sys2Proof/Machine/Collector.lean ====
section
/-! DEFINITION. The fault collector H.FAULT (chapter 17): what a message does at its arrival, the queue, the active
set and the Steward's work list. A fault a unit raises arrives in the same step (log entry 18). -/

namespace Sys2Proof.Machine

/-- Queue capacity and active set capacity (R481, R482). -/
def queueCap : Nat := 64
def activeCap : Nat := 256

/-- A record write left without a receipt: the ceremony, unless GRANTED, does not know its outcome (R441). -/
def State.tearCard (s : State) (c : CardSlot) : State :=
  match s.cards.ceremony with
  | some y =>
    let torn : Torn := { serial := c.serial, before := c.counter, ceremony := y.id, keyHash := hash 2 c.cardKey, share := c.share }
    let y' := if y.state = .granted then y else { y with state := .outcomeUnknown, torn := some c.serial }
    { s with cards := { s.cards with torn := s.cards.torn ++ [torn], ceremony := some y' } }
  | .none => s

/-- Deactivate a card slot: no supply, no session; a record write in progress is torn (R427, R441). -/
def State.cardOffSlot (s : State) (n : Nat) : State :=
  let c := s.card n
  if c.phase = .off ∨ c.phase = .present ∨ c.phase = .refused then s
  else
    let s := if c.phase = .write then (s.tearCard c).count 301 (5 * n + 4) else s
    (s.setCard n { CardSlot.fresh with inserted := c.inserted, phase := .present }).emit (.cardOff n)

/-- What a class 3 or class 4 arrival does in hardware (R476, R311, R427, R243, R259, R492). -/
def State.stopDevice (s : State) (grave : Bool) : State :=
  let s := { s with depot := { s.depot with stopped := true } }
  let s := (s.portDown 0).portDown 1
  let s := (s.cardOffSlot 0).cardOffSlot 1
  let s := s.anchorRoot.writeMarks.flushWanted
  let s := { s with faults := { s.faults with erasedAtFault := s.faults.erasedAtFault || s.power.dev == DevState.tamperErased } }
  if grave then
    let s := if s.faults.grave then s else s.count 304 7
    ({ s with faults := { s.faults with grave := true } }).setDev .grave
  else if s.power.dev = .grave ∨ s.power.dev = .booting then s.aliveStop
  else s.setDev .faulted

/-- The queue after an event (R481): the new queue and how many events went to the overflow count. -/
def queueEvent (q : List FaultMsg) (m : FaultMsg) : List FaultMsg × Nat × Bool :=
  let same := fun (x : FaultMsg) => x.cls == m.cls && x.kind == m.kind && x.src == m.src
  match q.find? same with
  | some x => if x.rep < 255 then (modFirst same (fun x => { x with rep := x.rep + 1 }) q, 0, true) else (q, 1, false)
  | .none =>
    if q.length < queueCap then (q ++ [m], 0, false)
    else
      let low := q.foldl (fun a x => min a x.cls) 8
      if 2 ≤ m.cls ∧ low < m.cls then
        let gone := (q.find? fun x => x.cls == low).map fun x => x.rep + 1
        (eraseFirst (fun x => x.cls == low) q ++ [m], gone.getD 0, false)
      else (q, 1, false)

/-- The active set after a fault (R482). -/
def activeAdd (a : List Active) (x : Active) : List Active :=
  let same := fun (y : Active) => y.cls == x.cls && y.kind == x.kind && y.src == x.src
  if x.cls = 0 ∨ 3 < x.cls then a
  else if a.any same then modFirst same (fun y => { y with last := x.last }) a
  else if a.length < activeCap then a ++ [x]
  else if x.cls = 1 then a
  else if a.any (·.cls == 1) then eraseFirst (·.cls == 1) a ++ [x]
  else eraseFirst (·.cls == 2) a ++ [x]

/-- A fault message arrives at the collector (R476, R480-R483); SMB_ALERT_N goes low with the first in the queue (R532). -/
def State.arrive (s : State) (cls : Nat) (kind : Byte) (src : BitVec 16) (detail : Word) : State :=
  let s := if cls = 3 then s.stopDevice false else if cls = 4 then s.stopDevice true else s
  let m : FaultMsg := { cls := cls, kind := kind, src := src, seq := s.faults.seq, rep := 0,
                        mile := s.time.nanos.extractLsb' 17 13, detail := detail }
  let (q, lost, joined) := queueEvent s.faults.queue m
  let wasEmpty := s.faults.queue.isEmpty
  let s := s.count 304 cls
  let s := if joined then s.count 304 5 else s
  let s := if lost = 0 then s else s.updateRec 304 (bumpCounter 6 lost)
  let f := s.faults
  let s := { s with faults := { f with
    seq := f.seq + 1, queue := q, overflow := f.overflow + BitVec.ofNat 32 lost,
    active := activeAdd f.active { cls := cls, kind := kind, src := src, last := s.now },
    unhandled := if cls = 4 then (cls, kind, src) :: f.unhandled.filter (·.1 == 4) else f.unhandled ++ [(cls, kind, src)],
    handling := if cls = 4 then [] else f.handling } }
  if wasEmpty && !q.isEmpty then (s.emit (.smbAlert true)).setEvent 0 5 else s

/-- The card whose record write is in progress, with its slot. -/
def State.writingCard (s : State) : Option (Nat × Word) :=
  ([0, 1].find? fun n => (s.card n).phase == .write).map fun n => (n, (s.card n).serial)

/-- Raise a fault; the message that deactivates a writing card brings CARD_TORN_WRITE after it (R441, R445). -/
def State.fault (s : State) (cls : Nat) (kind : Byte) (src : BitVec 16) (detail : Word) : State :=
  let w := s.writingCard
  let s := s.arrive cls kind src detail
  match w with
  | some (n, serial) => if 3 ≤ cls then s.arrive 0 0x52 (srcHub (0x12 + n)) serial else s
  | .none => s

/-- Deactivate a card slot, with the fault of a torn write. -/
def State.cardOff (s : State) (n : Nat) : State :=
  let c := s.card n
  let s := s.cardOffSlot n
  if c.phase = .write then s.fault 0 0x52 (srcHub (0x12 + n)) c.serial else s

/-- Whether a class 3 fault is active. -/
def Faults.class3Active (f : Faults) : Bool := f.active.any (·.cls == 3)

end Sys2Proof.Machine
end

