-- ==== Sys2Proof/Machine/Gates.lean ====
section
/-! DEFINITION. The target gates (R358-R368): the regions in force, the check of an access, and what a refusal does. -/

namespace Sys2Proof.Machine

/-- An access as a gate sees it (R358); `pair` names the Steward pair it comes from, South or North. -/
structure Access where
  colour : Colour
  priv   : Bool
  vendor : Bool
  te     : Bool
  outer  : Bool
  write  : Bool
  first  : Nat
  last   : Nat
  pair   : Option Bool := .none
  deriving DecidableEq, Repr

/-- The size of a colour's share granules in a cluster store (R379). -/
def shareSize (p : Profile) : Nat := if p = .wide then 0x1000 else 0x10000

/-- The colour whose share lies at an offset of the share area; 0xFFF where none does. -/
def State.shareTag (s : State) (c off : Nat) : Colour :=
  (s.cluster c).shares.getD ((off - 0xC0000) / shareSize s.tenancy.profile) 0xFFF

/-- The tag of a granule: 0 for the image granules, 0xFFF for free working space (R374). -/
def State.granuleTag (s : State) (g : Nat) : Colour := s.tenancy.tags.get g (if g < 65536 then 0 else 0xFFF)

/-- The colour of a region at a byte (Table 12.3). -/
def State.regionColour (s : State) (g : Nat) (r : Region) (b : Nat) : Colour :=
  match r.mode with
  | .fixed => r.colour
  | .tagged _ => if g = 36 then s.granuleTag ((b - 0x1C00000000) / 0x10000) else s.shareTag g b
  | .seat te seat =>
    let t := s.seat { cluster := g, te := te, seat := seat }
    if t.phase = .empty then 0xFFF else t.desc.colour

/-- A region of one colour for privileged masters. -/
def fixedRegion (lo hi : Nat) : Region :=
  { start := lo / 64, stop := hi / 64 - 1, mode := .fixed, colour := 0, rd := true, wr := true, vw := false,
    privOnly := true, inner := false, enable := true }

/-- A region of one colour for privileged masters, the Steward's Inner world alone among its worlds (R380). -/
def innerRegion (lo hi : Nat) : Region := { fixedRegion lo hi with inner := true }

/-- Where the regions of LPDDR6 below the image and tenant region begin, in the order of R24: vault metadata, the 48 GiB of warm key
records, the 16 GiB of journal spill and Depot overflow, firmware and Steward data (DESIGN CHOICE, log entry 47). -/
def warmRegionBase : Nat := 40 * 2 ^ 30
def spillRegionBase : Nat := 88 * 2 ^ 30
def stewardRegionBase : Nat := 104 * 2 ^ 30

/-- The regions a gate has once the Steward has set it at start-up (Tables 12.2, 12.6, 12.7, R374): INNER on what the Inner world holds.
The peripheral gate has the register block of Hub unit n at n × 64 KiB (DESIGN CHOICE, log entry 47). -/
def bootRegions (g : Nat) : List Region :=
  if g < 36 then
    ((List.range 32).map fun i =>
      { start := i * 256, stop := i * 256 + 255, mode := .seat (i / 2) (i % 2), colour := 0, rd := true, wr := true,
        vw := false, privOnly := false, inner := false, enable := true }) ++
    [fixedRegion 0x80000 0xC0000,
     { start := 0x3000, stop := 0x3BFF, mode := .tagged false, colour := 0, rd := true, wr := false, vw := false,
       privOnly := false, inner := false, enable := true },
     fixedRegion 0xF0000 0xF8000, fixedRegion 0xF8000 0x100000]
  else if g = 36 then
    [fixedRegion 0 warmRegionBase, innerRegion warmRegionBase spillRegionBase, fixedRegion spillRegionBase stewardRegionBase,
     innerRegion stewardRegionBase 0x1C00000000,
     { start := 0x70000000, stop := 0x7FFFFFFF, mode := .tagged true, colour := 0, rd := true, wr := true, vw := false,
       privOnly := false, inner := false, enable := true }]
  else if g = 37 then [fixedRegion 0 0x800000]
  else if g = 41 then [innerRegion 0 0x100000]
  else if g = 44 then [innerRegion 0 0x200000]
  else if g = 45 then [innerRegion 0 0x10000]
  else if g = 46 then [fixedRegion 0 0x10000, innerRegion 0x10000 0x20000, fixedRegion 0x20000 0x170000]
  else []

/-- The regions of the bank in force (R369). -/
def Gate.rules (x : Gate) : List Region := (if x.epoch then x.bankB else x.bankA).filter (·.enable)

/-- Whether the default map of a gate passes a privileged access (Table 12.2). -/
def defaultAllows (g : Nat) (write : Bool) : Bool := (38 ≤ g && g ≤ 43) || (g == 45 && !write)

/-- What a gate finds at one byte: the region it lies in, the default map, or the fault kind (R362). The image granules are for privileged
masters only (R374). -/
def State.gateByte (s : State) (g : Nat) (a : Access) (b : Nat) : Sum Byte (Option Region) :=
  match (s.gate g).rules.filter (fun r => decide (r.start ≤ b / 64) && decide (b / 64 ≤ r.stop)) with
  | [] => if a.priv && defaultAllows g a.write then .inr .none else .inl 0x30
  | [r] =>
    if s.regionColour g r b = 0xFFF ∨ s.regionColour g r b ≠ a.colour then .inl 0x31
    else if (a.write && !r.wr) || (!a.write && !r.rd) || (r.vw && a.te && !a.vendor) || (r.privOnly && !a.priv) ||
        (r.inner && a.outer) || (g == 36 && r.mode == .tagged true && !a.priv && decide (b < 0x1D00000000)) then .inl 0x32
    else .inr (some r)
  | _ => .inl 0x33

/-- Whether a gate's fence line is set for a pair (R386). -/
def Gate.fenced (x : Gate) (south : Bool) : Bool := if south then x.fenceSouth else x.fenceNorth

/-- Whether the fence lines agree with their inverted shadows (R372). -/
def Gate.fenceSound (x : Gate) : Bool := x.fenceNorthShadow == !x.fenceNorth && x.fenceSouthShadow == !x.fenceSouth

/-- Whether a gate's enables and fence lines agree with their inverted shadows (R372). -/
def Gate.sound (x : Gate) : Bool :=
  x.shadowOk && (x.bankA ++ x.bankB).all (fun r => r.enableShadow == !r.enable) && x.fenceSound

/-- The source identifier of a gate (R473). -/
def gateSrc (g : Nat) : BitVec 16 := if g < 36 then srcCluster g 0x12 else BitVec.ofNat 16 (4 * 8192 + 5 * 256 + g)

/-- A gate compares its enables with their shadows on every use: a mismatch is the grave fault GATE_SHADOW (R372, R462). -/
def State.useGate (s : State) (g : Nat) : State := if (s.gate g).sound then s else s.fault 4 0x66 (gateSrc g) 0

/-- Flip a gate's epoch: the rules go to the inactive bank, which is in force from then on, and the accesses of the old bank drain (R369). -/
def Gate.flip (x : Gate) (rules : List Region) : Gate :=
  { x with epoch := !x.epoch, bankA := if x.epoch then rules else x.bankA, bankB := if x.epoch then x.bankB else rules, draining := true }

/-- A change of granule tags is a change of the H.MEM gate's rules (R370). -/
def State.flipTags (s : State) : State :=
  let x := s.gate 36
  s.setGate 36 (x.flip (if x.epoch then x.bankB else x.bankA))

/-- A command whose effect changes a gate's rules completes when the gate has drained (R369). -/
def State.awaitRules (s : State) (g : Nat) (c : Cmd) : State :=
  { s with steward := { s.steward with ruleCmds := s.steward.ruleCmds ++ [(g, c)] } }

/-- Put a pair's fence line: a change is a change of rules, to be drained (R369, R386). -/
def Gate.setFence (x : Gate) (south on : Bool) : Gate :=
  if x.fenced south = on then x
  else if south then { x with fenceSouth := on, fenceSouthShadow := !on, draining := true }
  else { x with fenceNorth := on, fenceNorthShadow := !on, draining := true }

/-- What a fenced pair may still reach: the referee, and the 64 KiB of Steward SRAM for its firmware checks. -/
def fenceExempt (g : Nat) (a : Access) : Bool :=
  (g == 41 && decide (0x3F0000 ≤ a.first) && decide (a.last ≤ 0x3FFFFF)) ||
    (g == 46 && decide (0x60000 ≤ a.first) && decide (a.last ≤ 0x6FFFF))

/-- Whether an access comes from a pair the gate fences off. -/
def State.fencedOff (s : State) (g : Nat) (a : Access) : Bool := a.pair.any (s.gate g).fenced && !fenceExempt g a

/-- The gate's check of an access: nothing when it passes, else the fault kind and whether the last byte failed
(R362-R365); every access of a fenced pair is refused (R386). -/
def State.gateCheck (s : State) (g : Nat) (a : Access) : Option (Byte × Bool) :=
  if s.fencedOff g a then some (0x35, false)
  else
  match s.gateByte g a a.first with
  | .inl k => some (k, false)
  | .inr v =>
    match s.gateByte g a a.last with
    | .inl k => some (k, true)
    | .inr w => if v = w then .none else some (0x34, true)

/-- The recorder counter of a gate's refusals (Table 17.8, record 305). -/
def gateCounter (g : Nat) : Nat := if g < 27 then g else if g < 36 then g - 27 else 26

/-- The detail of a gate fault (Table 12.5). -/
def gateDetail (g : Nat) (a : Access) (last : Bool) : Word :=
  BitVec.ofNat 64 (a.colour.toNat * 2 ^ 52 + b2n a.write * 2 ^ 51 + b2n a.priv * 2 ^ 50 + b2n last * 2 ^ 49 + g * 2 ^ 40 +
    a.first % 2 ^ 40)

/-- A gate refuses an access: the first refusal while its latch is clear is reported in full, later ones are counted
(R366-R368). -/
def State.gateRefuse (s : State) (g : Nat) (a : Access) (kind : Byte) (last : Bool) (src : BitVec 16) : State :=
  let x := s.gate g
  let s := s.count 305 (gateCounter g)
  match x.latched with
  | .none =>
    let cls := if kind = 0x33 ∨ (a.priv ∧ kind ≠ 0x35) then 2 else 0
    let s := s.fault cls kind src (gateDetail g a last)
    s.setGate g { x with latched := some (kind, src, s.now), refusals := x.refusals + 1 }
  | some (k, lsrc, _) =>
    let s := s.setGate g { x with refusals := x.refusals + 1 }
    let q := modFirst (fun m => m.kind == k && m.src == lsrc) (fun m => { m with rep := min 255 (m.rep + 1) }) s.faults.queue
    { s with faults := { s.faults with queue := q } }

/-! ## Checkpoints (R373) -/

/-- Whether a cluster's state is being moved, its quiesce over. -/
def State.moving (s : State) (c : Nat) : Bool := s.power.engagements.any fun e => e.failing == c && e.quiesced

/-- Whether the checkpoint of a cluster's masters passes an access to a gate's target: every access while it is OPEN, its own store alone
while it is CONFINED. A cluster flagged failing is confined for its move; the itineraries that go on to their YIELD before it run under
the gates' rules (R514 step 3; DEDUCED, log entry 47). -/
def State.checkpointPasses (s : State) (c g : Nat) : Bool :=
  let x := s.cluster c
  !x.confined || g == c || (x.state == .failing && !s.moving c)

/-- A checkpoint refuses an access at the source: CHECKPOINT against the master. -/
def State.checkpointRefuse (s : State) (g : Nat) (a : Access) (src : BitVec 16) : State := s.fault 2 0x37 src (gateDetail g a false)

/-- Whether the checkpoint of a new holder, not yet done with its verification, passes an access: to Steward SRAM, the referee's and the
fault collector's registers, and by reads to the gates' rules and shadows. -/
def State.stewardPasses (s : State) (g : Nat) (a : Access) : Bool :=
  !(s.steward.verifying && a.pair == some s.steward.holderSouth) || g == 41 ||
    (g == 46 && (a.first / 0x10000 == a.last / 0x10000) && (a.first / 0x10000 == 0x06 || a.first / 0x10000 == 0x0E))

/-! ## The Steward's accesses (R358, R380, R386) -/

/-- An access of a Steward pair, in its Inner or Outer world. -/
def stewardAccess (south outer write : Bool) (colour : Colour) (first last : Nat) : Access :=
  { colour := colour, priv := true, vendor := false, te := false, outer := outer, write := write, first := first, last := last,
    pair := some south }

/-- The source identifier of a pair. -/
def srcPair (south : Bool) : BitVec 16 := srcHub (if south then 5 else 4)

/-- A pair's access to a target: refused with its report, or passed to read bytes. -/
def State.stewardReach (s : State) (g : Nat) (a : Access) : State × Bool :=
  let src := srcPair (a.pair.getD false)
  if !s.stewardPasses g a then (s.checkpointRefuse g a src, false)
  else
    let s := s.useGate g
    match s.gateCheck g a with
    | some (k, last) => (s.gateRefuse g a k last src, false)
    | .none => (s, true)

/-- Where Steward SRAM lies among the model's memory keys. -/
def stewardBase : Nat := 4 * 2 ^ 48

/-- A Steward pair's read of Steward SRAM. -/
def State.sramRead (s : State) (a : Access) : State × Option Bytes :=
  match s.stewardReach 41 a with
  | (s, true) => (s, some (s.load (stewardBase + a.first) (a.last + 1 - a.first)))
  | (s, false) => (s, .none)

/-- A Steward pair's write of Steward SRAM. -/
def State.sramWrite (s : State) (a : Access) (data : Bytes) : State :=
  match s.stewardReach 41 a with
  | (s, true) => s.store (stewardBase + a.first) (data.take (a.last + 1 - a.first))
  | (s, false) => s

/-- Put a pair's fence line on every gate. -/
def State.setFences (s : State) (south on : Bool) : State :=
  (List.range 47).foldl (fun s g => s.setGate g ((s.gate g).setFence south on)) s

end Sys2Proof.Machine
end

