-- ==== Sys2Proof/Machine/Operands.lean ====
section
/-! DEFINITION. The operand forms of a TE instruction: registers, banked g31, sign extension, and the four memory
spaces with their bounds, alignment, gates and costs (R38-R43, R55, R377, R379). -/

namespace Sys2Proof.Machine

/-- A general register: g0 reads zero, g31 is banked per world (Table 2.1). -/
def Seat.reg (t : Seat) (i : Fin 32) : Word :=
  if i = 0 then 0 else if i = 31 then (if t.world = .vendor then t.vsp else t.sp) else t.g[i]

/-- Write a general register: g0 ignores writes (Table 2.1). -/
def Seat.setReg (t : Seat) (i : Fin 32) (v : Word) : Seat :=
  if i = 0 then t
  else if i = 31 then (if t.world = .vendor then { t with vsp := v } else { t with sp := v })
  else { t with g := t.g.set i v }

/-- A block register. -/
def Seat.blk (t : Seat) (i : Fin 8) : Block := t.b[i]

/-- Write a block register. -/
def Seat.setBlk (t : Seat) (i : Fin 8) (v : Block) : Seat := { t with b := t.b.set i v }

/-- A key slot. -/
def Seat.slot (t : Seat) (i : Fin 8) : Option Slot := t.k[i]

/-- Put a key slot. -/
def Seat.setSlot (t : Seat) (i : Fin 8) (v : Option Slot) : Seat := { t with k := t.k.set i v }

/-- An immediate sign-extended to a word. -/
def sx {n : Nat} (i : BitVec n) : Word := i.signExtend 64

/-- The cycles of a time in nanoseconds at a cluster's clock (R47). -/
def State.cyclesOf (s : State) (c ns : Nat) : Nat := ceilDiv (ns * (s.cluster c).clockMHz) 1000

/-- A cost that waits: any number of cycles up to the max (log entry 12). -/
def State.waitCost (s : State) (c maxNs : Nat) : Nat := s.free.toNat % (s.cyclesOf c maxNs + 1)

/-- A memory operand: its place in the byte memory and its cost, or the exception it raises (R40-R43, Table 2.15). -/
inductive Operand where
  | located (key cost : Nat)
  | raises (code : Byte)
  deriving DecidableEq, Repr

/-- The access of a TE seat (Table 12.1). -/
def teAccess (t : Seat) (write : Bool) (first n : Nat) : Access :=
  { colour := t.desc.colour, priv := false, vendor := t.world == .vendor, te := true, outer := false, write := write,
    first := first, last := first + n - 1 }

/-- Pass an access through the cluster's checkpoint and a gate, or refuse it and raise GATE_FAULT (R41, R366, R373). -/
def State.gated (s : State) (u : SeatRef) (t : Seat) (g : Nat) (write : Bool) (first n key cost : Nat) : State × Operand :=
  if s.checkpointPasses u.cluster g then
    let s := s.useGate g
    match s.gateCheck g (teAccess t write first n) with
    | .none => (s, .located key cost)
    | some (k, last) => (s.gateRefuse g (teAccess t write first n) k last (srcTe u), .raises 0x05)
  else (s.checkpointRefuse g (teAccess t write first n) (srcTe u), .raises 0x05)

/-- A partition's tenant space in bytes. -/
def Part.space (p : Part) : Nat := p.granules.length * 0x10000

/-- A colour's share in bytes (R379). -/
def shareLen (pr : Profile) (p : Part) : Nat := min (shareSize pr) p.space

/-- Where a colour's share lies in a cluster store; the first byte past the store where the cluster holds none. -/
def Cluster.shareOff (c : Cluster) (pr : Profile) (col : Colour) : Nat :=
  match c.shares.findIdx? (· == col) with
  | some i => 0xC0000 + i * shareSize pr
  | .none => 0x100000

/-- A tenant-space operand (R41, R377, R379). A miss of the translation cache adds its cost in Compact profile. -/
def State.tenantOperand (s : State) (u : SeatRef) (t : Seat) (addr n : Nat) (write : Bool) : State × Operand :=
  match s.part? t.desc.colour with
  | .none => (s, .raises 0x04)
  | some p =>
    if addr < 0x100000000 then
      if write ∨ shareLen s.tenancy.profile p < addr + n then (s, .raises 0x04)
      else
        let off := (s.cluster u.cluster).shareOff s.tenancy.profile t.desc.colour + addr
        s.gated u t u.cluster write off n (storeBase u.cluster + off) 12
    else
      let off := addr - 0x100000000
      if p.space < off + n then (s, .raises 0x04)
      else if write ∧ p.readOnly.contains (off / 0x10000) then (s, .raises 0x04)
      else
        let phys := granuleAddr (p.granules.getD (off / 0x10000) 0) + off % 0x10000
        let base := s.waitCost u.cluster 450
        let miss := if s.tenancy.profile = .compact then Nat.land s.drawn.free.toNat 127 % 121 else 0
        s.drawn.drawn.gated u t 36 write phys n (dramBase + phys) (base + miss)

/-- A memory operand of `n` bytes at an address of a space. Alignment is checked before bounds (log entry 19). -/
def State.operand (s : State) (u : SeatRef) (t : Seat) (sp : BitVec 2) (addr : Word) (n : Nat) (write : Bool) :
    State × Operand :=
  let a := addr.toNat
  if a % n ≠ 0 then (s, .raises 0x03)
  else if sp = 0 then
    if (if t.world = .vendor then 0x3C00 else 0x3800) < a + n then (s, .raises 0x04)
    else (s, .located (scratchBase u + a) (if write then 1 else 2))
  else if sp = 1 then
    if 0x4000 < a + n ∨ (write ∧ a < 0x2000) then (s, .raises 0x04)
    else s.gated u t u.cluster write (windowOff u + a) n (storeBase u.cluster + windowOff u + a) (if write then 4 else 12)
  else if sp = 2 then s.tenantOperand u t a n write
  else
    let len := if t.world = .vendor then Config.libraryConstLen else t.constLen
    if write ∨ len < a + n then (s, .raises 0x04)
    else (s, .located (t.constBase + a) 6)

/-- The bytes a load of a space returns: request bytes beyond the payload read as zero (R43), and the vendor world
reads the library's constants (Table 2.2). -/
def State.loadOperand (s : State) (t : Seat) (sp : BitVec 2) (addr : Word) (key n : Nat) : Bytes :=
  if sp = 3 ∧ t.world = .vendor then (List.range n).map fun i => Config.libraryConst (addr.toNat + i)
  else if sp = 1 ∧ addr.toNat < 0x2000 then
    (List.range n).map fun i => if addr.toNat + i < t.desc.len then s.mem.read (key + i) else 0
  else s.load key n

/-- The address of a memory instruction (R55). -/
def Seat.address (t : Seat) (rb : Fin 32) (off : BitVec 14) : Word := t.reg rb + sx off

end Sys2Proof.Machine
end

