-- ==== Sys2Proof/Machine/Flags.lean ====
section
/-! DEFINITION. The status words: the TE status register (Table 2.1), a key's public attribute word (Table 6.6), usage
and engine bits (Tables 6.4, 6.5), and the saved forms of contexts and seats (Tables 4.4, 4.5, 10.12). -/

namespace Sys2Proof.Machine

/-- The TE status register (Table 2.1). -/
def Seat.status (t : Seat) : Byte :=
  BitVec.ofNat 8 (b2n t.trunc + 2 * b2n (t.dctx.any (·.digest.isSome)) + 4 * b2n t.cctx.isSome + 8 * b2n t.dctx.isSome)

/-! ## Keys -/

/-- Usage bits of Table 6.5, by number. -/
def uEncrypt : Nat := 0
def uDecrypt : Nat := 1
def uMacGen : Nat := 2
def uMacVerify : Nat := 3
def uDerive : Nat := 4
def uWrap : Nat := 5
def uUnwrap : Nat := 6
def uPin : Nat := 7
def uCvv : Nat := 8
def uSign : Nat := 9
def uVerify : Nat := 10
def uKeyAgree : Nat := 11
def uSettle : Nat := 12
def uTokenise : Nat := 13
def uExportable : Nat := 14

/-- Engine classes of Table 6.4, by number. -/
def eTeCipher : Nat := 0
def eTeDigest : Nat := 1
def eMae : Nat := 2
def eVault : Nat := 3
def eBulk : Nat := 4
def eExportWrap : Nat := 5

/-- Whether a key carries a usage bit. -/
def Key.may (k : Key) (u : Nat) : Bool := k.attrs.usage.getLsbD u

/-- Whether a key may enter an engine (R188). -/
def Key.enters (k : Key) (e : Nat) : Bool := k.attrs.engine.getLsbD e

/-- Whether a key type is AES. -/
def typeAes (t : Byte) : Bool := t == 1 || t == 2 || t == 3

/-- Whether a key type is TDES. -/
def typeTdes (t : Byte) : Bool := t == 4 || t == 5

/-- Whether a key type keeps its material in an extension record (Table 6.2). -/
def typeExtended (t : Byte) : Bool := t == 0x10 || t == 0x11 || t == 0x21 || t == 0x22 || t == 0x41 || t == 0x51

/-- Whether a key type is defined, and the material length its tin may have (Table 6.2). -/
def materialOk (t : Byte) (n : Nat) : Bool :=
  match t.toNat with
  | 0x01 => n == 16 | 0x02 => n == 24 | 0x03 => n == 32 | 0x04 => n == 16 | 0x05 => n == 24
  | 0x06 => decide (16 ≤ n) && decide (n ≤ 64)
  | 0x10 => n == 32 | 0x11 => n == 32 | 0x20 => n == 32 || n == 48 | 0x21 => n == 32 | 0x22 => n == 32
  | 0x30 => n == 32 | 0x31 => n == 32 | 0x40 => n == 32 | 0x41 => n == 32 | 0x50 => n == 64 | 0x51 => n == 32
  | _ => false

/-- The caddy slots a key takes: a slot holds 32 bytes of material (Table 6.2). -/
def caddySlots (n : Nat) : Nat := if n ≤ 32 then 1 else 2

/-- The rounds of a key's block operation: Nr for AES, 48 for TDES (R57). -/
def Key.rounds (k : Key) : Nat := if typeTdes k.attrs.ktype then 48 else aesRounds k.material.length

/-- The public attribute word of a key (Table 6.6). -/
def KeyAttrs.word (a : KeyAttrs) (libOnly : Bool) : Word :=
  BitVec.ofNat 64 (a.ktype.toNat * 2 ^ 56 + a.engine.toNat * 2 ^ 50 + b2n libOnly * 2 ^ 49 + a.usage.toNat * 2 ^ 32 +
    a.colour.toNat * 2 ^ 20 + a.gen.toNat * 2 ^ 12)

/-- The counter as nanoseconds. -/
def Time.ns (t : Time) : Nat := t.secs.toNat * 1000000000 + t.nanos.toNat

/-- How fast the error estimate grows, in ns per second (Table 13.5); not at all while PPS_IN holds the phase (R397). -/
def Time.growth (t : Time) : Nat := if t.ppsQualified then 0 else if t.activeSource = 1 then 10 else 2000

/-- The error estimate of HOLDOVER in nanoseconds (R395), counted by the counter itself, which no step moves there. -/
def Time.estimate (t : Time) : Nat := t.e + t.growth * (t.ns - t.eSince) / 1000000000

/-- Whether the milepost counter reports a valid time (R391): LOCKED, or HOLDOVER with an estimate of at most 1 ms. -/
def Time.valid (t : Time) : Bool := t.quality == .locked || (t.quality == .holdover && decide (t.estimate ≤ 1000000))

/-- Whether a key is within its validity window (R191). -/
def KeyAttrs.within (a : KeyAttrs) (t : Time) : Bool :=
  (a.notBefore == 0 && a.notAfter == 0xFFFFFFFFFFFF) || (t.valid && decide (a.notBefore ≤ t.secs) && decide (t.secs ≤ a.notAfter))

/-! ## Saved cipher context (Table 4.4) -/

/-- The 64 bytes of a cipher context. -/
def CipherCtx.bytes (c : CipherCtx) : Bytes :=
  [1, c.mode, BitVec.ofNat 8 c.slot.val,
   BitVec.ofNat 8 (128 * b2n c.aadClosed + 64 * b2n c.dataClosed + 32 * b2n c.heldFull + 16 * b2n c.heldPartial +
     4 * c.ktype.toNat), BitVec.ofNat 8 c.held, 0, 0, 0] ++
  natBE 8 c.serial.toNat ++ natBE 8 c.ctrA.toNat ++ natBE 8 c.ctrB.toNat ++ blockBytes c.chain ++ blockBytes c.aux

/-- The cipher context 64 bytes spell, when their fixed and reserved fields are as Table 4.4 has them. -/
def CipherCtx.ofBytes (b : Bytes) : Option CipherCtx :=
  let f := fieldBE b 3 1
  if fieldBE b 0 1 = 1 ∧ fieldBE b 1 1 ≤ 9 ∧ fieldBE b 2 1 < 8 ∧ f % 4 = 0 ∧ fieldBE b 4 1 ≤ 16 ∧ fieldBE b 5 3 = 0 then
    some { mode := BitVec.ofNat 8 (fieldBE b 1 1), slot := Fin.ofNat 8 (fieldBE b 2 1), ktype := BitVec.ofNat 2 (f / 4),
           serial := BitVec.ofNat 64 (fieldBE b 8 8), aadClosed := bit f 7, dataClosed := bit f 6, heldFull := bit f 5,
           heldPartial := bit f 4, held := fieldBE b 4 1, ctrA := BitVec.ofNat 64 (fieldBE b 16 8),
           ctrB := BitVec.ofNat 64 (fieldBE b 24 8), chain := toBlock (slice b 32 16), aux := toBlock (slice b 48 16) }
  else .none

/-- Whether every field the mode does not use is zero (R142, R143). -/
def CipherCtx.unusedZero (c : CipherCtx) : Bool :=
  let m := c.mode.toNat
  let gcm := m == 5 || m == 6
  (gcm || !c.aadClosed) && ((2 ≤ m && m ≤ 5) || !c.dataClosed) && (m == 7 || (!c.heldFull && !c.heldPartial && c.held == 0)) &&
    (gcm || m == 7 || m == 8 || c.ctrA == 0) && (m == 5 || m == 8 || c.ctrB == 0) &&
    (!(m == 0 || m == 9) || c.chain == 0) && (gcm || m == 7 || c.aux == 0)

/-! ## Saved digest context (Table 4.5) -/

/-- The 256 bytes of a digest context. -/
def DigestCtx.bytes (c : DigestCtx) (trunc : Bool) : Bytes :=
  [1, BitVec.ofNat 8 (32 * b2n c.hmac + c.alg.toNat), BitVec.ofNat 8 c.slot.val, BitVec.ofNat 8 (128 * b2n trunc), 0, 0, 0, 0] ++
  natBE 8 c.serial.toNat ++ natBE 8 c.len.toNat ++ natBE 8 c.count.toNat ++ padTo 200 c.st ++ List.replicate 24 0

/-- The digest context 256 bytes spell, with its TRUNC bit, when their fixed and reserved fields are as Table 4.5 has
them. -/
def DigestCtx.ofBytes (b : Bytes) (vendor : Bool) : Option (DigestCtx × Bool) :=
  let f := fieldBE b 1 1
  let alg := f % 32
  let hm := bit f 5
  if fieldBE b 0 1 = 1 ∧ f < 64 ∧ 1 ≤ alg ∧ alg ≤ 7 ∧ fieldBE b 2 1 < 8 ∧ (hm ∨ (fieldBE b 2 1 = 0 ∧ fieldBE b 8 8 = 0)) ∧
      fieldBE b 3 1 % 128 = 0 ∧ fieldBE b 4 4 = 0 ∧ allZero (slice b 0xE8 24) ∧
      (algSha3 alg ∨ allZero (slice b 0xE0 8)) ∧
      (2 < alg ∨ (allZero (slice b 0x40 32) ∧ allZero (slice b 0xA0 64))) then
    some ({ alg := BitVec.ofNat 8 alg, hmac := hm, slot := Fin.ofNat 8 (fieldBE b 2 1), serial := BitVec.ofNat 64 (fieldBE b 8 8),
            len := BitVec.ofNat 64 (fieldBE b 16 8), count := BitVec.ofNat 64 (fieldBE b 24 8), st := slice b 0x20 200,
            digest := .none, compared := false, vendor := vendor }, bit (fieldBE b 3 1) 7)
  else .none

/-! ## Saved seat (Table 10.12, R144) -/

/-- A return-stack entry of Table 10.12. -/
def Frame.bytes (f : Frame) : Bytes :=
  natBE 8 (b2n (f.world == .vendor) * 2 ^ 33 + b2n f.isGate * 2 ^ 32 + f.retPc.toNat)

/-- Bytes 0x000-0x34F of Table 10.12. -/
def Seat.image (t : Seat) : Bytes :=
  ((t.g.toList.drop 1).take 30).flatMap (fun v => natBE 8 v.toNat) ++ natBE 8 t.sp.toNat ++ natBE 8 t.vsp.toNat ++
  t.b.toList.flatMap blockBytes ++ natBE 4 t.pc.toNat ++
  [BitVec.ofNat 8 (128 * b2n (t.world == .vendor)), t.status, BitVec.ofNat 8 t.stack.length,
   BitVec.ofNat 8 (2 * b2n (t.dctx.any (·.compared)) + b2n (t.dctx.any (·.digest.isSome)))] ++
  padTo 128 (t.stack.reverse.flatMap Frame.bytes) ++ natBE 8 t.cycles ++
  padTo 64 (match t.cctx with
    | some c => c.bytes
    | .none => []) ++
  padTo 256 (match t.dctx with
    | some c => match c.digest with
      | some d => ({ c with st := padTo 200 d }).bytes t.trunc
      | .none => c.bytes t.trunc
    | .none => [])

/-- The intent register's 16 bytes in the save area (R144). -/
def Seat.intentBytes (t : Seat) : Bytes :=
  match t.intent with
  | some i => natBE 2 i.kind.toNat ++ List.replicate 6 0 ++ natBE 8 i.obj.toNat
  | .none => List.replicate 16 0

/-- A key slot's 112 bytes in Table 10.12. -/
def Slot.bytes (x : Slot) : Bytes :=
  let a := x.key.attrs
  [BitVec.ofNat 8 (128 + 64 * b2n x.libOnly + 32 * b2n x.vendorLoaded + 16 * b2n x.returned), a.ktype,
   BitVec.ofNat 8 x.key.material.length, 0, 0, 0, 0, 0] ++ natBE 8 (a.word x.libOnly).toNat ++ natBE 2 a.usage.toNat ++
  natBE 2 a.derivedUsage.toNat ++ natBE 2 (a.derivedEngine.toNat * 256 + a.engine.toNat) ++ natBE 2 a.param.toNat ++
  natBE 6 a.notBefore.toNat ++ natBE 6 a.notAfter.toNat ++ [0, 0, 0, 0] ++ natBE 8 x.serial.toNat ++ padTo 64 x.key.material

end Sys2Proof.Machine
end

