-- ==== Sys2Proof/Machine/Seats.lean ====
section
/-! DEFINITION. How a TE runs an instruction, changes seat, and ends an itinerary: by EMIT or TRAP, by exception, or
without a response (R47, R48, R72-R81, R128, R144). -/

namespace Sys2Proof.Machine

/-! ## What an item's end does outside the TE -/

/-- Change the reset in progress of the function that serves a colour (R335, R336). -/
def State.modReset (s : State) (c : Colour) (f : ResetRun → ResetRun) : State :=
  match s.part? c with
  | some p =>
    match (s.func p.vf).resetRun with
    | some r => s.setFunc p.vf { s.func p.vf with resetRun := some (f r) }
    | .none => s
  | .none => s

/-- Count an item that ended with FINAL toward a reset in progress (R336). -/
def State.countDrained (s : State) (c : Colour) : State :=
  s.modReset c fun r => if r.squashDone then r else { r with drained := r.drained + 1 }

/-- End an item without a response: its ENDED record, its lane's count, the counts of a reset (R79, R254, R336). -/
def State.itemEnded (s : State) (d : Desc) (reason : BitVec 11) : State :=
  let s := s.ended d reason
  let s := s.setLane d.lane { s.lane d.lane with squashed := (s.lane d.lane).squashed + 1 }
  if reason = 1 then s.modReset d.colour fun r => { r with squashed := r.squashed + 1 } else s

/-- Write the FINAL record of a response, and hold the response until that record is in the ring (R34, R72, Table 8.2). -/
def State.hold (s : State) (d : Desc) (vendor : Bool) (payload : Bytes) : State :=
  let head := payload.take 8
  let m := s.mile d 7 false vendor (BitVec.ofNat 11 (fieldBE head 2 2)) (BitVec.ofNat 16 (fieldBE head 0 2))
    (BitVec.ofNat 64 (beNat head)) s.stamp
  { s.writeMile m with held := s.held ++ [{ desc := d, payload := payload }] }

/-- The completion record (Table 2.14). -/
def completionRecord (kind code : Byte) (intentOpen : Bool) (rsp : BitVec 11) (pc : BitVec 32) : Bytes :=
  [kind, code] ++ natBE 2 (b2n intentOpen * 2 ^ 15 + rsp.toNat) ++ natBE 4 pc.toNat

/-- The pc field of a completion record: in the vendor world it names the waymark only (Table 2.14). -/
def Seat.shownPc (t : Seat) : BitVec 32 := if t.world = .vendor then 0xFFFF0000 ||| t.waymark.zeroExtend 32 else t.pc

/-! ## Leaving a seat -/

/-- The intent an itinerary leaves open, for its OUTCOME (R254). A VPUT still in flight is not settled. -/
def State.orphan (s : State) (t : Seat) (i : Intent) : Orphan :=
  { record := s.mile t.desc 4 true true i.kind 0 i.obj (BitVec.ofNat 32 i.before.toNat), issued := i.issued, left := i.left,
    unknown := false,
    settled := match t.vwait with
      | some w => !(w.isPut && w.reply.isNone)
      | .none => true }

/-- Record the open intent of a seat that ends (R76, R254). -/
def State.leaveIntent (s : State) (t : Seat) : State :=
  match t.intent with
  | some i => { s with journal := { s.journal with orphans := s.journal.orphans ++ [s.orphan t i] } }
  | .none => s

/-- Whether a cluster is being quiesced: the engagement in progress replaces it and has not quiesced it yet (R514). -/
def State.quiescing (s : State) (c : Nat) : Bool :=
  match s.power.engagements with
  | e :: _ => e.failing == c && !e.quiesced
  | [] => false

/-- The other seat of a seat's TE. -/
def otherSeat (u : SeatRef) : SeatRef := { u with seat := 1 - u.seat }

/-- Whether a seat stands at a YIELD with no intent open, where it may be moved or ended (R78, R79). -/
def Seat.rests (t : Seat) : Bool := t.phase == .ready && t.atYield && t.intent.isNone

/-- Whether a TE may resume a seat: it is ready, and a cluster in quiesce leaves a seat at rest where it stands (R77, R79). -/
def State.mayResume (s : State) (u : SeatRef) : Bool :=
  (s.seat u).phase == .ready && !((s.seat u).rests && s.quiescing u.cluster)

/-- A seat runs: it has started, and stands at no yield point any more. -/
def Seat.runs (t : Seat) : Seat := { t with phase := .running, started := true, atYield := false }

/-- The TE resumes the other seat if that seat is ready (R77). -/
def State.resumeOther (s : State) (u : SeatRef) : State :=
  if s.mayResume (otherSeat u) then
    (s.setSeat (otherSeat u) (s.seat (otherSeat u)).runs).setTe u.cluster u.te { s.te u.cluster u.te with current := (otherSeat u).seat }
  else s

/-- Clear a seat: slots, contexts, registers, and the context portion of its save area (R128). -/
def State.clearSeat (s : State) (u : SeatRef) : State :=
  (s.setSeat u Seat.empty).wipe (scratchBase u + 0x3C00 + 0x210) (scratchBase u + 0x3C00 + 0x350)

/-- Clear a seat's whole save area (R157). -/
def State.clearSaveArea (s : State) (u : SeatRef) : State := s.wipe (scratchBase u + 0x3C00) (scratchBase u + 0x4000)

/-- Clear the save areas of every seat of a cluster (R157). -/
def State.clearSaveAreas (s : State) (c : Nat) : State :=
  (List.range 32).foldl (fun s k => s.clearSaveArea ⟨c, k / 2, k % 2⟩) s

/-- Release a seat whose itinerary has ended (R72, R128, R77). -/
def State.releaseSeat (s : State) (u : SeatRef) : State :=
  ((s.leaveIntent (s.seat u)).clearSeat u).resumeOther u

/-- End a seat's itinerary without a response (R79, R80). -/
def State.killSeat (s : State) (u : SeatRef) (reason : BitVec 11) : State :=
  let d := (s.seat u).desc
  (s.releaseSeat u).itemEnded d reason

/-- End a seat's itinerary with a response, or without one when its lane is squashed (R72, R79). -/
def State.endSeat (s : State) (u : SeatRef) (kind code : Byte) (rsp : BitVec 11) (pc : BitVec 32) (body : Bytes) : State :=
  let t := s.seat u
  if t.squash then s.killSeat u 1
  else
    let s := s.releaseSeat u
    (s.hold t.desc (t.world == .vendor) (completionRecord kind code t.intent.isSome rsp pc ++ body)).countDrained t.desc.colour

/-- An exception ends the itinerary (R75, Table 2.15): the class 0 fault ITIN_EXCEPTION, the lane's count. -/
def State.raise (s : State) (u : SeatRef) (code : Byte) : State :=
  let t := s.seat u
  let s := s.setLane t.desc.lane { s.lane t.desc.lane with exceptions := (s.lane t.desc.lane).exceptions + 1 }
  let s := s.endSeat u 2 code 0 t.shownPc []
  s.fault 0 0x14 (srcTe u) (BitVec.ofNat 64 (t.desc.id.toNat * 2 ^ 32 + b2n (t.world == .vendor) * 256 + code.toNat))

/-! ## Starting an itinerary (R39, R87) -/

/-- An itinerary's start state (R39), bound to its image (R87). -/
def startSeat (d : Desc) (x : Image) (phase : Phase) : Seat :=
  let base := dramBase + granuleAddr x.granule
  { Seat.empty with
    phase := phase, desc := d, g := (Seat.empty.g).set 1 (BitVec.ofNat 64 d.len), sp := BitVec.ofNat 64 x.stack, vsp := 0x3C00,
    pc := x.entry, codeBase := base + x.codeOff, codeLen := x.codeLen, constBase := base + x.constOff, constLen := x.constLen,
    version := x.version, steps := x.steps, started := phase == .running }

/-- Whether a seat holds an itinerary that has not started, dispatched for an image (R87). -/
def Seat.waitsFor (t : Seat) (id : BitVec 32) (colour : Colour) (shared : Bool) : Bool :=
  t.phase == .ready && !t.started && t.desc.id == id && (shared || t.desc.colour == colour)

/-- A newer version of an image: what was dispatched for it and has not started runs on it (R87). -/
def State.rebindSeats (s : State) (x : Image) : State :=
  { s with seats := s.seats.mapVals fun (t : Seat) =>
      if t.waitsFor x.id x.colour x.shared then { startSeat t.desc x .ready with squash := t.squash } else t }

/-- Refuse an itinerary that was dispatched and has not started: its image is gone (R87). -/
def State.refuseSeat (s : State) (u : SeatRef) : State :=
  let t := s.seat u
  if t.squash then s.killSeat u 1
  else ((s.releaseSeat u).hold t.desc true (completionRecord 3 3 false 0 0)).countDrained t.desc.colour

/-- The image (colour, id) is unloaded: every itinerary dispatched for it that has not started is refused (R87). -/
def State.refuseWaiting (s : State) (id : BitVec 32) (colour : Colour) (shared : Bool) : State :=
  ((s.seats.filter fun p => p.2.waitsFor id colour shared).map fun p => seatOfKey p.1).foldl State.refuseSeat s

/-! ## Running an instruction -/

/-- What an instruction does: go on at the next instruction or elsewhere, wait where it stands, raise an exception, or
end the seat itself. -/
inductive TeRes where
  | next (s : State) (t : Seat) (cost : Nat)
  | jump (s : State) (t : Seat) (pc : BitVec 32) (cost : Nat)
  | wait (s : State) (t : Seat) (cost : Nat)
  | exc (s : State) (code : Byte)
  | gone (s : State)

/-- Charge an instruction's cycles (R47, R81). -/
def Seat.charge (t : Seat) (n : Nat) : Seat := { t with cycles := t.cycles + n, sinceYield := t.sinceYield + n }

/-- The 64-byte line of a pc: of the image's code in the tenant world, of the library in the vendor world (R48). -/
def Seat.line (t : Seat) (pc : BitVec 32) : Nat :=
  (if t.world = .vendor then Config.libraryBase + pc.toNat else t.codeBase + pc.toNat) / 64

/-- Fetch the instruction at a new pc, from the line `last` the seat was on. Another line may miss the image cache, which a
free value decides (R48, log entry 20); a miss waits for its fill. -/
def State.fetch (s : State) (u : SeatRef) (t : Seat) (last : Nat) (pc : BitVec 32) : State :=
  if t.line pc = last then s.setSeat u { t with pc := pc }
  else s.drawn.setSeat u { t with pc := pc, phase := if s.free.getLsbD 0 then .fetchWait else .running }

/-- The cycles a taken transfer adds when its target lies in another line (R48). -/
def lineCost (a b : Nat) : Nat := if a = b then 0 else 4

/-- Carry out what an instruction answers. The line it was fetched from is that of the seat as it stood, since a GATE or GRET
changes the world. -/
def finishTe (u : SeatRef) : TeRes → State
  | .next s t cost => s.fetch u (t.charge cost) (t.line t.pc) (t.pc + 4)
  | .jump s t pc cost =>
    let last := (s.seat u).line (s.seat u).pc
    s.fetch u (t.charge (cost + lineCost last (t.line pc))) last pc
  | .wait s t cost => s.setSeat u (t.charge cost)
  | .exc s code => s.raise u code
  | .gone s => s

/-- Whether a seat issues an instruction: it runs, and its count has not reached the overdue bound (R77, R81). -/
def Seat.issues (t : Seat) : Bool := t.phase == .running && decide (t.sinceYield < 24000)

/-- Run an instruction in a seat; a seat that issues nothing leaves the state as it is (log entry 4). -/
def runTe (u : SeatRef) (s : State) (f : State → Seat → TeRes) : Res :=
  checked u.ok (if (s.seat u).issues then finishTe u (f s (s.seat u)) else s)

/-- Run an instruction other than SYS: it parts the two halves of a milepost sample (R51). -/
def runPlain (u : SeatRef) (s : State) (f : State → Seat → TeRes) : Res :=
  runTe u s fun s t => f s { t with sample := .none }

/-- Run a vendor-only instruction: WORLD in the tenant world, before it has any effect (R65). -/
def runVendor (u : SeatRef) (s : State) (f : State → Seat → TeRes) : Res :=
  runPlain u s fun s t => if t.world = .vendor then f s t else .exc s 0x06

/-! ## Yield points -/

/-- The level of a seat's lane. -/
def State.seatLevel (s : State) (t : Seat) : Nat := (s.lane t.desc.lane).level

/-- Write the outgoing seat's state to its save area (R144). -/
def State.saveArea (s : State) (u : SeatRef) : State :=
  s.store (scratchBase u + 0x3C00) ((s.seat u).image ++ (s.seat u).intentBytes)

/-- Change to the other seat of the TE, which is ready (R144). `atYield` says that the change is a YIELD's. -/
def State.seatChange (s : State) (u : SeatRef) (phase : Phase) (atYield : Bool) : State :=
  let s := s.setSeat u { s.seat u with phase := phase, atYield := atYield }
  (s.saveArea u).resumeOther u

/-- A TE enters a seat that runs: where another seat stood there, this is a seat change, and that seat's state goes to its save
area (R144). -/
def State.enterSeat (s : State) (u : SeatRef) : State :=
  let e := s.te u.cluster u.te
  let o := otherSeat u
  let s := if e.current ≠ u.seat ∧ (s.seat o).phase ≠ .empty then s.saveArea o else s
  s.setTe u.cluster u.te { e with current := u.seat }

end Sys2Proof.Machine
end

