-- ==== Sys2Proof/Machine/KeyUse.lean ====
section
/-! DEFINITION. How an instruction uses a key slot and the scratch: the check of R56, the fill serial and the contexts
it closes (R127), a scratch address of R143. A failed check is the code of the exception it raises. -/

namespace Sys2Proof.Machine

/-- Run an instruction whose effect is a next state, a next seat and a cost, or an exception. -/
def runEx (u : SeatRef) (s : State) (f : State → Seat → Except Byte (State × Seat × Nat)) : Res :=
  runPlain u s fun s t =>
    match f s t with
    | .ok (s, t, cost) => .next s t cost
    | .error c => .exc s c

/-- Raise an exception unless a condition holds. -/
def need (c : Bool) (code : Byte) : Except Byte Unit := if c then .ok () else .error code

/-- The check of a key slot (R56): filled, engine class and usage (any one of `us`; none asked when empty), validity
window, and library-only in the tenant world. -/
def State.useKey (s : State) (t : Seat) (k : Fin 8) (eng : Option Nat) (us : List Nat) : Except Byte Slot :=
  match t.slot k with
  | .none => .error 0x09
  | some x =>
    if eng.any (fun e => !x.key.enters e) || (!us.isEmpty && !us.any x.key.may) then .error 0x0A
    else if !x.key.attrs.within s.time then .error 0x0B
    else if t.world = .tenant ∧ x.libOnly then .error 0x0A
    else .ok x

/-- Whether the policy of the seat's colour forbids a TDES key in tenant code (Table 2.18, bit 7). -/
def State.tdesForbidden (s : State) (t : Seat) (x : Slot) : Bool :=
  typeTdes x.key.attrs.ktype && t.world == .tenant && (s.part? t.desc.colour).any fun p => p.policy.getLsbD 7

/-- Empty a slot, closing the contexts that recorded its serial (R127). -/
def Seat.emptySlot (t : Seat) (k : Fin 8) : Seat :=
  { t.setSlot k .none with
    cctx := t.cctx.filter fun c => c.slot != k
    dctx := t.dctx.filter fun d => !(d.hmac && d.slot == k) }

/-- Fill a slot with the TE's next serial and the world that loads it (R64, R127, R192). -/
def State.fillSlot (s : State) (u : SeatRef) (t : Seat) (k : Fin 8) (key : Key) (lib : Bool) : State × Seat :=
  let e := s.te u.cluster u.te
  (s.setTe u.cluster u.te { e with serial := e.serial + 1 },
   (t.emptySlot k).setSlot k (some { key := key, vendorLoaded := t.world == .vendor, libOnly := lib || key.attrs.libOnly,
                                     returned := false, serial := e.serial }))

/-- Give slot `k` of a seat a new fill serial, and the contexts open on it too (R127, R342). -/
def Seat.renewSlot (t : Seat) (k : Fin 8) (x : Slot) (v : Word) : Seat :=
  { t with k := t.k.set k (some { x with serial := v }),
           cctx := t.cctx.map fun c => if c.slot = k ∧ c.serial = x.serial then { c with serial := v } else c,
           dctx := t.dctx.map fun c => if c.hmac ∧ c.slot = k ∧ c.serial = x.serial then { c with serial := v } else c }

/-- The slots of an itinerary that comes into a TE are filled there, and take their serials from that TE (R127, R342). -/
def State.renewSlots (s : State) (u : SeatRef) : State :=
  (List.finRange 8).foldl (fun s k =>
    let t := s.seat u
    match t.k[k] with
    | some x =>
      let e := s.te u.cluster u.te
      (s.setSeat u (t.renewSlot k x e.serial)).setTe u.cluster u.te { e with serial := e.serial + 1 }
    | .none => s) s

/-- The scratch a seat's world reaches (Table 2.2). -/
def Seat.scratchLimit (t : Seat) : Nat := if t.world = .vendor then 0x3C00 else 0x3800

/-- A scratch operand of a crypto instruction: its place in the byte memory. -/
def Seat.scratchAt (t : Seat) (u : SeatRef) (a : Word) (n align : Nat) : Except Byte Nat :=
  if a.toNat % align ≠ 0 then .error 0x03
  else if t.scratchLimit < a.toNat + n then .error 0x04
  else .ok (scratchBase u + a.toNat)

end Sys2Proof.Machine
end

