-- ==== Sys2Proof/Machine/KeyStore.lean ====
section
/-! DEFINITION. The key stores (chapter 6): tins and extension records, steeping and the key hierarchy, the warm store
with its versions and quotas, the caddy. -/

namespace Sys2Proof.Machine

/-! ## Handles (R180) -/

/-- The colour field of a handle. -/
def handleColour (h : Word) : Colour := h.extractLsb' 48 12

/-- Whether a handle is well-formed and of a colour (R180). -/
def handleOk (c : Colour) (h : Word) : Bool :=
  h.extractLsb' 60 4 == 0 && handleColour h == c && h.extractLsb' 0 48 != 0

/-- Whether a handle names a system record (R544). -/
def systemHandle (h : Word) : Bool := h == 0x1 || h == 0x10 || h == 0x11

/-! ## Tins (Table 6.1) -/

/-- Bytes 0x00-0x6F of a tin, which its tag covers. -/
def Tin.body (t : Tin) : Bytes :=
  let a := t.attrs
  [1, a.ktype] ++ natBE 2 a.colour.toNat ++ [a.gen, BitVec.ofNat 8 (128 * b2n t.extended + 64 * b2n a.libOnly),
    BitVec.ofNat 8 t.matLen, t.context] ++ natBE 8 t.handle.toNat ++
  natBE 2 (a.derivedEngine.toNat * 256 + a.engine.toNat) ++ natBE 2 a.usage.toNat ++ natBE 2 a.derivedUsage.toNat ++
  natBE 2 a.param.toNat ++ natBE 6 a.notBefore.toNat ++ natBE 6 a.notAfter.toNat ++ natBE 4 t.version.toNat ++ padTo 72 t.wrapped

/-- The 128 bytes of a tin. -/
def Tin.bytes (t : Tin) : Bytes := t.body ++ blockBytes t.tag

/-- The length AES-KWP gives material. -/
def kwpLen (n : Nat) : Nat := 8 * (ceilDiv n 8 + 1)

/-- The tin 128 bytes spell; reserved bits are dropped, which `tinReservedZero` checks. -/
def Tin.ofBytes (b : Bytes) : Tin :=
  let e := fieldBE b 0x10 2
  let n := fieldBE b 6 1
  { attrs := { ktype := BitVec.ofNat 8 (fieldBE b 1 1), colour := BitVec.ofNat 12 (fieldBE b 2 2), gen := BitVec.ofNat 8 (fieldBE b 4 1),
               libOnly := bit (fieldBE b 5 1) 6, engine := BitVec.ofNat 6 e, derivedEngine := BitVec.ofNat 6 (e / 256),
               usage := BitVec.ofNat 16 (fieldBE b 0x12 2), derivedUsage := BitVec.ofNat 16 (fieldBE b 0x14 2),
               param := BitVec.ofNat 16 (fieldBE b 0x16 2), notBefore := BitVec.ofNat 48 (fieldBE b 0x18 6),
               notAfter := BitVec.ofNat 48 (fieldBE b 0x1E 6) },
    extended := bit (fieldBE b 5 1) 7, context := BitVec.ofNat 8 (fieldBE b 7 1), matLen := n,
    handle := BitVec.ofNat 64 (fieldBE b 8 8), version := BitVec.ofNat 32 (fieldBE b 0x24 4),
    wrapped := slice b 0x28 (kwpLen n), tag := toBlock (slice b 0x70 16) }

/-- The material length a tin of a type may have: an extended key's tin holds its 32-byte extension key (R184). -/
def tinLengthOk (ty : Byte) (n : Nat) : Bool := if typeExtended ty then n == 32 else materialOk ty n

/-- Condition 1 of R187: format, key type and material length defined. -/
def tinFormatOk (b : Bytes) : Bool :=
  let t := Tin.ofBytes b
  b.length == 128 && fieldBE b 0 1 == 1 && tinLengthOk t.attrs.ktype t.matLen && t.extended == typeExtended t.attrs.ktype

/-- Condition 2 of R187: the reserved fields are zero. -/
def tinReservedZero (b : Bytes) : Bool :=
  let e := fieldBE b 0x10 2
  decide (fieldBE b 2 2 < 4096) && fieldBE b 5 1 % 64 == 0 && decide (fieldBE b 8 1 < 16) && decide (e < 2 ^ 14) &&
    bits e 7 6 == 0 && !bit (fieldBE b 0x12 2) 15 && !bit (fieldBE b 0x14 2) 15 &&
    allZero (slice b (0x28 + kwpLen (fieldBE b 6 1)) (72 - kwpLen (fieldBE b 6 1)))

/-- A tin with its material wrapped and its tag made (R185). -/
def Tin.sealed (t : Tin) (wrap bind material : Bytes) : Tin :=
  let t := { t with matLen := material.length, wrapped := kwpWrap wrap material }
  { t with tag := toBlock (aesCmac bind t.body) }

/-- Whether a tin's tag verifies. -/
def Tin.tagOk (t : Tin) (bind : Bytes) : Bool := toBlock (aesCmac bind t.body) == t.tag

/-- The material of a tin whose wrap verifies. -/
def Tin.unwrapped (t : Tin) (wrap : Bytes) : Option Bytes := (kwpUnwrap wrap t.wrapped).filter fun m => m.length == t.matLen

/-! ## Extension records (Table 6.3, R186) -/

/-- The header of an extension record. -/
def extHeader (h : Word) (version : BitVec 32) (len : Nat) (param : BitVec 16) : Bytes :=
  natBE 8 h.toNat ++ natBE 4 version.toNat ++ natBE 2 len ++ natBE 2 param.toNat

/-- The initialisation vector of an extension record. -/
def extIv (version : BitVec 32) : Bytes := natBE 4 version.toNat ++ List.replicate 8 0

/-- An extension record over a plaintext. -/
def extSeal (key : Bytes) (h : Word) (version : BitVec 32) (param : BitVec 16) (pt : Bytes) : Bytes :=
  let hd := extHeader h version pt.length param
  hd ++ gcmSeal key (extIv version) hd pt

/-- The plaintext of an extension record of a tin. -/
def extOpen (key : Bytes) (t : Tin) (e : Bytes) : Option Bytes :=
  let len := e.length - 32
  if e.take 16 = extHeader t.handle t.version len t.attrs.param ∧ 32 ≤ len ∧ len ≤ 4096 then
    gcmOpen key (extIv t.version) (e.take 16) (e.drop 16)
  else .none

/-! ## Steeping and the hierarchy (R204, R205) -/

/-- steep(K, label, c, M, G). -/
def steep (k label : Bytes) (c : Colour) (m : BitVec 384) (g : Byte) : Bytes :=
  kmac256 k (BitVec.ofNat 8 label.length :: label ++ natBE 2 c.toNat ++ natBE 48 m.toNat ++ [g]) 32 (ascii "HX7-STEEP")

/-- The firmware-bound root for a measurement, while the BBK exists. -/
def State.rootFor (s : State) (m : BitVec 384) : Option Bytes :=
  s.keys.bbk.map fun b => steep (natBE 32 s.lc.dus.toNat ++ natBE 32 b.toNat) (ascii "FBR") 0 m s.lc.gen

/-- The device wrapping and binding keys for a measurement. -/
def State.deviceKeysFor (s : State) (m : BitVec 384) : Option (Bytes × Bytes) :=
  (s.rootFor m).map fun r => (steep r (ascii "DEV-WRAP") 0 m s.lc.gen, steep r (ascii "DEV-BIND") 0 m s.lc.gen)

/-- Form the firmware-bound root and the device keys at start-up (R204). -/
def State.formRoots (s : State) : State :=
  let w := fun (b : Bytes) => BitVec.ofNat 256 (beNat b)
  let d := s.deviceKeysFor s.power.running
  { s with keys := { s.keys with fbr := (s.rootFor s.power.running).map w, devWrap := d.map fun x => w x.1,
                                 devBind := d.map fun x => w x.2 } }

/-- The device keys in the caddy's fixed slots. -/
def State.deviceKeys (s : State) : Option (Bytes × Bytes) :=
  match s.keys.devWrap, s.keys.devBind with
  | some w, some b => some (natBE 32 w.toNat, natBE 32 b.toNat)
  | _, _ => .none

/-- The operator master key, while its record is in the warm store (R545). -/
def State.omk (s : State) : Option Bytes :=
  match s.keys.warm.find? 1, s.deviceKeys with
  | some (.live t _), some (w, b) => if t.tagOk b then t.unwrapped w else .none
  | _, _ => .none

/-- The tin wrapping and binding keys of a colour at an epoch under a measurement (Table 6.8). -/
def State.colourKeysFor (s : State) (m : BitVec 384) (c : Colour) (epoch : BitVec 32) : Option (Bytes × Bytes) :=
  s.omk.map fun k =>
    let pk := steep k (ascii "PART" ++ natBE 4 epoch.toNat) c m s.lc.gen
    (steep pk (ascii "TIN-WRAP") c m s.lc.gen, steep pk (ascii "TIN-BIND") c m s.lc.gen)

/-- The partition key epoch of a colour (R207). -/
def State.epochOf (s : State) (c : Colour) : BitVec 32 := ((s.part? c).map (·.epoch)).getD 0

/-- Whether a colour's tin keys have slots of their own (R198). -/
def fixedColour (c : Colour) : Bool := c != 0 && c != 0xFFF

/-- The tin wrapping and binding keys of a colour: those in its fixed slots; a colour without such slots has them formed when they are
needed (R198, R545). -/
def State.colourKeys (s : State) (c : Colour) : Option (Bytes × Bytes) :=
  if fixedColour c then (s.keys.partKeys.find? c.toNat).map fun k => (natBE 32 k.1.toNat, natBE 32 k.2.toNat)
  else s.colourKeysFor s.power.running c (s.epochOf c)

/-- The wrapping and binding keys a tin of a context is made under now. -/
def State.tinKeys (s : State) (ctx : Byte) (c : Colour) : Option (Bytes × Bytes) :=
  if ctx = 1 then s.deviceKeys else s.colourKeys c

/-- Every pair of keys a warm tin may open under: during a re-wrap tins of both epochs load (R207). -/
def State.openKeys (s : State) (ctx : Byte) (c : Colour) : List (Bytes × Bytes) :=
  (s.tinKeys ctx c).toList ++
    if ctx != 1 && s.keys.rekeying.any (·.1 == c) then (s.colourKeysFor s.power.running c (s.epochOf c - 1)).toList else []

/-- The material of a warm tin. -/
def State.openTin (s : State) (t : Tin) : Option Bytes :=
  (s.openKeys t.context t.attrs.colour).findSome? fun k => if t.tagOk k.2 then t.unwrapped k.1 else .none

/-- The key of a record: an extended key's material is its extension's plaintext (R184). -/
def State.openRecord (s : State) (t : Tin) (e : Bytes) : Option Key :=
  match s.openTin t with
  | .none => .none
  | some m => if t.extended then (extOpen m t e).map fun p => { attrs := t.attrs, material := p } else some { attrs := t.attrs, material := m }

/-! ## The warm store (R181, R182) -/

/-- A live record of a colour. -/
def State.record (s : State) (c : Colour) (h : Word) : Option (Tin × Bytes) :=
  if handleOk c h then
    match s.keys.warm.find? h.toNat with
    | some (.live t e) => some (t, e)
    | _ => .none
  else .none

/-- The version of a handle (R181). -/
def State.versionOf (s : State) (h : Word) : BitVec 32 :=
  match s.keys.warm.find? h.toNat with
  | some (.live t _) => t.version
  | some (.tombstone v) => v
  | .none => 0

/-- The bytes an extension record takes (R182). -/
def extSize (e : Bytes) : Nat := 64 * ceilDiv e.length 64

/-- The bytes a record takes. -/
def KeyRec.size : KeyRec → Nat
  | .live _ e => 128 + extSize e
  | .tombstone _ => 128

/-- The bytes a colour's records and tombstones take. -/
def State.keyUse (s : State) (c : Colour) : Nat :=
  (s.keys.warm.map fun p => if handleColour (BitVec.ofNat 64 p.1) = c then p.2.size else 0).sum

/-- Whether a colour's quota has room for a record under a handle, counted after what it replaces (R187). Colour 0 has no
stated quota. -/
def State.keyRoom (s : State) (c : Colour) (h : Word) (size : Nat) : Bool :=
  let old := ((s.keys.warm.find? h.toNat).map KeyRec.size).getD 0
  match s.part? c with
  | some p => decide (s.keyUse c - old + size ≤ 128 * p.keyQuota)
  | .none => c == 0

/-- Remove a handle's caddy slots and key table entries (R203). -/
def State.dropHandle (s : State) (h : Word) : State :=
  { s with keys := { s.keys with caddy := s.keys.caddy.filter fun e => e.handle != h },
           clusters := s.clusters.mapVals fun c => { c with mae := { c.mae with keyTable := c.mae.keyTable.filter (·.handle != h) } } }

/-- A tin re-wrapped and re-tagged under the keys of a measurement (R214, R216). -/
def State.carryTin (s : State) (m : BitVec 384) (t : Tin) : Option Tin :=
  let ks := if t.context = 1 then s.deviceKeysFor m else s.colourKeysFor m t.attrs.colour (s.epochOf t.attrs.colour)
  match ks, s.openTin t with
  | some (w, b), some x => some (t.sealed w b x)
  | _, _ => .none

/-- The bytes a new record for material would take. -/
def recordSize (ty : Byte) (n : Nat) : Nat := if typeExtended ty then 128 + 64 * ceilDiv (n + 32) 64 else 128

/-! ## The caddy (R198-R200) -/

/-- The slots a colour holds. -/
def Keys.heldBy (k : Keys) (c : Colour) : Nat :=
  ((k.caddy.filter fun e => handleColour e.handle == c).map fun e => e.slots.length).sum

/-- The lowest slot at or above a number that no entry occupies. -/
def Keys.freeFrom (k : Keys) (lo : Nat) : Nat :=
  let used := k.caddy.flatMap (·.slots)
  ((List.range (used.length + 1)).find? fun i => !used.contains (lo + i)).getD 0 + lo

/-- The quota of a colour; colour 0's is 64 (R198). -/
def State.caddyQuota (s : State) (c : Colour) : Nat := if c = 0 then 64 else ((s.part? c).map (·.caddyQuota)).getD 0

/-- The slot a colour's next key takes: of its own 64 for colour 0, else outside slots 0-8,255 (R198, R199). -/
def Keys.slotFor (k : Keys) (c : Colour) : Option Nat :=
  let own := k.freeFrom 8192
  let any := k.freeFrom 8256
  if c = 0 ∧ own < 8256 then some own else if any < 131072 then some any else .none

/-- The least recently used entry that meets a test. -/
def Keys.oldest (k : Keys) (p : CaddyEntry → Bool) : Option CaddyEntry :=
  (k.caddy.filter p).foldl (fun a e => match a with
    | some x => if e.lastUse < x.lastUse then some e else some x
    | .none => some e) .none

/-- The entry to evict (R199); colour 0's own 64 slots serve colour 0 only (R198). -/
def State.victim (s : State) (c : Colour) : Option CaddyEntry :=
  let may := fun (e : CaddyEntry) => c == 0 || e.slots.all fun i => decide (8256 ≤ i)
  match s.keys.oldest fun e => may e && decide (s.caddyQuota (handleColour e.handle) < s.keys.heldBy (handleColour e.handle)) with
  | some e => some e
  | .none => s.keys.oldest fun e => handleColour e.handle == c

/-- Change a colour's caddy counts. -/
def State.caddyCount (s : State) (c : Colour) (f : CaddyCount → CaddyCount) : State :=
  { s with keys := { s.keys with counts := s.keys.counts.set c.toNat (f (s.keys.counts.get c.toNat {})) } }

/-- Evict an entry; nothing is written back. -/
def State.evict (s : State) (e : CaddyEntry) : State :=
  ({ s with keys := { s.keys with caddy := s.keys.caddy.filter fun x => x.handle != e.handle } }).caddyCount (handleColour e.handle)
    fun n => { n with evictions := n.evictions + 1 }

/-- Find slots for a key, evicting as R199 allows; nothing when no choice exists. -/
def State.caddySlotsFor (s : State) (c : Colour) : Nat → List Nat → Nat → Option (State × List Nat)
  | 0, got, _ => some (s, got)
  | n + 1, got, fuel =>
    let taken : CaddyEntry := { handle := 0, slots := got, lastUse := 0, key := { attrs := ⟨0, 0, 0, false, 0, 0, 0, 0, 0, 0, 0⟩, material := [] } }
    match ({ s.keys with caddy := taken :: s.keys.caddy }).slotFor c with
    | some i => State.caddySlotsFor s c n (got ++ [i]) fuel
    | .none =>
      match s.victim c with
      | .none => .none
      | some e =>
        match e.slots with
        | [] => .none
        | i :: _ => if fuel = 0 then .none else State.caddySlotsFor (s.evict e) c n (got ++ [i]) (fuel - 1)

/-- Put a key into the caddy if there is, or can be made, room (R199). -/
def State.caddyInsert (s : State) (c : Colour) (h : Word) (k : Key) (n : Nat) : State :=
  match s.caddySlotsFor c n [] 2 with
  | some (s, sl) =>
    { s with keys := { s.keys with caddy := s.keys.caddy ++ [{ handle := h, slots := sl, lastUse := s.keys.useClock, key := k }],
                                   useClock := s.keys.useClock + 1 } }
  | .none => s

/-- The caddy's entry of a handle of a colour. -/
def State.caddyFind (s : State) (c : Colour) (h : Word) : Option CaddyEntry :=
  if handleOk c h then s.keys.caddy.find? fun e => e.handle == h else .none

/-- Use a caddy entry: a hit. -/
def State.caddyHit (s : State) (c : Colour) (h : Word) : State :=
  ({ s with keys := { s.keys with
      caddy := modFirst (fun e => e.handle == h) (fun e => { e with lastUse := s.keys.useClock }) s.keys.caddy,
      useClock := s.keys.useClock + 1 } }).caddyCount c fun n => { n with hits := n.hits + 1 }

/-- A miss: read the tin, verify its tag, unwrap it and fill a slot (R200). -/
def State.fetchMiss (s : State) (c : Colour) (h : Word) : State × Option Key :=
  let s := s.caddyCount c fun n => { n with misses := n.misses + 1 }
  match s.record c h with
  | .none => (s, .none)
  | some (t, e) =>
    match s.openRecord t e with
    | .none => (s, .none)
    | some k => (s.caddyInsert c h k (caddySlots t.matLen), some k)

/-- Fetch a key by its handle for a colour, from the caddy or the warm store (R200). -/
def State.fetchKey (s : State) (c : Colour) (h : Word) : State × Option Key :=
  match s.caddyFind c h with
  | some e => (s.caddyHit c h, some e.key)
  | .none => s.fetchMiss c h

/-! ## The fixed slots, and writing records -/

/-- Every colour that exists. -/
def State.colours (s : State) : List Colour := s.tenancy.parts.map fun q => BitVec.ofNat 12 q.1

/-- Fill the fixed slots of colours with their tin keys, while the operator master key exists (R198, R204, R545). -/
def State.fillFixed (s : State) (cs : List Colour) : State :=
  let w := fun (b : Bytes) => BitVec.ofNat 256 (beNat b)
  { s with keys := { s.keys with
      partKeys := (cs.filter fixedColour).foldl (fun t c => match s.colourKeysFor s.power.running c (s.epochOf c) with
        | some k => t.set c.toNat (w k.1, w k.2)
        | .none => t) s.keys.partKeys } }

/-- Form the tin keys of colours: the operator master key's tin is fetched for that (R198). -/
def State.formPartKeys (s : State) (cs : List Colour) : State := if s.omk.isNone then s else (s.fetchKey 0 1).1.fillFixed cs

/-- Write a record to the warm store; a tin written while a carry is open is carried as well
(R216). With the operator master key the keys of every colour are formed (R545). -/
def State.putRecord (s : State) (h : Word) (t : Tin) (e : Bytes) : State :=
  let s := s.dropHandle h
  let s := { s with keys := { s.keys with warm := s.keys.warm.set h.toNat (.live t e) } }
  let s := if h = 1 then s.formPartKeys s.colours else s
  match s.keys.carry with
  | some c => { s with keys := { s.keys with carry := some { c with stream := c.stream ++ [(t, e)], ended := false } } }
  | .none => s

/-- Make and store a record for key material under a handle, with a version; an extended key draws a fresh extension key
(R185, R186). Nothing when the wrapping keys do not exist. -/
def State.makeRecord (s : State) (ctx : Byte) (h : Word) (a : KeyAttrs) (version : BitVec 32) (material : Bytes) : Option State :=
  (s.tinKeys ctx a.colour).map fun k =>
    let ext := typeExtended a.ktype
    let x := s.hubBytes 32
    let t : Tin := { attrs := a, extended := ext, context := ctx, matLen := 0, handle := h, version := version, wrapped := [], tag := 0 }
    let t := t.sealed k.1 k.2 (if ext then x else material)
    if ext then (s.hubRead 32).putRecord h t (extSeal x h version a.param material) else s.putRecord h t []

end Sys2Proof.Machine
end

