-- ==== Sys2Proof/Machine/Library.lean ====
section
/-! DEFINITION. What the manual states of the vendor library's routines (R88, R189, R247, R248): the usage bits their work needs, the token
records of a unit, and what FF1.TOKENISE makes of a unit it has read. The instructions in between are the library's own and come as
commands (log entry 58). -/

namespace Sys2Proof.Machine

/-- Whether a seat runs in the routine of a waymark. -/
def Seat.within (t : Seat) (w : Nat) : Bool := t.world == .vendor && t.waymark.toNat == w

/-- Whether a MAC waymark was asked to verify: g4 as passed is 1 (Table 2.19). -/
def Seat.asksVerify (t : Seat) : Bool := t.passed.any fun p => p.1[3]? == some 1

/-- The usage bit that makes or checks a MAC in a MAC waymark (Table 6.5). -/
def Seat.macBit (t : Seat) : Nat := if t.asksVerify then uMacVerify else uMacGen

/-- The usage bits, any of which lets a block step use a key: ENCRYPT or DECRYPT; within the PIN, CVV and ISO/IEC 9797-1 routines, which
are built of such steps, the bit of that work (R189, Table 6.5; DEDUCED, log entry 58). -/
def Seat.dataBits (t : Seat) (dec : Bool) : List Nat :=
  if t.within 0x020 then [uPin]
  else if t.within 0x030 || t.within 0x031 then [uCvv]
  else if t.within 0x040 || t.within 0x041 then [t.macBit]
  else (if dec then uDecrypt else uEncrypt) :: if t.within 0x050 then [uPin] else []

/-- The usage bits, any of which lets a CMAC step use a key (R189). -/
def Seat.macBits (t : Seat) : List Nat := if t.within 0x042 then [t.macBit] else [uMacGen, uMacVerify]

/-! ## Token records (Table 7.8, R247) -/

/-- The numerals of a BCD field, up to the first padding nibble. -/
def bcdDigits (b : Bytes) : Bytes :=
  (b.flatMap fun (x : Byte) => ([x >>> 4, x &&& 0x0F] : Bytes)).takeWhile fun x => decide (x.toNat < 10)

/-- Numerals as BCD in a number of bytes, right-padded with 0xF. -/
def bcdField (n : Nat) (d : Bytes) : Bytes :=
  (List.range n).map fun i => ((d.getD (2 * i) 0xF) <<< 4) ||| d.getD (2 * i + 1) 0xF

/-- A token record. -/
structure TokenRecord where
  state     : Byte
  requestor : Bytes
  pan       : Bytes
  token     : Bytes
  created   : BitVec 48
  expiry    : BitVec 48
  deriving DecidableEq, Repr

/-- The 64 bytes of a record; `pan` and `token` are numerals. -/
def TokenRecord.bytes (r : TokenRecord) : Bytes :=
  [1, r.state, BitVec.ofNat 8 r.pan.length, 0] ++ padTo 4 r.requestor ++ bcdField 10 r.pan ++ bcdField 10 r.token ++
    natBE 6 r.created.toNat ++ natBE 6 r.expiry.toNat ++ List.replicate 24 0

/-- The record 64 bytes spell. -/
def TokenRecord.ofBytes (b : Bytes) : TokenRecord :=
  { state := BitVec.ofNat 8 (fieldBE b 1 1), requestor := slice b 4 4, pan := (bcdDigits (slice b 8 10)).take (fieldBE b 2 1),
    token := bcdDigits (slice b 0x12 10), created := BitVec.ofNat 48 (fieldBE b 0x1C 6), expiry := BitVec.ofNat 48 (fieldBE b 0x22 6) }

/-- The 64 records of a unit, in order. -/
def unitRecords (unit : Bytes) : List Bytes := chunks 64 unit

/-- The token of the first active record of a PAN (R248, step 2). -/
def findToken (unit pan : Bytes) : Option Bytes :=
  ((unitRecords unit).find? fun b => fieldBE b 0 1 == 1 && fieldBE b 1 1 == 1 && (TokenRecord.ofBytes b).pan == pan).map
    fun b => (TokenRecord.ofBytes b).token

/-- The lowest free slot of a unit: 64 zero bytes (R247). -/
def freeSlot (unit : Bytes) : Option Nat := (unitRecords unit).findIdx? allZero

/-! ## FF1.TOKENISE (R248) -/

/-- What a call of FF1.TOKENISE starts from: the PAN at g2 in the message window, the unit in g3. -/
def State.tokenCall (s : State) (u : SeatRef) (t : Seat) (w : BitVec 11) : Option Tokenise :=
  if w = 0x070 then
    some { unit := t.reg 3, pan := bcdDigits (s.load (storeBase u.cluster + windowOff u + (t.reg 2).toNat % 0x4000) 10), tries := 0,
           token := [], stage := .reading }
  else .none

/-- The result of a call, from the vault's answer: a unit read is searched; a write that met another version is tried again, up to three
times; any other status is 0x100 plus it. -/
def Tokenise.answered (k : Tokenise) (w : VaultWait) (r : VaultReply) : Tokenise :=
  let failed := { k with stage := .done (BitVec.ofNat 64 (0x100 + r.status)) }
  if w.isPut then
    if r.status = 0 then { k with stage := .done 1 }
    else if r.status = 1 ∧ k.tries < 3 then { k with tries := k.tries + 1, stage := .reading }
    else failed
  else if r.status ≠ 0 then failed
  else
    let unit := r.plain.getD []
    match findToken unit k.pan, freeSlot unit with
    | some d, _ => { k with token := d, stage := .done 0 }
    | .none, some i => { k with stage := .fresh w.addr i }
    | .none, .none => { k with stage := .done 2 }

/-- The routine of a seat takes an answer of the vault for its unit. -/
def State.tokenReply (s : State) (u : SeatRef) (w : VaultWait) (r : VaultReply) : State :=
  let t := s.seat u
  match t.tok with
  | some k => if t.within 0x070 && w.rel == k.unit then s.setSeat u { t with tok := some (k.answered w r) } else s
  | .none => s

/-- C.FF1E gives the routine its token: the new record is built in the unit's free slot, active, without expiry; its requestor, which the
call does not name, is free (R247, log entry 58). -/
def State.tokenMade (s : State) (u : SeatRef) (t : Seat) (digits : Bytes) : State × Seat :=
  match t.tok with
  | some k =>
    match k.stage with
    | .fresh a i =>
      if t.within 0x070 then
        let x : TokenRecord := { state := 1, requestor := s.freeBytes 4, pan := k.pan, token := digits, created := s.time.secs, expiry := 0 }
        ((s.drawnBytes 4).store (scratchBase u + a + 64 * i) x.bytes, { t with tok := some { k with token := digits, stage := .writing } })
      else (s, t)
    | _ => (s, t)
  | .none => (s, t)

/-- What FF1.TOKENISE returns: its result in g1, and a token's numerals, one to a byte, in b0 and b1 (log entry 58). -/
def Seat.tokenResults (t : Seat) : Seat :=
  match t.tok with
  | some k =>
    match k.stage with
    | .done v =>
      let d := padTo 32 k.token
      let t := { t.setReg 1 v with tok := .none }
      if v = 0 ∨ v = 1 then (t.setBlk 0 (toBlock (d.take 16))).setBlk 1 (toBlock (d.drop 16)) else t
    | _ => { t with tok := .none }
  | .none => t

end Sys2Proof.Machine
end

