-- ==== Sys2Proof/Machine/TeInteger.lean ====
section
/-! DEFINITION. The integer and immediate instructions (R49-R51, Tables 2.5-2.7). -/

namespace Sys2Proof.Machine

/-- An instruction that writes rd from two register values at a cost. -/
def regOp (u : SeatRef) (rd rs1 rs2 : Fin 32) (cost : Nat) (f : Word → Word → Word) (s : State) : Res :=
  runPlain u s fun s t => .next s (t.setReg rd (f (t.reg rs1) (t.reg rs2))) cost

/-- An instruction that writes rd from a register value, one cycle. -/
def immOp (u : SeatRef) (rd rs1 : Fin 32) (f : Word → Word) (s : State) : Res :=
  runPlain u s fun s t => .next s (t.setReg rd (f (t.reg rs1))) 1

/-- The shift or rotate amount of a register (R49). -/
def shiftAmount (w : Word) : Nat := w.toNat % 64

/-- 1 or 0 as a word. -/
def flagWord (b : Bool) : Word := if b then 1 else 0

/-- A word with its byte order reversed. -/
def byteSwap (w : Word) : Word := BitVec.ofNat 64 (leNat (natBE 8 w.toNat))

/-- ADD. -/
def execAdd (u : SeatRef) (rd rs1 rs2 : Fin 32) (s : State) : Res := regOp u rd rs1 rs2 1 (· + ·) s

/-- SUB. -/
def execSub (u : SeatRef) (rd rs1 rs2 : Fin 32) (s : State) : Res := regOp u rd rs1 rs2 1 (· - ·) s

/-- AND. -/
def execAnd (u : SeatRef) (rd rs1 rs2 : Fin 32) (s : State) : Res := regOp u rd rs1 rs2 1 (· &&& ·) s

/-- OR. -/
def execOr (u : SeatRef) (rd rs1 rs2 : Fin 32) (s : State) : Res := regOp u rd rs1 rs2 1 (· ||| ·) s

/-- XOR. -/
def execXor (u : SeatRef) (rd rs1 rs2 : Fin 32) (s : State) : Res := regOp u rd rs1 rs2 1 (· ^^^ ·) s

/-- SLL. -/
def execSll (u : SeatRef) (rd rs1 rs2 : Fin 32) (s : State) : Res :=
  regOp u rd rs1 rs2 1 (fun a b => a <<< shiftAmount b) s

/-- SRL. -/
def execSrl (u : SeatRef) (rd rs1 rs2 : Fin 32) (s : State) : Res :=
  regOp u rd rs1 rs2 1 (fun a b => a >>> shiftAmount b) s

/-- SRA. -/
def execSra (u : SeatRef) (rd rs1 rs2 : Fin 32) (s : State) : Res :=
  regOp u rd rs1 rs2 1 (fun a b => a.sshiftRight (shiftAmount b)) s

/-- ROL. -/
def execRol (u : SeatRef) (rd rs1 rs2 : Fin 32) (s : State) : Res :=
  regOp u rd rs1 rs2 1 (fun a b => a.rotateLeft (shiftAmount b)) s

/-- SLT. -/
def execSlt (u : SeatRef) (rd rs1 rs2 : Fin 32) (s : State) : Res :=
  regOp u rd rs1 rs2 1 (fun a b => flagWord (a.slt b)) s

/-- SLTU. -/
def execSltu (u : SeatRef) (rd rs1 rs2 : Fin 32) (s : State) : Res :=
  regOp u rd rs1 rs2 1 (fun a b => flagWord (a.ult b)) s

/-- MUL. -/
def execMul (u : SeatRef) (rd rs1 rs2 : Fin 32) (s : State) : Res := regOp u rd rs1 rs2 3 (· * ·) s

/-- MULHU. -/
def execMulhu (u : SeatRef) (rd rs1 rs2 : Fin 32) (s : State) : Res :=
  regOp u rd rs1 rs2 4 (fun a b => BitVec.ofNat 64 (a.toNat * b.toNat / 2 ^ 64)) s

/-- BSWAP. -/
def execBswap (u : SeatRef) (rd rs1 : Fin 32) (s : State) : Res := immOp u rd rs1 byteSwap s

/-- CMOVZ: rd is unchanged unless rs2 is zero. -/
def execCmovz (u : SeatRef) (rd rs1 rs2 : Fin 32) (s : State) : Res :=
  runPlain u s fun s t => .next s (if t.reg rs2 = 0 then t.setReg rd (t.reg rs1) else t) 1

/-- ADDI. -/
def execAddi (u : SeatRef) (rd rs1 : Fin 32) (imm : BitVec 16) (s : State) : Res := immOp u rd rs1 (· + sx imm) s

/-- ANDI. -/
def execAndi (u : SeatRef) (rd rs1 : Fin 32) (imm : BitVec 16) (s : State) : Res :=
  immOp u rd rs1 (· &&& imm.zeroExtend 64) s

/-- ORI. -/
def execOri (u : SeatRef) (rd rs1 : Fin 32) (imm : BitVec 16) (s : State) : Res :=
  immOp u rd rs1 (· ||| imm.zeroExtend 64) s

/-- XORI. -/
def execXori (u : SeatRef) (rd rs1 : Fin 32) (imm : BitVec 16) (s : State) : Res :=
  immOp u rd rs1 (· ^^^ imm.zeroExtend 64) s

/-- SLTI. -/
def execSlti (u : SeatRef) (rd rs1 : Fin 32) (imm : BitVec 16) (s : State) : Res :=
  immOp u rd rs1 (fun a => flagWord (a.slt (sx imm))) s

/-- The operation SHI's imm16[7:6] selects (Table 2.6). -/
def shiOp (imm : BitVec 16) (a : Word) : Word :=
  let n := imm.toNat % 64
  match imm.toNat / 64 % 4 with
  | 0 => a <<< n
  | 1 => a >>> n
  | 2 => a.sshiftRight n
  | _ => a.rotateLeft n

/-- SHI: imm16[15:8] must be zero, or the instruction is illegal (R46). -/
def execShi (u : SeatRef) (rd rs1 : Fin 32) (imm : BitVec 16) (s : State) : Res :=
  runPlain u s fun s t => if 256 ≤ imm.toNat then .exc s 0x01 else .next s (t.setReg rd (shiOp imm (t.reg rs1))) 1

/-- A word with one quarter replaced (INSQ). -/
def insertQuarter (w : Word) (q : Fin 4) (imm : BitVec 16) : Word :=
  (w &&& ~~~(0xFFFF#64 <<< (16 * q.val))) ||| (imm.zeroExtend 64 <<< (16 * q.val))

/-- INSQ. -/
def execInsq (u : SeatRef) (rd : Fin 32) (q : Fin 4) (imm : BitVec 16) (s : State) : Res :=
  runPlain u s fun s t => .next s (t.setReg rd (insertQuarter (t.reg rd) q imm)) 1

/-- The milepost a read by index 0x0005, or 0x0006 (`low`), shows: the sample of the other half when that was the very
last instruction (R51). -/
def readMilepost (s : State) (t : Seat) (low : Bool) : BitVec 48 × BitVec 32 × BitVec 16 :=
  match t.sample with
  | some (l, x) => if l = low then (s.time.secs, s.time.nanos, s.time.frac) else x
  | .none => (s.time.secs, s.time.nanos, s.time.frac)

/-- Keep a first half's sample for the next instruction; a second half ends the pair (R51). -/
def Seat.keepSample (t : Seat) (low : Bool) (x : BitVec 48 × BitVec 32 × BitVec 16) : Seat :=
  { t with sample := if t.sample.any (fun y => y.1 != low) then .none else some (low, x) }

/-- The source identifier of an expander. -/
def srcExpander (e : Nat) : BitVec 16 := if e = 36 then srcHub 0x0C else srcCluster e 0x13

/-- Whether an expander is held, as it is during its known-answer test (R382, Table 14.5). -/
def State.expanderHeld (s : State) (e : Nat) : Bool := s.steward.holds.contains (srcExpander e)

/-- Take 8 bytes of an expander's output, the oldest first; a read of an expander that failed its test or is held stalls
(R417, R421, R423). -/
def State.takeRandom (s : State) (e : Nat) : Option (Word × State) :=
  let x := s.expander e
  if x.buffer.length < 8 ∨ x.katFailed ∨ s.expanderHeld e then .none
  else some (BitVec.ofNat 64 (fieldBE x.buffer 0 8), s.setExpander e { x with buffer := x.buffer.drop 8 })

/-- Take up to `n` bytes of an expander's output, none while it stalls (R417). -/
def State.takeBytes (s : State) (e n : Nat) : Bytes × State :=
  let x := s.expander e
  if x.katFailed ∨ s.expanderHeld e then ([], s) else (x.buffer.take n, s.setExpander e { x with buffer := x.buffer.drop n })

/-- Ask the kettle for a draw for an expander, unless it already waits (R414). -/
def State.askDraw (s : State) (e : Nat) : State :=
  if s.entropy.draws.contains (.expander e) then s
  else { s with entropy := { s.entropy with draws := s.entropy.draws ++ [.expander e] } }

/-- An expander that is not seeded, or whose reseed is required, asks for its draw (R419, R420). -/
def State.seedExpander (s : State) (e : Nat) : State :=
  let x := s.expander e
  if x.seeded && !x.required then s else (s.setExpander e { x with requested := true }).askDraw e

/-- A system value of Table 2.7 that takes one cycle, or none for an index the table does not define. -/
def sysValue (u : SeatRef) (t : Seat) (i : Nat) : Option Word :=
  match i with
  | 0x0 => some t.desc.ticket
  | 0x1 => some (t.desc.seq.zeroExtend 64)
  | 0x2 => some (t.desc.colour.zeroExtend 64)
  | 0x3 => some (BitVec.ofNat 64 t.desc.len)
  | 0x4 => some (t.desc.id.zeroExtend 64)
  | 0x7 => some (BitVec.ofNat 64 t.cycles)
  | 0x8 => some ((srcTe u).zeroExtend 64)
  | 0x9 => some (t.status.zeroExtend 64)
  | _ => .none

/-- SYS (Table 2.7): an undefined index is illegal; index 0x0010 waits while the expander has no output. -/
def execSys (u : SeatRef) (rd : Fin 32) (idx : BitVec 16) (s : State) : Res :=
  runTe u s fun s t =>
    let plain := { t with sample := .none }
    match idx.toNat with
    | 0x5 =>
      let x := readMilepost s t false
      .next s ((t.keepSample false x).setReg rd (x.1.zeroExtend 64)) 1
    | 0x6 =>
      let x := readMilepost s t true
      .next s ((t.keepSample true x).setReg rd ((x.2.1.zeroExtend 64 <<< 16) ||| x.2.2.zeroExtend 64)) 1
    | 0x10 =>
      match s.takeRandom u.cluster with
      | some (v, s) => .next s (plain.setReg rd v) 4
      | .none =>
        let e := s.expander u.cluster
        .wait ((s.setExpander u.cluster { e with waiting := e.waiting ++ [.seat u] }).seedExpander u.cluster) { plain with phase := .drbgWait rd } 0
    | i =>
      match sysValue u t i with
      | some v => .next s (plain.setReg rd v) 1
      | .none => .exc s 0x01

end Sys2Proof.Machine
end

