-- ==== Sys2Proof/Machine/KeyBlock.lean ====
section
/-! DEFINITION. ANSI X9.143 key blocks of versions "D" and "B" (R208-R210, Table 6.9); what the manual leaves to the
standard is PRESUMED (log entry 9). -/

namespace Sys2Proof.Machine

/-! ## Text -/

/-- One hexadecimal digit. -/
def hexDigit (n : Nat) : Byte := BitVec.ofNat 8 (if n < 10 then 48 + n else 55 + n)

/-- Bytes as hexadecimal text. -/
def hexText (b : Bytes) : Bytes := b.flatMap fun x => [hexDigit (x.toNat / 16), hexDigit (x.toNat % 16)]

/-- A number as decimal text of a width. -/
def decText : Nat → Nat → Bytes
  | 0, _ => []
  | w + 1, n => decText w (n / 10) ++ [BitVec.ofNat 8 (48 + n % 10)]

/-- The value of a hexadecimal digit. -/
def hexVal (b : Byte) : Option Nat :=
  let n := b.toNat
  if 48 ≤ n ∧ n ≤ 57 then some (n - 48) else if 65 ≤ n ∧ n ≤ 70 then some (n - 55) else .none

/-- Bytes from hexadecimal text. -/
def hexBytes : Bytes → Option Bytes
  | [] => some []
  | [_] => .none
  | a :: b :: r =>
    match hexVal a, hexVal b, hexBytes r with
    | some x, some y, some z => some (BitVec.ofNat 8 (16 * x + y) :: z)
    | _, _, _ => .none

/-- A number from decimal text. -/
def decNumber (b : Bytes) : Option Nat :=
  b.foldl (fun a x => match a, hexVal x with
    | some n, some d => if d < 10 then some (10 * n + d) else .none
    | _, _ => .none) (some 0)

/-! ## The block's keys and checks -/

/-- The encryption (0) or MAC (1) key of a block, derived from the wrapping key. -/
def kbKey (tdes : Bool) (key : Bytes) (use : Nat) : Bytes :=
  let n := key.length
  let alg := if tdes then (if n = 16 then 0 else 1) else n / 8
  let step := blockLen tdes
  ((List.range (ceilDiv n step)).flatMap fun i =>
    (blockBytes (cmac tdes key (natBE 1 (i + 1) ++ natBE 2 use ++ [0] ++ natBE 2 alg ++ natBE 2 (8 * n)))).take step).take n

/-- A key's check value: by CMAC of a zero block, or by encrypting one. -/
def checkValue (tdes viaCmac : Bool) (key : Bytes) : Bytes :=
  let bl := blockLen tdes
  (blockBytes (if viaCmac then cmac tdes key (List.replicate bl 0) else cipherEnc tdes key 0)).take bl

/-- The text of a KC block for a key. -/
def kcBlock (tdes : Bool) (key : Bytes) : Bytes :=
  if tdes then ascii "KC0C00" ++ hexText ((checkValue true false key).take 3)
  else ascii "KC1001" ++ hexText ((checkValue false true key).take 5)

/-! ## Attributes (Table 6.9) -/

/-- Usage bits by their numbers. -/
def usageMask (l : List Nat) : BitVec 16 := l.foldl (fun a i => a ||| (1#16 <<< i)) 0

/-- Engine classes by their numbers. -/
def engineMask (l : List Nat) : BitVec 6 := l.foldl (fun a i => a ||| (1#6 <<< i)) 0

/-- What a usage, algorithm and mode of use give. -/
structure KbMap where
  usage   : BitVec 16
  derived : BitVec 16
  engine  : BitVec 6
  libOnly : Bool
  deriving DecidableEq, Repr

/-- The directions of a mode of use: encrypting or wrapping, decrypting or unwrapping. -/
def kbDirections (mode : Byte) (fwd bwd : Nat) : Option (BitVec 16) :=
  if mode = 66 then some (usageMask [fwd, bwd]) else if mode = 69 then some (usageMask [fwd])
  else if mode = 68 then some (usageMask [bwd]) else .none

/-- The MAC usages of a mode of use. -/
def kbMac (mode : Byte) : Option (BitVec 16) :=
  if mode = 67 then some (usageMask [uMacGen, uMacVerify]) else if mode = 71 then some (usageMask [uMacGen])
  else if mode = 86 then some (usageMask [uMacVerify]) else .none

/-- Table 6.9: the attributes of a usage code (2 letters), an algorithm letter and a mode letter. -/
def kbMap (use : Bytes) (alg mode : Byte) : Option KbMap :=
  let aes := alg == 65
  let tdes := alg == 84
  let any := aes || tdes
  let drv := usageMask [uEncrypt, uDecrypt, uMacGen, uMacVerify]
  let pin := usageMask [uPin, uEncrypt, uDecrypt, uMacGen, uMacVerify]
  let te := engineMask [eTeCipher]
  let plain := fun (u : Option (BitVec 16)) (e : BitVec 6) (lib : Bool) => u.map fun x => KbMap.mk x 0 e lib
  if (use = ascii "B0" ∨ use = ascii "B1") ∧ aes ∧ mode = 88 then some ⟨usageMask [uDerive], pin, te, true⟩
  else if use = ascii "C0" ∧ any ∧ (kbMac mode).isSome then some ⟨usageMask [uCvv], 0, te, true⟩
  else if use = ascii "D0" ∧ any then plain (kbDirections mode uEncrypt uDecrypt) (engineMask [eTeCipher, eBulk]) false
  else if use = ascii "E0" ∧ any ∧ mode = 88 then some ⟨usageMask [uDerive], drv, te, true⟩
  else if use = ascii "K0" ∧ any then plain (kbDirections mode uWrap uUnwrap) (engineMask [eExportWrap]) false
  else if (use = ascii "M1" ∨ use = ascii "M3") ∧ tdes then plain (kbMac mode) te false
  else if use = ascii "M6" ∧ aes then plain (kbMac mode) te false
  else if use = ascii "P0" ∧ any ∧ (kbDirections mode 0 1).isSome then some ⟨usageMask [uPin], 0, te, true⟩
  else .none

/-- The usage and mode codes an export may carry, in the order it tries them. -/
def kbCodes : List (Bytes × Byte) :=
  [(ascii "B0", 88), (ascii "E0", 88), (ascii "C0", 67), (ascii "P0", 66)] ++
  ([ascii "D0", ascii "K0"].flatMap fun u => [(u, 66), (u, 69), (u, 68)]) ++
  ([ascii "M1", ascii "M6"].flatMap fun u => [(u, 67), (u, 71), (u, 86)])

/-! ## Import (R208, R209) -/

/-- The optional blocks of a header, each an identifier and its data; and the rest of the text. -/
def kbOptional : Nat → Bytes → Option (List (Bytes × Bytes) × Bytes)
  | 0, b => some ([], b)
  | n + 1, b =>
    match hexBytes (slice b 2 2) with
    | some [l] =>
      if l.toNat < 4 ∨ b.length < l.toNat then .none
      else (kbOptional n (b.drop l.toNat)).map fun r => ((b.take 2, slice b 4 (l.toNat - 4)) :: r.1, r.2)
    | _ => .none

/-- Whether the optional blocks are accepted: PB, and KC equal to the key's check value (R209). -/
def kbOptionsOk (tdes : Bool) (key : Bytes) (l : List (Bytes × Bytes)) : Bool :=
  l.all fun o =>
    if o.1 = ascii "PB" then true
    else if o.1 = ascii "KC" then
      match hexBytes o.2 with
      | some (a :: v) => (a == 0 || a == 1) && !v.isEmpty && (checkValue tdes (a == 1) key).take v.length == v
      | _ => false
    else false

/-- The clear key and its authenticity in a block under a wrapping key: nothing when the block fails. -/
def kbOpen (tdes : Bool) (wrapKey block : Bytes) : Option (Bytes × Bytes × List (Bytes × Bytes)) :=
  match decNumber (slice block 12 2), decNumber (slice block 1 4) with
  | some nopt, some len =>
    match kbOptional nopt (block.drop 16) with
    | some (opts, rest) =>
      let hd := block.take (block.length - rest.length)
      let bl := blockLen tdes
      match hexBytes rest with
      | some raw =>
        let ct := raw.take (raw.length - bl)
        let mac := raw.drop (raw.length - bl)
        if len = block.length ∧ 2 * bl ≤ raw.length ∧ ct.length ≤ 128 ∧ ct.length % bl = 0 ∧ hd.length % bl = 0 then
          let pt := cbcDec tdes (kbKey tdes wrapKey 0) (toBlock mac) ct
          let n := fieldBE pt 0 2
          if (blockBytes (cmac tdes (kbKey tdes wrapKey 1) (hd ++ pt))).take bl = mac ∧ n % 8 = 0 ∧ 2 + n / 8 ≤ pt.length then
            some (hd, slice pt 2 (n / 8), opts)
          else .none
        else .none
      | .none => .none
    | .none => .none
  | _, _ => .none

/-- The 64-bit semiblocks of a block's encrypted part, which set the cost of an unwrap (Table 2.12, R541). -/
def kbSemiblocks (tdes : Bool) (block : Bytes) : Nat :=
  match (decNumber (slice block 12 2)).bind fun n => kbOptional n (block.drop 16) with
  | some (_, rest) => (rest.length / 2 - blockLen tdes) / 8
  | .none => 0

/-- The key type of an algorithm letter and a length. -/
def kbType (alg : Byte) (n : Nat) : Option Byte :=
  if alg = 65 then (if n = 16 then some 1 else if n = 24 then some 2 else if n = 32 then some 3 else .none)
  else if alg = 84 then (if n = 16 then some 4 else if n = 24 then some 5 else .none)
  else .none

/-- The key a block imports under a wrapping key, for a colour and generation (R208, R209, Table 6.9). -/
def kbImport (w : Key) (c : Colour) (g : Byte) (block : Bytes) : Option Key :=
  let tdes := typeTdes w.attrs.ktype
  let version : Byte := if tdes then 66 else 68
  let alg := block.getD 7 0
  let ex := block.getD 11 0
  if block.getD 0 0 = version ∧ w.may uUnwrap ∧ w.enters eExportWrap ∧ (typeAes w.attrs.ktype ∨ tdes) ∧
      (ex = 69 ∨ ex = 78 ∨ ex = 83) ∧ slice block 14 2 = ascii "00" then
    match kbOpen tdes w.material block, kbMap (slice block 5 2) alg (block.getD 8 0) with
    | some (_, k, opts), some m =>
      match kbType alg k.length with
      | some ty =>
        if kbOptionsOk (typeTdes ty) k opts then
          some { attrs := { ktype := ty, colour := c, gen := g, libOnly := m.libOnly, engine := m.engine,
                            derivedEngine := if m.derived = 0 then 0 else engineMask [eTeCipher],
                            usage := if ex = 69 then m.usage ||| usageMask [uExportable] else m.usage, derivedUsage := m.derived,
                            param := 0, notBefore := w.attrs.notBefore, notAfter := w.attrs.notAfter },
                 material := k }
        else .none
      | .none => .none
    | _, _ => .none
  else .none

/-! ## Export (R210) -/

/-- Whether a wrapping key is at least as strong as the key it wraps. -/
def kbStrong (w k : Key) : Bool :=
  if typeTdes w.attrs.ktype then typeTdes k.attrs.ktype
  else typeAes w.attrs.ktype && (!typeAes k.attrs.ktype || decide (k.material.length ≤ w.material.length))

/-- The conditions of an export (R210). -/
def kbMayExport (w k : Key) : Bool :=
  k.may uExportable && w.attrs.colour == k.attrs.colour && w.may uWrap && w.enters eExportWrap && kbStrong w k &&
    (typeAes k.attrs.ktype || typeTdes k.attrs.ktype)

/-- The usage and mode codes of a key, where Table 6.9 has them. -/
def kbCodeOf (k : Key) : Option (Bytes × Byte) :=
  let alg : Byte := if typeAes k.attrs.ktype then 65 else 84
  kbCodes.find? fun c => (kbMap c.1 alg c.2).any fun m =>
    (m.usage ||| usageMask [uExportable]) == k.attrs.usage && m.derived == k.attrs.derivedUsage && m.engine == k.attrs.engine

/-- The block an export writes, and the state after its free bytes: the padding, and the usage and mode codes of a key
whose attributes Table 6.9 does not have. -/
def State.kbExport (s : State) (w k : Key) : Bytes × State :=
  let wt := typeTdes w.attrs.ktype
  let kt := typeTdes k.attrs.ktype
  let bl := blockLen wt
  let n := k.material.length
  let pad := (bl - (2 + n) % bl) % bl
  let r := s.freeBytes (pad + 3)
  let code := (kbCodeOf k).getD (r.take 2, r.getD 2 0)
  let kc := kcBlock kt k.material
  let fill := (bl - kc.length % bl) % bl
  let pb := if fill = 0 then [] else
    let l := if fill < 4 then fill + bl else fill
    ascii "PB" ++ hexText [BitVec.ofNat 8 l] ++ List.replicate (l - 4) 48
  let pt := natBE 2 (8 * n) ++ k.material ++ r.drop 3
  let total := 16 + kc.length + pb.length + 2 * (pt.length + bl)
  let hd := [if wt then 66 else 68] ++ decText 4 total ++ code.1 ++ [if kt then 84 else 65, code.2] ++ ascii "00N" ++
    decText 2 (if pb.isEmpty then 1 else 2) ++ ascii "00" ++ kc ++ pb
  let mac := (blockBytes (cmac wt (kbKey wt w.material 1) (hd ++ pt))).take bl
  (hd ++ hexText (cbcEnc wt (kbKey wt w.material 0) (toBlock mac) pt ++ mac), s.drawnBytes (pad + 3))

end Sys2Proof.Machine
end

