-- ==== Sys2Proof/Machine/TeKey.lean ====
section
/-! DEFINITION. The key instructions (R63, R126, R195, R197) and the completion of a caddy miss (R200). -/

namespace Sys2Proof.Machine

/-- Load a key into a slot: it is library-only if its tin is (R192). -/
def State.loadSlot (s : State) (u : SeatRef) (t : Seat) (k : Fin 8) (key : Key) : State × Seat :=
  s.fillSlot u t k key key.attrs.libOnly

/-- K.LOAD: a hit fills the slot; a miss waits for the warm store (R200). -/
def execKLoad (u : SeatRef) (k : Fin 8) (g : Fin 32) (s : State) : Res :=
  runPlain u s fun s t =>
    let h := t.reg g
    match s.caddyFind t.desc.colour h with
    | some e =>
      let r := (s.caddyHit t.desc.colour h).drawn.loadSlot u t k e.key
      .next r.1 r.2 (s.waitCost u.cluster 60)
    | .none => .wait s { t with phase := .caddyWait k h } 0

/-- CADDY_MISS_FILL: the slot is filled, or KEY_MISSING is raised, after the time of a miss (R200). -/
def execCaddyMissFill (u : SeatRef) (s : State) : Res :=
  checked u.ok
    (match (s.seat u).phase with
    | .caddyWait k h =>
      let t := { s.seat u with phase := .running }
      let cost := s.waitCost u.cluster 600
      match s.drawn.fetchMiss t.desc.colour h with
      | (s, some key) =>
        let r := s.loadSlot u t k key
        finishTe u (.next r.1 r.2 cost)
      | (s, .none) => (s.setSeat u (t.charge cost)).raise u 0x0C
    | _ => s)

/-- K.CLR: the slot is emptied. -/
def execKClr (u : SeatRef) (k : Fin 8) (s : State) : Res := runPlain u s fun s t => .next s (t.emptySlot k) 1

/-- K.ATTR (R193). -/
def execKAttr (u : SeatRef) (k : Fin 8) (g : Fin 32) (s : State) : Res :=
  runEx u s fun s t => do
    let x ← s.useKey t k .none []
    pure (s, t.setReg g (x.key.attrs.word x.libOnly), 1)

/-! ## K.DRV -/

/-- The usage a method may give (Table 6.7): never WRAP, UNWRAP, SETTLE or EXPORTABLE. -/
def drvMask (m : Nat) : BitVec 16 :=
  match m with
  | 1 => usageMask [uEncrypt, uDecrypt, uMacGen, uMacVerify]
  | 2 => usageMask [uEncrypt, uDecrypt, uMacGen, uMacVerify]
  | 3 => usageMask [uDerive, uMacGen, uMacVerify]
  | 4 => ~~~usageMask [uWrap, uUnwrap, uSettle, uExportable]
  | _ => usageMask [uDerive, uPin, uEncrypt, uDecrypt, uMacGen, uMacVerify]

/-- The type a method derives (Table 6.7). -/
def drvType (m : Nat) (parent : Byte) : Byte := if m = 2 ∨ m = 3 then 4 else if m = 4 then 3 else parent

/-- A byte string with another byte at a position. -/
def withByte (b : Bytes) (i : Nat) (v : Byte) : Bytes := b.set i v

/-- The key a method derives (R63; the algorithms are EMV's, NIST's and ANSI's, log entry 9). -/
def drvMaterial (m : Nat) (key : Bytes) (x : Block) : Bytes :=
  let b := blockBytes x
  let des := fun (v : Bytes) => natBE 8 (tdesEnc key (beNat v))
  match m with
  | 1 =>
    if key.length = 16 then aesEncB key b
    else (aesEncB key (withByte b 2 0xF0) ++ aesEncB key (withByte b 2 0x0F)).take key.length
  | 2 => des (withByte (b.take 8) 2 0xF0) ++ des (withByte (b.take 8) 2 0x0F)
  | 3 => des (b.take 8) ++ des ((b.take 8).map (· ^^^ 0xFF))
  | 4 => aesCmac key (Config.kdfInput 1 x) ++ aesCmac key (Config.kdfInput 2 x)
  | _ => (aesEncB key (withByte b 1 1) ++ aesEncB key (withByte b 1 2)).take key.length

/-- The attributes of a derived key (R195). -/
def drvAttrs (m : Nat) (p : KeyAttrs) (lib : Bool) : KeyAttrs :=
  { p with ktype := drvType m p.ktype, libOnly := p.libOnly || lib, usage := p.derivedUsage &&& drvMask m,
           engine := p.derivedEngine &&& engineMask [eTeCipher, eTeDigest], param := 0 }

/-- K.DRV: a method outside 0x01-0x05 is illegal (R46, R195). -/
def execKDrv (u : SeatRef) (x y k : Fin 8) (m : BitVec 6) (s : State) : Res :=
  runEx u s fun s t => do
    let n := m.toNat
    need (decide (1 ≤ n) && decide (n ≤ 5)) 0x01
    let p ← s.useKey t k (some eTeCipher) [uDerive]
    need (!s.tdesForbidden t p) 0x02
    need (if n = 2 ∨ n = 3 then typeTdes p.key.attrs.ktype else typeAes p.key.attrs.ktype) 0x0A
    let a := drvAttrs n p.key.attrs p.libOnly
    need (a.usage != 0) 0x0A
    let r := s.fillSlot u t x { attrs := a, material := drvMaterial n p.key.material (t.blk y) } a.libOnly
    pure (r.1, r.2, if n = 2 ∨ n = 3 then 100 else 2 * p.key.rounds + 4)

/-! ## K.WRAP and K.UNWR -/

/-- The cost of a wrap of `n` semiblocks under a key. -/
def wrapCost (n : Nat) (w : Key) : Nat := 6 * n * w.rounds + 20

/-- A tin of context 0x02 over a slot's key; its handle and version, which the manual does not state, are free. -/
def State.workingTin (s : State) (w x : Key) (lib : Bool) (bind : Bytes) : Tin :=
  ({ attrs := { x.attrs with libOnly := lib }, extended := false, context := 2, matLen := 0, handle := s.free,
     version := s.drawn.free.extractLsb' 0 32, wrapped := [], tag := 0 } : Tin).sealed w.material bind x.material

/-- K.WRAP format 0: a working-key tin (R185). Where the device has no operator master key there is no partition binding key to
tag it under, and KEY_ATTR is raised (DESIGN CHOICE, log entry 54); K.UNWR does the same. -/
def wrapTin (s : State) (u : SeatRef) (t : Seat) (x k : Fin 8) (g : Fin 32) : Except Byte (State × Seat × Nat) := do
  let w ← s.useKey t k (some eTeCipher) [uWrap]
  let q ← s.useKey t x .none []
  need (typeAes w.key.attrs.ktype && !typeExtended q.key.attrs.ktype) 0x0A
  let a ← t.scratchAt u (t.reg g) 128 1
  match s.tinKeys 0 t.desc.colour with
  | .none => .error 0x0A
  | some ks =>
    pure ((s.drawn.drawn.store a (s.workingTin w.key q.key q.libOnly ks.2).bytes), t,
      wrapCost (kwpLen q.key.material.length / 8) w.key)

/-- K.WRAP format 1: a key block (R210). -/
def wrapBlock (s : State) (u : SeatRef) (t : Seat) (x k : Fin 8) (g : Fin 32) : Except Byte (State × Seat × Nat) := do
  let w ← s.useKey t k (some eExportWrap) [uWrap]
  let q ← s.useKey t x .none []
  need (kbMayExport w.key q.key) 0x0A
  let r := s.kbExport w.key q.key
  let a ← t.scratchAt u (t.reg g) r.1.length 1
  let bl := blockLen (typeTdes w.key.attrs.ktype)
  pure (r.2.store a r.1, t, wrapCost (bl * ceilDiv (2 + q.key.material.length) bl / 8) w.key)

/-- K.WRAP: a format above 1 is illegal (R46). -/
def execKWrap (u : SeatRef) (x k : Fin 8) (g : Fin 32) (m : BitVec 6) (s : State) : Res :=
  runEx u s fun s t =>
    if m = 0 then wrapTin s u t x k g else if m = 1 then wrapBlock s u t x k g else .error 0x01

/-- K.UNWR format 0: a working-key tin of the seat's colour and this generation (R185). -/
def unwrapTin (s : State) (u : SeatRef) (t : Seat) (x k : Fin 8) (g : Fin 32) : Except Byte (State × Seat × Nat) := do
  let w ← s.useKey t k (some eTeCipher) [uUnwrap]
  need (typeAes w.key.attrs.ktype) 0x0A
  let a ← t.scratchAt u (t.reg g) 128 1
  let b := s.load a 128
  let n := Tin.ofBytes b
  need (tinFormatOk b && tinReservedZero b && n.context == 2 && n.attrs.colour == t.desc.colour && n.attrs.gen == s.lc.gen &&
    !n.extended) 0x0A
  match s.tinKeys 0 t.desc.colour with
  | .none => .error 0x0A
  | some ks =>
    need (n.tagOk ks.2) 0x0A
    match n.unwrapped w.key.material with
    | .none => .error 0x0A
    | some mat =>
      let r := s.fillSlot u t x { attrs := n.attrs, material := mat } n.attrs.libOnly
      pure (r.1, r.2, wrapCost (kwpLen mat.length / 8) w.key)

/-- K.UNWR format 1: a key block, as long as its header says (R208). -/
def unwrapBlock (s : State) (u : SeatRef) (t : Seat) (x k : Fin 8) (g : Fin 32) : Except Byte (State × Seat × Nat) := do
  let w ← s.useKey t k (some eExportWrap) [uUnwrap]
  let h ← t.scratchAt u (t.reg g) 16 1
  match decNumber (slice (s.load h 16) 1 4) with
  | .none => .error 0x0A
  | some len =>
    let a ← t.scratchAt u (t.reg g) len 1
    match kbImport w.key t.desc.colour s.lc.gen (s.load a len) with
    | .none => .error 0x0A
    | some key =>
      let r := s.fillSlot u t x key key.attrs.libOnly
      pure (r.1, r.2, wrapCost (kbSemiblocks (typeTdes w.key.attrs.ktype) (s.load a len)) w.key)

/-- K.UNWR: a format above 1 is illegal (R46). -/
def execKUnwr (u : SeatRef) (x k : Fin 8) (g : Fin 32) (m : BitVec 6) (s : State) : Res :=
  runEx u s fun s t =>
    if m = 0 then unwrapTin s u t x k g else if m = 1 then unwrapBlock s u t x k g else .error 0x01

/-! ## K.STORE -/

/-- The open intent is for an object (R69). -/
def Seat.intends (t : Seat) (kind : BitVec 11) (obj : Word) : Bool := t.intent.any fun i => i.kind == kind && i.obj == obj

/-- Mark that the effecting call of the open intent was issued and the version it left (R254). -/
def Seat.issued (t : Seat) (left : Word) : Seat := { t with intent := t.intent.map fun i => { i with issued := true, left := left } }

/-- What K.STORE does: its result and the state (R197). A handle of another colour or of record 0, for which the manual
states no result, stores nothing and gives a free result; the handle of a system record counts as taken
(log entry 24). -/
def State.keyStore (s : State) (c : Colour) (h : Word) (x : Slot) : Word × State :=
  let a := { x.key.attrs with colour := c, gen := s.lc.gen, libOnly := x.libOnly }
  if !handleOk c h then (s.free, s.drawn)
  else if s.keys.suspended then (3, s)
  else if (s.tinKeys 0 c).isNone then (4, s)
  else if (s.record c h).isSome ∨ systemHandle h then (1, s)
  else if !s.keyRoom c h (recordSize a.ktype x.key.material.length) then (2, s)
  else match s.makeRecord 0 h a (s.versionOf h + 1) x.key.material with
    | some s => (0, s)
    | .none => (4, s)

/-- K.STORE (R65, R69, R197): the intent is checked before the slot (DESIGN CHOICE, log entry 54). -/
def execKStore (u : SeatRef) (x : Fin 8) (g : Fin 32) (s : State) : Res :=
  runVendor u s fun s t =>
    let h := t.reg g
    if !t.intends 2 h then .exc s 0x0E
    else match s.useKey t x .none [] with
      | .error c => .exc s c
      | .ok q =>
        let r := s.drawn.keyStore t.desc.colour h q
        .next r.2 ((t.issued ((r.2.versionOf h).zeroExtend 64)).setReg g r.1) (s.waitCost u.cluster 2000)

end Sys2Proof.Machine
end

