-- ==== Sys2Proof/Machine/Bercon.lean ====
section
/-! DEFINITION. What every Bercon command shares (chapters 10 and 11): the catalogue's columns, the order of checks
(R349), the journal records of a command (R547), its completion (R328, R332, R333). -/

namespace Sys2Proof.Machine

/-- The admission classes of Table 11.2, and LC.REPROVISION's own. -/
inductive Admit where
  | A | Q | O | C | W
  | erased
  deriving DecidableEq, Repr

/-- Whether a device state admits a class (Table 11.2). -/
def Admit.ok (a : Admit) (d : DevState) : Bool :=
  match a, d with
  | .A, _ => true
  | .Q, .booting => false
  | .Q, _ => true
  | .O, .booting => false
  | .O, .grave => false
  | .O, _ => true
  | .C, .ready => true
  | .C, .tamperErased => true
  | .C, _ => false
  | .W, .ready => true
  | .W, _ => false
  | .erased, .tamperErased => true
  | .erased, _ => false

/-- A row of Tables 11.3-11.8: opcode, whether only the PF issues it, whether it is journalled, its class, whether it
acts on the entry's colour. -/
structure Spec where
  op      : Nat
  pf      : Bool
  journal : Bool
  states  : Admit
  onColour : Bool
  deriving DecidableEq, Repr

/-- The catalogue (Tables 11.3, 11.4). -/
def catalogueA : List Spec :=
  [⟨0x0101, false, false, .A, false⟩, ⟨0x0102, false, false, .A, false⟩, ⟨0x0103, true, false, .Q, false⟩,
   ⟨0x0104, true, false, .W, false⟩, ⟨0x0F01, true, false, .A, false⟩, ⟨0x0F02, true, false, .O, false⟩,
   ⟨0x1001, true, false, .A, false⟩, ⟨0x0D01, false, false, .A, false⟩, ⟨0x0D02, true, false, .C, false⟩,
   ⟨0x0D03, true, false, .erased, false⟩, ⟨0x0D04, true, false, .A, false⟩, ⟨0x0D05, true, false, .C, false⟩,
   ⟨0x0E01, true, false, .Q, false⟩, ⟨0x0E02, true, false, .W, false⟩] ++
  [⟨0x0201, true, true, .W, false⟩, ⟨0x0202, true, true, .W, true⟩, ⟨0x0203, true, true, .W, true⟩,
   ⟨0x0204, true, true, .W, true⟩, ⟨0x0205, true, true, .W, true⟩, ⟨0x0206, false, false, .Q, true⟩,
   ⟨0x0301, true, true, .W, true⟩, ⟨0x0302, true, true, .W, true⟩, ⟨0x0303, true, false, .O, true⟩,
   ⟨0x0304, true, false, .W, true⟩, ⟨0x0305, true, false, .W, true⟩, ⟨0x0306, true, false, .W, true⟩,
   ⟨0x0307, true, true, .W, true⟩, ⟨0x0308, true, false, .Q, true⟩] ++
  [⟨0x0801, true, false, .W, true⟩, ⟨0x0802, false, false, .Q, true⟩, ⟨0x0803, true, false, .W, false⟩,
   ⟨0x0804, true, false, .Q, false⟩, ⟨0x0805, true, false, .Q, false⟩]

/-- The catalogue (Tables 11.5-11.8). -/
def catalogueB : List Spec :=
  [⟨0x0401, false, true, .W, true⟩, ⟨0x0402, false, false, .W, true⟩, ⟨0x0403, false, false, .W, true⟩,
   ⟨0x0404, false, true, .W, true⟩, ⟨0x0405, false, true, .W, true⟩, ⟨0x0406, false, true, .W, true⟩,
   ⟨0x0407, false, true, .W, true⟩, ⟨0x0408, false, false, .W, true⟩, ⟨0x0409, true, false, .W, false⟩,
   ⟨0x040A, true, false, .W, false⟩, ⟨0x040B, false, false, .Q, true⟩, ⟨0x0501, false, false, .W, true⟩,
   ⟨0x0502, false, false, .W, true⟩, ⟨0x0503, false, false, .Q, true⟩, ⟨0x0504, true, true, .W, false⟩,
   ⟨0x0505, true, true, .W, false⟩] ++
  [⟨0x0601, true, true, .W, false⟩, ⟨0x0602, true, true, .W, true⟩, ⟨0x0603, true, true, .W, true⟩,
   ⟨0x0604, true, false, .W, false⟩, ⟨0x0605, false, false, .W, true⟩, ⟨0x0606, true, false, .W, false⟩,
   ⟨0x0607, true, false, .Q, false⟩, ⟨0x0701, false, false, .Q, true⟩, ⟨0x0702, true, false, .Q, false⟩] ++
  [⟨0x0901, true, false, .W, false⟩, ⟨0x0902, false, false, .W, true⟩, ⟨0x0903, false, false, .O, true⟩,
   ⟨0x0904, true, false, .Q, false⟩, ⟨0x0A01, false, false, .Q, false⟩, ⟨0x0A02, true, false, .W, false⟩,
   ⟨0x0B01, true, false, .Q, false⟩, ⟨0x0B02, true, false, .W, false⟩, ⟨0x0B03, true, false, .Q, false⟩] ++
  [⟨0x0C01, true, false, .C, false⟩, ⟨0x0C02, true, false, .C, false⟩, ⟨0x0C03, true, false, .C, false⟩,
   ⟨0x0C04, true, true, .C, false⟩, ⟨0x1101, true, false, .A, false⟩, ⟨0x1102, true, false, .W, false⟩,
   ⟨0x1103, true, true, .W, false⟩]

/-- The catalogue's row of an opcode. -/
def specOf (op : Nat) : Option Spec := (catalogueA ++ catalogueB).find? fun x => x.op == op

/-! ## Completion codes (Table 11.10) -/

/-- Completion codes by name. -/
def cOk : Nat := 0x0000
def cMalformed : Nat := 0x0001
def cUnknownOpcode : Nat := 0x0002
def cNotPermitted : Nat := 0x0003
def cNotReady : Nat := 0x0004
def cUnassigned : Nat := 0x0005
def cBadState : Nat := 0x0006
def cExhausted : Nat := 0x0007
def cBufferFault : Nat := 0x0008
def cInterrupted : Nat := 0x0009
def cTicketInUse : Nat := 0x000A
def cInvalid : Nat := 0x000B
def cNotFound : Nat := 0x000C
def cExists : Nat := 0x000D
def cAuthorisation : Nat := 0x000E
def cOutcomeUnknown : Nat := 0x000F

/-! ## The journal of a command (R547) -/

/-- A command as the journal names it: its colour and ticket, lane index 0, sequence 0, no lane. -/
def cmdDesc (c : Cmd) : Desc := { Desc.none with ticket := c.ticket, colour := c.colour, lane := 16384 }

/-- Write ACCEPTED as a journalled command starts. -/
def State.cmdAccepted (s : State) (c : Cmd) (op : Nat) : State :=
  s.writeMile (s.mile (cmdDesc c) 1 false true 0 (BitVec.ofNat 16 op) (BitVec.ofNat 64 c.body.length) s.stamp)

/-- Open the intent of an object, anchored (R348). -/
def State.cmdIntent (s : State) (c : Cmd) (kind : Nat) (obj : Word) (before : Nat) : State :=
  s.anchor (s.mile (cmdDesc c) 4 true true (BitVec.ofNat 11 kind) 0 obj (BitVec.ofNat 32 before))

/-- Close it with a COMMIT, anchored, after the effect is installed (R254). -/
def State.cmdCommit (s : State) (c : Cmd) (kind : Nat) (obj : Word) (after : Nat) : State :=
  s.anchor (s.mile (cmdDesc c) 5 true true (BitVec.ofNat 11 kind) 0 obj (BitVec.ofNat 32 after))

/-- Leave the intent of a command that ends to its OUTCOME (R254). -/
def State.cmdOrphan (s : State) (c : Cmd) (kind : Nat) (obj : Word) (before : Nat) (issued : Bool) (left : Nat) : State :=
  { s with journal := { s.journal with orphans := s.journal.orphans ++
      [{ record := s.mile (cmdDesc c) 4 true true (BitVec.ofNat 11 kind) 0 obj (BitVec.ofNat 32 before), issued := issued,
         left := BitVec.ofNat 64 left, unknown := false, settled := true }] } }

/-- Whether a record begins a use of a ticket: ACCEPTED, or the SETTLED record a use was compacted into. -/
def Milestone.begins (m : Milestone) : Bool := m.typ == 1 || m.typ == 0x0B

/-- The record that begins the last use of a ticket among its records: the one accepted later, by the Depot's numbers or, for a command,
which has none, by its place (R260). Of a use whose beginning is lost, the last record stands for it. -/
def lastBegin (rs : List Milestone) : Option Milestone :=
  match rs.filter Milestone.begins with
  | m :: r => some (r.foldl (fun a b => if a.seq != 0 && b.seq != 0 && seqLe b.seq a.seq then a else b) m)
  | [] => rs.getLast?

/-- The records of the last use of a ticket among its records (R260). -/
def lastUse (rs : List Milestone) : List Milestone :=
  match lastBegin rs with
  | some m => useOfRecord rs m
  | .none => []

/-- Whether the journal holds an unsettled item of a colour and ticket (check 6). -/
def Journal.ticketInUse (j : Journal) (c : Colour) (t : Word) : Bool :=
  let u := lastUse (j.recordsOf c t)
  if anchorsAlone u then !(openIntents u).isEmpty
  else !(u.isEmpty || settledBy u || u.any (·.typ == 0x0B))

/-- A colour's configuration serial (Table 8.3). -/
def State.cfgSerial (s : State) (c : Colour) : BitVec 32 := s.tenancy.serials.get c.toNat 0

/-- Bracket a change of a colour's partition configuration: INTENT, the change, the serial raised, COMMIT. -/
def State.configured (s : State) (c : Cmd) (f : State → State) : State :=
  let n := s.cfgSerial c.colour
  let obj := c.colour.zeroExtend 64
  let s := f (s.cmdIntent c 5 obj n.toNat)
  let s := { s with tenancy := { s.tenancy with serials := s.tenancy.serials.set c.colour.toNat (n + 1) } }
  s.cmdCommit c 5 obj (n + 1).toNat

/-! ## Completions (Table 10.6) -/

/-- The 32 bytes of a completion. -/
def completionBytes (c : Cmd) (code : Nat) (phase effect : Bool) (needed : Nat) (detail : Word) : Bytes :=
  natLE 4 c.tag.toNat ++ natLE 2 code ++
  natLE 2 (b2n phase * 2 ^ 15 + b2n (decide (c.rspLen < needed)) * 2 ^ 14 + b2n effect * 2 ^ 13) ++
  natLE 4 (min needed c.rspLen) ++ natLE 4 needed ++ natLE 8 c.ticket.toNat ++ natLE 8 detail.toNat

/-- Remove a command from the commands in flight. -/
def State.unflight (s : State) (c : Cmd) : State :=
  { s with pcie := { s.pcie with inFlight := eraseFirst (fun x => x.cmd == c) s.pcie.inFlight } }

/-- Put bytes at the front of the mailbox's data. -/
def putBytes (t : Tbl Byte) (off : Nat) : Bytes → Tbl Byte
  | [] => t
  | b :: r => putBytes (t.set off b) (off + 1) r

/-- The ring error of a function (R332, Table 10.7). -/
def State.ringFail (s : State) (fn : Nat) (reason idx : Nat) : State :=
  let f := s.func fn
  ((s.setFunc fn { f with ringError := true, errReason := BitVec.ofNat 8 reason, errIndex := BitVec.ofNat 16 idx,
                          cplLost := f.cplLost || reason == 6 }).setEvent fn 0).count 302 3

/-- Whether the completion ring is usable: enabled, and no write to it has failed. -/
def Func.cplUsable (f : Func) : Bool := f.ringEnable && !f.cplLost

/-- Count a completion toward the completion interrupt (R333). -/
def State.cplSignal (s : State) (fn : Nat) : State :=
  let f := s.func fn
  let n := f.unsignalled + 1
  let count := max 1 (bits f.irqCpl.toNat 15 8)
  if f.irqCpl.getLsbD 31 ∧ count ≤ n then
    (s.setFunc fn { f with unsignalled := 0 }).msix fn (bits f.irqCpl.toNat 21 16)
  else s.setFunc fn { f with unsignalled := n }

/-- Count a command that ends during an instance reset of its function (R336). -/
def State.cmdDrained (s : State) (fn : Nat) : State :=
  match (s.func fn).resetRun with
  | some r => s.setFunc fn { s.func fn with resetRun := some { r with cmdsDrained := r.cmdsDrained + 1 } }
  | .none => s

/-- Write a completion and its response (R328, R331-R333). -/
def State.reply (s : State) (c : Cmd) (code : Nat) (effect : Bool) (rsp : Bytes) (detail : Word) (journalled : Bool) : State :=
  let s := (s.unflight c).cmdDrained c.fn
  let f := s.func c.fn
  let out := rsp.take c.rspLen
  let tk := if journalled then some (c.colour, c.ticket) else .none
  match c.via with
  | .mailbox =>
    let b := completionBytes c code true effect rsp.length detail
    let s := s.setFunc c.fn { f with mbxData := putBytes f.mbxData 0 out, mbxCpl := b, mbxBusy := false, mbxDone := true, mbxTicket := tk }
    (s.emit (.completion c.fn .mailbox b out 0)).setEvent c.fn 1
  | .ring =>
    let b := completionBytes c code f.phase effect rsp.length detail
    if f.cplUsable then
      let n := (f.cplTail.toNat + 1) % 2 ^ f.cplLog2
      let s := s.setFunc c.fn { f with
        cplTail := BitVec.ofNat 16 n, phase := if n = 0 then !f.phase else f.phase,
        slots := match tk with
          | some (col, t) => f.slots ++ [(f.cplTail.toNat, col, t)]
          | .none => f.slots }
      (s.emit (.completion c.fn .ring b out c.rspAddr)).cplSignal c.fn
    else s

/-- Complete a command whose checks failed: no effect, no milestone, no response (R349). -/
def State.reject (s : State) (c : Cmd) (code : Nat) : State :=
  let s := if code = cMalformed then s.count 302 0 else if code = cUnknownOpcode then s.count 302 1
    else if code = cNotPermitted then s.count 302 2 else if code = cBufferFault then s.count 302 4 else s
  s.reply c code false [] 0 false

/-- Whether the response write of a function is to fail (R331). -/
def State.respFails (s : State) (c : Cmd) : Bool := c.via == .ring && s.pcie.respFault.contains c.fn

/-- The commands that only read: they take no effect (Tables 11.3-11.8). -/
def readOnly : List Nat :=
  [0x0101, 0x0102, 0x1001, 0x0D01, 0x0D04, 0x0E01, 0x0206, 0x0308, 0x0802, 0x0804, 0x0805, 0x0402, 0x0403, 0x0408, 0x040B, 0x0503,
   0x0605, 0x0607, 0x0701, 0x0702, 0x0904, 0x0A01, 0x0B01, 0x0C02, 0x1101]

/-- Complete a command that ran: FINAL for a journalled one (R547), BUFFER_FAULT where the response write fails, with EFFECT_DONE if the
command had an effect (R331). -/
def State.finish (s : State) (sp : Spec) (c : Cmd) (code : Nat) (rsp : Bytes) (detail : Word) : State :=
  let fails := s.respFails c && !rsp.isEmpty
  let s := if fails then ({ s with pcie := { s.pcie with respFault := eraseFirst (· == c.fn) s.pcie.respFault } }).count 302 4 else s
  let code' := if fails then cBufferFault else code
  let s := if sp.journal then
      s.writeMile (s.mile (cmdDesc c) 7 false true (BitVec.ofNat 11 code') 0 (BitVec.ofNat 64 code') s.stamp)
    else s
  s.reply c code' (fails && !readOnly.contains sp.op) (if fails then [] else rsp) detail sp.journal

/-- Mark a command as started, in flight until it completes. -/
def State.begin (s : State) (sp : Spec) (c : Cmd) : State :=
  let fl := s.pcie.inFlight
  let x : InFlight := { opcode := BitVec.ofNat 16 sp.op, cmd := c, started := true, serial := false }
  let fl := if fl.any fun y => y.cmd == c then modFirst (fun y => y.cmd == c) (fun y => { y with started := true }) fl else fl ++ [x]
  { s with pcie := { s.pcie with inFlight := fl } }

/-- Whether a command is in flight. -/
def State.inFlight (s : State) (c : Cmd) : Bool := s.pcie.inFlight.any fun x => x.cmd == c

/-- Complete a started command later, unless something ended it meanwhile (R334, R335). -/
def State.finishLater (s : State) (sp : Spec) (c : Cmd) (code : Nat) (rsp : Bytes) (detail : Word) : State :=
  if s.inFlight c then s.finish sp c code rsp detail else s

/-- Complete a command in flight with a code and no response, under its own row. -/
def State.endLater (s : State) (c : Cmd) (code : Nat) : State :=
  match s.pcie.inFlight.find? fun x => x.cmd == c with
  | some x => (specOf x.opcode.toNat).elim s fun sp => s.finish sp c code [] 0
  | .none => s

/-- The Steward's own job for a command comes to nothing: the command completes with MAE_REJECT (R164, R170). -/
def State.ownFails (s : State) (c : Cmd) : State := s.endLater c 0x0301

/-- An MAE job is lost with its cluster or in a tamper response: its item ends, or the command it was for fails. -/
def State.jobLost (s : State) (d : Desc) (reason : BitVec 11) : State :=
  match d.own with
  | some c => s.ownFails c
  | .none => s.itemEnded d reason

/-! ## The checks (R349) -/

/-- Checks 1 to 4 of an entry: the code of the first that fails. -/
def State.admission (s : State) (sp : Spec) (c : Cmd) : Option Nat :=
  let f := s.func c.fn
  if c.fn ≠ 0 ∧ f.state = .unassigned then some cUnassigned
  else if c.fn ≠ 0 ∧ (sp.pf ∨ c.colour ≠ f.colour) then some cNotPermitted
  else if c.fn = 0 ∧ !sp.onColour ∧ c.colour ≠ 0 then some cNotPermitted
  else if !sp.states.ok s.power.dev then some cNotReady
  else .none

/-! ## One object, one command (R351) -/

/-- The objects of R351. -/
inductive CmdObject where
  | key (h : Nat)
  | config (colour : Nat)
  | lane (colour index : Nat)
  | extent (colour : Nat)
  | session (port number : Nat)
  | function (n : Nat)
  deriving DecidableEq, Repr

/-- The objects a command acts on. -/
def cmdObjects (op : Nat) (c : Cmd) : List CmdObject :=
  let b := c.body
  let col := c.colour.toNat
  if op = 0x0301 ∨ op = 0x0302 ∨ op = 0x0307 then [.config col, .function (fieldLE b 0 2)]
  else if 0x0202 ≤ op ∧ op ≤ 0x0205 then [.config col]
  else if 0x0303 ≤ op ∧ op ≤ 0x0306 then [.function (fieldLE b 0 2)]
  else if 0x0404 ≤ op ∧ op ≤ 0x0406 then [.key (fieldLE b 0 8)]
  else if op = 0x0407 then [.key (fieldLE b 8 8)]
  else if op = 0x0602 ∨ op = 0x0603 then [.extent col]
  else if op = 0x0801 then [.lane col (fieldLE b 0 1)]
  else if op = 0x0902 ∨ op = 0x0903 then [.session (fieldLE b 0 1) (fieldLE b 2 2)]
  else []

/-- A reset joins the reset in progress (R337). -/
def joins (a b : Nat) : Bool := (a == 0x0302 || a == 0x0303) && (b == 0x0302 || b == 0x0303)

/-- Whether a command fetched before this one acts on an object of it: this one then waits, started or not (R351). -/
def State.blocked (s : State) (op : Nat) (c : Cmd) : Bool :=
  (s.pcie.inFlight.takeWhile fun x => x.cmd != c).any fun x => !joins x.opcode.toNat op &&
    (cmdObjects x.opcode.toNat x.cmd).any fun o => (cmdObjects op c).contains o

/-- Whether a command makes keys from H.DRBG: VAULT.FORMAT, and KEY.GENERATE of a symmetric type (Tables 11.5, 11.6). -/
def hubDraws (op : Nat) (c : Cmd) : Bool := op == 0x0601 || (op == 0x0404 && decide (1 ≤ fieldLE c.body 8 1) && decide (fieldLE c.body 8 1 ≤ 6))

/-- Whether a command waits: while one acts on its object (R351), and for its read of H.DRBG while that stalls (R417). -/
def State.waits (s : State) (op : Nat) (c : Cmd) : Bool := s.blocked op c || (hubDraws op c && !s.hubReady)

/-- Run a command through checks 1-6 and then its own effect. A journalled command waits while the anchor log has no room
for its intents (R259), any command while `State.waits` says so: it stays fetched, and its row comes again. -/
def runCmd (op : Nat) (c : Cmd) (wellFormed : Bool) (s : State) (effect : Spec → State → State) : Res :=
  checked (fnOk c.fn)
    (match specOf op with
    | .none => s.reject c cUnknownOpcode
    | some sp =>
      match s.admission sp c with
      | some code => s.reject c code
      | .none =>
        if !wellFormed || (sp.journal && c.ticket == 0) then s.reject c cMalformed
        else if sp.journal && s.journal.ticketInUse c.colour c.ticket then s.reject c cTicketInUse
        else if sp.journal && !s.journal.intentRoom then
          { s with journal := { s.journal with waits := s.journal.waits + 1 } }
        else if s.waits op c then s
        else effect sp s)

/-- An immediate command with a response: OK, no precondition. -/
def answer (c : Cmd) (s : State) (sp : Spec) (rsp : Bytes) : State := s.finish sp c cOk rsp 0

/-- Whether a range of the body is zero. -/
def zeroAt (b : Bytes) (off n : Nat) : Bool := allZero (slice b off n)

end Sys2Proof.Machine
end

