-- ==== Sys2Proof/Machine/VaultEngine.lean ====
section
/-! DEFINITION. The vault engine H.VAULT (chapter 7): units, the tree, reads and writes, the repair, reloading. -/

namespace Sys2Proof.Machine

/-! ## The tree (R228, R229) -/

/-- The node of a unit's path at a level, and the entry in it. -/
def pathNode (abs l : Nat) : Nat := abs / 16 ^ (8 - l)
def pathEntry (abs l : Nat) : Nat := abs / 16 ^ (7 - l) % 16

/-- A node's place in the table. -/
def nodeKey (l i : Nat) : Nat := l * 2 ^ 32 + i

/-- A node of zeros. -/
def zeroNode : Bytes := List.replicate 256 0

/-- An entry of a node. -/
def entryOf (node : Bytes) (j : Nat) : Bytes := slice node (16 * j) 16

/-- A node with another entry. -/
def withEntry (node : Bytes) (j : Nat) (e : Bytes) : Bytes := splice node (16 * j) e

/-- The entry that covers a node (R228). -/
def coverEntry (key : Bytes) (l i : Nat) (node : Bytes) : Bytes :=
  if allZero node then List.replicate 16 0 else aesCmac key (natBE 1 l ++ [0, 0, 0] ++ natBE 4 i ++ node)

/-- The root value over a level-0 node (R229). -/
def rootValue (key : Bytes) (version : Word) (node : Bytes) : Block :=
  cmac false key ([0xFF, 0, 0, 0] ++ natBE 8 version.toNat ++ node)

/-- A changed node: level, index, contents. -/
abbrev NodeAt := Nat × Nat × Bytes

/-- The last of a list of changed nodes at a place. -/
def findNode (ns : List NodeAt) (l i : Nat) : Option Bytes :=
  (ns.reverse.find? fun n => n.1 == l && n.2.1 == i).map fun n => n.2.2

/-- A node as committed: where the reload has not reached it, only a zero parent entry tells that it is zero. -/
def Vault.node (v : Vault) : Nat → Nat → Option Bytes
  | 0, i =>
    match v.nodes.find? (nodeKey 0 i) with
    | some n => some n
    | .none => if v.missing then .none else some zeroNode
  | l + 1, i =>
    match v.nodes.find? (nodeKey (l + 1) i) with
    | some n => some n
    | .none =>
      if v.missing then
        match Vault.node v l (i / 16) with
        | some p => if allZero (entryOf p (i % 16)) then some zeroNode else .none
        | .none => .none
      else some zeroNode

/-- A node as the puts in flight leave it. -/
def Vault.nodeWith (v : Vault) (ns : List NodeAt) (l i : Nat) : Option Bytes :=
  match findNode ns l i with
  | some n => some n
  | .none => v.node l i

/-- The first node of a unit's path that is not known. -/
def Vault.firstMissing (v : Vault) (abs : Nat) : Option (Nat × Nat) :=
  ((List.range 8).find? fun l => (v.node l (pathNode abs l)).isNone).map fun l => (l, pathNode abs l)

/-- The tag entry of a unit (R223). -/
def Vault.tagEntry (v : Vault) (abs : Nat) : Bytes := entryOf ((v.node 7 (pathNode abs 7)).getD zeroNode) (pathEntry abs 7)

/-- The path nodes after a unit's tag entry changes, level 0 first (R233). -/
def Vault.pathWith (v : Vault) (ns : List NodeAt) (key : Bytes) (abs : Nat) (tag : Bytes) : List NodeAt :=
  ((List.range 8).reverse.foldl (fun (a : Bytes × List NodeAt) l =>
    let i := pathNode abs l
    let n := withEntry ((v.nodeWith ns l i).getD zeroNode) (pathEntry abs l) a.1
    (coverEntry key l i n, (l, i, n) :: a.2)) (tag, [])).2

/-- Install changed nodes. -/
def Vault.install (v : Vault) (ns : List NodeAt) : Vault :=
  { v with nodes := ns.foldl (fun t n => t.set (nodeKey n.1 n.2.1) n.2.2) v.nodes }

/-! ## Units (R220-R222) -/

/-- The tag of a unit. -/
def unitTag (key : Bytes) (abs : Nat) (side ct : Bytes) : Bytes := aesCmac key (natBE 4 abs ++ side.take 16 ++ ct)

/-- A unit as the vault host stores it: ciphertext and sidecar. -/
def sealUnit (tagKey k1 k2 : Bytes) (abs : Nat) (version : Word) (c : Colour) (plain : Bytes) : Bytes :=
  let ct := xtsUnit false k1 k2 abs plain
  let side := natBE 8 version.toNat ++ natBE 2 c.toNat ++ List.replicate 6 0
  ct ++ side ++ unitTag tagKey abs side ct

/-- The version of a unit whose tag verifies against its entry and its sidecar, and whose colour fits (R225, R232). -/
def verifyUnit (tagKey entry : Bytes) (abs : Nat) (c : Colour) (unit : Bytes) : Option Word :=
  let ct := unit.take 4096
  let side := slice unit 4096 32
  let t := unitTag tagKey abs side ct
  if t = entry ∧ t = slice side 16 16 ∧ fieldBE side 8 2 % 4096 = c.toNat then some (BitVec.ofNat 64 (fieldBE side 0 8)) else .none

/-- Fetch a key for the vault engine through the caddy (R200); one without the engine class VAULT is refused (R188). -/
def State.vaultFetch (s : State) (c : Colour) (h : Word) : State × Option Key :=
  let r := s.fetchKey c h
  (r.1, r.2.filter fun k => k.enters eVault)

/-- Fetch two keys for the vault engine. -/
def State.vaultPair (s : State) (c : Colour) (h1 h2 : Word) : State × Option (Bytes × Bytes) :=
  match s.vaultFetch c h1 with
  | (s, .none) => (s, .none)
  | (s, some a) => ((s.vaultFetch c h2).1, (s.vaultFetch c h2).2.map fun b => (a.material, b.material))

/-- Fetch the tag key and the tree key (R229). -/
def State.vaultKeys (s : State) : State × Option (Bytes × Bytes) := s.vaultPair 0 0x10 0x11

/-- Whether the tag key and the tree key are in the warm store (Table 7.7). -/
def State.vaultKeyed (s : State) : Bool := (s.record 0 0x10).isSome && (s.record 0 0x11).isSome

/-- A colour's extent. -/
def State.extentOf (s : State) (c : Colour) : Option Extent := (s.part? c).bind (·.extent)

/-- Count a case of Table 7.6, by its row. -/
def State.vaultCount (s : State) (i : Nat) : State :=
  { s with vault := { s.vault with counts := s.vault.counts.setIfInBounds i (s.vault.counts.toList.getD i 0 + 1) } }

/-- Change the vault. -/
def State.modVault (s : State) (f : Vault → Vault) : State := { s with vault := f s.vault }

/-! ## Requests to the vault host (R236, R240, R306) -/

/-- The vault sessions that may carry a new request (R315), fewest outstanding first chosen. -/
def State.vaultSession (s : State) (other : Option (Nat × Nat)) : Option (Nat × Nat) :=
  let ok := s.vault.sessions.filter fun x => (s.port x.1).partnerStop.isNone
  let rest := ok.filter fun x => some x != other
  let load := fun (x : Nat × Nat) => (s.vault.reqs.filter fun r => r.port == x.1 && r.session == x.2).length
  (if rest.isEmpty then ok else rest).foldl (fun a x => match a with
    | some y => if load x < load y then some x else some y
    | .none => some x) .none

/-- Send a request's message. -/
def State.vaultMsg (s : State) (r : VaultReq) : State :=
  s.sendMsg r.port r.session (if r.isPut then 0x21 else 0x20) 0 0 r.id r.serial r.payload .none

/-- Issue a new request; nothing where no session may carry one. -/
def State.vaultAsk (s : State) (isPut unit previous : Bool) (l i : Nat) (serial : Word) (payload : Bytes) : Option (State × Word) :=
  (s.vaultSession .none).map fun x =>
    let id := s.vault.nextReq + 1
    let r : VaultReq := { id := id, isPut := isPut, unit := unit, previous := previous, level := l, index := i, port := x.1,
                          session := x.2, retried := false, payload := payload, serial := serial }
    ((s.modVault fun v => { v with nextReq := id, reqs := v.reqs ++ [r] }).vaultMsg r, id)

/-- The payload of a VAULT_GET (Table 9.9). -/
def getPayload (unit previous : Bool) (l i : Nat) : Bytes :=
  [if unit then 1 else 2, if previous then 2 else 1, BitVec.ofNat 8 l, 0] ++ natBE 4 i ++ List.replicate 8 0

/-- The node entries of a VAULT_PUT (Table 9.9). -/
def nodeBytes (ns : List NodeAt) : Bytes := ns.flatMap fun n => natBE 1 n.1 ++ [0, 0, 0] ++ natBE 4 n.2.1 ++ n.2.2

/-- The payload of a VAULT_PUT with a unit, or of a repair (Table 9.9). -/
def putPayload (abs : Nat) (unit : Bytes) (ns : List NodeAt) : Bytes :=
  [if unit.isEmpty then 0 else 1, 0, 0, 0] ++ natBE 4 (if unit.isEmpty then 0 else abs) ++ List.replicate 8 0 ++ unit ++ nodeBytes ns

/-- Fetch a unit or a node. -/
def State.vaultGet (s : State) (unit previous : Bool) (l i : Nat) : Option (State × Word) :=
  s.vaultAsk false unit previous l i 0 (getPayload unit previous l i)

/-- Send a VAULT_PUT under a new write serial (R239); not after PFW_N (R265). -/
def State.vaultPut (s : State) (abs : Nat) (unit : Bytes) (ns : List NodeAt) : Option (State × Word × Word) :=
  if s.power.pfw ≠ .none then .none
  else
    let n := s.vault.serial + 1
    ((s.modVault fun v => { v with serial := n }).vaultAsk true (!unit.isEmpty) false 0 abs n (putPayload abs unit ns)).map
      fun r => (r.1, r.2, n)

/-! ## Answers to callers (R71) -/

/-- Settle the intent a seat left behind, once its VPUT is installed or abandoned (R254). -/
def State.settleOrphan (s : State) (c : Colour) (rel : Word) (left : Option Word) : State :=
  let p := fun (o : Orphan) => !o.settled && o.record.colour == c && o.record.code == 1 && o.record.valA == rel
  { s with journal := { s.journal with
      orphans := modFirst p (fun o => { o with settled := true, left := left.getD o.left }) s.journal.orphans } }

/-- Whether an operation's seat still waits for it. -/
def State.waitsFor (s : State) (u : SeatRef) (o : VaultOp) : Bool :=
  let t := s.seat u
  t.phase == .vaultWait && t.desc == o.desc && t.vwait.any fun w => w.reply.isNone && w.isPut == o.isPut

/-- Give an operation's result to its caller. -/
def State.vaultReply (s : State) (o : VaultOp) (status : Nat) (version : Word) (plain : Option Bytes) : State :=
  match o.caller with
  | .seat u =>
    let left := if status = 0 then some version else .none
    if s.waitsFor u o then
      let t := s.seat u
      let t := if o.isPut then { t with intent := t.intent.map fun i => { i with left := left.getD i.left } } else t
      s.setSeat u { t with vwait := t.vwait.map fun w => { w with reply := some { status := status, version := version, plain := plain } } }
    else if o.isPut then s.settleOrphan o.colour o.rel left
    else s
  | .version c => s.finishLater ⟨0x0605, false, false, .W, true⟩ c cOk (natLE 2 status ++ List.replicate 6 0 ++ natLE 8 version.toNat) 0
  | .outcome t =>
    match s.journal.orphans.find? fun (r : Orphan) =>
        !r.settled && r.record.ticket == t && r.record.colour == o.colour && r.record.code == 1 && r.record.valA == o.rel with
    | some r =>
      let known := { r with settled := true, left := version, issued := true, unknown := decide (status = 4) }
      if status = 0 ∨ status = 4 then
        { s with journal := { s.journal with orphans := modFirst (fun x => x == r) (fun _ => known) s.journal.orphans } }.writeOutcome known
      else s
    | .none => s

/-- Remove an operation: the n-th. -/
def State.dropOp (s : State) (n : Nat) : State := s.modVault fun v => { v with ops := v.ops.eraseIdx n }

/-- Put an operation in the place of the n-th. -/
def State.setOp (s : State) (n : Nat) (o : VaultOp) : State := s.modVault fun v => { v with ops := v.ops.set n o }

/-- End an operation with a result. -/
def State.endOp (s : State) (n : Nat) (o : VaultOp) (status : Nat) (version : Word) (plain : Option Bytes) : State :=
  (s.dropOp n).vaultReply o status version plain

/-- Raise VAULT_INTEGRITY (R232, Table 7.6) and end the operation. -/
def State.integrityFail (s : State) (n : Nat) (o : VaultOp) (row : Nat) (detail : Word) : State :=
  ((s.vaultCount row).endOp n o 2 0 .none).fault 0 0x23 (srcHub 0x03) detail

/-- The details of VAULT_INTEGRITY (Table 17.3). -/
def unitDetail (abs : Nat) : Word := BitVec.ofNat 64 (1 * 2 ^ 56 + abs)
def nodeDetail (l i : Nat) : Word := BitVec.ofNat 64 (2 * 2 ^ 56 + l * 2 ^ 48 + i)

/-! ## Operations in progress (R231-R234) -/

/-- The nodes the puts in flight leave, in the order of their serials. -/
def Vault.pendingNodes (v : Vault) : List NodeAt :=
  let inFlight := v.ops.filter fun o => match o.stage with
    | .putting _ => true
    | .stored => true
    | _ => false
  (inFlight.mergeSort fun a b => decide (a.serial ≤ b.serial)).flatMap (·.nodes)

/-- The puts in flight. -/
def Vault.putsInFlight (v : Vault) : Nat :=
  (v.ops.filter fun o => match o.stage with
    | .putting _ => true
    | .stored => true
    | _ => false).length

/-- How many commits the puts in flight will make before the next. -/
def Vault.nextRootVersion (v : Vault) : Word := v.rootVersion + BitVec.ofNat 64 v.putsInFlight + 1

/-- The version cached for a unit. -/
def Vault.cachedVersion (v : Vault) (abs : Nat) : Option Word := (v.verCache.find? fun e => e.1 == abs).map fun e => e.2.1

/-- Enter a version in the cache of 16,384 entries (Table 7.3), the oldest leaving. -/
def Vault.cacheVersion (v : Vault) (abs : Nat) (n : Word) (c : Colour) : Vault :=
  { v with verCache := ((abs, n, c) :: v.verCache.filter fun e => e.1 != abs).take 16384 }

/-- Fetch the XTS key pair of a colour's extent. -/
def State.extentKeys (s : State) (c : Colour) : State × Option (Bytes × Bytes) :=
  match s.extentOf c with
  | .none => (s, .none)
  | some e => s.vaultPair c e.key1 e.key2

/-- Build and send a VPUT on the state the puts in flight leave (R233, steps 3-6). -/
def State.startPut (s : State) (n : Nat) (o : VaultOp) (current : Word) : State :=
  if current ≠ o.expected then s.endOp n o 1 0 .none
  else if s.vault.repair.isSome ∨ s.vault.freeing.isSome ∨ 64 ≤ s.vault.putsInFlight ∨ s.power.pfw ≠ .none then s
  else
    match s.vaultKeys with
    | (s, .none) => s.endOp n o 3 0 .none
    | (s, some (tagKey, treeKey)) =>
      match s.extentKeys o.colour with
      | (s, .none) => (s.drawn).endOp n o (1 + s.free.toNat % 4) 0 .none
      | (s, some (k1, k2)) =>
        let unit := sealUnit tagKey k1 k2 o.abs (current + 1) o.colour o.plain
        let tag := unit.drop 4112
        let ns := s.vault.pathWith s.vault.pendingNodes treeKey o.abs tag
        let ver := s.vault.nextRootVersion
        let root := rootValue treeKey ver ((findNode ns 0 0).getD zeroNode)
        match s.vaultPut o.abs unit ns with
        | .none => (s.vaultCount 0).endOp n o 3 0 .none
        | some (s, req, serial) =>
          s.setOp n { o with stage := .putting req, unit := unit, serial := serial, nodes := ns, root := root, version := current + 1 }

/-- Fetch the unit of an operation, LATEST first (R232). -/
def State.startFetch (s : State) (n : Nat) (o : VaultOp) (previous : Bool) : State :=
  match s.vaultGet true previous 0 o.abs with
  | some (s, req) => s.setOp n { o with stage := .fetching req previous }
  | .none => (s.vaultCount 0).endOp n o 3 0 .none

/-- Whether an operation needs the unit itself: a VGET. A VPUT and VAULT.VERSION need its version, which the version cache may hold
(R233, R246). -/
def VaultOp.reads (o : VaultOp) : Bool :=
  !o.isPut && match o.caller with
    | .seat _ => true
    | _ => false

/-- Keep a lower node in the tree cache, the least recently used of 2,799 leaving (Table 7.3). -/
def Vault.touch (v : Vault) (l i : Nat) : Vault :=
  let k := nodeKey l i
  { v with lowCache := (k :: v.lowCache.filter (· != k)).take 2799, treeLooks := v.treeLooks + 1,
           treeHits := v.treeHits + if v.lowCache.contains k then 1 else 0 }

/-- The path of a unit is read: levels 0-3 lie in the tree cache, levels 4-7 enter it on demand (Table 7.3). -/
def Vault.walked (v : Vault) (abs : Nat) : Vault :=
  (([4, 5, 6, 7] : List Nat).foldl (fun (v : Vault) l => v.touch l (pathNode abs l))
    { v with treeLooks := v.treeLooks + 4, treeHits := v.treeHits + 4 })

/-- Advance the n-th operation if it is queued and no earlier one acts on its index (R231). -/
def State.advanceOp (s : State) (n : Nat) : State :=
  match s.vault.ops[n]? with
  | .none => s
  | some o =>
    if o.stage ≠ .queued ∨ ((s.vault.ops.take n).any fun x => x.abs == o.abs) then s
    else if !s.vaultKeyed then s.endOp n o 3 0 .none
    else
      match s.vault.firstMissing o.abs with
      | some (l, i) =>
        match s.vaultGet false false l i with
        | some (s, req) => s.setOp n { o with stage := .node req l i false }
        | .none => (s.vaultCount 0).endOp n o 3 0 .none
      | .none =>
        let s := s.modVault fun v => v.walked o.abs
        if allZero (s.vault.tagEntry o.abs) then
          if o.isPut then s.startPut n o 0 else s.endOp n o 0 0 (if o.reads then some (List.replicate 4096 0) else .none)
        else if o.reads then s.startFetch n o false
        else
          match s.vault.cachedVersion o.abs with
          | some v =>
            let s := s.modVault fun v => { v with verHits := v.verHits + 1, verLooks := v.verLooks + 1 }
            if o.isPut then s.startPut n o v else s.endOp n o 0 v .none
          | .none => (s.modVault fun v => { v with verLooks := v.verLooks + 1 }).startFetch n o false

/-- Send the repair of a failed put once nothing before it is in flight (R234): the committed contents of its node
positions. -/
def State.sendRepair (s : State) : State :=
  match s.vault.repair with
  | some (req, ns) =>
    if req = 0 ∧ s.vault.putsInFlight = 0 then
      let now := ns.map fun n => (n.1, n.2.1, (s.vault.node n.1 n.2.1).getD zeroNode)
      match s.vaultPut 0 [] now with
      | some (s, req, _) => s.modVault fun v => { v with repair := some (req, now) }
      | .none => s
    else s
  | .none => s

/-- Put the node positions of failed VAULT_PUTs up for repair, behind those that wait: the vault is DEGRADED until STORED has arrived
for every one (R234). -/
def State.repairNodes (s : State) (nss : List (List NodeAt)) : State :=
  (s.modVault fun v =>
    let all := v.repairs ++ nss
    { v with state := if v.state = .opened then .degraded else v.state,
             repair := if v.repair.isSome then v.repair else all.head?.map fun ns => (0, ns),
             repairs := if v.repair.isSome then all else all.drop 1 }).sendRepair

/-- Zero the entries of an extent's level-4 nodes (R227). -/
def Vault.freedLevel4 (v : Vault) (base size : Nat) : List NodeAt :=
  let lo := base / 4096
  let hi := (base + size) / 4096
  let nodes := (List.range (ceilDiv hi 16 - lo / 16)).map (lo / 16 + ·)
  nodes.filterMap fun i =>
    match v.node 4 i with
    | some n =>
      let n' := (List.range 16).foldl (fun a j => if lo ≤ 16 * i + j ∧ 16 * i + j < hi then withEntry a j (List.replicate 16 0) else a) n
      if n' = n then .none else some (4, i, n')
    | .none => .none

/-- The changed nodes of one level from those of the level below. -/
def Vault.freedParents (v : Vault) (key : Bytes) (l : Nat) (below : List NodeAt) : List NodeAt :=
  below.foldl (fun acc c =>
    let i := c.2.1 / 16
    let old := (acc.find? fun n => n.2.1 == i).map (·.2.2)
    let n := withEntry (old.getD ((v.node l i).getD zeroNode)) (c.2.1 % 16) (coverEntry key (l + 1) c.2.1 c.2.2)
    if old.isSome then modFirst (fun x => x.2.1 == i) (fun _ => (l, i, n)) acc else acc ++ [(l, i, n)]) []

/-- Every node VAULT.FREE changes, level 0 first. -/
def Vault.freedNodes (v : Vault) (key : Bytes) (base size : Nat) : List NodeAt :=
  let l4 := v.freedLevel4 base size
  let l3 := v.freedParents key 3 l4
  let l2 := v.freedParents key 2 l3
  let l1 := v.freedParents key 1 l2
  v.freedParents key 0 l1 ++ l1 ++ l2 ++ l3 ++ l4

/-- Eight node entries to a message, the level-0 node repeated where fewer remain (R227). -/
def freeMessages (ns : List NodeAt) : List (List NodeAt) :=
  (chunks 8 ns).map fun c => c ++ (ns.head?.toList.flatMap fun n => List.replicate (8 - c.length) n)

/-- The row of VAULT.FREE. -/
def freeSpec : Spec := ⟨0x0603, true, true, .W, true⟩

/-- VAULT.FREE takes effect: nodes, zeroed entries and root in one step; the extent is released and the command
completes (R226, R227). -/
def State.endFree (s : State) (f : VaultFree) (treeKey : Bytes) : State :=
  let below := fun (k : Nat) =>
    let l := k / 2 ^ 32
    let i := k % 2 ^ 32
    5 ≤ l ∧ f.base ≤ i * 16 ^ (8 - l) ∧ i * 16 ^ (8 - l) < f.base + f.size
  let v := s.vault.install f.nodes
  let ver := v.rootVersion + 1
  let v := { v with
    nodes := v.nodes.filter (fun p => !decide (below p.1)), rootVersion := ver,
    root := rootValue treeKey ver ((v.node 0 0).getD zeroNode), freeing := .none,
    verCache := v.verCache.filter fun e => !(decide (f.base ≤ e.1) && decide (e.1 < f.base + f.size)) }
  let s := { s with vault := v }
  let release := fun (s : State) => match s.part? f.cmd.colour with
    | some p => s.setPart f.cmd.colour { p with extent := .none }
    | .none => s
  if s.inFlight f.cmd then (s.configured f.cmd release).finish freeSpec f.cmd cOk [] 0 else release s

/-- Start VAULT.FREE when its place in the pipeline comes: no put in flight, no repair unanswered (R227). -/
def State.startFree (s : State) : State :=
  match s.vault.freeing with
  | .none => s
  | some f =>
    if f.reqs.isEmpty ∧ s.vault.putsInFlight = 0 ∧ s.vault.repair.isNone ∧ !s.vault.missing then
      match s.vaultKeys with
      | (s, .none) => s
      | (s, some (_, treeKey)) =>
        let ns := s.vault.freedNodes treeKey f.base f.size
        let f := { f with nodes := ns }
        if ns.isEmpty then s.endFree f treeKey
        else
          match (freeMessages ns).foldl (fun (a : Option (State × List Word)) m =>
              a.bind fun x => (x.1.vaultPut 0 [] m).map fun r => (r.1, x.2 ++ [r.2.1])) (some (s, [])) with
          | some (s', ids) => s'.modVault fun v => { v with freeing := some { f with reqs := ids } }
          | .none => (s.modVault fun v => { v with freeing := .none }).finishLater freeSpec f.cmd 0x0401 [] 0
    else s

/-- Run the engine: send a waiting repair, start a waiting VAULT.FREE, advance every operation in order. -/
def State.vaultRun (s : State) : State :=
  let s := s.sendRepair.startFree
  let step := fun (s : State) => (List.range s.vault.ops.length).reverse.foldl State.advanceOp s
  (List.range (2 * s.vault.ops.length)).foldl (fun s _ => step s) s

/-- An operation as its caller asks for it. -/
def vaultOp (caller : VaultCaller) (d : Desc) (isPut : Bool) (c : Colour) (rel : Word) (plain : Bytes) (expected : Word) : VaultOp :=
  { caller := caller, desc := d, isPut := isPut, colour := c, rel := rel, abs := 0, plain := plain, expected := expected,
    stage := .queued, unit := [], serial := 0, nodes := [], root := 0, version := 0, tag := 0 }

/-- The reads that settle the intents a power loss left open on the vault (R266): those a test picks, with no operation on
their unit. -/
def State.outcomeOps (s : State) (p : Colour → Word → Bool) : List VaultOp :=
  s.journal.orphans.filterMap fun (r : Orphan) =>
    let c := r.record.colour
    let rel := r.record.valA
    if r.settled || r.record.code != 1 || !p c rel || (s.vault.ops.any fun x => x.colour == c && x.rel == rel) then .none
    else match s.extentOf c with
      | some e =>
        if rel.toNat < e.size then
          some { vaultOp (.outcome r.record.ticket) Desc.none false c rel [] 0 with abs := e.base + rel.toNat }
        else .none
      | .none => .none

/-- Submit an operation (R219, R225, Table 7.7): an answer at once, or a place in the queue. A VPUT follows the read that settles
its unit's intent (R266). -/
def State.vaultSubmit (s : State) (o : VaultOp) : State :=
  match s.vault.state, s.extentOf o.colour with
  | .unformatted, _ => s.vaultReply o 4 0 .none
  | .lost, _ => s.vaultReply o 4 0 .none
  | .reloading, _ => s.vaultReply o 3 0 .none
  | .stale, _ => s.vaultReply o 3 0 .none
  | _, .none => s.vaultReply o 4 0 .none
  | _, some e =>
    if e.size ≤ o.rel.toNat ∨ s.vault.n ≤ e.base + o.rel.toNat then s.vaultReply o 4 0 .none
    else
      let first := if o.isPut then s.outcomeOps (fun c rel => c == o.colour && rel == o.rel) else []
      (s.modVault fun v => { v with ops := v.ops ++ first ++ [{ o with abs := e.base + o.rel.toNat }] }).vaultRun

/-- Read the version of every unit whose intent a power loss left open (R266). -/
def State.outcomeReads (s : State) : State :=
  (s.modVault fun v => { v with ops := v.ops ++ s.outcomeOps fun _ _ => true }).vaultRun

/-! ## Answers from the vault host -/

/-- Whether an operation is a put on its way or stored, not yet installed. -/
def VaultOp.afloat (o : VaultOp) : Bool :=
  match o.stage with
  | .putting _ => true
  | .stored => true
  | _ => false

/-- The put on its way or stored with the lowest serial. -/
def Vault.oldestPut (v : Vault) : Option VaultOp :=
  (v.ops.filter VaultOp.afloat).foldl (fun (a : Option VaultOp) o => match a with
    | some x => if o.serial < x.serial then some o else some x
    | .none => some o) .none

/-- Install stored puts, strictly in the order of their serials (R233, R234). -/
def State.installStored : Nat → State → State
  | 0, s => s
  | f + 1, s =>
    match s.vault.oldestPut with
    | some o =>
      if o.stage = .stored then
        let n := (s.vault.ops.findIdx? (· == o)).getD 0
        let s := s.modVault fun v =>
          ({ v.install o.nodes with root := o.root, rootVersion := v.rootVersion + 1 }).cacheVersion o.abs o.version o.colour
        State.installStored f (s.endOp n o 0 o.version .none)
      else s
    | .none => s

/-- Install all that is stored and first. -/
def State.settleStored (s : State) : State := State.installStored (s.vault.ops.length + 1) s

/-- A put failed (R234): its caller is told, later puts return to the queue, the repair follows. -/
def State.putFailed (s : State) (n : Nat) (o : VaultOp) : State :=
  let gone := s.vault.ops.filterMap fun x => match x.stage with
    | .putting r => if o.serial < x.serial then some r else .none
    | _ => .none
  let back := fun (x : VaultOp) => match x.stage with
    | .putting _ => if o.serial < x.serial then { x with stage := .queued } else x
    | .stored => if o.serial < x.serial then { x with stage := .queued } else x
    | _ => x
  let s := s.endOp n o 3 0 .none
  let s := s.modVault fun v => { v with ops := v.ops.map back, reqs := v.reqs.filter fun r => !gone.contains r.id }
  s.repairNodes [o.nodes]

/-- The stage of an operation holds a request. -/
def VaultStage.holds (x : VaultStage) (id : Word) : Bool :=
  match x with
  | .fetching r _ => r == id
  | .node r _ _ _ => r == id
  | .putting r => r == id
  | _ => false

/-- Whether a node verifies against its parent, the level-0 node against the root (R238). -/
def State.nodeOk (s : State) (treeKey : Bytes) (l i : Nat) (node : Bytes) : Bool :=
  if l = 0 then rootValue treeKey s.vault.rootVersion node == s.vault.root
  else match s.vault.node (l - 1) (i / 16) with
    | some p => coverEntry treeKey l i node == entryOf p (i % 16)
    | .none => false

/-- Ask for the previous copy of a node, or fail (R232, Table 7.6). -/
def State.opNodeAgain (s : State) (n : Nat) (o : VaultOp) (l i : Nat) (previous : Bool) : State :=
  if previous then s.integrityFail n o 5 (nodeDetail l i)
  else match s.vaultGet false true l i with
    | some (s, req) => s.setOp n { o with stage := .node req l i true }
    | .none => (s.vaultCount 0).endOp n o 3 0 .none

/-- A node answer for an operation. -/
def State.opNode (s : State) (n : Nat) (o : VaultOp) (l i : Nat) (previous : Bool) (node : Option Bytes) : State :=
  match s.vaultKeys, node with
  | (s, .none), _ => s.endOp n o 3 0 .none
  | (s, some (_, treeKey)), some b =>
    if s.nodeOk treeKey l i b then (s.modVault fun v => v.install [(l, i, b)]).setOp n { o with stage := .queued }
    else s.opNodeAgain n o l i previous
  | (s, some _), .none => s.opNodeAgain n o l i previous

/-- A verified unit for an operation: the plaintext for a VGET, the version for the others (R232, R233, R246). -/
def State.opVerified (s : State) (n : Nat) (o : VaultOp) (version : Word) (unit : Bytes) : State :=
  let s := s.modVault fun v => v.cacheVersion o.abs version o.colour
  if o.isPut then s.setOp n { o with stage := .queued }
  else match o.caller with
    | .seat _ =>
      match s.extentKeys o.colour with
      | (s, some (k1, k2)) => s.endOp n o 0 version (some (xtsUnit true k1 k2 o.abs (unit.take 4096)))
      | (s, .none) => s.drawn.endOp n o (1 + s.free.toNat % 4) 0 .none
    | _ => s.endOp n o 0 version .none

/-- A unit answer for an operation: nothing stands for NOT_HELD. -/
def State.opUnit (s : State) (n : Nat) (o : VaultOp) (previous : Bool) (unit : Option Bytes) : State :=
  match s.vaultKeys with
  | (s, .none) => s.endOp n o 3 0 .none
  | (s, some (tagKey, _)) =>
    let v := unit.bind fun x => verifyUnit tagKey (s.vault.tagEntry o.abs) o.abs o.colour x
    match v with
    | some version => s.opVerified n o version (unit.getD [])
    | .none =>
      let s := if unit.isNone && !previous then s.vaultCount 3 else s
      if !previous then s.startFetch n o true
      else if unit.isNone then s.integrityFail n o 3 (unitDetail o.abs)
      else s.integrityFail n o 4 (unitDetail o.abs)

/-! ## Reloading, refill and recovery (R243, R244) -/

/-- Whether a request serves the level-0 reload or the recovery: no operation asked for it. -/
def State.ownNode (s : State) (r : VaultReq) : Bool :=
  !r.isPut && !r.unit && !(s.vault.ops.any fun o => o.stage.holds r.id)

/-- Ask for the level-0 node of a RELOADING vault, once the keys are back (Table 7.7). -/
def State.vaultReload (s : State) : State :=
  if s.vault.state = .reloading ∧ s.vaultKeyed ∧ !(s.vault.reqs.any s.ownNode) then
    match s.vaultGet false false 0 0 with
    | some (s, _) => s
    | .none => s
  else s

/-- The vault opens: OPEN, or DEGRADED while a repair is unanswered (Table 7.7). -/
def Vault.opened (v : Vault) : Vault := { v with state := if v.repair.isSome then .degraded else .opened }

/-- The answer to a reload's level-0 request (R243): NOT_HELD stands for a node of zeros. -/
def State.reloadAnswer (s : State) (r : VaultReq) (node : Option Bytes) : State :=
  match s.vaultKeys with
  | (s, .none) => s
  | (s, some (_, treeKey)) =>
    let b := node.getD zeroNode
    if rootValue treeKey s.vault.rootVersion b = s.vault.root then
      (s.modVault fun v => { (v.install [(0, 0, b)]).opened with missing := true, refill := 256 }).outcomeReads
    else if r.previous then s.modVault fun v => { v with state := .stale }
    else match s.vaultGet false true 0 0 with
      | some (s, _) => s
      | .none => s

/-- The row of VAULT.RECOVER. -/
def recoverSpec : Spec := ⟨0x0606, true, false, .W, false⟩

/-- The answer to a recovery's level-0 request (R244). -/
def State.recoverAnswer (s : State) (c : Cmd) (node : Option Bytes) : State :=
  match s.vaultKeys with
  | (s, .none) => (s.modVault fun v => { v with recover := .none }).finishLater recoverSpec c 0x0401 [] 0
  | (s, some (_, treeKey)) =>
    let b := node.getD zeroNode
    let ver := s.vault.anchorVersion + BitVec.ofNat 64 (2 ^ 32)
    let s := s.modVault fun v =>
      { v with nodes := [(0, b)], rootVersion := ver, root := rootValue treeKey ver b, state := .opened, missing := true,
               refill := 256, recover := .none }
    s.outcomeReads.finishLater recoverSpec c cOk (natLE 8 ver.toNat) 0

/-- The next node the refill reads: the first unlisted child whose parent entry is not zero. -/
def Vault.nextRefill (v : Vault) : Option (Nat × Nat) :=
  (v.nodes.filter fun p => decide (p.1 < 7 * 2 ^ 32)).findSome? fun p =>
    let l := p.1 / 2 ^ 32
    let i := p.1 % 2 ^ 32
    ((List.range 16).find? fun j => !allZero (entryOf p.2 j) && !(v.nodes.has (nodeKey (l + 1) (16 * i + j)))).map
      fun j => (l + 1, 16 * i + j)

/-- The refill reads one more node; when none is left the tree is whole (R243). -/
def State.refillStep (s : State) : State :=
  if (s.vault.state = .opened ∨ s.vault.state = .degraded) ∧ s.vault.missing ∧ !(s.vault.reqs.any s.ownNode) then
    match s.vault.nextRefill with
    | .none => (s.modVault fun v => { v with missing := false }).vaultRun
    | some (l, i) =>
      match s.vaultGet false false l i with
      | some (s, _) => s
      | .none => s
  else s

/-- The answer to a refill request. -/
def State.refillAnswer (s : State) (r : VaultReq) (node : Option Bytes) : State :=
  match s.vaultKeys with
  | (s, .none) => s
  | (s, some (_, treeKey)) =>
    if node.any (s.nodeOk treeKey r.level r.index) then
      s.modVault fun v => { v.install [(r.level, r.index, node.getD zeroNode)] with refill := v.refill + 256 }
    else if r.previous then (s.vaultCount 5).fault 0 0x23 (srcHub 0x03) (nodeDetail r.level r.index)
    else match s.vaultGet false true r.level r.index with
      | some (s, _) => s
      | .none => s

/-! ## Free and repair answers -/

/-- Abandon a VAULT.FREE: nothing installed, the repair of each of its messages follows, eight node positions to each (R227, R234). -/
def State.abandonFree (s : State) : State :=
  match s.vault.freeing with
  | .none => s
  | some f =>
    let s := s.modVault fun v => { v with freeing := .none, reqs := v.reqs.filter fun r => !f.reqs.contains r.id }
    (s.finishLater freeSpec f.cmd 0x0401 [] 0).repairNodes (freeMessages f.nodes)

/-- One message of a VAULT.FREE was stored. -/
def State.freeStored (s : State) (id : Word) : State :=
  match s.vault.freeing with
  | .none => s
  | some f =>
    let f := { f with reqs := f.reqs.filter (· != id) }
    let s := s.modVault fun v => { v with freeing := some f }
    if f.reqs.isEmpty then
      match s.vaultKeys with
      | (s, some (_, treeKey)) => s.endFree f treeKey
      | (s, .none) => s
    else s

/-- The repair was stored: the next one follows; after the last the vault leaves DEGRADED and the discarded puts go again (R234). -/
def State.repairStored (s : State) : State :=
  s.modVault fun v =>
    { v with repair := v.repairs.head?.map fun ns => (0, ns), repairs := v.repairs.drop 1,
             state := if v.state = .degraded ∧ v.repairs.isEmpty then .opened else v.state }

/-- The repair failed: it is sent again under a new serial (R234). -/
def State.repairFailed (s : State) : State :=
  (s.modVault fun v => { v with repair := v.repair.map fun r => (0, r.2) }).sendRepair

/-- Whether a request is the repair's, or one of VAULT.FREE's. -/
def Vault.isRepair (v : Vault) (id : Word) : Bool := v.repair.any fun r => r.1 == id && id != 0
def Vault.isFree (v : Vault) (id : Word) : Bool := v.freeing.any fun f => f.reqs.contains id

/-! ## An answer, a timeout -/

/-- The operation that waits for a request. -/
def Vault.opOf (v : Vault) (id : Word) : Option (Nat × VaultOp) :=
  (v.ops.findIdx? fun o => o.stage.holds id).bind fun n => (v.ops[n]?).map fun o => (n, o)

/-- Whether a status and payload fit a request (R307). -/
def VaultReq.fits (r : VaultReq) (status : Nat) (payload : Bytes) : Bool :=
  if r.isPut then (status == 3 || status == 4) && payload.isEmpty
  else if status == 2 then payload.isEmpty
  else status == 1 &&
    (if r.unit then payload.length == 4128
     else payload.length == 264 && fieldBE payload 0 1 == r.level && fieldBE payload 4 4 == r.index)

/-- Act on the answer to a request, which is then gone. -/
def State.vaultAnswered (s : State) (r : VaultReq) (status : Nat) (payload : Bytes) : State :=
  let s := s.modVault fun v => { v with reqs := v.reqs.filter (·.id != r.id) }
  let got := if status = 1 then some (if r.unit then payload else payload.drop 8) else .none
  let s := if status = 4 then s.vaultCount 2 else s
  match s.vault.opOf r.id with
  | some (n, o) =>
    match o.stage with
    | .fetching _ previous => s.opUnit n o previous got
    | .node _ l i previous => s.opNode n o l i previous got
    | .putting _ =>
      if status = 3 then (s.setOp n { o with stage := .stored }).settleStored else s.putFailed n o
    | _ => s
  | .none =>
    if s.vault.isRepair r.id then (if status = 3 then s.repairStored else s.repairFailed)
    else if s.vault.isFree r.id then (if status = 3 then s.freeStored r.id else s.abandonFree)
    else match s.vault.state, s.vault.recover with
      | .reloading, _ => s.reloadAnswer r got
      | .stale, some c => s.recoverAnswer c got
      | .opened, _ => s.refillAnswer r got
      | .degraded, _ => s.refillAnswer r got
      | _, _ => s

/-- A VAULT_DATA for a request (R307): nothing where it does not fit it; the answer to an abandoned or unknown request is dropped and
counted (R240). -/
def State.vaultAnswer (s : State) (id : Word) (status : Nat) (payload : Bytes) : Option State :=
  match s.vault.reqs.find? (·.id == id) with
  | .none => some (s.modVault fun v => { v with strays := v.strays + 1 })
  | some r => if r.fits status payload then some (s.vaultAnswered r status payload).vaultRun else .none

/-- A request fails after its second timeout (R240). -/
def State.vaultTimedOut (s : State) (r : VaultReq) : State :=
  let s := s.modVault fun v => { v with reqs := v.reqs.filter (·.id != r.id) }
  match s.vault.opOf r.id with
  | some (n, o) => if o.isPut ∧ o.stage = .putting r.id then s.putFailed n o else s.endOp n o 3 0 .none
  | .none =>
    if s.vault.isRepair r.id then s.repairFailed
    else if s.vault.isFree r.id then s.abandonFree
    else match s.vault.state, s.vault.recover with
      | .stale, some c => (s.modVault fun v => { v with recover := .none }).finishLater recoverSpec c 0x0401 [] 0
      | _, _ => s

/-- A request times out: once more on another session if there is one, then it fails (R240). -/
def State.vaultTimeout (s : State) (id : Word) : State :=
  match s.vault.reqs.find? (·.id == id) with
  | .none => s
  | some r =>
    let s := s.vaultCount 1
    if r.retried then (s.vaultTimedOut r).vaultRun
    else match s.vaultSession (some (r.port, r.session)) with
      | some x =>
        let r' := { r with port := x.1, session := x.2, retried := true }
        (s.modVault fun v => { v with reqs := modFirst (·.id == id) (fun _ => r') v.reqs }).vaultMsg r'
      | .none => (s.vaultTimedOut r).vaultRun

/-! ## Losing the vault -/

/-- With the vault LOST, no version of a unit is known any more: the intents a power loss left open on one are settled so (R262). -/
def State.forgetUnits (s : State) : State :=
  let waits := fun (r : Orphan) => !r.settled && r.record.code == 1 && !s.vault.ops.any fun o => o.colour == r.record.colour && o.rel == r.record.valA
  { s with journal := { s.journal with
      orphans := s.journal.orphans.map fun r => if waits r then { r with settled := true, unknown := true, issued := true } else r } }

/-- Erasure (R245): VPUTs already sent complete, the others are abandoned; the vault is LOST. -/
def State.vaultLost (s : State) : State :=
  let sent := fun (o : VaultOp) => match o.stage with
    | .putting _ => true
    | .stored => true
    | _ => false
  let gone := s.vault.ops.filter fun o => !sent o
  let s := s.modVault fun v =>
    { v with state := if v.state = .unformatted then .unformatted else .lost, root := 0, ops := v.ops.filter sent,
             repair := .none, repairs := [], verCache := [], lowCache := [], missing := false }
  (gone.foldl (fun s o => s.vaultReply o 4 0 .none) s).forgetUnits

/-- A power loss abandons every operation, request and repair; what MRAM anchors comes back in RELOADING (R243). A write serial is never
used again (R239): where VAULT_PUTs were sent after the anchor, the serial goes on 2^32 above it, as the root version does in R244
(DESIGN CHOICE, log entry 27). -/
def Vault.afterLoss (v : Vault) : Vault :=
  { v with
    state := match v.state with
      | .unformatted => .unformatted
      | .lost => .lost
      | _ => .reloading
    root := v.anchorRoot, rootVersion := v.anchorVersion, serial := if v.serial = v.anchorSerial then v.anchorSerial else v.anchorSerial + BitVec.ofNat 64 (2 ^ 32),
    nodes := [], missing := true, verCache := [], lowCache := [], ops := [], reqs := [], repair := .none, repairs := [], freeing := .none, recover := .none, sessions := [], refill := 0 }

/-- A warm restart keeps the tree and the repair, and loses what was on its way (R234, R546). -/
def Vault.afterWarm (v : Vault) : Vault :=
  { v with ops := [], reqs := [], repair := v.repair.map fun r => (0, r.2), freeing := .none, recover := .none, sessions := [],
           verCache := [], lowCache := [] }

end Sys2Proof.Machine
end

