-- ==== Sys2Proof/Machine/TeFlow.lean ====
section
/-! DEFINITION. The gate-format instructions (R65-R74, R77, Table 2.13) and the events of a seat. -/

namespace Sys2Proof.Machine

/-! ## Gates and waymarks -/

/-- The waymarks of Table 2.19. -/
def waymarks : List Nat :=
  [0x010, 0x011, 0x012, 0x013, 0x020, 0x030, 0x031, 0x040, 0x041, 0x042, 0x050, 0x060, 0x061, 0x070, 0x071]

/-- Whether a waymark exists and a policy allows it (R88). -/
def waymarkAllowed (policy : BitVec 16) (w : Nat) : Bool :=
  waymarks.contains w && !(w == 0x060 && policy.getLsbD 4) && !(w == 0x061 && policy.getLsbD 3)

/-- The g registers and block registers in which a waymark returns results (Table 2.19); it returns every other one of g1-g4
and b0-b3 as the tenant passed it (R67). -/
def waymarkResults (w : Nat) : List Nat × List Nat :=
  match w with
  | 0x011 => ([1], [])
  | 0x012 => ([], [1])
  | 0x013 => ([], [1])
  | 0x020 => ([1], [1])
  | 0x030 => ([1], [])
  | 0x031 => ([1], [])
  | 0x040 => ([1], [1])
  | 0x041 => ([1], [1])
  | 0x042 => ([1], [1])
  | 0x060 => ([1], [])
  | 0x061 => ([1], [])
  | 0x070 => ([1], [0, 1])
  | 0x071 => ([1], [2])
  | _ => ([], [])

/-- The policy of a seat's colour. -/
def State.policyOf (s : State) (t : Seat) : BitVec 16 := ((s.part? t.desc.colour).map (·.policy)).getD 0

/-- The registers a tenant passes to a waymark: g1-g4 and b0-b3 (R67). -/
def Seat.passing (t : Seat) : List Word × List Block := ((t.g.toList.drop 1).take 4, t.b.toList.take 4)

/-- GATE: push a GATE frame and enter the waymark in the vendor world (R66). An image that names a waymark the library
lacks or the colour is not allowed never runs (R84, R85): the state stays. -/
def execGate (u : SeatRef) (w : BitVec 11) (s : State) : Res :=
  if waymarkAllowed (s.policyOf (s.seat u)) w.toNat then
    runPlain u s fun s t =>
      if t.stack.length < 16 then
        let f : Frame := { isGate := true, world := t.world, waymark := t.waymark, retPc := t.pc + 4 }
        .jump s { t with stack := f :: t.stack, world := .vendor, waymark := w,
                         passed := if t.world = .vendor then t.passed else some t.passing,
                         tok := if t.world = .vendor then t.tok else s.tokenCall u t w } (Config.waymarkEntry w) 6
      else .exc s 0x07
  else checked u.ok s

/-- What a GRET to the tenant world leaves of a slot (R64): a vendor-loaded slot is emptied unless it is marked
returned, when the routine may also tag it library-only. -/
def returnedSlot (marks : List (Fin 8 × Bool)) (i : Fin 8) (x : Option Slot) : Option Slot :=
  match x with
  | some k =>
    if k.vendorLoaded then
      match marks.find? fun m => m.1 == i with
      | some (_, lib) => some { k with returned := true, libOnly := k.libOnly || lib }
      | .none => if k.returned then some k else .none
    else some k
  | .none => .none

/-- A GRET to the tenant world leaves a slot as R64 has it; a slot it empties closes its contexts (R127, R129). -/
def Seat.returnSlot (t : Seat) (marks : List (Fin 8 × Bool)) (i : Fin 8) : Seat :=
  match t.slot i, returnedSlot marks i (t.slot i) with
  | some _, .none => t.emptySlot i
  | _, x => t.setSlot i x

/-- A register a waymark returns: its result where Table 2.19 lists one there, else the value the tenant passed (R67). A seat that
came in a migration package brings no passed values (Table 10.12 has no place for them), and its registers stay. -/
def returned {α : Type} (listed : List Nat) (i : Nat) (was : Option α) (v : α) : α :=
  if listed.contains i then v else was.getD v

/-- What a GRET to the tenant world does to the registers, slots and contexts (R64, R67, R129): g5-g15 and b4-b7 zero, g1-g4 and
b0-b3 a listed result or the value passed, vendor-loaded slots emptied, keyless digest contexts of the vendor world closed. -/
def Seat.leaveVendor (t : Seat) (marks : List (Fin 8 × Bool)) : Seat :=
  let res := waymarkResults t.waymark.toNat
  let t := (List.finRange 8).foldl (fun t i => t.returnSlot marks i) t
  { t with
    world := .tenant,
    passed := .none,
    b := Vector.ofFn fun i => if 4 ≤ i.val then 0 else returned res.2 i.val (t.passed.bind fun p => p.2[i.val]?) t.b[i],
    g := Vector.ofFn fun i =>
      if 5 ≤ i.val ∧ i.val ≤ 15 then 0
      else if 1 ≤ i.val ∧ i.val ≤ 4 then returned res.1 i.val (t.passed.bind fun p => p.1[i.val - 1]?) t.g[i]
      else t.g[i],
    dctx := t.dctx.filter fun d => !(d.vendor && !d.hmac) }

/-- GRET (R67). -/
def execGret (u : SeatRef) (marks : List (Fin 8 × Bool)) (s : State) : Res :=
  runVendor u s fun s t =>
    match t.stack with
    | f :: r =>
      if f.isGate then
        if f.world = .tenant then
          .jump (s.wipe (scratchBase u + 0x3800) (scratchBase u + 0x3C00))
            { t.tokenResults.leaveVendor marks with stack := r, waymark := f.waymark } f.retPc 20
        else .jump s { t with stack := r, waymark := f.waymark } f.retPc 6
      else .exc s 0x08
    | [] => .exc s 0x08

/-! ## Milestones (R68, R254) -/

/-- MILE.P: a step of the declared steps (R68). -/
def execMileP (u : SeatRef) (ga : Fin 32) (n : BitVec 11) (s : State) : Res :=
  runPlain u s fun s t =>
    let m := s.mile t.desc 3 false (t.world == .vendor) n t.steps (t.reg ga) s.stamp
    .next (s.drawn.writeMile m) { t with lastStep := n } (max 4 (s.waitCost u.cluster 200))

/-- Write the INTENT a seat asks for and open its intent register (R254). -/
def State.openIntent (s : State) (u : SeatRef) (t : Seat) (kind : BitVec 11) (obj version : Word) : TeRes :=
  let m := s.mile t.desc 4 true true kind 0 obj (BitVec.ofNat 32 version.toNat)
  .next (s.drawn.anchor m)
    { t with phase := .running, intent := some { kind := kind, obj := obj, before := version, issued := false, left := version } }
    (20 + s.waitCost u.cluster 1500)

/-- MILE.I: it waits where the anchor log has no room (R259). -/
def execMileI (u : SeatRef) (ga gb : Fin 32) (kind : BitVec 11) (s : State) : Res :=
  runVendor u s fun s t =>
    if t.intent.isSome then .exc s 0x0E
    else if s.journal.intentRoom then s.openIntent u t kind (t.reg ga) (t.reg gb)
    else .wait { s with journal := { s.journal with waits := s.journal.waits + 1 } }
      { t with phase := .anchorWait false kind (t.reg ga) (t.reg gb) } 0

/-- MILE.C: it closes the open intent (R68). -/
def execMileC (u : SeatRef) (ga gb : Fin 32) (kind : BitVec 11) (s : State) : Res :=
  runVendor u s fun s t =>
    if t.intends kind (t.reg ga) then
      let m := s.mile t.desc 5 true true kind 0 (t.reg ga) (BitVec.ofNat 32 (t.reg gb).toNat)
      .next (s.drawn.anchor m) { t with intent := .none } (20 + s.waitCost u.cluster 1500)
    else .exc s 0x0E

/-! ## Suspension, end -/

/-- What binds a move (R145): the source unit, the target cluster and the move sequence number, in this order (log entry 56). -/
def moveAad (source unit target : Nat) (move : BitVec 32) : Bytes :=
  natBE 2 (srcCluster source unit).toNat ++ natBE 1 (addrByte target) ++ natBE 4 move.toNat

/-- State wrapped under the transfer key for a move: a fresh initialisation vector, then ciphertext and tag (R145, log entry 56).
The twelve bytes of the vector are free. -/
def State.wrapMove (s : State) (source unit target : Nat) (move : BitVec 32) (text : Bytes) : Bytes :=
  match (s.cluster source).transferKey with
  | some k => s.freeBytes 12 ++ gcmSeal (natBE 32 k.toNat) (s.freeBytes 12) (moveAad source unit target move) text
  | .none => []

/-- A seat as it travels: registers, contexts, intent register, key registers, scratch and message window (R78, R145). -/
def State.seatText (s : State) (u : SeatRef) : Bytes :=
  (s.seat u).image ++ (s.seat u).intentBytes ++
    ((s.seat u).k.toList.flatMap fun x => match x with
      | some k => k.bytes
      | .none => List.replicate 112 0) ++ s.load (scratchBase u) 0x4000 ++ s.load (storeBase u.cluster + windowOff u) 0x4000

/-- A suspended itinerary as the Depot keeps it (R338): its seat, its scratch and its message window, and the wrapped form in which it
left its TE. -/
def State.suspendedItem (s : State) (u : SeatRef) : Item :=
  let t := s.seat u
  { desc := t.desc, payload := s.load (scratchBase u) 0x3C00 ++ s.load (storeBase u.cluster + windowOff u) 0x4000, stream := .none,
    cells := [], units := 0, place := .pool, since := t.desc.since, suspended := some t, migrated := false,
    sealed := s.wrapMove u.cluster u.te u.cluster s.depot.moveSeq (s.seatText u) }

/-- Suspend an itinerary and move it, wrapped, out of its TE (R79, R338). It waits at the front of its lane, ahead of one suspended before it:
the manual gives no order among suspended items (DESIGN CHOICE, log entry 55). -/
def State.suspendSeat (s : State) (u : SeatRef) : State :=
  let x := s.suspendedItem u
  let s := (s.drawnBytes 12)
  let s := { s with depot := { s.depot with moveSeq := s.depot.moveSeq + 1, items := x :: s.depot.items } }
  (s.clearSeat u).resumeOther u

/-- EMIT (R72, R73). -/
def execEmit (u : SeatRef) (ga : Fin 32) (code : BitVec 11) (s : State) : Res :=
  runPlain u s fun s t =>
    if t.intent.isSome then .exc s 0x0E
    else if 8184 < (t.reg ga).toNat then .exc s 0x10
    else
      let body := s.load (storeBase u.cluster + windowOff u + 0x2000) (t.reg ga).toNat
      .gone (s.endSeat u 0 0 code 0 body)

/-- TRAP (R72, R73). -/
def execTrap (u : SeatRef) (code : BitVec 11) (s : State) : Res :=
  runPlain u s fun s t => .gone (s.endSeat u 1 0 code t.shownPc [])

/-! ## The vault instructions (R69-R71) -/

/-- Leave the TE at a vault wait: it changes to the other seat if that one is ready (R77). An empty one takes the next work the
Depot offers (`State.seatPhase`). -/
def State.vaultYield (s : State) (u : SeatRef) : State :=
  if s.mayResume (otherSeat u) then s.seatChange u .vaultWait false else s

/-- A vault instruction: alignment and bounds of its scratch address, for VPUT then the intent (an order the manual leaves open:
DESIGN CHOICE, log entry 54), then its submission and the wait. -/
def vaultInstr (isPut : Bool) (u : SeatRef) (ga gb st : Fin 32) (s : State) : Res :=
  runVendor u s fun s t =>
    let a := (t.reg gb).toNat
    if a % 4096 ≠ 0 then .exc s 0x03
    else if 0x3C00 < a + 4096 then .exc s 0x04
    else if isPut ∧ !t.intends 1 (t.reg ga) then .exc s 0x0E
    else
      let plain := if isPut then s.load (scratchBase u + a) 4096 else []
      let w : VaultWait := { isPut := isPut, ga := ga, st := st, addr := a, rel := t.reg ga, abs := 0, reply := .none }
      let t' := { (if isPut then t.issued (t.intent.elim 0 (·.before)) else t) with
                  phase := .vaultWait, vwait := some w, cycles := t.cycles + 20, sinceYield := 0 }
      let s := (s.setSeat u t').vaultYield u
      .gone (s.vaultSubmit (vaultOp (.seat u) t.desc isPut t.desc.colour (t.reg ga) plain (t.reg st)))

/-- VGET. -/
def execVget (u : SeatRef) (ga gb st : Fin 32) (s : State) : Res := vaultInstr false u ga gb st s

/-- VPUT. -/
def execVput (u : SeatRef) (ga gb st : Fin 32) (s : State) : Res := vaultInstr true u ga gb st s

/-- A waiting seat takes its result: the status, and under OK the version and the plaintext (R71). Where the two
registers are one, the manual states no value. -/
def State.takeReply (s : State) (u : SeatRef) (t : Seat) (w : VaultWait) (r : VaultReply) : State :=
  let status := BitVec.ofNat 64 r.status
  let t := { t with vwait := .none, sinceYield := 0, pc := t.pc + 4,
                    phase := if (s.seat (otherSeat u)).phase.keepsTe then .ready else .running }
  if r.status = 0 then
    let s := match r.plain with
      | some p => if w.isPut then s else s.store (scratchBase u + w.addr) p
      | .none => s
    if w.ga = w.st then s.drawn.setSeat u (t.setReg w.st s.free)
    else s.setSeat u ((t.setReg w.ga r.version).setReg w.st status)
  else s.setSeat u (t.setReg w.st status)

/-- The TE whose other seat does not keep it goes on with this one. -/
def State.makeCurrent (s : State) (u : SeatRef) : State := if (s.seat u).phase = .running then s.enterSeat u else s

/-- VAULT_WAIT_DONE: the engine's answer reaches the seat. -/
def execVaultWaitDone (u : SeatRef) (s : State) : Res :=
  checked u.ok
    (let t := s.seat u
     match t.phase, t.vwait with
     | .vaultWait, some w =>
       match w.reply with
       | some r => ((s.takeReply u t w r).tokenReply u w r).makeCurrent u
       | .none => s
     | _, _ => s)

/-! ## Events of a seat -/

/-- YIELD_OVERDUE: 24,000 cycles since the last yield point end the itinerary (R81). -/
def execYieldOverdue (u : SeatRef) (s : State) : Res :=
  checked u.ok (if (s.seat u).phase = .running ∧ 24000 ≤ (s.seat u).sinceYield then s.raise u 0x0F else s)

/-- SCRATCH_UNCORRECTABLE: MEMORY ends the itinerary, and the scratch array raises its class 2 fault (R75). -/
def execScratchUncorrectable (u : SeatRef) (off : BitVec 40) (s : State) : Res :=
  checked u.ok
    (if (s.seat u).phase = .empty then s else (s.raise u 0x11).fault 2 0x02 (srcTe u) (off.zeroExtend 64))

/-- The first reader of an expander takes its 8 bytes (R417). -/
def State.serveReader (s : State) (e : Nat) : State :=
  let x := s.expander e
  match x.waiting with
  | [] => s
  | r :: rest =>
    match s.takeRandom e with
    | .none => s
    | some (v, s) =>
      let s := s.setExpander e { s.expander e with waiting := rest }
      match r with
      | .mae _ => s
      | .seat u =>
        let t := s.seat u
        match t.phase with
        | .drbgWait rd => s.fetch u ({ t.setReg rd v with phase := .running }.charge 4) (t.line t.pc) (t.pc + 4)
        | _ => s

/-- DRBG_READ_DONE: a stalled read receives its bits; its 4 cycles count from there, the stall does not (R81, Table 2.7). -/
def execDrbgReadDone (e : Nat) (s : State) : Res := checked (decide (e ≤ 36)) (s.serveReader e)

/-- IMAGE_CACHE_FILL: fetch resumes. The miss adds its cycles to the itinerary's, not to those since the last yield point
(R48, R81). -/
def execImageCacheFill (u : SeatRef) (s : State) : Res :=
  checked u.ok
    (let t := s.seat u
     if t.phase = .fetchWait then s.drawn.setSeat u { t with phase := .running, cycles := t.cycles + s.waitCost u.cluster 500 }
     else s)

/-- The first seat that waits for anchor log space. -/
def State.firstAnchorWait (s : State) : Option SeatRef :=
  (List.find? (fun p => match p.2.phase with
    | .anchorWait _ _ _ _ => true
    | _ => false) s.seats).map fun p => seatOfKey p.1

/-- DEGRADED_VPUT_TIMEOUT: a VPUT that waits for the repair returns HOST_UNAVAILABLE (R242). -/
def execDegradedVputTimeout (u : SeatRef) (s : State) : Res :=
  checked u.ok
    (match s.vault.ops.findIdx? (fun o => o.caller == .seat u && o.isPut && o.stage == .queued) with
    | some n =>
      match s.vault.ops[n]? with
      | some o => if s.vault.state = .degraded then s.endOp n o 3 0 .none else s
      | .none => s
    | .none => s)

/-! ## The response (R34, R165) -/

/-- Whether an open intent is one an item left. -/
def Orphan.ofItem (o : Orphan) (d : Desc) : Bool :=
  o.record.colour == d.colour && o.record.ticket == d.ticket && o.record.seq == d.seq && o.record.laneIdx == d.laneIdx

/-- Write the OUTCOMEs an item still owes, their calls settled (R252, R254). -/
def State.payOutcomes (s : State) (d : Desc) : State := (s.journal.orphans.filter (·.ofItem d)).foldl State.writeOutcome s

/-- ITIN_RSP: the oldest held response whose item owes no OUTCOME that must wait for its call goes to its port, its final milestone and
its OUTCOMEs in the ring (R34, R252, R299). One whose session has closed since is dropped (R300). -/
def execItinRsp (s : State) : Res :=
  .next (match s.held.find? fun h => !s.journal.orphans.any fun o => !o.settled && o.ofItem h.desc with
    | .none => s
    | some h =>
      let d := h.desc
      let s := { s with held := eraseFirst (fun x => x == h) s.held }.payOutcomes d
      let c := BitVec.ofNat 64 (d.id.toNat * 2 ^ 32 + d.seq.toNat)
      if ((s.port d.port).sessions.find? d.session).any (·.carried d) then
        s.sendMsg d.port d.session 0x02 0 0 d.ticket c h.payload (some d)
      else s)

end Sys2Proof.Machine
end

