-- ==== Sys2Proof/Machine/Pool.lean ====
section
/-! DEFINITION. The Depot's pool (R90-R94, R113, R114): the cells of an item, where a new item finds room, its enqueue;
and what placement needs of a cluster (R106, R107, R379). -/

namespace Sys2Proof.Machine

/-! ## Cells -/

/-- The cells an item takes (R91). -/
def itemCells (bulk : Bool) (payload : Nat) : Nat := if bulk then 1 else ceilDiv (payload + 32) 56

/-- The cells of an item. -/
def Item.need (i : Item) : Nat := itemCells i.stream.isSome i.desc.len

/-- Whether a cell is in service (R94). -/
def Depot.inService (d : Depot) (c : Nat) : Bool := !d.retired.contains c && !d.retiredBanks.contains (c / 4096)

/-- The first of the 1,024 cells reserved for colour 0: those of the first bank in service (R93, R94). -/
def Depot.reservedBase (d : Depot) : Nat := (((List.range 16).find? fun b => !d.retiredBanks.contains b).getD 16) * 4096

/-- Whether a cell is one of the reserved ones. -/
def Depot.reserved (d : Depot) (c : Nat) : Bool := decide (d.reservedBase ≤ c) && decide (c < d.reservedBase + 1024)

/-- The lowest `n` cells from `c` on that pass a test, looking at no more than the first number of them. -/
def takeCells (ok : Nat → Bool) : Nat → Nat → Nat → List Nat
  | 0, _, _ => []
  | f + 1, c, n => if n = 0 then [] else if ok c then c :: takeCells ok f (c + 1) (n - 1) else takeCells ok f (c + 1) n

/-- The cells of a new item of a colour: colour 0 from the reserved cells first, tenants never from them (R93). The
lowest numbers go first (log entry 13). -/
def Depot.allocate (d : Depot) (c : Colour) (n : Nat) : Option (List Nat) :=
  let used := d.items.flatMap (·.cells)
  let free := fun (x : Nat) => !used.contains x && d.inService x
  let r := if c = 0 then takeCells free 1024 d.reservedBase n else []
  let t := takeCells (fun x => free x && !d.reserved x) 65536 0 (n - r.length)
  if r.length + t.length = n then some (r ++ t) else .none

/-- The items of a lane. -/
def Depot.ofLane (d : Depot) (l : Nat) : List Item := d.items.filter fun i => i.desc.lane == l

/-- The pool cells a lane holds. -/
def Depot.laneCells (d : Depot) (l : Nat) : Nat := ((d.ofLane l).map (·.cells.length)).sum

/-- The overflow cells in use. -/
def Depot.overflowUse (d : Depot) : Nat := ((d.items.filter (·.place == .overflow)).map Item.need).sum

/-- The overflow area (R113). -/
def overflowCap : Nat := 134217728

/-- Where a new item of a lane goes: the pool with its cells, overflow with none, or nowhere (R113, R114, R117). -/
def State.roomFor (s : State) (l : Nat) (n : Nat) : Option (Place × List Nat) :=
  let x := s.lane l
  let d := s.depot
  let over_ := if x.overflow ∧ d.overflowUse + n ≤ overflowCap then some (Place.overflow, []) else .none
  let pool := match d.allocate x.colour n with
    | some c => some (Place.pool, c)
    | .none => over_
  if (d.ofLane l).any (fun i => i.place != .pool) then over_
  else if d.laneCells l + n ≤ x.quota then pool
  else if x.quota < n ∧ d.laneCells l = 0 then pool
  else over_

/-- Put a work item into its lane, if it finds room. -/
def State.enqueue (s : State) (d : Desc) (payload : Bytes) (stream : Option (Nat × Nat × Nat)) (units : Nat) : Option State :=
  (s.roomFor d.lane (itemCells stream.isSome d.len)).map fun r =>
    let i : Item := { desc := d, payload := payload, stream := stream, cells := r.2, units := units, place := r.1, since := d.since,
                      suspended := .none, migrated := false }
    let x := s.lane d.lane
    { s with depot := { s.depot with items := s.depot.items ++ [i] } }.setLane d.lane { x with enqueued := x.enqueued + 1 }

/-- Take the n-th item out of the Depot, its cells free. -/
def State.dropItem (s : State) (n : Nat) : State := { s with depot := { s.depot with items := s.depot.items.eraseIdx n } }

/-! ## Images and jobs (R83, R86, R90) -/

/-- The image a colour's id names (R86). -/
def State.imageOf (s : State) (c : Colour) (id : BitVec 32) : Option Image :=
  s.tenancy.images.find? fun x => x.id == id && (x.shared || x.colour == c)

/-- Whether an id is an MAE job's (R90). -/
def isJob (id : BitVec 32) : Bool := decide (0 < id.toNat) && decide (id.toNat < 0x100)

/-! ## Placement (R106, R107, R379) -/

/-- Whether a unit of the cluster is out of service. -/
def State.unitOut (s : State) (c : Nat) : Bool := (s.cluster c).mae.out || (List.range 16).any fun t => (s.te c t).out

/-- CE of a cluster: its corrected errors per hour, averaged over the last 24 h (R511). -/
def State.correctedPerHour (s : State) (c : Nat) : Nat :=
  ((s.cluster c).corrected.filter fun t => decide (s.now < t + 86400000000000)).length / 24

/-- The wear rank (R511); 255 where a failed unit found no reserve (R517). -/
def State.wearRank (s : State) (c : Nat) : Nat :=
  let x := s.cluster c
  if x.state = .inService ∧ s.unitOut c then 255 else min 255 (4 * x.marginLoss + 2 * s.correctedPerHour c)

/-- The seats of a cluster that hold an itinerary. -/
def State.busySeats (s : State) (c : Nat) : Nat := (s.seats.filter fun p => p.1 / 32 == c && p.2.phase != .empty).length

/-- How many shares a cluster store holds (R379). -/
def shareSlots (p : Profile) : Nat := if p = .wide then 48 else 3

/-- The position of a colour's share in a cluster, or of a free place for it. -/
def Cluster.sharePlace (x : Cluster) (pr : Profile) (c : Colour) : Option Nat :=
  match x.shares.findIdx? (· == c) with
  | some i => some i
  | .none =>
    match x.shares.findIdx? (· == 0xFFF) with
    | some i => some i
    | .none => if x.shares.length < shareSlots pr then some x.shares.length else .none

/-- Whether a lane of a colour may be placed on a cluster (R106, Table 3.5, R379). -/
def State.eligible (s : State) (l : Lane) (c : Nat) : Bool :=
  (s.cluster c).state == .inService && !l.placement.contains c && decide ((s.cluster c).temp < 1000) &&
    ((s.cluster c).sharePlace s.tenancy.profile l.colour).isSome

/-- What of a cluster is busy: the seats that hold an itinerary and the MAE, of 33 units (Table 3.5). -/
def State.busyUnits (s : State) (c : Nat) : Nat := s.busySeats c + b2n (s.cluster c).mae.running.isSome

/-- The ranking of R107 as one number, lower first: below 100 °C, awake, warm for the lane, in the lane's Quarter, less worn, less
utilised, lower number. -/
def State.rankKey (s : State) (l : Lane) (c : Nat) : Nat :=
  let warm := l.warmUse.any fun p => p.1 == c && decide (s.now < p.2 + 10000000)
  let near := l.placement.any fun p => p / 9 == c / 9
  let hot := decide (1000 ≤ (s.cluster c).temp)
  (((((b2n hot * 2 + b2n ((s.cluster c).power != .awake)) * 2 + b2n !warm) * 2 + b2n !near) * 256 + s.wearRank c) * 1024 +
    (s.cluster c).util) * 64 + c

/-- The first of some clusters in a lane's ranking. -/
def State.firstRanked (s : State) (l : Lane) (cs : List Nat) : Option Nat :=
  cs.foldl (fun (a : Option Nat) c => match a with
    | some b => if s.rankKey l c < s.rankKey l b then some c else some b
    | .none => some c) .none

/-- The first cluster of a lane's ranking. -/
def State.bestCluster (s : State) (l : Lane) : Option Nat :=
  s.firstRanked l ((List.range 36).filter (s.eligible l))

/-- Copy a colour's share into a cluster store (R379). -/
def State.placeShare (s : State) (c : Nat) (col : Colour) : State :=
  let x := s.cluster c
  match x.sharePlace s.tenancy.profile col, s.part? col with
  | some i, some p =>
    if x.shares.getD i 0xFFF = col then s
    else
      let n := shareLen s.tenancy.profile p
      let s := s.setCluster c { x with shares := if i < x.shares.length then x.shares.set i col else x.shares ++ [col] }
      s.store (storeBase c + 0xC0000 + i * shareSize s.tenancy.profile) (s.load (dramBase + granuleAddr (p.granules.getD 0 0)) n)
  | _, _ => s

/-- Add a cluster to a lane's placement set, its colour's share first; an asleep cluster wakes (R107, R379). -/
def State.place (s : State) (l c : Nat) : State :=
  let s := s.placeShare c (s.lane l).colour
  let s := if (s.cluster c).power = .asleep then s.setCluster c { s.cluster c with power := .waking } else s
  s.setLane l { s.lane l with placement := (s.lane l).placement ++ [c] }

/-- The largest placement set a lane may have: its partition's cluster share (R106, Table 10.2). -/
def State.setCap (s : State) (l : Nat) : Nat := ((s.part? (s.lane l).colour).map (·.share)).getD 32

/-- Grow a lane's set by the first clusters of its ranking, at most `n`. -/
def State.growSet (s : State) (l : Nat) : Nat → State
  | 0 => s
  | n + 1 =>
    if s.setCap l ≤ (s.lane l).placement.length then s
    else match s.bestCluster (s.lane l) with
      | some c => (s.place l c).growSet l n
      | .none => s

/-- A lane that is not CLOSED has a cluster in its set (R106); none is found where no cluster may take a lane. -/
def State.ensurePlaced (s : State) (l : Nat) : State := if (s.lane l).placement.isEmpty then s.growSet l 1 else s

/-- Take a cluster out of a lane's set. -/
def State.unplace (s : State) (l c : Nat) : State :=
  s.setLane l { s.lane l with placement := (s.lane l).placement.filter (· != c) }

/-! ## Waking (R109, R112) -/

/-- The warm floor: the least worn in-service clusters, one per Quarter as far as the count allows (R112). -/
def State.floorPick (s : State) : Nat → List Nat → List Nat
  | 0, got => got
  | n + 1, got =>
    let cand := (List.range 36).filter fun c => (s.cluster c).state == .inService && !got.contains c
    let per := fun (c : Nat) => (got.filter fun g => g / 9 == c / 9).length
    let key := fun (c : Nat) => (per c * 256 + s.wearRank c) * 64 + c
    match cand.foldl (fun (a : Option Nat) c => match a with
        | some b => if key c < key b then some c else some b
        | .none => some c) .none with
    | some c => State.floorPick s n (got ++ [c])
    | .none => got

/-- The clusters the warm floor keeps awake. -/
def State.warmFloorSet (s : State) : List Nat := s.floorPick s.depot.warmFloor []

/-- Begin a cluster's wake. -/
def State.wake (s : State) (c : Nat) : State :=
  if (s.cluster c).power = .asleep then s.setCluster c { s.cluster c with power := .waking } else s

/-- An item that arrives for a lane with no awake cluster wakes the first of its set in the ranking (R109). -/
def State.arrivalWake (s : State) (l : Nat) : State :=
  let s := s.ensurePlaced l
  if (s.lane l).placement.any fun c => (s.cluster c).power == .awake then s
  else match s.firstRanked (s.lane l) (s.lane l).placement with
    | some c => s.wake c
    | .none => s

/-! ## Enqueue (R92, R98, R299) -/

/-- The open serial of a session, 0 where none is open under the number (R292). -/
def State.openedOf (s : State) (p n : Nat) : Word := (((s.port p).sessions.find? n).map (·.serial)).getD 0

/-- Enqueue an itinerary request or MAE job: sequence number, ACCEPTED, the lane (R92, R250). Nothing when it finds no
room (R117). -/
def State.enqueueReq (s : State) (c : Colour) (l p n : Nat) (ticket : Word) (id : BitVec 32) (payload : Bytes) (units : Nat) :
    Option State :=
  let x := s.lane l
  let d : Desc := { ticket := ticket, seq := s.depot.seq, colour := c, lane := l, laneIdx := x.index, port := p, session := n, id := id,
                    len := payload.length, known := isJob id || (s.imageOf c id).isSome, opened := s.openedOf p n, since := s.now }
  (s.enqueue d payload .none units).map fun s =>
    let s := { s with depot := { s.depot with seq := s.depot.seq + 1 } }
    let m := s.mile d 1 false true (id.extractLsb' 0 11) (id.extractLsb' 11 16) (BitVec.ofNat 64 payload.length) s.stamp
    ((s.writeMile m).unsettle d).arrivalWake l

/-- Enqueue a bulk segment: only its descriptor enters the Depot, the data is the staging area's (R90). -/
def State.enqueueSegment (s : State) (c : Colour) (l p n : Nat) (id : BitVec 32) (off : Nat) (data : Bytes) (units : Nat) : Option State :=
  let d : Desc := { ticket := BitVec.ofNat 64 off, seq := 0, colour := c, lane := l, laneIdx := (s.lane l).index, port := p, session := n,
                    id := id, len := data.length, known := true, opened := s.openedOf p n, since := s.now }
  (s.enqueue d data (some (p, n, id.toNat)) units).map fun s => s.arrivalWake l

end Sys2Proof.Machine
end

