-- ==== Sys2Proof/Machine/TeCipher.lean ====
section
/-! DEFINITION. The cipher instructions (R57, R58, R130-R143). -/

namespace Sys2Proof.Machine

/-- The key type code of a saved context (Table 4.4). -/
def ktypeCode (k : Byte) : BitVec 2 := if k = 1 then 0 else if k = 2 then 1 else if k = 3 then 2 else 3

/-- A key's bytes without their parity bits. -/
def noParity (b : Bytes) : Bytes := b.map (· &&& 0xFE)

/-- Whether a TDES key is none of the degenerate forms (Table 4.1). -/
def tdesDistinct (m : Bytes) : Bool :=
  noParity (slice m 0 8) != noParity (slice m 8 8) &&
    (m.length == 16 || noParity (slice m 8 8) != noParity (slice m 16 8))

/-- Whether a mode accepts a key (Table 4.1). -/
def modeAccepts (m : Nat) (k : Key) : Bool :=
  let ty := k.attrs.ktype
  if m ≤ 4 ∨ m = 7 then typeAes ty || (typeTdes ty && tdesDistinct k.material)
  else if m = 8 then ty == 1 || ty == 3
  else typeAes ty

/-- A context as C.INIT opens it, before its starting value. -/
def CipherCtx.opened (m : Nat) (k : Fin 8) (x : Slot) : CipherCtx :=
  { mode := BitVec.ofNat 8 m, slot := k, ktype := ktypeCode x.key.attrs.ktype, serial := x.serial, aadClosed := false,
    dataClosed := false, heldFull := false, heldPartial := false, held := 0, ctrA := 0, ctrB := 0, chain := 0, aux := 0 }

/-- A starting value without the bits a TDES context ignores (R131). -/
def startValue (tdes : Bool) (v : Block) : Block := if tdes then keepHigh 8 v else v

/-- The context of C.INIT from its starting value (R131, R134, R138). -/
def State.openCipher (s : State) (t : Seat) (m : Nat) (k : Fin 8) (x : Slot) (v : Block) : Except Byte CipherCtx :=
  let c := CipherCtx.opened m k x
  if m = 8 then do
    let x2 ← s.useKey t (k + 1) (some eTeCipher) []
    need (modeAccepts 8 x2.key && x2.key.material.length == x.key.material.length && x2.key.material != x.key.material) 0x0A
    pure { c with chain := aesEnc x2.key.material v, ctrB := BitVec.ofNat 64 (leNat (blockBytes v)) }
  else if m = 5 ∨ m = 6 then
    if v.toNat % 2 ^ 32 ≠ 0 then .error 0x0D else .ok { c with chain := gcmJ0 v }
  else if 1 ≤ m ∧ m ≤ 4 then .ok { c with chain := startValue (typeTdes x.key.attrs.ktype) v }
  else .ok c

/-- C.INIT (R58, R130, R131). -/
def execCInit (u : SeatRef) (y k : Fin 8) (m : BitVec 6) (s : State) : Res :=
  runEx u s fun s t => do
    let n := m.toNat
    need (decide (n ≤ 9) && !(n == 8 && k.val % 2 == 1)) 0x01
    let x ← s.useKey t k (some eTeCipher) (if n = 6 ∨ n = 7 then [uMacGen, uMacVerify] else [])
    need (!s.tdesForbidden t x) 0x02
    need (modeAccepts n x.key) 0x0A
    let c ← s.openCipher t n k x (t.blk y)
    pure (s, { t with cctx := some c }, 4 + if n = 7 ∨ n = 8 then x.key.rounds else 0)

/-- The open context, when its mode is one of `ms` (R58). -/
def Seat.cipher (t : Seat) (ms : List Nat) : Except Byte CipherCtx :=
  match t.cctx with
  | some c => if ms.contains c.mode.toNat then .ok c else .error 0x0D
  | .none => .error 0x0D

/-- Whether a context runs on a TDES key. -/
def CipherCtx.tdes (c : CipherCtx) : Bool := c.ktype == 3

/-- The bytes a data step carries (R132). -/
def CipherCtx.width (c : CipherCtx) (m : BitVec 6) : Nat := if m = 0 then blockLen c.tdes else m.toNat

/-- Whether the context takes a data step of `m` bytes (R132, R134, R138, Table 4.2). -/
def CipherCtx.takes (c : CipherCtx) (m : BitVec 6) : Bool :=
  let md := c.mode.toNat
  decide (c.width m ≤ blockLen c.tdes) && !c.dataClosed && (m == 0 || !(md == 0 || md == 1 || md == 8)) &&
    !(md == 5 && c.chain.toNat % 2 ^ 32 == 2 ^ 32 - 1) && !(md == 8 && decide (2 ^ 20 ≤ c.ctrA.toNat + 1))

/-- A data step on `n` bytes: the output block and the context after it (Table 4.2, R134, R138). -/
def CipherCtx.data (c : CipherCtx) (key : Bytes) (dec : Bool) (n : Nat) (closing : Bool) (x : Block) : Block × CipherCtx :=
  let e := cipherEnc c.tdes key
  let c' := { c with dataClosed := c.dataClosed || closing }
  match c.mode.toNat with
  | 0 => (if dec then cipherDec c.tdes key x else e x, c')
  | 1 =>
    if dec then (keepHigh n (cipherDec c.tdes key x ^^^ c.chain), { c' with chain := x })
    else (e (x ^^^ c.chain), { c' with chain := e (x ^^^ c.chain) })
  | 2 =>
    (keepHigh n (x ^^^ e c.chain), { c' with chain := c.chain + (if c.tdes then 1#128 <<< 64 else 1) })
  | 3 =>
    let o := keepHigh n (x ^^^ e c.chain)
    (o, { c' with chain := if dec then x else o })
  | 4 => (keepHigh n (x ^^^ e c.chain), { c' with chain := e c.chain })
  | 8 =>
    (((if dec then aesDec key (x ^^^ c.chain) else aesEnc key (x ^^^ c.chain)) ^^^ c.chain),
     { c' with chain := xtsAlpha c.chain, ctrA := c.ctrA + 1 })
  | _ =>
    let ctr := inc32 c.chain
    let o := keepHigh n (x ^^^ aesEnc key ctr)
    (o, { c' with chain := ctr, aux := ghashStep (aesEnc key 0) c.aux (if dec then x else o),
                  ctrB := c.ctrB + BitVec.ofNat 64 n, aadClosed := true })

/-- C.ENC and C.DEC (R133). Where a step both misfits its context and fails a key check, CONTEXT is raised: the manual gives no
order of the two (DESIGN CHOICE, log entry 54). -/
def cipherStep (u : SeatRef) (x y : Fin 8) (m : BitVec 6) (dec : Bool) (s : State) : Res :=
  runEx u s fun s t => do
    let c ← t.cipher [0, 1, 2, 3, 4, 5, 8]
    need (c.takes m) 0x0D
    let k ← s.useKey t c.slot (some eTeCipher) (t.dataBits dec)
    let n := c.width m
    let r := c.data k.key.material dec n (m != 0) (keepHigh n (t.blk y))
    pure (s, { t.setBlk x r.1 with cctx := some r.2 }, k.key.rounds + 1)

/-- C.ENC. -/
def execCEnc (u : SeatRef) (x y : Fin 8) (m : BitVec 6) (s : State) : Res := cipherStep u x y m false s

/-- C.DEC. -/
def execCDec (u : SeatRef) (x y : Fin 8) (m : BitVec 6) (s : State) : Res := cipherStep u x y m true s

/-- C.AAD (R134). -/
def execCAad (u : SeatRef) (y : Fin 8) (m : BitVec 6) (s : State) : Res :=
  runEx u s fun s t => do
    let c ← t.cipher [5, 6]
    need (!c.aadClosed && decide (c.width m ≤ 16)) 0x0D
    let k ← s.useKey t c.slot (some eTeCipher) (if c.mode = 6 then [uMacGen, uMacVerify] else [])
    let n := c.width m
    let c := { c with aux := ghashStep (aesEnc k.key.material 0) c.aux (keepHigh n (t.blk y)),
                      ctrA := c.ctrA + BitVec.ofNat 64 n, aadClosed := m != 0 }
    pure (s, { t with cctx := some c }, 4)

/-- The context after C.MAC absorbs a block (R136). -/
def CipherCtx.mac (c : CipherCtx) (key : Bytes) (n : Nat) (last : Bool) (x : Block) : CipherCtx :=
  { c with chain := if c.heldFull then cipherEnc c.tdes key (c.chain ^^^ c.aux) else c.chain, aux := x,
           held := n, heldFull := !last, heldPartial := last, ctrA := c.ctrA + 1 }

/-- C.MAC (R136). -/
def execCMac (u : SeatRef) (y : Fin 8) (m : BitVec 6) (s : State) : Res :=
  runEx u s fun s t => do
    let c ← t.cipher [7]
    need (!c.heldPartial && decide (c.width m ≤ blockLen c.tdes)) 0x0D
    let k ← s.useKey t c.slot (some eTeCipher) t.macBits
    let n := c.width m
    pure (s, { t with cctx := some (c.mac k.key.material n (m != 0) (keepHigh n (t.blk y))) }, k.key.rounds + 1)

/-- The tag of a GCM or GMAC context (R134, R142). -/
def CipherCtx.tag (c : CipherCtx) (key : Bytes) : Block :=
  ghashStep (aesEnc key 0) c.aux (gcmLengths c.ctrA.toNat c.ctrB.toNat) ^^^ aesEnc key (gcmJ0 c.chain)

/-- C.FIN (R134, R136, R190). -/
def execCFin (u : SeatRef) (x : Fin 8) (s : State) : Res :=
  runEx u s fun s t => do
    let c ← t.cipher [5, 6, 7]
    need (c.mode == 7 || !(c.ctrA == 0 && c.ctrB == 0)) 0x0D
    let k ← s.useKey t c.slot (some eTeCipher) (if c.mode = 5 then [] else [uMacGen, uMacVerify])
    need (c.mode == 5 || t.world == .vendor || k.key.may uMacGen) 0x0A
    let v := if c.mode = 7 then cmacLast c.tdes k.key.material c.chain c.aux c.held else c.tag k.key.material
    pure (s, { t.setBlk x v with cctx := .none }, if c.mode = 7 then k.key.rounds + 2 else 8)

/-- C.SAVE (R143). -/
def execCSave (u : SeatRef) (g : Fin 32) (s : State) : Res :=
  runEx u s fun s t => do
    let c ← t.cipher (List.range 10)
    let _ ← s.useKey t c.slot .none []
    let a ← t.scratchAt u (t.reg g) 64 16
    pure (s.store a c.bytes, t, 8)

/-- A restored context without the bits a TDES block ignores (R57). -/
def CipherCtx.trimmed (c : CipherCtx) : CipherCtx :=
  { c with chain := startValue c.tdes c.chain, aux := startValue c.tdes c.aux }

/-- C.REST (R143). -/
def execCRest (u : SeatRef) (g : Fin 32) (s : State) : Res :=
  runEx u s fun s t => do
    let a ← t.scratchAt u (t.reg g) 64 16
    match CipherCtx.ofBytes (s.load a 64) with
    | .none => .error 0x0D
    | some c =>
      need c.unusedZero 0x0D
      let k ← s.useKey t c.slot .none []
      need (k.serial == c.serial && ktypeCode k.key.attrs.ktype == c.ktype) 0x0D
      pure (s, { t with cctx := some c.trimmed }, 8)

/-! ## FF1 -/

/-- The number of a descriptor's fields: radix, digits, tweak length (Table 4.3). -/
def ff1Fields (d : Bytes) : Nat × Nat × Nat := (fieldBE d 0 2, fieldBE d 2 2, fieldBE d 4 1)

/-- Whether a descriptor is valid (R140, Table 4.3). -/
def ff1Valid (d : Bytes) : Bool :=
  let (r, n, t) := ff1Fields d
  decide (2 ≤ r) && decide (r ≤ 256) && decide (2 ≤ n) && decide (n ≤ 128) && decide (t ≤ 32) && decide (1000000 ≤ r ^ n) &&
    (slice d 0x28 n).all (fun x => decide (x.toNat < r)) && allZero (slice d 5 3) && allZero (slice d (8 + t) (32 - t)) &&
    allZero (slice d (0x28 + n) (128 - n))

/-- The digits after FF1 over a descriptor. -/
def ff1Digits (key d : Bytes) (dec : Bool) : Bytes :=
  let (r, n, t) := ff1Fields d
  let x := (slice d 0x28 n).map BitVec.toNat
  ((if dec then ff1Dec key (slice d 8 t) r x else ff1Enc key (slice d 8 t) r x)).map (BitVec.ofNat 8)

/-- C.FF1E and C.FF1D (R139-R141): a descriptor out of line or out of scratch raises BOUNDS, before any other check (DESIGN CHOICE,
log entry 54). -/
def ff1Step (u : SeatRef) (g : Fin 32) (dec : Bool) (s : State) : Res :=
  runEx u s fun s t => do
    let a := (t.reg g).toNat
    need (a % 16 == 0 && decide (a + 0xA8 ≤ t.scratchLimit)) 0x04
    let c ← t.cipher [9]
    let d := s.load (scratchBase u + a) 0xA8
    need (ff1Valid d) 0x0D
    let k ← s.useKey t c.slot (some eTeCipher) [uTokenise]
    let (r, n, tl) := ff1Fields d
    let x := ff1Digits k.key.material d dec
    let p := if dec then (s, t) else s.tokenMade u t x
    pure (p.1.store (scratchBase u + a + 0x28) x, p.2,
      10 * k.key.rounds * (ff1P r n tl + 1) + 40)

/-- C.FF1E. -/
def execCFf1e (u : SeatRef) (g : Fin 32) (s : State) : Res := ff1Step u g false s

/-- C.FF1D. -/
def execCFf1d (u : SeatRef) (g : Fin 32) (s : State) : Res := ff1Step u g true s

/-- C.RAW (R57): m[0] selects decryption, m[5:1] must be zero (R46). -/
def execCRaw (u : SeatRef) (x y k : Fin 8) (m : BitVec 6) (s : State) : Res :=
  runEx u s fun s t => do
    need (decide (m.toNat ≤ 1)) 0x01
    let q ← s.useKey t k (some eTeCipher) (t.dataBits (m = 1))
    let td := typeTdes q.key.attrs.ktype
    need (td || typeAes q.key.attrs.ktype) 0x0A
    let v := startValue td (t.blk y)
    pure (s, t.setBlk x (if m = 1 then cipherDec td q.key.material v else cipherEnc td q.key.material v), q.key.rounds + 1)

/-- GFM (R62). -/
def execGfm (u : SeatRef) (x y : Fin 8) (s : State) : Res :=
  runPlain u s fun s t => .next s (t.setBlk x (gfMul (t.blk x) (t.blk y))) 4

/-- CMPCT (R62): a count above 16 is illegal (R46). -/
def execCmpct (u : SeatRef) (x y : Fin 8) (g : Fin 32) (m : BitVec 6) (s : State) : Res :=
  runPlain u s fun s t =>
    if 16 < m.toNat then .exc s 0x01
    else
      let n := if m = 0 then 16 else m.toNat
      .next s (t.setReg g (if keepHigh n (t.blk x) = keepHigh n (t.blk y) then 0 else 1)) 2

end Sys2Proof.Machine
end

