-- ==== Sys2Proof/Machine/Streams.lean ====
section
/-! DEFINITION. Bulk streams (R145-R151, R301-R305): what the datapath does with a segment, the stream slot of a TE, the
output, the close, the abort, and the move of a stream between clusters. -/

namespace Sys2Proof.Machine

/-! ## A stream's record -/

/-- The stream of a key. -/
def State.stream? (s : State) (k : Nat) : Option Stream :=
  match s.port0.streams.find? fun x => x.key == k with
  | some x => some x
  | .none => s.port1.streams.find? fun x => x.key == k

/-- Put a stream in the place of the one with its key. -/
def State.setStream (s : State) (x : Stream) : State :=
  let pt := s.port x.port
  s.setPort x.port { pt with streams := modFirst (fun y => y.key == x.key) (fun _ => x) pt.streams }

/-- The partner has received a stream's OPENED (R302). -/
def State.announce (s : State) (k : Nat) : State :=
  match s.stream? k with
  | some x => s.setStream { x with announced := true }
  | .none => s

/-- Every open stream. -/
def State.streams (s : State) : List Stream := s.port0.streams ++ s.port1.streams

/-! ## The datapath (R147, R148) -/

/-- The cipher context of a stream. -/
def Stream.ctx (x : Stream) : CipherCtx :=
  { mode := BitVec.ofNat 8 x.mode, slot := 0, ktype := if x.tdes then 3 else 0, serial := 0, aadClosed := true, dataClosed := false,
    heldFull := false, heldPartial := false, held := 0, ctrA := 0, ctrB := 0, chain := x.chain, aux := x.aux }

/-- One block of a stream; an XTS stream takes a new tweak at each data unit (R147). -/
def Stream.block (x : Stream) (b : Bytes) : Stream :=
  let x := if x.mode = 8 ∧ x.processed % x.dataUnit = 0 then
      { x with chain := aesEnc x.key2 (xtsTweak (x.start.toNat + x.processed / x.dataUnit)) } else x
  let r := x.ctx.data x.key1 x.decrypt b.length false (toBlock b)
  { x with chain := r.2.chain, aux := r.2.aux, processed := x.processed + b.length, output := x.output ++ (blockBytes r.1).take b.length }

/-- A segment of a stream. -/
def Stream.segment (x : Stream) (data : Bytes) : Stream := (chunks (blockLen x.tdes) data).foldl Stream.block x

/-- The GCM tag of a stream that has ended. -/
def Stream.tag (x : Stream) : Bytes :=
  blockBytes (ghashStep (aesEnc x.key1 0) x.aux (gcmLengths 0 x.processed) ^^^ aesEnc x.key1 (gcmJ0 x.chain))

/-! ## Output, close, abort -/

/-- Send every BULK_DATA whose bytes are all there, in offset order (R303). -/
def State.sendOutput (s : State) (x : Stream) : List (Nat × Nat) → State × Stream
  | [] => (s, { x with sizes := [] })
  | (off, len) :: r =>
    if off + len ≤ x.processed then
      let s := s.sendMsg x.port x.session 0x11 0 0 (BitVec.ofNat 64 (x.id.toNat * 2 ^ 32)) (BitVec.ofNat 64 off) (x.output.take len) .none
      s.sendOutput { x with output := x.output.drop len, sentOff := off + len } r
    else (s, { x with sizes := (off, len) :: r })

/-- Whether an item is a segment of a stream. -/
def Item.ofStream (k : Nat) (i : Item) : Bool := i.stream.any fun q => streamKey q.1 q.2.1 (BitVec.ofNat 32 q.2.2) == k

/-- Remove a stream, its segments and its contexts (R150). -/
def State.dropStream (s : State) (x : Stream) : State :=
  let s := s.forgetStreams [x.key]
  let pt := s.port x.port
  s.setPort x.port { pt with streams := pt.streams.filter fun y => y.key != x.key }

/-- End a stream with BULK_CLOSE (R304). -/
def State.closeStream (s : State) (x : Stream) (status : Nat) (payload : Bytes) : State :=
  (s.dropStream x).sendMsg x.port x.session 0x12 0 status (BitVec.ofNat 64 (x.id.toNat * 2 ^ 32)) (BitVec.ofNat 64 x.processed) payload .none

/-- Abort a stream (R305). -/
def State.abortStream (s : State) (k : Nat) : State :=
  match s.stream? k with
  | some x => s.closeStream x 1 []
  | .none => s

/-- Close a GCM stream: its key, fetched again if it has left the slot, makes the tag (R147, R304). -/
def State.closeGcm (s : State) (x : Stream) (tag : Bytes) : State :=
  let end_ := fun (s : State) (key : Bytes) =>
    let got := { x with key1 := key }.tag
    if x.decrypt then (if got = tag then s.closeStream x 0 [] else s.closeStream x 3 []) else s.closeStream x 0 got
  if x.key1.isEmpty then
    match s.fetchKey (s.lane x.lane).colour x.handle1 with
    | (s, some k) => end_ s k.material
    | (s, .none) => s.closeStream x 1 []
  else end_ s x.key1

/-- Answer a BULK_CLOSE once the stream's last output is out (R304). -/
def State.tryClose (s : State) (k : Nat) : State :=
  match s.stream? k with
  | some x =>
    match x.closeReq with
    | some (total, tag) =>
      if x.processed < x.received then s
      else if total ≠ x.received ∨ (x.mode = 8 ∧ x.received % x.dataUnit ≠ 0) then s.closeStream x 2 []
      else if x.mode = 5 then s.closeGcm x tag
      else s.closeStream x 0 []
    | .none => s
  | .none => s

/-! ## The stream slot of a TE (R122, R149) -/

/-- The cluster that holds a stream wrapped in its store. -/
def State.wrappedAt (s : State) (k : Nat) : Option Nat := (List.range 36).find? fun c => (s.cluster c).wrapped.contains k

/-- Whether a stream is on its way between clusters. -/
def State.travels (s : State) (k : Nat) : Bool := s.depot.packages.any fun x => x.stream == some k

/-- The cluster that holds a stream's context. -/
def State.streamAt (s : State) (x : Stream) : Option Nat :=
  match x.te with
  | some (c, _) => some c
  | .none => s.wrappedAt x.key

/-- Whether a TE is at a segment boundary: the stream in its slot has no segment in progress. -/
def State.atBoundary (s : State) (t : Te) : Bool :=
  match t.stream with
  | some k => ((s.stream? k).map (·.pending.isEmpty)).getD true
  | .none => true

/-- Put the stream of a TE's slot out of it: to the context store, or wrapped to the cluster store when that is full (R149).
Its keys leave the slot. -/
def State.unslot (s : State) (c t : Nat) : State :=
  let e := s.te c t
  match e.stream with
  | .none => s
  | some k =>
    let s := match s.stream? k with
      | some x => s.setStream { x with key1 := [], key2 := [], loading := false, te := if e.store.length < 8 then x.te else .none }
      | .none => s
    if e.store.length < 8 then s.setTe c t { e with stream := .none, store := e.store ++ [k] }
    else (s.setTe c t { e with stream := .none }).setCluster c { s.cluster c with wrapped := (s.cluster c).wrapped ++ [k] }

/-- No TE awaits a stream any more. -/
def State.dropNext (s : State) (k : Nat) : State := { s with tes := s.tes.mapVals fun t => { t with next := t.next.filter (· != k) } }

/-- Bring a stream into a TE's slot at a boundary. Its key fetch begins, unless it began while the previous segment ran (R149). -/
def State.slotStream (s : State) (x : Stream) (c t : Nat) : State :=
  let ahead := (s.te c t).next == some x.key
  let s := (s.unslot c t).dropNext x.key
  let s := s.setCluster c { s.cluster c with wrapped := (s.cluster c).wrapped.filter (· != x.key) }
  let e := s.te c t
  let x := if ahead then x else { x with key1 := [], key2 := [], loading := true }
  (s.setTe c t { e with stream := some x.key, store := e.store.filter (· != x.key) }).setStream { x with te := some (c, t) }

/-- Begin the key fetch of the stream a TE serves next, while the segment of another one runs there (R149). -/
def State.fetchAhead (s : State) (x : Stream) (c t : Nat) : State :=
  (s.setTe c t { s.te c t with next := some x.key }).setStream { x with key1 := [], key2 := [], loading := true }

/-- The TE of a cluster that takes a new stream: the lowest with an empty slot, else the lowest at a boundary. -/
def State.teForStream (s : State) (c : Nat) : Option Nat :=
  let ok := (List.range 16).filter fun t => !(s.te c t).out && !(s.te c t).testing
  match ok.find? fun t => (s.te c t).stream.isNone with
  | some t => some t
  | .none => ok.find? fun t => s.atBoundary (s.te c t)

/-- The TE of a cluster that fetches a stream's key ahead: the lowest that fetches none. -/
def State.aheadFor (s : State) (c : Nat) : Option Nat :=
  (List.range 16).find? fun t => !(s.te c t).out && !(s.te c t).testing && (s.te c t).next.isNone

/-- The TE of a cluster that has fetched, or fetches, a stream's key ahead. -/
def State.awaits (s : State) (c k : Nat) : Option Nat := (List.range 16).find? fun t => (s.te c t).next == some k

/-- Offer a segment to a cluster: the state after it was taken, or after its stream was brought in or its key fetch began, or
nothing where it must wait (R104, R149). True where the segment was taken. -/
def State.takeSegment (s : State) (c : Nat) (i : Item) (k : Nat) : Option (State × Bool) :=
  match s.stream? k with
  | .none => .none
  | some x =>
    match x.te with
    | some (c', t) =>
      if c' ≠ c then .none
      else if (s.te c t).stream = some k then
        if x.loading ∨ !x.pending.isEmpty then .none else some (s.setStream { x with pending := [(i.desc.ticket.toNat, i.payload)] }, true)
      else if s.atBoundary (s.te c t) then some (s.slotStream x c t, false)
      else if (s.te c t).next.isNone then some (s.fetchAhead x c t, false)
      else .none
    | .none =>
      match s.awaits c k, s.teForStream c, s.aheadFor c with
      | some t, _, _ => if s.atBoundary (s.te c t) then some (s.slotStream x c t, false) else .none
      | .none, some t, _ => some (s.slotStream x c t, false)
      | .none, .none, some t => some (s.fetchAhead x c t, false)
      | .none, .none, .none => .none

/-! ## Moving a stream (R108, R145) -/

/-- Where a stream that leaves a cluster goes: the first awake cluster of its lane's set, else the first. -/
def State.moveTarget (s : State) (l c : Nat) : Option Nat :=
  let set := (s.lane l).placement.filter (· != c)
  match set.find? fun d => (s.cluster d).power == .awake with
  | some d => some d
  | .none => set.head?

/-- The contexts of a stream in TEs and clusters cleared. -/
def State.forgetStreamContext (s : State) (k : Nat) : State :=
  { s with tes := s.tes.mapVals (·.dropStreams [k]),
           clusters := s.clusters.mapVals (fun c => { c with wrapped := c.wrapped.filter (· != k) }) }

/-- The bytes a package carries: a seat, a stream's context with what it has processed, or a saved job. -/
def State.packageText (s : State) (g : Package) : Bytes :=
  match g.seat, g.stream, g.mae with
  | some k, _, _ => s.seatText (seatOfKey k)
  | _, some k, _ => match s.stream? k with
    | some x => x.ctx.bytes ++ natBE 8 x.processed
    | .none => []
  | _, _, some d => ((s.cluster g.source).mae.saved.find? fun j => j.desc == d).elim [] (·.payload)
  | _, _, _ => []

/-- Send a package on its way: the next move sequence number, and what it carries wrapped (R145). -/
def State.sendPackage (s : State) (g : Package) : State :=
  let n := s.depot.moveSeq
  let g := { g with move := n, sealed := s.wrapMove g.source g.unit g.target n (s.packageText g) }
  let s := s.drawnBytes 12
  { s with depot := { s.depot with moveSeq := n + 1, packages := s.depot.packages ++ [g] } }

/-- A package of a cluster for another, its contents yet to name. -/
def Package.between (source target unit : Nat) : Package :=
  { move := 0, source := source, target := target, unit := unit, sealed := [], seat := .none, stream := .none, mae := .none }

/-- A stream's package: the source is its TE, or the cluster store that holds it (unit 0x14). -/
def Stream.package (x : Stream) (source target : Nat) : Package :=
  { Package.between source target (x.te.elim 0x14 Prod.snd) with stream := some x.key }

/-- Wrap a stream and send it to another cluster. -/
def State.sendStream (s : State) (x : Stream) (target : Nat) : State :=
  let s := s.sendPackage (x.package ((s.streamAt x).getD target) target)
  (s.forgetStreamContext x.key).setStream { x with te := .none, loading := false, key1 := [], key2 := [] }

end Sys2Proof.Machine
end

