-- ==== Sys2Proof/Machine/Lanes.lean ====
section
/-! DEFINITION. The states of lanes (Table 3.3, R99, R543): squash, drain, freeze, close and reinstatement. -/

namespace Sys2Proof.Machine

/-- Whether a lane still has an item queued, running, suspended or on its way, or an open stream. -/
def State.laneBusy (s : State) (l : Nat) : Bool :=
  s.depot.items.any (fun i => i.desc.lane == l) ||
  s.seats.any (fun p => p.2.phase != .empty && p.2.desc.lane == l) ||
  s.clusters.any (fun p => p.2.mae.running.any (fun j => j.desc.lane == l) || p.2.mae.saved.any (fun j => j.desc.lane == l)) ||
  s.streams.any (fun x => x.lane == l)

/-- Change a lane's state, and tell the sessions that feed it (R99, R308). -/
def State.laneTo (s : State) (l : Nat) (st : LaneState) (cause : LaneCause) : State :=
  let x := s.lane l
  (s.setLane l { x with state := st, cause := cause }).creditColour x.colour

/-- Begin draining a lane. -/
def State.drainLane (s : State) (l : Nat) (cause : LaneCause) : State :=
  if (s.lane l).state = .opened then s.laneTo l .draining cause else s

/-- End the queued and suspended requests and jobs of a lane (R79, R99). -/
def State.discardItems (s : State) (p : Item → Bool) (reason : BitVec 11) : State :=
  let gone := s.depot.items.filter fun i => p i && i.stream.isNone
  let s := s.releaseItems fun i => p i && i.stream.isNone
  let s := { s with depot := { s.depot with items := s.depot.items.filter fun i => !(p i && i.stream.isNone) } }
  gone.foldl (fun s i => s.itemEnded i.desc reason) s

/-- Discard suspended MAE jobs and mark the running ones for their next yield point (R177). -/
def State.squashMae (s : State) (p : Desc → Bool) (reason : BitVec 11) : State :=
  let gone := s.clusters.flatMap fun q => q.2.mae.saved.filter fun j => p j.desc && !j.bracket
  let s := { s with clusters := s.clusters.mapVals fun c => { c with mae := { c.mae with
    saved := (c.mae.saved.filter fun j => !(p j.desc && !j.bracket)).map fun j => if p j.desc then { j with squash := true } else j,
    running := c.mae.running.map fun j => if p j.desc then { j with squash := true } else j } } }
  gone.foldl (fun s j => s.itemEnded j.desc reason) s

/-- Squash a lane (R79, R99, R150, R305). -/
def State.squashLane (s : State) (l : Nat) (cause : LaneCause) : State :=
  if (s.lane l).state = .closed then s
  else
    let s := s.setLane l { s.lane l with state := .squashing, cause := cause }
    let s := s.discardItems (fun i => i.desc.lane == l) 1
    let s := { s with seats := s.seats.mapVals fun (t : Seat) => if t.phase != Phase.empty && t.desc.lane == l then { t with squash := true } else t }
    let s := s.squashMae (fun d => d.lane == l) 1
    let s := ((s.streams.filter fun (x : Stream) => x.lane == l).map Stream.key).foldl State.abortStream s
    s.creditColour (s.lane l).colour

/-- Squash several lanes. -/
def State.squashLanes (s : State) (ls : List Nat) (cause : LaneCause) : State := ls.foldl (fun s l => s.squashLane l cause) s

/-- Reinstate a closed lane OPEN (R543), with a cluster in its placement set (R106). -/
def State.reinstate (s : State) (l : Nat) : State :=
  if (s.lane l).state = .closed then (s.laneTo l .opened .none).ensurePlaced l else s

/-- Once a deleted colour's last lane has closed, its granules are tagged 0, a change of the H.MEM gate's rules (R370, R376). -/
def State.tagDeleted (s : State) (c : Colour) : State :=
  match s.part? c with
  | some p =>
    if p.deleting.isSome ∧ !(s.lanes.any fun q => q.2.colour == c) then
      ({ s with tenancy := { s.tenancy with tags := p.granules.foldl (fun t g => t.set g 0) s.tenancy.tags } }).flipTags
    else s
  | .none => s

/-- Close a lane that drained or was squashed: a deleted one returns to the free lanes (R99). One squashed by a tamper response opens
again where the device kept serving, else with what a class 3 fault squashed; that opens where the fault is over, and under the grave
latch none does (R478, R543). -/
def State.closeLane (s : State) (l : Nat) : State :=
  let x := s.lane l
  match x.cause with
  | .deletion => ({ s with lanes := s.lanes.erase l }).tagDeleted x.colour
  | .tamper =>
    if s.faults.class3Active then s.setLane l { x with state := .closed, cause := .class3 }
    else
      let s := s.setLane l { x with state := .closed }
      if s.power.dev = .tamperErased ∨ s.faults.grave then s else s.reinstate l
  | .class3 =>
    let s := s.setLane l { x with state := .closed }
    if s.faults.class3Active ∨ s.faults.grave then s else s.reinstate l
  | _ => s.setLane l { x with state := .closed }

/-- LANE_EMPTY: a DRAINING or SQUASHING lane with nothing left closes (R99). -/
def execLaneEmpty (lane : Nat) (s : State) : Res :=
  checked (laneOk lane)
    (let st := (s.lane lane).state
     if (st = .draining ∨ st = .squashing) ∧ s.laneBusy lane = false then s.closeLane lane else s)

/-- Every lane of a tenant colour. -/
def State.tenantLanes (s : State) : List Nat := (s.lanes.filter fun p => p.2.colour != 0 && p.2.colour != 0xFFF).map Prod.fst

/-- Reinstate the lanes that closed for a cause (R543). -/
def State.reinstateFor (s : State) (p : LaneCause → Bool) : State :=
  ((s.lanes.filter fun q => p q.2.cause && q.2.state == .closed).map Prod.fst).foldl State.reinstate s

end Sys2Proof.Machine
end

