-- ==== Sys2Proof/Machine/Sessions.lean ====
section
/-! DEFINITION. Freri sessions (R291-R294, R309, R314, R318, R546): their keys, the port session, the commands that open and
close them, the planned stop of a port. -/

namespace Sys2Proof.Machine

/-! ## Keys and opening -/

/-- The GMAC key of a session (R292). -/
def sessionKey (base : Bytes) (p n : Nat) (serial : Word) : Bytes :=
  let x := fun (i : Nat) => natBE 4 i ++ ascii "FRERI-GMAC" ++ [0] ++ natBE 1 p ++ natBE 2 n ++ natBE 8 serial.toNat ++ natBE 4 0x100
  aesCmac base (x 1) ++ aesCmac base (x 2)

/-- Whether a key meets the rule for base keys (R291). -/
def baseKeyOk (k : Key) : Bool := k.attrs.ktype == 3 && k.enters eBulk && k.may uMacGen && k.may uMacVerify

/-- The base key under a handle of a colour, where it meets the rule. -/
def State.baseKey (s : State) (c : Colour) (h : Word) : State × Option Bytes :=
  match s.fetchKey c h with
  | (s, some k) => (s, if baseKeyOk k then some k.material else .none)
  | (s, .none) => (s, .none)

/-- Whether a handle's tin cannot be opened because the operator master key is absent (R545). -/
def State.tinShut (s : State) (c : Colour) (h : Word) : Bool :=
  s.omk.isNone && (s.record c h).any fun r => r.1.context == 0

/-- A session freshly opened, numbers at zero (R292, R293). -/
def newSession (c : Colour) (vc : Nat) (itin bulk : Bool) (weight : Nat) (h : Word) (serial : Word) (key : Bytes) : Session :=
  { colour := c, vc := vc, itin := itin, bulk := bulk, vault := false, weight := weight, baseKey := h, serial := serial, key := key,
    sendSeq := 0, recvSeq := 0, closing := false, use := [] }

/-- Take the next open serial (R292). -/
def State.nextSerial (s : State) : State := { s with openSerial := s.openSerial + 1 }

/-- Open the port session anew: at once on a port that is DOWN or with `now`, else at its next change from DOWN to UP (R292). -/
def State.openPortSession (s : State) (p : Nat) (h : Word) (key : Bytes) (now : Bool := false) : State :=
  let s := s.nextSerial
  let x := newSession 0 0 false false 1 h s.openSerial (sessionKey key p 0 s.openSerial)
  let pt := s.port p
  if pt.link = .down ∨ now then s.setPort p { pt with sessions := pt.sessions.set 0 x, nextPort := .none }
  else s.setPort p { pt with nextPort := some x }

/-- Open the port session of a start-up once its base key is there, on a port that is UP too, which then tells what its sessions may
send (R308, R546). -/
def State.reopenPort (s : State) (p : Nat) : State :=
  let pt := s.port p
  if pt.baseKey = 0 ∨ pt.sessions.has 0 ∨ pt.nextPort.isSome then s
  else
    match s.baseKey 0 pt.baseKey with
    | (s, some k) => (s.openPortSession p pt.baseKey k true).creditsDue p
    | (s, .none) => s

/-- What a key record's arrival in the warm store lets begin: the port sessions (R546) and the vault's reload (R243). -/
def State.keyArrived (s : State) : State := ((s.reopenPort 0).reopenPort 1).vaultReload

/-! ## Closing (R294) -/

/-- Whether a descriptor belongs to a session. -/
def Desc.ofSession (d : Desc) (p n : Nat) : Bool := d.port == p && d.session == n

/-- Whether anything of a session remains in flight (R294). -/
def State.sessionBusy (s : State) (p n : Nat) : Bool :=
  let pt := s.port p
  s.depot.items.any (fun i => i.desc.ofSession p n) ||
  s.seats.any (fun q => q.2.phase != .empty && q.2.desc.ofSession p n) ||
  s.clusters.any (fun q => q.2.mae.running.any (fun j => j.desc.ofSession p n) || q.2.mae.saved.any (fun j => j.desc.ofSession p n)) ||
  s.held.any (fun h => h.desc.ofSession p n) ||
  pt.streams.any (fun x => x.session == n) ||
  s.vault.reqs.any (fun r => r.port == p && r.session == n) ||
  pt.held.any (fun h => fieldBE (h.2.2.drop 4) 2 2 % 4096 == n) ||
  pt.waitQ.any (fun m => fieldBE m.bytes 2 2 == n) ||
  pt.retry.any (fun f => f.tickets.any fun d => d.ofSession p n)

/-- Close a session: its streams end, what waits for it is dropped, its window passes to the others (R294, R300, R309). -/
def State.closeSession (s : State) (p n : Nat) : State :=
  match (s.port p).sessions.find? n with
  | .none => s
  | some x =>
    let s := ((s.port p).streams.filter fun y => y.session == n).foldl State.dropStream s
    let pt := s.port p
    let s := s.setPort p { pt with sessions := pt.sessions.erase n, waitQ := pt.waitQ.filter fun m => fieldBE m.bytes 2 2 != n }
    let s := s.modVault fun v => { v with sessions := v.sessions.filter fun q => !(q.1 == p && q.2 == n) }
    s.creditColour x.colour

/-- SESSION_CLOSED: a CLOSING session with nothing in flight closes. -/
def execSessionClosed (port session : Nat) (s : State) : Res :=
  checked (sessionOk port session)
    (if ((s.port port).sessions.find? session).any (·.closing) ∧ s.sessionBusy port session = false then s.closeSession port session else s)

/-- SESSION_CLOSE_TIMEOUT: 10 ms after the command it closes all the same. -/
def execSessionCloseTimeout (port session : Nat) (s : State) : Res :=
  checked (sessionOk port session)
    (if ((s.port port).sessions.find? session).any (·.closing) then s.closeSession port session else s)

/-! ## The planned stop (R314) -/

/-- The lanes only this port's sessions feed. -/
def State.lanesOfPort (s : State) (p : Nat) : List Nat :=
  (s.lanes.filter fun q =>
    (s.allSessions.any fun x => x.1 == p && x.2.2.feeds q.2) && !(s.allSessions.any fun x => x.1 != p && x.2.2.feeds q.2)).map Prod.fst

/-- Begin a planned stop: GOING_AWAY with the drain interval, the lanes fed by this port alone into DRAINING. -/
def State.plannedStop (s : State) (p reason : Nat) (clears : Bool) : State :=
  let pt := s.port p
  let s := s.sendMsg p 0 0x32 0 reason 0 (BitVec.ofNat 64 (pt.drainUs * 1000)) [] .none
  let s := s.setPort p { s.port p with stop := .draining, stopClears := clears, stopReason := reason }
  let s := if s.power.dev = .ready then s.setDev .stopping else s
  (s.lanesOfPort p).foldl (fun s l => s.drainLane l (.plannedStop p)) s

/-- STOPPING ends with the last planned stop, unless deep standby or an activation goes on (Table 10.8). -/
def State.stopOver (s : State) : State :=
  let over_ := s.port0.stop == StopPhase.none && s.port1.stop == StopPhase.none && s.power.standby == Standby.none && !s.power.activating
  if s.power.dev = .stopping ∧ over_ then s.setDev .ready else s

/-- The port goes DOWN at the end of its planned stop. -/
def State.stopEnds (s : State) (p : Nat) : State :=
  let s := s.portDown p
  let pt := s.port p
  let s := s.setPort p { pt with stop := .none, stopClears := false, enable := pt.enable && !pt.stopClears }
  s.stopOver

/-- DRAIN_INTERVAL_END: streams still open are aborted, and the port waits for its acknowledgements. -/
def execDrainIntervalEnd (port : Nat) (s : State) : Res :=
  checked (portOk port)
    (if (s.port port).stop = .draining then
      let s := ((s.port port).streams.map Stream.key).foldl State.abortStream s
      s.setPort port { s.port port with stop := .ackWait }
    else s)

/-- PLANNED_STOP_DOWN: every frame is acknowledged, and the port goes DOWN. -/
def execPlannedStopDown (port : Nat) (s : State) : Res :=
  checked (portOk port)
    (if (s.port port).stop = .ackWait ∧ (s.port port).retry.isEmpty ∧ (s.port port).waitQ.isEmpty then s.stopEnds port else s)

/-- PORT_ACK_WAIT_END: 100 µs after the drain interval the port goes DOWN. -/
def execPortAckWaitEnd (port : Nat) (s : State) : Res :=
  checked (portOk port) (if (s.port port).stop = .ackWait then s.stopEnds port else s)

/-! ## Entering TRAINING (R286, R495) -/

/-- Whether start-up has come to step 9b, which applies the port configuration (R546, Table 18.4). -/
def StartStep.portsRun (x : StartStep) : Bool := x == .s9b || x == .s10 || x == .done

/-- Whether a port may leave DOWN: enabled, clocked, no class 3 or 4 fault, no reset, start-up at step 9b, not held DOWN by R297. -/
def State.mayTrain (s : State) (p : Nat) : Bool :=
  let pt := s.port p
  pt.link == .down && pt.enable && pt.refclk && !pt.violDown && !s.faults.class3Active && !s.faults.grave && !s.power.porst && s.power.step.portsRun

/-- Begin training where the port may. -/
def State.train (s : State) (p : Nat) : State :=
  if s.mayTrain p then s.setPort p { s.port p with link := .training } else s

/-! ## The commands (Table 9.11) -/

/-- FRERI.CONFIG. -/
def execFreriConfig (c : Cmd) (s : State) : Res :=
  let b := c.body
  let p := fieldLE b 0 1
  let enable := bit (fieldLE b 1 1) 0
  let stop := bit (fieldLE b 1 1) 1
  let h := BitVec.ofNat 64 (fieldLE b 8 8)
  let eqOk := (List.range 5).all fun i => zeroAt b (19 + 4 * i) 1
  runCmd 0x0901 c (b.length == 40 && decide (fieldLE b 1 1 < 4) && zeroAt b 2 2 && eqOk && zeroAt b 36 4) s fun sp s =>
    let pt := s.port p
    if 1 < p ∨ fieldLE b 4 4 < 100 ∨ 100000 < fieldLE b 4 4 ∨ (stop ∧ !enable) then s.reject c cInvalid
    else if h ≠ 0 ∧ s.tinShut 0 h then s.reject c cBadState
    else
      let (s', key) := if h = 0 then (s, .none) else s.baseKey 0 h
      if h ≠ 0 ∧ key.isNone then s.reject c 0x0102
      else if enable ∧ h = 0 ∧ pt.baseKey = 0 then s.reject c cInvalid
      else if stop ∧ pt.link ≠ .up then s.reject c cBadState
      else
        let s := s'.setPort p { s'.port p with
          enable := enable, drainUs := fieldLE b 4 4, equal := slice b 16 20, baseKey := if h = 0 then pt.baseKey else h }
        let s := match key with
          | some k => s.openPortSession p h k
          | .none => s
        let s := if enable then s.train p else s.portDown p
        let s := if stop then s.plannedStop p 1 true else s
        answer c s sp (natLE 8 (if h = 0 then 0 else s.openSerial.toNat))

/-- FRERI.SESSION.OPEN. -/
def execFreriSessionOpen (c : Cmd) (s : State) : Res :=
  let b := c.body
  let p := fieldLE b 0 1
  let vc := fieldLE b 1 1
  let n := fieldLE b 2 2
  let roles := fieldLE b 4 1
  let w := fieldLE b 5 1
  let h := BitVec.ofNat 64 (fieldLE b 8 8)
  runCmd 0x0902 c (b.length == 16 && decide (roles < 4) && zeroAt b 6 2) s fun sp s =>
    if 1 < p ∨ vc = 0 ∨ 7 < vc ∨ n = 0 ∨ 4095 < n ∨ w = 0 then s.reject c cInvalid
    else if (s.port p).sessions.has n then s.reject c cExists
    else if s.tinShut c.colour h then s.reject c cBadState
    else
      match s.baseKey c.colour h with
      | (_, .none) => s.reject c 0x0102
      | (s, some k) =>
        let s := s.nextSerial
        let x := newSession c.colour vc (bit roles 0) (bit roles 1) w h s.openSerial (sessionKey k p n s.openSerial)
        let s := (s.setSession p n x).sendCredit p n true
        answer c s sp (natLE 8 s.openSerial.toNat)

/-- FRERI.SESSION.CLOSE. -/
def execFreriSessionClose (c : Cmd) (s : State) : Res :=
  let b := c.body
  let p := fieldLE b 0 1
  let n := fieldLE b 2 2
  runCmd 0x0903 c (b.length == 8 && zeroAt b 1 1 && zeroAt b 4 4) s fun sp s =>
    if 1 < p ∨ n = 0 ∨ 4095 < n then s.reject c cInvalid
    else if ((s.port p).sessions.find? n).any (fun x => x.colour == c.colour) then
      answer c ((s.modSession p n fun x => { x with closing := true }).creditColour c.colour) sp []
    else s.reject c cNotFound

/-- A link state by its place in Table 9.3. -/
def LinkState.code (l : LinkState) : Nat :=
  match l with
  | .down => 0
  | .training => 1
  | .init => 2
  | .up => 3
  | .retrain => 4

/-- FRERI.STATUS. The CTLE setting, the first tap and the corrected symbols are those last sampled; the other taps, which no sample
reads, are free values (R271). -/
def execFreriStatus (c : Cmd) (s : State) : Res :=
  let b := c.body
  let p := fieldLE b 0 1
  runCmd 0x0904 c (b.length == 8 && zeroAt b 1 7) s fun sp s =>
    if 1 < p then s.reject c cInvalid
    else
      let pt := s.port p
      let lane := fun (i : Nat) => [BitVec.ofInt 8 (pt.ctle.get i 0), BitVec.ofInt 8 (pt.tap1.get i 0)] ++
        ((s.freeBytes 55).drop (11 * i)).take 11 ++ [0, 0, 0] ++ natLE 8 (pt.symbols.get i 0)
      let viol := (List.range 15).flatMap fun i => natLE 8 (pt.viol.get (i + 1) 0)
      let serial := ((pt.sessions.find? 0).map (·.serial)).getD 0
      answer c (s.drawnBytes 55) sp
        (natLE 1 pt.link.code ++ [0] ++ natLE 2 pt.epoch.toNat ++ natLE 2 pt.peerEpoch.toNat ++
         (pt.laneMap.toList.map (BitVec.ofNat 8)) ++ List.replicate 6 0 ++ (List.range 5).flatMap lane ++
         natLE 8 pt.replays.toNat ++ natLE 8 pt.nakSent.toNat ++ natLE 8 pt.nakGot.toNat ++ natLE 8 pt.creditHolds.toNat ++
         natLE 4 pt.sessions.length ++ natLE 4 pt.streams.length ++ viol ++ natLE 8 serial.toNat)

end Sys2Proof.Machine
end

