-- ==== Sys2Proof/Machine/Cards.lean ====
section
/-! DEFINITION. Custodian card slots and ceremonies (chapter 15): activation, T=1, the applet's commands, record writes and
their tears, the ceremony, its authorisation and CEREMONY.OMK. -/

namespace Sys2Proof.Machine

/-! ## Blocks on the wire (R431) -/

/-- One byte of the CRC-16 of ISO/IEC 13239 (PRESUMED, log entry 9). -/
def crc16Byte (c : BitVec 16) (b : Byte) : BitVec 16 :=
  Nat.repeat (fun (x : BitVec 16) => if x.getLsbD 0 then (x >>> 1) ^^^ 0x8408#16 else x >>> 1) 8 (c ^^^ b.zeroExtend 16)

/-- The EDC of a block: LRC, or CRC where the ATR states it, high byte first (R12). -/
def edc (crc : Bool) (b : Bytes) : Bytes :=
  if crc then natBE 2 (~~~(b.foldl crc16Byte 0xFFFF#16)).toNat else [b.foldl (· ^^^ ·) 0]

/-- A T=1 block. -/
def t1Bytes (crc : Bool) (pcb : Nat) (inf : Bytes) : Bytes :=
  let x := [0, BitVec.ofNat 8 pcb, BitVec.ofNat 8 inf.length] ++ inf
  x ++ edc crc x

/-- Whether a received block is whole. -/
def t1Ok (crc : Bool) (b : Bytes) : Bool :=
  let n := fieldBE b 2 1
  n != 255 && b.length == 3 + n + (if crc then 2 else 1) && edc crc (b.take (3 + n)) == b.drop (3 + n)

/-- Change a card slot. -/
def State.modCard (s : State) (n : Nat) (f : CardSlot → CardSlot) : State := s.setCard n (f (s.card n))

/-- Send a block and keep it for a retransmission. -/
def State.sendBlock (s : State) (n pcb : Nat) (inf : Bytes) : State :=
  let b := t1Bytes (s.card n).crc pcb inf
  (s.modCard n fun c => { c with lastCmd := b }).emit (.card n b)

/-- Send an R-block. -/
def State.sendR (s : State) (n err : Nat) : State :=
  s.emit (.card n (t1Bytes (s.card n).crc (0x80 + 16 * b2n (s.card n).nr + err) []))

/-- Send a piece of a command in an I-block, chained while more follows. -/
def State.sendI (s : State) (n : Nat) (inf : Bytes) : State :=
  let c := s.card n
  let rest := inf.drop c.ifsc
  (s.modCard n fun c => { c with txRest := rest }).sendBlock n (64 * b2n c.ns + (if rest.isEmpty then 0 else 32)) (inf.take c.ifsc)

/-- Begin a command of the exchange. -/
def State.apdu (s : State) (n : Nat) (phase : SlotPhase) (bytes : Bytes) : State :=
  (s.modCard n fun c => { c with phase := phase, retries := 0, wtx := 0, rx := [] }).sendI n bytes

/-- Whether a slot is in the middle of the applet exchange. -/
def SlotPhase.exchanging (p : SlotPhase) : Bool :=
  match p with
  | .select => true
  | .info => true
  | .auth => true
  | .share => true
  | .read => true
  | .write => true
  | _ => false

/-! ## The ceremony (R438-R443) -/

/-- Change the ceremony. -/
def State.modCeremony (s : State) (f : Ceremony → Ceremony) : State :=
  { s with cards := { s.cards with ceremony := s.cards.ceremony.map f } }

/-- The ceremony in progress. -/
def State.openCeremony (s : State) : Option Ceremony := s.cards.ceremony.filter fun y => y.state != .aborted

/-- Abort the ceremony: shares cleared, its authorisation void, the slots it needed deactivated (R427, R443). -/
def State.abortCeremony (s : State) : State :=
  if s.openCeremony.isNone then s
  else
    let s := (s.cardOff 0).cardOff 1
    s.modCeremony fun y =>
      { y with state := .aborted, auth := .none, torn := .none, joined := y.joined.map fun (j : Joined) => { j with share := [] } }

/-- Consume the authorisation a command presents: bound to its opcode and to its body with the field zero (R352). -/
def State.useAuth (s : State) (op off : Nat) (body : Bytes) : Option State :=
  match s.cards.ceremony with
  | some y =>
    let shown := BitVec.ofNat 64 (fieldLE body off 8)
    if y.state = .granted ∧ y.auth = some shown ∧ y.purpose.toNat = op ∧ y.digest = sha384 (splice body off (List.replicate 8 0)) then
      some s.abortCeremony
    else .none
  | .none => .none

/-- Whether the ceremony takes cards now. -/
def Ceremony.takesCards (y : Ceremony) : Bool :=
  match y.state with
  | .waiting => true
  | .firstCard => true
  | .outcomeUnknown => true
  | .granted => y.purpose == 0x0C04 && decide (y.enrolled.length < 6)
  | .aborted => false

/-- Whether a card is in the ceremony already. -/
def Ceremony.has (y : Ceremony) (serial : Word) : Bool := (y.joined ++ y.enrolled).any fun (j : Joined) => j.serial == serial

/-- The SELECT of the custodian applet (R433). -/
def selectApdu : Bytes := [0x00, 0xA4, 0x04, 0x00, 0x08, 0xF0, 0x4F, 0x52, 0x43, 0x55, 0x53, 0x54, 0x01]

/-- Begin the exchange with the next card the ceremony may take, H.CARD0 first, one card at a time (R439). -/
def State.joinNext (s : State) : State :=
  match s.openCeremony with
  | some y =>
    if !y.takesCards || [0, 1].any (fun n => (s.card n).phase.exchanging || (s.card n).phase == .waitRoom) then s
    else
      let ready := fun (n : Nat) =>
        let c := s.card n
        c.phase == .idle && (c.serial == 0 || (y.state != .outcomeUnknown && !y.has c.serial))
      match [0, 1].find? ready with
      | some n => s.apdu n .select selectApdu
      | .none => s
  | .none => s

/-- Activate a slot (R428): at class C from CARDn_VCC, at class B by CARDn_VCC_EN (R426). -/
def State.activateCard (s : State) (n : Nat) (classB noPps : Bool) : State :=
  (s.setCard n { CardSlot.fresh with inserted := true, phase := .awaitAtr, classB := classB, noPps := noPps }).emit (.cardOn n classB)

/-- Refuse a card (Table 15.6): it stays off until it is taken out. -/
def State.refuseCard (s : State) (n reason : Nat) : State :=
  let c := s.card n
  let detail := BitVec.ofNat 64 (c.serial.toNat % 2 ^ 56 * 256 + reason)
  let s := (s.setCard n { CardSlot.fresh with inserted := c.inserted, phase := .refused }).emit (.cardOff n)
  (s.fault 0 0x50 (srcHub (0x12 + n)) detail).joinNext

/-- The exchange with a card fails: CARD_PROTOCOL, the card deactivated (R431, R435). -/
def State.cardFails (s : State) (n : Nat) : State :=
  let serial := (s.card n).serial
  ((s.fault 0 0x51 (srcHub (0x12 + n)) serial).cardOff n).joinNext

/-- The parameters are set: the information field size goes (R429). -/
def State.sendIfs (s : State) (n : Nat) : State := (s.modCard n fun c => { c with phase := .awaitIfs }).sendBlock n 0xC1 [254]

/-! ## Record writes (R436, R437, R441, R442) -/

/-- The journal names a card's record: colour 0, no ticket, no lane. -/
def cardDesc : Desc := { Desc.none with lane := 16384 }

/-- An anchored record of a card's write. -/
def State.cardMile (s : State) (typ : BitVec 8) (aux : BitVec 16) (serial : Word) (version : BitVec 32) : State :=
  s.anchor (s.mile cardDesc typ true true 3 aux serial version)

/-- Where the record of a counter goes. -/
def recordAddr (c : BitVec 32) : Nat := 128 * (c.toNat % 32)

/-- The kind of record a card gets: approval, approval with share, enrolment. -/
def Ceremony.recordKind (y : Ceremony) : Nat := if y.state = .granted then 3 else if y.purpose = 0x0C04 then 2 else 1

/-- The ceremony record (Table 15.3). -/
def State.ceremonyRecord (s : State) (y : Ceremony) (n : Nat) : Bytes :=
  [1, BitVec.ofNat 8 y.recordKind] ++ natBE 2 y.purpose.toNat ++ natBE 1 n ++ [0, 0, 0] ++ natBE 8 y.id.toNat ++
  natBE 16 Config.deviceId.toNat ++ natBE 6 s.time.secs.toNat ++ [0, 0] ++ y.digest ++
  natBE 8 ((y.joined.head?.map fun (j : Joined) => j.serial).getD 0).toNat ++ List.replicate 32 0

/-- Write a card's record: the intent, then WRITE_AREA. The intent waits while the anchor log has no room for it (R259). -/
def State.writeRecord (s : State) (n : Nat) (y : Ceremony) : State :=
  if s.journal.intentRoom then
    let c := s.card n
    let data := s.ceremonyRecord y n
    let addr := natBE 2 (recordAddr c.counter)
    let mac := aesCmac c.kMac (natBE 4 c.counter.toNat ++ addr ++ data)
    let s := (s.cardMile 4 0 c.serial c.counter).modCard n fun c => { c with record := data }
    s.apdu n .write ([0x80, 0x42, 0, 0, 146] ++ addr ++ data ++ mac)
  else
    ({ s with journal := { s.journal with waits := s.journal.waits + 1 } }).modCard n fun c => { c with phase := .waitRoom }

/-- The first card whose record waits for anchor log space. -/
def State.firstCardWait (s : State) : Option Nat := [0, 1].find? fun n => (s.card n).phase == .waitRoom

/-- A card joins: the ceremony advances (Table 15.4). The authorisation's value is a free one. -/
def State.cardJoins (s : State) (j : Joined) : State :=
  match s.openCeremony with
  | some y =>
    if y.state = .granted then s.modCeremony fun y => { y with enrolled := y.enrolled ++ [j] }
    else if y.joined.isEmpty then s.modCeremony fun y => { y with state := .firstCard, joined := [j], torn := .none }
    else
      let auth := if y.purpose = 0x0C04 then .none else some s.free
      s.drawn.modCeremony fun y => { y with state := .granted, joined := y.joined ++ [j], auth := auth, grantedAt := s.now, torn := .none }
  | .none => s

/-- The card's torn write, if it left one. -/
def State.tornOf (s : State) (serial : Word) : Option Torn := List.find? (fun (t : Torn) => t.serial == serial) s.cards.torn

/-- Close a torn write's intent with its OUTCOME; an open ceremony that waits for it moves on (R442). -/
def State.settleTorn (s : State) (t : Torn) (landed : Option Bool) : State :=
  let aux : BitVec 16 := if landed.isNone then 3 else 1
  let version := match landed with
    | some true => t.before + 1
    | some false => t.before
    | .none => 0
  let s := s.cardMile 6 aux t.serial version
  let s := { s with cards := { s.cards with torn := eraseFirst (· == t) s.cards.torn } }
  match s.openCeremony with
  | some y =>
    if y.state = .outcomeUnknown ∧ y.id = t.ceremony ∧ y.torn = some t.serial then
      match landed with
      | some true => s.cardJoins { serial := t.serial, keyHash := t.keyHash, share := t.share }
      | some false => s.modCeremony fun y => { y with state := if y.joined.isEmpty then .waiting else .firstCard, torn := .none }
      | .none => s.abortCeremony
    else s
  | .none => s

/-! ## The exchange (R433-R440) -/

/-- GET_INFO. -/
def infoApdu : Bytes := [0x80, 0x10, 0, 0, 0]

/-- A slot's ephemeral private scalar, and its public key (R434). -/
def cardScalar (seed : Word) : Nat := p256.scalar (Config.cardSeed seed)
def cardEphemeral (seed : Word) : Bytes := p256.public (cardScalar seed)

/-- AUTH, under a fresh ephemeral key and nonce. -/
def State.sendAuth (s : State) (n : Nat) : State :=
  let seed := s.free
  let s := s.drawn
  let nonce := BitVec.ofNat 128 (beNat (s.hubBytes 16))
  let s := (s.hubRead 16).modCard n fun c => { c with seed := seed, nonce := nonce }
  s.apdu n .auth ([0x80, 0x12, 0, 0, 97] ++ cardEphemeral seed ++ natBE 16 Config.deviceId.toNat ++ natBE 16 nonce.toNat)

/-- A card with an open session goes on to join: roster, repeat, share, record (R439, R440). -/
def State.proceed (s : State) (n : Nat) : State :=
  let c := s.card n
  match s.openCeremony with
  | some y =>
    let listed := s.cards.roster.isEmpty || s.cards.roster.contains (c.serial, hash 2 c.cardKey)
    if !y.takesCards || y.state == .outcomeUnknown then (s.modCard n fun c => { c with phase := .idle }).joinNext
    else if y.has c.serial then s.refuseCard n 8
    else if y.state != .granted && !listed then s.refuseCard n 7
    else if y.state != .granted && y.purpose == 0x0C04 then s.apdu n .share [0x80, 0x30, 0, 0, 0]
    else s.writeRecord n y
  | .none => s.modCard n fun c => { c with phase := .idle }

/-- The answer to GET_INFO: serial, counter, key; a torn write whose counter did not move did not land (R442). -/
def State.gotInfo (s : State) (n : Nat) (d : Bytes) : State :=
  let serial := BitVec.ofNat 64 (fieldBE d 0 8)
  let counter := BitVec.ofNat 32 (fieldBE d 12 4)
  let s := s.modCard n fun c => { c with serial := serial, counter := counter, cardKey := slice d 16 65 }
  let s := match s.tornOf serial with
    | some t => if counter ≤ t.before then s.settleTorn t (some false) else s
    | .none => s
  if s.openCeremony.isSome then s.sendAuth n else s

/-- The session keys (R434): the one-step KDF of SP 800-56C with SHA-256 (PRESUMED, log entry 9). -/
def sessionMaterial (c : CardSlot) : Bytes :=
  let z := (p256.ecdh (cardScalar c.seed) c.cardKey).getD []
  let info := ascii "HX7-CARD" ++ natBE 16 Config.deviceId.toNat ++ natBE 8 c.serial.toNat ++ natBE 16 c.nonce.toNat
  hash 2 (natBE 4 1 ++ z ++ info) ++ hash 2 (natBE 4 2 ++ z ++ info)

/-- READ_AREA of a torn write's place. -/
def readApdu (t : Torn) : Bytes := [0x80, 0x40, 0, 0, 3] ++ natBE 2 (recordAddr t.before) ++ [128]

/-- The answer to AUTH. -/
def State.gotAuth (s : State) (n : Nat) (d : Bytes) : State :=
  let c := s.card n
  let signed := cardEphemeral c.seed ++ slice d 0 65 ++ natBE 16 Config.deviceId.toNat ++ natBE 16 c.nonce.toNat
  if !ecdsaP256Verify c.cardKey (hash 2 signed) (slice d 65 64) then s.refuseCard n 6
  else
    let km := sessionMaterial { c with cardKey := slice d 0 65 }
    let s := s.modCard n fun c => { c with kEnc := km.take 32, kMac := km.drop 32 }
    match s.tornOf c.serial with
    | some t => s.apdu n .read (readApdu t)
    | .none => s.proceed n

/-- The answer to READ_AREA: whether the torn record is there (R442). -/
def State.gotArea (s : State) (n : Nat) (d : Bytes) : State :=
  let c := s.card n
  match s.tornOf c.serial with
  | .none => s.proceed n
  | some t =>
    let counter := BitVec.ofNat 32 (fieldBE d 128 4)
    let mac := aesCmac c.kMac (natBE 4 counter.toNat ++ natBE 2 (recordAddr t.before) ++ d.take 128)
    if mac ≠ slice d 132 16 then s.cardFails n
    else
      let there := fieldBE d 8 8 == t.ceremony.toNat && fieldBE d 16 16 == Config.deviceId.toNat
      let ours := s.openCeremony.any fun y => y.state == .outcomeUnknown && y.id == t.ceremony && y.torn == some t.serial
      if there then
        let s := s.settleTorn t (some true)
        if ours then (s.modCard n fun c => { c with phase := .idle }).joinNext else s.proceed n
      else if counter.toNat < t.before.toNat + 32 then (s.settleTorn t (some false)).proceed n
      else
        let s := s.settleTorn t .none
        if s.openCeremony.isSome then s.proceed n else s

/-- The answer to GET_SHARE. -/
def State.gotShare (s : State) (n : Nat) (d : Bytes) : State :=
  let c := s.card n
  match gcmOpen c.kEnc (natBE 12 1) (natBE 8 c.serial.toNat) d, s.openCeremony with
  | some share, some y => (s.modCard n fun c => { c with share := share }).writeRecord n y
  | .none, _ => s.cardFails n
  | _, .none => s

/-- The receipt of WRITE_AREA (R437): the record has landed. -/
def State.gotReceipt (s : State) (n : Nat) (d : Bytes) : State :=
  let c := s.card n
  let counter := BitVec.ofNat 32 (fieldBE d 0 4)
  if counter ≠ c.counter + 1 ∨ aesCmac c.kMac (natBE 4 counter.toNat ++ natBE 2 (recordAddr c.counter)) ≠ slice d 4 16 then s.cardFails n
  else
    let s := s.cardMile 5 0 c.serial counter
    let s := s.cardJoins { serial := c.serial, keyHash := hash 2 c.cardKey, share := c.share }
    (s.modCard n fun c => { c with phase := .idle, counter := counter, share := [], record := [] }).joinNext

/-- A whole answer of the applet (Table 15.2). -/
def State.cardAnswer (s : State) (n : Nat) (r : Bytes) : State :=
  let d := r.take (r.length - 2)
  let sw := fieldBE r (r.length - 2) 2
  let ok := fun (len : Nat) => sw == 0x9000 && d.length == len
  match (s.card n).phase with
  | .select => if r.length ≥ 2 ∧ sw = 0x9000 then s.apdu n .info infoApdu else s.refuseCard n 5
  | .info => if ok 81 then s.gotInfo n d else s.cardFails n
  | .auth => if ok 129 then s.gotAuth n d else s.cardFails n
  | .share => if sw = 0x6985 then s.refuseCard n 9 else if ok 48 then s.gotShare n d else s.cardFails n
  | .read => if ok 148 then s.gotArea n d else s.cardFails n
  | .write => if ok 20 then s.gotReceipt n d else s.cardFails n
  | _ => s

/-- A block in error or none in time: an R-block, up to three (R431). -/
def State.t1Error (s : State) (n : Nat) : State :=
  let s := s.count 301 (5 * n)
  if 3 ≤ (s.card n).retries then s.cardFails n
  else ((s.modCard n fun c => { c with retries := c.retries + 1 }).count 301 (5 * n + 1)).sendR n 1

/-- A sound I-block. -/
def State.gotI (s : State) (n pcb : Nat) (inf : Bytes) : State :=
  let c := s.card n
  if bit pcb 6 != c.nr || !c.txRest.isEmpty || c.phase == .awaitIfs then s.t1Error n
  else
    let s := s.modCard n fun c => { c with nr := !c.nr, ns := if c.rx.isEmpty then !c.ns else c.ns, rx := c.rx ++ inf, retries := 0 }
    if bit pcb 5 then s.sendR n 0
    else
      let r := (s.card n).rx
      (s.modCard n fun c => { c with rx := [] }).cardAnswer n r

/-- A sound R-block: the next piece of a chain, or the last block again. -/
def State.gotR (s : State) (n pcb : Nat) : State :=
  let c := s.card n
  if bit pcb 4 != c.ns && !c.txRest.isEmpty then
    (s.modCard n fun c => { c with ns := !c.ns, retries := 0 }).sendI n c.txRest
  else if 3 ≤ c.retries then s.cardFails n
  else ((s.modCard n fun c => { c with retries := c.retries + 1 }).count 301 (5 * n + 1)).emit (.card n c.lastCmd)

/-- A sound S-block. -/
def State.gotS (s : State) (n pcb : Nat) (inf : Bytes) : State :=
  if pcb = 0xE1 ∧ (s.card n).phase = .awaitIfs then (s.modCard n fun c => { c with phase := .idle, retries := 0 }).joinNext
  else if pcb = 0xC1 ∧ inf.length = 1 then
    (s.modCard n fun c => { c with ifsc := fieldBE inf 0 1 }).emit (.card n (t1Bytes (s.card n).crc 0xE1 inf))
  else if pcb = 0xC3 ∧ inf.length = 1 then
    ((s.modCard n fun c => { c with wtx := c.wtx + fieldBE inf 0 1 }).count 301 (5 * n + 2)).emit (.card n (t1Bytes (s.card n).crc 0xE3 inf))
  else s.t1Error n

/-- Whether a slot waits for a block of the card. -/
def SlotPhase.talks (p : SlotPhase) : Bool := p.exchanging || p == .awaitIfs

/-- T1_BLOCK. -/
def execT1Block (slot : Nat) (bytes : Bytes) (s : State) : Res :=
  checked (slotOk slot)
    (let c := s.card slot
     if !c.phase.talks then s
     else if !t1Ok c.crc bytes then s.t1Error slot
     else
      let pcb := fieldBE bytes 1 1
      let inf := slice bytes 3 (fieldBE bytes 2 1)
      if pcb < 0x80 then s.gotI slot pcb inf else if pcb < 0xC0 then s.gotR slot pcb else s.gotS slot pcb inf)

/-- BLOCK_WAITING_TIMEOUT. -/
def execBlockWaitingTimeout (slot : Nat) (s : State) : Res :=
  checked (slotOk slot) (if (s.card slot).phase.talks then s.t1Error slot else s)

/-- WTX_CEILING. -/
def execWtxCeiling (slot : Nat) (s : State) : Res :=
  checked (slotOk slot) (if (s.card slot).phase.talks then s.cardFails slot else s)

/-! ## Activation, ATR and PPS (R426-R429) -/

/-- CARD_INSERTED: the slot is activated at class C. -/
def execCardInserted (slot : Nat) (s : State) : Res :=
  checked (slotOk slot) (if (s.card slot).inserted then s else s.activateCard slot false false)

/-- CARD_REMOVED: the slot is deactivated. -/
def execCardRemoved (slot : Nat) (s : State) : Res :=
  checked (slotOk slot)
    (if (s.card slot).inserted then
      let s := (s.count 301 (5 * slot + 3)).cardOff slot
      (s.setCard slot CardSlot.fresh).joinNext
    else s)

/-- CARD_INACTIVITY: 60 s without a command. -/
def execCardInactivity (slot : Nat) (s : State) : Res := checked (slotOk slot) ((s.cardOff slot).joinNext)

/-- What an ATR states: TA1, TA2, the protocols offered, whether the EDC is a CRC, the card's information field size, the
class indicator. -/
structure Atr where
  ta1   : Option Nat
  ta2   : Option Nat
  protos : List Nat
  crc   : Bool
  ifsc  : Nat
  cls   : Option Nat

/-- Read the interface bytes of an ATR level by level: how they end, or nothing where they run out. -/
def atrLevels : Nat → Nat → Nat → Nat → Bytes → Atr → Option (Atr × Bytes)
  | 0, _, _, _, _, _ => .none
  | f + 1, i, t, y, b, a =>
    let need := b2n (bit y 0) + b2n (bit y 1) + b2n (bit y 2) + b2n (bit y 3)
    if b.length < need then .none
    else
      let ta := fieldBE b 0 1
      let tc := fieldBE b (b2n (bit y 0) + b2n (bit y 1)) 1
      let td := fieldBE b (need - 1) 1
      let first := !(3 ≤ i && t == 1 && a.protos.dropLast.contains 1)
      let a := if bit y 0 then
          (if i = 1 then { a with ta1 := some ta }
           else if i = 2 then { a with ta2 := some ta }
           else if t = 1 ∧ first then { a with ifsc := ta }
           else if t = 15 then { a with cls := some ta } else a)
        else a
      let a := if bit y 2 ∧ 3 ≤ i ∧ t = 1 ∧ first then { a with crc := bit tc 0 } else a
      if bit y 3 then atrLevels f (i + 1) (td % 16) (td / 16) (b.drop need) { a with protos := a.protos ++ [td % 16] }
      else some (a, b.drop need)

/-- Read an ATR: nothing where it is malformed or its check byte fails (R428; ISO/IEC 7816-3, PRESUMED, log entry 9). -/
def parseAtr (b : Bytes) : Option Atr :=
  let t0 := fieldBE b 1 1
  if b.length < 2 ∨ 33 < b.length ∨ (fieldBE b 0 1 ≠ 0x3B ∧ fieldBE b 0 1 ≠ 0x3F) then .none
  else
    match atrLevels 8 1 16 (t0 / 16) (b.drop 2) { ta1 := .none, ta2 := .none, protos := [], crc := false, ifsc := 32, cls := .none } with
    | .none => .none
    | some (a, r) =>
      let tck := a.protos.any (· != 0)
      if r.length = t0 % 16 + b2n tck ∧ (!tck ∨ (b.drop 1).foldl (· ^^^ ·) 0 = 0) then some a else .none

/-- The clock rate conversion and baud rate factors of TA1 (ISO/IEC 7816-3, PRESUMED). -/
def fiOf (x : Nat) : Nat := [372, 372, 558, 744, 1116, 1488, 1860, 0, 0, 512, 768, 1024, 1536, 2048].getD x 0
def diOf (x : Nat) : Nat := [0, 1, 2, 4, 8, 16, 32, 64, 12, 20].getD x 0

/-- The codes of the factors the HX7 asks for. -/
def fiCode (f : Nat) : Nat := if f = 512 then 9 else 1
def diCode (d : Nat) : Nat := if d = 1 then 1 else if d = 2 then 2 else if d = 4 then 3 else if d = 8 then 4 else if d = 16 then 5 else 6

/-- The largest supported Di that does not exceed a card's (R429). -/
def diAsk (d : Nat) : Nat := ([32, 16, 8, 4, 2, 1].find? fun x => decide (x ≤ d)).getD 1

/-- The PPS request for T=1. -/
def ppsBytes (f d : Nat) : Bytes :=
  let x : Bytes := [0xFF, 0x11, BitVec.ofNat 8 (16 * fiCode f + diCode d)]
  x ++ [x.foldl (· ^^^ ·) 0]

/-- Deactivate, to activate again in 10 ms at class B (R426). -/
def State.tryClassB (s : State) (n : Nat) : State :=
  (s.setCard n { CardSlot.fresh with inserted := true, phase := .awaitB }).emit (.cardOff n)

/-- Whether class B is enabled for a slot and not yet in use. -/
def State.mayClassB (s : State) (n : Nat) : Bool := s.cards.classB.getLsbD n && !(s.card n).classB

/-- ATR: the checks of R428, then PPS or the parameters as they are (R429). -/
def execAtr (slot : Nat) (bytes : Bytes) (s : State) : Res :=
  checked (slotOk slot)
    (let c := s.card slot
     if c.phase ≠ .awaitAtr then s
     else
      match parseAtr bytes with
      | .none => s.refuseCard slot 2
      | some a =>
        if !a.protos.contains 1 then s.refuseCard slot 3
        else if !c.classB && a.cls.any (fun x => !bit x 2) && s.mayClassB slot then s.tryClassB slot
        else
          let s := s.modCard slot fun c => { c with crc := a.crc, ifsc := a.ifsc }
          let ta := a.ta1.getD 0x11
          let f := fiOf (ta / 16)
          let d := diOf (ta % 16)
          if c.noPps then s.sendIfs slot
          else if a.ta2.isSome then
            if (f = 372 ∨ f = 512) ∧ diAsk d = d ∧ d ≠ 0 then (s.modCard slot fun c => { c with fi := f, di := d }).sendIfs slot
            else s.refuseCard slot 4
          else if f = 372 ∧ d = 1 then s.sendIfs slot
          else
            let f' := if f = 512 then 512 else 372
            let d' := diAsk d
            (s.modCard slot fun c => { c with phase := .awaitPps, fi := f', di := d' }).emit (.card slot (ppsBytes f' d')))

/-- ATR_TIMEOUT. -/
def execAtrTimeout (slot : Nat) (s : State) : Res :=
  checked (slotOk slot)
    (if (s.card slot).phase ≠ .awaitAtr then s
     else if s.mayClassB slot then s.tryClassB slot
     else s.refuseCard slot 1)

/-- CLASS_B_REACTIVATE. -/
def execClassBReactivate (slot : Nat) (s : State) : Res :=
  checked (slotOk slot) (if (s.card slot).phase = .awaitB then s.activateCard slot true false else s)

/-- PPS_RESPONSE: an echo, or the card is refused. -/
def execPpsResponse (slot : Nat) (bytes : Bytes) (s : State) : Res :=
  checked (slotOk slot)
    (let c := s.card slot
     if c.phase ≠ .awaitPps then s
     else if bytes = ppsBytes c.fi c.di then s.sendIfs slot
     else s.refuseCard slot 4)

/-- PPS_RESPONSE_TIMEOUT: the card is activated again and used at the default parameters. -/
def execPpsResponseTimeout (slot : Nat) (s : State) : Res :=
  checked (slotOk slot)
    (let c := s.card slot
     if c.phase = .awaitPps then (s.emit (.cardOff slot)).activateCard slot c.classB true else s)

/-! ## Commands (Table 11.8) -/

/-- The purposes a ceremony may have (R438). -/
def purposes : List Nat := [0x0D02, 0x0D03, 0x0D05, 0x0409, 0x0606, 0x0504, 0x0505, 0x0C04]

/-- CEREMONY.BEGIN. The id is a free value. -/
def execCeremonyBegin (c : Cmd) (s : State) : Res :=
  let b := c.body
  runCmd 0x0C01 c (b.length == 56 && zeroAt b 2 6) s fun sp s =>
    let purpose := fieldLE b 0 2
    let digest := slice b 8 48
    if !purposes.contains purpose ∨ (purpose = 0x0C04 ∧ !allZero digest) then s.reject c cInvalid
    else if s.openCeremony.isSome then s.reject c cBadState
    else
      let y : Ceremony := { id := s.free, purpose := BitVec.ofNat 16 purpose, digest := digest, state := .waiting, joined := [], enrolled := [],
                            auth := .none, grantedAt := 0, torn := .none }
      let s := { s.drawn with cards := { s.cards with ceremony := some y } }
      let s := [0, 1].foldl (fun (s : State) n => if (s.card n).phase = .present then s.activateCard n false false else s) s
      answer c s.joinNext sp (natLE 8 y.id.toNat)

/-- A ceremony's state by its place in CEREMONY.STATUS. -/
def CeremonyState.code (x : CeremonyState) : Nat :=
  match x with
  | .waiting => 0
  | .firstCard => 1
  | .granted => 2
  | .aborted => 3
  | .outcomeUnknown => 4

/-- The ceremony an id names. -/
def State.ceremonyOf (s : State) (b : Bytes) : Option Ceremony := s.cards.ceremony.filter fun y => y.id.toNat == fieldLE b 0 8

/-- CEREMONY.STATUS. -/
def execCeremonyStatus (c : Cmd) (s : State) : Res :=
  runCmd 0x0C02 c (c.body.length == 8) s fun sp s =>
    match s.ceremonyOf c.body with
    | .none => s.reject c cNotFound
    | some y =>
      let auth := if y.state = .granted then y.auth.getD 0 else 0
      answer c s sp (natLE 1 y.state.code ++ List.replicate 7 0 ++ natLE 8 auth.toNat)

/-- CEREMONY.ABORT. -/
def execCeremonyAbort (c : Cmd) (s : State) : Res :=
  runCmd 0x0C03 c (c.body.length == 8) s fun sp s =>
    match s.ceremonyOf c.body with
    | .none => s.reject c cNotFound
    | some _ => answer c s.abortCeremony sp []

/-- The operator master key's input: the shares by ascending serial (R444). -/
def omkShares (js : List Joined) : Bytes :=
  match js with
  | [a, b] => if a.serial ≤ b.serial then a.share ++ b.share else b.share ++ a.share
  | _ => []

/-- The operator master key (R444). -/
def State.formOmk (s : State) (y : Ceremony) : Option Bytes :=
  s.keys.fbr.map fun f =>
    kmac256 (steep (natBE 32 f.toNat) (ascii "OMK") 0 s.power.running s.lc.gen) (omkShares y.joined) 32 (ascii "HX7-OMK")

/-- The OMK record's attributes: AES-256 for steeping; what the manual leaves open is free. -/
def State.omkAttrs (s : State) : KeyAttrs :=
  let f := s.free.toNat
  { ktype := 3, colour := 0, gen := s.lc.gen, libOnly := bit f 0, engine := BitVec.ofNat 6 (bits f 6 1), derivedEngine := 0,
    usage := BitVec.ofNat 16 (bits f 22 7) ||| 16, derivedUsage := 0, param := 0, notBefore := 0, notAfter := 0xFFFFFFFFFFFF }

/-- CEREMONY.OMK (R444). -/
def execCeremonyOmk (c : Cmd) (s : State) : Res :=
  runCmd 0x0C04 c (c.body.length == 8) s fun sp s =>
    match s.ceremonyOf c.body with
    | .none => s.reject c cNotFound
    | some y =>
      if y.purpose ≠ 0x0C04 then s.reject c cBadState
      else if y.state = .outcomeUnknown then s.reject c cOutcomeUnknown
      else if y.state ≠ .granted then s.reject c cBadState
      else if (s.record 0 1).isSome then s.reject c cExists
      else
        match s.formOmk y with
        | .none => s.reject c cBadState
        | some key =>
          let before := (s.versionOf 1).toNat
          let s' := (s.begin sp c).cmdAccepted c 0x0C04
          match (s'.cmdIntent c 2 1 before).drawn.makeRecord 1 1 s.omkAttrs (BitVec.ofNat 32 (before + 1)) key with
          | .none => s.reject c cBadState
          | some s =>
            let s := s.cmdCommit c 2 1 (before + 1)
            let roster := (y.joined ++ y.enrolled).map fun (j : Joined) => (j.serial, j.keyHash)
            let s := { s with cards := { s.cards with roster := roster } }.abortCeremony.keyArrived
            let tin := match s.record 0 1 with
              | some r => r.1.bytes
              | .none => []
            answer c s sp tin

/-! ## The ends of time -/

/-- CEREMONY_TIMEOUT: 900 s without GRANTED, or 300 s GRANTED for CEREMONY.OMK (R443). -/
def execCeremonyTimeout (s : State) : Res :=
  .next (match s.openCeremony with
    | some y => if y.state = .granted ∧ y.purpose ≠ 0x0C04 then s else s.abortCeremony
    | .none => s)

/-- AUTHORISATION_VOID: 300 s after it was granted. -/
def execAuthorisationVoid (s : State) : Res := .next (s.modCeremony fun y => { y with auth := .none })

/-- ANCHOR_SPACE_FREE: the intent that waits is written where there is room now, a seat's before a card's (R259). -/
def execAnchorSpaceFree (s : State) : Res :=
  .next (if !s.journal.intentRoom then s
    else match s.firstAnchorWait, s.firstCardWait, s.openCeremony with
      | some u, _, _ =>
        match (s.seat u).phase with
        | .anchorWait _ kind obj version => finishTe u (s.openIntent u (s.seat u) kind obj version)
        | _ => s
      | .none, some n, some y => s.writeRecord n y
      | .none, some n, .none => s.modCard n fun c => { c with phase := .idle }
      | .none, .none, _ => s)

end Sys2Proof.Machine
end

