-- ==== Sys2Proof/Machine/Clear.lean ====
section
/-! DEFINITION. The end of a fault (R477, R478): its entry leaves the active set, and with the last class 3 fault the device
returns to service. -/

namespace Sys2Proof.Machine

/-- FAULT.CLEAR's row. -/
def clearSpec : Spec := ⟨0x0F02, true, false, .O, false⟩

/-- The class, kind and source a FAULT.CLEAR names. -/
def clearNames (b : Bytes) : Nat × Byte × BitVec 16 := (fieldLE b 0 1, BitVec.ofNat 8 (fieldLE b 1 1), BitVec.ofNat 16 (fieldLE b 2 2))

/-- The active fault of a class, kind and source. -/
def Faults.activeFault (f : Faults) (n : Nat × Byte × BitVec 16) : Option Active :=
  f.active.find? fun (a : Active) => a.cls == n.1 && a.kind == n.2.1 && a.src == n.2.2

/-- The last class 3 fault is cleared: dispatch, the device state, ALIVE_OUT, the lanes it closed and the ports come back
(R477). -/
def State.leaveFaulted (s : State) : State :=
  if s.power.dev = .faulted then
    let back := if s.faults.erasedAtFault then DevState.tamperErased else .ready
    let s := { s with depot := { s.depot with stopped := false }, faults := { s.faults with erasedAtFault := false } }
    let s := s.setDev back
    let s := s.reinstateFor fun c => c == LaneCause.class3
    (s.train 0).train 1
  else s

/-- A fault leaves the active set; a gate latch that reported it clears (R368). -/
def State.clearActive (s : State) (n : Nat × Byte × BitVec 16) : State :=
  let keep := fun (a : Active) => !(a.cls == n.1 && a.kind == n.2.1 && a.src == n.2.2)
  let s := { s with faults := { s.faults with active := s.faults.active.filter keep } }
  let s := if n.1 = 2 then
      { s with gates := s.gates.mapVals fun g => if g.latched.any (fun l => l.1 == n.2.1 && l.2.1 == n.2.2) then { g with latched := .none } else g }
    else s
  if n.1 = 3 ∧ s.faults.class3Active = false then s.leaveFaulted else s

/-- A FAULT.CLEAR that waits for a test to run again completes with it: the fault is cleared by a pass, kept by a failure. -/
def State.rerunDone (s : State) (src : BitVec 16) (ok : Bool) : State :=
  let mine := fun (x : InFlight) => x.opcode == 0x0F02 && x.started && (clearNames x.cmd.body).2.2 == src
  match s.pcie.inFlight.find? mine with
  | .none => s
  | some x => if ok then (s.clearActive (clearNames x.cmd.body)).finishLater clearSpec x.cmd cOk [] 0
              else s.finishLater clearSpec x.cmd cBadState [] 0

end Sys2Proof.Machine
end

