-- ==== Sys2Proof/Machine/Reserve.lean ====
section
/-! DEFINITION. Holds and deferral (R382, R383), sleep and the end of a cluster (R110, R151, R384, R503, R513), and the
engagement of a reserve (R511-R517). -/

namespace Sys2Proof.Machine

/-- The source identifier of a whole cluster (Table 17.2). -/
def srcWhole (c : Nat) : BitVec 16 := srcCluster c 0xFF

/-- Change a cluster. -/
def State.modCluster (s : State) (c : Nat) (f : Cluster → Cluster) : State := s.setCluster c (f (s.cluster c))

/-- The seats of a cluster that hold an itinerary. -/
def State.seatsOf (s : State) (c : Nat) : List SeatRef :=
  (s.seats.filter fun p => p.1 / 32 == c && p.2.phase != .empty).map fun p => seatOfKey p.1

/-- The streams whose context a cluster holds. -/
def State.streamsOf (s : State) (c : Nat) : List Stream := s.streams.filter fun x => s.streamAt x == some c

/-! ## Sleep (R110, R111, R151, R503) -/

/-- The table of TEs with those of a cluster changed. -/
def State.modTes (s : State) (c : Nat) (f : Te → Te) : State :=
  (List.range 16).foldl (fun s t => s.setTe c t (f (s.te c t))) s

/-- Whether anything runs or waits on a cluster: a seat, the MAE, a stream's segment, a waiting item of a lane placed on it. -/
def State.clusterBusy (s : State) (c : Nat) : Bool :=
  !(s.seatsOf c).isEmpty || (s.cluster c).mae.running.isSome || !(s.cluster c).mae.saved.isEmpty || (s.cluster c).mae.kat ||
  (s.streamsOf c).any (fun x => !x.pending.isEmpty || x.loading) || (s.cluster c).testing || (List.range 16).any (fun t => (s.te c t).testing) ||
  s.depot.items.any (fun i => (s.lane i.desc.lane).placement.contains c)

/-- Put a cluster to sleep: its stream contexts wrapped, everything but what retention keeps lost. -/
def State.sleepNow (s : State) (c : Nat) : State :=
  let ks := ((s.streamsOf c).map Stream.key)
  let s := (s.streamsOf c).foldl (fun s x => s.setStream { x with te := .none, key1 := [], key2 := [], loading := false }) s
  let s := s.modTes c fun t => { t with stream := .none, next := .none, store := [] }
  let s := s.modCluster c fun x => { x with power := .asleep, wrapped := ks, mae := { x.mae with keyTable := [] } }
  (s.wipe (scratchBase ⟨c, 0, 0⟩) (scratchBase ⟨c + 1, 0, 0⟩)).wipe (storeBase c) (storeBase c + 0xC0000)

/-! ## Deep standby (R504) -/

/-- Begin the entry to deep standby: both ports run their planned stop, the timing port goes silent. -/
def State.beginStandby (s : State) : State :=
  let s := { s with power := { s.power with standby := .entering }, time := { s.time with running := false } }
  [0, 1].foldl (fun s p => if (s.port p).link = .up then s.plannedStop p 1 false else s.portDown p) s

/-- DEVICE.STANDBY's row. -/
def standbySpec : Spec := ⟨0x0104, true, false, .W, false⟩

/-- DEVICE.STANDBY takes effect: its completion is written and the entry begins. -/
def State.startStandby (s : State) (c : Cmd) : State :=
  let s := { s with power := { s.power with standbyCmd := .none } }
  (s.finishLater standbySpec c cOk [] 0).beginStandby

/-! ## Holds (R382, R383) -/

/-- Place a hold of the Inner world. -/
def State.holdUnit (s : State) (src : BitVec 16) : State := { s with steward := { s.steward with holds := s.steward.holds ++ [src] } }

/-- Whether a unit is held. -/
def State.unitHeld (s : State) (src : BitVec 16) : Bool := s.steward.holds.contains src

/-- Whether a hold is on a cluster: on the whole of it or on a unit of it, such as an expander under its tests (R110, R382). -/
def State.clusterHeld (s : State) (c : Nat) : Bool := s.steward.holds.any fun h => (clusterOfSrc h).any fun x => x.1 == c

/-- Whether a source identifier names an expander. -/
def srcIsExpander (src : BitVec 16) : Bool :=
  src == srcHub 0x0C || (match clusterOfSrc src with
    | some (_, u) => u == 0x13
    | .none => false)

/-- Begin a known-answer test of the kettle or of an expander, which holds the unit (R421, R422). -/
def State.startKat (s : State) (src : BitVec 16) : State :=
  if src = srcHub 0x0B then { s with entropy := { s.entropy with kettleKat := true } }
  else if srcIsExpander src then
    let s := if src = srcHub 0x0C then { s with entropy := { s.entropy with hubKat := true } } else s
    if s.unitHeld src then s else s.holdUnit src
  else s
/-- Defer a request to stop a held unit: 0 sleep, 1 entry to deep standby. -/
def State.defer (s : State) (src : BitVec 16) (what : Nat) : State :=
  { s with steward := { s.steward with deferred := s.steward.deferred ++ [(src, what)] } }

/-- Whether a cluster is idle but for a hold (R110): nothing on it is busy and it is outside the warm floor, which the grave latch
lifts (R479). -/
def State.maySleep (s : State) (c : Nat) : Bool :=
  (s.cluster c).power == .awake && !s.clusterBusy c && (s.faults.grave || !s.warmFloorSet.contains c)

/-- Run a deferred request. A sleep runs if the cluster is still idle; deep standby runs when nothing is held. -/
def State.runDeferred (s : State) (r : BitVec 16 × Nat) : State :=
  match r.2, clusterOfSrc r.1 with
  | 0, some (c, _) => if s.maySleep c then s.sleepNow c else s
  | _, _ =>
    match s.power.standbyCmd with
    | some cmd => s.startStandby cmd
    | .none => s

/-- Whether a deferred request may run: its unit, or for deep standby every unit, is released. -/
def State.mayRun (s : State) (r : BitVec 16 × Nat) : Bool :=
  if r.2 = 0 then !((clusterOfSrc r.1).any fun x => s.clusterHeld x.1) else s.steward.holds.isEmpty

/-- Release a hold; once it was the last, the deferred requests run in the order they arrived. -/
def State.releaseHold (s : State) (src : BitVec 16) : State :=
  let s := { s with steward := { s.steward with holds := eraseFirst (· == src) s.steward.holds } }
  let run := s.steward.deferred.filter s.mayRun
  let s := { s with steward := { s.steward with deferred := s.steward.deferred.filter fun r => !s.mayRun r } }
  run.foldl State.runDeferred s

/-! ## The end of a cluster (R384, R512, R513) -/

/-- Clear the secrets of a cluster (R157, R384). -/
def State.zeroise (s : State) (c : Nat) : State :=
  let s := (s.clearSaveAreas c).modTes c fun t => { t with stream := .none, next := .none, store := [] }
  s.modCluster c fun x => { x with transferKey := .none, wrapped := [], drbg := Expander.fresh, mae := { x.mae with keyTable := [], saved := [] } }

/-- End everything a cluster runs, each item ENDED 0x08, and clear it. -/
def State.endCluster (s : State) (c : Nat) : State :=
  let s := (s.seatsOf c).foldl (fun s u => s.killSeat u 8) s
  let jobs := (s.cluster c).mae.running.toList ++ (s.cluster c).mae.saved
  let s := s.modCluster c fun x => { x with mae := { x.mae with running := .none, saved := [] } }
  let s := jobs.foldl (fun s j => s.jobLost j.desc 8) s
  let s := ((s.streamsOf c).map Stream.key).foldl State.abortStream s
  let s := { s with depot := { s.depot with packages := s.depot.packages.filter fun g => g.source != c || g.stream.isSome } }
  ((s.zeroise c).wipe (scratchBase ⟨c, 0, 0⟩) (scratchBase ⟨c + 1, 0, 0⟩)).wipe (storeBase c) (storeBase c + 0xC0000)

/-- FORCED_STOP: zeroised, INNER_FORCED raised against a held cluster, stopped; its work ends (R384). -/
def execForcedStop (c : Nat) (s : State) : Res :=
  checked (clusterOk c)
    (if (s.cluster c).power = .awake ∨ (s.cluster c).power = .waking then
      let s := s.endCluster c
      let s := if s.clusterHeld c then s.fault 2 0x38 (srcWhole c) 0 else s
      s.modCluster c fun x => { x with power := .asleep }
    else s)

/-! ## MAE resume (R175) -/

/-- The level of a job's lane; the Steward's own jobs are at level 0 (R160). -/
def State.jobLevel (s : State) (d : Desc) : Nat := if d.own.isSome then 0 else (s.lane d.lane).level

/-- The highest-level suspended job of an MAE. -/
def State.bestSaved (s : State) (c : Nat) : Option MaeJob :=
  (s.cluster c).mae.saved.foldl (fun (a : Option MaeJob) j => match a with
    | some b => if s.jobLevel j.desc < s.jobLevel b.desc then some j else some b
    | .none => some j) .none

/-! ## Engagement (R514-R517) -/

/-- The reserves not yet used by an engagement. -/
def State.freeReserves (s : State) : List Nat :=
  (List.range 36).filter fun c => (s.cluster c).state == .reserve && !(s.power.engagements.any fun e => e.reserve == c)

/-- The reserve that replaces a cluster: of its own Quarter if one is free, else of another; the lowest number first (R23). -/
def State.pickReserve (s : State) (c : Nat) : Option Nat :=
  match s.freeReserves.find? fun r => r / 9 == c / 9 with
  | some r => some r
  | .none => s.freeReserves.head?

/-- Change the engagement in progress. -/
def State.modEngagement (s : State) (f : Engagement → Engagement) : State :=
  { s with power := { s.power with engagements := (s.power.engagements.take 1).map f ++ s.power.engagements.drop 1 } }

/-- RESERVE.ENGAGE's row. -/
def engageSpec : Spec := ⟨0x0E02, true, false, .W, false⟩

/-- Complete the command that asked for an engagement. -/
def State.engageDone (s : State) (e : Engagement) (code : Nat) (rsp : Bytes) : State :=
  match e.cmd with
  | some c => s.finishLater engageSpec c code rsp 0
  | .none => s

/-- Drop the engagement at the head. -/
def State.dropEngagement (s : State) : State := { s with power := { s.power with engagements := s.power.engagements.drop 1 } }

/-- Take a reserve for the engagement at the head: both clusters held and confined, the reserve waking, or awake and under its
expander's known-answer test (R514 steps 1, 2). -/
def State.takeReserve (s : State) (c r : Nat) : State :=
  let s := (s.modEngagement fun e => { e with reserve := r }).holdUnit (srcWhole r)
  let s := s.modCluster c fun x => { x with state := .failing, confined := true }
  let awake := (s.cluster r).power == .awake
  let s := s.modCluster r fun x => { x with state := .engaging, confined := true, power := if awake then .awake else .waking }
  if awake then s.startKat (srcCluster r 0x13) else s

/-- A TE with a ready seat and none running starts its ready seat of higher level. -/
def State.startTe (s : State) (c t : Nat) : State :=
  let a : SeatRef := ⟨c, t, 0⟩
  let b : SeatRef := ⟨c, t, 1⟩
  let ready := fun (u : SeatRef) => (s.seat u).phase == .ready
  let busy := fun (u : SeatRef) => (s.seat u).phase.keepsTe
  let go := fun (u : SeatRef) => (s.setSeat u (s.seat u).runs).enterSeat u
  if busy a || busy b then s
  else if ready a && ready b then (if s.seatLevel (s.seat b) < s.seatLevel (s.seat a) then go b else go a)
  else if ready a then go a
  else if ready b then go b
  else s

/-- The engagement at the head starts, or finds no reserve (R517), and then, where it is over with that, the next. A wear cause first
quiesces; a whole-cluster failure, whose work has ended, is the grave fault at once; a unit-bound failure leaves the cluster in service
without the unit. -/
def State.startNext : Nat → State → State
  | 0, s => s
  | n + 1, s =>
    match s.power.engagements with
    | [] => s
    | e :: _ =>
      if (s.cluster e.failing).state = .failing ∧ e.reserve ≠ 36 then s
      else match s.pickReserve e.failing with
        | some r => (s.holdUnit (srcWhole e.failing)).takeReserve e.failing r
        | .none =>
          if (s.cluster e.failing).power = .off then (s.dropEngagement.fault 4 0x12 (srcWhole e.failing) 0).startNext n
          else if 3 ≤ e.cause then s.dropEngagement.startNext n
          else if e.cause = 0 then (s.dropEngagement.engageDone e cExhausted []).startNext n
          else (s.holdUnit (srcWhole e.failing)).modCluster e.failing fun x => { x with state := .failing, confined := true }

/-- The first of the engagements waiting that has something to do starts. -/
def State.startEngagement (s : State) : State := s.startNext s.power.engagements.length

/-- A cluster whose engagement found no reserve serves on: its ready seats and its suspended job run again (R517). -/
def State.serveOn (s : State) (c : Nat) : State :=
  let s := { s with depot := { s.depot with packages := s.depot.packages.filter fun (g : Package) => g.source != c } }
  let s := s.modCluster c fun x => { x with state := .inService, confined := false }
  let s := (List.range 16).foldl (fun s t => s.startTe c t) s
  let m := (s.cluster c).mae
  match s.bestSaved c with
  | some j =>
    if m.running.isSome ∨ m.kat ∨ m.out then s
    else s.modCluster c fun x => { x with mae := { x.mae with running := some j, saved := eraseFirst (fun y => y == j) x.mae.saved } }
  | .none => s

/-- Queue an engagement, in the order of the flags. -/
def State.queueEngagement (s : State) (c cause : Nat) (cmd : Option Cmd) : State :=
  let es := s.power.engagements
  if es.any fun e => e.failing == c then
    { s with power := { s.power with engagements := modFirst (fun e => e.failing == c && e.cmd.isNone) (fun e => { e with cmd := cmd }) es } }
  else
    let e : Engagement := { failing := c, reserve := 36, cause := cause, quiesced := false, cmd := cmd }
    let s := { s with power := { s.power with engagements := es ++ [e] } }
    if es.isEmpty then s.startEngagement else s

/-- A cluster's moves begin: a wrapped package for each suspended seat, saved job and stream context (R145, R514 step 4). -/
def State.packAll (s : State) (src target : Nat) : State :=
  let gs := (s.seatsOf src).map (fun u => { Package.between src target u.te with seat := some (seatKey u) }) ++
    (s.cluster src).mae.saved.map (fun j => { Package.between src target 0x10 with mae := some j.desc })
  let xs := s.streamsOf src
  let s := gs.foldl State.sendPackage s
  xs.foldl (fun s x => s.sendStream x target) s

/-- A reserve fails its wake, its test or a move binding: it is retired, and the engagement restarts with the next (R516). What
was bound for it, or had reached it, moves to the next. With none left a unit-bound failure, or the wish of RESERVE.ENGAGE, leaves the
cluster in service; a wear cause is the grave fault, after its quiesce (R23, R517). -/
def State.reserveFailed (s : State) (r : Nat) : State :=
  match s.power.engagements with
  | e :: _ =>
    if e.reserve ≠ r then s
    else
      let s := s.modEngagement fun e => { e with reserve := 36 }
      let s := match s.pickReserve e.failing with
        | some n =>
          let late := s.depot.packages.filter fun (g : Package) => g.target == r
          let s := { s with depot := { s.depot with packages := s.depot.packages.filter fun (g : Package) => g.target != r } }
          let s := late.foldl (fun (s : State) (g : Package) => s.sendPackage { g with target := n }) s
          (s.packAll r n).takeReserve e.failing n
        | .none =>
          let off := (s.cluster e.failing).power == ClusterPower.off
          if !off && (e.cause == 0 || decide (3 ≤ e.cause)) then
            (((s.releaseHold (srcWhole e.failing)).dropEngagement.engageDone e cExhausted []).serveOn e.failing).startEngagement
          else if off || e.quiesced then
            let s := (s.endCluster e.failing).releaseHold (srcWhole e.failing)
            (s.dropEngagement.fault 4 0x12 (srcWhole e.failing) 0).startEngagement
          else s
      let s := if (s.depot.packages.any fun g => g.source == r) then s else s.endCluster r
      ((s.modCluster r fun x => { x with state := .retired, power := .off }).releaseHold (srcCluster r 0x13)).releaseHold (srcWhole r)
  | [] => s

/-- Flag a cluster failing (R511): CLUSTER_FAILING, and its engagement. With `whole` its work ends and it is powered off
(R513). A reserve that fails is retired, an engaging one restarts its engagement. -/
def State.flagFailing (s : State) (c cause : Nat) (whole : Bool) : State :=
  let s := s.fault 2 0x10 (srcWhole c) (BitVec.ofNat 64 cause)
  match (s.cluster c).state with
  | .inService =>
    let s := if whole then (s.endCluster c).modCluster c fun x => { x with power := .off, state := .failing } else s
    s.queueEngagement c cause .none
  | .reserve => s.modCluster c fun x => { x with state := .retired, power := .off }
  | .engaging => s.reserveFailed c
  | _ => s

/-- Whether a cluster is quiesced: every seat at a YIELD with no intent open (R78), no job running, every stream at a boundary (R514
step 3). -/
def State.atRest (s : State) (c : Nat) : Bool :=
  (s.seatsOf c).all (fun u => (s.seat u).rests) && (s.cluster c).mae.running.isNone &&
  (s.streamsOf c).all fun x => x.pending.isEmpty

/-- QUIESCE_DONE: the failing cluster's state starts on its way; where no reserve was left, RESERVE_EXHAUSTED (R514, R517). -/
def execQuiesceDone (c : Nat) (s : State) : Res :=
  checked (clusterOk c)
    (match s.power.engagements with
    | e :: _ =>
      if e.failing = c ∧ e.quiesced = false ∧ (s.cluster c).state = .failing ∧ s.atRest c then
        if e.reserve = 36 then
          (((s.endCluster c).releaseHold (srcWhole c)).dropEngagement.fault 4 0x12 (srcWhole c) 0).startEngagement
        else (s.modEngagement fun e => { e with quiesced := true }).packAll c e.reserve
      else s
    | [] => s)

/-! ## Arrival of a move (R146) -/

/-- A package's move number is used up. -/
def State.dropPackage (s : State) (g : Package) : State :=
  { s with depot := { s.depot with packages := s.depot.packages.filter (· != g) } }

/-- Install a seat at the same place of another cluster, with its scratch and its message window. It runs again once the
engagement is complete. -/
def State.moveSeat (s : State) (k target : Nat) : State :=
  let u := seatOfKey k
  let v : SeatRef := { u with cluster := target }
  let t := s.seat u
  let s := (s.store (scratchBase v) (s.load (scratchBase u) 0x4000)).store (storeBase target + windowOff v)
    (s.load (storeBase u.cluster + windowOff u) 0x4000)
  ((s.setSeat v t).renewSlots v).clearSeat u

/-- Install a saved MAE job; the key table is not carried, so its keys are loaded again. -/
def State.moveJob (s : State) (src target : Nat) (d : Desc) : State :=
  let js := (s.cluster src).mae.saved.filter fun j => j.desc == d
  let s := s.modCluster src fun x => { x with mae := { x.mae with saved := x.mae.saved.filter fun j => j.desc != d } }
  s.modCluster target fun x => { x with mae := { x.mae with saved := x.mae.saved ++ js.map fun j => { j with keyWait := true } } }

/-- A package whose tag or binding fails: the fault, and the item or stream ends as a squashed one does (R146). -/
def State.moveFails (s : State) (g : Package) : State :=
  let s := match g.seat, g.stream, g.mae with
    | some k, _, _ => s.killSeat (seatOfKey k) 6
    | _, some k, _ => s.abortStream k
    | _, _, some d =>
      let here := (s.cluster g.source).mae.saved.any fun j => j.desc == d
      let s := s.modCluster g.source fun x => { x with mae := { x.mae with saved := x.mae.saved.filter fun j => j.desc != d } }
      if here then s.jobLost d 6 else s
    | _, _, _ => s
  (s.fault 2 0x13 (srcWhole g.target) (g.move.zeroExtend 64)).reserveFailed g.target

/-- Install what a package carries. -/
def State.moveLands (s : State) (g : Package) : State :=
  match g.seat, g.stream, g.mae with
  | some k, _, _ => if (s.seat (seatOfKey k)).phase = .empty then s else s.moveSeat k g.target
  | _, some k, _ => s.modCluster g.target fun x => { x with wrapped := x.wrapped ++ [k] }
  | _, _, some d => s.moveJob g.source g.target d
  | _, _, _ => s

/-- WRAPPED_MOVE_ARRIVAL: a package that is known, bound for this cluster and whose tag verifies under the transfer key lands;
a sequence number no longer on its way is one that has arrived already (R516). -/
def execWrappedMoveArrival (c : Nat) (move : BitVec 32) (ok : Bool) (s : State) : Res :=
  checked (clusterOk c)
    (match s.depot.packages.find? fun g => g.move == move && g.target == c with
    | .none => s
    | some g =>
      let s := s.dropPackage g
      if ok ∧ (s.cluster c).transferKey.isSome then s.moveLands g else s.moveFails g)

/-! ## Flags and self-tests (Table 18.5) -/

/-- MARGIN_LOW_1S: the worst slack below 10 ps for 1 s. -/
def execMarginLow1s (c : Nat) (s : State) : Res :=
  checked (clusterOk c) (if (s.cluster c).state = .inService then s.flagFailing c 1 false else s)

/-- CORRECTED_RATE_HIGH: more than 100 corrected errors per s over 10 s. -/
def execCorrectedRateHigh (c : Nat) (s : State) : Res :=
  checked (clusterOk c) (if (s.cluster c).state = .inService then s.flagFailing c 2 false else s)

/-- SELFTEST_DUE: a TE's test waits as a colour-0 item at level 0, the MAE's for the idle MAE; a reserve cluster is woken,
confined, and tested whole (R373, R511). -/
def execSelftestDue (src : BitVec 16) (s : State) : Res :=
  .next (match clusterOfSrc src with
    | .none => s
    | some (c, u) =>
      if u = 0xFF then
        if (s.cluster c).state = .reserve then
          s.modCluster c fun x => { x with testing := true, confined := true, power := if x.power = .awake then .awake else .waking }
        else s
      else if (s.cluster c).state = .inService ∧ u ≤ 0x10 ∧ !s.power.selftests.contains src then
        { s with power := { s.power with selftests := s.power.selftests ++ [src] } }
      else s)

/-! ## Commands (Table 11.3) -/

/-- The reserve states by number. -/
def ReserveState.code (r : ReserveState) : Nat :=
  match r with
  | .inService => 0
  | .reserve => 1
  | .engaging => 2
  | .failing => 3
  | .retired => 4

/-- RESERVE.STATUS. -/
def execReserveStatus (c : Cmd) (s : State) : Res :=
  runCmd 0x0E01 c c.body.isEmpty s fun sp s =>
    let entry := fun (k : Nat) => [BitVec.ofNat 8 (addrByte k), BitVec.ofNat 8 (s.cluster k).state.code, BitVec.ofNat 8 (s.wearRank k), 0]
    let lane := fun (p : Nat) => BitVec.ofNat 8 (b2n ((s.port p).txReserve || (s.port p).rxReserve))
    let noise := ((List.range 16).filter fun n => (s.cell n).state == .reserve).length
    let standby := s.steward.north == .standby || s.steward.south == .standby
    answer c s sp ((List.range 36).flatMap entry ++ [lane 0, lane 1, BitVec.ofNat 8 noise, BitVec.ofNat 8 (b2n standby)])

/-- RESERVE.ENGAGE: replace an in-service cluster (R23, R514); it completes when the reserve has replaced it. -/
def execReserveEngage (c : Cmd) (s : State) : Res :=
  let b := c.body
  let a := fieldLE b 0 1
  let k := a / 16 * 9 + a % 16
  runCmd 0x0E02 c (b.length == 8 && zeroAt b 1 7) s fun sp s =>
    if 64 ≤ a ∨ 9 ≤ a % 16 then s.reject c cInvalid
    else if (s.cluster k).state ≠ .inService then s.reject c cBadState
    else if (s.pickReserve k).isNone then s.reject c cExhausted
    else (s.begin sp c).queueEngagement k 0 (some c)

end Sys2Proof.Machine
end

