-- ==== Sys2Proof/Machine/MaeReq.lean ====
section
/-! DEFINITION. What an MAE job asks and what its arithmetic gives (chapter 5): the request and its checks (R163, R166), the randomness
it draws (R169), the classical algorithms as `PublicKey` has them and the lattice ones as Config leaves them open (log entry 10). -/

namespace Sys2Proof.Machine

/-! ## The request (Table 5.3) -/

/-- A job request's fields. -/
structure JobReq where
  version : Nat
  param   : Nat
  options : Nat
  digest  : Nat
  ctxLen  : Nat
  hA      : Word
  hB      : Word
  pk      : Bytes
  sig     : Bytes
  msg     : Bytes
  ctx     : Bytes
  whole   : Bool
  deriving DecidableEq, Repr

/-- The fields of a payload; `whole` tells that its length is exact and its reserved field zero (R163). -/
def JobReq.ofBytes (b : Bytes) : JobReq :=
  let c := fieldBE b 7 1
  let p := fieldBE b 0x18 2
  let n := fieldBE b 0x1A 2
  let m := fieldBE b 0x1C 2
  { version := fieldBE b 0 2, param := fieldBE b 2 2, options := fieldBE b 4 2, digest := fieldBE b 6 1, ctxLen := c,
    hA := BitVec.ofNat 64 (fieldBE b 8 8), hB := BitVec.ofNat 64 (fieldBE b 0x10 8), pk := slice b 0x20 p,
    sig := slice b (0x20 + p) n, msg := slice b (0x20 + p + n) m, ctx := slice b (0x20 + p + n + m) c,
    whole := b.length == 32 + p + n + m + c && fieldBE b 0x1E 2 == 0 }

/-! ## Parameter sets (Table 5.2) -/

/-- Whether a code is an RSA set. -/
def setRsa (p : Nat) : Bool := decide (0x108 ≤ p) && decide (p ≤ 0x120)
/-- Whether a code is a NIST curve. -/
def setEc (p : Nat) : Bool := decide (0x201 ≤ p) && decide (p ≤ 0x203)
/-- Whether a code is an ML-DSA set. -/
def setMldsa (p : Nat) : Bool := decide (0x401 ≤ p) && decide (p ≤ 0x403)
/-- Whether a code is an ML-KEM set. -/
def setMlkem (p : Nat) : Bool := decide (0x501 ≤ p) && decide (p ≤ 0x503)

/-- An RSA modulus in bytes. -/
def modulusLen (p : Nat) : Nat := (p - 0x100) * 32

/-- The length of a set's public key encoding. -/
def publicLen (p : Nat) : Nat :=
  if setRsa p then 4 + modulusLen p
  else match p with
    | 0x201 => 65 | 0x202 => 97 | 0x203 => 133 | 0x301 => 32 | 0x401 => 1312 | 0x402 => 1952 | 0x403 => 2592
    | 0x501 => 800 | 0x502 => 1184 | 0x503 => 1568 | _ => 0

/-- The length of a set's signature or ciphertext. -/
def signatureLen (p : Nat) : Nat :=
  if setRsa p then modulusLen p
  else match p with
    | 0x201 => 64 | 0x202 => 96 | 0x203 => 132 | 0x301 => 64 | 0x401 => 2420 | 0x402 => 3309 | 0x403 => 4627
    | 0x501 => 768 | 0x502 => 1088 | 0x503 => 1568 | _ => 0

/-- The private and public key types of a set (Table 6.2). -/
def privateType (p : Nat) : Byte :=
  if setRsa p then 0x10 else if p = 0x203 then 0x21 else if setEc p then 0x20 else if p = 0x301 then 0x30
  else if setMldsa p then 0x40 else 0x50
def publicType (p : Nat) : Byte :=
  if setRsa p then 0x11 else if setEc p then 0x22 else if p = 0x301 then 0x31 else if setMldsa p then 0x41 else 0x51

/-- Whether a set may be used by a job type. -/
def setFits (job p : Nat) : Bool :=
  match job with
  | 0x01 | 0x02 => setRsa p
  | 0x10 | 0x11 | 0x12 => setEc p
  | 0x20 | 0x21 => p == 0x301
  | 0x30 | 0x31 => setMldsa p
  | 0x40 | 0x41 => setMlkem p
  | 0x50 => setRsa p || setEc p || p == 0x301 || setMldsa p || setMlkem p
  | _ => p == 0

/-- The length of a digest algorithm's output, 0 for none. -/
def digestLen (d : Nat) : Nat :=
  match d with
  | 2 => 32 | 3 => 48 | 4 => 64 | _ => 0

/-! ## The shape of each job (Table 5.1) -/

/-- Whether a job verifies. -/
def jobVerifies (job : Nat) : Bool := job == 0x02 || job == 0x11 || job == 0x21 || job == 0x31 || job == 0x61

/-- Whether a job stores a key under handle B. -/
def jobEffects (job : Nat) : Bool := job == 0x12 || job == 0x40 || job == 0x41 || job == 0x50

/-- Whether handle A may be zero with the public key inline. -/
def jobInline (job : Nat) : Bool := job == 0x02 || job == 0x11 || job == 0x21 || job == 0x31 || job == 0x40

/-- Whether the lengths, options and zero fields of a request fit its job (phase 0, reason 1). A ciphertext's length has a
reason of its own. -/
def JobReq.shapeOk (r : JobReq) (job : Nat) : Bool :=
  let pk := if job = 0x12 then r.pk.length == publicLen r.param
    else if jobInline job && r.hA == 0 then r.pk.length == publicLen r.param else r.pk.isEmpty
  let sig := if job = 0x61 then r.sig.length == 4723
    else if jobVerifies job then r.sig.length == signatureLen r.param
    else job == 0x41 || r.sig.isEmpty
  let ctx := job == 0x12 || job == 0x30 || job == 0x31 || job == 0x60 || job == 0x61 || r.ctxLen == 0
  let msg := !(job == 0x12 || job == 0x40 || job == 0x41 || job == 0x50) || r.msg.isEmpty
  let agree := !bit r.options 1 || (job == 0x50 && setEc r.param)
  let pss := !bit r.options 0 || job == 0x01 || job == 0x02
  let hA := job != 0x50 || r.hA == 0
  let hB := jobEffects job || job == 0x60 || job == 0x61 || r.hB == 0
  r.version == 1 && r.whole && decide (r.options < 4) && pk && sig && ctx && msg && agree && pss && hA && hB

/-- Whether the digest algorithm and length fit (phase 0, reason 3). -/
def JobReq.digestOk (r : JobReq) (job : Nat) : Bool :=
  let m := r.msg.length
  let named := digestLen r.digest != 0
  match job with
  | 0x01 | 0x02 => named && m == digestLen r.digest
  | 0x10 | 0x11 => if r.digest = 0 then m == 32 || m == 48 || m == 64 else named && m == digestLen r.digest
  | 0x12 => r.digest == 2 || r.digest == 3
  | 0x30 | 0x31 => r.digest == 0 || (named && m == digestLen r.digest)
  | 0x60 | 0x61 => r.digest == 3 && m == 48
  | _ => r.digest == 0

/-- The first request check that fails, in the order of Table 5.6. -/
def JobReq.reqReason (r : JobReq) (job : Nat) : Option Nat :=
  if !r.shapeOk job then some 1
  else if !setFits job r.param then some 2
  else if !r.digestOk job then some 3
  else if job = 0x41 ∧ r.sig.length ≠ signatureLen r.param then some 5
  else .none

/-- A job request as Table 5.3 lays it out, with no handle and no context. -/
def jobRequest (param options digest : Nat) (pk sig msg : Bytes) : Bytes :=
  natBE 2 1 ++ natBE 2 param ++ natBE 2 options ++ natBE 1 digest ++ List.replicate 17 0 ++ natBE 2 pk.length ++ natBE 2 sig.length ++
    natBE 2 msg.length ++ [0, 0] ++ pk ++ sig ++ msg

/-! ## Keys (R166, R167) -/

/-- What a job needs of a stored key: handle, type, set and usage. -/
structure KeyNeed where
  handle : Word
  ktype  : Byte
  param  : Nat
  usage  : Nat
  deriving DecidableEq, Repr

/-- The stored keys a job uses. -/
def JobReq.keyNeeds (r : JobReq) (job : Nat) : List KeyNeed :=
  match job with
  | 0x01 | 0x10 | 0x20 | 0x30 => [⟨r.hA, privateType r.param, r.param, uSign⟩]
  | 0x02 | 0x11 | 0x21 | 0x31 => if r.hA = 0 then [] else [⟨r.hA, publicType r.param, r.param, uVerify⟩]
  | 0x12 | 0x41 => [⟨r.hA, privateType r.param, r.param, uKeyAgree⟩]
  | 0x40 => if r.hA = 0 then [] else [⟨r.hA, publicType r.param, r.param, uKeyAgree⟩]
  | 0x60 => [⟨r.hA, 0x20, 0x202, uSettle⟩, ⟨r.hB, 0x40, 0x403, uSettle⟩]
  | 0x61 => [⟨r.hA, 0x22, 0x202, uVerify⟩, ⟨r.hB, 0x41, 0x403, uVerify⟩]
  | _ => []

/-- The entry of a handle in an MAE's key table. -/
def Mae.entry (m : Mae) (h : Word) : Option MaeKey := m.keyTable.find? fun e => e.handle == h

/-- The first key check that fails of a stored key (phase 1). The MAE works only from its key table. -/
def State.needReason (s : State) (m : Mae) (c : Colour) (n : KeyNeed) : Option Nat :=
  if (s.record c n.handle).isNone then some 1
  else match m.entry n.handle with
    | .none => some 1
    | some e =>
      let k := e.key
      if k.attrs.ktype ≠ n.ktype ∨ k.attrs.param ≠ BitVec.ofNat 16 n.param ∨ !k.enters eMae ∨ !k.may n.usage then some 2
      else if !k.attrs.within s.time then some 3
      else .none

/-- The first key check of a job that fails (phase 1). A system record is made by no job (R544): its handle cannot be stored under, reason
5 (DESIGN CHOICE, log entry 57). -/
def State.keyReason (s : State) (m : Mae) (c : Colour) (r : JobReq) (job : Nat) : Option Nat :=
  match (r.keyNeeds job).findSome? (s.needReason m c) with
  | some x => some x
  | .none =>
    if jobEffects job then
      if !handleOk c r.hB then some 1
      else if (s.record c r.hB).isSome then some 4
      else if (s.tinKeys 0 c).isNone ∨ (c = 0 ∧ systemHandle r.hB) then some 5
      else .none
    else .none

/-- The public key of a stored key, private or public (Tables 5.2, 6.2). -/
def publicOf (k : Key) : Bytes :=
  let p := k.attrs.param.toNat
  match k.attrs.ktype.toNat with
  | 0x10 => slice k.material (modulusLen p) 4 ++ k.material.take (modulusLen p)
  | 0x20 => (curveOf p).public (beNat k.material)
  | 0x21 => k.material.drop 66
  | 0x30 => edPublic k.material
  | 0x40 => Config.mldsaPublic p k.material
  | 0x50 => Config.mlkemPublic p k.material
  | _ => k.material

/-- The handles of an MAE's running and suspended jobs, whose entries are never evicted (R167). -/
def Mae.inUse (m : Mae) : List Word :=
  (m.running.toList ++ m.saved).flatMap fun j => ((JobReq.ofBytes j.payload).keyNeeds j.desc.id.toNat).map (·.handle)

/-- The bytes of the key table an entry takes. -/
def MaeKey.size (e : MaeKey) : Nat := Config.expandedBytes e.key.attrs.ktype e.key.attrs.param

/-- The key table with the least recently used of the entries not in use evicted until so many bytes are free of its 256 KiB. -/
def evictKeys (used : List Word) (need : Nat) : Nat → List MaeKey → List MaeKey
  | 0, t => t
  | f + 1, t =>
    if (t.map MaeKey.size).sum + need ≤ 262144 then t
    else match (t.filter fun e => !used.contains e.handle).foldl (fun (a : Option MaeKey) e => match a with
        | some x => if e.lastUse < x.lastUse then some e else some x
        | .none => some e) .none with
      | some x => evictKeys used need f (t.filter fun e => e.handle != x.handle)
      | .none => t

/-- Load a key into an MAE's key table and expand it (R167). -/
def State.tableLoad (s : State) (c : Nat) (h : Word) (k : Key) : State :=
  let e : MaeKey := { handle := h, key := k, pub := publicOf k, lastUse := s.keys.useClock }
  s.modCluster c fun x =>
    { x with mae := { x.mae with keyTable := evictKeys x.mae.inUse e.size x.mae.keyTable.length x.mae.keyTable ++ [e] } }

/-! ## The start of a job (R166) -/

/-- A job whose keys are in the key table, as far as they exist, starts: the key checks come before any arithmetic. The Steward's own jobs
name no stored key and store none. -/
def State.startLoaded (s : State) (c : Nat) (j : MaeJob) : State :=
  let r := JobReq.ofBytes j.payload
  let m := (s.cluster c).mae
  let hs := (r.keyNeeds j.desc.id.toNat).map (·.handle)
  let v := if j.desc.own.isSome then .none else (s.keyReason m j.desc.colour r j.desc.id.toNat).map fun x => (1, x)
  let s := { s with keys := { s.keys with useClock := s.keys.useClock + 1 } }
  s.modCluster c fun x => { x with mae := { x.mae with
    running := some { j with keyWait := false, started := true, verdict := v, keys := hs.filterMap m.entry },
    keyTable := x.mae.keyTable.map fun e => if hs.contains e.handle then { e with lastUse := s.keys.useClock } else e } }

/-- A job is taken by an idle MAE: its request is checked; a job that misses a key in the key table waits for it (R163, R167). -/
def State.startMae (s : State) (c : Nat) (j : MaeJob) : State :=
  let r := JobReq.ofBytes j.payload
  let job := j.desc.id.toNat
  let m := (s.cluster c).mae
  let run := fun (j : MaeJob) => s.modCluster c fun x => { x with mae := { x.mae with running := some j } }
  let hs := (r.keyNeeds job).map (·.handle)
  match r.reqReason job with
  | some x => run { j with started := true, verdict := some (0, x) }
  | .none => if hs.any fun h => (m.entry h).isNone then run { j with keyWait := true } else s.startLoaded c j

/-! ## The stored key's attributes (R196) -/

/-- Usage bits as a mask. -/
def bitMask (l : List Nat) : BitVec 16 := l.foldl (fun a i => a ||| (1#16 <<< i)) 0

/-- The attributes of the key a job stores under handle B. -/
def State.newAttrs (s : State) (c : Colour) (r : JobReq) (job : Nat) (parent : Option Key) : KeyAttrs :=
  let wide := bitMask [uEncrypt, uDecrypt, uMacGen, uMacVerify]
  let te : BitVec 6 := 1
  let base : KeyAttrs := { ktype := 3, colour := c, gen := s.lc.gen, libOnly := false, engine := te, derivedEngine := 0, usage := wide,
                           derivedUsage := 0, param := 0, notBefore := 0, notAfter := 0xFFFFFFFFFFFF }
  if job = 0x50 then
    let agree := setMlkem r.param || bit r.options 1
    { base with ktype := privateType r.param, engine := 4, derivedEngine := te, param := BitVec.ofNat 16 r.param,
                usage := if agree then bitMask [uKeyAgree] else bitMask [uSign, uVerify], derivedUsage := wide }
  else match parent with
    | some k => { base with usage := k.attrs.derivedUsage, engine := k.attrs.derivedEngine, notBefore := k.attrs.notBefore, notAfter := k.attrs.notAfter }
    | .none => base

/-- The material of a stored key, of the length its type has. -/
def newMaterial (job p : Nat) (m : Bytes) : Bytes :=
  if job = 0x50 then
    if setRsa p then m else if p = 0x201 then padTo 32 m else if p = 0x202 then padTo 48 m else if p = 0x203 then padTo 199 m
    else if setMlkem p then padTo 64 m else padTo 32 m
  else padTo 32 m

/-- The length of a job's output (Table 5.1). -/
def outputLen (job p : Nat) : Nat :=
  match job with
  | 0x01 | 0x10 | 0x20 | 0x30 => signatureLen p
  | 0x40 => signatureLen p
  | 0x50 => publicLen p
  | 0x60 => 4723
  | 0x61 => 1
  | _ => 0

/-! ## Randomness (R169) -/

/-- The bytes a KEYGEN's seed takes: those of FIPS 203, 204 and RFC 8032; for a curve those of FIPS 186-5 A.2.1; for RSA, whose search is
not described, one per modulus byte (log entry 57). -/
def seedLen (p : Nat) : Nat :=
  if setRsa p then modulusLen p else if setEc p then (curveOf p).len + 8 else if setMlkem p then 64 else 32

/-- The bytes a job draws: the additional data of an ECDSA nonce, ML-DSA's rnd, the blinding factor of an RSA private operation and PSS's
salt, the seed of an encapsulation or a KEYGEN. -/
def JobReq.draw (r : JobReq) (job : Nat) : Nat :=
  match job with
  | 0x01 => 8 + (if bit r.options 0 then digestLen r.digest else 0)
  | 0x10 | 0x30 | 0x40 => 32
  | 0x50 => seedLen r.param
  | 0x60 => 64
  | _ => 0

/-! ## The arithmetic -/

/-- What a job's arithmetic comes to: a verdict on signatures (bit 0, and for SETTLE.VERIFY bit 1), an output with the material stored
under handle B, or ML-DSA's repetition bound (R168). -/
inductive JobMade where
  | verdict (ok : Nat)
  | made (output material : Bytes)
  | bound
  deriving DecidableEq, Repr

/-- The hash an ECDSA digest is made with: as named, else by its length. -/
def ecdsaHash (r : JobReq) : Nat :=
  if r.digest ≠ 0 then r.digest else if r.msg.length = 32 then 2 else if r.msg.length = 48 then 3 else 4

/-- Whether a signature verifies under a public key (R162). -/
def JobReq.verifies (r : JobReq) (pub : Bytes) : Bool :=
  if setRsa r.param then rsaVerify (modulusLen r.param) pub (bit r.options 0) r.digest r.msg r.sig
  else if setEc r.param then (curveOf r.param).verify pub r.msg r.sig
  else if r.param = 0x301 then edVerify pub r.msg r.sig
  else Config.mldsaVerify r.param r.digest pub r.msg r.ctx r.sig

/-- A private scalar of a curve: the first bytes of the material. -/
def scalarOf (p : Nat) (m : Bytes) : Nat := beNat (m.take (curveOf p).len)

/-- A signature by a private key (R162, R169). -/
def JobReq.signs (r : JobReq) (m rnd : Bytes) : JobMade :=
  if setRsa r.param then .made (rsaSign (modulusLen r.param) m (bit r.options 0) r.digest r.msg (rnd.drop 8)) []
  else if setEc r.param then .made ((curveOf r.param).sign (ecdsaHash r) (scalarOf r.param m) r.msg rnd) []
  else if r.param = 0x301 then .made (edSign m r.msg) []
  else match Config.mldsaSign r.param r.digest m r.msg r.ctx rnd with
    | some x => .made x []
    | .none => .bound

/-- A new key of a set from its seed: the public key and the private material (R162, Table 6.2). -/
def newKey (p : Nat) (rnd : Bytes) : JobMade :=
  if setRsa p then
    let q := Config.rsaPrimes (modulusLen p) rnd
    let m := rsaMaterial (modulusLen p) q.1 q.2
    .made (natBE 4 65537 ++ m.take (modulusLen p)) m
  else if setEc p then
    let d := (curveOf p).scalar rnd
    let pub := (curveOf p).public d
    .made pub (natBE (curveOf p).len d ++ (if p = 0x203 then pub else []))
  else if p = 0x301 then .made (edPublic rnd) rnd
  else if setMlkem p then .made (Config.mlkemPublic p rnd) rnd
  else .made (Config.mldsaPublic p rnd) rnd

/-- Both halves of a settlement signature, or neither (R178). -/
def JobReq.settles (r : JobReq) (a b rnd : Bytes) : JobMade :=
  match Config.mldsaSign 0x403 3 b r.msg r.ctx (rnd.drop 32) with
  | some x => .made (p384.sign 3 (beNat a) r.msg (rnd.take 32) ++ padTo 4627 x) []
  | .none => .bound

/-- The verdict on a settlement signature: bit 1 its ECDSA half, bit 0 its ML-DSA half (Table 5.1). -/
def JobReq.settled (r : JobReq) (a b : Bytes) : Nat :=
  2 * b2n (p384.verify a r.msg (r.sig.take 96)) + b2n (Config.mldsaVerify 0x403 3 b r.msg r.ctx (r.sig.drop 96))

/-- Whether the inline public key of a request may be used (Table 5.6, phase 0, reason 4). -/
def JobReq.inlineOk (r : JobReq) : Bool :=
  r.pk.isEmpty ||
    (if setRsa r.param then rsaPublicOk (modulusLen r.param) r.pk
     else if setEc r.param then ((curveOf r.param).point r.pk).isSome
     else if r.param = 0x301 then (edPoint r.pk).isSome
     else !setMlkem r.param || mlkemPublicOk r.pk)

/-- A job's arithmetic over its keys, its inline inputs and what it drew. -/
def JobReq.arithmetic (r : JobReq) (job : Nat) (ks : List MaeKey) (rnd : Bytes) : JobMade :=
  let m := fun (i : Nat) => ((ks[i]?).map (·.key.material)).getD []
  let pub := if r.pk.isEmpty then ((ks[0]?).map (·.pub)).getD [] else r.pk
  match job with
  | 0x01 | 0x10 | 0x20 | 0x30 => r.signs (m 0) rnd
  | 0x02 | 0x11 | 0x21 | 0x31 => .verdict (b2n (r.verifies pub))
  | 0x12 => .made [] (oneStepKdf r.digest (((curveOf r.param).ecdh (scalarOf r.param (m 0)) r.pk).getD []) r.ctx)
  | 0x40 => .made (Config.mlkemEncaps r.param pub rnd).1 (Config.mlkemEncaps r.param pub rnd).2
  | 0x41 => .made [] (Config.mlkemDecaps r.param (m 0) r.sig)
  | 0x50 => newKey r.param rnd
  | 0x60 => r.settles (m 0) (m 1) rnd
  | _ => .verdict (r.settled (((ks[0]?).map (·.pub)).getD []) (((ks[1]?).map (·.pub)).getD []))

/-- Whether an ML-DSA-87 signature verifies over a SHA-384 digest, HashML-DSA with an empty context, as R178 has it. -/
def mldsa87Verify (key digest sig : Bytes) : Bool := Config.mldsaVerify 0x403 3 key digest [] sig

/-! ## The Steward's own jobs (R160) -/

/-- The Steward submits a job for a command: it waits with colour 0's items at level 0, on no tenant's lane (log entry 57). -/
def State.submitOwn (s : State) (c : Cmd) (job : Nat) (payload : Bytes) : State :=
  let d : Desc := { Desc.none with ticket := c.ticket, lane := 16384, id := BitVec.ofNat 32 job, len := payload.length, known := true,
                                   since := s.now, own := some c }
  let j : MaeJob := { desc := d, level := 0, payload := payload, keyWait := false, bracket := false, squash := false }
  { s with depot := { s.depot with own := s.depot.own ++ [j] } }

end Sys2Proof.Machine
end

