-- ==== Sys2Proof/Machine/ItinCheck.lean ====
section
/-! DEFINITION. The load-time checks of an itinerary image (R45, R46, R82-R85, R88, R541, Tables 2.3-2.19). An instruction is looked at as
its 32-bit word, by the fields of Table 2.3. -/

namespace Sys2Proof.Machine

/-! ## Fields of a word (Table 2.3) -/

/-- Bits [hi:lo] of an instruction word, as a width and a lowest bit. -/
def wf (w lo n : Nat) : Nat := w / 2 ^ lo % 2 ^ n

def wOp (w : Nat) : Nat := wf w 26 6
def wRd (w : Nat) : Nat := wf w 21 5
def wRs1 (w : Nat) : Nat := wf w 16 5
def wRs2 (w : Nat) : Nat := wf w 11 5
def wFn (w : Nat) : Nat := wf w 0 11
def wImm (w : Nat) : Nat := wf w 0 16
def wSpace (w : Nat) : Nat := wf w 14 2
def wOff (w : Nat) : Nat := wf w 0 14
def wCfn (w : Nat) : Nat := wf w 20 6
def wX (w : Nat) : Nat := wf w 17 3
def wY (w : Nat) : Nat := wf w 14 3
def wK (w : Nat) : Nat := wf w 11 3
def wG (w : Nat) : Nat := wf w 6 5
def wM (w : Nat) : Nat := wf w 0 6

/-! ## Legality (R46) -/

/-- Whether a cipher step's fields are in range and those it does not use are zero (Tables 2.9, 2.10, R57). -/
def ciphLegal (w : Nat) : Bool :=
  let z := fun (l : List Nat) => l.all (· == 0)
  match wCfn w with
  | 0x00 => z [wX w, wG w] && decide (wM w ≤ 9) && (wM w != 8 || wK w % 2 == 0)
  | 0x01 => z [wK w, wG w]
  | 0x02 => z [wK w, wG w]
  | 0x03 => z [wX w, wK w, wG w]
  | 0x04 => z [wX w, wK w, wG w]
  | 0x05 => z [wY w, wK w, wG w, wM w]
  | 0x06 => z [wX w, wY w, wK w, wM w]
  | 0x07 => z [wX w, wY w, wK w, wM w]
  | 0x08 => z [wX w, wY w, wK w, wM w]
  | 0x09 => z [wX w, wY w, wK w, wM w]
  | 0x0A => z [wG w] && decide (wM w ≤ 1)
  | _ => false

/-- The same of a digest step (Table 2.11, R59). -/
def digLegal (w : Nat) : Bool :=
  let z := fun (l : List Nat) => l.all (· == 0)
  match wCfn w with
  | 0x00 => z [wX w, wY w] && decide (1 ≤ wM w % 32) && decide (wM w % 32 ≤ 7) && (decide (32 ≤ wM w) || wK w == 0)
  | 0x01 => z [wX w, wK w, wG w, wM w]
  | 0x02 => z [wX w, wY w, wK w] && decide (1 ≤ wM w) && decide (wM w ≤ 8)
  | 0x03 => z [wY w, wK w, wG w] && decide (wM w ≤ 3)
  | 0x04 => z [wX w, wY w, wK w]
  | 0x05 => z [wX w, wY w, wK w, wM w]
  | 0x06 => z [wX w, wY w, wK w, wM w]
  | _ => false

/-- The same of a key operation (Table 2.12). -/
def keyLegal (w : Nat) : Bool :=
  let z := fun (l : List Nat) => l.all (· == 0)
  match wCfn w with
  | 0x00 => z [wX w, wY w, wM w]
  | 0x01 => z [wX w, wY w, wG w, wM w]
  | 0x02 => z [wG w] && decide (1 ≤ wM w) && decide (wM w ≤ 5)
  | 0x03 => z [wY w] && decide (wM w ≤ 1)
  | 0x04 => z [wY w] && decide (wM w ≤ 1)
  | 0x05 => z [wY w, wK w, wM w]
  | 0x06 => z [wX w, wY w, wM w]
  | _ => false

/-- The same of the gate-format instructions (Table 2.13). -/
def gateLegal (w : Nat) : Bool :=
  let z := fun (l : List Nat) => l.all (· == 0)
  match wOp w, wRd w with
  | 0x30, 0 => z [wRs1 w, wRs2 w]
  | 0x30, 1 => z [wRs1 w, wRs2 w, wFn w]
  | 0x31, 0 => z [wRs2 w]
  | 0x31, 1 => true
  | 0x31, 2 => true
  | 0x32, 0 => z [wRs1 w, wRs2 w, wFn w]
  | 0x32, 1 => z [wRs2 w]
  | 0x32, 2 => z [wRs1 w, wRs2 w]
  | 0x33, 0 => decide (wFn w < 32)
  | 0x33, 1 => decide (wFn w < 32)
  | _, _ => false

/-- Whether a word is a legal instruction. -/
def wordLegal (w : Nat) : Bool :=
  let op := wOp w
  if op = 0x01 then decide (wFn w ≤ 0x0E) && (wFn w != 0x0D || wRs2 w == 0)
  else if 0x02 ≤ op ∧ op ≤ 0x06 then true
  else if op = 0x07 then decide (wImm w < 256)
  else if op = 0x08 then decide (wRs1 w < 4)
  else if op = 0x09 then wRs1 w == 0 && (decide (wImm w ≤ 9) || wImm w == 0x10)
  else if 0x0A ≤ op ∧ op ≤ 0x0F then true
  else if op = 0x10 ∨ op = 0x11 then wRd w == 0 && wRs1 w == 0
  else if op = 0x12 then w % 2 ^ 26 == 0
  else if 0x14 ≤ op ∧ op ≤ 0x1B then true
  else if op = 0x1C ∨ op = 0x1D then decide (wRd w < 8)
  else if op = 0x20 then ciphLegal w
  else if op = 0x21 then digLegal w
  else if op = 0x22 then [wCfn w, wK w, wG w, wM w].all (· == 0)
  else if op = 0x23 then [wCfn w, wK w].all (· == 0) && decide (wM w ≤ 16)
  else if op = 0x24 then keyLegal w
  else if 0x30 ≤ op ∧ op ≤ 0x33 then gateLegal w
  else false

/-- The vendor-only instructions (R65): GRET, MILE.I, MILE.C, VGET, VPUT, K.STORE. -/
def vendorOnly (w : Nat) : Bool :=
  (wOp w == 0x30 && wRd w == 1) || (wOp w == 0x31 && (wRd w == 1 || wRd w == 2)) || wOp w == 0x33 || (wOp w == 0x24 && wCfn w == 5)

/-! ## Kinds of instruction -/

def isBranch (w : Nat) : Bool := decide (0x0A ≤ wOp w) && decide (wOp w ≤ 0x0F)
def isJmp (w : Nat) : Bool := wOp w == 0x10
def isCall (w : Nat) : Bool := wOp w == 0x11
def isRet (w : Nat) : Bool := wOp w == 0x12
def isGate (w : Nat) : Bool := wOp w == 0x30 && wRd w == 0
def isYield (w : Nat) : Bool := wOp w == 0x32 && wRd w == 0
def isEnd (w : Nat) : Bool := wOp w == 0x32 && (wRd w == 1 || wRd w == 2)
def isMileP (w : Nat) : Bool := wOp w == 0x31 && wRd w == 0
def isMem (w : Nat) : Bool := decide (0x14 ≤ wOp w) && decide (wOp w ≤ 0x1D)
def isStore (w : Nat) : Bool := (decide (0x18 ≤ wOp w) && decide (wOp w ≤ 0x1B)) || wOp w == 0x1D

/-- The bytes a memory instruction moves. -/
def memBytes (w : Nat) : Nat :=
  match wOp w with
  | 0x14 => 1 | 0x15 => 2 | 0x16 => 4 | 0x17 => 8 | 0x18 => 1 | 0x19 => 2 | 0x1A => 4 | 0x1B => 8
  | _ => 16

/-- A signed field. -/
def signed (v n : Nat) : Int := if v < 2 ^ (n - 1) then v else (v : Int) - 2 ^ n

/-- The index a branch, JMP or CALL at an index leads to. -/
def targetOf (i w : Nat) : Int := (i : Int) + signed (wImm w) 16

/-- The policy class of an instruction, classes 0-6 (Table 2.18). -/
def policyClass (w : Nat) : Option Nat :=
  let op := wOp w
  if op = 0x20 ∧ (wCfn w = 0x0A ∨ (wCfn w = 0 ∧ wM w = 0)) then some 0
  else if op = 0x22 then some 1
  else if op = 0x21 ∧ wCfn w = 3 then some 2
  else if op = 0x24 ∧ wCfn w = 3 then some 3
  else if op = 0x24 ∧ wCfn w = 4 then some 4
  else if isStore w ∧ wSpace w = 2 then some 5
  else if op = 0x09 ∧ wImm w = 0x10 then some 6
  else .none

/-- A waymark's declared depth, worst cost and whether it yields inside (Table 2.19). -/
def waymarkInfo (n : Nat) : Nat × Nat × Bool :=
  match n with
  | 0x010 => (2, 2400, false) | 0x011 => (2, 2200, false) | 0x012 => (1, 400, false) | 0x013 => (1, 600, false)
  | 0x020 => (3, 4600, false) | 0x030 => (2, 2600, false) | 0x031 => (2, 2700, false)
  | 0x040 => (2, 3600, true) | 0x041 => (2, 3600, true) | 0x042 => (2, 3600, true)
  | 0x050 => (3, 4400, false) | 0x060 => (3, 12600, true) | 0x061 => (3, 5200, false) | 0x070 => (3, 6200, true)
  | 0x071 => (2, 2400, false)
  | _ => (1, 0, false)

/-! ## Costs (R541) -/

/-- The compression of a digest algorithm code, 80 where it is not known. -/
def compressionOf (alg : Nat) : Nat := if alg = 1 ∨ alg = 2 then 64 else if 5 ≤ alg ∧ alg ≤ 7 then 24 else 80

/-- The cost of a digest step whose context one of some D.INITs opened, each by its m; 64 stands for any. -/
def digestCost (w : Nat) (openers : List Nat) : Nat :=
  let each := fun (m : Nat) =>
    let c := if m = 64 then 80 else compressionOf (m % 32)
    if wCfn w = 1 then 1 + c else if 32 ≤ m then 1 + 4 * 80 else 1 + 2 * c
  (if openers.isEmpty then [64] else openers).foldl (fun a m => max a (each m)) 0

/-- The largest cost of an instruction that is neither a yield point, nor CALL, RET or GATE: `nr` is Nr of the dearest key, `tdes` whether
it may be a TDES key, `compact` the profile. -/
def maxCost (w nr : Nat) (tdes compact : Bool) (openers : List Nat) : Nat :=
  let op := wOp w
  if op = 0x01 then (if wFn w = 0x0B then 3 else if wFn w = 0x0C then 4 else 1)
  else if op = 0x09 then (if wImm w = 0x10 then 4 else 1)
  else if op ≤ 0x09 then 1
  else if op ≤ 0x12 then 2
  else if isMem w then
    match wSpace w with
    | 0 => if isStore w then 1 else 2
    | 1 => if isStore w then 4 else 12
    | 2 => 1080 + (if compact then 120 else 0)
    | _ => 6
  else if op = 0x20 then
    match wCfn w with
    | 0x00 => if wM w = 7 ∨ wM w = 8 then 4 + nr else 4
    | 0x03 => 4
    | 0x05 => nr + 2
    | 0x06 => 8
    | 0x07 => 8
    | 0x08 => 10 * 14 * 13 + 40
    | 0x09 => 10 * 14 * 13 + 40
    | _ => nr + 1
  else if op = 0x21 then
    match wCfn w with
    | 0x00 => if 32 ≤ wM w then 84 else 4
    | 0x01 => digestCost w openers
    | 0x02 => digestCost w openers
    | 0x03 => 2
    | 0x04 => 6
    | _ => 32
  else if op = 0x22 then 4
  else if op = 0x23 then 2
  else if op = 0x24 then
    match wCfn w with
    | 0x00 => 1440
    | 0x02 => if tdes then 100 else 2 * nr + 4
    | 0x03 => if wM w = 0 then 6 * 9 * 14 + 20 else 6 * 16 * nr + 20
    | 0x04 => if wM w = 0 then 6 * 9 * 14 + 20 else 6 * 16 * nr + 20
    | _ => 1
  else if isMileP w then 480
  else 1

/-! ## Paths -/

/-- A program under check: its words, where the code lies in the image, its loop bounds by index, the dearest key and the profile. -/
structure Prog where
  words   : List Nat
  codeOff : Nat
  loops   : List (Nat × Nat)
  nr      : Nat
  tdes    : Bool
  compact : Bool
  deriving DecidableEq, Repr

/-- The word at an index. -/
def Prog.word (p : Prog) (i : Nat) : Nat := p.words.getD i 0

/-- The index a transfer at an index leads to. -/
def Prog.target (p : Prog) (i : Nat) : Nat := (targetOf i (p.word i)).toNat

/-- The successors of an instruction within its function. -/
def Prog.succ (p : Prog) (i : Nat) : List Nat :=
  let w := p.word i
  let next := if i + 1 < p.words.length then [i + 1] else []
  if isRet w || isEnd w then []
  else if isJmp w then [p.target i]
  else if isBranch w then (if p.target i = i + 1 then next else p.target i :: next)
  else next

/-- What is reached from a list of indices, in rounds. -/
def reached (succ : Nat → List Nat) : Nat → List Nat → List Nat → List Nat
  | 0, seen, _ => seen
  | n + 1, seen, front =>
    let new := ((front.flatMap succ).eraseDups).filter fun i => !seen.contains i
    if new.isEmpty then seen else reached succ n (seen ++ new) new

/-- The instructions of the function that starts at an index. -/
def Prog.body (p : Prog) (s : Nat) : List Nat := reached p.succ (p.words.length + 1) [s] [s]

/-- Frames of the deepest chain from a function, cut off past 16 (check 6); a recursion exceeds it too. -/
def Prog.depth (p : Prog) : Nat → Nat → Nat
  | 0, _ => 17
  | n + 1, s =>
    (p.body s).foldl (fun a i =>
      let w := p.word i
      if isCall w then max a (1 + p.depth n (p.target i))
      else if isGate w then max a (waymarkInfo (wFn w)).1
      else a) 0

/-! ## Digest contexts over every path (R541) -/

/-- The whole program's reach: CALLs followed. -/
def Prog.all (p : Prog) (s : Nat) : List Nat :=
  reached (fun i => (if isCall (p.word i) then [p.target i] else []) ++ p.succ i) (p.words.length + 1) [s] [s]

/-- Where control goes after an instruction: into the function a CALL names, behind the CALLs of the functions a RET ends. -/
def Prog.flow (p : Prog) (all : List Nat) (owners : List (Nat × List Nat)) (i : Nat) : List Nat :=
  let w := p.word i
  if isCall w then [p.target i]
  else if isRet w then
    let fs := (owners.filter fun f => f.2.contains i).map Prod.fst
    (all.filter fun j => isCall (p.word j) && fs.contains (p.target j)).map (· + 1)
  else p.succ i

/-- Join openers into an index. -/
def joinAt (t : Tbl (List Nat)) (xs : List Nat) (i : Nat) : Tbl (List Nat) :=
  let old := t.get i []
  let new := xs.filter fun x => !old.contains x
  if new.isEmpty && t.has i then t else t.set i (old ++ new)

/-- One round of the openers that reach each instruction. -/
def Prog.openRound (p : Prog) (flow : Nat → List Nat) (all : List Nat) (t : Tbl (List Nat)) : Tbl (List Nat) :=
  all.foldl (fun t i =>
    if t.has i then
      let w := p.word i
      let out := if wOp w = 0x21 ∧ wCfn w = 0 then [wM w] else if wOp w = 0x21 ∧ wCfn w = 6 then [64] else t.get i []
      (flow i).foldl (fun t j => joinAt t out j) t
    else t) t

/-- Rounds until nothing changes. -/
def Prog.openers (p : Prog) (flow : Nat → List Nat) (all : List Nat) : Nat → Tbl (List Nat) → Tbl (List Nat)
  | 0, t => t
  | n + 1, t =>
    let t' := p.openRound flow all t
    if t' == t then t else p.openers flow all n t'

/-- The openers of the context that each instruction can meet, from an entry. -/
def Prog.openersFrom (p : Prog) (s : Nat) : Tbl (List Nat) :=
  let all := p.all s
  let starts := s :: ((all.filter fun i => isCall (p.word i)).map p.target).eraseDups
  let owners := starts.map fun f => (f, p.body f)
  p.openers (p.flow all owners) all (65 * p.words.length + 1) (Tbl.set [] s [64])

/-! ## Stretches (check 8) -/

/-- What a function adds to the stretches of its caller: the dearest way through without a yield point, to its first yield point or
end, from its last yield point to its return, and the dearest stretch inside it with where it starts. -/
structure Summary where
  thru : Option Nat
  stop : Option Nat
  tail : Option Nat
  worst : Nat × Nat
  deriving DecidableEq, Repr

/-- The larger of two costs, where there are any. -/
def optMax (a b : Option Nat) : Option Nat :=
  match a, b with
  | some x, some y => some (max x y)
  | some x, .none => some x
  | .none, y => y

/-- A cost on top of another. -/
def optAdd (n : Nat) (a : Option Nat) : Option Nat := a.map (n + ·)

/-- The dearer stretch. -/
def worse (a b : Nat × Nat) : Nat × Nat := if a.1 < b.1 then b else a

/-- How an instruction passes a stretch on: its cost where the stretch goes through it, its cost where the stretch ends with it, and what
a stretch that starts in it has cost on leaving it. -/
structure Passing where
  thru : Option Nat
  stop : Option Nat
  rest : Option Nat
  deriving DecidableEq, Repr

/-- The cost of a change of line between two indices (R48). -/
def Prog.line (p : Prog) (i j : Nat) : Nat := if (p.codeOff + 4 * i) / 64 = (p.codeOff + 4 * j) / 64 then 0 else 4

/-- An instruction's part in a stretch; `sum` gives the functions called. -/
def Prog.passing (p : Prog) (openers : Tbl (List Nat)) (sum : Nat → Summary) (i : Nat) : Passing :=
  let w := p.word i
  if isYield w then ⟨.none, some 40, some 0⟩
  else if isEnd w then ⟨.none, some 10, .none⟩
  else if isGate w then
    let x := waymarkInfo (wFn w)
    if x.2.2 then ⟨.none, some (6 + x.2.1), some x.2.1⟩ else ⟨some (6 + x.2.1), .none, .none⟩
  else if isCall w then
    let f := sum (p.target i)
    let n := 2 + p.line i (p.target i)
    ⟨optAdd n f.thru, optAdd n f.stop, f.tail⟩
  else
    let far := if isBranch w || isJmp w then p.line i (p.target i) else 0
    let n := maxCost w p.nr p.tdes p.compact (openers.get i []) + far
    ⟨some n, if (p.succ i).isEmpty && !isRet w then some n else .none, .none⟩

/-- Put indices whose successors are all placed in front, in one pass; what stays is not placed. -/
def settlePass (edges : Nat → List Nat) (placed : List Nat) (left : List Nat) : List Nat × List Nat :=
  left.foldl (fun a i => if (edges i).all a.1.contains then (i :: a.1, a.2) else (a.1, a.2 ++ [i])) (placed, [])

/-- Passes until nothing more can be placed: each index placed behind those it leads to. -/
def settle (edges : Nat → List Nat) : Nat → List Nat → List Nat → List Nat × List Nat
  | 0, placed, left => (placed, left)
  | n + 1, placed, left =>
    let r := settlePass edges placed left
    if r.2.length = left.length then r else settle edges n r.1 r.2

/-- The dearest cost from each index to an end: `order` holds successors first. -/
def dearest (order : List Nat) (edges : Nat → List Nat) (cost : Nat → Nat) (here : Nat → Option Nat) : Tbl Nat :=
  order.foldl (fun t i =>
    let on := (edges i).foldl (fun a j => optMax a (Tbl.find? t j)) .none
    match optMax (here i) (optAdd (cost i) on) with
    | some v => t.set i v
    | .none => t) []

/-- A bounded loop: its backward branch, its head, how often the branch is taken, and the cost of a turn. -/
structure Loop where
  at_   : Nat
  head  : Nat
  bound : Nat
  turn  : Option Nat
  deriving DecidableEq, Repr

/-- The loops of a function in the order of their span: the backward branches with a bound that lie on a cycle without a yield point. -/
def Prog.loopsOf (p : Prog) (body : List Nat) (edges : Nat → List Nat) : List Loop :=
  let n := p.words.length + 1
  let ls := body.filterMap fun i =>
    let w := p.word i
    if (isBranch w || isJmp w) && decide (p.target i ≤ i) then
      match p.loops.find? (fun l => l.1 == i) with
      | some l => if (edges i).contains (p.target i) && (reached edges n [p.target i] [p.target i]).contains i then
          some { at_ := i, head := p.target i, bound := l.2, turn := .none } else .none
      | .none => .none
    else .none
  ls.mergeSort fun (a b : Loop) => decide (a.at_ - a.head ≤ b.at_ - b.head)

/-- What the loops add at their heads: bound times a turn, the inner loops first. -/
def loopExtras (order : List Nat) (edges : Nat → List Nat) (cost : Nat → Nat) (ls : List Loop) : List Loop × Tbl Nat :=
  ls.foldl (fun (a : List Loop × Tbl Nat) l =>
    let c := fun (i : Nat) => cost i + a.2.get i 0
    let t := dearest order edges c fun i => if i = l.at_ then some (c i) else .none
    let turn := Tbl.find? t l.head
    (a.1 ++ [{ l with turn := turn }], a.2.set l.head (a.2.get l.head 0 + l.bound * turn.getD 0))) ([], [])

/-- Costs from every index, with the back edges a stretch may take that starts inside a loop, the outer loops first. -/
def withBackEdges (order : List Nat) (edges : Nat → List Nat) (cost : Nat → Nat) (ls : List Loop) (base : Tbl Nat) : Tbl Nat :=
  ls.reverse.foldl (fun (g : Tbl Nat) l =>
    if l.bound = 0 then g
    else
      let inside := fun (i : Nat) => (edges i).filter (· != l.head)
      let to_ := dearest order inside cost fun i => if i = l.at_ then some (cost i) else .none
      match Tbl.find? g l.head with
      | .none => g
      | some v =>
        order.foldl (fun g i =>
          if i = l.head then g
          else match Tbl.find? to_ i with
            | some d => g.set i (max (g.get i 0) (d + (v - l.turn.getD 0)))
            | .none => g) g) base

/-- The summary of the function that starts at an index; none where a cycle has neither a yield point nor a bound: its byte offset. -/
def Prog.summary (p : Prog) (openers : Tbl (List Nat)) (sum : Nat → Summary) (s : Nat) : Sum Nat Summary :=
  let body := p.body s
  let pass := fun (i : Nat) => p.passing openers sum i
  let edges := fun (i : Nat) => if (pass i).thru.isSome then p.succ i else []
  let ls := p.loopsOf body edges
  let dag := fun (i : Nat) => match ls.find? (fun (l : Loop) => l.at_ == i) with
    | some l => (edges i).filter (· != l.head)
    | .none => edges i
  let down := body.mergeSort fun a b => decide (b ≤ a)
  let (placed, left) := settle dag (body.length + 1) [] down
  if !left.isEmpty then
    .inl (p.codeOff + 4 * ((left.filter fun i => (dag i).any fun j => decide (j ≤ i) && left.contains j).foldl min p.words.length))
  else
    let order := placed.reverse
    let own := fun (i : Nat) => (pass i).thru.getD 0
    let (ls, extra) := loopExtras order dag own ls
    let cost := fun (i : Nat) => own i + extra.get i 0
    let ret := withBackEdges order dag cost ls (dearest order dag cost fun i => if isRet (p.word i) then some 6 else .none)
    let stop := withBackEdges order dag cost ls (dearest order dag cost fun i => (pass i).stop)
    let starts := body.flatMap fun i => match (pass i).rest with
      | some r => (p.succ i).map fun j => (r, j)
      | .none => []
    let tail := starts.foldl (fun a x => optMax a (optAdd x.1 (Tbl.find? ret x.2))) .none
    let inner := body.foldl (fun a i => if isCall (p.word i) then worse a (sum (p.target i)).worst else a) (0, p.codeOff + 4 * s)
    let worst := starts.foldl (fun a x => worse a (((optAdd x.1 (Tbl.find? stop x.2)).getD 0), p.codeOff + 4 * x.2)) inner
    .inr { thru := Tbl.find? ret s, stop := Tbl.find? stop s, tail := tail, worst := worst }

/-- Summaries through the chain of calls, at most 16 deep; the first function whose cycles have no bound fails the check. -/
def Prog.summarise (p : Prog) (openers : Tbl (List Nat)) : Nat → Nat → Sum Nat Summary
  | 0, s => .inl (p.codeOff + 4 * s)
  | n + 1, s =>
    let callees := (((p.body s).filter fun i => isCall (p.word i)).map p.target).eraseDups
    let subs := callees.map fun f => (f, p.summarise openers n f)
    match subs.find? fun x => x.2.isLeft with
    | some x => x.2
    | .none =>
      let sum := fun (f : Nat) => match (subs.find? fun x => x.1 == f) with
        | some (_, .inr y) => y
        | _ => { thru := .none, stop := .none, tail := .none, worst := (0, 0) }
      p.summary openers sum s

/-- Check 8 of a program from its entry: the byte offset where it fails. -/
def Prog.spacing (p : Prog) (entry : Nat) : Option Nat :=
  match p.summarise (p.openersFrom entry) 17 entry with
  | .inl off => some off
  | .inr x =>
    let at_ := p.codeOff + 4 * entry
    let w := [x.thru, x.stop, x.tail].foldl (fun a v => worse a (v.getD 0, at_)) x.worst
    if 20000 < w.1 then some w.2 else .none

/-! ## The image (Table 2.16) -/

/-- A field of the header. -/
def hdr (b : Bytes) (off n : Nat) : Nat := fieldBE b off n

/-- The signature block's size (R82). -/
def sigLen : Nat := 4736

/-- Check 1: the offset of the first field at fault. The 4-byte alignment of R45 is read as one within the code section, so any
code offset passes (DEDUCED, log entry 54). -/
def headerFault (b : Bytes) : Option Nat :=
  let n := b.length
  if 65536 < n then some 65536
  else if n < 64 + sigLen then some n
  else
    let id := hdr b 0x0C 4
    let shared := bit (hdr b 6 2) 0
    let range := if shared then decide (0x100 ≤ id) && decide (id ≤ 0xFFF) else decide (0x10000 ≤ id) && decide (id ≤ 0xFFFFFFFE)
    let code := hdr b 0x18 4 + hdr b 0x1C 4
    let const := hdr b 0x20 4 + hdr b 0x24 4
    let loops := hdr b 0x28 4 + hdr b 0x2C 4
    let tests : List (Nat × Bool) :=
      [(0x00, hdr b 0 4 == 0x49544E37), (0x04, hdr b 4 2 == 1), (0x06, decide (hdr b 6 2 < 2)),
       (0x08, decide (hdr b 8 2 < 4096) && (!shared || hdr b 8 2 == 0)), (0x0A, hdr b 0x0A 2 == 0), (0x0C, range),
       (0x14, hdr b 0x14 4 % 4 == 0), (0x18, decide (64 ≤ hdr b 0x18 4)), (0x1C, hdr b 0x1C 4 % 4 == 0 && decide (code ≤ hdr b 0x20 4)),
       (0x24, decide (const ≤ hdr b 0x28 4)), (0x2C, hdr b 0x2C 4 % 8 == 0 && decide (loops ≤ n - sigLen)),
       (0x30, decide (hdr b 0x30 2 ≤ 14336)), (0x32, hdr b 0x32 2 % 16 == 0 && decide (hdr b 0x32 2 ≤ hdr b 0x30 2)),
       (0x34, decide (1 ≤ hdr b 0x34 2) && decide (hdr b 0x34 2 ≤ 2047)), (0x36, hdr b 0x36 2 == 0)]
    (tests.find? fun t => !t.2).map Prod.fst

/-- The signer an image names (Table 2.16). -/
def signerOf (signers : List Signer) (b : Bytes) : Option Signer := signers.find? fun (x : Signer) => x.ident.toNat == hdr b 0x38 8

/-- The offset of an image's signature block. -/
def sigOffset (b : Bytes) : Nat := b.length - sigLen

/-- The digest both signatures are over (R82). -/
def imageDigest (b : Bytes) : Bytes := sha384 (b.take (sigOffset b))

/-- The job that checks a signature of an image for its signer: ECDSA P-384, or HashML-DSA-87 with SHA-384 (R160). -/
def signatureJob (x : Signer) (b : Bytes) (job : Nat) : Bytes :=
  if job = 0x11 then jobRequest 0x202 0 3 x.ecdsa (slice b (sigOffset b) 96) (imageDigest b)
  else jobRequest 0x403 0 3 x.mldsa (slice b (sigOffset b + 96) 4627) (imageDigest b)

/-- Check 2: the offset of what does not verify. -/
def signatureFault (signers : List Signer) (b : Bytes) : Option Nat :=
  match signerOf signers b with
  | .none => some 0x38
  | some x =>
    if !ecdsaP384Verify x.ecdsa (imageDigest b) (slice b (sigOffset b) 96) then some (sigOffset b)
    else if !mldsa87Verify x.mldsa (imageDigest b) (slice b (sigOffset b + 96) 4627) then some (sigOffset b + 96)
    else if !zeroAt b (sigOffset b + 4723) 13 then some (sigOffset b + 4723)
    else .none

/-- The words of a code section. -/
def codeWords (b : Bytes) : List Nat := (List.range (hdr b 0x1C 4 / 4)).map fun i => hdr b (hdr b 0x18 4 + 4 * i) 4

/-- The loop-bound table, by the index of the branch. -/
def loopTable (b : Bytes) : List (Nat × Nat) :=
  (List.range (hdr b 0x2C 4 / 8)).map fun i => (hdr b (hdr b 0x28 4 + 8 * i) 4 / 4, hdr b (hdr b 0x28 4 + 8 * i + 4) 4)

/-- Check 4 of an instruction at an index: its target lies in the code, an immediate offset in space 3 within the constants. A
space-3 offset is taken as immediate where the base register is g0, and the whole access must lie within (DEDUCED, log entry
54); with another base register BOUNDS decides at run time. -/
def targetsOk (n const : Nat) (i w : Nat) : Bool :=
  if isBranch w || isJmp w || isCall w then decide (0 ≤ targetOf i w) && decide (targetOf i w < n)
  else if isMem w && wSpace w == 3 && wRs1 w == 0 then
    decide (0 ≤ signed (wOff w) 14) && decide (signed (wOff w) 14 + memBytes w ≤ const)
  else true

/-- The first index whose word fails a test. -/
def firstBad (ws : List Nat) (ok : Nat → Nat → Bool) : Option Nat :=
  ((List.range ws.length).find? fun i => !ok i (ws.getD i 0))

/-- Checks 3-9 in order: the number of the first that fails and its byte offset. -/
def codeFault (b : Bytes) (shared : Bool) (policy : BitVec 16) (compact : Bool) : Option (Nat × Nat) :=
  let ws := codeWords b
  let off := hdr b 0x18 4
  let entry := hdr b 0x14 4 / 4
  let tdes := shared || !policy.getLsbD 7
  let p : Prog := { words := ws, codeOff := off, loops := loopTable b, nr := if tdes then 48 else 14, tdes := tdes, compact := compact }
  let fail := fun (k : Nat) (o : Option Nat) => o.map fun i => (k, off + 4 * i)
  let class7 := fun (_ w : Nat) => match policyClass w with
    | some k => shared || !policy.getLsbD k
    | .none => true
  match firstBad ws (fun _ w => wordLegal w && !vendorOnly w) with
  | some i => fail 3 (some i)
  | .none =>
    if ws.length ≤ entry then some (4, 0x14)
    else match firstBad ws (targetsOk ws.length (hdr b 0x24 4)) with
      | some i => fail 4 (some i)
      | .none =>
        match firstBad ws (fun _ w => !isGate w || (waymarks.contains (wFn w) && (shared || waymarkAllowed policy (wFn w)))) with
        | some i => fail 5 (some i)
        | .none =>
          if 16 < p.depth 17 entry then some (6, off + 4 * entry)
          else match firstBad ws class7 with
            | some i => fail 7 (some i)
            | .none =>
              match p.spacing entry with
              | some o => some (8, o)
              | .none => fail 9 (firstBad ws fun _ w => !isMileP w || (decide (1 ≤ wFn w) && decide (wFn w ≤ hdr b 0x34 2)))

/-- The image record of a checked image in a granule. -/
def imageRecord (b : Bytes) (granule : Nat) : Image :=
  let ws := codeWords b
  { id := BitVec.ofNat 32 (hdr b 0x0C 4), colour := BitVec.ofNat 12 (hdr b 8 2), shared := bit (hdr b 6 2) 0,
    version := BitVec.ofNat 32 (hdr b 0x10 4), granule := granule, entry := BitVec.ofNat 32 (hdr b 0x14 4), codeOff := hdr b 0x18 4,
    codeLen := hdr b 0x1C 4, constOff := hdr b 0x20 4, constLen := hdr b 0x24 4, stack := hdr b 0x32 2,
    steps := BitVec.ofNat 16 (hdr b 0x34 2),
    classes := BitVec.ofNat 16 (((List.range 7).filter fun k => ws.any fun w => policyClass w == some k).foldl (fun a k => a + 2 ^ k) 0),
    waymarks := ((ws.filter isGate).map fun w => BitVec.ofNat 11 (wFn w)).eraseDups }

end Sys2Proof.Machine
end

