-- ==== Sys2Proof/Machine/VaultCmds.lean ====
section
/-! DEFINITION. The vault's commands (R219-R249, Table 11.6) and its timers. -/

namespace Sys2Proof.Machine

/-- VAULT_REQUEST_TIMEOUT (R240). -/
def execVaultRequestTimeout (req : Word) (s : State) : Res := .next (s.vaultTimeout req)

/-- VAULT_REFILL: the background refill reads one more node (R243). -/
def execVaultRefill (s : State) : Res := .next s.refillStep

/-! ## VAULT.FORMAT -/

/-- The attributes of a vault system key: AES-256 of colour 0 for the engine class VAULT (R229, R544). Its usage, parameter and
window are a DESIGN CHOICE: those a CMAC key needs, always valid. -/
def vaultKeyAttrs (gen : Byte) : KeyAttrs :=
  { ktype := 3, colour := 0, gen := gen, libOnly := false, engine := 8, derivedEngine := 0, usage := 12, derivedUsage := 0, param := 0,
    notBefore := 0, notAfter := 0xFFFFFFFFFFFF }

/-- Create one of the vault's system records under a fresh key (R229). -/
def State.vaultKey (s : State) (h : Word) : Option State :=
  (s.hubRead 32).makeRecord 1 h (vaultKeyAttrs s.lc.gen) (s.versionOf h + 1) (s.hubBytes 32)

/-- The vault of N units that VAULT.FORMAT creates: an empty tree at root version 0 (R229). -/
def State.newVault (s : State) (n : Nat) : State :=
  match s.vaultKeys with
  | (s, some (_, treeKey)) =>
    s.modVault fun v =>
      { v with state := .opened, n := n, root := rootValue treeKey 0 zeroNode, rootVersion := 0, nodes := [], missing := false,
               verCache := [], lowCache := [], repair := .none, repairs := [], freeing := .none, recover := .none, refill := 0 }
  | (s, .none) => s

/-- Both system records, made anew. -/
def State.vaultKeyPair (s : State) : Option State := (s.vaultKey 0x10).bind fun s => s.vaultKey 0x11

/-- Create the vault. -/
def State.createVault (s : State) (c : Cmd) (sp : Spec) (n : Nat) : State :=
  if s.vaultKeyPair.isNone then s.reject c cBadState
  else
    answer c (((s.begin sp c).cmdAccepted c sp.op).configured c fun s => (s.vaultKeyPair.getD s).newVault n) sp []

/-- VAULT.FORMAT (R227, R229). -/
def execVaultFormat (c : Cmd) (s : State) : Res :=
  let n := fieldLE c.body 0 4
  runCmd 0x0601 c (c.body.length == 8 && zeroAt c.body 4 4) s fun sp s =>
    if n % 4096 ≠ 0 ∨ n = 0 ∨ 2 ^ 31 < n then s.reject c cInvalid
    else
      match s.vault.state with
      | .opened =>
        if n ≤ s.vault.n then s.reject c cInvalid
        else answer c (((s.begin sp c).cmdAccepted c sp.op).configured c fun s => s.modVault fun v => { v with n := n }) sp []
      | .unformatted => s.createVault c sp n
      | .lost => s.createVault c sp n
      | _ => s.reject c 0x0401

/-! ## Extents -/

/-- Whether a key may serve as half of an XTS pair of an extent (R224). -/
def xtsKeyOk (k : Key) : Bool := k.attrs.ktype == 3 && k.enters eVault && k.may uEncrypt && k.may uDecrypt

/-- The key of a record, without a visit to the caddy. -/
def State.recordKey (s : State) (c : Colour) (h : Word) : Option Key := (s.record c h).bind fun r => s.openRecord r.1 r.2

/-- Whether two handles of a colour name a good XTS pair (R224, Table 4.1). -/
def State.xtsPairOk (s : State) (c : Colour) (h1 h2 : Word) : Bool :=
  match s.recordKey c h1, s.recordKey c h2 with
  | some a, some b => xtsKeyOk a && xtsKeyOk b && a.material != b.material
  | _, _ => false

/-- Whether a new extent overlaps one there is or reaches beyond N (R224). -/
def State.extentClash (s : State) (base size : Nat) : Bool :=
  decide (s.vault.n < base + size) ||
  s.tenancy.parts.any fun q => q.2.extent.any fun e => decide (e.base < base + size) && decide (base < e.base + e.size)

/-- VAULT.ALLOC (R224). -/
def execVaultAlloc (c : Cmd) (s : State) : Res :=
  let base := fieldLE c.body 0 4
  let size := fieldLE c.body 4 4
  let h1 := BitVec.ofNat 64 (fieldLE c.body 8 8)
  let h2 := BitVec.ofNat 64 (fieldLE c.body 16 8)
  runCmd 0x0602 c (c.body.length == 24) s fun sp s =>
    match s.part? c.colour with
    | .none => s.reject c cNotFound
    | some p =>
      if base % 4096 ≠ 0 ∨ size % 4096 ≠ 0 ∨ size = 0 then s.reject c cInvalid
      else if p.extent.isSome || s.extentClash base size then s.reject c 0x0402
      else if s.tinShut c.colour h1 || s.tinShut c.colour h2 then s.reject c cBadState
      else if !s.xtsPairOk c.colour h1 h2 then s.reject c 0x0102
      else if (if p.vf = 0 then s.freeVault else p.vaultQuota) < size then s.reject c cExhausted
      else
        answer c (((s.begin sp c).cmdAccepted c sp.op).configured c fun s =>
          s.setPart c.colour { p with extent := some { base := base, size := size, key1 := h1, key2 := h2 } }) sp []

/-- Whether an itinerary or an MAE job of a colour runs. -/
def State.colourRuns (s : State) (c : Colour) : Bool :=
  (s.seats.any fun q => q.2.phase != Phase.empty && q.2.desc.colour == c) ||
  s.clusters.any fun q => q.2.mae.running.any (fun (j : MaeJob) => j.desc.colour == c)

/-- VAULT.FREE (R226, R227): it takes its place in the pipeline behind any other. -/
def execVaultFree (c : Cmd) (s : State) : Res :=
  runCmd 0x0603 c c.body.isEmpty s fun sp s =>
    match s.extentOf c.colour with
    | .none => s.reject c cNotFound
    | some e =>
      if s.colourRuns c.colour then s.reject c cBadState
      else if (s.vault.state ≠ .opened ∧ s.vault.state ≠ .degraded) ∨ s.vault.sessions.isEmpty then s.reject c 0x0401
      else if s.vault.freeing.isSome then s
      else
        (((s.begin sp c).cmdAccepted c sp.op).modVault fun v =>
          { v with freeing := some { cmd := c, base := e.base, size := e.size, reqs := [], nodes := [], root := 0 } }).vaultRun

/-! ## Sessions, versions, recovery, status -/

/-- The sessions VAULT.ATTACH names. -/
def attachList (b : Bytes) : List (Nat × Nat) := (chunks 4 (b.drop 8)).map fun x => (fieldLE x 0 1, fieldLE x 2 2)

/-- Mark the sessions that serve the vault (R236, R291). -/
def State.markVault (s : State) (l : List (Nat × Nat)) : State :=
  let mark := fun (p : Nat) (pt : Port) =>
    { pt with sessions := pt.sessions.map fun q => (q.1, { q.2 with vault := l.contains (p, q.1) }) }
  { s with port0 := mark 0 s.port0, port1 := mark 1 s.port1 }

/-- VAULT.ATTACH (R236). -/
def execVaultAttach (c : Cmd) (s : State) : Res :=
  let b := c.body
  let n := fieldLE b 0 1
  let us := fieldLE b 4 4
  let l := attachList b
  runCmd 0x0604 c (b.length == 8 + 4 * n && zeroAt b 1 3 && (chunks 4 (b.drop 8)).all fun x => zeroAt x 1 1) s fun sp s =>
    if 4 < n ∨ us < 10 ∨ 10000 < us then s.reject c cInvalid
    else if l.any (fun x => decide (1 < x.1) || x.2 == 0 || decide (4095 < x.2)) then s.reject c cInvalid
    else if l.any (fun x => !(s.port x.1).sessions.has x.2) then s.reject c cNotFound
    else if l.any (fun x => ((s.port x.1).sessions.find? x.2).any fun y => y.colour != 0) then s.reject c cInvalid
    else
      let s := (s.markVault l).modVault fun v => { v with sessions := l, timeoutUs := us }
      answer c s.vaultReload.vaultRun sp []

/-- VAULT.VERSION (R246). -/
def execVaultVersion (c : Cmd) (s : State) : Res :=
  runCmd 0x0605 c (c.body.length == 8 && zeroAt c.body 4 4) s fun sp s =>
    (s.begin sp c).vaultSubmit (vaultOp (.version c) Desc.none false c.colour (BitVec.ofNat 64 (fieldLE c.body 0 4)) [] 0)

/-- VAULT.RECOVER (R244): a matching authorisation is consumed whatever the code (R352). -/
def execVaultRecover (c : Cmd) (s : State) : Res :=
  runCmd 0x0606 c (c.body.length == 8) s fun sp s =>
    let auth := s.useAuth 0x0606 0 c.body
    let s' := auth.getD s
    if s.vault.state ≠ .stale then s'.reject c 0x0401
    else if auth.isNone then s.reject c cAuthorisation
    else
      match s'.vaultGet false false 0 0 with
      | some (s, _) => (s.begin sp c).modVault fun v => { v with recover := some c }
      | .none => s'.reject c 0x0401

/-- A vault state by its place in Table 7.7. -/
def VaultState.code (v : VaultState) : Nat :=
  match v with
  | .unformatted => 0
  | .opened => 1
  | .degraded => 2
  | .reloading => 3
  | .stale => 4
  | .lost => 5

/-- A hit rate per mille. -/
def perMille (hits looks : Nat) : Nat := if looks = 0 then 0 else 1000 * hits / looks

/-- VAULT.STATUS (R249). The hit rates of the two caches are those of every look since delivery: the manual does not say over what time
(DESIGN CHOICE, log entry 27). -/
def execVaultStatus (c : Cmd) (s : State) : Res :=
  runCmd 0x0607 c c.body.isEmpty s fun sp s =>
    let v := s.vault
    answer c s sp
      (natLE 1 v.state.code ++ [0, 0, 0] ++ natLE 4 (s.tenancy.parts.filter fun q => q.2.extent.isSome).length ++ natLE 4 v.n ++
       List.replicate 4 0 ++ natLE 8 v.rootVersion.toNat ++ natLE 8 v.serial.toNat ++ natLE 1 v.putsInFlight ++ List.replicate 7 0 ++
       natLE 8 v.refill ++ natLE 2 (perMille v.treeHits v.treeLooks) ++ natLE 2 (perMille v.verHits v.verLooks) ++ List.replicate 4 0 ++ v.counts.toList.flatMap (natLE 8))

end Sys2Proof.Machine
end

