-- ==== Sys2Proof/Machine/Journal.lean ====
section
/-! DEFINITION. The journal's own steps and commands (chapter 8): watermarks, spilling, OUTCOME records, JOURNAL.QUERY and
JOURNAL.STATUS. -/

namespace Sys2Proof.Machine

/-- WATERMARK_WRITE (R92, R259). -/
def execWatermarkWrite (s : State) : Res := .next s.writeMarks

/-- JOURNAL_SPILL: a full ring spills its oldest record (R257). -/
def execJournalSpill (s : State) : Res :=
  .next (if s.journal.ring.length < ringCap then s else { s with journal := s.journal.spillOne })

/-! ## OUTCOME (R254, R266) -/

/-- OUTCOME: the oldest intent whose call has settled gets its OUTCOME; with none, the vault reads the versions that settle
the rest. An item's OUTCOME precedes its DELIVERED (R252): its response waits for it (`execItinRsp`). -/
def execOutcome (s : State) : Res :=
  .next (match s.journal.orphans.find? (·.settled) with
    | some o => s.writeOutcome o
    | .none => if s.vault.state = .opened ∨ s.vault.state = .degraded then s.outcomeReads else s)

/-! ## JOURNAL.QUERY (R258, R260-R262) -/

/-- The records a query answers from, whether they are anchors alone, and whether the ticket was used twice. -/
def Journal.useOf (j : Journal) (c : Colour) (t : Word) : List Milestone × Bool × Bool :=
  let rs := j.recordsOf c t
  let u := lastUse rs
  (u, anchorsAlone u, rs.any fun m => !u.contains m)

/-- The INTENTs without a COMMIT, each with its OUTCOME if it has one (Table 8.4, rule 3). -/
def uncommitted (rs : List Milestone) : List (Milestone × Option Milestone) :=
  (intentPairs rs).filter fun p => !p.2.any (·.typ == 5)

/-- Whether a COMMIT changed its object (rule 4). -/
def committed (rs : List Milestone) : Bool := (intentPairs rs).any fun p => p.2.any fun c => c.typ == 5 && c.valB != p.1.valB

/-- Whether the records say the response was delivered (rule 2). -/
def Journal.isDelivered (j : Journal) (rs : List Milestone) (anchorsOnly : Bool) : Bool :=
  rs.any (fun m => m.typ == 9 || (m.typ == 0x0B && m.aux.getLsbD 0)) ||
  (anchorsOnly && rs.any fun m => m.lane != 16384 && (j.watermarks.find? m.lane).any fun w => seqLe m.seq w)

/-- The answer code of Table 8.4. -/
def Journal.answerOf (j : Journal) (rs : List Milestone) (anchorsOnly : Bool) : Nat :=
  if rs.isEmpty then 0
  else if j.isDelivered rs anchorsOnly then 5
  else if !(uncommitted rs).isEmpty then 3
  else if committed rs then 4
  else if rs.any (·.typ != 1) then 2
  else 1

/-- Whether a ticket's item or command runs now (Table 8.6, bit 0). -/
def State.ticketRuns (s : State) (c : Colour) (t : Word) : Bool :=
  let mine := fun (d : Desc) => d.colour == c && d.ticket == t && d.id != 0 && d.own.isNone
  (s.seats.any fun q => q.2.phase != Phase.empty && mine q.2.desc) ||
  (s.clusters.any fun q => q.2.mae.running.any (fun (j : MaeJob) => mine j.desc) || q.2.mae.saved.any fun (j : MaeJob) => mine j.desc) ||
  s.pcie.inFlight.any fun (x : InFlight) =>
    x.started && x.cmd.colour == c && x.cmd.ticket == t && (specOf x.opcode.toNat).any fun sp => sp.journal

/-- Whether the object of an intent no longer exists (Table 8.6, bit 6): the vault is LOST; the key records are erased, as they are without
the BBK, or the record is gone. -/
def State.objectLost (s : State) (i : Milestone) (anchorsOnly : Bool) : Bool :=
  (i.code == 1 && s.vault.state == .lost) ||
  (i.code == 2 && (s.keys.bbk.isNone || (!s.keys.warm.has i.valA.toNat && (!anchorsOnly || s.power.erased) && i.valB != 0)))

/-- The journal horizon: the time of the oldest record, or now when there is none (R258). -/
def State.horizon (s : State) : Nat × Nat :=
  match (s.journal.spill ++ s.journal.ring).head? with
  | some m => (m.secs, m.nanos)
  | .none => (s.time.secs.toNat, s.time.nanos.toNat)

/-- Steps: the highest PROGRESS step and the count it declares, or a command's committed and intended objects (R356). -/
def stepCounts (rs : List Milestone) : Nat × Nat :=
  if rs.any (fun m => m.lane == 16384) then ((rs.filter (·.typ == 5)).length, (rs.filter (·.typ == 4)).length)
  else
    (rs.filter (·.typ == 3)).foldl (fun a m => (max a.1 m.code.toNat, m.aux.toNat)) (0, 0)

/-- The 64 bytes of Table 11.9. -/
def State.journalAnswer (s : State) (c : Colour) (t : Word) : Bytes :=
  let j := s.journal
  let (rs, anchorsOnly, dup) := j.useOf c t
  let a := j.answerOf rs anchorsOnly
  let open_ := if a = 3 then (uncommitted rs).head?.map (·.1) else .none
  let close := if a = 3 then (uncommitted rs).head?.bind (·.2) else .none
  let lost := anchorsOnly || (rs.isEmpty && j.lostAt.isSome && decide (j.spill.length < spillCap))
  let mig := rs.find? (·.typ == 0x0A)
  let held := rs.any (·.typ == 7) && a != 5
  let intents := rs.filter (·.typ == 4)
  let gone := decide (a = 3 ∨ a = 4) && intents.any fun i => s.objectLost i anchorsOnly
  let flags := b2n (s.ticketRuns c t) + 2 * b2n (rs.any (·.typ == 8)) + 4 * b2n held + 8 * b2n lost + 16 * b2n mig.isSome +
    32 * b2n dup + 64 * b2n gone + 128 * b2n (close.any fun x => x.aux.getLsbD 1)
  let first := rs.head?
  let (k, n) := stepCounts rs
  let (hs, hn) := s.horizon
  let num := fun (f : Milestone → Nat) (o : Option Milestone) => (o.map f).getD 0
  natLE 1 a ++ natLE 1 flags ++ natLE 1 (num (·.laneIdx) first) ++ [0] ++ natLE 4 (num (·.seq.toNat) first) ++ natLE 8 t.toNat ++
  natLE 2 k ++ natLE 2 n ++ natLE 2 (num (·.code.toNat) open_) ++ [0, 0] ++ natLE 8 (num (·.valA.toNat) open_) ++
  natLE 4 (num (·.valB.toNat) open_) ++ natLE 4 (num (·.valB.toNat) close) ++ natLE 8 hs ++ natLE 4 hn ++ List.replicate 4 0 ++
  natLE 8 (num (·.valA.toNat) mig)

/-- JOURNAL.QUERY. -/
def execJournalQuery (c : Cmd) (s : State) : Res :=
  runCmd 0x0701 c (c.body.length == 8) s fun sp s => answer c s sp (s.journalAnswer c.colour (BitVec.ofNat 64 (fieldLE c.body 0 8)))

/-- JOURNAL.STATUS (R267). -/
def execJournalStatus (c : Cmd) (s : State) : Res :=
  runCmd 0x0702 c c.body.isEmpty s fun sp s =>
    let j := s.journal
    let (hs, hn) := s.horizon
    let marks := (List.range 16384).flatMap fun l => natLE 4 (j.watermarks.get l 0).toNat
    answer c s sp
      (natLE 8 hs ++ natLE 4 hn ++ List.replicate 4 0 ++ natLE 4 j.ring.length ++ natLE 4 j.spill.length ++ natLE 2 j.anchors.length ++
       [0, 0] ++ natLE 8 j.early.toNat ++ natLE 8 j.markSecs ++ natLE 4 j.markNanos ++ natLE 8 j.waits.toNat ++ marks)

end Sys2Proof.Machine
end

