-- ==== Sys2Proof/Machine/Offer.lean ====
section
/-! DEFINITION. The offer (R86, R87, R101-R104, R160): which item a cluster is offered, when it takes it, and what taking it
does. -/

namespace Sys2Proof.Machine

/-! ## Which item (R101, R102, R115) -/

/-- Whether an item is the first of its lane among the items before it. -/
def isHead (before : List Item) (i : Item) : Bool := before.all fun j => j.desc.lane != i.desc.lane

/-- Whether a stream's segments go to a cluster: it holds the stream, or none does (R104). -/
def State.segmentFor (s : State) (c : Nat) (k : Nat) : Bool :=
  match s.stream? k with
  | .none => true
  | some x =>
    !s.travels k && (match s.streamAt x with
      | some d => d == c
      | .none => true)

/-- Whether an item may be offered to a cluster: in the pool, of a lane that dispatches and is placed there. -/
def State.offered (s : State) (c : Nat) (i : Item) : Bool :=
  let l := s.lane i.desc.lane
  i.place == .pool && (l.state == .opened || l.state == .draining) && l.placement.contains c &&
    !(isJob i.desc.id && i.stream.isNone && (s.cluster c).mae.out) &&
    (match i.stream with
      | some q => s.segmentFor c (streamKey q.1 q.2.1 (BitVec.ofNat 32 q.2.2))
      | .none => true)

/-- The positions of the items that head their lanes. -/
def headsFrom : Nat → List Item → List Item → List (Nat × Item)
  | _, _, [] => []
  | n, seen, i :: r => if isHead seen i then (n, i) :: headsFrom (n + 1) (i :: seen) r else headsFrom (n + 1) seen r

/-- The item a cluster is offered: of the highest level, then first enqueued (R101). -/
def State.nextOffer (s : State) (c : Nat) : Option (Nat × Item) :=
  ((headsFrom 0 [] s.depot.items).filter fun p => s.offered c p.2).foldl (fun (a : Option (Nat × Item)) p => match a with
    | some b => if s.jobLevel p.2.desc < s.jobLevel b.2.desc then some p else some b
    | .none => some p) .none

/-! ## Seats (R104) -/

/-- The free seats of a TE; a self-test takes one. -/
def State.freeSeats (s : State) (c t : Nat) : Nat :=
  if (s.te c t).out then 0
  else b2n ((s.seat ⟨c, t, 0⟩).phase == .empty) + b2n ((s.seat ⟨c, t, 1⟩).phase == .empty) - b2n (s.te c t).testing

/-- The seat an itinerary takes: a TE with both seats empty first, then one with one, the lowest k. -/
def State.chooseSeat (s : State) (c : Nat) : Option SeatRef :=
  let t := match (List.range 16).find? fun t => s.freeSeats c t == 2 with
    | some t => some t
    | .none => (List.range 16).find? fun t => s.freeSeats c t == 1
  t.map fun t => ⟨c, t, if (s.seat ⟨c, t, 0⟩).phase = .empty then 0 else 1⟩

/-- How a new seat stands: ready where the TE's other seat keeps it, else running (R77). -/
def State.seatPhase (s : State) (u : SeatRef) : Phase := if (s.seat (otherSeat u)).phase.keepsTe then .ready else .running

/-! ## Taking an item -/

/-- The DISPATCHED record (R250). -/
def State.dispatched (s : State) (d : Desc) (src : BitVec 16) : State :=
  s.writeMile (s.mile d 2 false true 0 src (d.id.zeroExtend 64) s.stamp)

/-- An item leaves the Depot for a cluster: its cells and units are free, its lane's count rises, the cluster is warm for it. -/
def State.leaves (s : State) (n : Nat) (i : Item) (c : Nat) : State :=
  let s := (s.dropItem n).releaseItem i
  let l := s.lane i.desc.lane
  s.setLane i.desc.lane { l with dispatched := l.dispatched + 1, warmUse := (c, s.now) :: l.warmUse.filter (fun p => p.1 != c),
                                 servedBy := l.servedBy.set c (l.servedBy.get c 0 + 1) }

/-- Answer a request REFUSED (Table 2.14) before any TE is used. -/
def State.refuseItem (s : State) (n : Nat) (i : Item) (reason : Byte) : State :=
  let s := (s.dropItem n).releaseItem i
  (s.hold i.desc true (completionRecord 3 reason false 0 0)).countDrained i.desc.colour

/-- Whether a colour's policy forbids a shared image: a class of its code, or a waymark it GATEs (R85). -/
def Image.forbidden (x : Image) (policy : BitVec 16) : Bool :=
  x.shared && ((x.classes &&& policy).extractLsb' 0 7 != 0 || x.waymarks.any fun w => !waymarkAllowed policy w.toNat)

/-- The access of a cluster's DMA for an item (Table 12.1). -/
def dmaAccess (c : Colour) (write : Bool) (first n : Nat) : Access :=
  { colour := c, priv := false, vendor := false, te := false, outer := false, write := write, first := first, last := first + n - 1 }

/-- Put an itinerary into a seat: DISPATCHED, and its payload copied into the message window through the store's gate, a
refusal of which ends the item. -/
def State.seatItem (s : State) (n : Nat) (i : Item) (x : Image) (u : SeatRef) : State :=
  let s := (s.leaves n i u.cluster).dispatched i.desc (srcTe u)
  let s := s.setSeat u (startSeat i.desc x (s.seatPhase u))
  let s := if (s.seat u).phase = .running then s.enterSeat u else s
  let a := dmaAccess i.desc.colour true (windowOff u) (max 1 i.payload.length)
  let s := s.useGate u.cluster
  match s.gateCheck u.cluster a with
  | .none => s.store (storeBase u.cluster + windowOff u) i.payload
  | some (k, last) => (s.gateRefuse u.cluster a k last (srcCluster u.cluster 0x14)).killSeat u 1

/-- Offer a request: answered REFUSED, or taken into a seat if one is free (R86, R87). -/
def State.offerRequest (s : State) (n : Nat) (i : Item) (c : Nat) : State :=
  if i.desc.known = false then s.refuseItem n i 1
  else match s.imageOf i.desc.colour i.desc.id with
    | .none => s.refuseItem n i 3
    | some x =>
      if x.forbidden (((s.part? i.desc.colour).map (·.policy)).getD 0) then s.refuseItem n i 4
      else match s.chooseSeat c with
        | some u => s.seatItem n i x u
        | .none => s

/-- Resume a suspended itinerary in a seat, with its scratch and its window (R339). -/
def State.resumeItem (s : State) (n : Nat) (i : Item) (t : Seat) (c : Nat) : State :=
  match s.chooseSeat c with
  | .none => s
  | some u =>
    let phase := s.seatPhase u
    let s := (s.dropItem n).setSeat u (if phase = .running then t.runs else { t with phase := phase, atYield := true })
    let s := if phase = .running then s.enterSeat u else s
    let s := s.renewSlots u
    (s.store (scratchBase u) (i.payload.take 0x3C00)).store (storeBase c + windowOff u) (i.payload.drop 0x3C00)

/-- The job types of Table 5.1. -/
def jobTypes : List Nat := [0x01, 0x02, 0x10, 0x11, 0x12, 0x20, 0x21, 0x30, 0x31, 0x40, 0x41, 0x50, 0x60, 0x61]

/-- Whether an idle MAE takes a job: no suspended job of its level or a higher one waits (R175). -/
def State.maeTakes (s : State) (c level : Nat) : Bool :=
  let m := (s.cluster c).mae
  m.running.isNone && !m.kat && !m.out && m.saved.all fun j => decide (level < s.jobLevel j.desc)

/-- An MAE takes a job of a lane (R160). -/
def State.takeJob (s : State) (n : Nat) (i : Item) (c : Nat) : State :=
  let s := (s.leaves n i c).dispatched i.desc (srcCluster c 0x10)
  s.startMae c { desc := i.desc, level := s.jobLevel i.desc, payload := i.payload, keyWait := false, bracket := false, squash := false }

/-- Offer an MAE job (R160, R167). -/
def State.offerJob (s : State) (n : Nat) (i : Item) (c : Nat) : State :=
  if !jobTypes.contains i.desc.id.toNat then s.refuseItem n i 1
  else if s.maeTakes c (s.jobLevel i.desc) then s.takeJob n i c
  else s

/-- Offer a bulk segment to the datapath of its stream (R104, R149). -/
def State.offerSegment (s : State) (n : Nat) (i : Item) (k c : Nat) : State :=
  match s.takeSegment c i k with
  | some (s, true) => s.leaves n i c
  | some (s, false) => s
  | .none => s

/-- A due self-test of a cluster, a colour-0 item at level 0 (R511). -/
def State.dueTest (s : State) (c : Nat) : Option (BitVec 16 × Nat) :=
  s.power.selftests.findSome? fun src => match clusterOfSrc src with
    | some (d, u) => if d = c then some (src, u) else .none
    | .none => .none

/-- A cluster takes its self-test when the unit has a free seat, or the MAE is idle. -/
def State.takeTest (s : State) (c : Nat) (src : BitVec 16) (u : Nat) : State :=
  let s' := { s with power := { s.power with selftests := s.power.selftests.filter (· != src) } }
  if u = 0x10 then
    if (s.cluster c).mae.out then s'
    else if s.maeTakes c 0 then s'.modCluster c fun x => { x with mae := { x.mae with kat := true } }
    else s
  else if (s.te c u).out then s'
  else if 0 < s.freeSeats c u ∧ !(s.te c u).testing then s'.setTe c u { s.te c u with testing := true }
  else s

/-- Whether a cluster takes offers: awake, in service, dispatch not stopped. -/
def State.takesOffers (s : State) (c : Nat) : Bool :=
  (s.cluster c).power == .awake && (s.cluster c).state == .inService && !s.depot.stopped

/-! ## The next job of an MAE (R160, R175) -/

/-- The job that waits for a cluster, of the highest level and then the first enqueued, if its level is above one. -/
def State.waitingJob (s : State) (c level : Nat) : Option (Nat × Item) :=
  ((headsFrom 0 [] s.depot.items).filter fun p => s.offered c p.2 && jobTypes.contains p.2.desc.id.toNat && p.2.stream.isNone &&
      p.2.suspended.isNone && decide (s.jobLevel p.2.desc < level)).foldl (fun (a : Option (Nat × Item)) p => match a with
    | some b => if s.jobLevel p.2.desc < s.jobLevel b.2.desc then some p else some b
    | .none => some p) .none

/-- An MAE that runs nothing starts a waiting job above a level: the Steward's own first, at level 0. -/
def State.nextJob (s : State) (c level : Nat) : Option State :=
  if !s.takesOffers c then .none
  else match s.depot.own, s.waitingJob c level with
    | j :: r, w => if 0 < level then some ({ s with depot := { s.depot with own := r } }.startMae c j)
      else w.map fun p => s.takeJob p.1 p.2 c
    | [], w => w.map fun p => s.takeJob p.1 p.2 c

/-- An MAE that has become idle starts a job above its highest-level suspended one, else resumes that one (R175). -/
def State.maeResume (s : State) (c : Nat) : State :=
  let m := (s.cluster c).mae
  if m.running.isSome ∨ m.kat ∨ m.out ∨ s.quiescing c then s
  else match s.bestSaved c with
    | some j => (s.nextJob c (s.jobLevel j.desc)).getD
      (s.modCluster c fun x => { x with mae := { x.mae with running := some j, saved := eraseFirst (fun y => y == j) x.mae.saved } })
    | .none => s

/-- A cluster whose MAE is idle takes the Steward's own job that waits first (R160). -/
def State.takeOwn (s : State) (c : Nat) : Option State :=
  if s.maeTakes c 0 then s.nextJob c 1 else .none

/-- Offer an item to a cluster, which takes it where it can. -/
def State.offerItem (s : State) (n : Nat) (i : Item) (c : Nat) : State :=
  match i.suspended, i.stream with
  | some t, _ => s.resumeItem n i t c
  | _, some q => s.offerSegment n i (streamKey q.1 q.2.1 (BitVec.ofNat 32 q.2.2)) c
  | _, _ => if isJob i.desc.id then s.offerJob n i c else s.offerRequest n i c

/-- ITEM_DISPATCH: a due self-test or a job of the Steward's comes first, at level 0; else the item of R101 is offered to a cluster, which takes it where it can. -/
def execItemDispatch (c : Nat) (s : State) : Res :=
  checked (clusterOk c)
    (if s.takesOffers c then
      match s.dueTest c with
      | some (src, u) => s.takeTest c src u
      | .none =>
        match s.takeOwn c, s.nextOffer c with
        | some s, _ => s
        | .none, .none => s
        | .none, some (n, i) => s.offerItem n i c
    else s)

/-! ## YIELD (R77, R79, R144) -/

/-- The seat a TE changes to at a YIELD: the other seat, ready and of higher priority (R77). -/
def State.yieldsTo (s : State) (u : SeatRef) (t : Seat) : Bool :=
  s.mayResume (otherSeat u) && decide (s.seatLevel (s.seat (otherSeat u)) < s.seatLevel t)

/-- The item the Depot offers at a YIELD: the cluster's offer, where it is an itinerary of higher priority and the other seat is
empty (R77). -/
def State.yieldOffer (s : State) (u : SeatRef) (t : Seat) : Option (Nat × Item) :=
  if (s.seat (otherSeat u)).phase = .empty ∧ s.takesOffers u.cluster then
    (s.nextOffer u.cluster).filter fun p =>
      decide (s.jobLevel p.2.desc < s.seatLevel t) && p.2.stream.isNone && !(isJob p.2.desc.id && p.2.suspended.isNone)
  else .none

/-- YIELD. The offered item is taken only where it comes to run in the TE's other seat: R104 may give it to another TE, and a
request that is refused uses none. -/
def execYieldPoint (u : SeatRef) (s : State) : Res :=
  runPlain u s fun s t =>
    let t := { t with sinceYield := 0 }
    if t.intent.isNone ∧ t.squash then .gone (s.killSeat u 1)
    else
      let there := fun (n : Nat) => { t with pc := t.pc + 4, cycles := t.cycles + n }
      let stay := s.fetch u { t with cycles := t.cycles + 2 } (t.line t.pc) (t.pc + 4)
      if t.intent.isNone ∧ (s.lane t.desc.lane).state = .frozen then .gone ((s.setSeat u (there 2)).suspendSeat u)
      else if (t.intent.isNone ∧ s.quiescing u.cluster) ∨ s.yieldsTo u t then .gone ((s.setSeat u (there 40)).seatChange u .ready true)
      else .gone (match s.yieldOffer u t with
        | some (n, i) =>
          let s' := ((s.setSeat u (there 40)).seatChange u .ready true).offerItem n i u.cluster
          if (s'.seat (otherSeat u)).phase = .running then s' else stay
        | .none => stay)

end Sys2Proof.Machine
end

