-- ==== Sys2Proof/Machine/Engage.lean ====
section
/-! DEFINITION. The end of an engagement, after which the reserve takes up the work (R514 steps 5, 6), and the end of self-tests (R511,
R512). -/

namespace Sys2Proof.Machine

/-! ## Completion (R514 steps 5, 6) -/

/-- Replace a cluster in a lane's placement set. -/
def State.replaceIn (s : State) (old new l : Nat) : State :=
  let x := s.lane l
  if x.placement.contains old then
    let s := s.placeShare new x.colour
    let rest := x.placement.filter fun c => c != old && c != new
    s.setLane l { x with placement := rest ++ [new] }
  else s

/-- RESERVE_ENGAGED: the reserve, awake, tested and with every move arrived, replaces the failing cluster in every placement set; the
failing one is powered off and RETIRED. -/
def execReserveEngaged (c : Nat) (s : State) : Res :=
  checked (clusterOk c)
    (match s.power.engagements with
    | e :: _ =>
      if e.reserve = c ∧ e.quiesced ∧ (s.cluster c).power = .awake ∧ s.unitHeld (srcCluster c 0x13) = false ∧ !(s.depot.packages.any fun g => g.target == c) then
        let s := (s.lanes.map Prod.fst).foldl (fun s l => s.replaceIn e.failing c l) s
        let s := s.endCluster e.failing
        let s := s.modCluster e.failing fun x => { x with state := .retired, power := .off, shares := [] }
        let s := s.modCluster c fun x => { x with state := .inService, confined := false }
        let s := s.dropEngagement
        let s := (s.releaseHold (srcWhole e.failing)).releaseHold (srcWhole c)
        let s := (List.range 16).foldl (fun s t => s.startTe c t) s
        let s := s.maeResume c
        let s := s.fault 0 0x11 (srcWhole c) (BitVec.ofNat 64 (addrByte e.failing * 256 + addrByte c))
        (s.engageDone e cOk ([BitVec.ofNat 8 (addrByte c)] ++ List.replicate 7 0)).startEngagement
      else s
    | [] => s)

/-! ## Self-tests (R511, R512) -/

/-- A TE that failed its test, or an MAE: out of service at once, the cluster flagged (R512). -/
def State.unitFails (s : State) (c u : Nat) : State :=
  if u = 0x10 then (s.modCluster c fun x => { x with mae := { x.mae with out := true, kat := false } }).flagFailing c 4 false
  else (s.setTe c u { s.te c u with out := true, testing := false }).flagFailing c 3 false

/-- The MAE's known-answer tests end: it takes jobs again, or its cluster is flagged (R172). -/
def State.maeTested (s : State) (c : Nat) (ok : Bool) : State :=
  let s := if ok then (s.modCluster c fun x => { x with mae := { x.mae with kat := false, out := false } }).maeResume c else s.unitFails c 0x10
  s.rerunDone (srcCluster c 0x10) ok

/-- SELFTEST_DONE: a unit under test passes and serves again, or fails. -/
def execSelftestDone (src : BitVec 16) (ok : Bool) (s : State) : Res :=
  .next (match clusterOfSrc src with
    | .none => s
    | some (c, u) =>
      let x := s.cluster c
      if u = 0xFF then
        if x.testing then
          let s := s.modCluster c fun x => { x with testing := false, confined := false, power := if x.power = .awake then .asleep else x.power }
          if ok then s else s.flagFailing c 3 false
        else s
      else if u = 0x10 then
        if x.mae.kat then s.maeTested c ok else s
      else if u < 16 ∧ (s.te c u).testing then
        let s := if ok then s.setTe c u { s.te c u with testing := false, out := false } else s.unitFails c u
        s.rerunDone src ok
      else s)

end Sys2Proof.Machine
end

