-- ==== Sys2Proof/Machine/Placement.lean ====
section
/-! DEFINITION. Placement, sleep and wake, overflow, pool errors, and the stream events (R94, R105-R115, R149, R151). -/

namespace Sys2Proof.Machine

/-! ## The placement loop (R107, R108, R112) -/

/-- Close the 100 µs over which utilisation is measured: the busy part of a cluster's 32 seats and MAE (Table 3.5). -/
def State.measure (s : State) : State :=
  let dt := s.now - s.depot.evalAt
  { s with
    clusters := s.clusters.map fun p =>
      (p.1, { p.2 with util := if dt = 0 then s.busyUnits p.1 * 1000 / 33 else min 1000 (p.2.busyNs * 1000 / (33 * dt)), busyNs := 0 }),
    depot := { s.depot with evalAt := s.now } }

/-- The cluster of a lane's set that served the smallest share of it since the last evaluation. -/
def State.leastServed (s : State) (l : Nat) : Option Nat :=
  let x := s.lane l
  x.placement.foldl (fun (a : Option Nat) c => match a with
    | some b => if x.servedBy.get c 0 < x.servedBy.get b 0 then some c else some b
    | .none => some c) .none

/-- A warm-floor cluster is kept in the set of every lane at levels 0-3 (R112). -/
def State.keepFloor (s : State) (l : Nat) : State :=
  let x := s.lane l
  let f := s.warmFloorSet
  if 3 < x.level ∨ f.isEmpty ∨ x.placement.any f.contains ∨ s.setCap l ≤ x.placement.length then s
  else match f.find? (s.eligible x) with
    | some c => s.place l c
    | .none => s

/-- The cycles a lane's clusters can give it, by what each can. -/
def State.capacity (s : State) (l : Nat) (gives : Nat → Nat) : Nat := ((s.lane l).placement.map gives).sum

/-- Add the first clusters of a lane's ranking until its demand is at most 0.8 of its capacity, `n` of them at most (R107). -/
def State.growToDemand (s : State) (l demand : Nat) (gives : Nat → Nat) : Nat → State
  | 0 => s
  | n + 1 => if 10 * demand ≤ 8 * s.capacity l gives then s else (s.growSet l 1).growToDemand l demand gives n

/-- One lane's evaluation (R107). Its demand is what arrived since the last evaluation times its mean service cycles; these, and the
cycles each cluster can give it, are measured in ways the manual does not give: free values (log entry 55). -/
def State.evaluateLane (s : State) (l : Nat) : State :=
  let x := s.lane l
  if x.state = .closed then s
  else
    let demand := (x.enqueued - x.seen).toNat * s.free.toNat
    let gives := fun (c : Nat) => (Config.freeWord (s.freeCtr + 1 + c)).toNat
    let s := { s with freeCtr := s.freeCtr + 37 }
    let cap := s.capacity l gives
    let s := if 8 * cap < 10 * demand then s.growToDemand l demand gives 4
      else if 10 * demand < 3 * cap ∧ 1 < x.placement.length then
        match s.leastServed l with
        | some c => s.unplace l c
        | .none => s
      else s
    let s := s.ensurePlaced l
    (s.setLane l { s.lane l with seen := x.enqueued, servedBy := [] }).keepFloor l

/-- Replace a cluster at or above 105 °C in every set that holds it by the first of the set's ranking. -/
def State.coolCluster (s : State) (c : Nat) : State :=
  if (s.cluster c).temp < 1050 then s
  else (s.lanes.map Prod.fst).foldl (fun s l =>
    if (s.lane l).placement.contains c then
      match s.bestCluster (s.lane l) with
      | some d => (s.place l d).unplace l c
      | .none => s
    else s) s

/-- A stream whose cluster left its lane's set moves, once at a segment boundary (R108). -/
def State.moveStrays (s : State) (k : Nat) : State :=
  match s.stream? k with
  | .none => s
  | some x =>
    match s.streamAt x with
    | some c =>
      if (s.lane x.lane).placement.contains c ∨ !x.pending.isEmpty ∨ x.frozen then s
      else match s.moveTarget x.lane c with
        | some d => s.sendStream x d
        | .none => s
    | .none => s

/-- PLACEMENT_EVALUATION. -/
def execPlacementEvaluation (s : State) : Res :=
  let s := s.measure
  let s := s.warmFloorSet.foldl State.wake s
  let s := (s.lanes.map Prod.fst).foldl State.evaluateLane s
  let s := (List.range 36).foldl State.coolCluster s
  .next ((s.streams.map Stream.key).foldl State.moveStrays s)

/-! ## Sleep and wake (R110, R111, R419) -/

/-- CLUSTER_SLEEP: an idle cluster sleeps, under the grave latch those of the warm floor too (R479); a held one once it is
released (R383). -/
def execClusterSleep (c : Nat) (s : State) : Res :=
  checked (clusterOk c)
    (if s.maySleep c then (if s.clusterHeld c then s.defer (srcWhole c) 0 else s.sleepNow c) else s)

/-- The cluster transfer key of this start-up, as the Steward loads it (R146). -/
def State.transferKey (s : State) : Option (BitVec 256) := s.clusters.findSome? fun p => p.2.transferKey

/-- A cluster is awake; a reserve being engaged runs its expander's known-answer test (R422). -/
def State.clusterAwake (s : State) (c : Nat) : State :=
  let s := (s.modCluster c fun x => { x with power := .awake, transferKey := s.transferKey,
                                             confined := x.confined && x.state != .inService }).seedExpander c
  if (s.cluster c).state = .engaging then s.startKat (srcCluster c 0x13) else s

/-- CLUSTER_WAKE_DONE: awake, or a whole-cluster failure (R111, R512). -/
def execClusterWakeDone (c : Nat) (ok : Bool) (s : State) : Res :=
  checked (clusterOk c)
    (if (s.cluster c).power = .waking then (if ok then s.clusterAwake c else s.flagFailing c 6 true) else s)

/-! ## Overflow (R113, R115) -/

/-- Change the first item of a lane that is not in the pool. -/
def State.modOutside (s : State) (l : Nat) (f : Item → Item) : State :=
  { s with depot := { s.depot with items := modFirst (fun i => i.desc.lane == l && i.place != .pool) f s.depot.items } }

/-- Note whether the Depot refills a lane's pool from overflow. -/
def State.setRefill (s : State) (l : Nat) (v : Bool) : State := s.setLane l { s.lane l with refill := v }

/-- OVERFLOW_REFILL: the lane's head in overflow begins its way to the pool. A refill begins when the lane's pool cells are below half
its quota, and goes on while the next item stays within the quota, or when the pool is empty (R113). -/
def execOverflowRefill (lane : Nat) (s : State) : Res :=
  checked (laneOk lane)
    (match (s.depot.ofLane lane).find? fun i => i.place != .pool with
    | some i =>
      let used := s.depot.laneCells lane
      let q := (s.lane lane).quota
      let go := (s.lane lane).refill || decide (2 * used < q)
      if i.place ≠ .overflow then s
      else if go ∧ (used + i.need ≤ q ∨ used = 0) then
        match s.depot.allocate i.desc.colour i.need with
        | some cs => (s.setRefill lane true).modOutside lane fun i => { i with place := .refilling, cells := cs }
        | .none => s
      else s.setRefill lane false
    | .none => s.setRefill lane false)

/-- OVERFLOW_REFILL_DONE: the item is in the pool (R115). -/
def execOverflowRefillDone (lane : Nat) (s : State) : Res :=
  checked (laneOk lane)
    (match (s.depot.ofLane lane).find? fun i => i.place != .pool with
    | some i => if i.place = .refilling then s.modOutside lane fun i => { i with place := .pool } else s
    | .none => s)

/-! ## Pool errors (R94) -/

/-- Retire a cell, and its bank past 256 retired cells. -/
def State.retireCell (s : State) (n : Nat) : State :=
  let d := s.depot
  let b := n / 4096
  let s := { s with depot := { d with retired := d.retired ++ [n], bankUncorrectable := d.bankUncorrectable.set b (d.bankUncorrectable.get b 0 + 1) } }
  let s := s.fault 2 0x02 (srcHub 0) (BitVec.ofNat 64 (n * 64))
  if 256 < (s.depot.retired.filter fun x => x / 4096 == b).length ∧ !s.depot.retiredBanks.contains b then
    ({ s with depot := { s.depot with retiredBanks := s.depot.retiredBanks ++ [b] } }).fault 2 0x05 (srcHub 0) (BitVec.ofNat 64 b)
  else s

/-- Discard a queued item: without dispatch, without a response. A stream that loses a segment is aborted. -/
def State.discardAt (s : State) (n : Nat) (i : Item) : State :=
  let s := (s.dropItem n).releaseItem i
  match i.stream with
  | some q => s.abortStream (streamKey q.1 q.2.1 (BitVec.ofNat 32 q.2.2))
  | .none => s.itemEnded i.desc 2

/-- DEPOT_CELL_UNCORRECTABLE. -/
def execDepotCellUncorrectable (bank cell : Nat) (s : State) : Res :=
  checked (decide (bank < 16) && decide (cell < 4096))
    (let n := bank * 4096 + cell
     if s.depot.retired.contains n then s
     else
       let s := match s.depot.items.findIdx? fun i => i.cells.contains n with
         | some k => match s.depot.items[k]? with
           | some i => s.discardAt k i
           | .none => s
         | .none => s
       s.retireCell n)

/-! ## Stream events (R148, R149, R303) -/

/-- BULK_SEGMENT_END: the segment's bytes are processed and sent, the stream may close, and a stream whose cluster left the set
of its lane moves. -/
def execBulkSegmentEnd (c te : Nat) (s : State) : Res :=
  checked (teOk c te)
    (match (s.te c te).stream with
    | .none => s
    | some k =>
      match s.stream? k with
      | .none => s
      | some x =>
        match x.pending with
        | [] => s
        | (_, data) :: _ =>
          let x := { x.segment data with pending := [] }
          let (s, x) := s.sendOutput x x.sizes
          ((s.setStream x).tryClose k).moveStrays k)

/-- The stream whose key a TE fetches: that in its slot, else the next one (R149). -/
def State.fetches (s : State) (t : Te) : Option Nat :=
  match t.stream with
  | some k => if (s.stream? k).any (·.loading) then some k else t.next
  | .none => t.next

/-- STREAM_KEY_FETCH_DONE: the key, or the XTS pair, has come, for the stream in the slot or for the one that follows it; a key that
is gone ends the stream. -/
def execStreamKeyFetchDone (c te : Nat) (s : State) : Res :=
  checked (teOk c te)
    (match s.fetches (s.te c te) with
    | .none => s
    | some k =>
      match s.stream? k with
      | .none => s
      | some x =>
        if x.loading then
          let col := (s.lane x.lane).colour
          match s.fetchKey col x.handle1 with
          | (s, .none) => s.abortStream k
          | (s, some a) =>
            if x.handle2 = 0 then s.setStream { x with key1 := a.material, loading := false }
            else match s.fetchKey col x.handle2 with
              | (s, .none) => s.abortStream k
              | (s, some b) => s.setStream { x with key1 := a.material, key2 := b.material, loading := false }
        else s)

/-! ## Commands (Tables 3.8, 11.4) -/

/-- LANE.CONFIG (R96, R118). A value out of range is answered before a lane state that does not admit the command (DESIGN CHOICE, log
entry 55). -/
def execLaneConfig (c : Cmd) (s : State) : Res :=
  let b := c.body
  let mask := fieldLE b 1 1
  let level := fieldLE b 2 1
  let ov := fieldLE b 3 1
  let quota := fieldLE b 4 4
  let win := fieldLE b 8 4
  let shape := decide (mask < 16) && (bit mask 0 || level == 0) && (bit mask 1 || quota == 0) && (bit mask 2 || ov == 0) && (bit mask 3 || win == 0)
  runCmd 0x0801 c (b.length == 12 && shape) s fun sp s =>
    match s.laneOf c.colour (fieldLE b 0 1) with
    | .none => s.reject c cInvalid
    | some l =>
      let x := s.lane l
      let y := { x with level := if bit mask 0 then level else x.level, quota := if bit mask 1 then quota else x.quota,
                        overflow := if bit mask 2 then ov == 1 else x.overflow, window := if bit mask 3 then win else x.window }
      if 7 < y.level ∨ (y.level = 0 ∧ c.colour ≠ 0) ∨ 1 < ov ∨ y.quota < 64 ∨ 16384 < y.quota ∨ y.window < 64 ∨ 1048576 < y.window ∨
          y.window < y.quota then s.reject c cInvalid
      else if x.state ≠ .opened ∧ x.state ≠ .draining then s.reject c cBadState
      else answer c ((s.setLane l y).creditColour c.colour) sp []

/-- The lane states by number, in the order of Table 3.3. -/
def LaneState.code (x : LaneState) : Nat :=
  match x with
  | .opened => 0
  | .draining => 1
  | .frozen => 2
  | .squashing => 3
  | .closed => 4

/-- The age of a lane's oldest item (R103): that of the item enqueued first, one put back after a suspension included. -/
def State.oldestAge (s : State) (l : Nat) : Nat :=
  (((s.depot.ofLane l).map fun i => s.now - i.since).max?).getD 0

/-- LANE.STATUS. An item on its way from overflow counts among the pool cells it was given and, until it is there, among the overflow
cells (DESIGN CHOICE, log entry 55). -/
def execLaneStatus (c : Cmd) (s : State) : Res :=
  let b := c.body
  runCmd 0x0802 c (b.length == 8 && zeroAt b 1 7) s fun sp s =>
    match s.laneOf c.colour (fieldLE b 0 1) with
    | .none => s.reject c cInvalid
    | some l =>
      let x := s.lane l
      let its := s.depot.ofLane l
      let over_ := ((its.filter fun i => i.place != .pool).map Item.need).sum
      let age := s.oldestAge l
      answer c s sp
        ([BitVec.ofNat 8 x.state.code, BitVec.ofNat 8 x.level, BitVec.ofNat 8 x.placement.length, 0] ++
         padTo 32 (x.placement.map fun k => BitVec.ofNat 8 (addrByte k)) ++ natLE 4 (s.depot.laneCells l) ++ natLE 4 over_ ++
         natLE 8 x.enqueued.toNat ++ natLE 8 x.dispatched.toNat ++ natLE 8 x.squashed.toNat ++ natLE 8 age ++
         natLE 4 x.corrected.toNat ++ natLE 4 x.overruns.toNat ++ natLE 4 0)

/-- DEPOT.SET (R110, R112). -/
def execDepotSet (c : Cmd) (s : State) : Res :=
  let b := c.body
  let f := fieldLE b 0 1
  let d := fieldLE b 4 4
  runCmd 0x0803 c (b.length == 8 && zeroAt b 1 3) s fun sp s =>
    if 32 < f ∨ d < 20 ∨ 100000 < d then s.reject c cInvalid
    else
      let s := { s with depot := { s.depot with warmFloor := f, sleepDelay := d } }
      answer c (s.warmFloorSet.foldl State.wake s) sp []

/-- DEPOT.STATUS. -/
def execDepotStatus (c : Cmd) (s : State) : Res :=
  runCmd 0x0804 c c.body.isEmpty s fun sp s =>
    let d := s.depot
    let banks := (d.retiredBanks.map (2 ^ ·)).sum
    let bank := fun (k : Nat) => natLE 4 (d.bankCorrected.get k 0) ++ natLE 4 (d.bankUncorrectable.get k 0)
    answer c s sp
      (natLE 4 ((d.items.map (·.cells.length)).sum) ++ natLE 4 d.retired.length ++ natLE 2 banks ++ natLE 2 0 ++
       natLE 8 d.overflowUse ++ natLE 8 d.holds.toNat ++ natLE 4 0 ++ (List.range 16).flatMap bank)

/-- A signed number of two bytes, little-endian. -/
def intLE2 (v : Int) : Bytes := natLE 2 (v % 65536).toNat

/-- PLACE.STATUS; the utilisation is that of the last evaluation's 100 µs. -/
def execPlaceStatus (c : Cmd) (s : State) : Res :=
  runCmd 0x0805 c c.body.isEmpty s fun sp s =>
    let entry := fun (k : Nat) =>
      let x := s.cluster k
      [BitVec.ofNat 8 (addrByte k), BitVec.ofNat 8 (b2n (x.power == .awake)), BitVec.ofNat 8 (s.wearRank k), BitVec.ofNat 8 (x.clockMHz / 10)] ++
      intLE2 x.temp ++ natLE 2 x.util ++
      natLE 4 (s.lanes.filter fun p => p.2.placement.contains k).length ++ natLE 4 0
    answer c s sp ((List.range 36).flatMap entry)

end Sys2Proof.Machine
end

