-- ==== Sys2Proof/Machine/KeyCmds.lean ====
section
/-! DEFINITION. The key commands (chapter 6, Table 11.5): the warm store from the host's side, key blocks, rekeying and the
carry-forward stream. -/

namespace Sys2Proof.Machine

/-- A body padded with zeros to a multiple of eight bytes. -/
def pad8 (b : Bytes) : Bytes := b ++ List.replicate ((8 - b.length % 8) % 8) 0

/-- A record as KEY.PUT and KEY.GET carry it: the tin, then its extension record. -/
def recordBytes (t : Tin) (e : Bytes) : Bytes := t.bytes ++ pad8 e

/-! ## KEY.PUT (R186, R187) -/

/-- The records of a KEY.PUT body: tin and extension; nothing where the body is not what its counts imply. -/
def putRecords : Nat → Bytes → Option (List (Bytes × Bytes))
  | 0, b => if b.isEmpty then some [] else .none
  | n + 1, b =>
    let tin := b.take 128
    let ext := bit (fieldBE b 5 1) 7
    let len := if ext then fieldBE b (128 + 12) 2 + 32 else 0
    let room := 8 * ceilDiv len 8
    if b.length < 128 + room ∨ (ext ∧ b.length < 144) ∨ !zeroAt b (128 + len) (room - len) then .none
    else (putRecords n (b.drop (128 + room))).map fun r => (tin, slice b 128 len) :: r

/-- The number of the first condition of R187 a tin fails; nothing when it passes all. -/
def State.putFails (s : State) (c : Colour) (tin ext : Bytes) : Option Nat :=
  let t := Tin.ofBytes tin
  let h := t.handle
  let keys := s.tinKeys t.context t.attrs.colour
  if !tinFormatOk tin then some 1
  else if !tinReservedZero tin then some 2
  else if t.attrs.colour ≠ c ∨ !handleOk c h ∨ (c ≠ 0 ∧ (s.part? c).isNone) then some 3
  else if t.attrs.gen ≠ s.lc.gen then some 4
  else if t.context ≠ 0 ∧ !(t.context = 1 ∧ c = 0) then some 5
  else if t.context = 0 ∧ s.omk.isNone then some 10
  else match keys with
    | .none => some 6
    | some (w, b) =>
      if !t.tagOk b then some 6
      else match t.unwrapped w with
        | .none => some 7
        | some m =>
          if t.extended ∧ (extOpen m t ext).isNone then some 8
          else if t.version ≤ s.versionOf h ∨ (c = 0 ∧ systemHandle h ∧ (s.record c h).isSome) then some 9
          else if !s.keyRoom c h (128 + extSize ext) then some 11
          else .none

/-- Put one tin, bracketed by its own intent and commit. -/
def State.putOne (s : State) (c : Cmd) (tin ext : Bytes) : State :=
  let t := Tin.ofBytes tin
  let before := (s.versionOf t.handle).toNat
  ((s.cmdIntent c 2 t.handle before).putRecord t.handle t ext).cmdCommit c 2 t.handle t.version.toNat

/-- What a batch has come to: how many were accepted, the first refusal. -/
structure PutCount where
  index    : Nat
  accepted : Nat
  refused  : Option (Nat × Nat)
  deriving DecidableEq, Repr

/-- Put a batch of tins in order. -/
def State.putAll (s : State) (c : Cmd) (rs : List (Bytes × Bytes)) : State × PutCount :=
  rs.foldl (fun (a : State × PutCount) r =>
    match a.1.putFails c.colour r.1 r.2 with
    | some k => (a.1, { a.2 with index := a.2.index + 1, refused := if a.2.refused.isSome then a.2.refused else some (a.2.index, k) })
    | .none => (a.1.putOne c r.1 r.2, { a.2 with index := a.2.index + 1, accepted := a.2.accepted + 1 }))
    (s, { index := 0, accepted := 0, refused := .none })

/-- KEY.PUT. -/
def execKeyPut (c : Cmd) (s : State) : Res :=
  let rs := putRecords (fieldLE c.body 0 4) (c.body.drop 8)
  runCmd 0x0401 c (decide (8 ≤ c.body.length) && zeroAt c.body 4 4 && rs.isSome) s fun sp s =>
    let (s, n) := ((s.begin sp c).cmdAccepted c sp.op).putAll c (rs.getD [])
    let s := s.keyArrived
    let (i, k) := n.refused.getD (0xFFFFFFFF, 0)
    s.finish sp c (if n.refused.isSome then 0x0101 else cOk) (natLE 4 n.accepted ++ natLE 4 i ++ natLE 2 k ++ List.replicate 6 0) 0

/-! ## Reading records -/

/-- KEY.GET. -/
def execKeyGet (c : Cmd) (s : State) : Res :=
  let n := fieldLE c.body 0 4
  runCmd 0x0402 c (c.body.length == 8 + 8 * n && zeroAt c.body 4 4) s fun sp s =>
    answer c s sp ((chunks 8 (c.body.drop 8)).flatMap fun x =>
      match s.record c.colour (BitVec.ofNat 64 (leNat x)) with
      | some (t, e) => recordBytes t e
      | .none => List.replicate 128 0)

/-- The live records of a colour from a handle on, in ascending record number. -/
def State.recordsFrom (s : State) (c : Colour) (first : Nat) : List (Word × Tin × Bytes) :=
  s.keys.warm.filterMap fun p =>
    let h := BitVec.ofNat 64 p.1
    if p.1 < first ∨ handleColour h ≠ c then .none
    else match p.2 with
      | .live t e => some (h, t, e)
      | .tombstone _ => .none

/-- KEY.LIST. -/
def execKeyList (c : Cmd) (s : State) : Res :=
  runCmd 0x0403 c (c.body.length == 16 && zeroAt c.body 12 4) s fun sp s =>
    let rs := s.recordsFrom c.colour (fieldLE c.body 0 8)
    let m := fieldLE c.body 8 4
    let out := rs.take m
    let next := ((rs.drop m).head?.map fun r => r.1.toNat).getD 0
    answer c s sp (natLE 4 out.length ++ List.replicate 4 0 ++ natLE 8 next ++ out.flatMap fun r =>
      natLE 8 r.1.toNat ++ natLE 4 r.2.1.version.toNat ++ List.replicate 4 0 ++ natLE 8 (r.2.1.attrs.word r.2.1.attrs.libOnly).toNat)

/-! ## Making records -/

/-- Why a new record may not be made under a handle; nothing when it may. -/
def State.newHandleFails (s : State) (c : Colour) (h : Word) : Option Nat :=
  if c ≠ 0 ∧ (s.part? c).isNone then some cNotFound
  else if !handleOk c h then some cInvalid
  else if c = 0 ∧ systemHandle h then some cNotPermitted
  else if s.omk.isNone then some cBadState
  else if (s.record c h).isSome then some cExists
  else .none

/-- Store a record in the partition context, bracketed; nothing where the wrapping keys do not exist. -/
def State.storeOne (s : State) (c : Cmd) (h : Word) (a : KeyAttrs) (material : Bytes) : Option State :=
  let before := s.versionOf h
  ((s.cmdIntent c 2 h before.toNat).makeRecord 0 h a (before + 1) material).map fun s =>
    (s.cmdCommit c 2 h (before.toNat + 1)).keyArrived

/-- Make a record in the partition context at once: ACCEPTED, then the store. -/
def State.makeOne (s : State) (c : Cmd) (op : Nat) (h : Word) (a : KeyAttrs) (material : Bytes) : Option State :=
  (s.cmdAccepted c op).storeOne c h a material

/-- The record just made, as a response carries it. -/
def State.madeBytes (s : State) (c : Colour) (h : Word) : Bytes :=
  match s.record c h with
  | some (t, e) => t.bytes ++ e
  | .none => []

/-- The attributes KEY.GENERATE asks for. -/
def State.askedAttrs (s : State) (c : Colour) (b : Bytes) : KeyAttrs :=
  let e := fieldLE b 12 2
  { ktype := BitVec.ofNat 8 (fieldLE b 8 1), colour := c, gen := s.lc.gen, libOnly := bit (fieldLE b 9 1) 6, engine := BitVec.ofNat 6 e,
    derivedEngine := BitVec.ofNat 6 (e / 256), usage := BitVec.ofNat 16 (fieldLE b 14 2), derivedUsage := BitVec.ofNat 16 (fieldLE b 16 2),
    param := BitVec.ofNat 16 (fieldLE b 10 2), notBefore := BitVec.ofNat 48 (fieldLE b 24 6), notAfter := BitVec.ofNat 48 (fieldLE b 30 6) }

/-- Whether engine classes and usage fields leave their reserved bits zero. -/
def maskOk (engine usage derived : Nat) : Bool :=
  decide (engine < 2 ^ 14) && bits engine 7 6 == 0 && !bit usage 15 && !bit derived 15

/-- A symmetric key's length; an HMAC key's, which the request does not give, is a free value of 16-64 bytes. -/
def symmetricLen (ty : Nat) (free : Word) : Option Nat :=
  match ty with
  | 1 => some 16 | 2 => some 24 | 3 => some 32 | 4 => some 16 | 5 => some 24 | 6 => some (16 + free.toNat % 49)
  | _ => .none

/-- Whether a key type is that of a parameter set's private keys, so that a KEYGEN job makes it. -/
def jobMakes (a : KeyAttrs) : Bool := setFits 0x50 a.param.toNat && privateType a.param.toNat == a.ktype

/-- The KEYGEN job a KEY.GENERATE asks for; KEY_AGREE on a curve asks for AGREE (Table 5.3). -/
def keygenJob (a : KeyAttrs) : Bytes :=
  jobRequest a.param.toNat (b2n (setEc a.param.toNat && a.usage.getLsbD uKeyAgree) * 2) 0 [] [] []

/-- The bytes a private key of a parameter set takes. -/
def privateLen (p : Nat) : Nat :=
  if setRsa p then modulusLen p + 4 + 5 * (modulusLen p / 2) else if p = 0x203 then 199 else if setEc p then (curveOf p).len
  else if setMlkem p then 64 else 32

/-- KEY.GENERATE's row. -/
def generateSpec : Spec := ⟨0x0404, false, true, .W, true⟩

/-- KEY.GENERATE: a symmetric key comes from the Hub DRBG at once, an asymmetric one from a KEYGEN job on an MAE (Table 11.5). -/
def execKeyGenerate (c : Cmd) (s : State) : Res :=
  let b := c.body
  let h := BitVec.ofNat 64 (fieldLE b 0 8)
  runCmd 0x0404 c (b.length == 40 && (fieldLE b 9 1) % 64 == 0 && decide (fieldLE b 9 1 < 128) &&
      maskOk (fieldLE b 12 2) (fieldLE b 14 2) (fieldLE b 16 2) && zeroAt b 18 6 && zeroAt b 36 4) s fun sp s =>
    match s.newHandleFails c.colour h with
    | some code => s.reject c code
    | .none =>
      let a := s.askedAttrs c.colour b
      match symmetricLen a.ktype.toNat s.free with
      | some n =>
        if a.param ≠ 0 then s.reject c cInvalid
        else if !s.keyRoom c.colour h (recordSize a.ktype n) then s.reject c 0x0104
        else match ((s.drawn.hubRead n).begin sp c).makeOne c sp.op h a (s.drawn.hubBytes n) with
          | some s => answer c s sp (s.madeBytes c.colour h)
          | .none => s.reject c cBadState
      | .none =>
        if !jobMakes a then s.reject c cInvalid
        else if !s.keyRoom c.colour h (recordSize a.ktype (privateLen a.param.toNat)) then s.reject c 0x0104
        else ((s.begin sp c).cmdAccepted c sp.op).submitOwn c 0x50 (keygenJob a)

/-- The KEYGEN job of a KEY.GENERATE has made its key: the store, unless its handle or its room has gone meanwhile. -/
def State.generated (s : State) (c : Cmd) (m pub : Bytes) : State :=
  let h := BitVec.ofNat 64 (fieldLE c.body 0 8)
  let a := s.askedAttrs c.colour c.body
  match s.newHandleFails c.colour h with
  | some code => s.endLater c code
  | .none =>
    if !s.keyRoom c.colour h (recordSize a.ktype m.length) then s.endLater c 0x0104
    else match s.storeOne c h a m with
      | some s => s.finishLater generateSpec c cOk (s.madeBytes c.colour h ++ pub) 0
      | .none => s.endLater c cBadState

/-- KEY.DELETE (R181, R203, R544). -/
def execKeyDelete (c : Cmd) (s : State) : Res :=
  let h := BitVec.ofNat 64 (fieldLE c.body 0 8)
  runCmd 0x0405 c (c.body.length == 8) s fun sp s =>
    if c.colour = 0 ∧ systemHandle h then s.reject c cNotPermitted
    else match s.record c.colour h with
      | .none => s.reject c cNotFound
      | some (t, _) =>
        let v := t.version
        let s := (((s.begin sp c).cmdAccepted c sp.op).cmdIntent c 2 h v.toNat).dropHandle h
        let s := { s with keys := { s.keys with warm := s.keys.warm.set h.toNat (.tombstone v) } }
        answer c (s.cmdCommit c 2 h v.toNat) sp (natLE 4 v.toNat ++ List.replicate 4 0)

/-- Whether new attributes only narrow old ones (R194). -/
def KeyAttrs.narrows (n o : KeyAttrs) : Bool :=
  n.engine &&& o.engine == n.engine && n.derivedEngine &&& o.derivedEngine == n.derivedEngine && n.usage &&& o.usage == n.usage &&
    n.derivedUsage &&& o.derivedUsage == n.derivedUsage && (n.libOnly || !o.libOnly) && decide (o.notBefore ≤ n.notBefore) &&
    decide (n.notAfter ≤ o.notAfter)

/-- KEY.SETATTR (R194, R544, R545). -/
def execKeySetattr (c : Cmd) (s : State) : Res :=
  let b := c.body
  let h := BitVec.ofNat 64 (fieldLE b 0 8)
  let e := fieldLE b 8 2
  runCmd 0x0406 c (b.length == 32 && (fieldLE b 14 1) % 64 == 0 && decide (fieldLE b 14 1 < 128) &&
      maskOk e (fieldLE b 10 2) (fieldLE b 12 2) && zeroAt b 15 1 && zeroAt b 28 4) s fun sp s =>
    if c.colour = 0 ∧ systemHandle h then s.reject c cNotPermitted
    else if s.tinShut c.colour h then s.reject c cBadState
    else match s.record c.colour h, s.recordKey c.colour h with
      | some (t, _), some k =>
        let a := { k.attrs with
          engine := BitVec.ofNat 6 e, derivedEngine := BitVec.ofNat 6 (e / 256), usage := BitVec.ofNat 16 (fieldLE b 10 2),
          derivedUsage := BitVec.ofNat 16 (fieldLE b 12 2), libOnly := bit (fieldLE b 14 1) 6,
          notBefore := BitVec.ofNat 48 (fieldLE b 16 6), notAfter := BitVec.ofNat 48 (fieldLE b 22 6) }
        if !a.narrows k.attrs then s.reject c 0x0102
        else
          let s' := ((s.begin sp c).cmdAccepted c sp.op).cmdIntent c 2 h t.version.toNat
          match s'.makeRecord t.context h a (t.version + 1) k.material with
          | some s =>
            let s := s.cmdCommit c 2 h (t.version.toNat + 1)
            answer c s sp ((s.madeBytes c.colour h).take 128)
          | .none => s.reject c cBadState
      | _, _ => s.reject c cNotFound

/-! ## Key blocks (R208-R210) -/

/-- KEY.IMPORT. -/
def execKeyImport (c : Cmd) (s : State) : Res :=
  let b := c.body
  let w := BitVec.ofNat 64 (fieldLE b 0 8)
  let h := BitVec.ofNat 64 (fieldLE b 8 8)
  runCmd 0x0407 c (b.length == 24 + fieldLE b 16 2 && zeroAt b 18 6) s fun sp s =>
    match s.newHandleFails c.colour h with
    | some code => s.reject c code
    | .none =>
      match s.recordKey c.colour w with
      | .none => s.reject c cNotFound
      | some wk =>
        if !wk.attrs.within s.time then s.reject c 0x0102
        else match kbImport wk c.colour s.lc.gen (b.drop 24) with
          | .none => s.reject c 0x0103
          | some k =>
            if !s.keyRoom c.colour h 128 then s.reject c 0x0104
            else match (s.begin sp c).makeOne c sp.op h k.attrs k.material with
              | some s => answer c s sp (s.madeBytes c.colour h)
              | .none => s.reject c cBadState

/-- KEY.EXPORT. -/
def execKeyExport (c : Cmd) (s : State) : Res :=
  let h := BitVec.ofNat 64 (fieldLE c.body 0 8)
  let w := BitVec.ofNat 64 (fieldLE c.body 8 8)
  runCmd 0x0408 c (c.body.length == 16) s fun sp s =>
    if s.tinShut c.colour h || s.tinShut c.colour w then s.reject c cBadState
    else match s.recordKey c.colour h, s.recordKey c.colour w with
      | some k, some wk =>
        if k.attrs.libOnly || !k.attrs.within s.time || !wk.attrs.within s.time then s.reject c 0x0102
        else if !kbMayExport wk k then s.reject c 0x0103
        else
          let r := s.kbExport wk k
          answer c r.2 sp (natLE 2 r.1.length ++ List.replicate 6 0 ++ r.1)
      | _, _ => s.reject c cNotFound

/-! ## Rekeying (R207) -/

/-- PART.REKEY: the epoch rises, and the colour's warm tins are re-wrapped behind it. -/
def execPartRekey (c : Cmd) (s : State) : Res :=
  runCmd 0x0205 c c.body.isEmpty s fun sp s =>
    match s.part? c.colour with
    | .none => s.reject c cNotFound
    | some p =>
      if s.omk.isNone then s.reject c cBadState
      else if s.keys.rekeying.any (·.1 == c.colour) then s
      else
        let s := ((s.begin sp c).cmdAccepted c sp.op).configured c fun s => (s.setPart c.colour { p with epoch := p.epoch + 1 }).formPartKeys [c.colour]
        { s with keys := { s.keys with rekeying := s.keys.rekeying ++ [(c.colour, c)] } }

/-- A record re-wrapped under a colour's new epoch, if it is one of its context-0 tins. -/
def State.rekeyed (s : State) (c : Colour) (r : KeyRec) : Option KeyRec :=
  match r with
  | .live t e =>
    if t.attrs.colour = c ∧ t.context = 0 then
      match s.tinKeys 0 c, s.openTin t with
      | some (w, b), some m => some (.live (t.sealed w b m) e)
      | _, _ => .none
    else .none
  | .tombstone _ => .none

/-- REKEY_REWRAP_DONE: every warm tin of the colour is under the new epoch; an open carry takes each tin it wrote (R216). -/
def execRekeyRewrapDone (colour : Colour) (s : State) : Res :=
  .next (match s.keys.rekeying.find? (·.1 == colour) with
    | .none => s
    | some (_, c) =>
      let n := (s.keys.warm.filter fun p => (s.rekeyed colour p.2).isSome).length
      let warm := s.keys.warm.map fun p => (p.1, (s.rekeyed colour p.2).getD p.2)
      let made := s.keys.warm.filterMap fun p => match s.rekeyed colour p.2 with
        | some (.live t e) => some (t, e)
        | _ => .none
      let s := { s with keys := { s.keys with
        warm := warm, rekeying := s.keys.rekeying.filter (·.1 != colour),
        carry := s.keys.carry.map fun (y : Carry) => ({ y with stream := y.stream ++ made, ended := y.ended && made.isEmpty } : Carry) } }
      s.finishLater ⟨0x0205, true, true, .W, true⟩ c cOk (natLE 4 (s.epochOf colour).toNat ++ List.replicate 4 0 ++ natLE 8 n) 0)

/-! ## Carry-forward (R214-R216, R355) -/

/-- Every live record of the warm store, in its order. -/
def State.warmTins (s : State) : List (Tin × Bytes) :=
  s.keys.warm.filterMap fun p => match p.2 with
    | .live t e => some (t, e)
    | .tombstone _ => .none

/-- KEY.CARRY.OPEN (R215): a matching authorisation is consumed whatever the code. -/
def execKeyCarryOpen (c : Cmd) (s : State) : Res :=
  runCmd 0x0409 c (c.body.length == 8) s fun sp s =>
    let auth := s.useAuth 0x0409 0 c.body
    let s' := auth.getD s
    if s.keys.carry.isSome then s'.reject c cBadState
    else if auth.isNone then s.reject c cAuthorisation
    else if s'.power.stagedState = 3 then s'.reject c 0x0601
    else if s'.power.stagedState ≠ 2 then s'.reject c cBadState
    else if s'.omk.isNone && s'.warmTins.any (fun r => r.1.context == 0) then s'.reject c cBadState
    else
      let m : BitVec 384 := BitVec.ofNat 384 (beNat (sha384 s'.power.staged))
      let ts := s'.warmTins
      let s' := { s' with keys := { s'.keys with carry := some { measurement := m, stream := ts, position := 0, ended := ts.isEmpty } } }
      answer c s' sp (natBE 48 m.toNat ++ natLE 8 ts.length)

/-- A record of the stream re-wrapped and re-tagged; one a later epoch made dead is carried as its handle's record now is. -/
def State.carryRecord (s : State) (m : BitVec 384) (t : Tin) (e : Bytes) : Bytes :=
  match s.carryTin m t, s.record t.attrs.colour t.handle with
  | some x, _ => recordBytes x e
  | .none, some (t', e') => recordBytes ((s.carryTin m t').getD t') e'
  | .none, .none => recordBytes t e

/-- The carried records of one reading: at most `n`, at most so many bytes. -/
def State.carryTake (s : State) (m : BitVec 384) : Nat → Nat → List (Tin × Bytes) → List Bytes
  | 0, _, _ => []
  | _, _, [] => []
  | n + 1, room, (t, e) :: r =>
    let b := s.carryRecord m t e
    if room < b.length then [] else b :: s.carryTake m n (room - b.length) r

/-- KEY.CARRY.READ: a position numbers the tins of the stream. -/
def execKeyCarryRead (c : Cmd) (s : State) : Res :=
  let pos := fieldLE c.body 0 8
  runCmd 0x040A c (c.body.length == 16 && zeroAt c.body 12 4) s fun sp s =>
    match s.keys.carry with
    | .none => s.reject c cBadState
    | some y =>
      if y.stream.length < pos then s.reject c cInvalid
      else if s.omk.isNone && y.stream.any (fun r => r.1.context == 0) then s.reject c cBadState
      else
        let out := s.carryTake y.measurement (fieldLE c.body 8 4) 16777200 (y.stream.drop pos)
        let next := pos + out.length
        let fin := decide (next = y.stream.length)
        let s := { s with keys := { s.keys with carry := some { y with position := next, ended := y.ended || fin } } }
        answer c s sp (natLE 4 out.length ++ natLE 1 (b2n fin) ++ [0, 0, 0] ++ natLE 8 next ++ out.flatMap id)

/-! ## CADDY.STATUS -/

/-- CADDY.STATUS (R218): for a colour, or from the PF with colour 0 for the device. -/
def execCaddyStatus (c : Cmd) (s : State) : Res :=
  runCmd 0x040B c c.body.isEmpty s fun sp s =>
    let k := s.keys
    let all := c.fn == 0 && c.colour == 0
    let cs : List Colour := 0 :: s.tenancy.parts.map fun q => BitVec.ofNat 12 q.1
    let sum := fun (f : Colour → Nat) => if all then (cs.map f).sum else f c.colour
    let n := fun (f : CaddyCount → Word) => if all then (k.counts.map fun q => (f q.2).toNat).sum else (f (k.counts.get c.colour.toNat {})).toNat
    answer c s sp
      (natLE 4 (sum s.caddyQuota) ++ natLE 4 (sum k.heldBy) ++ natLE 8 (n (·.hits)) ++ natLE 8 (n (·.misses)) ++ natLE 8 (n (·.evictions)) ++
       natLE 8 k.corrected.toNat ++ natLE 8 (sum fun x => s.keyUse x / 128))

end Sys2Proof.Machine
end

