-- ==== Sys2Proof/Machine/Itin.lean ====
section
/-! DEFINITION. The commands on itinerary images and their signers (R82-R87, R542, Table 11.5). -/

namespace Sys2Proof.Machine

/-- The policy of a colour. -/
def State.policyOfColour (s : State) (c : Colour) : BitVec 16 := ((s.part? c).map fun p => p.policy).getD 0

/-- The first and last bytes of an image granule lie in LPDDR6. -/
def imageBase (g : Nat) : Nat := dramBase + granuleAddr g

/-- The granules that hold an image, or the code of an itinerary that still runs on one (R87). -/
def State.usedGranules (s : State) : List Nat :=
  let of_ := fun (t : Seat) => (t.codeBase - imageBase 0) / 65536
  s.tenancy.images.map (fun (x : Image) => x.granule) ++ (s.seats.filter fun p => p.2.phase != Phase.empty).map (fun p => of_ p.2) ++
    s.depot.items.filterMap fun (i : Item) => i.suspended.map of_

/-- The lowest free image granule (R374). -/
def State.freeGranule (s : State) : Option Nat :=
  let used := s.usedGranules
  (List.range 65536).find? fun g => !used.contains g

/-- Images in the order of their ids. -/
def insertImage (x : Image) : List Image → List Image
  | [] => [x]
  | y :: r => if x.id ≤ y.id then x :: y :: r else y :: insertImage x r

/-- Whether an image serves requests of (colour, id) (R86). -/
def Image.names (x : Image) (c : Colour) (shared : Bool) (id : BitVec 32) : Bool :=
  x.id == id && x.shared == shared && (shared || x.colour == c)

/-- Whether the header fits the function and the colour of the entry (R542). An entry of colour 0x000 is taken to fit an image
whose header colour is 0x000, SHARED or not (log entry 54). -/
def headerFits (c : Cmd) (b : Bytes) : Bool :=
  if bit (hdr b 6 2) 0 then c.fn == 0 && c.colour == 0 else decide (hdr b 8 2 % 4096 = c.colour.toNat)

/-- The image goes into its granule, in the place of an older version of it (R87). -/
def State.installImage (s : State) (b : Bytes) (g : Nat) : State :=
  let x := imageRecord b g
  let rest := s.tenancy.images.filter fun (y : Image) => !y.names x.colour x.shared x.id
  let s := { s with tenancy := { s.tenancy with images := insertImage x rest } }
  (s.rebindSeats x).store (imageBase g) b

/-- Refuse an image by the number of the check it failed and the offset at fault (R84). -/
def State.refuseImage (s : State) (c : Cmd) (code k off : Nat) : State := s.reply c code false [] (BitVec.ofNat 64 (k * 2 ^ 56 + off)) false

/-- An image whose signatures verify goes through the checks of its code, and is loaded. -/
def State.loadImage (s : State) (sp : Spec) (c : Cmd) : State :=
  let b := c.body
  match codeFault b (bit (hdr b 6 2) 0) (s.policyOfColour c.colour) (s.tenancy.profile == .compact) with
  | some (k, off) => s.refuseImage c 0x0203 k off
  | .none =>
    let x := imageRecord b 0
    match s.tenancy.images.find? fun (y : Image) => y.names x.colour x.shared x.id with
    | some y =>
      if x.version ≤ y.version then s.reject c 0x0204
      else match s.freeGranule with
        | some g => answer c (s.installImage b g) sp (natLE 4 x.id.toNat ++ natLE 4 x.version.toNat)
        | .none => s.reject c 0x0205
    | .none =>
      match s.freeGranule with
      | some g =>
        if 65536 ≤ s.tenancy.images.length then s.reject c 0x0205
        else answer c (s.installImage b g) sp (natLE 4 x.id.toNat ++ natLE 4 x.version.toNat)
      | .none => s.reject c 0x0205

/-- ITIN.LOAD's row. -/
def loadSpec : Spec := ⟨0x0501, false, false, .W, true⟩

/-- The next signature check of an image goes to an MAE, for the signer it names (R84, R160). -/
def State.checkSignature (s : State) (c : Cmd) (job : Nat) : State :=
  match signerOf s.tenancy.signers c.body with
  | some x => s.submitOwn c job (signatureJob x c.body job)
  | .none => s.refuseImage c 0x0202 2 0x38

/-- A signature of an image has been checked: the ECDSA one first, then the ML-DSA one, then the rest of the block must be zero. -/
def State.signatureChecked (s : State) (c : Cmd) (job : Nat) (ok : Bool) : State :=
  let at_ := sigOffset c.body
  if !ok then s.refuseImage c 0x0202 2 (if job = 0x11 then at_ else at_ + 96)
  else if job = 0x11 then s.checkSignature c 0x31
  else if !zeroAt c.body (at_ + 4723) 13 then s.refuseImage c 0x0202 2 (at_ + 4723)
  else s.loadImage loadSpec c

/-- ITIN.LOAD: check 1 here, check 2 on an MAE, the others after it. -/
def execItinLoad (c : Cmd) (s : State) : Res :=
  let b := c.body
  runCmd 0x0501 c true s fun sp s =>
    if 64 ≤ b.length ∧ headerFits c b = false then s.reject c cNotPermitted
    else if c.colour ≠ 0 ∧ (s.part? c.colour).isNone then s.reject c cNotFound
    else match headerFault b with
      | some o => s.refuseImage c 0x0201 1 o
      | .none => (s.begin sp c).checkSignature c 0x11

/-- Whether an id names a shared image (R83). -/
def sharedId (id : BitVec 32) : Bool := 0x100 ≤ id && id ≤ 0xFFF

/-- ITIN.UNLOAD: itineraries that run on the image go on; one dispatched and not yet started is refused (R87). A tenant id under
colour 0x000 is looked up like any other colour's (log entry 54). -/
def execItinUnload (c : Cmd) (s : State) : Res :=
  let id := BitVec.ofNat 32 (fieldLE c.body 0 4)
  runCmd 0x0502 c (c.body.length == 8 && zeroAt c.body 4 4) s fun sp s =>
    if sharedId id ∧ (c.fn ≠ 0 ∨ c.colour ≠ 0) then s.reject c cNotPermitted
    else
      let mine := fun (y : Image) => y.names c.colour (sharedId id) id
      if s.tenancy.images.any mine then
        let s := { s with tenancy := { s.tenancy with images := s.tenancy.images.filter fun y => !mine y } }
        answer c (s.refuseWaiting id c.colour (sharedId id)) sp []
      else s.reject c cNotFound

/-- ITIN.LIST: the images of the entry's colour and the shared ones, from an id on. -/
def execItinList (c : Cmd) (s : State) : Res :=
  let first := fieldLE c.body 0 4
  let max_ := fieldLE c.body 4 4
  runCmd 0x0503 c (c.body.length == 8) s fun sp s =>
    let xs := s.tenancy.images.filter fun (y : Image) => (y.shared || y.colour == c.colour) && decide (first ≤ y.id.toNat)
    let out := xs.take max_
    let next := ((xs.drop max_).head?.map fun (y : Image) => y.id.toNat).getD 0
    answer c s sp (natLE 4 out.length ++ natLE 4 next ++ out.flatMap fun y => natLE 4 y.id.toNat ++ natLE 4 y.version.toNat)

/-- ITIN.SIGNER.ADD. -/
def execItinSignerAdd (c : Cmd) (s : State) : Res :=
  let b := c.body
  let k := BitVec.ofNat 64 (fieldLE b 0 8)
  runCmd 0x0504 c (b.length == 2712 && zeroAt b 113 7) s fun sp s =>
    let auth := s.useAuth 0x0504 8 b
    if s.tenancy.signers.any fun (x : Signer) => x.ident == k then (auth.getD s).reject c cExists
    else if 16 ≤ s.tenancy.signers.length then (auth.getD s).reject c cExhausted
    else match auth with
      | .none => s.reject c cAuthorisation
      | some s =>
        let x : Signer := { ident := k, ecdsa := slice b 16 97, mldsa := slice b 120 2592 }
        answer c (((s.begin sp c).cmdAccepted c sp.op).configured c fun s =>
          { s with tenancy := { s.tenancy with signers := s.tenancy.signers ++ [x] } }) sp []

/-- ITIN.SIGNER.REMOVE: images already loaded stay. -/
def execItinSignerRemove (c : Cmd) (s : State) : Res :=
  let b := c.body
  let k := BitVec.ofNat 64 (fieldLE b 0 8)
  runCmd 0x0505 c (b.length == 16) s fun sp s =>
    let auth := s.useAuth 0x0505 8 b
    if !(s.tenancy.signers.any fun (x : Signer) => x.ident == k) then (auth.getD s).reject c cNotFound
    else match auth with
      | .none => s.reject c cAuthorisation
      | some s =>
        answer c (((s.begin sp c).cmdAccepted c sp.op).configured c fun s =>
          { s with tenancy := { s.tenancy with signers := s.tenancy.signers.filter fun (x : Signer) => x.ident != k } }) sp []

end Sys2Proof.Machine
end

