-- ==== Sys2Proof/Machine/MaeJobs.lean ====
section
/-! DEFINITION. MAE jobs (chapter 5): their outcomes, the checks before release, the effecting bracket, yield points and key table
misses. -/

namespace Sys2Proof.Machine

/-! ## Results -/

/-- What a job comes to: a result with output, or a rejection with its phase and reason. -/
inductive JobEnd where
  | result (code : Nat) (output : Bytes)
  | reject (phase reason : Nat)
  deriving DecidableEq, Repr

/-- The reason of phase 2 for a job whose check before release failed (Tables 5.6, 5.7). -/
def checkReason (job : Nat) : Nat :=
  match job with
  | 0x50 => 2
  | 0x41 => 3
  | 0x12 => 4
  | 0x40 => 5
  | _ => 1

/-- What a job that passed its checks comes to, and the material it stores (R162, R168-R171). -/
def JobReq.outcome (r : JobReq) (job : Nat) (ks : List MaeKey) (rnd : Bytes) (ok : Bool) : JobEnd × Bytes :=
  if !r.inlineOk then (.reject 0 4, [])
  else match r.arithmetic job ks rnd with
    | .bound => (.reject 0 6, [])
    | .verdict v =>
      if job = 0x61 then (.result (if v = 3 then 0 else 1) [BitVec.ofNat 8 v], [])
      else (.result (if v = 1 then 0 else 1) [], [])
    | .made out m =>
      if ok then (.result 0 (padTo (outputLen job r.param) out), newMaterial job r.param m) else (.reject 2 (checkReason job), [])

/-- The detail of a rejection (Table 5.6). -/
def rejectDetail (d : Desc) (param phase reason : Nat) : Word :=
  BitVec.ofNat 64 (d.ticket.toNat % 2 ^ 32 * 2 ^ 32 + d.id.toNat % 256 * 2 ^ 24 + param % 256 * 2 ^ 16 + phase * 256 + reason)

/-- The response payload of a job (R164, Table 5.4). -/
def jobResponse (code : Nat) (out : Bytes) : Bytes :=
  completionRecord 0 0 false 0 0 ++ natBE 2 code ++ natBE 2 out.length ++ natBE 4 0 ++ out

/-- Hold a job's response until its final milestone is written. -/
def State.jobAnswer (s : State) (d : Desc) (code : Nat) (out : Bytes) : State :=
  (s.hold d true (jobResponse code out)).countDrained d.colour

/-- Answer MAE_REJECT, on the command the Steward works for or on the job's session; the reason goes to the fault collector (R170). -/
def State.jobReject (s : State) (c : Nat) (d : Desc) (param phase reason : Nat) : State :=
  let s := match d.own with
    | some cmd => s.ownFails cmd
    | .none => s.jobAnswer d 0x0301 []
  if phase = 2 then s.fault 2 0x16 (srcCluster c 0x10) (rejectDetail d param phase reason)
  else s.fault 0 0x15 (srcCluster c 0x10) (rejectDetail d param phase reason)

/-- A failed check: known-answer tests before the next job; a second within 1 s takes the MAE out of service and flags the
cluster (R172). -/
def State.checkFailed (s : State) (c : Nat) : State :=
  let m := (s.cluster c).mae
  let again := m.lastFail.any fun t => decide (s.now < t + 1000000000)
  let s := s.modCluster c fun x => { x with mae := { x.mae with kat := !again, lastFail := some s.now, out := x.mae.out || again } }
  if again then s.flagFailing c 5 false else s

/-! ## The effecting bracket (R173) -/

/-- The bracketed store of a key under handle B: INTENT, the record, COMMIT. A store refused after the intent, for want of room or
because the handle came into use meanwhile, is committed with the version before, and the job is rejected for a reason Table 5.6 does
not list: a free value. -/
def State.jobStore (s : State) (c : Nat) (j : MaeJob) (r : JobReq) (material out : Bytes) : State :=
  let d := j.desc
  let h := r.hB
  let before := s.versionOf h
  let a := s.newAttrs d.colour r d.id.toNat (j.keys.head?.map (·.key))
  let s := s.anchor (s.mile d 4 true true 2 0 h before)
  let room := s.keyRoom d.colour h (recordSize a.ktype material.length) && !s.keys.suspended && (s.record d.colour h).isNone
  match (if room then s.makeRecord 0 h a (before + 1) material else .none) with
  | some s => (s.anchor (s.mile d 5 true true 2 0 h (before + 1))).jobAnswer d 0 out
  | .none =>
    let s := s.anchor (s.mile d 5 true true 2 0 h before)
    s.drawn.jobReject c d r.param 1 (s.free.toNat % 256)

/-! ## The rows -/

/-- The MAE is free for the next job. -/
def State.maeFree (s : State) (c : Nat) : State := (s.modCluster c fun x => { x with mae := { x.mae with running := .none } }).maeResume c

/-- A result of one of the Steward's own jobs: the new key of KEY.GENERATE, or a verdict on a signature of ITIN.LOAD. -/
def State.ownEnds (s : State) (cmd : Cmd) (job code : Nat) (out material : Bytes) : State :=
  if !s.inFlight cmd then s
  else if job = 0x50 then s.generated cmd material out
  else s.signatureChecked cmd job (code == 0)

/-- A job leaves its MAE with its outcome. -/
def State.jobEnds (s : State) (c : Nat) (j : MaeJob) (ok : Bool) : State :=
  let r := JobReq.ofBytes j.payload
  let job := j.desc.id.toNat
  let (e, material) := match j.verdict with
    | some (p, x) => (JobEnd.reject p x, [])
    | .none => r.outcome job j.keys j.rnd ok
  let s := s.modCluster c fun x => { x with mae := { x.mae with running := .none } }
  let s := match e, j.desc.own with
    | .reject p x, _ =>
      let s := s.jobReject c j.desc r.param p x
      if p = 2 then s.checkFailed c else s
    | .result code out, some cmd => s.ownEnds cmd job code out material
    | .result code out, .none => if jobEffects job then s.jobStore c j r material out else s.jobAnswer j.desc code out
  s.maeResume c

/-- What a job still draws before its arithmetic can end: nothing where a check has failed. -/
def MaeJob.lacks (j : MaeJob) : Nat := if j.verdict.isSome then 0 else (JobReq.ofBytes j.payload).draw j.desc.id.toNat - j.rnd.length

/-- MAE_JOB_END: the running job's end. It stalls while its expander has too little for it, and an effecting job waits for anchor log
space (R169, R173); a squashed job ends without a response (R177). -/
def execMaeJobEnd (c : Nat) (ok : Bool) (s : State) : Res :=
  checked (clusterOk c)
    (match (s.cluster c).mae.running with
    | .none => s
    | some j =>
      if j.keyWait then s
      else if j.squash then (s.maeFree c).itemEnded j.desc 1
      else if j.verdict.isNone ∧ j.desc.own.isNone ∧ jobEffects j.desc.id.toNat ∧ !s.journal.intentRoom then
        { s with journal := { s.journal with waits := s.journal.waits + 1 } }
      else
        let (x, s) := s.takeBytes c j.lacks
        let j := { j with rnd := j.rnd ++ x }
        if j.lacks = 0 then s.jobEnds c j ok
        else (s.modCluster c fun x => { x with mae := { x.mae with running := some j } }).seedExpander c)

/-- A job goes back to its lane's head with its original request (R338). -/
def State.requeueJob (s : State) (j : MaeJob) : State :=
  let cells := (s.depot.allocate j.desc.colour (itemCells false j.desc.len)).getD []
  let i : Item := { desc := j.desc, payload := j.payload, stream := .none, cells := cells, units := 0, place := .pool, since := j.desc.since, suspended := .none,
                    migrated := false }
  { s with depot := { s.depot with items := i :: s.depot.items } }

/-- MAE_JOB_YIELD_POINT, at which a job is saved for a quiesce, or for a waiting job that starts at once (R175-R177, R338). -/
def execMaeJobYieldPoint (c : Nat) (s : State) : Res :=
  checked (clusterOk c)
    (match (s.cluster c).mae.running with
    | .none => s
    | some j =>
      let save := fun (s : State) => s.modCluster c fun x => { x with mae := { x.mae with running := .none, saved := x.mae.saved ++ [j] } }
      if j.keyWait then s
      else if j.squash then (s.maeFree c).itemEnded j.desc 1
      else if (s.lane j.desc.lane).state = .frozen then (s.requeueJob j).maeFree c
      else if 4 ≤ (s.cluster c).mae.saved.length then s
      else if s.quiescing c then save s
      else ((save s).nextJob c (s.jobLevel j.desc)).getD s)

/-- MAE_KAT_DONE: the MAE takes jobs again, or its cluster is flagged (R172). -/
def execMaeKatDone (c : Nat) (ok : Bool) (s : State) : Res :=
  checked (clusterOk c)
    (if (s.cluster c).mae.kat then s.maeTested c ok else s)

/-- The keys a job waits for come into the key table by way of the caddy (R167, R200). -/
def State.tableFill (s : State) (c : Nat) (j : MaeJob) : State :=
  ((JobReq.ofBytes j.payload).keyNeeds j.desc.id.toNat).foldl (fun s n =>
    if ((s.cluster c).mae.entry n.handle).isSome then s
    else match s.fetchKey j.desc.colour n.handle with
      | (s, some k) => s.tableLoad c n.handle k
      | (s, .none) => s) s

/-- MAE_KEY_TABLE_MISS_DONE: the running job's keys are in the key table, and the job starts (R167); one that had started before it
moved goes on. -/
def execMaeKeyTableMissDone (c : Nat) (s : State) : Res :=
  checked (clusterOk c)
    (match (s.cluster c).mae.running with
    | .none => s
    | some j =>
      if j.keyWait then
        let s := s.tableFill c j
        if j.started then s.modCluster c fun x => { x with mae := { x.mae with running := some { j with keyWait := false } } }
        else s.startLoaded c j
      else s)

end Sys2Proof.Machine
end

