-- ==== Sys2Proof/Machine/Pcie.lean ====
section
/-! DEFINITION. The PCIe functions (chapter 10): registers, the mailbox, the rings, interrupts, D3hot, the instance reset. -/

namespace Sys2Proof.Machine

/-! ## Functions (R321, R322, R324) -/

/-- Whether the PCIe link is up: it is down while PORST_N is asserted. A warm reset takes it down too; it trains again at once, as timing is
out (R320, log entry 38). -/
def State.pcieUp (s : State) : Bool := !s.power.porst

/-- Whether the host reaches a function's BAR0: the link is up, and it is the PF in D0, or an enabled VF. -/
def State.reaches (s : State) (fn : Nat) : Bool :=
  s.pcieUp && (if fn = 0 then !s.pcie.d3hot else s.pcie.vfEnable && decide (fn ≤ s.pcie.numVfs))

/-- Whether a function takes writes to its BAR0: in RESETTING they are discarded (Table 10.3). -/
def State.takesWrites (s : State) (fn : Nat) : Bool := s.reaches fn && (s.func fn).state != .resetting

/-- Whether a function's rings and mailbox are served (Tables 10.3, 10.8): in BOOTING the PF's mailbox alone. -/
def State.serves (s : State) (fn : Nat) (via : Channel) : Bool :=
  s.takesWrites fn && ((s.func fn).state == .active || (s.func fn).state == .unassigned) &&
    (s.power.dev != .booting || (fn == 0 && via == .mailbox))

/-- Change a function. -/
def State.modFunc (s : State) (fn : Nat) (f : Func → Func) : State := s.setFunc fn (f (s.func fn))

/-- Every RW and RW1C field at its reset value (R327). -/
def Func.rwReset (f : Func) : Func :=
  { f with ringError := false, cmdBase := 0, cplBase := 0, ringEnable := false, cmdLog2 := 0, cplLog2 := 0, irqCpl := 0x100, irqEvt := 0,
           event := 0, mbxOverrun := false, mbxReq := List.replicate 64 0, mbxData := [], msix := [], pba := [], slots := [], unsignalled := 0, cplLost := false }

/-! ## Entries (Table 10.5, R330, R331) -/

/-- The command an entry spells. -/
def entryCmd (fn : Nat) (via : Channel) (e body : Bytes) : Cmd :=
  let len := fieldLE e 0x18 4
  let inline_ := bit (fieldLE e 2 2) 0
  { fn := fn, via := via, tag := BitVec.ofNat 32 (fieldLE e 4 4), ticket := BitVec.ofNat 64 (fieldLE e 8 8),
    colour := BitVec.ofNat 12 (fieldLE e 0x28 2), rspLen := if via = .mailbox then min 2048 (fieldLE e 0x1C 4) else fieldLE e 0x1C 4,
    rspAddr := BitVec.ofNat 64 (fieldLE e 0x20 8), body := if inline_ then slice e 0x30 (min 16 len) else padTo len body }

/-- Whether an entry is well formed. The bytes of the inline area beyond the request count as reserved (R15; DESIGN CHOICE, log
entry 38). -/
def entryOk (via : Channel) (e : Bytes) : Bool :=
  let flags := fieldLE e 2 2
  let inline_ := bit flags 0
  let len := fieldLE e 0x18 4
  let rsp := fieldLE e 0x1C 4
  decide (flags < 4) && decide (fieldLE e 0x28 2 < 4096) && zeroAt e 0x2A 6 && decide (rsp ≤ 16777216) &&
  (match via with
   | .mailbox => !inline_ && zeroAt e 0x10 8 && zeroAt e 0x20 8 && decide (len ≤ 2048) && zeroAt e 0x30 16
   | .ring =>
     (if inline_ then zeroAt e 0x10 8 && decide (len ≤ 16) && zeroAt e (0x30 + len) (16 - len)
      else decide (len ≤ 16777216) && zeroAt e 0x30 16) && (rsp != 0 || zeroAt e 0x20 8))

/-- Take in a fetched command: an unknown opcode or a malformed entry completes at once, in the order of Table 11.1; any other
waits to be started. -/
def State.takeIn (s : State) (c : Cmd) (opcode : Nat) (ok serial : Bool) : State :=
  let x : InFlight := { opcode := BitVec.ofNat 16 opcode, cmd := c, started := false, serial := serial }
  let t := { s with pcie := { s.pcie with inFlight := s.pcie.inFlight ++ [x] } }
  match specOf opcode with
  | .none => t.reject c (if c.fn ≠ 0 ∧ (s.func c.fn).state = .unassigned then cUnassigned else cUnknownOpcode)
  | some sp => if ok then t else t.reject c ((s.admission sp c).getD cMalformed)

/-- Write the DELIVERED record of a command (R255, R547). -/
def State.cmdDelivered (s : State) (colour : Colour) (ticket : Word) : State :=
  s.writeMile (s.mile { Desc.none with ticket := ticket, colour := colour, lane := 16384 } 9 false true 0 0 0 s.stamp)

/-! ## The mailbox (R328, R506) -/

/-- Serve what MBX_REQ holds. -/
def State.serveMailbox (s : State) (fn : Nat) : State :=
  let f := s.func fn
  let e := f.mbxReq
  let body := (List.range (min 2048 (fieldLE e 0x18 4))).map fun i => f.mbxData.get i 0
  s.takeIn (entryCmd fn .mailbox e body) (fieldLE e 0 2) (entryOk .mailbox e) false

/-- Accept a GO: the previous completion is taken, BUSY is set. -/
def State.acceptGo (s : State) (fn : Nat) : State :=
  let s := match (s.func fn).mbxTicket with
    | some (c, t) => s.cmdDelivered c t
    | .none => s
  s.modFunc fn fun f => { f with mbxBusy := true, mbxDone := false, mbxTicket := .none }

/-- GO: written to MBX_CTRL. In deep standby a GO of the PF is held, and starts the exit (R506). -/
def execGo (fn : Nat) (v : BitVec 32) (s : State) : Res :=
  checked (fnOk fn)
    (if !v.getLsbD 0 || !s.takesWrites fn then s
     else if (s.func fn).mbxBusy then s.modFunc fn fun f => { f with mbxOverrun := true }
     else if fn = 0 ∧ s.power.standby = .entered then
       let s := s.acceptGo 0
       { s with pcie := { s.pcie with heldGo := true }, power := { s.power with kind := .exit, step := .s4a, standby := .none },
                time := { s.time with running := true } }
     else if !s.serves fn .mailbox then s
     else (s.acceptGo fn).serveMailbox fn)

/-! ## Rings (R332) -/

/-- RING_CTRL_ENABLE: a write of RING_CTRL; a rising ENABLE starts both rings at index 0, and a size out of range beside ENABLE is a ring
error (Table 10.7). -/
def execRingCtrlEnable (fn : Nat) (v : BitVec 32) (s : State) : Res :=
  checked (fnOk fn)
    (if !s.takesWrites fn then s
     else
       let a := bits v.toNat 12 8
       let b := bits v.toNat 20 16
       let rise := v.getLsbD 0 && !(s.func fn).ringEnable
       let s := s.modFunc fn fun f => { f with ringEnable := v.getLsbD 0, cmdLog2 := a, cplLog2 := b }
       let s := if rise then s.modFunc fn fun f =>
           { f with cmdTail := 0, cmdHead := 0, cplHead := 0, cplTail := 0, phase := true, slots := [], unsignalled := 0, ringError := false,
                    cplLost := false }
         else s
       if v.getLsbD 0 ∧ (a < 4 ∨ 16 < a ∨ b < 4 ∨ 16 < b) then s.ringFail fn 1 0 else s)

/-- CMD_TAIL. -/
def execCmdTail (fn : Nat) (v : BitVec 32) (s : State) : Res :=
  checked (fnOk fn)
    (let i := bits v.toNat 15 0
     let f := s.func fn
     if !s.takesWrites fn then s
     else if !f.ringEnable then s.ringFail fn 3 i
     else if 2 ^ f.cmdLog2 ≤ i then s.ringFail fn 2 i
     else s.modFunc fn fun f => { f with cmdTail := BitVec.ofNat 16 i })

/-- Whether a slot lies between two indices of a ring of some size, the first included. -/
def between (size lo hi i : Nat) : Bool := decide ((i + size - lo) % size < (hi + size - lo) % size)

/-- CPL_HEAD: the completions passed are taken, and their commands delivered. -/
def execCplHead (fn : Nat) (v : BitVec 32) (s : State) : Res :=
  checked (fnOk fn)
    (let i := bits v.toNat 15 0
     let f := s.func fn
     let size := 2 ^ f.cplLog2
     let hd := f.cplHead.toNat
     if !s.takesWrites fn then s
     else if !f.ringEnable then s.ringFail fn 3 i
     else if size ≤ i then s.ringFail fn 2 i
     else if (f.cplTail.toNat + size - hd) % size < (i + size - hd) % size then s.ringFail fn 4 i
     else
       let taken := f.slots.filter fun x => between size hd i x.1
       let s := s.modFunc fn fun f => { f with cplHead := BitVec.ofNat 16 i, slots := f.slots.filter fun x => !between size hd i x.1 }
       taken.foldl (fun s x => s.cmdDelivered x.2.1 x.2.2) s)

/-- The ring commands of a function in flight. -/
def State.ringFlight (s : State) (fn : Nat) : List InFlight := s.pcie.inFlight.filter fun x => x.cmd.fn == fn && x.cmd.via == .ring

/-- Whether the next entry may be fetched: a completion slot is free for it, fewer than 256 commands are in flight, and a SERIAL
entry stands alone. -/
def State.mayFetch (s : State) (fn : Nat) (serial : Bool) : Bool :=
  let f := s.func fn
  let size := 2 ^ f.cplLog2
  let ring := s.ringFlight fn
  f.ringEnable && !f.ringError && f.cmdHead != f.cmdTail &&
    decide ((f.cplTail.toNat + size - f.cplHead.toNat) % size + ring.length + 1 < size) &&
    decide ((s.pcie.inFlight.filter fun x => x.cmd.fn == fn).length < 256) && !(ring.any (·.serial)) && (!serial || ring.isEmpty)

/-- RING_FETCH: the entry at CMD_HEAD and its request body, as host memory holds them. -/
def execRingFetch (fn : Nat) (entry body : Bytes) (s : State) : Res :=
  checked (fnOk fn)
    (let serial := bit (fieldLE entry 2 2) 1
     if s.serves fn .ring && s.mayFetch fn serial then
       let s := s.modFunc fn fun f => { f with cmdHead := BitVec.ofNat 16 ((f.cmdHead.toNat + 1) % 2 ^ f.cmdLog2) }
       s.takeIn (entryCmd fn .ring entry body) (fieldLE entry 0 2) (entryOk .ring entry) serial
     else s)

/-- DMA_FAULT (R331, R332). A failed read of a request ends the function's oldest ring command not yet started. -/
def execDmaFault (fn : Nat) (at_ : DmaPoint) (s : State) : Res :=
  checked (fnOk fn)
    (match at_ with
     | .fetch => s.ringFail fn 5 (s.func fn).cmdHead.toNat
     | .completionWrite => s.ringFail fn 6 (s.func fn).cplTail.toNat
     | .responseWrite => { s with pcie := { s.pcie with respFault := s.pcie.respFault ++ [fn] } }
     | .requestRead =>
       match (s.ringFlight fn).find? (fun x => !x.started) with
       | some x => s.reject x.cmd cBufferFault
       | .none => s)

/-! ## Other registers and interrupts -/

/-- EVENT_RW1C: a write to EVENT or MBX_STATUS. -/
def execEventRw1c (fn off : Nat) (v : BitVec 32) (s : State) : Res :=
  checked (fnOk fn)
    (if !s.takesWrites fn then s
     else if off = 0x50 then s.modFunc fn fun f => { f with event := f.event &&& ~~~v }
     else if off = 0x1004 ∧ v.getLsbD 2 then s.modFunc fn fun f => { f with mbxOverrun := false }
     else s)

/-- Where a function's MSI-X table lies. -/
def msixBase (fn : Nat) : Nat := if fn = 0 then 0x8000 else 0x2000

/-- Whether an access is one BAR0 takes: aligned, of 4 bytes, or of 8 in the wide areas (R326). -/
def accessOk (fn off size vectors : Nat) : Bool :=
  let wide := (decide (0x1040 ≤ off) && decide (off + 8 ≤ 0x1080)) || (decide (0x1100 ≤ off) && decide (off + 8 ≤ 0x1900)) ||
    (decide (msixBase fn ≤ off) && decide (off + 8 ≤ msixBase fn + 16 * vectors))
  off % size == 0 && (size == 4 || (size == 8 && wide))

/-- Write one 4-byte register. -/
def State.writeReg (s : State) (fn off : Nat) (v : Nat) : State :=
  let set := s.modFunc fn
  let lo := fun (w : Word) (k : Nat) => BitVec.ofNat 64 (w.toNat / 2 ^ 32 * 2 ^ 32 + v / k * k)
  let hi := fun (w : Word) => BitVec.ofNat 64 (v * 2 ^ 32 + w.toNat % 2 ^ 32)
  let msix := msixBase fn
  if off = 0x20 then set fun f => { f with cmdBase := lo f.cmdBase 64 }
  else if off = 0x24 then set fun f => { f with cmdBase := hi f.cmdBase }
  else if off = 0x28 then set fun f => { f with cplBase := lo f.cplBase 32 }
  else if off = 0x2C then set fun f => { f with cplBase := hi f.cplBase }
  else if off = 0x44 then set fun f => { f with irqCpl := BitVec.ofNat 32 v &&& 0x803FFFFF }
  else if off = 0x48 then set fun f => { f with irqEvt := BitVec.ofNat 32 v &&& 0x803F0000 }
  else if 0x1040 ≤ off ∧ off < 0x1080 then set fun f => { f with mbxReq := splice f.mbxReq (off - 0x1040) (natLE 4 v) }
  else if 0x1100 ≤ off ∧ off < 0x1900 then set fun f => { f with mbxData := putBytes f.mbxData (off - 0x1100) (natLE 4 v) }
  else if msix ≤ off ∧ off < msix + 16 * (s.func fn).vectors then
    let vec := (off - msix) / 16
    let s := set fun f => { f with msix := f.msix.set ((off - msix) / 4) (BitVec.ofNat 32 v) }
    let f := s.func fn
    if f.pba.contains vec ∧ f.masked vec = false then (s.setFunc fn { f with pba := f.pba.filter (· != vec) }).emit (.msix fn vec) else s
  else s

/-- REGISTER_WRITE: a write with no row of its own; reserved and read-only offsets discard it (R326). -/
def execRegisterWrite (fn off size : Nat) (v : Word) (s : State) : Res :=
  checked (fnOk fn)
    (if !s.takesWrites fn || !accessOk fn off size (s.func fn).vectors then s
     else if size = 8 then (s.writeReg fn off (v.toNat % 2 ^ 32)).writeReg fn (off + 4) (v.toNat / 2 ^ 32)
     else s.writeReg fn off (v.toNat % 2 ^ 32))

/-- COMPLETION_IRQ_DELAY: the hold ends with completions not yet signalled (R333). -/
def execCompletionIrqDelay (fn : Nat) (s : State) : Res :=
  checked (fnOk fn)
    (let f := s.func fn
     if f.unsignalled ≠ 0 ∧ f.irqCpl.getLsbD 31 ∧ bits f.irqCpl.toNat 7 0 ≠ 0 then
       (s.setFunc fn { f with unsignalled := 0 }).msix fn (bits f.irqCpl.toNat 21 16)
     else s)

/-- D3HOT_ENTRY (R321): a configuration write, which needs the link. -/
def execD3hotEntry (s : State) : Res := .next (if s.pcieUp then { s with pcie := { s.pcie with d3hot := true } } else s)

/-- D3HOT_EXIT. -/
def execD3hotExit (s : State) : Res := .next (if s.pcieUp then { s with pcie := { s.pcie with d3hot := false } } else s)

/-! ## The instance reset (R335-R337) -/

/-- The lanes of a colour. -/
def State.lanesOfColour (s : State) (c : Colour) : List Nat := (s.lanes.filter fun p => p.2.colour == c).map Prod.fst

/-- An instance reset at its acceptance. -/
def newRun (now : Nat) (waiting : List Cmd) (destroy : Bool) : ResetRun :=
  { start := now, drained := 0, squashed := 0, cmdsDrained := 0, cmdsSquashed := 0, streams := 0, waiting := waiting, squashDone := false,
    destroy := destroy }

/-- Squash what a reset finds still at work, its streams counted. -/
def State.resetSquash (s : State) (fn : Nat) (p : LaneState → Bool) : State :=
  let c := (s.func fn).colour
  let ls := (s.lanesOfColour c).filter fun l => p (s.lane l).state
  let n := (s.streams.filter fun (x : Stream) => ls.contains x.lane).length
  let s := s.modFunc fn fun f => { f with resetRun := f.resetRun.map fun r => { r with streams := r.streams + n } }
  s.squashLanes ls .instanceReset

/-- Start an instance reset of an assigned VF, or join the one in progress (R337). A FROZEN or SAVED function's work is discarded
at once. -/
def State.startReset (s : State) (fn : Nat) (waiting : List Cmd) (destroy : Bool) : State :=
  let f := s.func fn
  match f.resetRun with
  | some r => s.setFunc fn { f with resetRun := some { r with waiting := r.waiting ++ waiting, destroy := r.destroy || destroy } }
  | .none =>
    let still := f.state == .frozen || f.state == .saved
    let s := s.setFunc fn { f with state := .resetting, resetRun := some (newRun s.now waiting destroy), package := [], packageFor := .none,
                                   freezeCmd := .none }
    let s := if still then s.resetSquash fn fun st => st == .frozen else s
    (s.lanesOfColour f.colour).foldl (fun s l =>
      if (s.lane l).state = .frozen then s.laneTo l .draining .instanceReset else s.drainLane l .instanceReset) s

/-- FLR (R327, R335): every RW and RW1C field at its reset value, and an instance reset of an assigned VF. -/
def execFlr (fn : Nat) (s : State) : Res :=
  checked (fnOk fn)
    (if !s.pcieUp then s else
     let s := s.modFunc fn Func.rwReset
     let st := (s.func fn).state
     if fn = 0 ∨ st = .unassigned ∨ st = .restoring then s else s.startReset fn [] false)

/-- End the commands of a function that are still in flight: ENDED 0x01, no completion (R335, R547). -/
def State.endCommands (s : State) (fn : Nat) : State :=
  let mine := s.pcie.inFlight.filter fun x => x.cmd.fn == fn
  let s := { s with pcie := { s.pcie with inFlight := s.pcie.inFlight.filter fun x => x.cmd.fn != fn } }
  let s := s.modFunc fn fun f => { f with mbxBusy := false, resetRun := f.resetRun.map fun r => { r with cmdsSquashed := r.cmdsSquashed + mine.length } }
  mine.foldl (fun s x =>
    if x.started && (specOf x.opcode.toNat).any (·.journal) then s.writeMile (s.mile (cmdDesc x.cmd) 8 false true 1 0 0 s.stamp) else s) s

/-- INSTANCE_RESET_SQUASH: at 100 µs. -/
def execInstanceResetSquash (fn : Nat) (s : State) : Res :=
  checked (fnOk fn)
    (match (s.func fn).resetRun with
     | some r =>
       if r.squashDone then s
       else
         let s := (s.resetSquash fn fun st => st == .draining).endCommands fn
         s.modFunc fn fun f => { f with resetRun := f.resetRun.map fun r => { r with squashDone := true } }
     | .none => s)

/-- The counts of a reset as VF.RESET returns them. -/
def Func.resetCounts (f : Func) : Bytes :=
  natLE 4 f.rstItemsDrained.toNat ++ natLE 4 f.rstItemsSquashed.toNat ++ natLE 4 f.rstCmdsDrained.toNat ++ natLE 4 f.rstCmdsSquashed.toNat ++
  natLE 4 f.rstStreams.toNat ++ natLE 4 f.rstTime.toNat

/-- Free a VF from its colour (VF.DESTROY): the partition stays, its quota of vault units released (R224). -/
def State.unassign (s : State) (fn : Nat) : State :=
  let c := (s.func fn).colour
  let s := match s.part? c with
    | some p => s.setPart c { p with vf := 0, vectors := 0, vaultQuota := 0 }
    | .none => s
  s.modFunc fn fun f => { f with state := .unassigned, colour := 0xFFF, vectors := 0 }

/-- Complete the commands that waited for a reset. -/
def State.resetWaiters (s : State) (fn : Nat) (ws : List Cmd) : State :=
  ws.foldl (fun s c =>
    match s.pcie.inFlight.find? fun x => x.cmd == c with
    | some x =>
      if x.opcode = 0x0302 then
        let sp : Spec := ⟨0x0302, true, true, .W, true⟩
        (s.configured c fun s => s.unassign fn).finish sp c cOk [] 0
      else s.finish ⟨0x0303, true, false, .O, true⟩ c cOk (s.func fn).resetCounts 0
    | .none => s) s

/-- INSTANCE_RESET_DONE: the counts, the lanes reinstated, the function ACTIVE, the commands that waited completed. -/
def execInstanceResetDone (fn : Nat) (s : State) : Res :=
  checked (fnOk fn)
    (let f := s.func fn
     match f.resetRun with
     | some r =>
       let ls := s.lanesOfColour f.colour
       let busy := ls.any fun l => (s.lane l).cause == .instanceReset && (s.lane l).state != .closed
       if !r.squashDone || busy then s
       else
         let n := fun (k : Nat) => BitVec.ofNat 32 k
         let s := s.setFunc fn { f with
           rstSerial := f.rstSerial + 1, rstItemsDrained := n r.drained, rstItemsSquashed := n r.squashed, rstCmdsDrained := n r.cmdsDrained,
           rstCmdsSquashed := n r.cmdsSquashed, rstStreams := n r.streams, rstTime := n ((s.now - r.start) / 100) }
         let s := (ls.filter fun l => (s.lane l).cause == .instanceReset).foldl State.reinstate s
         let s := s.modFunc fn fun f => { f.rwReset with state := .active, resetRun := .none, mbxDone := false }
         (s.setEvent fn 2).resetWaiters fn r.waiting
     | .none => s)

/-- The VFs that the host no longer sees when it sets VF Enable and NumVFs so. -/
def State.vanishing (s : State) (n : Nat) (enable : Bool) : List Nat :=
  s.functions.filter fun f => f != 0 && (!enable || decide (n < f))

/-- Reset the VFs that disappear: an instance reset of an assigned one, the registers of any other, whose commands end (R324). -/
def State.vfsVanish (s : State) (fs : List Nat) : State :=
  fs.foldl (fun s f =>
    if (s.func f).state = .unassigned ∨ (s.func f).state = .restoring then (s.modFunc f Func.rwReset).endCommands f
    else s.startReset f [] false) s

/-- VF_ENABLE_CLEAR (R324). -/
def execVfEnableClear (numVFs : Nat) (enable : Bool) (s : State) : Res :=
  checked (fnOk numVFs)
    (if !s.pcieUp then s else
     let gone := s.vanishing numVFs enable
     let s := { s with pcie := { s.pcie with vfEnable := enable && s.pcie.vfEnable, numVfs := min numVFs s.pcie.numVfs } }
     s.vfsVanish gone)

/-- Bring an assigned VF back to its colour. -/
def State.assignVf (s : State) (c : Colour) (p : Part) : State :=
  if p.vf ≠ 0 ∧ (s.func p.vf).state = .unassigned then
    s.modFunc p.vf fun f => { f with state := .active, colour := c, vectors := p.vectors }
  else s

/-- VF_ENABLE_SET (R322, R324): fewer VFs than before take those above away. -/
def execVfEnableSet (numVFs : Nat) (s : State) : Res :=
  checked (fnOk numVFs)
    (if !s.pcieUp then s else
     let gone := s.vanishing numVFs true
     let s := ({ s with pcie := { s.pcie with vfEnable := true, numVfs := numVFs } }).vfsVanish gone
     s.tenancy.parts.foldl (fun s q => if q.2.vf ≤ numVFs then s.assignVf (BitVec.ofNat 12 q.1) q.2 else s) s)

end Sys2Proof.Machine
end

