-- ==== Sys2Proof/Machine/Tenancy.lean ====
section
/-! DEFINITION. Partitions (R31-R33, R95-R97, R198, R374-R379, Table 11.4): the profile, creation and its pools, policy, status,
deletion and the zeroing of granules. -/

namespace Sys2Proof.Machine

/-! ## Lanes of a new partition (R95-R97) -/

/-- The class a lane class map gives to an index: indices 0-3 carry their own. -/
def laneClass (map i : Nat) : Nat := if i < 4 then i else map / 4 ^ (i - 4) % 4

/-- A new lane with the defaults of Tables 3.1 and 3.2. -/
def newLane (c : Colour) (i cls : Nat) : Lane := { Lane.free with colour := c, index := i, cls := cls, level := cls + 2, state := .opened }

/-- The lowest `n` free lanes; which free lanes a partition takes is a DESIGN CHOICE. -/
def State.freeLanes (s : State) (n : Nat) : List Nat := takeCells (fun l => !s.lanes.has l) 16384 0 n

/-- Give a colour its lanes, each with a cluster in its placement set (R106). -/
def State.addLanes (s : State) (c : Colour) (n map : Nat) : State :=
  ((s.freeLanes n).zip (List.range n)).foldl (fun s p => (s.setLane p.1 (newLane c p.2 (laneClass map p.2))).ensurePlaced p.1) s

/-! ## PART.FORMAT (R32) -/

/-- PART.FORMAT: the profile, and with it colour 0's lanes: 64 in Compact, 4 in Wide. -/
def execPartFormat (c : Cmd) (s : State) : Res :=
  let pr := fieldLE c.body 0 1
  runCmd 0x0201 c (c.body.length == 8 && zeroAt c.body 1 7) s fun sp s =>
    if 1 < pr then s.reject c cInvalid
    else if !s.tenancy.parts.isEmpty then s.reject c cBadState
    else
      answer c (((s.begin sp c).cmdAccepted c sp.op).configured c fun s =>
        let s := { s with tenancy := { s.tenancy with profile := if pr = 0 then .compact else .wide },
                          lanes := s.lanes.filter fun p => p.2.colour != 0 }
        s.addLanes 0 (if pr = 0 then 64 else 4) 0) sp []

/-! ## Creation (R33, R95, R198, R323, R375) -/

/-- What PART.CREATE or VF.CREATE asks for; no function where the PF is to serve the partition. -/
structure Creation where
  lanes  : Nat
  policy : Nat
  caddy  : Nat
  quota  : Nat
  space  : Nat
  map    : Nat
  fn     : Nat
  share  : Nat
  vectors : Nat
  vault  : Nat
  deriving DecidableEq, Repr

/-- Whether a request's reserved bits are zero: of the policy, and of the lane class map. -/
def Creation.wellFormed (x : Creation) (wide : Bool) : Bool :=
  decide (x.policy < 256) && decide (x.map < 2 ^ 120) && decide (x.map < 4 ^ (x.lanes - 4)) && (!wide || x.map == 0)

/-- Whether its values lie in their ranges. -/
def Creation.inRange (x : Creation) (wide : Bool) (c : Colour) : Bool :=
  decide (0 < c.toNat) && decide (c.toNat < if wide then 0xFFF else 0x100) &&
  (if wide then x.lanes == 4 else decide (4 ≤ x.lanes) && decide (x.lanes ≤ 64)) && x.space % 65536 == 0

/-- Whether the function's own values lie in theirs (Table 10.2). -/
def Creation.vfInRange (x : Creation) : Bool :=
  decide (1 ≤ x.fn) && decide (x.fn ≤ 1023) && decide (1 ≤ x.share) && decide (x.share ≤ 32) && decide (1 ≤ x.vectors) &&
  decide (x.vectors ≤ 32) && x.vault % 4096 == 0

/-- The first run of `n` granules that pass a test, from `c` on; `got` pass already before `c`. -/
def findRun (ok : Nat → Bool) : Nat → Nat → Nat → Nat → Option Nat
  | 0, c, got, n => if n ≤ got then some (c - got) else .none
  | f + 1, c, got, n => if n ≤ got then some (c - got) else if ok c then findRun ok f (c + 1) (got + 1) n else findRun ok f (c + 1) 0 n

/-- The granules of a new partition: any free ones in Compact (the lowest, a DESIGN CHOICE), one run in Wide (R375). -/
def State.pickGranules (s : State) (n : Nat) : Option (List Nat) :=
  let free := fun (g : Nat) => s.granuleTag g == 0xFFF
  if s.tenancy.profile = .wide then (findRun free 196608 65536 0 n).map fun b => (List.range n).map (b + ·)
  else
    let l := takeCells free 196608 65536 n
    if l.length = n then some l else .none

/-- The granules a creation takes, where every pool has what it asks for. -/
def State.poolsGive (s : State) (x : Creation) : Option (List Nat) :=
  let n := x.space / 65536
  if 122816 < x.caddy + s.sumParts (·.caddyQuota) then .none
  else if 402653184 < x.quota + s.sumParts (·.keyQuota) then .none
  else if 16384 < x.lanes + s.lanes.length then .none
  else if 1984 < x.vectors + s.sumParts (·.vectors) then .none
  else if x.vault ≠ 0 ∧ s.freeVault < x.vault then .none
  else if 196608 < n + s.sumParts (·.granules.length) then .none
  else s.pickGranules n

/-- The partition a creation makes: its granules tagged, its lanes open. -/
def State.createPart (s : State) (c : Colour) (x : Creation) (gs : List Nat) : State :=
  let p : Part := { policy := BitVec.ofNat 16 x.policy, caddyQuota := x.caddy, keyQuota := x.quota, granules := gs, readOnly := [],
                    epoch := 0, vf := x.fn, share := x.share, vectors := x.vectors, vaultQuota := x.vault, extent := .none,
                    deleting := .none }
  let s := (s.setPart c p).formPartKeys [c]
  let s := { s with tenancy := { s.tenancy with tags := gs.foldl (fun t g => t.set g c) s.tenancy.tags } }
  (s.addLanes c x.lanes x.map).creditColour c

/-- PART.CREATE: it waits for a gate that drains, and completes when its own change of tags has drained (R369, R376). -/
def execPartCreate (c : Cmd) (s : State) : Res :=
  let b := c.body
  let x : Creation := { lanes := fieldLE b 0 1, policy := fieldLE b 2 2, caddy := fieldLE b 4 4, quota := fieldLE b 8 8,
                        space := fieldLE b 16 8, map := fieldLE b 24 16, fn := 0, share := 32, vectors := 0, vault := 0 }
  let wide := s.tenancy.profile == .wide
  runCmd 0x0202 c (b.length == 40 && zeroAt b 1 1 && x.wellFormed wide) s fun sp s =>
    if s.tenancy.profile = .unformatted then s.reject c cBadState
    else if !x.inRange wide c.colour then s.reject c cInvalid
    else if (s.part? c.colour).isSome then s.reject c cExists
    else match s.poolsGive x with
      | .none => s.reject c cExhausted
      | some gs =>
        if (s.gate 36).draining then s
        else (((s.begin sp c).cmdAccepted c sp.op).configured c fun s => (s.createPart c.colour x gs).flipTags).awaitRules 36 c

/-- VF.CREATE (R323): the partition, and an unassigned VF assigned to it; it completes as PART.CREATE does. -/
def execVfCreate (c : Cmd) (s : State) : Res :=
  let b := c.body
  let x : Creation := { fn := fieldLE b 0 2, lanes := fieldLE b 2 1, share := fieldLE b 3 1, vectors := fieldLE b 4 1,
                        caddy := fieldLE b 8 4, vault := fieldLE b 12 4, quota := fieldLE b 16 8, policy := fieldLE b 24 2,
                        space := fieldLE b 32 8, map := fieldLE b 40 16 }
  let wide := s.tenancy.profile == .wide
  runCmd 0x0301 c (b.length == 56 && zeroAt b 5 3 && zeroAt b 26 6 && x.wellFormed wide) s fun sp s =>
    if s.tenancy.profile = .unformatted then s.reject c cBadState
    else if !x.inRange wide c.colour || !x.vfInRange then s.reject c cInvalid
    else if (s.part? c.colour).isSome ∨ (s.func x.fn).state ≠ .unassigned ∨ s.functions.contains x.fn = false then s.reject c cBadState
    else match s.poolsGive x with
      | .none => s.reject c cExhausted
      | some gs =>
        if (s.gate 36).draining then s
        else (((s.begin sp c).cmdAccepted c sp.op).configured c fun s =>
          let s := (s.createPart c.colour x gs).flipTags
          s.modFunc x.fn fun f => { f with state := .active, colour := c.colour, vectors := x.vectors }).awaitRules 36 c

/-! ## Policy and status -/

/-- Whether a policy conflicts with a loaded tenant image of a colour (R85, R88). -/
def State.policyConflict (s : State) (c : Colour) (policy : BitVec 16) : Bool :=
  s.tenancy.images.any fun x => !x.shared && x.colour == c &&
    ((x.classes &&& policy).extractLsb' 0 7 != 0 || x.waymarks.any fun w => !waymarkAllowed policy w.toNat)

/-- PART.POLICY. -/
def execPartPolicy (c : Cmd) (s : State) : Res :=
  let v := fieldLE c.body 0 2
  runCmd 0x0204 c (c.body.length == 8 && zeroAt c.body 2 6 && decide (v < 256)) s fun sp s =>
    match s.part? c.colour with
    | .none => s.reject c cNotFound
    | some p =>
      if s.policyConflict c.colour (BitVec.ofNat 16 v) then s.reject c 0x0206
      else answer c (((s.begin sp c).cmdAccepted c sp.op).configured c fun s => s.setPart c.colour { p with policy := BitVec.ofNat 16 v }) sp []

/-- The profile as responses name it. -/
def Profile.code (p : Profile) : Nat :=
  match p with
  | .compact => 0
  | .wide => 1
  | .unformatted => 0xFF

/-- The 48 bytes of PART.STATUS. -/
def State.partStatus (s : State) (c : Colour) (p : Part) : Bytes :=
  natLE 1 s.tenancy.profile.code ++ natLE 1 (s.lanesOfColour c).length ++ natLE 2 p.policy.toNat ++ natLE 4 p.epoch.toNat ++
  natLE 4 p.caddyQuota ++ natLE 8 p.keyQuota ++ natLE 8 (s.keyUse c / 128) ++ natLE 8 p.space ++
  natLE 4 ((p.extent.map (·.base)).getD 0) ++ natLE 4 ((p.extent.map (·.size)).getD 0) ++ natLE 2 p.vf ++ [0, 0]

/-- What stands for colour 0 in PART.STATUS: its own caddy slots and nothing else (R198). -/
def Part.vendor : Part :=
  { policy := 0, caddyQuota := 64, keyQuota := 0, granules := [], readOnly := [], epoch := 0, vf := 0, share := 32, vectors := 0,
    vaultQuota := 0, extent := .none, deleting := .none }

/-- PART.STATUS. -/
def execPartStatus (c : Cmd) (s : State) : Res :=
  runCmd 0x0206 c c.body.isEmpty s fun sp s =>
    if c.colour = 0 then answer c s sp (s.partStatus 0 Part.vendor)
    else match s.part? c.colour with
      | .none => s.reject c cNotFound
      | some p => answer c s sp (s.partStatus c.colour p)

/-! ## Deletion (R99, R376) -/

/-- End a colour's lanes: drained, or squashed with FORCE; a closed one is free at once. -/
def State.endLanes (s : State) (c : Colour) (force : Bool) : State :=
  (s.lanesOfColour c).foldl (fun s l =>
    match (s.lane l).state with
    | .closed => { s with lanes := s.lanes.erase l }
    | .squashing => s.setLane l { s.lane l with cause := .deletion }
    | _ => if force then s.squashLane l .deletion else s.laneTo l .draining .deletion) s
  |>.tagDeleted c

/-- PART.DELETE: it completes once the lanes have closed and the granules are zeroed (R376). -/
def execPartDelete (c : Cmd) (s : State) : Res :=
  let force := bit (fieldLE c.body 0 1) 0
  runCmd 0x0203 c (c.body.length == 8 && decide (fieldLE c.body 0 1 < 2) && zeroAt c.body 1 7) s fun sp s =>
    match s.part? c.colour with
    | .none => s.reject c cNotFound
    | some p =>
      if p.vf ≠ 0 ∨ p.extent.isSome then s.reject c cBadState
      else if p.deleting.isSome then s
      else (((s.begin sp c).cmdAccepted c sp.op).setPart c.colour { p with deleting := some c }).endLanes c.colour force

/-- Erase what a colour holds: its records and tombstones, what the caddy keeps of them, its images, its shares. -/
def State.eraseColour (s : State) (c : Colour) : State :=
  let hs := (s.keys.warm.filter fun p => handleColour (BitVec.ofNat 64 p.1) == c).map Prod.fst
  let s := hs.foldl (fun s h => s.dropHandle (BitVec.ofNat 64 h)) s
  { s with
    keys := { s.keys with warm := s.keys.warm.filter (fun p => handleColour (BitVec.ofNat 64 p.1) != c), partKeys := s.keys.partKeys.erase c.toNat, counts := s.keys.counts.erase c.toNat },
    tenancy := { s.tenancy with images := s.tenancy.images.filter fun x => x.shared || x.colour != c },
    clusters := s.clusters.mapVals fun (x : Cluster) => { x with shares := x.shares.map fun y => if y = c then 0xFFF else y } }

/-- Zero granules and tag them free (R376). -/
def State.zeroGranules (s : State) (gs : List Nat) : State :=
  let s := gs.foldl (fun s g => s.wipe (dramBase + granuleAddr g) (dramBase + granuleAddr (g + 1))) s
  { s with tenancy := { s.tenancy with tags := gs.foldl (fun t g => t.erase g) s.tenancy.tags } }

/-- GRANULE_ZEROING_DONE: a deleted colour whose lanes have closed and whose tags have drained is erased, its granules free, the colour
free; PART.DELETE completes when that change has drained. -/
def execGranuleZeroingDone (colour : Colour) (s : State) : Res :=
  .next (match (s.part? colour).bind fun p => p.deleting.map fun c => (p, c) with
    | .none => s
    | some (p, c) =>
      if !(s.lanesOfColour colour).isEmpty ∨ (s.gate 36).draining then s
      else
        (s.configured c fun s =>
          let s := ((s.eraseColour colour).zeroGranules p.granules).flipTags
          { s with tenancy := { s.tenancy with parts := s.tenancy.parts.erase colour.toNat } }).awaitRules 36 c)

end Sys2Proof.Machine
end

