-- ==== Sys2Proof/Machine/VfCmds.lean ====
section
/-! DEFINITION. The commands on virtual functions (chapter 10, Table 11.4) but for migration: destroy, reset, freeze, thaw, status. -/

namespace Sys2Proof.Machine

/-- The body of the commands that name a function and nothing else. -/
def fnBodyOk (b : Bytes) : Bool := b.length == 8 && zeroAt b 2 6

/-- Why a command on a VF may not act: no such VF, unassigned, or of another colour. -/
def State.vfFails (s : State) (c : Cmd) (fn : Nat) : Option Nat :=
  if fn = 0 ∨ 1023 < fn then some cInvalid
  else if (s.func fn).state = .unassigned then some cBadState
  else if (s.func fn).colour ≠ c.colour then some cInvalid
  else .none

/-- VF.DESTROY: it completes when the reset is done. -/
def execVfDestroy (c : Cmd) (s : State) : Res :=
  let fn := fieldLE c.body 0 2
  runCmd 0x0302 c (fnBodyOk c.body) s fun sp s =>
    match s.vfFails c fn with
    | some code => s.reject c code
    | .none => ((s.begin sp c).cmdAccepted c sp.op).startReset fn [c] true

/-- VF.RESET. -/
def execVfReset (c : Cmd) (s : State) : Res :=
  let fn := fieldLE c.body 0 2
  runCmd 0x0303 c (fnBodyOk c.body) s fun sp s =>
    match s.vfFails c fn with
    | some code => s.reject c code
    | .none => (s.begin sp c).startReset fn [c] false

/-- A function state by its code (Table 10.3). -/
def FuncState.code (x : FuncState) : Nat :=
  match x with
  | .unassigned => 0
  | .active => 1
  | .resetting => 2
  | .freezing => 3
  | .frozen => 4
  | .saved => 5
  | .restoring => 6

/-- VF.STATUS. -/
def execVfStatus (c : Cmd) (s : State) : Res :=
  let fn := fieldLE c.body 0 2
  runCmd 0x0308 c (fnBodyOk c.body) s fun sp s =>
    if 1023 < fn then s.reject c cInvalid
    else
      let f := s.func fn
      answer c s sp (natLE 1 f.state.code ++ [0] ++ natLE 2 f.colour.toNat ++ natLE 1 f.vectors ++ [0, 0, 0])

/-! ## Freeze and thaw (R338, R339) -/

/-- Set the frozen mark of a colour's streams. -/
def State.markStreams (s : State) (c : Colour) (v : Bool) : State :=
  (s.streams.filter fun (x : Stream) => (s.lane x.lane).colour == c).foldl (fun s x => s.setStream { x with frozen := v }) s

/-- The seats of a colour that stand at a yield point with no intent open. -/
def State.parkedSeats (s : State) (c : Colour) : List SeatRef :=
  (s.seats.filter fun p => p.2.desc.colour == c && p.2.rests).map fun p => seatOfKey p.1

/-- Return the saved MAE jobs of a colour to their lanes. -/
def State.requeueSaved (s : State) (c : Colour) : State :=
  let mine := s.clusters.flatMap fun q => q.2.mae.saved.filter fun (j : MaeJob) => j.desc.colour == c
  let s := { s with clusters := s.clusters.mapVals fun (x : Cluster) =>
      { x with mae := { x.mae with saved := x.mae.saved.filter fun (j : MaeJob) => j.desc.colour != c } } }
  mine.foldl State.requeueJob s

/-- VF.FREEZE: lanes FROZEN, what stands at a yield point leaves its TE, the rest follows at its next one. -/
def execVfFreeze (c : Cmd) (s : State) : Res :=
  let fn := fieldLE c.body 0 2
  runCmd 0x0304 c (fnBodyOk c.body) s fun sp s =>
    match s.vfFails c fn with
    | some code => s.reject c code
    | .none =>
      if (s.func fn).state ≠ .active then s.reject c cBadState
      else
        let s := (s.begin sp c).modFunc fn fun f => { f with state := .freezing, freezeCmd := some c }
        let s := (s.lanesOfColour c.colour).foldl (fun s l =>
          if (s.lane l).state = .opened ∨ (s.lane l).state = .draining then s.laneTo l .frozen .none else s) s
        let s := (s.markStreams c.colour true).requeueSaved c.colour
        (s.parkedSeats c.colour).foldl State.suspendSeat s

/-- VF.THAW. -/
def execVfThaw (c : Cmd) (s : State) : Res :=
  let fn := fieldLE c.body 0 2
  runCmd 0x0305 c (fnBodyOk c.body) s fun sp s =>
    match s.vfFails c fn with
    | some code => s.reject c code
    | .none =>
      if (s.func fn).state ≠ .frozen then s.reject c cBadState
      else
        let s := s.modFunc fn fun f => { f with state := .active }
        let s := (s.markStreams c.colour false)
        let ls := (s.lanesOfColour c.colour).filter fun l => (s.lane l).state == .frozen
        answer c (ls.foldl (fun s l => s.laneTo l .opened .none) s) sp []

end Sys2Proof.Machine
end

