-- ==== Sys2Proof/Machine/Migration.lean ====
section
/-! DEFINITION. Migration (R338-R342): the end of a freeze, the package VF.SAVE reads, and the restore. -/

namespace Sys2Proof.Machine

/-! ## Milestones as bytes (Table 8.1) -/

/-- The 32 bytes of a milestone. -/
def Milestone.bytes (m : Milestone) : Bytes :=
  natBE 1 m.typ.toNat ++ natBE 1 (128 * b2n m.anchored + 64 * b2n m.vendor + m.laneIdx % 64) ++ natBE 2 m.colour.toNat ++
  natBE 4 m.seq.toNat ++ natBE 8 m.ticket.toNat ++ natBE 2 m.code.toNat ++ natBE 2 m.aux.toNat ++ natBE 8 m.valA.toNat ++ natBE 4 m.valB.toNat

/-- The milestone 32 bytes spell, as this device keeps it: its lane here, its time the time of the restore. -/
def State.mileOf (s : State) (b : Bytes) : Milestone :=
  let f := fieldBE b 1 1
  let c := BitVec.ofNat 12 (fieldBE b 2 2)
  { typ := BitVec.ofNat 8 (fieldBE b 0 1), anchored := bit f 7, vendor := bit f 6, laneIdx := f % 64, colour := c,
    seq := BitVec.ofNat 32 (fieldBE b 4 4), ticket := BitVec.ofNat 64 (fieldBE b 8 8), code := BitVec.ofNat 11 (fieldBE b 16 2),
    aux := BitVec.ofNat 16 (fieldBE b 18 2), valA := BitVec.ofNat 64 (fieldBE b 20 8), valB := BitVec.ofNat 32 (fieldBE b 28 4),
    lane := if fieldBE b 4 4 = 0 ∧ f % 64 = 0 then 16384 else (s.laneOf c (f % 64)).getD 16384, secs := s.time.secs.toNat,
    nanos := s.time.nanos.toNat }

/-! ## The sections (Table 10.11) -/

/-- A section: type, body length, body padded to a multiple of eight. -/
def packSection (typ : Nat) (body : Bytes) : Bytes := natBE 2 typ ++ [0, 0] ++ natBE 4 body.length ++ pad8 body

/-- The function section. -/
def State.fnSection (s : State) (fn : Nat) (p : Part) (lanes : Nat) : Bytes :=
  packSection 1 (natBE 2 fn ++ natBE 1 (s.func fn).vectors ++ natBE 1 p.share ++ natBE 4 p.caddyQuota ++ natBE 8 p.keyQuota ++
    natBE 4 p.vaultQuota ++ natBE 1 lanes ++ List.replicate 11 0)

/-- The queued items of a lane: requests and jobs. -/
def State.queuedOf (s : State) (l : Nat) : List Item := s.depot.items.filter fun i => i.desc.lane == l && i.stream.isNone && i.suspended.isNone

/-- A lane's section. -/
def State.laneSection (s : State) (l : Nat) : Bytes :=
  let x := s.lane l
  packSection 2 (natBE 1 x.index ++ natBE 1 x.cls ++ natBE 1 x.level ++ natBE 1 (b2n x.overflow) ++ natBE 4 x.quota ++ natBE 4 x.window ++
    natBE 4 (s.queuedOf l).length)

/-- What the sections of an item begin with. -/
def Desc.packHead (d : Desc) : Bytes := natBE 1 d.laneIdx ++ [0, 0, 0] ++ natBE 4 d.seq.toNat ++ natBE 8 d.ticket.toNat ++ natBE 4 d.id.toNat

/-- A queued item's section. -/
def itemSection (i : Item) : Bytes := packSection 3 (i.desc.packHead ++ natBE 2 i.payload.length ++ natBE 2 i.desc.session ++ i.payload)

/-- A suspended itinerary's section, with its seat state (Table 10.12). -/
def seatSection (i : Item) (t : Seat) : Bytes :=
  packSection 4 (i.desc.packHead ++ natBE 4 t.version.toNat ++ t.image ++
    (t.k.toList.flatMap fun x => match x with
      | some k => k.bytes
      | .none => List.replicate 112 0) ++ padTo 0x3C00 i.payload)

/-- A stream's context as Table 4.4 has it: for XTS the block number in the data unit and the unit's number, for GCM the byte
count (R142). -/
def State.streamCtx (s : State) (x : Stream) : CipherCtx :=
  let k := (s.recordKey (s.lane x.lane).colour x.handle1).map fun k => ktypeCode k.attrs.ktype
  let c := { x.ctx with ktype := k.getD x.ctx.ktype, aadClosed := x.mode == 5 }
  if x.mode = 8 then
    { c with ctrA := BitVec.ofNat 64 (x.processed % x.dataUnit / 16), ctrB := BitVec.ofNat 64 (x.start.toNat + x.processed / x.dataUnit) }
  else if x.mode = 5 then { c with ctrB := BitVec.ofNat 64 x.processed } else c

/-- A stream's section. -/
def State.streamSection (s : State) (x : Stream) : Bytes :=
  packSection 6 (natBE 4 x.id.toNat ++ natBE 2 x.session ++ natBE 1 x.mode ++ natBE 1 (b2n x.decrypt) ++ natBE 8 x.handle1.toNat ++
    natBE 8 x.handle2.toNat ++ natBE 8 x.processed ++ natBE 2 x.dataUnit ++ List.replicate 6 0 ++ (s.streamCtx x).bytes)

/-- The unsettled tickets of a colour, each once, in the order of their first record. -/
def State.unsettledTickets (s : State) (c : Colour) : List Word :=
  let ts := ((s.journal.spill ++ s.journal.ring).filter fun m => m.colour == c).map (·.ticket)
  (ts.eraseDups).filter fun t => s.journal.ticketInUse c t

/-- A ticket's journal section. -/
def State.journalSection (s : State) (c : Colour) (t : Word) : Bytes :=
  let rs := s.journal.recordsOf c t
  packSection 7 (natBE 8 t.toNat ++ natBE 2 rs.length ++ List.replicate 6 0 ++ rs.flatMap Milestone.bytes)

/-- The lanes of a colour by their index. -/
def State.lanesByIndex (s : State) (c : Colour) : List Nat := (List.range 64).filterMap fun i => s.laneOf c i

/-- Every section of a function's package. -/
def State.packSections (s : State) (fn : Nat) (p : Part) : List Bytes :=
  let c := (s.func fn).colour
  let ls := s.lanesByIndex c
  let seats := s.depot.items.filterMap fun i => if i.desc.colour = c then i.suspended.map fun t => seatSection i t else .none
  [s.fnSection fn p ls.length] ++ ls.map s.laneSection ++ (ls.flatMap s.queuedOf).map itemSection ++ seats ++
  (s.streams.filter fun (x : Stream) => (s.lane x.lane).colour == c).map s.streamSection ++
  (s.unsettledTickets c).map (s.journalSection c) ++ [packSection 0xFF []]

/-! ## The package (R340, Table 10.10) -/

/-- The header. -/
def packHeader (source target : BitVec 128) (serial : Word) (c : Colour) (pr : Profile) (count total : Nat) : Bytes :=
  natBE 4 0x4D494737 ++ natBE 2 1 ++ [0, 0] ++ blockBytes source ++ blockBytes target ++ natBE 8 serial.toNat ++ natBE 2 c.toNat ++
  natBE 1 (b2n (pr == .wide)) ++ [0] ++ natBE 4 count ++ natBE 8 total

/-- The package key; the 4-byte counter before the fixed input is PRESUMED, as R292 has it. -/
def packKey (key : Bytes) (source target : BitVec 128) (serial : Word) : Bytes :=
  let x := fun (i : Nat) => natBE 4 i ++ ascii "HX7-MIGRATE" ++ [0] ++ blockBytes source ++ blockBytes target ++ natBE 8 serial.toNat
  aesCmac key (x 1) ++ aesCmac key (x 2)

/-- The IV of a package. -/
def packIv (serial : Word) : Bytes := natBE 4 0 ++ natBE 8 serial.toNat

/-- A package whole. -/
def State.buildPackage (s : State) (fn : Nat) (p : Part) (key : Bytes) (target : BitVec 128) (serial : Word) : Bytes :=
  let secs := s.packSections fn p
  let pt := secs.flatten
  let h := packHeader Config.deviceId target serial (s.func fn).colour s.tenancy.profile secs.length (80 + pt.length)
  h ++ gcmSeal (packKey key Config.deviceId target serial) (packIv serial) h pt

/-! ## FREEZE_AT_REST (R338) -/

/-- Whether everything of a colour is at rest. -/
def State.colourAtRest (s : State) (c : Colour) : Bool :=
  !(s.seats.any fun q => q.2.phase != Phase.empty && q.2.desc.colour == c) &&
  !(s.clusters.any fun q => (q.2.mae.running.toList ++ q.2.mae.saved).any fun (j : MaeJob) => j.desc.colour == c) &&
  !(s.streams.any fun (x : Stream) => (s.lane x.lane).colour == c && (x.loading || !x.pending.isEmpty || s.travels x.key))

/-- VF.FREEZE's row. -/
def freezeSpec : Spec := ⟨0x0304, true, false, .W, true⟩

/-- FREEZE_AT_REST: the function is FROZEN, and VF.FREEZE completes with the package length. -/
def execFreezeAtRest (fn : Nat) (s : State) : Res :=
  checked (fnOk fn)
    (let f := s.func fn
     if f.state ≠ .freezing ∨ !s.colourAtRest f.colour ∨ (s.pcie.inFlight.any fun x => x.cmd.fn == fn) then s
     else
       let len := match s.part? f.colour with
         | some p => 80 + ((s.packSections fn p).map List.length).sum
         | .none => 0
       let s := (s.setFunc fn { f with state := .frozen, freezeCmd := .none }).setEvent fn 3
       match f.freezeCmd with
       | some c => s.finishLater freezeSpec c cOk (natLE 8 len) 0
       | .none => s)

/-! ## VF.SAVE (R339, R340, R355) -/

/-- The migration key, or why it may not be used. -/
def State.migrationKey (s : State) : Except Nat Bytes :=
  if (s.record 0 0x20).isNone then .error cNotFound
  else if s.tinShut 0 0x20 then .error cBadState
  else match s.recordKey 0 0x20 with
    | some k => if k.attrs.ktype = 3 ∧ k.may uDerive ∧ k.attrs.within s.time then .ok k.material else .error 0x0102
    | .none => .error cNotFound

/-- Write MIGRATED for every unsettled ticket of a colour. -/
def State.writeMigrated (s : State) (c : Colour) (target : BitVec 128) : State :=
  (s.unsettledTickets c).foldl (fun s t =>
    match s.journal.recordsOf c t with
    | m :: _ => s.writeMile (s.mile m.desc 0x0A false true 0 0 (target.setWidth 64) 0)
    | [] => s) s

/-- The package of a function for a target: the one made before, or a new one at the first piece. -/
def State.packageOf (s : State) (fn : Nat) (target : BitVec 128) : Except Nat (State × Bytes) :=
  let f := s.func fn
  if f.state = .saved then (if f.packageFor = some target then .ok (s, f.package) else .error cBadState)
  else if f.state ≠ .frozen then .error cBadState
  else match s.migrationKey, s.part? f.colour with
    | .error e, _ => .error e
    | .ok _, .none => .error cNotFound
    | .ok k, some p =>
      let serial := s.pcie.pkgSerial + 1
      let b := s.buildPackage fn p k target serial
      let s := { s with pcie := { s.pcie with pkgSerial := serial } }.writeMigrated f.colour target
      .ok (s.modFunc fn fun f => { f with state := .saved, package := b, packageFor := some target }, b)

/-- VF.SAVE. -/
def execVfSave (c : Cmd) (s : State) : Res :=
  let b := c.body
  let fn := fieldLE b 0 2
  let off := fieldLE b 24 8
  let len := fieldLE b 32 4
  runCmd 0x0306 c (b.length == 40 && zeroAt b 2 6 && zeroAt b 36 4) s fun sp s =>
    match s.vfFails c fn with
    | some code => s.reject c code
    | .none =>
      match s.packageOf fn (BitVec.ofNat 128 (fieldLE b 8 16)) with
      | .error e => s.reject c e
      | .ok (t, p) => if 16777216 < len ∨ p.length ≤ off then s.reject c cInvalid else answer c t sp (slice p off len)

/-! ## Reading a package -/

/-- The sections of a plaintext up to the end section; nothing where it is not a run of sections. -/
def readSections : Nat → Bytes → Option (List (Nat × Bytes))
  | 0, _ => .none
  | f + 1, b =>
    let typ := fieldBE b 0 2
    let len := fieldBE b 4 4
    if b.length < 8 + 8 * ceilDiv len 8 then .none
    else if typ = 0xFF then some []
    else (readSections f (b.drop (8 + 8 * ceilDiv len 8))).map fun r => (typ, slice b 8 len) :: r

/-- What VF.RESTORE names. -/
structure RestoreArgs where
  fn   : Nat
  sess0 : Nat
  sess1 : Nat
  deriving DecidableEq, Repr

/-- The port and session items and streams go back on: F0's where one is named (DESIGN CHOICE). -/
def RestoreArgs.back (a : RestoreArgs) : Nat × Nat := if a.sess0 ≠ 0 then (0, a.sess0) else (1, a.sess1)

/-- The last package serial restored from a source. -/
def State.lastRestored (s : State) (src : BitVec 128) : Word := ((s.pcie.restored.find? fun x => x.1 == src).map (·.2)).getD 0

/-- The sections of a package the checks of R342 accept. -/
def State.openPackage (s : State) (c : Colour) (b : Bytes) : Option (List (Nat × Bytes)) :=
  let src := toBlock (slice b 8 16)
  let serial := BitVec.ofNat 64 (fieldBE b 0x28 8)
  let pr := if s.tenancy.profile = .wide then 1 else 0
  match s.migrationKey, s.part? c with
  | .ok key, some p =>
    if b.length < 80 ∨ fieldBE b 0 4 ≠ 0x4D494737 ∨ fieldBE b 4 2 ≠ 1 ∨ toBlock (slice b 0x18 16) ≠ Config.deviceId ∨
        fieldBE b 0x38 8 ≠ b.length ∨ fieldBE b 0x30 2 % 4096 ≠ c.toNat ∨ fieldBE b 0x32 1 ≠ pr ∨ serial ≤ s.lastRestored src ∨ p.vf ≠ 0 ∨
        p.deleting.isSome then .none
    else
      match gcmOpen (packKey key src Config.deviceId serial) (packIv serial) (b.take 64) (b.drop 64) with
      | .none => .none
      | some pt =>
        (readSections (pt.length + 1) pt).filter fun secs =>
          secs.all fun x => (x.1 != 2 && x.1 != 3 && x.1 != 4) || (s.laneOf c (fieldBE x.2 0 1)).isSome
  | _, _ => .none

/-! ## The restore (R342) -/

/-- Step 1: a ticket's records. -/
def State.restoreJournal (s : State) (b : Bytes) : State :=
  (chunks 32 (b.drop 16)).foldl (fun s r => s.writeMile (s.mileOf r)) s

/-- Step 2: a lane's settings. -/
def State.restoreLane (s : State) (c : Colour) (b : Bytes) : State :=
  match s.laneOf c (fieldBE b 0 1) with
  | some l =>
    s.setLane l { s.lane l with level := fieldBE b 2 1, overflow := bit (fieldBE b 3 1) 0, quota := fieldBE b 4 4, window := fieldBE b 8 4 }
  | .none => s

/-- Put an item into its lane, in overflow where it finds no room in the pool. -/
def State.forceItem (s : State) (i : Item) : State :=
  let x := s.lane i.desc.lane
  let r := (s.roomFor i.desc.lane i.need).getD (Place.overflow, [])
  ({ s with depot := { s.depot with items := s.depot.items ++ [{ i with place := r.1, cells := r.2 }] } }.setLane i.desc.lane
    { x with enqueued := x.enqueued + 1 }).arrivalWake i.desc.lane

/-- The records of a ticket, as VF.RESTORE re-enters them under the sequence number its item takes here (R264). -/
def State.renumber (s : State) (d : Desc) : State :=
  let f := fun (m : Milestone) =>
    if m.colour == d.colour && m.ticket == d.ticket then { m with seq := d.seq, laneIdx := d.laneIdx, lane := d.lane } else m
  { s with journal := { s.journal with ring := s.journal.ring.map f, spill := s.journal.spill.map f } }

/-- An item enters under its new number: its re-entered records take that number; one that brings no ACCEPTED gets one. -/
def State.reenter (s : State) (d : Desc) (len : Nat) : State :=
  let s := s.renumber d
  let s := if (s.journal.recordsOf d.colour d.ticket).any fun m => m.typ == 1 && m.seq == d.seq then s
    else s.writeMile (s.mile d 1 false true (d.id.extractLsb' 0 11) (d.id.extractLsb' 11 16) (BitVec.ofNat 64 len) s.stamp)
  s.unsettle d

/-- Step 3: a queued item, under a new sequence number. -/
def State.restoreItem (s : State) (c : Colour) (a : RestoreArgs) (b : Bytes) : State :=
  match s.laneOf c (fieldBE b 0 1) with
  | .none => s
  | some l =>
    let id := BitVec.ofNat 32 (fieldBE b 16 4)
    let len := fieldBE b 20 2
    let d : Desc := { ticket := BitVec.ofNat 64 (fieldBE b 8 8), seq := s.depot.seq, colour := c, lane := l, laneIdx := (s.lane l).index,
                      port := a.back.1, session := a.back.2, id := id, len := len, known := isJob id || (s.imageOf c id).isSome,
                      opened := s.openedOf a.back.1 a.back.2, since := s.now }
    let s := { s with depot := { s.depot with seq := s.depot.seq + 1 } }
    (s.reenter d len).forceItem
      { desc := d, payload := slice b 24 len, stream := .none, cells := [], units := 0, place := .pool, since := s.now, suspended := .none,
        migrated := false }

/-- A key slot from its 112 bytes. -/
def slotOf (b : Bytes) : Option Slot :=
  let f := fieldBE b 0 1
  let w := fieldBE b 8 8
  let e := fieldBE b 20 2
  if !bit f 7 then .none
  else
    let a : KeyAttrs := { ktype := BitVec.ofNat 8 (fieldBE b 1 1), colour := BitVec.ofNat 12 (w / 2 ^ 20), gen := BitVec.ofNat 8 (w / 2 ^ 12),
                          libOnly := bit w 49, engine := BitVec.ofNat 6 e, derivedEngine := BitVec.ofNat 6 (e / 256),
                          usage := BitVec.ofNat 16 (fieldBE b 16 2), derivedUsage := BitVec.ofNat 16 (fieldBE b 18 2),
                          param := BitVec.ofNat 16 (fieldBE b 22 2), notBefore := BitVec.ofNat 48 (fieldBE b 24 6),
                          notAfter := BitVec.ofNat 48 (fieldBE b 30 6) }
    some { key := { attrs := a, material := slice b 48 (fieldBE b 2 1) }, vendorLoaded := bit f 5, libOnly := bit f 6, returned := bit f 4,
           serial := BitVec.ofNat 64 (fieldBE b 40 8) }

/-- A return-stack entry from its 8 bytes; the waymark of its frame is not carried (free). -/
def frameOf (w : BitVec 11) (b : Bytes) : Frame :=
  let v := fieldBE b 0 8
  { isGate := bit v 32, world := if bit v 33 then .vendor else .tenant, waymark := w, retPc := BitVec.ofNat 32 v }

/-- A digest context from Table 10.12. -/
def digestOf (b : Bytes) (flags : Nat) (vendor : Bool) : Option DigestCtx :=
  (DigestCtx.ofBytes b vendor).map fun x =>
    { x.1 with digest := if bit flags 0 then some (x.1.st.take (algLen x.1.alg.toNat)) else .none, compared := bit flags 1 }

/-- A seat from its 17,104 bytes, bound to an image of this device. -/
def seatOf (b : Bytes) (d : Desc) (x : Image) (w : BitVec 11) (last : BitVec 11) : Seat :=
  let vendor := bit (fieldBE b 0x184 1) 7
  let base := dramBase + granuleAddr x.granule
  { Seat.empty with
    phase := .ready, started := true, atYield := true, desc := d,
    g := Vector.ofFn fun i => if 1 ≤ i.val ∧ i.val ≤ 30 then BitVec.ofNat 64 (fieldBE b (8 * (i.val - 1)) 8) else 0,
    sp := BitVec.ofNat 64 (fieldBE b 0xF0 8), vsp := BitVec.ofNat 64 (fieldBE b 0xF8 8),
    b := Vector.ofFn fun i => toBlock (slice b (0x100 + 16 * i.val) 16),
    k := Vector.ofFn fun i => slotOf (slice b (0x350 + 112 * i.val) 112),
    pc := BitVec.ofNat 32 (fieldBE b 0x180 4), world := if vendor then .vendor else .tenant, waymark := w,
    stack := ((chunks 8 (slice b 0x188 (8 * fieldBE b 0x186 1))).map (frameOf w)).reverse,
    cctx := CipherCtx.ofBytes (slice b 0x210 64), dctx := digestOf (slice b 0x250 256) (fieldBE b 0x187 1) vendor,
    trunc := bit (fieldBE b 0x185 1) 0, cycles := fieldBE b 0x208 8, codeBase := base + x.codeOff, codeLen := x.codeLen,
    constBase := base + x.constOff, constLen := x.constLen, version := x.version, steps := x.steps, lastStep := last }

/-- Step 4: a suspended itinerary, ready to resume; without its image version it ends REFUSED (R87). Its message window and the
waymark it runs in are not carried: free values. -/
def State.restoreSeat (s : State) (c : Colour) (a : RestoreArgs) (b : Bytes) : State :=
  match s.laneOf c (fieldBE b 0 1) with
  | .none => s
  | some l =>
    let id := BitVec.ofNat 32 (fieldBE b 16 4)
    let t := BitVec.ofNat 64 (fieldBE b 8 8)
    let d : Desc := { ticket := t, seq := s.depot.seq, colour := c, lane := l, laneIdx := (s.lane l).index, port := a.back.1,
                      session := a.back.2, id := id, len := 0, known := true,
                      opened := s.openedOf a.back.1 a.back.2, since := s.now }
    let s := { s with depot := { s.depot with seq := s.depot.seq + 1 } }
    let steps := (s.journal.recordsOf c t).filter (·.typ == 3)
    let last := (steps.getLast?.map (·.code)).getD 0
    let s := s.reenter d 0
    match (s.imageOf c id).filter fun x => x.version.toNat == fieldBE b 20 4 with
    | .none => (s.hold d true (completionRecord 3 3 false 0 0))
    | some x =>
      let w : BitVec 11 := s.free.setWidth 11
      let s := s.drawn
      let window := s.freeBytes 0x4000
      (s.drawnBytes 0x4000).forceItem
        { desc := d, payload := slice b (24 + 0x6D0) 0x3C00 ++ window, stream := .none, cells := [], units := 0, place := .pool,
          since := s.now, suspended := some (seatOf (b.drop 24) d x w last), migrated := true }

/-- The lane a restored stream feeds: the colour's first of class BULK (the package names none: DESIGN CHOICE). -/
def State.bulkLane (s : State) (c : Colour) : Option Nat := (s.lanesByIndex c).find? fun l => (s.lane l).cls == 3

/-- Step 5: a stream on its return session, going on at its bytes processed. -/
def State.restoreStream (s : State) (c : Colour) (a : RestoreArgs) (b : Bytes) : State :=
  match s.bulkLane c, CipherCtx.ofBytes (slice b 40 64) with
  | some l, some x =>
    let done := fieldBE b 24 8
    let du := fieldBE b 32 2
    let mode := fieldBE b 6 1
    let st : Stream :=
      { port := a.back.1, session := a.back.2, id := BitVec.ofNat 32 (fieldBE b 0 4), lane := l, mode := mode, decrypt := fieldBE b 7 1 == 1,
        tdes := x.ktype == 3, dataUnit := du, handle1 := BitVec.ofNat 64 (fieldBE b 8 8), handle2 := BitVec.ofNat 64 (fieldBE b 16 8),
        key1 := [], key2 := [], start := if mode = 8 then BitVec.ofNat 128 (x.ctrB.toNat - done / du) else x.chain, received := done,
        processed := done, short := false, chain := x.chain, aux := x.aux, pending := [], sizes := [], output := [], sentOff := done,
        closeReq := .none, loading := false, frozen := false, te := .none, announced := true }
    let pt := s.port st.port
    s.setPort st.port { pt with streams := pt.streams ++ [st] }
  | _, _ => s

/-- The restore, its journal bracket around it: the VF serves the colour, the windows open. -/
def State.restore (s : State) (c : Colour) (a : RestoreArgs) (b : Bytes) (secs : List (Nat × Bytes)) : State :=
  let of := fun (t : Nat) => (secs.filter fun x => x.1 == t).map Prod.snd
  let src := toBlock (slice b 8 16)
  let serial := BitVec.ofNat 64 (fieldBE b 0x28 8)
  let f := (of 1).head?.getD []
  let s := { s with pcie := { s.pcie with restored := (src, serial) :: s.pcie.restored.filter fun x => x.1 != src } }
  let s := match s.part? c with
    | some p => s.setPart c { p with vf := a.fn, vectors := fieldBE f 2 1, share := fieldBE f 3 1, vaultQuota := fieldBE f 16 4 }
    | .none => s
  let s := s.modFunc a.fn fun x => { x with state := .restoring, colour := c, vectors := fieldBE f 2 1 }
  let s := (of 7).foldl State.restoreJournal s
  let s := (of 2).foldl (fun s x => s.restoreLane c x) s
  let s := (of 3).foldl (fun s x => s.restoreItem c a x) s
  let s := (of 4).foldl (fun s x => s.restoreSeat c a x) s
  let s := (of 6).foldl (fun s x => s.restoreStream c a x) s
  (s.modFunc a.fn fun x => { x with state := .active }).creditColour c

/-- Whether a return session is a session of the colour, or none. -/
def State.returnOk (s : State) (c : Colour) (p n : Nat) : Bool :=
  n == 0 || ((s.port p).sessions.find? n).any fun x => x.colour == c && !x.closing

/-- Forget the pieces staged for a function. -/
def State.unstage (s : State) (fn : Nat) : State := s.modFunc fn fun f => { f with staged := [], stagedLast := (0, []), stagedTotal := 0 }

/-- The last piece has come: the checks of R342, then the restore. -/
def State.restoreAll (s : State) (sp : Spec) (c : Cmd) (a : RestoreArgs) (b : Bytes) : State :=
  match s.openPackage c.colour b with
  | .none => (s.unstage a.fn).reject c 0x0501
  | some secs =>
    let f := ((secs.find? fun x => x.1 == 1).map Prod.snd).getD []
    if 1984 < fieldBE f 2 1 + s.sumParts (·.vectors) then (s.unstage a.fn).reject c cExhausted
    else
      let s := s.modFunc a.fn fun x => { x with staged := [] }
      answer c (((s.begin sp c).cmdAccepted c sp.op).configured c fun s => s.restore c.colour a b secs) sp []

/-- VF.RESTORE: pieces in order, the restore at the last (R342, R355). -/
def execVfRestore (c : Cmd) (s : State) : Res :=
  let b := c.body
  let a : RestoreArgs := { fn := fieldLE b 0 2, sess0 := fieldLE b 4 2, sess1 := fieldLE b 6 2 }
  let off := fieldLE b 8 8
  let total := fieldLE b 16 8
  let piece := b.drop 24
  runCmd 0x0307 c (decide (24 ≤ b.length) && zeroAt b 2 2) s fun sp s =>
    let f := s.func a.fn
    if a.fn = 0 ∨ 1023 < a.fn ∨ 16777216 < piece.length ∨ (a.sess0 = 0 ∧ a.sess1 = 0) then s.reject c cInvalid
    else if 0 < f.stagedTotal ∧ f.stagedTotal = total ∧ f.stagedLast = (off, piece) then
      answer c ((s.begin sp c).cmdAccepted c sp.op) sp []
    else if f.state ≠ .unassigned then s.reject c cBadState
    else if !s.returnOk c.colour 0 a.sess0 || !s.returnOk c.colour 1 a.sess1 then s.reject c cNotFound
    else if off ≠ f.staged.length ∨ (0 < f.staged.length ∧ total ≠ f.stagedTotal) ∨ total < off + piece.length ∨ piece.isEmpty then
      s.reject c cInvalid
    else if off = 0 ∧ Config.stagingFree < total then s.reject c cExhausted
    else
      let s := s.modFunc a.fn fun f => { f with staged := f.staged ++ piece, stagedLast := (off, piece), stagedTotal := total }
      let whole := (s.func a.fn).staged
      if whole.length < total then answer c ((s.begin sp c).cmdAccepted c sp.op) sp [] else s.restoreAll sp c a whole

end Sys2Proof.Machine
end

