-- ==== Sys2Proof/Machine/Clock.lean ====
section
/-! DEFINITION. The milepost counter and the timing port (chapter 13): the counter's run, quality and validity, holdover, best
master, the servo, PPS, TIME.STATUS and TIME.CONFIG. -/

namespace Sys2Proof.Machine

/-- Change the time. -/
def State.modTime (s : State) (f : Time → Time) : State := { s with time := f s.time }

/-! ## The counter (R389, R402) -/

/-- Add an amount in steps of 2^-40 ns; answers whether the nanoseconds carried into seconds. -/
def Time.add (t : Time) (n : Nat) : Time × Bool :=
  let x := (t.nanos.toNat * 2 ^ 16 + t.frac.toNat) * 2 ^ 24 + t.sub + n
  let whole := x / 2 ^ 40
  ({ t with secs := t.secs + BitVec.ofNat 48 (whole / 1000000000), nanos := BitVec.ofNat 32 (whole % 1000000000),
            frac := BitVec.ofNat 16 (x / 2 ^ 24), sub := x % 2 ^ 24 }, decide (1000000000 ≤ whole))

/-- A second boundary: a change of the PPS_OUT enable takes effect, and PPS_OUT rises when enabled and valid. -/
def State.secondBoundary (s : State) : State :=
  let s := s.modTime fun t => { t with ppsEnable := t.ppsPending.getD t.ppsEnable, ppsPending := .none }
  if s.time.ppsEnable ∧ s.time.valid then (s.modTime fun t => { t with ppsOut := true }).emit (.pps true) else s

/-- Time passes: what is busy on each cluster counts toward its utilisation (Table 3.5). -/
def State.pass (s : State) (n : Nat) : State :=
  { s with now := s.now + n, clusters := s.clusters.map fun p => (p.1, { p.2 with busyNs := p.2.busyNs + n * s.busyUnits p.1 }) }

/-- One cycle of the 1 GHz clock (log entry 3): the counter stands at 0 while PORST_N is asserted. -/
def State.clockCycle (s : State) : State :=
  let s := s.pass 1
  if s.power.porst then s
  else
    let r := s.time.add s.time.rate
    let s := { s with time := r.1 }
    if r.2 then s.secondBoundary else s

/-- MILEPOST_SECOND: the counter runs to its next second. -/
def execMilepostSecond (s : State) : Res :=
  .next (if s.power.porst then s
    else
      let left := 1000000000 - s.time.nanos.toNat
      let s := s.pass left
      (s.modTime fun t => { t with secs := t.secs + 1, nanos := 0, frac := 0, sub := 0 }).secondBoundary)

/-- PPS_OUT_FALL. -/
def execPpsOutFall (s : State) : Res :=
  .next (if s.time.ppsOut then (s.modTime fun t => { t with ppsOut := false }).emit (.pps false) else s)

/-! ## Changes of quality (Table 13.3, R395) -/

/-- The servo's starting point: bandwidth 1/8, no run of offsets (R401). -/
def Time.restartLoop (t : Time) : Time := { t with band := 8, bandRun := 0, usable := 0, goodRun := 0, badRun := 0 }

/-- 2^-40 ns steps per cycle of a correction of some ppm. -/
def ppmSteps (n : Nat) : Nat := 2 ^ 40 * n / 1000000

/-- The frequency correction limited to some ppm (R401). -/
def Time.limited (t : Time) (ppm : Nat) : Time :=
  let lim : Int := ppmSteps ppm
  let c := max (-lim) (min lim t.correction)
  { t with correction := c, rate := (2 ^ 40 + c).toNat }

/-- Enter INVALID: outside ACQUIRING the correction is at most 100 ppm (R401). -/
def Time.toInvalid (t : Time) : Time := { t.limited 100 with quality := .invalid, slewing := false, ppsQualified := false, ppsGood := 0 }

/-- Enter ACQUIRING. -/
def Time.toAcquiring (t : Time) : Time := { t.restartLoop with quality := .acquiring, slewing := false, ppsQualified := false, ppsGood := 0 }

/-- The mean of the last absolute offsets. -/
def Time.meanOffset (t : Time) : Nat := if t.lastOffsets.isEmpty then 0 else t.lastOffsets.sum / t.lastOffsets.length

/-- Enter HOLDOVER: the correction stays as it was, the error estimate starts. -/
def Time.toHoldover (t : Time) : Time :=
  { t with quality := .holdover, e := t.meanOffset, eSince := t.ns, holdSince := t.ns, slewing := false, usable := 0, goodRun := 0,
           badRun := 0, activeSource := if t.source = 1 ∧ t.ref10m then 1 else 0 }

/-- Enter LOCKED. -/
def Time.toLocked (t : Time) : Time := { t with quality := .locked, slewing := false, badRun := 0, ppsGood := 0 }

/-- Leave LOCKED. -/
def Time.unlock (t : Time) : Time := if t.quality = .locked then t.toHoldover else t

/-- Fold what the estimate has grown so far into its start, before its growth changes. -/
def Time.foldEstimate (t : Time) : Time := { t with e := t.estimate, eSince := t.ns }

/-! ## Masters (R393, R398) -/

/-- The better of two masters; the dataset comparison of clause 9.3 is the operand's order, lower being better. -/
def betterMaster (a b : Master) : Master := if b.dataset < a.dataset ∨ (b.dataset = a.dataset ∧ b.ident < a.ident) then b else a

/-- The best of the masters heard twice. -/
def Time.bestMaster (t : Time) : Option Word :=
  match t.masters.filter fun m => decide (2 ≤ m.announces) with
  | [] => .none
  | m :: r => some (r.foldl betterMaster m).ident

/-- Select the best master; a change of the selected one leaves LOCKED and restarts the loop. -/
def Time.select (t : Time) : Time :=
  let b := t.bestMaster
  if b = t.selected then t
  else
    let t := { t.unlock.restartLoop with selected := b, sync := .none, delay := .none, ms := .none, t3 := .none, pdelayResp := .none }
    match b, t.quality with
    | some _, .invalid => t.toAcquiring
    | .none, .acquiring => t.toInvalid
    | _, _ => t

/-- Count a dropped or ignored frame under a row of Table 13.8. -/
def State.ptpDrop (s : State) (row : Nat) : State :=
  (s.modTime fun t => { t with drops := t.drops.set row (t.drops.get row 0 + 1) }).count 300 row

/-- The header checks of Table 13.8, in its order: the row that drops a message. -/
def Time.ptpBad (t : Time) (m : PtpMsg) : Option Nat :=
  if !m.frameOk then some 0
  else if !m.lengthOk ∨ m.version ≠ 2 ∨ m.majorSdo ≠ 0 then some 1
  else if m.domain ≠ t.domain then some 2
  else .none

/-- A received PTP message: nothing while the port is silent, dropped by its header, else its effect. -/
def ptpRow (m : PtpMsg) (s : State) (f : State → State) : Res :=
  .next (if !s.time.running then s
    else match s.time.ptpBad m with
      | some row => s.ptpDrop row
      | .none => f s)

/-- ANNOUNCE. -/
def execAnnounce (m : PtpMsg) (s : State) : Res :=
  ptpRow m s fun s =>
    if !m.ptpTimescale then
      (s.ptpDrop 8).modTime fun t => ({ t with masters := t.masters.filter fun (x : Master) => x.ident != m.source } : Time).select
    else s.modTime fun t =>
      let seen := (t.masters.find? fun (x : Master) => x.ident == m.source).map (·.announces)
      let x : Master := { ident := m.source, dataset := m.dataset, announces := seen.getD 0 + 1 }
      ({ t with masters := (t.masters.filter fun (y : Master) => y.ident != m.source) ++ [x] } : Time).select

/-- ANNOUNCE_RECEIPT_TIMEOUT: the selected master is forgotten. -/
def execAnnounceReceiptTimeout (s : State) : Res :=
  .next (match s.time.selected with
    | some i => s.modTime fun t => ({ t with masters := t.masters.filter fun (x : Master) => x.ident != i } : Time).select
    | .none => s)

/-- SYNC_LOSS_TIMEOUT. -/
def execSyncLossTimeout (s : State) : Res := .next (s.modTime Time.unlock)

/-- TIMING_LINK_DOWN: no master is reached any more. -/
def execTimingLinkDown (s : State) : Res := .next (s.modTime fun t => { t.unlock with masters := [] }.select)

/-- HOLDOVER_ESTIMATE_EXCEEDED. -/
def execHoldoverEstimateExceeded (s : State) : Res :=
  .next (if s.time.quality = .holdover ∧ s.time.selected = .none ∧ 1000000 < s.time.estimate then s.modTime Time.toInvalid else s)

/-! ## The servo (R392, R393, R401) -/

/-- The servo's next correction: its gains the manual does not give, so it is a free value within its limit (R401). -/
def State.steer (s : State) : State :=
  let lim := ppmSteps (if s.time.quality = .acquiring then 500 else 100)
  let c : Int := (s.free.toNat % (2 * lim + 1) : Nat) - (lim : Int)
  s.drawn.modTime fun t => { t with correction := c, rate := (2 ^ 40 + c).toNat }

/-- Step the counter by an offset to the master (R393): what was measured before is of no use after. -/
def Time.step (t : Time) (off : Int) : Time :=
  let n := ((t.ns : Int) - off).toNat
  { t with secs := BitVec.ofNat 48 (n / 1000000000), nanos := BitVec.ofNat 32 (n % 1000000000), frac := 0, sub := 0, ms := .none,
           t3 := .none, sync := .none, pdelay := .none, pdelayResp := .none, lastOffsets := [], offset := 0 }

/-- The bandwidth after an offset: half after 16 in a row below four times the RMS of the last ones, at least 1/256. -/
def Time.narrow (t : Time) (a : Nat) : Time :=
  let sq := (t.lastOffsets.map fun x => x * x).sum
  if a * a * t.lastOffsets.length < 16 * sq then
    if 15 ≤ t.bandRun then { t with band := min 256 (2 * t.band), bandRun := 0 } else { t with bandRun := t.bandRun + 1 }
  else { t with bandRun := 0 }

/-- Take a usable offset into the record of the last 16, and into the run of small ones. -/
def Time.record (t : Time) (off : Int) : Time :=
  let a := off.natAbs
  let t := t.narrow a
  { t with offset := off, usable := t.usable + 1, badRun := 0, goodRun := if a ≤ 100 then t.goodRun + 1 else 0,
           lastOffsets := (a :: t.lastOffsets).take 16 }

/-- A usable offset (Table 13.3). The loop's prediction in LOCKED is a free value. -/
def State.usableOffset (s : State) (off : Int) : State :=
  let t := s.time
  let a := off.natAbs
  let lockIf := fun (s : State) => if 16 ≤ s.time.goodRun then s.modTime Time.toLocked else s
  match t.quality with
  | .invalid => s
  | .acquiring =>
    if t.usable = 0 ∧ 1000 < a then (s.modTime fun t => { t.step off with usable := 1, goodRun := 0 }).steer
    else (lockIf (s.modTime fun t => t.record off)).steer
  | .locked =>
    if 1000 < (off - s.free.toInt).natAbs then
      let s := (s.drawn.modTime fun t => { t with outliers := t.outliers + 1, badRun := t.badRun + 1 }).count 300 10
      if 16 ≤ s.time.badRun then s.modTime Time.toHoldover else s
    else (s.drawn.modTime fun t => t.record off).steer
  | .holdover =>
    if t.usable = 0 ∧ 1000000 < a then s.modTime Time.toAcquiring
    else (lockIf (s.modTime fun t => { t.record off with slewing := true })).steer

/-- A master-to-slave difference: the offset it forms, once a path delay not older than 16 exchanges is known. -/
def State.gotDifference (s : State) (d : Int) : State :=
  let s := s.modTime fun t => { t with ms := some d, sync := .none }
  match s.time.delay with
  | some p => if s.time.delayAge ≤ 16 then s.usableOffset (d - p) else s
  | .none => s

/-- The nanoseconds of a message interval. -/
def intervalNs (log : Int) : Nat := if 0 ≤ log then 1000000000 * 2 ^ log.toNat else 1000000000 / 2 ^ (-log).toNat

/-- SYNC. -/
def execSync (m : PtpMsg) (s : State) : Res :=
  ptpRow m s fun s =>
    if s.time.selected ≠ some m.source then s
    else if m.twoStep then s.modTime fun t => { t with sync := some m }
    else s.gotDifference ((m.rxNs : Int) - m.originNs - m.correction)

/-- FOLLOW_UP. -/
def execFollowUp (m : PtpMsg) (s : State) : Res :=
  ptpRow m s fun s =>
    if s.time.selected ≠ some m.source then s
    else match s.time.sync with
      | some y =>
        if y.sequence = m.sequence ∧ m.rxNs ≤ y.rxNs + intervalNs y.logInterval then
          s.gotDifference ((y.rxNs : Int) - m.originNs - y.correction - m.correction)
        else s.ptpDrop 4
      | .none => s.ptpDrop 4

/-! ## Path delay (R398, R399) -/

/-- The port's clockIdentity. -/
def clockIdentity : Word := BitVec.ofNat 64 (2 * 2 ^ 56 + Config.deviceId.toNat % 2 ^ 56)

/-- The port's source MAC address (R399). -/
def portMac : BitVec 48 := BitVec.ofNat 48 (2 * 2 ^ 40 + Config.deviceId.toNat % 2 ^ 40)

/-- Send a PTP message of a type: from the port's address, clockIdentity and portNumber 1 (R399). -/
def State.sendPtp (s : State) (typ : Nat) (seq : BitVec 16) (ns : Nat) (requester : Word) : State :=
  s.emit (.ptp portMac clockIdentity 1 typ seq ns requester)

/-- A measured path delay. -/
def State.gotDelay (s : State) (d : Int) : State := s.modTime fun t => { t with delay := some d.toNat, delayAge := 0 }

/-- DELAY_REQ_SEND. -/
def execDelayReqSend (s : State) : Res :=
  .next (if s.time.running ∧ !s.time.peer ∧ s.time.selected.isSome then
      let q := s.time.seqOut + 1
      let at_ := s.time.ns
      (s.modTime fun t => { t with seqOut := q, t3 := some (q, at_), delayAge := t.delayAge + 1 }).sendPtp 1 q at_ 0
    else s)

/-- DELAY_RESP. -/
def execDelayResp (m : PtpMsg) (s : State) : Res :=
  ptpRow m s fun s =>
    if m.requester ≠ clockIdentity ∨ s.time.selected ≠ some m.source ∨ s.time.peer then s
    else match s.time.t3, s.time.ms with
      | some (q, t3), some d =>
        if q = m.sequence then (s.gotDelay ((d + ((m.originNs : Int) - m.correction - t3)) / 2)).modTime fun t => { t with t3 := .none } else s
      | _, _ => s

/-- PDELAY_REQ_SEND. -/
def execPdelayReqSend (s : State) : Res :=
  .next (if s.time.running ∧ s.time.peer then
      let q := s.time.seqOut + 1
      let at_ := s.time.ns
      (s.modTime fun t => { t with seqOut := q, pdelay := some (q, at_), pdelayResp := .none, delayAge := t.delayAge + 1 }).sendPtp 2 q at_ 0
    else s)

/-- PDELAY_REQ: answered two-step in peer operation, with the times of receipt and of the answer. -/
def execPdelayReq (m : PtpMsg) (s : State) : Res :=
  ptpRow m s fun s =>
    if s.time.peer then (s.sendPtp 3 m.sequence m.rxNs m.source).sendPtp 10 m.sequence s.time.ns m.source else s

/-- PDELAY_RESP: a two-step response waits for its follow-up, which the same row brings; a one-step response carries the turnaround
in its correction. -/
def execPdelayResp (m : PtpMsg) (s : State) : Res :=
  ptpRow m s fun s =>
    if m.requester ≠ clockIdentity ∨ !s.time.peer then s
    else match s.time.pdelay with
      | some (q, t1) =>
        if q ≠ m.sequence then s
        else if m.twoStep then s.modTime fun t => { t with pdelayResp := some (((m.originNs : Int) + m.correction).toNat, m.rxNs) }
        else
          let s' := s.modTime fun t => { t with pdelay := .none, pdelayResp := .none }
          match s.time.pdelayResp with
          | some (t2, t4) => s'.gotDelay (((t4 : Int) - t1 - ((m.originNs : Int) + m.correction - t2)) / 2)
          | .none => s'.gotDelay (((m.rxNs : Int) - t1 - m.correction) / 2)
      | .none => s

/-! ## Holdover inputs (R396, R397) -/

/-- REF10M_LOST. -/
def execRef10mLost (s : State) : Res :=
  .next (if s.time.source = 1 ∧ s.time.ref10m then
      (s.modTime fun t => { t.foldEstimate with ref10m := false, activeSource := 0 }).fault 0 0x24 (srcHub 0x11) 0
    else s)

/-- How far the counter stands from a second boundary. -/
def Time.offBoundary (t : Time) : Nat := min t.nanos.toNat (1000000000 - t.nanos.toNat)

/-- PPS_IN loses its qualification; from then the estimate grows. -/
def Time.unqualify (t : Time) : Time := { t.foldEstimate with ppsQualified := false, ppsGood := 0 }

/-- PPS_IN_EDGE. -/
def execPpsInEdge (s : State) : Res :=
  let d := s.time.offBoundary
  let s := s.modTime fun t => { t with ppsIn := t.ns, ppsMissed := 0 }
  .next (match s.time.quality with
    | .locked =>
      s.modTime fun t =>
        if 1000 < d then t.unqualify
        else
          let n := if d ≤ 100 then t.ppsGood + 1 else 0
          { t with ppsGood := n, ppsQualified := t.ppsQualified || decide (60 ≤ n) }
    | .holdover =>
      if !s.time.ppsQualified then s
      else if 1000 < d then s.modTime Time.unqualify
      else s.steer
    | _ => s)

/-- PPS_IN_MISSED: the second edge in a row is missed. -/
def execPpsInMissed (s : State) : Res := .next (s.modTime fun t => { t.unqualify with ppsMissed := 2 })

/-! ## Commands (R405, Table 11.7) -/

/-- A signed value in 4 bytes. -/
def intLE4 (v : Int) : Bytes := natLE 4 (v % 2 ^ 32).toNat

/-- The qualities by number. -/
def Quality.code (q : Quality) : Nat :=
  match q with
  | .invalid => 0
  | .acquiring => 1
  | .locked => 2
  | .holdover => 3

/-- TIME.STATUS. -/
def execTimeStatus (c : Cmd) (s : State) : Res :=
  runCmd 0x0A01 c c.body.isEmpty s fun sp s =>
    let t := s.time
    let held := t.quality == .holdover
    answer c s sp (natLE 1 t.quality.code ++ [0, 0, 0] ++ natLE 8 t.secs.toNat ++ natLE 4 t.nanos.toNat ++ natLE 2 t.frac.toNat ++ [0, 0] ++
      intLE4 (if held ∧ t.selected.isNone then (t.estimate : Int) else t.offset) ++ natLE 4 (t.delay.getD 0) ++
      natLE 8 ((t.selected.map BitVec.toNat).getD 0) ++ natLE 4 (if held then (t.ns - t.holdSince) / 1000000000 else 0) ++ List.replicate 8 0)

/-- Restart master selection in another domain or with another mechanism. -/
def Time.reselect (t : Time) (domain : Nat) (peer : Bool) : Time :=
  let t' := if t.valid then (if t.quality = .holdover then t else t.toHoldover) else t.toInvalid
  { t'.restartLoop with domain := domain, peer := peer, masters := [], selected := .none, sync := .none, delay := .none, ms := .none,
                        t3 := .none, pdelay := .none, pdelayResp := .none, slewing := false }

/-- Change the holdover source: at once in HOLDOVER, without a step. Selecting REF10M_IN takes it as present. -/
def Time.useSource (t : Time) (n : Nat) : Time :=
  let t := { t with source := n, ref10m := n == 1 }
  if t.quality = .holdover then { t.foldEstimate with activeSource := n } else t

/-- TIME.CONFIG. -/
def execTimeConfig (c : Cmd) (s : State) : Res :=
  let b := c.body
  let dom := fieldLE b 0 1
  let mech := fieldLE b 1 1
  let pps := fieldLE b 2 1
  let src := fieldLE b 3 1
  runCmd 0x0A02 c (b.length == 8 && zeroAt b 4 4) s fun sp s =>
    if 127 < dom ∨ 1 < mech ∨ 1 < pps ∨ 1 < src then s.reject c cInvalid
    else
      let peer := mech == 1
      let s := if dom ≠ s.time.domain ∨ peer ≠ s.time.peer then s.modTime fun t => t.reselect dom peer else s
      let s := if src ≠ s.time.source then s.modTime fun t => t.useSource src else s
      answer c (s.modTime fun t => { t with ppsPending := some (pps == 1) }) sp []

end Sys2Proof.Machine
end

