-- ==== Sys2Proof/Machine/Tamper.lean ====
section
/-! DEFINITION. Tamper sources, alarms and responses, the backup domain's evidence and configuration, the shadow checks
(chapter 16, R446-R462). -/

namespace Sys2Proof.Machine

/-- Change a tamper source. -/
def State.modSource (s : State) (n : Nat) (f : Source → Source) : State := s.setSource n (f (s.source n))

/-- Change the backup domain. -/
def State.modTamper (s : State) (f : Tamper → Tamper) : State := { s with tamper := f s.tamper }

/-- Whether the Hub has main power; without it the backup domain acts alone on VBAT (R449). -/
def State.mainPower (s : State) : Bool := !s.power.vinOff

/-! ## Clearing (R80, R157, R213, R245, Table 14.4) -/

/-- Take every tenant lane to SQUASHING for a cause; a lane already leaving for a deletion or an instance reset keeps its own
cause (Table 3.3). -/
def State.squashTenants (s : State) (cause : LaneCause) : State :=
  s.tenantLanes.foldl (fun s l =>
    let x := s.lane l
    match x.state with
    | .closed => s
    | _ =>
      let keep := x.cause == LaneCause.deletion || x.cause == LaneCause.instanceReset
      s.squashLane l (if keep then x.cause else cause)) s

/-- Every seat, MAE job and suspended item ends without a response, ENDED 0x04 (R80, Table 8.5). -/
def State.endAllWork (s : State) : State :=
  let us := (s.seats.filter fun p => p.2.phase != Phase.empty).map fun p => seatOfKey p.1
  let s := us.foldl (fun s u => s.killSeat u 4) s
  let js := s.clusters.flatMap fun q => (q.2.mae.running.toList ++ q.2.mae.saved).map fun (j : MaeJob) => j.desc
  let s := { s with clusters := s.clusters.mapVals fun c => { c with mae := { c.mae with running := .none, saved := [] } } }
  let s := (js ++ s.depot.own.map (·.desc)).foldl (fun s d => s.jobLost d 4) { s with depot := { s.depot with own := [] } }
  let tenant := s.tenantLanes
  let s := s.discardItems (fun i => i.suspended.isSome || tenant.contains i.desc.lane) 4
  let s := { s with depot := { s.depot with packages := [] } }
  ((s.streams).map Stream.key).foldl State.abortStream s

/-- The VPUTs whose VAULT_PUT has not been sent are abandoned (R245). -/
def State.abandonPuts (s : State) : State :=
  let unsent := fun (o : VaultOp) => o.isPut && (match o.stage with
    | .putting _ => false
    | .stored => false
    | _ => true)
  let gone := s.vault.ops.filter unsent
  let s := s.modVault fun v => { v with ops := v.ops.filter fun (o : VaultOp) => !unsent o }
  gone.foldl (fun s o => s.vaultReply o 4 0 .none) s

/-- The kettle's pool and credit are cleared, and every expander's state (Table 14.4). -/
def State.clearEntropy (s : State) : State :=
  let fresh := fun (x : Expander) => { Expander.fresh with waiting := x.waiting, katFailed := x.katFailed }
  let asked := ([36] ++ s.clusters.keys).filter fun e => !(s.expander e).waiting.isEmpty || e == 36
  { s with entropy := { s.entropy with pool := 0, credit := 0, hub := fresh s.entropy.hub, hubDrawn := false,
                                        draws := (asked.map Draw.expander) ++ s.entropy.draws.filter fun d => match d with
                                          | .direct _ => true
                                          | .expander _ => false },
           clusters := s.clusters.mapVals fun c => { c with drbg := fresh c.drbg } }

/-- What ERASE_SESSION and ERASE_ALL both clear: the work of every engine, the caddy, slots and contexts, key tables, the transfer
key, kettle and expanders; the card slots are deactivated. -/
def State.eraseSession (s : State) : State :=
  let s := s.endAllWork
  let s := (s.squashTenants .tamper).abandonPuts
  let s := (List.range 36).foldl (fun s c => if s.clusters.has c then s.zeroise c else s) s
  let s := { s with keys := { s.keys with caddy := [], partKeys := [] } }.fillFixed s.colours
  let s := (s.clearEntropy.cardOff 0).cardOff 1
  s.abortCeremony

/-- ERASE_ALL: the session, the BBK with the roots formed from it, the vault root (R213, R245, R452). -/
def State.eraseAll (s : State) : State :=
  let s := s.eraseSession.vaultLost
  let s := { s with keys := { s.keys with bbk := .none, fbr := .none, devWrap := .none, devBind := .none, partKeys := [], caddy := [] } }
  s.setEventAll 6

/-! ## Alarms and responses (R450-R456) -/

/-- The class and kind of the fault a rank raises (Table 16.4). -/
def rankFault (r : Nat) : Nat × Byte :=
  match r with
  | 1 => (4, 0x60)
  | 2 => (2, 0x61)
  | 3 => (3, 0x62)
  | _ => (0, 0x63)

/-- The detail of an alarm's fault (Table 16.5). -/
def State.alarmDetail (s : State) (a : Alarm) : Word :=
  let x := s.source a.source
  BitVec.ofNat 64 (a.source * 2 ^ 56 + a.rank * 2 ^ 48 + x.cfg.n * 2 ^ 40 + a.events * 2 ^ 32 +
    (if a.source = 0 then a.nets.toNat else 0) * 2 ^ 24 + b2n a.multi * 2 ^ 17 + x.count.toNat % 65536)

/-- The rank executed for alarms of a rank (R454, Table 16.5): an ERASE_ALL already executed contains ERASE_SESSION and RECORD. -/
def executedFor (done : List Nat) (r : Nat) : Nat := if (r == 2 || r == 4) && done.contains 1 then 1 else r

/-- The fault of each alarm of a response, recorded in full (R452, R459). -/
def State.reportAlarms (s : State) (as : List Alarm) : State :=
  as.foldl (fun s a => s.fault (rankFault a.rank).1 (rankFault a.rank).2 (srcHub 0x0F) (s.alarmDetail a)) s

/-- The response in progress reports its alarms: it completes, or a more severe one takes over. -/
def State.reportCurrent (s : State) : State :=
  (s.reportAlarms s.tamper.current).modTamper fun t => { t with current := [] }

/-- What a rank's response does: an erasure is one more bit of the HX3-compatible counter (R452, R461). -/
def State.executeRank (s : State) (r : Nat) : State :=
  let counted := fun (s : State) => s.modTamper fun t => { t with hx3 := min 256 (t.hx3 + 1) }
  match r with
  | 1 => counted s.eraseAll
  | 2 => counted s.eraseSession
  | 3 => ((s.cardOff 0).cardOff 1).abortCeremony
  | _ => s

/-- Execute a rank's response unless one already executed contains it. An erasure reports its alarms as it completes, the others at
once (Table 16.10). -/
def State.respond (s : State) (r : Nat) (as : List Alarm) : State :=
  let x := executedFor s.tamper.done r
  let held := x != r || s.tamper.done.contains r
  let as := as.map fun (a : Alarm) => { a with rank := x }
  let s := as.foldl (fun s a => s.modSource a.source fun y => { y with lastRank := x }) s
  let s := if held then s else s.executeRank r
  let s := s.modTamper fun t => { t with running := some r, done := r :: t.done, current := as }
  if held || decide (3 ≤ r) then s.reportCurrent else s

/-- The most severe rank that waits. -/
def Tamper.nextRank (t : Tamper) : Option Nat :=
  t.waiting.foldl (fun a (x : Alarm) => match a with
    | some r => some (min r x.rank)
    | .none => some x.rank) .none

/-- The next response begins: at once when none runs or the running one is less severe, else it waits (R454). -/
def State.nextResponse (s : State) : State :=
  match s.tamper.nextRank with
  | .none => s
  | some r =>
    if s.tamper.running.any (· ≤ r) then s
    else
      let as := s.tamper.waiting.filter fun (a : Alarm) => a.rank == r
      (s.reportCurrent.modTamper fun t => { t with waiting := t.waiting.filter fun (a : Alarm) => a.rank != r }).respond r as

/-- An alarm's evidence: flag and count, and with main power the recorder's (R452, R459). -/
def State.alarmEvidence (s : State) (a : Alarm) : State :=
  let s := s.modSource a.source fun x => { x with flag := true, count := x.count + 1, lastRank := a.rank }
  if s.mainPower then s.count 303 (15 + a.rank) else s

/-- An alarm on VBAT alone: ERASE_ALL erases the BBK, HALT is held for the next main power-up (R456). -/
def State.alarmOnBattery (s : State) (a : Alarm) : State :=
  match a.rank with
  | 1 => { s with keys := { s.keys with bbk := .none } }
  | 3 => s.modSource a.source fun x => { x with heldHalt := true }
  | _ => s

/-- The alarms of one decision step (R453, R454, R461). -/
def State.tamperDecide (s : State) (as : List Alarm) : State :=
  if as.isEmpty then s
  else
    let many := as.length.blt 2 == false
    let as := as.map fun (a : Alarm) => { a with multi := many }
    let s := as.foldl State.alarmEvidence s
    let erases := as.any fun (a : Alarm) => a.rank ≤ 2
    if s.mainPower then (s.modTamper fun t => { t with waiting := t.waiting ++ as }).nextResponse
    else
      let s := if erases then s.modTamper fun t => { t with hx3Due := t.hx3Due + 1 } else s
      as.foldl State.alarmOnBattery s

/-- One sample of a source (R450): what its window becomes, and its alarm if it reaches N. -/
def Source.sampled (x : Source) (event : Bool) : Source × Option Nat :=
  if x.armed then
    let w := (event :: x.window).take x.cfg.m
    let n := (w.filter (·)).length
    if event ∧ x.cfg.n ≤ n then ({ x with window := w, armed := false, clean := 0 }, some n) else ({ x with window := w }, .none)
  else if event then ({ x with clean := 0 }, .none)
  else if x.cfg.m ≤ x.clean + 1 then ({ x with armed := true, clean := 0, window := [] }, .none)
  else ({ x with clean := x.clean + 1 }, .none)

/-- Whether a source is sampled now: it exists, and has the power it needs (Table 16.1). -/
def State.sourceLive (s : State) (n : Nat) : Bool := n ≤ 10 && s.tamper.powered && (s.mainPower || (n != 8 && n != 10))

/-- Sample one source; a nonzero reading is an event, for SHIELD with a bit per failing net. -/
def State.sampleSource (s : State) (p : Nat × BitVec 8) : State × Option Alarm :=
  if s.sourceLive p.1 then
    let event := p.2 != 0
    let x := s.source p.1
    let (y, hit) := x.sampled event
    let s := s.setSource p.1 y
    let s := if event && s.mainPower then s.count 303 p.1 else s
    (s, hit.map fun n => { source := p.1, rank := x.cfg.rank, multi := false, nets := p.2, events := n })
  else (s, .none)

/-- Sample the sources of one step and decide their alarms together. -/
def State.sampleAll (s : State) (ps : List (Nat × BitVec 8)) : State :=
  let r := ps.foldl (fun (a : State × List Alarm) p =>
    let (s, x) := a.1.sampleSource p
    (s, a.2 ++ x.toList)) (s, [])
  r.1.tamperDecide r.2

/-- Every source at the defaults of Table 16.1, its window empty (R460, R464). -/
def State.defaultSources (s : State) : State :=
  s.modTamper fun t => { t with sources := (List.range 11).foldl (fun (u : Tbl Source) n =>
    u.set n { (t.sources.get n (Source.default n)) with cfg := SourceCfg.default n, shadow := SourceCfg.default n, window := [] }) t.sources }

/-- Whether a source's configuration differs from its shadow. -/
def State.sourceShadowBad (s : State) : Bool := (List.range 11).any fun n => (s.source n).cfg != (s.source n).shadow

/-- The tamper configuration is compared with its shadow: a mismatch with main power is TAMPER_SHADOW, and every source returns to its
defaults (R462). -/
def State.useSources (s : State) : State :=
  if s.mainPower ∧ s.sourceShadowBad then s.defaultSources.fault 4 0x64 (srcHub 0x0F) 0 else s

/-- SOURCE_SAMPLE: the sampled sources 0-7 whose periods end together. -/
def execSourceSample (samples : List (Nat × BitVec 8)) (s : State) : Res :=
  .next (s.useSources.sampleAll (samples.filter fun p => p.1 ≤ 7))

/-- CONTINUOUS_INTERVAL: a 1 ms interval of the continuous sources 8-10 ends (R446). -/
def execContinuousInterval (samples : List (Nat × BitVec 8)) (s : State) : Res :=
  .next (s.useSources.sampleAll (samples.filter fun p => 8 ≤ p.1 && p.1 ≤ 10))

/-- TAMPER_RESPONSE_DONE: the running response completes; the next rank, or a waiting alarm, begins (R454). -/
def execTamperResponseDone (s : State) : Res :=
  .next (if s.tamper.running.isNone then s
    else
      let s := (s.reportCurrent.modTamper fun t => { t with running := .none }).nextResponse
      if s.tamper.running.isNone then s.modTamper fun t => { t with done := [] } else s)

/-! ## Shadows (R385, R460, R462) -/

/-- The life-cycle decode is compared with its shadow: a mismatch is LC_DECODE (R462). -/
def State.useLifecycle (s : State) : State :=
  if s.lc.shadow != ~~~s.lc.code then s.fault 4 0x65 (srcHub 0x0A) 0 else s

/-- SHADOW_CHECK: with main power each shadowed register that differs raises its grave fault (Table 16.6). A new holder's
verification ends with it (R373, R388). -/
def execShadowCheck (s : State) : Res :=
  .next (if s.mainPower = false then s
    else
      let s := s.useSources
      let s := s.useLifecycle
      let s := if s.steward.epochShadow != ~~~s.steward.epoch then s.fault 4 0x3A (srcHub 0x06) 0 else s
      let s := (List.range 47).foldl State.useGate s
      let s := if s.steward.fenceOk then s else s.fault 4 0x66 (srcHub 0x06) 0
      { s with steward := { s.steward with verifying := false } })

/-- BACKUP_SHADOW_MISMATCH: on VBAT alone the sources return to their defaults and flag 12 is set (R460). -/
def execBackupShadowMismatch (s : State) : Res :=
  .next (if s.mainPower = false ∧ s.tamper.powered then
    s.defaultSources.modTamper fun t => { t with flag12 := true, count12 := t.count12 + 1 }
  else s)

/-! ## Commands (Table 11.3) -/

/-- The sticky flags, one bit per source. -/
def State.stickyFlags (s : State) : Nat :=
  ((List.range 11).map fun n => b2n (s.source n).flag * 2 ^ n).sum + b2n s.tamper.flag11 * 2 ^ 11 + b2n s.tamper.flag12 * 2 ^ 12

/-- The alarm count of a source; 13-15 are reserved. -/
def State.alarmCount (s : State) (n : Nat) : BitVec 32 :=
  if n ≤ 10 then (s.source n).count else if n = 11 then s.tamper.count11 else if n = 12 then s.tamper.count12 else 0

/-- TAMPER.STATUS. -/
def execTamperStatus (c : Cmd) (s : State) : Res :=
  runCmd 0x0D04 c c.body.isEmpty s fun sp s =>
    answer c s sp (natLE 4 s.stickyFlags ++ natLE 2 s.tamper.hx3 ++ [0, 0] ++
      (List.range 16).flatMap fun n => natLE 4 (s.alarmCount n).toNat)

/-- The upper bounds of N and M, and the bounds of the period, of a source (Table 16.1). -/
def sourceBounds (n : Nat) : Nat × Nat × Nat × Nat :=
  if n = 0 then (2, 4, 4, 64)
  else if n ≤ 4 then (8, 16, 4, 1024)
  else if n ≤ 7 then (16, 32, 64, 4096)
  else if n ≤ 9 then (16, 64, 0, 0)
  else (4, 16, 0, 0)

/-- Whether a configuration lies within Table 16.1. -/
def SourceCfg.ok (x : SourceCfg) (n : Nat) : Bool :=
  let b := sourceBounds n
  n ≤ 10 && 1 ≤ x.rank && x.rank ≤ 4 && (n != 0 || x.rank == 1) && 1 ≤ x.n && x.n ≤ b.1 && x.n ≤ x.m && x.m ≤ b.2.1 &&
    b.2.2.1 ≤ x.period && x.period ≤ b.2.2.2

/-- TAMPER.CONFIG (R451): the source's registers, their shadows and the MRAM copy; its window empties. -/
def execTamperConfig (c : Cmd) (s : State) : Res :=
  let b := c.body
  runCmd 0x0D05 c (b.length == 16 && zeroAt b 3 1) s fun sp s =>
    let n := fieldLE b 0 1
    let x : SourceCfg := { rank := fieldLE b 1 1, n := fieldLE b 2 1, m := fieldLE b 4 2, period := fieldLE b 6 2 }
    let auth := s.useAuth 0x0D05 8 b
    if x.ok n = false then (auth.getD s).reject c cInvalid
    else match auth with
      | .none => s.reject c cAuthorisation
      | some s =>
        let s := s.modSource n fun y => { y with cfg := x, shadow := x, window := [] }
        answer c (s.modTamper fun t => { t with mramCfg := t.mramCfg.set n x }) sp []

end Sys2Proof.Machine
end

