-- ==== Sys2Proof/Machine/Lifecycle.lean ====
section
/-! DEFINITION. The life-cycle machine (chapter 16, R463-R468): the word and its decode, transitions with their wipes,
LC.REPROVISION, vendor test mode and functional debug. -/

namespace Sys2Proof.Machine

/-- Change the life-cycle machine. -/
def State.modLc (s : State) (f : Lifecycle → Lifecycle) : State := { s with lc := f s.lc }

/-! ## States (Table 16.7) -/

/-- OPERATOR.n: codes 3, 5, 7 and 9. -/
def lcOperator (c : Nat) : Bool := c == 3 || c == 5 || c == 7 || c == 9

/-- RECLAIMED.n: codes 4, 6, 8 and 10. -/
def lcReclaimed (c : Nat) : Bool := c == 4 || c == 6 || c == 8 || c == 10

/-- Whether LC.ADVANCE may go from a state to another. -/
def lcAdvances (c t : Nat) : Bool :=
  (lcOperator t && (c == 2 || lcReclaimed c) && t == c + 1) || (lcReclaimed t && lcOperator c && t == c + 1) ||
  (t == 0x0B && (c == 1 || c == 2 || lcReclaimed c)) || (t == 0x0C && c < 0x0C)

/-- Whether vendor test mode may go from a state to another. -/
def lcVendor (c t : Nat) : Bool := (c == 0 && (t == 1 || t == 0x0C)) || (c == 1 && (t == 2 || t == 0x0B || t == 0x0C))

/-- Whether entry to a state draws a new BBK (Table 16.8). -/
def lcDraws (t : Nat) : Bool := lcOperator t || lcReclaimed t

/-- The OPERATOR states not yet entered (R463). -/
def lcCycles (c : Nat) : Nat := if c ≤ 2 then 4 else if c ≤ 10 then 4 - (c - 1) / 2 else 0

/-! ## The word (R466, R467) -/

/-- The bits a state's entry blows. -/
def lcGroup (t : Nat) : Word :=
  if t = 0 then 0 else if t ≤ 10 then 0x1F#64 <<< (5 * t - 5) else if t = 0x0B then 0x1F#64 <<< 50 else 0xFFFFFFFFFFFFFFFF#64

/-- The bitwise majority of the three copies. -/
def lcMajority (a b c : Word) : Word := (a &&& b) ||| (a &&& c) ||| (b &&& c)

/-- The state a valid word spells. -/
def lcDecode (w : Word) : Option Nat :=
  if w = 0xFFFFFFFFFFFFFFFF then some 0x0C
  else
    let low := w.toNat % 2 ^ 50
    let top := w.toNat / 2 ^ 50
    match (List.range 11).find? fun k => low == 2 ^ (5 * k) - 1 with
    | some k => if top = 0 then some k else if top = 31 then some 0x0B else .none
    | .none => .none

/-- The G of a word: the transitions on its path (R463). -/
def lcGen (w : Word) : Nat :=
  let k := ((List.range 11).find? fun k => w.toNat % 2 ^ 50 == 2 ^ (5 * k) - 1).getD 10
  k + b2n (bits w.toNat 54 50 == 31)

/-- The state whose group, or whose SCRAP bits, one copy alone has fully blown: a transition already begun. -/
def lcPending (a b c : Word) : Option Nat :=
  let once := (a &&& ~~~b &&& ~~~c) ||| (b &&& ~~~a &&& ~~~c) ||| (c &&& ~~~a &&& ~~~b)
  let scrap : Word := 0x1FF#64 <<< 55
  if once &&& scrap = scrap then some 0x0C
  else ((List.range 12).drop 1).find? fun t => once &&& lcGroup t == lcGroup t

/-! ## Wipes (R211, R464) -/

/-- What every transition erases: BBK with the roots, caddy, warm store with its tombstones, slots and contexts, key tables,
transfer keys (R211); the vault is LOST (R245). -/
def State.eraseKeys (s : State) : State :=
  let s := s.endAllWork.vaultLost
  let s := (List.range 36).foldl (fun s c => if s.clusters.has c then (s.clearSaveAreas c).modCluster c fun x =>
    { x with transferKey := .none, wrapped := [], mae := { x.mae with keyTable := [], saved := [] } } else s) s
  { s with keys := { s.keys with fbr := .none, devWrap := .none, devBind := .none, warm := [], caddy := [], partKeys := [], carry := .none,
                                 suspended := false, rekeying := [] } }

/-- The evidence and configuration of the backup domain after a transition (R459, R464). -/
def State.clearEvidence (s : State) : State :=
  s.modTamper fun t => { t with
    sources := t.sources.mapVals fun x => { x with flag := false, count := 0, heldHalt := false }, flag11 := false, count11 := 0,
    flag12 := false, count12 := 0 }

/-- The user MRAM regions and LPDDR6 are wiped: anchors and watermarks, the vault root, partitions with their epochs and VF
assignments, signers, the roster, the tamper configuration copy (R464). -/
def State.wipeUser (s : State) : State :=
  let s := { s with
    journal := Journal.reset, lanes := s.lanes.filter fun p => p.2.colour == 0,
    depot := { s.depot with items := [], seqAnchor := 0, packages := [] }, held := [],
    tenancy := { profile := .unformatted, parts := [], serials := [], tags := [], images := [], signers := [] },
    cards := { s.cards with roster := [], ceremony := .none, torn := [] },
    pcie := { s.pcie with funcs := (s.pcie.funcs.filter fun p => p.1 == 0) },
    clusters := s.clusters.mapVals fun c => { c with shares := [] } }
  let s := s.modTamper fun t => { t with mramCfg := [] }
  let s := s.modVault fun v => { v with rootVersion := 0, serial := 0, anchorA := {}, anchorB := {}, anchorTurn := false, nodes := [] }
  s.wipe dramBase (dramBase + 2 ^ 48)

/-- ANALYSIS adds the operator partition of boot flash and every remaining DUS bit. -/
def State.wipeAnalysis (s : State) : State :=
  (s.modLc fun l => { l with dus := BitVec.allOnes 256 }).wipeUser |> fun s =>
    { s with power := { s.power with flashSettings := [], staged := [], stagedTotal := 0, stagedLast := (0, []), stagedState := 0 } }

/-- SCRAP adds all MRAM and every remaining OTP bit, the thermometer counter's among them. -/
def State.wipeScrap (s : State) : State :=
  let s := s.wipeAnalysis
  let s := { s with recorder := { s.recorder with copyA := [], copyB := [], serialA := 0, serialB := 0, validA := false, validB := false,
                                                  hours := 0, cycles := 0 },
                    openSerial := 0, pcie := { s.pcie with pkgSerial := 0, restored := [] },
                    power := { s.power with bootSerial := 0 } }
  s.modTamper fun t => { t with hx3 := 256 }

/-- What entry to a state wipes: the keys of R211, the journal (Table 8.7), and what Table 16.8 adds. -/
def State.lcWipe (s : State) (t : Nat) : State :=
  let s := s.eraseKeys
  let s := { s with journal := Journal.reset }
  let s := if t = 0x0C then s.wipeScrap else if t = 0x0B then s.wipeAnalysis else if lcDraws t then s.wipeUser else s
  (s.defaultSources).clearEvidence |> fun s => { s with cards := { s.cards with roster := [] } }

/-- The new state takes effect: the group blown in every copy, the decode and its shadow, G. -/
def State.lcEnter (s : State) (t : Nat) : State :=
  s.modLc fun l => { l with
    copy0 := l.copy0 ||| lcGroup t, copy1 := l.copy1 ||| lcGroup t, copy2 := l.copy2 ||| lcGroup t, code := BitVec.ofNat 8 t,
    shadow := ~~~(BitVec.ofNat 8 t), gen := l.gen + 1, moving := .none, debug := false }

/-! ## Transitions -/

/-- Ask the kettle for a direct draw (R414). -/
def State.askDirect (s : State) (forBbk : Bool) : State :=
  { s with entropy := { s.entropy with draws := s.entropy.draws ++ [.direct forBbk] } }

/-- Close every Freri session (R465). -/
def State.closeSessions (s : State) : State :=
  [0, 1].foldl (fun s p =>
    let s := ((s.port p).sessions.keys).foldl (fun s n => s.closeSession p n) s
    s.setPort p { s.port p with nextPort := .none }) s

/-- A transition begins (R465, R467): its group is blown in the first copy, tenant lanes are squashed, sessions closed, the card
slots stopped, the BBK erased and, where the state has one, a new one asked for. -/
def State.lcBegin (s : State) (t : Nat) (cmd : Option Cmd) : State :=
  let s := s.modLc fun l => { l with copy0 := l.copy0 ||| lcGroup t, moving := some (BitVec.ofNat 8 t, cmd), debug := false }
  let s := (s.squashTenants .deletion).closeSessions
  let s := ((s.cardOff 0).cardOff 1).abortCeremony
  let s := { s with keys := { s.keys with bbk := .none, fbr := .none, devWrap := .none, devBind := .none, caddy := [], partKeys := [] } }
  if lcDraws t then s.askDirect true else if t = 1 then s.askDirect false else s

/-- The device state after a transition or a re-provisioning: READY with a BBK, else TAMPER_ERASED (R457). -/
def State.lcSettle (s : State) : State :=
  if s.power.dev = .ready ∨ s.power.dev = .tamperErased then
    if s.keys.bbk.isSome then { s with power := { s.power with erased := false } }.setDev .ready
    else { s with power := { s.power with erased := true } }.setDev .tamperErased
  else s

/-- The rows of Table 11.3 for the life-cycle. -/
def lcAdvanceSpec : Spec := ⟨0x0D02, true, false, .C, false⟩
def lcReprovisionSpec : Spec := ⟨0x0D03, true, false, .erased, false⟩

/-- LC_TRANSITION_DONE: the wipes are done, and the BBK drawn where the state has one; the other copies are blown and the new state
takes effect; LC.ADVANCE completes. -/
def execLcTransitionDone (s : State) : Res :=
  .next (match s.lc.moving with
    | .none => s
    | some (b, cmd) =>
      let t := b.toNat
      if lcDraws t && s.keys.bbk.isNone then s
      else
        let s := ((s.lcWipe t).lcEnter t).formRoots.lcSettle
        match cmd with
        | some c => s.finishLater lcAdvanceSpec c cOk ([b] ++ List.replicate 7 0) 0
        | .none => s)

/-- VENDOR_TEST_MODE: a transition of Table 16.7 from WAFER or PACKAGE_TEST. -/
def execVendorTestMode (target : Byte) (s : State) : Res :=
  let s := s.useLifecycle
  .next (if lcVendor s.lc.code.toNat target.toNat ∧ s.lc.moving.isNone then s.lcBegin target.toNat .none else s)

/-! ## Commands -/

/-- LC.STATUS. -/
def execLcStatus (c : Cmd) (s : State) : Res :=
  runCmd 0x0D01 c c.body.isEmpty s fun sp s =>
    let s := s.useLifecycle
    answer c s sp ([s.lc.code, s.lc.gen, BitVec.ofNat 8 (lcCycles s.lc.code.toNat)] ++ List.replicate 5 0)

/-- LC.ADVANCE: it completes once the new state is in effect. -/
def execLcAdvance (c : Cmd) (s : State) : Res :=
  let b := c.body
  runCmd 0x0D02 c (b.length == 16 && zeroAt b 1 7) s fun sp s =>
    let s := s.useLifecycle
    let t := fieldLE b 0 1
    let auth := s.useAuth 0x0D02 8 b
    if lcAdvances s.lc.code.toNat t = false then (auth.getD s).reject c cInvalid
    else match auth with
      | .none => s.reject c cAuthorisation
      | some s => if s.lc.moving.isSome then s.reject c cBadState else (s.begin sp c).lcBegin t (some c)

/-- LC.REPROVISION (R457): it completes once the new BBK is drawn. -/
def execLcReprovision (c : Cmd) (s : State) : Res :=
  runCmd 0x0D03 c (c.body.length == 8) s fun sp s =>
    match s.useAuth 0x0D03 0 c.body with
    | .none => s.reject c cAuthorisation
    | some s =>
      if s.lc.moving.isSome ∨ s.entropy.draws.contains (.direct true) then s.reject c cBadState
      else (s.begin sp c).askDirect true

/-- The new BBK of LC.REPROVISION is in place: the warm store is emptied, the evidence cleared, the roots formed, READY. -/
def State.reprovisioned (s : State) : State :=
  match s.pcie.inFlight.find? fun (x : InFlight) => x.opcode == 0x0D03 with
  | .none => s
  | some x =>
    let s := { s with keys := { s.keys with warm := [], caddy := [], partKeys := [], carry := .none, rekeying := [] } }
    (s.clearEvidence.formRoots.lcSettle).finishLater lcReprovisionSpec x.cmd cOk [] 0

/-! ## Debug (R468) -/

/-- Whether the always-on controller finds the caddy, the warm store and the user MRAM regions blank. -/
def State.blank (s : State) : Bool :=
  s.keys.caddy.isEmpty && s.keys.partKeys.isEmpty && s.keys.warm.isEmpty && s.journal.anchors.isEmpty && s.journal.mramMarks.isEmpty &&
    s.vault.anchorA == {} && s.vault.anchorB == {} && s.tenancy.parts.isEmpty && s.tenancy.signers.isEmpty &&
    s.cards.roster.isEmpty && s.tamper.mramCfg.isEmpty

/-- Whether functional debug is open (Table 16.7, R468). -/
def State.debugOpen (s : State) : Bool := decide (s.lc.code.toNat ≤ 1) || s.lc.debug

/-- Issue a fresh nonce on JTAG. -/
def State.issueNonce (s : State) : State :=
  let n := BitVec.ofNat 128 (beNat (s.hubBytes 16))
  ((s.hubRead 16).modLc fun l => { l with nonce := some n }).emit (.debugNonce n)

/-- DBG_UNLOCK: in a RECLAIMED state a record that verifies against the nonce just issued, with the stores blank, erases the BBK,
enters TAMPER_ERASED and opens debug; any other presentation is answered with a fresh nonce. -/
def execDbgUnlock (unlock : Bytes) (s : State) : Res :=
  let s := s.useLifecycle
  .next (if lcReclaimed s.lc.code.toNat = false then s
    else
      let good := match s.lc.nonce with
        | some n => Config.debugVerify unlock n
        | .none => false
      if good && s.blank then
        let s := { s with keys := { s.keys with bbk := .none, fbr := .none, devWrap := .none, devBind := .none } }
        (s.modLc fun l => { l with debug := true, nonce := .none }).lcSettle
      else s.issueNonce)

end Sys2Proof.Machine
end

