-- ==== Sys2Proof/Machine/FaultCmds.lean ====
section
/-! DEFINITION. Faults as the collector, the Steward and the host meet them (R470-R487): arrivals, handling, FAULT.READ,
FAULT.CLEAR, the gate latches, ALIVE_OUT and PEER_ALIVE_IN. -/

namespace Sys2Proof.Machine

/-! ## Arrival and handling (R476, R477, R483) -/

/-- The classes in which a kind is sent (Tables 12.4, 14.6, 15.6, 16.9, 17.3). -/
def kindClasses (k : Nat) : List Nat :=
  match k with
  | 0x01 => [1] | 0x02 => [2] | 0x03 => [1] | 0x04 => [2] | 0x05 => [2] | 0x06 => [4] | 0x07 => [1]
  | 0x10 => [2] | 0x11 => [0] | 0x12 => [4] | 0x13 => [2] | 0x14 => [0] | 0x15 => [0] | 0x16 => [2] | 0x17 => [2] | 0x18 => [3]
  | 0x20 => [2] | 0x21 => [2] | 0x22 => [0] | 0x23 => [0] | 0x24 => [0]
  | 0x30 => [0, 2] | 0x31 => [0, 2] | 0x32 => [0, 2] | 0x33 => [2] | 0x34 => [0, 2] | 0x35 => [0] | 0x36 => [2] | 0x37 => [2]
  | 0x38 => [2] | 0x39 => [2] | 0x3A => [4]
  | 0x40 => [2] | 0x41 => [2, 3] | 0x42 => [3] | 0x43 => [0]
  | 0x50 => [0] | 0x51 => [0] | 0x52 => [0] | 0x53 => [0]
  | 0x60 => [4] | 0x61 => [2] | 0x62 => [3] | 0x63 => [0] | 0x64 => [4] | 0x65 => [4] | 0x66 => [4] | 0x67 => [1]
  | 0x70 => [0] | 0x71 => [0] | 0x72 => [0]
  | _ => []

/-- Whether Table 17.2 lists a source identifier; no other is ever sent (R473). -/
def srcListed (src : BitVec 16) : Bool :=
  let die := src.toNat / 8192
  let group := src.toNat / 256 % 32
  let unit := src.toNat % 256
  match die with
  | 4 =>
    if group = 0 then decide (unit ≤ 0x16)
    else if group = 1 ∨ group = 2 then decide (unit ≤ 15)
    else if group = 3 ∨ group = 4 then decide (unit ≤ 4) || unit == 0xFF
    else group == 5 && decide (36 ≤ unit) && decide (unit ≤ 46)
  | 5 => decide (group ≤ 3) && unit == 0xFF
  | 6 => group == 0 && unit == 0xFF
  | 7 => false
  | _ => if group ≤ 8 then decide (unit ≤ 0x15) || unit == 0xFF else (group == 0x10 || group == 0x1F) && unit == 0xFF

/-- The access of a Steward pair that a GATE_FENCED message reports, read from its detail (Table 12.5). -/
def fencedAccess (south : Bool) (detail : Word) : Access :=
  stewardAccess south false (detail.getLsbD 51) (BitVec.ofNat 12 (detail.toNat / 2 ^ 52)) (detail.toNat % 2 ^ 40) (detail.toNat % 2 ^ 40)

/-- A fenced pair's access as its gate meets it: GATE_FENCED comes of nothing else (R386). -/
def State.fencedReport (s : State) (src : BitVec 16) (detail : Word) : State :=
  let south := src == srcPair true
  let g := detail.toNat / 2 ^ 40 % 2 ^ 9
  let a := fencedAccess south detail
  if (src = srcPair false ∨ south) ∧ g < 47 ∧ s.fencedOff g a then (s.stewardReach g a).1 else s

/-- FAULT_ARRIVAL: a message of a kind and class that is sent (R474, R475), from a source that Table 17.2 lists, arrives at the
collector; GATE_FENCED by way of the gate's latch. -/
def execFaultArrival (cls : Fin 5) (kind : Byte) (src : BitVec 16) (detail : Word) (s : State) : Res :=
  .next (if !(kindClasses kind.toNat).contains cls.val || !srcListed src then s
    else if kind = 0x35 then s.fencedReport src detail
    else s.fault cls.val kind src detail)

/-- Whether a Steward pair holds the token and runs. -/
def State.stewardRuns (s : State) : Bool := s.steward.north == .holder || s.steward.south == .holder

/-- CLASS3_SQUASH: the handling of a class 3 or class 4 fault takes every tenant lane to SQUASHING (R477, Table 17.4). -/
def execClass3Squash (s : State) : Res :=
  .next (if s.stewardRuns ∧ (s.faults.class3Active ∨ s.faults.grave) then s.squashTenants .class3 else s)

/-- The fault the Steward handles next: the highest class, the earliest of it. -/
def nextFault (l : List (Nat × Byte × BitVec 16)) : Option (Nat × Byte × BitVec 16) :=
  l.foldl (fun a x => match a with
    | some y => if y.1 < x.1 then some x else some y
    | .none => some x) .none

/-- FAULT_HANDLING: a fault of higher class than the one being handled begins its handling and preempts it; otherwise the handling
in progress completes, or the next begins (R483). -/
def execFaultHandling (s : State) : Res :=
  .next (if s.stewardRuns = false then s
    else
      let f := s.faults
      let start := fun x => { s with faults := { f with handling := x :: f.handling, unhandled := eraseFirst (· == x) f.unhandled } }
      match nextFault f.unhandled, f.handling with
      | some x, [] => start x
      | some x, y :: rest => if y.1 < x.1 then start x else { s with faults := { f with handling := rest } }
      | .none, _ :: rest => { s with faults := { f with handling := rest } }
      | .none, [] => s)

/-- GATE_LATCH_CLEAR: the latch of a class 0 gate fault clears 1 ms after the fault (R368); the latch of a class 2 fault, which is
active, waits for FAULT.CLEAR. -/
def execGateLatchClear (gate : Nat) (s : State) : Res :=
  checked (gateOk gate)
    (let g := s.gate gate
     match g.latched with
     | some (k, src, t) =>
       if t + 1000000 ≤ s.now ∧ (s.faults.activeFault (2, k, src)).isNone then s.setGate gate { g with latched := .none } else s
     | .none => s)

/-! ## FAULT.READ (R470, R471) -/

/-- The 128 bits of a message. -/
def FaultMsg.bits (m : FaultMsg) : Nat :=
  m.cls * 2 ^ 125 + m.kind.toNat * 2 ^ 117 + m.src.toNat * 2 ^ 101 + m.seq.toNat * 2 ^ 85 + m.rep * 2 ^ 77 + m.mile.toNat * 2 ^ 64 +
    m.detail.toNat

/-- FAULT.READ: up to count messages, oldest first, leave the queue; SMB_ALERT_N goes high with the last (R532). -/
def execFaultRead (c : Cmd) (s : State) : Res :=
  let n := fieldLE c.body 0 1
  runCmd 0x0F01 c (c.body.length == 8 && zeroAt c.body 1 7) s fun sp s =>
    if n = 0 ∨ 64 < n then s.reject c cInvalid
    else
      let ms := s.faults.queue.take n
      let s := { s with faults := { s.faults with queue := s.faults.queue.drop n } }
      let s := if s.faults.queue.isEmpty ∧ !ms.isEmpty then s.emit (.smbAlert false) else s
      answer c s sp ([BitVec.ofNat 8 ms.length, 0, 0, 0] ++ natLE 4 s.faults.overflow.toNat ++ ms.flatMap fun m => natLE 16 m.bits)

/-! ## FAULT.CLEAR (R478) -/

/-- What FAULT.CLEAR finds of a cause. -/
inductive Cause where
  | gone
  | present
  | rerun
  deriving DecidableEq, Repr

/-- A second of the model's clock. -/
def oneSecond : Nat := 1000000000

/-- Whether a unit left service for good: its cluster is retired, or it is out with no engagement to come (R517). -/
def State.unitRetired (s : State) (c : Nat) (out : Bool) : Bool :=
  (s.cluster c).state == .retired ||
    (out && (s.cluster c).state == .inService && !(s.power.engagements.any fun (e : Engagement) => e.failing == c))

/-- The test of a unit of a cluster: it is confirmed gone when retired, else runs again. -/
def State.clusterCause (s : State) (c u : Nat) : Cause :=
  if s.unitRetired c (if u < 16 then (s.te c u).out else u == 0x10 && (s.cluster c).mae.out) then .gone
  else if u < 16 ∨ u = 0x10 ∨ u = 0x13 then .rerun
  else .present

/-- Whether the sources whose alarms executed a rank are all re-armed (R458). -/
def State.rearmed (s : State) (rank : Nat) : Bool := (List.range 11).all fun n => (s.source n).lastRank != rank || (s.source n).armed

/-- The cause of an active class 2 fault (R478). -/
def State.class2Cause (s : State) (a : Active) : Cause :=
  let quiet := if a.last + oneSecond ≤ s.now then Cause.gone else .present
  match a.kind.toNat, clusterOfSrc a.src with
  | 0x10, some (c, _) => if (s.cluster c).state = .retired then .gone else .present
  | 0x02, some (c, u) => s.clusterCause c u
  | 0x16, some (c, u) => s.clusterCause c u
  | 0x41, some (c, u) => s.clusterCause c u
  | 0x17, _ =>
    let p := if a.src = srcHub 4 then s.steward.north else s.steward.south
    if p = .holder then .gone else .rerun
  | 0x02, .none => if a.src = srcHub 0 then .gone else quiet
  | 0x04, _ => if s.power.remapQueue.any (fun q => BitVec.ofNat 16 (4 * 8192 + 2 * 256 + q.1) == a.src) then .present else .gone
  | 0x05, _ => .gone
  | 0x20, _ => .gone
  | 0x40, _ => .gone
  | 0x21, _ =>
    let p := s.port (if a.src = srcPort 0 0xFF then 0 else 1)
    if p.link = .up ∨ a.last < p.lastUp then .gone else .present
  | 0x61, _ => if s.rearmed 2 then .gone else .present
  | _, _ => quiet

/-- The cause of an active class 3 fault. -/
def State.class3Cause (s : State) (a : Active) : Cause :=
  match a.kind.toNat with
  | 0x62 => if s.rearmed 3 then .gone else .present
  | 0x41 => .rerun
  | 0x42 => if (List.range 16).any (fun n => (s.cell n).state == .inService && (s.cell n).running) then .gone else .present
  | _ => .present

/-- The cause of an active fault. -/
def State.cause (s : State) (a : Active) : Cause :=
  if a.cls = 1 then (if a.last + oneSecond ≤ s.now then .gone else .present)
  else if a.cls = 2 then s.class2Cause a
  else s.class3Cause a

/-- Begin the test that FAULT.CLEAR reruns. -/
def State.rerunTest (s : State) (a : Active) : State :=
  match a.kind.toNat, clusterOfSrc a.src with
  | 0x41, _ => s.startKat a.src
  | 0x17, _ =>
    if a.src = srcHub 4 then { s with steward := { s.steward with north := .selfTest } }
    else { s with steward := { s.steward with south := .selfTest } }
  | _, some (c, u) =>
    if u = 0x10 then s.modCluster c fun x => { x with mae := { x.mae with kat := true } }
    else if u < 16 then s.setTe c u { s.te c u with testing := true }
    else s
  | _, _ => s

/-- FAULT.CLEAR: an active fault whose cause is confirmed gone leaves the active set; a test runs again first where the kind has
one; every other case is BAD_STATE. -/
def execFaultClear (c : Cmd) (s : State) : Res :=
  let b := c.body
  runCmd 0x0F02 c (b.length == 8 && zeroAt b 4 4) s fun sp s =>
    let n := clearNames b
    match s.faults.activeFault n with
    | .none => s.reject c cBadState
    | some a =>
      match s.cause a with
      | .gone => answer c (s.clearActive n) sp []
      | .present => s.reject c cBadState
      | .rerun => (s.begin sp c).rerunTest a

/-! ## ALIVE (R485, R487) -/

/-- ALIVE_OUT_TOGGLE: while READY or STOPPING. -/
def execAliveOutToggle (s : State) : Res :=
  .next (if s.faults.aliveOn ∧ s.power.porst = false then
    ({ s with faults := { s.faults with aliveOut := !s.faults.aliveOut } }).emit (.alive (!s.faults.aliveOut))
  else s)

/-- PEER_ALIVE_IN_EDGE: an edge; the first after a loss raises PEER_ALIVE_BACK with the milliseconds without one. -/
def execPeerAliveInEdge (s : State) : Res :=
  .next (let gap := (s.now - s.faults.peerLast) / 1000000
    let lost := s.faults.peerLost
    let s := { s with faults := { s.faults with peerSeen := true, peerLost := false, peerLast := s.now } }
    if lost then s.fault 0 0x71 (srcHub 0x07) (BitVec.ofNat 64 (gap % 2 ^ 32)) else s)

/-- PEER_ALIVE_LOST: 3 ms without an edge, once one has come since power-up. -/
def execPeerAliveLost (s : State) : Res :=
  .next (if s.faults.peerSeen ∧ s.faults.peerLost = false then
    (({ s with faults := { s.faults with peerLost := true } }).count 304 9).fault 0 0x70 (srcHub 0x07) 0
  else s)

end Sys2Proof.Machine
end

