-- ==== Sys2Proof/Machine/Entropy.lean ====
section
/-! DEFINITION. The entropy path (chapter 14): noise cells, health tests, the kettle, the expanders, their known-answer tests,
and the ENTROPY commands. -/

namespace Sys2Proof.Machine

/-- Change the entropy path. -/
def State.modEntropy (s : State) (f : Entropy → Entropy) : State := { s with entropy := f s.entropy }

/-! ## The strainer (R408) -/

/-- The strained bits of successive pairs of raw bits: pair XOR, or in mode 1 von Neumann. -/
def strain (vonNeumann : Bool) (raw : List (Bool × Bool)) : List Bool :=
  if vonNeumann then raw.filterMap fun p => if p.1 = p.2 then .none else some p.1 else raw.map fun p => p.1 ^^ p.2

/-- The window that raw bits fill in a mode, its first bit the most significant; nothing where they do not give 4,096 bits (R409). -/
def strainedWindow (vonNeumann : Bool) (raw : List (Bool × Bool)) : Option (BitVec 4096) :=
  let bits := strain vonNeumann raw
  if bits.length = 4096 then some (BitVec.ofNat 4096 (bits.foldl (fun a b => 2 * a + b2n b) 0)) else .none

/-! ## Window tests (Table 14.1) -/

/-- The number of one bits below a width. -/
def popcount (w : Nat) (n : Nat) : Nat := ((List.range n).filter fun i => w.testBit i).length

/-- A quotient rounded to the nearest, halves away from zero (PRESUMED). -/
def roundDiv (a : Int) (d : Nat) : Int := if 0 ≤ a then (2 * a + d) / (2 * d) else -((-2 * a + d) / (2 * d))

/-- n1 − 2,048 of a window. -/
def biasOf (w : BitVec 4096) : Int := (popcount w.toNat 4096 : Int) - 2048

/-- 2 × A_k − (4,096 − k) of a window: A_k counts the positions where the window agrees with itself shifted by k. -/
def corrOf (w : BitVec 4096) (k : Nat) : Int :=
  let m := 4096 - k
  (2 * (m - popcount (w.toNat ^^^ (w.toNat / 2 ^ k)) m) : Int) - m

/-- The first test a window fails: 0 bias, 1-4 lag. -/
def windowFails (w : BitVec 4096) : Option Nat :=
  if 192 < (biasOf w).natAbs then some 0 else [1, 2, 3, 4].find? fun k => 384 < (corrOf w k).natAbs

/-! ## Cells (R406-R412) -/

/-- The source identifier of a noise cell. -/
def srcNoise (n : Nat) : BitVec 16 := BitVec.ofNat 16 (4 * 8192 + 256 + n)

/-- Start a cell under R407. -/
def Cell.start (x : Cell) : Cell := { x with running := true, stable := false, starting := 16 }

/-- Stop a cell. -/
def Cell.stop (x : Cell) : Cell := { x with running := false, stable := false }

/-- A cell fails (R412, R424): it stops for good; for a cell in service the lowest reserve starts, and none left in service is
ENTROPY_NONE. -/
def State.cellFails (s : State) (n cause : Nat) : State :=
  let x := s.cell n
  let s := (s.setCell n { x.stop with state := .failed }).fault 2 0x40 (srcNoise n) (BitVec.ofNat 64 (cause * 256 + x.lastTest))
  if x.state = .inService then
    let s := match (List.range 16).find? fun m => (s.cell m).state == .reserve with
      | some m =>
        let r := s.cell m
        s.setCell m (if r.running then { r with state := .inService } else { r with state := .inService }.start)
      | .none => s
    if (List.range 16).any fun m => (s.cell m).state == .inService then s else s.fault 3 0x42 (srcHub 0x0B) 0
  else s

/-- The cause for which a cell's last windows fail it (R412). -/
def Cell.failCause (x : Cell) : Option Nat :=
  let consecutive := x.recent.length ≥ 4 && (x.recent.take 4).all (·)
  let rate := 16 ≤ (x.recent.filter (·)).length
  if !consecutive && !rate then .none
  else if x.state = .reserve then some 3
  else if consecutive then some 1
  else some 2

/-- A failed window (R411): counted, no fault of its own, the start-up count begun again. -/
def State.windowFailed (s : State) (n test : Nat) : State :=
  let x := s.cell n
  let x := { x with failures := x.failures + 1, recent := (true :: x.recent).take 1024, lastTest := test,
                    starting := if 0 < x.starting then 16 else 0 }
  let s := s.setCell n x
  match x.failCause with
  | some cause => s.cellFails n cause
  | .none => s

/-- Absorb a passing window (R413). -/
def Entropy.absorb (e : Entropy) (n : Nat) (w : BitVec 4096) : Entropy :=
  { e with pool := BitVec.ofNat 512 (beNat (hash 4 (natBE 64 e.pool.toNat ++ natBE 1 n ++ natBE 512 w.toNat))) }

/-- A passing window: absorbed; during a start-up test uncredited, with the reserve's test stopping its cell (R407, R413). -/
def State.windowPassed (s : State) (n : Nat) (w : BitVec 4096) : State :=
  let s := s.modEntropy fun e => e.absorb n w
  let x := s.cell n
  let x := { x with recent := (false :: x.recent).take 1024 }
  if 0 < x.starting then
    let x := { x with starting := x.starting - 1 }
    s.setCell n (if x.starting = 0 ∧ x.state = .reserve then x.stop else x)
  else (s.setCell n x).modEntropy fun e => { e with credit := min 4096 (e.credit + 64) }

/-- Whether a cell delivers windows. -/
def Cell.delivers (x : Cell) : Bool := x.running && x.stable && x.state != .failed

/-- A window of a cell ends: it is counted, and a mode change takes effect (R408, R409). -/
def State.windowCounted (s : State) (n : Nat) : State :=
  let x := s.cell n
  s.setCell n { x with windows := x.windows + 1, mode := x.nextMode }

/-- CELL_STABILISED: the start-up test begins. -/
def execCellStabilised (n : Nat) (s : State) : Res :=
  checked (cellOk n)
    (let x := s.cell n
     if x.running ∧ !x.stable then s.setCell n { x with stable := true } else s)

/-- A cell's window ends: it is tested, absorbed and credited; during the kettle's known-answer test it is discarded
(Table 14.5). -/
def State.windowEnds (s : State) (n : Nat) (window : BitVec 4096) : State :=
  let s := s.windowCounted n
  if s.entropy.kettleKat then s
  else
    let mille := fun (a : Int) (d : Nat) => roundDiv (1000 * a) d
    let s := s.setCell n { s.cell n with
      bias := mille (biasOf window) 4096,
      corr := #v[mille (corrOf window 1) 4095, mille (corrOf window 2) 4094, mille (corrOf window 3) 4093, mille (corrOf window 4) 4092] }
    match windowFails window with
    | some t => s.windowFailed n t
    | .none => s.windowPassed n window

/-- NOISE_WINDOW_END: a running cell's raw bits, strained in its mode, end a window; what does not fill one ends none. -/
def execNoiseWindowEnd (n : Nat) (raw : List (Bool × Bool)) (s : State) : Res :=
  checked (cellOk n)
    (match (s.cell n).delivers, strainedWindow (s.cell n).mode raw with
     | true, some w => s.windowEnds n w
     | _, _ => s)

/-- FILL_TIME_EXCEEDED: a window of a von Neumann cell fails the fill-time test. -/
def execFillTimeExceeded (n : Nat) (s : State) : Res :=
  checked (cellOk n)
    (if (s.cell n).delivers ∧ (s.cell n).mode then
      let s := s.windowCounted n
      if s.entropy.kettleKat then s else s.windowFailed n 5
    else s)

/-! ## Expanders (R416): CTR_DRBG of SP 800-90A with AES-256, no derivation function -/

/-- An expander's key and counter block as bytes. -/
def Expander.bytes (x : Expander) : Bytes × Bytes := (natBE 32 x.key.toNat, natBE 16 x.v.toNat)

/-- Put a key and counter block. -/
def Expander.withState (x : Expander) (k : Bytes × Bytes) : Expander :=
  { x with key := BitVec.ofNat 256 (beNat k.1), v := BitVec.ofNat 128 (beNat k.2) }

/-- The personalisation string of an expander (Table 14.3). -/
def State.personalisation (s : State) (e : Nat) : Bytes :=
  natBE 2 (srcExpander e).toNat ++ natBE 16 Config.deviceId.toNat ++ natBE 4 s.recorder.cycles.toNat ++ List.replicate 26 0

/-- Instantiate or reseed an expander from 48 bytes of entropy. -/
def State.seedFrom (s : State) (e : Nat) (entropy : Bytes) : State :=
  let x := s.expander e
  let first := !x.seeded
  let k := if first then drbgUpdate (List.replicate 32 0) (List.replicate 16 0) (xorBytes entropy (s.personalisation e))
    else drbgUpdate x.bytes.1 x.bytes.2 entropy
  s.setExpander e { x.withState k with
    seeded := true, generates := 0, seedTime := s.now, requested := false, required := false, requiredAt := 0,
    buffer := if first then [] else x.buffer }

/-- Whether an expander runs: the Hub's always, a cluster's while it is awake. -/
def State.expanderAwake (s : State) (e : Nat) : Bool := e == 36 || (s.cluster e).power == .awake

/-- DRBG_GENERATE: one generate while the buffer holds 512 bytes or fewer. -/
def execDrbgGenerate (e : Nat) (s : State) : Res :=
  checked (decide (e ≤ 36))
    (let x := s.expander e
     if x.seeded ∧ !x.required ∧ !x.katFailed ∧ !s.expanderHeld e ∧ s.expanderAwake e ∧ x.buffer.length ≤ 512 ∧ x.generates < 65536 then
       s.setExpander e x.generate
     else s)

/-- Nanoseconds since an expander's last seed. -/
def State.seedAge (s : State) (e : Nat) : Nat := s.now - (s.expander e).seedTime

/-- RESEED_REQUESTED: at 49,152 generates or 75 ms. -/
def execReseedRequested (e : Nat) (s : State) : Res :=
  checked (decide (e ≤ 36))
    (let x := s.expander e
     if x.seeded ∧ !x.requested ∧ (49152 ≤ x.generates ∨ 75000000 ≤ s.seedAge e) then
       let s := s.setExpander e { x with requested := true }
       if s.expanderAwake e then s.askDraw e else s
     else s)

/-- RESEED_REQUIRED: at 65,536 generates or 100 ms generation is blocked and the buffer empties; a sleeping cluster's reseed runs
at its wake (R419). -/
def execReseedRequired (e : Nat) (s : State) : Res :=
  checked (decide (e ≤ 36))
    (let x := s.expander e
     if x.seeded ∧ !x.required ∧ (65536 ≤ x.generates ∨ 100000000 ≤ s.seedAge e) then
       let s := s.setExpander e { x with required := true, requiredAt := s.now, buffer := [] }
       if s.expanderAwake e then s.askDraw e else s
     else s)

/-- SEED_WAIT: a required reseed has waited 1 ms (R424). -/
def execSeedWait (e : Nat) (s : State) : Res :=
  checked (decide (e ≤ 36))
    (let x := s.expander e
     if x.required ∧ x.requiredAt + 1000000 ≤ s.now then
       s.fault 0 0x43 (srcExpander e) (BitVec.ofNat 64 ((s.now - x.requiredAt) / 1000))
     else s)

/-! ## The kettle (R413-R415) -/

/-- Take a draw: its 48 bytes, and the kettle after it (R414). -/
def Entropy.draw (e : Entropy) : Bytes × Entropy :=
  let h := fun (b : Byte) => hash 4 (natBE 64 e.pool.toNat ++ [b] ++ natBE 8 e.serial.toNat)
  ((h 1).take 48, { e with pool := BitVec.ofNat 512 (beNat (h 2)), credit := e.credit - 512, serial := e.serial + 1 })

/-- Whether a waiting draw may be served now: an expander under its test waits, but the first draw of H.DRBG does not. -/
def State.drawReady (s : State) (d : Draw) : Bool :=
  match d with
  | .expander e =>
    if e = 36 then (!s.entropy.hub.seeded && !s.entropy.hubDrawn) || (s.entropy.hub.seeded && !s.expanderHeld 36)
    else !(s.expander e).katFailed && !s.expanderHeld e
  | .direct _ => true

/-- The draw served next: H.DRBG's, then the clusters' in the order of their requests, then a direct one. -/
def State.nextDraw (s : State) : Option Draw :=
  let ready := s.entropy.draws.filter s.drawReady
  match ready.find? (· == .expander 36) with
  | some d => some d
  | .none =>
    match ready.find? fun d => match d with
      | .expander _ => true
      | .direct _ => false with
    | some d => some d
    | .none => ready.head?

/-- H.DRBG is seeded: the first seed; after an erasure the Steward draws a new cluster transfer key. -/
def State.hubSeeded (s : State) : State :=
  let s := s.modEntropy fun e => { e with firstSeed := true, hubDrawn := false }
  if s.power.step = .done ∧ s.transferKey.isNone then
    let k := BitVec.ofNat 256 (beNat (s.hubBytes 32))
    let s := s.hubRead 32
    { s with clusters := s.clusters.mapVals fun c => if c.power = .awake then { c with transferKey := some k } else c }
  else s

/-- What a draw's output goes to. -/
def State.serveDraw (s : State) (d : Draw) (out : Bytes) : State :=
  match d with
  | .expander e =>
    let s := s.seedFrom e out
    if e ≠ 36 then s
    else if s.entropy.hubKat then
      (s.setExpander 36 { s.entropy.hub with seeded := s.entropy.hub.seeded && s.entropy.firstSeed }).modEntropy fun x =>
        { x with hubDrawn := !x.firstSeed }
    else s.hubSeeded
  | .direct true =>
    let k := BitVec.ofNat 256 (beNat (out.take 32))
    ({ s with keys := { s.keys with bbk := some k } }).reprovisioned
  | .direct false => s.modLc fun l => { l with dus := BitVec.ofNat 256 (beNat (out.take 32)) }

/-- KETTLE_DRAW: a waiting draw is served while the kettle holds 512 credited bits, no test of it runs, and neither it nor H.DRBG
failed one (R414, R421, R423). -/
def execKettleDraw (s : State) : Res :=
  .next (if s.entropy.credit < 512 ∨ s.entropy.kettleKat ∨ s.entropy.kettleFailed ∨ s.entropy.hub.katFailed then s
    else
      match s.nextDraw with
      | .none => s
      | some d =>
        let (out, e) := s.entropy.draw
        ({ s with entropy := { e with draws := eraseFirst (· == d) e.draws } }).serveDraw d out)

/-! ## Known-answer tests (R421-R423) -/

/-- ENTROPY.KAT's row. -/
def katSpec : Spec := ⟨0x0B03, true, false, .Q, false⟩

/-- Whether the test of a unit runs. -/
def State.katRuns (s : State) (src : BitVec 16) : Bool :=
  if src = srcHub 0x0B then s.entropy.kettleKat
  else if src = srcHub 0x0C then s.entropy.hubKat
  else srcIsExpander src && s.unitHeld src

/-- Answer an ENTROPY.KAT of a unit. -/
def State.katAnswer (s : State) (src : BitVec 16) (ok : Bool) : State :=
  match s.pcie.inFlight.find? fun (x : InFlight) => x.opcode == 0x0B03 && x.started && fieldLE x.cmd.body 0 2 == src.toNat with
  | some x => s.finishLater katSpec x.cmd cOk ([BitVec.ofNat 8 (b2n (!ok))] ++ List.replicate 7 0) 0
  | .none => s

/-- The kettle's test ends: a strainer instance's failure fails its cell, any other stalls every draw. -/
def State.kettleTested (s : State) (failed cell : Nat) : State :=
  let s := s.modEntropy fun e => { e with kettleKat := false }
  if failed = 0 then s.modEntropy fun e => { e with kettleFailed := false }
  else if failed = 1 ∧ cell < 16 then (if (s.cell cell).state = .failed then s else s.cellFails cell 4)
  else (s.modEntropy fun e => { e with kettleFailed := true }).fault 3 0x41 (srcHub 0x0B) (BitVec.ofNat 64 failed)

/-- H.DRBG's test ends: a pass lets its first draw instantiate it. -/
def State.hubTested (s : State) (failed : Nat) : State :=
  let s := (s.modEntropy fun e => { e with hubKat := false }).releaseHold (srcHub 0x0C)
  if failed = 0 then
    let s := s.modEntropy fun e => { e with hub := { e.hub with katFailed := false, seeded := e.hub.seeded || e.hubDrawn } }
    if s.entropy.hubDrawn then s.hubSeeded else s
  else (s.modEntropy fun e => { e with hub := { e.hub with katFailed := true } }).fault 3 0x41 (srcHub 0x0C) (BitVec.ofNat 64 failed)

/-- A cluster expander's test ends: a failure flags its cluster. -/
def State.clusterTested (s : State) (c failed : Nat) (src : BitVec 16) : State :=
  let s := s.releaseHold src
  if failed = 0 then s.setExpander c { s.expander c with katFailed := false }
  else
    let s := (s.setExpander c { s.expander c with katFailed := true }).fault 2 0x41 src (BitVec.ofNat 64 failed)
    s.flagFailing c 4 true

/-- KAT_DONE: a known-answer test completes; `failed` is 0 or the step of Table 14.6, `cell` the strainer instance of step 1. -/
def execKatDone (src : BitVec 16) (failed : Nat) (cell : Nat) (s : State) : Res :=
  .next (if s.katRuns src = false ∨ 6 < failed then s
    else
      let s := if src = srcHub 0x0B then s.kettleTested failed cell
        else if src = srcHub 0x0C then s.hubTested failed
        else match clusterOfSrc src with
          | some (c, _) => s.clusterTested c failed src
          | .none => s
      (s.katAnswer src (failed == 0)).rerunDone src (failed == 0))

/-! ## Commands (Table 11.8) -/

/-- The states of a cell by number. -/
def CellState.code (x : CellState) : Nat :=
  match x with
  | .inService => 0
  | .reserve => 1
  | .failed => 2

/-- ENTROPY.STATUS. -/
def execEntropyStatus (c : Cmd) (s : State) : Res :=
  runCmd 0x0B01 c c.body.isEmpty s fun sp s =>
    let entry := fun (n : Nat) =>
      let x := s.cell n
      [BitVec.ofNat 8 x.state.code, BitVec.ofNat 8 (b2n x.mode), 0, 0] ++ natLE 4 x.windows.toNat ++ natLE 4 x.failures.toNat ++ [0, 0] ++
        intLE2 x.bias ++ x.corr.toList.flatMap intLE2
    answer c s sp (natLE 4 s.entropy.credit ++ [BitVec.ofNat 8 (b2n s.entropy.firstSeed), 0, 0, 0] ++ (List.range 16).flatMap entry)

/-- ENTROPY.CONFIG: each cell's mode takes effect at its next window. -/
def execEntropyConfig (c : Cmd) (s : State) : Res :=
  let b := c.body
  runCmd 0x0B02 c (b.length == 8 && zeroAt b 2 6) s fun sp s =>
    let modes := fieldLE b 0 2
    answer c ((List.range 16).foldl (fun s n => s.setCell n { s.cell n with nextMode := bit modes n }) s) sp []

/-- ENTROPY.KAT: it completes with the test. -/
def execEntropyKat (c : Cmd) (s : State) : Res :=
  let b := c.body
  runCmd 0x0B03 c (b.length == 8 && zeroAt b 2 6) s fun sp s =>
    let src := BitVec.ofNat 16 (fieldLE b 0 2)
    let retired : Bool := match clusterOfSrc src with
      | some (k, _) => (s.cluster k).state == ReserveState.retired
      | .none => false
    if src ≠ srcHub 0x0B ∧ !srcIsExpander src then s.reject c cInvalid
    else if retired = true then s.reject c cBadState
    else (s.begin sp c).startKat src

end Sys2Proof.Machine
end

