-- ==== Sys2Proof/Machine/Device.lean ====
section
/-! DEFINITION. The event recorder (R488-R493) and the device's own commands: DEVICE.INFO, DEVICE.STATUS, DEVICE.RESET,
DEVICE.STANDBY, RECORDER.READ. -/

namespace Sys2Proof.Machine

/-- Change the recorder. -/
def State.modRecorder (s : State) (f : Recorder → Recorder) : State := { s with recorder := f s.recorder }

/-! ## Records (Tables 17.6-17.8) -/

/-- A record's allocation: its type, metric, source, and for a histogram its base and bin width. -/
structure RecKind where
  typ    : Nat
  metric : Nat
  source : BitVec 16
  base   : Int
  width  : Nat
  deriving DecidableEq, Repr

/-- The source of a cluster's record, or the Hub's after the clusters. -/
def srcOrHub (k : Nat) : BitVec 16 := if k < 36 then srcWhole k else Config.hubSource

/-- The lane of a port in the order F0 SL0-SL4, F1 SL0-SL4. -/
def srcSerdes (k : Nat) : BitVec 16 := srcPort (k / 5) (k % 5)

/-- Table 17.8. -/
def recKind (n : Nat) : RecKind :=
  if n ≤ 36 then ⟨1, 0x01, srcOrHub n, -400, 30⟩
  else if n ≤ 73 then ⟨2, 0x02, srcOrHub (n - 37), 0, 0⟩
  else if n ≤ 81 then ⟨2, 0x03, BitVec.ofNat 16 (n - 74), 0, 0⟩
  else if n ≤ 117 then ⟨1, 0x10, srcWhole (n - 82), 550, 7⟩
  else if n ≤ 153 then ⟨1, 0x11, srcWhole (n - 118), 1960, 10⟩
  else if n ≤ 189 then ⟨1, 0x12, srcWhole (n - 154), 0, 2⟩
  else if n ≤ 225 then ⟨1, 0x20, srcWhole (n - 190), 0, 1⟩
  else if n ≤ 241 then ⟨1, 0x21, srcHub 0, 0, 1⟩
  else if n ≤ 257 then ⟨1, 0x22, BitVec.ofNat 16 (4 * 8192 + 2 * 256 + (n - 242)), 0, 1⟩
  else if n ≤ 259 then ⟨1, 0x23, srcHub (if n = 258 then 1 else 9), 0, 1⟩
  else if n ≤ 269 then ⟨1, 0x30, srcSerdes (n - 260), 0, 1⟩
  else if n ≤ 279 then ⟨1, 0x31, srcSerdes (n - 270), -24, 1⟩
  else if n ≤ 289 then ⟨2, 0x32, srcSerdes (n - 280), 0, 0⟩
  else if n ≤ 293 then ⟨1, 0x40, BitVec.ofNat 16 (n - 290), 0, 250⟩
  else if n ≤ 297 then ⟨1, 0x41, BitVec.ofNat 16 (n - 294), 0, 10000⟩
  else if n ≤ 299 then ⟨3, 0x50, srcPort (n - 298) 0xFF, 0, 0⟩
  else if n = 300 then ⟨3, 0x51, srcHub 0x11, 0, 0⟩
  else if n = 301 then ⟨3, 0x52, srcHub 0x12, 0, 0⟩
  else if n = 302 then ⟨3, 0x53, srcHub 0x10, 0, 0⟩
  else if n = 303 then ⟨3, 0x54, srcHub 0x0F, 0, 0⟩
  else if n = 304 then ⟨3, 0x55, srcHub 0x0E, 0, 0⟩
  else if n = 305 then ⟨3, 0x56, 0, 0, 0⟩
  else if n = 1023 then ⟨4, 0xFF, srcHub 0x08, 0, 0⟩
  else ⟨0, 0, 0, 0, 0⟩

/-- The body fields of a record: a histogram's two bounds, its underflow and overflow and 48 bins; extremes; counters; the header. -/
def recFields (k : RecKind) (body : List Int) : Bytes :=
  let at_ := fun (i : Nat) => body.getD i 0
  let n4 := fun (v : Int) => natLE 4 (v % 2 ^ 32).toNat
  let n8 := fun (v : Int) => natLE 8 (v % 2 ^ 64).toNat
  match k.typ with
  | 1 => n4 k.base ++ natLE 4 k.width ++ (List.range 50).flatMap fun i => n4 (at_ i)
  | 2 => n8 (at_ 0) ++ n8 (at_ 1) ++ n4 (at_ 2) ++ n4 (at_ 3) ++ n4 (at_ 4) ++ n4 (at_ 5) ++ n8 (at_ 6) ++ n8 (at_ 7)
  | 3 => (List.range 27).flatMap fun i => n8 (at_ i)
  | 4 => n8 (at_ 0) ++ n4 (at_ 1) ++ n4 (at_ 2) ++ n4 (at_ 3)
  | _ => []

/-- The 256 bytes of a record (Table 17.6). -/
def Rec.bytes (r : Rec) (n : Nat) : Bytes :=
  let k := recKind n
  if k.typ = 0 then List.replicate 256 0
  else
    natLE 4 r.gen.toNat ++ [BitVec.ofNat 8 k.typ, 0] ++ natLE 2 k.metric ++ natLE 2 k.source.toNat ++ [0, 0] ++
      natLE 4 r.firstCycle.toNat ++ natLE 4 r.firstHours.toNat ++ natLE 4 r.lastCycle.toNat ++ natLE 4 r.lastHours.toNat ++ [0, 0, 0, 0] ++
      padTo 220 (recFields k r.body) ++ natLE 4 r.tailGen.toNat

/-- A 4-byte count saturates. -/
def sat4 (v : Int) : Int := if v < 0xFFFFFFFF then v + 1 else 0xFFFFFFFF

/-- A histogram's body after a value: underflow, overflow, or the bin of the value. -/
def histogram (k : RecKind) (v : Int) (body : List Int) : List Int :=
  let b := body ++ List.replicate (50 - body.length) 0
  let i := if v < k.base then 0 else if k.base + 48 * k.width ≤ v then 1 else ((v - k.base) / k.width).toNat + 2
  modNth sat4 i b

/-- An extremes body after a value, with the hours and the power cycle of a new extreme. -/
def extremes (hours cycle : Nat) (v : Int) (body : List Int) : List Int :=
  match body with
  | [lo, hi, hlo, hhi, clo, chi, n, sum] =>
    let low := v < lo
    let high := hi < v
    [if low then v else lo, if high then v else hi, if low then hours else hlo, if high then hours else hhi,
     if low then cycle else clo, if high then cycle else chi, (n + 1) % 2 ^ 64, sum + v]
  | _ => [v, v, hours, hours, cycle, cycle, 1, v]

/-- A sample of a Freri receiver: its CTLE setting, its first tap, the symbols corrected in this ms (R271, records 260-289). -/
def State.laneSample (s : State) (rec : Nat) (value : Int) : State :=
  let p := (rec - 260) / 5 % 2
  let i := (rec - 260) % 5
  let pt := s.port p
  if rec < 260 ∨ 289 < rec then s
  else if rec ≤ 269 then s.setPort p { pt with ctle := pt.ctle.set i value }
  else if rec ≤ 279 then s.setPort p { pt with tap1 := pt.tap1.set i value }
  else s.setPort p { pt with symbols := pt.symbols.set i (pt.symbols.get i 0 + value.toNat) }

/-- RECORDER_SAMPLE: a sampled metric's record is updated; a cluster's supply, clock and margin are sampled while it is awake. -/
def execRecorderSample (rec : Nat) (value : Int) (s : State) : Res :=
  .next (let k := recKind rec
    let s := s.laneSample rec value
    let asleep := 82 ≤ rec && rec ≤ 189 && (s.cluster ((rec - 82) % 36)).power != .awake
    if k.typ = 1 ∧ asleep = false then
      let s := if rec = 36 then s.tempChange { s with power := { s.power with hubTemp := value } }
        else if rec < 36 then s.tempChange (s.modCluster rec fun x => { x with temp := value }) else s
      let s := if 154 ≤ rec then (if rec ≤ 189 then s.modCluster (rec - 154) fun x =>
        { x with marginLoss := (Config.baselineSlack (rec - 154) - value).toNat } else s) else s
      s.updateRec rec (histogram k value)
    else if k.typ = 2 then s.updateRec rec (extremes s.recorder.hours.toNat s.recorder.cycles.toNat value)
    else s)

/-! ## Flushes (R488, R492) -/

/-- RECORDER_FLUSH: a wanted flush starts; at most one more is pending behind one in progress. -/
def execRecorderFlush (s : State) : Res :=
  .next (if s.recorder.pendingFlush ∧ s.recorder.flushing = false then
    s.modRecorder fun r => { r with pendingFlush := false, flushing := true }
  else s)

/-- The buffer as the records 0-1,022 lie in it. -/
def Recorder.image (r : Recorder) : Bytes := (List.range 1023).flatMap fun n => (r.records.get n Rec.blank).bytes n

/-- A flush completes: the header record is made, and the older copy holds the buffer. -/
def State.flushed (s : State) : State :=
  let r := s.recorder
  let serial := max r.serialA r.serialB + 1
  let s := s.updateRec 1023 fun _ => [(serial : Int), (r.hours.toNat : Int), (r.cycles.toNat : Int), ((crc32 r.image).toNat : Int)]
  s.modRecorder fun x =>
    let older := !x.validA || (x.validB && x.serialA ≤ x.serialB)
    if older then { x with copyA := x.records, serialA := serial, validA := true, flushing := false }
    else { x with copyB := x.records, serialB := serial, validB := true, flushing := false }

/-- RECORDER_FLUSH_DONE. -/
def execRecorderFlushDone (s : State) : Res := .next (if s.recorder.flushing then s.flushed else s)

/-- RECORDER_PERIODIC_FLUSH: every 16 operating hours. -/
def execRecorderPeriodicFlush (s : State) : Res := .next s.flushWanted

/-- OPERATING_HOURS_TICK: hours count, in 1/16 h, while PORST_N is released (R491). -/
def execOperatingHoursTick (s : State) : Res :=
  .next (if s.power.porst then s else s.modRecorder fun r => { r with hours := r.hours + 1 })

/-- RECORDER.READ: records from the first one asked, with the number of the next. -/
def execRecorderRead (c : Cmd) (s : State) : Res :=
  let b := c.body
  let first := fieldLE b 0 4
  let n := fieldLE b 4 2
  runCmd 0x1001 c (b.length == 8 && zeroAt b 6 2) s fun sp s =>
    if n = 0 ∨ 256 < n ∨ 1024 ≤ first then s.reject c cInvalid
    else
      let k := min n (1024 - first)
      answer c s sp (natLE 2 k ++ [0, 0] ++ natLE 4 (first + k) ++
        (List.range k).flatMap fun i => (s.recorder.records.get (first + i) Rec.blank).bytes (first + i))

/-! ## DEVICE commands (Table 11.3) -/

/-- The device states by number (Table 10.8). -/
def DevState.code (d : DevState) : Nat :=
  match d with
  | .booting => 0
  | .ready => 1
  | .tamperErased => 2
  | .faulted => 3
  | .grave => 4
  | .stopping => 5

/-- The profile by number. -/
def Profile.byte (p : Profile) : Byte :=
  match p with
  | .compact => 0
  | .wide => 1
  | .unformatted => 0xFF

/-- DEVICE.INFO. -/
def execDeviceInfo (c : Cmd) (s : State) : Res :=
  runCmd 0x0101 c c.body.isEmpty s fun sp s =>
    answer c s sp (natLE 16 Config.deviceId.toNat ++ [1, Config.berconMinor] ++ natLE 2 Config.berconBuild.toNat ++
      [0xB1, s.lc.code, s.lc.gen, s.tenancy.profile.byte] ++ natBE 48 s.power.running.toNat ++ List.replicate 8 0)

/-- The clusters that meet a test. -/
def State.clusterCount (s : State) (p : Cluster → Bool) : Nat := ((List.range 36).filter fun c => p (s.cluster c)).length

/-- DEVICE.STATUS: the telemetry of VIN_CORE is a free value. -/
def execDeviceStatus (c : Cmd) (s : State) : Res :=
  runCmd 0x0102 c c.body.isEmpty s fun sp s =>
    let rsp := natLE 1 s.power.dev.code ++ [0, 0, 0] ++ natLE 4 s.recorder.hours.toNat ++ natLE 4 s.recorder.cycles.toNat ++
      [BitVec.ofNat 8 (s.clusterCount fun x => x.power == .awake), BitVec.ofNat 8 (s.clusterCount fun x => x.state == .inService),
       BitVec.ofNat 8 (s.clusterCount fun x => x.state == .reserve), 0] ++
      intLE2 s.hottest ++ natLE 2 s.free.toNat ++ [BitVec.ofNat 8 s.faults.queue.length, 0, 0, 0]
    answer c s.drawn sp rsp

/-- DEVICE.RESET: the completion is written, and the warm reset begins 100 µs later. -/
def execDeviceReset (c : Cmd) (s : State) : Res :=
  runCmd 0x0103 c c.body.isEmpty s fun sp s =>
    answer c { s with power := { s.power with resetDue := true } } sp []

/-- DEVICE.STANDBY: with every tenant lane CLOSED; a hold anywhere defers the entry, and the completion with it (R383). -/
def execDeviceStandby (c : Cmd) (s : State) : Res :=
  runCmd 0x0104 c c.body.isEmpty s fun sp s =>
    if s.tenantLanes.any fun l => (s.lane l).state != .closed then s.reject c cBadState
    else
      let s := s.begin sp c
      if s.steward.holds.isEmpty then s.startStandby c
      else ({ s with power := { s.power with standby := .deferred, standbyCmd := some c } }).defer (srcHub 0) 1

end Sys2Proof.Machine
end

