-- ==== Sys2Proof/Machine/Referee.lean ====
section
/-! DEFINITION. The referee and failover (R385-R388), changes of gate rules (R369-R371), holds (R382, R383) and the share's
stores (R379). -/

namespace Sys2Proof.Machine

/-- Change the Steward. -/
def State.modSteward (s : State) (f : Steward → Steward) : State := { s with steward := f s.steward }

/-- A pair's state. -/
def Steward.pair (x : Steward) (south : Bool) : PairState := if south then x.south else x.north

/-- Put a pair's state. -/
def Steward.setPair (x : Steward) (south : Bool) (p : PairState) : Steward :=
  if south then { x with south := p } else { x with north := p }

/-- Whether a pair holds the token and runs. -/
def Steward.held (x : Steward) : Bool := x.pair x.holderSouth == .holder

/-! ## Claims (R387, Table 12.8) -/

/-- Whether a claim's pair may claim: it has not failed and is not under its self-test. -/
def Steward.mayClaim (x : Steward) (south : Bool) : Bool := x.pair south == .holder || x.pair south == .standby

/-- The decision on the claims of one step that carry E: a renewal by the holder stands; else a takeover by the other pair while
the lapse flag is set, or the claim at power-up, North first. -/
def Steward.judge (x : Steward) (cs : List Claim) : Steward :=
  let cs := cs.filter fun (k : Claim) => k.epoch == x.epoch && x.mayClaim k.south
  if x.takeover.isSome then x
  else if x.epoch = 0 ∧ !x.held then
    match cs.find? fun (k : Claim) => !k.south with
    | some _ => { x with takeover := some false }
    | .none => if cs.isEmpty then x else { x with takeover := some true }
  else if x.held ∧ cs.any (fun (k : Claim) => k.renewal && k.south == x.holderSouth) then { x with lapse := false }
  else if x.lapse ∧ cs.any (fun (k : Claim) => !k.renewal && k.south != x.holderSouth) then { x with takeover := some (!x.holderSouth) }
  else x

/-- Decide a step's claims; an epoch that differs from its shadow is the grave fault REFEREE_SHADOW instead (R385). A takeover that is
accepted fences the other pair at every gate (Table 12.8, R386). -/
def State.refereeStep (s : State) (cs : List Claim) : State :=
  if s.steward.epochShadow != ~~~s.steward.epoch then s.fault 4 0x3A (srcHub 0x06) 0
  else
    let before := s.steward.takeover
    let s := s.modSteward fun x => x.judge cs
    match before, s.steward.takeover with
    | .none, some south => s.setFences (!south) true
    | _, _ => s

/-- HOLDER_RENEWAL: the holder's renewal, carrying the epoch it holds. -/
def execHolderRenewal (s : State) : Res :=
  .next (if s.steward.held ∧ !s.steward.mismatch then
    s.refereeStep [{ south := s.steward.holderSouth, renewal := true, epoch := s.steward.epoch }]
  else s)

/-- REFEREE_CLAIM: the claims of one step. -/
def execRefereeClaim (claims : List Claim) (s : State) : Res := .next (s.refereeStep claims)

/-- CLAIM_LAPSE: 200 µs without a renewal; a holder that fell silent has failed. -/
def execClaimLapse (s : State) : Res := .next (s.modSteward fun x => { x with lapse := true })

/-- A pair fails for a cause (Table 17.3); with no pair left that is STEWARD_NONE (R388). -/
def State.pairFails (s : State) (south : Bool) (cause : Nat) : State :=
  let s := s.fault 2 0x17 (srcPair south) (BitVec.ofNat 64 cause)
  if s.steward.pair (!south) = .failed then
    (s.modSteward fun x => x.setPair south .failed).fault 3 0x18 (srcPair south) 0
  else s

/-- LOCKSTEP_MISMATCH: the holder halts, and the lapse flag is set at once (R388). -/
def execLockstepMismatch (s : State) : Res :=
  .next (if s.steward.held ∧ s.steward.mismatch = false then
    (s.modSteward fun x => { x with lapse := true, mismatch := true }).pairFails s.steward.holderSouth 1
  else s)

/-! ## Failover (R334, R388) -/

/-- The version of a command's object now (Table 8.3). -/
def State.objectVersion (s : State) (kind : Nat) (obj : Word) : Nat :=
  match kind with
  | 2 => (s.versionOf obj).toNat
  | 4 => s.power.bootSerial.toNat
  | 5 => (s.cfgSerial (obj.truncate 12)).toNat
  | _ => 0

/-- Leave the open intents of a command that ends to their OUTCOMEs (R254). -/
def State.orphanCmd (s : State) (c : Cmd) : State :=
  let rs := (lastUse (s.journal.recordsOf c.colour c.ticket)).filter fun (m : Milestone) => m.lane == 16384
  let known := fun (m : Milestone) => s.journal.orphans.any fun (o : Orphan) => o.record == m
  ((openIntents rs).filter fun m => !known m).foldl (fun s (m : Milestone) =>
    let o : Orphan := { record := m, issued := true, left := BitVec.ofNat 64 (s.objectVersion m.code.toNat m.valA), unknown := false, settled := true }
    { s with journal := { s.journal with orphans := s.journal.orphans ++ [o] } }) s

/-- Write the OUTCOMEs a command that ends owes (R252). -/
def State.payCommand (s : State) (c : Cmd) : State :=
  (s.journal.orphans.filter fun (o : Orphan) =>
    o.settled && o.record.lane == 16384 && o.record.colour == c.colour && o.record.ticket == c.ticket).foldl State.writeOutcome s

/-- A started command ends with the failed pair: if it is journalled, ENDED 0x07, the OUTCOMEs of its open intents, and FINAL as its
completion COMMAND_INTERRUPTED is written (R334, R547). -/
def State.interruptCmd (s : State) (x : InFlight) : State :=
  let journalled := (specOf x.opcode.toNat).any fun (sp : Spec) => sp.journal
  let s := if journalled then
      let s := ((s.ended (cmdDesc x.cmd) 7).orphanCmd x.cmd).payCommand x.cmd
      s.writeMile (s.mile (cmdDesc x.cmd) 7 false true (BitVec.ofNat 11 cInterrupted) 0 (BitVec.ofNat 64 cInterrupted) s.stamp)
    else s
  s.reply x.cmd cInterrupted false [] 0 journalled

/-- What the new holder does with the work of the failed pair: started commands end, authorisations are void, an open carry closes,
the holds are released, handlings begin again (R388, R443, R484). -/
def State.takeOver (s : State) : State :=
  let s := (s.pcie.inFlight.filter fun (x : InFlight) => x.started).foldl State.interruptCmd s
  let s := s.abortCeremony
  let s := { s with
    keys := { s.keys with carry := .none },
    power := { s.power with standbyCmd := .none, standby := if s.power.standby = Standby.deferred then Standby.none else s.power.standby },
    faults := { s.faults with unhandled := s.faults.handling.reverse ++ s.faults.unhandled, handling := [] } }
  let s := { s with steward := { s.steward with deferred := s.steward.deferred.filter fun r => r.2 != 1 } }
  s.steward.holds.foldl State.releaseHold s

/-- The token passes: E rises by 1 with its shadow, the lapse flag clears, the new holder's fence lines open; the pair that lost it runs
its self-test. -/
def State.grantToken (s : State) (south : Bool) : State :=
  (s.setFences south false).modSteward fun x =>
    let x := if x.pair (!south) = .holder then x.setPair (!south) .selfTest else x
    let x := x.setPair south .holder
    { x with epoch := x.epoch + 1, epochShadow := ~~~(x.epoch + 1), holderSouth := south, lapse := false, takeover := .none, mismatch := false }

/-- FAILOVER_GRANT: every gate has drained. At power-up there is no work to take over. -/
def execFailoverGrant (s : State) : Res :=
  .next (match s.steward.takeover with
    | .none => s
    | some south =>
      if (s.gates.any fun g => g.2.draining) then s
      else if s.steward.held ∧ south != s.steward.holderSouth then
        let s := if s.steward.mismatch then s else s.fault 2 0x17 (srcPair (!south)) 3
        ((s.grantToken south).modSteward fun x => { x with verifying := true }).takeOver
      else s.grantToken south)

/-- STEWARD_SELFTEST_DONE: the pair becomes the standby, or fails; with no pair left that is STEWARD_NONE (R388). -/
def execStewardSelftestDone (south : Bool) (ok : Bool) (s : State) : Res :=
  .next (if s.steward.pair south ≠ .selfTest then s
    else if ok then (s.modSteward fun x => x.setPair south .standby).rerunDone (srcPair south) true
    else
      ((s.modSteward fun x => x.setPair south .failed).pairFails south 2).rerunDone (srcPair south) false)

/-! ## Gates (R369-R371) -/

/-- GATE_EPOCH_FLIP: the new rules go to the inactive bank and the epoch flips; a gate still draining accepts no change. -/
def execGateEpochFlip (gate : Nat) (rules : List Region) (s : State) : Res :=
  checked (gateOk gate)
    (let g := s.gate gate
     if g.draining then s
     else s.setGate gate (g.flip (rules.map fun r => { r with enableShadow := !r.enable })))

/-- GATE_DRAIN_DONE: the change is complete, and with it the commands that waited for it. -/
def execGateDrainDone (gate : Nat) (s : State) : Res :=
  checked (gateOk gate)
    (let done := s.steward.ruleCmds.filter fun q => q.1 == gate
     let s := s.setGate gate { s.gate gate with draining := false }
     let s := s.modSteward fun x => { x with ruleCmds := x.ruleCmds.filter fun q => q.1 != gate }
     done.foldl (fun s q => s.endLater q.2 cOk) s)

/-- GATE_DRAIN_OVERDUE: the drain has lasted 2 µs; the gate goes on under its new bank. -/
def execGateDrainOverdue (gate : Nat) (s : State) : Res :=
  checked (gateOk gate)
    (if (s.gate gate).draining then
      s.fault 2 0x36 (gateSrc gate) 0
    else s)

/-! ## Holds and shares -/

/-- INNER_HOLD_OVERDUE: a hold of 10 ms is reported, and stays (R382). -/
def execInnerHoldOverdue (src : BitVec 16) (s : State) : Res := .next (if s.unitHeld src then s.fault 2 0x39 src 0 else s)

/-- HOLD_RELEASE: a hold is released; after a unit's last the deferred requests run (R383). -/
def execHoldRelease (src : BitVec 16) (s : State) : Res := .next (if s.unitHeld src then s.releaseHold src else s)

/-- SHARE_STORE_PROPAGATED: the mirrored bytes of a colour reach every copy (R379). -/
def execShareStorePropagated (colour : Colour) (s : State) : Res :=
  .next (match s.part? colour with
    | .none => s
    | some p =>
      let data := s.load (dramBase + granuleAddr (p.granules.getD 0 0)) (shareLen s.tenancy.profile p)
      let sz := shareSize s.tenancy.profile
      (List.range 36).foldl (fun s c =>
        match (s.cluster c).shares.findIdx? (· == colour) with
        | some i => s.store (storeBase c + 0xC0000 + i * sz) data
        | .none => s) s)

end Sys2Proof.Machine
end

