-- ==== Sys2Proof/Machine/Power.lean ====
section
/-! DEFINITION. Power (chapter 18): the power-fail warning, power loss, the warm reset, deep standby, start-up (Table 18.4), the
voltage and clock loop, the governor. -/

namespace Sys2Proof.Machine

/-- Change the power bookkeeping. -/
def State.modPower (s : State) (f : Power → Power) : State := { s with power := f s.power }

/-! ## The power-fail warning (R265, R496, R497) -/

/-- A flush in progress when it is cut off: the copy it was writing no longer checks (R492). -/
def Recorder.cutOff (r : Recorder) : Recorder :=
  if r.flushing then
    let serial := max r.serialA r.serialB + 1
    if !r.validA || (r.validB && r.serialA ≤ r.serialB) then { r with flushing := false, serialA := serial, validA := false }
    else { r with flushing := false, serialB := serial, validB := false }
  else r

/-- PFW_N_ASSERT: dispatch stops, no VAULT_PUT goes out; a flush in progress stops, and a full one is wanted. -/
def execPfwNAssert (s : State) : Res :=
  .next (if s.power.porst ∨ s.power.pfw ≠ .none then s
    else
      let s := s.modPower fun p => { p with pfw := .grace, pfwReleased := false }
      let s := { s with depot := { s.depot with stopped := true } }
      s.modRecorder fun r => { r.cutOff with pendingFlush := true })

/-- Every item that runs ends without a response, for a reason of Table 8.5. The Steward's own jobs end too; their commands' end is the
restart's. -/
def State.endRunning (s : State) (reason : BitVec 11) : State :=
  let us := (s.seats.filter fun p => p.2.phase != Phase.empty).map fun p => seatOfKey p.1
  let s := us.foldl (fun s u => s.killSeat u reason) s
  let js := s.clusters.flatMap fun q => (q.2.mae.running.toList ++ q.2.mae.saved).map fun (j : MaeJob) => j.desc
  let s := { s with clusters := s.clusters.mapVals (fun c => { c with mae := { c.mae with running := .none, saved := [] } }),
                    depot := { s.depot with own := [] } }
  (js.filter fun d => d.own.isNone).foldl (fun s d => s.itemEnded d reason) s

/-- Every vault operation is abandoned (R264, R265): a put that is not installed never will be. -/
def State.abandonVault (s : State) : State :=
  let gone := s.vault.ops
  let s := s.modVault fun v => { v with ops := [] }
  (gone.filter fun (o : VaultOp) => o.isPut).foldl (fun s o => s.vaultReply o 4 0 .none) s

/-- An activation that has not committed its boot image ends with its intent open (R217, R254). -/
def State.dropActivation (s : State) : State :=
  match s.power.activateCmd with
  | some c =>
    let n := s.power.bootSerial.toNat
    (s.cmdOrphan c 4 0 n true n).modPower fun p => { p with activating := false, activateCmd := .none }
  | .none => s

/-- PFW_GRACE_END: what still runs is ended, open intents get their OUTCOME, the vault root and the watermarks are anchored, the
recorder is flushed; transmitters and the timing port idle. A warning already withdrawn ends in a warm reset (R497). -/
def execPfwGraceEnd (s : State) : Res :=
  .next (if s.power.pfw ≠ .grace then s
    else
      let s := (s.endRunning 5).dropActivation.abandonVault.writeOutcomes.anchorRoot.writeMarks
      let s := s.flushed.modRecorder fun r => { r with pendingFlush := false }
      let s := (s.portDown 0).portDown 1
      let s := { s with time := { s.time with running := false } }
      let s := (s.cardOff 0).cardOff 1
      s.modPower fun p => { p with pfw := .done, resetDue := p.resetDue || p.pfwReleased })

/-- PFW_N_RELEASE: the steps of the warning are completed first, then the warm reset follows. -/
def execPfwNRelease (s : State) : Res :=
  .next (match s.power.pfw with
    | .none => s
    | .grace => s.modPower fun p => { p with pfwReleased := true }
    | .done => s.modPower fun p => { p with resetDue := true })

/-! ## What every restart does -/

/-- A cluster's designation after a restart: an engagement in progress is undone, a retired cluster stays retired (R514). -/
def ReserveState.settled (x : ReserveState) : ReserveState :=
  match x with
  | .failing => .inService
  | .engaging => .reserve
  | y => y

/-- A cluster as a restart leaves it: powered off, everything in it cleared; its wear and its junction are what they are. -/
def Cluster.restarted (x : Cluster) (c : Nat) : Cluster :=
  { Cluster.delivered c with
    state := x.state.settled, temp := x.temp, slack := x.slack, marginLoss := x.marginLoss, corrected := x.corrected }

/-- A lane as a restart leaves it, held for its colour until step 9a (R543). -/
def Lane.restarted (l : Lane) : Lane := { l with state := .closed, cause := .restart, placement := [], warmUse := [], exceptions := 0 }

/-- A virtual function as MRAM assigns it: ACTIVE, its RST_ registers kept (R327). -/
def Func.restarted (colour : Colour) (vectors : Nat) (f : Func) : Func :=
  { Func.reset with
    state := .active, colour := colour, vectors := vectors, rstSerial := f.rstSerial, rstItemsDrained := f.rstItemsDrained,
    rstItemsSquashed := f.rstItemsSquashed, rstCmdsDrained := f.rstCmdsDrained, rstCmdsSquashed := f.rstCmdsSquashed,
    rstStreams := f.rstStreams, rstTime := f.rstTime }

/-- The endpoint after its link went down: the PF at its reset values, the VFs as assigned, VF Enable clear, nothing fetched. -/
def State.restartPcie (s : State) (keepRst : Bool) : State :=
  let old := fun (fn : Nat) => if keepRst then s.func fn else Func.default fn
  let pf : Func := (old 0).restarted 0 64
  let vfs := (s.tenancy.parts.filter fun p => p.2.vf != 0).map fun p => (p.2.vf, (old p.2.vf).restarted (BitVec.ofNat 12 p.1) p.2.vectors)
  { s with pcie := { Pcie.reset with
      funcs := vfs.foldl (fun (t : Tbl Func) p => t.set p.1 p.2) (Tbl.set [] 0 pf), pkgSerial := s.pcie.pkgSerial, restored := s.pcie.restored } }

/-- Partitions lose what a deletion in progress had begun. -/
def State.undelete (s : State) : State :=
  { s with tenancy := { s.tenancy with parts := s.tenancy.parts.mapVals fun p => { p with deleting := .none } } }

/-- A fault handling in progress begins again (R484). -/
def Faults.rehandle (f : Faults) : Faults := { f with unhandled := f.handling.reverse ++ f.unhandled, handling := [] }

/-- The card slots after a restart: every card unpowered, no ceremony; the roster and the unanswered record writes are kept. -/
def Cards.restarted (c : Cards) : Cards :=
  { Cards.reset with
    slots := c.slots.mapVals fun x => { CardSlot.fresh with inserted := x.inserted, phase := if x.inserted then .present else .off }
    roster := c.roster, torn := c.torn }

/-! ## Power loss (R264, R266, R498, R507, R527) -/

/-- The serial or version an open intent's object has after a power loss; a key record is gone with the warm store, and a vault unit
or a card's area is read later (R266). -/
def State.orphanAfterLoss (s : State) (m : Milestone) : Orphan :=
  let now := m.code.toNat == 4 || m.code.toNat == 5
  let gone := m.code.toNat == 2 || (m.code.toNat == 1 && (s.vault.state == .lost || s.vault.state == .unformatted))
  { record := m, issued := true, left := if now then BitVec.ofNat 64 (s.objectVersion m.code.toNat m.valA) else 0,
    unknown := gone, settled := now || gone }

/-- The lane numbers a power loss leaves unsettled: those of items whose anchors show an effect that landed or may have, no written
watermark covering them (R256). -/
def Journal.unsettledAfterLoss (j : Journal) : Tbl (List (BitVec 32)) :=
  j.anchors.foldl (fun t m =>
    let u := t.get m.lane []
    let rs := j.anchors.filter (·.sameUse m)
    if m.lane = 16384 ∨ u.contains m.seq ∨ (j.mramMarks.find? m.lane).any (seqLe m.seq) ∨
        (!landedEffect rs && (openIntents rs).isEmpty) then t
    else t.set m.lane (u ++ [m.seq])) []

/-- The journal after a power loss: the anchors and the watermarks as last written, and the intents still open among them. -/
def State.journalAfterLoss (s : State) : Journal :=
  let j := s.journal
  { Journal.reset with
    anchors := j.anchors, watermarks := j.mramMarks, mramMarks := j.mramMarks, markSecs := j.markSecs, markNanos := j.markNanos,
    unsettled := j.unsettledAfterLoss, orphans := (openIntents j.anchors).map s.orphanAfterLoss, lostAt := some s.now }

/-- The collector after PORST_N: with VIN_CORE off or a rail lost it keeps the latch alone; the latch goes when VAON and VIN_CORE are
both off (R479, R484). -/
def Faults.afterLoss (f : Faults) (railsLost vaonOff : Bool) : Faults :=
  let keep := f.grave && !(railsLost && vaonOff)
  if railsLost then { Faults.reset with grave := keep }
  else { f.rehandle with
    grave := keep, aliveOn := false, aliveOut := false, peerSeen := false, peerLost := false,
    active := f.active.filter fun (a : Active) => a.kind != 0x18 }

/-- What boot flash and MRAM keep of the power chapter's state. -/
def Power.afterLoss (p : Power) : Power :=
  { Power.reset with
    porst := true, vinOff := p.vinOff, vaonOff := p.vaonOff, boot := p.boot, bootSerial := p.bootSerial, staged := p.staged,
    stagedTotal := p.stagedTotal, stagedLast := p.stagedLast, stagedState := p.stagedState, flashSettings := p.flashSettings,
    spare := p.spare, remapped := p.remapped, remapQueue := p.remapQueue, hubTemp := p.hubTemp }

/-- A port's configuration is in MRAM (R546), its reference clock on the board. -/
def Port.afterLoss (p : Port) : Port :=
  { Port.delivered with enable := p.enable, drainUs := p.drainUs, equal := p.equal, baseKey := p.baseKey, refclk := p.refclk }

/-- Everything stops: PORST_N is asserted, or a rail fell. What lies outside MRAM, OTP, boot flash and the backup domain is lost. -/
def State.powerLoss (s : State) (railsLost : Bool) : State :=
  let s := (s.cardOffSlot 0).cardOffSlot 1
  let s := ((s.portDown 0).portDown 1).aliveStop
  let s := ({ s with tenancy := { s.tenancy with images := [] } }.undelete.restartPcie false).emit .linkDown
  let r := s.recorder.cutOff
  { State.reset with
    pending := s.pending, now := s.now, freeCtr := s.freeCtr, out := s.out, tenancy := s.tenancy, pcie := s.pcie,
    clusters := s.clusters.map fun p => (p.1, p.2.restarted p.1)
    lanes := s.lanes.mapVals fun l => { l.restarted with enqueued := 0, dispatched := 0, squashed := 0, corrected := 0, overruns := 0 }
    depot := { Depot.reset with seq := s.depot.seqAnchor + 0x1000000, seqAnchor := s.depot.seqAnchor, stopped := true }
    keys := { Keys.reset with bbk := s.keys.bbk }
    vault := s.vault.afterLoss
    journal := s.journalAfterLoss
    port0 := s.port0.afterLoss, port1 := s.port1.afterLoss, openSerial := s.openSerial
    cards := s.cards.restarted
    tamper := { s.tamper with running := .none, waiting := [], done := [], current := [], seed := 0 }
    lc := { s.lc with moving := .none, debug := false, nonce := .none }
    faults := s.faults.afterLoss (railsLost || s.power.vinOff) s.power.vaonOff
    recorder := { r with records := [], pendingFlush := false }
    power := s.power.afterLoss }

/-- PORST_N_ASSERT. -/
def execPorstNAssert (s : State) : Res := .next (if s.power.porst then s else s.powerLoss false)

/-- The rails by number: 0 VIN_CORE, 1 VAON, 2 VMEM, 3 VMEM1, 4 VSER, 5 VSERH, 6 VIO, 7 VBAT. -/
def railOk (r : Nat) : Bool := decide (r ≤ 7)

/-- The backup domain without any supply: the BBK and its evidence are gone (R460). -/
def State.backupDies (s : State) : State :=
  let s := { s with keys := { s.keys with bbk := .none } }
  s.modTamper fun t => { t with
    sources := [], flag11 := false, count11 := 0, flag12 := false, count12 := 0, powered := false }

/-- RAIL_BELOW_THRESHOLD: a monitored rail acts as PORST_N (R498); VBAT is not monitored, but alone it carries the backup domain. -/
def execRailBelowThreshold (rail : Nat) (s : State) : Res :=
  checked (railOk rail)
    (if rail = 7 then (if s.power.vaonOff ∧ s.tamper.powered then s.backupDies else s)
    else
      let s := s.modPower fun p => { p with vinOff := p.vinOff || rail == 0, vaonOff := p.vaonOff || rail == 1 }
      if s.power.porst then { s with faults := s.faults.afterLoss true s.power.vaonOff } else s.powerLoss true)

/-- PORST_N_RELEASE: the cold start begins; the power-cycle count rises if VIN_CORE has been off (R491); the timing port starts
(R400). -/
def execPorstNRelease (s : State) : Res :=
  .next (if s.power.porst = false then s
    else
      let s := if s.power.vinOff then s.modRecorder fun r => { r with cycles := r.cycles + 1 } else s
      let s := { s with time := { s.time with running := true } }
      s.modPower fun p => { p with porst := false, vinOff := false, vaonOff := false, kind := .cold, step := .s2, released := s.now })

/-! ## Warm reset (R264, R394, R400, R507, R546) -/

/-- A command running at a warm reset: ENDED 0x03 where it is journalled, its intents left to their OUTCOMEs. -/
def State.dropCmd (s : State) (x : InFlight) : State :=
  let journalled := (specOf x.opcode.toNat).any fun (sp : Spec) => sp.journal
  if x.started && journalled then (s.ended (cmdDesc x.cmd) 3).orphanCmd x.cmd else s

/-- Every item, running or queued, and every command ends; open intents get their OUTCOME. A response held back is lost, its item's final
milestone written (Table 8.8). -/
def State.endForReset (s : State) : State :=
  let s := (s.endRunning 3).discardItems (fun _ => true) 3
  let s := s.pcie.inFlight.foldl State.dropCmd s
  ({ s with held := [] }).dropActivation.abandonVault.writeOutcomes

/-- A port after a warm reset or an exit from deep standby: DOWN, without sessions (R546). -/
def Port.restarted (p : Port) : Port :=
  { p with sessions := [], nextPort := .none, streams := [], stop := .none, stopClears := false, partnerStop := .none, held := [],
           violDown := false, waitQ := [], retry := [] }

/-- The expanders and the kettle start again (Table 14.4). -/
def Entropy.cleared (e : Entropy) : Entropy :=
  { e with pool := 0, credit := 0, serial := 0, draws := [], hub := Expander.fresh, hubKat := false, hubDrawn := false, firstSeed := false }

/-- Time after a warm reset: HOLDOVER if it was valid, else INVALID (Table 13.4). -/
def Time.afterWarm (t : Time) (now : Nat) : Time :=
  let valid := t.quality == .locked || t.quality == .holdover
  { t.limited 100 with
    running := false, quality := if valid then .holdover else .invalid, holdSince := if t.quality = .holdover then t.holdSince else now
    masters := [], selected := .none, sync := .none, delay := .none, ms := .none, t3 := .none, pdelay := .none, pdelayResp := .none
    goodRun := 0, badRun := 0, usable := 0 }

/-- WARM_RESET: the reset that DEVICE.RESET, a withdrawn warning or FW.ACTIVATE made due. The fill serials start again at power-up
only (R127). -/
def execWarmReset (s : State) : Res :=
  .next (if s.power.resetDue = false ∨ s.power.porst then s
    else
      let s := (s.setDev .booting).flushWanted
      let s := (((s.cardOff 0).cardOff 1).abortCeremony.portDown 0).portDown 1
      let s := s.endForReset
      let s := (s.undelete.restartPcie true).emit .linkDown
      let s := s.wipe 0 dramBase
      { s with
        seats := [], tes := s.tes.mapVals fun t => { Te.fresh with serial := t.serial }
        clusters := s.clusters.map fun p => (p.1, p.2.restarted p.1)
        lanes := s.lanes.mapVals Lane.restarted
        depot := { s.depot with items := [], packages := [], stopped := true }
        keys := { s.keys with caddy := [], partKeys := [], fbr := .none, devWrap := .none, devBind := .none, carry := .none, suspended := false }
        vault := s.vault.afterWarm
        port0 := s.port0.restarted, port1 := s.port1.restarted
        steward := { s.steward with north := .standby, south := .standby, mismatch := false, takeover := .none, holds := [], deferred := [],
                                    verifying := false, lapse := true }
        time := s.time.afterWarm s.now
        entropy := s.entropy.cleared
        cards := s.cards.restarted
        lc := { s.lc with moving := .none, nonce := .none, debug := false }
        faults := s.faults.rehandle
        power := { s.power with
          pfw := .none, pfwReleased := false, kind := .warm, step := .s2, standby := .none, standbyCmd := .none, resetDue := false,
          activating := false, activateCmd := .none, samples := [], governed := false, engagements := [], selftests := [] } })

/-! ## Deep standby (R504, R505, Tables 13.4 and 14.4) -/

/-- DEEP_STANDBY_ENTERED: both ports are DOWN; the slots stop, the anchors and the flush are made, the clusters lose power, the
sessions are lost (R546). -/
def execDeepStandbyEntered (s : State) : Res :=
  .next (if s.power.standby ≠ .entering ∨ s.port0.link ≠ .down ∨ s.port1.link ≠ .down then s
    else
      let s := ((s.cardOff 0).cardOff 1).abortCeremony.setDev .booting
      let s := s.anchorRoot.writeMarks.flushed
      let s := (List.range 36).foldl (fun s c => if s.clusters.has c then s.endCluster c else s) s
      { s with
        seats := [], tes := []
        clusters := s.clusters.map fun p => (p.1, p.2.restarted p.1)
        depot := { s.depot with stopped := true }
        vault := s.vault.afterWarm
        port0 := s.port0.restarted, port1 := s.port1.restarted
        time := { s.time.afterWarm s.now with quality := .invalid, ppsOut := false }
        entropy := { s.entropy.cleared with cells := s.entropy.cells.mapVals Cell.stop, kettleKat := false }
        power := { s.power with standby := .entered, step := .s1, engagements := [], selftests := [] } })

/-! ## Start-up (Table 18.4, R508-R510) -/

/-- The next step of start-up. -/
def State.toStep (s : State) (x : StartStep) : State := s.modPower fun p => { p with step := x }

/-- The life-cycle decode (R467): a pending group's wipes are repeated and it is blown; bits blown in two copies are blown in the third;
a stray bit is LC_OTP_CORRECTED; a word that decodes to no state is LC_DECODE, and start-up stops. -/
def State.lcStart (s : State) : State :=
  let pend := lcPending s.lc.copy0 s.lc.copy1 s.lc.copy2
  let s := match pend with
    | some t => ({ s with keys := { s.keys with bbk := .none } }.lcWipe t).lcEnter t
    | .none => s
  let m := lcMajority s.lc.copy0 s.lc.copy1 s.lc.copy2
  let stray := (s.lc.copy0 ||| s.lc.copy1 ||| s.lc.copy2) &&& ~~~m
  let s := s.modLc fun l => { l with copy0 := l.copy0 ||| m, copy1 := l.copy1 ||| m, copy2 := l.copy2 ||| m }
  let s := if stray = 0 then s else s.fault 1 0x67 (srcHub 0x0A) 0
  match lcDecode m with
  | some k =>
    let g := if k = 0x0C then s.lc.gen.toNat else lcGen m
    (s.modLc fun l => { l with code := BitVec.ofNat 8 k, shadow := ~~~(BitVec.ofNat 8 k), gen := BitVec.ofNat 8 g }).toStep .s3
  | .none => (s.fault 4 0x65 (srcHub 0x0A) 0).toStep .stopped

/-- The backup domain at main power-up (R460, R461): one that lost all power sets flag 11, and its configuration comes from MRAM. -/
def State.backupStart (s : State) : State :=
  let s := if s.tamper.powered then s
    else
      let s := { s with keys := { s.keys with bbk := .none } }
      s.modTamper fun t => { t with
        powered := true, flag11 := true, count11 := t.count11 + 1
        sources := (List.range 11).map fun n =>
          let c := t.mramCfg.get n (SourceCfg.default n)
          (n, { Source.default n with cfg := c, shadow := c }) }
  s.modTamper fun t => { t with hx3 := min 256 (t.hx3 + t.hx3Due), hx3Due := 0 }

/-- The entropy path starts: its known-answer tests, and the first draw waits (R407, R415). At power-up every cell runs its start-up
test, at an exit the cells in service, at a warm reset the cells run on. -/
def State.entropyStart (s : State) : State :=
  let s := match s.power.kind with
    | .cold => (List.range 16).foldl (fun (s : State) n => s.setCell n (s.cell n).start) s
    | .exit => (List.range 16).foldl (fun (s : State) n => if (s.cell n).state = CellState.inService then s.setCell n (s.cell n).start else s) s
    | .warm => s
  let s := if s.power.kind = .warm then s else s.startKat (srcHub 0x0B)
  (s.startKat (srcHub 0x0C)).askDraw 36

/-- The recorder is loaded from the newer copy that checks (R488). -/
def State.recorderStart (s : State) (newer older : Bool) : State :=
  let r := s.recorder
  let aNew := r.serialB ≤ r.serialA
  let okNew := newer && (if aNew then r.validA else r.validB)
  let okOld := older && (if aNew then r.validB else r.validA)
  let load := fun (a : Bool) => s.modRecorder fun r => { r with records := if a then r.copyA else r.copyB }
  if okNew then load aNew
  else if okOld then (load (!aNew)).fault 0 0x72 (srcHub 8) 1
  else (s.modRecorder fun r => { r with records := [] }).fault 0 0x72 (srcHub 8) 2

/-- Step 3: the referee selects the pair, North first; a pair whose self-test failed is out, and with none start-up stops (R385,
R388). -/
def State.selectPair (s : State) (north south : Bool) : State :=
  let s := s.modSteward fun x => { x with north := if north then .standby else .failed, south := if south then .standby else .failed }
  let s := if north then s else s.fault 2 0x17 (srcPair false) 2
  let s := if south then s else s.fault 2 0x17 (srcPair true) 2
  if north || south then ((s.setFences north true).grantToken (!north)).toStep .s4 else (s.fault 3 0x18 (srcPair true) 0).toStep .stopped

/-- Whether the slot settings record is sound (Table 15.1). -/
def slotRecordOk (r : Bytes) : Bool :=
  r.length == 16 && fieldBE r 0 4 == 0x43534C54 && fieldBE r 12 4 == (crc32 (r.take 12)).toNat && decide (20 ≤ fieldBE r 4 1) &&
    decide (fieldBE r 4 1 ≤ 100) && decide (1860 ≤ fieldBE r 6 2) && decide (100 ≤ fieldBE r 8 2) && decide (fieldBE r 8 2 ≤ 3000)

/-- The slot settings are read; a record not sound is ignored in whole (R432). -/
def State.slotSettings (s : State) (r : Bytes) : State :=
  let s := s.modPower fun p => { p with flashSettings := r }
  if slotRecordOk r then
    { s with cards := { s.cards with divisor := fieldBE r 4 1, classB := BitVec.ofNat 2 (fieldBE r 5 1), trailing := fieldBE r 6 2,
                                     wtxCeil := fieldBE r 8 2 } }
  else
    { s with cards := { s.cards with divisor := 25, classB := 0, trailing := 1860, wtxCeil := 1000 } }.fault 0 0x53 (srcHub 0x12) 0

/-- Step 5: post-package repair releases the spare pages, except at an exit (R518, R519). -/
def State.trainMemory (s : State) : State :=
  if s.power.kind = .exit then s else s.modPower fun p => { p with spare := 16384, remapped := [], remapQueue := [], rowErrors := [] }

/-- Step 7: the roots are steeped, without a BBK the vault and the tins are gone; a cluster transfer key is drawn for every cluster that
is not retired, and the shield's seed. -/
def State.steepRoots (s : State) : State :=
  let s := if s.power.kind = .exit then s
    else
      let s := s.formRoots.formPartKeys s.colours
      let s := s.modPower fun p => { p with erased := s.keys.bbk.isNone }
      if s.keys.bbk.isNone then s.vaultLost else s
  let k := BitVec.ofNat 256 (beNat (s.hubBytes 32))
  let s := s.hubRead 32
  let s := (List.range 36).foldl (fun s c => if (s.cluster c).state = .retired then s else s.modCluster c fun x => { x with transferKey := some k }) s
  if s.power.kind = .exit then s
  else (s.modTamper fun t => { t with seed := BitVec.ofNat 64 (beNat (s.hubBytes 8)) }).hubRead 8

/-- Step 8: the clusters in service wake CONFINED and ask for their expanders' seeds, the reserves sleep, the failed ones are
flagged. -/
def State.testClusters (s : State) (failed : List Nat) : State :=
  let s := (List.range 36).foldl (fun s c =>
    match (s.cluster c).state with
    | .inService => (s.modCluster c fun x => { x with power := .awake }).seedExpander c
    | .reserve => s.modCluster c fun x => { x with power := .asleep }
    | _ => s) s
  let cause := if s.power.kind = .exit then 4 else 3
  (failed.filter fun c => c < 36 && (s.cluster c).state != .retired).foldl (fun s c => s.flagFailing c cause true) s

/-- A gate as step 9a leaves it, its first-violation latch kept. -/
def Gate.booted (x : Gate) (g : Nat) : Gate :=
  { x with epoch := false, bankA := bootRegions g, bankB := [], shadowOk := true, draining := false }

/-- A held halt of a source raises TAMPER_HALT, its detail marked as decided on VBAT alone (R456). -/
def State.raiseHeldHalt (s : State) (n : Nat) : State :=
  let x := s.source n
  if x.heldHalt then
    let a : Alarm := { source := n, rank := 3, multi := false, nets := 0, events := x.cfg.n }
    (s.modSource n fun x => { x with heldHalt := false }).fault 3 0x62 (srcHub 0x0F) (s.alarmDetail a + 0x10000)
  else s

/-- Step 9a: lanes OPEN again (R543), gates set, checkpoints OPEN; under the grave latch start-up stops; held halts are raised; the
ports train (R456, R479, R510). -/
def State.restoreTables (s : State) : State :=
  let s := s.reinstateFor fun _ => true
  let s := (List.range 47).foldl (fun s g => s.setGate g ((s.gate g).booted g)) s
  let s := { s with clusters := s.clusters.mapVals fun (c : Cluster) => if c.state = ReserveState.inService then { c with confined := false } else c }
  if s.faults.grave then (s.setDev .grave).toStep .stopped
  else
    let s := (List.range 11).foldl State.raiseHeldHalt s
    ((s.keyArrived.toStep .s9b).train 0).train 1

/-- Step 10: READY, or the state R510 gives; dispatch runs, the timing port is back, a held GO is served (R506). -/
def State.startupEnds (s : State) (sgmii : Bool) : State :=
  let s := { s with time := { s.time with running := true, sgmii := sgmii }, keys := { s.keys with suspended := false } }
  let s := s.toStep .done
  let s := if s.faults.class3Active then
      ({ s with faults := { s.faults with erasedAtFault := s.power.erased }, depot := { s.depot with stopped := true } }).setDev .faulted
    else
      let s := { s with depot := { s.depot with stopped := false }, faults := { s.faults with erasedAtFault := false } }
      s.setDev (if s.power.erased then .tamperErased else .ready)
  if s.pcie.heldGo then ({ s with pcie := { s.pcie with heldGo := false } }).serveMailbox 0 else s

/-- STARTUP_STEP_DONE: the step in progress completes with what it found. With step 7 the intents a power loss left open get the OUTCOMEs
that need no store, before any store takes a new effecting call (R266). -/
def execStartupStepDone (obs : BootObs) (s : State) : Res :=
  .next (if s.power.porst then s
    else match s.power.step with
    | .s2 =>
      let s := s.lcStart
      if s.power.step = .stopped then s
      else
        let s := s.backupStart.entropyStart
        if s.power.kind = .cold then s.recorderStart obs.newerCopyOk obs.olderCopyOk else s
    | .s3 => s.selectPair obs.northOk obs.southOk
    | .s4 =>
      if obs.imageOk then ((s.modPower fun p => { p with running := p.boot }).slotSettings obs.slotRecord).toStep .s5
      else s.toStep .stopped
    | .s4a => s.entropyStart.toStep .s5
    | .s5 => s.trainMemory.toStep .s6
    | .s6 => if s.entropy.firstSeed then s.toStep .s7 else s
    | .s7 => s.steepRoots.writeOutcomes.toStep .s8
    | .s8 => (s.testClusters obs.failed).toStep .s9a
    | .s9a => s.restoreTables
    | .s9b => s.toStep .s10
    | .s10 => s.startupEnds obs.sgmii
    | _ => s)

/-! ## The loop and the governor (R499, R500) -/

/-- GOVERNOR_TICK: the estimate of the package power in 0.1 W. When a limit would be passed the hottest cluster above 2,000 MHz goes one
step down; clocks may rise again once the 1 s mean is below 160 W. -/
def execGovernorTick (power : Nat) (s : State) : Res :=
  let xs := (power :: s.power.samples).take 100000
  let over_ := decide (100 * 1800 < (xs.take 100).sum) || decide (100000 * 1650 < xs.sum)
  let s := s.modPower fun p => { p with
    samples := xs, governed := over_ || (p.governed && !decide (xs.sum < 100000 * 1600)) }
  let fast := (List.range 36).filter fun c => (s.cluster c).power == .awake && decide (2000 < (s.cluster c).clockMHz)
  let hot := fast.foldl (fun (a : Option Nat) c => match a with
    | some b => if (s.cluster b).temp < (s.cluster c).temp then some c else some b
    | .none => some c) .none
  .next (match hot with
    | some c => if over_ then s.modCluster c fun x => { x with clockMHz := x.clockMHz - 40 } else s
    | .none => s)

/-- One action of a cluster's loop: 2,000 MHz from 95 °C on; with slack short the voltage rises, or at 0.85 V the clock falls; with slack
over the clock rises where it may, or the voltage falls. -/
def Cluster.adjusted (x : Cluster) (governed : Bool) : Cluster :=
  if 950 ≤ x.temp then { x with clockMHz := 2000 }
  else if x.slack < 15 then
    if x.supplyMV < 850 then { x with supplyMV := x.supplyMV + 5 } else { x with clockMHz := max 2000 (x.clockMHz - 40) }
  else if 15 < x.slack then
    if x.clockMHz < 2400 ∧ !governed then { x with clockMHz := x.clockMHz + 40 } else { x with supplyMV := max 550 (x.supplyMV - 5) }
  else x

/-- LOOP_ADJUST: the worst slack in ps and the junction in 0.1 °C of an awake cluster; a stretch is counted in its margin record. -/
def execLoopAdjust (c : Nat) (slack temp : Int) (stretch : Bool) (s : State) : Res :=
  checked (clusterOk c)
    (if (s.cluster c).power ≠ .awake then s
    else
      let s := s.tempChange (s.modCluster c fun x => ({ x with slack := slack, temp := temp }).adjusted s.power.governed)
      if stretch then s.updateRec (154 + c) (histogram (recKind (154 + c)) slack) else s)

end Sys2Proof.Machine
end

