-- ==== Sys2Proof/Machine/Firmware.lean ====
section
/-! DEFINITION. Staging and activating a Bercon image (R216, R355, Table 11.8). -/

namespace Sys2Proof.Machine

/-- FW.STATUS: the running and the staged measurement, the staged state, the carry, the boot image serial. -/
def execFwStatus (c : Cmd) (s : State) : Res :=
  runCmd 0x1101 c c.body.isEmpty s fun sp s =>
    let p := s.power
    let staged := if p.stagedState = 0 then List.replicate 48 0 else sha384 p.staged
    answer c s sp (natBE 48 p.running.toNat ++ staged ++ natLE 1 p.stagedState ++ natLE 1 (b2n s.keys.carry.isSome) ++
      List.replicate 6 0 ++ natLE 8 p.bootSerial.toNat)

/-- FW.STAGE's answer. -/
def State.stageAnswer (s : State) (sp : Spec) (c : Cmd) : State := answer c s sp (natLE 1 s.power.stagedState ++ List.replicate 7 0)

/-- FW.STAGE: pieces in order, a first piece in the place of any earlier image; the last piece is verified under the boot ROM's rules
(R215, R355, R509). -/
def execFwStage (c : Cmd) (s : State) : Res :=
  let off := fieldLE c.body 0 8
  let total := fieldLE c.body 8 8
  let piece := c.body.drop 16
  runCmd 0x1102 c (decide (16 ≤ c.body.length)) s fun sp s =>
    let p := s.power
    let again := decide (0 < p.stagedTotal ∧ p.stagedTotal = total) && p.stagedLast == (off, piece)
    if s.keys.carry.isSome then s.reject c cBadState
    else if again then s.stageAnswer sp c
    else
      let have_ := if off = 0 then [] else p.staged
      if 16777216 < piece.length ∨ piece.isEmpty ∨ off ≠ have_.length ∨ (off ≠ 0 ∧ total ≠ p.stagedTotal) ∨
          total < off + piece.length ∨ 3145728 < total then s.reject c cInvalid
      else
        let whole := have_ ++ piece
        let st := if whole.length < total then 1 else if Config.bootRomVerify whole then 2 else 3
        let s := s.modPower fun p => { p with staged := whole, stagedTotal := total, stagedLast := (off, piece), stagedState := st }
        if st = 3 then s.finish sp c 0x0601 [] 0 else s.stageAnswer sp c

/-- FW.ACTIVATE: it completes at the entry to STOPPING; key records are closed to writes from here on. Its intent on the boot image is
open until the commit. -/
def execFwActivate (c : Cmd) (s : State) : Res :=
  runCmd 0x1103 c c.body.isEmpty s fun sp s =>
    let live := s.warmTins
    if s.power.stagedState = 3 then s.reject c 0x0601
    else if s.power.stagedState ≠ 2 ∨ s.power.activating then s.reject c cBadState
    else if !live.isEmpty ∧ !s.keys.carry.any (fun (y : Carry) => y.ended) then s.reject c 0x0105
    else if s.tenantLanes.any fun l => (s.lane l).state != .closed then s.reject c cBadState
    else
      let s := (s.begin sp c).cmdAccepted c sp.op
      let s := { s with keys := { s.keys with suspended := true } }
      let s := s.modPower fun p => { p with activating := true, activateCmd := some c }
      let s := s.cmdIntent c 4 0 s.power.bootSerial.toNat
      (s.setDev .stopping).finish sp c cOk [] 0

/-- A warm record re-wrapped for a measurement; one that will not open stays as it is. -/
def State.carried (s : State) (m : BitVec 384) (r : KeyRec) : KeyRec :=
  match r with
  | .live t e => .live ((s.carryTin m t).getD t) e
  | .tombstone v => .tombstone v

/-- FW_REWRAP_DONE: the warm store is wrapped for the new image, the boot image is committed, root and watermarks are anchored (R243),
and the restart follows. -/
def execFwRewrapDone (s : State) : Res :=
  .next (match s.power.activateCmd with
    | .none => s
    | some c =>
      let m : BitVec 384 := BitVec.ofNat 384 (beNat (sha384 s.power.staged))
      let warm := s.keys.warm.mapVals (s.carried m)
      let s := { s with keys := { s.keys with warm := warm, carry := .none } }
      let s := s.modPower fun p => { p with
        boot := m, bootSerial := p.bootSerial + 1, activateCmd := .none, resetDue := true, staged := [], stagedTotal := 0,
        stagedLast := (0, []), stagedState := 0 }
      (s.cmdCommit c 4 0 s.power.bootSerial.toNat).anchorRoot.writeMarks)

end Sys2Proof.Machine
end

