-- ==== Sys2Proof/Machine/Receive.lean ====
section
/-! DEFINITION. Freri messages as they arrive (R288-R310, R315): the checks of Table 9.6 in their order, and what each type
does. A message that finds no room changes nothing and is held with its virtual channel (R117). -/

namespace Sys2Proof.Machine

/-- A message taken apart (Table 9.4), with the frame it came in. -/
structure Msg where
  port   : Nat
  vc     : Nat
  frame  : Nat
  off    : Nat
  typ    : Nat
  lane   : Nat
  sessF  : Nat
  len    : Nat
  a      : Nat
  seq    : Word
  b      : Nat
  c      : Nat
  body   : Bytes
  raw    : Bytes

/-- Read the header. -/
def parseMsg (port vc frame off : Nat) (raw : Bytes) : Msg :=
  { port := port, vc := vc, frame := frame, off := off, typ := fieldBE raw 0 1, lane := fieldBE raw 1 1, sessF := fieldBE raw 2 2,
    len := fieldBE raw 4 2, a := fieldBE raw 6 2, seq := BitVec.ofNat 64 (fieldBE raw 8 8), b := fieldBE raw 16 8,
    c := fieldBE raw 24 8, body := slice raw 32 (raw.length - 48), raw := raw }

/-- The session a message names. -/
def Msg.session (m : Msg) : Nat := m.sessF % 4096

/-- The units of a message (R308). -/
def Msg.units (m : Msg) : Nat := units64 m.len

/-- The types a partner may send (check 2). -/
def rxTypes : List Nat := [0x01, 0x10, 0x11, 0x12, 0x22, 0x31, 0x32, 0x33]

/-- The stream a message of a session names, field B [63:32]. -/
def State.msgStream (s : State) (m : Msg) : Option Stream := s.stream? (streamKey m.port m.session (BitVec.ofNat 32 (m.b / 2 ^ 32)))

/-- Whether a session is an attached vault session. -/
def State.isVault (s : State) (p n : Nat) : Bool := s.vault.sessions.contains (p, n)

/-- Check 7: the header's reserved fields zero, the payload length of Table 9.5, the role of the type (R15). -/
def State.fieldsOk (s : State) (m : Msg) (x : Session) : Bool :=
  let n := m.body.length
  let noLane := m.lane == 0
  let low := fun (v : Nat) => v % 2 ^ 32 == 0
  decide (m.sessF < 4096) &&
  (match m.typ with
  | 0x01 => decide (m.lane < 64) && m.a == 0 && low m.c && decide (n ≤ 8192) && x.itin
  | 0x10 => decide (m.lane < 64) && m.a == 0 && low m.b && m.c == 0 && n == 48 && x.bulk
  | 0x11 => noLane && m.a == 0 && low m.b && decide (16 ≤ n) && decide (n ≤ 8192) && x.bulk
  | 0x12 => noLane && m.a == 0 && low m.b && x.bulk &&
      (match s.msgStream m with
      | some y => n == (if y.mode = 5 ∧ y.decrypt then 16 else 0)
      | .none => n == 0 || n == 16)
  | 0x22 => noLane && m.c == 0 && (n == 0 || n == 264 || n == 4128) && s.isVault m.port m.session
  | 0x31 => noLane && m.a == 0 && m.c == 0 && n == 0
  | 0x32 => noLane && m.b == 0 && n == 0
  | _ => noLane && decide (m.b < 2 ^ 52) && n == 0)

/-- Answer a violation of a message (R296). -/
def State.violMsg (s : State) (m : Msg) (code on : Nat) : State := s.violate m.port code on m.session m.typ m.frame m.off m.seq

/-- Drop a counted message: its units are released at once (R308). -/
def State.dropCounted (s : State) (m : Msg) (idx code : Nat) : State :=
  (s.modSession m.port m.session fun x => x.releaseUnits idx m.units).violMsg m code m.session

/-- Count a drop against a lane (R100, R116). -/
def State.overrun (s : State) (l : Nat) : State := s.setLane l { s.lane l with overruns := (s.lane l).overruns + 1 }

/-- Whether a counted message lies within its session's window (R308). -/
def State.inWindow (s : State) (m : Msg) (idx : Nat) : Bool :=
  match (s.port m.port).sessions.find? m.session with
  | some x => decide ((x.account idx).counted ≤ (x.account idx).limit)
  | .none => false

/-- An ITIN_REQ from check 8 on (R98, R100, R116, R299). -/
def State.rxItinReq (s : State) (m : Msg) (x : Session) : Option State :=
  let id := BitVec.ofNat 32 (m.c / 2 ^ 32)
  if x.closing then some (s.dropCounted m m.lane 8)
  else
    match s.laneOf x.colour m.lane with
    | .none => some (s.violMsg m 9 m.session)
    | some l =>
      let cls := (s.lane l).cls
      if (if isJob id then cls != 2 else decide (2 ≤ cls)) then some (s.dropCounted m m.lane 9)
      else if (s.lane l).state ≠ .opened ∨ !s.inWindow m m.lane then some ((s.overrun l).dropCounted m m.lane 14)
      else s.enqueueReq x.colour l m.port m.session (BitVec.ofNat 64 m.b) id m.body m.units

/-- Answer a BULK_OPEN (R302). -/
def State.openStatus (s : State) (m : Msg) (status : Nat) : State :=
  s.sendMsg m.port m.session 0x10 0 status (BitVec.ofNat 64 m.b) 0 [] .none
    (if status = 0 then [streamKey m.port m.session (BitVec.ofNat 32 (m.b / 2 ^ 32))] else [])

/-- Whether a key serves a stream of a mode and direction (R147, R188, R189, R191). -/
def State.streamKeyOk (s : State) (mode : Nat) (dec : Bool) (k : Key) : Bool :=
  k.enters eBulk && k.may (if dec then uDecrypt else uEncrypt) && modeAccepts mode k && k.attrs.within s.time

/-- Whether a descriptor is sound (Table 9.8). -/
def bulkDescOk (b : Bytes) : Bool :=
  let mode := fieldBE b 0 1
  let du := fieldBE b 2 2
  decide (fieldBE b 1 1 < 2) &&
  (if mode = 8 then du == 512 || du == 4096
   else du == 0 && zeroAt b 16 8 && (mode == 2 || (mode == 5 && zeroAt b 36 4)))

/-- A stream as BULK_OPEN opens it. -/
def openedStream (m : Msg) (l : Nat) (k : Key) : Stream :=
  let b := m.body
  let mode := fieldBE b 0 1
  let tdes := typeTdes k.attrs.ktype
  let v := toBlock (slice b 24 16)
  { port := m.port, session := m.session, id := BitVec.ofNat 32 (m.b / 2 ^ 32), lane := l, mode := mode, decrypt := fieldBE b 1 1 == 1,
    tdes := tdes, dataUnit := fieldBE b 2 2, handle1 := BitVec.ofNat 64 (fieldBE b 8 8), handle2 := BitVec.ofNat 64 (fieldBE b 16 8),
    key1 := [], key2 := [], start := v, received := 0, processed := 0, short := false,
    chain := if mode = 5 then gcmJ0 v else if mode = 2 then startValue tdes v else 0, aux := 0, pending := [], sizes := [], output := [],
    sentOff := 0, closeReq := .none, loading := false, frozen := false, te := .none }

/-- Whether the keys of a BULK_OPEN may serve it (R302); the state counts their fetches. -/
def State.bulkKeys (s : State) (c : Colour) (b : Bytes) : State × Option Key :=
  let mode := fieldBE b 0 1
  let dec := fieldBE b 1 1 == 1
  match s.fetchKey c (BitVec.ofNat 64 (fieldBE b 8 8)) with
  | (s, .none) => (s, .none)
  | (s, some k) =>
    if !s.streamKeyOk mode dec k then (s, .none)
    else if mode ≠ 8 then (s, some k)
    else
      match s.fetchKey c (BitVec.ofNat 64 (fieldBE b 16 8)) with
      | (s, some k2) =>
        (s, if s.streamKeyOk mode dec k2 && k2.material.length == k.material.length && k2.material != k.material then some k else .none)
      | (s, .none) => (s, .none)

/-- A BULK_OPEN from check 8 on, the lane's state last (Table 9.6, R301, R302). -/
def State.rxBulkOpen (s : State) (m : Msg) (x : Session) : State :=
  if x.closing then s.violMsg m 8 m.session
  else
    match s.laneOf x.colour m.lane with
    | .none => s.violMsg m 9 m.session
    | some l =>
      if (s.lane l).cls ≠ 3 then s.violMsg m 9 m.session
      else if !bulkDescOk m.body then s.openStatus m 2
      else if 1024 ≤ (s.port m.port).streams.length ∨ (s.msgStream m).isSome then s.openStatus m 3
      else
        match s.bulkKeys x.colour m.body with
        | (s, .none) => s.openStatus m 1
        | (s, some k) =>
          if (s.lane l).state ≠ .opened then (s.overrun l).violMsg m 14 m.session
          else
          let pt := s.port m.port
          (s.setPort m.port { pt with streams := pt.streams ++ [openedStream m l k] }).openStatus m 0

/-- Enqueue the segments of a BULK_DATA, the message's units with the last one. -/
def State.enqueueAll (s : State) (c : Colour) (l p n : Nat) (id : BitVec 32) (units : Nat) : Nat → List Bytes → Option State
  | _, [] => some s
  | off, [d] => s.enqueueSegment c l p n id off d units
  | off, d :: r =>
    match s.enqueueSegment c l p n id off d 0 with
    | some s => s.enqueueAll c l p n id units (off + d.length) r
    | .none => .none

/-- Whether a lane takes the data of an open stream: OPEN, or draining for a planned stop (R314). -/
def Lane.takesData (l : Lane) : Bool :=
  match l.state, l.cause with
  | .opened, _ => true
  | .draining, .plannedStop _ => true
  | _, _ => false

/-- A BULK_DATA from check 10 on (R303, R305); until the partner has received OPENED the stream is none it may use (R302; the code
DEDUCED, log entry 30). -/
def State.rxBulkData (s : State) (m : Msg) (x : Session) : Option State :=
  match s.msgStream m with
  | .none => some (s.violMsg m 10 m.session)
  | some y =>
    let idx := (s.lane y.lane).index
    if !y.announced then some (s.dropCounted m idx 10)
    else if m.c ≠ y.received ∨ y.closeReq.isSome then some ((s.dropCounted m idx 11).abortStream y.key)
    else if m.body.length % 16 ≠ 0 ∨ y.short then some ((s.dropCounted m idx 12).abortStream y.key)
    else if !(s.lane y.lane).takesData ∨ !s.inWindow m idx then some ((s.overrun y.lane).dropCounted m idx 14)
    else
      let y' := { y with received := y.received + m.body.length, short := m.body.length % 512 != 0, sizes := y.sizes ++ [(m.c, m.body.length)] }
      (s.setStream y').enqueueAll x.colour y.lane m.port m.session y.id m.units m.c (chunks 512 m.body)

/-- A BULK_CLOSE from check 10 on (R304). -/
def State.rxBulkClose (s : State) (m : Msg) : State :=
  match s.msgStream m with
  | .none => s.violMsg m 10 m.session
  | some y => (s.setStream { y with closeReq := some (m.c, m.body) }).tryClose y.key

/-- A VAULT_DATA (R306, R307); one that does not fit its request is a malformed message, and counted (Table 7.6). -/
def State.rxVaultData (s : State) (m : Msg) : State :=
  match s.vaultAnswer (BitVec.ofNat 64 m.b) m.a m.body with
  | some s => s
  | .none => (s.vaultCount 6).violMsg m 13 m.session

/-- A VIOLATION received is counted, in FRERI.STATUS and the recorder under its code (R298; where, DEDUCED from R296, log entry 30). -/
def State.violHeard (s : State) (p code : Nat) : State :=
  let pt := s.port p
  let s := s.setPort p { pt with violReceived := pt.violReceived + 1 }
  if 1 ≤ code ∧ code ≤ 15 then
    (s.setPort p { s.port p with viol := pt.viol.set code (pt.viol.get code 0 + 1) }).count (298 + p) (code - 1)
  else s

/-- What a message does once checks 1 to 7 have passed. -/
def State.rxEffect (s : State) (m : Msg) (x : Session) : Option State :=
  let pt := s.port m.port
  match m.typ with
  | 0x01 => s.rxItinReq m x
  | 0x10 => some (s.rxBulkOpen m x)
  | 0x11 => s.rxBulkData m x
  | 0x12 => some (s.rxBulkClose m)
  | 0x22 => some (s.rxVaultData m)
  | 0x32 => some (s.setPort m.port { pt with partnerStop := some (s.now + m.c + 100000) })
  | 0x33 => some (s.violHeard m.port m.a)
  | _ => some s

/-- The lane index an ITIN_REQ or BULK_DATA counts against (R308). -/
def State.countedLane (s : State) (m : Msg) (x : Session) : Option Nat :=
  if m.typ = 1 then (s.laneOf x.colour (m.lane % 64)).map fun l => (s.lane l).index
  else if m.typ = 0x11 then (s.msgStream m).map fun y => (s.lane y.lane).index
  else .none

/-- Receive a message (Table 9.6); nothing where it finds no room and must be held. -/
def State.receive (s : State) (m : Msg) : Option State :=
  if m.raw.length < 48 ∨ 8240 < m.len ∨ m.raw.length ≠ m.len then some (s.violMsg m 1 0)
  else if !rxTypes.contains m.typ then some (s.violMsg m 2 0)
  else
    match (s.port m.port).openSession m.session with
    | .none => some (s.violMsg m 3 0)
    | some x =>
      if x.vc ≠ m.vc then some (s.violMsg m 4 0)
      else if gcmTag x.key (messageIv m.session 0 m.port m.seq) (m.raw.take (m.raw.length - 16)) [] ≠ m.raw.drop (m.raw.length - 16) then
        some (s.violMsg m 5 m.session)
      else if m.seq ≤ x.recvSeq then some (s.violMsg m 6 m.session)
      else
        let x := { x with recvSeq := m.seq }
        let idx := s.countedLane m x
        let x := match idx with
          | some i => x.countUnits i m.units
          | .none => x
        let s := s.setSession m.port m.session x
        if s.fieldsOk m x then s.rxEffect m x
        else match idx with
          | some i => some (s.dropCounted m i 7)
          | .none => some (s.violMsg m 7 m.session)

/-! ## Held channels (R117, R285) -/

/-- Return link credits on a virtual channel. -/
def State.grant (s : State) (p vc units : Nat) : State :=
  let pt := s.port p
  s.setPort p { pt with granted := pt.granted.set! vc (pt.granted.toList.getD vc 0 + BitVec.ofNat 24 units) }

/-- A message that waits with its channel: the frame's number and the offset, then the message. -/
def heldBytes (frame off : Nat) (raw : Bytes) : Bytes := natBE 2 frame ++ natBE 2 off ++ raw

/-- A held message. -/
def heldMsg (p vc : Nat) (b : Bytes) : Msg := parseMsg p vc (fieldBE b 0 2) (fieldBE b 2 2) (b.drop 4)

/-- Put a message behind those its channel holds, with the units of its frame if it is the last. -/
def State.holdMsg (s : State) (m : Msg) (units : Nat) (first : Bool) : State :=
  let pt := s.port m.port
  let s := s.setPort m.port { pt with held := pt.held ++ [(m.vc, units, heldBytes m.frame m.off m.raw)],
                                      creditHolds := if first then pt.creditHolds + 1 else pt.creditHolds }
  if first then { s.count (298 + m.port) 20 with depot := { s.depot with holds := s.depot.holds + 1 } } else s

/-- Take a message: behind the held ones of its channel, or through the checks, its frame's units returned when done. -/
def State.take (s : State) (m : Msg) (units : Nat) : State :=
  if (s.port m.port).held.any (·.1 == m.vc) then s.holdMsg m units false
  else
    match s.receive m with
    | some s => s.grant m.port m.vc units
    | .none => s.holdMsg m units true

/-- Run the messages a channel holds while they find room. -/
def State.runHeld (s : State) (p vc : Nat) : Nat → State
  | 0 => s
  | f + 1 =>
    match (s.port p).held.find? (·.1 == vc) with
    | .none => s
    | some (_, units, b) =>
      match s.receive (heldMsg p vc b) with
      | .none => s
      | some s =>
        let pt := s.port p
        ((s.setPort p { pt with held := eraseFirst (·.1 == vc) pt.held }).grant p vc units).runHeld p vc f

/-- LINK_CREDIT_HOLD_RELEASE: what the channel holds is taken as far as room goes. -/
def execLinkCreditHoldRelease (port vc : Nat) (s : State) : Res :=
  checked (vcOk port vc) (s.runHeld port vc (s.port port).held.length)

/-! ## The message rows -/

/-- The receipt of a message of one type on a port that is UP; another type's bytes are no such event. -/
def rxRow (typ port vc : Nat) (msg : Bytes) (s : State) : Res :=
  checked (vcOk port vc)
    (let m := parseMsg port vc ((s.port port).expSeq - 1).toNat 16 msg
     if m.typ = typ ∧ (s.port port).link = .up then s.take m 0 else s)

/-- ITIN_REQ (R98). -/
def execItinReq (port vc : Nat) (msg : Bytes) (s : State) : Res := rxRow 0x01 port vc msg s

/-- VAULT_DATA (R237). -/
def execVaultData (port vc : Nat) (msg : Bytes) (s : State) : Res := rxRow 0x22 port vc msg s

/-- VIOLATION (R298). -/
def execViolation (port vc : Nat) (msg : Bytes) (s : State) : Res := rxRow 0x33 port vc msg s

/-- BULK_OPEN (R302). -/
def execBulkOpen (port vc : Nat) (msg : Bytes) (s : State) : Res := rxRow 0x10 port vc msg s

/-- BULK_DATA (R303). -/
def execBulkData (port vc : Nat) (msg : Bytes) (s : State) : Res := rxRow 0x11 port vc msg s

/-- BULK_CLOSE (R304). -/
def execBulkClose (port vc : Nat) (msg : Bytes) (s : State) : Res := rxRow 0x12 port vc msg s

/-- GOING_AWAY (R315). -/
def execGoingAway (port vc : Nat) (msg : Bytes) (s : State) : Res := rxRow 0x32 port vc msg s

/-- IDLE, the message (R310). -/
def execIdleMessageReceipt (port vc : Nat) (msg : Bytes) (s : State) : Res := rxRow 0x31 port vc msg s

/-- IDLE_MESSAGE: a session silent for 10 ms sends an IDLE with the highest number it has accepted (R310). -/
def execIdleMessage (port session : Nat) (s : State) : Res :=
  checked (sessionOk port session)
    (match (s.port port).sessions.find? session with
    | some x => s.sendMsg port session 0x31 0 0 x.recvSeq 0 [] .none
    | .none => s)

/-- CREDIT: a session is told of the limits that have advanced (R308). -/
def execCredit (port session : Nat) (s : State) : Res := checked (sessionOk port session) (s.sendCredit port session false)

end Sys2Proof.Machine
end

