-- ==== Sys2Proof/Machine/Frames.lean ====
section
/-! DEFINITION. Freri Link (R268-R287, R311-R313): frames as they arrive, acknowledgement, retry and credits, the link states,
lane replacement. -/

namespace Sys2Proof.Machine

/-! ## Frames in -/

/-- Whether a frame is whole: its length, its length field and its CRC (R275, R279). -/
def frameOk (f : Bytes) : Bool :=
  let n := f.length
  decide (64 ≤ n) && decide (n ≤ 9216) && n % 8 == 0 && fieldBE f 2 2 == n && (crc32 (f.take (n - 4))).toNat == fieldBE f (n - 4) 4

/-- Serial comparison of frame numbers over 2^15: `a` is not ahead of `b` (R279). -/
def frameLe (a b : BitVec 16) : Bool := decide ((b - a).toNat < 2 ^ 15)

/-- A response's last frame was acknowledged: DELIVERED (R255, R256). -/
def State.delivered (s : State) (d : Desc) : State := (s.writeMile (s.mile d 9 false true 0 0 0 s.stamp)).settle d

/-- An acknowledgement: the frames it covers leave the retry buffer, and a partner has what they carried (R280, R281, R302). -/
def State.acked (s : State) (p : Nat) (a : BitVec 16) : State :=
  let pt := s.port p
  let gone := pt.retry.filter fun f => frameLe f.seq a
  if gone.isEmpty then s
  else
    let s := s.setPort p { pt with retry := pt.retry.filter (fun f => !frameLe f.seq a), replayRuns := 0, txSuspended := false }
    let s := (gone.flatMap (·.opens)).foldl State.announce s
    (gone.flatMap (·.tickets)).foldl State.delivered s

/-- A credit limit heard: a newer one replaces the older (R283). -/
def Port.hear (pt : Port) (vc : Nat) (v : BitVec 24) : Port :=
  if creditLe (pt.limit.toList.getD vc 0) v then { pt with limit := pt.limit.set! vc v } else pt

/-- The eight limits of an IDLE or INIT body. -/
def Port.hearAll (pt : Port) (f : Bytes) (off : Nat) : Port :=
  (List.range 8).foldl (fun pt v => pt.hear v (BitVec.ofNat 24 (fieldBE f (off + 4 * v) 4))) pt

/-- A replacement, over once its lanes are aligned and its suspension has ended (R274). -/
def Remap.going (r : Remap) : Option Remap := if r.aligned && !r.suspended then .none else some r

/-- What every good frame of the current epoch tells: the acknowledgement and one credit limit; and a good frame after
REMAP_DONE ends the suspension of loss detection (R274). -/
def State.heardHeader (s : State) (p : Nat) (f : Bytes) : State :=
  let pt := s.port p
  let pt := pt.hear (fieldBE f 8 1 % 8) (BitVec.ofNat 24 (fieldBE f 9 3))
  let s := s.setPort p { pt with remap := pt.remap.bind fun r => (if r.doneSeen then { r with suspended := false } else r).going }
  if bit (fieldBE f 8 1) 7 then s.acked p (BitVec.ofNat 16 (fieldBE f 6 2)) else s

/-- Send a frame other than DATA. -/
def State.sendFrame (s : State) (p typ len : Nat) (body : Bytes) : State := s.emit (.frame p (buildFrame (s.port p) typ 0 0 len 0 body))

/-- Send a NAK, at most one for an expected number in 2 µs (R279). -/
def State.nak (s : State) (p reason : Nat) : State :=
  let pt := s.port p
  if pt.lastNak.any fun q => q.1 == pt.expSeq && decide (s.now < q.2 + 2000) then s
  else
    let s := (s.setPort p { pt with lastNak := some (pt.expSeq, s.now), nakSent := pt.nakSent + 1 }).count (298 + p) 16
    s.sendFrame p 3 64 (natBE 2 pt.expSeq.toNat ++ natBE 1 reason)

/-- A frame that arrives on a port that is UP: a broken one is answered with a NAK, one of another type or epoch is no such
event. New frames leave behind what the frame itself makes the port send (R281). -/
def frameRow (typ port : Nat) (frame : Bytes) (s : State) (effect : State → State) : Res :=
  checked (portOk port)
    (if (s.port port).link ≠ .up then s
    else if !frameOk frame then s.nak port 1
    else if fieldBE frame 0 1 ≠ typ ∨ fieldBE frame 0x0C 2 ≠ (s.port port).peerEpoch.toNat then s
    else (effect (s.heardHeader port frame)).pump port)

/-- The messages of a DATA frame with their offsets: one that does not fit takes the rest of the frame with it (R277, check 1). -/
def frameMsgs (f : Bytes) (stop : Nat) : Nat → Nat → List (Nat × Bytes)
  | 0, _ => []
  | n + 1, off =>
    let len := fieldBE f (off + 4) 2
    if stop < off + 6 ∨ len < 48 ∨ 8240 < len ∨ stop < off + len then [(off, slice f off (stop - off))]
    else (off, slice f off len) :: frameMsgs f stop n (8 * ceilDiv (off + len) 8)

/-- The messages of an accepted frame, its units returned with the last (R285). -/
def State.takeAll (s : State) (p vc seq units : Nat) : List (Nat × Bytes) → State
  | [] => s.grant p vc units
  | [(off, raw)] => s.take (parseMsg p vc seq off raw) units
  | (off, raw) :: r => (s.take (parseMsg p vc seq off raw) 0).takeAll p vc seq units r

/-- An accepted DATA frame (R279, R285). -/
def State.acceptData (s : State) (p : Nat) (f : Bytes) : State :=
  let pt := s.port p
  let vc := fieldBE f 1 1 / 32
  let units := units64 f.length
  let heard := pt.heard.toList.getD vc 0 + BitVec.ofNat 24 units
  let s := s.setPort p { pt with expSeq := pt.expSeq + 1, ackValid := true, heard := pt.heard.set! vc heard }
  if creditLe heard (pt.granted.toList.getD vc 0) then
    s.takeAll p vc (fieldBE f 4 2) units (frameMsgs f (f.length - 4) (fieldBE f 1 1 % 32) 16)
  else (s.grant p vc units).violate p 15 0 0 0 (fieldBE f 4 2) 0 0

/-- DATA_FRAME: the number decides (R279). -/
def execDataFrame (port : Nat) (frame : Bytes) (s : State) : Res :=
  frameRow 1 port frame s fun s =>
    let seq := BitVec.ofNat 16 (fieldBE frame 4 2)
    let expected := (s.port port).expSeq
    if seq = expected then s.acceptData port frame
    else if frameLe expected seq then s.nak port 2
    else s

/-- IDLE_FRAME (R278). -/
def execIdleFrame (port : Nat) (frame : Bytes) (s : State) : Res :=
  frameRow 2 port frame s fun s => s.setPort port ((s.port port).hearAll frame 0x10)

/-! ## Retry (R281) -/

/-- Send every frame of the retry buffer from a number on again. -/
def State.resend (s : State) (p : Nat) (from_ : BitVec 16) : State :=
  ((s.port p).retry.filter fun f => frameLe from_ f.seq).foldl (fun s f => s.emit (.frame p f.bytes)) s

/-- Replay, or retrain when eight replays brought no new acknowledgement. -/
def State.replay (s : State) (p : Nat) (from_ : BitVec 16) : State :=
  let pt := s.port p
  if 8 ≤ pt.replayRuns then s.portRetrain p
  else ((s.setPort p { pt with replayRuns := pt.replayRuns + 1, replays := pt.replays + 1 }).count (298 + p) 15).resend p from_

/-- NAK_FRAME: the sender replays from the number the NAK expects. -/
def execNakFrame (port : Nat) (frame : Bytes) (s : State) : Res :=
  frameRow 3 port frame s fun s =>
    let pt := s.port port
    let s := (s.setPort port { pt with nakGot := pt.nakGot + 1, txSuspended := false }).count (298 + port) 17
    s.replay port (BitVec.ofNat 16 (fieldBE frame 0x10 2))

/-- REPLAY_TIMEOUT: not while the transmit direction is under replacement (R274). -/
def execReplayTimeout (port : Nat) (s : State) : Res :=
  checked (portOk port)
    (let pt := s.port port
     match pt.retry with
     | f :: _ => if pt.link = .up ∧ !pt.txSuspended then s.replay port f.seq else s
     | [] => s)

/-! ## Heartbeat (R278, R280) -/

/-- An IDLE frame with the eight limits granted. -/
def State.sendIdle (s : State) (p : Nat) : State := s.sendFrame p 2 64 ((s.port p).granted.toList.flatMap fun g => natBE 4 g.toNat)

/-- IDLE_FRAME_SEND. -/
def execIdleFrameSend (port : Nat) (s : State) : Res :=
  checked (portOk port) (if (s.port port).link = .up then s.sendIdle port else s)

/-- ACK_SEND: the number last accepted leaves in an IDLE frame. -/
def execAckSend (port : Nat) (s : State) : Res :=
  checked (portOk port) (if (s.port port).link = .up ∧ (s.port port).ackValid then s.sendIdle port else s)

/-! ## The INIT exchange (R284, R286, R287) -/

/-- The initial grants: 256 units on VC0, 2,304 on the others (R284). -/
def initialGrants : Vector (BitVec 24) 8 := #v[256, 2304, 2304, 2304, 2304, 2304, 2304, 2304]

/-- Send an INIT frame; from DOWN it carries the epoch the port is about to take (R287). -/
def State.sendInit (s : State) (p : Nat) : State :=
  let pt := s.port p
  let body := [1, BitVec.ofNat 8 (2 * b2n pt.initGot + 1), 0, 0] ++ natBE 2 pt.expSeq.toNat ++ natBE 2 9216 ++
    (pt.granted.toList.flatMap fun g => natBE 4 g.toNat) ++ natBE 8 (Config.deviceId.toNat % 2 ^ 64)
  let shown := if pt.link = .init then { pt with epoch := pt.epoch + 1 } else pt
  (s.setPort p { pt with initAckSent := pt.initAckSent || pt.initGot }).emit (.frame p (buildFrame shown 4 0 0 72 0 body))

/-- Reach UP: from INIT with a new epoch, the port session that waited and the lanes a planned stop closed; from RETRAIN by
replaying what the partner has not accepted (R287, R292, R543). -/
def State.linkUp (s : State) (p : Nat) : State :=
  let pt := s.port p
  if pt.initAckSent ∧ pt.initAckGot then
    let up := { pt with link := .up, lastUp := s.now, initGot := false, initAckSent := false, initAckGot := false, replayRuns := 0, failedRetrains := 0 }
    if pt.link = .init then
      let up := { up with epoch := pt.epoch + 1, partnerStop := .none, nextPort := .none,
                          sessions := match pt.nextPort with
                            | some x => pt.sessions.set 0 x
                            | .none => pt.sessions }
      let s := s.setPort p up
      let back := fun (l : Nat) => s.allSessions.any fun q => q.1 == p && q.2.2.feeds (s.lane l)
      let ls := (s.lanes.filter fun q => (match q.2.cause with
        | .plannedStop _ => q.2.state == .closed
        | _ => false) && back q.1).map Prod.fst
      ((ls.foldl State.reinstate s).creditsDue p).pump p
    else
      let s := s.setPort p up
      (match pt.retry with
      | f :: _ => s.resend p f.seq
      | [] => s).pump p
  else s

/-- INIT_FRAME_SEND: every 1 µs in INIT and RETRAIN. -/
def execInitFrameSend (port : Nat) (s : State) : Res :=
  checked (portOk port)
    (if (s.port port).link = .init ∨ (s.port port).link = .retrain then (s.sendInit port).linkUp port else s)

/-- The partner is lost: the port goes DOWN and trains again; within an announced stop that is counted as a planned one, with no
fault (R313, R315). -/
def State.losePartner (s : State) (p : Nat) : State :=
  let pt := s.port p
  let planned := pt.partnerStop.any fun t => decide (s.now ≤ t)
  let s := s.portDown p
  let s := if planned then s.setPort p { s.port p with plannedDowns := pt.plannedDowns + 1 } else s.fault 0 0x22 (srcPort p 0xFF) (pt.epoch.zeroExtend 64)
  s.train p

/-- INIT_FRAME (R286, R287). -/
def execInitFrame (port : Nat) (frame : Bytes) (s : State) : Res :=
  checked (portOk port)
    (let pt := s.port port
     if pt.link = .down ∨ pt.link = .training then s
     else if !frameOk frame then (if pt.link = .up then s.nak port 1 else s)
     else if fieldBE frame 0 1 ≠ 4 ∨ frame.length ≠ 72 ∨ fieldBE frame 0x10 1 ≠ 1 then s
     else
      let ack := bit (fieldBE frame 0x11 1) 1
      let epoch := BitVec.ofNat 16 (fieldBE frame 0x0C 2)
      if pt.link = .up then
        if ack then s
        else if epoch = pt.peerEpoch then s.portRetrain port
        else s.losePartner port
      else if !pt.aligned then s
      else
        let pt' := if pt.link = .init then { pt with limit := (Vector.replicate 8 0 : Vector (BitVec 24) 8) } else pt
        let s := s.setPort port { pt'.hearAll frame 0x18 with
          initGot := true, initAckGot := pt.initAckGot || ack, peerReserve := bit (fieldBE frame 0x11 1) 0, peerEpoch := epoch }
        let s := if pt.link = .retrain then s.acked port (BitVec.ofNat 16 (fieldBE frame 0x14 2) - 1) else s
        s.linkUp port)

/-! ## Link states (Table 9.3) -/

/-- How many receive lanes have been retired. -/
def Port.rxRetired (pt : Port) : Nat := (pt.retiredLanes.filter fun l => decide (l < 8)).length

/-- PCS_ALIGNMENT: TRAINING ends in INIT with numbers, tallies and retry buffer new; a RETRAIN may take INIT frames. -/
def execPcsAlignment (port : Nat) (s : State) : Res :=
  checked (portOk port)
    (let pt := s.port port
     if 1 < pt.rxRetired then s
     else if pt.link = .training then
      s.setPort port { pt with
        link := .init, aligned := true, initGot := false, initAckSent := false, initAckGot := false, sendSeq := 0, expSeq := 0,
        ackValid := false, retry := [], used := Vector.replicate 8 0, heard := Vector.replicate 8 0, limit := Vector.replicate 8 0,
        granted := initialGrants }
     else if pt.link = .retrain then s.setPort port { pt with aligned := true }
     else s)

/-- TRAINING_TIMEOUT: DOWN until TRAINING_RESTART. -/
def execTrainingTimeout (port : Nat) (s : State) : Res :=
  checked (portOk port) (if (s.port port).link = .training then s.portDown port else s)

/-- TRAINING_RESTART. -/
def execTrainingRestart (port : Nat) (s : State) : Res := checked (portOk port) (s.train port)

/-- INIT_TIMEOUT. -/
def execInitTimeout (port : Nat) (s : State) : Res :=
  checked (portOk port) (if (s.port port).link = .init then (s.portDown port).train port else s)

/-- RETRAIN_TIMEOUT: the attempt failed; the third in a row takes the port DOWN (R273, R286, Table 17.3). -/
def execRetrainTimeout (port : Nat) (s : State) : Res :=
  checked (portOk port)
    (let pt := s.port port
     if pt.link = .retrain then
      if pt.failedRetrains < 2 then
        s.setPort port { pt with failedRetrains := pt.failedRetrains + 1, aligned := false, initGot := false, initAckSent := false,
                                 initAckGot := false }
      else ((s.portDown port).fault 2 0x21 (srcPort port 0xFF) (if 1 < pt.rxRetired then 1 else 2)).train port
     else s)

/-- PARTNER_LOSS: not while loss detection is suspended (R274, R313). -/
def execPartnerLoss (port : Nat) (s : State) : Res :=
  checked (portOk port)
    (let pt := s.port port
     if pt.link = .up ∧ !pt.remap.any (·.suspended) then s.losePartner port else s)

/-- VIOLATION_DOWN_END (R297). -/
def execViolationDownEnd (port : Nat) (s : State) : Res :=
  checked (portOk port)
    (if (s.port port).violDown then (s.setPort port { s.port port with violDown := false }).train port else s)

/-- FRERI_REFCLK_PRESENT: an enabled port whose clock appears begins training (R495). -/
def execFreriRefclkPresent (port : Nat) (s : State) : Res :=
  checked (portOk port) ((s.setPort port { s.port port with refclk := true }).train port)

/-! ## Lane replacement (R272-R274) -/

/-- Send a LANE frame: kind, failing lane, the lane of each PCS group in the direction concerned. -/
def State.sendLane (s : State) (p kind sl : Nat) (map : Vector Nat 4) : State :=
  s.sendFrame p 5 64 ([BitVec.ofNat 8 kind, BitVec.ofNat 8 sl, 0, 0] ++ map.toList.map (BitVec.ofNat 8))

/-- The reserve lane in the place of a failing one. -/
def moveLane (m : Vector Nat 4) (sl : Nat) : Vector Nat 4 := m.map fun l => if l = sl then 4 else l

/-- An in-service receive lane is failing (R272, R273): REMAP, or RETRAIN with the reserve in service, or DOWN with a partner
that has no reserve lane. -/
def State.rxLaneFails (s : State) (p sl cause : Nat) : State :=
  let pt := s.port p
  if pt.link ≠ .up ∨ !pt.rxMap.toList.contains sl ∨ pt.remap.any (·.failed == sl) then s
  else
    let gone := fun (s : State) => s.setPort p { s.port p with retiredLanes := sl :: pt.retiredLanes }
    if !pt.peerReserve then ((gone s).portDown p).fault 2 0x20 (srcPort p sl) (BitVec.ofNat 64 cause)
    else if pt.rxReserve ∨ pt.remap.isSome then (gone s).portRetrain p
    else
      (s.setPort p { pt with remap := some { failed := sl, cause := cause, doneSeen := false, suspended := true, since := s.now } }).sendLane p 1 sl pt.rxMap

/-- CDR_LOCK_LOSS. -/
def execCdrLockLoss (port sl : Nat) (s : State) : Res := checked (slOk port sl) (s.rxLaneFails port sl 1)

/-- LANE_BER_EXCEEDED. -/
def execLaneBerExceeded (port sl : Nat) (s : State) : Res := checked (slOk port sl) (s.rxLaneFails port sl 2)

/-- LANE_UNCORRECTABLE_TWICE. -/
def execLaneUncorrectableTwice (port sl : Nat) (s : State) : Res := checked (slOk port sl) (s.rxLaneFails port sl 3)

/-- DFE_TAP_AT_LIMIT. -/
def execDfeTapAtLimit (port sl : Nat) (s : State) : Res := checked (slOk port sl) (s.rxLaneFails port sl 4)

/-- LANE_FRAME: a REMAP moves the failing lane of our transmit direction, or takes the link DOWN with a partner that has no reserve
lane; a REMAP_DONE lets our receiver re-align (R273). -/
def execLaneFrame (port : Nat) (frame : Bytes) (s : State) : Res :=
  frameRow 5 port frame s fun s =>
    let pt := s.port port
    let kind := fieldBE frame 0x10 1
    let sl := fieldBE frame 0x11 1
    if kind = 1 then
      if !pt.laneMap.toList.contains sl ∨ 4 < sl then s
      else if !pt.peerReserve then
        ((s.setPort port { pt with retiredLanes := (8 + sl) :: pt.retiredLanes }).portDown port).fault 2 0x20 (srcPort port sl) 0x100
      else if !pt.txReserve then
        let map := moveLane pt.laneMap sl
        let s := s.setPort port { pt with laneMap := map, txReserve := true, txSuspended := true, txSince := s.now, retiredLanes := (8 + sl) :: pt.retiredLanes }
        ((s.sendLane port 2 sl map).fault 2 0x20 (srcPort port sl) 0x100).count (298 + port) 19
      else s
    else if kind = 2 then
      s.setPort port { pt with remap := pt.remap.map fun r => if r.failed = sl then { r with doneSeen := true } else r }
    else s

/-- REMAP_REALIGN_DONE: the moved lanes are aligned; the NAK replays what was lost, the failed lane is retired (R273). Which
of its two reasons the NAK carries the manual leaves open. -/
def execRemapRealignDone (port : Nat) (s : State) : Res :=
  checked (portOk port)
    (let pt := s.port port
     match pt.remap with
     | some r =>
      if r.doneSeen ∧ !r.aligned then
        let s := s.setPort port { pt with rxMap := moveLane pt.rxMap r.failed, rxReserve := true, remap := ({ r with aligned := true }).going,
                                          lastNak := .none, retiredLanes := r.failed :: pt.retiredLanes }
        let s := s.drawn.nak port (1 + s.free.toNat % 2)
        (s.fault 2 0x20 (srcPort port r.failed) (BitVec.ofNat 64 r.cause)).count (298 + port) 19
      else s
     | .none => s)

/-- REMAP_SUSPENSION_END: 50 µs are over, in the direction whose suspension began first (R274). -/
def execRemapSuspensionEnd (port : Nat) (s : State) : Res :=
  checked (portOk port)
    (let pt := s.port port
     let rx := pt.remap.filter (·.suspended)
     let txFirst := pt.txSuspended && !rx.any fun r => decide (r.since < pt.txSince)
     let rxFirst := rx.any fun r => !pt.txSuspended || decide (r.since ≤ pt.txSince)
     s.setPort port { pt with
       txSuspended := pt.txSuspended && !txFirst
       remap := if rxFirst then pt.remap.bind fun r => ({ r with suspended := false }).going else pt.remap })

end Sys2Proof.Machine
end

