-- ==== Sys2Proof/Machine/MemErrors.lean ====
section
/-! DEFINITION. Errors of the memories (R94, R202, R474, R511, R518, R519): corrected and uncorrectable words, the remap of an LPDDR6
page. -/

namespace Sys2Proof.Machine

/-- The source identifier of an LPDDR6 channel: stack s, channel c is number 4s + c. -/
def srcMem (ch : Nat) : BitVec 16 := BitVec.ofNat 16 (4 * 8192 + 2 * 256 + ch)

/-- The channels (Table 17.2). -/
def chOk (ch : Nat) : Bool := decide (ch < 16)

/-- A page of 4 KiB waits for its remap. -/
def State.queuePage (s : State) (ch page : Nat) : State :=
  if s.power.remapQueue.any (fun q => q.2 == page) || s.power.remapped.contains page then s
  else s.modPower fun p => { p with remapQueue := p.remapQueue ++ [(ch, page)] }

/-- DRAM_UNCORRECTABLE: the fault against the channel, and the page of the row waits for its remap. -/
def execDramUncorrectable (ch : Nat) (addr : BitVec 40) (s : State) : Res :=
  checked (chOk ch) ((s.fault 2 0x04 (srcMem ch) (addr.zeroExtend 64)).queuePage ch (addr.toNat / 4096))

/-- DRAM_CORRECTED: corrected errors in three distinct words of a page within 24 h ask for its remap. -/
def execDramCorrected (ch : Nat) (addr : BitVec 40) (s : State) : Res :=
  checked (chOk ch)
    (let s := s.fault 1 0x03 (srcMem ch) (addr.zeroExtend 64)
     let w := addr.toNat / 8
     let recent := s.power.rowErrors.filter fun e => decide (s.now < e.2 + 86400000000000) && e.1 != w
     let errs := recent ++ [(w, s.now)]
     let s := s.modPower fun p => { p with rowErrors := errs }
     if 3 ≤ (errs.filter fun e => e.1 / 512 == addr.toNat / 4096).length then s.queuePage ch (addr.toNat / 4096) else s)

/-- DRAM_PAGE_REMAP: the page is served from a spare page; with the pool exhausted the request raises DRAM_UNCORRECTABLE against the
channel. -/
def execDramPageRemap (page : Nat) (s : State) : Res :=
  .next (match s.power.remapQueue.find? (fun q => q.2 == page) with
    | .none => s
    | some q =>
      let s := s.modPower fun p => { p with remapQueue := p.remapQueue.filter fun q => q.2 != page }
      if 0 < s.power.spare then s.modPower fun p => { p with spare := p.spare - 1, remapped := p.remapped ++ [page] }
      else (s.modPower fun p => { p with rowsCounted := p.rowsCounted + 1 }).fault 2 0x04 (srcMem q.1) (BitVec.ofNat 64 (page * 4096)))

/-- CADDY_INTEGRITY. -/
def execCaddyIntegrity (slot : BitVec 17) (s : State) : Res := .next (s.fault 4 0x06 (srcHub 1) (slot.zeroExtend 64))

/-- A corrected word of the Depot's pool is counted against its bank and the lane that owns the cell (R94). -/
def State.poolCorrected (s : State) (cell : Nat) : State :=
  let b := cell / 4096
  let s := { s with depot := { s.depot with bankCorrected := s.depot.bankCorrected.set b (s.depot.bankCorrected.get b 0 + 1) } }
  match s.depot.items.find? fun (i : Item) => i.cells.contains cell with
  | some i => s.setLane i.desc.lane { s.lane i.desc.lane with corrected := (s.lane i.desc.lane).corrected + 1 }
  | .none => s

/-- SRAM_CORRECTED: the fault, and the counts of the pool, the caddy or the cluster that holds the array. -/
def execSramCorrected (src : BitVec 16) (detail : Word) (s : State) : Res :=
  .next (let s := s.fault 1 0x01 src detail
    let s := if src = srcHub 0 ∧ detail.toNat % 2 ^ 40 / 64 < 65536 then s.poolCorrected (detail.toNat % 2 ^ 40 / 64) else s
    let s := if src = srcHub 1 then { s with keys := { s.keys with corrected := s.keys.corrected + 1 } } else s
    match clusterOfSrc src with
    | some (c, _) => s.modCluster c fun x =>
      { x with corrected := s.now :: x.corrected.filter fun t => decide (s.now < t + 86400000000000) }
    | .none => s)

/-- MRAM_CORRECTED. -/
def execMramCorrected (off : BitVec 21) (s : State) : Res := .next (s.fault 1 0x07 (srcHub 9) (off.zeroExtend 64))

end Sys2Proof.Machine
end

