-- ==== Sys2Proof/Machine/TeBranch.lean ====
section
/-! DEFINITION. Branches and control transfers (R52-R54). -/

namespace Sys2Proof.Machine

/-- The target of a relative transfer (R52, R53). -/
def Seat.target (t : Seat) (imm : BitVec 16) : BitVec 32 := t.pc + imm.signExtend 32 * 4

/-- A branch: 2 cycles when taken, 1 when not (R52). -/
def branchOp (u : SeatRef) (ra rb : Fin 32) (imm : BitVec 16) (c : Word → Word → Bool) (s : State) : Res :=
  runPlain u s fun s t => if c (t.reg ra) (t.reg rb) then .jump s t (t.target imm) 2 else .next s t 1

/-- BEQ. -/
def execBeq (u : SeatRef) (ra rb : Fin 32) (imm : BitVec 16) (s : State) : Res := branchOp u ra rb imm (· == ·) s

/-- BNE. -/
def execBne (u : SeatRef) (ra rb : Fin 32) (imm : BitVec 16) (s : State) : Res := branchOp u ra rb imm (· != ·) s

/-- BLT. -/
def execBlt (u : SeatRef) (ra rb : Fin 32) (imm : BitVec 16) (s : State) : Res := branchOp u ra rb imm BitVec.slt s

/-- BGE. -/
def execBge (u : SeatRef) (ra rb : Fin 32) (imm : BitVec 16) (s : State) : Res :=
  branchOp u ra rb imm (fun a b => !a.slt b) s

/-- BLTU. -/
def execBltu (u : SeatRef) (ra rb : Fin 32) (imm : BitVec 16) (s : State) : Res := branchOp u ra rb imm BitVec.ult s

/-- BGEU. -/
def execBgeu (u : SeatRef) (ra rb : Fin 32) (imm : BitVec 16) (s : State) : Res :=
  branchOp u ra rb imm (fun a b => !a.ult b) s

/-- JMP. -/
def execJmp (u : SeatRef) (imm : BitVec 16) (s : State) : Res :=
  runPlain u s fun s t => .jump s t (t.target imm) 2

/-- CALL: a seventeenth return-stack entry raises CALL_DEPTH (R53, R54). -/
def execCall (u : SeatRef) (imm : BitVec 16) (s : State) : Res :=
  runPlain u s fun s t =>
    if t.stack.length < 16 then
      .jump s { t with stack := { isGate := false, world := t.world, waymark := t.waymark, retPc := t.pc + 4 } :: t.stack }
        (t.target imm) 2
    else .exc s 0x07

/-- RET: the top frame must be a CALL frame (R53, R54). -/
def execRet (u : SeatRef) (s : State) : Res :=
  runPlain u s fun s t =>
    match t.stack with
    | f :: r => if f.isGate then .exc s 0x08 else .jump s { t with stack := r } f.retPc 2
    | [] => .exc s 0x08

end Sys2Proof.Machine
end

