-- ==== Sys2Proof/Machine/TeDigest.lean ====
section
/-! DEFINITION. The digest instructions (R59-R61, R152-R156). The bytes of Table 4.5's state that a SHA-2 block has not
yet filled are kept zero (log entry 22). -/

namespace Sys2Proof.Machine

/-- The chaining words of a SHA-2 state. -/
def shaWords (alg : Nat) (st : Bytes) : List Nat :=
  let w := (algParams alg).width / 8
  (chunks w (st.take (8 * w))).map beNat

/-- The state of Table 4.5 before any byte. -/
def digestStart (alg : Nat) : Bytes := if algSha3 alg then List.replicate 200 0 else padTo 200 (sha2Out alg (algInit alg))

/-- The state after a full block lies in it: one compression. -/
def digestCompress (alg : Nat) (st : Bytes) : Bytes :=
  if algSha3 alg then keccakF st
  else padTo 200 (sha2Out alg (sha2Compress (algParams alg) (shaWords alg st) (slice st 64 (algBlock alg))))

/-- Put a byte at a position of the block. -/
def digestPut (alg p : Nat) (st : Bytes) (b : Byte) : Bytes :=
  if algSha3 alg then modNth (· ^^^ b) p st else st.set (64 + p) b

/-- Absorb one byte after `n` others; a block that completes is compressed. Answers the state and the compressions. -/
def digestByte (alg : Nat) (x : Bytes × Nat × Nat) (b : Byte) : Bytes × Nat × Nat :=
  let p := x.2.1 % algBlock alg
  let st := digestPut alg p x.1 b
  if p + 1 = algBlock alg then (digestCompress alg st, x.2.1 + 1, x.2.2 + 1) else (st, x.2.1 + 1, x.2.2)

/-- Absorb bytes after `n` others. -/
def digestFeed (alg : Nat) (st : Bytes) (n : Nat) (b : Bytes) : Bytes × Nat :=
  let r := b.foldl (digestByte alg) (st, n, 0)
  (r.1, r.2.2)

/-- Pad and finish a state that has taken `n` bytes: the digest and the compressions of the padding. -/
def digestFinish (alg : Nat) (st : Bytes) (n : Nat) : Bytes × Nat :=
  if algSha3 alg then
    let p := n % algBlock alg
    ((keccakF (digestPut alg (algBlock alg - 1) (digestPut alg p st 0x06) 0x80)).take (algLen alg), 1)
  else
    let r := digestFeed alg st n (sha2Pad alg n)
    ((r.1.take (sha2Out alg (shaWords alg r.1)).length).take (algLen alg), r.2)

/-- The inner or outer key block of HMAC (R154). -/
def hmacPad (alg : Nat) (key : Bytes) (x : Byte) : Bytes := (padTo (algBlock alg) key).map (· ^^^ x)

/-- The usage bits of which an HMAC context needs one (R189). -/
def hmacUsage : List Nat := [uMacGen, uMacVerify]

/-- The key of an HMAC context (R154). -/
def State.hmacKey (s : State) (t : Seat) (k : Fin 8) : Except Byte Slot := do
  let x ← s.useKey t k (some eTeDigest) hmacUsage
  need (decide (16 ≤ x.key.material.length) && decide (x.key.material.length ≤ 64)) 0x0A
  pure x

/-- A digest context as D.INIT opens it. -/
def DigestCtx.opened (alg : Nat) (L : Word) (vendor : Bool) : DigestCtx :=
  { alg := BitVec.ofNat 8 alg, hmac := false, slot := 0, serial := 0, len := L, count := 0, st := digestStart alg,
    digest := .none, compared := false, vendor := vendor }

/-- D.INIT (R59, R152, R154). -/
def execDInit (u : SeatRef) (k : Fin 8) (g : Fin 32) (m : BitVec 6) (s : State) : Res :=
  runEx u s fun s t => do
    let alg := m.toNat % 32
    let hm := m.getLsbD 5
    need (decide (1 ≤ alg) && decide (alg ≤ 7) && (hm || k == 0)) 0x01
    let L := t.reg g
    let c := DigestCtx.opened alg L (t.world == .vendor)
    if hm then
      let x ← s.hmacKey t k
      need (decide (L.toNat < 2 ^ 61)) 0x0D
      let st := (digestFeed alg c.st 0 (hmacPad alg x.key.material 0x36)).1
      pure (s, { t with dctx := some { c with hmac := true, slot := k, serial := x.serial, st := st }, trunc := false },
        4 + algCost alg)
    else
      need (decide (L.toNat < 2 ^ 61)) 0x0D
      pure (s, { t with dctx := some c, trunc := false }, 4)

/-- The open digest context that is not finished (R153). -/
def Seat.digesting (t : Seat) : Except Byte DigestCtx :=
  match t.dctx with
  | some c => if c.digest.isSome then .error 0x0D else .ok c
  | .none => .error 0x0D

/-- Absorb bytes up to the declared length (R152): the context, the compressions, whether bytes were discarded. -/
def DigestCtx.absorb (c : DigestCtx) (b : Bytes) : DigestCtx × Nat × Bool :=
  let keep := b.take (c.len.toNat - c.count.toNat)
  let r := digestFeed c.alg.toNat c.st c.count.toNat keep
  ({ c with st := r.1, count := c.count + BitVec.ofNat 64 keep.length }, r.2, decide (keep.length < b.length))

/-- D.ABS (R60, R152). -/
def execDAbs (u : SeatRef) (y : Fin 8) (s : State) : Res :=
  runEx u s fun s t => do
    let c ← t.digesting
    let (c, n, cut) := c.absorb (blockBytes (t.blk y))
    pure (s, { t with dctx := some c, trunc := t.trunc || cut }, 1 + n * algCost c.alg.toNat)

/-- D.LAST (R60, R153, R154): a count outside 1-8 is illegal (R46). -/
def execDLast (u : SeatRef) (g : Fin 32) (m : BitVec 6) (s : State) : Res :=
  runEx u s fun s t => do
    need (decide (1 ≤ m.toNat) && decide (m.toNat ≤ 8)) 0x01
    let c ← t.digesting
    let (c, n, cut) := c.absorb ((natBE 8 (t.reg g).toNat).take m.toNat)
    need (c.count == c.len) 0x0D
    let alg := c.alg.toNat
    let total := c.count.toNat + if c.hmac then algBlock alg else 0
    let (d, p) := digestFinish alg c.st total
    let t := { t with trunc := t.trunc || cut }
    if c.hmac then
      let x ← s.hmacKey t c.slot
      let o := hash alg (hmacPad alg x.key.material 0x5C ++ d)
      pure (s, { t with dctx := some { c with digest := some o } }, 1 + (n + p + 2) * algCost alg)
    else pure (s, { t with dctx := some { c with digest := some d } }, 1 + (n + p) * algCost alg)

/-- The finished digest not yet compared (R61, R155). -/
def Seat.digested (t : Seat) : Except Byte (DigestCtx × Bytes) :=
  match t.dctx with
  | some c =>
    match c.digest with
    | some d => if c.compared then .error 0x0D else .ok (c, d)
    | .none => .error 0x0D
  | .none => .error 0x0D

/-- D.OUT (R61, R155): a piece above 3 is illegal (R46). -/
def execDOut (u : SeatRef) (x : Fin 8) (m : BitVec 6) (s : State) : Res :=
  runEx u s fun s t => do
    need (decide (m.toNat ≤ 3)) 0x01
    let (c, d) ← t.digested
    need (decide (16 * m.toNat < d.length)) 0x0D
    need (!(c.hmac && (t.slot c.slot).any fun k => k.key.may uMacVerify && !k.key.may uMacGen)) 0x0A
    pure (s, t.setBlk x (toBlock (slice d (16 * m.toNat) 16)), 2)

/-- D.CMP (R155): once, over the whole digest or at least 8 bytes. -/
def execDCmp (u : SeatRef) (g : Fin 32) (m : BitVec 6) (s : State) : Res :=
  runEx u s fun s t => do
    let (c, d) ← t.digested
    let n := if m = 0 then d.length else m.toNat
    need (m == 0 || (decide (8 ≤ n) && decide (n ≤ d.length))) 0x0D
    let a ← t.scratchAt u (t.reg g) n 1
    let equal := s.load a n == d.take n
    pure (s, { t.setReg g (if equal then 0 else 1) with dctx := some { c with compared := true } }, 6)

/-- D.SAVE (R156). -/
def execDSave (u : SeatRef) (g : Fin 32) (s : State) : Res :=
  runEx u s fun s t => do
    let c ← t.digesting
    need (!(c.hmac && t.world == .tenant)) 0x0A
    if c.hmac then
      let _ ← s.useKey t c.slot .none []
      let a ← t.scratchAt u (t.reg g) 256 16
      pure (s.store a (c.bytes t.trunc), t, 32)
    else
      let a ← t.scratchAt u (t.reg g) 256 16
      pure (s.store a (c.bytes t.trunc), t, 32)

/-- D.REST (R156). It takes TRUNC from the restored context, and so can clear it, though R60 names only D.INIT as clearing it
(DEDUCED, log entry 54). -/
def execDRest (u : SeatRef) (g : Fin 32) (s : State) : Res :=
  runEx u s fun s t => do
    let a ← t.scratchAt u (t.reg g) 256 16
    match DigestCtx.ofBytes (s.load a 256) (t.world == .vendor) with
    | .none => .error 0x0D
    | some (c, tr) =>
      if c.hmac then
        let x ← s.useKey t c.slot .none []
        need (x.serial == c.serial) 0x0D
        pure (s, { t with dctx := some c, trunc := tr }, 32)
      else pure (s, { t with dctx := some c, trunc := tr }, 32)

end Sys2Proof.Machine
end

