-- ==== Sys2Proof/Machine/TeMemory.lean ====
section
/-! DEFINITION. The memory instructions (R55, Table 2.8). -/

namespace Sys2Proof.Machine

/-- A load of `n` bytes into what `f` writes. -/
def loadOp (u : SeatRef) (rb : Fin 32) (sp : BitVec 2) (off : BitVec 14) (n : Nat) (f : Seat → Bytes → Seat) (s : State) : Res :=
  runPlain u s fun s t =>
    let a := t.address rb off
    match s.operand u t sp a n false with
    | (s, .located key cost) => .next s (f t (s.loadOperand t sp a key n)) cost
    | (s, .raises c) => .exc s c

/-- A store of bytes. -/
def storeOp (u : SeatRef) (rb : Fin 32) (sp : BitVec 2) (off : BitVec 14) (n : Nat) (f : Seat → Bytes) (s : State) : Res :=
  runPlain u s fun s t =>
    match s.operand u t sp (t.address rb off) n true with
    | (s, .located key cost) => .next (s.store key (f t)) t cost
    | (s, .raises c) => .exc s c

/-- A load of a zero-extended number into a g register. -/
def loadReg (u : SeatRef) (rt rb : Fin 32) (sp : BitVec 2) (off : BitVec 14) (n : Nat) (s : State) : Res :=
  loadOp u rb sp off n (fun t b => t.setReg rt (BitVec.ofNat 64 (beNat b))) s

/-- A store of the low bytes of a g register. -/
def storeReg (u : SeatRef) (rt rb : Fin 32) (sp : BitVec 2) (off : BitVec 14) (n : Nat) (s : State) : Res :=
  storeOp u rb sp off n (fun t => natBE n (t.reg rt).toNat) s

/-- LD8. -/
def execLd8 (u : SeatRef) (rt rb : Fin 32) (sp : BitVec 2) (off : BitVec 14) (s : State) : Res := loadReg u rt rb sp off 1 s

/-- ST8. -/
def execSt8 (u : SeatRef) (rt rb : Fin 32) (sp : BitVec 2) (off : BitVec 14) (s : State) : Res := storeReg u rt rb sp off 1 s

/-- LD16. -/
def execLd16 (u : SeatRef) (rt rb : Fin 32) (sp : BitVec 2) (off : BitVec 14) (s : State) : Res := loadReg u rt rb sp off 2 s

/-- ST16. -/
def execSt16 (u : SeatRef) (rt rb : Fin 32) (sp : BitVec 2) (off : BitVec 14) (s : State) : Res := storeReg u rt rb sp off 2 s

/-- LD32. -/
def execLd32 (u : SeatRef) (rt rb : Fin 32) (sp : BitVec 2) (off : BitVec 14) (s : State) : Res := loadReg u rt rb sp off 4 s

/-- ST32. -/
def execSt32 (u : SeatRef) (rt rb : Fin 32) (sp : BitVec 2) (off : BitVec 14) (s : State) : Res := storeReg u rt rb sp off 4 s

/-- LD64. -/
def execLd64 (u : SeatRef) (rt rb : Fin 32) (sp : BitVec 2) (off : BitVec 14) (s : State) : Res := loadReg u rt rb sp off 8 s

/-- ST64. -/
def execSt64 (u : SeatRef) (rt rb : Fin 32) (sp : BitVec 2) (off : BitVec 14) (s : State) : Res := storeReg u rt rb sp off 8 s

/-- LDB. -/
def execLdb (u : SeatRef) (rt : Fin 8) (rb : Fin 32) (sp : BitVec 2) (off : BitVec 14) (s : State) : Res :=
  loadOp u rb sp off 16 (fun t b => t.setBlk rt (toBlock b)) s

/-- STB. -/
def execStb (u : SeatRef) (rt : Fin 8) (rb : Fin 32) (sp : BitVec 2) (off : BitVec 14) (s : State) : Res :=
  storeOp u rb sp off 16 (fun t => blockBytes (t.blk rt)) s

end Sys2Proof.Machine
end

