-- ==== Sys2Proof/Machine/Dispatch.lean ====
section
/-! DEFINITION. One arm per command: what it does is the definition it calls. -/

namespace Sys2Proof.Machine

/-- The effect of a command on everything but the queue. -/
def exec (i : Instr) (s : State) : Host.Outcome State Fault Refusal :=
  match i with
  | .add u rd rs1 rs2 => Sys2Proof.Machine.execAdd u rd rs1 rs2 s
  | .sub u rd rs1 rs2 => Sys2Proof.Machine.execSub u rd rs1 rs2 s
  | .and u rd rs1 rs2 => Sys2Proof.Machine.execAnd u rd rs1 rs2 s
  | .or u rd rs1 rs2 => Sys2Proof.Machine.execOr u rd rs1 rs2 s
  | .xor u rd rs1 rs2 => Sys2Proof.Machine.execXor u rd rs1 rs2 s
  | .sll u rd rs1 rs2 => Sys2Proof.Machine.execSll u rd rs1 rs2 s
  | .srl u rd rs1 rs2 => Sys2Proof.Machine.execSrl u rd rs1 rs2 s
  | .sra u rd rs1 rs2 => Sys2Proof.Machine.execSra u rd rs1 rs2 s
  | .rol u rd rs1 rs2 => Sys2Proof.Machine.execRol u rd rs1 rs2 s
  | .slt u rd rs1 rs2 => Sys2Proof.Machine.execSlt u rd rs1 rs2 s
  | .sltu u rd rs1 rs2 => Sys2Proof.Machine.execSltu u rd rs1 rs2 s
  | .mul u rd rs1 rs2 => Sys2Proof.Machine.execMul u rd rs1 rs2 s
  | .mulhu u rd rs1 rs2 => Sys2Proof.Machine.execMulhu u rd rs1 rs2 s
  | .bswap u rd rs1 => Sys2Proof.Machine.execBswap u rd rs1 s
  | .cmovz u rd rs1 rs2 => Sys2Proof.Machine.execCmovz u rd rs1 rs2 s
  | .addi u rd rs1 imm => Sys2Proof.Machine.execAddi u rd rs1 imm s
  | .andi u rd rs1 imm => Sys2Proof.Machine.execAndi u rd rs1 imm s
  | .ori u rd rs1 imm => Sys2Proof.Machine.execOri u rd rs1 imm s
  | .xori u rd rs1 imm => Sys2Proof.Machine.execXori u rd rs1 imm s
  | .slti u rd rs1 imm => Sys2Proof.Machine.execSlti u rd rs1 imm s
  | .shi u rd rs1 imm => Sys2Proof.Machine.execShi u rd rs1 imm s
  | .insq u rd q imm => Sys2Proof.Machine.execInsq u rd q imm s
  | .sys u rd idx => Sys2Proof.Machine.execSys u rd idx s
  | .beq u ra rb imm => Sys2Proof.Machine.execBeq u ra rb imm s
  | .bne u ra rb imm => Sys2Proof.Machine.execBne u ra rb imm s
  | .blt u ra rb imm => Sys2Proof.Machine.execBlt u ra rb imm s
  | .bge u ra rb imm => Sys2Proof.Machine.execBge u ra rb imm s
  | .bltu u ra rb imm => Sys2Proof.Machine.execBltu u ra rb imm s
  | .bgeu u ra rb imm => Sys2Proof.Machine.execBgeu u ra rb imm s
  | .jmp u imm => Sys2Proof.Machine.execJmp u imm s
  | .call u imm => Sys2Proof.Machine.execCall u imm s
  | .ret u => Sys2Proof.Machine.execRet u s
  | .ld8 u rt rb sp off => Sys2Proof.Machine.execLd8 u rt rb sp off s
  | .ld16 u rt rb sp off => Sys2Proof.Machine.execLd16 u rt rb sp off s
  | .ld32 u rt rb sp off => Sys2Proof.Machine.execLd32 u rt rb sp off s
  | .ld64 u rt rb sp off => Sys2Proof.Machine.execLd64 u rt rb sp off s
  | .st8 u rt rb sp off => Sys2Proof.Machine.execSt8 u rt rb sp off s
  | .st16 u rt rb sp off => Sys2Proof.Machine.execSt16 u rt rb sp off s
  | .st32 u rt rb sp off => Sys2Proof.Machine.execSt32 u rt rb sp off s
  | .st64 u rt rb sp off => Sys2Proof.Machine.execSt64 u rt rb sp off s
  | .ldb u rt rb sp off => Sys2Proof.Machine.execLdb u rt rb sp off s
  | .stb u rt rb sp off => Sys2Proof.Machine.execStb u rt rb sp off s
  | .cInit u y k m => Sys2Proof.Machine.execCInit u y k m s
  | .cEnc u x y m => Sys2Proof.Machine.execCEnc u x y m s
  | .cDec u x y m => Sys2Proof.Machine.execCDec u x y m s
  | .cAad u y m => Sys2Proof.Machine.execCAad u y m s
  | .cMac u y m => Sys2Proof.Machine.execCMac u y m s
  | .cFin u x => Sys2Proof.Machine.execCFin u x s
  | .cSave u g => Sys2Proof.Machine.execCSave u g s
  | .cRest u g => Sys2Proof.Machine.execCRest u g s
  | .cFf1e u g => Sys2Proof.Machine.execCFf1e u g s
  | .cFf1d u g => Sys2Proof.Machine.execCFf1d u g s
  | .cRaw u x y k m => Sys2Proof.Machine.execCRaw u x y k m s
  | .dInit u k g m => Sys2Proof.Machine.execDInit u k g m s
  | .dAbs u y => Sys2Proof.Machine.execDAbs u y s
  | .dLast u g m => Sys2Proof.Machine.execDLast u g m s
  | .dOut u x m => Sys2Proof.Machine.execDOut u x m s
  | .dCmp u g m => Sys2Proof.Machine.execDCmp u g m s
  | .dSave u g => Sys2Proof.Machine.execDSave u g s
  | .dRest u g => Sys2Proof.Machine.execDRest u g s
  | .gfm u x y => Sys2Proof.Machine.execGfm u x y s
  | .cmpct u x y g m => Sys2Proof.Machine.execCmpct u x y g m s
  | .kLoad u k g => Sys2Proof.Machine.execKLoad u k g s
  | .kClr u k => Sys2Proof.Machine.execKClr u k s
  | .kDrv u x y k m => Sys2Proof.Machine.execKDrv u x y k m s
  | .kWrap u x k g m => Sys2Proof.Machine.execKWrap u x k g m s
  | .kUnwr u x k g m => Sys2Proof.Machine.execKUnwr u x k g m s
  | .kStore u x g => Sys2Proof.Machine.execKStore u x g s
  | .kAttr u k g => Sys2Proof.Machine.execKAttr u k g s
  | .gate u w => Sys2Proof.Machine.execGate u w s
  | .gret u marks => Sys2Proof.Machine.execGret u marks s
  | .mileP u ga n => Sys2Proof.Machine.execMileP u ga n s
  | .mileI u ga gb kind => Sys2Proof.Machine.execMileI u ga gb kind s
  | .mileC u ga gb kind => Sys2Proof.Machine.execMileC u ga gb kind s
  | .yieldPoint u => Sys2Proof.Machine.execYieldPoint u s
  | .emit u ga code => Sys2Proof.Machine.execEmit u ga code s
  | .trap u code => Sys2Proof.Machine.execTrap u code s
  | .vget u ga gb st => Sys2Proof.Machine.execVget u ga gb st s
  | .vput u ga gb st => Sys2Proof.Machine.execVput u ga gb st s
  | .yieldOverdue u => Sys2Proof.Machine.execYieldOverdue u s
  | .scratchUncorrectable u off => Sys2Proof.Machine.execScratchUncorrectable u off s
  | .vaultWaitDone u => Sys2Proof.Machine.execVaultWaitDone u s
  | .drbgReadDone e => Sys2Proof.Machine.execDrbgReadDone e s
  | .imageCacheFill u => Sys2Proof.Machine.execImageCacheFill u s
  | .caddyMissFill u => Sys2Proof.Machine.execCaddyMissFill u s
  | .anchorSpaceFree => Sys2Proof.Machine.execAnchorSpaceFree s
  | .itinRsp => Sys2Proof.Machine.execItinRsp s
  | .itinReq port vc msg => Sys2Proof.Machine.execItinReq port vc msg s
  | .itemDispatch c => Sys2Proof.Machine.execItemDispatch c s
  | .placementEvaluation => Sys2Proof.Machine.execPlacementEvaluation s
  | .clusterSleep c => Sys2Proof.Machine.execClusterSleep c s
  | .clusterWakeDone c ok => Sys2Proof.Machine.execClusterWakeDone c ok s
  | .overflowRefill lane => Sys2Proof.Machine.execOverflowRefill lane s
  | .overflowRefillDone lane => Sys2Proof.Machine.execOverflowRefillDone lane s
  | .linkCreditHoldRelease port vc => Sys2Proof.Machine.execLinkCreditHoldRelease port vc s
  | .depotCellUncorrectable bank cell => Sys2Proof.Machine.execDepotCellUncorrectable bank cell s
  | .bulkSegmentEnd c te => Sys2Proof.Machine.execBulkSegmentEnd c te s
  | .streamKeyFetchDone c te => Sys2Proof.Machine.execStreamKeyFetchDone c te s
  | .wrappedMoveArrival c move ok => Sys2Proof.Machine.execWrappedMoveArrival c move ok s
  | .maeJobYieldPoint c => Sys2Proof.Machine.execMaeJobYieldPoint c s
  | .maeJobEnd c ok => Sys2Proof.Machine.execMaeJobEnd c ok s
  | .maeKatDone c ok => Sys2Proof.Machine.execMaeKatDone c ok s
  | .maeKeyTableMissDone c => Sys2Proof.Machine.execMaeKeyTableMissDone c s
  | .vaultData port vc msg => Sys2Proof.Machine.execVaultData port vc msg s
  | .vaultRequestTimeout req => Sys2Proof.Machine.execVaultRequestTimeout req s
  | .vaultRefill => Sys2Proof.Machine.execVaultRefill s
  | .watermarkWrite => Sys2Proof.Machine.execWatermarkWrite s
  | .journalSpill => Sys2Proof.Machine.execJournalSpill s
  | .outcome => Sys2Proof.Machine.execOutcome s
  | .pfwNAssert => Sys2Proof.Machine.execPfwNAssert s
  | .pfwGraceEnd => Sys2Proof.Machine.execPfwGraceEnd s
  | .pfwNRelease => Sys2Proof.Machine.execPfwNRelease s
  | .cdrLockLoss port sl => Sys2Proof.Machine.execCdrLockLoss port sl s
  | .laneBerExceeded port sl => Sys2Proof.Machine.execLaneBerExceeded port sl s
  | .laneUncorrectableTwice port sl => Sys2Proof.Machine.execLaneUncorrectableTwice port sl s
  | .dfeTapAtLimit port sl => Sys2Proof.Machine.execDfeTapAtLimit port sl s
  | .laneFrame port frame => Sys2Proof.Machine.execLaneFrame port frame s
  | .remapRealignDone port => Sys2Proof.Machine.execRemapRealignDone port s
  | .remapSuspensionEnd port => Sys2Proof.Machine.execRemapSuspensionEnd port s
  | .dataFrame port frame => Sys2Proof.Machine.execDataFrame port frame s
  | .idleFrame port frame => Sys2Proof.Machine.execIdleFrame port frame s
  | .nakFrame port frame => Sys2Proof.Machine.execNakFrame port frame s
  | .initFrame port frame => Sys2Proof.Machine.execInitFrame port frame s
  | .idleFrameSend port => Sys2Proof.Machine.execIdleFrameSend port s
  | .initFrameSend port => Sys2Proof.Machine.execInitFrameSend port s
  | .ackSend port => Sys2Proof.Machine.execAckSend port s
  | .replayTimeout port => Sys2Proof.Machine.execReplayTimeout port s
  | .pcsAlignment port => Sys2Proof.Machine.execPcsAlignment port s
  | .trainingTimeout port => Sys2Proof.Machine.execTrainingTimeout port s
  | .trainingRestart port => Sys2Proof.Machine.execTrainingRestart port s
  | .initTimeout port => Sys2Proof.Machine.execInitTimeout port s
  | .retrainTimeout port => Sys2Proof.Machine.execRetrainTimeout port s
  | .partnerLoss port => Sys2Proof.Machine.execPartnerLoss port s
  | .violationDownEnd port => Sys2Proof.Machine.execViolationDownEnd port s
  | .violation port vc msg => Sys2Proof.Machine.execViolation port vc msg s
  | .bulkOpen port vc msg => Sys2Proof.Machine.execBulkOpen port vc msg s
  | .bulkData port vc msg => Sys2Proof.Machine.execBulkData port vc msg s
  | .bulkClose port vc msg => Sys2Proof.Machine.execBulkClose port vc msg s
  | .goingAway port vc msg => Sys2Proof.Machine.execGoingAway port vc msg s
  | .idleMessage port session => Sys2Proof.Machine.execIdleMessage port session s
  | .idleMessageReceipt port vc msg => Sys2Proof.Machine.execIdleMessageReceipt port vc msg s
  | .credit port session => Sys2Proof.Machine.execCredit port session s
  | .sessionCloseTimeout port session => Sys2Proof.Machine.execSessionCloseTimeout port session s
  | .sessionClosed port session => Sys2Proof.Machine.execSessionClosed port session s
  | .drainIntervalEnd port => Sys2Proof.Machine.execDrainIntervalEnd port s
  | .plannedStopDown port => Sys2Proof.Machine.execPlannedStopDown port s
  | .portAckWaitEnd port => Sys2Proof.Machine.execPortAckWaitEnd port s
  | .cmdTail fn v => Sys2Proof.Machine.execCmdTail fn v s
  | .cplHead fn v => Sys2Proof.Machine.execCplHead fn v s
  | .ringFetch fn entry body => Sys2Proof.Machine.execRingFetch fn entry body s
  | .ringCtrlEnable fn v => Sys2Proof.Machine.execRingCtrlEnable fn v s
  | .go fn v => Sys2Proof.Machine.execGo fn v s
  | .eventRw1c fn off v => Sys2Proof.Machine.execEventRw1c fn off v s
  | .registerWrite fn off size v => Sys2Proof.Machine.execRegisterWrite fn off size v s
  | .completionIrqDelay fn => Sys2Proof.Machine.execCompletionIrqDelay fn s
  | .flr fn => Sys2Proof.Machine.execFlr fn s
  | .instanceResetSquash fn => Sys2Proof.Machine.execInstanceResetSquash fn s
  | .instanceResetDone fn => Sys2Proof.Machine.execInstanceResetDone fn s
  | .laneEmpty lane => Sys2Proof.Machine.execLaneEmpty lane s
  | .vfEnableClear numVFs enable => Sys2Proof.Machine.execVfEnableClear numVFs enable s
  | .vfEnableSet numVFs => Sys2Proof.Machine.execVfEnableSet numVFs s
  | .d3hotEntry => Sys2Proof.Machine.execD3hotEntry s
  | .d3hotExit => Sys2Proof.Machine.execD3hotExit s
  | .freezeAtRest fn => Sys2Proof.Machine.execFreezeAtRest fn s
  | .deviceInfo c => Sys2Proof.Machine.execDeviceInfo c s
  | .deviceStatus c => Sys2Proof.Machine.execDeviceStatus c s
  | .deviceReset c => Sys2Proof.Machine.execDeviceReset c s
  | .warmReset => Sys2Proof.Machine.execWarmReset s
  | .deviceStandby c => Sys2Proof.Machine.execDeviceStandby c s
  | .deepStandbyEntered => Sys2Proof.Machine.execDeepStandbyEntered s
  | .faultRead c => Sys2Proof.Machine.execFaultRead c s
  | .faultClear c => Sys2Proof.Machine.execFaultClear c s
  | .recorderRead c => Sys2Proof.Machine.execRecorderRead c s
  | .lcStatus c => Sys2Proof.Machine.execLcStatus c s
  | .lcAdvance c => Sys2Proof.Machine.execLcAdvance c s
  | .lcReprovision c => Sys2Proof.Machine.execLcReprovision c s
  | .tamperStatus c => Sys2Proof.Machine.execTamperStatus c s
  | .tamperConfig c => Sys2Proof.Machine.execTamperConfig c s
  | .reserveStatus c => Sys2Proof.Machine.execReserveStatus c s
  | .reserveEngage c => Sys2Proof.Machine.execReserveEngage c s
  | .partFormat c => Sys2Proof.Machine.execPartFormat c s
  | .partCreate c => Sys2Proof.Machine.execPartCreate c s
  | .partDelete c => Sys2Proof.Machine.execPartDelete c s
  | .partPolicy c => Sys2Proof.Machine.execPartPolicy c s
  | .partRekey c => Sys2Proof.Machine.execPartRekey c s
  | .partStatus c => Sys2Proof.Machine.execPartStatus c s
  | .vfCreate c => Sys2Proof.Machine.execVfCreate c s
  | .vfDestroy c => Sys2Proof.Machine.execVfDestroy c s
  | .vfReset c => Sys2Proof.Machine.execVfReset c s
  | .vfFreeze c => Sys2Proof.Machine.execVfFreeze c s
  | .vfThaw c => Sys2Proof.Machine.execVfThaw c s
  | .vfSave c => Sys2Proof.Machine.execVfSave c s
  | .vfRestore c => Sys2Proof.Machine.execVfRestore c s
  | .vfStatus c => Sys2Proof.Machine.execVfStatus c s
  | .laneConfig c => Sys2Proof.Machine.execLaneConfig c s
  | .laneStatus c => Sys2Proof.Machine.execLaneStatus c s
  | .depotSet c => Sys2Proof.Machine.execDepotSet c s
  | .depotStatus c => Sys2Proof.Machine.execDepotStatus c s
  | .placeStatus c => Sys2Proof.Machine.execPlaceStatus c s
  | .keyPut c => Sys2Proof.Machine.execKeyPut c s
  | .keyGet c => Sys2Proof.Machine.execKeyGet c s
  | .keyList c => Sys2Proof.Machine.execKeyList c s
  | .keyGenerate c => Sys2Proof.Machine.execKeyGenerate c s
  | .keyDelete c => Sys2Proof.Machine.execKeyDelete c s
  | .keySetattr c => Sys2Proof.Machine.execKeySetattr c s
  | .keyImport c => Sys2Proof.Machine.execKeyImport c s
  | .keyExport c => Sys2Proof.Machine.execKeyExport c s
  | .keyCarryOpen c => Sys2Proof.Machine.execKeyCarryOpen c s
  | .keyCarryRead c => Sys2Proof.Machine.execKeyCarryRead c s
  | .caddyStatus c => Sys2Proof.Machine.execCaddyStatus c s
  | .itinLoad c => Sys2Proof.Machine.execItinLoad c s
  | .itinUnload c => Sys2Proof.Machine.execItinUnload c s
  | .itinList c => Sys2Proof.Machine.execItinList c s
  | .itinSignerAdd c => Sys2Proof.Machine.execItinSignerAdd c s
  | .itinSignerRemove c => Sys2Proof.Machine.execItinSignerRemove c s
  | .vaultFormat c => Sys2Proof.Machine.execVaultFormat c s
  | .vaultAlloc c => Sys2Proof.Machine.execVaultAlloc c s
  | .vaultFree c => Sys2Proof.Machine.execVaultFree c s
  | .vaultAttach c => Sys2Proof.Machine.execVaultAttach c s
  | .vaultVersion c => Sys2Proof.Machine.execVaultVersion c s
  | .vaultRecover c => Sys2Proof.Machine.execVaultRecover c s
  | .vaultStatus c => Sys2Proof.Machine.execVaultStatus c s
  | .journalQuery c => Sys2Proof.Machine.execJournalQuery c s
  | .journalStatus c => Sys2Proof.Machine.execJournalStatus c s
  | .freriConfig c => Sys2Proof.Machine.execFreriConfig c s
  | .freriSessionOpen c => Sys2Proof.Machine.execFreriSessionOpen c s
  | .freriSessionClose c => Sys2Proof.Machine.execFreriSessionClose c s
  | .freriStatus c => Sys2Proof.Machine.execFreriStatus c s
  | .timeStatus c => Sys2Proof.Machine.execTimeStatus c s
  | .timeConfig c => Sys2Proof.Machine.execTimeConfig c s
  | .entropyStatus c => Sys2Proof.Machine.execEntropyStatus c s
  | .entropyConfig c => Sys2Proof.Machine.execEntropyConfig c s
  | .entropyKat c => Sys2Proof.Machine.execEntropyKat c s
  | .ceremonyBegin c => Sys2Proof.Machine.execCeremonyBegin c s
  | .ceremonyStatus c => Sys2Proof.Machine.execCeremonyStatus c s
  | .ceremonyAbort c => Sys2Proof.Machine.execCeremonyAbort c s
  | .ceremonyOmk c => Sys2Proof.Machine.execCeremonyOmk c s
  | .fwStatus c => Sys2Proof.Machine.execFwStatus c s
  | .fwStage c => Sys2Proof.Machine.execFwStage c s
  | .fwActivate c => Sys2Proof.Machine.execFwActivate c s
  | .fwRewrapDone => Sys2Proof.Machine.execFwRewrapDone s
  | .rekeyRewrapDone colour => Sys2Proof.Machine.execRekeyRewrapDone colour s
  | .authorisationVoid => Sys2Proof.Machine.execAuthorisationVoid s
  | .sync m => Sys2Proof.Machine.execSync m s
  | .followUp m => Sys2Proof.Machine.execFollowUp m s
  | .announce m => Sys2Proof.Machine.execAnnounce m s
  | .delayResp m => Sys2Proof.Machine.execDelayResp m s
  | .pdelayReq m => Sys2Proof.Machine.execPdelayReq m s
  | .pdelayResp m => Sys2Proof.Machine.execPdelayResp m s
  | .delayReqSend => Sys2Proof.Machine.execDelayReqSend s
  | .pdelayReqSend => Sys2Proof.Machine.execPdelayReqSend s
  | .announceReceiptTimeout => Sys2Proof.Machine.execAnnounceReceiptTimeout s
  | .syncLossTimeout => Sys2Proof.Machine.execSyncLossTimeout s
  | .holdoverEstimateExceeded => Sys2Proof.Machine.execHoldoverEstimateExceeded s
  | .ref10mLost => Sys2Proof.Machine.execRef10mLost s
  | .ppsInEdge => Sys2Proof.Machine.execPpsInEdge s
  | .ppsInMissed => Sys2Proof.Machine.execPpsInMissed s
  | .milepostSecond => Sys2Proof.Machine.execMilepostSecond s
  | .ppsOutFall => Sys2Proof.Machine.execPpsOutFall s
  | .timingLinkDown => Sys2Proof.Machine.execTimingLinkDown s
  | .cellStabilised n => Sys2Proof.Machine.execCellStabilised n s
  | .noiseWindowEnd n raw => Sys2Proof.Machine.execNoiseWindowEnd n raw s
  | .fillTimeExceeded n => Sys2Proof.Machine.execFillTimeExceeded n s
  | .kettleDraw => Sys2Proof.Machine.execKettleDraw s
  | .drbgGenerate e => Sys2Proof.Machine.execDrbgGenerate e s
  | .reseedRequested e => Sys2Proof.Machine.execReseedRequested e s
  | .reseedRequired e => Sys2Proof.Machine.execReseedRequired e s
  | .seedWait e => Sys2Proof.Machine.execSeedWait e s
  | .katDone src failed cell => Sys2Proof.Machine.execKatDone src failed cell s
  | .cardInserted slot => Sys2Proof.Machine.execCardInserted slot s
  | .cardRemoved slot => Sys2Proof.Machine.execCardRemoved slot s
  | .atr slot bytes => Sys2Proof.Machine.execAtr slot bytes s
  | .atrTimeout slot => Sys2Proof.Machine.execAtrTimeout slot s
  | .classBReactivate slot => Sys2Proof.Machine.execClassBReactivate slot s
  | .ppsResponse slot bytes => Sys2Proof.Machine.execPpsResponse slot bytes s
  | .t1Block slot bytes => Sys2Proof.Machine.execT1Block slot bytes s
  | .blockWaitingTimeout slot => Sys2Proof.Machine.execBlockWaitingTimeout slot s
  | .wtxCeiling slot => Sys2Proof.Machine.execWtxCeiling slot s
  | .cardInactivity slot => Sys2Proof.Machine.execCardInactivity slot s
  | .ceremonyTimeout => Sys2Proof.Machine.execCeremonyTimeout s
  | .sourceSample samples => Sys2Proof.Machine.execSourceSample samples s
  | .continuousInterval samples => Sys2Proof.Machine.execContinuousInterval samples s
  | .tamperResponseDone => Sys2Proof.Machine.execTamperResponseDone s
  | .shadowCheck => Sys2Proof.Machine.execShadowCheck s
  | .backupShadowMismatch => Sys2Proof.Machine.execBackupShadowMismatch s
  | .faultArrival cls kind src detail => Sys2Proof.Machine.execFaultArrival cls kind src detail s
  | .class3Squash => Sys2Proof.Machine.execClass3Squash s
  | .faultHandling => Sys2Proof.Machine.execFaultHandling s
  | .gateLatchClear gate => Sys2Proof.Machine.execGateLatchClear gate s
  | .aliveOutToggle => Sys2Proof.Machine.execAliveOutToggle s
  | .peerAliveInEdge => Sys2Proof.Machine.execPeerAliveInEdge s
  | .peerAliveLost => Sys2Proof.Machine.execPeerAliveLost s
  | .recorderSample rec value => Sys2Proof.Machine.execRecorderSample rec value s
  | .recorderFlush => Sys2Proof.Machine.execRecorderFlush s
  | .recorderFlushDone => Sys2Proof.Machine.execRecorderFlushDone s
  | .recorderPeriodicFlush => Sys2Proof.Machine.execRecorderPeriodicFlush s
  | .operatingHoursTick => Sys2Proof.Machine.execOperatingHoursTick s
  | .holderRenewal => Sys2Proof.Machine.execHolderRenewal s
  | .refereeClaim claims => Sys2Proof.Machine.execRefereeClaim claims s
  | .claimLapse => Sys2Proof.Machine.execClaimLapse s
  | .lockstepMismatch => Sys2Proof.Machine.execLockstepMismatch s
  | .failoverGrant => Sys2Proof.Machine.execFailoverGrant s
  | .stewardSelftestDone south ok => Sys2Proof.Machine.execStewardSelftestDone south ok s
  | .gateEpochFlip gate rules => Sys2Proof.Machine.execGateEpochFlip gate rules s
  | .gateDrainDone gate => Sys2Proof.Machine.execGateDrainDone gate s
  | .gateDrainOverdue gate => Sys2Proof.Machine.execGateDrainOverdue gate s
  | .innerHoldOverdue src => Sys2Proof.Machine.execInnerHoldOverdue src s
  | .holdRelease src => Sys2Proof.Machine.execHoldRelease src s
  | .forcedStop c => Sys2Proof.Machine.execForcedStop c s
  | .shareStorePropagated colour => Sys2Proof.Machine.execShareStorePropagated colour s
  | .porstNAssert => Sys2Proof.Machine.execPorstNAssert s
  | .porstNRelease => Sys2Proof.Machine.execPorstNRelease s
  | .railBelowThreshold rail => Sys2Proof.Machine.execRailBelowThreshold rail s
  | .startupStepDone obs => Sys2Proof.Machine.execStartupStepDone obs s
  | .governorTick power => Sys2Proof.Machine.execGovernorTick power s
  | .loopAdjust c slack temp stretch => Sys2Proof.Machine.execLoopAdjust c slack temp stretch s
  | .marginLow1s c => Sys2Proof.Machine.execMarginLow1s c s
  | .correctedRateHigh c => Sys2Proof.Machine.execCorrectedRateHigh c s
  | .selftestDue src => Sys2Proof.Machine.execSelftestDue src s
  | .selftestDone src ok => Sys2Proof.Machine.execSelftestDone src ok s
  | .quiesceDone c => Sys2Proof.Machine.execQuiesceDone c s
  | .reserveEngaged c => Sys2Proof.Machine.execReserveEngaged c s
  | .dramPageRemap page => Sys2Proof.Machine.execDramPageRemap page s
  | .dramUncorrectable ch addr => Sys2Proof.Machine.execDramUncorrectable ch addr s
  | .caddyIntegrity slot => Sys2Proof.Machine.execCaddyIntegrity slot s
  | .sramCorrected src detail => Sys2Proof.Machine.execSramCorrected src detail s
  | .degradedVputTimeout u => Sys2Proof.Machine.execDegradedVputTimeout u s
  | .ppsResponseTimeout slot => Sys2Proof.Machine.execPpsResponseTimeout slot s
  | .dramCorrected ch addr => Sys2Proof.Machine.execDramCorrected ch addr s
  | .mramCorrected off => Sys2Proof.Machine.execMramCorrected off s
  | .dmaFault fn at_ => Sys2Proof.Machine.execDmaFault fn at_ s
  | .freriRefclkPresent port => Sys2Proof.Machine.execFreriRefclkPresent port s
  | .dbgUnlock unlock => Sys2Proof.Machine.execDbgUnlock unlock s
  | .vendorTestMode target => Sys2Proof.Machine.execVendorTestMode target s
  | .lcTransitionDone => Sys2Proof.Machine.execLcTransitionDone s
  | .granuleZeroingDone colour => Sys2Proof.Machine.execGranuleZeroingDone colour s

end Sys2Proof.Machine
end

