-- ==== Sys2Proof/Machine/Step.lean ====
section
/-! DEFINITION. One step of the block: the command at the front of the queue acts on the state with the queue's rest; with nothing queued
one cycle of the milepost clock passes (log entry 3). -/

namespace Sys2Proof.Machine

/-- One step: the command in front, or a cycle of the clock. -/
def step (s : State) : Host.Outcome State Fault Refusal :=
  match s.pending with
  | [] => .next s.clockCycle
  | c :: rest => exec c { s with pending := rest }

/-- A state with the command a word spells in front of its queue. No word spells a command (log entry 5), so the state stays. -/
def State.withFetchWord (s : State) (nbits w : Nat) : State :=
  match Sys2Proof.decodeTableWord nbits w with
  | some c => { s with pending := c :: s.pending }
  | .none => s

end Sys2Proof.Machine
end

