-- ==== Sys2Proof/Machine/Registers.lean ====
section
/-! DEFINITION. What the outside reads without a command: configuration space (R319), the BAR0 registers (R16, R326), the management
buses (R532). A read changes nothing. -/

namespace Sys2Proof.Machine

/-! ## The endpoint (Table 10.1) -/

/-- The capabilities of a function. -/
inductive PciCap where
  | express
  | powerManagement
  | msix
  | aer
  | ari
  | sriov
  | serialNumber
  | dataLinkFeature
  | physical16
  | physical32
  | physical64
  deriving DecidableEq, Repr

/-- What the configuration space of a function tells. -/
structure PciIdentity where
  device         : BitVec 16
  classCode      : BitVec 24
  caps           : List PciCap
  maxPayload     : Nat
  maxReadRequest : Nat
  tagBits        : Nat
  totalVfs       : Nat
  vfStride       : Nat
  serialNumber   : Word
  msixTableSize  : BitVec 11
  msixEnable     : Bool
  functionMask   : Bool
  vfEnable       : Bool
  numVfs         : Nat
  d3hot          : Bool
  deriving DecidableEq, Repr

/-- The low 64 bits of the device identifier, as INIT frames carry it too. -/
def serialNumber : Word := BitVec.ofNat 64 (Config.deviceId.toNat % 2 ^ 64)

/-- The configuration space of a function: Table 10.1, the SR-IOV capability (R322), and the MSI-X capability, whose Table Size is
the vector count less one (R333). -/
def State.pciIdentity (s : State) (fn : Nat) : PciIdentity :=
  let f := s.func fn
  { device := if fn = 0 then 0x07A0 else 0x07A1, classCode := 0x108000,
    caps := [.express, .powerManagement, .msix, .aer, .ari, .sriov, .serialNumber, .dataLinkFeature, .physical16, .physical32, .physical64],
    maxPayload := 512, maxReadRequest := 4096, tagBits := 10, totalVfs := 1023, vfStride := 1, serialNumber := serialNumber,
    msixTableSize := BitVec.ofNat 11 (f.vectors - 1), msixEnable := f.msixEnable, functionMask := f.msixMask,
    vfEnable := s.pcie.vfEnable, numVfs := s.pcie.numVfs, d3hot := s.pcie.d3hot }

/-! ## BAR0 (Table 10.4) -/

/-- Whether a PEER_ALIVE_IN edge came within the last 3 ms (PF_ALIVE.PEER). -/
def State.peerAlive (s : State) : Bool := s.faults.peerSeen && decide (s.now ≤ s.faults.peerLast + 3000000)

/-- The PEER and ALIVE bits of PF_ALIVE. -/
def State.aliveBits (s : State) : Nat := 2 * b2n s.peerAlive + b2n s.faults.aliveOn

/-- Whether a function's mailbox accepts a GO: served and idle, or holding it for the exit from deep standby (R328, R506). -/
def State.mbxReady (s : State) (fn : Nat) : Bool :=
  !(s.func fn).mbxBusy && (s.serves fn .mailbox || (fn == 0 && s.takesWrites 0 && s.power.standby == .entered))

/-- A pending bit array's 32 bits from a vector on. -/
def pbaBits (pba : List Nat) (from_ : Nat) : Nat :=
  ((List.range 32).map fun i => if pba.contains (from_ + i) then 2 ^ i else 0).sum

/-- A register that is the PF's alone. -/
def pfOnly (fn v : Nat) : Nat := if fn = 0 then v else 0

/-- The 4 bytes of a register: its last written value, the current value, or zero where it is write-only, reserved or unlisted (R16). -/
def State.readReg (s : State) (fn off : Nat) : Nat :=
  let f := s.func fn
  let msix := msixBase fn
  let pba := if fn = 0 then 0xC000 else 0x3000
  if off = 0x00 then 1 * 2 ^ 24 + Config.berconMinor.toNat * 2 ^ 16 + (if fn = 0 then 0 else 1) * 2 ^ 8 + 0xB1
  else if off = 0x04 then f.colour.toNat * 2 ^ 16 + fn % 1024
  else if off = 0x08 then s.power.dev.code * 2 ^ 12 + b2n (s.mbxReady fn)
  else if off = 0x0C then f.state.code * 2 ^ 4 + b2n f.ringError * 8
  else if off = 0x10 then 256 * 2 ^ 16 + f.vectors % 64
  else if off = 0x20 then f.cmdBase.toNat % 2 ^ 32
  else if off = 0x24 then f.cmdBase.toNat / 2 ^ 32
  else if off = 0x28 then f.cplBase.toNat % 2 ^ 32
  else if off = 0x2C then f.cplBase.toNat / 2 ^ 32
  else if off = 0x30 then f.cplLog2 * 2 ^ 16 + f.cmdLog2 * 2 ^ 8 + b2n f.ringEnable
  else if off = 0x38 then f.cmdHead.toNat
  else if off = 0x40 then f.cplTail.toNat
  else if off = 0x44 then f.irqCpl.toNat
  else if off = 0x48 then f.irqEvt.toNat
  else if off = 0x50 then f.event.toNat
  else if off = 0x54 then f.errReason.toNat * 2 ^ 24 + f.errIndex.toNat
  else if off = 0x60 then f.rstSerial.toNat
  else if off = 0x64 then f.rstItemsDrained.toNat
  else if off = 0x68 then f.rstItemsSquashed.toNat
  else if off = 0x6C then f.rstCmdsDrained.toNat
  else if off = 0x70 then f.rstCmdsSquashed.toNat
  else if off = 0x74 then f.rstStreams.toNat
  else if off = 0x78 then f.rstTime.toNat
  else if off = 0x100 then pfOnly fn (s.tenancy.parts.filter fun q => q.2.vf != 0).length
  else if off = 0x104 then pfOnly fn s.faults.queue.length
  else if off = 0x108 then pfOnly fn s.aliveBits
  else if off = 0x1004 then 4 * b2n f.mbxOverrun + 2 * b2n f.mbxDone + b2n f.mbxBusy
  else if 0x1040 ≤ off ∧ off < 0x1080 then fieldLE f.mbxReq (off - 0x1040) 4
  else if 0x1080 ≤ off ∧ off < 0x10A0 then fieldLE f.mbxCpl (off - 0x1080) 4
  else if 0x1100 ≤ off ∧ off < 0x1900 then fieldLE ((List.range 4).map fun i => f.mbxData.get (off - 0x1100 + i) 0) 0 4
  else if msix ≤ off ∧ off < msix + 16 * f.vectors then
    (f.msix.get ((off - msix) / 4) (if (off - msix) / 4 % 4 = 3 then 1 else 0)).toNat
  else if pba ≤ off ∧ off < pba + 8 * ((f.vectors + 63) / 64) then pbaBits f.pba ((off - pba) * 8)
  else 0

/-- What a BAR0 read of a function returns; an access BAR0 does not take reads as zero (R326), and so does a function in D3hot or one the
host does not see, which no read reaches. -/
def State.bar0Read (s : State) (fn off size : Nat) : Word :=
  if !s.reaches fn || !accessOk fn off size (s.func fn).vectors then 0
  else BitVec.ofNat 64 (s.readReg fn off + (if size = 8 then s.readReg fn (off + 4) * 2 ^ 32 else 0))

/-! ## The management buses (R532) -/

/-- Whether the management buses are served: PORST_N has been released for 20 ms. -/
def State.mgmtServed (s : State) : Bool := !s.power.porst && decide (s.power.released + 20000000 ≤ s.now)

/-- A value in LINEAR11: a mantissa of 11 bits under a power of two of 5 bits, here for a number of tenths. Its exponent is the smallest
that fits the mantissa, from 2^-2 on. -/
def linear11 (tenths : Int) : Nat :=
  let at_ := fun (e : Nat) => (tenths * 4) / (10 * 2 ^ e)
  let e := ((List.range 13).find? fun e => decide (-1024 ≤ at_ e) && decide (at_ e ≤ 1023)).getD 12
  ((e + 30) % 32) * 2 ^ 11 + ((at_ e) % 2048).toNat

/-- STATUS_BYTE: the temperature bit while a junction is at or above 100 °C (the bit of PMBus 1.3, PRESUMED, log entry 48). -/
def State.statusByte (s : State) : Byte := if s.pmbLow then 4 else 0

/-- The hottest junction and the Hub die, in 0.1 °C, and the package power in 0.1 W, as they were last sampled. -/
def State.pmbWord (s : State) (code : Nat) : Option Nat :=
  if code = 0x8D then some (linear11 s.hottest)
  else if code = 0x8E then some (linear11 s.power.hubTemp)
  else if code = 0x97 then some (linear11 (s.power.samples.headD 0))
  else .none

/-- The bytes a register of the SMBus target or a command of the PMBus target reads as. -/
def State.mgmtReg (s : State) (address code : Nat) : Option Bytes :=
  if address = 0x5C then
    if code = 0 then some (natLE 1 s.power.dev.code)
    else if code = 1 then some [s.lc.code]
    else if code = 2 then some (natLE 1 s.aliveBits)
    else if code = 3 then some (natLE 1 s.faults.queue.length)
    else .none
  else if address = 0x5D then
    if code = 0x98 then some [0x33]
    else if code = 0x78 then some [s.statusByte]
    else (s.pmbWord code).map (natLE 2)
  else .none

/-- What a target answers to one transaction of the board. -/
structure MgmtAnswer where
  addressAck : Bool
  codeAck    : Bool
  dataAck    : Bool
  bytes      : Bytes
  deriving DecidableEq, Repr

/-- A transaction on a management bus: the target acknowledges its address and a listed code, NACKs any other code and every byte of a
write, and gives a read's bytes. Neither bus changes the state. -/
def State.mgmt (s : State) (address code : Nat) (writes : Bytes) : MgmtAnswer :=
  let mine := s.mgmtServed && (address == 0x5C || address == 0x5D)
  let r := if mine then s.mgmtReg address code else .none
  { addressAck := mine, codeAck := r.isSome, dataAck := false, bytes := if writes.isEmpty then r.getD [] else [] }

end Sys2Proof.Machine
end

