-- ==== Sys2Proof/Safety.lean ====
section
/-! DEFINITION. What the statements about the machine are written with: that a command completes, that a seat issues, what an
instruction of a seat leaves as it was, that a host command is admitted, what counts as a canonical
state, and which fields a command may write. -/

namespace Sys2Proof.Machine

/-- A command completes: `exec` answers a next state, and `P` holds of it. -/
def Completes (c : Instr) (s : State) (P : State → Prop) : Prop := ∃ t, exec c s = .next t ∧ P t

/-- A seat of the part issues its next instruction (R77, R81). -/
def Runs (s : State) (u : SeatRef) : Prop := u.ok = true ∧ (s.seat u).phase = .running ∧ (s.seat u).sinceYield < 24000

/-- A seat as an instruction other than SYS finds it: the halves of a milepost sample are parted (R51). -/
def Seat.plain (x : Seat) : Seat := { x with sample := .none }

/-- An instruction of a seat has run: from the state `s1`, which holds its effect outside the seat, nothing but that seat (and the
model's free-value counter) changed; the seat is `x` at the pc given, its cycle counts raised, and it runs on or waits for its
next line (R47, R48). -/
def Ran (u : SeatRef) (s1 : State) (x : Seat) (pc : BitVec 32) (cost : Nat) (t : State) : Prop :=
  t = { s1 with seats := t.seats, freeCtr := t.freeCtr } ∧
  (∀ v : SeatRef, v.ok = true → v ≠ u → t.seat v = s1.seat v) ∧
  ((t.seat u).phase = .running ∨ (t.seat u).phase = .fetchWait) ∧
  t.seat u = { x with phase := (t.seat u).phase, pc := pc, cycles := x.cycles + cost, sinceYield := x.sinceYield + cost }

/-- A host command passes the checks every command shares (R349): its function is the part's, the catalogue has its opcode, checks 1 to 4
allow it, for a journalled one the ticket is free and the anchor log has room for its intents, and nothing keeps it waiting: no command acts
on its object (R351), and a read of H.DRBG it needs does not stall (R417). -/
def Admitted (op : Nat) (sp : Spec) (c : Cmd) (s : State) : Prop :=
  fnOk c.fn = true ∧ specOf op = some sp ∧ s.admission sp c = .none ∧
  (sp.journal = true → c.ticket ≠ 0 ∧ s.journal.ticketInUse c.colour c.ticket = false ∧ s.journal.intentRoom = true) ∧
  s.waits op c = false

/-- A host command completes OK from the state `s1`, which holds its effect, with a response (R328, R331). -/
def Answered (sp : Spec) (c : Cmd) (s1 : State) (rsp : Bytes) (t : State) : Prop := t = s1.finish sp c cOk rsp 0

/-- The byte memory is in its canonical form (log entry 7). -/
def Canonical (s : State) : Prop := s.mem.wf

/-! ## Frames: what a command may write -/

/-- The fields of `State` but the queue. -/
inductive Fld where
  | now
  | freeCtr
  | out
  | mem
  | seats
  | tes
  | clusters
  | lanes
  | depot
  | tenancy
  | keys
  | vault
  | journal
  | held
  | port0
  | port1
  | openSerial
  | pcie
  | gates
  | steward
  | time
  | entropy
  | cards
  | tamper
  | lc
  | faults
  | recorder
  | power
  deriving DecidableEq, Repr

/-- Every field. -/
def Fld.all : List Fld := [.now, .freeCtr, .out, .mem, .seats, .tes, .clusters, .lanes, .depot, .tenancy, .keys, .vault, .journal, .held, .port0, .port1, .openSerial, .pcie, .gates, .steward, .time, .entropy, .cards, .tamper, .lc, .faults, .recorder, .power]

/-- From `s` to `t` only the fields in `W` changed; the queue is the same, and the byte memory stays canonical. -/
structure Kept (W : List Fld) (s t : State) : Prop where
  pending : t.pending = s.pending
  wf : s.mem.wf → t.mem.wf
  now : Fld.now ∈ W ∨ t.now = s.now
  freeCtr : Fld.freeCtr ∈ W ∨ t.freeCtr = s.freeCtr
  out : Fld.out ∈ W ∨ t.out = s.out
  mem : Fld.mem ∈ W ∨ t.mem = s.mem
  seats : Fld.seats ∈ W ∨ t.seats = s.seats
  tes : Fld.tes ∈ W ∨ t.tes = s.tes
  clusters : Fld.clusters ∈ W ∨ t.clusters = s.clusters
  lanes : Fld.lanes ∈ W ∨ t.lanes = s.lanes
  depot : Fld.depot ∈ W ∨ t.depot = s.depot
  tenancy : Fld.tenancy ∈ W ∨ t.tenancy = s.tenancy
  keys : Fld.keys ∈ W ∨ t.keys = s.keys
  vault : Fld.vault ∈ W ∨ t.vault = s.vault
  journal : Fld.journal ∈ W ∨ t.journal = s.journal
  held : Fld.held ∈ W ∨ t.held = s.held
  port0 : Fld.port0 ∈ W ∨ t.port0 = s.port0
  port1 : Fld.port1 ∈ W ∨ t.port1 = s.port1
  openSerial : Fld.openSerial ∈ W ∨ t.openSerial = s.openSerial
  pcie : Fld.pcie ∈ W ∨ t.pcie = s.pcie
  gates : Fld.gates ∈ W ∨ t.gates = s.gates
  steward : Fld.steward ∈ W ∨ t.steward = s.steward
  time : Fld.time ∈ W ∨ t.time = s.time
  entropy : Fld.entropy ∈ W ∨ t.entropy = s.entropy
  cards : Fld.cards ∈ W ∨ t.cards = s.cards
  tamper : Fld.tamper ∈ W ∨ t.tamper = s.tamper
  lc : Fld.lc ∈ W ∨ t.lc = s.lc
  faults : Fld.faults ∈ W ∨ t.faults = s.faults
  recorder : Fld.recorder ∈ W ∨ t.recorder = s.recorder
  power : Fld.power ∈ W ∨ t.power = s.power

/-- What an arriving fault may reach (R470-R489). -/
def faultFields : List Fld :=
  [.out, .tes, .clusters, .depot, .vault, .journal, .port0, .port1, .pcie, .cards, .faults, .recorder, .power]

/-- What the checks and the completion of a host command reach (R328-R349). -/
def hostFields : List Fld :=
  [.out, .journal, .pcie, .recorder]

/-- What an instruction of a seat may reach, its exceptions and its end among it (R76-R81, R142). -/
def seatFields : List Fld :=
  [.freeCtr, .out, .mem, .seats, .tes, .clusters, .lanes, .depot, .vault, .journal, .held, .port0, .port1, .pcie, .cards, .faults, .recorder, .power]

/-- What a message the Hub takes in may reach (R295-R299). -/
def takeFields : List Fld :=
  [.freeCtr, .out, .mem, .seats, .tes, .clusters, .lanes, .depot, .tenancy, .keys, .vault, .journal, .port0, .port1, .pcie, .cards, .faults, .recorder, .power]

/-- The fields a command may write; it leaves every other one as it was. -/
def writes : Instr → List Fld
  | .add .. | .sub .. | .and .. | .or .. | .xor .. | .sll .. | .srl .. | .sra .. | .rol .. | .slt .. | .sltu .. | .mul .. | .mulhu ..
  | .bswap .. | .cmovz .. | .addi .. | .andi .. | .ori .. | .xori .. | .slti .. | .shi .. | .insq .. | .beq .. | .bne .. | .blt ..
  | .bge .. | .bltu .. | .bgeu .. | .jmp .. | .call .. | .ret .. | .cInit .. | .cEnc .. | .cDec .. | .cAad .. | .cMac .. | .cFin ..
  | .cSave .. | .cRest .. | .cFf1e .. | .cFf1d .. | .cRaw .. | .dInit .. | .dAbs .. | .dLast .. | .dOut .. | .dCmp .. | .dSave ..
  | .dRest .. | .gfm .. | .cmpct .. | .kClr .. | .kDrv .. | .kWrap .. | .kUnwr .. | .kAttr .. | .gate .. | .gret .. | .mileP ..
  | .mileI .. | .mileC .. | .emit .. | .trap .. | .anchorSpaceFree =>
    seatFields
  | .sys .. =>
    seatFields ++ [.entropy]
  | .ld8 .. | .ld16 .. | .ld32 .. | .ld64 .. | .st8 .. | .st16 .. | .st32 .. | .st64 .. | .ldb .. | .stb .. =>
    seatFields ++ [.gates]
  | .kLoad .. | .caddyMissFill .. =>
    seatFields ++ [.keys]
  | .kStore .. =>
    seatFields ++ [.keys, .entropy]
  | .yieldPoint .. =>
    seatFields ++ [.keys, .gates]
  | .vget .. | .vput .. =>
    takeFields ++ [.held]
  | .yieldOverdue .. | .scratchUncorrectable .. =>
    faultFields ++ [.mem, .seats, .lanes, .held]
  | .vaultWaitDone .. =>
    [.freeCtr, .mem, .seats, .tes]
  | .drbgReadDone .. =>
    [.freeCtr, .seats, .clusters, .entropy]
  | .imageCacheFill .. =>
    [.freeCtr, .seats]
  | .itinRsp =>
    [.out, .journal, .held, .port0, .port1]
  | .itinReq .. | .linkCreditHoldRelease .. | .vaultData .. | .dataFrame .. | .violation .. | .bulkOpen .. | .bulkData .. | .bulkClose ..
  | .goingAway .. | .idleMessageReceipt .. =>
    takeFields
  | .itemDispatch .. =>
    faultFields ++ [.mem, .seats, .lanes, .keys, .held, .gates]
  | .placementEvaluation =>
    [.freeCtr, .mem, .tes, .clusters, .lanes, .depot, .port0, .port1]
  | .clusterSleep .. =>
    [.mem, .tes, .clusters, .port0, .port1, .steward]
  | .clusterWakeDone .. | .wrappedMoveArrival .. | .marginLow1s .. | .correctedRateHigh .. | .quiesceDone .. =>
    faultFields ++ [.freeCtr, .mem, .seats, .lanes, .steward, .time, .entropy]
  | .overflowRefill .. =>
    [.lanes, .depot]
  | .overflowRefillDone .. =>
    [.depot]
  | .depotCellUncorrectable .. =>
    faultFields ++ [.lanes]
  | .bulkSegmentEnd .. =>
    [.freeCtr, .out, .tes, .clusters, .depot, .keys, .port0, .port1]
  | .streamKeyFetchDone .. =>
    [.out, .tes, .clusters, .depot, .keys, .port0, .port1]
  | .maeJobYieldPoint .. =>
    [.clusters, .lanes, .depot, .keys, .journal, .port0, .port1, .pcie]
  | .maeJobEnd .. =>
    takeFields ++ [.held, .openSerial, .steward, .time, .entropy]
  | .maeKatDone .. | .selftestDone .. =>
    faultFields ++ [.freeCtr, .mem, .seats, .lanes, .keys, .gates, .steward, .time, .entropy]
  | .maeKeyTableMissDone .. =>
    [.clusters, .keys]
  | .vaultRequestTimeout .. | .vaultRefill | .outcome | .vaultFree .. | .vaultAttach .. | .vaultVersion .. =>
    hostFields ++ [.freeCtr, .seats, .tenancy, .keys, .vault, .port0, .port1]
  | .watermarkWrite =>
    [.depot, .journal]
  | .journalSpill =>
    [.journal]
  | .pfwNAssert =>
    [.depot, .recorder, .power]
  | .pfwGraceEnd =>
    faultFields ++ [.mem, .seats, .lanes, .time]
  | .pfwNRelease =>
    [.power]
  | .cdrLockLoss .. | .laneBerExceeded .. | .laneUncorrectableTwice .. | .dfeTapAtLimit .. | .laneFrame .. | .retrainTimeout ..
  | .partnerLoss .. | .lcStatus .. | .vaultRecover .. | .ceremonyAbort .. | .seedWait .. | .cardRemoved .. | .atr .. | .atrTimeout ..
  | .ppsResponse .. | .blockWaitingTimeout .. | .wtxCeiling .. | .cardInactivity .. | .ceremonyTimeout | .peerAliveInEdge | .peerAliveLost
  | .gateDrainOverdue .. | .innerHoldOverdue .. | .dramPageRemap .. | .dramUncorrectable .. | .caddyIntegrity .. | .dramCorrected ..
  | .mramCorrected .. =>
    faultFields
  | .remapRealignDone .. =>
    faultFields ++ [.freeCtr]
  | .remapSuspensionEnd .. | .pcsAlignment .. | .trainingRestart .. | .violationDownEnd .. | .freriRefclkPresent .. =>
    [.port0, .port1]
  | .idleFrame .. | .nakFrame .. =>
    [.out, .journal, .port0, .port1, .recorder]
  | .initFrame .. =>
    faultFields ++ [.mem, .lanes]
  | .idleFrameSend .. | .ackSend .. =>
    [.out]
  | .initFrameSend .. =>
    [.out, .mem, .clusters, .lanes, .port0, .port1]
  | .replayTimeout .. =>
    [.out, .port0, .port1, .recorder]
  | .trainingTimeout .. | .initTimeout .. | .drainIntervalEnd .. =>
    [.out, .tes, .clusters, .depot, .port0, .port1]
  | .idleMessage .. | .credit .. =>
    [.out, .port0, .port1]
  | .sessionCloseTimeout .. | .sessionClosed .. =>
    [.out, .tes, .clusters, .depot, .vault, .port0, .port1]
  | .plannedStopDown .. | .portAckWaitEnd .. =>
    [.out, .tes, .clusters, .depot, .port0, .port1, .pcie, .faults, .recorder, .power]
  | .cmdTail .. | .ringFetch .. | .ringCtrlEnable .. | .dmaFault .. =>
    [.out, .pcie, .recorder]
  | .cplHead .. | .freezeAtRest .. | .deviceInfo .. | .recorderRead .. | .tamperStatus .. | .reserveStatus .. | .partStatus ..
  | .vfSave .. | .vfStatus .. | .laneStatus .. | .depotStatus .. | .placeStatus .. | .keyGet .. | .keyList .. | .caddyStatus ..
  | .itinList .. | .vaultStatus .. | .journalQuery .. | .journalStatus .. | .timeStatus .. | .entropyStatus .. | .ceremonyStatus ..
  | .fwStatus .. =>
    hostFields
  | .go .. =>
    hostFields ++ [.time, .power]
  | .eventRw1c .. | .d3hotEntry | .d3hotExit =>
    [.pcie]
  | .registerWrite .. | .completionIrqDelay .. =>
    [.out, .pcie]
  | .flr .. | .instanceResetSquash .. | .vfEnableClear .. | .vfEnableSet .. | .class3Squash =>
    [.out, .seats, .tes, .clusters, .lanes, .depot, .journal, .port0, .port1, .pcie]
  | .instanceResetDone .. =>
    hostFields ++ [.mem, .clusters, .lanes, .tenancy, .port0, .port1]
  | .laneEmpty .. =>
    [.out, .mem, .clusters, .lanes, .tenancy, .port0, .port1, .gates]
  | .deviceStatus .. | .keyExport .. | .freriStatus .. =>
    hostFields ++ [.freeCtr]
  | .deviceReset .. | .fwStage .. =>
    hostFields ++ [.power]
  | .warmReset =>
    faultFields ++ [.mem, .seats, .lanes, .tenancy, .keys, .held, .steward, .time, .entropy, .lc]
  | .deviceStandby .. =>
    hostFields ++ [.tes, .clusters, .lanes, .depot, .port0, .port1, .steward, .time, .faults, .power]
  | .deepStandbyEntered =>
    faultFields ++ [.mem, .seats, .lanes, .time, .entropy]
  | .faultRead .. =>
    hostFields ++ [.faults]
  | .faultClear .. =>
    hostFields ++ [.mem, .tes, .clusters, .lanes, .depot, .port0, .port1, .gates, .steward, .entropy, .faults, .power]
  | .lcAdvance .. | .vendorTestMode .. =>
    faultFields ++ [.seats, .lanes, .keys, .entropy, .lc]
  | .lcReprovision .. | .noiseWindowEnd .. | .fillTimeExceeded .. =>
    faultFields ++ [.entropy]
  | .tamperConfig .. =>
    faultFields ++ [.tamper]
  | .reserveEngage .. =>
    faultFields ++ [.steward, .entropy]
  | .partFormat .. =>
    hostFields ++ [.mem, .clusters, .lanes, .tenancy]
  | .partCreate .. | .vfCreate .. =>
    hostFields ++ [.mem, .clusters, .lanes, .tenancy, .keys, .port0, .port1, .gates, .steward]
  | .partDelete .. =>
    hostFields ++ [.seats, .tes, .clusters, .lanes, .depot, .tenancy, .port0, .port1, .gates]
  | .partPolicy .. | .vaultAlloc .. =>
    hostFields ++ [.tenancy]
  | .partRekey .. =>
    hostFields ++ [.tenancy, .keys]
  | .vfDestroy .. | .vfReset .. =>
    hostFields ++ [.seats, .tes, .clusters, .lanes, .depot, .port0, .port1]
  | .vfFreeze .. =>
    hostFields ++ [.freeCtr, .mem, .seats, .tes, .clusters, .lanes, .depot, .port0, .port1]
  | .vfThaw .. | .laneConfig .. =>
    hostFields ++ [.lanes, .port0, .port1]
  | .vfRestore .. =>
    hostFields ++ [.freeCtr, .mem, .clusters, .lanes, .depot, .tenancy, .held, .port0, .port1]
  | .depotSet .. =>
    hostFields ++ [.clusters, .depot]
  | .keyPut .. =>
    hostFields ++ [.clusters, .keys, .vault, .port0, .port1, .openSerial]
  | .keyGenerate .. =>
    hostFields ++ [.freeCtr, .clusters, .depot, .keys, .vault, .port0, .port1, .openSerial, .entropy]
  | .keyDelete .. =>
    hostFields ++ [.clusters, .keys]
  | .keySetattr .. =>
    hostFields ++ [.freeCtr, .clusters, .keys, .entropy]
  | .keyImport .. =>
    hostFields ++ [.freeCtr, .clusters, .keys, .vault, .port0, .port1, .openSerial, .entropy]
  | .keyCarryOpen .. =>
    faultFields ++ [.keys]
  | .keyCarryRead .. | .rekeyRewrapDone .. =>
    hostFields ++ [.keys]
  | .itinLoad .. =>
    hostFields ++ [.depot]
  | .itinUnload .. =>
    hostFields ++ [.mem, .seats, .tes, .lanes, .tenancy, .held]
  | .itinSignerAdd .. | .itinSignerRemove .. =>
    faultFields ++ [.tenancy]
  | .vaultFormat .. =>
    hostFields ++ [.freeCtr, .clusters, .tenancy, .keys, .vault, .entropy]
  | .freriConfig .. =>
    hostFields ++ [.tes, .clusters, .lanes, .depot, .keys, .port0, .port1, .openSerial, .faults, .power]
  | .freriSessionOpen .. =>
    hostFields ++ [.keys, .port0, .port1, .openSerial]
  | .freriSessionClose .. =>
    hostFields ++ [.port0, .port1]
  | .timeConfig .. =>
    hostFields ++ [.time]
  | .entropyConfig .. =>
    hostFields ++ [.entropy]
  | .entropyKat .. =>
    hostFields ++ [.steward, .entropy]
  | .ceremonyBegin .. =>
    hostFields ++ [.freeCtr, .cards]
  | .ceremonyOmk .. =>
    faultFields ++ [.freeCtr, .keys, .openSerial, .entropy]
  | .fwActivate .. =>
    hostFields ++ [.keys, .faults, .power]
  | .fwRewrapDone =>
    [.depot, .keys, .vault, .journal, .power]
  | .authorisationVoid =>
    [.cards]
  | .sync .. | .followUp .. =>
    [.freeCtr, .time, .recorder]
  | .announce .. | .delayResp .. | .pdelayResp .. =>
    [.time, .recorder]
  | .pdelayReq .. =>
    [.out, .time, .recorder]
  | .delayReqSend | .pdelayReqSend | .ppsOutFall =>
    [.out, .time]
  | .announceReceiptTimeout | .syncLossTimeout | .holdoverEstimateExceeded | .ppsInMissed | .timingLinkDown =>
    [.time]
  | .ref10mLost =>
    faultFields ++ [.time]
  | .ppsInEdge =>
    [.freeCtr, .time]
  | .milepostSecond =>
    [.now, .out, .clusters, .time]
  | .cellStabilised .. =>
    [.entropy]
  | .kettleDraw =>
    hostFields ++ [.freeCtr, .clusters, .keys, .entropy, .tamper, .lc, .faults, .power]
  | .drbgGenerate .. | .reseedRequested .. | .reseedRequired .. =>
    [.clusters, .entropy]
  | .katDone .. =>
    faultFields ++ [.freeCtr, .mem, .seats, .lanes, .gates, .steward, .time, .entropy]
  | .cardInserted .. | .classBReactivate .. | .ppsResponseTimeout .. =>
    [.out, .cards]
  | .t1Block .. =>
    faultFields ++ [.freeCtr, .entropy]
  | .sourceSample .. | .continuousInterval .. | .tamperResponseDone =>
    faultFields ++ [.mem, .seats, .lanes, .keys, .entropy, .tamper]
  | .shadowCheck =>
    faultFields ++ [.steward, .tamper]
  | .backupShadowMismatch =>
    [.tamper]
  | .faultArrival .. =>
    faultFields ++ [.gates]
  | .faultHandling =>
    [.faults]
  | .gateLatchClear .. | .gateEpochFlip .. =>
    [.gates]
  | .aliveOutToggle =>
    [.out, .faults]
  | .recorderSample .. =>
    [.out, .clusters, .port0, .port1, .recorder, .power]
  | .recorderFlush | .recorderFlushDone | .recorderPeriodicFlush | .operatingHoursTick =>
    [.recorder]
  | .holderRenewal | .refereeClaim .. =>
    faultFields ++ [.gates, .steward]
  | .claimLapse =>
    [.steward]
  | .lockstepMismatch =>
    faultFields ++ [.steward]
  | .failoverGrant =>
    faultFields ++ [.mem, .lanes, .keys, .gates, .steward, .time]
  | .stewardSelftestDone .. =>
    faultFields ++ [.mem, .lanes, .gates, .steward]
  | .gateDrainDone .. =>
    hostFields ++ [.gates, .steward]
  | .holdRelease .. =>
    hostFields ++ [.mem, .tes, .clusters, .lanes, .depot, .port0, .port1, .steward, .time, .faults, .power]
  | .forcedStop .. =>
    faultFields ++ [.mem, .seats, .lanes]
  | .shareStorePropagated .. =>
    [.mem]
  | .porstNAssert | .railBelowThreshold .. =>
    Fld.all
  | .porstNRelease =>
    [.time, .recorder, .power]
  | .startupStepDone .. =>
    takeFields ++ [.held, .openSerial, .gates, .steward, .time, .entropy, .tamper, .lc]
  | .governorTick .. | .selftestDue .. =>
    [.clusters, .power]
  | .loopAdjust .. =>
    [.out, .clusters, .recorder]
  | .reserveEngaged .. =>
    faultFields ++ [.mem, .seats, .lanes, .keys, .steward, .time, .entropy]
  | .sramCorrected .. =>
    faultFields ++ [.lanes, .keys]
  | .degradedVputTimeout .. =>
    hostFields ++ [.seats, .vault]
  | .dbgUnlock .. =>
    faultFields ++ [.freeCtr, .keys, .entropy, .lc]
  | .lcTransitionDone =>
    faultFields ++ [.mem, .seats, .lanes, .tenancy, .keys, .held, .openSerial, .tamper, .lc]
  | .granuleZeroingDone .. =>
    [.mem, .clusters, .tenancy, .keys, .journal, .gates, .steward]

end Sys2Proof.Machine
end

