-- ==== Sys2Proof/Certificates/Slice0/Obligations.lean ====
section
/-! DEFINITION. The statements about the machine, for the provers. Each is the meaning of its numbered rules, said of `exec` and `step`; a
clause that rests on a choice of the model says so and names its log entry. -/

open Sys2Proof Sys2Proof.Machine

/-- A step of the block: with a command at the front of its queue it runs that command on the state with the queue's rest; with nothing
queued one cycle of the milepost clock passes (the model's choice, log entry 3). -/
def Obligations.StepRunsFront : Prop :=
  (∀ (c : Instr) (s : State), step { s with pending := c :: s.pending } = exec c s) ∧
  (∀ s : State, s.pending = [] → step s = .next s.clockCycle)

/-- Every command that names units the HX7 has completes in every state; one that names a unit it does not have is no command of the part,
and the machine stops on it, by name (the model's choice, log entry 4). -/
def Obligations.CommandsOfThePart : Prop :=
  ∀ (c : Instr) (s : State), (c.wf = true → ∃ t, exec c s = .next t) ∧ (c.wf = false → exec c s = .fault .noSuchUnit)

/-- No command and no cycle of the clock reaches into the queue: after a step the queue is what it was without its front. -/
def Obligations.QueueUntouched : Prop :=
  ∀ (s t : State), step s = .next t → t.pending = s.pending.drop 1

/-- The state after reset (R539, R466, R413, R480, R385, Tables 7.7, 13.4, 15.1, 16.1): the part as delivered, with PORST_N asserted (that
it is at that point is the model's choice, log entry 1): nothing queued, no item, no seat, no key and no BBK, VENDOR_PROVISIONED, the backup
domain unpowered, the vault UNFORMATTED, both ports DOWN, the counter at 0 and INVALID, the pool's credit 0, no fault, and the lapse flag set. -/
def Obligations.ResetState : Prop :=
  let s := State.reset
  s.pending = [] ∧ Canonical s ∧ s.lc.code = 0x02 ∧ s.lc.shadow = ~~~s.lc.code ∧ s.lc.gen = 2 ∧ s.tamper.powered = false ∧ s.keys.bbk = .none ∧
  s.keys.caddy = [] ∧ s.keys.warm = [] ∧ s.depot.items = [] ∧ s.depot.warmFloor = 2 ∧ s.depot.sleepDelay = 200 ∧ s.held = [] ∧
  (∀ u : SeatRef, s.seat u = Seat.empty) ∧ (∀ c t, (s.te c t).serial = 1) ∧ (∀ l, (s.lane l).state = .closed) ∧
  s.tenancy.profile = .unformatted ∧ s.tenancy.parts = [] ∧ s.vault.state = .unformatted ∧ s.vault.timeoutUs = 100 ∧ s.journal.ring = [] ∧
  (∀ p, p < 2 → (s.port p).link = .down ∧ (s.port p).sessions = []) ∧ (∀ f, (s.func f).ringEnable = false ∧ (s.func f).mbxBusy = false) ∧
  s.time.secs = 0 ∧ s.time.nanos = 0 ∧ s.time.quality = .invalid ∧ s.entropy.credit = 0 ∧ s.entropy.serial = 0 ∧ s.faults.queue = [] ∧
  s.faults.seq = 0 ∧ s.faults.grave = false ∧ s.steward.epoch = 0 ∧ s.steward.epochShadow = ~~~s.steward.epoch ∧ s.steward.lapse = true ∧
  s.power.dev = .booting ∧ s.power.porst = true ∧ (∀ n, n ≤ 10 → (s.source n).cfg = SourceCfg.default n ∧ (s.source n).armed = true)

/-- Every step keeps the byte memory canonical: addresses strictly rising and no cell listed that reads as an unlisted one (the form of the
model's memory, log entry 7), so that equal memories are equal data, whatever command runs and from whatever state. -/
def Obligations.CanonicalKept : Prop :=
  ∀ (s t : State), Canonical s → step s = .next t → Canonical t

/-- The frame of every command: when `exec` answers a next state, every field of the state outside the ones `writes` lists for the command is
what it was, the queue among them, and the byte memory stays canonical. -/
def Obligations.FramesOfCommands : Prop :=
  ∀ (c : Instr) (s t : State), exec c s = .next t → Kept (writes c) s t

/-- Registers (02 Table 2.1): g0 reads zero and ignores writes; a write of another register is read back and leaves every other one;
g31 is banked per world, and a block register holds what was written to it. -/
def Obligations.RegisterFile : Prop :=
  ∀ (x : Seat) (i j : Fin 32) (v : Word) (a b : Fin 8) (w : Block),
    x.reg 0 = 0 ∧ (x.setReg i v).reg j = (if j = i ∧ i ≠ 0 then v else x.reg j) ∧
    (x.world = .vendor → (x.setReg i v).sp = x.sp) ∧ (x.world = .tenant → (x.setReg i v).vsp = x.vsp) ∧
    (x.setReg i v).b = x.b ∧ (x.setReg i v).k = x.k ∧
    (x.setBlk a w).blk b = (if b = a then w else x.blk b) ∧ (x.setBlk a w).g = x.g

/-- The integer instructions (R49, Table 2.5): each writes its result to rd, takes its cycles, and changes nothing else.

The immediate instructions and BSWAP (R49, R50, R46, Table 2.6): each writes its result to rd in one cycle and changes nothing
else; SHI's operation is selected by imm16[7:6], its amount by imm16[5:0], and imm16[15:8] must be zero. -/
def Obligations.IntegerInstructions : Prop :=
  (∀ (s : State) (u : SeatRef) (rd a b : Fin 32), Runs s u →
      let x := (s.seat u).plain
      let p := x.reg a
      let q := x.reg b
      let n := q.toNat % 64
      let gives := fun (v : Word) (cost : Nat) => Ran u s (x.setReg rd v) (x.pc + 4) cost
      Completes (.add u rd a b) s (gives (p + q) 1) ∧
      Completes (.sub u rd a b) s (gives (p - q) 1) ∧
      Completes (.and u rd a b) s (gives (p &&& q) 1) ∧
      Completes (.or u rd a b) s (gives (p ||| q) 1) ∧
      Completes (.xor u rd a b) s (gives (p ^^^ q) 1) ∧
      Completes (.sll u rd a b) s (gives (p <<< n) 1) ∧
      Completes (.srl u rd a b) s (gives (p >>> n) 1) ∧
      Completes (.sra u rd a b) s (gives (p.sshiftRight n) 1) ∧
      Completes (.rol u rd a b) s (gives ((p <<< n) ||| (p >>> (64 - n))) 1) ∧
      Completes (.slt u rd a b) s (gives (if p.toInt < q.toInt then 1 else 0) 1) ∧
      Completes (.sltu u rd a b) s (gives (if p.toNat < q.toNat then 1 else 0) 1) ∧
      Completes (.mul u rd a b) s (gives (p * q) 3) ∧
      Completes (.mulhu u rd a b) s (gives (BitVec.ofNat 64 (p.toNat * q.toNat / 2 ^ 64)) 4) ∧
      Completes (.cmovz u rd a b) s (Ran u s (if q = 0 then x.setReg rd p else x) (x.pc + 4) 1)) ∧
  (∀ (s : State) (u : SeatRef) (rd a : Fin 32) (imm : BitVec 16) (q : Fin 4), Runs s u →
      let x := (s.seat u).plain
      let p := x.reg a
      let n := imm.toNat % 64
      let gives := fun (v : Word) => Ran u s (x.setReg rd v) (x.pc + 4) 1
      Completes (.addi u rd a imm) s (gives (p + imm.signExtend 64)) ∧
      Completes (.andi u rd a imm) s (gives (p &&& imm.zeroExtend 64)) ∧
      Completes (.ori u rd a imm) s (gives (p ||| imm.zeroExtend 64)) ∧
      Completes (.xori u rd a imm) s (gives (p ^^^ imm.zeroExtend 64)) ∧
      Completes (.slti u rd a imm) s (gives (if p.toInt < (imm.signExtend 64).toInt then 1 else 0)) ∧
      (imm.toNat < 64 → Completes (.shi u rd a imm) s (gives (p <<< n))) ∧
      (64 ≤ imm.toNat → imm.toNat < 128 → Completes (.shi u rd a imm) s (gives (p >>> n))) ∧
      (128 ≤ imm.toNat → imm.toNat < 192 → Completes (.shi u rd a imm) s (gives (p.sshiftRight n))) ∧
      (192 ≤ imm.toNat → imm.toNat < 256 → Completes (.shi u rd a imm) s (gives ((p <<< n) ||| (p >>> (64 - n))))) ∧
      (256 ≤ imm.toNat → Completes (.shi u rd a imm) s fun t => t = s.raise u 0x01) ∧
      Completes (.insq u rd q imm) s (fun t => ∃ v : Word, gives v t ∧
        ∀ i : Fin 64, v.getLsbD i = if 16 * q.val ≤ i.val ∧ i.val < 16 * q.val + 16 then imm.getLsbD (i.val - 16 * q.val)
          else (x.reg rd).getLsbD i) ∧
      Completes (.bswap u rd a) s (fun t => ∃ v : Word, gives v t ∧
        ∀ i : Fin 64, v.getLsbD i = p.getLsbD (8 * (7 - i.val / 8) + i.val % 8)))

/-- SYS (R51, Table 2.7): what each index reads. A first half of the milepost keeps the sample its other half shows to the very next
instruction; index 0x0010 takes 8 bytes of the cluster's expander, and where they are not there waits for them at no cost, asking for a
seed if none is there; an index the table does not define is illegal. -/
def Obligations.SystemValues : Prop :=
  ∀ (s : State) (u : SeatRef) (rd : Fin 32), Runs s u →
    let x := s.seat u
    let gives := fun (y : Seat) (v : Word) => Ran u s (y.setReg rd v) (x.pc + 4) 1
    Completes (.sys u rd 0x0) s (gives x.plain x.desc.ticket) ∧
    Completes (.sys u rd 0x1) s (gives x.plain (x.desc.seq.zeroExtend 64)) ∧
    Completes (.sys u rd 0x2) s (gives x.plain (x.desc.colour.zeroExtend 64)) ∧
    Completes (.sys u rd 0x3) s (gives x.plain (BitVec.ofNat 64 x.desc.len)) ∧
    Completes (.sys u rd 0x4) s (gives x.plain (x.desc.id.zeroExtend 64)) ∧
    (x.sample = .none → Completes (.sys u rd 0x5) s
      (gives { x with sample := some (false, s.time.secs, s.time.nanos, s.time.frac) } (s.time.secs.zeroExtend 64))) ∧
    (x.sample = .none → Completes (.sys u rd 0x6) s
      (gives { x with sample := some (true, s.time.secs, s.time.nanos, s.time.frac) }
        ((s.time.nanos.zeroExtend 64 <<< 16) ||| s.time.frac.zeroExtend 64))) ∧
    (∀ a b c, x.sample = some (true, a, b, c) → Completes (.sys u rd 0x5) s (gives x.plain (a.zeroExtend 64))) ∧
    (∀ a b c, x.sample = some (false, a, b, c) → Completes (.sys u rd 0x6) s
      (gives x.plain ((b.zeroExtend 64 <<< 16) ||| c.zeroExtend 64))) ∧
    Completes (.sys u rd 0x7) s (gives x.plain (BitVec.ofNat 64 x.cycles)) ∧
    Completes (.sys u rd 0x8) s (gives x.plain ((srcTe u).zeroExtend 64)) ∧
    Completes (.sys u rd 0x9) s (gives x.plain (x.status.zeroExtend 64)) ∧
    (let e := s.expander u.cluster
     8 ≤ e.buffer.length → e.katFailed = false → s.expanderHeld u.cluster = false →
      Completes (.sys u rd 0x10) s
        (Ran u (s.setExpander u.cluster { e with buffer := e.buffer.drop 8 })
          (x.plain.setReg rd (BitVec.ofNat 64 (fieldBE e.buffer 0 8))) (x.pc + 4) 4)) ∧
    (let e := s.expander u.cluster
     e.buffer.length < 8 ∨ e.katFailed = true ∨ s.expanderHeld u.cluster = true →
      Completes (.sys u rd 0x10) s fun t => t.seat u = { x.plain with phase := .drbgWait rd } ∧
        (t.expander u.cluster).waiting = e.waiting ++ [.seat u] ∧ (t.expander u.cluster).buffer = e.buffer ∧
        ((e.seeded && !e.required) = false → Draw.expander u.cluster ∈ t.entropy.draws)) ∧
    (∀ i : BitVec 16, 9 < i.toNat → i ≠ 0x10 → Completes (.sys u rd i) s fun t => t = s.raise u 0x01)

/-- Branches and jumps (R52): the target is the branch's own address plus four times the sign-extended immediate; a taken branch
costs 2 cycles and 4 more into another line, one not taken 1.

CALL and RET (R53, R54): CALL pushes a CALL frame with the next instruction's pc, a seventeenth frame, of a CALL or a
GATE, raises CALL_DEPTH; RET pops a
CALL frame and goes where it says, and raises FRAME where there is no frame or the top one is a GATE frame. -/
def Obligations.ControlTransfers : Prop :=
  (∀ (s : State) (u : SeatRef) (a b : Fin 32) (imm : BitVec 16), Runs s u →
      let x := (s.seat u).plain
      let p := x.reg a
      let q := x.reg b
      let target := x.pc + imm.signExtend 32 * 4
      let far := if x.line x.pc = x.line target then 2 else 6
      let goes := fun (taken : Prop) [Decidable taken] => if taken then Ran u s x target far else Ran u s x (x.pc + 4) 1
      Completes (.beq u a b imm) s (goes (p = q)) ∧
      Completes (.bne u a b imm) s (goes (p ≠ q)) ∧
      Completes (.blt u a b imm) s (goes (p.toInt < q.toInt)) ∧
      Completes (.bge u a b imm) s (goes (q.toInt ≤ p.toInt)) ∧
      Completes (.bltu u a b imm) s (goes (p.toNat < q.toNat)) ∧
      Completes (.bgeu u a b imm) s (goes (q.toNat ≤ p.toNat)) ∧
      Completes (.jmp u imm) s (Ran u s x target far)) ∧
  (∀ (s : State) (u : SeatRef) (imm : BitVec 16) (w : BitVec 11), Runs s u →
      let x := (s.seat u).plain
      let target := x.pc + imm.signExtend 32 * 4
      (x.stack.length < 16 → Completes (.call u imm) s
        (Ran u s { x with stack := { isGate := false, world := x.world, waymark := x.waymark, retPc := x.pc + 4 } :: x.stack } target
          (2 + lineCost (x.line x.pc) (x.line target)))) ∧
      (16 ≤ x.stack.length → Completes (.call u imm) s fun t => t = s.raise u 0x07) ∧
      (waymarkAllowed (s.policyOf x) w.toNat = true → 16 ≤ x.stack.length → Completes (.gate u w) s fun t => t = s.raise u 0x07) ∧
      (∀ f r, x.stack = f :: r → f.isGate = false → Completes (.ret u) s
        (Ran u s { x with stack := r } f.retPc (2 + lineCost (x.line x.pc) (x.line f.retPc)))) ∧
      ((∀ f r, x.stack = f :: r → f.isGate = true) → Completes (.ret u) s fun t => t = s.raise u 0x08))

/-- Loads (R55, Table 2.8): an operand that is located loads its bytes, most significant first, zero-extended into a g register or
whole into a block register, and changes no byte of memory; one that raises an exception ends the itinerary with it.

Stores (R55, Table 2.8): an operand that is located takes the low bytes of the register, most significant first; every byte of
memory outside them reads as before, and no register changes. -/
def Obligations.MemoryInstructions : Prop :=
  (∀ (s s1 : State) (u : SeatRef) (rt rb : Fin 32) (bt : Fin 8) (sp : BitVec 2) (off : BitVec 14) (key cost : Nat) (code : Byte), Runs s u →
      let x := (s.seat u).plain
      let a := x.reg rb + off.signExtend 64
      let found := fun (n : Nat) => s.operand u x sp a n false = (s1, .located key cost)
      let gives := fun (n : Nat) => Ran u s1 (x.setReg rt (BitVec.ofNat 64 (beNat (s1.loadOperand x sp a key n)))) (x.pc + 4) cost
      (found 1 → Completes (.ld8 u rt rb sp off) s (gives 1)) ∧
      (found 2 → Completes (.ld16 u rt rb sp off) s (gives 2)) ∧
      (found 4 → Completes (.ld32 u rt rb sp off) s (gives 4)) ∧
      (found 8 → Completes (.ld64 u rt rb sp off) s (gives 8)) ∧
      (found 16 → Completes (.ldb u bt rb sp off) s (Ran u s1 (x.setBlk bt (toBlock (s1.loadOperand x sp a key 16))) (x.pc + 4) cost)) ∧
      (let fails := fun (n : Nat) (c : Instr) => s.operand u x sp a n false = (s1, .raises code) → Completes c s fun t => t = s1.raise u code
       fails 1 (.ld8 u rt rb sp off) ∧ fails 2 (.ld16 u rt rb sp off) ∧ fails 4 (.ld32 u rt rb sp off) ∧ fails 8 (.ld64 u rt rb sp off) ∧
        fails 16 (.ldb u bt rb sp off)) ∧
      (a.toNat % 2 ≠ 0 → Completes (.ld16 u rt rb sp off) s fun t => t = s.raise u 0x03) ∧
      (a.toNat % 4 ≠ 0 → Completes (.ld32 u rt rb sp off) s fun t => t = s.raise u 0x03) ∧
      (a.toNat % 8 ≠ 0 → Completes (.ld64 u rt rb sp off) s fun t => t = s.raise u 0x03) ∧
      (a.toNat % 16 ≠ 0 → Completes (.ldb u bt rb sp off) s fun t => t = s.raise u 0x03)) ∧
  (∀ (s s1 : State) (u : SeatRef) (rt rb : Fin 32) (bt : Fin 8) (sp : BitVec 2) (off : BitVec 14) (key cost : Nat) (code : Byte), Runs s u →
      let x := (s.seat u).plain
      let a := x.reg rb + off.signExtend 64
      let found := fun (n : Nat) => s.operand u x sp a n true = (s1, .located key cost)
      let takes := fun (b : Bytes) (t : State) => Ran u (s1.store key b) x (x.pc + 4) cost t ∧
        (s1.mem.wf → ∀ i, t.mem.read i = if key ≤ i ∧ i < key + b.length then b.getD (i - key) 0 else s1.mem.read i)
      (found 1 → Completes (.st8 u rt rb sp off) s (takes (natBE 1 (x.reg rt).toNat))) ∧
      (found 2 → Completes (.st16 u rt rb sp off) s (takes (natBE 2 (x.reg rt).toNat))) ∧
      (found 4 → Completes (.st32 u rt rb sp off) s (takes (natBE 4 (x.reg rt).toNat))) ∧
      (found 8 → Completes (.st64 u rt rb sp off) s (takes (natBE 8 (x.reg rt).toNat))) ∧
      (found 16 → Completes (.stb u bt rb sp off) s (takes (blockBytes (x.blk bt)))) ∧
      (let fails := fun (n : Nat) (c : Instr) => s.operand u x sp a n true = (s1, .raises code) → Completes c s fun t => t = s1.raise u code
       fails 1 (.st8 u rt rb sp off) ∧ fails 2 (.st16 u rt rb sp off) ∧ fails 4 (.st32 u rt rb sp off) ∧ fails 8 (.st64 u rt rb sp off) ∧
        fails 16 (.stb u bt rb sp off)) ∧
      (a.toNat % 2 ≠ 0 → Completes (.st16 u rt rb sp off) s fun t => t = s.raise u 0x03) ∧
      (a.toNat % 4 ≠ 0 → Completes (.st32 u rt rb sp off) s fun t => t = s.raise u 0x03) ∧
      (a.toNat % 8 ≠ 0 → Completes (.st64 u rt rb sp off) s fun t => t = s.raise u 0x03) ∧
      (a.toNat % 16 ≠ 0 → Completes (.stb u bt rb sp off) s fun t => t = s.raise u 0x03))

/-- Opening and feeding cipher contexts (R56-R58, R130-R136, R139-R143): where the key slot passes the check of R56 and the mode takes the
step, C.INIT opens the context, C.ENC and C.DEC put their block and step the context, C.AAD and C.MAC absorb a block, C.FIN puts the tag
and closes the context (of GMAC and CMAC in the tenant world only under MAC_GEN), C.SAVE and C.REST move the 64 bytes of Table 4.4 to and from the scratch, C.FF1E and C.FF1D replace the digits of
a valid descriptor, and C.RAW puts one block operation. Each leaves everything else.

The data step of each mode under an AES key (R133, R134, Table 4.2): the output block and the chaining value after it, for whole
blocks: ECB, CBC, CTR, CFB, OFB, GCM and XTS; and CBC under a TDES key, on eight bytes. -/
def Obligations.CipherInstructions : Prop :=
  (∀ (s : State) (u : SeatRef) (bx by_ k : Fin 8) (g : Fin 32) (m : BitVec 6) (q : Slot) (c : CipherCtx) (a : Nat), Runs s u →
      let x := (s.seat u).plain
      let n := m.toNat
      let w := c.width m
      let onward := fun (s1 : State) (y : Seat) (cost : Nat) => Ran u s1 y (x.pc + 4) cost
      (n ≤ 9 → ¬(n = 8 ∧ k.val % 2 = 1) →
        s.useKey x k (some eTeCipher) (if n = 6 ∨ n = 7 then [uMacGen, uMacVerify] else []) = .ok q → s.tdesForbidden x q = false →
        modeAccepts n q.key = true → s.openCipher x n k q (x.blk by_) = .ok c →
        Completes (.cInit u by_ k m) s (onward s { x with cctx := some c } (4 + if n = 7 ∨ n = 8 then q.key.rounds else 0))) ∧
      (x.cctx = some c → c.mode.toNat ∈ [0, 1, 2, 3, 4, 5, 8] → c.takes m = true →
        s.useKey x c.slot (some eTeCipher) (x.dataBits false) = .ok q →
        Completes (.cEnc u bx by_ m) s (onward s
          { x.setBlk bx (c.data q.key.material false w (m != 0) (keepHigh w (x.blk by_))).1 with
            cctx := some (c.data q.key.material false w (m != 0) (keepHigh w (x.blk by_))).2 } (q.key.rounds + 1))) ∧
      (x.cctx = some c → c.mode.toNat ∈ [0, 1, 2, 3, 4, 5, 8] → c.takes m = true →
        s.useKey x c.slot (some eTeCipher) (x.dataBits true) = .ok q →
        Completes (.cDec u bx by_ m) s (onward s
          { x.setBlk bx (c.data q.key.material true w (m != 0) (keepHigh w (x.blk by_))).1 with
            cctx := some (c.data q.key.material true w (m != 0) (keepHigh w (x.blk by_))).2 } (q.key.rounds + 1))) ∧
      (x.cctx = some c → (c.mode = 5 ∨ c.mode = 6) → c.aadClosed = false → w ≤ 16 →
        s.useKey x c.slot (some eTeCipher) (if c.mode = 6 then [uMacGen, uMacVerify] else []) = .ok q →
        Completes (.cAad u by_ m) s (onward s
          { x with cctx := some { c with aux := ghashStep (aesEnc q.key.material 0) c.aux (keepHigh w (x.blk by_)),
                                         ctrA := c.ctrA + BitVec.ofNat 64 w, aadClosed := m != 0 } } 4)) ∧
      (x.cctx = some c → c.mode = 7 → c.heldPartial = false → w ≤ blockLen c.tdes →
        s.useKey x c.slot (some eTeCipher) x.macBits = .ok q →
        Completes (.cMac u by_ m) s (onward s
          { x with cctx := some (c.mac q.key.material w (m != 0) (keepHigh w (x.blk by_))) } (q.key.rounds + 1))) ∧
      (x.cctx = some c → c.mode = 7 → s.useKey x c.slot (some eTeCipher) [uMacGen, uMacVerify] = .ok q →
        (x.world = .vendor ∨ q.key.may uMacGen = true) →
        Completes (.cFin u bx) s (onward s
          { x.setBlk bx (cmacLast c.tdes q.key.material c.chain c.aux c.held) with cctx := .none } (q.key.rounds + 2))) ∧
      (x.cctx = some c → (c.mode = 5 ∨ c.mode = 6) → ¬(c.ctrA = 0 ∧ c.ctrB = 0) →
        s.useKey x c.slot (some eTeCipher) (if c.mode = 5 then [] else [uMacGen, uMacVerify]) = .ok q →
        (c.mode = 5 ∨ x.world = .vendor ∨ q.key.may uMacGen = true) →
        Completes (.cFin u bx) s (onward s { x.setBlk bx (c.tag q.key.material) with cctx := .none } 8)) ∧
      (x.cctx = some c → c.mode.toNat < 10 → s.useKey x c.slot .none [] = .ok q → x.scratchAt u (x.reg g) 64 16 = .ok a →
        Completes (.cSave u g) s (onward (s.store a c.bytes) x 8)) ∧
      (x.scratchAt u (x.reg g) 64 16 = .ok a → CipherCtx.ofBytes (s.load a 64) = some c → c.unusedZero = true →
        s.useKey x c.slot .none [] = .ok q → q.serial = c.serial → ktypeCode q.key.attrs.ktype = c.ktype →
        Completes (.cRest u g) s (onward s { x with cctx := some c.trimmed } 8)) ∧
      (let b := (x.reg g).toNat
       let d := s.load (scratchBase u + b) 0xA8
       b % 16 = 0 → b + 0xA8 ≤ x.scratchLimit → x.cctx = some c → c.mode = 9 → ff1Valid d = true →
        s.useKey x c.slot (some eTeCipher) [uTokenise] = .ok q →
        let cost := 10 * q.key.rounds * (ff1P (ff1Fields d).1 (ff1Fields d).2.1 (ff1Fields d).2.2 + 1) + 40
        let made := s.tokenMade u x (ff1Digits q.key.material d false)
        Completes (.cFf1e u g) s (onward (made.1.store (scratchBase u + b + 0x28) (ff1Digits q.key.material d false)) made.2 cost) ∧
        Completes (.cFf1d u g) s (onward (s.store (scratchBase u + b + 0x28) (ff1Digits q.key.material d true)) x cost)) ∧
      (s.useKey x k (some eTeCipher) (x.dataBits false) = .ok q → (typeTdes q.key.attrs.ktype || typeAes q.key.attrs.ktype) = true →
        let td := typeTdes q.key.attrs.ktype
        Completes (.cRaw u bx by_ k 0) s
          (onward s (x.setBlk bx (cipherEnc td q.key.material (startValue td (x.blk by_)))) (q.key.rounds + 1))) ∧
      (s.useKey x k (some eTeCipher) (x.dataBits true) = .ok q → (typeTdes q.key.attrs.ktype || typeAes q.key.attrs.ktype) = true →
        let td := typeTdes q.key.attrs.ktype
        Completes (.cRaw u bx by_ k 1) s
          (onward s (x.setBlk bx (cipherDec td q.key.material (startValue td (x.blk by_)))) (q.key.rounds + 1))) ∧
      (2 ≤ n → Completes (.cRaw u bx by_ k m) s fun t => t = s.raise u 0x01)) ∧
  (∀ (c : CipherCtx) (key : Bytes) (x : Block),
      (c.tdes = true → c.mode = 1 →
        let e := fun (v : Block) => cipherEnc true key v
        (c.data key false 8 false x).1 = e (x ^^^ c.chain) ∧ (c.data key false 8 false x).2.chain = e (x ^^^ c.chain) ∧
        (c.data key true 8 false x).1 = keepHigh 8 (cipherDec true key x ^^^ c.chain) ∧ (c.data key true 8 false x).2.chain = x) ∧
      (c.tdes = false → keepHigh 16 x = x →
      let e := fun (v : Block) => aesEnc key v
      let d := fun (v : Block) => aesDec key v
      (c.mode = 0 → (c.data key false 16 false x).1 = e x ∧ (c.data key true 16 false x).1 = d x) ∧
      (c.mode = 1 → (c.data key false 16 false x).1 = e (x ^^^ c.chain) ∧ (c.data key false 16 false x).2.chain = e (x ^^^ c.chain) ∧
        (c.data key true 16 false x).1 = d x ^^^ c.chain ∧ (c.data key true 16 false x).2.chain = x) ∧
      (c.mode = 2 → ∀ dec, (c.data key dec 16 false x).1 = keepHigh 16 (x ^^^ e c.chain) ∧ (c.data key dec 16 false x).2.chain = c.chain + 1) ∧
      (c.mode = 3 → (c.data key false 16 false x).1 = keepHigh 16 (x ^^^ e c.chain) ∧
        (c.data key false 16 false x).2.chain = keepHigh 16 (x ^^^ e c.chain) ∧ (c.data key true 16 false x).2.chain = x) ∧
      (c.mode = 4 → ∀ dec, (c.data key dec 16 false x).1 = keepHigh 16 (x ^^^ e c.chain) ∧ (c.data key dec 16 false x).2.chain = e c.chain) ∧
      (c.mode = 5 → ∀ dec, (c.data key dec 16 false x).1 = keepHigh 16 (x ^^^ e (inc32 c.chain)) ∧
        (c.data key dec 16 false x).2.chain = inc32 c.chain ∧ (c.data key dec 16 false x).2.ctrB = c.ctrB + 16) ∧
      (c.mode = 8 → (c.data key false 16 false x).1 = e (x ^^^ c.chain) ^^^ c.chain ∧
        (c.data key true 16 false x).1 = d (x ^^^ c.chain) ^^^ c.chain ∧
        ∀ dec, (c.data key dec 16 false x).2.chain = xtsAlpha c.chain ∧ (c.data key dec 16 false x).2.ctrA = c.ctrA + 1)))

/-- The digest instructions (R59-R61, R152-R156): D.INIT opens a context for the declared length and clears TRUNC; D.ABS and D.LAST absorb
up to it, setting TRUNC where bytes are discarded; D.LAST finishes the digest; D.OUT puts one of its blocks; D.CMP compares once; D.SAVE
and D.REST move the 256 bytes of Table 4.5. An HMAC context takes its key when it opens and when it finishes, releases no digest of a
key that may only verify, and is saved in the vendor world alone.

Block products, comparisons and key attributes (R62, R63, R193): GFM multiplies in GF(2^128), CMPCT compares the leading bytes, K.CLR
empties a slot and closes the contexts that recorded it, K.ATTR reads the attribute word of Table 6.6. -/
def Obligations.DigestInstructions : Prop :=
  (∀ (s : State) (u : SeatRef) (bx : Fin 8) (g : Fin 32) (k : Fin 8) (m : BitVec 6) (c : DigestCtx) (d : Bytes) (tr : Bool)
      (a : Nat) (q : Slot), Runs s u →
      let x := (s.seat u).plain
      let onward := fun (s1 : State) (y : Seat) (cost : Nat) => Ran u s1 y (x.pc + 4) cost
      (1 ≤ m.toNat → m.toNat ≤ 7 → (x.reg g).toNat < 2 ^ 61 →
        Completes (.dInit u 0 g m) s (onward s
          { x with dctx := some (DigestCtx.opened m.toNat (x.reg g) (x.world == .vendor)), trunc := false } 4)) ∧
      (let n := m.toNat - 32
       33 ≤ m.toNat → m.toNat ≤ 39 → (x.reg g).toNat < 2 ^ 61 → s.hmacKey x k = .ok q →
        let o := DigestCtx.opened n (x.reg g) (x.world == .vendor)
        Completes (.dInit u k g m) s (onward s
          { x with dctx := some { o with hmac := true, slot := k, serial := q.serial, st := (digestFeed n o.st 0 (hmacPad n q.key.material 0x36)).1 },
                   trunc := false } (4 + algCost n))) ∧
      (x.dctx = some c → c.digest = .none →
        let r := c.absorb (blockBytes (x.blk bx))
        Completes (.dAbs u bx) s (onward s { x with dctx := some r.1, trunc := x.trunc || r.2.2 } (1 + r.2.1 * algCost c.alg.toNat))) ∧
      (x.dctx = some c → c.digest = .none → c.hmac = false → 1 ≤ m.toNat → m.toNat ≤ 8 →
        let r := c.absorb ((natBE 8 (x.reg g).toNat).take m.toNat)
        r.1.count = r.1.len →
        let f := digestFinish r.1.alg.toNat r.1.st r.1.count.toNat
        Completes (.dLast u g m) s (onward s
          { x with dctx := some { r.1 with digest := some f.1 }, trunc := x.trunc || r.2.2 } (1 + (r.2.1 + f.2) * algCost r.1.alg.toNat))) ∧
      (x.dctx = some c → c.digest = .none → c.hmac = true → 1 ≤ m.toNat → m.toNat ≤ 8 → s.hmacKey x c.slot = .ok q →
        let r := c.absorb ((natBE 8 (x.reg g).toNat).take m.toNat)
        r.1.count = r.1.len →
        let n := r.1.alg.toNat
        let f := digestFinish n r.1.st (r.1.count.toNat + algBlock n)
        Completes (.dLast u g m) s (onward s
          { x with dctx := some { r.1 with digest := some (hash n (hmacPad n q.key.material 0x5C ++ f.1)) }, trunc := x.trunc || r.2.2 }
          (1 + (r.2.1 + f.2 + 2) * algCost n))) ∧
      (x.dctx = some c → c.digest = some d → c.compared = false → c.hmac = true → x.slot c.slot = some q → m.toNat ≤ 3 → 16 * m.toNat < d.length →
        Completes (.dOut u bx m) s fun t => if q.key.may uMacVerify = true ∧ q.key.may uMacGen = false then t = s.raise u 0x0A
          else onward s (x.setBlk bx (toBlock (slice d (16 * m.toNat) 16))) 2 t) ∧
      (x.dctx = some c → c.digest = some d → c.compared = false → c.hmac = false → m.toNat ≤ 3 → 16 * m.toNat < d.length →
        Completes (.dOut u bx m) s (onward s (x.setBlk bx (toBlock (slice d (16 * m.toNat) 16))) 2)) ∧
      (x.dctx = some c → c.digest = some d → c.compared = false → x.scratchAt u (x.reg g) d.length 1 = .ok a →
        Completes (.dCmp u g 0) s (onward s
          { x.setReg g (if s.load a d.length = d then 0 else 1) with dctx := some { c with compared := true } } 6)) ∧
      (x.dctx = some c → c.digest = some d → c.compared = false → 8 ≤ m.toNat → m.toNat ≤ d.length → x.scratchAt u (x.reg g) m.toNat 1 = .ok a →
        Completes (.dCmp u g m) s (onward s
          { x.setReg g (if s.load a m.toNat = d.take m.toNat then 0 else 1) with dctx := some { c with compared := true } } 6)) ∧
      (x.dctx = some c → c.digest = some d → c.compared = false → m ≠ 0 → (m.toNat < 8 ∨ d.length < m.toNat) →
        Completes (.dCmp u g m) s fun t => t = s.raise u 0x0D) ∧
      (x.dctx = some c → c.digest = .none → x.scratchAt u (x.reg g) 256 16 = .ok a →
        (c.hmac = false ∨ x.world = .vendor ∧ s.useKey x c.slot .none [] = .ok q) →
        Completes (.dSave u g) s (onward (s.store a (c.bytes x.trunc)) x 32)) ∧
      (x.dctx = some c → c.digest = .none → c.hmac = true → x.world = .tenant → Completes (.dSave u g) s fun t => t = s.raise u 0x0A) ∧
      (x.scratchAt u (x.reg g) 256 16 = .ok a → DigestCtx.ofBytes (s.load a 256) (x.world == .vendor) = some (c, tr) →
        (c.hmac = false ∨ s.useKey x c.slot .none [] = .ok q ∧ q.serial = c.serial) →
        Completes (.dRest u g) s (onward s { x with dctx := some c, trunc := tr } 32)) ∧
      (x.dctx = some c → c.digest = .none → m.toNat ≤ 3 → Completes (.dOut u bx m) s fun t => t = s.raise u 0x0D) ∧
      (x.dctx = some c → c.digest = some d → c.compared = true → m.toNat ≤ 3 → Completes (.dOut u bx m) s fun t => t = s.raise u 0x0D) ∧
      (x.dctx = some c → c.digest = some d → c.compared = true → Completes (.dCmp u g m) s (fun t => t = s.raise u 0x0D) ∧
        Completes (.dSave u g) s fun t => t = s.raise u 0x0D)) ∧
  (∀ (s : State) (u : SeatRef) (bx by_ k : Fin 8) (g : Fin 32) (m : BitVec 6) (q : Slot), Runs s u →
      let x := (s.seat u).plain
      Completes (.gfm u bx by_) s (Ran u s (x.setBlk bx (gfMul (x.blk bx) (x.blk by_))) (x.pc + 4) 4) ∧
      (m.toNat ≤ 16 →
        let n := if m = 0 then 16 else m.toNat
        Completes (.cmpct u bx by_ g m) s
          (Ran u s (x.setReg g (if keepHigh n (x.blk bx) = keepHigh n (x.blk by_) then 0 else 1)) (x.pc + 4) 2)) ∧
      (16 < m.toNat → Completes (.cmpct u bx by_ g m) s fun t => t = s.raise u 0x01) ∧
      Completes (.kClr u k) s (fun t => Ran u s (x.emptySlot k) (x.pc + 4) 1 t ∧ (t.seat u).slot k = .none ∧
        (∀ j, j ≠ k → (t.seat u).slot j = x.slot j) ∧ (∀ c, (t.seat u).cctx = some c → c.slot ≠ k)) ∧
      (s.useKey x k .none [] = .ok q → Completes (.kAttr u k g) s (Ran u s (x.setReg g (q.key.attrs.word q.libOnly)) (x.pc + 4) 1)) ∧
      (x.slot k = .none → Completes (.kAttr u k g) s fun t => t = s.raise u 0x09))

/-- Fill serials (R127): every TE's serial starts at 1 at power-up and a fill of a slot raises it by 1, the slot recording the serial it
had; a context opened on a slot records the slot's; emptying or filling a slot closes the contexts that recorded its serial, and a step on a
closed context raises CONTEXT. -/
def Obligations.FillSerials : Prop :=
  ∀ (s : State) (u : SeatRef) (k : Fin 8) (key : Key) (lib : Bool) (q : Slot) (v : Block) (n : Nat) (c : CipherCtx) (g : Fin 32) (m : BitVec 6)
    (e : CaddyEntry) (bx by_ : Fin 8),
    (∀ i j, (State.reset.te i j).serial = 1) ∧
    (s.power.porst = false → Completes .porstNAssert s fun t => ∀ i j, (t.te i j).serial = 1) ∧
    (u.ok = true → let r := s.fillSlot u (s.seat u) k key lib
      (r.1.te u.cluster u.te).serial = (s.te u.cluster u.te).serial + 1 ∧ (∃ z, r.2.slot k = some z ∧ z.serial = (s.te u.cluster u.te).serial) ∧
      (∀ j, j ≠ k → r.2.slot j = (s.seat u).slot j) ∧ (∀ c, r.2.cctx = some c → c.slot ≠ k) ∧
      (∀ d, r.2.dctx = some d → d.hmac = true → d.slot ≠ k)) ∧
    (s.openCipher (s.seat u) n k q v = .ok c → c.serial = q.serial ∧ c.slot = k) ∧
    (Runs s u → let x := (s.seat u).plain
      (s.caddyFind x.desc.colour (x.reg g) = some e → Completes (.kLoad u k g) s fun t =>
        (t.te u.cluster u.te).serial = (s.te u.cluster u.te).serial + 1 ∧ (∃ z, (t.seat u).slot k = some z ∧ z.serial = (s.te u.cluster u.te).serial) ∧
        (∀ c, (t.seat u).cctx = some c → c.slot ≠ k) ∧ (∀ d, (t.seat u).dctx = some d → d.hmac = true → d.slot ≠ k)) ∧
      Completes (.kClr u k) s (fun t => (t.te u.cluster u.te).serial = (s.te u.cluster u.te).serial ∧ (t.seat u).slot k = .none ∧
        (∀ c, (t.seat u).cctx = some c → c.slot ≠ k) ∧ (∀ d, (t.seat u).dctx = some d → d.hmac = true → d.slot ≠ k)) ∧
      (x.cctx = .none → Completes (.cEnc u bx by_ m) s (fun t => t = s.raise u 0x0D) ∧ Completes (.cDec u bx by_ m) s (fun t => t = s.raise u 0x0D) ∧
        Completes (.cAad u by_ m) s (fun t => t = s.raise u 0x0D) ∧ Completes (.cMac u by_ m) s (fun t => t = s.raise u 0x0D) ∧
        Completes (.cFin u bx) s (fun t => t = s.raise u 0x0D) ∧ Completes (.cSave u g) s (fun t => t = s.raise u 0x0D)) ∧
      (x.dctx = .none → Completes (.dAbs u by_) s (fun t => t = s.raise u 0x0D) ∧ Completes (.dSave u g) s fun t => t = s.raise u 0x0D))

/-- Library-only slots (R192): a key whose tin has LIBRARY_ONLY set lies in a slot tagged library-only whatever world loads it, from the
caddy or from the warm store after a miss; in the tenant world the check of R56 refuses such a slot with KEY_ATTR. -/
def Obligations.LibraryOnlySlots : Prop :=
  ∀ (s : State) (u : SeatRef) (k : Fin 8) (g : Fin 32) (e : CaddyEntry) (h : Word) (z : Slot) (eng : Option Nat) (us : List Nat),
    (Runs s u → s.caddyFind (s.seat u).desc.colour ((s.seat u).reg g) = some e → e.key.attrs.libOnly = true → Completes (.kLoad u k g) s fun t =>
      ∃ z, (t.seat u).slot k = some z ∧ z.key = e.key ∧ z.libOnly = true) ∧
    (u.ok = true → (s.seat u).phase = .caddyWait k h → Completes (.caddyMissFill u) s fun t =>
      match s.drawn.fetchMiss (s.seat u).desc.colour h with
      | (_, some key) => ∃ z, (t.seat u).slot k = some z ∧ z.key = key ∧ (key.attrs.libOnly = true → z.libOnly = true)
      | (_, .none) => ∀ z, (t.seat u).slot k = some z → False) ∧
    ((s.seat u).world = .tenant → (s.seat u).slot k = some z → z.libOnly = true → z.key.attrs.within s.time = true →
      s.useKey (s.seat u) k eng us = .error 0x0A ∧
      (Runs s u → Completes (.kAttr u k g) s fun t => t = s.raise u 0x0A))

/-- Filling slots (R63, R64, R127, R185, R192, R195, R197, R200, R210): K.LOAD of a key in the caddy, K.DRV, K.UNWR and the caddy miss
fill a slot with the TE's next fill serial; K.WRAP writes its form to the scratch, and where the checks of either fail
the exception they name is raised; K.STORE, vendor only and between the milestones of its
intent, answers a status in a register.

A caddy miss completed (R200): the seat that waits takes the key the fetch answers, or its itinerary ends with KEY_MISSING. -/
def Obligations.KeyInstructions : Prop :=
  (∀ (s : State) (u : SeatRef) (k w : Fin 8) (by_ : Fin 8) (g : Fin 32) (m : BitVec 6) (e : CaddyEntry) (p : Slot), Runs s u →
      let x := (s.seat u).plain
      let filled := fun (key : Key) (lib : Bool) (t : State) => ∃ z, (t.seat u).slot k = some z ∧ z.key = key ∧
        z.vendorLoaded = (x.world == .vendor) ∧ z.libOnly = (lib || key.attrs.libOnly) ∧ z.returned = false ∧
        (∀ j, j ≠ k → (t.seat u).slot j = x.slot j) ∧ (t.seat u).pc = x.pc + 4 ∧ t.mem = s.mem
      (s.caddyFind x.desc.colour (x.reg g) = some e → Completes (.kLoad u k g) s (filled e.key e.key.attrs.libOnly)) ∧
      (s.caddyFind x.desc.colour (x.reg g) = .none →
        Completes (.kLoad u k g) s fun t => t = s.setSeat u { x with phase := .caddyWait k (x.reg g) }) ∧
      (let n := m.toNat
       1 ≤ n → n ≤ 5 → s.useKey x w (some eTeCipher) [uDerive] = .ok p → s.tdesForbidden x p = false →
        (if n = 2 ∨ n = 3 then typeTdes p.key.attrs.ktype else typeAes p.key.attrs.ktype) = true →
        let a := drvAttrs n p.key.attrs p.libOnly
        a.usage ≠ 0 →
        Completes (.kDrv u k by_ w m) s (filled { attrs := a, material := drvMaterial n p.key.material (x.blk by_) } a.libOnly)) ∧
      (let ends := fun (r : Except Byte (State × Seat × Nat)) (t : State) => match r with
         | .ok (s1, y, cost) => Ran u s1 y (y.pc + 4) cost t
         | .error code => t = s.raise u code
       Completes (.kWrap u k w g 0) s (ends (wrapTin s u x k w g)) ∧ Completes (.kWrap u k w g 1) s (ends (wrapBlock s u x k w g)) ∧
        Completes (.kUnwr u k w g 0) s (ends (unwrapTin s u x k w g)) ∧ Completes (.kUnwr u k w g 1) s (ends (unwrapBlock s u x k w g))) ∧
      (x.world = .vendor → x.intends 2 (x.reg g) = true → s.useKey x w .none [] = .ok p →
        Completes (.kStore u w g) s fun t => (t.seat u).reg g = (if g = 0 then 0 else (s.drawn.keyStore x.desc.colour (x.reg g) p).1) ∧
          t.keys = (s.drawn.keyStore x.desc.colour (x.reg g) p).2.keys ∧ t.mem = s.mem ∧ ∀ j, (t.seat u).slot j = x.slot j) ∧
      (let h := x.reg g
       handleOk x.desc.colour h = true → systemHandle h = false →
        (s.keys.suspended = true → s.keyStore x.desc.colour h p = (3, s)) ∧
        (s.keys.suspended = false → (s.tinKeys 0 x.desc.colour).isSome = true → (s.record x.desc.colour h).isSome = true →
          s.keyStore x.desc.colour h p = (1, s)) ∧
        (s.keys.suspended = false → (s.tinKeys 0 x.desc.colour).isSome = true → s.record x.desc.colour h = .none →
          s.keyRoom x.desc.colour h (recordSize p.key.attrs.ktype p.key.material.length) = false → s.keyStore x.desc.colour h p = (2, s))) ∧
      (x.world = .tenant → Completes (.kStore u w g) s fun t => t = s.raise u 0x06)) ∧
  (∀ (s : State) (u : SeatRef) (k : Fin 8) (h : Word), u.ok = true → (s.seat u).phase = .caddyWait k h →
      let x := { s.seat u with phase := .running }
      Completes (.caddyMissFill u) s fun t => match s.drawn.fetchMiss x.desc.colour h with
        | (_, some key) => ∃ z, (t.seat u).slot k = some z ∧ z.key = key
        | (s1, .none) => t = (s1.setSeat u (x.charge (s.waitCost u.cluster 600))).raise u 0x0C)

/-- Entering and leaving the vendor world (R64, R66, R67): GATE to a waymark of the library pushes a GATE frame with the return pc, the
world and the waymark, and enters the vendor world at the waymark's entry, unless the colour's policy does not allow it; GRET pops it. A
return to the tenant world clears b4-b7, g5-g15 and the vendor quarter of the scratch, gives back the g1-g4 and b0-b3 the tenant passed but
for the waymark's results, and empties the slots the vendor world filled unless they are marked returned, closing their contexts.

YIELD (R77, R79): with nothing that asks for the TE the seat goes on and its count starts again; with the other seat ready and of higher
priority, or the cluster in quiesce and no intent open, the TE leaves the seat, whose state goes to its save area; an item of higher priority
that the Depot offers takes an empty other seat; a squashed item without an open intent ends there without a response; a FROZEN lane
suspends its itinerary into the Depot. -/
def Obligations.GateAndReturn : Prop :=
  (∀ (s : State) (u : SeatRef) (w : BitVec 11) (marks : List (Fin 8 × Bool)) (f : Frame) (r : List Frame), Runs s u →
      let x := (s.seat u).plain
      (waymarkAllowed (s.policyOf x) w.toNat = true → x.stack.length < 16 →
        Completes (.gate u w) s (fun t => (t.seat u).world = .vendor ∧ (t.seat u).waymark = w ∧ (t.seat u).pc = Config.waymarkEntry w ∧
          (t.seat u).stack = { isGate := true, world := x.world, waymark := x.waymark, retPc := x.pc + 4 } :: x.stack ∧
          (t.seat u).k = x.k ∧ (t.seat u).b = x.b ∧ (t.seat u).g = x.g ∧ (x.world = .tenant → (t.seat u).passed = some x.passing))) ∧
      (waymarkAllowed (s.policyOf x) w.toNat = false → Completes (.gate u w) s fun t => t = s) ∧
      (x.world = .vendor → x.stack = f :: r → f.isGate = true → f.world = .tenant →
        Completes (.gret u marks) s (fun t => (t.seat u).world = .tenant ∧ (t.seat u).waymark = f.waymark ∧ (t.seat u).pc = f.retPc ∧
          (t.seat u).stack = r ∧
          (∀ i : Fin 8, 4 ≤ i.val → (t.seat u).blk i = 0) ∧
          (∀ i : Fin 32, 5 ≤ i.val → i.val ≤ 15 → (t.seat u).reg i = 0) ∧
          (∀ p, x.passed = some p → p.1.length = 4 → ∀ i : Fin 32, 1 ≤ i.val → i.val ≤ 4 →
            (waymarkResults x.waymark.toNat).1.contains i.val = false → (t.seat u).reg i = p.1.getD (i.val - 1) 0) ∧
          (∀ p, x.passed = some p → p.2.length = 4 → ∀ i : Fin 8, i.val < 4 →
            (waymarkResults x.waymark.toNat).2.contains i.val = false → (t.seat u).blk i = p.2.getD i.val 0) ∧
          (x.tok = .none → (∀ i : Fin 32, (waymarkResults x.waymark.toNat).1.contains i.val = true → (t.seat u).reg i = x.reg i) ∧
            ∀ i : Fin 8, (waymarkResults x.waymark.toNat).2.contains i.val = true → (t.seat u).blk i = x.blk i) ∧
          (∀ c, (t.seat u).cctx = some c → x.cctx = some c ∧ ((x.slot c.slot).isSome = true → ((t.seat u).slot c.slot).isSome = true)) ∧
          (∀ i : Fin 8, ∀ z, (t.seat u).slot i = some z → z.vendorLoaded = true → z.returned = true) ∧
          (∀ i : Fin 8, ∀ z, x.slot i = some z → z.vendorLoaded = false → (t.seat u).slot i = some z) ∧
          (∀ a, scratchBase u + 0x3800 ≤ a → a < scratchBase u + 0x3C00 → t.mem.read a = 0) ∧
          (∀ a, a < scratchBase u + 0x3800 ∨ scratchBase u + 0x3C00 ≤ a → t.mem.read a = s.mem.read a))) ∧
      (x.world = .vendor → x.stack = f :: r → f.isGate = true → f.world = .vendor →
        Completes (.gret u marks) s (Ran u s { x with stack := r, waymark := f.waymark } f.retPc (6 + lineCost (x.line x.pc) (x.line f.retPc)))) ∧
      (x.world = .tenant → Completes (.gret u marks) s fun t => t = s.raise u 0x06)) ∧
  (∀ (s : State) (u : SeatRef), Runs s u →
      let x := (s.seat u).plain
      let y := { x with sinceYield := 0 }
      let left := { y with pc := x.pc + 4, cycles := x.cycles + 40 }
      ((x.squash = false ∧ (s.lane x.desc.lane).state ≠ .frozen ∧ s.quiescing u.cluster = false ∧ s.yieldsTo u y = false ∧ s.yieldOffer u y = .none) →
        Completes (.yieldPoint u) s (fun t => (t.seat u).pc = x.pc + 4 ∧ (t.seat u).sinceYield = 0 ∧ (t.seat u).cycles = x.cycles + 2)) ∧
      (x.intent.isSome = true → s.yieldsTo u y = false → s.yieldOffer u y = .none →
        Completes (.yieldPoint u) s (fun t => (t.seat u).pc = x.pc + 4 ∧ (t.seat u).sinceYield = 0 ∧ (t.seat u).cycles = x.cycles + 2)) ∧
      (x.intent = .none → x.squash = false → (s.lane x.desc.lane).state ≠ .frozen → (s.quiescing u.cluster = true ∨ s.yieldsTo u y = true) →
        Completes (.yieldPoint u) s fun t => t = (s.setSeat u left).seatChange u .ready true) ∧
      (x.intent.isSome = true → s.yieldsTo u y = true → Completes (.yieldPoint u) s fun t => t = (s.setSeat u left).seatChange u .ready true) ∧
      (∀ n i, x.squash = false → (s.lane x.desc.lane).state ≠ .frozen → s.quiescing u.cluster = false → s.yieldsTo u y = false →
        s.yieldOffer u y = some (n, i) → (let v := ((s.setSeat u left).seatChange u .ready true).offerItem n i u.cluster
          (v.seat (otherSeat u)).phase = .running → Completes (.yieldPoint u) s fun t => t = v)) ∧
      (x.intent = .none → x.squash = true → Completes (.yieldPoint u) s fun t => t = s.killSeat u 1) ∧
      (x.intent = .none → x.squash = false → (s.lane x.desc.lane).state = .frozen →
        Completes (.yieldPoint u) s (fun t => t.seat u = Seat.empty ∧ t.depot.items.length = s.depot.items.length + 1 ∧
          ∃ i, t.depot.items.head? = some i ∧ i.desc = x.desc ∧ i.suspended.isSome = true)))

/-- Milestones written by an itinerary (R68, R254, R259): MILE.P puts a step's record in the ring; MILE.I opens the intent register and
anchors its INTENT where the anchor log has room; MILE.C of the open object anchors its COMMIT and closes the register. -/
def Obligations.MilestoneInstructions : Prop :=
  ∀ (s : State) (u : SeatRef) (ga gb : Fin 32) (n : BitVec 11), Runs s u →
    let x := (s.seat u).plain
    let rec_ := fun (typ : BitVec 8) => s.mile x.desc typ true true n 0 (x.reg ga) (BitVec.ofNat 32 (x.reg gb).toNat)
    Completes (.mileP u ga n) s (fun t => t.journal = s.journal.put (s.mile x.desc 3 false (x.world == .vendor) n x.steps (x.reg ga) s.stamp) ∧
      (t.seat u).lastStep = n ∧ (t.seat u).pc = x.pc + 4) ∧
    (x.world = .vendor → x.intent = .none → Completes (.mileI u ga gb n) s fun t =>
      if s.journal.intentRoom then t.journal = (s.anchor (rec_ 4)).journal ∧
        (t.seat u).intent = some { kind := n, obj := x.reg ga, before := x.reg gb, issued := false, left := x.reg gb }
      else (t.seat u).phase = .anchorWait false n (x.reg ga) (x.reg gb) ∧ t.journal = { s.journal with waits := s.journal.waits + 1 }) ∧
    (x.world = .vendor → x.intends n (x.reg ga) = true →
      Completes (.mileC u ga gb n) s (fun t => t.journal = (s.anchor (rec_ 5)).journal ∧ (t.seat u).intent = .none)) ∧
    (x.world = .vendor → x.intends n (x.reg ga) = false → Completes (.mileC u ga gb n) s fun t => t = s.raise u 0x0E)

/-- The end of an itinerary (R72, R73, R76, R128): EMIT and TRAP free the seat, write its FINAL record and hold the response, its completion
record first; EMIT with an open intent, and one longer than 8,184 bytes, raise an exception; a squashed item ends without a response. -/
def Obligations.ItineraryEnds : Prop :=
  ∀ (s : State) (u : SeatRef) (ga : Fin 32) (code : BitVec 11), Runs s u →
    let x := s.seat u
    let r := s.releaseSeat u
    let ends := fun (kind : Byte) (pc : BitVec 32) (body : Bytes) (t : State) =>
      let head := completionRecord kind 0 x.intent.isSome code pc
      t.seat u = Seat.empty ∧ (∀ v : SeatRef, v.ok = true → v ≠ u → v ≠ { u with seat := 1 - u.seat } → t.seat v = s.seat v) ∧
      t.held = s.held ++ [{ desc := x.desc, payload := head ++ body }] ∧
      t.journal = (r.writeMile (r.mile x.desc 7 false (x.world == .vendor) code (BitVec.ofNat 16 (kind.toNat * 256))
        (BitVec.ofNat 64 (beNat head)) r.stamp)).journal
    (x.squash = false → x.intent = .none → (x.reg ga).toNat ≤ 8184 →
      Completes (.emit u ga code) s (ends 0 0 (s.load (storeBase u.cluster + windowOff u + 0x2000) (x.reg ga).toNat))) ∧
    (x.intent.isSome = true → Completes (.emit u ga code) s fun t => t = s.raise u 0x0E) ∧
    (x.intent = .none → 8184 < (x.reg ga).toNat → Completes (.emit u ga code) s fun t => t = s.raise u 0x10) ∧
    (x.squash = false → Completes (.trap u code) s (ends 1 x.shownPc [])) ∧
    (x.squash = true → Completes (.trap u code) s (fun t => t = s.killSeat u 1 ∧ t.seat u = Seat.empty)) ∧
    (x.squash = true → x.intent = .none → (x.reg ga).toNat ≤ 8184 → Completes (.emit u ga code) s fun t => t = s.killSeat u 1)

/-- Taking an exception (R75, Table 2.15): the itinerary's seat is freed, its response is held with a completion record of kind 2 that
carries the code and the pc, its lane counts it, and the class 0 fault ITIN_EXCEPTION (0x14) of the TE arrives with the image's id, the world
and the code as its detail, under the collector's next sequence number.

ITIN_RSP (R34, R252, R299, R300): the first held response whose item owes no OUTCOME that must wait for its call leaves the queue; the
OUTCOMEs it owes are written first; and it goes as an ITIN_RSP message to the session its item came on. A response whose session has closed,
or whose port carries no message, is dropped; where every held response waits, nothing is sent. -/
def Obligations.ExceptionTaken : Prop :=
  (∀ (s : State) (u : SeatRef) (code : Byte), u.ok = true → (s.seat u).squash = false →
      let x := s.seat u
      let t := s.raise u code
      t.seat u = Seat.empty ∧
      t.held = s.held ++ [{ desc := x.desc, payload := completionRecord 2 code x.intent.isSome 0 x.shownPc }] ∧
      (∃ r : State, t = r.fault 0 0x14 (srcTe u) (BitVec.ofNat 64 (x.desc.id.toNat * 2 ^ 32 + b2n (x.world == .vendor) * 256 + code.toNat)) ∧
        r.faults = s.faults) ∧
      (t.lane x.desc.lane).exceptions = (s.lane x.desc.lane).exceptions + 1 ∧
      t.faults.seq = s.faults.seq + 1) ∧
  (∀ (s : State) (before rest : List Held) (h : Held),
      let owes := fun (d : Desc) => s.journal.orphans.any fun o => !o.settled && o.ofItem d
      let d := h.desc
      let s1 := { s with held := before ++ rest }.payOutcomes d
      (s.held = before ++ h :: rest → (∀ g ∈ before, owes g.desc = true) → owes d = false →
        (((s.port d.port).sessions.find? d.session).any (·.carried d) = false ∨ (s.port d.port).openSession d.session = .none ∨
            (s.port d.port).carries = false → Completes .itinRsp s fun t => t = s1) ∧
        (∀ y, (s.port d.port).openSession d.session = some y → y.carried d = true → (s.port d.port).carries = true →
          Completes .itinRsp s (fun t => t.held = before ++ rest ∧ t.journal = s1.journal ∧
            Output.message d.port d.session y.vc (buildMessage y.key d.port d.session 0x02 0 0 (y.sendSeq + 1) d.ticket
              (BitVec.ofNat 64 (d.id.toNat * 2 ^ 32 + d.seq.toNat)) h.payload) ∈ t.out))) ∧
      ((∀ g ∈ s.held, owes g.desc = true) → Completes .itinRsp s fun t => t = s))

/-- The vault instructions (R69-R71): in the vendor world with the scratch page aligned and in bounds, VGET, and VPUT of the open object,
submit their operation, and the seat waits for it. -/
def Obligations.VaultInstructions : Prop :=
  ∀ (s : State) (u : SeatRef) (ga gb st : Fin 32), Runs s u → (s.seat u).world = .vendor →
    let x := (s.seat u).plain
    let a := (x.reg gb).toNat
    let waits := fun (isPut : Bool) (y : Seat) (plain : Bytes) (t : State) =>
      t = ((s.setSeat u { y with phase := .vaultWait, cycles := x.cycles + 20, sinceYield := 0, vwait := some { isPut := isPut, ga := ga, st := st, addr := a, rel := x.reg ga, abs := 0, reply := .none } }).vaultYield u).vaultSubmit
            (vaultOp (.seat u) x.desc isPut x.desc.colour (x.reg ga) plain (x.reg st))
    (a % 4096 = 0 → a + 4096 ≤ 0x3C00 → Completes (.vget u ga gb st) s (waits false x [])) ∧
    (a % 4096 = 0 → a + 4096 ≤ 0x3C00 → x.intends 1 (x.reg ga) = true →
      Completes (.vput u ga gb st) s (waits true (x.issued (x.intent.elim 0 (·.before))) (s.load (scratchBase u + a) 4096))) ∧
    (a % 4096 = 0 → a + 4096 ≤ 0x3C00 → x.intends 1 (x.reg ga) = false → Completes (.vput u ga gb st) s fun t => t = s.raise u 0x0E) ∧
    (a % 4096 ≠ 0 → Completes (.vget u ga gb st) s fun t => t = s.raise u 0x03)

/-- The events of a waiting seat (R48, R71, R75, R81, R242, R259, R417): each wakes or ends exactly what waits for it. -/
def Obligations.SeatEvents : Prop :=
  ∀ (s : State) (u : SeatRef) (off : BitVec 40) (rd : Fin 32) (w : VaultWait) (r : VaultReply) (isC : Bool) (kind : BitVec 11) (obj ver v : Word)
    (rest : List Reader) (s1 : State) (n : Nat) (o : VaultOp), u.ok = true →
    let x := s.seat u
    (x.phase = .running → 24000 ≤ x.sinceYield → Completes (.yieldOverdue u) s fun t => t = s.raise u 0x0F) ∧
    (x.phase ≠ .empty → Completes (.scratchUncorrectable u off) s fun t =>
      t = (s.raise u 0x11).fault 2 0x02 (srcTe u) (off.zeroExtend 64)) ∧
    (x.phase = .fetchWait → Completes (.imageCacheFill u) s fun t => t.seat u = { x with phase := .running, cycles := (t.seat u).cycles } ∧
      x.cycles ≤ (t.seat u).cycles ∧ t = { s with seats := t.seats, freeCtr := t.freeCtr }) ∧
    (x.phase = .vaultWait → x.vwait = some w → w.reply = some r → r.status ≠ 0 →
      Completes (.vaultWaitDone u) s (fun t => (t.seat u).vwait = .none ∧ (t.seat u).pc = x.pc + 4 ∧
        (t.seat u).reg w.st = (if w.st = 0 then 0 else BitVec.ofNat 64 r.status))) ∧
    (x.phase = .drbgWait rd → (s.expander u.cluster).waiting = .seat u :: rest → s.takeRandom u.cluster = some (v, s1) →
      Completes (.drbgReadDone u.cluster) s (fun t => (t.seat u).reg rd = (if rd = 0 then 0 else v) ∧ (t.seat u).pc = x.pc + 4 ∧
        (t.expander u.cluster).waiting = rest)) ∧
    (s.firstAnchorWait = some u → x.phase = .anchorWait isC kind obj ver → s.journal.intentRoom = true →
      Completes .anchorSpaceFree s (fun t => (t.seat u).intent = some { kind := kind, obj := obj, before := ver, issued := false, left := ver } ∧
        t.journal = (s.anchor (s.mile x.desc 4 true true kind 0 obj (BitVec.ofNat 32 ver.toNat))).journal)) ∧
    (s.vault.ops.findIdx? (fun o => o.caller == .seat u && o.isPut && o.stage == .queued) = some n → s.vault.ops[n]? = some o →
      s.vault.state = .degraded → Completes (.degradedVputTimeout u) s fun t => t = s.endOp n o 3 0 .none)

/-- ITEM_DISPATCH (R85, R86, R101, R104, R160, R511): an awake cluster in service takes a due self-test first, then a job of the Steward's,
then the item offered to it: a request of an unknown id, of an image its colour does not hold, or of one its policy forbids, is answered
REFUSED, its FINAL record written; a request with an image takes the seat R104 chooses; a job takes the idle MAE, one of an unknown type is
answered REFUSED.

A request in its seat (R102, R104, R123): the store's gate lets the payload into the message window, and the seat is the image's
start: its entry pc, the length in g1, its stack pointer in g31, every other register and slot empty, the tenant world. -/
def Obligations.DepotDispatch : Prop :=
  (∀ (s s1 : State) (c n : Nat) (i : Item) (x : Image) (u : SeatRef) (src : BitVec 16) (k : Nat), clusterOk c = true →
      let d := i.desc
      let refused := fun (reason : Byte) (t : State) =>
        let r := (s.dropItem n).releaseItem i
        t.held = s.held ++ [{ desc := d, payload := completionRecord 3 reason false 0 0 }] ∧ t.depot.items = s.depot.items.eraseIdx n ∧
        t.journal = (r.writeMile (r.mile d 7 false true 0 (BitVec.ofNat 16 (0x300 + reason.toNat))
          (BitVec.ofNat 64 (beNat (completionRecord 3 reason false 0 0))) r.stamp)).journal
      (s.takesOffers c = false → Completes (.itemDispatch c) s fun t => t = s) ∧
      (s.takesOffers c = true → s.dueTest c = some (src, k) → Completes (.itemDispatch c) s fun t => t = s.takeTest c src k) ∧
      (s.takesOffers c = true → s.dueTest c = .none → s.takeOwn c = some s1 → Completes (.itemDispatch c) s fun t => t = s1) ∧
      (s.takesOffers c = true → s.dueTest c = .none → s.takeOwn c = .none → s.nextOffer c = some (n, i) → i.suspended = .none → i.stream = .none →
        (isJob d.id = false → d.known = false → Completes (.itemDispatch c) s (refused 1)) ∧
        (isJob d.id = false → d.known = true → s.imageOf d.colour d.id = .none → Completes (.itemDispatch c) s (refused 3)) ∧
        (isJob d.id = false → d.known = true → s.imageOf d.colour d.id = some x →
          x.forbidden (((s.part? d.colour).map (·.policy)).getD 0) = true → Completes (.itemDispatch c) s (refused 4)) ∧
        (isJob d.id = false → d.known = true → s.imageOf d.colour d.id = some x →
          x.forbidden (((s.part? d.colour).map (·.policy)).getD 0) = false → s.chooseSeat c = some u →
          Completes (.itemDispatch c) s fun t => t = s.seatItem n i x u) ∧
        (isJob d.id = true → jobTypes.contains d.id.toNat = false → Completes (.itemDispatch c) s (refused 1)) ∧
        (isJob d.id = true → jobTypes.contains d.id.toNat = true → s.maeTakes c (s.jobLevel d) = true →
          Completes (.itemDispatch c) s (fun t => t.depot.items = s.depot.items.eraseIdx n ∧
            ∃ j, (t.cluster c).mae.running = some j ∧ j.desc = d ∧ j.payload = i.payload ∧
              (∀ q, (JobReq.ofBytes i.payload).reqReason d.id.toNat = some q → j.verdict = some (0, q)))))) ∧
  (∀ (s : State) (n : Nat) (i : Item) (x : Image) (u : SeatRef), u.ok = true →
      let t := s.seatItem n i x u
      let s1 := ((s.leaves n i u.cluster).dispatched i.desc (srcTe u)).setSeat u (startSeat i.desc x (s.seatPhase u))
      let s2 := (if s.seatPhase u = .running then s1.enterSeat u else s1).useGate u.cluster
      let saved := scratchBase (otherSeat u) + 0x3C00
      s2.gateCheck u.cluster (dmaAccess i.desc.colour true (windowOff u) (max 1 i.payload.length)) = .none →
        (t.seat u).desc = i.desc ∧ (t.seat u).pc = x.entry ∧ (t.seat u).world = .tenant ∧ (t.seat u).stack = [] ∧ (t.seat u).cycles = 0 ∧
        (t.seat u).phase = s.seatPhase u ∧ (t.seat u).version = x.version ∧ (t.seat u).intent = .none ∧ (t.seat u).cctx = .none ∧
        (∀ k, (t.seat u).slot k = .none) ∧ (t.seat u).reg 1 = BitVec.ofNat 64 i.desc.len ∧ (t.seat u).reg 31 = BitVec.ofNat 64 x.stack ∧
        (∀ r : Fin 32, r ≠ 1 → r ≠ 31 → (t.seat u).reg r = 0) ∧
        (t.lane i.desc.lane).dispatched = (s.lane i.desc.lane).dispatched + 1 ∧
        (s.mem.wf → ∀ a, a < saved ∨ saved + 0x400 ≤ a → t.mem.read a =
          if storeBase u.cluster + windowOff u ≤ a ∧ a < storeBase u.cluster + windowOff u + i.payload.length
          then i.payload.getD (a - (storeBase u.cluster + windowOff u)) 0 else s.mem.read a))

/-- The Depot's overflow and its cells (R94, R113, R115): a lane under half its quota begins to refill its head from overflow and
goes on while the next item stays within the quota, a refill that may not go on is over, the item is in the pool when the refill is done, and a cell with an uncorrectable error is retired and counted.

Clusters, sleep and placement (R106-R112, R146, R419, R512): an idle awake cluster that may sleep loses its scratch, its store below the
shares and its key table; a cluster whose wake ends well is awake with the start-up's transfer key, one whose wake fails is flagged with
cause 6; a placement evaluation closes the measure of utilisation, wakes the warm floor, evaluates every lane, cools the hot clusters and moves the streams left outside. -/
def Obligations.DepotAndClusters : Prop :=
  (∀ (s : State) (l bank cell : Nat) (i : Item) (cs : List Nat), laneOk l = true →
      ((s.depot.ofLane l).find? (fun i => i.place != .pool) = some i → i.place = .overflow → (s.lane l).refill = true ∨ 2 * s.depot.laneCells l < (s.lane l).quota →
        s.depot.laneCells l + i.need ≤ (s.lane l).quota ∨ s.depot.laneCells l = 0 → s.depot.allocate i.desc.colour i.need = some cs →
        Completes (.overflowRefill l) s fun t => t = (s.setRefill l true).modOutside l fun i => { i with place := .refilling, cells := cs }) ∧
      ((s.depot.ofLane l).find? (fun i => i.place != .pool) = some i → i.place = .overflow →
        (s.lane l).refill = false ∧ (s.lane l).quota ≤ 2 * s.depot.laneCells l ∨
          s.depot.laneCells l ≠ 0 ∧ (s.lane l).quota < s.depot.laneCells l + i.need →
        Completes (.overflowRefill l) s fun t => t = s.setRefill l false) ∧
      ((s.depot.ofLane l).find? (fun i => i.place != .pool) = some i → i.place = .refilling →
        Completes (.overflowRefillDone l) s fun t => t = s.modOutside l fun i => { i with place := .pool }) ∧
      (bank < 16 → cell < 4096 → s.depot.retired.contains (bank * 4096 + cell) = false →
        s.depot.items.findIdx? (fun i => i.cells.contains (bank * 4096 + cell)) = .none →
        Completes (.depotCellUncorrectable bank cell) s (fun t => t.depot.retired = s.depot.retired ++ [bank * 4096 + cell] ∧
          t.depot.items = s.depot.items))) ∧
  (∀ (s : State) (c : Nat), clusterOk c = true →
      (s.maySleep c = true → s.clusterHeld c = false →
        Completes (.clusterSleep c) s (fun t => (t.cluster c).power = .asleep ∧ (t.cluster c).mae.keyTable = [] ∧
          (∀ a, scratchBase ⟨c, 0, 0⟩ ≤ a → a < scratchBase ⟨c + 1, 0, 0⟩ → t.mem.read a = 0) ∧
          (∀ a, storeBase c ≤ a → a < storeBase c + 0xC0000 → t.mem.read a = 0) ∧
          (∀ a, storeBase c + 0xC0000 ≤ a → t.mem.read a = s.mem.read a))) ∧
      (s.maySleep c = true → s.clusterHeld c = true → Completes (.clusterSleep c) s fun t => t = s.defer (srcWhole c) 0) ∧
      (s.maySleep c = false → Completes (.clusterSleep c) s fun t => t = s) ∧
      ((s.cluster c).power = .waking → (s.cluster c).state = .inService → Completes (.clusterWakeDone c true) s (fun t =>
        (t.cluster c).power = .awake ∧ (t.cluster c).transferKey = s.transferKey ∧ (t.cluster c).confined = false)) ∧
      ((s.cluster c).power = .waking → Completes (.clusterWakeDone c false) s fun t => t = s.flagFailing c 6 true) ∧
      Completes .placementEvaluation s (fun t =>
        let m := s.measure
        let a := m.warmFloorSet.foldl State.wake m
        let b := (a.lanes.map Prod.fst).foldl State.evaluateLane a
        let d := (List.range 36).foldl State.coolCluster b
        t = (d.streams.map Stream.key).foldl State.moveStrays d))

/-- Streams and jobs (R145-R149, R166-R177, R303): the end of a segment processes and sends its bytes; a fetched key lies in the stream slot
or waits for the next stream; an MAE job that waits for its keys starts with them from the table; at a yield point one gives way where its
cluster quiesces or a job of a higher level waits, with room to save it; a job that has drawn what it draws leaves the MAE with its outcome, one whose expander has
too little for it waits. -/
def Obligations.StreamAndJobEvents : Prop :=
  ∀ (s s1 : State) (c te k a : Nat) (x : Stream) (j : MaeJob) (data : Bytes) (rest : List (Nat × Bytes)) (key : Key), clusterOk c = true →
    let m := (s.cluster c).mae
    let save := s.modCluster c fun x => { x with mae := { x.mae with running := .none, saved := x.mae.saved ++ [j] } }
    let plain := j.keyWait = false ∧ j.squash = false ∧ (s.lane j.desc.lane).state ≠ .frozen ∧ m.saved.length < 4
    (te < 16 → (s.te c te).stream = some k → s.stream? k = some x → x.pending = (a, data) :: rest →
      let y := { x.segment data with pending := [] }
      let z := s.sendOutput y y.sizes
      Completes (.bulkSegmentEnd c te) s fun t => t = ((z.1.setStream z.2).tryClose k).moveStrays k) ∧
    (te < 16 → s.fetches (s.te c te) = some k → s.stream? k = some x → x.loading = true → x.handle2 = 0 →
      s.fetchKey (s.lane x.lane).colour x.handle1 = (s1, some key) →
      Completes (.streamKeyFetchDone c te) s fun t => t = s1.setStream { x with key1 := key.material, loading := false }) ∧
    (m.running = some j → j.keyWait = true → j.started = false → Completes (.maeKeyTableMissDone c) s (fun t =>
      t = (s.tableFill c j).startLoaded c j ∧
      ∃ r, (t.cluster c).mae.running = some r ∧ r.desc = j.desc ∧ r.keyWait = false ∧ r.started = true ∧
        r.keys = ((JobReq.ofBytes j.payload).keyNeeds j.desc.id.toNat).filterMap fun n => ((s.tableFill c j).cluster c).mae.entry n.handle)) ∧
    (m.running = some j → plain → s.quiescing c = true → Completes (.maeJobYieldPoint c) s (fun t => t = save)) ∧
    (m.running = some j → plain → s.quiescing c = false → save.nextJob c (s.jobLevel j.desc) = some s1 →
      Completes (.maeJobYieldPoint c) s (fun t => t = s1)) ∧
    (m.running = some j → plain → s.quiescing c = false → save.nextJob c (s.jobLevel j.desc) = .none →
      Completes (.maeJobYieldPoint c) s (fun t => t = s)) ∧
    (m.running = some j → j.keyWait = false → j.squash = false →
      (j.verdict.isSome ∨ j.desc.own.isSome ∨ jobEffects j.desc.id.toNat = false ∨ s.journal.intentRoom = true) →
      let z := s.takeBytes c j.lacks
      let y := { j with rnd := j.rnd ++ z.1 }
      ∀ ok, (z.1.length = j.lacks → Completes (.maeJobEnd c ok) s fun t => t = z.2.jobEnds c y ok) ∧
        (z.1.length < j.lacks → Completes (.maeJobEnd c ok) s fun t =>
          t = (z.2.modCluster c fun x => { x with mae := { x.mae with running := some y } }).seedExpander c)) ∧
    (m.running = some j → j.keyWait = false → j.squash = true → ∀ ok,
      Completes (.maeJobEnd c ok) s fun t => t = (s.maeFree c).itemEnded j.desc 1) ∧
    (m.kat = true → ∀ ok, Completes (.maeKatDone c ok) s fun t => t = s.maeTested c ok)

/-- A message row (R289, R296, R308, Table 9.6): a message that passes checks 1 to 7 raises its session's highest accepted number, counts
its units, and has its type's effect; the link credits of its frame are returned.

The checks of a message in their order (R296, Table 9.6): a message that fails check 1, 2, 3, 4, 5 or 6 is answered with that
violation code, and no session accepts its number; it has no other effect. -/
def Obligations.MessagesAccepted : Prop :=
  (∀ (s s2 : State) (p vc : Nat) (raw : Bytes) (x : Session) (c : Instr) (typ : Nat), vcOk p vc = true →
      (c, typ) ∈ [(Instr.itinReq p vc raw, 0x01), (.bulkOpen p vc raw, 0x10), (.bulkData p vc raw, 0x11), (.bulkClose p vc raw, 0x12),
        (.vaultData p vc raw, 0x22), (.idleMessageReceipt p vc raw, 0x31), (.goingAway p vc raw, 0x32), (.violation p vc raw, 0x33)] →
      let m := parseMsg p vc ((s.port p).expSeq - 1).toNat 16 raw
      (s.port p).link = .up → (s.port p).held = [] → m.typ = typ → 48 ≤ raw.length → raw.length = m.len → m.len ≤ 8240 →
      (s.port p).openSession m.session = some x → x.vc = vc →
      gcmTag x.key (messageIv m.session 0 p m.seq) (raw.take (raw.length - 16)) [] = raw.drop (raw.length - 16) → x.recvSeq < m.seq →
      let y := { x with recvSeq := m.seq }
      let z := match s.countedLane m y with
        | some i => y.countUnits i m.units
        | .none => y
      let s1 := s.setSession p m.session z
      s1.fieldsOk m z = true → s1.rxEffect m z = some s2 → Completes c s fun t => t = s2.grant p vc 0) ∧
  (∀ (s : State) (m : Msg) (x : Session),
      let gives := fun (code on : Nat) => s.receive m = some (s.violMsg m code on)
      let shaped := 48 ≤ m.raw.length ∧ m.len ≤ 8240 ∧ m.raw.length = m.len
      let known := shaped ∧ m.typ ∈ [0x01, 0x10, 0x11, 0x12, 0x22, 0x31, 0x32, 0x33]
      let opened := known ∧ (s.port m.port).openSession m.session = some x
      let whole := gcmTag x.key (messageIv m.session 0 m.port m.seq) (m.raw.take (m.raw.length - 16)) [] = m.raw.drop (m.raw.length - 16)
      (¬shaped → gives 1 0) ∧ (shaped → ¬known → gives 2 0) ∧
      (known → (s.port m.port).openSession m.session = .none → gives 3 0) ∧
      (opened → x.vc ≠ m.vc → gives 4 0) ∧ (opened → x.vc = m.vc → ¬whole → gives 5 m.session) ∧
      (opened → x.vc = m.vc → whole → m.seq ≤ x.recvSeq → gives 6 m.session))

/-- Effects of the accepted messages (R295, R298, R301-R305, R310, R315): an IDLE has none; a VIOLATION is counted under its code; a
GOING_AWAY records when the announced stop is over; a BULK_OPEN is answered with the status its descriptor, the port's streams and its key
give, in that order, before its lane's state is looked at; a segment of an unknown stream, or of one whose OPENED the partner has not had, is
violation 10, one out of order 11, one that is no whole number of blocks or follows a short one 12, and 11 and 12 abort the stream.

Held channels, IDLE and CREDIT (R117, R285, R308, R310): the release runs what the channel holds while it finds room; a silent session
sends an IDLE with the highest number it accepted; CREDIT tells a session of the limits that advanced. -/
def Obligations.MessageEffects : Prop :=
  (∀ (s s1 : State) (m : Msg) (x : Session) (l : Nat) (k : Key) (y : Stream),
      let pt := s.port m.port
      let bulk := m.typ = 0x10 ∧ x.closing = false ∧ s.laneOf x.colour m.lane = some l ∧ (s.lane l).cls = 3
      let room := (s.port m.port).streams.length < 1024 ∧ s.msgStream m = .none
      let gives := fun (t : State) => s.rxEffect m x = some t
      (m.typ = 0x31 → gives s) ∧
      (m.typ = 0x33 → 1 ≤ m.a → m.a ≤ 15 → ∃ t, gives t ∧ (t.port m.port).violReceived = pt.violReceived + 1 ∧
        (t.port m.port).viol.get m.a 0 = pt.viol.get m.a 0 + 1 ∧ t.journal = s.journal ∧ t.mem = s.mem ∧ t.out = s.out) ∧
      (m.typ = 0x32 → gives (s.setPort m.port { pt with partnerStop := some (s.now + m.c + 100000) })) ∧
      (bulk → bulkDescOk m.body = false → gives (s.openStatus m 2)) ∧
      (bulk → bulkDescOk m.body = true → ¬room → gives (s.openStatus m 3)) ∧
      (bulk → bulkDescOk m.body = true → room → s.bulkKeys x.colour m.body = (s1, .none) → gives (s1.openStatus m 1)) ∧
      (bulk → bulkDescOk m.body = true → room → s.bulkKeys x.colour m.body = (s1, some k) → (s1.lane l).state ≠ .opened →
        gives ((s1.overrun l).violMsg m 14 m.session)) ∧
      (bulk → bulkDescOk m.body = true → room → s.bulkKeys x.colour m.body = (s1, some k) → (s1.lane l).state = .opened →
        gives ((s1.setPort m.port { s1.port m.port with streams := (s1.port m.port).streams ++ [openedStream m l k] }).openStatus m 0)) ∧
      (m.typ = 0x11 → s.msgStream m = .none → gives (s.violMsg m 10 m.session)) ∧
      (m.typ = 0x11 → s.msgStream m = some y → y.announced = false → gives (s.dropCounted m (s.lane y.lane).index 10)) ∧
      (m.typ = 0x11 → s.msgStream m = some y → y.announced = true → m.c ≠ y.received →
        gives ((s.dropCounted m (s.lane y.lane).index 11).abortStream y.key)) ∧
      (m.typ = 0x11 → s.msgStream m = some y → y.announced = true → m.c = y.received → y.closeReq = .none → m.body.length % 16 ≠ 0 ∨ y.short = true →
        gives ((s.dropCounted m (s.lane y.lane).index 12).abortStream y.key)) ∧
      (m.typ = 0x12 → s.msgStream m = .none → gives (s.violMsg m 10 m.session)) ∧
      (m.typ = 0x01 → x.closing = true → gives (s.dropCounted m m.lane 8))) ∧
  (∀ (s : State) (p vc n : Nat) (x : Session),
      (vcOk p vc = true → Completes (.linkCreditHoldRelease p vc) s fun t => t = s.runHeld p vc (s.port p).held.length) ∧
      (sessionOk p n = true → (s.port p).openSession n = some x → (s.port p).carries = true → Completes (.idleMessage p n) s (fun t =>
        Output.message p n x.vc (buildMessage x.key p n 0x31 0 0 (x.sendSeq + 1) x.recvSeq 0 []) ∈ t.out ∧
        ∃ y, (t.port p).sessions.find? n = some y ∧ y.sendSeq = x.sendSeq + 1)) ∧
      (sessionOk p n = true → Completes (.credit p n) s fun t => t = s.sendCredit p n false))

/-- Frames received (R275-R281, R283): on a port that is UP a broken frame draws a NAK for the number expected; a whole frame of the
partner's epoch is heard for its acknowledgement and limits, and then a DATA frame of the expected number is accepted, one ahead of it draws
a NAK, one behind it is dropped; an IDLE frame's eight limits are heard; a NAK replays, in order, from the number it expects. What
the port may send then leaves behind the replayed frames.

Heartbeat, acknowledgement and retry (R278, R280, R281): an IDLE frame carries the limits granted and leaves everything but what is
sent as it was; a replay timeout sends the frames of the retry buffer from the oldest on again, in order, the ninth in a row retrains the link. -/
def Obligations.FramesReceived : Prop :=
  (∀ (s : State) (p : Nat) (f : Bytes), portOk p = true → (s.port p).link = .up →
      let h := s.heardHeader p f
      let seq := BitVec.ofNat 16 (fieldBE f 4 2)
      let comes := fun (typ : Nat) => frameOk f = true ∧ fieldBE f 0 1 = typ ∧ fieldBE f 0x0C 2 = (s.port p).peerEpoch.toNat
      (frameOk f = false → Completes (.dataFrame p f) s (fun t => t = s.nak p 1) ∧ Completes (.idleFrame p f) s (fun t => t = s.nak p 1) ∧
        Completes (.nakFrame p f) s fun t => t = s.nak p 1) ∧
      (comes 1 → seq = (h.port p).expSeq → Completes (.dataFrame p f) s fun t => t = (h.acceptData p f).pump p) ∧
      (comes 1 → seq ≠ (h.port p).expSeq → frameLe (h.port p).expSeq seq = true → Completes (.dataFrame p f) s fun t => t = (h.nak p 2).pump p) ∧
      (comes 1 → seq ≠ (h.port p).expSeq → frameLe (h.port p).expSeq seq = false → Completes (.dataFrame p f) s fun t => t = h.pump p) ∧
      (comes 2 → Completes (.idleFrame p f) s fun t => t = (h.setPort p ((h.port p).hearAll f 0x10)).pump p) ∧
      (comes 3 → (h.port p).replayRuns < 8 → Completes (.nakFrame p f) s (fun t =>
        ∃ y : State, t = y.pump p ∧ (y.port p).nakGot = (h.port p).nakGot + 1 ∧ (y.port p).replays = (h.port p).replays + 1 ∧
          (y.port p).retry = (h.port p).retry ∧ (y.port p).waitQ = (h.port p).waitQ ∧
          y.out = (((h.port p).retry.filter fun g => frameLe (BitVec.ofNat 16 (fieldBE f 0x10 2)) g.seq).map
            fun g => Output.frame p g.bytes).reverse ++ h.out)) ∧
      (comes 3 → 8 ≤ (h.port p).replayRuns → (h.port p).link = .up → Completes (.nakFrame p f) s fun t => (t.port p).link = .retrain)) ∧
  (∀ (s : State) (p : Nat) (f : RetryFrame) (r : List RetryFrame), portOk p = true → (s.port p).link = .up →
      let pt := s.port p
      let idle := buildFrame pt 2 0 0 64 0 (pt.granted.toList.flatMap fun g => natBE 4 g.toNat)
      Completes (.idleFrameSend p) s (fun t => t = { s with out := .frame p idle :: s.out }) ∧
      (pt.ackValid = true → Completes (.ackSend p) s fun t => t = { s with out := .frame p idle :: s.out }) ∧
      (pt.retry = f :: r → pt.txSuspended = false → pt.replayRuns < 8 → Completes (.replayTimeout p) s (fun t =>
        (t.port p).replays = pt.replays + 1 ∧ (t.port p).replayRuns = pt.replayRuns + 1 ∧ (t.port p).retry = pt.retry ∧
        t.out = ((pt.retry.filter fun g => frameLe f.seq g.seq).map fun g => Output.frame p g.bytes).reverse ++ s.out)) ∧
      (pt.retry = f :: r → pt.txSuspended = false → 8 ≤ pt.replayRuns → Completes (.replayTimeout p) s fun t => (t.port p).link = .retrain))

/-- The link states of Table 9.3 and their timeouts (R284, R286, R287, R297, R313): alignment ends TRAINING in INIT with numbers, tallies and
retry buffer new and the initial grants; timeouts take a port DOWN; a port that may trains again, from
start-up step 9b on; a loss within an announced stop is counted as planned and raises no fault.

What going DOWN leaves (R286, R287, R305, R313): the retry buffer, what waits and the streams of the port are gone, its sessions, keys and
configuration stay, and the other port is as it was. -/
def Obligations.LinkStates : Prop :=
  (∀ (s : State) (p : Nat) (f : Bytes), portOk p = true →
      let pt := s.port p
      (pt.link = .training → pt.rxRetired ≤ 1 → Completes (.pcsAlignment p) s (fun t =>
        (t.port p).link = .init ∧ (t.port p).sendSeq = 0 ∧ (t.port p).expSeq = 0 ∧ (t.port p).retry = [] ∧ (t.port p).used = Vector.replicate 8 0 ∧
        (t.port p).granted = #v[256, 2304, 2304, 2304, 2304, 2304, 2304, 2304] ∧ (t.port p).sessions = pt.sessions)) ∧
      (pt.link = .training → Completes (.trainingTimeout p) s fun t => (t.port p).link = .down) ∧
      (s.mayTrain p = true → Completes (.trainingRestart p) s fun t => t = s.setPort p { pt with link := .training }) ∧
      (pt.link = .init → Completes (.initTimeout p) s fun t => t = (s.portDown p).train p) ∧
      (pt.link = .retrain → pt.failedRetrains < 2 → Completes (.retrainTimeout p) s (fun t =>
        (t.port p).link = .retrain ∧ (t.port p).failedRetrains = pt.failedRetrains + 1 ∧ (t.port p).retry = pt.retry)) ∧
      (pt.link = .retrain → 2 ≤ pt.failedRetrains → Completes (.retrainTimeout p) s fun t =>
        t = ((s.portDown p).fault 2 0x21 (srcPort p 0xFF) (if 1 < pt.rxRetired then 1 else 2)).train p) ∧
      (pt.link = .up → pt.remap = .none → pt.partnerStop = .none → Completes (.partnerLoss p) s fun t =>
        t = ((s.portDown p).fault 0 0x22 (srcPort p 0xFF) (pt.epoch.zeroExtend 64)).train p) ∧
      (∀ d, pt.link = .up → pt.remap = .none → pt.partnerStop = some d → s.now ≤ d → Completes (.partnerLoss p) s fun t =>
        t.faults = s.faults ∧ (t.port p).plannedDowns = pt.plannedDowns + 1 ∧ ((t.port p).link = .down ∨ (t.port p).link = .training)) ∧
      (∀ r, pt.link = .up → pt.remap = some r → r.suspended = true → Completes (.partnerLoss p) s fun t => t = s) ∧
      (pt.violDown = true → Completes (.violationDownEnd p) s fun t => t = (s.setPort p { pt with violDown := false }).train p) ∧
      (pt.link = .down → pt.enable = true → pt.violDown = false → s.faults.class3Active = false → s.faults.grave = false → s.power.porst = false →
        s.power.step ∈ [.s9b, .s10, .done] →
        Completes (.freriRefclkPresent p) s fun t => (t.port p).link = .training ∧ (t.port p).refclk = true) ∧
      (s.power.step ∉ [.s9b, .s10, .done] → pt.link = .down →
        Completes (.freriRefclkPresent p) s fun t => (t.port p).link = .down ∧ (t.port p).refclk = true) ∧
      (pt.link = .init ∨ pt.link = .retrain → Completes (.initFrameSend p) s fun t => t = (s.sendInit p).linkUp p) ∧
      (pt.link = .init → pt.aligned = true → pt.initAckSent = false → frameOk f = true → fieldBE f 0 1 = 4 → f.length = 72 → fieldBE f 0x10 1 = 1 →
        Completes (.initFrame p f) s (fun t => (t.port p).link = .init ∧ (t.port p).initGot = true ∧
          (t.port p).peerEpoch = BitVec.ofNat 16 (fieldBE f 0x0C 2) ∧ (t.port p).peerReserve = bit (fieldBE f 0x11 1) 0)) ∧
      (pt.link = .up → frameOk f = true → fieldBE f 0 1 = 4 → f.length = 72 → fieldBE f 0x10 1 = 1 → bit (fieldBE f 0x11 1) 1 = false →
        BitVec.ofNat 16 (fieldBE f 0x0C 2) = pt.peerEpoch → Completes (.initFrame p f) s fun t => (t.port p).link = .retrain)) ∧
  (∀ (s : State) (p : Nat), portOk p = true → (s.port p).link ≠ .down → (s.port p).sessions.wf →
      let t := s.portDown p
      (t.port p).link = .down ∧ (t.port p).retry = [] ∧ (t.port p).waitQ = [] ∧ (t.port p).streams = [] ∧ (t.port p).remap = .none ∧
      (t.port p).sessions.map Prod.fst = (s.port p).sessions.map Prod.fst ∧ (t.port p).baseKey = (s.port p).baseKey ∧ (t.port p).enable = (s.port p).enable ∧
      (t.port p).epoch = (s.port p).epoch ∧ (t.port (1 - p)).link = (s.port (1 - p)).link ∧ (t.port (1 - p)).retry = (s.port (1 - p)).retry ∧
      t.journal = s.journal ∧ t.mem = s.mem)

/-- Lane replacement (R272-R274): each way an in-service receive lane is found failing asks the partner for its reserve with a REMAP, with
loss detection suspended; the re-alignment moves the reserve into the lane's place, retires the lane and reports SERDES_LANE_FAILED, and
the replacement is over once its suspension has ended too, each direction's after its own 50 µs; a REMAP of the partner moves our transmit
lane, and takes the link DOWN where the partner has announced no reserve lane.

Planned stops and sessions (R294, R314): the drain interval's end aborts what is still open; with every frame acknowledged, or 100 µs
later all the same, the port is DOWN and its stop over; a CLOSING session with nothing in flight closes, and closes all the same at its
timeout. -/
def Obligations.LanesAndStops : Prop :=
  (∀ (s : State) (p sl : Nat) (f : Bytes) (r : Remap), slOk p sl = true →
      let pt := s.port p
      let h := s.heardHeader p f
      let asks := fun (cause : Nat) (t : State) =>
        (t.port p).remap = some { failed := sl, cause := cause, doneSeen := false, suspended := true, since := s.now } ∧ (t.port p).link = .up ∧
        ∃ b, t.out = .frame p b :: s.out
      (pt.link = .up → sl ∈ pt.rxMap.toList → pt.remap = .none → pt.peerReserve = true → pt.rxReserve = false →
        Completes (.cdrLockLoss p sl) s (asks 1) ∧ Completes (.laneBerExceeded p sl) s (asks 2) ∧
        Completes (.laneUncorrectableTwice p sl) s (asks 3) ∧ Completes (.dfeTapAtLimit p sl) s (asks 4)) ∧
      (pt.remap = some r → r.doneSeen = true → r.aligned = false → Completes (.remapRealignDone p) s (fun t =>
        (t.port p).rxMap = moveLane pt.rxMap r.failed ∧ (t.port p).rxReserve = true ∧
        (t.port p).remap = (if r.suspended then some { r with aligned := true } else .none) ∧
        (t.port p).retiredLanes = r.failed :: pt.retiredLanes ∧ t.faults.seq = s.faults.seq + 1)) ∧
      (pt.remap = .none → Completes (.remapSuspensionEnd p) s fun t => (t.port p).txSuspended = false ∧ (t.port p).remap = .none) ∧
      (pt.remap = some r → r.suspended = true → (pt.txSuspended = true → r.since ≤ pt.txSince) → Completes (.remapSuspensionEnd p) s fun t =>
        (t.port p).remap = (if r.aligned then .none else some { r with suspended := false }) ∧
        (pt.txSuspended = true → r.since < pt.txSince → (t.port p).txSuspended = true)) ∧
      (pt.remap = some r → r.suspended = true → pt.txSuspended = true → pt.txSince < r.since → Completes (.remapSuspensionEnd p) s fun t =>
        (t.port p).txSuspended = false ∧ (t.port p).remap = some r) ∧
      (pt.link = .up → frameOk f = true → fieldBE f 0 1 = 5 → fieldBE f 0x0C 2 = pt.peerEpoch.toNat → fieldBE f 0x10 1 = 1 →
        fieldBE f 0x11 1 = sl → sl ∈ (h.port p).laneMap.toList → pt.peerReserve = false → Completes (.laneFrame p f) s (fun t =>
          (t.port p).link = .down ∧ t.faults.seq = h.faults.seq + 1)) ∧
      (pt.link = .up → frameOk f = true → fieldBE f 0 1 = 5 → fieldBE f 0x0C 2 = pt.peerEpoch.toNat → fieldBE f 0x10 1 = 1 →
        fieldBE f 0x11 1 = sl → sl ∈ (h.port p).laneMap.toList → pt.peerReserve = true → (h.port p).txReserve = false → Completes (.laneFrame p f) s (fun t =>
          (t.port p).laneMap = moveLane (h.port p).laneMap sl ∧ (t.port p).txReserve = true ∧ (t.port p).txSuspended = true ∧
          (t.port p).retiredLanes = (8 + sl) :: (h.port p).retiredLanes ∧ t.faults.seq = h.faults.seq + 1))) ∧
  (∀ (s : State) (p n : Nat) (x : Session), portOk p = true →
      let pt := s.port p
      (pt.stop = .draining → Completes (.drainIntervalEnd p) s fun t => (t.port p).stop = .ackWait) ∧
      (pt.stop = .ackWait → pt.retry = [] → pt.waitQ = [] → Completes (.plannedStopDown p) s fun t =>
        (t.port p).link = .down ∧ (t.port p).stop = .none ∧ (t.port p).enable = (pt.enable && !pt.stopClears)) ∧
      (pt.stop = .ackWait → Completes (.portAckWaitEnd p) s fun t =>
        (t.port p).link = .down ∧ (t.port p).stop = .none ∧ (t.port p).enable = (pt.enable && !pt.stopClears)) ∧
      (n < 4096 → pt.sessions.find? n = some x → x.closing = true → s.sessionBusy p n = false →
        Completes (.sessionClosed p n) s fun t => t = s.closeSession p n) ∧
      (n < 4096 → pt.sessions.find? n = some x → x.closing = true → Completes (.sessionCloseTimeout p n) s fun t => t = s.closeSession p n))

/-- Ring and mailbox registers (R328, R330, R332, Table 10.7): a rising ENABLE with legal sizes starts both rings at index 0 with phase 1;
a size out of range beside ENABLE raises RING_ERR reason 1; CMD_TAIL takes an index inside the ring and raises RING_ERR reason 2 outside it,
3 while the ring is not enabled; CPL_HEAD frees what it passes and raises reason 4 ahead of the completions written; a GO of a busy mailbox
sets OVERRUN; a function that takes no writes discards them all.

A GO taken and an entry fetched (R328, R332): an idle mailbox that is served becomes busy, its command taken in; a ring entry that may be
fetched moves CMD_HEAD on and is taken in, one that may not waits. In deep standby the PF's GO is held and starts the exit (R506). A well-formed entry of a catalogued opcode is then in flight, not yet started. -/
def Obligations.RingsAndMailboxes : Prop :=
  (∀ (s : State) (fn : Nat) (v : BitVec 32), fnOk fn = true →
      (s.takesWrites fn = false → ∀ c ∈ [Instr.ringCtrlEnable fn v, .cmdTail fn v, .cplHead fn v, .go fn v], Completes c s fun t => t = s) ∧
      (s.takesWrites fn = true →
      let f := s.func fn
      let i := v.toNat % 65536
      (f.ringEnable = false → v.getLsbD 0 = true → 4 ≤ v.toNat / 256 % 32 → v.toNat / 256 % 32 ≤ 16 → 4 ≤ v.toNat / 65536 % 32 →
        v.toNat / 65536 % 32 ≤ 16 → Completes (.ringCtrlEnable fn v) s (fun t =>
          (t.func fn).ringEnable = true ∧ (t.func fn).cmdLog2 = v.toNat / 256 % 32 ∧ (t.func fn).cplLog2 = v.toNat / 65536 % 32 ∧
          (t.func fn).cmdTail = 0 ∧ (t.func fn).cmdHead = 0 ∧ (t.func fn).cplHead = 0 ∧ (t.func fn).cplTail = 0 ∧ (t.func fn).phase = true ∧
          (t.func fn).ringError = false ∧ (∀ g, g ≠ fn → t.func g = s.func g) ∧ t.journal = s.journal ∧ t.mem = s.mem)) ∧
      (v.getLsbD 0 = true → v.toNat / 256 % 32 < 4 ∨ 16 < v.toNat / 256 % 32 ∨ v.toNat / 65536 % 32 < 4 ∨ 16 < v.toNat / 65536 % 32 →
        Completes (.ringCtrlEnable fn v) s fun t => (t.func fn).ringError = true ∧ (t.func fn).errReason = 1 ∧ (t.func fn).event.getLsbD 0 = true) ∧
      (v.getLsbD 0 = false → Completes (.ringCtrlEnable fn v) s fun t =>
        t = s.setFunc fn { f with ringEnable := false, cmdLog2 := v.toNat / 256 % 32, cplLog2 := v.toNat / 65536 % 32 }) ∧
      (f.ringEnable = true → i < 2 ^ f.cmdLog2 → Completes (.cmdTail fn v) s (fun t =>
        t = s.setFunc fn { f with cmdTail := BitVec.ofNat 16 i })) ∧
      (f.ringEnable = true → 2 ^ f.cmdLog2 ≤ i → Completes (.cmdTail fn v) s (fun t => t = s.ringFail fn 2 i)) ∧
      (f.ringEnable = false → Completes (.cmdTail fn v) s (fun t => t = s.ringFail fn 3 i)) ∧
      (f.ringEnable = true → i < 2 ^ f.cplLog2 →
        (i + 2 ^ f.cplLog2 - f.cplHead.toNat) % 2 ^ f.cplLog2 ≤ (f.cplTail.toNat + 2 ^ f.cplLog2 - f.cplHead.toNat) % 2 ^ f.cplLog2 →
        Completes (.cplHead fn v) s (fun t => (t.func fn).cplHead = BitVec.ofNat 16 i ∧
          ∀ x ∈ (t.func fn).slots, x ∈ f.slots ∧ between (2 ^ f.cplLog2) f.cplHead.toNat i x.1 = false)) ∧
      (f.ringEnable = true → i < 2 ^ f.cplLog2 →
        (f.cplTail.toNat + 2 ^ f.cplLog2 - f.cplHead.toNat) % 2 ^ f.cplLog2 < (i + 2 ^ f.cplLog2 - f.cplHead.toNat) % 2 ^ f.cplLog2 →
        Completes (.cplHead fn v) s fun t => t = s.ringFail fn 4 i) ∧
      (f.ringEnable = true → 2 ^ f.cplLog2 ≤ i → Completes (.cplHead fn v) s fun t => t = s.ringFail fn 2 i) ∧
      (f.ringEnable = false → Completes (.cplHead fn v) s fun t => t = s.ringFail fn 3 i) ∧
      (v.getLsbD 0 = false → Completes (.go fn v) s fun t => t = s) ∧
      (v.getLsbD 0 = true → f.mbxBusy = true → Completes (.go fn v) s fun t => t = s.setFunc fn { f with mbxOverrun := true }))) ∧
  (∀ (s : State) (fn : Nat) (v : BitVec 32) (entry body : Bytes) (c : Cmd) (op : Nat) (serial : Bool) (sp : Spec), fnOk fn = true →
      (v.getLsbD 0 = true → (s.func fn).mbxBusy = false → s.power.standby ≠ .entered → s.serves fn .mailbox = true →
        Completes (.go fn v) s fun t => t = (s.acceptGo fn).serveMailbox fn) ∧
      (v.getLsbD 0 = true → (s.func fn).mbxBusy = false → (s.power.standby ≠ .entered ∨ fn ≠ 0) → s.serves fn .mailbox = false →
        Completes (.go fn v) s fun t => t = s) ∧
      (v.getLsbD 0 = true → (s.func 0).mbxBusy = false → s.power.standby = .entered → s.takesWrites 0 = true →
        Completes (.go 0 v) s fun t => (t.func 0).mbxBusy = true ∧ t.pcie.heldGo = true ∧ t.power.kind = .exit ∧ t.power.step = .s4a ∧
          t.pcie.inFlight = s.pcie.inFlight) ∧
      (((s.acceptGo fn).func fn).mbxBusy = true ∧ ((s.acceptGo fn).func fn).mbxDone = false) ∧
      (s.serves fn .ring = true → s.mayFetch fn (bit (fieldLE entry 2 2) 1) = true → Completes (.ringFetch fn entry body) s fun t =>
        t = (s.modFunc fn fun f => { f with cmdHead := BitVec.ofNat 16 ((f.cmdHead.toNat + 1) % 2 ^ f.cmdLog2) }).takeIn
          (entryCmd fn .ring entry body) (fieldLE entry 0 2) (entryOk .ring entry) (bit (fieldLE entry 2 2) 1)) ∧
      (s.serves fn .ring = false ∨ s.mayFetch fn (bit (fieldLE entry 2 2) 1) = false → Completes (.ringFetch fn entry body) s fun t => t = s) ∧
      (specOf op = some sp → (s.takeIn c op true serial).pcie.inFlight =
        s.pcie.inFlight ++ [{ opcode := BitVec.ofNat 16 op, cmd := c, started := false, serial := serial }]))

/-- Other registers, interrupts and errors (R16, R326, R327, R331, R333): what a write of each offset of BAR0 that has no row of its own
changes, and that it changes nothing else; an access that is misaligned or of a size the area does not take, a write of a reserved or read-only
offset and a write of a function that takes none change nothing; a masked vector that is pending is signalled when its mask bit is cleared; a
held-back completion interrupt is sent when its delay ends; the four DMA faults; an FLR puts every RW and RW1C field at its reset value and
resets an assigned VF.

The PCIe functions' events (R320-R322, R324, R335-R338, R99, R543): with the link down none happens; D3hot is entered and left; VF Enable
and NumVFs are set and cleared, the VFs that disappear are reset and those of the partitions come back; a reset's squash ends the commands in
flight, its end raises the serial, frees the function and reports its counts; a freeze at rest is FROZEN and completes its command; an empty
lane that drains or is squashed closes. -/
def Obligations.FunctionEvents : Prop :=
  (∀ (s : State) (fn off size : Nat) (v : BitVec 32) (w : Word) (x : InFlight), fnOk fn = true →
      let f := s.func fn
      let n := w.toNat % 2 ^ 32
      let msix := msixBase fn
      let whole := s.takesWrites fn = true ∧ accessOk fn off 4 f.vectors = true
      let sets := fun (g : Func) => Completes (.registerWrite fn off 4 w) s fun t => t = s.setFunc fn g
      (s.takesWrites fn = true → off = 0x50 → Completes (.eventRw1c fn off v) s fun t => t = s.setFunc fn { f with event := f.event &&& ~~~v }) ∧
      (s.takesWrites fn = true → off = 0x1004 → v.getLsbD 2 = true →
        Completes (.eventRw1c fn off v) s fun t => t = s.setFunc fn { f with mbxOverrun := false }) ∧
      (s.takesWrites fn = false ∨ off ≠ 0x50 ∧ ¬(off = 0x1004 ∧ v.getLsbD 2 = true) → Completes (.eventRw1c fn off v) s fun t => t = s) ∧
      (s.takesWrites fn = false ∨ accessOk fn off size f.vectors = false → Completes (.registerWrite fn off size w) s fun t => t = s) ∧
      (whole → off = 0x20 → sets { f with cmdBase := BitVec.ofNat 64 (f.cmdBase.toNat / 2 ^ 32 * 2 ^ 32 + n / 64 * 64) }) ∧
      (whole → off = 0x24 → sets { f with cmdBase := BitVec.ofNat 64 (n * 2 ^ 32 + f.cmdBase.toNat % 2 ^ 32) }) ∧
      (whole → off = 0x28 → sets { f with cplBase := BitVec.ofNat 64 (f.cplBase.toNat / 2 ^ 32 * 2 ^ 32 + n / 32 * 32) }) ∧
      (whole → off = 0x2C → sets { f with cplBase := BitVec.ofNat 64 (n * 2 ^ 32 + f.cplBase.toNat % 2 ^ 32) }) ∧
      (whole → off = 0x44 → sets { f with irqCpl := BitVec.ofNat 32 n &&& 0x803FFFFF }) ∧
      (whole → off = 0x48 → sets { f with irqEvt := BitVec.ofNat 32 n &&& 0x803F0000 }) ∧
      (whole → 0x1040 ≤ off → off < 0x1080 → sets { f with mbxReq := splice f.mbxReq (off - 0x1040) (natLE 4 n) }) ∧
      (whole → 0x1100 ≤ off → off < 0x1900 → sets { f with mbxData := putBytes f.mbxData (off - 0x1100) (natLE 4 n) }) ∧
      (whole → msix ≤ off → off < msix + 16 * f.vectors →
        let g := { f with msix := f.msix.set ((off - msix) / 4) (BitVec.ofNat 32 n) }
        let vec := (off - msix) / 16
        (f.pba.contains vec = false ∨ g.masked vec = true → sets g) ∧
        (f.pba.contains vec = true → g.masked vec = false → Completes (.registerWrite fn off 4 w) s (fun t =>
          t = (s.setFunc fn { g with pba := f.pba.filter (· != vec) }).emit (.msix fn vec)))) ∧
      (whole → off ∉ [0x20, 0x24, 0x28, 0x2C, 0x44, 0x48] → (off < 0x1040 ∨ 0x1080 ≤ off ∧ off < 0x1100 ∨ 0x1900 ≤ off ∧ off < msix ∨ msix + 16 * f.vectors ≤ off) →
        Completes (.registerWrite fn off 4 w) s fun t => t = s) ∧
      (s.takesWrites fn = true → accessOk fn off 8 f.vectors = true → Completes (.registerWrite fn off 8 w) s fun t =>
        ∃ s1, Completes (.registerWrite fn off 4 w) s (fun z => z = s1) ∧
          Completes (.registerWrite fn (off + 4) 4 (BitVec.ofNat 64 (w.toNat / 2 ^ 32))) s1 (fun z => z = t)) ∧
      (f.unsignalled ≠ 0 → f.irqCpl.getLsbD 31 = true → f.irqCpl.toNat % 256 ≠ 0 → Completes (.completionIrqDelay fn) s fun t =>
        (t.func fn).unsignalled = 0 ∧ t = (s.setFunc fn { f with unsignalled := 0 }).msix fn (f.irqCpl.toNat / 65536 % 64)) ∧
      (f.unsignalled = 0 ∨ f.irqCpl.getLsbD 31 = false ∨ f.irqCpl.toNat % 256 = 0 → Completes (.completionIrqDelay fn) s fun t => t = s) ∧
      (Completes (.dmaFault fn .fetch) s fun t => (t.func fn).ringError = true ∧ (t.func fn).errReason = 5 ∧ (t.func fn).errIndex = f.cmdHead) ∧
      (Completes (.dmaFault fn .completionWrite) s fun t => (t.func fn).ringError = true ∧ (t.func fn).errReason = 6 ∧ (t.func fn).cplLost = true) ∧
      (Completes (.dmaFault fn .responseWrite) s fun t => t = { s with pcie := { s.pcie with respFault := s.pcie.respFault ++ [fn] } }) ∧
      ((s.ringFlight fn).find? (fun x => !x.started) = some x → Completes (.dmaFault fn .requestRead) s fun t => t = s.reject x.cmd cBufferFault) ∧
      ((s.ringFlight fn).find? (fun x => !x.started) = .none → Completes (.dmaFault fn .requestRead) s fun t => t = s) ∧
      (s.power.porst = true → Completes (.flr fn) s fun t => t = s) ∧
      (s.power.porst = false → fn = 0 ∨ f.state = .unassigned ∨ f.state = .restoring → Completes (.flr fn) s fun t => t = s.setFunc fn f.rwReset) ∧
      (s.power.porst = false → fn ≠ 0 → f.state ≠ .unassigned → f.state ≠ .restoring → Completes (.flr fn) s fun t =>
        t = (s.setFunc fn f.rwReset).startReset fn [] false)) ∧
  (∀ (s : State) (fn n l : Nat) (enable : Bool) (r : ResetRun), fnOk fn = true → n < 1024 →
      let f := s.func fn
      let up := s.power.porst = false
      let busy := (s.lanesOfColour f.colour).any fun l => (s.lane l).cause == .instanceReset && (s.lane l).state != .closed
      let rests := f.state = .freezing ∧ s.colourAtRest f.colour = true ∧ (s.pcie.inFlight.any fun x => x.cmd.fn == fn) = false
      (¬up → ∀ c ∈ [Instr.d3hotEntry, .d3hotExit, .vfEnableSet n, .vfEnableClear n enable], Completes c s fun t => t = s) ∧
      (up → Completes .d3hotEntry s fun t => t = { s with pcie := { s.pcie with d3hot := true } }) ∧
      (up → Completes .d3hotExit s fun t => t = { s with pcie := { s.pcie with d3hot := false } }) ∧
      (up → Completes (.vfEnableSet n) s (fun t => t.pcie.vfEnable = true ∧ t.pcie.numVfs = n ∧
        t = s.tenancy.parts.foldl (fun y q => if q.2.vf ≤ n then y.assignVf (BitVec.ofNat 12 q.1) q.2 else y)
          (({ s with pcie := { s.pcie with vfEnable := true, numVfs := n } }).vfsVanish (s.functions.filter fun g => g != 0 && decide (n < g))))) ∧
      (up → Completes (.vfEnableClear n enable) s (fun t => t.pcie.vfEnable = (enable && s.pcie.vfEnable) ∧ t.pcie.numVfs = min n s.pcie.numVfs ∧
        t = ({ s with pcie := { s.pcie with vfEnable := enable && s.pcie.vfEnable, numVfs := min n s.pcie.numVfs } }).vfsVanish
          (s.functions.filter fun g => g != 0 && (!enable || decide (n < g))))) ∧
      (f.resetRun = some r → r.squashDone = false → Completes (.instanceResetSquash fn) s fun t =>
        t = ((s.resetSquash fn fun st => st == .draining).endCommands fn).modFunc fn fun f =>
          { f with resetRun := f.resetRun.map fun r => { r with squashDone := true } }) ∧
      (f.resetRun = .none ∨ f.resetRun = some r ∧ r.squashDone = true → Completes (.instanceResetSquash fn) s fun t => t = s) ∧
      (f.resetRun = some r → r.squashDone = true → busy = false → Completes (.instanceResetDone fn) s fun t =>
        (t.func fn).rstSerial = f.rstSerial + 1 ∧ (t.func fn).resetRun = .none ∧
        (t.func fn).rstItemsDrained = BitVec.ofNat 32 r.drained ∧ (t.func fn).rstItemsSquashed = BitVec.ofNat 32 r.squashed ∧
        (t.func fn).rstCmdsDrained = BitVec.ofNat 32 r.cmdsDrained ∧ (t.func fn).rstCmdsSquashed = BitVec.ofNat 32 r.cmdsSquashed ∧
        (t.func fn).rstStreams = BitVec.ofNat 32 r.streams ∧ (t.func fn).rstTime = BitVec.ofNat 32 ((s.now - r.start) / 100) ∧
        (r.waiting = [] → (t.func fn).state = .active ∧ (t.func fn).event.getLsbD 2 = true)) ∧
      (f.resetRun = .none ∨ f.resetRun = some r ∧ (r.squashDone = false ∨ busy = true) → Completes (.instanceResetDone fn) s fun t => t = s) ∧
      (rests → Completes (.freezeAtRest fn) s fun t => (t.func fn).state = .frozen ∧ (t.func fn).freezeCmd = .none ∧ (t.func fn).event.getLsbD 3 = true) ∧
      (¬rests → Completes (.freezeAtRest fn) s fun t => t = s) ∧
      (laneOk l = true → (s.lane l).state = .draining ∨ (s.lane l).state = .squashing → s.laneBusy l = false →
        Completes (.laneEmpty l) s fun t => t = s.closeLane l) ∧
      (laneOk l = true → (s.lane l).state ≠ .draining ∧ (s.lane l).state ≠ .squashing ∨ s.laneBusy l = true →
        Completes (.laneEmpty l) s fun t => t = s) ∧
      ((s.lane l).cause ∉ [.deletion, .tamper, .class3] → (s.closeLane l) = s.setLane l { s.lane l with state := .closed }) ∧
      ((s.lane l).cause = .deletion → (s.closeLane l).lanes = s.lanes.erase l))

/-- What a completion delivers (R328, R331-R333, Table 10.6): an admitted command that runs ends with one completion of its own tag, code and
ticket; the mailbox is no longer busy and DONE is set; on a ring whose completions are usable the tail moves on and the phase turns over at
index 0.

The order of the checks of a command (R349, Tables 11.1, 11.2, 11.10): an unassigned VF, a command the function may not issue, a device
state that does not allow it, a malformed body and a ticket in use complete with their codes and have no effect; a
journalled command waits for room in the anchor log (R259), any command for the one that acts on its object (R351) and for a read of H.DRBG
that stalls (R417); any other has its effect. -/
def Obligations.CommandsAnswered : Prop :=
  (∀ (s : State) (c : Cmd) (code : Nat) (effect : Bool) (rsp : Bytes) (detail : Word) (j : Bool),
      let t := s.reply c code effect rsp detail j
      let f := s.func c.fn
      let size := 2 ^ f.cplLog2
      (c.via = .mailbox → (t.func c.fn).mbxBusy = false ∧ (t.func c.fn).mbxDone = true ∧
        (t.func c.fn).mbxCpl = completionBytes c code true effect rsp.length detail ∧
        Output.completion c.fn .mailbox (completionBytes c code true effect rsp.length detail) (rsp.take c.rspLen) 0 ∈ t.out) ∧
      (c.via = .ring → f.cplUsable = true →
        (t.func c.fn).cplTail = BitVec.ofNat 16 ((f.cplTail.toNat + 1) % size) ∧
        (t.func c.fn).phase = (if (f.cplTail.toNat + 1) % size = 0 then !f.phase else f.phase) ∧
        Output.completion c.fn .ring (completionBytes c code f.phase effect rsp.length detail) (rsp.take c.rspLen) c.rspAddr ∈ t.out) ∧
      (c.via = .ring → f.cplUsable = false → t.out = s.out) ∧ t.journal = s.journal ∧ t.mem = s.mem) ∧
  (∀ (s : State) (op : Nat) (c : Cmd) (wf : Bool) (sp : Spec) (effect : Spec → State → State), fnOk c.fn = true → specOf op = some sp →
      let f := s.func c.fn
      let gives := fun (code : Nat) => runCmd op c wf s effect = .next (s.reject c code)
      let assigned := ¬(c.fn ≠ 0 ∧ f.state = .unassigned)
      let permitted := assigned ∧ ¬(c.fn ≠ 0 ∧ (sp.pf = true ∨ c.colour ≠ f.colour)) ∧ ¬(c.fn = 0 ∧ sp.onColour = false ∧ c.colour ≠ 0)
      let ready := permitted ∧ sp.states.ok s.power.dev = true
      let formed := ready ∧ wf = true ∧ ¬(sp.journal = true ∧ c.ticket = 0)
      (¬assigned → gives cUnassigned) ∧ (assigned → ¬permitted → gives cNotPermitted) ∧ (permitted → ¬ready → gives cNotReady) ∧
      (ready → ¬formed → gives cMalformed) ∧ (formed → sp.journal = true → s.journal.ticketInUse c.colour c.ticket = true → gives cTicketInUse) ∧
      (formed → sp.journal = true → s.journal.ticketInUse c.colour c.ticket = false → s.journal.intentRoom = false →
        runCmd op c wf s effect = .next { s with journal := { s.journal with waits := s.journal.waits + 1 } }) ∧
      (formed → (sp.journal = true → s.journal.ticketInUse c.colour c.ticket = false ∧ s.journal.intentRoom = true) →
        runCmd op c wf s effect = .next (if s.waits op c then s else effect sp s)))

/-- The device and fault commands (Tables 11.3, 10.8, 17.4): DEVICE.INFO and DEVICE.STATUS answer what the device is and how it does;
DEVICE.RESET asks for the warm reset; DEVICE.STANDBY waits for every tenant lane to be CLOSED; FAULT.READ takes its messages out of the queue;
FAULT.CLEAR clears a fault whose cause is gone. -/
def Obligations.DeviceCommands : Prop :=
  ∀ (s : State) (c : Cmd) (sp : Spec) (a : Active),
    (Admitted 0x0101 sp c s → c.body = [] → Completes (.deviceInfo c) s (Answered sp c s
      (natLE 16 Config.deviceId.toNat ++ [1, Config.berconMinor] ++ natLE 2 Config.berconBuild.toNat ++
        [0xB1, s.lc.code, s.lc.gen, s.tenancy.profile.byte] ++ natBE 48 s.power.running.toNat ++ List.replicate 8 0))) ∧
    (Admitted 0x0102 sp c s → c.body = [] → Completes (.deviceStatus c) s fun t => ∃ rsp, Answered sp c s.drawn rsp t ∧
      rsp.take 4 = [BitVec.ofNat 8 s.power.dev.code, 0, 0, 0] ∧ rsp.length = 24) ∧
    (Admitted 0x0103 sp c s → c.body = [] → Completes (.deviceReset c) s
      (Answered sp c { s with power := { s.power with resetDue := true } } [])) ∧
    (Admitted 0x0104 sp c s → c.body = [] → (s.tenantLanes.any fun l => (s.lane l).state != .closed) = true →
      Completes (.deviceStandby c) s fun t => t = s.reject c cBadState) ∧
    (Admitted 0x0104 sp c s → c.body = [] → (s.tenantLanes.any fun l => (s.lane l).state != .closed) = false → s.steward.holds = [] →
      Completes (.deviceStandby c) s fun t => t = (s.begin sp c).startStandby c) ∧
    (Admitted 0x0F01 sp c s → c.body.length = 8 → zeroAt c.body 1 7 = true → 1 ≤ fieldLE c.body 0 1 → fieldLE c.body 0 1 ≤ 64 →
      Completes (.faultRead c) s fun t => t.faults.queue = s.faults.queue.drop (fieldLE c.body 0 1) ∧ t.faults.active = s.faults.active ∧
        t.faults.overflow = s.faults.overflow) ∧
    (Admitted 0x0F02 sp c s → c.body.length = 8 → zeroAt c.body 4 4 = true → s.faults.activeFault (clearNames c.body) = some a →
      s.cause a = .gone → Completes (.faultClear c) s (Answered sp c (s.clearActive (clearNames c.body)) [])) ∧
    (Admitted 0x0F02 sp c s → c.body.length = 8 → zeroAt c.body 4 4 = true → s.faults.activeFault (clearNames c.body) = some a →
      s.cause a = .present → Completes (.faultClear c) s fun t => t = s.reject c cBadState)

/-- The partition commands (R373-R378, Table 11.4): each journals its change of the colour's configuration between an INTENT and a COMMIT,
raises the colour's serial, and completes OK; PART.CREATE, which tags granules, waits for a gate that drains and completes when the H.MEM
gate has drained (R369); PART.DELETE starts the end of the colour's lanes; PART.STATUS answers the partition. -/
def Obligations.PartitionCommands : Prop :=
  ∀ (s : State) (c : Cmd) (sp : Spec) (p : Part) (gs : List Nat),
    let b := c.body
    let run := (s.begin sp c).cmdAccepted c sp.op
    let n := s.cfgSerial c.colour
    (Admitted 0x0201 sp c s → b.length = 8 → zeroAt b 1 7 = true → fieldLE b 0 1 = 0 → s.tenancy.parts = [] → Completes (.partFormat c) s fun t =>
      t.tenancy.profile = .compact ∧ t.cfgSerial c.colour = n + 1) ∧
    (Admitted 0x0201 sp c s → b.length = 8 → zeroAt b 1 7 = true → fieldLE b 0 1 = 1 → s.tenancy.parts = [] → Completes (.partFormat c) s fun t =>
      t.tenancy.profile = .wide ∧ t.cfgSerial c.colour = n + 1) ∧
    (let x : Creation := { lanes := fieldLE b 0 1, policy := fieldLE b 2 2, caddy := fieldLE b 4 4, quota := fieldLE b 8 8,
                           space := fieldLE b 16 8, map := fieldLE b 24 16, fn := 0, share := 32, vectors := 0, vault := 0 }
     Admitted 0x0202 sp c s → b.length = 40 → zeroAt b 1 1 = true → x.wellFormed (s.tenancy.profile == .wide) = true →
      s.tenancy.profile ≠ .unformatted → x.inRange (s.tenancy.profile == .wide) c.colour = true → s.part? c.colour = .none →
      s.poolsGive x = some gs → Completes (.partCreate c) s fun t =>
        t = if (s.gate 36).draining then s else (run.configured c fun s => (s.createPart c.colour x gs).flipTags).awaitRules 36 c) ∧
    (Admitted 0x0204 sp c s → b.length = 8 → zeroAt b 2 6 = true → fieldLE b 0 2 < 256 → s.part? c.colour = some p →
      s.policyConflict c.colour (BitVec.ofNat 16 (fieldLE b 0 2)) = false → Completes (.partPolicy c) s fun t =>
        (∃ q, t.part? c.colour = some q ∧ q = { p with policy := BitVec.ofNat 16 (fieldLE b 0 2) }) ∧ t.cfgSerial c.colour = n + 1) ∧
    (Admitted 0x0206 sp c s → b = [] → c.colour ≠ 0 → s.part? c.colour = some p → Completes (.partStatus c) s
      (Answered sp c s (s.partStatus c.colour p))) ∧
    (Admitted 0x0203 sp c s → b.length = 8 → fieldLE b 0 1 < 2 → zeroAt b 1 7 = true → s.part? c.colour = some p → p.vf = 0 → p.extent = .none →
      p.deleting = .none → Completes (.partDelete c) s fun t =>
        t = (run.setPart c.colour { p with deleting := some c }).endLanes c.colour (bit (fieldLE b 0 1) 0)) ∧
    (Admitted 0x0203 sp c s → b.length = 8 → fieldLE b 0 1 < 2 → zeroAt b 1 7 = true → s.part? c.colour = .none →
      Completes (.partDelete c) s fun t => t = s.reject c cNotFound)

/-- The VF commands (R323, R337-R341, Table 11.4): VF.CREATE makes the colour's partition and activates its function; VF.DESTROY and VF.RESET
start an instance reset that their completion waits for; VF.FREEZE begins to freeze, VF.THAW goes on; VF.SAVE answers a piece of the package;
VF.RESTORE stages a piece; VF.STATUS answers the function. -/
def Obligations.FunctionCommands : Prop :=
  ∀ (s : State) (c : Cmd) (sp : Spec) (gs : List Nat),
    let b := c.body
    let fn := fieldLE b 0 2
    let run := (s.begin sp c).cmdAccepted c sp.op
    (let x : Creation := { fn := fn, lanes := fieldLE b 2 1, share := fieldLE b 3 1, vectors := fieldLE b 4 1, caddy := fieldLE b 8 4,
                           vault := fieldLE b 12 4, quota := fieldLE b 16 8, policy := fieldLE b 24 2, space := fieldLE b 32 8, map := fieldLE b 40 16 }
     Admitted 0x0301 sp c s → b.length = 56 → zeroAt b 5 3 = true → zeroAt b 26 6 = true → x.wellFormed (s.tenancy.profile == .wide) = true →
      s.tenancy.profile ≠ .unformatted → x.inRange (s.tenancy.profile == .wide) c.colour = true → x.vfInRange = true → s.part? c.colour = .none →
      (s.func fn).state = .unassigned → s.functions.contains fn = true → s.poolsGive x = some gs → Completes (.vfCreate c) s fun t =>
        t = if (s.gate 36).draining then s else (run.configured c fun s =>
          ((s.createPart c.colour x gs).flipTags).modFunc fn fun f => { f with state := .active, colour := c.colour, vectors := x.vectors }).awaitRules 36 c) ∧
    (Admitted 0x0302 sp c s → fnBodyOk b = true → s.vfFails c fn = .none → Completes (.vfDestroy c) s fun t => t = run.startReset fn [c] true) ∧
    (Admitted 0x0303 sp c s → fnBodyOk b = true → s.vfFails c fn = .none → Completes (.vfReset c) s fun t =>
      t = (s.begin sp c).startReset fn [c] false) ∧
    (let y := (s.begin sp c).modFunc fn fun f => { f with state := .freezing, freezeCmd := some c }
     let z := (y.lanesOfColour c.colour).foldl (fun s l =>
       if (s.lane l).state = .opened ∨ (s.lane l).state = .draining then s.laneTo l .frozen .none else s) y
     let w := (z.markStreams c.colour true).requeueSaved c.colour
     Admitted 0x0304 sp c s → fnBodyOk b = true → s.vfFails c fn = .none →
      ((s.func fn).state = .active → Completes (.vfFreeze c) s fun t => t = (w.parkedSeats c.colour).foldl State.suspendSeat w) ∧
      ((s.func fn).state ≠ .active → Completes (.vfFreeze c) s fun t => t = s.reject c cBadState)) ∧
    (Admitted 0x0305 sp c s → fnBodyOk b = true → s.vfFails c fn = .none → (s.func fn).state = .frozen → Completes (.vfThaw c) s
      (Answered sp c ((((s.modFunc fn fun f => { f with state := .active }).markStreams c.colour false).lanesOfColour c.colour |>.filter fun l =>
          ((((s.modFunc fn fun f => { f with state := .active }).markStreams c.colour false).lane l).state == .frozen)).foldl
        (fun s l => s.laneTo l .opened .none) ((s.modFunc fn fun f => { f with state := .active }).markStreams c.colour false)) [])) ∧
    (Admitted 0x0306 sp c s → b.length = 40 → zeroAt b 2 6 = true → zeroAt b 36 4 = true → s.vfFails c fn = .none →
      fieldLE b 32 4 ≤ 16777216 → Completes (.vfSave c) s fun t => match s.packageOf fn (BitVec.ofNat 128 (fieldLE b 8 16)) with
        | .ok (s1, pkg) => if fieldLE b 24 8 < pkg.length then Answered sp c s1 (slice pkg (fieldLE b 24 8) (fieldLE b 32 4)) t
            else t = s.reject c cInvalid
        | .error code => t = s.reject c code) ∧
    (let piece := b.drop 24
     Admitted 0x0307 sp c s → 24 ≤ b.length → zeroAt b 2 2 = true → fn ≠ 0 → fn ≤ 1023 → piece.length ≤ 16777216 → fieldLE b 4 2 ≠ 0 →
      (s.func fn).state = .unassigned → (s.func fn).staged = [] → (s.func fn).stagedTotal = 0 → s.returnOk c.colour 0 (fieldLE b 4 2) = true →
      s.returnOk c.colour 1 (fieldLE b 6 2) = true → fieldLE b 8 8 = 0 → piece ≠ [] → piece.length < fieldLE b 16 8 →
      Completes (.vfRestore c) s fun t => if fieldLE b 16 8 ≤ Config.stagingFree then
        (t.func fn).staged = piece ∧ (t.func fn).stagedTotal = fieldLE b 16 8 ∧ (t.func fn).state = .unassigned
        else t = s.reject c cExhausted) ∧
    (Admitted 0x0308 sp c s → fnBodyOk b = true → fn ≤ 1023 → Completes (.vfStatus c) s (Answered sp c s
      (natLE 1 (s.func fn).state.code ++ [0] ++ natLE 2 (s.func fn).colour.toNat ++ natLE 1 (s.func fn).vectors ++ [0, 0, 0])))

/-- The life-cycle, tamper, reserve and recorder commands (R465, R449, R459, R513, R491, Table 11.3): the statuses answer what the part holds;
LC.STATUS and LC.ADVANCE compare the life-cycle decode with its shadow first (R462); LC.ADVANCE and LC.REPROVISION start their transition under an authorisation, which they use up; TAMPER.CONFIG sets the source, its shadow and
the copy in MRAM; RESERVE.ENGAGE queues an engagement; RECORDER.READ answers records in order. -/
def Obligations.GuardCommands : Prop :=
  ∀ (s s1 : State) (c : Cmd) (sp : Spec),
    let b := c.body
    let k := fieldLE b 0 1 / 16 * 9 + fieldLE b 0 1 % 16
    (Admitted 0x0D01 sp c s → b = [] → Completes (.lcStatus c) s (Answered sp c s.useLifecycle
      ([s.lc.code, s.lc.gen, BitVec.ofNat 8 (lcCycles s.lc.code.toNat)] ++ List.replicate 5 0))) ∧
    (Admitted 0x0D02 sp c s → b.length = 16 → zeroAt b 1 7 = true → lcAdvances s.lc.code.toNat (fieldLE b 0 1) = true →
      s.useLifecycle.useAuth 0x0D02 8 b = some s1 → s1.lc.moving = .none → Completes (.lcAdvance c) s fun t =>
        t = (s1.begin sp c).lcBegin (fieldLE b 0 1) (some c)) ∧
    (Admitted 0x0D02 sp c s → b.length = 16 → zeroAt b 1 7 = true → lcAdvances s.lc.code.toNat (fieldLE b 0 1) = true →
      s.useLifecycle.useAuth 0x0D02 8 b = .none → Completes (.lcAdvance c) s fun t => t = s.useLifecycle.reject c cAuthorisation) ∧
    (Admitted 0x0D03 sp c s → b.length = 8 → s.useAuth 0x0D03 0 b = some s1 → s1.lc.moving = .none →
      s1.entropy.draws.contains (.direct true) = false → Completes (.lcReprovision c) s fun t => t = (s1.begin sp c).askDirect true) ∧
    (Admitted 0x0D04 sp c s → b = [] → Completes (.tamperStatus c) s (Answered sp c s
      (natLE 4 s.stickyFlags ++ natLE 2 s.tamper.hx3 ++ [0, 0] ++ (List.range 16).flatMap fun n => natLE 4 (s.alarmCount n).toNat))) ∧
    (let n := fieldLE b 0 1
     let x : SourceCfg := { rank := fieldLE b 1 1, n := fieldLE b 2 1, m := fieldLE b 4 2, period := fieldLE b 6 2 }
     Admitted 0x0D05 sp c s → b.length = 16 → zeroAt b 3 1 = true → x.ok n = true → s.useAuth 0x0D05 8 b = some s1 →
      Completes (.tamperConfig c) s fun t => (t.source n).cfg = x ∧ (t.source n).shadow = x ∧ (t.source n).window = [] ∧
        t.tamper.mramCfg.find? n = some x) ∧
    (Admitted 0x0E01 sp c s → b = [] → Completes (.reserveStatus c) s fun t => ∃ rsp, Answered sp c s rsp t ∧ rsp.length = 148) ∧
    (Admitted 0x0E02 sp c s → b.length = 8 → zeroAt b 1 7 = true → fieldLE b 0 1 < 64 → fieldLE b 0 1 % 16 < 9 →
      (s.cluster k).state = .inService → (s.pickReserve k).isSome = true → Completes (.reserveEngage c) s fun t =>
        t = (s.begin sp c).queueEngagement k 0 (some c)) ∧
    (Admitted 0x1001 sp c s → b.length = 8 → zeroAt b 6 2 = true → 1 ≤ fieldLE b 4 2 → fieldLE b 4 2 ≤ 256 → fieldLE b 0 4 < 1024 →
      let n := min (fieldLE b 4 2) (1024 - fieldLE b 0 4)
      Completes (.recorderRead c) s (Answered sp c s (natLE 2 n ++ [0, 0] ++ natLE 4 (fieldLE b 0 4 + n) ++
        (List.range n).flatMap fun i => (s.recorder.records.get (fieldLE b 0 4 + i) Rec.blank).bytes (fieldLE b 0 4 + i))))

/-- The lane and Depot commands (R96, R110, R112, R118, Tables 3.8, 11.4): LANE.CONFIG changes the fields its mask names, DEPOT.SET the warm
floor and the sleep delay, and the statuses answer. -/
def Obligations.LaneCommands : Prop :=
  ∀ (s : State) (c : Cmd) (sp : Spec) (l : Nat),
    let b := c.body
    (Admitted 0x0801 sp c s → b.length = 12 → fieldLE b 1 1 = 1 → fieldLE b 3 1 = 0 → fieldLE b 4 4 = 0 → fieldLE b 8 4 = 0 →
      s.laneOf c.colour (fieldLE b 0 1) = some l → 1 ≤ fieldLE b 2 1 → fieldLE b 2 1 ≤ 7 → 64 ≤ (s.lane l).quota → (s.lane l).quota ≤ 16384 →
      (s.lane l).quota ≤ (s.lane l).window → (s.lane l).window ≤ 1048576 → (s.lane l).state = .opened → Completes (.laneConfig c) s
        (Answered sp c ((s.setLane l { s.lane l with level := fieldLE b 2 1 }).creditColour c.colour) [])) ∧
    (Admitted 0x0802 sp c s → b.length = 8 → zeroAt b 1 7 = true → s.laneOf c.colour (fieldLE b 0 1) = some l → Completes (.laneStatus c) s
      fun t => ∃ rsp, Answered sp c s rsp t ∧
        rsp.take 4 = [BitVec.ofNat 8 (s.lane l).state.code, BitVec.ofNat 8 (s.lane l).level, BitVec.ofNat 8 (s.lane l).placement.length, 0]) ∧
    (Admitted 0x0802 sp c s → b.length = 8 → zeroAt b 1 7 = true → s.laneOf c.colour (fieldLE b 0 1) = .none → Completes (.laneStatus c) s
      fun t => t = s.reject c cInvalid) ∧
    (Admitted 0x0803 sp c s → b.length = 8 → zeroAt b 1 3 = true → fieldLE b 0 1 ≤ 32 → 20 ≤ fieldLE b 4 4 → fieldLE b 4 4 ≤ 100000 →
      Completes (.depotSet c) s fun t => t.depot.warmFloor = fieldLE b 0 1 ∧ t.depot.sleepDelay = fieldLE b 4 4) ∧
    (Admitted 0x0804 sp c s → b = [] → Completes (.depotStatus c) s fun t => ∃ rsp, Answered sp c s rsp t ∧ rsp.length = 160 ∧
      rsp.take 8 = natLE 4 ((s.depot.items.map (·.cells.length)).sum) ++ natLE 4 s.depot.retired.length) ∧
    (Admitted 0x0805 sp c s → b = [] → Completes (.placeStatus c) s fun t => ∃ rsp, Answered sp c s rsp t ∧
      rsp.length = 576)

/-- The key commands (R181, R193, R196, R206-R210, Table 11.5): KEY.PUT takes its records and counts them; KEY.GET and KEY.LIST answer
records; KEY.GENERATE makes a symmetric key at once and an asymmetric one by a KEYGEN job of the Steward's own (R160); KEY.IMPORT makes one,
and KEY.SETATTR narrows one; KEY.DELETE leaves a tombstone of its version; KEY.EXPORT answers a
key block; CADDY.STATUS the caddy's counts.

The carry and a partition's re-key (R186, R213-R216): KEY.CARRY.OPEN under an authorisation with a verified image staged measures it and
lists the tins; KEY.CARRY.READ answers the next ones and moves the position; PART.REKEY raises the partition's epoch and waits for its
re-wrap; CEREMONY.OMK and the others are stated with their chapters. -/
def Obligations.KeyCommands : Prop :=
  (∀ (s s1 : State) (c : Cmd) (sp : Spec) (t0 : Tin) (e0 : Bytes) (k wk : Key) (m pub : Bytes),
      let b := c.body
      let h := BitVec.ofNat 64 (fieldLE b 0 8)
      (∀ rs, Admitted 0x0401 sp c s → 8 ≤ b.length → zeroAt b 4 4 = true → putRecords (fieldLE b 0 4) (b.drop 8) = some rs →
        let r := ((s.begin sp c).cmdAccepted c sp.op).putAll c rs
        r.2.refused = .none → Completes (.keyPut c) s (Answered sp c r.1.keyArrived
          (natLE 4 r.2.accepted ++ natLE 4 0xFFFFFFFF ++ natLE 2 0 ++ List.replicate 6 0))) ∧
      (Admitted 0x0402 sp c s → b.length = 8 + 8 * fieldLE b 0 4 → zeroAt b 4 4 = true → Completes (.keyGet c) s (Answered sp c s
        ((chunks 8 (b.drop 8)).flatMap fun x => match s.record c.colour (BitVec.ofNat 64 (leNat x)) with
          | some (t, e) => recordBytes t e
          | .none => List.replicate 128 0))) ∧
      (Admitted 0x0403 sp c s → b.length = 16 → zeroAt b 12 4 = true → Completes (.keyList c) s fun t => ∃ rsp, Answered sp c s rsp t ∧
        rsp.take 4 = natLE 4 ((s.recordsFrom c.colour (fieldLE b 0 8)).take (fieldLE b 8 4)).length) ∧
      (let a := s.askedAttrs c.colour b
       Admitted 0x0404 sp c s → b.length = 40 → fieldLE b 9 1 % 64 = 0 → fieldLE b 9 1 < 128 →
        maskOk (fieldLE b 12 2) (fieldLE b 14 2) (fieldLE b 16 2) = true → zeroAt b 18 6 = true → zeroAt b 36 4 = true →
        s.newHandleFails c.colour h = .none →
        (∀ n, symmetricLen a.ktype.toNat s.free = some n → a.param = 0 → s.keyRoom c.colour h (recordSize a.ktype n) = true →
          Completes (.keyGenerate c) s fun t => match ((s.drawn.hubRead n).begin sp c).makeOne c sp.op h a (s.drawn.hubBytes n) with
            | some s2 => Answered sp c s2 (s2.madeBytes c.colour h) t
            | .none => t = s.reject c cBadState) ∧
        (symmetricLen a.ktype.toNat s.free = .none → jobMakes a = true →
          s.keyRoom c.colour h (recordSize a.ktype (privateLen a.param.toNat)) = true →
          Completes (.keyGenerate c) s fun t => t = ((s.begin sp c).cmdAccepted c sp.op).submitOwn c 0x50 (keygenJob a)) ∧
        (s.inFlight c = true → s.keyRoom c.colour h (recordSize a.ktype m.length) = true → s.storeOne c h a m = some s1 →
          s.ownEnds c 0x50 0 pub m = s1.finishLater generateSpec c cOk (s1.madeBytes c.colour h ++ pub) 0)) ∧
      (Admitted 0x0405 sp c s → b.length = 8 → ¬(c.colour = 0 ∧ systemHandle h = true) → s.record c.colour h = some (t0, e0) →
        Completes (.keyDelete c) s fun t => t.keys.warm.find? h.toNat = some (.tombstone t0.version)) ∧
      (Admitted 0x0405 sp c s → b.length = 8 → ¬(c.colour = 0 ∧ systemHandle h = true) → s.record c.colour h = .none →
        Completes (.keyDelete c) s fun t => t = s.reject c cNotFound) ∧
      (let a := { k.attrs with engine := BitVec.ofNat 6 (fieldLE b 8 2), derivedEngine := BitVec.ofNat 6 (fieldLE b 8 2 / 256),
                               usage := BitVec.ofNat 16 (fieldLE b 10 2), derivedUsage := BitVec.ofNat 16 (fieldLE b 12 2),
                               libOnly := bit (fieldLE b 14 1) 6, notBefore := BitVec.ofNat 48 (fieldLE b 16 6),
                               notAfter := BitVec.ofNat 48 (fieldLE b 22 6) }
       Admitted 0x0406 sp c s → b.length = 32 → fieldLE b 14 1 % 64 = 0 → fieldLE b 14 1 < 128 →
        maskOk (fieldLE b 8 2) (fieldLE b 10 2) (fieldLE b 12 2) = true → zeroAt b 15 1 = true → zeroAt b 28 4 = true →
        ¬(c.colour = 0 ∧ systemHandle h = true) → s.tinShut c.colour h = false → s.record c.colour h = some (t0, e0) →
        s.recordKey c.colour h = some k →
        (a.narrows k.attrs = false → Completes (.keySetattr c) s fun t => t = s.reject c 0x0102) ∧
        (a.narrows k.attrs = true → Completes (.keySetattr c) s fun t =>
          match (((s.begin sp c).cmdAccepted c sp.op).cmdIntent c 2 h t0.version.toNat).makeRecord t0.context h a (t0.version + 1) k.material with
          | some s1 => Answered sp c (s1.cmdCommit c 2 h (t0.version.toNat + 1))
              (((s1.cmdCommit c 2 h (t0.version.toNat + 1)).madeBytes c.colour h).take 128) t
          | .none => t = s.reject c cBadState)) ∧
      (let h2 := BitVec.ofNat 64 (fieldLE b 8 8)
       Admitted 0x0407 sp c s → b.length = 24 + fieldLE b 16 2 → zeroAt b 18 6 = true → s.newHandleFails c.colour h2 = .none →
        s.recordKey c.colour h = some wk → wk.attrs.within s.time = true → s.keyRoom c.colour h2 128 = true →
        Completes (.keyImport c) s fun t => match kbImport wk c.colour s.lc.gen (b.drop 24) with
          | .none => t = s.reject c 0x0103
          | some k => match (s.begin sp c).makeOne c sp.op h2 k.attrs k.material with
            | some s1 => Answered sp c s1 (s1.madeBytes c.colour h2) t
            | .none => t = s.reject c cBadState) ∧
      (let w := BitVec.ofNat 64 (fieldLE b 8 8)
       Admitted 0x0408 sp c s → b.length = 16 → s.tinShut c.colour h = false → s.tinShut c.colour w = false → s.recordKey c.colour h = some k →
        s.recordKey c.colour w = some wk → k.attrs.libOnly = false → k.attrs.within s.time = true → wk.attrs.within s.time = true →
        Completes (.keyExport c) s fun t => if kbMayExport wk k = true then
          Answered sp c (s.kbExport wk k).2 (natLE 2 (s.kbExport wk k).1.length ++ List.replicate 6 0 ++ (s.kbExport wk k).1) t
          else t = s.reject c 0x0103) ∧
      (Admitted 0x040B sp c s → b = [] → Completes (.caddyStatus c) s fun t => ∃ rsp, Answered sp c s rsp t ∧ rsp.length = 48)) ∧
  (∀ (s s1 : State) (c : Cmd) (sp : Spec) (y : Carry) (p : Part),
      let b := c.body
      (Admitted 0x0409 sp c s → b.length = 8 → s.keys.carry = .none → s.useAuth 0x0409 0 b = some s1 → s1.power.stagedState = 2 →
        s1.omk.isSome = true → Completes (.keyCarryOpen c) s fun t =>
          ∃ z, t.keys.carry = some z ∧ z.position = 0 ∧ z.stream = s1.warmTins ∧ z.measurement = BitVec.ofNat 384 (beNat (sha384 s1.power.staged))) ∧
      (Admitted 0x0409 sp c s → b.length = 8 → s.keys.carry = some y → Completes (.keyCarryOpen c) s fun t =>
        t = ((s.useAuth 0x0409 0 b).getD s).reject c cBadState) ∧
      (Admitted 0x040A sp c s → b.length = 16 → zeroAt b 12 4 = true → s.keys.carry = some y → fieldLE b 0 8 ≤ y.stream.length →
        s.omk.isSome = true → Completes (.keyCarryRead c) s fun t => ∃ z, t.keys.carry = some z ∧ z.stream = y.stream ∧
          z.position = fieldLE b 0 8 + (s.carryTake y.measurement (fieldLE b 8 4) 16777200 (y.stream.drop (fieldLE b 0 8))).length) ∧
      (Admitted 0x0205 sp c s → b = [] → s.part? c.colour = some p → s.omk.isSome = true → (s.keys.rekeying.any (·.1 == c.colour)) = false →
        Completes (.partRekey c) s fun t => (∃ q, t.part? c.colour = some q ∧ q.epoch = p.epoch + 1) ∧ (c.colour, c) ∈ t.keys.rekeying))

/-- The itinerary commands (R82-R87, Table 11.6): ITIN.LOAD of a sound header asks an MAE for its two signature checks, and
when both have verified and its code is sound the image is installed, or VERSION_OLD answered for one not newer; each failed check is answered
with its number and the offset at fault;
ITIN.UNLOAD removes it; ITIN.LIST answers ids and versions in order; the signers are added and removed under an authorisation. -/
def Obligations.ItineraryCommands : Prop :=
  ∀ (s s1 : State) (c : Cmd) (sp : Spec) (g : Nat) (y : Image),
    let b := c.body
    let x := imageRecord b 0
    let id := BitVec.ofNat 32 (fieldLE b 0 4)
    let key := BitVec.ofNat 64 (fieldLE b 0 8)
    let refused := fun (u : State) (code k off : Nat) (t : State) => t = u.reply c code false [] (BitVec.ofNat 64 (k * 2 ^ 56 + off)) false
    let shared := bit (hdr b 6 2) 0
    (Admitted 0x0501 sp c s → headerFits c b = true → (c.colour = 0 ∨ (s.part? c.colour).isSome = true) →
      (∀ o, headerFault b = some o → Completes (.itinLoad c) s (refused s 0x0201 1 o)) ∧
      (headerFault b = .none → signerOf s.tenancy.signers b = .none → Completes (.itinLoad c) s (refused (s.begin sp c) 0x0202 2 0x38)) ∧
      (∀ z, headerFault b = .none → signerOf s.tenancy.signers b = some z → Completes (.itinLoad c) s fun t =>
        t = (s.begin sp c).submitOwn c 0x11 (signatureJob z b 0x11))) ∧
    (s.inFlight c = true → ∀ z,
      (signerOf s.tenancy.signers b = some z → s.ownEnds c 0x11 0 [] [] = s.submitOwn c 0x31 (signatureJob z b 0x31)) ∧
      refused s 0x0202 2 (sigOffset b) (s.ownEnds c 0x11 1 [] []) ∧ refused s 0x0202 2 (sigOffset b + 96) (s.ownEnds c 0x31 1 [] []) ∧
      (zeroAt b (sigOffset b + 4723) 13 = true → ∀ k off, codeFault b shared (s.policyOfColour c.colour) (s.tenancy.profile == .compact) = some (k, off) →
        refused s 0x0203 k off (s.ownEnds c 0x31 0 [] [])) ∧
      (zeroAt b (sigOffset b + 4723) 13 = true → codeFault b shared (s.policyOfColour c.colour) (s.tenancy.profile == .compact) = .none →
        (s.tenancy.images.find? (fun (y : Image) => y.names x.colour x.shared x.id) = .none → s.freeGranule = some g → s.tenancy.images.length < 65536 →
          Answered loadSpec c (s.installImage b g) (natLE 4 x.id.toNat ++ natLE 4 x.version.toNat) (s.ownEnds c 0x31 0 [] [])) ∧
        (s.tenancy.images.find? (fun (y : Image) => y.names x.colour x.shared x.id) = some y → x.version ≤ y.version →
          s.ownEnds c 0x31 0 [] [] = s.reject c 0x0204))) ∧
    (Admitted 0x0502 sp c s → b.length = 8 → zeroAt b 4 4 = true → ¬(sharedId id = true ∧ (c.fn ≠ 0 ∨ c.colour ≠ 0)) →
      (s.tenancy.images.any fun (y : Image) => y.names c.colour (sharedId id) id) = true → Completes (.itinUnload c) s fun t =>
        t.tenancy.images = s.tenancy.images.filter fun y => !y.names c.colour (sharedId id) id) ∧
    (Admitted 0x0503 sp c s → b.length = 8 →
      let xs := s.tenancy.images.filter fun (y : Image) => (y.shared || y.colour == c.colour) && decide (fieldLE b 0 4 ≤ y.id.toNat)
      Completes (.itinList c) s (Answered sp c s (natLE 4 (xs.take (fieldLE b 4 4)).length ++
        natLE 4 (((xs.drop (fieldLE b 4 4)).head?.map fun (y : Image) => y.id.toNat).getD 0) ++
        (xs.take (fieldLE b 4 4)).flatMap fun y => natLE 4 y.id.toNat ++ natLE 4 y.version.toNat))) ∧
    (Admitted 0x0504 sp c s → b.length = 2712 → zeroAt b 113 7 = true → (s.tenancy.signers.any fun (x : Signer) => x.ident == key) = false →
      s.tenancy.signers.length < 16 → s.useAuth 0x0504 8 b = some s1 → s1.tenancy = s.tenancy → Completes (.itinSignerAdd c) s fun t =>
        t.tenancy.signers = s.tenancy.signers ++ [{ ident := key, ecdsa := slice b 16 97, mldsa := slice b 120 2592 }]) ∧
    (Admitted 0x0505 sp c s → b.length = 16 → (s.tenancy.signers.any fun (x : Signer) => x.ident == key) = true →
      s.useAuth 0x0505 8 b = some s1 → s1.tenancy = s.tenancy → Completes (.itinSignerRemove c) s fun t =>
        t.tenancy.signers = s.tenancy.signers.filter fun (x : Signer) => x.ident != key)

/-- The vault commands (R223-R228, R236, R245, Table 11.7): VAULT.FORMAT grows an OPEN vault and creates one where there is none; VAULT.ALLOC
gives the colour its extent; VAULT.FREE begins where nothing of the colour runs; VAULT.ATTACH names the sessions and the timeout;
VAULT.VERSION and VAULT.RECOVER ask the engine; VAULT.STATUS answers. -/
def Obligations.VaultCommands : Prop :=
  ∀ (s s1 s2 : State) (c : Cmd) (sp : Spec) (p : Part) (e : Extent) (id : Word),
    let b := c.body
    let run := (s.begin sp c).cmdAccepted c sp.op
    let n := fieldLE b 0 4
    (Admitted 0x0601 sp c s → b.length = 8 → zeroAt b 4 4 = true → n % 4096 = 0 → n ≤ 2 ^ 31 → s.vault.state = .opened → s.vault.n < n →
      Completes (.vaultFormat c) s fun t => t.vault.n = n ∧ t.vault.state = .opened ∧ t.vault.root = s.vault.root) ∧
    (Admitted 0x0601 sp c s → b.length = 8 → zeroAt b 4 4 = true → n % 4096 = 0 → n ≠ 0 → n ≤ 2 ^ 31 →
      (s.vault.state = .unformatted ∨ s.vault.state = .lost) → Completes (.vaultFormat c) s fun t => t = s.createVault c sp n) ∧
    (let size := fieldLE b 4 4
     let h1 := BitVec.ofNat 64 (fieldLE b 8 8)
     let h2 := BitVec.ofNat 64 (fieldLE b 16 8)
     Admitted 0x0602 sp c s → b.length = 24 → s.part? c.colour = some p → n % 4096 = 0 → size % 4096 = 0 → size ≠ 0 → p.extent = .none →
      s.extentClash n size = false → s.tinShut c.colour h1 = false → s.tinShut c.colour h2 = false →
      size ≤ (if p.vf = 0 then s.freeVault else p.vaultQuota) →
      Completes (.vaultAlloc c) s fun t => if s.xtsPairOk c.colour h1 h2 = true then
        t.part? c.colour = some { p with extent := some { base := n, size := size, key1 := h1, key2 := h2 } }
        else t = s.reject c 0x0102) ∧
    (Admitted 0x0603 sp c s → b = [] → s.extentOf c.colour = some e → s.colourRuns c.colour = false →
      (s.vault.state = .opened ∨ s.vault.state = .degraded) → s.vault.sessions ≠ [] → s.vault.freeing = .none → Completes (.vaultFree c) s fun t => t = (run.modVault fun v =>
        { v with freeing := some { cmd := c, base := e.base, size := e.size, reqs := [], nodes := [], root := 0 } }).vaultRun) ∧
    (Admitted 0x0604 sp c s → b.length = 8 + 4 * fieldLE b 0 1 → zeroAt b 1 3 = true → ((chunks 4 (b.drop 8)).all fun x => zeroAt x 1 1) = true →
      fieldLE b 0 1 ≤ 4 → 10 ≤ fieldLE b 4 4 → fieldLE b 4 4 ≤ 10000 →
      (∀ y ∈ attachList b, y.1 ≤ 1 ∧ y.2 ≠ 0 ∧ y.2 ≤ 4095 ∧ ∃ x, (s.port y.1).sessions.find? y.2 = some x ∧ x.colour = 0) →
      Completes (.vaultAttach c) s (Answered sp c ((s.markVault (attachList b)).modVault fun v =>
        { v with sessions := attachList b, timeoutUs := fieldLE b 4 4 }).vaultReload.vaultRun [])) ∧
    (Admitted 0x0605 sp c s → b.length = 8 → zeroAt b 4 4 = true → Completes (.vaultVersion c) s fun t => t =
      (s.begin sp c).vaultSubmit (vaultOp (.version c) Desc.none false c.colour (BitVec.ofNat 64 n) [] 0)) ∧
    (Admitted 0x0606 sp c s → b.length = 8 → s.vault.state = .stale → s.useAuth 0x0606 0 b = some s1 → s1.vaultGet false false 0 0 = some (s2, id) →
      Completes (.vaultRecover c) s fun t => t.vault.recover = some c) ∧
    (Admitted 0x0606 sp c s → b.length = 8 → s.vault.state ≠ .stale → Completes (.vaultRecover c) s fun t =>
      t = ((s.useAuth 0x0606 0 b).getD s).reject c 0x0401) ∧
    (let v := s.vault
     Admitted 0x0607 sp c s → b = [] → Completes (.vaultStatus c) s fun t => ∃ rsp, Answered sp c s rsp t ∧ rsp.length = 112 ∧
      rsp.take 16 = [BitVec.ofNat 8 v.state.code, 0, 0, 0] ++ natLE 4 (s.tenancy.parts.filter fun q => q.2.extent.isSome).length ++ natLE 4 v.n ++
        [0, 0, 0, 0] ∧ slice rsp 16 16 = natLE 8 v.rootVersion.toNat ++ natLE 8 v.serial.toNat ∧ slice rsp 40 8 = natLE 8 v.refill ∧
      rsp.drop 56 = v.counts.toList.flatMap (natLE 8))

/-- The journal, port and time commands (R258-R261, R294, R314, R389-R399, Tables 11.7, 11.8): JOURNAL.QUERY and JOURNAL.STATUS answer the
journal; FRERI.CONFIG sets a port, FRERI.SESSION.OPEN opens a session under a fresh serial, FRERI.SESSION.CLOSE begins its end, FRERI.STATUS
answers; TIME.STATUS and TIME.CONFIG read and set the counter. -/
def Obligations.PortAndTimeCommands : Prop :=
  ∀ (s s1 : State) (c : Cmd) (sp : Spec) (k : Bytes) (x : Session),
    let b := c.body
    let p := fieldLE b 0 1
    let n := fieldLE b 2 2
    let h := BitVec.ofNat 64 (fieldLE b 8 8)
    (Admitted 0x0701 sp c s → b.length = 8 → Completes (.journalQuery c) s
      (Answered sp c s (s.journalAnswer c.colour (BitVec.ofNat 64 (fieldLE b 0 8))))) ∧
    (Admitted 0x0702 sp c s → b = [] → Completes (.journalStatus c) s fun t => ∃ rsp, Answered sp c s rsp t ∧ rsp.length = 65592) ∧
    (Admitted 0x0901 sp c s → b.length = 40 → fieldLE b 1 1 = 0 → zeroAt b 2 2 = true →
      ((List.range 5).all fun i => zeroAt b (19 + 4 * i) 1) = true → zeroAt b 36 4 = true → p ≤ 1 → 100 ≤ fieldLE b 4 4 → fieldLE b 4 4 ≤ 100000 →
      h = 0 → Completes (.freriConfig c) s fun t =>
        (t.port p).enable = false ∧ (t.port p).drainUs = fieldLE b 4 4 ∧ (t.port p).link = .down ∧ (t.port p).baseKey = (s.port p).baseKey) ∧
    (let on := bit (fieldLE b 1 1) 0
     let stop := bit (fieldLE b 1 1) 1
     let pt := s.port p
     let set := fun (r : State) => r.setPort p
       { r.port p with enable := on, drainUs := fieldLE b 4 4, equal := slice b 16 20, baseKey := if h = 0 then pt.baseKey else h }
     let run := fun (r : State) =>
       let r := if on then r.train p else r.portDown p
       if stop then r.plannedStop p 1 true else r
     Admitted 0x0901 sp c s → b.length = 40 → fieldLE b 1 1 < 4 → zeroAt b 2 2 = true →
      ((List.range 5).all fun i => zeroAt b (19 + 4 * i) 1) = true → zeroAt b 36 4 = true → p ≤ 1 → 100 ≤ fieldLE b 4 4 → fieldLE b 4 4 ≤ 100000 →
      (stop = true → on = true ∧ pt.link = .up) →
      (h = 0 → (on = true → pt.baseKey ≠ 0) → Completes (.freriConfig c) s (Answered sp c (run (set s)) (natLE 8 0))) ∧
      (h ≠ 0 → s.tinShut 0 h = false → s.baseKey 0 h = (s1, some k) → Completes (.freriConfig c) s
        (Answered sp c (run ((set s1).openPortSession p h k)) (natLE 8 (run ((set s1).openPortSession p h k)).openSerial.toNat))) ∧
      (h ≠ 0 → s.tinShut 0 h = true → Completes (.freriConfig c) s fun t => t = s.reject c cBadState)) ∧
    (Admitted 0x0902 sp c s → b.length = 16 → fieldLE b 4 1 < 4 → zeroAt b 6 2 = true → p ≤ 1 → fieldLE b 1 1 ≠ 0 → fieldLE b 1 1 ≤ 7 → n ≠ 0 →
      n ≤ 4095 → fieldLE b 5 1 ≠ 0 → (s.port p).sessions.has n = false → s.tinShut c.colour h = false → s.baseKey c.colour h = (s1, some k) →
      let s2 := s1.nextSerial
      Completes (.freriSessionOpen c) s fun t => t = ((s2.setSession p n (newSession c.colour (fieldLE b 1 1) (bit (fieldLE b 4 1) 0)
        (bit (fieldLE b 4 1) 1) (fieldLE b 5 1) h s2.openSerial (sessionKey k p n s2.openSerial))).sendCredit p n true).finish sp c cOk
          (natLE 8 (((s2.setSession p n (newSession c.colour (fieldLE b 1 1) (bit (fieldLE b 4 1) 0) (bit (fieldLE b 4 1) 1) (fieldLE b 5 1) h
            s2.openSerial (sessionKey k p n s2.openSerial))).sendCredit p n true).openSerial).toNat) 0) ∧
    (Admitted 0x0902 sp c s → b.length = 16 → fieldLE b 4 1 < 4 → zeroAt b 6 2 = true → p ≤ 1 → fieldLE b 1 1 ≠ 0 → fieldLE b 1 1 ≤ 7 → n ≠ 0 →
      n ≤ 4095 → fieldLE b 5 1 ≠ 0 → (s.port p).sessions.has n = true → Completes (.freriSessionOpen c) s fun t => t = s.reject c cExists) ∧
    (Admitted 0x0903 sp c s → b.length = 8 → zeroAt b 1 1 = true → zeroAt b 4 4 = true → p ≤ 1 → n ≠ 0 → n ≤ 4095 →
      (s.port p).sessions.find? n = some x → x.colour = c.colour → Completes (.freriSessionClose c) s
        (Answered sp c ((s.setSession p n { x with closing := true }).creditColour c.colour) [])) ∧
    (Admitted 0x0904 sp c s → b.length = 8 → zeroAt b 1 7 = true → p ≤ 1 → Completes (.freriStatus c) s fun t =>
      ∃ rsp, Answered sp c (s.drawnBytes 55) rsp t ∧ rsp.length = 304 ∧
        rsp.take 6 = [BitVec.ofNat 8 (s.port p).link.code, 0] ++ natLE 2 (s.port p).epoch.toNat ++ natLE 2 (s.port p).peerEpoch.toNat ∧
        ∀ i, i < 5 → slice rsp (16 + 24 * i) 2 = [BitVec.ofInt 8 ((s.port p).ctle.get i 0), BitVec.ofInt 8 ((s.port p).tap1.get i 0)] ∧
          slice rsp (32 + 24 * i) 8 = natLE 8 ((s.port p).symbols.get i 0)) ∧
    (Admitted 0x0A01 sp c s → b = [] → Completes (.timeStatus c) s fun t => ∃ rsp, Answered sp c s rsp t ∧
      rsp.take 12 = [BitVec.ofNat 8 s.time.quality.code, 0, 0, 0] ++ natLE 8 s.time.secs.toNat) ∧
    (let t1 := if fieldLE b 0 1 ≠ s.time.domain ∨ (fieldLE b 1 1 == 1) ≠ s.time.peer then s.time.reselect (fieldLE b 0 1) (fieldLE b 1 1 == 1) else s.time
     let t2 := if fieldLE b 3 1 ≠ t1.source then t1.useSource (fieldLE b 3 1) else t1
     Admitted 0x0A02 sp c s → b.length = 8 → zeroAt b 4 4 = true → fieldLE b 0 1 ≤ 127 → fieldLE b 1 1 ≤ 1 → fieldLE b 2 1 ≤ 1 → fieldLE b 3 1 ≤ 1 →
      Completes (.timeConfig c) s fun t => t.time = { t2 with ppsPending := some (fieldLE b 2 1 == 1) })

/-- The entropy, ceremony and firmware commands (R407, R421, R438-R443, R527-R531, Table 11.8): ENTROPY.CONFIG sets each cell's next mode;
ENTROPY.KAT starts a known-answer test; a ceremony begins WAITING where none is open, and is aborted; CEREMONY.OMK of a granted ceremony forms
the operator master key; FW.STAGE stages a piece, FW.ACTIVATE begins the activation. -/
def Obligations.EntropyCeremonyFirmwareCommands : Prop :=
  ∀ (s s1 : State) (c : Cmd) (sp : Spec) (y : Ceremony) (key : Bytes),
    let b := c.body
    (Admitted 0x0B01 sp c s → b = [] → Completes (.entropyStatus c) s fun t => ∃ rsp, Answered sp c s rsp t ∧
      rsp.take 8 = natLE 4 s.entropy.credit ++ [BitVec.ofNat 8 (b2n s.entropy.firstSeed), 0, 0, 0]) ∧
    (Admitted 0x0B02 sp c s → b.length = 8 → zeroAt b 2 6 = true → Completes (.entropyConfig c) s fun t =>
      ∀ n, n < 16 → t.cell n = { s.cell n with nextMode := bit (fieldLE b 0 2) n }) ∧
    (Admitted 0x0B03 sp c s → b.length = 8 → zeroAt b 2 6 = true → fieldLE b 0 2 = (srcHub 0x0B).toNat → Completes (.entropyKat c) s fun t =>
      t = (s.begin sp c).startKat (srcHub 0x0B)) ∧
    (Admitted 0x0C01 sp c s → b.length = 56 → zeroAt b 2 6 = true → purposes.contains (fieldLE b 0 2) = true →
      (fieldLE b 0 2 = 0x0C04 → allZero (slice b 8 48) = true) → s.openCeremony = .none → (s.card 0).phase = .off → (s.card 1).phase = .off → Completes (.ceremonyBegin c) s fun t => ∃ z,
        t.cards.ceremony = some z ∧ z.id = s.free ∧ z.purpose = BitVec.ofNat 16 (fieldLE b 0 2) ∧ z.digest = slice b 8 48 ∧ z.state = .waiting) ∧
    (Admitted 0x0C01 sp c s → b.length = 56 → zeroAt b 2 6 = true → purposes.contains (fieldLE b 0 2) = true →
      (fieldLE b 0 2 = 0x0C04 → allZero (slice b 8 48) = true) → s.openCeremony.isSome = true → Completes (.ceremonyBegin c) s fun t => t = s.reject c cBadState) ∧
    (Admitted 0x0C02 sp c s → b.length = 8 → s.ceremonyOf b = some y → Completes (.ceremonyStatus c) s (Answered sp c s
      (natLE 1 y.state.code ++ List.replicate 7 0 ++ natLE 8 (if y.state = .granted then y.auth.getD 0 else 0).toNat))) ∧
    (Admitted 0x0C03 sp c s → b.length = 8 → s.ceremonyOf b = some y → Completes (.ceremonyAbort c) s (Answered sp c s.abortCeremony [])) ∧
    (Admitted 0x0C04 sp c s → b.length = 8 → s.ceremonyOf b = some y → y.purpose = 0x0C04 → y.state = .granted → s.record 0 1 = .none →
      s.formOmk y = some key →
      ((((s.begin sp c).cmdAccepted c 0x0C04).cmdIntent c 2 1 (s.versionOf 1).toNat).drawn.makeRecord 1 1 s.omkAttrs
        (BitVec.ofNat 32 ((s.versionOf 1).toNat + 1)) key) = some s1 → Completes (.ceremonyOmk c) s fun t => ∃ s2 rsp,
          Answered sp c s2 rsp t ∧ s2 = (let z := s1.cmdCommit c 2 1 ((s.versionOf 1).toNat + 1)
            { z with cards := { z.cards with roster := (y.joined ++ y.enrolled).map fun (j : Joined) => (j.serial, j.keyHash) } }).abortCeremony.keyArrived) ∧
    (Admitted 0x1101 sp c s → b = [] → Completes (.fwStatus c) s fun t => ∃ rsp, Answered sp c s rsp t ∧
      rsp.take 48 = natBE 48 s.power.running.toNat) ∧
    (let piece := b.drop 16
     let off := fieldLE b 0 8
     let total := fieldLE b 8 8
     let held := if off = 0 then [] else s.power.staged
     let whole := held ++ piece
     let st := if whole.length < total then 1 else if Config.bootRomVerify whole then 2 else 3
     let staged := s.modPower fun p => { p with staged := whole, stagedTotal := total, stagedLast := (off, piece), stagedState := st }
     Admitted 0x1102 sp c s → 16 ≤ b.length → s.keys.carry = .none → (s.power.stagedTotal = total → s.power.stagedLast ≠ (off, piece)) →
      piece ≠ [] → piece.length ≤ 16777216 → off = held.length → (off ≠ 0 → total = s.power.stagedTotal) → off + piece.length ≤ total →
      total ≤ 3145728 → Completes (.fwStage c) s fun t =>
        if st = 3 then t = staged.finish sp c 0x0601 [] 0 else Answered sp c staged (natLE 1 st ++ List.replicate 7 0) t) ∧
    (Admitted 0x1103 sp c s → b = [] → s.power.stagedState = 2 → s.power.activating = false → s.warmTins = [] →
      (s.tenantLanes.any fun l => (s.lane l).state != .closed) = false → Completes (.fwActivate c) s fun t =>
        t.power.activating = true ∧ t.power.activateCmd = some c ∧ t.keys.suspended = true ∧ t.power.dev = .stopping)

/-- The milepost counter and its pulses (R389, R402, R403; that an empty queue is a cycle is the model's, log entry 3): a cycle of the
clock adds the rate; MILEPOST_SECOND is the next whole second, where PPS_OUT rises if it is enabled and the time is valid; PPS_OUT_FALL
lowers it; while PORST_N is asserted the counter stands. The times of the counter are the nanoseconds its registers spell. -/
def Obligations.MilepostCounter : Prop :=
  ∀ (s : State), s.power.porst = false → s.time.nanos.toNat < 1000000000 → s.time.sub < 2 ^ 24 → s.time.rate < 2 ^ 41 →
    (let x := ((s.time.nanos.toNat * 2 ^ 16 + s.time.frac.toNat) * 2 ^ 24 + s.time.sub + s.time.rate)
     let t := s.clockCycle
     t.now = s.now + 1 ∧ ((t.time.nanos.toNat * 2 ^ 16 + t.time.frac.toNat) * 2 ^ 24 + t.time.sub = x % (1000000000 * 2 ^ 40)) ∧
       t.time.nanos.toNat < 1000000000 ∧
       (x < 1000000000 * 2 ^ 40 → t.time.secs = s.time.secs ∧ t.time.ppsOut = s.time.ppsOut ∧ t.out = s.out) ∧
       (1000000000 * 2 ^ 40 ≤ x → t.time.secs = s.time.secs + 1)) ∧
    (∀ r : State, r.power.porst = true → r.clockCycle.time = r.time ∧ Completes .milepostSecond r fun t => t = r) ∧
    Completes .milepostSecond s (fun t => t.time.secs = s.time.secs + 1 ∧ t.time.nanos = 0 ∧ t.time.frac = 0 ∧
      t.now = s.now + (1000000000 - s.time.nanos.toNat) ∧ t.time.ppsEnable = s.time.ppsPending.getD s.time.ppsEnable ∧ t.time.ppsPending = .none ∧
      t.time.ppsOut = (s.time.ppsOut || (t.time.ppsEnable && t.time.valid))) ∧
    Completes .ppsOutFall s (fun t => t.time.ppsOut = false ∧ t.time.secs = s.time.secs ∧
      t.out = if s.time.ppsOut then .pps false :: s.out else s.out)

/-- The messages of the timing port (R390, R392, R393, R398, R399, Table 13.8): a message whose header is bad is dropped and counted in
its row; a usable Sync, or the Follow_Up of a two-step one, forms a difference from the selected master; a Delay_Resp and a Pdelay_Resp
that answer the port's request measure the path; an Announce makes its sender a master; in peer operation a Pdelay_Req is answered.

The timing port's own events (R394-R398, R401, Tables 13.3, 13.5): the requests it sends; the loss of Sync takes LOCKED to HOLDOVER, the
receipt timeout forgets the selected master and the loss of the link every master; an estimate over 1 ms without a master is INVALID; the
loss of REF10M_IN is reported; PPS_IN qualifies after 60 edges within 100 ns in LOCKED and loses that by an edge 1 µs off or two missed. -/
def Obligations.TimingPort : Prop :=
  (∀ (s : State) (m y : PtpMsg) (row : Nat) (q : BitVec 16) (t1 t3 : Nat) (d : Int), s.time.running = true →
      (s.time.ptpBad m = some row → ∀ c ∈ [Instr.sync m, .followUp m, .announce m, .delayResp m, .pdelayReq m, .pdelayResp m],
        Completes c s fun t => t = s.ptpDrop row ∧ t.time.drops.get row 0 = s.time.drops.get row 0 + 1 ∧ t.time.quality = s.time.quality ∧
          t.time.offset = s.time.offset) ∧
      (s.time.ptpBad m = .none → s.time.selected = some m.source →
        (m.twoStep = true → Completes (.sync m) s fun t => t.time = { s.time with sync := some m }) ∧
        (m.twoStep = false → Completes (.sync m) s fun t => t = s.gotDifference ((m.rxNs : Int) - m.originNs - m.correction)) ∧
        (s.time.sync = some y → y.sequence = m.sequence → m.rxNs ≤ y.rxNs + intervalNs y.logInterval →
          Completes (.followUp m) s fun t => t = s.gotDifference ((y.rxNs : Int) - m.originNs - y.correction - m.correction)) ∧
        (s.time.sync = some y → y.sequence ≠ m.sequence → Completes (.followUp m) s fun t => t = s.ptpDrop 4) ∧
        (m.requester = clockIdentity → s.time.peer = false → s.time.t3 = some (q, t3) → q = m.sequence → s.time.ms = some d →
          Completes (.delayResp m) s fun t => t.time.delay = some ((d + ((m.originNs : Int) - m.correction - t3)) / 2).toNat ∧
            t.time.delayAge = 0 ∧ t.time.t3 = .none ∧ t.time.quality = s.time.quality)) ∧
      (s.time.ptpBad m = .none → s.time.peer = true →
        Completes (.pdelayReq m) s (fun t => t.out = .ptp portMac clockIdentity 1 10 m.sequence s.time.ns m.source ::
            .ptp portMac clockIdentity 1 3 m.sequence m.rxNs m.source :: s.out ∧
          t.time = s.time) ∧
        (m.requester = clockIdentity → s.time.pdelay = some (m.sequence, t1) → m.twoStep = false → s.time.pdelayResp = .none →
          Completes (.pdelayResp m) s fun t => t.time.delay = some (((m.rxNs : Int) - t1 - m.correction) / 2).toNat ∧ t.time.delayAge = 0 ∧
            t.time.pdelay = .none) ∧
        (m.requester = clockIdentity → s.time.pdelay = some (m.sequence, t1) → m.twoStep = true →
          Completes (.pdelayResp m) s fun t => t.time.pdelayResp = some (((m.originNs : Int) + m.correction).toNat, m.rxNs) ∧
            t.time.delay = s.time.delay)) ∧
      (s.time.ptpBad m = .none → m.ptpTimescale = true → Completes (.announce m) s fun t => ∃ x ∈ t.time.masters, x.ident = m.source ∧
        x.dataset = m.dataset ∧ x.announces = ((s.time.masters.find? fun x => x.ident == m.source).map (·.announces)).getD 0 + 1) ∧
      (s.time.ptpBad m = .none → m.ptpTimescale = false → Completes (.announce m) s fun t => ∀ x ∈ t.time.masters, x.ident ≠ m.source)) ∧
  (∀ (s : State),
      (s.time.running = true → s.time.peer = false → s.time.selected.isSome = true → Completes .delayReqSend s fun t =>
        t.time.t3 = some (s.time.seqOut + 1, s.time.ns) ∧ t.time.seqOut = s.time.seqOut + 1 ∧ t.time.delayAge = s.time.delayAge + 1 ∧
          t.out = .ptp portMac clockIdentity 1 1 (s.time.seqOut + 1) s.time.ns 0 :: s.out) ∧
      (s.time.running = true → s.time.peer = true → Completes .pdelayReqSend s fun t =>
        t.time.pdelay = some (s.time.seqOut + 1, s.time.ns) ∧ t.time.pdelayResp = .none ∧ t.time.seqOut = s.time.seqOut + 1 ∧
          t.out = .ptp portMac clockIdentity 1 2 (s.time.seqOut + 1) s.time.ns 0 :: s.out) ∧
      (s.time.quality = .locked → Completes .syncLossTimeout s fun t => t.time.quality = .holdover ∧ t.time.e = s.time.meanOffset ∧
        t.time.correction = s.time.correction ∧ t.time.rate = s.time.rate) ∧
      (s.time.quality ≠ .locked → Completes .syncLossTimeout s fun t => t.time = s.time) ∧
      (∀ i, s.time.selected = some i → Completes .announceReceiptTimeout s fun t => t.time.selected ≠ some i ∧
        (∀ x ∈ t.time.masters, x.ident ≠ i)) ∧
      Completes .timingLinkDown s (fun t => t.time.masters = [] ∧ t.time.selected = .none ∧ t.time.quality ≠ .locked) ∧
      (s.time.quality = .holdover → s.time.selected = .none → 1000000 < s.time.estimate → Completes .holdoverEstimateExceeded s fun t =>
        t.time.quality = .invalid ∧ t.time.valid = false) ∧
      (s.time.source = 1 → s.time.ref10m = true → Completes .ref10mLost s fun t => ∃ r : State, t = r.fault 0 0x24 (srcHub 0x11) 0 ∧
        r.time.activeSource = 0 ∧ r.time.ref10m = false ∧ r.time.e = s.time.estimate) ∧
      (s.time.quality = .locked → s.time.offBoundary ≤ 100 → Completes .ppsInEdge s fun t => t.time.ppsGood = s.time.ppsGood + 1 ∧
        t.time.ppsMissed = 0 ∧ t.time.ppsQualified = (s.time.ppsQualified || decide (60 ≤ s.time.ppsGood + 1))) ∧
      (s.time.quality = .locked → 1000 < s.time.offBoundary → Completes .ppsInEdge s fun t => t.time.ppsQualified = false ∧ t.time.ppsGood = 0) ∧
      Completes .ppsInMissed s (fun t => t.time.ppsQualified = false ∧ t.time.ppsMissed = 2))

/-- The noise cells and the kettle (R407-R414, Table 14.1): a cell that stabilises begins its start-up test; raw bits that fill a window in
the cell's mode end it (R409); a window that passes is absorbed
into the pool, and credited with 64 bits unless its cell is under its start-up test; one that fails is counted and absorbed by nothing; a draw
takes 512 credited bits, its serial counts up, and its 48 bytes go to who asked first. -/
def Obligations.NoiseAndKettle : Prop :=
  ∀ (s : State) (n : Nat) (raw : List (Bool × Bool)) (w : BitVec 4096) (d : Draw) (k : Nat), cellOk n = true →
    let fills := (s.cell n).delivers = true ∧ strainedWindow (s.cell n).mode raw = some w
    ((s.cell n).running = true → (s.cell n).stable = false → Completes (.cellStabilised n) s fun t =>
      t.cell n = { s.cell n with stable := true } ∧ t.entropy.credit = s.entropy.credit) ∧
    (fills → s.entropy.kettleKat = false → windowFails w = .none → Completes (.noiseWindowEnd n raw) s fun t =>
      t.entropy.pool = BitVec.ofNat 512 (beNat (hash 4 (natBE 64 s.entropy.pool.toNat ++ natBE 1 n ++ natBE 512 w.toNat))) ∧
      t.entropy.credit = (if 0 < (s.cell n).starting then s.entropy.credit else min 4096 (s.entropy.credit + 64)) ∧
      (t.cell n).windows = (s.cell n).windows + 1 ∧ (t.cell n).failures = (s.cell n).failures ∧ (t.cell n).mode = (s.cell n).nextMode ∧
      (t.cell n).starting = (s.cell n).starting - 1) ∧
    (fills → s.entropy.kettleKat = false → windowFails w = some k → Completes (.noiseWindowEnd n raw) s fun t =>
      (t.cell n).windows = (s.cell n).windows + 1 ∧ (t.cell n).failures = (s.cell n).failures + 1 ∧ (t.cell n).lastTest = k ∧
      t.entropy.pool = s.entropy.pool ∧ t.entropy.credit = s.entropy.credit) ∧
    (fills → s.entropy.kettleKat = true → Completes (.noiseWindowEnd n raw) s fun t =>
      t.entropy.pool = s.entropy.pool ∧ t.entropy.credit = s.entropy.credit ∧ (t.cell n).failures = (s.cell n).failures) ∧
    ((s.cell n).delivers = false ∨ strainedWindow (s.cell n).mode raw = .none → Completes (.noiseWindowEnd n raw) s fun t => t = s) ∧
    ((s.cell n).delivers = true → (s.cell n).mode = true → s.entropy.kettleKat = false → Completes (.fillTimeExceeded n) s fun t =>
      (t.cell n).failures = (s.cell n).failures + 1 ∧ (t.cell n).lastTest = 5 ∧ t.entropy.credit = s.entropy.credit) ∧
    (512 ≤ s.entropy.credit → s.entropy.kettleKat = false → s.entropy.kettleFailed = false → s.entropy.hub.katFailed = false →
      s.nextDraw = some d → Completes .kettleDraw s fun t =>
        t = ({ s with entropy := { s.entropy.draw.2 with draws := eraseFirst (· == d) s.entropy.draws } } : State).serveDraw d s.entropy.draw.1 ∧
        t.entropy.credit = s.entropy.credit - 512 ∧ t.entropy.serial = s.entropy.serial + 1) ∧
    (s.entropy.credit < 512 → Completes .kettleDraw s fun t => t = s)

/-- The expanders (R416-R423): a generate puts 512 bytes into the buffer; a reseed is requested at 49,152 generates or 75 ms, required at
65,536 or 100 ms, when the buffer empties; a required one that waits 1 ms is reported; a known-answer test that fails holds the draws. -/
def Obligations.ExpandersAndTests : Prop :=
  ∀ (s : State) (e k cell : Nat), e ≤ 36 →
    ((s.expander e).seeded = true → (s.expander e).required = false → (s.expander e).katFailed = false → s.expanderHeld e = false →
      s.expanderAwake e = true → (s.expander e).buffer.length ≤ 512 → (s.expander e).generates < 65536 → Completes (.drbgGenerate e) s fun t =>
        t.expander e = (s.expander e).generate ∧ (t.expander e).generates = (s.expander e).generates + 1 ∧
        (∃ b, (t.expander e).buffer = (s.expander e).buffer ++ b ∧ b.length = 512)) ∧
    ((s.expander e).required = true → Completes (.drbgGenerate e) s fun t => t = s) ∧
    ((s.expander e).seeded = true → (s.expander e).requested = false → (49152 ≤ (s.expander e).generates ∨ 75000000 ≤ s.seedAge e) →
      s.expanderAwake e = true → Completes (.reseedRequested e) s fun t =>
        t = (s.setExpander e { s.expander e with requested := true }).askDraw e ∧ (t.expander e).requested = true) ∧
    ((s.expander e).seeded = true → (s.expander e).required = false → (65536 ≤ (s.expander e).generates ∨ 100000000 ≤ s.seedAge e) →
      Completes (.reseedRequired e) s fun t => (t.expander e).required = true ∧ (t.expander e).requiredAt = s.now ∧ (t.expander e).buffer = []) ∧
    ((s.expander e).required = true → (s.expander e).requiredAt + 1000000 ≤ s.now → Completes (.seedWait e) s fun t =>
      t = s.fault 0 0x43 (srcExpander e) (BitVec.ofNat 64 ((s.now - (s.expander e).requiredAt) / 1000))) ∧
    (s.entropy.kettleKat = true → Completes (.katDone (srcHub 0x0B) 0 cell) s fun t => t.entropy.kettleKat = false ∧
      t.entropy.kettleFailed = false) ∧
    (s.entropy.kettleKat = true → 2 ≤ k → k ≤ 6 → Completes (.katDone (srcHub 0x0B) k cell) s fun t =>
      t.entropy.kettleKat = false ∧ t.entropy.kettleFailed = true)

/-- The card slots (R426-R431, R443): a card put in is activated, taken out it leaves an empty slot; an answer to reset without T=1 is
refused, as is a protocol negotiation not echoed; a block in error asks again at most three times; and a ceremony left alone is aborted. -/
def Obligations.CardSlots : Prop :=
  ∀ (s : State) (n : Nat) (b : Bytes) (a : Atr) (y : Ceremony), slotOk n = true →
    ((s.card n).inserted = false → Completes (.cardInserted n) s fun t => (t.card n).inserted = true ∧ (t.card n).phase = .awaitAtr ∧
      (t.card n).serial = 0 ∧ t.cards.ceremony = s.cards.ceremony) ∧
    ((s.card n).inserted = true → Completes (.cardInserted n) s fun t => t = s) ∧
    ((s.card n).inserted = true → Completes (.cardRemoved n) s fun t =>
      t = (((s.count 301 (5 * n + 3)).cardOff n).setCard n CardSlot.fresh).joinNext ∧ t.card n = CardSlot.fresh) ∧
    ((s.card n).inserted = false → Completes (.cardRemoved n) s fun t => t = s) ∧
    ((s.card n).phase = .awaitAtr → parseAtr b = .none → Completes (.atr n b) s fun t => t = s.refuseCard n 2) ∧
    ((s.card n).phase = .awaitAtr → parseAtr b = some a → a.protos.contains 1 = false → Completes (.atr n b) s fun t => t = s.refuseCard n 3) ∧
    ((s.card n).phase = .awaitAtr → s.mayClassB n = false → Completes (.atrTimeout n) s fun t => t = s.refuseCard n 1) ∧
    ((s.card n).phase = .awaitAtr → s.mayClassB n = true → Completes (.atrTimeout n) s fun t => t = s.tryClassB n) ∧
    ((s.card n).phase = .awaitB → Completes (.classBReactivate n) s fun t => (t.card n).phase = .awaitAtr ∧ (t.card n).classB = true) ∧
    ((s.card n).phase = .awaitPps → b = ppsBytes (s.card n).fi (s.card n).di → Completes (.ppsResponse n b) s fun t => t = s.sendIfs n ∧
      (t.card n).phase = .awaitIfs) ∧
    ((s.card n).phase = .awaitPps → b ≠ ppsBytes (s.card n).fi (s.card n).di → Completes (.ppsResponse n b) s fun t => t = s.refuseCard n 4) ∧
    ((s.card n).phase = .awaitPps → Completes (.ppsResponseTimeout n) s fun t => (t.card n).phase = .awaitAtr ∧ (t.card n).noPps = true ∧
      (t.card n).classB = (s.card n).classB) ∧
    ((s.card n).phase.talks = true → t1Ok (s.card n).crc b = true → (0xC0 ≤ fieldBE b 1 1) → Completes (.t1Block n b) s fun t =>
      t = s.gotS n (fieldBE b 1 1) (slice b 3 (fieldBE b 2 1))) ∧
    ((s.card n).phase.talks = true → t1Ok (s.card n).crc b = true → 0x80 ≤ fieldBE b 1 1 → fieldBE b 1 1 < 0xC0 → Completes (.t1Block n b) s
      fun t => t = s.gotR n (fieldBE b 1 1)) ∧
    ((s.card n).phase.talks = true → t1Ok (s.card n).crc b = true → fieldBE b 1 1 < 0x80 → Completes (.t1Block n b) s fun t =>
      t = s.gotI n (fieldBE b 1 1) (slice b 3 (fieldBE b 2 1))) ∧
    ((s.card n).phase.talks = true → t1Ok (s.card n).crc b = false → (s.card n).retries < 3 → Completes (.t1Block n b) s fun t =>
      (t.card n).retries = (s.card n).retries + 1) ∧
    ((s.card n).phase.talks = true → (s.card n).retries < 3 → Completes (.blockWaitingTimeout n) s fun t =>
      (t.card n).retries = (s.card n).retries + 1) ∧
    ((s.card n).phase.talks = true → 3 ≤ (s.card n).retries → Completes (.blockWaitingTimeout n) s fun t =>
      t = (s.count 301 (5 * n)).cardFails n) ∧
    ((s.card n).phase.talks = true → Completes (.wtxCeiling n) s fun t => t = s.cardFails n) ∧
    (Completes (.cardInactivity n) s fun t => t = (s.cardOff n).joinNext) ∧
    (s.openCeremony = some y → (y.state ≠ .granted ∨ y.purpose = 0x0C04) → Completes .ceremonyTimeout s fun t => t = s.abortCeremony) ∧
    (s.openCeremony = some y → y.state = .granted → y.purpose ≠ 0x0C04 → Completes .ceremonyTimeout s fun t => t = s) ∧
    (s.cards.ceremony = some y → Completes .authorisationVoid s fun t => t.cards.ceremony = some { y with auth := .none } ∧
      t.cards.slots = s.cards.slots)

/-- The tamper sources, their alarms and the shadow checks (R448-R462, Tables 16.1, 16.4): an armed source whose last M samples hold N events
alarms once and is disarmed until M clean ones; without an alarm nothing else changes; an erasure erases and counts once in the
HX3-compatible counter; the response that runs ends and the next begins; and a shadow that differs is found at the next use. -/
def Obligations.TamperWatch : Prop :=
  ∀ (s : State) (n : Nat) (b : BitVec 8) (r : Nat), n ≤ 10 → s.tamper.powered = true → s.mainPower = true →
    (s.source n).armed = true → s.sourceShadowBad = false →
    let w := ((b != 0) :: (s.source n).window).take (s.source n).cfg.m
    let k := (w.filter (·)).length
    let c := if n ≤ 7 then Instr.sourceSample [(n, b)] else .continuousInterval [(n, b)]
    (b = 0 ∨ k < (s.source n).cfg.n → Completes c s fun t => (t.source n).window = w ∧ (t.source n).armed = true ∧
      (t.source n).count = (s.source n).count ∧ t.faults.queue = s.faults.queue ∧ t.keys = s.keys ∧ t.tamper.hx3 = s.tamper.hx3) ∧
    (b ≠ 0 → (s.source n).cfg.n ≤ k → Completes c s fun t => ∃ r : State, t = r.nextResponse ∧
      (r.source n).flag = true ∧ (r.source n).count = (s.source n).count + 1 ∧ (r.source n).armed = false ∧
      (r.source n).lastRank = (s.source n).cfg.rank ∧
      r.tamper.hx3 = s.tamper.hx3 ∧
      r.tamper.waiting = s.tamper.waiting ++ [{ source := n, rank := (s.source n).cfg.rank, multi := false, nets := b, events := k }]) ∧
    (b ≠ 0 → (s.source n).cfg.n ≤ k → s.tamper.running = .none → s.tamper.waiting = [] → s.tamper.done = [] → Completes c s fun t =>
      t.tamper.running = some (s.source n).cfg.rank ∧ t.tamper.waiting = [] ∧
      t.tamper.hx3 = (if (s.source n).cfg.rank = 1 ∨ (s.source n).cfg.rank = 2 then min 256 (s.tamper.hx3 + 1) else s.tamper.hx3) ∧
      ((s.source n).cfg.rank = 1 → t.keys.bbk = .none ∧ t.keys.fbr = .none ∧ t.keys.caddy = [] ∧ t.keys.partKeys = []) ∧
      ((s.source n).cfg.rank = 2 → t.keys.bbk = s.keys.bbk ∧ t.keys.caddy = [])) ∧
    (∀ r : State, r.mainPower = true → r.sourceShadowBad = true → Completes (.sourceSample []) r fun t =>
      t = r.defaultSources.fault 4 0x64 (srcHub 0x0F) 0) ∧
    (∀ m, m = 8 ∨ m = 9 ∨ m = 10 → Completes (.sourceSample [(m, b)]) s fun t => t = s) ∧
    (s.tamper.running = some r → s.tamper.waiting = [] → Completes .tamperResponseDone s fun t => t.tamper.running = .none ∧ t.tamper.done = []) ∧
    (s.lc.shadow = ~~~s.lc.code → s.steward.epochShadow = ~~~s.steward.epoch →
      (∀ g, g < 47 → (s.gate g).shadowOk = true) → s.steward.fenceOk = true → Completes .shadowCheck s fun t =>
        t = { s with steward := { s.steward with verifying := false } }) ∧
    (Completes .backupShadowMismatch s fun t => t = s) ∧
    (Completes .backupShadowMismatch { s with power := { s.power with vinOff := true } } fun t => t.tamper.flag12 = true ∧
      t.tamper.count12 = s.tamper.count12 + 1)

/-- A message at the fault collector (R476, R480-R482, R478): a class 0 to 2 fault is queued once, a further one of its class, kind and
source joins it, each raises the sequence number, class 1 and 2 faults are active from then, and the first in the queue takes SMB_ALERT_N low; a
source Table 17.2 does not list sends nothing (R473); while the Steward runs it handles the faults in their order, and a class 3 or class 4
fault squashes the tenant lanes.

A class 3 or class 4 message stops the device in hardware (R476, R479): no more items are dispatched, both ports go down, the
watermarks are written, a flush is wanted, and class 4 sets the grave latch. -/
def Obligations.FaultCollector : Prop :=
  (∀ (s : State) (cls : Fin 5) (kind : Byte) (src : BitVec 16) (d : Word) (x : FaultMsg), s.writingCard = .none → cls.val ≤ 2 →
      (kindClasses kind.toNat).contains cls.val = true →
      (srcListed src = true → kind ≠ 0x35 → (s.faults.queue.find? fun m => m.cls == cls.val && m.kind == kind && m.src == src) = .none → s.faults.queue.length < 64 →
        Completes (.faultArrival cls kind src d) s fun t =>
          t.faults.queue = s.faults.queue ++
            [{ cls := cls.val, kind := kind, src := src, seq := s.faults.seq, rep := 0, mile := s.time.nanos.extractLsb' 17 13, detail := d }] ∧ t.faults.seq = s.faults.seq + 1 ∧ t.faults.overflow = s.faults.overflow ∧
          (1 ≤ cls.val → s.faults.active = [] → t.faults.active = [{ cls := cls.val, kind := kind, src := src, last := s.now }]) ∧
          (cls.val = 0 → t.faults.active = s.faults.active) ∧ t.power = s.power ∧ t.depot = s.depot ∧
          (s.faults.queue = [] → Output.smbAlert true ∈ t.out)) ∧
      (srcListed src = true → kind ≠ 0x35 → (s.faults.queue.find? fun m => m.cls == cls.val && m.kind == kind && m.src == src) = some x → x.rep < 255 →
        Completes (.faultArrival cls kind src d) s fun t => t.faults.queue.length = s.faults.queue.length ∧
          t.faults.seq = s.faults.seq + 1 ∧ t.faults.overflow = s.faults.overflow) ∧
      (∀ k, (kindClasses kind.toNat).contains (k : Fin 5).val = false → Completes (.faultArrival k kind src d) s fun t => t = s) ∧
      (srcListed src = false → Completes (.faultArrival cls kind src d) s fun t => t = s) ∧
      (srcListed src = true → kind = 0x35 → Completes (.faultArrival cls kind src d) s fun t => t = s.fencedReport src d) ∧
      (s.stewardRuns = true → s.faults.class3Active = true ∨ s.faults.grave = true → Completes .class3Squash s fun t => t = s.squashTenants .class3) ∧
      (s.stewardRuns = true → s.faults.class3Active = false → s.faults.grave = false → Completes .class3Squash s fun t => t = s) ∧
      (∀ y, s.stewardRuns = true → nextFault s.faults.unhandled = some y → s.faults.handling = [] → Completes .faultHandling s fun t =>
        t.faults.handling = [y] ∧ t.faults.unhandled = eraseFirst (· == y) s.faults.unhandled ∧ t.faults.queue = s.faults.queue)) ∧
  (∀ (s : State) (kind : Byte) (src : BitVec 16) (d : Word), s.writingCard = .none → srcListed src = true →
      ((kindClasses kind.toNat).contains 3 = true → Completes (.faultArrival 3 kind src d) s fun t =>
        t.depot.stopped = true ∧ (t.port 0).link = .down ∧ (t.port 1).link = .down ∧ t.recorder.pendingFlush = true ∧
        t.faults.grave = s.faults.grave ∧ t.journal.mramMarks = t.journal.watermarks) ∧
      ((kindClasses kind.toNat).contains 4 = true → Completes (.faultArrival 4 kind src d) s fun t =>
        t.depot.stopped = true ∧ (t.port 0).link = .down ∧ (t.port 1).link = .down ∧ t.recorder.pendingFlush = true ∧
        t.faults.grave = true ∧ t.faults.handling = [] ∧ t.power.dev = .grave))

/-- The alive pins, the first-violation latches and the recorder (R368, R485, R487-R492, Table 17.6): ALIVE_OUT toggles while the Steward
drives it; the peer's edge ends its loss, which is reported with the milliseconds it lasted, and its silence is reported once; a latch clears
after 1 ms with its fault gone; a sample of each metric goes into its record, and what reads that metric follows it, a cluster's supply, clock
and margin only while it is awake; a flush starts, ends and is asked for; hours count while PORST_N is released. -/
def Obligations.AliveAndRecorder : Prop :=
  ∀ (s : State) (g rec c : Nat) (k : Byte) (src : BitVec 16) (t0 : Nat) (v : Int),
    let f := s.faults
    let bins := fun (y : State) => Completes (.recorderSample rec v) s fun t => t = y.updateRec rec (histogram (recKind rec) v)
    let ends := fun (y : State) => Completes (.recorderSample rec v) s fun t =>
      t = y.updateRec rec (extremes s.recorder.hours.toNat s.recorder.cycles.toNat v)
    let p := (rec - 260) / 5 % 2
    let i := (rec - 260) % 5
    (f.aliveOn = true → s.power.porst = false → Completes .aliveOutToggle s fun t => t.faults.aliveOut = !f.aliveOut ∧
      t.out = .alive (!f.aliveOut) :: s.out) ∧
    (f.aliveOn = false ∨ s.power.porst = true → Completes .aliveOutToggle s fun t => t = s) ∧
    (f.peerLost = false → Completes .peerAliveInEdge s fun t => t = { s with faults := { f with peerSeen := true, peerLast := s.now } }) ∧
    (f.peerLost = true → Completes .peerAliveInEdge s fun t => t =
      ({ s with faults := { f with peerSeen := true, peerLost := false, peerLast := s.now } } : State).fault 0 0x71 (srcHub 0x07)
        (BitVec.ofNat 64 ((s.now - f.peerLast) / 1000000 % 2 ^ 32))) ∧
    (f.peerSeen = true → f.peerLost = false → Completes .peerAliveLost s fun t => t.faults.peerLost = true ∧ t.faults.seq = f.seq + 1 ∧
      t.faults.active = f.active) ∧
    (f.peerSeen = false ∨ f.peerLost = true → Completes .peerAliveLost s fun t => t = s) ∧
    (gateOk g = true → (s.gate g).latched = some (k, src, t0) → t0 + 1000000 ≤ s.now → f.activeFault (2, k, src) = .none →
      Completes (.gateLatchClear g) s fun t => t = s.setGate g { s.gate g with latched := .none }) ∧
    (gateOk g = true → (s.gate g).latched = some (k, src, t0) → s.now < t0 + 1000000 ∨ (f.activeFault (2, k, src)).isSome = true →
      Completes (.gateLatchClear g) s fun t => t = s) ∧
    (gateOk g = true → (s.gate g).latched = .none → Completes (.gateLatchClear g) s fun t => t = s) ∧
    (rec < 36 → bins (s.tempChange (s.modCluster rec fun x => { x with temp := v }))) ∧
    (rec = 36 → bins (s.tempChange { s with power := { s.power with hubTemp := v } })) ∧
    (c < 36 → rec = 82 + c ∨ rec = 118 + c → (s.cluster c).power = .awake → bins s) ∧
    (c < 36 → rec = 154 + c → (s.cluster c).power = .awake →
      bins (s.modCluster c fun x => { x with marginLoss := (Config.baselineSlack c - v).toNat })) ∧
    (c < 36 → rec = 82 + c ∨ rec = 118 + c ∨ rec = 154 + c → (s.cluster c).power ≠ .awake →
      Completes (.recorderSample rec v) s fun t => t = s) ∧
    (190 ≤ rec → rec < 260 ∨ 290 ≤ rec → rec < 298 → bins s) ∧
    (260 ≤ rec → rec < 270 → bins (s.setPort p { s.port p with ctle := (s.port p).ctle.set i v })) ∧
    (270 ≤ rec → rec < 280 → bins (s.setPort p { s.port p with tap1 := (s.port p).tap1.set i v })) ∧
    (280 ≤ rec → rec < 290 → ends (s.setPort p { s.port p with symbols := (s.port p).symbols.set i ((s.port p).symbols.get i 0 + v.toNat) })) ∧
    (37 ≤ rec → rec < 82 → ends s) ∧
    (298 ≤ rec → Completes (.recorderSample rec v) s fun t => t = s) ∧
    (∀ (q : RecKind) (b : List Int) (n : Nat), b.length = 50 → n < 48 → q.base + n * q.width ≤ v → v < q.base + (n + 1) * q.width →
      (histogram q v b).getD (n + 2) 0 = sat4 (b.getD (n + 2) 0) ∧ (∀ m, m ≠ n + 2 → (histogram q v b).getD m 0 = b.getD m 0)) ∧
    (∀ (q : RecKind) (b : List Int), b.length = 50 →
      (v < q.base → (histogram q v b).getD 0 0 = sat4 (b.getD 0 0)) ∧
      (q.base + 48 * q.width ≤ v → (histogram q v b).getD 1 0 = (if v < q.base then b.getD 1 0 else sat4 (b.getD 1 0)))) ∧
    (s.recorder.pendingFlush = true → s.recorder.flushing = false → Completes .recorderFlush s fun t =>
      t = { s with recorder := { s.recorder with pendingFlush := false, flushing := true } }) ∧
    (s.recorder.pendingFlush = false ∨ s.recorder.flushing = true → Completes .recorderFlush s fun t => t = s) ∧
    (s.recorder.flushing = true → Completes .recorderFlushDone s fun t => t = s.flushed ∧ t.recorder.flushing = false) ∧
    (s.recorder.flushing = false → Completes .recorderFlushDone s fun t => t = s) ∧
    (Completes .recorderPeriodicFlush s fun t => t = { s with recorder := { s.recorder with pendingFlush := true } }) ∧
    (s.power.porst = false → Completes .operatingHoursTick s fun t => t = { s with recorder := { s.recorder with hours := s.recorder.hours + 1 } }) ∧
    (s.power.porst = true → Completes .operatingHoursTick s fun t => t = s)

/-- The power-fail warning, resets and standby (R496-R507, R545, R546, Table 18.4): the warning stops dispatch and asks for the flush, and its
release asks for the warm reset; PORST_N, or a monitored rail below its threshold, loses every volatile register; the release begins the cold
start; the warm reset keeps the BBK and the warm store, but no item, no caddy slot, no scratch and no cluster store; deep standby closes the ports. -/
def Obligations.ResetsAndStandby : Prop :=
  ∀ (s : State) (rail : Nat),
    (s.power.porst = false → s.power.pfw = .none → Completes .pfwNAssert s fun t => t.power.pfw = .grace ∧ t.depot.stopped = true ∧
      t.recorder.pendingFlush = true ∧ t.recorder.flushing = false ∧ t.depot.items = s.depot.items) ∧
    (s.power.pfw = .grace → Completes .pfwGraceEnd s fun t => t.power.pfw = .done ∧
      t.power.resetDue = (s.power.resetDue || s.power.pfwReleased) ∧ t.recorder.pendingFlush = false ∧ t.time.running = false ∧
      (t.port 0).link = .down ∧ (t.port 1).link = .down ∧ (t.card 0).phase ≠ .write ∧ (t.card 1).phase ≠ .write) ∧
    (s.power.pfw = .grace → Completes .pfwNRelease s fun t => t.power = { s.power with pfwReleased := true }) ∧
    (s.power.pfw = .done → Completes .pfwNRelease s fun t => t.power = { s.power with resetDue := true }) ∧
    (s.power.porst = false → Completes .porstNAssert s fun t => t = s.powerLoss false ∧ t.power.porst = true ∧ t.seats = [] ∧ t.depot.items = [] ∧
      t.keys.caddy = [] ∧ t.keys.bbk = s.keys.bbk ∧ t.keys.warm = [] ∧ t.mem = [] ∧ t.journal.ring = [] ∧ t.time.quality = .invalid ∧
      t.journal.watermarks = s.journal.mramMarks ∧ t.vault.anchorRoot = s.vault.anchorRoot ∧ t.tenancy.parts.keys = s.tenancy.parts.keys) ∧
    (railOk rail = true → rail ≠ 7 → s.power.porst = false → Completes (.railBelowThreshold rail) s fun t => t.power.porst = true ∧
      t.power.vinOff = (s.power.vinOff || rail == 0) ∧ t.power.vaonOff = (s.power.vaonOff || rail == 1) ∧ t.seats = [] ∧ t.keys.warm = []) ∧
    (s.power.vaonOff = true → s.tamper.powered = true → Completes (.railBelowThreshold 7) s fun t => t.keys.bbk = .none ∧
      t.tamper.powered = false ∧ t.power = s.power) ∧
    (s.power.porst = true → Completes .porstNRelease s fun t => t.power.porst = false ∧ t.power.kind = .cold ∧ t.power.step = .s2 ∧
      t.time.running = true ∧ t.recorder.cycles = (if s.power.vinOff then s.recorder.cycles + 1 else s.recorder.cycles)) ∧
    (s.power.resetDue = true → s.power.porst = false → Completes .warmReset s fun t => t.power.resetDue = false ∧ t.power.kind = .warm ∧
      t.power.step = .s2 ∧ t.seats = [] ∧ t.depot.items = [] ∧ t.keys.caddy = [] ∧ t.keys.warm = s.keys.warm ∧ t.keys.bbk = s.keys.bbk ∧
      t.held = [] ∧ (t.port 0).link = .down ∧ (t.port 1).link = .down ∧ t.steward.holds = [] ∧
      (s.mem.wf → ∀ a, a < dramBase → t.mem.read a = 0)) ∧
    (s.power.resetDue = false → Completes .warmReset s fun t => t = s) ∧
    (s.power.standby = .entering → s.port0.link = .down → s.port1.link = .down → Completes .deepStandbyEntered s fun t =>
      t.power.standby = .entered ∧ t.power.step = .s1 ∧ t.seats = [] ∧ t.depot.stopped = true ∧ t.time.quality = .invalid ∧
      t.entropy.credit = 0 ∧ t.keys.bbk = s.keys.bbk)

/-- Start-up, the governor and the loop (R499, R500, R508-R510, Table 18.4): each completed step hands over to the next, the referee takes the
North pair first, an unsound image or no pair stops, step 6 waits for the first seed and step 10 ends READY; the governor slows the hottest fast
cluster while a limit would be passed; the loop of a hot cluster is at 2,000 MHz. -/
def Obligations.StartupAndLoop : Prop :=
  ∀ (s : State) (o : BootObs) (c power : Nat) (slack temp : Int), s.power.porst = false →
    (s.power.step = .s3 → o.northOk = true → Completes (.startupStepDone o) s fun t => t.power.step = .s4 ∧ t.steward.north = .holder ∧
      t.steward.holderSouth = false ∧ t.steward.epoch = s.steward.epoch + 1 ∧ t.steward.epochShadow = ~~~t.steward.epoch ∧
      ∀ g, g < 47 → (t.gate g).fenceSouth = true ∧ (t.gate g).fenceNorth = false) ∧
    (s.power.step = .s3 → o.northOk = false → o.southOk = true → Completes (.startupStepDone o) s fun t => t.power.step = .s4 ∧
      t.steward.south = .holder ∧ t.steward.holderSouth = true ∧ ∀ g, g < 47 → (t.gate g).fenceNorth = true ∧ (t.gate g).fenceSouth = false) ∧
    (s.power.step = .s3 → o.northOk = false → o.southOk = false → Completes (.startupStepDone o) s fun t => t.power.step = .stopped) ∧
    (s.power.step = .s4 → o.imageOk = true → Completes (.startupStepDone o) s fun t => t.power.step = .s5 ∧ t.power.running = s.power.boot) ∧
    (s.power.step = .s4 → o.imageOk = false → Completes (.startupStepDone o) s fun t => t = s.toStep .stopped) ∧
    (s.power.step = .s5 → s.power.kind ≠ .exit → Completes (.startupStepDone o) s fun t => t.power.step = .s6 ∧ t.power.spare = 16384 ∧
      t.power.remapped = []) ∧
    (s.power.step = .s6 → s.entropy.firstSeed = true → Completes (.startupStepDone o) s fun t => t = s.toStep .s7) ∧
    (s.power.step = .s6 → s.entropy.firstSeed = false → Completes (.startupStepDone o) s fun t => t = s) ∧
    (s.power.step = .s7 → Completes (.startupStepDone o) s fun t => t = s.steepRoots.writeOutcomes.toStep .s8) ∧
    (s.power.step = .s8 → Completes (.startupStepDone o) s fun t => t = (s.testClusters o.failed).toStep .s9a) ∧
    (s.power.step = .s9a → s.faults.grave = true → Completes (.startupStepDone o) s fun t => t.power.step = .stopped ∧ t.power.dev = .grave) ∧
    (s.power.step = .s9b → Completes (.startupStepDone o) s fun t => t = s.toStep .s10) ∧
    (s.power.step = .s10 → s.faults.class3Active = false → s.power.erased = false → s.pcie.heldGo = false → Completes (.startupStepDone o) s
      fun t => t.power.step = .done ∧ t.power.dev = .ready ∧ t.depot.stopped = false ∧ t.time.running = true ∧ t.keys.suspended = false) ∧
    Completes (.governorTick power) s (fun t => t.power.samples = (power :: s.power.samples).take 100000 ∧
      (100 * 1800 < (((power :: s.power.samples).take 100000).take 100).sum → t.power.governed = true) ∧ ∀ k, k < 36 →
        (t.cluster k).clockMHz ≤ (s.cluster k).clockMHz) ∧
    (clusterOk c = true → (s.cluster c).power = .awake → 950 ≤ temp → Completes (.loopAdjust c slack temp false) s fun t =>
      t.cluster c = { s.cluster c with slack := slack, temp := temp, clockMHz := 2000 }) ∧
    (clusterOk c = true → (s.cluster c).power = .awake → temp < 950 → slack < 15 → (s.cluster c).supplyMV < 850 →
      Completes (.loopAdjust c slack temp false) s fun t =>
        t.cluster c = { s.cluster c with slack := slack, temp := temp, supplyMV := (s.cluster c).supplyMV + 5 }) ∧
    (clusterOk c = true → (s.cluster c).power ≠ .awake → ∀ b, Completes (.loopAdjust c slack temp b) s fun t => t = s)

/-- The referee and failover (R385-R388, Table 12.8): a renewal clears the lapse flag, 200 µs of silence sets it, and only a lapsed holder can
be taken over from; a lockstep mismatch halts the holder; the takeover fences the old holder at every gate, and the grant opens the new holder's fence
lines, raising the epoch and its shadow once every gate has drained; a pair that passes its self-test is the standby. -/
def Obligations.RefereeAndFailover : Prop :=
  ∀ (s : State) (south : Bool) (cs : List Claim),
    (s.steward.held = true → s.steward.mismatch = false → s.steward.epochShadow = ~~~s.steward.epoch → s.steward.takeover = .none →
      Completes .holderRenewal s fun t => t.steward = { s.steward with lapse := false }) ∧
    Completes .claimLapse s (fun t => t.steward = { s.steward with lapse := true }) ∧
    (s.steward.epochShadow ≠ ~~~s.steward.epoch → Completes (.refereeClaim cs) s fun t => t = s.fault 4 0x3A (srcHub 0x06) 0) ∧
    (s.steward.epochShadow = ~~~s.steward.epoch → s.steward.held = true → s.steward.lapse = false → s.steward.takeover = .none →
      Completes (.refereeClaim cs) s fun t => t.steward = s.steward) ∧
    (s.steward.epochShadow = ~~~s.steward.epoch → s.steward.held = true → s.steward.lapse = true → s.steward.takeover = .none →
      s.steward.pair (!s.steward.holderSouth) = .standby →
      Completes (.refereeClaim [{ south := !s.steward.holderSouth, renewal := false, epoch := s.steward.epoch }]) s fun t =>
        t.steward = { s.steward with takeover := some (!s.steward.holderSouth) } ∧
        ∀ g, g < 47 → (t.gate g).fenced s.steward.holderSouth = true ∧ ((s.gate g).fenced s.steward.holderSouth = false → (t.gate g).draining = true)) ∧
    (∀ e, e ≠ s.steward.epoch → s.steward.epochShadow = ~~~s.steward.epoch →
      Completes (.refereeClaim [{ south := south, renewal := false, epoch := e }]) s fun t => t.steward = s.steward) ∧
    (s.steward.held = true → s.steward.mismatch = false → s.steward.pair (!s.steward.holderSouth) ≠ .failed → s.writingCard = .none →
      Completes .lockstepMismatch s fun t => t.steward.lapse = true ∧ t.steward.mismatch = true ∧ t.faults.seq = s.faults.seq + 1) ∧
    (s.steward.takeover = some south → (s.gates.any fun g => g.2.draining) = false → s.steward.held = false → Completes .failoverGrant s fun t =>
      t.steward.epoch = s.steward.epoch + 1 ∧ t.steward.epochShadow = ~~~t.steward.epoch ∧ t.steward.holderSouth = south ∧
      t.steward.held = true ∧ t.steward.lapse = false ∧ t.steward.takeover = .none ∧ ∀ g, g < 47 → (t.gate g).fenced south = false) ∧
    (s.steward.takeover = some south → (s.gates.any fun g => g.2.draining) = true → Completes .failoverGrant s fun t => t = s) ∧
    (s.steward.takeover = some south → (s.gates.any fun g => g.2.draining) = false → s.steward.held = true → south ≠ s.steward.holderSouth →
      s.steward.mismatch = true → Completes .failoverGrant s fun t =>
        t = ((s.grantToken south).modSteward fun x => { x with verifying := true }).takeOver) ∧
    (s.steward.pair south = .selfTest → Completes (.stewardSelftestDone south true) s fun t =>
      t = (s.modSteward fun x => x.setPair south .standby).rerunDone (srcPair south) true ∧ t.steward.pair south = .standby) ∧
    (s.steward.pair south = .selfTest → Completes (.stewardSelftestDone south false) s fun t => t.steward.pair south = .failed)

/-- Gates, holds and the share's stores (R369-R371, R379, R382, R383, R386): a flip puts the new rules into the inactive bank and makes it the
active one, a draining gate takes none, and a command that waits for its rules completes with the drain; a drain or a hold overdue is
reported; a fenced pair's access is refused, latched and reported; and a colour's stored bytes reach every cluster that carries its share. -/
def Obligations.GateAndHoldEvents : Prop :=
  ∀ (s : State) (g : Nat) (rs : List Region) (src : BitVec 16) (colour : Colour) (p : Part) (d : Word) (south : Bool),
    let h := d.toNat / 2 ^ 40 % 2 ^ 9
    (gateOk g = true → (s.gate g).draining = false → Completes (.gateEpochFlip g rs) s fun t => (t.gate g).draining = true ∧
      (t.gate g).epoch = (!(s.gate g).epoch) ∧ (if (t.gate g).epoch then (t.gate g).bankB else (t.gate g).bankA) = rs.map (fun r => { r with enableShadow := !r.enable }) ∧
      (if (t.gate g).epoch then (t.gate g).bankA = (s.gate g).bankA else (t.gate g).bankB = (s.gate g).bankB) ∧
      ∀ h, h ≠ g → t.gate h = s.gate h) ∧
    (gateOk g = true → (s.gate g).draining = true → Completes (.gateEpochFlip g rs) s fun t => t = s) ∧
    (gateOk g = true → Completes (.gateDrainDone g) s fun t => t.gate g = { s.gate g with draining := false } ∧
      t = (s.steward.ruleCmds.filter fun q => q.1 == g).foldl (fun s q => s.endLater q.2 cOk)
        (((s.setGate g { s.gate g with draining := false }).modSteward fun x =>
          { x with ruleCmds := x.ruleCmds.filter fun q => q.1 != g }))) ∧
    (h < 47 → s.fencedOff h (fencedAccess south d) = true → s.steward.verifying = false → (s.gate h).sound = true → (s.gate h).latched = .none →
      Completes (.faultArrival 0 0x35 (srcPair south) d) s fun t => t.faults.seq = s.faults.seq + 1 ∧
        (t.gate h).latched = some (0x35, srcPair south, s.now) ∧ (t.gate h).refusals = (s.gate h).refusals + 1) ∧
    (h < 47 → s.fencedOff h (fencedAccess south d) = false → Completes (.faultArrival 0 0x35 (srcPair south) d) s fun t => t = s) ∧
    (gateOk g = true → (s.gate g).draining = true → s.writingCard = .none → Completes (.gateDrainOverdue g) s fun t =>
      t.faults.seq = s.faults.seq + 1 ∧ t.gate g = s.gate g) ∧
    (gateOk g = true → (s.gate g).draining = false → Completes (.gateDrainOverdue g) s fun t => t = s) ∧
    (s.unitHeld src = true → Completes (.innerHoldOverdue src) s fun t => t = s.fault 2 0x39 src 0 ∧ t.steward.holds = s.steward.holds) ∧
    (s.unitHeld src = true → s.steward.deferred = [] → Completes (.holdRelease src) s fun t =>
      t.steward = { s.steward with holds := eraseFirst (· == src) s.steward.holds }) ∧
    (s.unitHeld src = false → Completes (.holdRelease src) s fun t => t = s) ∧
    (s.part? colour = some p → s.mem.wf → (∀ c, c < 36 → (s.cluster c).shares.length ≤ shareSlots s.tenancy.profile) →
      Completes (.shareStorePropagated colour) s fun t => ∀ c i, c < 36 → (s.cluster c).shares.findIdx? (· == colour) = some i → ∀ k, k < shareLen s.tenancy.profile p →
        t.mem.read (storeBase c + 0xC0000 + i * shareSize s.tenancy.profile + k) = s.mem.read (dramBase + granuleAddr (p.granules.getD 0 0) + k))

/-- Reserves and self-tests (R384, R512-R516): a forced stop puts a cluster to sleep with its engines ended; a quiesced one's work is packed for
the reserve, which is in service when every package has landed, the failed cluster retired; a package that does not verify ends its work; the
margin and error rates flag a cluster, and a self-test of a reserve confines and wakes it. -/
def Obligations.ReserveEngagement : Prop :=
  ∀ (s : State) (c : Nat) (e : Engagement) (es : List Engagement) (g : Package) (mv : BitVec 32), clusterOk c = true →
    ((s.cluster c).power = .awake ∨ (s.cluster c).power = .waking → Completes (.forcedStop c) s fun t =>
      (s.clusterHeld c = false → t = (s.endCluster c).modCluster c fun x => { x with power := .asleep }) ∧
      (s.clusterHeld c = true → t = ((s.endCluster c).fault 2 0x38 (srcWhole c) 0).modCluster c fun x => { x with power := .asleep })) ∧
    ((s.cluster c).power = .asleep ∨ (s.cluster c).power = .off → Completes (.forcedStop c) s fun t => t = s) ∧
    (s.power.engagements = e :: es → e.failing = c → e.quiesced = false → (s.cluster c).state = .failing → s.atRest c = true → e.reserve ≠ 36 →
      Completes (.quiesceDone c) s fun t => t = (s.modEngagement fun e => { e with quiesced := true }).packAll c e.reserve) ∧
    (s.power.engagements = e :: es → e.failing = c → e.quiesced = false → (s.cluster c).state = .failing → s.atRest c = true → e.reserve = 36 →
      Completes (.quiesceDone c) s fun t =>
        t = (((s.endCluster c).releaseHold (srcWhole c)).dropEngagement.fault 4 0x12 (srcWhole c) 0).startEngagement) ∧
    (s.atRest c = false → Completes (.quiesceDone c) s fun t => t = s) ∧
    ((s.depot.packages.find? fun g => g.move == mv && g.target == c) = some g → (s.cluster c).transferKey.isSome = true →
      Completes (.wrappedMoveArrival c mv true) s fun t => t = (s.dropPackage g).moveLands g) ∧
    ((s.depot.packages.find? fun g => g.move == mv && g.target == c) = some g →
      Completes (.wrappedMoveArrival c mv false) s fun t => t = (s.dropPackage g).moveFails g) ∧
    ((s.depot.packages.find? fun g => g.move == mv && g.target == c) = .none → ∀ ok, Completes (.wrappedMoveArrival c mv ok) s fun t => t = s) ∧
    (s.power.engagements = [e] → e.reserve = c → e.quiesced = true → (s.cluster c).power = .awake → s.unitHeld (srcCluster c 0x13) = false →
      (s.depot.packages.any fun g => g.target == c) = false → clusterOk e.failing = true → e.failing ≠ c → s.steward.deferred = [] →
      Completes (.reserveEngaged c) s fun t => (t.cluster c).state = .inService ∧ (t.cluster c).confined = false ∧
        (t.cluster e.failing).state = .retired ∧ (t.cluster e.failing).power = .off ∧ (t.cluster e.failing).shares = [] ∧
        t.power.engagements = []) ∧
    ((s.cluster c).state = .inService → Completes (.marginLow1s c) s (fun t => t = s.flagFailing c 1 false) ∧
      Completes (.correctedRateHigh c) s fun t => t = s.flagFailing c 2 false) ∧
    ((s.cluster c).state ≠ .inService → Completes (.marginLow1s c) s (fun t => t = s) ∧ Completes (.correctedRateHigh c) s fun t => t = s) ∧
    ((s.cluster c).state = .reserve → (s.cluster c).power ≠ .awake → Completes (.selftestDue (srcWhole c)) s fun t =>
      t.cluster c = { s.cluster c with testing := true, confined := true, power := .waking }) ∧
    ((s.cluster c).testing = true → Completes (.selftestDone (srcWhole c) true) s fun t => (t.cluster c).testing = false ∧
      (t.cluster c).confined = false ∧ (t.cluster c).state = (s.cluster c).state) ∧
    ((s.cluster c).testing = false → ∀ ok, Completes (.selftestDone (srcWhole c) ok) s fun t => t = s)

/-- Errors of the memories (R94, R202, R511, R518, R519): an uncorrectable word of LPDDR6 raises DRAM_UNCORRECTABLE against its channel and its
page waits once for a remap, which uses a spare page; corrected words are reported and counted where they lie. -/
def Obligations.MemoryErrors : Prop :=
  ∀ (s : State) (ch page : Nat) (a : BitVec 40) (off : BitVec 21) (slot : BitVec 17) (src : BitVec 16) (d : Word), s.writingCard = .none →
    (chOk ch = true → Completes (.dramUncorrectable ch a) s fun t =>
      t = (s.fault 2 0x04 (srcMem ch) (a.zeroExtend 64)).queuePage ch (a.toNat / 4096) ∧
      ((s.power.remapQueue.any fun q => q.2 == a.toNat / 4096) = false → s.power.remapped.contains (a.toNat / 4096) = false →
        t.power.remapQueue = s.power.remapQueue ++ [(ch, a.toNat / 4096)]) ∧ t.faults.seq = s.faults.seq + 1) ∧
    (chOk ch = true → s.power.rowErrors = [] → Completes (.dramCorrected ch a) s fun t => t.power.rowErrors = [(a.toNat / 8, s.now)] ∧
      t.power.remapQueue = s.power.remapQueue ∧ t.faults.seq = s.faults.seq + 1) ∧
    ((∃ q ∈ s.power.remapQueue, q.2 = page) → 0 < s.power.spare → Completes (.dramPageRemap page) s fun t => t.power.spare = s.power.spare - 1 ∧
      t.power.remapped = s.power.remapped ++ [page] ∧ (∀ q ∈ t.power.remapQueue, q.2 ≠ page) ∧ t.faults = s.faults) ∧
    ((∃ q ∈ s.power.remapQueue, q.2 = page) → s.power.spare = 0 → Completes (.dramPageRemap page) s fun t => t.power.spare = 0 ∧
      t.faults.seq = s.faults.seq + 1 ∧ t.power.remapped = s.power.remapped) ∧
    (Completes (.caddyIntegrity slot) s fun t => t.faults.grave = true ∧ t.power.dev = .grave) ∧
    (src = srcHub 1 → Completes (.sramCorrected src d) s fun t => t.keys.corrected = s.keys.corrected + 1 ∧ t.faults.seq = s.faults.seq + 1 ∧
      t.depot.bankCorrected = s.depot.bankCorrected) ∧
    (src = srcHub 0 → d.toNat % 2 ^ 40 / 64 < 65536 → Completes (.sramCorrected src d) s fun t => t.keys.corrected = s.keys.corrected ∧
      t.depot.bankCorrected.get (d.toNat % 2 ^ 40 / 64 / 4096) 0 = s.depot.bankCorrected.get (d.toNat % 2 ^ 40 / 64 / 4096) 0 + 1) ∧
    (Completes (.mramCorrected off) s fun t => t = s.fault 1 0x07 (srcHub 9) (off.zeroExtend 64) ∧ t.faults.seq = s.faults.seq + 1)

/-- The journal's and the vault's own events (R233-R257, R265): the watermarks are written to MRAM with the Depot's counter; a full ring moves
its oldest record to the spill; a settled orphan gets its OUTCOME; a vault request is repeated once, on a session that is up, before it fails. -/
def Obligations.JournalAndVaultEvents : Prop :=
  ∀ (s : State) (o : Orphan) (m : Milestone) (rest : List Milestone) (r : VaultReq) (x : Nat × Nat),
    Completes .watermarkWrite s (fun t => t.journal.mramMarks = s.journal.watermarks ∧ t.depot.seqAnchor = s.depot.seq ∧
      t.journal.ring = s.journal.ring ∧ t.journal.anchors = s.journal.anchors) ∧
    (s.journal.ring.length < 65536 → Completes .journalSpill s fun t => t = s) ∧
    (65536 ≤ s.journal.ring.length → s.journal.ring = m :: rest → m.anchored = true → s.journal.spill.length < 268435456 →
      Completes .journalSpill s fun t => t.journal.ring = rest ∧ t.journal.spill = s.journal.spill ++ [m] ∧
        t.journal.anchors = s.journal.anchors) ∧
    ((s.journal.orphans.find? fun o => o.settled) = some o → Completes .outcome s fun t => t = s.writeOutcome o ∧
      ∃ z ∈ t.journal.anchors, z.typ = 6 ∧ z.code = o.record.code ∧ z.valA = o.record.valA ∧
        (o.unknown = false → z.valB = BitVec.ofNat 32 o.left.toNat)) ∧
    ((s.journal.orphans.find? fun o => o.settled) = .none → s.vault.state = .lost → Completes .outcome s fun t => t = s) ∧
    ((s.journal.orphans.find? fun o => o.settled) = .none → s.vault.state = .opened ∨ s.vault.state = .degraded → Completes .outcome s fun t =>
      t = s.outcomeReads) ∧
    ((s.vault.reqs.find? fun q => q.id == r.id) = some r → r.retried = false → (s.vaultCount 1).vaultSession (some (r.port, r.session)) = some x →
      Completes (.vaultRequestTimeout r.id) s fun t =>
        let r' := { r with port := x.1, session := x.2, retried := true }
        t = ((s.vaultCount 1).modVault fun v => { v with reqs := modFirst (fun q => q.id == r.id) (fun _ => r') v.reqs }).vaultMsg r') ∧
    ((s.vault.reqs.find? fun q => q.id == r.id) = some r → r.retried = true → Completes (.vaultRequestTimeout r.id) s fun t =>
      t = ((s.vaultCount 1).vaultTimedOut r).vaultRun) ∧
    ((s.vault.reqs.find? fun q => q.id == r.id) = .none → Completes (.vaultRequestTimeout r.id) s fun t => t = s) ∧
    Completes .vaultRefill s (fun t => t = s.refillStep) ∧
    (s.vault.missing = false → Completes .vaultRefill s fun t => t = s)

/-- What ends later (R193, R376, R463-R468, R527): a firmware activation commits the image and asks for the restart; a rekeyed colour's tins are
under its new epoch; a deleted colour's granules are zero and free; a life-cycle transition is entered; debug opens only against the nonce
just issued with the stores blank, and the manufacturing states step only as Table 16.8 has them. -/
def Obligations.DeferredEnds : Prop :=
  ∀ (s : State) (c : Cmd) (colour : Colour) (p : Part) (b : Byte) (n : BitVec 128) (u : Bytes),
    (s.power.activateCmd = some c → Completes .fwRewrapDone s fun t => t.power.boot = BitVec.ofNat 384 (beNat (sha384 s.power.staged)) ∧
      t.power.resetDue = true ∧ t.power.activateCmd = .none ∧ t.power.stagedState = 0 ∧ t.power.bootSerial = s.power.bootSerial + 1 ∧
      t.journal.mramMarks = t.journal.watermarks) ∧
    (s.power.activateCmd = .none → Completes .fwRewrapDone s fun t => t = s) ∧
    ((s.keys.rekeying.find? fun q => q.1 == colour) = some (colour, c) → Completes (.rekeyRewrapDone colour) s fun t =>
      t.keys.warm = (s.keys.warm.map fun q => (q.1, (s.rekeyed colour q.2).getD q.2)) ∧ (∀ q ∈ t.keys.rekeying, q.1 ≠ colour)) ∧
    (colour ≠ 0xFFF → s.part? colour = some p → p.deleting = some c → s.lanesOfColour colour = [] → (s.gate 36).draining = false → s.mem.wf → s.tenancy.parts.wf →
      Completes (.granuleZeroingDone colour) s fun t => t.part? colour = .none ∧
        ∀ g ∈ p.granules, ∀ k, k < 0x10000 → t.mem.read (dramBase + granuleAddr g + k) = 0) ∧
    (colour ≠ 0xFFF → s.part? colour = some p → p.deleting = some c → s.lanesOfColour colour = [] → (s.gate 36).draining = false → s.tenancy.tags.wf →
      Completes (.granuleZeroingDone colour) s fun t => (t.gate 36).draining = true ∧ t.steward.ruleCmds = s.steward.ruleCmds ++ [(36, c)] ∧
        ∀ g, t.tenancy.tags.find? g = if g ∈ p.granules then .none else s.tenancy.tags.find? g) ∧
    (colour ≠ 0xFFF → s.part? colour = some p → p.deleting = some c → s.lanesOfColour colour ≠ [] ∨ (s.gate 36).draining = true →
      Completes (.granuleZeroingDone colour) s fun t => t = s) ∧
    (s.lc.moving = some (b, .none) → lcDraws b.toNat = true → s.keys.bbk.isSome = true → Completes .lcTransitionDone s fun t =>
      t = ((s.lcWipe b.toNat).lcEnter b.toNat).formRoots.lcSettle ∧ t.lc.code = b ∧ t.lc.shadow = ~~~b ∧ t.lc.moving = .none) ∧
    (s.lc.moving = some (b, .none) → lcDraws b.toNat = true → s.keys.bbk = .none → Completes .lcTransitionDone s fun t => t = s) ∧
    (lcVendor s.lc.code.toNat b.toNat = true → s.lc.moving = .none → Completes (.vendorTestMode b) s fun t =>
      t.lc.moving = some (b, .none) ∧ t.lc.code = s.lc.code ∧ t.keys.bbk = .none ∧ t.keys.caddy = []) ∧
    (lcVendor s.lc.code.toNat b.toNat = false → Completes (.vendorTestMode b) s fun t => t = s.useLifecycle) ∧
    (s.lc.shadow ≠ ~~~s.lc.code → s.useLifecycle = s.fault 4 0x65 (srcHub 0x0A) 0) ∧
    (s.lc.shadow = ~~~s.lc.code → s.useLifecycle = s) ∧
    (s.lc.shadow = ~~~s.lc.code → lcReclaimed s.lc.code.toNat = true → s.lc.nonce = some n → s.blank = true → Completes (.dbgUnlock u) s fun t =>
      if Config.debugVerify u n = true then t.lc.debug = true ∧ t.lc.nonce = .none ∧ t.keys.bbk = .none
      else t.lc.debug = s.lc.debug ∧ t.lc.nonce = some (BitVec.ofNat 128 (beNat (s.hubBytes 16)))) ∧
    (s.lc.shadow = ~~~s.lc.code → lcReclaimed s.lc.code.toNat = true → s.lc.nonce = .none ∨ s.blank = false → Completes (.dbgUnlock u) s fun t => t.lc.debug = s.lc.debug ∧
      t.lc.nonce = some (BitVec.ofNat 128 (beNat (s.hubBytes 16)))) ∧
    (lcReclaimed s.lc.code.toNat = false → Completes (.dbgUnlock u) s fun t => t = s.useLifecycle)

/-- What is read without a command (R16, R319, R326, R328, R532, Table 10.4): a read of BAR0 gives the current value of a read-only register and
the last value written of another, and zero of a write-only, reserved or unlisted offset, of an access that BAR0 does not take and of a function
the host does not reach; configuration space tells what Table 10.1 lists; on the management buses the two targets answer at their addresses
20 ms after PORST_N, acknowledge the listed codes and refuse every byte of a write. -/
def Obligations.ReadsWithoutCommands : Prop :=
  ∀ (s t : State) (fn off size address code : Nat) (w : Word) (data : Bytes), fnOk fn = true →
    let f := s.func fn
    let reads := fun (off v : Nat) => s.reaches fn = true → s.bar0Read fn off 4 = BitVec.ofNat 64 v
    let n := w.toNat % 2 ^ 32
    let back := fun (off v : Nat) => s.takesWrites fn = true → exec (.registerWrite fn off 4 w) s = .next t → t.bar0Read fn off 4 = BitVec.ofNat 64 v
    (s.reaches fn = false ∨ accessOk fn off size f.vectors = false → s.bar0Read fn off size = 0) ∧
    reads 0x00 (0x010000B1 + Config.berconMinor.toNat * 2 ^ 16 + if fn = 0 then 0 else 0x100) ∧
    reads 0x04 (f.colour.toNat * 2 ^ 16 + fn) ∧
    reads 0x08 (s.power.dev.code * 2 ^ 12 + b2n (s.mbxReady fn)) ∧
    reads 0x0C (f.state.code * 2 ^ 4 + b2n f.ringError * 8) ∧
    reads 0x38 f.cmdHead.toNat ∧ reads 0x40 f.cplTail.toNat ∧ reads 0x50 f.event.toNat ∧
    reads 0x54 (f.errReason.toNat * 2 ^ 24 + f.errIndex.toNat) ∧ reads 0x60 f.rstSerial.toNat ∧
    reads 0x100 (if fn = 0 then (s.tenancy.parts.filter fun q => q.2.vf != 0).length else 0) ∧
    reads 0x104 (if fn = 0 then s.faults.queue.length else 0) ∧
    reads 0x1004 (4 * b2n f.mbxOverrun + 2 * b2n f.mbxDone + b2n f.mbxBusy) ∧
    reads 0x34 0 ∧ reads 0x3C 0 ∧ reads 0x1000 0 ∧ reads 0x200 0 ∧
    (s.reaches fn = true → s.bar0Read fn 0x1040 8 = BitVec.ofNat 64 (fieldLE f.mbxReq 0 4 + fieldLE f.mbxReq 4 4 * 2 ^ 32)) ∧
    back 0x20 (n / 64 * 64) ∧ back 0x24 n ∧ back 0x28 (n / 32 * 32) ∧ back 0x2C n ∧
    back 0x44 (BitVec.ofNat 32 n &&& 0x803FFFFF).toNat ∧ back 0x48 (BitVec.ofNat 32 n &&& 0x803F0000).toNat ∧
    (1 ≤ f.vectors → back (msixBase fn) n) ∧
    (s.pciIdentity fn).device = (if fn = 0 then 0x07A0 else 0x07A1) ∧ (s.pciIdentity fn).classCode = 0x108000 ∧
    (s.pciIdentity fn).maxPayload = 512 ∧ (s.pciIdentity fn).totalVfs = 1023 ∧
    (s.pciIdentity fn).serialNumber = BitVec.ofNat 64 (Config.deviceId.toNat % 2 ^ 64) ∧
    (1 ≤ f.vectors → f.vectors ≤ 2048 → (s.pciIdentity fn).msixTableSize.toNat = f.vectors - 1) ∧
    (let a := s.mgmt address code data
     (s.power.porst = true ∨ s.now < s.power.released + 20000000 ∨ (address ≠ 0x5C ∧ address ≠ 0x5D) → a.addressAck = false ∧ a.bytes = []) ∧
     (s.power.porst = false → s.power.released + 20000000 ≤ s.now →
      (address = 0x5C → a.addressAck = true ∧ (a.codeAck = true ↔ code < 4)) ∧
      (address = 0x5D → a.addressAck = true ∧ (a.codeAck = true ↔ code ∈ [0x78, 0x8D, 0x8E, 0x97, 0x98])) ∧
      (address = 0x5C → data = [] → code = 0 → a.bytes = [BitVec.ofNat 8 s.power.dev.code]) ∧
      (address = 0x5C → data = [] → code = 1 → a.bytes = [s.lc.code]) ∧
      (address = 0x5C → data = [] → code = 3 → a.bytes = [BitVec.ofNat 8 s.faults.queue.length])) ∧
     a.dataAck = false)
end

