-- ==== Sys2Proof/Laws/Table.lean ====
section
/-! SUPPORT. The laws of the sparse tables: what is read after a record is put, and that putting one keeps the keys rising. -/

namespace Sys2Proof.Machine

/-- Reading a table after a record is put: the record at its key, every other key as before. -/
theorem Tbl.find?_set {α : Type} (t : Tbl α) (i j : Nat) (x : α) :
    (t.set i x).find? j = if i = j then some x else t.find? j := by
  induction t with
  | nil => simp [Tbl.set, Tbl.find?]
  | cons p t ih =>
    obtain ⟨k, v⟩ := p
    unfold Tbl.set
    split
    · next h => subst h; by_cases h2 : k = j <;> simp [Tbl.find?, h2]
    · next h =>
      split
      · by_cases h2 : i = j <;> simp [Tbl.find?, h2]
      · by_cases h2 : k = j
        · subst h2; simp [Tbl.find?, Ne.symm h]
        · simp [Tbl.find?, h2, ih]

/-- The record put is the record read. -/
@[simp] theorem Tbl.get_set_self {α : Type} (t : Tbl α) (i : Nat) (x d : α) : (t.set i x).get i d = x := by
  simp [Tbl.get, Tbl.find?_set]

/-- Another key reads as before. -/
theorem Tbl.get_set_ne {α : Type} (t : Tbl α) {i j : Nat} (x d : α) (h : i ≠ j) : (t.set i x).get j d = t.get j d := by
  simp [Tbl.get, Tbl.find?_set, h]

/-- Every key of a table after a put is the key put or was there. -/
theorem Tbl.mem_keys_set {α : Type} (t : Tbl α) (i : Nat) (x : α) (k : Nat) (h : k ∈ (t.set i x).map Prod.fst) :
    k = i ∨ k ∈ t.map Prod.fst := by
  induction t with
  | nil => simp [Tbl.set] at h; exact .inl h
  | cons p t ih =>
    obtain ⟨a, v⟩ := p
    unfold Tbl.set at h
    split at h
    · next e => subst e; simp only [List.map_cons, List.mem_cons] at h ⊢; tauto
    · split at h
      · simp only [List.map_cons, List.mem_cons] at h ⊢; tauto
      · simp only [List.map_cons, List.mem_cons] at h ⊢
        rcases h with h | h
        · tauto
        · rcases ih h with h | h <;> tauto

/-- Putting a record keeps the keys strictly rising. -/
theorem Tbl.wf_set {α : Type} (t : Tbl α) (i : Nat) (x : α) (h : t.wf) : (t.set i x).wf := by
  induction t with
  | nil => simp [Tbl.wf, Tbl.set]
  | cons p t ih =>
    obtain ⟨a, v⟩ := p
    simp only [Tbl.wf, List.map_cons, List.pairwise_cons] at h
    unfold Tbl.set
    split
    · next e => subst e; simpa [Tbl.wf] using h
    · next hne =>
      split
      · next hlt =>
        simp only [Tbl.wf, List.map_cons, List.pairwise_cons, List.mem_cons]
        refine ⟨?_, h⟩
        rintro k (rfl | hk)
        · exact hlt
        · exact lt_trans hlt (h.1 k hk)
      · next hge =>
        simp only [Tbl.wf, List.map_cons, List.pairwise_cons]
        refine ⟨?_, ih h.2⟩
        intro k hk
        rcases Tbl.mem_keys_set t i x k hk with rfl | hk
        · omega
        · exact h.1 k hk

end Sys2Proof.Machine
end

