-- ==== Sys2Proof/Laws/State.lean ====
section
/-! SUPPORT. What each update of Machine/Ops.lean leaves as it was: one lemma per field per update, so that no later proof unfolds a
record update; and what is read back after a record is put. -/

namespace Sys2Proof.Machine

@[simp] theorem State.setSeat_pending (s : State) (u : SeatRef) (x : Seat) : (s.setSeat u x).pending = s.pending := rfl
@[simp] theorem State.setSeat_now (s : State) (u : SeatRef) (x : Seat) : (s.setSeat u x).now = s.now := rfl
@[simp] theorem State.setSeat_freeCtr (s : State) (u : SeatRef) (x : Seat) : (s.setSeat u x).freeCtr = s.freeCtr := rfl
@[simp] theorem State.setSeat_out (s : State) (u : SeatRef) (x : Seat) : (s.setSeat u x).out = s.out := rfl
@[simp] theorem State.setSeat_mem (s : State) (u : SeatRef) (x : Seat) : (s.setSeat u x).mem = s.mem := rfl
@[simp] theorem State.setSeat_tes (s : State) (u : SeatRef) (x : Seat) : (s.setSeat u x).tes = s.tes := rfl
@[simp] theorem State.setSeat_clusters (s : State) (u : SeatRef) (x : Seat) : (s.setSeat u x).clusters = s.clusters := rfl
@[simp] theorem State.setSeat_lanes (s : State) (u : SeatRef) (x : Seat) : (s.setSeat u x).lanes = s.lanes := rfl
@[simp] theorem State.setSeat_depot (s : State) (u : SeatRef) (x : Seat) : (s.setSeat u x).depot = s.depot := rfl
@[simp] theorem State.setSeat_tenancy (s : State) (u : SeatRef) (x : Seat) : (s.setSeat u x).tenancy = s.tenancy := rfl
@[simp] theorem State.setSeat_keys (s : State) (u : SeatRef) (x : Seat) : (s.setSeat u x).keys = s.keys := rfl
@[simp] theorem State.setSeat_vault (s : State) (u : SeatRef) (x : Seat) : (s.setSeat u x).vault = s.vault := rfl
@[simp] theorem State.setSeat_journal (s : State) (u : SeatRef) (x : Seat) : (s.setSeat u x).journal = s.journal := rfl
@[simp] theorem State.setSeat_held (s : State) (u : SeatRef) (x : Seat) : (s.setSeat u x).held = s.held := rfl
@[simp] theorem State.setSeat_port0 (s : State) (u : SeatRef) (x : Seat) : (s.setSeat u x).port0 = s.port0 := rfl
@[simp] theorem State.setSeat_port1 (s : State) (u : SeatRef) (x : Seat) : (s.setSeat u x).port1 = s.port1 := rfl
@[simp] theorem State.setSeat_openSerial (s : State) (u : SeatRef) (x : Seat) : (s.setSeat u x).openSerial = s.openSerial := rfl
@[simp] theorem State.setSeat_pcie (s : State) (u : SeatRef) (x : Seat) : (s.setSeat u x).pcie = s.pcie := rfl
@[simp] theorem State.setSeat_gates (s : State) (u : SeatRef) (x : Seat) : (s.setSeat u x).gates = s.gates := rfl
@[simp] theorem State.setSeat_steward (s : State) (u : SeatRef) (x : Seat) : (s.setSeat u x).steward = s.steward := rfl
@[simp] theorem State.setSeat_time (s : State) (u : SeatRef) (x : Seat) : (s.setSeat u x).time = s.time := rfl
@[simp] theorem State.setSeat_entropy (s : State) (u : SeatRef) (x : Seat) : (s.setSeat u x).entropy = s.entropy := rfl
@[simp] theorem State.setSeat_cards (s : State) (u : SeatRef) (x : Seat) : (s.setSeat u x).cards = s.cards := rfl
@[simp] theorem State.setSeat_tamper (s : State) (u : SeatRef) (x : Seat) : (s.setSeat u x).tamper = s.tamper := rfl
@[simp] theorem State.setSeat_lc (s : State) (u : SeatRef) (x : Seat) : (s.setSeat u x).lc = s.lc := rfl
@[simp] theorem State.setSeat_faults (s : State) (u : SeatRef) (x : Seat) : (s.setSeat u x).faults = s.faults := rfl
@[simp] theorem State.setSeat_recorder (s : State) (u : SeatRef) (x : Seat) : (s.setSeat u x).recorder = s.recorder := rfl
@[simp] theorem State.setSeat_power (s : State) (u : SeatRef) (x : Seat) : (s.setSeat u x).power = s.power := rfl

@[simp] theorem State.setTe_pending (s : State) (c t : Nat) (x : Te) : (s.setTe c t x).pending = s.pending := rfl
@[simp] theorem State.setTe_now (s : State) (c t : Nat) (x : Te) : (s.setTe c t x).now = s.now := rfl
@[simp] theorem State.setTe_freeCtr (s : State) (c t : Nat) (x : Te) : (s.setTe c t x).freeCtr = s.freeCtr := rfl
@[simp] theorem State.setTe_out (s : State) (c t : Nat) (x : Te) : (s.setTe c t x).out = s.out := rfl
@[simp] theorem State.setTe_mem (s : State) (c t : Nat) (x : Te) : (s.setTe c t x).mem = s.mem := rfl
@[simp] theorem State.setTe_seats (s : State) (c t : Nat) (x : Te) : (s.setTe c t x).seats = s.seats := rfl
@[simp] theorem State.setTe_clusters (s : State) (c t : Nat) (x : Te) : (s.setTe c t x).clusters = s.clusters := rfl
@[simp] theorem State.setTe_lanes (s : State) (c t : Nat) (x : Te) : (s.setTe c t x).lanes = s.lanes := rfl
@[simp] theorem State.setTe_depot (s : State) (c t : Nat) (x : Te) : (s.setTe c t x).depot = s.depot := rfl
@[simp] theorem State.setTe_tenancy (s : State) (c t : Nat) (x : Te) : (s.setTe c t x).tenancy = s.tenancy := rfl
@[simp] theorem State.setTe_keys (s : State) (c t : Nat) (x : Te) : (s.setTe c t x).keys = s.keys := rfl
@[simp] theorem State.setTe_vault (s : State) (c t : Nat) (x : Te) : (s.setTe c t x).vault = s.vault := rfl
@[simp] theorem State.setTe_journal (s : State) (c t : Nat) (x : Te) : (s.setTe c t x).journal = s.journal := rfl
@[simp] theorem State.setTe_held (s : State) (c t : Nat) (x : Te) : (s.setTe c t x).held = s.held := rfl
@[simp] theorem State.setTe_port0 (s : State) (c t : Nat) (x : Te) : (s.setTe c t x).port0 = s.port0 := rfl
@[simp] theorem State.setTe_port1 (s : State) (c t : Nat) (x : Te) : (s.setTe c t x).port1 = s.port1 := rfl
@[simp] theorem State.setTe_openSerial (s : State) (c t : Nat) (x : Te) : (s.setTe c t x).openSerial = s.openSerial := rfl
@[simp] theorem State.setTe_pcie (s : State) (c t : Nat) (x : Te) : (s.setTe c t x).pcie = s.pcie := rfl
@[simp] theorem State.setTe_gates (s : State) (c t : Nat) (x : Te) : (s.setTe c t x).gates = s.gates := rfl
@[simp] theorem State.setTe_steward (s : State) (c t : Nat) (x : Te) : (s.setTe c t x).steward = s.steward := rfl
@[simp] theorem State.setTe_time (s : State) (c t : Nat) (x : Te) : (s.setTe c t x).time = s.time := rfl
@[simp] theorem State.setTe_entropy (s : State) (c t : Nat) (x : Te) : (s.setTe c t x).entropy = s.entropy := rfl
@[simp] theorem State.setTe_cards (s : State) (c t : Nat) (x : Te) : (s.setTe c t x).cards = s.cards := rfl
@[simp] theorem State.setTe_tamper (s : State) (c t : Nat) (x : Te) : (s.setTe c t x).tamper = s.tamper := rfl
@[simp] theorem State.setTe_lc (s : State) (c t : Nat) (x : Te) : (s.setTe c t x).lc = s.lc := rfl
@[simp] theorem State.setTe_faults (s : State) (c t : Nat) (x : Te) : (s.setTe c t x).faults = s.faults := rfl
@[simp] theorem State.setTe_recorder (s : State) (c t : Nat) (x : Te) : (s.setTe c t x).recorder = s.recorder := rfl
@[simp] theorem State.setTe_power (s : State) (c t : Nat) (x : Te) : (s.setTe c t x).power = s.power := rfl

@[simp] theorem State.setCluster_pending (s : State) (c : Nat) (x : Cluster) : (s.setCluster c x).pending = s.pending := rfl
@[simp] theorem State.setCluster_now (s : State) (c : Nat) (x : Cluster) : (s.setCluster c x).now = s.now := rfl
@[simp] theorem State.setCluster_freeCtr (s : State) (c : Nat) (x : Cluster) : (s.setCluster c x).freeCtr = s.freeCtr := rfl
@[simp] theorem State.setCluster_out (s : State) (c : Nat) (x : Cluster) : (s.setCluster c x).out = s.out := rfl
@[simp] theorem State.setCluster_mem (s : State) (c : Nat) (x : Cluster) : (s.setCluster c x).mem = s.mem := rfl
@[simp] theorem State.setCluster_seats (s : State) (c : Nat) (x : Cluster) : (s.setCluster c x).seats = s.seats := rfl
@[simp] theorem State.setCluster_tes (s : State) (c : Nat) (x : Cluster) : (s.setCluster c x).tes = s.tes := rfl
@[simp] theorem State.setCluster_lanes (s : State) (c : Nat) (x : Cluster) : (s.setCluster c x).lanes = s.lanes := rfl
@[simp] theorem State.setCluster_depot (s : State) (c : Nat) (x : Cluster) : (s.setCluster c x).depot = s.depot := rfl
@[simp] theorem State.setCluster_tenancy (s : State) (c : Nat) (x : Cluster) : (s.setCluster c x).tenancy = s.tenancy := rfl
@[simp] theorem State.setCluster_keys (s : State) (c : Nat) (x : Cluster) : (s.setCluster c x).keys = s.keys := rfl
@[simp] theorem State.setCluster_vault (s : State) (c : Nat) (x : Cluster) : (s.setCluster c x).vault = s.vault := rfl
@[simp] theorem State.setCluster_journal (s : State) (c : Nat) (x : Cluster) : (s.setCluster c x).journal = s.journal := rfl
@[simp] theorem State.setCluster_held (s : State) (c : Nat) (x : Cluster) : (s.setCluster c x).held = s.held := rfl
@[simp] theorem State.setCluster_port0 (s : State) (c : Nat) (x : Cluster) : (s.setCluster c x).port0 = s.port0 := rfl
@[simp] theorem State.setCluster_port1 (s : State) (c : Nat) (x : Cluster) : (s.setCluster c x).port1 = s.port1 := rfl
@[simp] theorem State.setCluster_openSerial (s : State) (c : Nat) (x : Cluster) : (s.setCluster c x).openSerial = s.openSerial := rfl
@[simp] theorem State.setCluster_pcie (s : State) (c : Nat) (x : Cluster) : (s.setCluster c x).pcie = s.pcie := rfl
@[simp] theorem State.setCluster_gates (s : State) (c : Nat) (x : Cluster) : (s.setCluster c x).gates = s.gates := rfl
@[simp] theorem State.setCluster_steward (s : State) (c : Nat) (x : Cluster) : (s.setCluster c x).steward = s.steward := rfl
@[simp] theorem State.setCluster_time (s : State) (c : Nat) (x : Cluster) : (s.setCluster c x).time = s.time := rfl
@[simp] theorem State.setCluster_entropy (s : State) (c : Nat) (x : Cluster) : (s.setCluster c x).entropy = s.entropy := rfl
@[simp] theorem State.setCluster_cards (s : State) (c : Nat) (x : Cluster) : (s.setCluster c x).cards = s.cards := rfl
@[simp] theorem State.setCluster_tamper (s : State) (c : Nat) (x : Cluster) : (s.setCluster c x).tamper = s.tamper := rfl
@[simp] theorem State.setCluster_lc (s : State) (c : Nat) (x : Cluster) : (s.setCluster c x).lc = s.lc := rfl
@[simp] theorem State.setCluster_faults (s : State) (c : Nat) (x : Cluster) : (s.setCluster c x).faults = s.faults := rfl
@[simp] theorem State.setCluster_recorder (s : State) (c : Nat) (x : Cluster) : (s.setCluster c x).recorder = s.recorder := rfl
@[simp] theorem State.setCluster_power (s : State) (c : Nat) (x : Cluster) : (s.setCluster c x).power = s.power := rfl

@[simp] theorem State.setLane_pending (s : State) (l : Nat) (x : Lane) : (s.setLane l x).pending = s.pending := rfl
@[simp] theorem State.setLane_now (s : State) (l : Nat) (x : Lane) : (s.setLane l x).now = s.now := rfl
@[simp] theorem State.setLane_freeCtr (s : State) (l : Nat) (x : Lane) : (s.setLane l x).freeCtr = s.freeCtr := rfl
@[simp] theorem State.setLane_out (s : State) (l : Nat) (x : Lane) : (s.setLane l x).out = s.out := rfl
@[simp] theorem State.setLane_mem (s : State) (l : Nat) (x : Lane) : (s.setLane l x).mem = s.mem := rfl
@[simp] theorem State.setLane_seats (s : State) (l : Nat) (x : Lane) : (s.setLane l x).seats = s.seats := rfl
@[simp] theorem State.setLane_tes (s : State) (l : Nat) (x : Lane) : (s.setLane l x).tes = s.tes := rfl
@[simp] theorem State.setLane_clusters (s : State) (l : Nat) (x : Lane) : (s.setLane l x).clusters = s.clusters := rfl
@[simp] theorem State.setLane_depot (s : State) (l : Nat) (x : Lane) : (s.setLane l x).depot = s.depot := rfl
@[simp] theorem State.setLane_tenancy (s : State) (l : Nat) (x : Lane) : (s.setLane l x).tenancy = s.tenancy := rfl
@[simp] theorem State.setLane_keys (s : State) (l : Nat) (x : Lane) : (s.setLane l x).keys = s.keys := rfl
@[simp] theorem State.setLane_vault (s : State) (l : Nat) (x : Lane) : (s.setLane l x).vault = s.vault := rfl
@[simp] theorem State.setLane_journal (s : State) (l : Nat) (x : Lane) : (s.setLane l x).journal = s.journal := rfl
@[simp] theorem State.setLane_held (s : State) (l : Nat) (x : Lane) : (s.setLane l x).held = s.held := rfl
@[simp] theorem State.setLane_port0 (s : State) (l : Nat) (x : Lane) : (s.setLane l x).port0 = s.port0 := rfl
@[simp] theorem State.setLane_port1 (s : State) (l : Nat) (x : Lane) : (s.setLane l x).port1 = s.port1 := rfl
@[simp] theorem State.setLane_openSerial (s : State) (l : Nat) (x : Lane) : (s.setLane l x).openSerial = s.openSerial := rfl
@[simp] theorem State.setLane_pcie (s : State) (l : Nat) (x : Lane) : (s.setLane l x).pcie = s.pcie := rfl
@[simp] theorem State.setLane_gates (s : State) (l : Nat) (x : Lane) : (s.setLane l x).gates = s.gates := rfl
@[simp] theorem State.setLane_steward (s : State) (l : Nat) (x : Lane) : (s.setLane l x).steward = s.steward := rfl
@[simp] theorem State.setLane_time (s : State) (l : Nat) (x : Lane) : (s.setLane l x).time = s.time := rfl
@[simp] theorem State.setLane_entropy (s : State) (l : Nat) (x : Lane) : (s.setLane l x).entropy = s.entropy := rfl
@[simp] theorem State.setLane_cards (s : State) (l : Nat) (x : Lane) : (s.setLane l x).cards = s.cards := rfl
@[simp] theorem State.setLane_tamper (s : State) (l : Nat) (x : Lane) : (s.setLane l x).tamper = s.tamper := rfl
@[simp] theorem State.setLane_lc (s : State) (l : Nat) (x : Lane) : (s.setLane l x).lc = s.lc := rfl
@[simp] theorem State.setLane_faults (s : State) (l : Nat) (x : Lane) : (s.setLane l x).faults = s.faults := rfl
@[simp] theorem State.setLane_recorder (s : State) (l : Nat) (x : Lane) : (s.setLane l x).recorder = s.recorder := rfl
@[simp] theorem State.setLane_power (s : State) (l : Nat) (x : Lane) : (s.setLane l x).power = s.power := rfl

@[simp] theorem State.setFunc_pending (s : State) (f : Nat) (x : Func) : (s.setFunc f x).pending = s.pending := rfl
@[simp] theorem State.setFunc_now (s : State) (f : Nat) (x : Func) : (s.setFunc f x).now = s.now := rfl
@[simp] theorem State.setFunc_freeCtr (s : State) (f : Nat) (x : Func) : (s.setFunc f x).freeCtr = s.freeCtr := rfl
@[simp] theorem State.setFunc_out (s : State) (f : Nat) (x : Func) : (s.setFunc f x).out = s.out := rfl
@[simp] theorem State.setFunc_mem (s : State) (f : Nat) (x : Func) : (s.setFunc f x).mem = s.mem := rfl
@[simp] theorem State.setFunc_seats (s : State) (f : Nat) (x : Func) : (s.setFunc f x).seats = s.seats := rfl
@[simp] theorem State.setFunc_tes (s : State) (f : Nat) (x : Func) : (s.setFunc f x).tes = s.tes := rfl
@[simp] theorem State.setFunc_clusters (s : State) (f : Nat) (x : Func) : (s.setFunc f x).clusters = s.clusters := rfl
@[simp] theorem State.setFunc_lanes (s : State) (f : Nat) (x : Func) : (s.setFunc f x).lanes = s.lanes := rfl
@[simp] theorem State.setFunc_depot (s : State) (f : Nat) (x : Func) : (s.setFunc f x).depot = s.depot := rfl
@[simp] theorem State.setFunc_tenancy (s : State) (f : Nat) (x : Func) : (s.setFunc f x).tenancy = s.tenancy := rfl
@[simp] theorem State.setFunc_keys (s : State) (f : Nat) (x : Func) : (s.setFunc f x).keys = s.keys := rfl
@[simp] theorem State.setFunc_vault (s : State) (f : Nat) (x : Func) : (s.setFunc f x).vault = s.vault := rfl
@[simp] theorem State.setFunc_journal (s : State) (f : Nat) (x : Func) : (s.setFunc f x).journal = s.journal := rfl
@[simp] theorem State.setFunc_held (s : State) (f : Nat) (x : Func) : (s.setFunc f x).held = s.held := rfl
@[simp] theorem State.setFunc_port0 (s : State) (f : Nat) (x : Func) : (s.setFunc f x).port0 = s.port0 := rfl
@[simp] theorem State.setFunc_port1 (s : State) (f : Nat) (x : Func) : (s.setFunc f x).port1 = s.port1 := rfl
@[simp] theorem State.setFunc_openSerial (s : State) (f : Nat) (x : Func) : (s.setFunc f x).openSerial = s.openSerial := rfl
@[simp] theorem State.setFunc_gates (s : State) (f : Nat) (x : Func) : (s.setFunc f x).gates = s.gates := rfl
@[simp] theorem State.setFunc_steward (s : State) (f : Nat) (x : Func) : (s.setFunc f x).steward = s.steward := rfl
@[simp] theorem State.setFunc_time (s : State) (f : Nat) (x : Func) : (s.setFunc f x).time = s.time := rfl
@[simp] theorem State.setFunc_entropy (s : State) (f : Nat) (x : Func) : (s.setFunc f x).entropy = s.entropy := rfl
@[simp] theorem State.setFunc_cards (s : State) (f : Nat) (x : Func) : (s.setFunc f x).cards = s.cards := rfl
@[simp] theorem State.setFunc_tamper (s : State) (f : Nat) (x : Func) : (s.setFunc f x).tamper = s.tamper := rfl
@[simp] theorem State.setFunc_lc (s : State) (f : Nat) (x : Func) : (s.setFunc f x).lc = s.lc := rfl
@[simp] theorem State.setFunc_faults (s : State) (f : Nat) (x : Func) : (s.setFunc f x).faults = s.faults := rfl
@[simp] theorem State.setFunc_recorder (s : State) (f : Nat) (x : Func) : (s.setFunc f x).recorder = s.recorder := rfl
@[simp] theorem State.setFunc_power (s : State) (f : Nat) (x : Func) : (s.setFunc f x).power = s.power := rfl

@[simp] theorem State.setGate_pending (s : State) (g : Nat) (x : Gate) : (s.setGate g x).pending = s.pending := rfl
@[simp] theorem State.setGate_now (s : State) (g : Nat) (x : Gate) : (s.setGate g x).now = s.now := rfl
@[simp] theorem State.setGate_freeCtr (s : State) (g : Nat) (x : Gate) : (s.setGate g x).freeCtr = s.freeCtr := rfl
@[simp] theorem State.setGate_out (s : State) (g : Nat) (x : Gate) : (s.setGate g x).out = s.out := rfl
@[simp] theorem State.setGate_mem (s : State) (g : Nat) (x : Gate) : (s.setGate g x).mem = s.mem := rfl
@[simp] theorem State.setGate_seats (s : State) (g : Nat) (x : Gate) : (s.setGate g x).seats = s.seats := rfl
@[simp] theorem State.setGate_tes (s : State) (g : Nat) (x : Gate) : (s.setGate g x).tes = s.tes := rfl
@[simp] theorem State.setGate_clusters (s : State) (g : Nat) (x : Gate) : (s.setGate g x).clusters = s.clusters := rfl
@[simp] theorem State.setGate_lanes (s : State) (g : Nat) (x : Gate) : (s.setGate g x).lanes = s.lanes := rfl
@[simp] theorem State.setGate_depot (s : State) (g : Nat) (x : Gate) : (s.setGate g x).depot = s.depot := rfl
@[simp] theorem State.setGate_tenancy (s : State) (g : Nat) (x : Gate) : (s.setGate g x).tenancy = s.tenancy := rfl
@[simp] theorem State.setGate_keys (s : State) (g : Nat) (x : Gate) : (s.setGate g x).keys = s.keys := rfl
@[simp] theorem State.setGate_vault (s : State) (g : Nat) (x : Gate) : (s.setGate g x).vault = s.vault := rfl
@[simp] theorem State.setGate_journal (s : State) (g : Nat) (x : Gate) : (s.setGate g x).journal = s.journal := rfl
@[simp] theorem State.setGate_held (s : State) (g : Nat) (x : Gate) : (s.setGate g x).held = s.held := rfl
@[simp] theorem State.setGate_port0 (s : State) (g : Nat) (x : Gate) : (s.setGate g x).port0 = s.port0 := rfl
@[simp] theorem State.setGate_port1 (s : State) (g : Nat) (x : Gate) : (s.setGate g x).port1 = s.port1 := rfl
@[simp] theorem State.setGate_openSerial (s : State) (g : Nat) (x : Gate) : (s.setGate g x).openSerial = s.openSerial := rfl
@[simp] theorem State.setGate_pcie (s : State) (g : Nat) (x : Gate) : (s.setGate g x).pcie = s.pcie := rfl
@[simp] theorem State.setGate_steward (s : State) (g : Nat) (x : Gate) : (s.setGate g x).steward = s.steward := rfl
@[simp] theorem State.setGate_time (s : State) (g : Nat) (x : Gate) : (s.setGate g x).time = s.time := rfl
@[simp] theorem State.setGate_entropy (s : State) (g : Nat) (x : Gate) : (s.setGate g x).entropy = s.entropy := rfl
@[simp] theorem State.setGate_cards (s : State) (g : Nat) (x : Gate) : (s.setGate g x).cards = s.cards := rfl
@[simp] theorem State.setGate_tamper (s : State) (g : Nat) (x : Gate) : (s.setGate g x).tamper = s.tamper := rfl
@[simp] theorem State.setGate_lc (s : State) (g : Nat) (x : Gate) : (s.setGate g x).lc = s.lc := rfl
@[simp] theorem State.setGate_faults (s : State) (g : Nat) (x : Gate) : (s.setGate g x).faults = s.faults := rfl
@[simp] theorem State.setGate_recorder (s : State) (g : Nat) (x : Gate) : (s.setGate g x).recorder = s.recorder := rfl
@[simp] theorem State.setGate_power (s : State) (g : Nat) (x : Gate) : (s.setGate g x).power = s.power := rfl

@[simp] theorem State.setCell_pending (s : State) (n : Nat) (x : Cell) : (s.setCell n x).pending = s.pending := rfl
@[simp] theorem State.setCell_now (s : State) (n : Nat) (x : Cell) : (s.setCell n x).now = s.now := rfl
@[simp] theorem State.setCell_freeCtr (s : State) (n : Nat) (x : Cell) : (s.setCell n x).freeCtr = s.freeCtr := rfl
@[simp] theorem State.setCell_out (s : State) (n : Nat) (x : Cell) : (s.setCell n x).out = s.out := rfl
@[simp] theorem State.setCell_mem (s : State) (n : Nat) (x : Cell) : (s.setCell n x).mem = s.mem := rfl
@[simp] theorem State.setCell_seats (s : State) (n : Nat) (x : Cell) : (s.setCell n x).seats = s.seats := rfl
@[simp] theorem State.setCell_tes (s : State) (n : Nat) (x : Cell) : (s.setCell n x).tes = s.tes := rfl
@[simp] theorem State.setCell_clusters (s : State) (n : Nat) (x : Cell) : (s.setCell n x).clusters = s.clusters := rfl
@[simp] theorem State.setCell_lanes (s : State) (n : Nat) (x : Cell) : (s.setCell n x).lanes = s.lanes := rfl
@[simp] theorem State.setCell_depot (s : State) (n : Nat) (x : Cell) : (s.setCell n x).depot = s.depot := rfl
@[simp] theorem State.setCell_tenancy (s : State) (n : Nat) (x : Cell) : (s.setCell n x).tenancy = s.tenancy := rfl
@[simp] theorem State.setCell_keys (s : State) (n : Nat) (x : Cell) : (s.setCell n x).keys = s.keys := rfl
@[simp] theorem State.setCell_vault (s : State) (n : Nat) (x : Cell) : (s.setCell n x).vault = s.vault := rfl
@[simp] theorem State.setCell_journal (s : State) (n : Nat) (x : Cell) : (s.setCell n x).journal = s.journal := rfl
@[simp] theorem State.setCell_held (s : State) (n : Nat) (x : Cell) : (s.setCell n x).held = s.held := rfl
@[simp] theorem State.setCell_port0 (s : State) (n : Nat) (x : Cell) : (s.setCell n x).port0 = s.port0 := rfl
@[simp] theorem State.setCell_port1 (s : State) (n : Nat) (x : Cell) : (s.setCell n x).port1 = s.port1 := rfl
@[simp] theorem State.setCell_openSerial (s : State) (n : Nat) (x : Cell) : (s.setCell n x).openSerial = s.openSerial := rfl
@[simp] theorem State.setCell_pcie (s : State) (n : Nat) (x : Cell) : (s.setCell n x).pcie = s.pcie := rfl
@[simp] theorem State.setCell_gates (s : State) (n : Nat) (x : Cell) : (s.setCell n x).gates = s.gates := rfl
@[simp] theorem State.setCell_steward (s : State) (n : Nat) (x : Cell) : (s.setCell n x).steward = s.steward := rfl
@[simp] theorem State.setCell_time (s : State) (n : Nat) (x : Cell) : (s.setCell n x).time = s.time := rfl
@[simp] theorem State.setCell_cards (s : State) (n : Nat) (x : Cell) : (s.setCell n x).cards = s.cards := rfl
@[simp] theorem State.setCell_tamper (s : State) (n : Nat) (x : Cell) : (s.setCell n x).tamper = s.tamper := rfl
@[simp] theorem State.setCell_lc (s : State) (n : Nat) (x : Cell) : (s.setCell n x).lc = s.lc := rfl
@[simp] theorem State.setCell_faults (s : State) (n : Nat) (x : Cell) : (s.setCell n x).faults = s.faults := rfl
@[simp] theorem State.setCell_recorder (s : State) (n : Nat) (x : Cell) : (s.setCell n x).recorder = s.recorder := rfl
@[simp] theorem State.setCell_power (s : State) (n : Nat) (x : Cell) : (s.setCell n x).power = s.power := rfl

@[simp] theorem State.setCard_pending (s : State) (n : Nat) (x : CardSlot) : (s.setCard n x).pending = s.pending := rfl
@[simp] theorem State.setCard_now (s : State) (n : Nat) (x : CardSlot) : (s.setCard n x).now = s.now := rfl
@[simp] theorem State.setCard_freeCtr (s : State) (n : Nat) (x : CardSlot) : (s.setCard n x).freeCtr = s.freeCtr := rfl
@[simp] theorem State.setCard_out (s : State) (n : Nat) (x : CardSlot) : (s.setCard n x).out = s.out := rfl
@[simp] theorem State.setCard_mem (s : State) (n : Nat) (x : CardSlot) : (s.setCard n x).mem = s.mem := rfl
@[simp] theorem State.setCard_seats (s : State) (n : Nat) (x : CardSlot) : (s.setCard n x).seats = s.seats := rfl
@[simp] theorem State.setCard_tes (s : State) (n : Nat) (x : CardSlot) : (s.setCard n x).tes = s.tes := rfl
@[simp] theorem State.setCard_clusters (s : State) (n : Nat) (x : CardSlot) : (s.setCard n x).clusters = s.clusters := rfl
@[simp] theorem State.setCard_lanes (s : State) (n : Nat) (x : CardSlot) : (s.setCard n x).lanes = s.lanes := rfl
@[simp] theorem State.setCard_depot (s : State) (n : Nat) (x : CardSlot) : (s.setCard n x).depot = s.depot := rfl
@[simp] theorem State.setCard_tenancy (s : State) (n : Nat) (x : CardSlot) : (s.setCard n x).tenancy = s.tenancy := rfl
@[simp] theorem State.setCard_keys (s : State) (n : Nat) (x : CardSlot) : (s.setCard n x).keys = s.keys := rfl
@[simp] theorem State.setCard_vault (s : State) (n : Nat) (x : CardSlot) : (s.setCard n x).vault = s.vault := rfl
@[simp] theorem State.setCard_journal (s : State) (n : Nat) (x : CardSlot) : (s.setCard n x).journal = s.journal := rfl
@[simp] theorem State.setCard_held (s : State) (n : Nat) (x : CardSlot) : (s.setCard n x).held = s.held := rfl
@[simp] theorem State.setCard_port0 (s : State) (n : Nat) (x : CardSlot) : (s.setCard n x).port0 = s.port0 := rfl
@[simp] theorem State.setCard_port1 (s : State) (n : Nat) (x : CardSlot) : (s.setCard n x).port1 = s.port1 := rfl
@[simp] theorem State.setCard_openSerial (s : State) (n : Nat) (x : CardSlot) : (s.setCard n x).openSerial = s.openSerial := rfl
@[simp] theorem State.setCard_pcie (s : State) (n : Nat) (x : CardSlot) : (s.setCard n x).pcie = s.pcie := rfl
@[simp] theorem State.setCard_gates (s : State) (n : Nat) (x : CardSlot) : (s.setCard n x).gates = s.gates := rfl
@[simp] theorem State.setCard_steward (s : State) (n : Nat) (x : CardSlot) : (s.setCard n x).steward = s.steward := rfl
@[simp] theorem State.setCard_time (s : State) (n : Nat) (x : CardSlot) : (s.setCard n x).time = s.time := rfl
@[simp] theorem State.setCard_entropy (s : State) (n : Nat) (x : CardSlot) : (s.setCard n x).entropy = s.entropy := rfl
@[simp] theorem State.setCard_tamper (s : State) (n : Nat) (x : CardSlot) : (s.setCard n x).tamper = s.tamper := rfl
@[simp] theorem State.setCard_lc (s : State) (n : Nat) (x : CardSlot) : (s.setCard n x).lc = s.lc := rfl
@[simp] theorem State.setCard_faults (s : State) (n : Nat) (x : CardSlot) : (s.setCard n x).faults = s.faults := rfl
@[simp] theorem State.setCard_recorder (s : State) (n : Nat) (x : CardSlot) : (s.setCard n x).recorder = s.recorder := rfl
@[simp] theorem State.setCard_power (s : State) (n : Nat) (x : CardSlot) : (s.setCard n x).power = s.power := rfl

@[simp] theorem State.setSource_pending (s : State) (n : Nat) (x : Source) : (s.setSource n x).pending = s.pending := rfl
@[simp] theorem State.setSource_now (s : State) (n : Nat) (x : Source) : (s.setSource n x).now = s.now := rfl
@[simp] theorem State.setSource_freeCtr (s : State) (n : Nat) (x : Source) : (s.setSource n x).freeCtr = s.freeCtr := rfl
@[simp] theorem State.setSource_out (s : State) (n : Nat) (x : Source) : (s.setSource n x).out = s.out := rfl
@[simp] theorem State.setSource_mem (s : State) (n : Nat) (x : Source) : (s.setSource n x).mem = s.mem := rfl
@[simp] theorem State.setSource_seats (s : State) (n : Nat) (x : Source) : (s.setSource n x).seats = s.seats := rfl
@[simp] theorem State.setSource_tes (s : State) (n : Nat) (x : Source) : (s.setSource n x).tes = s.tes := rfl
@[simp] theorem State.setSource_clusters (s : State) (n : Nat) (x : Source) : (s.setSource n x).clusters = s.clusters := rfl
@[simp] theorem State.setSource_lanes (s : State) (n : Nat) (x : Source) : (s.setSource n x).lanes = s.lanes := rfl
@[simp] theorem State.setSource_depot (s : State) (n : Nat) (x : Source) : (s.setSource n x).depot = s.depot := rfl
@[simp] theorem State.setSource_tenancy (s : State) (n : Nat) (x : Source) : (s.setSource n x).tenancy = s.tenancy := rfl
@[simp] theorem State.setSource_keys (s : State) (n : Nat) (x : Source) : (s.setSource n x).keys = s.keys := rfl
@[simp] theorem State.setSource_vault (s : State) (n : Nat) (x : Source) : (s.setSource n x).vault = s.vault := rfl
@[simp] theorem State.setSource_journal (s : State) (n : Nat) (x : Source) : (s.setSource n x).journal = s.journal := rfl
@[simp] theorem State.setSource_held (s : State) (n : Nat) (x : Source) : (s.setSource n x).held = s.held := rfl
@[simp] theorem State.setSource_port0 (s : State) (n : Nat) (x : Source) : (s.setSource n x).port0 = s.port0 := rfl
@[simp] theorem State.setSource_port1 (s : State) (n : Nat) (x : Source) : (s.setSource n x).port1 = s.port1 := rfl
@[simp] theorem State.setSource_openSerial (s : State) (n : Nat) (x : Source) : (s.setSource n x).openSerial = s.openSerial := rfl
@[simp] theorem State.setSource_pcie (s : State) (n : Nat) (x : Source) : (s.setSource n x).pcie = s.pcie := rfl
@[simp] theorem State.setSource_gates (s : State) (n : Nat) (x : Source) : (s.setSource n x).gates = s.gates := rfl
@[simp] theorem State.setSource_steward (s : State) (n : Nat) (x : Source) : (s.setSource n x).steward = s.steward := rfl
@[simp] theorem State.setSource_time (s : State) (n : Nat) (x : Source) : (s.setSource n x).time = s.time := rfl
@[simp] theorem State.setSource_entropy (s : State) (n : Nat) (x : Source) : (s.setSource n x).entropy = s.entropy := rfl
@[simp] theorem State.setSource_cards (s : State) (n : Nat) (x : Source) : (s.setSource n x).cards = s.cards := rfl
@[simp] theorem State.setSource_lc (s : State) (n : Nat) (x : Source) : (s.setSource n x).lc = s.lc := rfl
@[simp] theorem State.setSource_faults (s : State) (n : Nat) (x : Source) : (s.setSource n x).faults = s.faults := rfl
@[simp] theorem State.setSource_recorder (s : State) (n : Nat) (x : Source) : (s.setSource n x).recorder = s.recorder := rfl
@[simp] theorem State.setSource_power (s : State) (n : Nat) (x : Source) : (s.setSource n x).power = s.power := rfl

@[simp] theorem State.setPart_pending (s : State) (c : Colour) (x : Part) : (s.setPart c x).pending = s.pending := rfl
@[simp] theorem State.setPart_now (s : State) (c : Colour) (x : Part) : (s.setPart c x).now = s.now := rfl
@[simp] theorem State.setPart_freeCtr (s : State) (c : Colour) (x : Part) : (s.setPart c x).freeCtr = s.freeCtr := rfl
@[simp] theorem State.setPart_out (s : State) (c : Colour) (x : Part) : (s.setPart c x).out = s.out := rfl
@[simp] theorem State.setPart_mem (s : State) (c : Colour) (x : Part) : (s.setPart c x).mem = s.mem := rfl
@[simp] theorem State.setPart_seats (s : State) (c : Colour) (x : Part) : (s.setPart c x).seats = s.seats := rfl
@[simp] theorem State.setPart_tes (s : State) (c : Colour) (x : Part) : (s.setPart c x).tes = s.tes := rfl
@[simp] theorem State.setPart_clusters (s : State) (c : Colour) (x : Part) : (s.setPart c x).clusters = s.clusters := rfl
@[simp] theorem State.setPart_lanes (s : State) (c : Colour) (x : Part) : (s.setPart c x).lanes = s.lanes := rfl
@[simp] theorem State.setPart_depot (s : State) (c : Colour) (x : Part) : (s.setPart c x).depot = s.depot := rfl
@[simp] theorem State.setPart_keys (s : State) (c : Colour) (x : Part) : (s.setPart c x).keys = s.keys := rfl
@[simp] theorem State.setPart_vault (s : State) (c : Colour) (x : Part) : (s.setPart c x).vault = s.vault := rfl
@[simp] theorem State.setPart_journal (s : State) (c : Colour) (x : Part) : (s.setPart c x).journal = s.journal := rfl
@[simp] theorem State.setPart_held (s : State) (c : Colour) (x : Part) : (s.setPart c x).held = s.held := rfl
@[simp] theorem State.setPart_port0 (s : State) (c : Colour) (x : Part) : (s.setPart c x).port0 = s.port0 := rfl
@[simp] theorem State.setPart_port1 (s : State) (c : Colour) (x : Part) : (s.setPart c x).port1 = s.port1 := rfl
@[simp] theorem State.setPart_openSerial (s : State) (c : Colour) (x : Part) : (s.setPart c x).openSerial = s.openSerial := rfl
@[simp] theorem State.setPart_pcie (s : State) (c : Colour) (x : Part) : (s.setPart c x).pcie = s.pcie := rfl
@[simp] theorem State.setPart_gates (s : State) (c : Colour) (x : Part) : (s.setPart c x).gates = s.gates := rfl
@[simp] theorem State.setPart_steward (s : State) (c : Colour) (x : Part) : (s.setPart c x).steward = s.steward := rfl
@[simp] theorem State.setPart_time (s : State) (c : Colour) (x : Part) : (s.setPart c x).time = s.time := rfl
@[simp] theorem State.setPart_entropy (s : State) (c : Colour) (x : Part) : (s.setPart c x).entropy = s.entropy := rfl
@[simp] theorem State.setPart_cards (s : State) (c : Colour) (x : Part) : (s.setPart c x).cards = s.cards := rfl
@[simp] theorem State.setPart_tamper (s : State) (c : Colour) (x : Part) : (s.setPart c x).tamper = s.tamper := rfl
@[simp] theorem State.setPart_lc (s : State) (c : Colour) (x : Part) : (s.setPart c x).lc = s.lc := rfl
@[simp] theorem State.setPart_faults (s : State) (c : Colour) (x : Part) : (s.setPart c x).faults = s.faults := rfl
@[simp] theorem State.setPart_recorder (s : State) (c : Colour) (x : Part) : (s.setPart c x).recorder = s.recorder := rfl
@[simp] theorem State.setPart_power (s : State) (c : Colour) (x : Part) : (s.setPart c x).power = s.power := rfl

@[simp] theorem State.setPort_pending (s : State) (p : Nat) (x : Port) : (s.setPort p x).pending = s.pending := by unfold State.setPort; split <;> rfl
@[simp] theorem State.setPort_now (s : State) (p : Nat) (x : Port) : (s.setPort p x).now = s.now := by unfold State.setPort; split <;> rfl
@[simp] theorem State.setPort_freeCtr (s : State) (p : Nat) (x : Port) : (s.setPort p x).freeCtr = s.freeCtr := by unfold State.setPort; split <;> rfl
@[simp] theorem State.setPort_out (s : State) (p : Nat) (x : Port) : (s.setPort p x).out = s.out := by unfold State.setPort; split <;> rfl
@[simp] theorem State.setPort_mem (s : State) (p : Nat) (x : Port) : (s.setPort p x).mem = s.mem := by unfold State.setPort; split <;> rfl
@[simp] theorem State.setPort_seats (s : State) (p : Nat) (x : Port) : (s.setPort p x).seats = s.seats := by unfold State.setPort; split <;> rfl
@[simp] theorem State.setPort_tes (s : State) (p : Nat) (x : Port) : (s.setPort p x).tes = s.tes := by unfold State.setPort; split <;> rfl
@[simp] theorem State.setPort_clusters (s : State) (p : Nat) (x : Port) : (s.setPort p x).clusters = s.clusters := by unfold State.setPort; split <;> rfl
@[simp] theorem State.setPort_lanes (s : State) (p : Nat) (x : Port) : (s.setPort p x).lanes = s.lanes := by unfold State.setPort; split <;> rfl
@[simp] theorem State.setPort_depot (s : State) (p : Nat) (x : Port) : (s.setPort p x).depot = s.depot := by unfold State.setPort; split <;> rfl
@[simp] theorem State.setPort_tenancy (s : State) (p : Nat) (x : Port) : (s.setPort p x).tenancy = s.tenancy := by unfold State.setPort; split <;> rfl
@[simp] theorem State.setPort_keys (s : State) (p : Nat) (x : Port) : (s.setPort p x).keys = s.keys := by unfold State.setPort; split <;> rfl
@[simp] theorem State.setPort_vault (s : State) (p : Nat) (x : Port) : (s.setPort p x).vault = s.vault := by unfold State.setPort; split <;> rfl
@[simp] theorem State.setPort_journal (s : State) (p : Nat) (x : Port) : (s.setPort p x).journal = s.journal := by unfold State.setPort; split <;> rfl
@[simp] theorem State.setPort_held (s : State) (p : Nat) (x : Port) : (s.setPort p x).held = s.held := by unfold State.setPort; split <;> rfl
@[simp] theorem State.setPort_openSerial (s : State) (p : Nat) (x : Port) : (s.setPort p x).openSerial = s.openSerial := by unfold State.setPort; split <;> rfl
@[simp] theorem State.setPort_pcie (s : State) (p : Nat) (x : Port) : (s.setPort p x).pcie = s.pcie := by unfold State.setPort; split <;> rfl
@[simp] theorem State.setPort_gates (s : State) (p : Nat) (x : Port) : (s.setPort p x).gates = s.gates := by unfold State.setPort; split <;> rfl
@[simp] theorem State.setPort_steward (s : State) (p : Nat) (x : Port) : (s.setPort p x).steward = s.steward := by unfold State.setPort; split <;> rfl
@[simp] theorem State.setPort_time (s : State) (p : Nat) (x : Port) : (s.setPort p x).time = s.time := by unfold State.setPort; split <;> rfl
@[simp] theorem State.setPort_entropy (s : State) (p : Nat) (x : Port) : (s.setPort p x).entropy = s.entropy := by unfold State.setPort; split <;> rfl
@[simp] theorem State.setPort_cards (s : State) (p : Nat) (x : Port) : (s.setPort p x).cards = s.cards := by unfold State.setPort; split <;> rfl
@[simp] theorem State.setPort_tamper (s : State) (p : Nat) (x : Port) : (s.setPort p x).tamper = s.tamper := by unfold State.setPort; split <;> rfl
@[simp] theorem State.setPort_lc (s : State) (p : Nat) (x : Port) : (s.setPort p x).lc = s.lc := by unfold State.setPort; split <;> rfl
@[simp] theorem State.setPort_faults (s : State) (p : Nat) (x : Port) : (s.setPort p x).faults = s.faults := by unfold State.setPort; split <;> rfl
@[simp] theorem State.setPort_recorder (s : State) (p : Nat) (x : Port) : (s.setPort p x).recorder = s.recorder := by unfold State.setPort; split <;> rfl
@[simp] theorem State.setPort_power (s : State) (p : Nat) (x : Port) : (s.setPort p x).power = s.power := by unfold State.setPort; split <;> rfl

@[simp] theorem State.setExpander_pending (s : State) (e : Nat) (x : Expander) : (s.setExpander e x).pending = s.pending := by unfold State.setExpander; split <;> rfl
@[simp] theorem State.setExpander_now (s : State) (e : Nat) (x : Expander) : (s.setExpander e x).now = s.now := by unfold State.setExpander; split <;> rfl
@[simp] theorem State.setExpander_freeCtr (s : State) (e : Nat) (x : Expander) : (s.setExpander e x).freeCtr = s.freeCtr := by unfold State.setExpander; split <;> rfl
@[simp] theorem State.setExpander_out (s : State) (e : Nat) (x : Expander) : (s.setExpander e x).out = s.out := by unfold State.setExpander; split <;> rfl
@[simp] theorem State.setExpander_mem (s : State) (e : Nat) (x : Expander) : (s.setExpander e x).mem = s.mem := by unfold State.setExpander; split <;> rfl
@[simp] theorem State.setExpander_seats (s : State) (e : Nat) (x : Expander) : (s.setExpander e x).seats = s.seats := by unfold State.setExpander; split <;> rfl
@[simp] theorem State.setExpander_tes (s : State) (e : Nat) (x : Expander) : (s.setExpander e x).tes = s.tes := by unfold State.setExpander; split <;> rfl
@[simp] theorem State.setExpander_lanes (s : State) (e : Nat) (x : Expander) : (s.setExpander e x).lanes = s.lanes := by unfold State.setExpander; split <;> rfl
@[simp] theorem State.setExpander_depot (s : State) (e : Nat) (x : Expander) : (s.setExpander e x).depot = s.depot := by unfold State.setExpander; split <;> rfl
@[simp] theorem State.setExpander_tenancy (s : State) (e : Nat) (x : Expander) : (s.setExpander e x).tenancy = s.tenancy := by unfold State.setExpander; split <;> rfl
@[simp] theorem State.setExpander_keys (s : State) (e : Nat) (x : Expander) : (s.setExpander e x).keys = s.keys := by unfold State.setExpander; split <;> rfl
@[simp] theorem State.setExpander_vault (s : State) (e : Nat) (x : Expander) : (s.setExpander e x).vault = s.vault := by unfold State.setExpander; split <;> rfl
@[simp] theorem State.setExpander_journal (s : State) (e : Nat) (x : Expander) : (s.setExpander e x).journal = s.journal := by unfold State.setExpander; split <;> rfl
@[simp] theorem State.setExpander_held (s : State) (e : Nat) (x : Expander) : (s.setExpander e x).held = s.held := by unfold State.setExpander; split <;> rfl
@[simp] theorem State.setExpander_port0 (s : State) (e : Nat) (x : Expander) : (s.setExpander e x).port0 = s.port0 := by unfold State.setExpander; split <;> rfl
@[simp] theorem State.setExpander_port1 (s : State) (e : Nat) (x : Expander) : (s.setExpander e x).port1 = s.port1 := by unfold State.setExpander; split <;> rfl
@[simp] theorem State.setExpander_openSerial (s : State) (e : Nat) (x : Expander) : (s.setExpander e x).openSerial = s.openSerial := by unfold State.setExpander; split <;> rfl
@[simp] theorem State.setExpander_pcie (s : State) (e : Nat) (x : Expander) : (s.setExpander e x).pcie = s.pcie := by unfold State.setExpander; split <;> rfl
@[simp] theorem State.setExpander_gates (s : State) (e : Nat) (x : Expander) : (s.setExpander e x).gates = s.gates := by unfold State.setExpander; split <;> rfl
@[simp] theorem State.setExpander_steward (s : State) (e : Nat) (x : Expander) : (s.setExpander e x).steward = s.steward := by unfold State.setExpander; split <;> rfl
@[simp] theorem State.setExpander_time (s : State) (e : Nat) (x : Expander) : (s.setExpander e x).time = s.time := by unfold State.setExpander; split <;> rfl
@[simp] theorem State.setExpander_cards (s : State) (e : Nat) (x : Expander) : (s.setExpander e x).cards = s.cards := by unfold State.setExpander; split <;> rfl
@[simp] theorem State.setExpander_tamper (s : State) (e : Nat) (x : Expander) : (s.setExpander e x).tamper = s.tamper := by unfold State.setExpander; split <;> rfl
@[simp] theorem State.setExpander_lc (s : State) (e : Nat) (x : Expander) : (s.setExpander e x).lc = s.lc := by unfold State.setExpander; split <;> rfl
@[simp] theorem State.setExpander_faults (s : State) (e : Nat) (x : Expander) : (s.setExpander e x).faults = s.faults := by unfold State.setExpander; split <;> rfl
@[simp] theorem State.setExpander_recorder (s : State) (e : Nat) (x : Expander) : (s.setExpander e x).recorder = s.recorder := by unfold State.setExpander; split <;> rfl
@[simp] theorem State.setExpander_power (s : State) (e : Nat) (x : Expander) : (s.setExpander e x).power = s.power := by unfold State.setExpander; split <;> rfl

@[simp] theorem State.emit_pending (s : State) (o : Output) : (s.emit o).pending = s.pending := rfl
@[simp] theorem State.emit_now (s : State) (o : Output) : (s.emit o).now = s.now := rfl
@[simp] theorem State.emit_freeCtr (s : State) (o : Output) : (s.emit o).freeCtr = s.freeCtr := rfl
@[simp] theorem State.emit_mem (s : State) (o : Output) : (s.emit o).mem = s.mem := rfl
@[simp] theorem State.emit_seats (s : State) (o : Output) : (s.emit o).seats = s.seats := rfl
@[simp] theorem State.emit_tes (s : State) (o : Output) : (s.emit o).tes = s.tes := rfl
@[simp] theorem State.emit_clusters (s : State) (o : Output) : (s.emit o).clusters = s.clusters := rfl
@[simp] theorem State.emit_lanes (s : State) (o : Output) : (s.emit o).lanes = s.lanes := rfl
@[simp] theorem State.emit_depot (s : State) (o : Output) : (s.emit o).depot = s.depot := rfl
@[simp] theorem State.emit_tenancy (s : State) (o : Output) : (s.emit o).tenancy = s.tenancy := rfl
@[simp] theorem State.emit_keys (s : State) (o : Output) : (s.emit o).keys = s.keys := rfl
@[simp] theorem State.emit_vault (s : State) (o : Output) : (s.emit o).vault = s.vault := rfl
@[simp] theorem State.emit_journal (s : State) (o : Output) : (s.emit o).journal = s.journal := rfl
@[simp] theorem State.emit_held (s : State) (o : Output) : (s.emit o).held = s.held := rfl
@[simp] theorem State.emit_port0 (s : State) (o : Output) : (s.emit o).port0 = s.port0 := rfl
@[simp] theorem State.emit_port1 (s : State) (o : Output) : (s.emit o).port1 = s.port1 := rfl
@[simp] theorem State.emit_openSerial (s : State) (o : Output) : (s.emit o).openSerial = s.openSerial := rfl
@[simp] theorem State.emit_pcie (s : State) (o : Output) : (s.emit o).pcie = s.pcie := rfl
@[simp] theorem State.emit_gates (s : State) (o : Output) : (s.emit o).gates = s.gates := rfl
@[simp] theorem State.emit_steward (s : State) (o : Output) : (s.emit o).steward = s.steward := rfl
@[simp] theorem State.emit_time (s : State) (o : Output) : (s.emit o).time = s.time := rfl
@[simp] theorem State.emit_entropy (s : State) (o : Output) : (s.emit o).entropy = s.entropy := rfl
@[simp] theorem State.emit_cards (s : State) (o : Output) : (s.emit o).cards = s.cards := rfl
@[simp] theorem State.emit_tamper (s : State) (o : Output) : (s.emit o).tamper = s.tamper := rfl
@[simp] theorem State.emit_lc (s : State) (o : Output) : (s.emit o).lc = s.lc := rfl
@[simp] theorem State.emit_faults (s : State) (o : Output) : (s.emit o).faults = s.faults := rfl
@[simp] theorem State.emit_recorder (s : State) (o : Output) : (s.emit o).recorder = s.recorder := rfl
@[simp] theorem State.emit_power (s : State) (o : Output) : (s.emit o).power = s.power := rfl

@[simp] theorem State.drawn_pending (s : State) : (s.drawn).pending = s.pending := rfl
@[simp] theorem State.drawn_now (s : State) : (s.drawn).now = s.now := rfl
@[simp] theorem State.drawn_out (s : State) : (s.drawn).out = s.out := rfl
@[simp] theorem State.drawn_mem (s : State) : (s.drawn).mem = s.mem := rfl
@[simp] theorem State.drawn_seats (s : State) : (s.drawn).seats = s.seats := rfl
@[simp] theorem State.drawn_tes (s : State) : (s.drawn).tes = s.tes := rfl
@[simp] theorem State.drawn_clusters (s : State) : (s.drawn).clusters = s.clusters := rfl
@[simp] theorem State.drawn_lanes (s : State) : (s.drawn).lanes = s.lanes := rfl
@[simp] theorem State.drawn_depot (s : State) : (s.drawn).depot = s.depot := rfl
@[simp] theorem State.drawn_tenancy (s : State) : (s.drawn).tenancy = s.tenancy := rfl
@[simp] theorem State.drawn_keys (s : State) : (s.drawn).keys = s.keys := rfl
@[simp] theorem State.drawn_vault (s : State) : (s.drawn).vault = s.vault := rfl
@[simp] theorem State.drawn_journal (s : State) : (s.drawn).journal = s.journal := rfl
@[simp] theorem State.drawn_held (s : State) : (s.drawn).held = s.held := rfl
@[simp] theorem State.drawn_port0 (s : State) : (s.drawn).port0 = s.port0 := rfl
@[simp] theorem State.drawn_port1 (s : State) : (s.drawn).port1 = s.port1 := rfl
@[simp] theorem State.drawn_openSerial (s : State) : (s.drawn).openSerial = s.openSerial := rfl
@[simp] theorem State.drawn_pcie (s : State) : (s.drawn).pcie = s.pcie := rfl
@[simp] theorem State.drawn_gates (s : State) : (s.drawn).gates = s.gates := rfl
@[simp] theorem State.drawn_steward (s : State) : (s.drawn).steward = s.steward := rfl
@[simp] theorem State.drawn_time (s : State) : (s.drawn).time = s.time := rfl
@[simp] theorem State.drawn_entropy (s : State) : (s.drawn).entropy = s.entropy := rfl
@[simp] theorem State.drawn_cards (s : State) : (s.drawn).cards = s.cards := rfl
@[simp] theorem State.drawn_tamper (s : State) : (s.drawn).tamper = s.tamper := rfl
@[simp] theorem State.drawn_lc (s : State) : (s.drawn).lc = s.lc := rfl
@[simp] theorem State.drawn_faults (s : State) : (s.drawn).faults = s.faults := rfl
@[simp] theorem State.drawn_recorder (s : State) : (s.drawn).recorder = s.recorder := rfl
@[simp] theorem State.drawn_power (s : State) : (s.drawn).power = s.power := rfl

@[simp] theorem State.drawnBytes_pending (s : State) (n : Nat) : (s.drawnBytes n).pending = s.pending := rfl
@[simp] theorem State.drawnBytes_now (s : State) (n : Nat) : (s.drawnBytes n).now = s.now := rfl
@[simp] theorem State.drawnBytes_out (s : State) (n : Nat) : (s.drawnBytes n).out = s.out := rfl
@[simp] theorem State.drawnBytes_mem (s : State) (n : Nat) : (s.drawnBytes n).mem = s.mem := rfl
@[simp] theorem State.drawnBytes_seats (s : State) (n : Nat) : (s.drawnBytes n).seats = s.seats := rfl
@[simp] theorem State.drawnBytes_tes (s : State) (n : Nat) : (s.drawnBytes n).tes = s.tes := rfl
@[simp] theorem State.drawnBytes_clusters (s : State) (n : Nat) : (s.drawnBytes n).clusters = s.clusters := rfl
@[simp] theorem State.drawnBytes_lanes (s : State) (n : Nat) : (s.drawnBytes n).lanes = s.lanes := rfl
@[simp] theorem State.drawnBytes_depot (s : State) (n : Nat) : (s.drawnBytes n).depot = s.depot := rfl
@[simp] theorem State.drawnBytes_tenancy (s : State) (n : Nat) : (s.drawnBytes n).tenancy = s.tenancy := rfl
@[simp] theorem State.drawnBytes_keys (s : State) (n : Nat) : (s.drawnBytes n).keys = s.keys := rfl
@[simp] theorem State.drawnBytes_vault (s : State) (n : Nat) : (s.drawnBytes n).vault = s.vault := rfl
@[simp] theorem State.drawnBytes_journal (s : State) (n : Nat) : (s.drawnBytes n).journal = s.journal := rfl
@[simp] theorem State.drawnBytes_held (s : State) (n : Nat) : (s.drawnBytes n).held = s.held := rfl
@[simp] theorem State.drawnBytes_port0 (s : State) (n : Nat) : (s.drawnBytes n).port0 = s.port0 := rfl
@[simp] theorem State.drawnBytes_port1 (s : State) (n : Nat) : (s.drawnBytes n).port1 = s.port1 := rfl
@[simp] theorem State.drawnBytes_openSerial (s : State) (n : Nat) : (s.drawnBytes n).openSerial = s.openSerial := rfl
@[simp] theorem State.drawnBytes_pcie (s : State) (n : Nat) : (s.drawnBytes n).pcie = s.pcie := rfl
@[simp] theorem State.drawnBytes_gates (s : State) (n : Nat) : (s.drawnBytes n).gates = s.gates := rfl
@[simp] theorem State.drawnBytes_steward (s : State) (n : Nat) : (s.drawnBytes n).steward = s.steward := rfl
@[simp] theorem State.drawnBytes_time (s : State) (n : Nat) : (s.drawnBytes n).time = s.time := rfl
@[simp] theorem State.drawnBytes_entropy (s : State) (n : Nat) : (s.drawnBytes n).entropy = s.entropy := rfl
@[simp] theorem State.drawnBytes_cards (s : State) (n : Nat) : (s.drawnBytes n).cards = s.cards := rfl
@[simp] theorem State.drawnBytes_tamper (s : State) (n : Nat) : (s.drawnBytes n).tamper = s.tamper := rfl
@[simp] theorem State.drawnBytes_lc (s : State) (n : Nat) : (s.drawnBytes n).lc = s.lc := rfl
@[simp] theorem State.drawnBytes_faults (s : State) (n : Nat) : (s.drawnBytes n).faults = s.faults := rfl
@[simp] theorem State.drawnBytes_recorder (s : State) (n : Nat) : (s.drawnBytes n).recorder = s.recorder := rfl
@[simp] theorem State.drawnBytes_power (s : State) (n : Nat) : (s.drawnBytes n).power = s.power := rfl

@[simp] theorem State.store_pending (s : State) (a : Nat) (b : Bytes) : (s.store a b).pending = s.pending := rfl
@[simp] theorem State.store_now (s : State) (a : Nat) (b : Bytes) : (s.store a b).now = s.now := rfl
@[simp] theorem State.store_freeCtr (s : State) (a : Nat) (b : Bytes) : (s.store a b).freeCtr = s.freeCtr := rfl
@[simp] theorem State.store_out (s : State) (a : Nat) (b : Bytes) : (s.store a b).out = s.out := rfl
@[simp] theorem State.store_seats (s : State) (a : Nat) (b : Bytes) : (s.store a b).seats = s.seats := rfl
@[simp] theorem State.store_tes (s : State) (a : Nat) (b : Bytes) : (s.store a b).tes = s.tes := rfl
@[simp] theorem State.store_clusters (s : State) (a : Nat) (b : Bytes) : (s.store a b).clusters = s.clusters := rfl
@[simp] theorem State.store_lanes (s : State) (a : Nat) (b : Bytes) : (s.store a b).lanes = s.lanes := rfl
@[simp] theorem State.store_depot (s : State) (a : Nat) (b : Bytes) : (s.store a b).depot = s.depot := rfl
@[simp] theorem State.store_tenancy (s : State) (a : Nat) (b : Bytes) : (s.store a b).tenancy = s.tenancy := rfl
@[simp] theorem State.store_keys (s : State) (a : Nat) (b : Bytes) : (s.store a b).keys = s.keys := rfl
@[simp] theorem State.store_vault (s : State) (a : Nat) (b : Bytes) : (s.store a b).vault = s.vault := rfl
@[simp] theorem State.store_journal (s : State) (a : Nat) (b : Bytes) : (s.store a b).journal = s.journal := rfl
@[simp] theorem State.store_held (s : State) (a : Nat) (b : Bytes) : (s.store a b).held = s.held := rfl
@[simp] theorem State.store_port0 (s : State) (a : Nat) (b : Bytes) : (s.store a b).port0 = s.port0 := rfl
@[simp] theorem State.store_port1 (s : State) (a : Nat) (b : Bytes) : (s.store a b).port1 = s.port1 := rfl
@[simp] theorem State.store_openSerial (s : State) (a : Nat) (b : Bytes) : (s.store a b).openSerial = s.openSerial := rfl
@[simp] theorem State.store_pcie (s : State) (a : Nat) (b : Bytes) : (s.store a b).pcie = s.pcie := rfl
@[simp] theorem State.store_gates (s : State) (a : Nat) (b : Bytes) : (s.store a b).gates = s.gates := rfl
@[simp] theorem State.store_steward (s : State) (a : Nat) (b : Bytes) : (s.store a b).steward = s.steward := rfl
@[simp] theorem State.store_time (s : State) (a : Nat) (b : Bytes) : (s.store a b).time = s.time := rfl
@[simp] theorem State.store_entropy (s : State) (a : Nat) (b : Bytes) : (s.store a b).entropy = s.entropy := rfl
@[simp] theorem State.store_cards (s : State) (a : Nat) (b : Bytes) : (s.store a b).cards = s.cards := rfl
@[simp] theorem State.store_tamper (s : State) (a : Nat) (b : Bytes) : (s.store a b).tamper = s.tamper := rfl
@[simp] theorem State.store_lc (s : State) (a : Nat) (b : Bytes) : (s.store a b).lc = s.lc := rfl
@[simp] theorem State.store_faults (s : State) (a : Nat) (b : Bytes) : (s.store a b).faults = s.faults := rfl
@[simp] theorem State.store_recorder (s : State) (a : Nat) (b : Bytes) : (s.store a b).recorder = s.recorder := rfl
@[simp] theorem State.store_power (s : State) (a : Nat) (b : Bytes) : (s.store a b).power = s.power := rfl

@[simp] theorem State.wipe_pending (s : State) (lo hi : Nat) : (s.wipe lo hi).pending = s.pending := rfl
@[simp] theorem State.wipe_now (s : State) (lo hi : Nat) : (s.wipe lo hi).now = s.now := rfl
@[simp] theorem State.wipe_freeCtr (s : State) (lo hi : Nat) : (s.wipe lo hi).freeCtr = s.freeCtr := rfl
@[simp] theorem State.wipe_out (s : State) (lo hi : Nat) : (s.wipe lo hi).out = s.out := rfl
@[simp] theorem State.wipe_seats (s : State) (lo hi : Nat) : (s.wipe lo hi).seats = s.seats := rfl
@[simp] theorem State.wipe_tes (s : State) (lo hi : Nat) : (s.wipe lo hi).tes = s.tes := rfl
@[simp] theorem State.wipe_clusters (s : State) (lo hi : Nat) : (s.wipe lo hi).clusters = s.clusters := rfl
@[simp] theorem State.wipe_lanes (s : State) (lo hi : Nat) : (s.wipe lo hi).lanes = s.lanes := rfl
@[simp] theorem State.wipe_depot (s : State) (lo hi : Nat) : (s.wipe lo hi).depot = s.depot := rfl
@[simp] theorem State.wipe_tenancy (s : State) (lo hi : Nat) : (s.wipe lo hi).tenancy = s.tenancy := rfl
@[simp] theorem State.wipe_keys (s : State) (lo hi : Nat) : (s.wipe lo hi).keys = s.keys := rfl
@[simp] theorem State.wipe_vault (s : State) (lo hi : Nat) : (s.wipe lo hi).vault = s.vault := rfl
@[simp] theorem State.wipe_journal (s : State) (lo hi : Nat) : (s.wipe lo hi).journal = s.journal := rfl
@[simp] theorem State.wipe_held (s : State) (lo hi : Nat) : (s.wipe lo hi).held = s.held := rfl
@[simp] theorem State.wipe_port0 (s : State) (lo hi : Nat) : (s.wipe lo hi).port0 = s.port0 := rfl
@[simp] theorem State.wipe_port1 (s : State) (lo hi : Nat) : (s.wipe lo hi).port1 = s.port1 := rfl
@[simp] theorem State.wipe_openSerial (s : State) (lo hi : Nat) : (s.wipe lo hi).openSerial = s.openSerial := rfl
@[simp] theorem State.wipe_pcie (s : State) (lo hi : Nat) : (s.wipe lo hi).pcie = s.pcie := rfl
@[simp] theorem State.wipe_gates (s : State) (lo hi : Nat) : (s.wipe lo hi).gates = s.gates := rfl
@[simp] theorem State.wipe_steward (s : State) (lo hi : Nat) : (s.wipe lo hi).steward = s.steward := rfl
@[simp] theorem State.wipe_time (s : State) (lo hi : Nat) : (s.wipe lo hi).time = s.time := rfl
@[simp] theorem State.wipe_entropy (s : State) (lo hi : Nat) : (s.wipe lo hi).entropy = s.entropy := rfl
@[simp] theorem State.wipe_cards (s : State) (lo hi : Nat) : (s.wipe lo hi).cards = s.cards := rfl
@[simp] theorem State.wipe_tamper (s : State) (lo hi : Nat) : (s.wipe lo hi).tamper = s.tamper := rfl
@[simp] theorem State.wipe_lc (s : State) (lo hi : Nat) : (s.wipe lo hi).lc = s.lc := rfl
@[simp] theorem State.wipe_faults (s : State) (lo hi : Nat) : (s.wipe lo hi).faults = s.faults := rfl
@[simp] theorem State.wipe_recorder (s : State) (lo hi : Nat) : (s.wipe lo hi).recorder = s.recorder := rfl
@[simp] theorem State.wipe_power (s : State) (lo hi : Nat) : (s.wipe lo hi).power = s.power := rfl

@[simp] theorem State.updateRec_pending (s : State) (n : Nat) (f : List Int → List Int) : (s.updateRec n f).pending = s.pending := rfl
@[simp] theorem State.updateRec_now (s : State) (n : Nat) (f : List Int → List Int) : (s.updateRec n f).now = s.now := rfl
@[simp] theorem State.updateRec_freeCtr (s : State) (n : Nat) (f : List Int → List Int) : (s.updateRec n f).freeCtr = s.freeCtr := rfl
@[simp] theorem State.updateRec_out (s : State) (n : Nat) (f : List Int → List Int) : (s.updateRec n f).out = s.out := rfl
@[simp] theorem State.updateRec_mem (s : State) (n : Nat) (f : List Int → List Int) : (s.updateRec n f).mem = s.mem := rfl
@[simp] theorem State.updateRec_seats (s : State) (n : Nat) (f : List Int → List Int) : (s.updateRec n f).seats = s.seats := rfl
@[simp] theorem State.updateRec_tes (s : State) (n : Nat) (f : List Int → List Int) : (s.updateRec n f).tes = s.tes := rfl
@[simp] theorem State.updateRec_clusters (s : State) (n : Nat) (f : List Int → List Int) : (s.updateRec n f).clusters = s.clusters := rfl
@[simp] theorem State.updateRec_lanes (s : State) (n : Nat) (f : List Int → List Int) : (s.updateRec n f).lanes = s.lanes := rfl
@[simp] theorem State.updateRec_depot (s : State) (n : Nat) (f : List Int → List Int) : (s.updateRec n f).depot = s.depot := rfl
@[simp] theorem State.updateRec_tenancy (s : State) (n : Nat) (f : List Int → List Int) : (s.updateRec n f).tenancy = s.tenancy := rfl
@[simp] theorem State.updateRec_keys (s : State) (n : Nat) (f : List Int → List Int) : (s.updateRec n f).keys = s.keys := rfl
@[simp] theorem State.updateRec_vault (s : State) (n : Nat) (f : List Int → List Int) : (s.updateRec n f).vault = s.vault := rfl
@[simp] theorem State.updateRec_journal (s : State) (n : Nat) (f : List Int → List Int) : (s.updateRec n f).journal = s.journal := rfl
@[simp] theorem State.updateRec_held (s : State) (n : Nat) (f : List Int → List Int) : (s.updateRec n f).held = s.held := rfl
@[simp] theorem State.updateRec_port0 (s : State) (n : Nat) (f : List Int → List Int) : (s.updateRec n f).port0 = s.port0 := rfl
@[simp] theorem State.updateRec_port1 (s : State) (n : Nat) (f : List Int → List Int) : (s.updateRec n f).port1 = s.port1 := rfl
@[simp] theorem State.updateRec_openSerial (s : State) (n : Nat) (f : List Int → List Int) : (s.updateRec n f).openSerial = s.openSerial := rfl
@[simp] theorem State.updateRec_pcie (s : State) (n : Nat) (f : List Int → List Int) : (s.updateRec n f).pcie = s.pcie := rfl
@[simp] theorem State.updateRec_gates (s : State) (n : Nat) (f : List Int → List Int) : (s.updateRec n f).gates = s.gates := rfl
@[simp] theorem State.updateRec_steward (s : State) (n : Nat) (f : List Int → List Int) : (s.updateRec n f).steward = s.steward := rfl
@[simp] theorem State.updateRec_time (s : State) (n : Nat) (f : List Int → List Int) : (s.updateRec n f).time = s.time := rfl
@[simp] theorem State.updateRec_entropy (s : State) (n : Nat) (f : List Int → List Int) : (s.updateRec n f).entropy = s.entropy := rfl
@[simp] theorem State.updateRec_cards (s : State) (n : Nat) (f : List Int → List Int) : (s.updateRec n f).cards = s.cards := rfl
@[simp] theorem State.updateRec_tamper (s : State) (n : Nat) (f : List Int → List Int) : (s.updateRec n f).tamper = s.tamper := rfl
@[simp] theorem State.updateRec_lc (s : State) (n : Nat) (f : List Int → List Int) : (s.updateRec n f).lc = s.lc := rfl
@[simp] theorem State.updateRec_faults (s : State) (n : Nat) (f : List Int → List Int) : (s.updateRec n f).faults = s.faults := rfl
@[simp] theorem State.updateRec_power (s : State) (n : Nat) (f : List Int → List Int) : (s.updateRec n f).power = s.power := rfl

@[simp] theorem State.count_pending (s : State) (rec i : Nat) : (s.count rec i).pending = s.pending := rfl
@[simp] theorem State.count_now (s : State) (rec i : Nat) : (s.count rec i).now = s.now := rfl
@[simp] theorem State.count_freeCtr (s : State) (rec i : Nat) : (s.count rec i).freeCtr = s.freeCtr := rfl
@[simp] theorem State.count_out (s : State) (rec i : Nat) : (s.count rec i).out = s.out := rfl
@[simp] theorem State.count_mem (s : State) (rec i : Nat) : (s.count rec i).mem = s.mem := rfl
@[simp] theorem State.count_seats (s : State) (rec i : Nat) : (s.count rec i).seats = s.seats := rfl
@[simp] theorem State.count_tes (s : State) (rec i : Nat) : (s.count rec i).tes = s.tes := rfl
@[simp] theorem State.count_clusters (s : State) (rec i : Nat) : (s.count rec i).clusters = s.clusters := rfl
@[simp] theorem State.count_lanes (s : State) (rec i : Nat) : (s.count rec i).lanes = s.lanes := rfl
@[simp] theorem State.count_depot (s : State) (rec i : Nat) : (s.count rec i).depot = s.depot := rfl
@[simp] theorem State.count_tenancy (s : State) (rec i : Nat) : (s.count rec i).tenancy = s.tenancy := rfl
@[simp] theorem State.count_keys (s : State) (rec i : Nat) : (s.count rec i).keys = s.keys := rfl
@[simp] theorem State.count_vault (s : State) (rec i : Nat) : (s.count rec i).vault = s.vault := rfl
@[simp] theorem State.count_journal (s : State) (rec i : Nat) : (s.count rec i).journal = s.journal := rfl
@[simp] theorem State.count_held (s : State) (rec i : Nat) : (s.count rec i).held = s.held := rfl
@[simp] theorem State.count_port0 (s : State) (rec i : Nat) : (s.count rec i).port0 = s.port0 := rfl
@[simp] theorem State.count_port1 (s : State) (rec i : Nat) : (s.count rec i).port1 = s.port1 := rfl
@[simp] theorem State.count_openSerial (s : State) (rec i : Nat) : (s.count rec i).openSerial = s.openSerial := rfl
@[simp] theorem State.count_pcie (s : State) (rec i : Nat) : (s.count rec i).pcie = s.pcie := rfl
@[simp] theorem State.count_gates (s : State) (rec i : Nat) : (s.count rec i).gates = s.gates := rfl
@[simp] theorem State.count_steward (s : State) (rec i : Nat) : (s.count rec i).steward = s.steward := rfl
@[simp] theorem State.count_time (s : State) (rec i : Nat) : (s.count rec i).time = s.time := rfl
@[simp] theorem State.count_entropy (s : State) (rec i : Nat) : (s.count rec i).entropy = s.entropy := rfl
@[simp] theorem State.count_cards (s : State) (rec i : Nat) : (s.count rec i).cards = s.cards := rfl
@[simp] theorem State.count_tamper (s : State) (rec i : Nat) : (s.count rec i).tamper = s.tamper := rfl
@[simp] theorem State.count_lc (s : State) (rec i : Nat) : (s.count rec i).lc = s.lc := rfl
@[simp] theorem State.count_faults (s : State) (rec i : Nat) : (s.count rec i).faults = s.faults := rfl
@[simp] theorem State.count_power (s : State) (rec i : Nat) : (s.count rec i).power = s.power := rfl

@[simp] theorem State.flushWanted_pending (s : State) : (s.flushWanted).pending = s.pending := rfl
@[simp] theorem State.flushWanted_now (s : State) : (s.flushWanted).now = s.now := rfl
@[simp] theorem State.flushWanted_freeCtr (s : State) : (s.flushWanted).freeCtr = s.freeCtr := rfl
@[simp] theorem State.flushWanted_out (s : State) : (s.flushWanted).out = s.out := rfl
@[simp] theorem State.flushWanted_mem (s : State) : (s.flushWanted).mem = s.mem := rfl
@[simp] theorem State.flushWanted_seats (s : State) : (s.flushWanted).seats = s.seats := rfl
@[simp] theorem State.flushWanted_tes (s : State) : (s.flushWanted).tes = s.tes := rfl
@[simp] theorem State.flushWanted_clusters (s : State) : (s.flushWanted).clusters = s.clusters := rfl
@[simp] theorem State.flushWanted_lanes (s : State) : (s.flushWanted).lanes = s.lanes := rfl
@[simp] theorem State.flushWanted_depot (s : State) : (s.flushWanted).depot = s.depot := rfl
@[simp] theorem State.flushWanted_tenancy (s : State) : (s.flushWanted).tenancy = s.tenancy := rfl
@[simp] theorem State.flushWanted_keys (s : State) : (s.flushWanted).keys = s.keys := rfl
@[simp] theorem State.flushWanted_vault (s : State) : (s.flushWanted).vault = s.vault := rfl
@[simp] theorem State.flushWanted_journal (s : State) : (s.flushWanted).journal = s.journal := rfl
@[simp] theorem State.flushWanted_held (s : State) : (s.flushWanted).held = s.held := rfl
@[simp] theorem State.flushWanted_port0 (s : State) : (s.flushWanted).port0 = s.port0 := rfl
@[simp] theorem State.flushWanted_port1 (s : State) : (s.flushWanted).port1 = s.port1 := rfl
@[simp] theorem State.flushWanted_openSerial (s : State) : (s.flushWanted).openSerial = s.openSerial := rfl
@[simp] theorem State.flushWanted_pcie (s : State) : (s.flushWanted).pcie = s.pcie := rfl
@[simp] theorem State.flushWanted_gates (s : State) : (s.flushWanted).gates = s.gates := rfl
@[simp] theorem State.flushWanted_steward (s : State) : (s.flushWanted).steward = s.steward := rfl
@[simp] theorem State.flushWanted_time (s : State) : (s.flushWanted).time = s.time := rfl
@[simp] theorem State.flushWanted_entropy (s : State) : (s.flushWanted).entropy = s.entropy := rfl
@[simp] theorem State.flushWanted_cards (s : State) : (s.flushWanted).cards = s.cards := rfl
@[simp] theorem State.flushWanted_tamper (s : State) : (s.flushWanted).tamper = s.tamper := rfl
@[simp] theorem State.flushWanted_lc (s : State) : (s.flushWanted).lc = s.lc := rfl
@[simp] theorem State.flushWanted_faults (s : State) : (s.flushWanted).faults = s.faults := rfl
@[simp] theorem State.flushWanted_power (s : State) : (s.flushWanted).power = s.power := rfl

@[simp] theorem State.writeMile_pending (s : State) (m : Milestone) : (s.writeMile m).pending = s.pending := rfl
@[simp] theorem State.writeMile_now (s : State) (m : Milestone) : (s.writeMile m).now = s.now := rfl
@[simp] theorem State.writeMile_freeCtr (s : State) (m : Milestone) : (s.writeMile m).freeCtr = s.freeCtr := rfl
@[simp] theorem State.writeMile_out (s : State) (m : Milestone) : (s.writeMile m).out = s.out := rfl
@[simp] theorem State.writeMile_mem (s : State) (m : Milestone) : (s.writeMile m).mem = s.mem := rfl
@[simp] theorem State.writeMile_seats (s : State) (m : Milestone) : (s.writeMile m).seats = s.seats := rfl
@[simp] theorem State.writeMile_tes (s : State) (m : Milestone) : (s.writeMile m).tes = s.tes := rfl
@[simp] theorem State.writeMile_clusters (s : State) (m : Milestone) : (s.writeMile m).clusters = s.clusters := rfl
@[simp] theorem State.writeMile_lanes (s : State) (m : Milestone) : (s.writeMile m).lanes = s.lanes := rfl
@[simp] theorem State.writeMile_depot (s : State) (m : Milestone) : (s.writeMile m).depot = s.depot := rfl
@[simp] theorem State.writeMile_tenancy (s : State) (m : Milestone) : (s.writeMile m).tenancy = s.tenancy := rfl
@[simp] theorem State.writeMile_keys (s : State) (m : Milestone) : (s.writeMile m).keys = s.keys := rfl
@[simp] theorem State.writeMile_vault (s : State) (m : Milestone) : (s.writeMile m).vault = s.vault := rfl
@[simp] theorem State.writeMile_held (s : State) (m : Milestone) : (s.writeMile m).held = s.held := rfl
@[simp] theorem State.writeMile_port0 (s : State) (m : Milestone) : (s.writeMile m).port0 = s.port0 := rfl
@[simp] theorem State.writeMile_port1 (s : State) (m : Milestone) : (s.writeMile m).port1 = s.port1 := rfl
@[simp] theorem State.writeMile_openSerial (s : State) (m : Milestone) : (s.writeMile m).openSerial = s.openSerial := rfl
@[simp] theorem State.writeMile_pcie (s : State) (m : Milestone) : (s.writeMile m).pcie = s.pcie := rfl
@[simp] theorem State.writeMile_gates (s : State) (m : Milestone) : (s.writeMile m).gates = s.gates := rfl
@[simp] theorem State.writeMile_steward (s : State) (m : Milestone) : (s.writeMile m).steward = s.steward := rfl
@[simp] theorem State.writeMile_time (s : State) (m : Milestone) : (s.writeMile m).time = s.time := rfl
@[simp] theorem State.writeMile_entropy (s : State) (m : Milestone) : (s.writeMile m).entropy = s.entropy := rfl
@[simp] theorem State.writeMile_cards (s : State) (m : Milestone) : (s.writeMile m).cards = s.cards := rfl
@[simp] theorem State.writeMile_tamper (s : State) (m : Milestone) : (s.writeMile m).tamper = s.tamper := rfl
@[simp] theorem State.writeMile_lc (s : State) (m : Milestone) : (s.writeMile m).lc = s.lc := rfl
@[simp] theorem State.writeMile_faults (s : State) (m : Milestone) : (s.writeMile m).faults = s.faults := rfl
@[simp] theorem State.writeMile_recorder (s : State) (m : Milestone) : (s.writeMile m).recorder = s.recorder := rfl
@[simp] theorem State.writeMile_power (s : State) (m : Milestone) : (s.writeMile m).power = s.power := rfl

@[simp] theorem State.anchor_pending (s : State) (m : Milestone) : (s.anchor m).pending = s.pending := rfl
@[simp] theorem State.anchor_now (s : State) (m : Milestone) : (s.anchor m).now = s.now := rfl
@[simp] theorem State.anchor_freeCtr (s : State) (m : Milestone) : (s.anchor m).freeCtr = s.freeCtr := rfl
@[simp] theorem State.anchor_out (s : State) (m : Milestone) : (s.anchor m).out = s.out := rfl
@[simp] theorem State.anchor_mem (s : State) (m : Milestone) : (s.anchor m).mem = s.mem := rfl
@[simp] theorem State.anchor_seats (s : State) (m : Milestone) : (s.anchor m).seats = s.seats := rfl
@[simp] theorem State.anchor_tes (s : State) (m : Milestone) : (s.anchor m).tes = s.tes := rfl
@[simp] theorem State.anchor_clusters (s : State) (m : Milestone) : (s.anchor m).clusters = s.clusters := rfl
@[simp] theorem State.anchor_lanes (s : State) (m : Milestone) : (s.anchor m).lanes = s.lanes := rfl
@[simp] theorem State.anchor_depot (s : State) (m : Milestone) : (s.anchor m).depot = s.depot := rfl
@[simp] theorem State.anchor_tenancy (s : State) (m : Milestone) : (s.anchor m).tenancy = s.tenancy := rfl
@[simp] theorem State.anchor_keys (s : State) (m : Milestone) : (s.anchor m).keys = s.keys := rfl
@[simp] theorem State.anchor_vault (s : State) (m : Milestone) : (s.anchor m).vault = s.vault := rfl
@[simp] theorem State.anchor_held (s : State) (m : Milestone) : (s.anchor m).held = s.held := rfl
@[simp] theorem State.anchor_port0 (s : State) (m : Milestone) : (s.anchor m).port0 = s.port0 := rfl
@[simp] theorem State.anchor_port1 (s : State) (m : Milestone) : (s.anchor m).port1 = s.port1 := rfl
@[simp] theorem State.anchor_openSerial (s : State) (m : Milestone) : (s.anchor m).openSerial = s.openSerial := rfl
@[simp] theorem State.anchor_pcie (s : State) (m : Milestone) : (s.anchor m).pcie = s.pcie := rfl
@[simp] theorem State.anchor_gates (s : State) (m : Milestone) : (s.anchor m).gates = s.gates := rfl
@[simp] theorem State.anchor_steward (s : State) (m : Milestone) : (s.anchor m).steward = s.steward := rfl
@[simp] theorem State.anchor_time (s : State) (m : Milestone) : (s.anchor m).time = s.time := rfl
@[simp] theorem State.anchor_entropy (s : State) (m : Milestone) : (s.anchor m).entropy = s.entropy := rfl
@[simp] theorem State.anchor_cards (s : State) (m : Milestone) : (s.anchor m).cards = s.cards := rfl
@[simp] theorem State.anchor_tamper (s : State) (m : Milestone) : (s.anchor m).tamper = s.tamper := rfl
@[simp] theorem State.anchor_lc (s : State) (m : Milestone) : (s.anchor m).lc = s.lc := rfl
@[simp] theorem State.anchor_faults (s : State) (m : Milestone) : (s.anchor m).faults = s.faults := rfl
@[simp] theorem State.anchor_recorder (s : State) (m : Milestone) : (s.anchor m).recorder = s.recorder := rfl
@[simp] theorem State.anchor_power (s : State) (m : Milestone) : (s.anchor m).power = s.power := rfl

@[simp] theorem State.writeMarks_pending (s : State) : (s.writeMarks).pending = s.pending := rfl
@[simp] theorem State.writeMarks_now (s : State) : (s.writeMarks).now = s.now := rfl
@[simp] theorem State.writeMarks_freeCtr (s : State) : (s.writeMarks).freeCtr = s.freeCtr := rfl
@[simp] theorem State.writeMarks_out (s : State) : (s.writeMarks).out = s.out := rfl
@[simp] theorem State.writeMarks_mem (s : State) : (s.writeMarks).mem = s.mem := rfl
@[simp] theorem State.writeMarks_seats (s : State) : (s.writeMarks).seats = s.seats := rfl
@[simp] theorem State.writeMarks_tes (s : State) : (s.writeMarks).tes = s.tes := rfl
@[simp] theorem State.writeMarks_clusters (s : State) : (s.writeMarks).clusters = s.clusters := rfl
@[simp] theorem State.writeMarks_lanes (s : State) : (s.writeMarks).lanes = s.lanes := rfl
@[simp] theorem State.writeMarks_tenancy (s : State) : (s.writeMarks).tenancy = s.tenancy := rfl
@[simp] theorem State.writeMarks_keys (s : State) : (s.writeMarks).keys = s.keys := rfl
@[simp] theorem State.writeMarks_vault (s : State) : (s.writeMarks).vault = s.vault := rfl
@[simp] theorem State.writeMarks_held (s : State) : (s.writeMarks).held = s.held := rfl
@[simp] theorem State.writeMarks_port0 (s : State) : (s.writeMarks).port0 = s.port0 := rfl
@[simp] theorem State.writeMarks_port1 (s : State) : (s.writeMarks).port1 = s.port1 := rfl
@[simp] theorem State.writeMarks_openSerial (s : State) : (s.writeMarks).openSerial = s.openSerial := rfl
@[simp] theorem State.writeMarks_pcie (s : State) : (s.writeMarks).pcie = s.pcie := rfl
@[simp] theorem State.writeMarks_gates (s : State) : (s.writeMarks).gates = s.gates := rfl
@[simp] theorem State.writeMarks_steward (s : State) : (s.writeMarks).steward = s.steward := rfl
@[simp] theorem State.writeMarks_time (s : State) : (s.writeMarks).time = s.time := rfl
@[simp] theorem State.writeMarks_entropy (s : State) : (s.writeMarks).entropy = s.entropy := rfl
@[simp] theorem State.writeMarks_cards (s : State) : (s.writeMarks).cards = s.cards := rfl
@[simp] theorem State.writeMarks_tamper (s : State) : (s.writeMarks).tamper = s.tamper := rfl
@[simp] theorem State.writeMarks_lc (s : State) : (s.writeMarks).lc = s.lc := rfl
@[simp] theorem State.writeMarks_faults (s : State) : (s.writeMarks).faults = s.faults := rfl
@[simp] theorem State.writeMarks_recorder (s : State) : (s.writeMarks).recorder = s.recorder := rfl
@[simp] theorem State.writeMarks_power (s : State) : (s.writeMarks).power = s.power := rfl

@[simp] theorem State.anchorRoot_pending (s : State) : (s.anchorRoot).pending = s.pending := rfl
@[simp] theorem State.anchorRoot_now (s : State) : (s.anchorRoot).now = s.now := rfl
@[simp] theorem State.anchorRoot_freeCtr (s : State) : (s.anchorRoot).freeCtr = s.freeCtr := rfl
@[simp] theorem State.anchorRoot_out (s : State) : (s.anchorRoot).out = s.out := rfl
@[simp] theorem State.anchorRoot_mem (s : State) : (s.anchorRoot).mem = s.mem := rfl
@[simp] theorem State.anchorRoot_seats (s : State) : (s.anchorRoot).seats = s.seats := rfl
@[simp] theorem State.anchorRoot_tes (s : State) : (s.anchorRoot).tes = s.tes := rfl
@[simp] theorem State.anchorRoot_clusters (s : State) : (s.anchorRoot).clusters = s.clusters := rfl
@[simp] theorem State.anchorRoot_lanes (s : State) : (s.anchorRoot).lanes = s.lanes := rfl
@[simp] theorem State.anchorRoot_depot (s : State) : (s.anchorRoot).depot = s.depot := rfl
@[simp] theorem State.anchorRoot_tenancy (s : State) : (s.anchorRoot).tenancy = s.tenancy := rfl
@[simp] theorem State.anchorRoot_keys (s : State) : (s.anchorRoot).keys = s.keys := rfl
@[simp] theorem State.anchorRoot_journal (s : State) : (s.anchorRoot).journal = s.journal := rfl
@[simp] theorem State.anchorRoot_held (s : State) : (s.anchorRoot).held = s.held := rfl
@[simp] theorem State.anchorRoot_port0 (s : State) : (s.anchorRoot).port0 = s.port0 := rfl
@[simp] theorem State.anchorRoot_port1 (s : State) : (s.anchorRoot).port1 = s.port1 := rfl
@[simp] theorem State.anchorRoot_openSerial (s : State) : (s.anchorRoot).openSerial = s.openSerial := rfl
@[simp] theorem State.anchorRoot_pcie (s : State) : (s.anchorRoot).pcie = s.pcie := rfl
@[simp] theorem State.anchorRoot_gates (s : State) : (s.anchorRoot).gates = s.gates := rfl
@[simp] theorem State.anchorRoot_steward (s : State) : (s.anchorRoot).steward = s.steward := rfl
@[simp] theorem State.anchorRoot_time (s : State) : (s.anchorRoot).time = s.time := rfl
@[simp] theorem State.anchorRoot_entropy (s : State) : (s.anchorRoot).entropy = s.entropy := rfl
@[simp] theorem State.anchorRoot_cards (s : State) : (s.anchorRoot).cards = s.cards := rfl
@[simp] theorem State.anchorRoot_tamper (s : State) : (s.anchorRoot).tamper = s.tamper := rfl
@[simp] theorem State.anchorRoot_lc (s : State) : (s.anchorRoot).lc = s.lc := rfl
@[simp] theorem State.anchorRoot_faults (s : State) : (s.anchorRoot).faults = s.faults := rfl
@[simp] theorem State.anchorRoot_recorder (s : State) : (s.anchorRoot).recorder = s.recorder := rfl
@[simp] theorem State.anchorRoot_power (s : State) : (s.anchorRoot).power = s.power := rfl

@[simp] theorem State.seat_setSeat (s : State) (u : SeatRef) (x : Seat) : (s.setSeat u x).seat u = x := by simp [State.seat, State.setSeat]
@[simp] theorem State.te_setTe (s : State) (c t : Nat) (x : Te) : (s.setTe c t x).te c t = x := by simp [State.te, State.setTe]
@[simp] theorem State.cluster_setCluster (s : State) (c : Nat) (x : Cluster) : (s.setCluster c x).cluster c = x := by simp [State.cluster, State.setCluster]
@[simp] theorem State.lane_setLane (s : State) (l : Nat) (x : Lane) : (s.setLane l x).lane l = x := by simp [State.lane, State.setLane]
@[simp] theorem State.func_setFunc (s : State) (f : Nat) (x : Func) : (s.setFunc f x).func f = x := by simp [State.func, State.setFunc]
@[simp] theorem State.gate_setGate (s : State) (g : Nat) (x : Gate) : (s.setGate g x).gate g = x := by simp [State.gate, State.setGate]
@[simp] theorem State.cell_setCell (s : State) (n : Nat) (x : Cell) : (s.setCell n x).cell n = x := by simp [State.cell, State.setCell]
@[simp] theorem State.card_setCard (s : State) (n : Nat) (x : CardSlot) : (s.setCard n x).card n = x := by simp [State.card, State.setCard]
@[simp] theorem State.source_setSource (s : State) (n : Nat) (x : Source) : (s.setSource n x).source n = x := by simp [State.source, State.setSource]

theorem State.cluster_setCluster_ne (s : State) {c j : Nat} (x : Cluster) (h : c ≠ j) : (s.setCluster c x).cluster j = s.cluster j := by simp [State.cluster, State.setCluster, Tbl.get_set_ne _ _ _ h]
theorem State.lane_setLane_ne (s : State) {l j : Nat} (x : Lane) (h : l ≠ j) : (s.setLane l x).lane j = s.lane j := by simp [State.lane, State.setLane, Tbl.get_set_ne _ _ _ h]
theorem State.func_setFunc_ne (s : State) {f j : Nat} (x : Func) (h : f ≠ j) : (s.setFunc f x).func j = s.func j := by simp [State.func, State.setFunc, Tbl.get_set_ne _ _ _ h]
theorem State.gate_setGate_ne (s : State) {g j : Nat} (x : Gate) (h : g ≠ j) : (s.setGate g x).gate j = s.gate j := by simp [State.gate, State.setGate, Tbl.get_set_ne _ _ _ h]
theorem State.cell_setCell_ne (s : State) {n j : Nat} (x : Cell) (h : n ≠ j) : (s.setCell n x).cell j = s.cell j := by simp [State.cell, State.setCell, Tbl.get_set_ne _ _ _ h]
theorem State.card_setCard_ne (s : State) {n j : Nat} (x : CardSlot) (h : n ≠ j) : (s.setCard n x).card j = s.card j := by simp [State.card, State.setCard, Tbl.get_set_ne _ _ _ h]
theorem State.source_setSource_ne (s : State) {n j : Nat} (x : Source) (h : n ≠ j) : (s.setSource n x).source j = s.source j := by simp [State.source, State.setSource, Tbl.get_set_ne _ _ _ h]

/-- Two seats of the HX7 have different keys. -/
theorem seatKey_inj {u v : SeatRef} (hu : u.ok = true) (hv : v.ok = true) (h : seatKey u = seatKey v) : u = v := by
  obtain ⟨a, b, c⟩ := u; obtain ⟨d, e, f⟩ := v
  simp [SeatRef.ok, clusterOk] at hu hv; simp [seatKey] at h
  simp only [SeatRef.mk.injEq]; omega

/-- Another seat reads as before. -/
theorem State.seat_setSeat_ne (s : State) {u v : SeatRef} (x : Seat) (hu : u.ok = true) (hv : v.ok = true) (h : u ≠ v) :
    (s.setSeat u x).seat v = s.seat v := by
  simp only [State.seat, State.setSeat]; exact Tbl.get_set_ne _ _ _ fun e => h (seatKey_inj hu hv e)

/-- Another TE of the part reads as before. -/
theorem State.te_setTe_ne (s : State) {c t d v : Nat} (x : Te) (ht : t < 16) (hv : v < 16) (h : ¬(c = d ∧ t = v)) :
    (s.setTe c t x).te d v = s.te d v := by
  simp only [State.te, State.setTe]; exact Tbl.get_set_ne _ _ _ (by omega)

/-- The port put is the port read. -/
@[simp] theorem State.port_setPort (s : State) (p : Nat) (x : Port) : (s.setPort p x).port p = x := by
  unfold State.port State.setPort; split <;> rfl

/-- The other port reads as before. -/
theorem State.port_setPort_ne (s : State) {p q : Nat} (x : Port) (h : ¬(p = 0 ↔ q = 0)) : (s.setPort p x).port q = s.port q := by
  by_cases hp : p = 0 <;> by_cases hq : q = 0 <;> simp_all [State.port, State.setPort]

/-- The partition put is the partition read. -/
@[simp] theorem State.part?_setPart (s : State) (c : Colour) (x : Part) : (s.setPart c x).part? c = some x := by
  simp [State.part?, State.setPart, Tbl.find?_set]

/-- The expander put is the expander read. -/
@[simp] theorem State.expander_setExpander (s : State) (e : Nat) (x : Expander) : (s.setExpander e x).expander e = x := by
  unfold State.expander State.setExpander; split <;> simp

/-! What a reader of one table sees after an update of another. -/

@[simp] theorem State.te_setSeat' (s : State) (u : SeatRef) (x : Seat) (d v : Nat) : (s.setSeat u x).te d v = s.te d v := by simp [State.te]
@[simp] theorem State.cluster_setSeat' (s : State) (u : SeatRef) (x : Seat) (d : Nat) : (s.setSeat u x).cluster d = s.cluster d := by simp [State.cluster]
@[simp] theorem State.lane_setSeat' (s : State) (u : SeatRef) (x : Seat) (d : Nat) : (s.setSeat u x).lane d = s.lane d := by simp [State.lane]
@[simp] theorem State.func_setSeat' (s : State) (u : SeatRef) (x : Seat) (d : Nat) : (s.setSeat u x).func d = s.func d := by simp [State.func]
@[simp] theorem State.gate_setSeat' (s : State) (u : SeatRef) (x : Seat) (d : Nat) : (s.setSeat u x).gate d = s.gate d := by simp [State.gate]
@[simp] theorem State.port_setSeat' (s : State) (u : SeatRef) (x : Seat) (d : Nat) : (s.setSeat u x).port d = s.port d := by simp [State.port]
@[simp] theorem State.part?_setSeat' (s : State) (u : SeatRef) (x : Seat) (d : Colour) : (s.setSeat u x).part? d = s.part? d := by simp [State.part?]
@[simp] theorem State.seat_setTe' (s : State) (c t : Nat) (x : Te) (v : SeatRef) : (s.setTe c t x).seat v = s.seat v := by simp [State.seat]
@[simp] theorem State.cluster_setTe' (s : State) (c t : Nat) (x : Te) (d : Nat) : (s.setTe c t x).cluster d = s.cluster d := by simp [State.cluster]
@[simp] theorem State.lane_setTe' (s : State) (c t : Nat) (x : Te) (d : Nat) : (s.setTe c t x).lane d = s.lane d := by simp [State.lane]
@[simp] theorem State.func_setTe' (s : State) (c t : Nat) (x : Te) (d : Nat) : (s.setTe c t x).func d = s.func d := by simp [State.func]
@[simp] theorem State.gate_setTe' (s : State) (c t : Nat) (x : Te) (d : Nat) : (s.setTe c t x).gate d = s.gate d := by simp [State.gate]
@[simp] theorem State.port_setTe' (s : State) (c t : Nat) (x : Te) (d : Nat) : (s.setTe c t x).port d = s.port d := by simp [State.port]
@[simp] theorem State.part?_setTe' (s : State) (c t : Nat) (x : Te) (d : Colour) : (s.setTe c t x).part? d = s.part? d := by simp [State.part?]
@[simp] theorem State.seat_setCluster' (s : State) (c : Nat) (x : Cluster) (v : SeatRef) : (s.setCluster c x).seat v = s.seat v := by simp [State.seat]
@[simp] theorem State.te_setCluster' (s : State) (c : Nat) (x : Cluster) (d v : Nat) : (s.setCluster c x).te d v = s.te d v := by simp [State.te]
@[simp] theorem State.lane_setCluster' (s : State) (c : Nat) (x : Cluster) (d : Nat) : (s.setCluster c x).lane d = s.lane d := by simp [State.lane]
@[simp] theorem State.func_setCluster' (s : State) (c : Nat) (x : Cluster) (d : Nat) : (s.setCluster c x).func d = s.func d := by simp [State.func]
@[simp] theorem State.gate_setCluster' (s : State) (c : Nat) (x : Cluster) (d : Nat) : (s.setCluster c x).gate d = s.gate d := by simp [State.gate]
@[simp] theorem State.port_setCluster' (s : State) (c : Nat) (x : Cluster) (d : Nat) : (s.setCluster c x).port d = s.port d := by simp [State.port]
@[simp] theorem State.part?_setCluster' (s : State) (c : Nat) (x : Cluster) (d : Colour) : (s.setCluster c x).part? d = s.part? d := by simp [State.part?]
@[simp] theorem State.seat_setLane' (s : State) (l : Nat) (x : Lane) (v : SeatRef) : (s.setLane l x).seat v = s.seat v := by simp [State.seat]
@[simp] theorem State.te_setLane' (s : State) (l : Nat) (x : Lane) (d v : Nat) : (s.setLane l x).te d v = s.te d v := by simp [State.te]
@[simp] theorem State.cluster_setLane' (s : State) (l : Nat) (x : Lane) (d : Nat) : (s.setLane l x).cluster d = s.cluster d := by simp [State.cluster]
@[simp] theorem State.func_setLane' (s : State) (l : Nat) (x : Lane) (d : Nat) : (s.setLane l x).func d = s.func d := by simp [State.func]
@[simp] theorem State.gate_setLane' (s : State) (l : Nat) (x : Lane) (d : Nat) : (s.setLane l x).gate d = s.gate d := by simp [State.gate]
@[simp] theorem State.port_setLane' (s : State) (l : Nat) (x : Lane) (d : Nat) : (s.setLane l x).port d = s.port d := by simp [State.port]
@[simp] theorem State.part?_setLane' (s : State) (l : Nat) (x : Lane) (d : Colour) : (s.setLane l x).part? d = s.part? d := by simp [State.part?]
@[simp] theorem State.seat_setFunc' (s : State) (f : Nat) (x : Func) (v : SeatRef) : (s.setFunc f x).seat v = s.seat v := by simp [State.seat]
@[simp] theorem State.te_setFunc' (s : State) (f : Nat) (x : Func) (d v : Nat) : (s.setFunc f x).te d v = s.te d v := by simp [State.te]
@[simp] theorem State.cluster_setFunc' (s : State) (f : Nat) (x : Func) (d : Nat) : (s.setFunc f x).cluster d = s.cluster d := by simp [State.cluster]
@[simp] theorem State.lane_setFunc' (s : State) (f : Nat) (x : Func) (d : Nat) : (s.setFunc f x).lane d = s.lane d := by simp [State.lane]
@[simp] theorem State.gate_setFunc' (s : State) (f : Nat) (x : Func) (d : Nat) : (s.setFunc f x).gate d = s.gate d := by simp [State.gate]
@[simp] theorem State.port_setFunc' (s : State) (f : Nat) (x : Func) (d : Nat) : (s.setFunc f x).port d = s.port d := by simp [State.port]
@[simp] theorem State.part?_setFunc' (s : State) (f : Nat) (x : Func) (d : Colour) : (s.setFunc f x).part? d = s.part? d := by simp [State.part?]
@[simp] theorem State.seat_setGate' (s : State) (g : Nat) (x : Gate) (v : SeatRef) : (s.setGate g x).seat v = s.seat v := by simp [State.seat]
@[simp] theorem State.te_setGate' (s : State) (g : Nat) (x : Gate) (d v : Nat) : (s.setGate g x).te d v = s.te d v := by simp [State.te]
@[simp] theorem State.cluster_setGate' (s : State) (g : Nat) (x : Gate) (d : Nat) : (s.setGate g x).cluster d = s.cluster d := by simp [State.cluster]
@[simp] theorem State.lane_setGate' (s : State) (g : Nat) (x : Gate) (d : Nat) : (s.setGate g x).lane d = s.lane d := by simp [State.lane]
@[simp] theorem State.func_setGate' (s : State) (g : Nat) (x : Gate) (d : Nat) : (s.setGate g x).func d = s.func d := by simp [State.func]
@[simp] theorem State.port_setGate' (s : State) (g : Nat) (x : Gate) (d : Nat) : (s.setGate g x).port d = s.port d := by simp [State.port]
@[simp] theorem State.part?_setGate' (s : State) (g : Nat) (x : Gate) (d : Colour) : (s.setGate g x).part? d = s.part? d := by simp [State.part?]
@[simp] theorem State.seat_setCell' (s : State) (n : Nat) (x : Cell) (v : SeatRef) : (s.setCell n x).seat v = s.seat v := by simp [State.seat]
@[simp] theorem State.te_setCell' (s : State) (n : Nat) (x : Cell) (d v : Nat) : (s.setCell n x).te d v = s.te d v := by simp [State.te]
@[simp] theorem State.cluster_setCell' (s : State) (n : Nat) (x : Cell) (d : Nat) : (s.setCell n x).cluster d = s.cluster d := by simp [State.cluster]
@[simp] theorem State.lane_setCell' (s : State) (n : Nat) (x : Cell) (d : Nat) : (s.setCell n x).lane d = s.lane d := by simp [State.lane]
@[simp] theorem State.func_setCell' (s : State) (n : Nat) (x : Cell) (d : Nat) : (s.setCell n x).func d = s.func d := by simp [State.func]
@[simp] theorem State.gate_setCell' (s : State) (n : Nat) (x : Cell) (d : Nat) : (s.setCell n x).gate d = s.gate d := by simp [State.gate]
@[simp] theorem State.port_setCell' (s : State) (n : Nat) (x : Cell) (d : Nat) : (s.setCell n x).port d = s.port d := by simp [State.port]
@[simp] theorem State.part?_setCell' (s : State) (n : Nat) (x : Cell) (d : Colour) : (s.setCell n x).part? d = s.part? d := by simp [State.part?]
@[simp] theorem State.seat_setCard' (s : State) (n : Nat) (x : CardSlot) (v : SeatRef) : (s.setCard n x).seat v = s.seat v := by simp [State.seat]
@[simp] theorem State.te_setCard' (s : State) (n : Nat) (x : CardSlot) (d v : Nat) : (s.setCard n x).te d v = s.te d v := by simp [State.te]
@[simp] theorem State.cluster_setCard' (s : State) (n : Nat) (x : CardSlot) (d : Nat) : (s.setCard n x).cluster d = s.cluster d := by simp [State.cluster]
@[simp] theorem State.lane_setCard' (s : State) (n : Nat) (x : CardSlot) (d : Nat) : (s.setCard n x).lane d = s.lane d := by simp [State.lane]
@[simp] theorem State.func_setCard' (s : State) (n : Nat) (x : CardSlot) (d : Nat) : (s.setCard n x).func d = s.func d := by simp [State.func]
@[simp] theorem State.gate_setCard' (s : State) (n : Nat) (x : CardSlot) (d : Nat) : (s.setCard n x).gate d = s.gate d := by simp [State.gate]
@[simp] theorem State.port_setCard' (s : State) (n : Nat) (x : CardSlot) (d : Nat) : (s.setCard n x).port d = s.port d := by simp [State.port]
@[simp] theorem State.part?_setCard' (s : State) (n : Nat) (x : CardSlot) (d : Colour) : (s.setCard n x).part? d = s.part? d := by simp [State.part?]
@[simp] theorem State.seat_setSource' (s : State) (n : Nat) (x : Source) (v : SeatRef) : (s.setSource n x).seat v = s.seat v := by simp [State.seat]
@[simp] theorem State.te_setSource' (s : State) (n : Nat) (x : Source) (d v : Nat) : (s.setSource n x).te d v = s.te d v := by simp [State.te]
@[simp] theorem State.cluster_setSource' (s : State) (n : Nat) (x : Source) (d : Nat) : (s.setSource n x).cluster d = s.cluster d := by simp [State.cluster]
@[simp] theorem State.lane_setSource' (s : State) (n : Nat) (x : Source) (d : Nat) : (s.setSource n x).lane d = s.lane d := by simp [State.lane]
@[simp] theorem State.func_setSource' (s : State) (n : Nat) (x : Source) (d : Nat) : (s.setSource n x).func d = s.func d := by simp [State.func]
@[simp] theorem State.gate_setSource' (s : State) (n : Nat) (x : Source) (d : Nat) : (s.setSource n x).gate d = s.gate d := by simp [State.gate]
@[simp] theorem State.port_setSource' (s : State) (n : Nat) (x : Source) (d : Nat) : (s.setSource n x).port d = s.port d := by simp [State.port]
@[simp] theorem State.part?_setSource' (s : State) (n : Nat) (x : Source) (d : Colour) : (s.setSource n x).part? d = s.part? d := by simp [State.part?]
@[simp] theorem State.seat_setPart' (s : State) (c : Colour) (x : Part) (v : SeatRef) : (s.setPart c x).seat v = s.seat v := by simp [State.seat]
@[simp] theorem State.te_setPart' (s : State) (c : Colour) (x : Part) (d v : Nat) : (s.setPart c x).te d v = s.te d v := by simp [State.te]
@[simp] theorem State.cluster_setPart' (s : State) (c : Colour) (x : Part) (d : Nat) : (s.setPart c x).cluster d = s.cluster d := by simp [State.cluster]
@[simp] theorem State.lane_setPart' (s : State) (c : Colour) (x : Part) (d : Nat) : (s.setPart c x).lane d = s.lane d := by simp [State.lane]
@[simp] theorem State.func_setPart' (s : State) (c : Colour) (x : Part) (d : Nat) : (s.setPart c x).func d = s.func d := by simp [State.func]
@[simp] theorem State.gate_setPart' (s : State) (c : Colour) (x : Part) (d : Nat) : (s.setPart c x).gate d = s.gate d := by simp [State.gate]
@[simp] theorem State.port_setPart' (s : State) (c : Colour) (x : Part) (d : Nat) : (s.setPart c x).port d = s.port d := by simp [State.port]
@[simp] theorem State.seat_setPort' (s : State) (p : Nat) (x : Port) (v : SeatRef) : (s.setPort p x).seat v = s.seat v := by simp [State.seat]
@[simp] theorem State.te_setPort' (s : State) (p : Nat) (x : Port) (d v : Nat) : (s.setPort p x).te d v = s.te d v := by simp [State.te]
@[simp] theorem State.cluster_setPort' (s : State) (p : Nat) (x : Port) (d : Nat) : (s.setPort p x).cluster d = s.cluster d := by simp [State.cluster]
@[simp] theorem State.lane_setPort' (s : State) (p : Nat) (x : Port) (d : Nat) : (s.setPort p x).lane d = s.lane d := by simp [State.lane]
@[simp] theorem State.func_setPort' (s : State) (p : Nat) (x : Port) (d : Nat) : (s.setPort p x).func d = s.func d := by simp [State.func]
@[simp] theorem State.gate_setPort' (s : State) (p : Nat) (x : Port) (d : Nat) : (s.setPort p x).gate d = s.gate d := by simp [State.gate]
@[simp] theorem State.part?_setPort' (s : State) (p : Nat) (x : Port) (d : Colour) : (s.setPort p x).part? d = s.part? d := by simp [State.part?]
@[simp] theorem State.seat_setExpander' (s : State) (e : Nat) (x : Expander) (v : SeatRef) : (s.setExpander e x).seat v = s.seat v := by simp [State.seat]
@[simp] theorem State.te_setExpander' (s : State) (e : Nat) (x : Expander) (d v : Nat) : (s.setExpander e x).te d v = s.te d v := by simp [State.te]
@[simp] theorem State.lane_setExpander' (s : State) (e : Nat) (x : Expander) (d : Nat) : (s.setExpander e x).lane d = s.lane d := by simp [State.lane]
@[simp] theorem State.func_setExpander' (s : State) (e : Nat) (x : Expander) (d : Nat) : (s.setExpander e x).func d = s.func d := by simp [State.func]
@[simp] theorem State.gate_setExpander' (s : State) (e : Nat) (x : Expander) (d : Nat) : (s.setExpander e x).gate d = s.gate d := by simp [State.gate]
@[simp] theorem State.port_setExpander' (s : State) (e : Nat) (x : Expander) (d : Nat) : (s.setExpander e x).port d = s.port d := by simp [State.port]
@[simp] theorem State.part?_setExpander' (s : State) (e : Nat) (x : Expander) (d : Colour) : (s.setExpander e x).part? d = s.part? d := by simp [State.part?]
@[simp] theorem State.seat_emit' (s : State) (o : Output) (v : SeatRef) : (s.emit o).seat v = s.seat v := by simp [State.seat]
@[simp] theorem State.te_emit' (s : State) (o : Output) (d v : Nat) : (s.emit o).te d v = s.te d v := by simp [State.te]
@[simp] theorem State.cluster_emit' (s : State) (o : Output) (d : Nat) : (s.emit o).cluster d = s.cluster d := by simp [State.cluster]
@[simp] theorem State.lane_emit' (s : State) (o : Output) (d : Nat) : (s.emit o).lane d = s.lane d := by simp [State.lane]
@[simp] theorem State.func_emit' (s : State) (o : Output) (d : Nat) : (s.emit o).func d = s.func d := by simp [State.func]
@[simp] theorem State.gate_emit' (s : State) (o : Output) (d : Nat) : (s.emit o).gate d = s.gate d := by simp [State.gate]
@[simp] theorem State.port_emit' (s : State) (o : Output) (d : Nat) : (s.emit o).port d = s.port d := by simp [State.port]
@[simp] theorem State.part?_emit' (s : State) (o : Output) (d : Colour) : (s.emit o).part? d = s.part? d := by simp [State.part?]
@[simp] theorem State.seat_drawn' (s : State) (v : SeatRef) : (s.drawn).seat v = s.seat v := by simp [State.seat]
@[simp] theorem State.te_drawn' (s : State) (d v : Nat) : (s.drawn).te d v = s.te d v := by simp [State.te]
@[simp] theorem State.cluster_drawn' (s : State) (d : Nat) : (s.drawn).cluster d = s.cluster d := by simp [State.cluster]
@[simp] theorem State.lane_drawn' (s : State) (d : Nat) : (s.drawn).lane d = s.lane d := by simp [State.lane]
@[simp] theorem State.func_drawn' (s : State) (d : Nat) : (s.drawn).func d = s.func d := by simp [State.func]
@[simp] theorem State.gate_drawn' (s : State) (d : Nat) : (s.drawn).gate d = s.gate d := by simp [State.gate]
@[simp] theorem State.port_drawn' (s : State) (d : Nat) : (s.drawn).port d = s.port d := by simp [State.port]
@[simp] theorem State.part?_drawn' (s : State) (d : Colour) : (s.drawn).part? d = s.part? d := by simp [State.part?]
@[simp] theorem State.seat_drawnBytes' (s : State) (n : Nat) (v : SeatRef) : (s.drawnBytes n).seat v = s.seat v := by simp [State.seat]
@[simp] theorem State.te_drawnBytes' (s : State) (n : Nat) (d v : Nat) : (s.drawnBytes n).te d v = s.te d v := by simp [State.te]
@[simp] theorem State.cluster_drawnBytes' (s : State) (n : Nat) (d : Nat) : (s.drawnBytes n).cluster d = s.cluster d := by simp [State.cluster]
@[simp] theorem State.lane_drawnBytes' (s : State) (n : Nat) (d : Nat) : (s.drawnBytes n).lane d = s.lane d := by simp [State.lane]
@[simp] theorem State.func_drawnBytes' (s : State) (n : Nat) (d : Nat) : (s.drawnBytes n).func d = s.func d := by simp [State.func]
@[simp] theorem State.gate_drawnBytes' (s : State) (n : Nat) (d : Nat) : (s.drawnBytes n).gate d = s.gate d := by simp [State.gate]
@[simp] theorem State.port_drawnBytes' (s : State) (n : Nat) (d : Nat) : (s.drawnBytes n).port d = s.port d := by simp [State.port]
@[simp] theorem State.part?_drawnBytes' (s : State) (n : Nat) (d : Colour) : (s.drawnBytes n).part? d = s.part? d := by simp [State.part?]
@[simp] theorem State.seat_store' (s : State) (a : Nat) (b : Bytes) (v : SeatRef) : (s.store a b).seat v = s.seat v := by simp [State.seat]
@[simp] theorem State.te_store' (s : State) (a : Nat) (b : Bytes) (d v : Nat) : (s.store a b).te d v = s.te d v := by simp [State.te]
@[simp] theorem State.cluster_store' (s : State) (a : Nat) (b : Bytes) (d : Nat) : (s.store a b).cluster d = s.cluster d := by simp [State.cluster]
@[simp] theorem State.lane_store' (s : State) (a : Nat) (b : Bytes) (d : Nat) : (s.store a b).lane d = s.lane d := by simp [State.lane]
@[simp] theorem State.func_store' (s : State) (a : Nat) (b : Bytes) (d : Nat) : (s.store a b).func d = s.func d := by simp [State.func]
@[simp] theorem State.gate_store' (s : State) (a : Nat) (b : Bytes) (d : Nat) : (s.store a b).gate d = s.gate d := by simp [State.gate]
@[simp] theorem State.port_store' (s : State) (a : Nat) (b : Bytes) (d : Nat) : (s.store a b).port d = s.port d := by simp [State.port]
@[simp] theorem State.part?_store' (s : State) (a : Nat) (b : Bytes) (d : Colour) : (s.store a b).part? d = s.part? d := by simp [State.part?]
@[simp] theorem State.seat_wipe' (s : State) (lo hi : Nat) (v : SeatRef) : (s.wipe lo hi).seat v = s.seat v := by simp [State.seat]
@[simp] theorem State.te_wipe' (s : State) (lo hi : Nat) (d v : Nat) : (s.wipe lo hi).te d v = s.te d v := by simp [State.te]
@[simp] theorem State.cluster_wipe' (s : State) (lo hi : Nat) (d : Nat) : (s.wipe lo hi).cluster d = s.cluster d := by simp [State.cluster]
@[simp] theorem State.lane_wipe' (s : State) (lo hi : Nat) (d : Nat) : (s.wipe lo hi).lane d = s.lane d := by simp [State.lane]
@[simp] theorem State.func_wipe' (s : State) (lo hi : Nat) (d : Nat) : (s.wipe lo hi).func d = s.func d := by simp [State.func]
@[simp] theorem State.gate_wipe' (s : State) (lo hi : Nat) (d : Nat) : (s.wipe lo hi).gate d = s.gate d := by simp [State.gate]
@[simp] theorem State.port_wipe' (s : State) (lo hi : Nat) (d : Nat) : (s.wipe lo hi).port d = s.port d := by simp [State.port]
@[simp] theorem State.part?_wipe' (s : State) (lo hi : Nat) (d : Colour) : (s.wipe lo hi).part? d = s.part? d := by simp [State.part?]
@[simp] theorem State.seat_updateRec' (s : State) (n : Nat) (f : List Int → List Int) (v : SeatRef) : (s.updateRec n f).seat v = s.seat v := by simp [State.seat]
@[simp] theorem State.te_updateRec' (s : State) (n : Nat) (f : List Int → List Int) (d v : Nat) : (s.updateRec n f).te d v = s.te d v := by simp [State.te]
@[simp] theorem State.cluster_updateRec' (s : State) (n : Nat) (f : List Int → List Int) (d : Nat) : (s.updateRec n f).cluster d = s.cluster d := by simp [State.cluster]
@[simp] theorem State.lane_updateRec' (s : State) (n : Nat) (f : List Int → List Int) (d : Nat) : (s.updateRec n f).lane d = s.lane d := by simp [State.lane]
@[simp] theorem State.func_updateRec' (s : State) (n : Nat) (f : List Int → List Int) (d : Nat) : (s.updateRec n f).func d = s.func d := by simp [State.func]
@[simp] theorem State.gate_updateRec' (s : State) (n : Nat) (f : List Int → List Int) (d : Nat) : (s.updateRec n f).gate d = s.gate d := by simp [State.gate]
@[simp] theorem State.port_updateRec' (s : State) (n : Nat) (f : List Int → List Int) (d : Nat) : (s.updateRec n f).port d = s.port d := by simp [State.port]
@[simp] theorem State.part?_updateRec' (s : State) (n : Nat) (f : List Int → List Int) (d : Colour) : (s.updateRec n f).part? d = s.part? d := by simp [State.part?]
@[simp] theorem State.seat_count' (s : State) (rec i : Nat) (v : SeatRef) : (s.count rec i).seat v = s.seat v := by simp [State.seat]
@[simp] theorem State.te_count' (s : State) (rec i : Nat) (d v : Nat) : (s.count rec i).te d v = s.te d v := by simp [State.te]
@[simp] theorem State.cluster_count' (s : State) (rec i : Nat) (d : Nat) : (s.count rec i).cluster d = s.cluster d := by simp [State.cluster]
@[simp] theorem State.lane_count' (s : State) (rec i : Nat) (d : Nat) : (s.count rec i).lane d = s.lane d := by simp [State.lane]
@[simp] theorem State.func_count' (s : State) (rec i : Nat) (d : Nat) : (s.count rec i).func d = s.func d := by simp [State.func]
@[simp] theorem State.gate_count' (s : State) (rec i : Nat) (d : Nat) : (s.count rec i).gate d = s.gate d := by simp [State.gate]
@[simp] theorem State.port_count' (s : State) (rec i : Nat) (d : Nat) : (s.count rec i).port d = s.port d := by simp [State.port]
@[simp] theorem State.part?_count' (s : State) (rec i : Nat) (d : Colour) : (s.count rec i).part? d = s.part? d := by simp [State.part?]
@[simp] theorem State.seat_flushWanted' (s : State) (v : SeatRef) : (s.flushWanted).seat v = s.seat v := by simp [State.seat]
@[simp] theorem State.te_flushWanted' (s : State) (d v : Nat) : (s.flushWanted).te d v = s.te d v := by simp [State.te]
@[simp] theorem State.cluster_flushWanted' (s : State) (d : Nat) : (s.flushWanted).cluster d = s.cluster d := by simp [State.cluster]
@[simp] theorem State.lane_flushWanted' (s : State) (d : Nat) : (s.flushWanted).lane d = s.lane d := by simp [State.lane]
@[simp] theorem State.func_flushWanted' (s : State) (d : Nat) : (s.flushWanted).func d = s.func d := by simp [State.func]
@[simp] theorem State.gate_flushWanted' (s : State) (d : Nat) : (s.flushWanted).gate d = s.gate d := by simp [State.gate]
@[simp] theorem State.port_flushWanted' (s : State) (d : Nat) : (s.flushWanted).port d = s.port d := by simp [State.port]
@[simp] theorem State.part?_flushWanted' (s : State) (d : Colour) : (s.flushWanted).part? d = s.part? d := by simp [State.part?]
@[simp] theorem State.seat_writeMile' (s : State) (m : Milestone) (v : SeatRef) : (s.writeMile m).seat v = s.seat v := by simp [State.seat]
@[simp] theorem State.te_writeMile' (s : State) (m : Milestone) (d v : Nat) : (s.writeMile m).te d v = s.te d v := by simp [State.te]
@[simp] theorem State.cluster_writeMile' (s : State) (m : Milestone) (d : Nat) : (s.writeMile m).cluster d = s.cluster d := by simp [State.cluster]
@[simp] theorem State.lane_writeMile' (s : State) (m : Milestone) (d : Nat) : (s.writeMile m).lane d = s.lane d := by simp [State.lane]
@[simp] theorem State.func_writeMile' (s : State) (m : Milestone) (d : Nat) : (s.writeMile m).func d = s.func d := by simp [State.func]
@[simp] theorem State.gate_writeMile' (s : State) (m : Milestone) (d : Nat) : (s.writeMile m).gate d = s.gate d := by simp [State.gate]
@[simp] theorem State.port_writeMile' (s : State) (m : Milestone) (d : Nat) : (s.writeMile m).port d = s.port d := by simp [State.port]
@[simp] theorem State.part?_writeMile' (s : State) (m : Milestone) (d : Colour) : (s.writeMile m).part? d = s.part? d := by simp [State.part?]
@[simp] theorem State.seat_anchor' (s : State) (m : Milestone) (v : SeatRef) : (s.anchor m).seat v = s.seat v := by simp [State.seat]
@[simp] theorem State.te_anchor' (s : State) (m : Milestone) (d v : Nat) : (s.anchor m).te d v = s.te d v := by simp [State.te]
@[simp] theorem State.cluster_anchor' (s : State) (m : Milestone) (d : Nat) : (s.anchor m).cluster d = s.cluster d := by simp [State.cluster]
@[simp] theorem State.lane_anchor' (s : State) (m : Milestone) (d : Nat) : (s.anchor m).lane d = s.lane d := by simp [State.lane]
@[simp] theorem State.func_anchor' (s : State) (m : Milestone) (d : Nat) : (s.anchor m).func d = s.func d := by simp [State.func]
@[simp] theorem State.gate_anchor' (s : State) (m : Milestone) (d : Nat) : (s.anchor m).gate d = s.gate d := by simp [State.gate]
@[simp] theorem State.port_anchor' (s : State) (m : Milestone) (d : Nat) : (s.anchor m).port d = s.port d := by simp [State.port]
@[simp] theorem State.part?_anchor' (s : State) (m : Milestone) (d : Colour) : (s.anchor m).part? d = s.part? d := by simp [State.part?]
@[simp] theorem State.seat_writeMarks' (s : State) (v : SeatRef) : (s.writeMarks).seat v = s.seat v := by simp [State.seat]
@[simp] theorem State.te_writeMarks' (s : State) (d v : Nat) : (s.writeMarks).te d v = s.te d v := by simp [State.te]
@[simp] theorem State.cluster_writeMarks' (s : State) (d : Nat) : (s.writeMarks).cluster d = s.cluster d := by simp [State.cluster]
@[simp] theorem State.lane_writeMarks' (s : State) (d : Nat) : (s.writeMarks).lane d = s.lane d := by simp [State.lane]
@[simp] theorem State.func_writeMarks' (s : State) (d : Nat) : (s.writeMarks).func d = s.func d := by simp [State.func]
@[simp] theorem State.gate_writeMarks' (s : State) (d : Nat) : (s.writeMarks).gate d = s.gate d := by simp [State.gate]
@[simp] theorem State.port_writeMarks' (s : State) (d : Nat) : (s.writeMarks).port d = s.port d := by simp [State.port]
@[simp] theorem State.part?_writeMarks' (s : State) (d : Colour) : (s.writeMarks).part? d = s.part? d := by simp [State.part?]
@[simp] theorem State.seat_anchorRoot' (s : State) (v : SeatRef) : (s.anchorRoot).seat v = s.seat v := by simp [State.seat]
@[simp] theorem State.te_anchorRoot' (s : State) (d v : Nat) : (s.anchorRoot).te d v = s.te d v := by simp [State.te]
@[simp] theorem State.cluster_anchorRoot' (s : State) (d : Nat) : (s.anchorRoot).cluster d = s.cluster d := by simp [State.cluster]
@[simp] theorem State.lane_anchorRoot' (s : State) (d : Nat) : (s.anchorRoot).lane d = s.lane d := by simp [State.lane]
@[simp] theorem State.func_anchorRoot' (s : State) (d : Nat) : (s.anchorRoot).func d = s.func d := by simp [State.func]
@[simp] theorem State.gate_anchorRoot' (s : State) (d : Nat) : (s.anchorRoot).gate d = s.gate d := by simp [State.gate]
@[simp] theorem State.port_anchorRoot' (s : State) (d : Nat) : (s.anchorRoot).port d = s.port d := by simp [State.port]
@[simp] theorem State.part?_anchorRoot' (s : State) (d : Colour) : (s.anchorRoot).part? d = s.part? d := by simp [State.part?]

end Sys2Proof.Machine
end

