-- ==== Sys2Proof/Laws/Commands.lean ====
section
/-! SUPPORT. The frame every host command runs in, said once: an admitted, well-formed command has its own effect. -/

namespace Sys2Proof.Machine

/-- An admitted, well-formed command runs its effect. -/
theorem runCmd_of_admitted {op : Nat} {sp : Spec} {c : Cmd} {s : State} {wf : Bool} (h : Admitted op sp c s) (hw : wf = true)
    (effect : Spec → State → State) : runCmd op c wf s effect = .next (effect sp s) := by
  obtain ⟨h1, h2, h3, h4, h8⟩ := h
  subst hw
  cases hj : sp.journal with
  | false => simp [runCmd, checked, h1, h2, h3, hj, h8]
  | true =>
    obtain ⟨h5, h6, h7⟩ := h4 hj
    simp only [runCmd, checked, h1, h2, h3, hj, h6, h7, h8]
    simp
    exact fun h => absurd h h5

/-- Completing an admitted, well-formed command whose effect is known. -/
theorem completes_cmd {i : Instr} {op : Nat} {sp : Spec} {c : Cmd} {s : State} {wf : Bool} {effect : Spec → State → State} {P : State → Prop}
    (h : Admitted op sp c s) (he : exec i s = runCmd op c wf s effect) (hw : wf = true) (hP : P (effect sp s)) : Completes i s P :=
  ⟨_, by rw [he, runCmd_of_admitted h hw], hP⟩

end Sys2Proof.Machine
end

