-- ==== Sys2Proof/Laws/Dispatch.lean ====
section
/-! SUPPORT. One lemma per command: which meaning `exec` calls for it, so that no proof unfolds the dispatch. -/

namespace Sys2Proof.Machine

@[simp] theorem exec_add {u rd rs1 rs2} {s : State} : exec (.add u rd rs1 rs2) s = execAdd u rd rs1 rs2 s := rfl
@[simp] theorem exec_sub {u rd rs1 rs2} {s : State} : exec (.sub u rd rs1 rs2) s = execSub u rd rs1 rs2 s := rfl
@[simp] theorem exec_and {u rd rs1 rs2} {s : State} : exec (.and u rd rs1 rs2) s = execAnd u rd rs1 rs2 s := rfl
@[simp] theorem exec_or {u rd rs1 rs2} {s : State} : exec (.or u rd rs1 rs2) s = execOr u rd rs1 rs2 s := rfl
@[simp] theorem exec_xor {u rd rs1 rs2} {s : State} : exec (.xor u rd rs1 rs2) s = execXor u rd rs1 rs2 s := rfl
@[simp] theorem exec_sll {u rd rs1 rs2} {s : State} : exec (.sll u rd rs1 rs2) s = execSll u rd rs1 rs2 s := rfl
@[simp] theorem exec_srl {u rd rs1 rs2} {s : State} : exec (.srl u rd rs1 rs2) s = execSrl u rd rs1 rs2 s := rfl
@[simp] theorem exec_sra {u rd rs1 rs2} {s : State} : exec (.sra u rd rs1 rs2) s = execSra u rd rs1 rs2 s := rfl
@[simp] theorem exec_rol {u rd rs1 rs2} {s : State} : exec (.rol u rd rs1 rs2) s = execRol u rd rs1 rs2 s := rfl
@[simp] theorem exec_slt {u rd rs1 rs2} {s : State} : exec (.slt u rd rs1 rs2) s = execSlt u rd rs1 rs2 s := rfl
@[simp] theorem exec_sltu {u rd rs1 rs2} {s : State} : exec (.sltu u rd rs1 rs2) s = execSltu u rd rs1 rs2 s := rfl
@[simp] theorem exec_mul {u rd rs1 rs2} {s : State} : exec (.mul u rd rs1 rs2) s = execMul u rd rs1 rs2 s := rfl
@[simp] theorem exec_mulhu {u rd rs1 rs2} {s : State} : exec (.mulhu u rd rs1 rs2) s = execMulhu u rd rs1 rs2 s := rfl
@[simp] theorem exec_bswap {u rd rs1} {s : State} : exec (.bswap u rd rs1) s = execBswap u rd rs1 s := rfl
@[simp] theorem exec_cmovz {u rd rs1 rs2} {s : State} : exec (.cmovz u rd rs1 rs2) s = execCmovz u rd rs1 rs2 s := rfl
@[simp] theorem exec_addi {u rd rs1 imm} {s : State} : exec (.addi u rd rs1 imm) s = execAddi u rd rs1 imm s := rfl
@[simp] theorem exec_andi {u rd rs1 imm} {s : State} : exec (.andi u rd rs1 imm) s = execAndi u rd rs1 imm s := rfl
@[simp] theorem exec_ori {u rd rs1 imm} {s : State} : exec (.ori u rd rs1 imm) s = execOri u rd rs1 imm s := rfl
@[simp] theorem exec_xori {u rd rs1 imm} {s : State} : exec (.xori u rd rs1 imm) s = execXori u rd rs1 imm s := rfl
@[simp] theorem exec_slti {u rd rs1 imm} {s : State} : exec (.slti u rd rs1 imm) s = execSlti u rd rs1 imm s := rfl
@[simp] theorem exec_shi {u rd rs1 imm} {s : State} : exec (.shi u rd rs1 imm) s = execShi u rd rs1 imm s := rfl
@[simp] theorem exec_insq {u rd q imm} {s : State} : exec (.insq u rd q imm) s = execInsq u rd q imm s := rfl
@[simp] theorem exec_sys {u rd idx} {s : State} : exec (.sys u rd idx) s = execSys u rd idx s := rfl
@[simp] theorem exec_beq {u ra rb imm} {s : State} : exec (.beq u ra rb imm) s = execBeq u ra rb imm s := rfl
@[simp] theorem exec_bne {u ra rb imm} {s : State} : exec (.bne u ra rb imm) s = execBne u ra rb imm s := rfl
@[simp] theorem exec_blt {u ra rb imm} {s : State} : exec (.blt u ra rb imm) s = execBlt u ra rb imm s := rfl
@[simp] theorem exec_bge {u ra rb imm} {s : State} : exec (.bge u ra rb imm) s = execBge u ra rb imm s := rfl
@[simp] theorem exec_bltu {u ra rb imm} {s : State} : exec (.bltu u ra rb imm) s = execBltu u ra rb imm s := rfl
@[simp] theorem exec_bgeu {u ra rb imm} {s : State} : exec (.bgeu u ra rb imm) s = execBgeu u ra rb imm s := rfl
@[simp] theorem exec_jmp {u imm} {s : State} : exec (.jmp u imm) s = execJmp u imm s := rfl
@[simp] theorem exec_call {u imm} {s : State} : exec (.call u imm) s = execCall u imm s := rfl
@[simp] theorem exec_ret {u} {s : State} : exec (.ret u) s = execRet u s := rfl
@[simp] theorem exec_ld8 {u rt rb sp off} {s : State} : exec (.ld8 u rt rb sp off) s = execLd8 u rt rb sp off s := rfl
@[simp] theorem exec_ld16 {u rt rb sp off} {s : State} : exec (.ld16 u rt rb sp off) s = execLd16 u rt rb sp off s := rfl
@[simp] theorem exec_ld32 {u rt rb sp off} {s : State} : exec (.ld32 u rt rb sp off) s = execLd32 u rt rb sp off s := rfl
@[simp] theorem exec_ld64 {u rt rb sp off} {s : State} : exec (.ld64 u rt rb sp off) s = execLd64 u rt rb sp off s := rfl
@[simp] theorem exec_st8 {u rt rb sp off} {s : State} : exec (.st8 u rt rb sp off) s = execSt8 u rt rb sp off s := rfl
@[simp] theorem exec_st16 {u rt rb sp off} {s : State} : exec (.st16 u rt rb sp off) s = execSt16 u rt rb sp off s := rfl
@[simp] theorem exec_st32 {u rt rb sp off} {s : State} : exec (.st32 u rt rb sp off) s = execSt32 u rt rb sp off s := rfl
@[simp] theorem exec_st64 {u rt rb sp off} {s : State} : exec (.st64 u rt rb sp off) s = execSt64 u rt rb sp off s := rfl
@[simp] theorem exec_ldb {u rt rb sp off} {s : State} : exec (.ldb u rt rb sp off) s = execLdb u rt rb sp off s := rfl
@[simp] theorem exec_stb {u rt rb sp off} {s : State} : exec (.stb u rt rb sp off) s = execStb u rt rb sp off s := rfl
@[simp] theorem exec_cInit {u y k m} {s : State} : exec (.cInit u y k m) s = execCInit u y k m s := rfl
@[simp] theorem exec_cEnc {u x y m} {s : State} : exec (.cEnc u x y m) s = execCEnc u x y m s := rfl
@[simp] theorem exec_cDec {u x y m} {s : State} : exec (.cDec u x y m) s = execCDec u x y m s := rfl
@[simp] theorem exec_cAad {u y m} {s : State} : exec (.cAad u y m) s = execCAad u y m s := rfl
@[simp] theorem exec_cMac {u y m} {s : State} : exec (.cMac u y m) s = execCMac u y m s := rfl
@[simp] theorem exec_cFin {u x} {s : State} : exec (.cFin u x) s = execCFin u x s := rfl
@[simp] theorem exec_cSave {u g} {s : State} : exec (.cSave u g) s = execCSave u g s := rfl
@[simp] theorem exec_cRest {u g} {s : State} : exec (.cRest u g) s = execCRest u g s := rfl
@[simp] theorem exec_cFf1e {u g} {s : State} : exec (.cFf1e u g) s = execCFf1e u g s := rfl
@[simp] theorem exec_cFf1d {u g} {s : State} : exec (.cFf1d u g) s = execCFf1d u g s := rfl
@[simp] theorem exec_cRaw {u x y k m} {s : State} : exec (.cRaw u x y k m) s = execCRaw u x y k m s := rfl
@[simp] theorem exec_dInit {u k g m} {s : State} : exec (.dInit u k g m) s = execDInit u k g m s := rfl
@[simp] theorem exec_dAbs {u y} {s : State} : exec (.dAbs u y) s = execDAbs u y s := rfl
@[simp] theorem exec_dLast {u g m} {s : State} : exec (.dLast u g m) s = execDLast u g m s := rfl
@[simp] theorem exec_dOut {u x m} {s : State} : exec (.dOut u x m) s = execDOut u x m s := rfl
@[simp] theorem exec_dCmp {u g m} {s : State} : exec (.dCmp u g m) s = execDCmp u g m s := rfl
@[simp] theorem exec_dSave {u g} {s : State} : exec (.dSave u g) s = execDSave u g s := rfl
@[simp] theorem exec_dRest {u g} {s : State} : exec (.dRest u g) s = execDRest u g s := rfl
@[simp] theorem exec_gfm {u x y} {s : State} : exec (.gfm u x y) s = execGfm u x y s := rfl
@[simp] theorem exec_cmpct {u x y g m} {s : State} : exec (.cmpct u x y g m) s = execCmpct u x y g m s := rfl
@[simp] theorem exec_kLoad {u k g} {s : State} : exec (.kLoad u k g) s = execKLoad u k g s := rfl
@[simp] theorem exec_kClr {u k} {s : State} : exec (.kClr u k) s = execKClr u k s := rfl
@[simp] theorem exec_kDrv {u x y k m} {s : State} : exec (.kDrv u x y k m) s = execKDrv u x y k m s := rfl
@[simp] theorem exec_kWrap {u x k g m} {s : State} : exec (.kWrap u x k g m) s = execKWrap u x k g m s := rfl
@[simp] theorem exec_kUnwr {u x k g m} {s : State} : exec (.kUnwr u x k g m) s = execKUnwr u x k g m s := rfl
@[simp] theorem exec_kStore {u x g} {s : State} : exec (.kStore u x g) s = execKStore u x g s := rfl
@[simp] theorem exec_kAttr {u k g} {s : State} : exec (.kAttr u k g) s = execKAttr u k g s := rfl
@[simp] theorem exec_gate {u w} {s : State} : exec (.gate u w) s = execGate u w s := rfl
@[simp] theorem exec_gret {u marks} {s : State} : exec (.gret u marks) s = execGret u marks s := rfl
@[simp] theorem exec_mileP {u ga n} {s : State} : exec (.mileP u ga n) s = execMileP u ga n s := rfl
@[simp] theorem exec_mileI {u ga gb kind} {s : State} : exec (.mileI u ga gb kind) s = execMileI u ga gb kind s := rfl
@[simp] theorem exec_mileC {u ga gb kind} {s : State} : exec (.mileC u ga gb kind) s = execMileC u ga gb kind s := rfl
@[simp] theorem exec_yieldPoint {u} {s : State} : exec (.yieldPoint u) s = execYieldPoint u s := rfl
@[simp] theorem exec_emit {u ga code} {s : State} : exec (.emit u ga code) s = execEmit u ga code s := rfl
@[simp] theorem exec_trap {u code} {s : State} : exec (.trap u code) s = execTrap u code s := rfl
@[simp] theorem exec_vget {u ga gb st} {s : State} : exec (.vget u ga gb st) s = execVget u ga gb st s := rfl
@[simp] theorem exec_vput {u ga gb st} {s : State} : exec (.vput u ga gb st) s = execVput u ga gb st s := rfl
@[simp] theorem exec_yieldOverdue {u} {s : State} : exec (.yieldOverdue u) s = execYieldOverdue u s := rfl
@[simp] theorem exec_scratchUncorrectable {u off} {s : State} : exec (.scratchUncorrectable u off) s = execScratchUncorrectable u off s := rfl
@[simp] theorem exec_vaultWaitDone {u} {s : State} : exec (.vaultWaitDone u) s = execVaultWaitDone u s := rfl
@[simp] theorem exec_drbgReadDone {e} {s : State} : exec (.drbgReadDone e) s = execDrbgReadDone e s := rfl
@[simp] theorem exec_imageCacheFill {u} {s : State} : exec (.imageCacheFill u) s = execImageCacheFill u s := rfl
@[simp] theorem exec_caddyMissFill {u} {s : State} : exec (.caddyMissFill u) s = execCaddyMissFill u s := rfl
@[simp] theorem exec_anchorSpaceFree {s : State} : exec (.anchorSpaceFree) s = execAnchorSpaceFree s := rfl
@[simp] theorem exec_itinRsp {s : State} : exec (.itinRsp) s = execItinRsp s := rfl
@[simp] theorem exec_itinReq {port vc msg} {s : State} : exec (.itinReq port vc msg) s = execItinReq port vc msg s := rfl
@[simp] theorem exec_itemDispatch {c} {s : State} : exec (.itemDispatch c) s = execItemDispatch c s := rfl
@[simp] theorem exec_placementEvaluation {s : State} : exec (.placementEvaluation) s = execPlacementEvaluation s := rfl
@[simp] theorem exec_clusterSleep {c} {s : State} : exec (.clusterSleep c) s = execClusterSleep c s := rfl
@[simp] theorem exec_clusterWakeDone {c ok} {s : State} : exec (.clusterWakeDone c ok) s = execClusterWakeDone c ok s := rfl
@[simp] theorem exec_overflowRefill {lane} {s : State} : exec (.overflowRefill lane) s = execOverflowRefill lane s := rfl
@[simp] theorem exec_overflowRefillDone {lane} {s : State} : exec (.overflowRefillDone lane) s = execOverflowRefillDone lane s := rfl
@[simp] theorem exec_linkCreditHoldRelease {port vc} {s : State} : exec (.linkCreditHoldRelease port vc) s = execLinkCreditHoldRelease port vc s := rfl
@[simp] theorem exec_depotCellUncorrectable {bank cell} {s : State} : exec (.depotCellUncorrectable bank cell) s = execDepotCellUncorrectable bank cell s := rfl
@[simp] theorem exec_bulkSegmentEnd {c te} {s : State} : exec (.bulkSegmentEnd c te) s = execBulkSegmentEnd c te s := rfl
@[simp] theorem exec_streamKeyFetchDone {c te} {s : State} : exec (.streamKeyFetchDone c te) s = execStreamKeyFetchDone c te s := rfl
@[simp] theorem exec_wrappedMoveArrival {c move ok} {s : State} : exec (.wrappedMoveArrival c move ok) s = execWrappedMoveArrival c move ok s := rfl
@[simp] theorem exec_maeJobYieldPoint {c} {s : State} : exec (.maeJobYieldPoint c) s = execMaeJobYieldPoint c s := rfl
@[simp] theorem exec_maeJobEnd {c ok} {s : State} : exec (.maeJobEnd c ok) s = execMaeJobEnd c ok s := rfl
@[simp] theorem exec_maeKatDone {c ok} {s : State} : exec (.maeKatDone c ok) s = execMaeKatDone c ok s := rfl
@[simp] theorem exec_maeKeyTableMissDone {c} {s : State} : exec (.maeKeyTableMissDone c) s = execMaeKeyTableMissDone c s := rfl
@[simp] theorem exec_vaultData {port vc msg} {s : State} : exec (.vaultData port vc msg) s = execVaultData port vc msg s := rfl
@[simp] theorem exec_vaultRequestTimeout {req} {s : State} : exec (.vaultRequestTimeout req) s = execVaultRequestTimeout req s := rfl
@[simp] theorem exec_vaultRefill {s : State} : exec (.vaultRefill) s = execVaultRefill s := rfl
@[simp] theorem exec_watermarkWrite {s : State} : exec (.watermarkWrite) s = execWatermarkWrite s := rfl
@[simp] theorem exec_journalSpill {s : State} : exec (.journalSpill) s = execJournalSpill s := rfl
@[simp] theorem exec_outcome {s : State} : exec (.outcome) s = execOutcome s := rfl
@[simp] theorem exec_pfwNAssert {s : State} : exec (.pfwNAssert) s = execPfwNAssert s := rfl
@[simp] theorem exec_pfwGraceEnd {s : State} : exec (.pfwGraceEnd) s = execPfwGraceEnd s := rfl
@[simp] theorem exec_pfwNRelease {s : State} : exec (.pfwNRelease) s = execPfwNRelease s := rfl
@[simp] theorem exec_cdrLockLoss {port sl} {s : State} : exec (.cdrLockLoss port sl) s = execCdrLockLoss port sl s := rfl
@[simp] theorem exec_laneBerExceeded {port sl} {s : State} : exec (.laneBerExceeded port sl) s = execLaneBerExceeded port sl s := rfl
@[simp] theorem exec_laneUncorrectableTwice {port sl} {s : State} : exec (.laneUncorrectableTwice port sl) s = execLaneUncorrectableTwice port sl s := rfl
@[simp] theorem exec_dfeTapAtLimit {port sl} {s : State} : exec (.dfeTapAtLimit port sl) s = execDfeTapAtLimit port sl s := rfl
@[simp] theorem exec_laneFrame {port frame} {s : State} : exec (.laneFrame port frame) s = execLaneFrame port frame s := rfl
@[simp] theorem exec_remapRealignDone {port} {s : State} : exec (.remapRealignDone port) s = execRemapRealignDone port s := rfl
@[simp] theorem exec_remapSuspensionEnd {port} {s : State} : exec (.remapSuspensionEnd port) s = execRemapSuspensionEnd port s := rfl
@[simp] theorem exec_dataFrame {port frame} {s : State} : exec (.dataFrame port frame) s = execDataFrame port frame s := rfl
@[simp] theorem exec_idleFrame {port frame} {s : State} : exec (.idleFrame port frame) s = execIdleFrame port frame s := rfl
@[simp] theorem exec_nakFrame {port frame} {s : State} : exec (.nakFrame port frame) s = execNakFrame port frame s := rfl
@[simp] theorem exec_initFrame {port frame} {s : State} : exec (.initFrame port frame) s = execInitFrame port frame s := rfl
@[simp] theorem exec_idleFrameSend {port} {s : State} : exec (.idleFrameSend port) s = execIdleFrameSend port s := rfl
@[simp] theorem exec_initFrameSend {port} {s : State} : exec (.initFrameSend port) s = execInitFrameSend port s := rfl
@[simp] theorem exec_ackSend {port} {s : State} : exec (.ackSend port) s = execAckSend port s := rfl
@[simp] theorem exec_replayTimeout {port} {s : State} : exec (.replayTimeout port) s = execReplayTimeout port s := rfl
@[simp] theorem exec_pcsAlignment {port} {s : State} : exec (.pcsAlignment port) s = execPcsAlignment port s := rfl
@[simp] theorem exec_trainingTimeout {port} {s : State} : exec (.trainingTimeout port) s = execTrainingTimeout port s := rfl
@[simp] theorem exec_trainingRestart {port} {s : State} : exec (.trainingRestart port) s = execTrainingRestart port s := rfl
@[simp] theorem exec_initTimeout {port} {s : State} : exec (.initTimeout port) s = execInitTimeout port s := rfl
@[simp] theorem exec_retrainTimeout {port} {s : State} : exec (.retrainTimeout port) s = execRetrainTimeout port s := rfl
@[simp] theorem exec_partnerLoss {port} {s : State} : exec (.partnerLoss port) s = execPartnerLoss port s := rfl
@[simp] theorem exec_violationDownEnd {port} {s : State} : exec (.violationDownEnd port) s = execViolationDownEnd port s := rfl
@[simp] theorem exec_violation {port vc msg} {s : State} : exec (.violation port vc msg) s = execViolation port vc msg s := rfl
@[simp] theorem exec_bulkOpen {port vc msg} {s : State} : exec (.bulkOpen port vc msg) s = execBulkOpen port vc msg s := rfl
@[simp] theorem exec_bulkData {port vc msg} {s : State} : exec (.bulkData port vc msg) s = execBulkData port vc msg s := rfl
@[simp] theorem exec_bulkClose {port vc msg} {s : State} : exec (.bulkClose port vc msg) s = execBulkClose port vc msg s := rfl
@[simp] theorem exec_goingAway {port vc msg} {s : State} : exec (.goingAway port vc msg) s = execGoingAway port vc msg s := rfl
@[simp] theorem exec_idleMessage {port session} {s : State} : exec (.idleMessage port session) s = execIdleMessage port session s := rfl
@[simp] theorem exec_idleMessageReceipt {port vc msg} {s : State} : exec (.idleMessageReceipt port vc msg) s = execIdleMessageReceipt port vc msg s := rfl
@[simp] theorem exec_credit {port session} {s : State} : exec (.credit port session) s = execCredit port session s := rfl
@[simp] theorem exec_sessionCloseTimeout {port session} {s : State} : exec (.sessionCloseTimeout port session) s = execSessionCloseTimeout port session s := rfl
@[simp] theorem exec_sessionClosed {port session} {s : State} : exec (.sessionClosed port session) s = execSessionClosed port session s := rfl
@[simp] theorem exec_drainIntervalEnd {port} {s : State} : exec (.drainIntervalEnd port) s = execDrainIntervalEnd port s := rfl
@[simp] theorem exec_plannedStopDown {port} {s : State} : exec (.plannedStopDown port) s = execPlannedStopDown port s := rfl
@[simp] theorem exec_portAckWaitEnd {port} {s : State} : exec (.portAckWaitEnd port) s = execPortAckWaitEnd port s := rfl
@[simp] theorem exec_cmdTail {fn v} {s : State} : exec (.cmdTail fn v) s = execCmdTail fn v s := rfl
@[simp] theorem exec_cplHead {fn v} {s : State} : exec (.cplHead fn v) s = execCplHead fn v s := rfl
@[simp] theorem exec_ringFetch {fn entry body} {s : State} : exec (.ringFetch fn entry body) s = execRingFetch fn entry body s := rfl
@[simp] theorem exec_ringCtrlEnable {fn v} {s : State} : exec (.ringCtrlEnable fn v) s = execRingCtrlEnable fn v s := rfl
@[simp] theorem exec_go {fn v} {s : State} : exec (.go fn v) s = execGo fn v s := rfl
@[simp] theorem exec_eventRw1c {fn off v} {s : State} : exec (.eventRw1c fn off v) s = execEventRw1c fn off v s := rfl
@[simp] theorem exec_registerWrite {fn off size v} {s : State} : exec (.registerWrite fn off size v) s = execRegisterWrite fn off size v s := rfl
@[simp] theorem exec_completionIrqDelay {fn} {s : State} : exec (.completionIrqDelay fn) s = execCompletionIrqDelay fn s := rfl
@[simp] theorem exec_flr {fn} {s : State} : exec (.flr fn) s = execFlr fn s := rfl
@[simp] theorem exec_instanceResetSquash {fn} {s : State} : exec (.instanceResetSquash fn) s = execInstanceResetSquash fn s := rfl
@[simp] theorem exec_instanceResetDone {fn} {s : State} : exec (.instanceResetDone fn) s = execInstanceResetDone fn s := rfl
@[simp] theorem exec_laneEmpty {lane} {s : State} : exec (.laneEmpty lane) s = execLaneEmpty lane s := rfl
@[simp] theorem exec_vfEnableClear {numVFs enable} {s : State} : exec (.vfEnableClear numVFs enable) s = execVfEnableClear numVFs enable s := rfl
@[simp] theorem exec_vfEnableSet {numVFs} {s : State} : exec (.vfEnableSet numVFs) s = execVfEnableSet numVFs s := rfl
@[simp] theorem exec_d3hotEntry {s : State} : exec (.d3hotEntry) s = execD3hotEntry s := rfl
@[simp] theorem exec_d3hotExit {s : State} : exec (.d3hotExit) s = execD3hotExit s := rfl
@[simp] theorem exec_freezeAtRest {fn} {s : State} : exec (.freezeAtRest fn) s = execFreezeAtRest fn s := rfl
@[simp] theorem exec_deviceInfo {c} {s : State} : exec (.deviceInfo c) s = execDeviceInfo c s := rfl
@[simp] theorem exec_deviceStatus {c} {s : State} : exec (.deviceStatus c) s = execDeviceStatus c s := rfl
@[simp] theorem exec_deviceReset {c} {s : State} : exec (.deviceReset c) s = execDeviceReset c s := rfl
@[simp] theorem exec_warmReset {s : State} : exec (.warmReset) s = execWarmReset s := rfl
@[simp] theorem exec_deviceStandby {c} {s : State} : exec (.deviceStandby c) s = execDeviceStandby c s := rfl
@[simp] theorem exec_deepStandbyEntered {s : State} : exec (.deepStandbyEntered) s = execDeepStandbyEntered s := rfl
@[simp] theorem exec_faultRead {c} {s : State} : exec (.faultRead c) s = execFaultRead c s := rfl
@[simp] theorem exec_faultClear {c} {s : State} : exec (.faultClear c) s = execFaultClear c s := rfl
@[simp] theorem exec_recorderRead {c} {s : State} : exec (.recorderRead c) s = execRecorderRead c s := rfl
@[simp] theorem exec_lcStatus {c} {s : State} : exec (.lcStatus c) s = execLcStatus c s := rfl
@[simp] theorem exec_lcAdvance {c} {s : State} : exec (.lcAdvance c) s = execLcAdvance c s := rfl
@[simp] theorem exec_lcReprovision {c} {s : State} : exec (.lcReprovision c) s = execLcReprovision c s := rfl
@[simp] theorem exec_tamperStatus {c} {s : State} : exec (.tamperStatus c) s = execTamperStatus c s := rfl
@[simp] theorem exec_tamperConfig {c} {s : State} : exec (.tamperConfig c) s = execTamperConfig c s := rfl
@[simp] theorem exec_reserveStatus {c} {s : State} : exec (.reserveStatus c) s = execReserveStatus c s := rfl
@[simp] theorem exec_reserveEngage {c} {s : State} : exec (.reserveEngage c) s = execReserveEngage c s := rfl
@[simp] theorem exec_partFormat {c} {s : State} : exec (.partFormat c) s = execPartFormat c s := rfl
@[simp] theorem exec_partCreate {c} {s : State} : exec (.partCreate c) s = execPartCreate c s := rfl
@[simp] theorem exec_partDelete {c} {s : State} : exec (.partDelete c) s = execPartDelete c s := rfl
@[simp] theorem exec_partPolicy {c} {s : State} : exec (.partPolicy c) s = execPartPolicy c s := rfl
@[simp] theorem exec_partRekey {c} {s : State} : exec (.partRekey c) s = execPartRekey c s := rfl
@[simp] theorem exec_partStatus {c} {s : State} : exec (.partStatus c) s = execPartStatus c s := rfl
@[simp] theorem exec_vfCreate {c} {s : State} : exec (.vfCreate c) s = execVfCreate c s := rfl
@[simp] theorem exec_vfDestroy {c} {s : State} : exec (.vfDestroy c) s = execVfDestroy c s := rfl
@[simp] theorem exec_vfReset {c} {s : State} : exec (.vfReset c) s = execVfReset c s := rfl
@[simp] theorem exec_vfFreeze {c} {s : State} : exec (.vfFreeze c) s = execVfFreeze c s := rfl
@[simp] theorem exec_vfThaw {c} {s : State} : exec (.vfThaw c) s = execVfThaw c s := rfl
@[simp] theorem exec_vfSave {c} {s : State} : exec (.vfSave c) s = execVfSave c s := rfl
@[simp] theorem exec_vfRestore {c} {s : State} : exec (.vfRestore c) s = execVfRestore c s := rfl
@[simp] theorem exec_vfStatus {c} {s : State} : exec (.vfStatus c) s = execVfStatus c s := rfl
@[simp] theorem exec_laneConfig {c} {s : State} : exec (.laneConfig c) s = execLaneConfig c s := rfl
@[simp] theorem exec_laneStatus {c} {s : State} : exec (.laneStatus c) s = execLaneStatus c s := rfl
@[simp] theorem exec_depotSet {c} {s : State} : exec (.depotSet c) s = execDepotSet c s := rfl
@[simp] theorem exec_depotStatus {c} {s : State} : exec (.depotStatus c) s = execDepotStatus c s := rfl
@[simp] theorem exec_placeStatus {c} {s : State} : exec (.placeStatus c) s = execPlaceStatus c s := rfl
@[simp] theorem exec_keyPut {c} {s : State} : exec (.keyPut c) s = execKeyPut c s := rfl
@[simp] theorem exec_keyGet {c} {s : State} : exec (.keyGet c) s = execKeyGet c s := rfl
@[simp] theorem exec_keyList {c} {s : State} : exec (.keyList c) s = execKeyList c s := rfl
@[simp] theorem exec_keyGenerate {c} {s : State} : exec (.keyGenerate c) s = execKeyGenerate c s := rfl
@[simp] theorem exec_keyDelete {c} {s : State} : exec (.keyDelete c) s = execKeyDelete c s := rfl
@[simp] theorem exec_keySetattr {c} {s : State} : exec (.keySetattr c) s = execKeySetattr c s := rfl
@[simp] theorem exec_keyImport {c} {s : State} : exec (.keyImport c) s = execKeyImport c s := rfl
@[simp] theorem exec_keyExport {c} {s : State} : exec (.keyExport c) s = execKeyExport c s := rfl
@[simp] theorem exec_keyCarryOpen {c} {s : State} : exec (.keyCarryOpen c) s = execKeyCarryOpen c s := rfl
@[simp] theorem exec_keyCarryRead {c} {s : State} : exec (.keyCarryRead c) s = execKeyCarryRead c s := rfl
@[simp] theorem exec_caddyStatus {c} {s : State} : exec (.caddyStatus c) s = execCaddyStatus c s := rfl
@[simp] theorem exec_itinLoad {c} {s : State} : exec (.itinLoad c) s = execItinLoad c s := rfl
@[simp] theorem exec_itinUnload {c} {s : State} : exec (.itinUnload c) s = execItinUnload c s := rfl
@[simp] theorem exec_itinList {c} {s : State} : exec (.itinList c) s = execItinList c s := rfl
@[simp] theorem exec_itinSignerAdd {c} {s : State} : exec (.itinSignerAdd c) s = execItinSignerAdd c s := rfl
@[simp] theorem exec_itinSignerRemove {c} {s : State} : exec (.itinSignerRemove c) s = execItinSignerRemove c s := rfl
@[simp] theorem exec_vaultFormat {c} {s : State} : exec (.vaultFormat c) s = execVaultFormat c s := rfl
@[simp] theorem exec_vaultAlloc {c} {s : State} : exec (.vaultAlloc c) s = execVaultAlloc c s := rfl
@[simp] theorem exec_vaultFree {c} {s : State} : exec (.vaultFree c) s = execVaultFree c s := rfl
@[simp] theorem exec_vaultAttach {c} {s : State} : exec (.vaultAttach c) s = execVaultAttach c s := rfl
@[simp] theorem exec_vaultVersion {c} {s : State} : exec (.vaultVersion c) s = execVaultVersion c s := rfl
@[simp] theorem exec_vaultRecover {c} {s : State} : exec (.vaultRecover c) s = execVaultRecover c s := rfl
@[simp] theorem exec_vaultStatus {c} {s : State} : exec (.vaultStatus c) s = execVaultStatus c s := rfl
@[simp] theorem exec_journalQuery {c} {s : State} : exec (.journalQuery c) s = execJournalQuery c s := rfl
@[simp] theorem exec_journalStatus {c} {s : State} : exec (.journalStatus c) s = execJournalStatus c s := rfl
@[simp] theorem exec_freriConfig {c} {s : State} : exec (.freriConfig c) s = execFreriConfig c s := rfl
@[simp] theorem exec_freriSessionOpen {c} {s : State} : exec (.freriSessionOpen c) s = execFreriSessionOpen c s := rfl
@[simp] theorem exec_freriSessionClose {c} {s : State} : exec (.freriSessionClose c) s = execFreriSessionClose c s := rfl
@[simp] theorem exec_freriStatus {c} {s : State} : exec (.freriStatus c) s = execFreriStatus c s := rfl
@[simp] theorem exec_timeStatus {c} {s : State} : exec (.timeStatus c) s = execTimeStatus c s := rfl
@[simp] theorem exec_timeConfig {c} {s : State} : exec (.timeConfig c) s = execTimeConfig c s := rfl
@[simp] theorem exec_entropyStatus {c} {s : State} : exec (.entropyStatus c) s = execEntropyStatus c s := rfl
@[simp] theorem exec_entropyConfig {c} {s : State} : exec (.entropyConfig c) s = execEntropyConfig c s := rfl
@[simp] theorem exec_entropyKat {c} {s : State} : exec (.entropyKat c) s = execEntropyKat c s := rfl
@[simp] theorem exec_ceremonyBegin {c} {s : State} : exec (.ceremonyBegin c) s = execCeremonyBegin c s := rfl
@[simp] theorem exec_ceremonyStatus {c} {s : State} : exec (.ceremonyStatus c) s = execCeremonyStatus c s := rfl
@[simp] theorem exec_ceremonyAbort {c} {s : State} : exec (.ceremonyAbort c) s = execCeremonyAbort c s := rfl
@[simp] theorem exec_ceremonyOmk {c} {s : State} : exec (.ceremonyOmk c) s = execCeremonyOmk c s := rfl
@[simp] theorem exec_fwStatus {c} {s : State} : exec (.fwStatus c) s = execFwStatus c s := rfl
@[simp] theorem exec_fwStage {c} {s : State} : exec (.fwStage c) s = execFwStage c s := rfl
@[simp] theorem exec_fwActivate {c} {s : State} : exec (.fwActivate c) s = execFwActivate c s := rfl
@[simp] theorem exec_fwRewrapDone {s : State} : exec (.fwRewrapDone) s = execFwRewrapDone s := rfl
@[simp] theorem exec_rekeyRewrapDone {colour} {s : State} : exec (.rekeyRewrapDone colour) s = execRekeyRewrapDone colour s := rfl
@[simp] theorem exec_authorisationVoid {s : State} : exec (.authorisationVoid) s = execAuthorisationVoid s := rfl
@[simp] theorem exec_sync {m} {s : State} : exec (.sync m) s = execSync m s := rfl
@[simp] theorem exec_followUp {m} {s : State} : exec (.followUp m) s = execFollowUp m s := rfl
@[simp] theorem exec_announce {m} {s : State} : exec (.announce m) s = execAnnounce m s := rfl
@[simp] theorem exec_delayResp {m} {s : State} : exec (.delayResp m) s = execDelayResp m s := rfl
@[simp] theorem exec_pdelayReq {m} {s : State} : exec (.pdelayReq m) s = execPdelayReq m s := rfl
@[simp] theorem exec_pdelayResp {m} {s : State} : exec (.pdelayResp m) s = execPdelayResp m s := rfl
@[simp] theorem exec_delayReqSend {s : State} : exec (.delayReqSend) s = execDelayReqSend s := rfl
@[simp] theorem exec_pdelayReqSend {s : State} : exec (.pdelayReqSend) s = execPdelayReqSend s := rfl
@[simp] theorem exec_announceReceiptTimeout {s : State} : exec (.announceReceiptTimeout) s = execAnnounceReceiptTimeout s := rfl
@[simp] theorem exec_syncLossTimeout {s : State} : exec (.syncLossTimeout) s = execSyncLossTimeout s := rfl
@[simp] theorem exec_holdoverEstimateExceeded {s : State} : exec (.holdoverEstimateExceeded) s = execHoldoverEstimateExceeded s := rfl
@[simp] theorem exec_ref10mLost {s : State} : exec (.ref10mLost) s = execRef10mLost s := rfl
@[simp] theorem exec_ppsInEdge {s : State} : exec (.ppsInEdge) s = execPpsInEdge s := rfl
@[simp] theorem exec_ppsInMissed {s : State} : exec (.ppsInMissed) s = execPpsInMissed s := rfl
@[simp] theorem exec_milepostSecond {s : State} : exec (.milepostSecond) s = execMilepostSecond s := rfl
@[simp] theorem exec_ppsOutFall {s : State} : exec (.ppsOutFall) s = execPpsOutFall s := rfl
@[simp] theorem exec_timingLinkDown {s : State} : exec (.timingLinkDown) s = execTimingLinkDown s := rfl
@[simp] theorem exec_cellStabilised {n} {s : State} : exec (.cellStabilised n) s = execCellStabilised n s := rfl
@[simp] theorem exec_noiseWindowEnd {n window} {s : State} : exec (.noiseWindowEnd n window) s = execNoiseWindowEnd n window s := rfl
@[simp] theorem exec_fillTimeExceeded {n} {s : State} : exec (.fillTimeExceeded n) s = execFillTimeExceeded n s := rfl
@[simp] theorem exec_kettleDraw {s : State} : exec (.kettleDraw) s = execKettleDraw s := rfl
@[simp] theorem exec_drbgGenerate {e} {s : State} : exec (.drbgGenerate e) s = execDrbgGenerate e s := rfl
@[simp] theorem exec_reseedRequested {e} {s : State} : exec (.reseedRequested e) s = execReseedRequested e s := rfl
@[simp] theorem exec_reseedRequired {e} {s : State} : exec (.reseedRequired e) s = execReseedRequired e s := rfl
@[simp] theorem exec_seedWait {e} {s : State} : exec (.seedWait e) s = execSeedWait e s := rfl
@[simp] theorem exec_katDone {src failed cell} {s : State} : exec (.katDone src failed cell) s = execKatDone src failed cell s := rfl
@[simp] theorem exec_cardInserted {slot} {s : State} : exec (.cardInserted slot) s = execCardInserted slot s := rfl
@[simp] theorem exec_cardRemoved {slot} {s : State} : exec (.cardRemoved slot) s = execCardRemoved slot s := rfl
@[simp] theorem exec_atr {slot bytes} {s : State} : exec (.atr slot bytes) s = execAtr slot bytes s := rfl
@[simp] theorem exec_atrTimeout {slot} {s : State} : exec (.atrTimeout slot) s = execAtrTimeout slot s := rfl
@[simp] theorem exec_classBReactivate {slot} {s : State} : exec (.classBReactivate slot) s = execClassBReactivate slot s := rfl
@[simp] theorem exec_ppsResponse {slot bytes} {s : State} : exec (.ppsResponse slot bytes) s = execPpsResponse slot bytes s := rfl
@[simp] theorem exec_t1Block {slot bytes} {s : State} : exec (.t1Block slot bytes) s = execT1Block slot bytes s := rfl
@[simp] theorem exec_blockWaitingTimeout {slot} {s : State} : exec (.blockWaitingTimeout slot) s = execBlockWaitingTimeout slot s := rfl
@[simp] theorem exec_wtxCeiling {slot} {s : State} : exec (.wtxCeiling slot) s = execWtxCeiling slot s := rfl
@[simp] theorem exec_cardInactivity {slot} {s : State} : exec (.cardInactivity slot) s = execCardInactivity slot s := rfl
@[simp] theorem exec_ceremonyTimeout {s : State} : exec (.ceremonyTimeout) s = execCeremonyTimeout s := rfl
@[simp] theorem exec_sourceSample {samples} {s : State} : exec (.sourceSample samples) s = execSourceSample samples s := rfl
@[simp] theorem exec_continuousInterval {samples} {s : State} : exec (.continuousInterval samples) s = execContinuousInterval samples s := rfl
@[simp] theorem exec_tamperResponseDone {s : State} : exec (.tamperResponseDone) s = execTamperResponseDone s := rfl
@[simp] theorem exec_shadowCheck {s : State} : exec (.shadowCheck) s = execShadowCheck s := rfl
@[simp] theorem exec_backupShadowMismatch {s : State} : exec (.backupShadowMismatch) s = execBackupShadowMismatch s := rfl
@[simp] theorem exec_faultArrival {cls kind src detail} {s : State} : exec (.faultArrival cls kind src detail) s = execFaultArrival cls kind src detail s := rfl
@[simp] theorem exec_class3Squash {s : State} : exec (.class3Squash) s = execClass3Squash s := rfl
@[simp] theorem exec_faultHandling {s : State} : exec (.faultHandling) s = execFaultHandling s := rfl
@[simp] theorem exec_gateLatchClear {gate} {s : State} : exec (.gateLatchClear gate) s = execGateLatchClear gate s := rfl
@[simp] theorem exec_aliveOutToggle {s : State} : exec (.aliveOutToggle) s = execAliveOutToggle s := rfl
@[simp] theorem exec_peerAliveInEdge {s : State} : exec (.peerAliveInEdge) s = execPeerAliveInEdge s := rfl
@[simp] theorem exec_peerAliveLost {s : State} : exec (.peerAliveLost) s = execPeerAliveLost s := rfl
@[simp] theorem exec_recorderSample {rec value} {s : State} : exec (.recorderSample rec value) s = execRecorderSample rec value s := rfl
@[simp] theorem exec_recorderFlush {s : State} : exec (.recorderFlush) s = execRecorderFlush s := rfl
@[simp] theorem exec_recorderFlushDone {s : State} : exec (.recorderFlushDone) s = execRecorderFlushDone s := rfl
@[simp] theorem exec_recorderPeriodicFlush {s : State} : exec (.recorderPeriodicFlush) s = execRecorderPeriodicFlush s := rfl
@[simp] theorem exec_operatingHoursTick {s : State} : exec (.operatingHoursTick) s = execOperatingHoursTick s := rfl
@[simp] theorem exec_holderRenewal {s : State} : exec (.holderRenewal) s = execHolderRenewal s := rfl
@[simp] theorem exec_refereeClaim {claims} {s : State} : exec (.refereeClaim claims) s = execRefereeClaim claims s := rfl
@[simp] theorem exec_claimLapse {s : State} : exec (.claimLapse) s = execClaimLapse s := rfl
@[simp] theorem exec_lockstepMismatch {s : State} : exec (.lockstepMismatch) s = execLockstepMismatch s := rfl
@[simp] theorem exec_failoverGrant {s : State} : exec (.failoverGrant) s = execFailoverGrant s := rfl
@[simp] theorem exec_stewardSelftestDone {south ok} {s : State} : exec (.stewardSelftestDone south ok) s = execStewardSelftestDone south ok s := rfl
@[simp] theorem exec_gateEpochFlip {gate rules} {s : State} : exec (.gateEpochFlip gate rules) s = execGateEpochFlip gate rules s := rfl
@[simp] theorem exec_gateDrainDone {gate} {s : State} : exec (.gateDrainDone gate) s = execGateDrainDone gate s := rfl
@[simp] theorem exec_gateDrainOverdue {gate} {s : State} : exec (.gateDrainOverdue gate) s = execGateDrainOverdue gate s := rfl
@[simp] theorem exec_innerHoldOverdue {src} {s : State} : exec (.innerHoldOverdue src) s = execInnerHoldOverdue src s := rfl
@[simp] theorem exec_holdRelease {src} {s : State} : exec (.holdRelease src) s = execHoldRelease src s := rfl
@[simp] theorem exec_forcedStop {c} {s : State} : exec (.forcedStop c) s = execForcedStop c s := rfl
@[simp] theorem exec_shareStorePropagated {colour} {s : State} : exec (.shareStorePropagated colour) s = execShareStorePropagated colour s := rfl
@[simp] theorem exec_porstNAssert {s : State} : exec (.porstNAssert) s = execPorstNAssert s := rfl
@[simp] theorem exec_porstNRelease {s : State} : exec (.porstNRelease) s = execPorstNRelease s := rfl
@[simp] theorem exec_railBelowThreshold {rail} {s : State} : exec (.railBelowThreshold rail) s = execRailBelowThreshold rail s := rfl
@[simp] theorem exec_startupStepDone {obs} {s : State} : exec (.startupStepDone obs) s = execStartupStepDone obs s := rfl
@[simp] theorem exec_governorTick {power} {s : State} : exec (.governorTick power) s = execGovernorTick power s := rfl
@[simp] theorem exec_loopAdjust {c slack temp stretch} {s : State} : exec (.loopAdjust c slack temp stretch) s = execLoopAdjust c slack temp stretch s := rfl
@[simp] theorem exec_marginLow1s {c} {s : State} : exec (.marginLow1s c) s = execMarginLow1s c s := rfl
@[simp] theorem exec_correctedRateHigh {c} {s : State} : exec (.correctedRateHigh c) s = execCorrectedRateHigh c s := rfl
@[simp] theorem exec_selftestDue {src} {s : State} : exec (.selftestDue src) s = execSelftestDue src s := rfl
@[simp] theorem exec_selftestDone {src ok} {s : State} : exec (.selftestDone src ok) s = execSelftestDone src ok s := rfl
@[simp] theorem exec_quiesceDone {c} {s : State} : exec (.quiesceDone c) s = execQuiesceDone c s := rfl
@[simp] theorem exec_reserveEngaged {c} {s : State} : exec (.reserveEngaged c) s = execReserveEngaged c s := rfl
@[simp] theorem exec_dramPageRemap {page} {s : State} : exec (.dramPageRemap page) s = execDramPageRemap page s := rfl
@[simp] theorem exec_dramUncorrectable {ch addr} {s : State} : exec (.dramUncorrectable ch addr) s = execDramUncorrectable ch addr s := rfl
@[simp] theorem exec_caddyIntegrity {slot} {s : State} : exec (.caddyIntegrity slot) s = execCaddyIntegrity slot s := rfl
@[simp] theorem exec_sramCorrected {src detail} {s : State} : exec (.sramCorrected src detail) s = execSramCorrected src detail s := rfl
@[simp] theorem exec_degradedVputTimeout {u} {s : State} : exec (.degradedVputTimeout u) s = execDegradedVputTimeout u s := rfl
@[simp] theorem exec_ppsResponseTimeout {slot} {s : State} : exec (.ppsResponseTimeout slot) s = execPpsResponseTimeout slot s := rfl
@[simp] theorem exec_dramCorrected {ch addr} {s : State} : exec (.dramCorrected ch addr) s = execDramCorrected ch addr s := rfl
@[simp] theorem exec_mramCorrected {off} {s : State} : exec (.mramCorrected off) s = execMramCorrected off s := rfl
@[simp] theorem exec_dmaFault {fn at_} {s : State} : exec (.dmaFault fn at_) s = execDmaFault fn at_ s := rfl
@[simp] theorem exec_freriRefclkPresent {port} {s : State} : exec (.freriRefclkPresent port) s = execFreriRefclkPresent port s := rfl
@[simp] theorem exec_dbgUnlock {unlock} {s : State} : exec (.dbgUnlock unlock) s = execDbgUnlock unlock s := rfl
@[simp] theorem exec_vendorTestMode {target} {s : State} : exec (.vendorTestMode target) s = execVendorTestMode target s := rfl
@[simp] theorem exec_lcTransitionDone {s : State} : exec (.lcTransitionDone) s = execLcTransitionDone s := rfl
@[simp] theorem exec_granuleZeroingDone {colour} {s : State} : exec (.granuleZeroingDone colour) s = execGranuleZeroingDone colour s := rfl

end Sys2Proof.Machine
end

