-- ==== Sys2Proof/Laws/Memory.lean ====
section
/-! SUPPORT. The laws of the byte memory: a read after a write, and that every memory operation keeps the canonical form. -/

namespace Sys2Proof.Machine

/-- Reading past a cell put in front. -/
theorem Memory.read_cons (m : Memory) (a : Nat) (v : Byte) (b : Nat) (h : ∀ c ∈ m, a < c.1) :
    (Memory.cons a v m).read b = if a = b then v else m.read b := by
  have key : ∀ (m : Memory), (∀ c ∈ m, a < c.1) → m.read a = Memory.blank := by
    intro m
    induction m with
    | nil => intro _; rfl
    | cons c r ih =>
      intro h
      have h1 := h c (by simp)
      simp only [Memory.read]
      rw [if_neg (by omega)]
      exact ih fun c hc => h c (by simp [hc])
  unfold Memory.cons
  split
  · next hv =>
    split
    · next e => subst e; rw [key m h, hv]
    · rfl
  · simp [Memory.read]

/-- Every cell of a memory after a write is the one written or was there. -/
theorem Memory.mem_write (m : Memory) (a : Nat) (v : Byte) (c : Host.Cell) (h : c ∈ m.write a v) :
    (c = (a, v) ∧ v ≠ Memory.blank) ∨ c ∈ m := by
  have front : ∀ (r : Memory), c ∈ Memory.cons a v r → (c = (a, v) ∧ v ≠ Memory.blank) ∨ c ∈ r := by
    intro r hr
    unfold Memory.cons at hr
    split at hr
    · exact .inr hr
    · next hv =>
      rcases List.mem_cons.mp hr with rfl | hr
      · exact .inl ⟨rfl, hv⟩
      · exact .inr hr
  induction m with
  | nil => exact front [] h
  | cons p r ih =>
    obtain ⟨k, x⟩ := p
    unfold Memory.write at h
    split at h
    · rcases front r h with h | h
      · exact .inl h
      · exact .inr (List.mem_cons_of_mem _ h)
    · split at h
      · exact front _ h
      · rcases List.mem_cons.mp h with rfl | h
        · exact .inr (by simp)
        · rcases ih h with h | h
          · exact .inl h
          · exact .inr (List.mem_cons_of_mem _ h)

/-- A cell put in front of higher ones keeps the canonical form. -/
theorem Memory.wf_cons (m : Memory) (a : Nat) (v : Byte) (h : m.wf) (ha : ∀ c ∈ m, a < c.1) : (Memory.cons a v m).wf := by
  unfold Memory.cons
  split
  · exact h
  · next hv =>
    refine ⟨?_, ?_⟩
    · simp only [List.map_cons, List.pairwise_cons]
      refine ⟨?_, h.1⟩
      intro k hk
      obtain ⟨c, hc, rfl⟩ := List.mem_map.mp hk
      exact ha c hc
    · intro c hc
      rcases List.mem_cons.mp hc with rfl | hc
      · exact hv
      · exact h.2 c hc

/-- The cells after the first lie above it. -/
theorem Memory.wf_above {k : Nat} {x : Byte} {r : Memory} (h : Memory.wf ((k, x) :: r)) : ∀ c ∈ r, k < c.1 := by
  intro c hc
  have h1 := h.1
  simp only [List.map_cons, List.pairwise_cons] at h1
  exact h1.1 c.1 (List.mem_map.mpr ⟨c, hc, rfl⟩)

/-- The rest of a canonical memory is canonical. -/
theorem Memory.wf_tail {k : Nat} {x : Byte} {r : Memory} (h : Memory.wf ((k, x) :: r)) : Memory.wf r := by
  have h1 := h.1
  simp only [List.map_cons, List.pairwise_cons] at h1
  exact ⟨h1.2, fun c hc => h.2 c (List.mem_cons_of_mem _ hc)⟩

/-- Writing a byte keeps the canonical form. -/
theorem Memory.wf_write (m : Memory) (a : Nat) (v : Byte) (h : m.wf) : (m.write a v).wf := by
  induction m with
  | nil => exact Memory.wf_cons [] a v h (by simp)
  | cons p r ih =>
    obtain ⟨k, x⟩ := p
    unfold Memory.write
    split
    · next e => subst e; exact Memory.wf_cons r k v (Memory.wf_tail h) (Memory.wf_above h)
    · split
      · next hlt =>
        refine Memory.wf_cons _ a v h ?_
        intro c hc
        rcases List.mem_cons.mp hc with rfl | hc
        · exact hlt
        · exact lt_trans hlt (Memory.wf_above h c hc)
      · next hne hge =>
        have hr := ih (Memory.wf_tail h)
        refine ⟨?_, ?_⟩
        · simp only [List.map_cons, List.pairwise_cons]
          refine ⟨?_, hr.1⟩
          intro b hb
          obtain ⟨c, hc, rfl⟩ := List.mem_map.mp hb
          rcases Memory.mem_write r a v c hc with ⟨rfl, _⟩ | hc
          · show k < a; omega
          · exact Memory.wf_above h c hc
        · intro c hc
          rcases List.mem_cons.mp hc with rfl | hc
          · exact h.2 _ (by simp)
          · exact hr.2 c hc

/-- Reading after a write: the byte written at its address, every other address as before. -/
theorem Memory.read_write (m : Memory) (a : Nat) (v : Byte) (b : Nat) (h : m.wf) :
    (m.write a v).read b = if a = b then v else m.read b := by
  induction m with
  | nil => simpa [Memory.write] using Memory.read_cons [] a v b (by simp)
  | cons p r ih =>
    obtain ⟨k, x⟩ := p
    unfold Memory.write
    split
    · next e =>
      subst e
      rw [Memory.read_cons r k v b (Memory.wf_above h)]
      by_cases hb : k = b <;> simp [Memory.read, hb]
    · split
      · next hlt =>
        refine Memory.read_cons _ a v b ?_
        intro c hc
        rcases List.mem_cons.mp hc with rfl | hc
        · exact hlt
        · exact lt_trans hlt (Memory.wf_above h c hc)
      · next hne hge =>
        by_cases hk : k = b
        · subst hk; simp [Memory.read, Ne.symm hne]
        · simp [Memory.read, hk, ih (Memory.wf_tail h)]

/-- Writing bytes keeps the canonical form. -/
theorem Memory.wf_writeBytes (b : Bytes) : ∀ (m : Memory) (a : Nat), m.wf → (m.writeBytes a b).wf := by
  induction b with
  | nil => intro m a h; exact h
  | cons x r ih => intro m a h; exact ih _ _ (Memory.wf_write m a x h)

/-- Reading after bytes were written: inside them the byte written, outside them as before. -/
theorem Memory.read_writeBytes (b : Bytes) : ∀ (m : Memory) (a i : Nat), m.wf →
    (m.writeBytes a b).read i = if a ≤ i ∧ i < a + b.length then b.getD (i - a) 0 else m.read i := by
  induction b with
  | nil => intro m a i _; simp [Memory.writeBytes]
  | cons x r ih =>
    intro m a i h
    rw [Memory.writeBytes, ih _ _ _ (Memory.wf_write m a x h), Memory.read_write m a x i h]
    by_cases h1 : a = i
    · subst h1; simp
    · by_cases h2 : a + 1 ≤ i ∧ i < a + 1 + r.length
      · have : i - a = (i - (a + 1)) + 1 := by omega
        rw [if_pos h2, if_pos (by simp only [List.length_cons]; omega), this]; simp
      · rw [if_neg h2, if_neg h1, if_neg (by simp only [List.length_cons]; omega)]

/-- Clearing a range keeps the canonical form. -/
theorem Memory.wf_clear (m : Memory) (lo hi : Nat) (h : m.wf) : (m.clear lo hi).wf := by
  refine ⟨?_, fun c hc => h.2 c (List.mem_of_mem_filter hc)⟩
  exact h.1.sublist (List.Sublist.map _ List.filter_sublist)

/-- Reading after a range was cleared: blank inside, as before outside. -/
theorem Memory.read_clear (m : Memory) (lo hi a : Nat) :
    (m.clear lo hi).read a = if lo ≤ a ∧ a < hi then Memory.blank else m.read a := by
  induction m with
  | nil => simp [Memory.clear, Memory.read]
  | cons p r ih =>
    obtain ⟨k, x⟩ := p
    have ih' : Memory.read (List.filter (fun c => decide (c.1 < lo) || decide (hi ≤ c.1)) r) a =
        if lo ≤ a ∧ a < hi then Memory.blank else Memory.read r a := ih
    unfold Memory.clear
    rw [List.filter_cons]
    split
    · next hk =>
      simp only [Bool.or_eq_true, decide_eq_true_eq] at hk
      by_cases hka : k = a
      · subst hka; simp only [Memory.read, if_true]; rw [if_neg (by omega)]
      · simp only [Memory.read, if_neg hka]; exact ih'
    · next hk =>
      simp only [Bool.or_eq_true, decide_eq_true_eq, not_or] at hk
      rw [ih']
      by_cases hka : k = a
      · subst hka; rw [if_pos (by omega), if_pos (by omega)]
      · simp only [Memory.read, if_neg hka]

/-- An empty memory is canonical. -/
theorem Memory.wf_nil : Memory.wf [] := by simp [Memory.wf]

/-- A store keeps the canonical form. -/
theorem State.store_wf (s : State) (a : Nat) (b : Bytes) (h : s.mem.wf) : (s.store a b).mem.wf := Memory.wf_writeBytes b s.mem a h

/-- A wipe keeps the canonical form. -/
theorem State.wipe_wf (s : State) (lo hi : Nat) (h : s.mem.wf) : (s.wipe lo hi).mem.wf := Memory.wf_clear s.mem lo hi h

/-- Reset memory is canonical. -/
theorem State.reset_wf : State.reset.mem.wf := Memory.wf_nil

end Sys2Proof.Machine
end

