-- ==== Sys2Proof/Laws/Kept.lean ====
section
/-! SUPPORT. What an operation may change, said once for each, with `Kept` (Sys2Proof/Safety.lean). The lemma of an operation carries the
chain on: from `Kept W s0 s` to `Kept W s0 (operation s)`, for every `W` that holds the fields the operation writes. -/

namespace Sys2Proof.Machine

/-- A field outside `W` is the same. -/
theorem Kept.now_eq {W : List Fld} {s t : State} (h : Kept W s t) (hf : Fld.now ∉ W) : t.now = s.now := h.now.resolve_left hf
theorem Kept.freeCtr_eq {W : List Fld} {s t : State} (h : Kept W s t) (hf : Fld.freeCtr ∉ W) : t.freeCtr = s.freeCtr := h.freeCtr.resolve_left hf
theorem Kept.out_eq {W : List Fld} {s t : State} (h : Kept W s t) (hf : Fld.out ∉ W) : t.out = s.out := h.out.resolve_left hf
theorem Kept.mem_eq {W : List Fld} {s t : State} (h : Kept W s t) (hf : Fld.mem ∉ W) : t.mem = s.mem := h.mem.resolve_left hf
theorem Kept.seats_eq {W : List Fld} {s t : State} (h : Kept W s t) (hf : Fld.seats ∉ W) : t.seats = s.seats := h.seats.resolve_left hf
theorem Kept.tes_eq {W : List Fld} {s t : State} (h : Kept W s t) (hf : Fld.tes ∉ W) : t.tes = s.tes := h.tes.resolve_left hf
theorem Kept.clusters_eq {W : List Fld} {s t : State} (h : Kept W s t) (hf : Fld.clusters ∉ W) : t.clusters = s.clusters := h.clusters.resolve_left hf
theorem Kept.lanes_eq {W : List Fld} {s t : State} (h : Kept W s t) (hf : Fld.lanes ∉ W) : t.lanes = s.lanes := h.lanes.resolve_left hf
theorem Kept.depot_eq {W : List Fld} {s t : State} (h : Kept W s t) (hf : Fld.depot ∉ W) : t.depot = s.depot := h.depot.resolve_left hf
theorem Kept.tenancy_eq {W : List Fld} {s t : State} (h : Kept W s t) (hf : Fld.tenancy ∉ W) : t.tenancy = s.tenancy := h.tenancy.resolve_left hf
theorem Kept.keys_eq {W : List Fld} {s t : State} (h : Kept W s t) (hf : Fld.keys ∉ W) : t.keys = s.keys := h.keys.resolve_left hf
theorem Kept.vault_eq {W : List Fld} {s t : State} (h : Kept W s t) (hf : Fld.vault ∉ W) : t.vault = s.vault := h.vault.resolve_left hf
theorem Kept.journal_eq {W : List Fld} {s t : State} (h : Kept W s t) (hf : Fld.journal ∉ W) : t.journal = s.journal := h.journal.resolve_left hf
theorem Kept.held_eq {W : List Fld} {s t : State} (h : Kept W s t) (hf : Fld.held ∉ W) : t.held = s.held := h.held.resolve_left hf
theorem Kept.port0_eq {W : List Fld} {s t : State} (h : Kept W s t) (hf : Fld.port0 ∉ W) : t.port0 = s.port0 := h.port0.resolve_left hf
theorem Kept.port1_eq {W : List Fld} {s t : State} (h : Kept W s t) (hf : Fld.port1 ∉ W) : t.port1 = s.port1 := h.port1.resolve_left hf
theorem Kept.openSerial_eq {W : List Fld} {s t : State} (h : Kept W s t) (hf : Fld.openSerial ∉ W) : t.openSerial = s.openSerial := h.openSerial.resolve_left hf
theorem Kept.pcie_eq {W : List Fld} {s t : State} (h : Kept W s t) (hf : Fld.pcie ∉ W) : t.pcie = s.pcie := h.pcie.resolve_left hf
theorem Kept.gates_eq {W : List Fld} {s t : State} (h : Kept W s t) (hf : Fld.gates ∉ W) : t.gates = s.gates := h.gates.resolve_left hf
theorem Kept.steward_eq {W : List Fld} {s t : State} (h : Kept W s t) (hf : Fld.steward ∉ W) : t.steward = s.steward := h.steward.resolve_left hf
theorem Kept.time_eq {W : List Fld} {s t : State} (h : Kept W s t) (hf : Fld.time ∉ W) : t.time = s.time := h.time.resolve_left hf
theorem Kept.entropy_eq {W : List Fld} {s t : State} (h : Kept W s t) (hf : Fld.entropy ∉ W) : t.entropy = s.entropy := h.entropy.resolve_left hf
theorem Kept.cards_eq {W : List Fld} {s t : State} (h : Kept W s t) (hf : Fld.cards ∉ W) : t.cards = s.cards := h.cards.resolve_left hf
theorem Kept.tamper_eq {W : List Fld} {s t : State} (h : Kept W s t) (hf : Fld.tamper ∉ W) : t.tamper = s.tamper := h.tamper.resolve_left hf
theorem Kept.lc_eq {W : List Fld} {s t : State} (h : Kept W s t) (hf : Fld.lc ∉ W) : t.lc = s.lc := h.lc.resolve_left hf
theorem Kept.faults_eq {W : List Fld} {s t : State} (h : Kept W s t) (hf : Fld.faults ∉ W) : t.faults = s.faults := h.faults.resolve_left hf
theorem Kept.recorder_eq {W : List Fld} {s t : State} (h : Kept W s t) (hf : Fld.recorder ∉ W) : t.recorder = s.recorder := h.recorder.resolve_left hf
theorem Kept.power_eq {W : List Fld} {s t : State} (h : Kept W s t) (hf : Fld.power ∉ W) : t.power = s.power := h.power.resolve_left hf

/-- Nothing changed. -/
@[simp] theorem Kept.refl (W : List Fld) (s : State) : Kept W s s := by constructor <;> simp

/-- One change after another. -/
theorem Kept.trans {W : List Fld} {s t u : State} (h : Kept W s t) (k : Kept W t u) : Kept W s u := by
  constructor
  · rw [k.pending, h.pending]
  · exact fun w => k.wf (h.wf w)
  · exact h.now.elim .inl fun e => k.now.elim .inl fun e' => .inr (e'.trans e)
  · exact h.freeCtr.elim .inl fun e => k.freeCtr.elim .inl fun e' => .inr (e'.trans e)
  · exact h.out.elim .inl fun e => k.out.elim .inl fun e' => .inr (e'.trans e)
  · exact h.mem.elim .inl fun e => k.mem.elim .inl fun e' => .inr (e'.trans e)
  · exact h.seats.elim .inl fun e => k.seats.elim .inl fun e' => .inr (e'.trans e)
  · exact h.tes.elim .inl fun e => k.tes.elim .inl fun e' => .inr (e'.trans e)
  · exact h.clusters.elim .inl fun e => k.clusters.elim .inl fun e' => .inr (e'.trans e)
  · exact h.lanes.elim .inl fun e => k.lanes.elim .inl fun e' => .inr (e'.trans e)
  · exact h.depot.elim .inl fun e => k.depot.elim .inl fun e' => .inr (e'.trans e)
  · exact h.tenancy.elim .inl fun e => k.tenancy.elim .inl fun e' => .inr (e'.trans e)
  · exact h.keys.elim .inl fun e => k.keys.elim .inl fun e' => .inr (e'.trans e)
  · exact h.vault.elim .inl fun e => k.vault.elim .inl fun e' => .inr (e'.trans e)
  · exact h.journal.elim .inl fun e => k.journal.elim .inl fun e' => .inr (e'.trans e)
  · exact h.held.elim .inl fun e => k.held.elim .inl fun e' => .inr (e'.trans e)
  · exact h.port0.elim .inl fun e => k.port0.elim .inl fun e' => .inr (e'.trans e)
  · exact h.port1.elim .inl fun e => k.port1.elim .inl fun e' => .inr (e'.trans e)
  · exact h.openSerial.elim .inl fun e => k.openSerial.elim .inl fun e' => .inr (e'.trans e)
  · exact h.pcie.elim .inl fun e => k.pcie.elim .inl fun e' => .inr (e'.trans e)
  · exact h.gates.elim .inl fun e => k.gates.elim .inl fun e' => .inr (e'.trans e)
  · exact h.steward.elim .inl fun e => k.steward.elim .inl fun e' => .inr (e'.trans e)
  · exact h.time.elim .inl fun e => k.time.elim .inl fun e' => .inr (e'.trans e)
  · exact h.entropy.elim .inl fun e => k.entropy.elim .inl fun e' => .inr (e'.trans e)
  · exact h.cards.elim .inl fun e => k.cards.elim .inl fun e' => .inr (e'.trans e)
  · exact h.tamper.elim .inl fun e => k.tamper.elim .inl fun e' => .inr (e'.trans e)
  · exact h.lc.elim .inl fun e => k.lc.elim .inl fun e' => .inr (e'.trans e)
  · exact h.faults.elim .inl fun e => k.faults.elim .inl fun e' => .inr (e'.trans e)
  · exact h.recorder.elim .inl fun e => k.recorder.elim .inl fun e' => .inr (e'.trans e)
  · exact h.power.elim .inl fun e => k.power.elim .inl fun e' => .inr (e'.trans e)

/-- A wider `W` says less. -/
theorem Kept.mono {W V : List Fld} {s t : State} (h : Kept W s t) (hv : W ⊆ V) : Kept V s t := by
  constructor
  · exact h.pending
  · exact h.wf
  · exact h.now.imp (hv ·) id
  · exact h.freeCtr.imp (hv ·) id
  · exact h.out.imp (hv ·) id
  · exact h.mem.imp (hv ·) id
  · exact h.seats.imp (hv ·) id
  · exact h.tes.imp (hv ·) id
  · exact h.clusters.imp (hv ·) id
  · exact h.lanes.imp (hv ·) id
  · exact h.depot.imp (hv ·) id
  · exact h.tenancy.imp (hv ·) id
  · exact h.keys.imp (hv ·) id
  · exact h.vault.imp (hv ·) id
  · exact h.journal.imp (hv ·) id
  · exact h.held.imp (hv ·) id
  · exact h.port0.imp (hv ·) id
  · exact h.port1.imp (hv ·) id
  · exact h.openSerial.imp (hv ·) id
  · exact h.pcie.imp (hv ·) id
  · exact h.gates.imp (hv ·) id
  · exact h.steward.imp (hv ·) id
  · exact h.time.imp (hv ·) id
  · exact h.entropy.imp (hv ·) id
  · exact h.cards.imp (hv ·) id
  · exact h.tamper.imp (hv ·) id
  · exact h.lc.imp (hv ·) id
  · exact h.faults.imp (hv ·) id
  · exact h.recorder.imp (hv ·) id
  · exact h.power.imp (hv ·) id

/-- A state written over another: the queue and the byte memory stay, each other field stays or is in `W`. -/
theorem Kept.mk_of {W : List Fld} {s0 e : State} (h : Kept W s0 e)
    {a_now : Nat}
    {a_freeCtr : Nat}
    {a_out : List Output}
    {a_seats : Tbl Seat}
    {a_tes : Tbl Te}
    {a_clusters : Tbl Cluster}
    {a_lanes : Tbl Lane}
    {a_depot : Depot}
    {a_tenancy : Tenancy}
    {a_keys : Keys}
    {a_vault : Vault}
    {a_journal : Journal}
    {a_held : List Held}
    {a_port0 : Port}
    {a_port1 : Port}
    {a_openSerial : Word}
    {a_pcie : Pcie}
    {a_gates : Tbl Gate}
    {a_steward : Steward}
    {a_time : Time}
    {a_entropy : Entropy}
    {a_cards : Cards}
    {a_tamper : Tamper}
    {a_lc : Lifecycle}
    {a_faults : Faults}
    {a_recorder : Recorder}
    {a_power : Power}
    (h_now : Fld.now ∈ W ∨ a_now = e.now)
    (h_freeCtr : Fld.freeCtr ∈ W ∨ a_freeCtr = e.freeCtr)
    (h_out : Fld.out ∈ W ∨ a_out = e.out)
    (h_seats : Fld.seats ∈ W ∨ a_seats = e.seats)
    (h_tes : Fld.tes ∈ W ∨ a_tes = e.tes)
    (h_clusters : Fld.clusters ∈ W ∨ a_clusters = e.clusters)
    (h_lanes : Fld.lanes ∈ W ∨ a_lanes = e.lanes)
    (h_depot : Fld.depot ∈ W ∨ a_depot = e.depot)
    (h_tenancy : Fld.tenancy ∈ W ∨ a_tenancy = e.tenancy)
    (h_keys : Fld.keys ∈ W ∨ a_keys = e.keys)
    (h_vault : Fld.vault ∈ W ∨ a_vault = e.vault)
    (h_journal : Fld.journal ∈ W ∨ a_journal = e.journal)
    (h_held : Fld.held ∈ W ∨ a_held = e.held)
    (h_port0 : Fld.port0 ∈ W ∨ a_port0 = e.port0)
    (h_port1 : Fld.port1 ∈ W ∨ a_port1 = e.port1)
    (h_openSerial : Fld.openSerial ∈ W ∨ a_openSerial = e.openSerial)
    (h_pcie : Fld.pcie ∈ W ∨ a_pcie = e.pcie)
    (h_gates : Fld.gates ∈ W ∨ a_gates = e.gates)
    (h_steward : Fld.steward ∈ W ∨ a_steward = e.steward)
    (h_time : Fld.time ∈ W ∨ a_time = e.time)
    (h_entropy : Fld.entropy ∈ W ∨ a_entropy = e.entropy)
    (h_cards : Fld.cards ∈ W ∨ a_cards = e.cards)
    (h_tamper : Fld.tamper ∈ W ∨ a_tamper = e.tamper)
    (h_lc : Fld.lc ∈ W ∨ a_lc = e.lc)
    (h_faults : Fld.faults ∈ W ∨ a_faults = e.faults)
    (h_recorder : Fld.recorder ∈ W ∨ a_recorder = e.recorder)
    (h_power : Fld.power ∈ W ∨ a_power = e.power) :
    Kept W s0 (State.mk e.pending a_now a_freeCtr a_out e.mem a_seats a_tes a_clusters a_lanes a_depot a_tenancy a_keys a_vault a_journal a_held a_port0 a_port1 a_openSerial a_pcie a_gates a_steward a_time a_entropy a_cards a_tamper a_lc a_faults a_recorder a_power) := by
  apply h.trans
  constructor
  · rfl
  · exact id
  · exact h_now
  · exact h_freeCtr
  · exact h_out
  · exact .inr rfl
  · exact h_seats
  · exact h_tes
  · exact h_clusters
  · exact h_lanes
  · exact h_depot
  · exact h_tenancy
  · exact h_keys
  · exact h_vault
  · exact h_journal
  · exact h_held
  · exact h_port0
  · exact h_port1
  · exact h_openSerial
  · exact h_pcie
  · exact h_gates
  · exact h_steward
  · exact h_time
  · exact h_entropy
  · exact h_cards
  · exact h_tamper
  · exact h_lc
  · exact h_faults
  · exact h_recorder
  · exact h_power

/-- Membership through a subset. -/
theorem Fld.mem_of {A W : List Fld} {f : Fld} (h : A ⊆ W) (hf : f ∈ A) : f ∈ W := h hf

/-- A fold of steps that each keep what `W` does not hold. -/
theorem Kept.foldl {W : List Fld} {α : Type} {f : State → α → State} {s0 : State} (hf : ∀ s x, Kept W s (f s x)) :
    ∀ (l : List α) (s : State), Kept W s0 s → Kept W s0 (l.foldl f s)
  | [], _, h => h
  | x :: r, s, h => Kept.foldl hf r (f s x) (h.trans (hf s x))

/-- A step that may have nothing to do. -/
theorem Kept.getD {W : List Fld} {s0 t : State} {o : Option State} (h : ∀ z, o = some z → Kept W s0 z) (k : Kept W s0 t) :
    Kept W s0 (o.getD t) := by
  cases o with
  | none => exact k
  | some z => exact h z rfl

/-- A step on what may be absent. -/
theorem Kept.elim {W : List Fld} {α : Type} {s0 t : State} {o : Option α} {f : α → State} (h : ∀ x, o = some x → Kept W s0 (f x))
    (k : Kept W s0 t) : Kept W s0 (o.elim t f) := by
  cases o with
  | none => exact k
  | some x => exact h x rfl

/-- Either way. -/
theorem Kept.ite {W : List Fld} {s0 s t : State} {c : Prop} [Decidable c] (h : c → Kept W s0 s) (k : ¬c → Kept W s0 t) :
    Kept W s0 (if c then s else t) := by
  split
  · exact h ‹_›
  · exact k ‹_›

end Sys2Proof.Machine
end

