-- ==== Sys2Proof/Laws/KeptOps.lean ====
section
/-! SUPPORT. What each operation on the state may change: the named operations, the links, the collector, the seats and the key store. -/

namespace Sys2Proof.Machine

set_option linter.all false

theorem State.setSeat_kept {W : List Fld} {s0 s : State}  (u : SeatRef) (t : Seat) (hk : Kept W s0 s) (hkw : [Fld.seats] ⊆ W) :
    Kept W s0 (State.setSeat s u t) := by
  simp only [List.cons_subset, List.nil_subset, and_true] at hkw
  unfold State.setSeat
  repeat' (first | (simp (maxDischargeDepth := 40) only [hk, hkw, Kept.refl, Kept.mk_of, Kept.ite, Kept.foldl, List.cons_subset, List.nil_subset, List.mem_cons, List.mem_singleton, and_true, true_and, true_or, or_true, and_self, implies_true, not_false_eq_true]; done) | split)

theorem State.setTe_kept {W : List Fld} {s0 s : State}  (c t : Nat) (x : Te) (hk : Kept W s0 s) (hkw : [Fld.tes] ⊆ W) :
    Kept W s0 (State.setTe s c t x) := by
  simp only [List.cons_subset, List.nil_subset, and_true] at hkw
  unfold State.setTe
  repeat' (first | (simp (maxDischargeDepth := 40) only [hk, hkw, Kept.refl, Kept.mk_of, Kept.ite, Kept.foldl, List.cons_subset, List.nil_subset, List.mem_cons, List.mem_singleton, and_true, true_and, true_or, or_true, and_self, implies_true, not_false_eq_true]; done) | split)

theorem State.setCluster_kept {W : List Fld} {s0 s : State}  (c : Nat) (x : Cluster) (hk : Kept W s0 s) (hkw : [Fld.clusters] ⊆ W) :
    Kept W s0 (State.setCluster s c x) := by
  simp only [List.cons_subset, List.nil_subset, and_true] at hkw
  unfold State.setCluster
  repeat' (first | (simp (maxDischargeDepth := 40) only [hk, hkw, Kept.refl, Kept.mk_of, Kept.ite, Kept.foldl, List.cons_subset, List.nil_subset, List.mem_cons, List.mem_singleton, and_true, true_and, true_or, or_true, and_self, implies_true, not_false_eq_true]; done) | split)

theorem State.setLane_kept {W : List Fld} {s0 s : State}  (l : Nat) (x : Lane) (hk : Kept W s0 s) (hkw : [Fld.lanes] ⊆ W) :
    Kept W s0 (State.setLane s l x) := by
  simp only [List.cons_subset, List.nil_subset, and_true] at hkw
  unfold State.setLane
  repeat' (first | (simp (maxDischargeDepth := 40) only [hk, hkw, Kept.refl, Kept.mk_of, Kept.ite, Kept.foldl, List.cons_subset, List.nil_subset, List.mem_cons, List.mem_singleton, and_true, true_and, true_or, or_true, and_self, implies_true, not_false_eq_true]; done) | split)

theorem State.setFunc_kept {W : List Fld} {s0 s : State}  (f : Nat) (x : Func) (hk : Kept W s0 s) (hkw : [Fld.pcie] ⊆ W) :
    Kept W s0 (State.setFunc s f x) := by
  simp only [List.cons_subset, List.nil_subset, and_true] at hkw
  unfold State.setFunc
  repeat' (first | (simp (maxDischargeDepth := 40) only [hk, hkw, Kept.refl, Kept.mk_of, Kept.ite, Kept.foldl, List.cons_subset, List.nil_subset, List.mem_cons, List.mem_singleton, and_true, true_and, true_or, or_true, and_self, implies_true, not_false_eq_true]; done) | split)

theorem State.setGate_kept {W : List Fld} {s0 s : State}  (g : Nat) (x : Gate) (hk : Kept W s0 s) (hkw : [Fld.gates] ⊆ W) :
    Kept W s0 (State.setGate s g x) := by
  simp only [List.cons_subset, List.nil_subset, and_true] at hkw
  unfold State.setGate
  repeat' (first | (simp (maxDischargeDepth := 40) only [hk, hkw, Kept.refl, Kept.mk_of, Kept.ite, Kept.foldl, List.cons_subset, List.nil_subset, List.mem_cons, List.mem_singleton, and_true, true_and, true_or, or_true, and_self, implies_true, not_false_eq_true]; done) | split)

theorem State.setCell_kept {W : List Fld} {s0 s : State}  (n : Nat) (x : Cell) (hk : Kept W s0 s) (hkw : [Fld.entropy] ⊆ W) :
    Kept W s0 (State.setCell s n x) := by
  simp only [List.cons_subset, List.nil_subset, and_true] at hkw
  unfold State.setCell
  repeat' (first | (simp (maxDischargeDepth := 40) only [hk, hkw, Kept.refl, Kept.mk_of, Kept.ite, Kept.foldl, List.cons_subset, List.nil_subset, List.mem_cons, List.mem_singleton, and_true, true_and, true_or, or_true, and_self, implies_true, not_false_eq_true]; done) | split)

theorem State.setCard_kept {W : List Fld} {s0 s : State}  (n : Nat) (x : CardSlot) (hk : Kept W s0 s) (hkw : [Fld.cards] ⊆ W) :
    Kept W s0 (State.setCard s n x) := by
  simp only [List.cons_subset, List.nil_subset, and_true] at hkw
  unfold State.setCard
  repeat' (first | (simp (maxDischargeDepth := 40) only [hk, hkw, Kept.refl, Kept.mk_of, Kept.ite, Kept.foldl, List.cons_subset, List.nil_subset, List.mem_cons, List.mem_singleton, and_true, true_and, true_or, or_true, and_self, implies_true, not_false_eq_true]; done) | split)

theorem State.setSource_kept {W : List Fld} {s0 s : State}  (n : Nat) (x : Source) (hk : Kept W s0 s) (hkw : [Fld.tamper] ⊆ W) :
    Kept W s0 (State.setSource s n x) := by
  simp only [List.cons_subset, List.nil_subset, and_true] at hkw
  unfold State.setSource
  repeat' (first | (simp (maxDischargeDepth := 40) only [hk, hkw, Kept.refl, Kept.mk_of, Kept.ite, Kept.foldl, List.cons_subset, List.nil_subset, List.mem_cons, List.mem_singleton, and_true, true_and, true_or, or_true, and_self, implies_true, not_false_eq_true]; done) | split)

theorem State.setPort_kept {W : List Fld} {s0 s : State}  (p : Nat) (x : Port) (hk : Kept W s0 s) (hkw : [Fld.port0, Fld.port1] ⊆ W) :
    Kept W s0 (State.setPort s p x) := by
  simp only [List.cons_subset, List.nil_subset, and_true] at hkw
  unfold State.setPort
  repeat' (first | (simp (maxDischargeDepth := 40) only [hk, hkw, Kept.refl, Kept.mk_of, Kept.ite, Kept.foldl, List.cons_subset, List.nil_subset, List.mem_cons, List.mem_singleton, and_true, true_and, true_or, or_true, and_self, implies_true, not_false_eq_true]; done) | split)

theorem State.setPart_kept {W : List Fld} {s0 s : State}  (c : Colour) (x : Part) (hk : Kept W s0 s) (hkw : [Fld.tenancy] ⊆ W) :
    Kept W s0 (State.setPart s c x) := by
  simp only [List.cons_subset, List.nil_subset, and_true] at hkw
  unfold State.setPart
  repeat' (first | (simp (maxDischargeDepth := 40) only [hk, hkw, Kept.refl, Kept.mk_of, Kept.ite, Kept.foldl, List.cons_subset, List.nil_subset, List.mem_cons, List.mem_singleton, and_true, true_and, true_or, or_true, and_self, implies_true, not_false_eq_true]; done) | split)

theorem State.emit_kept {W : List Fld} {s0 s : State}  (o : Output) (hk : Kept W s0 s) (hkw : [Fld.out] ⊆ W) :
    Kept W s0 (State.emit s o) := by
  simp only [List.cons_subset, List.nil_subset, and_true] at hkw
  unfold State.emit
  repeat' (first | (simp (maxDischargeDepth := 40) only [hk, hkw, Kept.refl, Kept.mk_of, Kept.ite, Kept.foldl, List.cons_subset, List.nil_subset, List.mem_cons, List.mem_singleton, and_true, true_and, true_or, or_true, and_self, implies_true, not_false_eq_true]; done) | split)

theorem State.setExpander_kept {W : List Fld} {s0 s : State}  (e : Nat) (x : Expander) (hk : Kept W s0 s) (hkw : [Fld.clusters, Fld.entropy] ⊆ W) :
    Kept W s0 (State.setExpander s e x) := by
  simp only [List.cons_subset, List.nil_subset, and_true] at hkw
  unfold State.setExpander
  repeat' (first | (simp (maxDischargeDepth := 40) only [hk, hkw, Kept.refl, Kept.mk_of, Kept.ite, Kept.foldl, List.cons_subset, List.nil_subset, List.mem_cons, List.mem_singleton, and_true, true_and, true_or, or_true, and_self, implies_true, not_false_eq_true, State.setCluster_kept]; done) | split)

theorem State.drawn_kept {W : List Fld} {s0 s : State}  (hk : Kept W s0 s) (hkw : [Fld.freeCtr] ⊆ W) :
    Kept W s0 (State.drawn s) := by
  simp only [List.cons_subset, List.nil_subset, and_true] at hkw
  unfold State.drawn
  repeat' (first | (simp (maxDischargeDepth := 40) only [hk, hkw, Kept.refl, Kept.mk_of, Kept.ite, Kept.foldl, List.cons_subset, List.nil_subset, List.mem_cons, List.mem_singleton, and_true, true_and, true_or, or_true, and_self, implies_true, not_false_eq_true]; done) | split)

theorem State.drawnBytes_kept {W : List Fld} {s0 s : State}  (n : Nat) (hk : Kept W s0 s) (hkw : [Fld.freeCtr] ⊆ W) :
    Kept W s0 (State.drawnBytes s n) := by
  simp only [List.cons_subset, List.nil_subset, and_true] at hkw
  unfold State.drawnBytes
  repeat' (first | (simp (maxDischargeDepth := 40) only [hk, hkw, Kept.refl, Kept.mk_of, Kept.ite, Kept.foldl, List.cons_subset, List.nil_subset, List.mem_cons, List.mem_singleton, and_true, true_and, true_or, or_true, and_self, implies_true, not_false_eq_true]; done) | split)

theorem State.store_kept {W : List Fld} {s0 s : State} (a : Nat) (b : Bytes) (hk : Kept W s0 s) (hkw : [Fld.mem] ⊆ W) :
    Kept W s0 (State.store s a b) := by
  apply hk.trans
  constructor
  case wf => exact fun w => State.store_wf s a b w
  case mem => exact .inl (hkw (List.mem_singleton_self _))
  all_goals first | exact rfl | exact .inr rfl

theorem State.wipe_kept {W : List Fld} {s0 s : State} (lo hi : Nat) (hk : Kept W s0 s) (hkw : [Fld.mem] ⊆ W) :
    Kept W s0 (State.wipe s lo hi) := by
  apply hk.trans
  constructor
  case wf => exact fun w => State.wipe_wf s lo hi w
  case mem => exact .inl (hkw (List.mem_singleton_self _))
  all_goals first | exact rfl | exact .inr rfl

theorem State.hubRead_kept {W : List Fld} {s0 s : State}  (n : Nat) (hk : Kept W s0 s) (hkw : [Fld.freeCtr, Fld.entropy] ⊆ W) :
    Kept W s0 (State.hubRead s n) := by
  simp only [List.cons_subset, List.nil_subset, and_true] at hkw
  unfold State.hubRead
  repeat' (first | (simp (maxDischargeDepth := 40) only [hk, hkw, Kept.refl, Kept.mk_of, Kept.ite, Kept.foldl, List.cons_subset, List.nil_subset, List.mem_cons, List.mem_singleton, and_true, true_and, true_or, or_true, and_self, implies_true, not_false_eq_true, State.drawnBytes_kept]; done) | split)

theorem State.updateRec_kept {W : List Fld} {s0 s : State}  (n : Nat) (f : List Int → List Int) (hk : Kept W s0 s) (hkw : [Fld.recorder] ⊆ W) :
    Kept W s0 (State.updateRec s n f) := by
  simp only [List.cons_subset, List.nil_subset, and_true] at hkw
  unfold State.updateRec
  repeat' (first | (simp (maxDischargeDepth := 40) only [hk, hkw, Kept.refl, Kept.mk_of, Kept.ite, Kept.foldl, List.cons_subset, List.nil_subset, List.mem_cons, List.mem_singleton, and_true, true_and, true_or, or_true, and_self, implies_true, not_false_eq_true]; done) | split)

theorem State.count_kept {W : List Fld} {s0 s : State}  (rec i : Nat) (hk : Kept W s0 s) (hkw : [Fld.recorder] ⊆ W) :
    Kept W s0 (State.count s rec i) := by
  simp only [List.cons_subset, List.nil_subset, and_true] at hkw
  unfold State.count
  repeat' (first | (simp (maxDischargeDepth := 40) only [hk, hkw, Kept.refl, Kept.mk_of, Kept.ite, Kept.foldl, List.cons_subset, List.nil_subset, List.mem_cons, List.mem_singleton, and_true, true_and, true_or, or_true, and_self, implies_true, not_false_eq_true, State.updateRec_kept]; done) | split)

theorem State.flushWanted_kept {W : List Fld} {s0 s : State}  (hk : Kept W s0 s) (hkw : [Fld.recorder] ⊆ W) :
    Kept W s0 (State.flushWanted s) := by
  simp only [List.cons_subset, List.nil_subset, and_true] at hkw
  unfold State.flushWanted
  repeat' (first | (simp (maxDischargeDepth := 40) only [hk, hkw, Kept.refl, Kept.mk_of, Kept.ite, Kept.foldl, List.cons_subset, List.nil_subset, List.mem_cons, List.mem_singleton, and_true, true_and, true_or, or_true, and_self, implies_true, not_false_eq_true]; done) | split)

theorem State.tempChange_kept {W : List Fld} {s0 t : State} (s : State) (hk : Kept W s0 t) (hkw : [Fld.out] ⊆ W) :
    Kept W s0 (State.tempChange s t) := by
  unfold State.tempChange
  split
  · exact hk
  · exact State.emit_kept _ hk (List.Subset.trans (by decide) hkw)

theorem State.msix_kept {W : List Fld} {s0 s : State}  (fn vec : Nat) (hk : Kept W s0 s) (hkw : [Fld.out, Fld.pcie] ⊆ W) :
    Kept W s0 (State.msix s fn vec) := by
  simp only [List.cons_subset, List.nil_subset, and_true] at hkw
  unfold State.msix
  repeat' (first | (simp (maxDischargeDepth := 40) only [hk, hkw, Kept.refl, Kept.mk_of, Kept.ite, Kept.foldl, List.cons_subset, List.nil_subset, List.mem_cons, List.mem_singleton, and_true, true_and, true_or, or_true, and_self, implies_true, not_false_eq_true, State.emit_kept, State.setFunc_kept]; done) | split)

theorem State.setEvent_kept {W : List Fld} {s0 s : State}  (fn b : Nat) (hk : Kept W s0 s) (hkw : [Fld.out, Fld.pcie] ⊆ W) :
    Kept W s0 (State.setEvent s fn b) := by
  simp only [List.cons_subset, List.nil_subset, and_true] at hkw
  unfold State.setEvent
  repeat' (first | (simp (maxDischargeDepth := 40) only [hk, hkw, Kept.refl, Kept.mk_of, Kept.ite, Kept.foldl, List.cons_subset, List.nil_subset, List.mem_cons, List.mem_singleton, and_true, true_and, true_or, or_true, and_self, implies_true, not_false_eq_true, State.msix_kept, State.setFunc_kept]; done) | split)

theorem State.setEventAll_kept {W : List Fld} {s0 s : State}  (b : Nat) (hk : Kept W s0 s) (hkw : [Fld.out, Fld.pcie] ⊆ W) :
    Kept W s0 (State.setEventAll s b) := by
  simp only [List.cons_subset, List.nil_subset, and_true] at hkw
  unfold State.setEventAll
  repeat' (first | (simp (maxDischargeDepth := 40) only [hk, hkw, Kept.refl, Kept.mk_of, Kept.ite, Kept.foldl, List.cons_subset, List.nil_subset, List.mem_cons, List.mem_singleton, and_true, true_and, true_or, or_true, and_self, implies_true, not_false_eq_true, State.setEvent_kept]; done) | split)

theorem State.aliveStop_kept {W : List Fld} {s0 s : State}  (hk : Kept W s0 s) (hkw : [Fld.out, Fld.faults, Fld.recorder] ⊆ W) :
    Kept W s0 (State.aliveStop s) := by
  simp only [List.cons_subset, List.nil_subset, and_true] at hkw
  unfold State.aliveStop
  repeat' (first | (simp (maxDischargeDepth := 40) only [hk, hkw, Kept.refl, Kept.mk_of, Kept.ite, Kept.foldl, List.cons_subset, List.nil_subset, List.mem_cons, List.mem_singleton, and_true, true_and, true_or, or_true, and_self, implies_true, not_false_eq_true, State.count_kept, State.emit_kept]; done) | split)

theorem State.setDev_kept {W : List Fld} {s0 s : State}  (d : DevState) (hk : Kept W s0 s) (hkw : [Fld.out, Fld.pcie, Fld.faults, Fld.recorder, Fld.power] ⊆ W) :
    Kept W s0 (State.setDev s d) := by
  simp only [List.cons_subset, List.nil_subset, and_true] at hkw
  unfold State.setDev
  repeat' (first | (simp (maxDischargeDepth := 40) only [hk, hkw, Kept.refl, Kept.mk_of, Kept.ite, Kept.foldl, List.cons_subset, List.nil_subset, List.mem_cons, List.mem_singleton, and_true, true_and, true_or, or_true, and_self, implies_true, not_false_eq_true, State.aliveStop_kept, State.setEventAll_kept]; done) | split)

theorem State.writeMile_kept {W : List Fld} {s0 s : State}  (m : Milestone) (hk : Kept W s0 s) (hkw : [Fld.journal] ⊆ W) :
    Kept W s0 (State.writeMile s m) := by
  simp only [List.cons_subset, List.nil_subset, and_true] at hkw
  unfold State.writeMile
  repeat' (first | (simp (maxDischargeDepth := 40) only [hk, hkw, Kept.refl, Kept.mk_of, Kept.ite, Kept.foldl, List.cons_subset, List.nil_subset, List.mem_cons, List.mem_singleton, and_true, true_and, true_or, or_true, and_self, implies_true, not_false_eq_true]; done) | split)

theorem State.anchor_kept {W : List Fld} {s0 s : State}  (m : Milestone) (hk : Kept W s0 s) (hkw : [Fld.journal] ⊆ W) :
    Kept W s0 (State.anchor s m) := by
  simp only [List.cons_subset, List.nil_subset, and_true] at hkw
  unfold State.anchor
  repeat' (first | (simp (maxDischargeDepth := 40) only [hk, hkw, Kept.refl, Kept.mk_of, Kept.ite, Kept.foldl, List.cons_subset, List.nil_subset, List.mem_cons, List.mem_singleton, and_true, true_and, true_or, or_true, and_self, implies_true, not_false_eq_true]; done) | split)

theorem State.unsettle_kept {W : List Fld} {s0 s : State}  (d : Desc) (hk : Kept W s0 s) (hkw : [Fld.journal] ⊆ W) :
    Kept W s0 (State.unsettle s d) := by
  simp only [List.cons_subset, List.nil_subset, and_true] at hkw
  unfold State.unsettle
  repeat' (first | (simp (maxDischargeDepth := 40) only [hk, hkw, Kept.refl, Kept.mk_of, Kept.ite, Kept.foldl, List.cons_subset, List.nil_subset, List.mem_cons, List.mem_singleton, and_true, true_and, true_or, or_true, and_self, implies_true, not_false_eq_true]; done) | split)

theorem State.settle_kept {W : List Fld} {s0 s : State}  (d : Desc) (hk : Kept W s0 s) (hkw : [Fld.journal] ⊆ W) :
    Kept W s0 (State.settle s d) := by
  simp only [List.cons_subset, List.nil_subset, and_true] at hkw
  unfold State.settle
  repeat' (first | (simp (maxDischargeDepth := 40) only [hk, hkw, Kept.refl, Kept.mk_of, Kept.ite, Kept.foldl, List.cons_subset, List.nil_subset, List.mem_cons, List.mem_singleton, and_true, true_and, true_or, or_true, and_self, implies_true, not_false_eq_true]; done) | split)

theorem State.settleEnded_kept {W : List Fld} {s0 s : State}  (d : Desc) (hk : Kept W s0 s) (hkw : [Fld.journal] ⊆ W) :
    Kept W s0 (State.settleEnded s d) := by
  simp only [List.cons_subset, List.nil_subset, and_true] at hkw
  unfold State.settleEnded
  repeat' (first | (simp (maxDischargeDepth := 40) only [hk, hkw, Kept.refl, Kept.mk_of, Kept.ite, Kept.foldl, List.cons_subset, List.nil_subset, List.mem_cons, List.mem_singleton, and_true, true_and, true_or, or_true, and_self, implies_true, not_false_eq_true, State.settle_kept]; done) | split)

theorem State.ended_kept {W : List Fld} {s0 s : State}  (d : Desc) (reason : BitVec 11) (hk : Kept W s0 s) (hkw : [Fld.journal] ⊆ W) :
    Kept W s0 (State.ended s d reason) := by
  simp only [List.cons_subset, List.nil_subset, and_true] at hkw
  unfold State.ended
  repeat' (first | (simp (maxDischargeDepth := 40) only [hk, hkw, Kept.refl, Kept.mk_of, Kept.ite, Kept.foldl, List.cons_subset, List.nil_subset, List.mem_cons, List.mem_singleton, and_true, true_and, true_or, or_true, and_self, implies_true, not_false_eq_true, State.settleEnded_kept, State.writeMile_kept]; done) | split)

theorem State.writeOutcome_kept {W : List Fld} {s0 s : State}  (o : Orphan) (hk : Kept W s0 s) (hkw : [Fld.journal] ⊆ W) :
    Kept W s0 (State.writeOutcome s o) := by
  simp only [List.cons_subset, List.nil_subset, and_true] at hkw
  unfold State.writeOutcome
  repeat' (first | (simp (maxDischargeDepth := 40) only [hk, hkw, Kept.refl, Kept.mk_of, Kept.ite, Kept.foldl, List.cons_subset, List.nil_subset, List.mem_cons, List.mem_singleton, and_true, true_and, true_or, or_true, and_self, implies_true, not_false_eq_true, State.anchor_kept, State.settleEnded_kept]; done) | split)

theorem State.writeOutcomes_kept {W : List Fld} {s0 s : State}  (hk : Kept W s0 s) (hkw : [Fld.journal] ⊆ W) :
    Kept W s0 (State.writeOutcomes s) := by
  simp only [List.cons_subset, List.nil_subset, and_true] at hkw
  unfold State.writeOutcomes
  repeat' (first | (simp (maxDischargeDepth := 40) only [hk, hkw, Kept.refl, Kept.mk_of, Kept.ite, Kept.foldl, List.cons_subset, List.nil_subset, List.mem_cons, List.mem_singleton, and_true, true_and, true_or, or_true, and_self, implies_true, not_false_eq_true, State.writeOutcome_kept]; done) | split)

theorem State.writeMarks_kept {W : List Fld} {s0 s : State}  (hk : Kept W s0 s) (hkw : [Fld.depot, Fld.journal] ⊆ W) :
    Kept W s0 (State.writeMarks s) := by
  simp only [List.cons_subset, List.nil_subset, and_true] at hkw
  unfold State.writeMarks
  repeat' (first | (simp (maxDischargeDepth := 40) only [hk, hkw, Kept.refl, Kept.mk_of, Kept.ite, Kept.foldl, List.cons_subset, List.nil_subset, List.mem_cons, List.mem_singleton, and_true, true_and, true_or, or_true, and_self, implies_true, not_false_eq_true]; done) | split)

theorem State.anchorRoot_kept {W : List Fld} {s0 s : State}  (hk : Kept W s0 s) (hkw : [Fld.vault] ⊆ W) :
    Kept W s0 (State.anchorRoot s) := by
  simp only [List.cons_subset, List.nil_subset, and_true] at hkw
  unfold State.anchorRoot
  repeat' (first | (simp (maxDischargeDepth := 40) only [hk, hkw, Kept.refl, Kept.mk_of, Kept.ite, Kept.foldl, List.cons_subset, List.nil_subset, List.mem_cons, List.mem_singleton, and_true, true_and, true_or, or_true, and_self, implies_true, not_false_eq_true]; done) | split)

theorem State.pump_kept {W : List Fld} {s0 s : State}  (p : Nat) (hk : Kept W s0 s) (hkw : [Fld.out, Fld.port0, Fld.port1] ⊆ W) :
    Kept W s0 (State.pump s p) := by
  simp only [List.cons_subset, List.nil_subset, and_true] at hkw
  unfold State.pump
  repeat' (first | (simp (maxDischargeDepth := 40) only [hk, hkw, Kept.refl, Kept.mk_of, Kept.ite, Kept.foldl, List.cons_subset, List.nil_subset, List.mem_cons, List.mem_singleton, and_true, true_and, true_or, or_true, and_self, implies_true, not_false_eq_true, State.emit_kept, State.setPort_kept]; done) | split)

theorem State.sendMsg_kept {W : List Fld} {s0 s : State}  (p session typ laneIdx a : Nat) (b c : Word) (payload : Bytes) (ticket : Option Desc) (opens : List Nat := []) (hk : Kept W s0 s) (hkw : [Fld.out, Fld.port0, Fld.port1] ⊆ W) :
    Kept W s0 (State.sendMsg s p session typ laneIdx a b c payload ticket opens) := by
  unfold State.sendMsg
  try dsimp only
  iterate 40 all_goals (first
    | with_reducible exact hk
    | with_reducible assumption
    | with_reducible exact Kept.refl _ _
    | with_reducible exact .inr rfl
    | (with_reducible exact List.Subset.trans (by decide) hkw)
    | (with_reducible exact .inl (Fld.mem_of hkw (by decide)))
    | (with_reducible apply Kept.ite <;> intro)
    | with_reducible apply State.emit_kept
    | with_reducible apply State.pump_kept
    | with_reducible apply State.setPort_kept
    | with_reducible apply Kept.getD
    | with_reducible apply Kept.elim
    | (with_reducible apply Kept.foldl; intro _ _; try dsimp only)
    | split
    | (intro _ _; try dsimp only)
    | with_reducible apply Kept.mk_of
    | skip)

theorem State.portRetrain_kept {W : List Fld} {s0 s : State}  (p : Nat) (hk : Kept W s0 s) (hkw : [Fld.port0, Fld.port1, Fld.recorder] ⊆ W) :
    Kept W s0 (State.portRetrain s p) := by
  simp only [List.cons_subset, List.nil_subset, and_true] at hkw
  unfold State.portRetrain
  repeat' (first | (simp (maxDischargeDepth := 40) only [hk, hkw, Kept.refl, Kept.mk_of, Kept.ite, Kept.foldl, List.cons_subset, List.nil_subset, List.mem_cons, List.mem_singleton, and_true, true_and, true_or, or_true, and_self, implies_true, not_false_eq_true, State.count_kept, State.setPort_kept]; done) | split)

theorem State.setSession_kept {W : List Fld} {s0 s : State}  (p n : Nat) (x : Session) (hk : Kept W s0 s) (hkw : [Fld.port0, Fld.port1] ⊆ W) :
    Kept W s0 (State.setSession s p n x) := by
  simp only [List.cons_subset, List.nil_subset, and_true] at hkw
  unfold State.setSession
  repeat' (first | (simp (maxDischargeDepth := 40) only [hk, hkw, Kept.refl, Kept.mk_of, Kept.ite, Kept.foldl, List.cons_subset, List.nil_subset, List.mem_cons, List.mem_singleton, and_true, true_and, true_or, or_true, and_self, implies_true, not_false_eq_true, State.setPort_kept]; done) | split)

theorem State.modSession_kept {W : List Fld} {s0 s : State}  (p n : Nat) (f : Session → Session) (hk : Kept W s0 s) (hkw : [Fld.port0, Fld.port1] ⊆ W) :
    Kept W s0 (State.modSession s p n f) := by
  simp only [List.cons_subset, List.nil_subset, and_true] at hkw
  unfold State.modSession
  repeat' (first | (simp (maxDischargeDepth := 40) only [hk, hkw, Kept.refl, Kept.mk_of, Kept.ite, Kept.foldl, List.cons_subset, List.nil_subset, List.mem_cons, List.mem_singleton, and_true, true_and, true_or, or_true, and_self, implies_true, not_false_eq_true, State.setSession_kept]; done) | split)

theorem State.sendCredit_kept {W : List Fld} {s0 s : State}  (p n : Nat) (all : Bool) (hk : Kept W s0 s) (hkw : [Fld.out, Fld.port0, Fld.port1] ⊆ W) :
    Kept W s0 (State.sendCredit s p n all) := by
  simp only [List.cons_subset, List.nil_subset, and_true] at hkw
  unfold State.sendCredit
  repeat' (first | (simp (maxDischargeDepth := 40) only [hk, hkw, Kept.refl, Kept.mk_of, Kept.ite, Kept.foldl, List.cons_subset, List.nil_subset, List.mem_cons, List.mem_singleton, and_true, true_and, true_or, or_true, and_self, implies_true, not_false_eq_true, State.sendMsg_kept, State.setSession_kept]; done) | split)

theorem State.creditColour_kept {W : List Fld} {s0 s : State}  (c : Colour) (hk : Kept W s0 s) (hkw : [Fld.out, Fld.port0, Fld.port1] ⊆ W) :
    Kept W s0 (State.creditColour s c) := by
  simp only [List.cons_subset, List.nil_subset, and_true] at hkw
  unfold State.creditColour
  repeat' (first | (simp (maxDischargeDepth := 40) only [hk, hkw, Kept.refl, Kept.mk_of, Kept.ite, Kept.foldl, List.cons_subset, List.nil_subset, List.mem_cons, List.mem_singleton, and_true, true_and, true_or, or_true, and_self, implies_true, not_false_eq_true, State.sendCredit_kept]; done) | split)

theorem State.creditsDue_kept {W : List Fld} {s0 s : State}  (p : Nat) (hk : Kept W s0 s) (hkw : [Fld.out, Fld.port0, Fld.port1] ⊆ W) :
    Kept W s0 (State.creditsDue s p) := by
  simp only [List.cons_subset, List.nil_subset, and_true] at hkw
  unfold State.creditsDue
  repeat' (first | (simp (maxDischargeDepth := 40) only [hk, hkw, Kept.refl, Kept.mk_of, Kept.ite, Kept.foldl, List.cons_subset, List.nil_subset, List.mem_cons, List.mem_singleton, and_true, true_and, true_or, or_true, and_self, implies_true, not_false_eq_true, State.sendCredit_kept]; done) | split)

theorem State.releaseItem_kept {W : List Fld} {s0 s : State}  (i : Item) (hk : Kept W s0 s) (hkw : [Fld.port0, Fld.port1] ⊆ W) :
    Kept W s0 (State.releaseItem s i) := by
  simp only [List.cons_subset, List.nil_subset, and_true] at hkw
  unfold State.releaseItem
  repeat' (first | (simp (maxDischargeDepth := 40) only [hk, hkw, Kept.refl, Kept.mk_of, Kept.ite, Kept.foldl, List.cons_subset, List.nil_subset, List.mem_cons, List.mem_singleton, and_true, true_and, true_or, or_true, and_self, implies_true, not_false_eq_true, State.modSession_kept]; done) | split)

theorem State.releaseItems_kept {W : List Fld} {s0 s : State}  (p : Item → Bool) (hk : Kept W s0 s) (hkw : [Fld.port0, Fld.port1] ⊆ W) :
    Kept W s0 (State.releaseItems s p) := by
  simp only [List.cons_subset, List.nil_subset, and_true] at hkw
  unfold State.releaseItems
  repeat' (first | (simp (maxDischargeDepth := 40) only [hk, hkw, Kept.refl, Kept.mk_of, Kept.ite, Kept.foldl, List.cons_subset, List.nil_subset, List.mem_cons, List.mem_singleton, and_true, true_and, true_or, or_true, and_self, implies_true, not_false_eq_true, State.releaseItem_kept]; done) | split)

theorem State.forgetStreams_kept {W : List Fld} {s0 s : State}  (ks : List Nat) (hk : Kept W s0 s) (hkw : [Fld.tes, Fld.clusters, Fld.depot, Fld.port0, Fld.port1] ⊆ W) :
    Kept W s0 (State.forgetStreams s ks) := by
  simp only [List.cons_subset, List.nil_subset, and_true] at hkw
  unfold State.forgetStreams
  repeat' (first | (simp (maxDischargeDepth := 40) only [hk, hkw, Kept.refl, Kept.mk_of, Kept.ite, Kept.foldl, List.cons_subset, List.nil_subset, List.mem_cons, List.mem_singleton, and_true, true_and, true_or, or_true, and_self, implies_true, not_false_eq_true, State.releaseItems_kept]; done) | split)

theorem State.portDown_kept {W : List Fld} {s0 s : State}  (p : Nat) (hk : Kept W s0 s) (hkw : [Fld.out, Fld.tes, Fld.clusters, Fld.depot, Fld.port0, Fld.port1] ⊆ W) :
    Kept W s0 (State.portDown s p) := by
  simp only [List.cons_subset, List.nil_subset, and_true] at hkw
  unfold State.portDown
  repeat' (first | (simp (maxDischargeDepth := 40) only [hk, hkw, Kept.refl, Kept.mk_of, Kept.ite, Kept.foldl, List.cons_subset, List.nil_subset, List.mem_cons, List.mem_singleton, and_true, true_and, true_or, or_true, and_self, implies_true, not_false_eq_true, State.emit_kept, State.forgetStreams_kept, State.setPort_kept]; done) | split)

theorem State.violationThreshold_kept {W : List Fld} {s0 s : State}  (p : Nat) (hk : Kept W s0 s) (hkw : [Fld.out, Fld.tes, Fld.clusters, Fld.depot, Fld.port0, Fld.port1, Fld.recorder] ⊆ W) :
    Kept W s0 (State.violationThreshold s p) := by
  simp only [List.cons_subset, List.nil_subset, and_true] at hkw
  unfold State.violationThreshold
  repeat' (first | (simp (maxDischargeDepth := 40) only [hk, hkw, Kept.refl, Kept.mk_of, Kept.ite, Kept.foldl, List.cons_subset, List.nil_subset, List.mem_cons, List.mem_singleton, and_true, true_and, true_or, or_true, and_self, implies_true, not_false_eq_true, State.portDown_kept, State.portRetrain_kept, State.setPort_kept]; done) | split)

theorem State.violate_kept {W : List Fld} {s0 s : State}  (p code onSession session typ frameSeq off : Nat) (msgSeq : Word) (hk : Kept W s0 s) (hkw : [Fld.out, Fld.tes, Fld.clusters, Fld.depot, Fld.port0, Fld.port1, Fld.recorder] ⊆ W) :
    Kept W s0 (State.violate s p code onSession session typ frameSeq off msgSeq) := by
  simp only [List.cons_subset, List.nil_subset, and_true] at hkw
  unfold State.violate
  repeat' (first | (simp (maxDischargeDepth := 40) only [hk, hkw, Kept.refl, Kept.mk_of, Kept.ite, Kept.foldl, List.cons_subset, List.nil_subset, List.mem_cons, List.mem_singleton, and_true, true_and, true_or, or_true, and_self, implies_true, not_false_eq_true, State.count_kept, State.sendMsg_kept, State.setPort_kept, State.violationThreshold_kept]; done) | split)

theorem State.tearCard_kept {W : List Fld} {s0 s : State}  (c : CardSlot) (hk : Kept W s0 s) (hkw : [Fld.cards] ⊆ W) :
    Kept W s0 (State.tearCard s c) := by
  simp only [List.cons_subset, List.nil_subset, and_true] at hkw
  unfold State.tearCard
  repeat' (first | (simp (maxDischargeDepth := 40) only [hk, hkw, Kept.refl, Kept.mk_of, Kept.ite, Kept.foldl, List.cons_subset, List.nil_subset, List.mem_cons, List.mem_singleton, and_true, true_and, true_or, or_true, and_self, implies_true, not_false_eq_true]; done) | split)

theorem State.cardOffSlot_kept {W : List Fld} {s0 s : State}  (n : Nat) (hk : Kept W s0 s) (hkw : [Fld.out, Fld.cards, Fld.recorder] ⊆ W) :
    Kept W s0 (State.cardOffSlot s n) := by
  simp only [List.cons_subset, List.nil_subset, and_true] at hkw
  unfold State.cardOffSlot
  repeat' (first | (simp (maxDischargeDepth := 40) only [hk, hkw, Kept.refl, Kept.mk_of, Kept.ite, Kept.foldl, List.cons_subset, List.nil_subset, List.mem_cons, List.mem_singleton, and_true, true_and, true_or, or_true, and_self, implies_true, not_false_eq_true, State.count_kept, State.emit_kept, State.setCard_kept, State.tearCard_kept]; done) | split)

theorem State.stopDevice_kept {W : List Fld} {s0 s : State}  (grave : Bool) (hk : Kept W s0 s) (hkw : [Fld.out, Fld.tes, Fld.clusters, Fld.depot, Fld.vault, Fld.journal, Fld.port0, Fld.port1, Fld.pcie, Fld.cards, Fld.faults, Fld.recorder, Fld.power] ⊆ W) :
    Kept W s0 (State.stopDevice s grave) := by
  simp only [List.cons_subset, List.nil_subset, and_true] at hkw
  unfold State.stopDevice
  repeat' (first | (simp (maxDischargeDepth := 40) only [hk, hkw, Kept.refl, Kept.mk_of, Kept.ite, Kept.foldl, List.cons_subset, List.nil_subset, List.mem_cons, List.mem_singleton, and_true, true_and, true_or, or_true, and_self, implies_true, not_false_eq_true, State.aliveStop_kept, State.anchorRoot_kept, State.cardOffSlot_kept, State.count_kept, State.flushWanted_kept, State.portDown_kept, State.setDev_kept, State.writeMarks_kept]; done) | split)

theorem State.arrive_kept {W : List Fld} {s0 s : State}  (cls : Nat) (kind : Byte) (src : BitVec 16) (detail : Word) (hk : Kept W s0 s) (hkw : [Fld.out, Fld.tes, Fld.clusters, Fld.depot, Fld.vault, Fld.journal, Fld.port0, Fld.port1, Fld.pcie, Fld.cards, Fld.faults, Fld.recorder, Fld.power] ⊆ W) :
    Kept W s0 (State.arrive s cls kind src detail) := by
  simp only [List.cons_subset, List.nil_subset, and_true] at hkw
  unfold State.arrive
  repeat' (first | (simp (maxDischargeDepth := 40) only [hk, hkw, Kept.refl, Kept.mk_of, Kept.ite, Kept.foldl, List.cons_subset, List.nil_subset, List.mem_cons, List.mem_singleton, and_true, true_and, true_or, or_true, and_self, implies_true, not_false_eq_true, State.count_kept, State.emit_kept, State.setEvent_kept, State.stopDevice_kept, State.updateRec_kept]; done) | split)

theorem State.fault_kept {W : List Fld} {s0 s : State}  (cls : Nat) (kind : Byte) (src : BitVec 16) (detail : Word) (hk : Kept W s0 s) (hkw : [Fld.out, Fld.tes, Fld.clusters, Fld.depot, Fld.vault, Fld.journal, Fld.port0, Fld.port1, Fld.pcie, Fld.cards, Fld.faults, Fld.recorder, Fld.power] ⊆ W) :
    Kept W s0 (State.fault s cls kind src detail) := by
  unfold State.fault
  try dsimp only
  iterate 40 all_goals (first
    | with_reducible exact hk
    | with_reducible assumption
    | with_reducible exact Kept.refl _ _
    | with_reducible exact .inr rfl
    | (with_reducible exact List.Subset.trans (by decide) hkw)
    | (with_reducible exact .inl (Fld.mem_of hkw (by decide)))
    | (with_reducible apply Kept.ite <;> intro)
    | with_reducible apply State.arrive_kept
    | with_reducible apply Kept.getD
    | with_reducible apply Kept.elim
    | (with_reducible apply Kept.foldl; intro _ _; try dsimp only)
    | split
    | (intro _ _; try dsimp only)
    | with_reducible apply Kept.mk_of
    | skip)

theorem State.cardOff_kept {W : List Fld} {s0 s : State}  (n : Nat) (hk : Kept W s0 s) (hkw : [Fld.out, Fld.tes, Fld.clusters, Fld.depot, Fld.vault, Fld.journal, Fld.port0, Fld.port1, Fld.pcie, Fld.cards, Fld.faults, Fld.recorder, Fld.power] ⊆ W) :
    Kept W s0 (State.cardOff s n) := by
  simp only [List.cons_subset, List.nil_subset, and_true] at hkw
  unfold State.cardOff
  repeat' (first | (simp (maxDischargeDepth := 40) only [hk, hkw, Kept.refl, Kept.mk_of, Kept.ite, Kept.foldl, List.cons_subset, List.nil_subset, List.mem_cons, List.mem_singleton, and_true, true_and, true_or, or_true, and_self, implies_true, not_false_eq_true, State.cardOffSlot_kept, State.fault_kept]; done) | split)

theorem State.useGate_kept {W : List Fld} {s0 s : State}  (g : Nat) (hk : Kept W s0 s) (hkw : [Fld.out, Fld.tes, Fld.clusters, Fld.depot, Fld.vault, Fld.journal, Fld.port0, Fld.port1, Fld.pcie, Fld.cards, Fld.faults, Fld.recorder, Fld.power] ⊆ W) :
    Kept W s0 (State.useGate s g) := by
  simp only [List.cons_subset, List.nil_subset, and_true] at hkw
  unfold State.useGate
  repeat' (first | (simp (maxDischargeDepth := 40) only [hk, hkw, Kept.refl, Kept.mk_of, Kept.ite, Kept.foldl, List.cons_subset, List.nil_subset, List.mem_cons, List.mem_singleton, and_true, true_and, true_or, or_true, and_self, implies_true, not_false_eq_true, State.fault_kept]; done) | split)

theorem State.flipTags_kept {W : List Fld} {s0 s : State}  (hk : Kept W s0 s) (hkw : [Fld.gates] ⊆ W) :
    Kept W s0 (State.flipTags s) := by
  simp only [List.cons_subset, List.nil_subset, and_true] at hkw
  unfold State.flipTags
  repeat' (first | (simp (maxDischargeDepth := 40) only [hk, hkw, Kept.refl, Kept.mk_of, Kept.ite, Kept.foldl, List.cons_subset, List.nil_subset, List.mem_cons, List.mem_singleton, and_true, true_and, true_or, or_true, and_self, implies_true, not_false_eq_true, State.setGate_kept]; done) | split)

theorem State.awaitRules_kept {W : List Fld} {s0 s : State}  (g : Nat) (c : Cmd) (hk : Kept W s0 s) (hkw : [Fld.steward] ⊆ W) :
    Kept W s0 (State.awaitRules s g c) := by
  simp only [List.cons_subset, List.nil_subset, and_true] at hkw
  unfold State.awaitRules
  repeat' (first | (simp (maxDischargeDepth := 40) only [hk, hkw, Kept.refl, Kept.mk_of, Kept.ite, Kept.foldl, List.cons_subset, List.nil_subset, List.mem_cons, List.mem_singleton, and_true, true_and, true_or, or_true, and_self, implies_true, not_false_eq_true]; done) | split)

theorem State.gateRefuse_kept {W : List Fld} {s0 s : State}  (g : Nat) (a : Access) (kind : Byte) (last : Bool) (src : BitVec 16) (hk : Kept W s0 s) (hkw : [Fld.out, Fld.tes, Fld.clusters, Fld.depot, Fld.vault, Fld.journal, Fld.port0, Fld.port1, Fld.pcie, Fld.gates, Fld.cards, Fld.faults, Fld.recorder, Fld.power] ⊆ W) :
    Kept W s0 (State.gateRefuse s g a kind last src) := by
  unfold State.gateRefuse
  try dsimp only
  iterate 40 all_goals (first
    | with_reducible exact hk
    | with_reducible assumption
    | with_reducible exact Kept.refl _ _
    | with_reducible exact .inr rfl
    | (with_reducible exact List.Subset.trans (by decide) hkw)
    | (with_reducible exact .inl (Fld.mem_of hkw (by decide)))
    | (with_reducible apply Kept.ite <;> intro)
    | with_reducible apply State.count_kept
    | with_reducible apply State.fault_kept
    | with_reducible apply State.setGate_kept
    | with_reducible apply Kept.getD
    | with_reducible apply Kept.elim
    | (with_reducible apply Kept.foldl; intro _ _; try dsimp only)
    | split
    | (intro _ _; try dsimp only)
    | with_reducible apply Kept.mk_of
    | skip)

theorem State.checkpointRefuse_kept {W : List Fld} {s0 s : State}  (g : Nat) (a : Access) (src : BitVec 16) (hk : Kept W s0 s) (hkw : [Fld.out, Fld.tes, Fld.clusters, Fld.depot, Fld.vault, Fld.journal, Fld.port0, Fld.port1, Fld.pcie, Fld.cards, Fld.faults, Fld.recorder, Fld.power] ⊆ W) :
    Kept W s0 (State.checkpointRefuse s g a src) := by
  simp only [List.cons_subset, List.nil_subset, and_true] at hkw
  unfold State.checkpointRefuse
  repeat' (first | (simp (maxDischargeDepth := 40) only [hk, hkw, Kept.refl, Kept.mk_of, Kept.ite, Kept.foldl, List.cons_subset, List.nil_subset, List.mem_cons, List.mem_singleton, and_true, true_and, true_or, or_true, and_self, implies_true, not_false_eq_true, State.fault_kept]; done) | split)

theorem State.stewardReach_kept {W : List Fld} {s0 s : State}  (g : Nat) (a : Access) (hk : Kept W s0 s) (hkw : [Fld.out, Fld.tes, Fld.clusters, Fld.depot, Fld.vault, Fld.journal, Fld.port0, Fld.port1, Fld.pcie, Fld.gates, Fld.cards, Fld.faults, Fld.recorder, Fld.power] ⊆ W) :
    Kept W s0 (State.stewardReach s g a).1 := by
  unfold State.stewardReach
  try dsimp only
  iterate 40 all_goals (first
    | with_reducible exact hk
    | with_reducible assumption
    | with_reducible exact Kept.refl _ _
    | with_reducible exact .inr rfl
    | (with_reducible exact List.Subset.trans (by decide) hkw)
    | (with_reducible exact .inl (Fld.mem_of hkw (by decide)))
    | (with_reducible apply Kept.ite <;> intro)
    | with_reducible apply State.checkpointRefuse_kept
    | with_reducible apply State.gateRefuse_kept
    | with_reducible apply State.useGate_kept
    | with_reducible apply Kept.getD
    | with_reducible apply Kept.elim
    | (with_reducible apply Kept.foldl; intro _ _; try dsimp only)
    | split
    | (intro _ _; try dsimp only)
    | with_reducible apply Kept.mk_of
    | skip)

theorem State.stewardReach_keptE {W : List Fld} {s0 s zz : State}  {g : Nat} {a : Access} {o : Bool} (eq : State.stewardReach s g a = (zz, o)) (hk : Kept W s0 s) (hkw : [Fld.out, Fld.tes, Fld.clusters, Fld.depot, Fld.vault, Fld.journal, Fld.port0, Fld.port1, Fld.pcie, Fld.gates, Fld.cards, Fld.faults, Fld.recorder, Fld.power] ⊆ W) : Kept W s0 zz := by
  have hp := State.stewardReach_kept (W := W) g a hk hkw
  rw [eq] at hp
  exact hp

theorem State.sramRead_kept {W : List Fld} {s0 s : State}  (a : Access) (hk : Kept W s0 s) (hkw : [Fld.out, Fld.tes, Fld.clusters, Fld.depot, Fld.vault, Fld.journal, Fld.port0, Fld.port1, Fld.pcie, Fld.gates, Fld.cards, Fld.faults, Fld.recorder, Fld.power] ⊆ W) :
    Kept W s0 (State.sramRead s a).1 := by
  unfold State.sramRead
  try dsimp only
  iterate 40 all_goals (first
    | with_reducible exact hk
    | with_reducible assumption
    | with_reducible exact Kept.refl _ _
    | with_reducible exact .inr rfl
    | (with_reducible exact List.Subset.trans (by decide) hkw)
    | (with_reducible exact .inl (Fld.mem_of hkw (by decide)))
    | (with_reducible apply Kept.ite <;> intro)
    | with_reducible apply State.stewardReach_kept
    | with_reducible refine State.stewardReach_keptE (by with_reducible assumption) ?_ ?_
    | with_reducible apply Kept.getD
    | with_reducible apply Kept.elim
    | (with_reducible apply Kept.foldl; intro _ _; try dsimp only)
    | split
    | (intro _ _; try dsimp only)
    | with_reducible apply Kept.mk_of
    | skip)

theorem State.sramRead_keptE {W : List Fld} {s0 s zz : State}  {a : Access} {o : Option Bytes} (eq : State.sramRead s a = (zz, o)) (hk : Kept W s0 s) (hkw : [Fld.out, Fld.tes, Fld.clusters, Fld.depot, Fld.vault, Fld.journal, Fld.port0, Fld.port1, Fld.pcie, Fld.gates, Fld.cards, Fld.faults, Fld.recorder, Fld.power] ⊆ W) : Kept W s0 zz := by
  have hp := State.sramRead_kept (W := W) a hk hkw
  rw [eq] at hp
  exact hp

theorem State.sramWrite_kept {W : List Fld} {s0 s : State}  (a : Access) (data : Bytes) (hk : Kept W s0 s) (hkw : [Fld.out, Fld.mem, Fld.tes, Fld.clusters, Fld.depot, Fld.vault, Fld.journal, Fld.port0, Fld.port1, Fld.pcie, Fld.gates, Fld.cards, Fld.faults, Fld.recorder, Fld.power] ⊆ W) :
    Kept W s0 (State.sramWrite s a data) := by
  unfold State.sramWrite
  try dsimp only
  iterate 40 all_goals (first
    | with_reducible exact hk
    | with_reducible assumption
    | with_reducible exact Kept.refl _ _
    | with_reducible exact .inr rfl
    | (with_reducible exact List.Subset.trans (by decide) hkw)
    | (with_reducible exact .inl (Fld.mem_of hkw (by decide)))
    | (with_reducible apply Kept.ite <;> intro)
    | with_reducible apply State.stewardReach_kept
    | with_reducible refine State.stewardReach_keptE (by with_reducible assumption) ?_ ?_
    | with_reducible apply State.store_kept
    | with_reducible apply Kept.getD
    | with_reducible apply Kept.elim
    | (with_reducible apply Kept.foldl; intro _ _; try dsimp only)
    | split
    | (intro _ _; try dsimp only)
    | with_reducible apply Kept.mk_of
    | skip)

theorem State.setFences_kept {W : List Fld} {s0 s : State}  (south on : Bool) (hk : Kept W s0 s) (hkw : [Fld.gates] ⊆ W) :
    Kept W s0 (State.setFences s south on) := by
  simp only [List.cons_subset, List.nil_subset, and_true] at hkw
  unfold State.setFences
  repeat' (first | (simp (maxDischargeDepth := 40) only [hk, hkw, Kept.refl, Kept.mk_of, Kept.ite, Kept.foldl, List.cons_subset, List.nil_subset, List.mem_cons, List.mem_singleton, and_true, true_and, true_or, or_true, and_self, implies_true, not_false_eq_true, State.setGate_kept]; done) | split)

theorem State.gated_kept {W : List Fld} {s0 s : State}  (u : SeatRef) (t : Seat) (g : Nat) (write : Bool) (first n key cost : Nat) (hk : Kept W s0 s) (hkw : [Fld.out, Fld.tes, Fld.clusters, Fld.depot, Fld.vault, Fld.journal, Fld.port0, Fld.port1, Fld.pcie, Fld.gates, Fld.cards, Fld.faults, Fld.recorder, Fld.power] ⊆ W) :
    Kept W s0 (State.gated s u t g write first n key cost).1 := by
  unfold State.gated
  try dsimp only
  iterate 40 all_goals (first
    | with_reducible exact hk
    | with_reducible assumption
    | with_reducible exact Kept.refl _ _
    | with_reducible exact .inr rfl
    | (with_reducible exact List.Subset.trans (by decide) hkw)
    | (with_reducible exact .inl (Fld.mem_of hkw (by decide)))
    | (with_reducible apply Kept.ite <;> intro)
    | with_reducible apply State.checkpointRefuse_kept
    | with_reducible apply State.gateRefuse_kept
    | with_reducible apply State.useGate_kept
    | with_reducible apply Kept.getD
    | with_reducible apply Kept.elim
    | (with_reducible apply Kept.foldl; intro _ _; try dsimp only)
    | split
    | (intro _ _; try dsimp only)
    | with_reducible apply Kept.mk_of
    | skip)

theorem State.gated_keptE {W : List Fld} {s0 s zz : State}  {u : SeatRef} {t : Seat} {g : Nat} {write : Bool} {first n key cost : Nat} {o : Operand} (eq : State.gated s u t g write first n key cost = (zz, o)) (hk : Kept W s0 s) (hkw : [Fld.out, Fld.tes, Fld.clusters, Fld.depot, Fld.vault, Fld.journal, Fld.port0, Fld.port1, Fld.pcie, Fld.gates, Fld.cards, Fld.faults, Fld.recorder, Fld.power] ⊆ W) : Kept W s0 zz := by
  have hp := State.gated_kept (W := W) u t g write first n key cost hk hkw
  rw [eq] at hp
  exact hp

theorem State.tenantOperand_kept {W : List Fld} {s0 s : State}  (u : SeatRef) (t : Seat) (addr n : Nat) (write : Bool) (hk : Kept W s0 s) (hkw : [Fld.freeCtr, Fld.out, Fld.tes, Fld.clusters, Fld.depot, Fld.vault, Fld.journal, Fld.port0, Fld.port1, Fld.pcie, Fld.gates, Fld.cards, Fld.faults, Fld.recorder, Fld.power] ⊆ W) :
    Kept W s0 (State.tenantOperand s u t addr n write).1 := by
  unfold State.tenantOperand
  try dsimp only
  iterate 40 all_goals (first
    | with_reducible exact hk
    | with_reducible assumption
    | with_reducible exact Kept.refl _ _
    | with_reducible exact .inr rfl
    | (with_reducible exact List.Subset.trans (by decide) hkw)
    | (with_reducible exact .inl (Fld.mem_of hkw (by decide)))
    | (with_reducible apply Kept.ite <;> intro)
    | with_reducible apply State.drawn_kept
    | with_reducible apply State.gated_kept
    | with_reducible refine State.gated_keptE (by with_reducible assumption) ?_ ?_
    | with_reducible apply Kept.getD
    | with_reducible apply Kept.elim
    | (with_reducible apply Kept.foldl; intro _ _; try dsimp only)
    | split
    | (intro _ _; try dsimp only)
    | with_reducible apply Kept.mk_of
    | skip)

theorem State.tenantOperand_keptE {W : List Fld} {s0 s zz : State}  {u : SeatRef} {t : Seat} {addr n : Nat} {write : Bool} {o : Operand} (eq : State.tenantOperand s u t addr n write = (zz, o)) (hk : Kept W s0 s) (hkw : [Fld.freeCtr, Fld.out, Fld.tes, Fld.clusters, Fld.depot, Fld.vault, Fld.journal, Fld.port0, Fld.port1, Fld.pcie, Fld.gates, Fld.cards, Fld.faults, Fld.recorder, Fld.power] ⊆ W) : Kept W s0 zz := by
  have hp := State.tenantOperand_kept (W := W) u t addr n write hk hkw
  rw [eq] at hp
  exact hp

theorem State.operand_kept {W : List Fld} {s0 s : State}  (u : SeatRef) (t : Seat) (sp : BitVec 2) (addr : Word) (n : Nat) (write : Bool) (hk : Kept W s0 s) (hkw : [Fld.freeCtr, Fld.out, Fld.tes, Fld.clusters, Fld.depot, Fld.vault, Fld.journal, Fld.port0, Fld.port1, Fld.pcie, Fld.gates, Fld.cards, Fld.faults, Fld.recorder, Fld.power] ⊆ W) :
    Kept W s0 (State.operand s u t sp addr n write).1 := by
  unfold State.operand
  try dsimp only
  iterate 40 all_goals (first
    | with_reducible exact hk
    | with_reducible assumption
    | with_reducible exact Kept.refl _ _
    | with_reducible exact .inr rfl
    | (with_reducible exact List.Subset.trans (by decide) hkw)
    | (with_reducible exact .inl (Fld.mem_of hkw (by decide)))
    | (with_reducible apply Kept.ite <;> intro)
    | with_reducible apply State.gated_kept
    | with_reducible refine State.gated_keptE (by with_reducible assumption) ?_ ?_
    | with_reducible apply State.tenantOperand_kept
    | with_reducible refine State.tenantOperand_keptE (by with_reducible assumption) ?_ ?_
    | with_reducible apply Kept.getD
    | with_reducible apply Kept.elim
    | (with_reducible apply Kept.foldl; intro _ _; try dsimp only)
    | split
    | (intro _ _; try dsimp only)
    | with_reducible apply Kept.mk_of
    | skip)

theorem State.operand_keptE {W : List Fld} {s0 s zz : State}  {u : SeatRef} {t : Seat} {sp : BitVec 2} {addr : Word} {n : Nat} {write : Bool} {o : Operand} (eq : State.operand s u t sp addr n write = (zz, o)) (hk : Kept W s0 s) (hkw : [Fld.freeCtr, Fld.out, Fld.tes, Fld.clusters, Fld.depot, Fld.vault, Fld.journal, Fld.port0, Fld.port1, Fld.pcie, Fld.gates, Fld.cards, Fld.faults, Fld.recorder, Fld.power] ⊆ W) : Kept W s0 zz := by
  have hp := State.operand_kept (W := W) u t sp addr n write hk hkw
  rw [eq] at hp
  exact hp

theorem State.modReset_kept {W : List Fld} {s0 s : State}  (c : Colour) (f : ResetRun → ResetRun) (hk : Kept W s0 s) (hkw : [Fld.pcie] ⊆ W) :
    Kept W s0 (State.modReset s c f) := by
  simp only [List.cons_subset, List.nil_subset, and_true] at hkw
  unfold State.modReset
  repeat' (first | (simp (maxDischargeDepth := 40) only [hk, hkw, Kept.refl, Kept.mk_of, Kept.ite, Kept.foldl, List.cons_subset, List.nil_subset, List.mem_cons, List.mem_singleton, and_true, true_and, true_or, or_true, and_self, implies_true, not_false_eq_true, State.setFunc_kept]; done) | split)

theorem State.countDrained_kept {W : List Fld} {s0 s : State}  (c : Colour) (hk : Kept W s0 s) (hkw : [Fld.pcie] ⊆ W) :
    Kept W s0 (State.countDrained s c) := by
  simp only [List.cons_subset, List.nil_subset, and_true] at hkw
  unfold State.countDrained
  repeat' (first | (simp (maxDischargeDepth := 40) only [hk, hkw, Kept.refl, Kept.mk_of, Kept.ite, Kept.foldl, List.cons_subset, List.nil_subset, List.mem_cons, List.mem_singleton, and_true, true_and, true_or, or_true, and_self, implies_true, not_false_eq_true, State.modReset_kept]; done) | split)

theorem State.itemEnded_kept {W : List Fld} {s0 s : State}  (d : Desc) (reason : BitVec 11) (hk : Kept W s0 s) (hkw : [Fld.lanes, Fld.journal, Fld.pcie] ⊆ W) :
    Kept W s0 (State.itemEnded s d reason) := by
  simp only [List.cons_subset, List.nil_subset, and_true] at hkw
  unfold State.itemEnded
  repeat' (first | (simp (maxDischargeDepth := 40) only [hk, hkw, Kept.refl, Kept.mk_of, Kept.ite, Kept.foldl, List.cons_subset, List.nil_subset, List.mem_cons, List.mem_singleton, and_true, true_and, true_or, or_true, and_self, implies_true, not_false_eq_true, State.ended_kept, State.modReset_kept, State.setLane_kept]; done) | split)

theorem State.hold_kept {W : List Fld} {s0 s : State}  (d : Desc) (vendor : Bool) (payload : Bytes) (hk : Kept W s0 s) (hkw : [Fld.journal, Fld.held] ⊆ W) :
    Kept W s0 (State.hold s d vendor payload) := by
  simp only [List.cons_subset, List.nil_subset, and_true] at hkw
  unfold State.hold
  repeat' (first | (simp (maxDischargeDepth := 40) only [hk, hkw, Kept.refl, Kept.mk_of, Kept.ite, Kept.foldl, List.cons_subset, List.nil_subset, List.mem_cons, List.mem_singleton, and_true, true_and, true_or, or_true, and_self, implies_true, not_false_eq_true, State.writeMile_kept]; done) | split)

theorem State.leaveIntent_kept {W : List Fld} {s0 s : State}  (t : Seat) (hk : Kept W s0 s) (hkw : [Fld.journal] ⊆ W) :
    Kept W s0 (State.leaveIntent s t) := by
  simp only [List.cons_subset, List.nil_subset, and_true] at hkw
  unfold State.leaveIntent
  repeat' (first | (simp (maxDischargeDepth := 40) only [hk, hkw, Kept.refl, Kept.mk_of, Kept.ite, Kept.foldl, List.cons_subset, List.nil_subset, List.mem_cons, List.mem_singleton, and_true, true_and, true_or, or_true, and_self, implies_true, not_false_eq_true]; done) | split)

theorem State.resumeOther_kept {W : List Fld} {s0 s : State}  (u : SeatRef) (hk : Kept W s0 s) (hkw : [Fld.seats, Fld.tes] ⊆ W) :
    Kept W s0 (State.resumeOther s u) := by
  simp only [List.cons_subset, List.nil_subset, and_true] at hkw
  unfold State.resumeOther
  repeat' (first | (simp (maxDischargeDepth := 40) only [hk, hkw, Kept.refl, Kept.mk_of, Kept.ite, Kept.foldl, List.cons_subset, List.nil_subset, List.mem_cons, List.mem_singleton, and_true, true_and, true_or, or_true, and_self, implies_true, not_false_eq_true, State.setSeat_kept, State.setTe_kept]; done) | split)

theorem State.clearSeat_kept {W : List Fld} {s0 s : State}  (u : SeatRef) (hk : Kept W s0 s) (hkw : [Fld.mem, Fld.seats] ⊆ W) :
    Kept W s0 (State.clearSeat s u) := by
  simp only [List.cons_subset, List.nil_subset, and_true] at hkw
  unfold State.clearSeat
  repeat' (first | (simp (maxDischargeDepth := 40) only [hk, hkw, Kept.refl, Kept.mk_of, Kept.ite, Kept.foldl, List.cons_subset, List.nil_subset, List.mem_cons, List.mem_singleton, and_true, true_and, true_or, or_true, and_self, implies_true, not_false_eq_true, State.setSeat_kept, State.wipe_kept]; done) | split)

theorem State.clearSaveArea_kept {W : List Fld} {s0 s : State}  (u : SeatRef) (hk : Kept W s0 s) (hkw : [Fld.mem] ⊆ W) :
    Kept W s0 (State.clearSaveArea s u) := by
  simp only [List.cons_subset, List.nil_subset, and_true] at hkw
  unfold State.clearSaveArea
  repeat' (first | (simp (maxDischargeDepth := 40) only [hk, hkw, Kept.refl, Kept.mk_of, Kept.ite, Kept.foldl, List.cons_subset, List.nil_subset, List.mem_cons, List.mem_singleton, and_true, true_and, true_or, or_true, and_self, implies_true, not_false_eq_true, State.wipe_kept]; done) | split)

theorem State.clearSaveAreas_kept {W : List Fld} {s0 s : State}  (c : Nat) (hk : Kept W s0 s) (hkw : [Fld.mem] ⊆ W) :
    Kept W s0 (State.clearSaveAreas s c) := by
  simp only [List.cons_subset, List.nil_subset, and_true] at hkw
  unfold State.clearSaveAreas
  repeat' (first | (simp (maxDischargeDepth := 40) only [hk, hkw, Kept.refl, Kept.mk_of, Kept.ite, Kept.foldl, List.cons_subset, List.nil_subset, List.mem_cons, List.mem_singleton, and_true, true_and, true_or, or_true, and_self, implies_true, not_false_eq_true, State.clearSaveArea_kept]; done) | split)

theorem State.releaseSeat_kept {W : List Fld} {s0 s : State}  (u : SeatRef) (hk : Kept W s0 s) (hkw : [Fld.mem, Fld.seats, Fld.tes, Fld.journal] ⊆ W) :
    Kept W s0 (State.releaseSeat s u) := by
  simp only [List.cons_subset, List.nil_subset, and_true] at hkw
  unfold State.releaseSeat
  repeat' (first | (simp (maxDischargeDepth := 40) only [hk, hkw, Kept.refl, Kept.mk_of, Kept.ite, Kept.foldl, List.cons_subset, List.nil_subset, List.mem_cons, List.mem_singleton, and_true, true_and, true_or, or_true, and_self, implies_true, not_false_eq_true, State.clearSeat_kept, State.leaveIntent_kept, State.resumeOther_kept]; done) | split)

theorem State.killSeat_kept {W : List Fld} {s0 s : State}  (u : SeatRef) (reason : BitVec 11) (hk : Kept W s0 s) (hkw : [Fld.mem, Fld.seats, Fld.tes, Fld.lanes, Fld.journal, Fld.pcie] ⊆ W) :
    Kept W s0 (State.killSeat s u reason) := by
  simp only [List.cons_subset, List.nil_subset, and_true] at hkw
  unfold State.killSeat
  repeat' (first | (simp (maxDischargeDepth := 40) only [hk, hkw, Kept.refl, Kept.mk_of, Kept.ite, Kept.foldl, List.cons_subset, List.nil_subset, List.mem_cons, List.mem_singleton, and_true, true_and, true_or, or_true, and_self, implies_true, not_false_eq_true, State.itemEnded_kept, State.releaseSeat_kept]; done) | split)

theorem State.endSeat_kept {W : List Fld} {s0 s : State}  (u : SeatRef) (kind code : Byte) (rsp : BitVec 11) (pc : BitVec 32) (body : Bytes) (hk : Kept W s0 s) (hkw : [Fld.mem, Fld.seats, Fld.tes, Fld.lanes, Fld.journal, Fld.held, Fld.pcie] ⊆ W) :
    Kept W s0 (State.endSeat s u kind code rsp pc body) := by
  simp only [List.cons_subset, List.nil_subset, and_true] at hkw
  unfold State.endSeat
  repeat' (first | (simp (maxDischargeDepth := 40) only [hk, hkw, Kept.refl, Kept.mk_of, Kept.ite, Kept.foldl, List.cons_subset, List.nil_subset, List.mem_cons, List.mem_singleton, and_true, true_and, true_or, or_true, and_self, implies_true, not_false_eq_true, State.countDrained_kept, State.hold_kept, State.killSeat_kept, State.releaseSeat_kept]; done) | split)

theorem State.raise_kept {W : List Fld} {s0 s : State}  (u : SeatRef) (code : Byte) (hk : Kept W s0 s) (hkw : [Fld.out, Fld.mem, Fld.seats, Fld.tes, Fld.clusters, Fld.lanes, Fld.depot, Fld.vault, Fld.journal, Fld.held, Fld.port0, Fld.port1, Fld.pcie, Fld.cards, Fld.faults, Fld.recorder, Fld.power] ⊆ W) :
    Kept W s0 (State.raise s u code) := by
  simp only [List.cons_subset, List.nil_subset, and_true] at hkw
  unfold State.raise
  repeat' (first | (simp (maxDischargeDepth := 40) only [hk, hkw, Kept.refl, Kept.mk_of, Kept.ite, Kept.foldl, List.cons_subset, List.nil_subset, List.mem_cons, List.mem_singleton, and_true, true_and, true_or, or_true, and_self, implies_true, not_false_eq_true, State.endSeat_kept, State.fault_kept, State.setLane_kept]; done) | split)

theorem State.rebindSeats_kept {W : List Fld} {s0 s : State}  (x : Image) (hk : Kept W s0 s) (hkw : [Fld.seats] ⊆ W) :
    Kept W s0 (State.rebindSeats s x) := by
  simp only [List.cons_subset, List.nil_subset, and_true] at hkw
  unfold State.rebindSeats
  repeat' (first | (simp (maxDischargeDepth := 40) only [hk, hkw, Kept.refl, Kept.mk_of, Kept.ite, Kept.foldl, List.cons_subset, List.nil_subset, List.mem_cons, List.mem_singleton, and_true, true_and, true_or, or_true, and_self, implies_true, not_false_eq_true]; done) | split)

theorem State.refuseSeat_kept {W : List Fld} {s0 s : State}  (u : SeatRef) (hk : Kept W s0 s) (hkw : [Fld.mem, Fld.seats, Fld.tes, Fld.lanes, Fld.journal, Fld.held, Fld.pcie] ⊆ W) :
    Kept W s0 (State.refuseSeat s u) := by
  simp only [List.cons_subset, List.nil_subset, and_true] at hkw
  unfold State.refuseSeat
  repeat' (first | (simp (maxDischargeDepth := 40) only [hk, hkw, Kept.refl, Kept.mk_of, Kept.ite, Kept.foldl, List.cons_subset, List.nil_subset, List.mem_cons, List.mem_singleton, and_true, true_and, true_or, or_true, and_self, implies_true, not_false_eq_true, State.countDrained_kept, State.hold_kept, State.killSeat_kept, State.releaseSeat_kept]; done) | split)

theorem State.refuseWaiting_kept {W : List Fld} {s0 s : State}  (id : BitVec 32) (colour : Colour) (shared : Bool) (hk : Kept W s0 s) (hkw : [Fld.mem, Fld.seats, Fld.tes, Fld.lanes, Fld.journal, Fld.held, Fld.pcie] ⊆ W) :
    Kept W s0 (State.refuseWaiting s id colour shared) := by
  simp only [List.cons_subset, List.nil_subset, and_true] at hkw
  unfold State.refuseWaiting
  repeat' (first | (simp (maxDischargeDepth := 40) only [hk, hkw, Kept.refl, Kept.mk_of, Kept.ite, Kept.foldl, List.cons_subset, List.nil_subset, List.mem_cons, List.mem_singleton, and_true, true_and, true_or, or_true, and_self, implies_true, not_false_eq_true, State.refuseSeat_kept]; done) | split)

theorem State.fetch_kept {W : List Fld} {s0 s : State}  (u : SeatRef) (t : Seat) (last : Nat) (pc : BitVec 32) (hk : Kept W s0 s) (hkw : [Fld.freeCtr, Fld.seats] ⊆ W) :
    Kept W s0 (State.fetch s u t last pc) := by
  simp only [List.cons_subset, List.nil_subset, and_true] at hkw
  unfold State.fetch
  repeat' (first | (simp (maxDischargeDepth := 40) only [hk, hkw, Kept.refl, Kept.mk_of, Kept.ite, Kept.foldl, List.cons_subset, List.nil_subset, List.mem_cons, List.mem_singleton, and_true, true_and, true_or, or_true, and_self, implies_true, not_false_eq_true, State.drawn_kept, State.setSeat_kept]; done) | split)

theorem State.saveArea_kept {W : List Fld} {s0 s : State}  (u : SeatRef) (hk : Kept W s0 s) (hkw : [Fld.mem] ⊆ W) :
    Kept W s0 (State.saveArea s u) := by
  simp only [List.cons_subset, List.nil_subset, and_true] at hkw
  unfold State.saveArea
  repeat' (first | (simp (maxDischargeDepth := 40) only [hk, hkw, Kept.refl, Kept.mk_of, Kept.ite, Kept.foldl, List.cons_subset, List.nil_subset, List.mem_cons, List.mem_singleton, and_true, true_and, true_or, or_true, and_self, implies_true, not_false_eq_true, State.store_kept]; done) | split)

theorem State.seatChange_kept {W : List Fld} {s0 s : State}  (u : SeatRef) (phase : Phase) (atYield : Bool) (hk : Kept W s0 s) (hkw : [Fld.mem, Fld.seats, Fld.tes] ⊆ W) :
    Kept W s0 (State.seatChange s u phase atYield) := by
  simp only [List.cons_subset, List.nil_subset, and_true] at hkw
  unfold State.seatChange
  repeat' (first | (simp (maxDischargeDepth := 40) only [hk, hkw, Kept.refl, Kept.mk_of, Kept.ite, Kept.foldl, List.cons_subset, List.nil_subset, List.mem_cons, List.mem_singleton, and_true, true_and, true_or, or_true, and_self, implies_true, not_false_eq_true, State.resumeOther_kept, State.saveArea_kept, State.setSeat_kept]; done) | split)

theorem State.enterSeat_kept {W : List Fld} {s0 s : State}  (u : SeatRef) (hk : Kept W s0 s) (hkw : [Fld.mem, Fld.tes] ⊆ W) :
    Kept W s0 (State.enterSeat s u) := by
  simp only [List.cons_subset, List.nil_subset, and_true] at hkw
  unfold State.enterSeat
  repeat' (first | (simp (maxDischargeDepth := 40) only [hk, hkw, Kept.refl, Kept.mk_of, Kept.ite, Kept.foldl, List.cons_subset, List.nil_subset, List.mem_cons, List.mem_singleton, and_true, true_and, true_or, or_true, and_self, implies_true, not_false_eq_true, State.saveArea_kept, State.setTe_kept]; done) | split)

theorem State.fillSlot_kept {W : List Fld} {s0 s : State}  (u : SeatRef) (t : Seat) (k : Fin 8) (key : Key) (lib : Bool) (hk : Kept W s0 s) (hkw : [Fld.tes] ⊆ W) :
    Kept W s0 (State.fillSlot s u t k key lib).1 := by
  unfold State.fillSlot
  try dsimp only
  iterate 40 all_goals (first
    | with_reducible exact hk
    | with_reducible assumption
    | with_reducible exact Kept.refl _ _
    | with_reducible exact .inr rfl
    | (with_reducible exact List.Subset.trans (by decide) hkw)
    | (with_reducible exact .inl (Fld.mem_of hkw (by decide)))
    | (with_reducible apply Kept.ite <;> intro)
    | with_reducible apply State.setTe_kept
    | with_reducible apply Kept.getD
    | with_reducible apply Kept.elim
    | (with_reducible apply Kept.foldl; intro _ _; try dsimp only)
    | split
    | (intro _ _; try dsimp only)
    | with_reducible apply Kept.mk_of
    | skip)

theorem State.fillSlot_keptE {W : List Fld} {s0 s zz : State}  {u : SeatRef} {t : Seat} {k : Fin 8} {key : Key} {lib : Bool} {o : Seat} (eq : State.fillSlot s u t k key lib = (zz, o)) (hk : Kept W s0 s) (hkw : [Fld.tes] ⊆ W) : Kept W s0 zz := by
  have hp := State.fillSlot_kept (W := W) u t k key lib hk hkw
  rw [eq] at hp
  exact hp

theorem State.renewSlots_kept {W : List Fld} {s0 s : State}  (u : SeatRef) (hk : Kept W s0 s) (hkw : [Fld.seats, Fld.tes] ⊆ W) :
    Kept W s0 (State.renewSlots s u) := by
  unfold State.renewSlots
  try dsimp only
  iterate 40 all_goals (first
    | with_reducible exact hk
    | with_reducible assumption
    | with_reducible exact Kept.refl _ _
    | with_reducible exact .inr rfl
    | (with_reducible exact List.Subset.trans (by decide) hkw)
    | (with_reducible exact .inl (Fld.mem_of hkw (by decide)))
    | (with_reducible apply Kept.ite <;> intro)
    | with_reducible apply State.setSeat_kept
    | with_reducible apply State.setTe_kept
    | with_reducible apply Kept.getD
    | with_reducible apply Kept.elim
    | (with_reducible apply Kept.foldl; intro _ _; try dsimp only)
    | split
    | (intro _ _; try dsimp only)
    | with_reducible apply Kept.mk_of
    | skip)

theorem State.formRoots_kept {W : List Fld} {s0 s : State}  (hk : Kept W s0 s) (hkw : [Fld.keys] ⊆ W) :
    Kept W s0 (State.formRoots s) := by
  simp only [List.cons_subset, List.nil_subset, and_true] at hkw
  unfold State.formRoots
  repeat' (first | (simp (maxDischargeDepth := 40) only [hk, hkw, Kept.refl, Kept.mk_of, Kept.ite, Kept.foldl, List.cons_subset, List.nil_subset, List.mem_cons, List.mem_singleton, and_true, true_and, true_or, or_true, and_self, implies_true, not_false_eq_true]; done) | split)

theorem State.dropHandle_kept {W : List Fld} {s0 s : State}  (h : Word) (hk : Kept W s0 s) (hkw : [Fld.clusters, Fld.keys] ⊆ W) :
    Kept W s0 (State.dropHandle s h) := by
  simp only [List.cons_subset, List.nil_subset, and_true] at hkw
  unfold State.dropHandle
  repeat' (first | (simp (maxDischargeDepth := 40) only [hk, hkw, Kept.refl, Kept.mk_of, Kept.ite, Kept.foldl, List.cons_subset, List.nil_subset, List.mem_cons, List.mem_singleton, and_true, true_and, true_or, or_true, and_self, implies_true, not_false_eq_true]; done) | split)

theorem State.caddyCount_kept {W : List Fld} {s0 s : State}  (c : Colour) (f : CaddyCount → CaddyCount) (hk : Kept W s0 s) (hkw : [Fld.keys] ⊆ W) :
    Kept W s0 (State.caddyCount s c f) := by
  simp only [List.cons_subset, List.nil_subset, and_true] at hkw
  unfold State.caddyCount
  repeat' (first | (simp (maxDischargeDepth := 40) only [hk, hkw, Kept.refl, Kept.mk_of, Kept.ite, Kept.foldl, List.cons_subset, List.nil_subset, List.mem_cons, List.mem_singleton, and_true, true_and, true_or, or_true, and_self, implies_true, not_false_eq_true]; done) | split)

theorem State.evict_kept {W : List Fld} {s0 s : State}  (e : CaddyEntry) (hk : Kept W s0 s) (hkw : [Fld.keys] ⊆ W) :
    Kept W s0 (State.evict s e) := by
  simp only [List.cons_subset, List.nil_subset, and_true] at hkw
  unfold State.evict
  repeat' (first | (simp (maxDischargeDepth := 40) only [hk, hkw, Kept.refl, Kept.mk_of, Kept.ite, Kept.foldl, List.cons_subset, List.nil_subset, List.mem_cons, List.mem_singleton, and_true, true_and, true_or, or_true, and_self, implies_true, not_false_eq_true, State.caddyCount_kept]; done) | split)

theorem State.caddySlotsFor_keptE {W : List Fld} (c : Colour) (hkw : [Fld.keys] ⊆ W) :
    ∀ (n : Nat) (got : List Nat) (fuel : Nat) (s0 s zz : State) (o : List Nat), s.caddySlotsFor c n got fuel = some (zz, o) →
      Kept W s0 s → Kept W s0 zz
  | 0, got, fuel, s0, s, zz, o, e, hk => by
    simp only [State.caddySlotsFor, Option.some.injEq, Prod.mk.injEq] at e
    exact e.1 ▸ hk
  | n + 1, got, fuel, s0, s, zz, o, e, hk => by
    unfold State.caddySlotsFor at e
    dsimp only at e
    split at e
    · exact State.caddySlotsFor_keptE c hkw n _ _ s0 s zz o e hk
    · split at e
      · exact absurd e (by simp)
      · split at e
        · exact absurd e (by simp)
        · split at e
          · exact absurd e (by simp)
          · exact State.caddySlotsFor_keptE c hkw n _ _ s0 _ zz o e (State.evict_kept _ hk hkw)

theorem State.caddyInsert_kept {W : List Fld} {s0 s : State} (c : Colour) (h : Word) (k : Key) (n : Nat) (hk : Kept W s0 s)
    (hkw : [Fld.keys] ⊆ W) : Kept W s0 (State.caddyInsert s c h k n) := by
  unfold State.caddyInsert
  split
  · next e =>
    have hk' := State.caddySlotsFor_keptE c hkw n [] 2 s0 s _ _ e hk
    apply Kept.mk_of hk' <;> first | exact .inr rfl | exact .inl (hkw (by decide))
  · exact hk

theorem State.caddyHit_kept {W : List Fld} {s0 s : State}  (c : Colour) (h : Word) (hk : Kept W s0 s) (hkw : [Fld.keys] ⊆ W) :
    Kept W s0 (State.caddyHit s c h) := by
  simp only [List.cons_subset, List.nil_subset, and_true] at hkw
  unfold State.caddyHit
  repeat' (first | (simp (maxDischargeDepth := 40) only [hk, hkw, Kept.refl, Kept.mk_of, Kept.ite, Kept.foldl, List.cons_subset, List.nil_subset, List.mem_cons, List.mem_singleton, and_true, true_and, true_or, or_true, and_self, implies_true, not_false_eq_true, State.caddyCount_kept]; done) | split)

theorem State.fetchMiss_kept {W : List Fld} {s0 s : State}  (c : Colour) (h : Word) (hk : Kept W s0 s) (hkw : [Fld.keys] ⊆ W) :
    Kept W s0 (State.fetchMiss s c h).1 := by
  unfold State.fetchMiss
  try dsimp only
  iterate 40 all_goals (first
    | with_reducible exact hk
    | with_reducible assumption
    | with_reducible exact Kept.refl _ _
    | with_reducible exact .inr rfl
    | (with_reducible exact List.Subset.trans (by decide) hkw)
    | (with_reducible exact .inl (Fld.mem_of hkw (by decide)))
    | (with_reducible apply Kept.ite <;> intro)
    | with_reducible apply State.caddyCount_kept
    | with_reducible apply State.caddyInsert_kept
    | with_reducible apply Kept.getD
    | with_reducible apply Kept.elim
    | (with_reducible apply Kept.foldl; intro _ _; try dsimp only)
    | split
    | (intro _ _; try dsimp only)
    | with_reducible apply Kept.mk_of
    | skip)

theorem State.fetchMiss_keptE {W : List Fld} {s0 s zz : State}  {c : Colour} {h : Word} {o : Option Key} (eq : State.fetchMiss s c h = (zz, o)) (hk : Kept W s0 s) (hkw : [Fld.keys] ⊆ W) : Kept W s0 zz := by
  have hp := State.fetchMiss_kept (W := W) c h hk hkw
  rw [eq] at hp
  exact hp

theorem State.fetchKey_kept {W : List Fld} {s0 s : State}  (c : Colour) (h : Word) (hk : Kept W s0 s) (hkw : [Fld.keys] ⊆ W) :
    Kept W s0 (State.fetchKey s c h).1 := by
  unfold State.fetchKey
  try dsimp only
  iterate 40 all_goals (first
    | with_reducible exact hk
    | with_reducible assumption
    | with_reducible exact Kept.refl _ _
    | with_reducible exact .inr rfl
    | (with_reducible exact List.Subset.trans (by decide) hkw)
    | (with_reducible exact .inl (Fld.mem_of hkw (by decide)))
    | (with_reducible apply Kept.ite <;> intro)
    | with_reducible apply State.caddyHit_kept
    | with_reducible apply State.fetchMiss_kept
    | with_reducible refine State.fetchMiss_keptE (by with_reducible assumption) ?_ ?_
    | with_reducible apply Kept.getD
    | with_reducible apply Kept.elim
    | (with_reducible apply Kept.foldl; intro _ _; try dsimp only)
    | split
    | (intro _ _; try dsimp only)
    | with_reducible apply Kept.mk_of
    | skip)

theorem State.fetchKey_keptE {W : List Fld} {s0 s zz : State}  {c : Colour} {h : Word} {o : Option Key} (eq : State.fetchKey s c h = (zz, o)) (hk : Kept W s0 s) (hkw : [Fld.keys] ⊆ W) : Kept W s0 zz := by
  have hp := State.fetchKey_kept (W := W) c h hk hkw
  rw [eq] at hp
  exact hp

theorem State.fillFixed_kept {W : List Fld} {s0 s : State}  (cs : List Colour) (hk : Kept W s0 s) (hkw : [Fld.keys] ⊆ W) :
    Kept W s0 (State.fillFixed s cs) := by
  simp only [List.cons_subset, List.nil_subset, and_true] at hkw
  unfold State.fillFixed
  repeat' (first | (simp (maxDischargeDepth := 40) only [hk, hkw, Kept.refl, Kept.mk_of, Kept.ite, Kept.foldl, List.cons_subset, List.nil_subset, List.mem_cons, List.mem_singleton, and_true, true_and, true_or, or_true, and_self, implies_true, not_false_eq_true]; done) | split)

theorem State.formPartKeys_kept {W : List Fld} {s0 s : State}  (cs : List Colour) (hk : Kept W s0 s) (hkw : [Fld.keys] ⊆ W) :
    Kept W s0 (State.formPartKeys s cs) := by
  unfold State.formPartKeys
  try dsimp only
  iterate 40 all_goals (first
    | with_reducible exact hk
    | with_reducible assumption
    | with_reducible exact Kept.refl _ _
    | with_reducible exact .inr rfl
    | (with_reducible exact List.Subset.trans (by decide) hkw)
    | (with_reducible exact .inl (Fld.mem_of hkw (by decide)))
    | (with_reducible apply Kept.ite <;> intro)
    | with_reducible apply State.fetchKey_kept
    | with_reducible refine State.fetchKey_keptE (by with_reducible assumption) ?_ ?_
    | with_reducible apply State.fillFixed_kept
    | with_reducible apply Kept.getD
    | with_reducible apply Kept.elim
    | (with_reducible apply Kept.foldl; intro _ _; try dsimp only)
    | split
    | (intro _ _; try dsimp only)
    | with_reducible apply Kept.mk_of
    | skip)

theorem State.putRecord_kept {W : List Fld} {s0 s : State}  (h : Word) (t : Tin) (e : Bytes) (hk : Kept W s0 s) (hkw : [Fld.clusters, Fld.keys] ⊆ W) :
    Kept W s0 (State.putRecord s h t e) := by
  unfold State.putRecord
  try dsimp only
  iterate 40 all_goals (first
    | with_reducible exact hk
    | with_reducible assumption
    | with_reducible exact Kept.refl _ _
    | with_reducible exact .inr rfl
    | (with_reducible exact List.Subset.trans (by decide) hkw)
    | (with_reducible exact .inl (Fld.mem_of hkw (by decide)))
    | (with_reducible apply Kept.ite <;> intro)
    | with_reducible apply State.dropHandle_kept
    | with_reducible apply State.formPartKeys_kept
    | with_reducible apply Kept.getD
    | with_reducible apply Kept.elim
    | (with_reducible apply Kept.foldl; intro _ _; try dsimp only)
    | split
    | (intro _ _; try dsimp only)
    | with_reducible apply Kept.mk_of
    | skip)

theorem State.makeRecord_keptE {W : List Fld} {s0 s zz : State} {ctx : Byte} {h : Word} {a : KeyAttrs} {version : BitVec 32} {material : Bytes}
    (e : s.makeRecord ctx h a version material = some zz) (hk : Kept W s0 s) (hkw : [Fld.freeCtr, Fld.clusters, Fld.keys, Fld.entropy] ⊆ W) : Kept W s0 zz := by
  obtain ⟨k, _, rfl⟩ := Option.map_eq_some_iff.mp e
  try dsimp only
  iterate 40 all_goals (first
    | with_reducible exact hk
    | with_reducible assumption
    | with_reducible exact Kept.refl _ _
    | with_reducible exact .inr rfl
    | (with_reducible exact List.Subset.trans (by decide) hkw)
    | (with_reducible exact .inl (Fld.mem_of hkw (by decide)))
    | (with_reducible apply Kept.ite <;> intro)
    | with_reducible apply State.hubRead_kept
    | with_reducible apply State.putRecord_kept
    | with_reducible apply Kept.getD
    | with_reducible apply Kept.elim
    | (with_reducible apply Kept.foldl; intro _ _; try dsimp only)
    | split
    | (intro _ _; try dsimp only)
    | with_reducible apply Kept.mk_of
    | skip)

theorem State.tokenReply_kept {W : List Fld} {s0 s : State}  (u : SeatRef) (w : VaultWait) (r : VaultReply) (hk : Kept W s0 s) (hkw : [Fld.seats] ⊆ W) :
    Kept W s0 (State.tokenReply s u w r) := by
  unfold State.tokenReply
  try dsimp only
  iterate 40 all_goals (first
    | with_reducible exact hk
    | with_reducible assumption
    | with_reducible exact Kept.refl _ _
    | with_reducible exact .inr rfl
    | (with_reducible exact List.Subset.trans (by decide) hkw)
    | (with_reducible exact .inl (Fld.mem_of hkw (by decide)))
    | (with_reducible apply Kept.ite <;> intro)
    | with_reducible apply State.setSeat_kept
    | with_reducible apply Kept.getD
    | with_reducible apply Kept.elim
    | (with_reducible apply Kept.foldl; intro _ _; try dsimp only)
    | split
    | (intro _ _; try dsimp only)
    | with_reducible apply Kept.mk_of
    | skip)

theorem State.tokenMade_kept {W : List Fld} {s0 s : State}  (u : SeatRef) (t : Seat) (digits : Bytes) (hk : Kept W s0 s) (hkw : [Fld.freeCtr, Fld.mem] ⊆ W) :
    Kept W s0 (State.tokenMade s u t digits).1 := by
  unfold State.tokenMade
  try dsimp only
  iterate 40 all_goals (first
    | with_reducible exact hk
    | with_reducible assumption
    | with_reducible exact Kept.refl _ _
    | with_reducible exact .inr rfl
    | (with_reducible exact List.Subset.trans (by decide) hkw)
    | (with_reducible exact .inl (Fld.mem_of hkw (by decide)))
    | (with_reducible apply Kept.ite <;> intro)
    | with_reducible apply State.drawnBytes_kept
    | with_reducible apply State.store_kept
    | with_reducible apply Kept.getD
    | with_reducible apply Kept.elim
    | (with_reducible apply Kept.foldl; intro _ _; try dsimp only)
    | split
    | (intro _ _; try dsimp only)
    | with_reducible apply Kept.mk_of
    | skip)

theorem State.tokenMade_keptE {W : List Fld} {s0 s zz : State}  {u : SeatRef} {t : Seat} {digits : Bytes} {o : Seat} (eq : State.tokenMade s u t digits = (zz, o)) (hk : Kept W s0 s) (hkw : [Fld.freeCtr, Fld.mem] ⊆ W) : Kept W s0 zz := by
  have hp := State.tokenMade_kept (W := W) u t digits hk hkw
  rw [eq] at hp
  exact hp

theorem State.cmdAccepted_kept {W : List Fld} {s0 s : State}  (c : Cmd) (op : Nat) (hk : Kept W s0 s) (hkw : [Fld.journal] ⊆ W) :
    Kept W s0 (State.cmdAccepted s c op) := by
  simp only [List.cons_subset, List.nil_subset, and_true] at hkw
  unfold State.cmdAccepted
  repeat' (first | (simp (maxDischargeDepth := 40) only [hk, hkw, Kept.refl, Kept.mk_of, Kept.ite, Kept.foldl, List.cons_subset, List.nil_subset, List.mem_cons, List.mem_singleton, and_true, true_and, true_or, or_true, and_self, implies_true, not_false_eq_true, State.writeMile_kept]; done) | split)

theorem State.cmdIntent_kept {W : List Fld} {s0 s : State}  (c : Cmd) (kind : Nat) (obj : Word) (before : Nat) (hk : Kept W s0 s) (hkw : [Fld.journal] ⊆ W) :
    Kept W s0 (State.cmdIntent s c kind obj before) := by
  simp only [List.cons_subset, List.nil_subset, and_true] at hkw
  unfold State.cmdIntent
  repeat' (first | (simp (maxDischargeDepth := 40) only [hk, hkw, Kept.refl, Kept.mk_of, Kept.ite, Kept.foldl, List.cons_subset, List.nil_subset, List.mem_cons, List.mem_singleton, and_true, true_and, true_or, or_true, and_self, implies_true, not_false_eq_true, State.anchor_kept]; done) | split)

theorem State.cmdCommit_kept {W : List Fld} {s0 s : State}  (c : Cmd) (kind : Nat) (obj : Word) (after : Nat) (hk : Kept W s0 s) (hkw : [Fld.journal] ⊆ W) :
    Kept W s0 (State.cmdCommit s c kind obj after) := by
  simp only [List.cons_subset, List.nil_subset, and_true] at hkw
  unfold State.cmdCommit
  repeat' (first | (simp (maxDischargeDepth := 40) only [hk, hkw, Kept.refl, Kept.mk_of, Kept.ite, Kept.foldl, List.cons_subset, List.nil_subset, List.mem_cons, List.mem_singleton, and_true, true_and, true_or, or_true, and_self, implies_true, not_false_eq_true, State.anchor_kept]; done) | split)

theorem State.cmdOrphan_kept {W : List Fld} {s0 s : State}  (c : Cmd) (kind : Nat) (obj : Word) (before : Nat) (issued : Bool) (left : Nat) (hk : Kept W s0 s) (hkw : [Fld.journal] ⊆ W) :
    Kept W s0 (State.cmdOrphan s c kind obj before issued left) := by
  simp only [List.cons_subset, List.nil_subset, and_true] at hkw
  unfold State.cmdOrphan
  repeat' (first | (simp (maxDischargeDepth := 40) only [hk, hkw, Kept.refl, Kept.mk_of, Kept.ite, Kept.foldl, List.cons_subset, List.nil_subset, List.mem_cons, List.mem_singleton, and_true, true_and, true_or, or_true, and_self, implies_true, not_false_eq_true]; done) | split)

theorem State.configured_kept {W : List Fld} {s0 s : State} (c : Cmd) (f : State → State) (hf : ∀ s, Kept W s0 s → Kept W s0 (f s))
    (hk : Kept W s0 s) (hkw : [Fld.tenancy, Fld.journal] ⊆ W) : Kept W s0 (State.configured s c f) := by
  unfold State.configured
  dsimp only
  apply State.cmdCommit_kept
  · apply Kept.mk_of (hf _ (State.cmdIntent_kept _ _ _ _ hk (List.Subset.trans (by decide) hkw))) <;>
      first | exact .inr rfl | exact .inl (hkw (by decide))
  · exact List.Subset.trans (by decide) hkw

theorem State.unflight_kept {W : List Fld} {s0 s : State}  (c : Cmd) (hk : Kept W s0 s) (hkw : [Fld.pcie] ⊆ W) :
    Kept W s0 (State.unflight s c) := by
  simp only [List.cons_subset, List.nil_subset, and_true] at hkw
  unfold State.unflight
  repeat' (first | (simp (maxDischargeDepth := 40) only [hk, hkw, Kept.refl, Kept.mk_of, Kept.ite, Kept.foldl, List.cons_subset, List.nil_subset, List.mem_cons, List.mem_singleton, and_true, true_and, true_or, or_true, and_self, implies_true, not_false_eq_true]; done) | split)

theorem State.ringFail_kept {W : List Fld} {s0 s : State}  (fn : Nat) (reason idx : Nat) (hk : Kept W s0 s) (hkw : [Fld.out, Fld.pcie, Fld.recorder] ⊆ W) :
    Kept W s0 (State.ringFail s fn reason idx) := by
  simp only [List.cons_subset, List.nil_subset, and_true] at hkw
  unfold State.ringFail
  repeat' (first | (simp (maxDischargeDepth := 40) only [hk, hkw, Kept.refl, Kept.mk_of, Kept.ite, Kept.foldl, List.cons_subset, List.nil_subset, List.mem_cons, List.mem_singleton, and_true, true_and, true_or, or_true, and_self, implies_true, not_false_eq_true, State.count_kept, State.setEvent_kept, State.setFunc_kept]; done) | split)

theorem State.cplSignal_kept {W : List Fld} {s0 s : State}  (fn : Nat) (hk : Kept W s0 s) (hkw : [Fld.out, Fld.pcie] ⊆ W) :
    Kept W s0 (State.cplSignal s fn) := by
  simp only [List.cons_subset, List.nil_subset, and_true] at hkw
  unfold State.cplSignal
  repeat' (first | (simp (maxDischargeDepth := 40) only [hk, hkw, Kept.refl, Kept.mk_of, Kept.ite, Kept.foldl, List.cons_subset, List.nil_subset, List.mem_cons, List.mem_singleton, and_true, true_and, true_or, or_true, and_self, implies_true, not_false_eq_true, State.msix_kept, State.setFunc_kept]; done) | split)

theorem State.cmdDrained_kept {W : List Fld} {s0 s : State}  (fn : Nat) (hk : Kept W s0 s) (hkw : [Fld.pcie] ⊆ W) :
    Kept W s0 (State.cmdDrained s fn) := by
  simp only [List.cons_subset, List.nil_subset, and_true] at hkw
  unfold State.cmdDrained
  repeat' (first | (simp (maxDischargeDepth := 40) only [hk, hkw, Kept.refl, Kept.mk_of, Kept.ite, Kept.foldl, List.cons_subset, List.nil_subset, List.mem_cons, List.mem_singleton, and_true, true_and, true_or, or_true, and_self, implies_true, not_false_eq_true, State.setFunc_kept]; done) | split)

theorem State.reply_kept {W : List Fld} {s0 s : State}  (c : Cmd) (code : Nat) (effect : Bool) (rsp : Bytes) (detail : Word) (journalled : Bool) (hk : Kept W s0 s) (hkw : [Fld.out, Fld.pcie] ⊆ W) :
    Kept W s0 (State.reply s c code effect rsp detail journalled) := by
  simp only [List.cons_subset, List.nil_subset, and_true] at hkw
  unfold State.reply
  repeat' (first | (simp (maxDischargeDepth := 40) only [hk, hkw, Kept.refl, Kept.mk_of, Kept.ite, Kept.foldl, List.cons_subset, List.nil_subset, List.mem_cons, List.mem_singleton, and_true, true_and, true_or, or_true, and_self, implies_true, not_false_eq_true, State.cmdDrained_kept, State.cplSignal_kept, State.emit_kept, State.setEvent_kept, State.setFunc_kept, State.unflight_kept]; done) | split)

theorem State.reject_kept {W : List Fld} {s0 s : State}  (c : Cmd) (code : Nat) (hk : Kept W s0 s) (hkw : [Fld.out, Fld.pcie, Fld.recorder] ⊆ W) :
    Kept W s0 (State.reject s c code) := by
  simp only [List.cons_subset, List.nil_subset, and_true] at hkw
  unfold State.reject
  repeat' (first | (simp (maxDischargeDepth := 40) only [hk, hkw, Kept.refl, Kept.mk_of, Kept.ite, Kept.foldl, List.cons_subset, List.nil_subset, List.mem_cons, List.mem_singleton, and_true, true_and, true_or, or_true, and_self, implies_true, not_false_eq_true, State.count_kept, State.reply_kept]; done) | split)

theorem State.finish_kept {W : List Fld} {s0 s : State}  (sp : Spec) (c : Cmd) (code : Nat) (rsp : Bytes) (detail : Word) (hk : Kept W s0 s) (hkw : [Fld.out, Fld.journal, Fld.pcie, Fld.recorder] ⊆ W) :
    Kept W s0 (State.finish s sp c code rsp detail) := by
  simp only [List.cons_subset, List.nil_subset, and_true] at hkw
  unfold State.finish
  repeat' (first | (simp (maxDischargeDepth := 40) only [hk, hkw, Kept.refl, Kept.mk_of, Kept.ite, Kept.foldl, List.cons_subset, List.nil_subset, List.mem_cons, List.mem_singleton, and_true, true_and, true_or, or_true, and_self, implies_true, not_false_eq_true, State.count_kept, State.reply_kept, State.writeMile_kept]; done) | split)

theorem State.begin_kept {W : List Fld} {s0 s : State}  (sp : Spec) (c : Cmd) (hk : Kept W s0 s) (hkw : [Fld.pcie] ⊆ W) :
    Kept W s0 (State.begin s sp c) := by
  simp only [List.cons_subset, List.nil_subset, and_true] at hkw
  unfold State.begin
  repeat' (first | (simp (maxDischargeDepth := 40) only [hk, hkw, Kept.refl, Kept.mk_of, Kept.ite, Kept.foldl, List.cons_subset, List.nil_subset, List.mem_cons, List.mem_singleton, and_true, true_and, true_or, or_true, and_self, implies_true, not_false_eq_true]; done) | split)

theorem State.finishLater_kept {W : List Fld} {s0 s : State}  (sp : Spec) (c : Cmd) (code : Nat) (rsp : Bytes) (detail : Word) (hk : Kept W s0 s) (hkw : [Fld.out, Fld.journal, Fld.pcie, Fld.recorder] ⊆ W) :
    Kept W s0 (State.finishLater s sp c code rsp detail) := by
  simp only [List.cons_subset, List.nil_subset, and_true] at hkw
  unfold State.finishLater
  repeat' (first | (simp (maxDischargeDepth := 40) only [hk, hkw, Kept.refl, Kept.mk_of, Kept.ite, Kept.foldl, List.cons_subset, List.nil_subset, List.mem_cons, List.mem_singleton, and_true, true_and, true_or, or_true, and_self, implies_true, not_false_eq_true, State.finish_kept]; done) | split)

theorem State.endLater_kept {W : List Fld} {s0 s : State}  (c : Cmd) (code : Nat) (hk : Kept W s0 s) (hkw : [Fld.out, Fld.journal, Fld.pcie, Fld.recorder] ⊆ W) :
    Kept W s0 (State.endLater s c code) := by
  unfold State.endLater
  try dsimp only
  iterate 40 all_goals (first
    | with_reducible exact hk
    | with_reducible assumption
    | with_reducible exact Kept.refl _ _
    | with_reducible exact .inr rfl
    | (with_reducible exact List.Subset.trans (by decide) hkw)
    | (with_reducible exact .inl (Fld.mem_of hkw (by decide)))
    | (with_reducible apply Kept.ite <;> intro)
    | with_reducible apply State.finish_kept
    | with_reducible apply Kept.getD
    | with_reducible apply Kept.elim
    | (with_reducible apply Kept.foldl; intro _ _; try dsimp only)
    | split
    | (intro _ _; try dsimp only)
    | with_reducible apply Kept.mk_of
    | skip)

theorem State.ownFails_kept {W : List Fld} {s0 s : State}  (c : Cmd) (hk : Kept W s0 s) (hkw : [Fld.out, Fld.journal, Fld.pcie, Fld.recorder] ⊆ W) :
    Kept W s0 (State.ownFails s c) := by
  simp only [List.cons_subset, List.nil_subset, and_true] at hkw
  unfold State.ownFails
  repeat' (first | (simp (maxDischargeDepth := 40) only [hk, hkw, Kept.refl, Kept.mk_of, Kept.ite, Kept.foldl, List.cons_subset, List.nil_subset, List.mem_cons, List.mem_singleton, and_true, true_and, true_or, or_true, and_self, implies_true, not_false_eq_true, State.endLater_kept]; done) | split)

theorem State.jobLost_kept {W : List Fld} {s0 s : State}  (d : Desc) (reason : BitVec 11) (hk : Kept W s0 s) (hkw : [Fld.out, Fld.lanes, Fld.journal, Fld.pcie, Fld.recorder] ⊆ W) :
    Kept W s0 (State.jobLost s d reason) := by
  simp only [List.cons_subset, List.nil_subset, and_true] at hkw
  unfold State.jobLost
  repeat' (first | (simp (maxDischargeDepth := 40) only [hk, hkw, Kept.refl, Kept.mk_of, Kept.ite, Kept.foldl, List.cons_subset, List.nil_subset, List.mem_cons, List.mem_singleton, and_true, true_and, true_or, or_true, and_self, implies_true, not_false_eq_true, State.itemEnded_kept, State.ownFails_kept]; done) | split)

theorem answer_kept {W : List Fld} {s0 s : State} (c : Cmd)  (sp : Spec) (rsp : Bytes) (hk : Kept W s0 s) (hkw : [Fld.out, Fld.journal, Fld.pcie, Fld.recorder] ⊆ W) :
    Kept W s0 (answer c s sp rsp) := by
  simp only [List.cons_subset, List.nil_subset, and_true] at hkw
  unfold answer
  repeat' (first | (simp (maxDischargeDepth := 40) only [hk, hkw, Kept.refl, Kept.mk_of, Kept.ite, Kept.foldl, List.cons_subset, List.nil_subset, List.mem_cons, List.mem_singleton, and_true, true_and, true_or, or_true, and_self, implies_true, not_false_eq_true, State.finish_kept]; done) | split)

end Sys2Proof.Machine
end

