-- ==== Sys2Proof/Laws/KeptVault.lean ====
section
/-! SUPPORT. What each operation on the state may change: the vault engine, the key instructions and the pool. -/

namespace Sys2Proof.Machine

set_option linter.all false

theorem State.vaultFetch_kept {W : List Fld} {s0 s : State}  (c : Colour) (h : Word) (hk : Kept W s0 s) (hkw : [Fld.keys] ⊆ W) :
    Kept W s0 (State.vaultFetch s c h).1 := by
  unfold State.vaultFetch
  try dsimp only
  iterate 40 all_goals (first
    | with_reducible exact hk
    | with_reducible assumption
    | with_reducible exact Kept.refl _ _
    | with_reducible exact .inr rfl
    | (with_reducible exact List.Subset.trans (by decide) hkw)
    | (with_reducible exact .inl (Fld.mem_of hkw (by decide)))
    | (with_reducible apply Kept.ite <;> intro)
    | with_reducible apply State.fetchKey_kept
    | with_reducible refine State.fetchKey_keptE (by with_reducible assumption) ?_ ?_
    | with_reducible apply Kept.getD
    | with_reducible apply Kept.elim
    | (with_reducible apply Kept.foldl; intro _ _; try dsimp only)
    | split
    | (intro _ _; try dsimp only)
    | with_reducible apply Kept.mk_of
    | skip)

theorem State.vaultFetch_keptE {W : List Fld} {s0 s zz : State}  {c : Colour} {h : Word} {o : Option Key} (eq : State.vaultFetch s c h = (zz, o)) (hk : Kept W s0 s) (hkw : [Fld.keys] ⊆ W) : Kept W s0 zz := by
  have hp := State.vaultFetch_kept (W := W) c h hk hkw
  rw [eq] at hp
  exact hp

theorem State.vaultPair_kept {W : List Fld} {s0 s : State}  (c : Colour) (h1 h2 : Word) (hk : Kept W s0 s) (hkw : [Fld.keys] ⊆ W) :
    Kept W s0 (State.vaultPair s c h1 h2).1 := by
  unfold State.vaultPair
  try dsimp only
  iterate 40 all_goals (first
    | with_reducible exact hk
    | with_reducible assumption
    | with_reducible exact Kept.refl _ _
    | with_reducible exact .inr rfl
    | (with_reducible exact List.Subset.trans (by decide) hkw)
    | (with_reducible exact .inl (Fld.mem_of hkw (by decide)))
    | (with_reducible apply Kept.ite <;> intro)
    | with_reducible apply State.vaultFetch_kept
    | with_reducible refine State.vaultFetch_keptE (by with_reducible assumption) ?_ ?_
    | with_reducible apply Kept.getD
    | with_reducible apply Kept.elim
    | (with_reducible apply Kept.foldl; intro _ _; try dsimp only)
    | split
    | (intro _ _; try dsimp only)
    | with_reducible apply Kept.mk_of
    | skip)

theorem State.vaultPair_keptE {W : List Fld} {s0 s zz : State}  {c : Colour} {h1 h2 : Word} {o : Option (Bytes × Bytes)} (eq : State.vaultPair s c h1 h2 = (zz, o)) (hk : Kept W s0 s) (hkw : [Fld.keys] ⊆ W) : Kept W s0 zz := by
  have hp := State.vaultPair_kept (W := W) c h1 h2 hk hkw
  rw [eq] at hp
  exact hp

theorem State.vaultKeys_kept {W : List Fld} {s0 s : State}  (hk : Kept W s0 s) (hkw : [Fld.keys] ⊆ W) :
    Kept W s0 (State.vaultKeys s).1 := by
  unfold State.vaultKeys
  try dsimp only
  iterate 40 all_goals (first
    | with_reducible exact hk
    | with_reducible assumption
    | with_reducible exact Kept.refl _ _
    | with_reducible exact .inr rfl
    | (with_reducible exact List.Subset.trans (by decide) hkw)
    | (with_reducible exact .inl (Fld.mem_of hkw (by decide)))
    | (with_reducible apply Kept.ite <;> intro)
    | with_reducible apply State.vaultPair_kept
    | with_reducible refine State.vaultPair_keptE (by with_reducible assumption) ?_ ?_
    | with_reducible apply Kept.getD
    | with_reducible apply Kept.elim
    | (with_reducible apply Kept.foldl; intro _ _; try dsimp only)
    | split
    | (intro _ _; try dsimp only)
    | with_reducible apply Kept.mk_of
    | skip)

theorem State.vaultKeys_keptE {W : List Fld} {s0 s zz : State}  {o : Option (Bytes × Bytes)} (eq : State.vaultKeys s = (zz, o)) (hk : Kept W s0 s) (hkw : [Fld.keys] ⊆ W) : Kept W s0 zz := by
  have hp := State.vaultKeys_kept (W := W)  hk hkw
  rw [eq] at hp
  exact hp

theorem State.vaultCount_kept {W : List Fld} {s0 s : State}  (i : Nat) (hk : Kept W s0 s) (hkw : [Fld.vault] ⊆ W) :
    Kept W s0 (State.vaultCount s i) := by
  simp only [List.cons_subset, List.nil_subset, and_true] at hkw
  unfold State.vaultCount
  repeat' (first | (simp (maxDischargeDepth := 40) only [hk, hkw, Kept.refl, Kept.mk_of, Kept.ite, Kept.foldl, List.cons_subset, List.nil_subset, List.mem_cons, List.mem_singleton, and_true, true_and, true_or, or_true, and_self, implies_true, not_false_eq_true]; done) | split)

theorem State.modVault_kept {W : List Fld} {s0 s : State}  (f : Vault → Vault) (hk : Kept W s0 s) (hkw : [Fld.vault] ⊆ W) :
    Kept W s0 (State.modVault s f) := by
  simp only [List.cons_subset, List.nil_subset, and_true] at hkw
  unfold State.modVault
  repeat' (first | (simp (maxDischargeDepth := 40) only [hk, hkw, Kept.refl, Kept.mk_of, Kept.ite, Kept.foldl, List.cons_subset, List.nil_subset, List.mem_cons, List.mem_singleton, and_true, true_and, true_or, or_true, and_self, implies_true, not_false_eq_true]; done) | split)

theorem State.vaultMsg_kept {W : List Fld} {s0 s : State}  (r : VaultReq) (hk : Kept W s0 s) (hkw : [Fld.out, Fld.port0, Fld.port1] ⊆ W) :
    Kept W s0 (State.vaultMsg s r) := by
  simp only [List.cons_subset, List.nil_subset, and_true] at hkw
  unfold State.vaultMsg
  repeat' (first | (simp (maxDischargeDepth := 40) only [hk, hkw, Kept.refl, Kept.mk_of, Kept.ite, Kept.foldl, List.cons_subset, List.nil_subset, List.mem_cons, List.mem_singleton, and_true, true_and, true_or, or_true, and_self, implies_true, not_false_eq_true, State.sendMsg_kept]; done) | split)

theorem State.vaultAsk_keptE {W : List Fld} {s0 s zz : State} {isPut unit previous : Bool} {l i : Nat} {serial : Word} {payload : Bytes} {o : Word}
    (e : s.vaultAsk isPut unit previous l i serial payload = some (zz, o)) (hk : Kept W s0 s) (hkw : [Fld.out, Fld.vault, Fld.port0, Fld.port1] ⊆ W) : Kept W s0 zz := by
  obtain ⟨k, _, e'⟩ := Option.map_eq_some_iff.mp e
  cases e'
  try dsimp only
  iterate 40 all_goals (first
    | with_reducible exact hk
    | with_reducible assumption
    | with_reducible exact Kept.refl _ _
    | with_reducible exact .inr rfl
    | (with_reducible exact List.Subset.trans (by decide) hkw)
    | (with_reducible exact .inl (Fld.mem_of hkw (by decide)))
    | (with_reducible apply Kept.ite <;> intro)
    | with_reducible apply State.modVault_kept
    | with_reducible apply State.vaultMsg_kept
    | with_reducible apply Kept.getD
    | with_reducible apply Kept.elim
    | (with_reducible apply Kept.foldl; intro _ _; try dsimp only)
    | split
    | (intro _ _; try dsimp only)
    | with_reducible apply Kept.mk_of
    | skip)

theorem State.vaultGet_keptE {W : List Fld} {s0 s zz : State}  {unit previous : Bool} {l i : Nat} {o : Word} (eq : State.vaultGet s unit previous l i = some (zz, o)) (hk : Kept W s0 s) (hkw : [Fld.out, Fld.vault, Fld.port0, Fld.port1] ⊆ W) :
    Kept W s0 zz := by
  unfold State.vaultGet at eq
  try dsimp only at eq
  repeat' split at eq
  all_goals first | (cases eq; done) | skip
  all_goals (try simp only [Option.some.injEq, Prod.mk.injEq] at eq; first | subst eq | (obtain ⟨e1, e2⟩ := eq; first | subst e1 | skip; first | subst e2 | skip))
  try dsimp only
  iterate 40 all_goals (first
    | with_reducible exact hk
    | with_reducible assumption
    | with_reducible exact Kept.refl _ _
    | with_reducible exact .inr rfl
    | (with_reducible exact List.Subset.trans (by decide) hkw)
    | (with_reducible exact .inl (Fld.mem_of hkw (by decide)))
    | (with_reducible apply Kept.ite <;> intro)
    | with_reducible refine State.vaultAsk_keptE (by with_reducible assumption) ?_ ?_
    | with_reducible apply Kept.getD
    | with_reducible apply Kept.elim
    | (with_reducible apply Kept.foldl; intro _ _; try dsimp only)
    | split
    | (intro _ _; try dsimp only)
    | with_reducible apply Kept.mk_of
    | skip)

theorem State.vaultPut_keptE {W : List Fld} {s0 s zz : State} {abs : Nat} {unit : Bytes} {ns : List NodeAt} {o : Word × Word}
    (e : s.vaultPut abs unit ns = some (zz, o)) (hk : Kept W s0 s) (hkw : [Fld.out, Fld.vault, Fld.port0, Fld.port1] ⊆ W) : Kept W s0 zz := by
  unfold State.vaultPut at e
  split at e
  · cases e
  · obtain ⟨k, e1, e2⟩ := Option.map_eq_some_iff.mp e
    cases e2
    exact State.vaultAsk_keptE e1 (State.modVault_kept _ hk (List.Subset.trans (by decide) hkw)) (List.Subset.trans (by decide) hkw)

theorem State.settleOrphan_kept {W : List Fld} {s0 s : State}  (c : Colour) (rel : Word) (left : Option Word) (hk : Kept W s0 s) (hkw : [Fld.journal] ⊆ W) :
    Kept W s0 (State.settleOrphan s c rel left) := by
  simp only [List.cons_subset, List.nil_subset, and_true] at hkw
  unfold State.settleOrphan
  repeat' (first | (simp (maxDischargeDepth := 40) only [hk, hkw, Kept.refl, Kept.mk_of, Kept.ite, Kept.foldl, List.cons_subset, List.nil_subset, List.mem_cons, List.mem_singleton, and_true, true_and, true_or, or_true, and_self, implies_true, not_false_eq_true]; done) | split)

theorem State.vaultReply_kept {W : List Fld} {s0 s : State}  (o : VaultOp) (status : Nat) (version : Word) (plain : Option Bytes) (hk : Kept W s0 s) (hkw : [Fld.out, Fld.seats, Fld.journal, Fld.pcie, Fld.recorder] ⊆ W) :
    Kept W s0 (State.vaultReply s o status version plain) := by
  simp only [List.cons_subset, List.nil_subset, and_true] at hkw
  unfold State.vaultReply
  repeat' (first | (simp (maxDischargeDepth := 40) only [hk, hkw, Kept.refl, Kept.mk_of, Kept.ite, Kept.foldl, List.cons_subset, List.nil_subset, List.mem_cons, List.mem_singleton, and_true, true_and, true_or, or_true, and_self, implies_true, not_false_eq_true, State.finishLater_kept, State.setSeat_kept, State.settleOrphan_kept, State.writeOutcome_kept]; done) | split)

theorem State.dropOp_kept {W : List Fld} {s0 s : State}  (n : Nat) (hk : Kept W s0 s) (hkw : [Fld.vault] ⊆ W) :
    Kept W s0 (State.dropOp s n) := by
  simp only [List.cons_subset, List.nil_subset, and_true] at hkw
  unfold State.dropOp
  repeat' (first | (simp (maxDischargeDepth := 40) only [hk, hkw, Kept.refl, Kept.mk_of, Kept.ite, Kept.foldl, List.cons_subset, List.nil_subset, List.mem_cons, List.mem_singleton, and_true, true_and, true_or, or_true, and_self, implies_true, not_false_eq_true, State.modVault_kept]; done) | split)

theorem State.setOp_kept {W : List Fld} {s0 s : State}  (n : Nat) (o : VaultOp) (hk : Kept W s0 s) (hkw : [Fld.vault] ⊆ W) :
    Kept W s0 (State.setOp s n o) := by
  simp only [List.cons_subset, List.nil_subset, and_true] at hkw
  unfold State.setOp
  repeat' (first | (simp (maxDischargeDepth := 40) only [hk, hkw, Kept.refl, Kept.mk_of, Kept.ite, Kept.foldl, List.cons_subset, List.nil_subset, List.mem_cons, List.mem_singleton, and_true, true_and, true_or, or_true, and_self, implies_true, not_false_eq_true, State.modVault_kept]; done) | split)

theorem State.endOp_kept {W : List Fld} {s0 s : State}  (n : Nat) (o : VaultOp) (status : Nat) (version : Word) (plain : Option Bytes) (hk : Kept W s0 s) (hkw : [Fld.out, Fld.seats, Fld.vault, Fld.journal, Fld.pcie, Fld.recorder] ⊆ W) :
    Kept W s0 (State.endOp s n o status version plain) := by
  simp only [List.cons_subset, List.nil_subset, and_true] at hkw
  unfold State.endOp
  repeat' (first | (simp (maxDischargeDepth := 40) only [hk, hkw, Kept.refl, Kept.mk_of, Kept.ite, Kept.foldl, List.cons_subset, List.nil_subset, List.mem_cons, List.mem_singleton, and_true, true_and, true_or, or_true, and_self, implies_true, not_false_eq_true, State.dropOp_kept, State.vaultReply_kept]; done) | split)

theorem State.integrityFail_kept {W : List Fld} {s0 s : State}  (n : Nat) (o : VaultOp) (row : Nat) (detail : Word) (hk : Kept W s0 s) (hkw : [Fld.out, Fld.seats, Fld.tes, Fld.clusters, Fld.depot, Fld.vault, Fld.journal, Fld.port0, Fld.port1, Fld.pcie, Fld.cards, Fld.faults, Fld.recorder, Fld.power] ⊆ W) :
    Kept W s0 (State.integrityFail s n o row detail) := by
  simp only [List.cons_subset, List.nil_subset, and_true] at hkw
  unfold State.integrityFail
  repeat' (first | (simp (maxDischargeDepth := 40) only [hk, hkw, Kept.refl, Kept.mk_of, Kept.ite, Kept.foldl, List.cons_subset, List.nil_subset, List.mem_cons, List.mem_singleton, and_true, true_and, true_or, or_true, and_self, implies_true, not_false_eq_true, State.endOp_kept, State.fault_kept, State.vaultCount_kept]; done) | split)

theorem State.extentKeys_kept {W : List Fld} {s0 s : State}  (c : Colour) (hk : Kept W s0 s) (hkw : [Fld.keys] ⊆ W) :
    Kept W s0 (State.extentKeys s c).1 := by
  unfold State.extentKeys
  try dsimp only
  iterate 40 all_goals (first
    | with_reducible exact hk
    | with_reducible assumption
    | with_reducible exact Kept.refl _ _
    | with_reducible exact .inr rfl
    | (with_reducible exact List.Subset.trans (by decide) hkw)
    | (with_reducible exact .inl (Fld.mem_of hkw (by decide)))
    | (with_reducible apply Kept.ite <;> intro)
    | with_reducible apply State.vaultPair_kept
    | with_reducible refine State.vaultPair_keptE (by with_reducible assumption) ?_ ?_
    | with_reducible apply Kept.getD
    | with_reducible apply Kept.elim
    | (with_reducible apply Kept.foldl; intro _ _; try dsimp only)
    | split
    | (intro _ _; try dsimp only)
    | with_reducible apply Kept.mk_of
    | skip)

theorem State.extentKeys_keptE {W : List Fld} {s0 s zz : State}  {c : Colour} {o : Option (Bytes × Bytes)} (eq : State.extentKeys s c = (zz, o)) (hk : Kept W s0 s) (hkw : [Fld.keys] ⊆ W) : Kept W s0 zz := by
  have hp := State.extentKeys_kept (W := W) c hk hkw
  rw [eq] at hp
  exact hp

theorem State.startPut_kept {W : List Fld} {s0 s : State}  (n : Nat) (o : VaultOp) (current : Word) (hk : Kept W s0 s) (hkw : [Fld.freeCtr, Fld.out, Fld.seats, Fld.keys, Fld.vault, Fld.journal, Fld.port0, Fld.port1, Fld.pcie, Fld.recorder] ⊆ W) :
    Kept W s0 (State.startPut s n o current) := by
  unfold State.startPut
  try dsimp only
  iterate 40 all_goals (first
    | with_reducible exact hk
    | with_reducible assumption
    | with_reducible exact Kept.refl _ _
    | with_reducible exact .inr rfl
    | (with_reducible exact List.Subset.trans (by decide) hkw)
    | (with_reducible exact .inl (Fld.mem_of hkw (by decide)))
    | (with_reducible apply Kept.ite <;> intro)
    | with_reducible apply State.drawn_kept
    | with_reducible apply State.endOp_kept
    | with_reducible apply State.extentKeys_kept
    | with_reducible refine State.extentKeys_keptE (by with_reducible assumption) ?_ ?_
    | with_reducible apply State.setOp_kept
    | with_reducible apply State.vaultCount_kept
    | with_reducible apply State.vaultKeys_kept
    | with_reducible refine State.vaultKeys_keptE (by with_reducible assumption) ?_ ?_
    | with_reducible refine State.vaultPut_keptE (by with_reducible assumption) ?_ ?_
    | with_reducible apply Kept.getD
    | with_reducible apply Kept.elim
    | (with_reducible apply Kept.foldl; intro _ _; try dsimp only)
    | split
    | (intro _ _; try dsimp only)
    | with_reducible apply Kept.mk_of
    | skip)

theorem State.startFetch_kept {W : List Fld} {s0 s : State}  (n : Nat) (o : VaultOp) (previous : Bool) (hk : Kept W s0 s) (hkw : [Fld.out, Fld.seats, Fld.vault, Fld.journal, Fld.port0, Fld.port1, Fld.pcie, Fld.recorder] ⊆ W) :
    Kept W s0 (State.startFetch s n o previous) := by
  unfold State.startFetch
  try dsimp only
  iterate 40 all_goals (first
    | with_reducible exact hk
    | with_reducible assumption
    | with_reducible exact Kept.refl _ _
    | with_reducible exact .inr rfl
    | (with_reducible exact List.Subset.trans (by decide) hkw)
    | (with_reducible exact .inl (Fld.mem_of hkw (by decide)))
    | (with_reducible apply Kept.ite <;> intro)
    | with_reducible apply State.endOp_kept
    | with_reducible apply State.setOp_kept
    | with_reducible apply State.vaultCount_kept
    | with_reducible refine State.vaultGet_keptE (by with_reducible assumption) ?_ ?_
    | with_reducible apply Kept.getD
    | with_reducible apply Kept.elim
    | (with_reducible apply Kept.foldl; intro _ _; try dsimp only)
    | split
    | (intro _ _; try dsimp only)
    | with_reducible apply Kept.mk_of
    | skip)

theorem State.advanceOp_kept {W : List Fld} {s0 s : State}  (n : Nat) (hk : Kept W s0 s) (hkw : [Fld.freeCtr, Fld.out, Fld.seats, Fld.keys, Fld.vault, Fld.journal, Fld.port0, Fld.port1, Fld.pcie, Fld.recorder] ⊆ W) :
    Kept W s0 (State.advanceOp s n) := by
  unfold State.advanceOp
  try dsimp only
  iterate 40 all_goals (first
    | with_reducible exact hk
    | with_reducible assumption
    | with_reducible exact Kept.refl _ _
    | with_reducible exact .inr rfl
    | (with_reducible exact List.Subset.trans (by decide) hkw)
    | (with_reducible exact .inl (Fld.mem_of hkw (by decide)))
    | (with_reducible apply Kept.ite <;> intro)
    | with_reducible apply State.endOp_kept
    | with_reducible apply State.modVault_kept
    | with_reducible apply State.setOp_kept
    | with_reducible apply State.startFetch_kept
    | with_reducible apply State.startPut_kept
    | with_reducible apply State.vaultCount_kept
    | with_reducible refine State.vaultGet_keptE (by with_reducible assumption) ?_ ?_
    | with_reducible apply Kept.getD
    | with_reducible apply Kept.elim
    | (with_reducible apply Kept.foldl; intro _ _; try dsimp only)
    | split
    | (intro _ _; try dsimp only)
    | with_reducible apply Kept.mk_of
    | skip)

theorem State.sendRepair_kept {W : List Fld} {s0 s : State}  (hk : Kept W s0 s) (hkw : [Fld.out, Fld.vault, Fld.port0, Fld.port1] ⊆ W) :
    Kept W s0 (State.sendRepair s) := by
  unfold State.sendRepair
  try dsimp only
  iterate 40 all_goals (first
    | with_reducible exact hk
    | with_reducible assumption
    | with_reducible exact Kept.refl _ _
    | with_reducible exact .inr rfl
    | (with_reducible exact List.Subset.trans (by decide) hkw)
    | (with_reducible exact .inl (Fld.mem_of hkw (by decide)))
    | (with_reducible apply Kept.ite <;> intro)
    | with_reducible apply State.modVault_kept
    | with_reducible refine State.vaultPut_keptE (by with_reducible assumption) ?_ ?_
    | with_reducible apply Kept.getD
    | with_reducible apply Kept.elim
    | (with_reducible apply Kept.foldl; intro _ _; try dsimp only)
    | split
    | (intro _ _; try dsimp only)
    | with_reducible apply Kept.mk_of
    | skip)

theorem State.repairNodes_kept {W : List Fld} {s0 s : State}  (nss : List (List NodeAt)) (hk : Kept W s0 s) (hkw : [Fld.out, Fld.vault, Fld.port0, Fld.port1] ⊆ W) :
    Kept W s0 (State.repairNodes s nss) := by
  simp only [List.cons_subset, List.nil_subset, and_true] at hkw
  unfold State.repairNodes
  repeat' (first | (simp (maxDischargeDepth := 40) only [hk, hkw, Kept.refl, Kept.mk_of, Kept.ite, Kept.foldl, List.cons_subset, List.nil_subset, List.mem_cons, List.mem_singleton, and_true, true_and, true_or, or_true, and_self, implies_true, not_false_eq_true, State.modVault_kept, State.sendRepair_kept]; done) | split)

theorem State.endFree_kept {W : List Fld} {s0 s : State}  (f : VaultFree) (treeKey : Bytes) (hk : Kept W s0 s) (hkw : [Fld.out, Fld.tenancy, Fld.vault, Fld.journal, Fld.pcie, Fld.recorder] ⊆ W) :
    Kept W s0 (State.endFree s f treeKey) := by
  unfold State.endFree
  try dsimp only
  iterate 40 all_goals (first
    | with_reducible exact hk
    | with_reducible assumption
    | with_reducible exact Kept.refl _ _
    | with_reducible exact .inr rfl
    | (with_reducible exact List.Subset.trans (by decide) hkw)
    | (with_reducible exact .inl (Fld.mem_of hkw (by decide)))
    | (with_reducible apply Kept.ite <;> intro)
    | with_reducible apply State.configured_kept
    | with_reducible apply State.finish_kept
    | with_reducible apply State.setPart_kept
    | with_reducible apply Kept.getD
    | with_reducible apply Kept.elim
    | (with_reducible apply Kept.foldl; intro _ _; try dsimp only)
    | split
    | (intro _ _; try dsimp only)
    | with_reducible apply Kept.mk_of
    | skip)

theorem State.startFree_kept {W : List Fld} {s0 s : State} (hk : Kept W s0 s) (hkw : [Fld.out, Fld.tenancy, Fld.keys, Fld.vault, Fld.journal, Fld.port0, Fld.port1, Fld.pcie, Fld.recorder] ⊆ W) : Kept W s0 (State.startFree s) := by
  have puts : ∀ (ms : List (List NodeAt)) (p : Option (State × List Word)), (∀ x, p = some x → Kept W s0 x.1) →
      ∀ x, ms.foldl (fun (a : Option (State × List Word)) m =>
        a.bind fun x => (x.1.vaultPut 0 [] m).map fun r => (r.1, x.2 ++ [r.2.1])) p = some x → Kept W s0 x.1 := by
    intro ms
    induction ms with
    | nil => exact fun p hp x hx => hp x hx
    | cons m r ih =>
      intro p hp x hx
      refine ih _ ?_ x hx
      intro y hy
      obtain ⟨q, hq, hy'⟩ := Option.bind_eq_some_iff.mp hy
      obtain ⟨w, hw, rfl⟩ := Option.map_eq_some_iff.mp hy'
      exact State.vaultPut_keptE (o := w.2) hw (hp q hq) (List.Subset.trans (by decide) hkw)
  have keys : Kept W s0 s.vaultKeys.1 := State.vaultKeys_kept hk (List.Subset.trans (by decide) hkw)
  unfold State.startFree
  split
  · exact hk
  · split
    · split
      · next e =>
        have hk' := keys
        rw [e] at hk'
        exact hk'
      · next e =>
        have hk' := keys
        rw [e] at hk'
        dsimp only
        split
        · exact State.endFree_kept _ _ hk' (List.Subset.trans (by decide) hkw)
        · split
          · next e =>
            exact State.modVault_kept _ (puts _ _ (fun x hx => by cases hx; exact hk') _ e) (List.Subset.trans (by decide) hkw)
          · exact State.finishLater_kept _ _ _ _ _ (State.modVault_kept _ hk' (List.Subset.trans (by decide) hkw))
              (List.Subset.trans (by decide) hkw)
    · exact hk

theorem State.vaultRun_kept {W : List Fld} {s0 s : State}  (hk : Kept W s0 s) (hkw : [Fld.freeCtr, Fld.out, Fld.seats, Fld.tenancy, Fld.keys, Fld.vault, Fld.journal, Fld.port0, Fld.port1, Fld.pcie, Fld.recorder] ⊆ W) :
    Kept W s0 (State.vaultRun s) := by
  simp only [List.cons_subset, List.nil_subset, and_true] at hkw
  unfold State.vaultRun
  repeat' (first | (simp (maxDischargeDepth := 40) only [hk, hkw, Kept.refl, Kept.mk_of, Kept.ite, Kept.foldl, List.cons_subset, List.nil_subset, List.mem_cons, List.mem_singleton, and_true, true_and, true_or, or_true, and_self, implies_true, not_false_eq_true, State.advanceOp_kept, State.sendRepair_kept, State.startFree_kept]; done) | split)

theorem State.vaultSubmit_kept {W : List Fld} {s0 s : State}  (o : VaultOp) (hk : Kept W s0 s) (hkw : [Fld.freeCtr, Fld.out, Fld.seats, Fld.tenancy, Fld.keys, Fld.vault, Fld.journal, Fld.port0, Fld.port1, Fld.pcie, Fld.recorder] ⊆ W) :
    Kept W s0 (State.vaultSubmit s o) := by
  simp only [List.cons_subset, List.nil_subset, and_true] at hkw
  unfold State.vaultSubmit
  repeat' (first | (simp (maxDischargeDepth := 40) only [hk, hkw, Kept.refl, Kept.mk_of, Kept.ite, Kept.foldl, List.cons_subset, List.nil_subset, List.mem_cons, List.mem_singleton, and_true, true_and, true_or, or_true, and_self, implies_true, not_false_eq_true, State.modVault_kept, State.vaultReply_kept, State.vaultRun_kept]; done) | split)

theorem State.outcomeReads_kept {W : List Fld} {s0 s : State}  (hk : Kept W s0 s) (hkw : [Fld.freeCtr, Fld.out, Fld.seats, Fld.tenancy, Fld.keys, Fld.vault, Fld.journal, Fld.port0, Fld.port1, Fld.pcie, Fld.recorder] ⊆ W) :
    Kept W s0 (State.outcomeReads s) := by
  simp only [List.cons_subset, List.nil_subset, and_true] at hkw
  unfold State.outcomeReads
  repeat' (first | (simp (maxDischargeDepth := 40) only [hk, hkw, Kept.refl, Kept.mk_of, Kept.ite, Kept.foldl, List.cons_subset, List.nil_subset, List.mem_cons, List.mem_singleton, and_true, true_and, true_or, or_true, and_self, implies_true, not_false_eq_true, State.modVault_kept, State.vaultRun_kept]; done) | split)

theorem State.installStored_kept {W : List Fld} (hkw : [Fld.out, Fld.seats, Fld.vault, Fld.journal, Fld.pcie, Fld.recorder] ⊆ W) (f : Nat) :
    ∀ (s0 s : State), Kept W s0 s → Kept W s0 (State.installStored f s) := by
  induction f with
  | zero => exact fun _ _ hk => hk
  | succ f ih =>
    intro s0 s hk
    rw [State.installStored]
    cases s.vault.oldestPut with
    | none => exact hk
    | some o =>
      refine Kept.ite (fun _ => ?_) (fun _ => hk)
      exact ih _ _ (State.endOp_kept _ _ _ _ _ (State.modVault_kept _ hk (List.Subset.trans (by decide) hkw)) (List.Subset.trans (by decide) hkw))

theorem State.settleStored_kept {W : List Fld} {s0 s : State} (hk : Kept W s0 s) (hkw : [Fld.out, Fld.seats, Fld.vault, Fld.journal, Fld.pcie, Fld.recorder] ⊆ W) : Kept W s0 (State.settleStored s) :=
  State.installStored_kept hkw _ s0 s hk

theorem State.putFailed_kept {W : List Fld} {s0 s : State}  (n : Nat) (o : VaultOp) (hk : Kept W s0 s) (hkw : [Fld.out, Fld.seats, Fld.vault, Fld.journal, Fld.port0, Fld.port1, Fld.pcie, Fld.recorder] ⊆ W) :
    Kept W s0 (State.putFailed s n o) := by
  unfold State.putFailed
  try dsimp only
  iterate 40 all_goals (first
    | with_reducible exact hk
    | with_reducible assumption
    | with_reducible exact Kept.refl _ _
    | with_reducible exact .inr rfl
    | (with_reducible exact List.Subset.trans (by decide) hkw)
    | (with_reducible exact .inl (Fld.mem_of hkw (by decide)))
    | (with_reducible apply Kept.ite <;> intro)
    | with_reducible apply State.endOp_kept
    | with_reducible apply State.modVault_kept
    | with_reducible apply State.repairNodes_kept
    | with_reducible apply Kept.getD
    | with_reducible apply Kept.elim
    | (with_reducible apply Kept.foldl; intro _ _; try dsimp only)
    | split
    | (intro _ _; try dsimp only)
    | with_reducible apply Kept.mk_of
    | skip)

theorem State.opNodeAgain_kept {W : List Fld} {s0 s : State}  (n : Nat) (o : VaultOp) (l i : Nat) (previous : Bool) (hk : Kept W s0 s) (hkw : [Fld.out, Fld.seats, Fld.tes, Fld.clusters, Fld.depot, Fld.vault, Fld.journal, Fld.port0, Fld.port1, Fld.pcie, Fld.cards, Fld.faults, Fld.recorder, Fld.power] ⊆ W) :
    Kept W s0 (State.opNodeAgain s n o l i previous) := by
  unfold State.opNodeAgain
  try dsimp only
  iterate 40 all_goals (first
    | with_reducible exact hk
    | with_reducible assumption
    | with_reducible exact Kept.refl _ _
    | with_reducible exact .inr rfl
    | (with_reducible exact List.Subset.trans (by decide) hkw)
    | (with_reducible exact .inl (Fld.mem_of hkw (by decide)))
    | (with_reducible apply Kept.ite <;> intro)
    | with_reducible apply State.endOp_kept
    | with_reducible apply State.integrityFail_kept
    | with_reducible apply State.setOp_kept
    | with_reducible apply State.vaultCount_kept
    | with_reducible refine State.vaultGet_keptE (by with_reducible assumption) ?_ ?_
    | with_reducible apply Kept.getD
    | with_reducible apply Kept.elim
    | (with_reducible apply Kept.foldl; intro _ _; try dsimp only)
    | split
    | (intro _ _; try dsimp only)
    | with_reducible apply Kept.mk_of
    | skip)

theorem State.opNode_kept {W : List Fld} {s0 s : State}  (n : Nat) (o : VaultOp) (l i : Nat) (previous : Bool) (node : Option Bytes) (hk : Kept W s0 s) (hkw : [Fld.out, Fld.seats, Fld.tes, Fld.clusters, Fld.depot, Fld.keys, Fld.vault, Fld.journal, Fld.port0, Fld.port1, Fld.pcie, Fld.cards, Fld.faults, Fld.recorder, Fld.power] ⊆ W) :
    Kept W s0 (State.opNode s n o l i previous node) := by
  unfold State.opNode
  try dsimp only
  iterate 40 all_goals (first
    | with_reducible exact hk
    | with_reducible assumption
    | with_reducible exact Kept.refl _ _
    | with_reducible exact .inr rfl
    | (with_reducible exact List.Subset.trans (by decide) hkw)
    | (with_reducible exact .inl (Fld.mem_of hkw (by decide)))
    | (with_reducible apply Kept.ite <;> intro)
    | with_reducible apply State.endOp_kept
    | with_reducible apply State.modVault_kept
    | with_reducible apply State.opNodeAgain_kept
    | with_reducible apply State.setOp_kept
    | with_reducible apply State.vaultKeys_kept
    | with_reducible refine State.vaultKeys_keptE (by with_reducible assumption) ?_ ?_
    | with_reducible apply Kept.getD
    | with_reducible apply Kept.elim
    | (with_reducible apply Kept.foldl; intro _ _; try dsimp only)
    | split
    | (intro _ _; try dsimp only)
    | with_reducible apply Kept.mk_of
    | skip)

theorem State.opVerified_kept {W : List Fld} {s0 s : State}  (n : Nat) (o : VaultOp) (version : Word) (unit : Bytes) (hk : Kept W s0 s) (hkw : [Fld.freeCtr, Fld.out, Fld.seats, Fld.keys, Fld.vault, Fld.journal, Fld.pcie, Fld.recorder] ⊆ W) :
    Kept W s0 (State.opVerified s n o version unit) := by
  unfold State.opVerified
  try dsimp only
  iterate 40 all_goals (first
    | with_reducible exact hk
    | with_reducible assumption
    | with_reducible exact Kept.refl _ _
    | with_reducible exact .inr rfl
    | (with_reducible exact List.Subset.trans (by decide) hkw)
    | (with_reducible exact .inl (Fld.mem_of hkw (by decide)))
    | (with_reducible apply Kept.ite <;> intro)
    | with_reducible apply State.drawn_kept
    | with_reducible apply State.endOp_kept
    | with_reducible apply State.extentKeys_kept
    | with_reducible refine State.extentKeys_keptE (by with_reducible assumption) ?_ ?_
    | with_reducible apply State.modVault_kept
    | with_reducible apply State.setOp_kept
    | with_reducible apply Kept.getD
    | with_reducible apply Kept.elim
    | (with_reducible apply Kept.foldl; intro _ _; try dsimp only)
    | split
    | (intro _ _; try dsimp only)
    | with_reducible apply Kept.mk_of
    | skip)

theorem State.opUnit_kept {W : List Fld} {s0 s : State}  (n : Nat) (o : VaultOp) (previous : Bool) (unit : Option Bytes) (hk : Kept W s0 s) (hkw : [Fld.freeCtr, Fld.out, Fld.seats, Fld.tes, Fld.clusters, Fld.depot, Fld.keys, Fld.vault, Fld.journal, Fld.port0, Fld.port1, Fld.pcie, Fld.cards, Fld.faults, Fld.recorder, Fld.power] ⊆ W) :
    Kept W s0 (State.opUnit s n o previous unit) := by
  unfold State.opUnit
  try dsimp only
  iterate 40 all_goals (first
    | with_reducible exact hk
    | with_reducible assumption
    | with_reducible exact Kept.refl _ _
    | with_reducible exact .inr rfl
    | (with_reducible exact List.Subset.trans (by decide) hkw)
    | (with_reducible exact .inl (Fld.mem_of hkw (by decide)))
    | (with_reducible apply Kept.ite <;> intro)
    | with_reducible apply State.endOp_kept
    | with_reducible apply State.integrityFail_kept
    | with_reducible apply State.opVerified_kept
    | with_reducible apply State.startFetch_kept
    | with_reducible apply State.vaultCount_kept
    | with_reducible apply State.vaultKeys_kept
    | with_reducible refine State.vaultKeys_keptE (by with_reducible assumption) ?_ ?_
    | with_reducible apply Kept.getD
    | with_reducible apply Kept.elim
    | (with_reducible apply Kept.foldl; intro _ _; try dsimp only)
    | split
    | (intro _ _; try dsimp only)
    | with_reducible apply Kept.mk_of
    | skip)

theorem State.vaultReload_kept {W : List Fld} {s0 s : State}  (hk : Kept W s0 s) (hkw : [Fld.out, Fld.vault, Fld.port0, Fld.port1] ⊆ W) :
    Kept W s0 (State.vaultReload s) := by
  unfold State.vaultReload
  try dsimp only
  iterate 40 all_goals (first
    | with_reducible exact hk
    | with_reducible assumption
    | with_reducible exact Kept.refl _ _
    | with_reducible exact .inr rfl
    | (with_reducible exact List.Subset.trans (by decide) hkw)
    | (with_reducible exact .inl (Fld.mem_of hkw (by decide)))
    | (with_reducible apply Kept.ite <;> intro)
    | with_reducible refine State.vaultGet_keptE (by with_reducible assumption) ?_ ?_
    | with_reducible apply Kept.getD
    | with_reducible apply Kept.elim
    | (with_reducible apply Kept.foldl; intro _ _; try dsimp only)
    | split
    | (intro _ _; try dsimp only)
    | with_reducible apply Kept.mk_of
    | skip)

theorem State.reloadAnswer_kept {W : List Fld} {s0 s : State}  (r : VaultReq) (node : Option Bytes) (hk : Kept W s0 s) (hkw : [Fld.freeCtr, Fld.out, Fld.seats, Fld.tenancy, Fld.keys, Fld.vault, Fld.journal, Fld.port0, Fld.port1, Fld.pcie, Fld.recorder] ⊆ W) :
    Kept W s0 (State.reloadAnswer s r node) := by
  unfold State.reloadAnswer
  try dsimp only
  iterate 40 all_goals (first
    | with_reducible exact hk
    | with_reducible assumption
    | with_reducible exact Kept.refl _ _
    | with_reducible exact .inr rfl
    | (with_reducible exact List.Subset.trans (by decide) hkw)
    | (with_reducible exact .inl (Fld.mem_of hkw (by decide)))
    | (with_reducible apply Kept.ite <;> intro)
    | with_reducible apply State.modVault_kept
    | with_reducible apply State.outcomeReads_kept
    | with_reducible refine State.vaultGet_keptE (by with_reducible assumption) ?_ ?_
    | with_reducible apply State.vaultKeys_kept
    | with_reducible refine State.vaultKeys_keptE (by with_reducible assumption) ?_ ?_
    | with_reducible apply Kept.getD
    | with_reducible apply Kept.elim
    | (with_reducible apply Kept.foldl; intro _ _; try dsimp only)
    | split
    | (intro _ _; try dsimp only)
    | with_reducible apply Kept.mk_of
    | skip)

theorem State.recoverAnswer_kept {W : List Fld} {s0 s : State}  (c : Cmd) (node : Option Bytes) (hk : Kept W s0 s) (hkw : [Fld.freeCtr, Fld.out, Fld.seats, Fld.tenancy, Fld.keys, Fld.vault, Fld.journal, Fld.port0, Fld.port1, Fld.pcie, Fld.recorder] ⊆ W) :
    Kept W s0 (State.recoverAnswer s c node) := by
  unfold State.recoverAnswer
  try dsimp only
  iterate 40 all_goals (first
    | with_reducible exact hk
    | with_reducible assumption
    | with_reducible exact Kept.refl _ _
    | with_reducible exact .inr rfl
    | (with_reducible exact List.Subset.trans (by decide) hkw)
    | (with_reducible exact .inl (Fld.mem_of hkw (by decide)))
    | (with_reducible apply Kept.ite <;> intro)
    | with_reducible apply State.finishLater_kept
    | with_reducible apply State.modVault_kept
    | with_reducible apply State.outcomeReads_kept
    | with_reducible apply State.vaultKeys_kept
    | with_reducible refine State.vaultKeys_keptE (by with_reducible assumption) ?_ ?_
    | with_reducible apply Kept.getD
    | with_reducible apply Kept.elim
    | (with_reducible apply Kept.foldl; intro _ _; try dsimp only)
    | split
    | (intro _ _; try dsimp only)
    | with_reducible apply Kept.mk_of
    | skip)

theorem State.refillStep_kept {W : List Fld} {s0 s : State}  (hk : Kept W s0 s) (hkw : [Fld.freeCtr, Fld.out, Fld.seats, Fld.tenancy, Fld.keys, Fld.vault, Fld.journal, Fld.port0, Fld.port1, Fld.pcie, Fld.recorder] ⊆ W) :
    Kept W s0 (State.refillStep s) := by
  unfold State.refillStep
  try dsimp only
  iterate 40 all_goals (first
    | with_reducible exact hk
    | with_reducible assumption
    | with_reducible exact Kept.refl _ _
    | with_reducible exact .inr rfl
    | (with_reducible exact List.Subset.trans (by decide) hkw)
    | (with_reducible exact .inl (Fld.mem_of hkw (by decide)))
    | (with_reducible apply Kept.ite <;> intro)
    | with_reducible apply State.modVault_kept
    | with_reducible refine State.vaultGet_keptE (by with_reducible assumption) ?_ ?_
    | with_reducible apply State.vaultRun_kept
    | with_reducible apply Kept.getD
    | with_reducible apply Kept.elim
    | (with_reducible apply Kept.foldl; intro _ _; try dsimp only)
    | split
    | (intro _ _; try dsimp only)
    | with_reducible apply Kept.mk_of
    | skip)

theorem State.refillAnswer_kept {W : List Fld} {s0 s : State}  (r : VaultReq) (node : Option Bytes) (hk : Kept W s0 s) (hkw : [Fld.out, Fld.tes, Fld.clusters, Fld.depot, Fld.keys, Fld.vault, Fld.journal, Fld.port0, Fld.port1, Fld.pcie, Fld.cards, Fld.faults, Fld.recorder, Fld.power] ⊆ W) :
    Kept W s0 (State.refillAnswer s r node) := by
  unfold State.refillAnswer
  try dsimp only
  iterate 40 all_goals (first
    | with_reducible exact hk
    | with_reducible assumption
    | with_reducible exact Kept.refl _ _
    | with_reducible exact .inr rfl
    | (with_reducible exact List.Subset.trans (by decide) hkw)
    | (with_reducible exact .inl (Fld.mem_of hkw (by decide)))
    | (with_reducible apply Kept.ite <;> intro)
    | with_reducible apply State.fault_kept
    | with_reducible apply State.modVault_kept
    | with_reducible apply State.vaultCount_kept
    | with_reducible refine State.vaultGet_keptE (by with_reducible assumption) ?_ ?_
    | with_reducible apply State.vaultKeys_kept
    | with_reducible refine State.vaultKeys_keptE (by with_reducible assumption) ?_ ?_
    | with_reducible apply Kept.getD
    | with_reducible apply Kept.elim
    | (with_reducible apply Kept.foldl; intro _ _; try dsimp only)
    | split
    | (intro _ _; try dsimp only)
    | with_reducible apply Kept.mk_of
    | skip)

theorem State.abandonFree_kept {W : List Fld} {s0 s : State}  (hk : Kept W s0 s) (hkw : [Fld.out, Fld.vault, Fld.journal, Fld.port0, Fld.port1, Fld.pcie, Fld.recorder] ⊆ W) :
    Kept W s0 (State.abandonFree s) := by
  simp only [List.cons_subset, List.nil_subset, and_true] at hkw
  unfold State.abandonFree
  repeat' (first | (simp (maxDischargeDepth := 40) only [hk, hkw, Kept.refl, Kept.mk_of, Kept.ite, Kept.foldl, List.cons_subset, List.nil_subset, List.mem_cons, List.mem_singleton, and_true, true_and, true_or, or_true, and_self, implies_true, not_false_eq_true, State.finishLater_kept, State.modVault_kept, State.repairNodes_kept]; done) | split)

theorem State.freeStored_kept {W : List Fld} {s0 s : State}  (id : Word) (hk : Kept W s0 s) (hkw : [Fld.out, Fld.tenancy, Fld.keys, Fld.vault, Fld.journal, Fld.pcie, Fld.recorder] ⊆ W) :
    Kept W s0 (State.freeStored s id) := by
  unfold State.freeStored
  try dsimp only
  iterate 40 all_goals (first
    | with_reducible exact hk
    | with_reducible assumption
    | with_reducible exact Kept.refl _ _
    | with_reducible exact .inr rfl
    | (with_reducible exact List.Subset.trans (by decide) hkw)
    | (with_reducible exact .inl (Fld.mem_of hkw (by decide)))
    | (with_reducible apply Kept.ite <;> intro)
    | with_reducible apply State.endFree_kept
    | with_reducible apply State.modVault_kept
    | with_reducible apply State.vaultKeys_kept
    | with_reducible refine State.vaultKeys_keptE (by with_reducible assumption) ?_ ?_
    | with_reducible apply Kept.getD
    | with_reducible apply Kept.elim
    | (with_reducible apply Kept.foldl; intro _ _; try dsimp only)
    | split
    | (intro _ _; try dsimp only)
    | with_reducible apply Kept.mk_of
    | skip)

theorem State.repairStored_kept {W : List Fld} {s0 s : State}  (hk : Kept W s0 s) (hkw : [Fld.vault] ⊆ W) :
    Kept W s0 (State.repairStored s) := by
  simp only [List.cons_subset, List.nil_subset, and_true] at hkw
  unfold State.repairStored
  repeat' (first | (simp (maxDischargeDepth := 40) only [hk, hkw, Kept.refl, Kept.mk_of, Kept.ite, Kept.foldl, List.cons_subset, List.nil_subset, List.mem_cons, List.mem_singleton, and_true, true_and, true_or, or_true, and_self, implies_true, not_false_eq_true, State.modVault_kept]; done) | split)

theorem State.repairFailed_kept {W : List Fld} {s0 s : State}  (hk : Kept W s0 s) (hkw : [Fld.out, Fld.vault, Fld.port0, Fld.port1] ⊆ W) :
    Kept W s0 (State.repairFailed s) := by
  simp only [List.cons_subset, List.nil_subset, and_true] at hkw
  unfold State.repairFailed
  repeat' (first | (simp (maxDischargeDepth := 40) only [hk, hkw, Kept.refl, Kept.mk_of, Kept.ite, Kept.foldl, List.cons_subset, List.nil_subset, List.mem_cons, List.mem_singleton, and_true, true_and, true_or, or_true, and_self, implies_true, not_false_eq_true, State.modVault_kept, State.sendRepair_kept]; done) | split)

theorem State.vaultAnswered_kept {W : List Fld} {s0 s : State}  (r : VaultReq) (status : Nat) (payload : Bytes) (hk : Kept W s0 s) (hkw : [Fld.freeCtr, Fld.out, Fld.seats, Fld.tes, Fld.clusters, Fld.depot, Fld.tenancy, Fld.keys, Fld.vault, Fld.journal, Fld.port0, Fld.port1, Fld.pcie, Fld.cards, Fld.faults, Fld.recorder, Fld.power] ⊆ W) :
    Kept W s0 (State.vaultAnswered s r status payload) := by
  unfold State.vaultAnswered
  try dsimp only
  iterate 40 all_goals (first
    | with_reducible exact hk
    | with_reducible assumption
    | with_reducible exact Kept.refl _ _
    | with_reducible exact .inr rfl
    | (with_reducible exact List.Subset.trans (by decide) hkw)
    | (with_reducible exact .inl (Fld.mem_of hkw (by decide)))
    | (with_reducible apply Kept.ite <;> intro)
    | with_reducible apply State.abandonFree_kept
    | with_reducible apply State.freeStored_kept
    | with_reducible apply State.modVault_kept
    | with_reducible apply State.opNode_kept
    | with_reducible apply State.opUnit_kept
    | with_reducible apply State.putFailed_kept
    | with_reducible apply State.recoverAnswer_kept
    | with_reducible apply State.refillAnswer_kept
    | with_reducible apply State.reloadAnswer_kept
    | with_reducible apply State.repairFailed_kept
    | with_reducible apply State.repairStored_kept
    | with_reducible apply State.setOp_kept
    | with_reducible apply State.settleStored_kept
    | with_reducible apply State.vaultCount_kept
    | with_reducible apply Kept.getD
    | with_reducible apply Kept.elim
    | (with_reducible apply Kept.foldl; intro _ _; try dsimp only)
    | split
    | (intro _ _; try dsimp only)
    | with_reducible apply Kept.mk_of
    | skip)

theorem State.vaultAnswer_keptE {W : List Fld} {s0 s zz : State}  {id : Word} {status : Nat} {payload : Bytes} (eq : State.vaultAnswer s id status payload = some zz) (hk : Kept W s0 s) (hkw : [Fld.freeCtr, Fld.out, Fld.seats, Fld.tes, Fld.clusters, Fld.depot, Fld.tenancy, Fld.keys, Fld.vault, Fld.journal, Fld.port0, Fld.port1, Fld.pcie, Fld.cards, Fld.faults, Fld.recorder, Fld.power] ⊆ W) :
    Kept W s0 zz := by
  unfold State.vaultAnswer at eq
  try dsimp only at eq
  repeat' split at eq
  all_goals first | (cases eq; done) | skip
  all_goals (try simp only [Option.some.injEq, Prod.mk.injEq] at eq; first | subst eq | (obtain ⟨e1, e2⟩ := eq; first | subst e1 | skip; first | subst e2 | skip))
  try dsimp only
  iterate 40 all_goals (first
    | with_reducible exact hk
    | with_reducible assumption
    | with_reducible exact Kept.refl _ _
    | with_reducible exact .inr rfl
    | (with_reducible exact List.Subset.trans (by decide) hkw)
    | (with_reducible exact .inl (Fld.mem_of hkw (by decide)))
    | (with_reducible apply Kept.ite <;> intro)
    | with_reducible apply State.modVault_kept
    | with_reducible apply State.vaultAnswered_kept
    | with_reducible apply State.vaultRun_kept
    | with_reducible apply Kept.getD
    | with_reducible apply Kept.elim
    | (with_reducible apply Kept.foldl; intro _ _; try dsimp only)
    | split
    | (intro _ _; try dsimp only)
    | with_reducible apply Kept.mk_of
    | skip)

theorem State.vaultTimedOut_kept {W : List Fld} {s0 s : State}  (r : VaultReq) (hk : Kept W s0 s) (hkw : [Fld.out, Fld.seats, Fld.vault, Fld.journal, Fld.port0, Fld.port1, Fld.pcie, Fld.recorder] ⊆ W) :
    Kept W s0 (State.vaultTimedOut s r) := by
  unfold State.vaultTimedOut
  try dsimp only
  iterate 40 all_goals (first
    | with_reducible exact hk
    | with_reducible assumption
    | with_reducible exact Kept.refl _ _
    | with_reducible exact .inr rfl
    | (with_reducible exact List.Subset.trans (by decide) hkw)
    | (with_reducible exact .inl (Fld.mem_of hkw (by decide)))
    | (with_reducible apply Kept.ite <;> intro)
    | with_reducible apply State.abandonFree_kept
    | with_reducible apply State.endOp_kept
    | with_reducible apply State.finishLater_kept
    | with_reducible apply State.modVault_kept
    | with_reducible apply State.putFailed_kept
    | with_reducible apply State.repairFailed_kept
    | with_reducible apply Kept.getD
    | with_reducible apply Kept.elim
    | (with_reducible apply Kept.foldl; intro _ _; try dsimp only)
    | split
    | (intro _ _; try dsimp only)
    | with_reducible apply Kept.mk_of
    | skip)

theorem State.vaultTimeout_kept {W : List Fld} {s0 s : State}  (id : Word) (hk : Kept W s0 s) (hkw : [Fld.freeCtr, Fld.out, Fld.seats, Fld.tenancy, Fld.keys, Fld.vault, Fld.journal, Fld.port0, Fld.port1, Fld.pcie, Fld.recorder] ⊆ W) :
    Kept W s0 (State.vaultTimeout s id) := by
  unfold State.vaultTimeout
  try dsimp only
  iterate 40 all_goals (first
    | with_reducible exact hk
    | with_reducible assumption
    | with_reducible exact Kept.refl _ _
    | with_reducible exact .inr rfl
    | (with_reducible exact List.Subset.trans (by decide) hkw)
    | (with_reducible exact .inl (Fld.mem_of hkw (by decide)))
    | (with_reducible apply Kept.ite <;> intro)
    | with_reducible apply State.modVault_kept
    | with_reducible apply State.vaultCount_kept
    | with_reducible apply State.vaultMsg_kept
    | with_reducible apply State.vaultRun_kept
    | with_reducible apply State.vaultTimedOut_kept
    | with_reducible apply Kept.getD
    | with_reducible apply Kept.elim
    | (with_reducible apply Kept.foldl; intro _ _; try dsimp only)
    | split
    | (intro _ _; try dsimp only)
    | with_reducible apply Kept.mk_of
    | skip)

theorem State.forgetUnits_kept {W : List Fld} {s0 s : State}  (hk : Kept W s0 s) (hkw : [Fld.journal] ⊆ W) :
    Kept W s0 (State.forgetUnits s) := by
  simp only [List.cons_subset, List.nil_subset, and_true] at hkw
  unfold State.forgetUnits
  repeat' (first | (simp (maxDischargeDepth := 40) only [hk, hkw, Kept.refl, Kept.mk_of, Kept.ite, Kept.foldl, List.cons_subset, List.nil_subset, List.mem_cons, List.mem_singleton, and_true, true_and, true_or, or_true, and_self, implies_true, not_false_eq_true]; done) | split)

theorem State.vaultLost_kept {W : List Fld} {s0 s : State}  (hk : Kept W s0 s) (hkw : [Fld.out, Fld.seats, Fld.vault, Fld.journal, Fld.pcie, Fld.recorder] ⊆ W) :
    Kept W s0 (State.vaultLost s) := by
  unfold State.vaultLost
  try dsimp only
  iterate 40 all_goals (first
    | with_reducible exact hk
    | with_reducible assumption
    | with_reducible exact Kept.refl _ _
    | with_reducible exact .inr rfl
    | (with_reducible exact List.Subset.trans (by decide) hkw)
    | (with_reducible exact .inl (Fld.mem_of hkw (by decide)))
    | (with_reducible apply Kept.ite <;> intro)
    | with_reducible apply State.forgetUnits_kept
    | with_reducible apply State.modVault_kept
    | with_reducible apply State.vaultReply_kept
    | with_reducible apply Kept.getD
    | with_reducible apply Kept.elim
    | (with_reducible apply Kept.foldl; intro _ _; try dsimp only)
    | split
    | (intro _ _; try dsimp only)
    | with_reducible apply Kept.mk_of
    | skip)

theorem State.kbExport_kept {W : List Fld} {s0 s : State}  (w k : Key) (hk : Kept W s0 s) (hkw : [Fld.freeCtr] ⊆ W) :
    Kept W s0 (State.kbExport s w k).2 := by
  unfold State.kbExport
  try dsimp only
  iterate 40 all_goals (first
    | with_reducible exact hk
    | with_reducible assumption
    | with_reducible exact Kept.refl _ _
    | with_reducible exact .inr rfl
    | (with_reducible exact List.Subset.trans (by decide) hkw)
    | (with_reducible exact .inl (Fld.mem_of hkw (by decide)))
    | (with_reducible apply Kept.ite <;> intro)
    | with_reducible apply State.drawnBytes_kept
    | with_reducible apply Kept.getD
    | with_reducible apply Kept.elim
    | (with_reducible apply Kept.foldl; intro _ _; try dsimp only)
    | split
    | (intro _ _; try dsimp only)
    | with_reducible apply Kept.mk_of
    | skip)

theorem State.kbExport_keptE {W : List Fld} {s0 s zz : State}  {w k : Key} {o : Bytes} (eq : State.kbExport s w k = (o, zz)) (hk : Kept W s0 s) (hkw : [Fld.freeCtr] ⊆ W) : Kept W s0 zz := by
  have hp := State.kbExport_kept (W := W) w k hk hkw
  rw [eq] at hp
  exact hp

theorem State.loadSlot_kept {W : List Fld} {s0 s : State}  (u : SeatRef) (t : Seat) (k : Fin 8) (key : Key) (hk : Kept W s0 s) (hkw : [Fld.tes] ⊆ W) :
    Kept W s0 (State.loadSlot s u t k key).1 := by
  unfold State.loadSlot
  try dsimp only
  iterate 40 all_goals (first
    | with_reducible exact hk
    | with_reducible assumption
    | with_reducible exact Kept.refl _ _
    | with_reducible exact .inr rfl
    | (with_reducible exact List.Subset.trans (by decide) hkw)
    | (with_reducible exact .inl (Fld.mem_of hkw (by decide)))
    | (with_reducible apply Kept.ite <;> intro)
    | with_reducible apply State.fillSlot_kept
    | with_reducible refine State.fillSlot_keptE (by with_reducible assumption) ?_ ?_
    | with_reducible apply Kept.getD
    | with_reducible apply Kept.elim
    | (with_reducible apply Kept.foldl; intro _ _; try dsimp only)
    | split
    | (intro _ _; try dsimp only)
    | with_reducible apply Kept.mk_of
    | skip)

theorem State.loadSlot_keptE {W : List Fld} {s0 s zz : State}  {u : SeatRef} {t : Seat} {k : Fin 8} {key : Key} {o : Seat} (eq : State.loadSlot s u t k key = (zz, o)) (hk : Kept W s0 s) (hkw : [Fld.tes] ⊆ W) : Kept W s0 zz := by
  have hp := State.loadSlot_kept (W := W) u t k key hk hkw
  rw [eq] at hp
  exact hp

theorem State.keyStore_kept {W : List Fld} {s0 s : State}  (c : Colour) (h : Word) (x : Slot) (hk : Kept W s0 s) (hkw : [Fld.freeCtr, Fld.clusters, Fld.keys, Fld.entropy] ⊆ W) :
    Kept W s0 (State.keyStore s c h x).2 := by
  unfold State.keyStore
  try dsimp only
  iterate 40 all_goals (first
    | with_reducible exact hk
    | with_reducible assumption
    | with_reducible exact Kept.refl _ _
    | with_reducible exact .inr rfl
    | (with_reducible exact List.Subset.trans (by decide) hkw)
    | (with_reducible exact .inl (Fld.mem_of hkw (by decide)))
    | (with_reducible apply Kept.ite <;> intro)
    | with_reducible apply State.drawn_kept
    | with_reducible refine State.makeRecord_keptE (by with_reducible assumption) ?_ ?_
    | with_reducible apply Kept.getD
    | with_reducible apply Kept.elim
    | (with_reducible apply Kept.foldl; intro _ _; try dsimp only)
    | split
    | (intro _ _; try dsimp only)
    | with_reducible apply Kept.mk_of
    | skip)

theorem State.keyStore_keptE {W : List Fld} {s0 s zz : State}  {c : Colour} {h : Word} {x : Slot} {o : Word} (eq : State.keyStore s c h x = (o, zz)) (hk : Kept W s0 s) (hkw : [Fld.freeCtr, Fld.clusters, Fld.keys, Fld.entropy] ⊆ W) : Kept W s0 zz := by
  have hp := State.keyStore_kept (W := W) c h x hk hkw
  rw [eq] at hp
  exact hp

theorem State.takeRandom_keptE {W : List Fld} {s0 s zz : State} {x : Nat} {o : Word} (e : s.takeRandom x = some (o, zz)) (hk : Kept W s0 s)
    (hkw : [Fld.clusters, Fld.entropy] ⊆ W) : Kept W s0 zz := by
  unfold State.takeRandom at e
  dsimp only at e
  split at e
  · cases e
  · cases e
    exact State.setExpander_kept _ _ hk (List.Subset.trans (by decide) hkw)

theorem State.takeBytes_kept {W : List Fld} {s0 s : State}  (e n : Nat) (hk : Kept W s0 s) (hkw : [Fld.clusters, Fld.entropy] ⊆ W) :
    Kept W s0 (State.takeBytes s e n).2 := by
  unfold State.takeBytes
  try dsimp only
  iterate 40 all_goals (first
    | with_reducible exact hk
    | with_reducible assumption
    | with_reducible exact Kept.refl _ _
    | with_reducible exact .inr rfl
    | (with_reducible exact List.Subset.trans (by decide) hkw)
    | (with_reducible exact .inl (Fld.mem_of hkw (by decide)))
    | (with_reducible apply Kept.ite <;> intro)
    | with_reducible apply State.setExpander_kept
    | with_reducible apply Kept.getD
    | with_reducible apply Kept.elim
    | (with_reducible apply Kept.foldl; intro _ _; try dsimp only)
    | split
    | (intro _ _; try dsimp only)
    | with_reducible apply Kept.mk_of
    | skip)

theorem State.takeBytes_keptE {W : List Fld} {s0 s zz : State}  {e n : Nat} {o : Bytes} (eq : State.takeBytes s e n = (o, zz)) (hk : Kept W s0 s) (hkw : [Fld.clusters, Fld.entropy] ⊆ W) : Kept W s0 zz := by
  have hp := State.takeBytes_kept (W := W) e n hk hkw
  rw [eq] at hp
  exact hp

theorem State.askDraw_kept {W : List Fld} {s0 s : State}  (e : Nat) (hk : Kept W s0 s) (hkw : [Fld.entropy] ⊆ W) :
    Kept W s0 (State.askDraw s e) := by
  simp only [List.cons_subset, List.nil_subset, and_true] at hkw
  unfold State.askDraw
  repeat' (first | (simp (maxDischargeDepth := 40) only [hk, hkw, Kept.refl, Kept.mk_of, Kept.ite, Kept.foldl, List.cons_subset, List.nil_subset, List.mem_cons, List.mem_singleton, and_true, true_and, true_or, or_true, and_self, implies_true, not_false_eq_true]; done) | split)

theorem State.seedExpander_kept {W : List Fld} {s0 s : State}  (e : Nat) (hk : Kept W s0 s) (hkw : [Fld.clusters, Fld.entropy] ⊆ W) :
    Kept W s0 (State.seedExpander s e) := by
  simp only [List.cons_subset, List.nil_subset, and_true] at hkw
  unfold State.seedExpander
  repeat' (first | (simp (maxDischargeDepth := 40) only [hk, hkw, Kept.refl, Kept.mk_of, Kept.ite, Kept.foldl, List.cons_subset, List.nil_subset, List.mem_cons, List.mem_singleton, and_true, true_and, true_or, or_true, and_self, implies_true, not_false_eq_true, State.askDraw_kept, State.setExpander_kept]; done) | split)

theorem State.suspendSeat_kept {W : List Fld} {s0 s : State}  (u : SeatRef) (hk : Kept W s0 s) (hkw : [Fld.freeCtr, Fld.mem, Fld.seats, Fld.tes, Fld.depot] ⊆ W) :
    Kept W s0 (State.suspendSeat s u) := by
  simp only [List.cons_subset, List.nil_subset, and_true] at hkw
  unfold State.suspendSeat
  repeat' (first | (simp (maxDischargeDepth := 40) only [hk, hkw, Kept.refl, Kept.mk_of, Kept.ite, Kept.foldl, List.cons_subset, List.nil_subset, List.mem_cons, List.mem_singleton, and_true, true_and, true_or, or_true, and_self, implies_true, not_false_eq_true, State.clearSeat_kept, State.drawnBytes_kept, State.resumeOther_kept]; done) | split)

theorem State.vaultYield_kept {W : List Fld} {s0 s : State}  (u : SeatRef) (hk : Kept W s0 s) (hkw : [Fld.mem, Fld.seats, Fld.tes] ⊆ W) :
    Kept W s0 (State.vaultYield s u) := by
  simp only [List.cons_subset, List.nil_subset, and_true] at hkw
  unfold State.vaultYield
  repeat' (first | (simp (maxDischargeDepth := 40) only [hk, hkw, Kept.refl, Kept.mk_of, Kept.ite, Kept.foldl, List.cons_subset, List.nil_subset, List.mem_cons, List.mem_singleton, and_true, true_and, true_or, or_true, and_self, implies_true, not_false_eq_true, State.seatChange_kept]; done) | split)

theorem State.takeReply_kept {W : List Fld} {s0 s : State}  (u : SeatRef) (t : Seat) (w : VaultWait) (r : VaultReply) (hk : Kept W s0 s) (hkw : [Fld.freeCtr, Fld.mem, Fld.seats] ⊆ W) :
    Kept W s0 (State.takeReply s u t w r) := by
  simp only [List.cons_subset, List.nil_subset, and_true] at hkw
  unfold State.takeReply
  repeat' (first | (simp (maxDischargeDepth := 40) only [hk, hkw, Kept.refl, Kept.mk_of, Kept.ite, Kept.foldl, List.cons_subset, List.nil_subset, List.mem_cons, List.mem_singleton, and_true, true_and, true_or, or_true, and_self, implies_true, not_false_eq_true, State.drawn_kept, State.setSeat_kept, State.store_kept]; done) | split)

theorem State.makeCurrent_kept {W : List Fld} {s0 s : State}  (u : SeatRef) (hk : Kept W s0 s) (hkw : [Fld.mem, Fld.tes] ⊆ W) :
    Kept W s0 (State.makeCurrent s u) := by
  simp only [List.cons_subset, List.nil_subset, and_true] at hkw
  unfold State.makeCurrent
  repeat' (first | (simp (maxDischargeDepth := 40) only [hk, hkw, Kept.refl, Kept.mk_of, Kept.ite, Kept.foldl, List.cons_subset, List.nil_subset, List.mem_cons, List.mem_singleton, and_true, true_and, true_or, or_true, and_self, implies_true, not_false_eq_true, State.enterSeat_kept]; done) | split)

theorem State.serveReader_kept {W : List Fld} {s0 s : State}  (e : Nat) (hk : Kept W s0 s) (hkw : [Fld.freeCtr, Fld.seats, Fld.clusters, Fld.entropy] ⊆ W) :
    Kept W s0 (State.serveReader s e) := by
  unfold State.serveReader
  try dsimp only
  iterate 40 all_goals (first
    | with_reducible exact hk
    | with_reducible assumption
    | with_reducible exact Kept.refl _ _
    | with_reducible exact .inr rfl
    | (with_reducible exact List.Subset.trans (by decide) hkw)
    | (with_reducible exact .inl (Fld.mem_of hkw (by decide)))
    | (with_reducible apply Kept.ite <;> intro)
    | with_reducible apply State.fetch_kept
    | with_reducible apply State.setExpander_kept
    | with_reducible refine State.takeRandom_keptE (by with_reducible assumption) ?_ ?_
    | with_reducible apply Kept.getD
    | with_reducible apply Kept.elim
    | (with_reducible apply Kept.foldl; intro _ _; try dsimp only)
    | split
    | (intro _ _; try dsimp only)
    | with_reducible apply Kept.mk_of
    | skip)

theorem State.payOutcomes_kept {W : List Fld} {s0 s : State}  (d : Desc) (hk : Kept W s0 s) (hkw : [Fld.journal] ⊆ W) :
    Kept W s0 (State.payOutcomes s d) := by
  simp only [List.cons_subset, List.nil_subset, and_true] at hkw
  unfold State.payOutcomes
  repeat' (first | (simp (maxDischargeDepth := 40) only [hk, hkw, Kept.refl, Kept.mk_of, Kept.ite, Kept.foldl, List.cons_subset, List.nil_subset, List.mem_cons, List.mem_singleton, and_true, true_and, true_or, or_true, and_self, implies_true, not_false_eq_true, State.writeOutcome_kept]; done) | split)

theorem State.enqueue_keptE {W : List Fld} {s0 s zz : State} {d : Desc} {payload : Bytes} {stream : Option (Nat × Nat × Nat)} {units : Nat}
    (e : s.enqueue d payload stream units = some zz) (hk : Kept W s0 s) (hkw : [Fld.lanes, Fld.depot] ⊆ W) : Kept W s0 zz := by
  obtain ⟨k, _, rfl⟩ := Option.map_eq_some_iff.mp e
  try dsimp only
  iterate 40 all_goals (first
    | with_reducible exact hk
    | with_reducible assumption
    | with_reducible exact Kept.refl _ _
    | with_reducible exact .inr rfl
    | (with_reducible exact List.Subset.trans (by decide) hkw)
    | (with_reducible exact .inl (Fld.mem_of hkw (by decide)))
    | (with_reducible apply Kept.ite <;> intro)
    | with_reducible apply State.setLane_kept
    | with_reducible apply Kept.getD
    | with_reducible apply Kept.elim
    | (with_reducible apply Kept.foldl; intro _ _; try dsimp only)
    | split
    | (intro _ _; try dsimp only)
    | with_reducible apply Kept.mk_of
    | skip)

theorem State.dropItem_kept {W : List Fld} {s0 s : State}  (n : Nat) (hk : Kept W s0 s) (hkw : [Fld.depot] ⊆ W) :
    Kept W s0 (State.dropItem s n) := by
  simp only [List.cons_subset, List.nil_subset, and_true] at hkw
  unfold State.dropItem
  repeat' (first | (simp (maxDischargeDepth := 40) only [hk, hkw, Kept.refl, Kept.mk_of, Kept.ite, Kept.foldl, List.cons_subset, List.nil_subset, List.mem_cons, List.mem_singleton, and_true, true_and, true_or, or_true, and_self, implies_true, not_false_eq_true]; done) | split)

theorem State.placeShare_kept {W : List Fld} {s0 s : State}  (c : Nat) (col : Colour) (hk : Kept W s0 s) (hkw : [Fld.mem, Fld.clusters] ⊆ W) :
    Kept W s0 (State.placeShare s c col) := by
  unfold State.placeShare
  try dsimp only
  iterate 40 all_goals (first
    | with_reducible exact hk
    | with_reducible assumption
    | with_reducible exact Kept.refl _ _
    | with_reducible exact .inr rfl
    | (with_reducible exact List.Subset.trans (by decide) hkw)
    | (with_reducible exact .inl (Fld.mem_of hkw (by decide)))
    | (with_reducible apply Kept.ite <;> intro)
    | with_reducible apply State.setCluster_kept
    | with_reducible apply State.store_kept
    | with_reducible apply Kept.getD
    | with_reducible apply Kept.elim
    | (with_reducible apply Kept.foldl; intro _ _; try dsimp only)
    | split
    | (intro _ _; try dsimp only)
    | with_reducible apply Kept.mk_of
    | skip)

theorem State.place_kept {W : List Fld} {s0 s : State}  (l c : Nat) (hk : Kept W s0 s) (hkw : [Fld.mem, Fld.clusters, Fld.lanes] ⊆ W) :
    Kept W s0 (State.place s l c) := by
  simp only [List.cons_subset, List.nil_subset, and_true] at hkw
  unfold State.place
  repeat' (first | (simp (maxDischargeDepth := 40) only [hk, hkw, Kept.refl, Kept.mk_of, Kept.ite, Kept.foldl, List.cons_subset, List.nil_subset, List.mem_cons, List.mem_singleton, and_true, true_and, true_or, or_true, and_self, implies_true, not_false_eq_true, State.placeShare_kept, State.setCluster_kept, State.setLane_kept]; done) | split)

theorem State.growSet_kept {W : List Fld} (l : Nat) (hkw : [Fld.mem, Fld.clusters, Fld.lanes] ⊆ W) : ∀ (n : Nat) (s0 s : State), Kept W s0 s → Kept W s0 (s.growSet l n)
  | 0, _, _, hk => hk
  | n + 1, s0, s, hk => by
    unfold State.growSet
    split
    · exact hk
    · split
      · exact State.growSet_kept l hkw n s0 _ (State.place_kept _ _ hk (List.Subset.trans (by decide) hkw))
      · exact hk

theorem State.ensurePlaced_kept {W : List Fld} {s0 s : State}  (l : Nat) (hk : Kept W s0 s) (hkw : [Fld.mem, Fld.clusters, Fld.lanes] ⊆ W) :
    Kept W s0 (State.ensurePlaced s l) := by
  unfold State.ensurePlaced
  try dsimp only
  iterate 40 all_goals (first
    | with_reducible exact hk
    | with_reducible assumption
    | with_reducible exact Kept.refl _ _
    | with_reducible exact .inr rfl
    | (with_reducible exact List.Subset.trans (by decide) hkw)
    | (with_reducible exact .inl (Fld.mem_of hkw (by decide)))
    | (with_reducible apply Kept.ite <;> intro)
    | (apply State.growSet_kept; first | with_reducible exact List.Subset.trans (by decide) hkw | skip)
    | with_reducible apply Kept.getD
    | with_reducible apply Kept.elim
    | (with_reducible apply Kept.foldl; intro _ _; try dsimp only)
    | split
    | (intro _ _; try dsimp only)
    | with_reducible apply Kept.mk_of
    | skip)

theorem State.unplace_kept {W : List Fld} {s0 s : State}  (l c : Nat) (hk : Kept W s0 s) (hkw : [Fld.lanes] ⊆ W) :
    Kept W s0 (State.unplace s l c) := by
  simp only [List.cons_subset, List.nil_subset, and_true] at hkw
  unfold State.unplace
  repeat' (first | (simp (maxDischargeDepth := 40) only [hk, hkw, Kept.refl, Kept.mk_of, Kept.ite, Kept.foldl, List.cons_subset, List.nil_subset, List.mem_cons, List.mem_singleton, and_true, true_and, true_or, or_true, and_self, implies_true, not_false_eq_true, State.setLane_kept]; done) | split)

theorem State.wake_kept {W : List Fld} {s0 s : State}  (c : Nat) (hk : Kept W s0 s) (hkw : [Fld.clusters] ⊆ W) :
    Kept W s0 (State.wake s c) := by
  simp only [List.cons_subset, List.nil_subset, and_true] at hkw
  unfold State.wake
  repeat' (first | (simp (maxDischargeDepth := 40) only [hk, hkw, Kept.refl, Kept.mk_of, Kept.ite, Kept.foldl, List.cons_subset, List.nil_subset, List.mem_cons, List.mem_singleton, and_true, true_and, true_or, or_true, and_self, implies_true, not_false_eq_true, State.setCluster_kept]; done) | split)

theorem State.arrivalWake_kept {W : List Fld} {s0 s : State}  (l : Nat) (hk : Kept W s0 s) (hkw : [Fld.mem, Fld.clusters, Fld.lanes] ⊆ W) :
    Kept W s0 (State.arrivalWake s l) := by
  unfold State.arrivalWake
  try dsimp only
  iterate 40 all_goals (first
    | with_reducible exact hk
    | with_reducible assumption
    | with_reducible exact Kept.refl _ _
    | with_reducible exact .inr rfl
    | (with_reducible exact List.Subset.trans (by decide) hkw)
    | (with_reducible exact .inl (Fld.mem_of hkw (by decide)))
    | (with_reducible apply Kept.ite <;> intro)
    | with_reducible apply State.ensurePlaced_kept
    | with_reducible apply State.wake_kept
    | with_reducible apply Kept.getD
    | with_reducible apply Kept.elim
    | (with_reducible apply Kept.foldl; intro _ _; try dsimp only)
    | split
    | (intro _ _; try dsimp only)
    | with_reducible apply Kept.mk_of
    | skip)

theorem State.enqueueReq_keptE {W : List Fld} {s0 s zz : State} {c : Colour} {l p n : Nat} {ticket : Word} {id : BitVec 32} {payload : Bytes}
    {units : Nat} (e : s.enqueueReq c l p n ticket id payload units = some zz) (hk : Kept W s0 s) (hkw : [Fld.mem, Fld.clusters, Fld.lanes, Fld.depot, Fld.journal] ⊆ W) : Kept W s0 zz := by
  obtain ⟨k, e1, rfl⟩ := Option.map_eq_some_iff.mp e
  have hk := State.enqueue_keptE e1 hk (List.Subset.trans (by decide) hkw)
  try dsimp only
  iterate 40 all_goals (first
    | with_reducible exact hk
    | with_reducible assumption
    | with_reducible exact Kept.refl _ _
    | with_reducible exact .inr rfl
    | (with_reducible exact List.Subset.trans (by decide) hkw)
    | (with_reducible exact .inl (Fld.mem_of hkw (by decide)))
    | (with_reducible apply Kept.ite <;> intro)
    | with_reducible apply State.arrivalWake_kept
    | with_reducible refine State.enqueue_keptE (by with_reducible assumption) ?_ ?_
    | with_reducible apply State.unsettle_kept
    | with_reducible apply State.writeMile_kept
    | with_reducible apply Kept.getD
    | with_reducible apply Kept.elim
    | (with_reducible apply Kept.foldl; intro _ _; try dsimp only)
    | split
    | (intro _ _; try dsimp only)
    | with_reducible apply Kept.mk_of
    | skip)

theorem State.enqueueSegment_keptE {W : List Fld} {s0 s zz : State} {c : Colour} {l p n : Nat} {id : BitVec 32} {off : Nat} {data : Bytes}
    {units : Nat} (e : s.enqueueSegment c l p n id off data units = some zz) (hk : Kept W s0 s) (hkw : [Fld.mem, Fld.clusters, Fld.lanes, Fld.depot] ⊆ W) : Kept W s0 zz := by
  obtain ⟨k, e1, rfl⟩ := Option.map_eq_some_iff.mp e
  have hk := State.enqueue_keptE e1 hk (List.Subset.trans (by decide) hkw)
  try dsimp only
  iterate 40 all_goals (first
    | with_reducible exact hk
    | with_reducible assumption
    | with_reducible exact Kept.refl _ _
    | with_reducible exact .inr rfl
    | (with_reducible exact List.Subset.trans (by decide) hkw)
    | (with_reducible exact .inl (Fld.mem_of hkw (by decide)))
    | (with_reducible apply Kept.ite <;> intro)
    | with_reducible apply State.arrivalWake_kept
    | with_reducible refine State.enqueue_keptE (by with_reducible assumption) ?_ ?_
    | with_reducible apply Kept.getD
    | with_reducible apply Kept.elim
    | (with_reducible apply Kept.foldl; intro _ _; try dsimp only)
    | split
    | (intro _ _; try dsimp only)
    | with_reducible apply Kept.mk_of
    | skip)

end Sys2Proof.Machine
end

