-- ==== Sys2Proof/Laws/KeptCards.lean ====
section
/-! SUPPORT. What each operation on the state may change: the streams, the sessions, the cards and the clearing of tenants. -/

namespace Sys2Proof.Machine

set_option linter.all false

theorem State.setStream_kept {W : List Fld} {s0 s : State}  (x : Stream) (hk : Kept W s0 s) (hkw : [Fld.port0, Fld.port1] ⊆ W) :
    Kept W s0 (State.setStream s x) := by
  simp only [List.cons_subset, List.nil_subset, and_true] at hkw
  unfold State.setStream
  repeat' (first | (simp (maxDischargeDepth := 40) only [hk, hkw, Kept.refl, Kept.mk_of, Kept.ite, Kept.foldl, List.cons_subset, List.nil_subset, List.mem_cons, List.mem_singleton, and_true, true_and, true_or, or_true, and_self, implies_true, not_false_eq_true, State.setPort_kept]; done) | split)

theorem State.announce_kept {W : List Fld} {s0 s : State}  (k : Nat) (hk : Kept W s0 s) (hkw : [Fld.port0, Fld.port1] ⊆ W) :
    Kept W s0 (State.announce s k) := by
  simp only [List.cons_subset, List.nil_subset, and_true] at hkw
  unfold State.announce
  repeat' (first | (simp (maxDischargeDepth := 40) only [hk, hkw, Kept.refl, Kept.mk_of, Kept.ite, Kept.foldl, List.cons_subset, List.nil_subset, List.mem_cons, List.mem_singleton, and_true, true_and, true_or, or_true, and_self, implies_true, not_false_eq_true, State.setStream_kept]; done) | split)

theorem State.sendOutput_kept {W : List Fld} (hkw : [Fld.out, Fld.port0, Fld.port1] ⊆ W) :
    ∀ (l : List (Nat × Nat)) (s0 s : State) (x : Stream), Kept W s0 s → Kept W s0 (s.sendOutput x l).1
  | [], _, _, _, hk => hk
  | (off, len) :: r, s0, s, x, hk => by
    unfold State.sendOutput
    split
    · exact State.sendOutput_kept hkw r s0 _ _ (State.sendMsg_kept _ _ _ _ _ _ _ _ _ _ hk hkw)
    · exact hk

theorem State.dropStream_kept {W : List Fld} {s0 s : State}  (x : Stream) (hk : Kept W s0 s) (hkw : [Fld.tes, Fld.clusters, Fld.depot, Fld.port0, Fld.port1] ⊆ W) :
    Kept W s0 (State.dropStream s x) := by
  simp only [List.cons_subset, List.nil_subset, and_true] at hkw
  unfold State.dropStream
  repeat' (first | (simp (maxDischargeDepth := 40) only [hk, hkw, Kept.refl, Kept.mk_of, Kept.ite, Kept.foldl, List.cons_subset, List.nil_subset, List.mem_cons, List.mem_singleton, and_true, true_and, true_or, or_true, and_self, implies_true, not_false_eq_true, State.forgetStreams_kept, State.setPort_kept]; done) | split)

theorem State.closeStream_kept {W : List Fld} {s0 s : State}  (x : Stream) (status : Nat) (payload : Bytes) (hk : Kept W s0 s) (hkw : [Fld.out, Fld.tes, Fld.clusters, Fld.depot, Fld.port0, Fld.port1] ⊆ W) :
    Kept W s0 (State.closeStream s x status payload) := by
  simp only [List.cons_subset, List.nil_subset, and_true] at hkw
  unfold State.closeStream
  repeat' (first | (simp (maxDischargeDepth := 40) only [hk, hkw, Kept.refl, Kept.mk_of, Kept.ite, Kept.foldl, List.cons_subset, List.nil_subset, List.mem_cons, List.mem_singleton, and_true, true_and, true_or, or_true, and_self, implies_true, not_false_eq_true, State.dropStream_kept, State.sendMsg_kept]; done) | split)

theorem State.abortStream_kept {W : List Fld} {s0 s : State}  (k : Nat) (hk : Kept W s0 s) (hkw : [Fld.out, Fld.tes, Fld.clusters, Fld.depot, Fld.port0, Fld.port1] ⊆ W) :
    Kept W s0 (State.abortStream s k) := by
  simp only [List.cons_subset, List.nil_subset, and_true] at hkw
  unfold State.abortStream
  repeat' (first | (simp (maxDischargeDepth := 40) only [hk, hkw, Kept.refl, Kept.mk_of, Kept.ite, Kept.foldl, List.cons_subset, List.nil_subset, List.mem_cons, List.mem_singleton, and_true, true_and, true_or, or_true, and_self, implies_true, not_false_eq_true, State.closeStream_kept]; done) | split)

theorem State.closeGcm_kept {W : List Fld} {s0 s : State}  (x : Stream) (tag : Bytes) (hk : Kept W s0 s) (hkw : [Fld.out, Fld.tes, Fld.clusters, Fld.depot, Fld.keys, Fld.port0, Fld.port1] ⊆ W) :
    Kept W s0 (State.closeGcm s x tag) := by
  unfold State.closeGcm
  try dsimp only
  iterate 40 all_goals (first
    | with_reducible exact hk
    | with_reducible assumption
    | with_reducible exact Kept.refl _ _
    | with_reducible exact .inr rfl
    | (with_reducible exact List.Subset.trans (by decide) hkw)
    | (with_reducible exact .inl (Fld.mem_of hkw (by decide)))
    | (with_reducible apply Kept.ite <;> intro)
    | with_reducible apply State.closeStream_kept
    | with_reducible apply State.fetchKey_kept
    | with_reducible refine State.fetchKey_keptE (by with_reducible assumption) ?_ ?_
    | with_reducible apply Kept.getD
    | with_reducible apply Kept.elim
    | (with_reducible apply Kept.foldl; intro _ _; try dsimp only)
    | split
    | (intro _ _; try dsimp only)
    | with_reducible apply Kept.mk_of
    | skip)

theorem State.tryClose_kept {W : List Fld} {s0 s : State}  (k : Nat) (hk : Kept W s0 s) (hkw : [Fld.out, Fld.tes, Fld.clusters, Fld.depot, Fld.keys, Fld.port0, Fld.port1] ⊆ W) :
    Kept W s0 (State.tryClose s k) := by
  simp only [List.cons_subset, List.nil_subset, and_true] at hkw
  unfold State.tryClose
  repeat' (first | (simp (maxDischargeDepth := 40) only [hk, hkw, Kept.refl, Kept.mk_of, Kept.ite, Kept.foldl, List.cons_subset, List.nil_subset, List.mem_cons, List.mem_singleton, and_true, true_and, true_or, or_true, and_self, implies_true, not_false_eq_true, State.closeGcm_kept, State.closeStream_kept]; done) | split)

theorem State.unslot_kept {W : List Fld} {s0 s : State}  (c t : Nat) (hk : Kept W s0 s) (hkw : [Fld.tes, Fld.clusters, Fld.port0, Fld.port1] ⊆ W) :
    Kept W s0 (State.unslot s c t) := by
  unfold State.unslot
  try dsimp only
  iterate 40 all_goals (first
    | with_reducible exact hk
    | with_reducible assumption
    | with_reducible exact Kept.refl _ _
    | with_reducible exact .inr rfl
    | (with_reducible exact List.Subset.trans (by decide) hkw)
    | (with_reducible exact .inl (Fld.mem_of hkw (by decide)))
    | (with_reducible apply Kept.ite <;> intro)
    | with_reducible apply State.setCluster_kept
    | with_reducible apply State.setStream_kept
    | with_reducible apply State.setTe_kept
    | with_reducible apply State.store_kept
    | with_reducible apply Kept.getD
    | with_reducible apply Kept.elim
    | (with_reducible apply Kept.foldl; intro _ _; try dsimp only)
    | split
    | (intro _ _; try dsimp only)
    | with_reducible apply Kept.mk_of
    | skip)

theorem State.dropNext_kept {W : List Fld} {s0 s : State}  (k : Nat) (hk : Kept W s0 s) (hkw : [Fld.tes] ⊆ W) :
    Kept W s0 (State.dropNext s k) := by
  simp only [List.cons_subset, List.nil_subset, and_true] at hkw
  unfold State.dropNext
  repeat' (first | (simp (maxDischargeDepth := 40) only [hk, hkw, Kept.refl, Kept.mk_of, Kept.ite, Kept.foldl, List.cons_subset, List.nil_subset, List.mem_cons, List.mem_singleton, and_true, true_and, true_or, or_true, and_self, implies_true, not_false_eq_true]; done) | split)

theorem State.slotStream_kept {W : List Fld} {s0 s : State}  (x : Stream) (c t : Nat) (hk : Kept W s0 s) (hkw : [Fld.tes, Fld.clusters, Fld.port0, Fld.port1] ⊆ W) :
    Kept W s0 (State.slotStream s x c t) := by
  simp only [List.cons_subset, List.nil_subset, and_true] at hkw
  unfold State.slotStream
  repeat' (first | (simp (maxDischargeDepth := 40) only [hk, hkw, Kept.refl, Kept.mk_of, Kept.ite, Kept.foldl, List.cons_subset, List.nil_subset, List.mem_cons, List.mem_singleton, and_true, true_and, true_or, or_true, and_self, implies_true, not_false_eq_true, State.dropNext_kept, State.setCluster_kept, State.setStream_kept, State.setTe_kept, State.store_kept, State.unslot_kept]; done) | split)

theorem State.fetchAhead_kept {W : List Fld} {s0 s : State}  (x : Stream) (c t : Nat) (hk : Kept W s0 s) (hkw : [Fld.tes, Fld.port0, Fld.port1] ⊆ W) :
    Kept W s0 (State.fetchAhead s x c t) := by
  simp only [List.cons_subset, List.nil_subset, and_true] at hkw
  unfold State.fetchAhead
  repeat' (first | (simp (maxDischargeDepth := 40) only [hk, hkw, Kept.refl, Kept.mk_of, Kept.ite, Kept.foldl, List.cons_subset, List.nil_subset, List.mem_cons, List.mem_singleton, and_true, true_and, true_or, or_true, and_self, implies_true, not_false_eq_true, State.setStream_kept, State.setTe_kept]; done) | split)

theorem State.takeSegment_keptE {W : List Fld} {s0 s zz : State}  {c : Nat} {i : Item} {k : Nat} {o : Bool} (eq : State.takeSegment s c i k = some (zz, o)) (hk : Kept W s0 s) (hkw : [Fld.tes, Fld.clusters, Fld.port0, Fld.port1] ⊆ W) :
    Kept W s0 zz := by
  unfold State.takeSegment at eq
  try dsimp only at eq
  repeat' split at eq
  all_goals first | (cases eq; done) | skip
  all_goals (try simp only [Option.some.injEq, Prod.mk.injEq] at eq; first | subst eq | (obtain ⟨e1, e2⟩ := eq; first | subst e1 | skip; first | subst e2 | skip))
  try dsimp only
  iterate 40 all_goals (first
    | with_reducible exact hk
    | with_reducible assumption
    | with_reducible exact Kept.refl _ _
    | with_reducible exact .inr rfl
    | (with_reducible exact List.Subset.trans (by decide) hkw)
    | (with_reducible exact .inl (Fld.mem_of hkw (by decide)))
    | (with_reducible apply Kept.ite <;> intro)
    | with_reducible apply State.fetchAhead_kept
    | with_reducible apply State.setStream_kept
    | with_reducible apply State.slotStream_kept
    | with_reducible apply Kept.getD
    | with_reducible apply Kept.elim
    | (with_reducible apply Kept.foldl; intro _ _; try dsimp only)
    | split
    | (intro _ _; try dsimp only)
    | with_reducible apply Kept.mk_of
    | skip)

theorem State.forgetStreamContext_kept {W : List Fld} {s0 s : State}  (k : Nat) (hk : Kept W s0 s) (hkw : [Fld.tes, Fld.clusters] ⊆ W) :
    Kept W s0 (State.forgetStreamContext s k) := by
  simp only [List.cons_subset, List.nil_subset, and_true] at hkw
  unfold State.forgetStreamContext
  repeat' (first | (simp (maxDischargeDepth := 40) only [hk, hkw, Kept.refl, Kept.mk_of, Kept.ite, Kept.foldl, List.cons_subset, List.nil_subset, List.mem_cons, List.mem_singleton, and_true, true_and, true_or, or_true, and_self, implies_true, not_false_eq_true]; done) | split)

theorem State.sendPackage_kept {W : List Fld} {s0 s : State}  (g : Package) (hk : Kept W s0 s) (hkw : [Fld.freeCtr, Fld.depot] ⊆ W) :
    Kept W s0 (State.sendPackage s g) := by
  simp only [List.cons_subset, List.nil_subset, and_true] at hkw
  unfold State.sendPackage
  repeat' (first | (simp (maxDischargeDepth := 40) only [hk, hkw, Kept.refl, Kept.mk_of, Kept.ite, Kept.foldl, List.cons_subset, List.nil_subset, List.mem_cons, List.mem_singleton, and_true, true_and, true_or, or_true, and_self, implies_true, not_false_eq_true, State.drawnBytes_kept]; done) | split)

theorem State.sendStream_kept {W : List Fld} {s0 s : State}  (x : Stream) (target : Nat) (hk : Kept W s0 s) (hkw : [Fld.freeCtr, Fld.tes, Fld.clusters, Fld.depot, Fld.port0, Fld.port1] ⊆ W) :
    Kept W s0 (State.sendStream s x target) := by
  simp only [List.cons_subset, List.nil_subset, and_true] at hkw
  unfold State.sendStream
  repeat' (first | (simp (maxDischargeDepth := 40) only [hk, hkw, Kept.refl, Kept.mk_of, Kept.ite, Kept.foldl, List.cons_subset, List.nil_subset, List.mem_cons, List.mem_singleton, and_true, true_and, true_or, or_true, and_self, implies_true, not_false_eq_true, State.forgetStreamContext_kept, State.sendPackage_kept, State.setStream_kept]; done) | split)

theorem State.laneTo_kept {W : List Fld} {s0 s : State}  (l : Nat) (st : LaneState) (cause : LaneCause) (hk : Kept W s0 s) (hkw : [Fld.out, Fld.lanes, Fld.port0, Fld.port1] ⊆ W) :
    Kept W s0 (State.laneTo s l st cause) := by
  simp only [List.cons_subset, List.nil_subset, and_true] at hkw
  unfold State.laneTo
  repeat' (first | (simp (maxDischargeDepth := 40) only [hk, hkw, Kept.refl, Kept.mk_of, Kept.ite, Kept.foldl, List.cons_subset, List.nil_subset, List.mem_cons, List.mem_singleton, and_true, true_and, true_or, or_true, and_self, implies_true, not_false_eq_true, State.creditColour_kept, State.setLane_kept]; done) | split)

theorem State.drainLane_kept {W : List Fld} {s0 s : State}  (l : Nat) (cause : LaneCause) (hk : Kept W s0 s) (hkw : [Fld.out, Fld.lanes, Fld.port0, Fld.port1] ⊆ W) :
    Kept W s0 (State.drainLane s l cause) := by
  simp only [List.cons_subset, List.nil_subset, and_true] at hkw
  unfold State.drainLane
  repeat' (first | (simp (maxDischargeDepth := 40) only [hk, hkw, Kept.refl, Kept.mk_of, Kept.ite, Kept.foldl, List.cons_subset, List.nil_subset, List.mem_cons, List.mem_singleton, and_true, true_and, true_or, or_true, and_self, implies_true, not_false_eq_true, State.laneTo_kept]; done) | split)

theorem State.discardItems_kept {W : List Fld} {s0 s : State}  (p : Item → Bool) (reason : BitVec 11) (hk : Kept W s0 s) (hkw : [Fld.lanes, Fld.depot, Fld.journal, Fld.port0, Fld.port1, Fld.pcie] ⊆ W) :
    Kept W s0 (State.discardItems s p reason) := by
  simp only [List.cons_subset, List.nil_subset, and_true] at hkw
  unfold State.discardItems
  repeat' (first | (simp (maxDischargeDepth := 40) only [hk, hkw, Kept.refl, Kept.mk_of, Kept.ite, Kept.foldl, List.cons_subset, List.nil_subset, List.mem_cons, List.mem_singleton, and_true, true_and, true_or, or_true, and_self, implies_true, not_false_eq_true, State.itemEnded_kept, State.releaseItems_kept]; done) | split)

theorem State.squashMae_kept {W : List Fld} {s0 s : State}  (p : Desc → Bool) (reason : BitVec 11) (hk : Kept W s0 s) (hkw : [Fld.clusters, Fld.lanes, Fld.journal, Fld.pcie] ⊆ W) :
    Kept W s0 (State.squashMae s p reason) := by
  simp only [List.cons_subset, List.nil_subset, and_true] at hkw
  unfold State.squashMae
  repeat' (first | (simp (maxDischargeDepth := 40) only [hk, hkw, Kept.refl, Kept.mk_of, Kept.ite, Kept.foldl, List.cons_subset, List.nil_subset, List.mem_cons, List.mem_singleton, and_true, true_and, true_or, or_true, and_self, implies_true, not_false_eq_true, State.itemEnded_kept]; done) | split)

theorem State.squashLane_kept {W : List Fld} {s0 s : State}  (l : Nat) (cause : LaneCause) (hk : Kept W s0 s) (hkw : [Fld.out, Fld.seats, Fld.tes, Fld.clusters, Fld.lanes, Fld.depot, Fld.journal, Fld.port0, Fld.port1, Fld.pcie] ⊆ W) :
    Kept W s0 (State.squashLane s l cause) := by
  simp only [List.cons_subset, List.nil_subset, and_true] at hkw
  unfold State.squashLane
  repeat' (first | (simp (maxDischargeDepth := 40) only [hk, hkw, Kept.refl, Kept.mk_of, Kept.ite, Kept.foldl, List.cons_subset, List.nil_subset, List.mem_cons, List.mem_singleton, and_true, true_and, true_or, or_true, and_self, implies_true, not_false_eq_true, State.abortStream_kept, State.creditColour_kept, State.discardItems_kept, State.setLane_kept, State.squashMae_kept]; done) | split)

theorem State.squashLanes_kept {W : List Fld} {s0 s : State}  (ls : List Nat) (cause : LaneCause) (hk : Kept W s0 s) (hkw : [Fld.out, Fld.seats, Fld.tes, Fld.clusters, Fld.lanes, Fld.depot, Fld.journal, Fld.port0, Fld.port1, Fld.pcie] ⊆ W) :
    Kept W s0 (State.squashLanes s ls cause) := by
  simp only [List.cons_subset, List.nil_subset, and_true] at hkw
  unfold State.squashLanes
  repeat' (first | (simp (maxDischargeDepth := 40) only [hk, hkw, Kept.refl, Kept.mk_of, Kept.ite, Kept.foldl, List.cons_subset, List.nil_subset, List.mem_cons, List.mem_singleton, and_true, true_and, true_or, or_true, and_self, implies_true, not_false_eq_true, State.squashLane_kept]; done) | split)

theorem State.reinstate_kept {W : List Fld} {s0 s : State}  (l : Nat) (hk : Kept W s0 s) (hkw : [Fld.out, Fld.mem, Fld.clusters, Fld.lanes, Fld.port0, Fld.port1] ⊆ W) :
    Kept W s0 (State.reinstate s l) := by
  simp only [List.cons_subset, List.nil_subset, and_true] at hkw
  unfold State.reinstate
  repeat' (first | (simp (maxDischargeDepth := 40) only [hk, hkw, Kept.refl, Kept.mk_of, Kept.ite, Kept.foldl, List.cons_subset, List.nil_subset, List.mem_cons, List.mem_singleton, and_true, true_and, true_or, or_true, and_self, implies_true, not_false_eq_true, State.ensurePlaced_kept, State.laneTo_kept]; done) | split)

theorem State.tagDeleted_kept {W : List Fld} {s0 s : State}  (c : Colour) (hk : Kept W s0 s) (hkw : [Fld.tenancy, Fld.gates] ⊆ W) :
    Kept W s0 (State.tagDeleted s c) := by
  simp only [List.cons_subset, List.nil_subset, and_true] at hkw
  unfold State.tagDeleted
  repeat' (first | (simp (maxDischargeDepth := 40) only [hk, hkw, Kept.refl, Kept.mk_of, Kept.ite, Kept.foldl, List.cons_subset, List.nil_subset, List.mem_cons, List.mem_singleton, and_true, true_and, true_or, or_true, and_self, implies_true, not_false_eq_true, State.flipTags_kept]; done) | split)

theorem State.closeLane_kept {W : List Fld} {s0 s : State}  (l : Nat) (hk : Kept W s0 s) (hkw : [Fld.out, Fld.mem, Fld.clusters, Fld.lanes, Fld.tenancy, Fld.port0, Fld.port1, Fld.gates] ⊆ W) :
    Kept W s0 (State.closeLane s l) := by
  unfold State.closeLane
  try dsimp only
  iterate 40 all_goals (first
    | with_reducible exact hk
    | with_reducible assumption
    | with_reducible exact Kept.refl _ _
    | with_reducible exact .inr rfl
    | (with_reducible exact List.Subset.trans (by decide) hkw)
    | (with_reducible exact .inl (Fld.mem_of hkw (by decide)))
    | (with_reducible apply Kept.ite <;> intro)
    | with_reducible apply State.reinstate_kept
    | with_reducible apply State.setLane_kept
    | with_reducible apply State.tagDeleted_kept
    | with_reducible apply Kept.getD
    | with_reducible apply Kept.elim
    | (with_reducible apply Kept.foldl; intro _ _; try dsimp only)
    | split
    | (intro _ _; try dsimp only)
    | with_reducible apply Kept.mk_of
    | skip)

theorem State.reinstateFor_kept {W : List Fld} {s0 s : State}  (p : LaneCause → Bool) (hk : Kept W s0 s) (hkw : [Fld.out, Fld.mem, Fld.clusters, Fld.lanes, Fld.port0, Fld.port1] ⊆ W) :
    Kept W s0 (State.reinstateFor s p) := by
  simp only [List.cons_subset, List.nil_subset, and_true] at hkw
  unfold State.reinstateFor
  repeat' (first | (simp (maxDischargeDepth := 40) only [hk, hkw, Kept.refl, Kept.mk_of, Kept.ite, Kept.foldl, List.cons_subset, List.nil_subset, List.mem_cons, List.mem_singleton, and_true, true_and, true_or, or_true, and_self, implies_true, not_false_eq_true, State.reinstate_kept]; done) | split)

theorem State.baseKey_kept {W : List Fld} {s0 s : State}  (c : Colour) (h : Word) (hk : Kept W s0 s) (hkw : [Fld.keys] ⊆ W) :
    Kept W s0 (State.baseKey s c h).1 := by
  unfold State.baseKey
  try dsimp only
  iterate 40 all_goals (first
    | with_reducible exact hk
    | with_reducible assumption
    | with_reducible exact Kept.refl _ _
    | with_reducible exact .inr rfl
    | (with_reducible exact List.Subset.trans (by decide) hkw)
    | (with_reducible exact .inl (Fld.mem_of hkw (by decide)))
    | (with_reducible apply Kept.ite <;> intro)
    | with_reducible apply State.fetchKey_kept
    | with_reducible refine State.fetchKey_keptE (by with_reducible assumption) ?_ ?_
    | with_reducible apply Kept.getD
    | with_reducible apply Kept.elim
    | (with_reducible apply Kept.foldl; intro _ _; try dsimp only)
    | split
    | (intro _ _; try dsimp only)
    | with_reducible apply Kept.mk_of
    | skip)

theorem State.baseKey_keptE {W : List Fld} {s0 s zz : State}  {c : Colour} {h : Word} {o : Option Bytes} (eq : State.baseKey s c h = (zz, o)) (hk : Kept W s0 s) (hkw : [Fld.keys] ⊆ W) : Kept W s0 zz := by
  have hp := State.baseKey_kept (W := W) c h hk hkw
  rw [eq] at hp
  exact hp

theorem State.nextSerial_kept {W : List Fld} {s0 s : State}  (hk : Kept W s0 s) (hkw : [Fld.openSerial] ⊆ W) :
    Kept W s0 (State.nextSerial s) := by
  simp only [List.cons_subset, List.nil_subset, and_true] at hkw
  unfold State.nextSerial
  repeat' (first | (simp (maxDischargeDepth := 40) only [hk, hkw, Kept.refl, Kept.mk_of, Kept.ite, Kept.foldl, List.cons_subset, List.nil_subset, List.mem_cons, List.mem_singleton, and_true, true_and, true_or, or_true, and_self, implies_true, not_false_eq_true]; done) | split)

theorem State.openPortSession_kept {W : List Fld} {s0 s : State}  (p : Nat) (h : Word) (key : Bytes) (now : Bool := false) (hk : Kept W s0 s) (hkw : [Fld.port0, Fld.port1, Fld.openSerial] ⊆ W) :
    Kept W s0 (State.openPortSession s p h key now) := by
  simp only [List.cons_subset, List.nil_subset, and_true] at hkw
  unfold State.openPortSession
  repeat' (first | (simp (maxDischargeDepth := 40) only [hk, hkw, Kept.refl, Kept.mk_of, Kept.ite, Kept.foldl, List.cons_subset, List.nil_subset, List.mem_cons, List.mem_singleton, and_true, true_and, true_or, or_true, and_self, implies_true, not_false_eq_true, State.nextSerial_kept, State.setPort_kept]; done) | split)

theorem State.reopenPort_kept {W : List Fld} {s0 s : State}  (p : Nat) (hk : Kept W s0 s) (hkw : [Fld.out, Fld.keys, Fld.port0, Fld.port1, Fld.openSerial] ⊆ W) :
    Kept W s0 (State.reopenPort s p) := by
  unfold State.reopenPort
  try dsimp only
  iterate 40 all_goals (first
    | with_reducible exact hk
    | with_reducible assumption
    | with_reducible exact Kept.refl _ _
    | with_reducible exact .inr rfl
    | (with_reducible exact List.Subset.trans (by decide) hkw)
    | (with_reducible exact .inl (Fld.mem_of hkw (by decide)))
    | (with_reducible apply Kept.ite <;> intro)
    | with_reducible apply State.baseKey_kept
    | with_reducible refine State.baseKey_keptE (by with_reducible assumption) ?_ ?_
    | with_reducible apply State.creditsDue_kept
    | with_reducible apply State.openPortSession_kept
    | with_reducible apply Kept.getD
    | with_reducible apply Kept.elim
    | (with_reducible apply Kept.foldl; intro _ _; try dsimp only)
    | split
    | (intro _ _; try dsimp only)
    | with_reducible apply Kept.mk_of
    | skip)

theorem State.keyArrived_kept {W : List Fld} {s0 s : State}  (hk : Kept W s0 s) (hkw : [Fld.out, Fld.keys, Fld.vault, Fld.port0, Fld.port1, Fld.openSerial] ⊆ W) :
    Kept W s0 (State.keyArrived s) := by
  simp only [List.cons_subset, List.nil_subset, and_true] at hkw
  unfold State.keyArrived
  repeat' (first | (simp (maxDischargeDepth := 40) only [hk, hkw, Kept.refl, Kept.mk_of, Kept.ite, Kept.foldl, List.cons_subset, List.nil_subset, List.mem_cons, List.mem_singleton, and_true, true_and, true_or, or_true, and_self, implies_true, not_false_eq_true, State.reopenPort_kept, State.vaultReload_kept]; done) | split)

theorem State.closeSession_kept {W : List Fld} {s0 s : State}  (p n : Nat) (hk : Kept W s0 s) (hkw : [Fld.out, Fld.tes, Fld.clusters, Fld.depot, Fld.vault, Fld.port0, Fld.port1] ⊆ W) :
    Kept W s0 (State.closeSession s p n) := by
  simp only [List.cons_subset, List.nil_subset, and_true] at hkw
  unfold State.closeSession
  repeat' (first | (simp (maxDischargeDepth := 40) only [hk, hkw, Kept.refl, Kept.mk_of, Kept.ite, Kept.foldl, List.cons_subset, List.nil_subset, List.mem_cons, List.mem_singleton, and_true, true_and, true_or, or_true, and_self, implies_true, not_false_eq_true, State.creditColour_kept, State.dropStream_kept, State.modVault_kept, State.setPort_kept]; done) | split)

theorem State.plannedStop_kept {W : List Fld} {s0 s : State}  (p reason : Nat) (clears : Bool) (hk : Kept W s0 s) (hkw : [Fld.out, Fld.lanes, Fld.port0, Fld.port1, Fld.pcie, Fld.faults, Fld.recorder, Fld.power] ⊆ W) :
    Kept W s0 (State.plannedStop s p reason clears) := by
  simp only [List.cons_subset, List.nil_subset, and_true] at hkw
  unfold State.plannedStop
  repeat' (first | (simp (maxDischargeDepth := 40) only [hk, hkw, Kept.refl, Kept.mk_of, Kept.ite, Kept.foldl, List.cons_subset, List.nil_subset, List.mem_cons, List.mem_singleton, and_true, true_and, true_or, or_true, and_self, implies_true, not_false_eq_true, State.drainLane_kept, State.sendMsg_kept, State.setDev_kept, State.setPort_kept]; done) | split)

theorem State.stopOver_kept {W : List Fld} {s0 s : State}  (hk : Kept W s0 s) (hkw : [Fld.out, Fld.pcie, Fld.faults, Fld.recorder, Fld.power] ⊆ W) :
    Kept W s0 (State.stopOver s) := by
  simp only [List.cons_subset, List.nil_subset, and_true] at hkw
  unfold State.stopOver
  repeat' (first | (simp (maxDischargeDepth := 40) only [hk, hkw, Kept.refl, Kept.mk_of, Kept.ite, Kept.foldl, List.cons_subset, List.nil_subset, List.mem_cons, List.mem_singleton, and_true, true_and, true_or, or_true, and_self, implies_true, not_false_eq_true, State.setDev_kept]; done) | split)

theorem State.stopEnds_kept {W : List Fld} {s0 s : State}  (p : Nat) (hk : Kept W s0 s) (hkw : [Fld.out, Fld.tes, Fld.clusters, Fld.depot, Fld.port0, Fld.port1, Fld.pcie, Fld.faults, Fld.recorder, Fld.power] ⊆ W) :
    Kept W s0 (State.stopEnds s p) := by
  simp only [List.cons_subset, List.nil_subset, and_true] at hkw
  unfold State.stopEnds
  repeat' (first | (simp (maxDischargeDepth := 40) only [hk, hkw, Kept.refl, Kept.mk_of, Kept.ite, Kept.foldl, List.cons_subset, List.nil_subset, List.mem_cons, List.mem_singleton, and_true, true_and, true_or, or_true, and_self, implies_true, not_false_eq_true, State.portDown_kept, State.setPort_kept, State.stopOver_kept]; done) | split)

theorem State.train_kept {W : List Fld} {s0 s : State}  (p : Nat) (hk : Kept W s0 s) (hkw : [Fld.port0, Fld.port1] ⊆ W) :
    Kept W s0 (State.train s p) := by
  simp only [List.cons_subset, List.nil_subset, and_true] at hkw
  unfold State.train
  repeat' (first | (simp (maxDischargeDepth := 40) only [hk, hkw, Kept.refl, Kept.mk_of, Kept.ite, Kept.foldl, List.cons_subset, List.nil_subset, List.mem_cons, List.mem_singleton, and_true, true_and, true_or, or_true, and_self, implies_true, not_false_eq_true, State.setPort_kept]; done) | split)

theorem State.modCard_kept {W : List Fld} {s0 s : State}  (n : Nat) (f : CardSlot → CardSlot) (hk : Kept W s0 s) (hkw : [Fld.cards] ⊆ W) :
    Kept W s0 (State.modCard s n f) := by
  simp only [List.cons_subset, List.nil_subset, and_true] at hkw
  unfold State.modCard
  repeat' (first | (simp (maxDischargeDepth := 40) only [hk, hkw, Kept.refl, Kept.mk_of, Kept.ite, Kept.foldl, List.cons_subset, List.nil_subset, List.mem_cons, List.mem_singleton, and_true, true_and, true_or, or_true, and_self, implies_true, not_false_eq_true, State.setCard_kept]; done) | split)

theorem State.sendBlock_kept {W : List Fld} {s0 s : State}  (n pcb : Nat) (inf : Bytes) (hk : Kept W s0 s) (hkw : [Fld.out, Fld.cards] ⊆ W) :
    Kept W s0 (State.sendBlock s n pcb inf) := by
  simp only [List.cons_subset, List.nil_subset, and_true] at hkw
  unfold State.sendBlock
  repeat' (first | (simp (maxDischargeDepth := 40) only [hk, hkw, Kept.refl, Kept.mk_of, Kept.ite, Kept.foldl, List.cons_subset, List.nil_subset, List.mem_cons, List.mem_singleton, and_true, true_and, true_or, or_true, and_self, implies_true, not_false_eq_true, State.emit_kept, State.modCard_kept]; done) | split)

theorem State.sendR_kept {W : List Fld} {s0 s : State}  (n err : Nat) (hk : Kept W s0 s) (hkw : [Fld.out] ⊆ W) :
    Kept W s0 (State.sendR s n err) := by
  simp only [List.cons_subset, List.nil_subset, and_true] at hkw
  unfold State.sendR
  repeat' (first | (simp (maxDischargeDepth := 40) only [hk, hkw, Kept.refl, Kept.mk_of, Kept.ite, Kept.foldl, List.cons_subset, List.nil_subset, List.mem_cons, List.mem_singleton, and_true, true_and, true_or, or_true, and_self, implies_true, not_false_eq_true, State.emit_kept]; done) | split)

theorem State.sendI_kept {W : List Fld} {s0 s : State}  (n : Nat) (inf : Bytes) (hk : Kept W s0 s) (hkw : [Fld.out, Fld.cards] ⊆ W) :
    Kept W s0 (State.sendI s n inf) := by
  simp only [List.cons_subset, List.nil_subset, and_true] at hkw
  unfold State.sendI
  repeat' (first | (simp (maxDischargeDepth := 40) only [hk, hkw, Kept.refl, Kept.mk_of, Kept.ite, Kept.foldl, List.cons_subset, List.nil_subset, List.mem_cons, List.mem_singleton, and_true, true_and, true_or, or_true, and_self, implies_true, not_false_eq_true, State.modCard_kept, State.sendBlock_kept]; done) | split)

theorem State.apdu_kept {W : List Fld} {s0 s : State}  (n : Nat) (phase : SlotPhase) (bytes : Bytes) (hk : Kept W s0 s) (hkw : [Fld.out, Fld.cards] ⊆ W) :
    Kept W s0 (State.apdu s n phase bytes) := by
  simp only [List.cons_subset, List.nil_subset, and_true] at hkw
  unfold State.apdu
  repeat' (first | (simp (maxDischargeDepth := 40) only [hk, hkw, Kept.refl, Kept.mk_of, Kept.ite, Kept.foldl, List.cons_subset, List.nil_subset, List.mem_cons, List.mem_singleton, and_true, true_and, true_or, or_true, and_self, implies_true, not_false_eq_true, State.modCard_kept, State.sendI_kept]; done) | split)

theorem State.modCeremony_kept {W : List Fld} {s0 s : State}  (f : Ceremony → Ceremony) (hk : Kept W s0 s) (hkw : [Fld.cards] ⊆ W) :
    Kept W s0 (State.modCeremony s f) := by
  simp only [List.cons_subset, List.nil_subset, and_true] at hkw
  unfold State.modCeremony
  repeat' (first | (simp (maxDischargeDepth := 40) only [hk, hkw, Kept.refl, Kept.mk_of, Kept.ite, Kept.foldl, List.cons_subset, List.nil_subset, List.mem_cons, List.mem_singleton, and_true, true_and, true_or, or_true, and_self, implies_true, not_false_eq_true]; done) | split)

theorem State.abortCeremony_kept {W : List Fld} {s0 s : State}  (hk : Kept W s0 s) (hkw : [Fld.out, Fld.tes, Fld.clusters, Fld.depot, Fld.vault, Fld.journal, Fld.port0, Fld.port1, Fld.pcie, Fld.cards, Fld.faults, Fld.recorder, Fld.power] ⊆ W) :
    Kept W s0 (State.abortCeremony s) := by
  simp only [List.cons_subset, List.nil_subset, and_true] at hkw
  unfold State.abortCeremony
  repeat' (first | (simp (maxDischargeDepth := 40) only [hk, hkw, Kept.refl, Kept.mk_of, Kept.ite, Kept.foldl, List.cons_subset, List.nil_subset, List.mem_cons, List.mem_singleton, and_true, true_and, true_or, or_true, and_self, implies_true, not_false_eq_true, State.cardOff_kept, State.modCeremony_kept]; done) | split)

theorem State.useAuth_keptE {W : List Fld} {s0 s zz : State}  {op off : Nat} {body : Bytes} (eq : State.useAuth s op off body = some zz) (hk : Kept W s0 s) (hkw : [Fld.out, Fld.tes, Fld.clusters, Fld.depot, Fld.vault, Fld.journal, Fld.port0, Fld.port1, Fld.pcie, Fld.cards, Fld.faults, Fld.recorder, Fld.power] ⊆ W) :
    Kept W s0 zz := by
  unfold State.useAuth at eq
  try dsimp only at eq
  repeat' split at eq
  all_goals first | (cases eq; done) | skip
  all_goals (try simp only [Option.some.injEq, Prod.mk.injEq] at eq; first | subst eq | (obtain ⟨e1, e2⟩ := eq; first | subst e1 | skip; first | subst e2 | skip))
  try dsimp only
  iterate 40 all_goals (first
    | with_reducible exact hk
    | with_reducible assumption
    | with_reducible exact Kept.refl _ _
    | with_reducible exact .inr rfl
    | (with_reducible exact List.Subset.trans (by decide) hkw)
    | (with_reducible exact .inl (Fld.mem_of hkw (by decide)))
    | (with_reducible apply Kept.ite <;> intro)
    | with_reducible apply State.abortCeremony_kept
    | with_reducible apply Kept.getD
    | with_reducible apply Kept.elim
    | (with_reducible apply Kept.foldl; intro _ _; try dsimp only)
    | split
    | (intro _ _; try dsimp only)
    | with_reducible apply Kept.mk_of
    | skip)

theorem State.joinNext_kept {W : List Fld} {s0 s : State}  (hk : Kept W s0 s) (hkw : [Fld.out, Fld.cards] ⊆ W) :
    Kept W s0 (State.joinNext s) := by
  unfold State.joinNext
  try dsimp only
  iterate 40 all_goals (first
    | with_reducible exact hk
    | with_reducible assumption
    | with_reducible exact Kept.refl _ _
    | with_reducible exact .inr rfl
    | (with_reducible exact List.Subset.trans (by decide) hkw)
    | (with_reducible exact .inl (Fld.mem_of hkw (by decide)))
    | (with_reducible apply Kept.ite <;> intro)
    | with_reducible apply State.apdu_kept
    | with_reducible apply Kept.getD
    | with_reducible apply Kept.elim
    | (with_reducible apply Kept.foldl; intro _ _; try dsimp only)
    | split
    | (intro _ _; try dsimp only)
    | with_reducible apply Kept.mk_of
    | skip)

theorem State.activateCard_kept {W : List Fld} {s0 s : State}  (n : Nat) (classB noPps : Bool) (hk : Kept W s0 s) (hkw : [Fld.out, Fld.cards] ⊆ W) :
    Kept W s0 (State.activateCard s n classB noPps) := by
  simp only [List.cons_subset, List.nil_subset, and_true] at hkw
  unfold State.activateCard
  repeat' (first | (simp (maxDischargeDepth := 40) only [hk, hkw, Kept.refl, Kept.mk_of, Kept.ite, Kept.foldl, List.cons_subset, List.nil_subset, List.mem_cons, List.mem_singleton, and_true, true_and, true_or, or_true, and_self, implies_true, not_false_eq_true, State.emit_kept, State.setCard_kept]; done) | split)

theorem State.refuseCard_kept {W : List Fld} {s0 s : State}  (n reason : Nat) (hk : Kept W s0 s) (hkw : [Fld.out, Fld.tes, Fld.clusters, Fld.depot, Fld.vault, Fld.journal, Fld.port0, Fld.port1, Fld.pcie, Fld.cards, Fld.faults, Fld.recorder, Fld.power] ⊆ W) :
    Kept W s0 (State.refuseCard s n reason) := by
  simp only [List.cons_subset, List.nil_subset, and_true] at hkw
  unfold State.refuseCard
  repeat' (first | (simp (maxDischargeDepth := 40) only [hk, hkw, Kept.refl, Kept.mk_of, Kept.ite, Kept.foldl, List.cons_subset, List.nil_subset, List.mem_cons, List.mem_singleton, and_true, true_and, true_or, or_true, and_self, implies_true, not_false_eq_true, State.cardOff_kept, State.emit_kept, State.fault_kept, State.joinNext_kept, State.setCard_kept]; done) | split)

theorem State.cardFails_kept {W : List Fld} {s0 s : State}  (n : Nat) (hk : Kept W s0 s) (hkw : [Fld.out, Fld.tes, Fld.clusters, Fld.depot, Fld.vault, Fld.journal, Fld.port0, Fld.port1, Fld.pcie, Fld.cards, Fld.faults, Fld.recorder, Fld.power] ⊆ W) :
    Kept W s0 (State.cardFails s n) := by
  simp only [List.cons_subset, List.nil_subset, and_true] at hkw
  unfold State.cardFails
  repeat' (first | (simp (maxDischargeDepth := 40) only [hk, hkw, Kept.refl, Kept.mk_of, Kept.ite, Kept.foldl, List.cons_subset, List.nil_subset, List.mem_cons, List.mem_singleton, and_true, true_and, true_or, or_true, and_self, implies_true, not_false_eq_true, State.cardOff_kept, State.fault_kept, State.joinNext_kept]; done) | split)

theorem State.sendIfs_kept {W : List Fld} {s0 s : State}  (n : Nat) (hk : Kept W s0 s) (hkw : [Fld.out, Fld.cards] ⊆ W) :
    Kept W s0 (State.sendIfs s n) := by
  simp only [List.cons_subset, List.nil_subset, and_true] at hkw
  unfold State.sendIfs
  repeat' (first | (simp (maxDischargeDepth := 40) only [hk, hkw, Kept.refl, Kept.mk_of, Kept.ite, Kept.foldl, List.cons_subset, List.nil_subset, List.mem_cons, List.mem_singleton, and_true, true_and, true_or, or_true, and_self, implies_true, not_false_eq_true, State.modCard_kept, State.sendBlock_kept]; done) | split)

theorem State.cardMile_kept {W : List Fld} {s0 s : State}  (typ : BitVec 8) (aux : BitVec 16) (serial : Word) (version : BitVec 32) (hk : Kept W s0 s) (hkw : [Fld.journal] ⊆ W) :
    Kept W s0 (State.cardMile s typ aux serial version) := by
  simp only [List.cons_subset, List.nil_subset, and_true] at hkw
  unfold State.cardMile
  repeat' (first | (simp (maxDischargeDepth := 40) only [hk, hkw, Kept.refl, Kept.mk_of, Kept.ite, Kept.foldl, List.cons_subset, List.nil_subset, List.mem_cons, List.mem_singleton, and_true, true_and, true_or, or_true, and_self, implies_true, not_false_eq_true, State.anchor_kept]; done) | split)

theorem State.writeRecord_kept {W : List Fld} {s0 s : State}  (n : Nat) (y : Ceremony) (hk : Kept W s0 s) (hkw : [Fld.out, Fld.journal, Fld.cards] ⊆ W) :
    Kept W s0 (State.writeRecord s n y) := by
  simp only [List.cons_subset, List.nil_subset, and_true] at hkw
  unfold State.writeRecord
  repeat' (first | (simp (maxDischargeDepth := 40) only [hk, hkw, Kept.refl, Kept.mk_of, Kept.ite, Kept.foldl, List.cons_subset, List.nil_subset, List.mem_cons, List.mem_singleton, and_true, true_and, true_or, or_true, and_self, implies_true, not_false_eq_true, State.apdu_kept, State.cardMile_kept, State.modCard_kept]; done) | split)

theorem State.cardJoins_kept {W : List Fld} {s0 s : State}  (j : Joined) (hk : Kept W s0 s) (hkw : [Fld.freeCtr, Fld.cards] ⊆ W) :
    Kept W s0 (State.cardJoins s j) := by
  simp only [List.cons_subset, List.nil_subset, and_true] at hkw
  unfold State.cardJoins
  repeat' (first | (simp (maxDischargeDepth := 40) only [hk, hkw, Kept.refl, Kept.mk_of, Kept.ite, Kept.foldl, List.cons_subset, List.nil_subset, List.mem_cons, List.mem_singleton, and_true, true_and, true_or, or_true, and_self, implies_true, not_false_eq_true, State.drawn_kept, State.modCeremony_kept]; done) | split)

theorem State.settleTorn_kept {W : List Fld} {s0 s : State}  (t : Torn) (landed : Option Bool) (hk : Kept W s0 s) (hkw : [Fld.freeCtr, Fld.out, Fld.tes, Fld.clusters, Fld.depot, Fld.vault, Fld.journal, Fld.port0, Fld.port1, Fld.pcie, Fld.cards, Fld.faults, Fld.recorder, Fld.power] ⊆ W) :
    Kept W s0 (State.settleTorn s t landed) := by
  unfold State.settleTorn
  try dsimp only
  iterate 40 all_goals (first
    | with_reducible exact hk
    | with_reducible assumption
    | with_reducible exact Kept.refl _ _
    | with_reducible exact .inr rfl
    | (with_reducible exact List.Subset.trans (by decide) hkw)
    | (with_reducible exact .inl (Fld.mem_of hkw (by decide)))
    | (with_reducible apply Kept.ite <;> intro)
    | with_reducible apply State.abortCeremony_kept
    | with_reducible apply State.cardJoins_kept
    | with_reducible apply State.cardMile_kept
    | with_reducible apply State.modCeremony_kept
    | with_reducible apply Kept.getD
    | with_reducible apply Kept.elim
    | (with_reducible apply Kept.foldl; intro _ _; try dsimp only)
    | split
    | (intro _ _; try dsimp only)
    | with_reducible apply Kept.mk_of
    | skip)

theorem State.sendAuth_kept {W : List Fld} {s0 s : State}  (n : Nat) (hk : Kept W s0 s) (hkw : [Fld.freeCtr, Fld.out, Fld.entropy, Fld.cards] ⊆ W) :
    Kept W s0 (State.sendAuth s n) := by
  simp only [List.cons_subset, List.nil_subset, and_true] at hkw
  unfold State.sendAuth
  repeat' (first | (simp (maxDischargeDepth := 40) only [hk, hkw, Kept.refl, Kept.mk_of, Kept.ite, Kept.foldl, List.cons_subset, List.nil_subset, List.mem_cons, List.mem_singleton, and_true, true_and, true_or, or_true, and_self, implies_true, not_false_eq_true, State.apdu_kept, State.drawn_kept, State.hubRead_kept, State.modCard_kept]; done) | split)

theorem State.proceed_kept {W : List Fld} {s0 s : State}  (n : Nat) (hk : Kept W s0 s) (hkw : [Fld.out, Fld.tes, Fld.clusters, Fld.depot, Fld.vault, Fld.journal, Fld.port0, Fld.port1, Fld.pcie, Fld.cards, Fld.faults, Fld.recorder, Fld.power] ⊆ W) :
    Kept W s0 (State.proceed s n) := by
  simp only [List.cons_subset, List.nil_subset, and_true] at hkw
  unfold State.proceed
  repeat' (first | (simp (maxDischargeDepth := 40) only [hk, hkw, Kept.refl, Kept.mk_of, Kept.ite, Kept.foldl, List.cons_subset, List.nil_subset, List.mem_cons, List.mem_singleton, and_true, true_and, true_or, or_true, and_self, implies_true, not_false_eq_true, State.apdu_kept, State.joinNext_kept, State.modCard_kept, State.refuseCard_kept, State.writeRecord_kept]; done) | split)

theorem State.gotInfo_kept {W : List Fld} {s0 s : State}  (n : Nat) (d : Bytes) (hk : Kept W s0 s) (hkw : [Fld.freeCtr, Fld.out, Fld.tes, Fld.clusters, Fld.depot, Fld.vault, Fld.journal, Fld.port0, Fld.port1, Fld.pcie, Fld.entropy, Fld.cards, Fld.faults, Fld.recorder, Fld.power] ⊆ W) :
    Kept W s0 (State.gotInfo s n d) := by
  unfold State.gotInfo
  try dsimp only
  iterate 40 all_goals (first
    | with_reducible exact hk
    | with_reducible assumption
    | with_reducible exact Kept.refl _ _
    | with_reducible exact .inr rfl
    | (with_reducible exact List.Subset.trans (by decide) hkw)
    | (with_reducible exact .inl (Fld.mem_of hkw (by decide)))
    | (with_reducible apply Kept.ite <;> intro)
    | with_reducible apply State.modCard_kept
    | with_reducible apply State.sendAuth_kept
    | with_reducible apply State.settleTorn_kept
    | with_reducible apply Kept.getD
    | with_reducible apply Kept.elim
    | (with_reducible apply Kept.foldl; intro _ _; try dsimp only)
    | split
    | (intro _ _; try dsimp only)
    | with_reducible apply Kept.mk_of
    | skip)

theorem State.gotAuth_kept {W : List Fld} {s0 s : State}  (n : Nat) (d : Bytes) (hk : Kept W s0 s) (hkw : [Fld.out, Fld.tes, Fld.clusters, Fld.depot, Fld.vault, Fld.journal, Fld.port0, Fld.port1, Fld.pcie, Fld.cards, Fld.faults, Fld.recorder, Fld.power] ⊆ W) :
    Kept W s0 (State.gotAuth s n d) := by
  unfold State.gotAuth
  try dsimp only
  iterate 40 all_goals (first
    | with_reducible exact hk
    | with_reducible assumption
    | with_reducible exact Kept.refl _ _
    | with_reducible exact .inr rfl
    | (with_reducible exact List.Subset.trans (by decide) hkw)
    | (with_reducible exact .inl (Fld.mem_of hkw (by decide)))
    | (with_reducible apply Kept.ite <;> intro)
    | with_reducible apply State.apdu_kept
    | with_reducible apply State.modCard_kept
    | with_reducible apply State.proceed_kept
    | with_reducible apply State.refuseCard_kept
    | with_reducible apply Kept.getD
    | with_reducible apply Kept.elim
    | (with_reducible apply Kept.foldl; intro _ _; try dsimp only)
    | split
    | (intro _ _; try dsimp only)
    | with_reducible apply Kept.mk_of
    | skip)

theorem State.gotArea_kept {W : List Fld} {s0 s : State}  (n : Nat) (d : Bytes) (hk : Kept W s0 s) (hkw : [Fld.freeCtr, Fld.out, Fld.tes, Fld.clusters, Fld.depot, Fld.vault, Fld.journal, Fld.port0, Fld.port1, Fld.pcie, Fld.cards, Fld.faults, Fld.recorder, Fld.power] ⊆ W) :
    Kept W s0 (State.gotArea s n d) := by
  unfold State.gotArea
  try dsimp only
  iterate 40 all_goals (first
    | with_reducible exact hk
    | with_reducible assumption
    | with_reducible exact Kept.refl _ _
    | with_reducible exact .inr rfl
    | (with_reducible exact List.Subset.trans (by decide) hkw)
    | (with_reducible exact .inl (Fld.mem_of hkw (by decide)))
    | (with_reducible apply Kept.ite <;> intro)
    | with_reducible apply State.cardFails_kept
    | with_reducible apply State.joinNext_kept
    | with_reducible apply State.modCard_kept
    | with_reducible apply State.proceed_kept
    | with_reducible apply State.settleTorn_kept
    | with_reducible apply Kept.getD
    | with_reducible apply Kept.elim
    | (with_reducible apply Kept.foldl; intro _ _; try dsimp only)
    | split
    | (intro _ _; try dsimp only)
    | with_reducible apply Kept.mk_of
    | skip)

theorem State.gotShare_kept {W : List Fld} {s0 s : State}  (n : Nat) (d : Bytes) (hk : Kept W s0 s) (hkw : [Fld.out, Fld.tes, Fld.clusters, Fld.depot, Fld.vault, Fld.journal, Fld.port0, Fld.port1, Fld.pcie, Fld.cards, Fld.faults, Fld.recorder, Fld.power] ⊆ W) :
    Kept W s0 (State.gotShare s n d) := by
  unfold State.gotShare
  try dsimp only
  iterate 40 all_goals (first
    | with_reducible exact hk
    | with_reducible assumption
    | with_reducible exact Kept.refl _ _
    | with_reducible exact .inr rfl
    | (with_reducible exact List.Subset.trans (by decide) hkw)
    | (with_reducible exact .inl (Fld.mem_of hkw (by decide)))
    | (with_reducible apply Kept.ite <;> intro)
    | with_reducible apply State.cardFails_kept
    | with_reducible apply State.modCard_kept
    | with_reducible apply State.writeRecord_kept
    | with_reducible apply Kept.getD
    | with_reducible apply Kept.elim
    | (with_reducible apply Kept.foldl; intro _ _; try dsimp only)
    | split
    | (intro _ _; try dsimp only)
    | with_reducible apply Kept.mk_of
    | skip)

theorem State.gotReceipt_kept {W : List Fld} {s0 s : State}  (n : Nat) (d : Bytes) (hk : Kept W s0 s) (hkw : [Fld.freeCtr, Fld.out, Fld.tes, Fld.clusters, Fld.depot, Fld.vault, Fld.journal, Fld.port0, Fld.port1, Fld.pcie, Fld.cards, Fld.faults, Fld.recorder, Fld.power] ⊆ W) :
    Kept W s0 (State.gotReceipt s n d) := by
  simp only [List.cons_subset, List.nil_subset, and_true] at hkw
  unfold State.gotReceipt
  repeat' (first | (simp (maxDischargeDepth := 40) only [hk, hkw, Kept.refl, Kept.mk_of, Kept.ite, Kept.foldl, List.cons_subset, List.nil_subset, List.mem_cons, List.mem_singleton, and_true, true_and, true_or, or_true, and_self, implies_true, not_false_eq_true, State.cardFails_kept, State.cardJoins_kept, State.cardMile_kept, State.joinNext_kept, State.modCard_kept]; done) | split)

theorem State.cardAnswer_kept {W : List Fld} {s0 s : State}  (n : Nat) (r : Bytes) (hk : Kept W s0 s) (hkw : [Fld.freeCtr, Fld.out, Fld.tes, Fld.clusters, Fld.depot, Fld.vault, Fld.journal, Fld.port0, Fld.port1, Fld.pcie, Fld.entropy, Fld.cards, Fld.faults, Fld.recorder, Fld.power] ⊆ W) :
    Kept W s0 (State.cardAnswer s n r) := by
  simp only [List.cons_subset, List.nil_subset, and_true] at hkw
  unfold State.cardAnswer
  repeat' (first | (simp (maxDischargeDepth := 40) only [hk, hkw, Kept.refl, Kept.mk_of, Kept.ite, Kept.foldl, List.cons_subset, List.nil_subset, List.mem_cons, List.mem_singleton, and_true, true_and, true_or, or_true, and_self, implies_true, not_false_eq_true, State.apdu_kept, State.cardFails_kept, State.gotArea_kept, State.gotAuth_kept, State.gotInfo_kept, State.gotReceipt_kept, State.gotShare_kept, State.refuseCard_kept]; done) | split)

theorem State.t1Error_kept {W : List Fld} {s0 s : State}  (n : Nat) (hk : Kept W s0 s) (hkw : [Fld.out, Fld.tes, Fld.clusters, Fld.depot, Fld.vault, Fld.journal, Fld.port0, Fld.port1, Fld.pcie, Fld.cards, Fld.faults, Fld.recorder, Fld.power] ⊆ W) :
    Kept W s0 (State.t1Error s n) := by
  simp only [List.cons_subset, List.nil_subset, and_true] at hkw
  unfold State.t1Error
  repeat' (first | (simp (maxDischargeDepth := 40) only [hk, hkw, Kept.refl, Kept.mk_of, Kept.ite, Kept.foldl, List.cons_subset, List.nil_subset, List.mem_cons, List.mem_singleton, and_true, true_and, true_or, or_true, and_self, implies_true, not_false_eq_true, State.cardFails_kept, State.count_kept, State.modCard_kept, State.sendR_kept]; done) | split)

theorem State.gotI_kept {W : List Fld} {s0 s : State}  (n pcb : Nat) (inf : Bytes) (hk : Kept W s0 s) (hkw : [Fld.freeCtr, Fld.out, Fld.tes, Fld.clusters, Fld.depot, Fld.vault, Fld.journal, Fld.port0, Fld.port1, Fld.pcie, Fld.entropy, Fld.cards, Fld.faults, Fld.recorder, Fld.power] ⊆ W) :
    Kept W s0 (State.gotI s n pcb inf) := by
  simp only [List.cons_subset, List.nil_subset, and_true] at hkw
  unfold State.gotI
  repeat' (first | (simp (maxDischargeDepth := 40) only [hk, hkw, Kept.refl, Kept.mk_of, Kept.ite, Kept.foldl, List.cons_subset, List.nil_subset, List.mem_cons, List.mem_singleton, and_true, true_and, true_or, or_true, and_self, implies_true, not_false_eq_true, State.cardAnswer_kept, State.modCard_kept, State.sendR_kept, State.t1Error_kept]; done) | split)

theorem State.gotR_kept {W : List Fld} {s0 s : State}  (n pcb : Nat) (hk : Kept W s0 s) (hkw : [Fld.out, Fld.tes, Fld.clusters, Fld.depot, Fld.vault, Fld.journal, Fld.port0, Fld.port1, Fld.pcie, Fld.cards, Fld.faults, Fld.recorder, Fld.power] ⊆ W) :
    Kept W s0 (State.gotR s n pcb) := by
  simp only [List.cons_subset, List.nil_subset, and_true] at hkw
  unfold State.gotR
  repeat' (first | (simp (maxDischargeDepth := 40) only [hk, hkw, Kept.refl, Kept.mk_of, Kept.ite, Kept.foldl, List.cons_subset, List.nil_subset, List.mem_cons, List.mem_singleton, and_true, true_and, true_or, or_true, and_self, implies_true, not_false_eq_true, State.cardFails_kept, State.count_kept, State.emit_kept, State.modCard_kept, State.sendI_kept]; done) | split)

theorem State.gotS_kept {W : List Fld} {s0 s : State}  (n pcb : Nat) (inf : Bytes) (hk : Kept W s0 s) (hkw : [Fld.out, Fld.tes, Fld.clusters, Fld.depot, Fld.vault, Fld.journal, Fld.port0, Fld.port1, Fld.pcie, Fld.cards, Fld.faults, Fld.recorder, Fld.power] ⊆ W) :
    Kept W s0 (State.gotS s n pcb inf) := by
  simp only [List.cons_subset, List.nil_subset, and_true] at hkw
  unfold State.gotS
  repeat' (first | (simp (maxDischargeDepth := 40) only [hk, hkw, Kept.refl, Kept.mk_of, Kept.ite, Kept.foldl, List.cons_subset, List.nil_subset, List.mem_cons, List.mem_singleton, and_true, true_and, true_or, or_true, and_self, implies_true, not_false_eq_true, State.count_kept, State.emit_kept, State.joinNext_kept, State.modCard_kept, State.t1Error_kept]; done) | split)

theorem State.tryClassB_kept {W : List Fld} {s0 s : State}  (n : Nat) (hk : Kept W s0 s) (hkw : [Fld.out, Fld.cards] ⊆ W) :
    Kept W s0 (State.tryClassB s n) := by
  simp only [List.cons_subset, List.nil_subset, and_true] at hkw
  unfold State.tryClassB
  repeat' (first | (simp (maxDischargeDepth := 40) only [hk, hkw, Kept.refl, Kept.mk_of, Kept.ite, Kept.foldl, List.cons_subset, List.nil_subset, List.mem_cons, List.mem_singleton, and_true, true_and, true_or, or_true, and_self, implies_true, not_false_eq_true, State.cardOff_kept, State.emit_kept, State.setCard_kept]; done) | split)

theorem State.leaveFaulted_kept {W : List Fld} {s0 s : State}  (hk : Kept W s0 s) (hkw : [Fld.out, Fld.mem, Fld.clusters, Fld.lanes, Fld.depot, Fld.port0, Fld.port1, Fld.pcie, Fld.faults, Fld.recorder, Fld.power] ⊆ W) :
    Kept W s0 (State.leaveFaulted s) := by
  simp only [List.cons_subset, List.nil_subset, and_true] at hkw
  unfold State.leaveFaulted
  repeat' (first | (simp (maxDischargeDepth := 40) only [hk, hkw, Kept.refl, Kept.mk_of, Kept.ite, Kept.foldl, List.cons_subset, List.nil_subset, List.mem_cons, List.mem_singleton, and_true, true_and, true_or, or_true, and_self, implies_true, not_false_eq_true, State.reinstateFor_kept, State.setDev_kept, State.train_kept]; done) | split)

theorem State.clearActive_kept {W : List Fld} {s0 s : State}  (n : Nat × Byte × BitVec 16) (hk : Kept W s0 s) (hkw : [Fld.out, Fld.mem, Fld.clusters, Fld.lanes, Fld.depot, Fld.port0, Fld.port1, Fld.pcie, Fld.gates, Fld.faults, Fld.recorder, Fld.power] ⊆ W) :
    Kept W s0 (State.clearActive s n) := by
  simp only [List.cons_subset, List.nil_subset, and_true] at hkw
  unfold State.clearActive
  repeat' (first | (simp (maxDischargeDepth := 40) only [hk, hkw, Kept.refl, Kept.mk_of, Kept.ite, Kept.foldl, List.cons_subset, List.nil_subset, List.mem_cons, List.mem_singleton, and_true, true_and, true_or, or_true, and_self, implies_true, not_false_eq_true, State.leaveFaulted_kept]; done) | split)

theorem State.rerunDone_kept {W : List Fld} {s0 s : State}  (src : BitVec 16) (ok : Bool) (hk : Kept W s0 s) (hkw : [Fld.out, Fld.mem, Fld.clusters, Fld.lanes, Fld.depot, Fld.journal, Fld.port0, Fld.port1, Fld.pcie, Fld.gates, Fld.faults, Fld.recorder, Fld.power] ⊆ W) :
    Kept W s0 (State.rerunDone s src ok) := by
  unfold State.rerunDone
  try dsimp only
  iterate 40 all_goals (first
    | with_reducible exact hk
    | with_reducible assumption
    | with_reducible exact Kept.refl _ _
    | with_reducible exact .inr rfl
    | (with_reducible exact List.Subset.trans (by decide) hkw)
    | (with_reducible exact .inl (Fld.mem_of hkw (by decide)))
    | (with_reducible apply Kept.ite <;> intro)
    | with_reducible apply State.clearActive_kept
    | with_reducible apply State.finishLater_kept
    | with_reducible apply Kept.getD
    | with_reducible apply Kept.elim
    | (with_reducible apply Kept.foldl; intro _ _; try dsimp only)
    | split
    | (intro _ _; try dsimp only)
    | with_reducible apply Kept.mk_of
    | skip)

end Sys2Proof.Machine
end

