-- ==== Sys2Proof/Laws/KeptWork.lean ====
section
/-! SUPPORT. What each operation on the state may change: the Depot, the reserves, the jobs, the functions and migration. -/

namespace Sys2Proof.Machine

set_option linter.all false

theorem State.modCluster_kept {W : List Fld} {s0 s : State}  (c : Nat) (f : Cluster → Cluster) (hk : Kept W s0 s) (hkw : [Fld.clusters] ⊆ W) :
    Kept W s0 (State.modCluster s c f) := by
  simp only [List.cons_subset, List.nil_subset, and_true] at hkw
  unfold State.modCluster
  repeat' (first | (simp (maxDischargeDepth := 40) only [hk, hkw, Kept.refl, Kept.mk_of, Kept.ite, Kept.foldl, List.cons_subset, List.nil_subset, List.mem_cons, List.mem_singleton, and_true, true_and, true_or, or_true, and_self, implies_true, not_false_eq_true, State.setCluster_kept]; done) | split)

theorem State.modTes_kept {W : List Fld} {s0 s : State}  (c : Nat) (f : Te → Te) (hk : Kept W s0 s) (hkw : [Fld.tes] ⊆ W) :
    Kept W s0 (State.modTes s c f) := by
  simp only [List.cons_subset, List.nil_subset, and_true] at hkw
  unfold State.modTes
  repeat' (first | (simp (maxDischargeDepth := 40) only [hk, hkw, Kept.refl, Kept.mk_of, Kept.ite, Kept.foldl, List.cons_subset, List.nil_subset, List.mem_cons, List.mem_singleton, and_true, true_and, true_or, or_true, and_self, implies_true, not_false_eq_true, State.setTe_kept]; done) | split)

theorem State.sleepNow_kept {W : List Fld} {s0 s : State}  (c : Nat) (hk : Kept W s0 s) (hkw : [Fld.mem, Fld.tes, Fld.clusters, Fld.port0, Fld.port1] ⊆ W) :
    Kept W s0 (State.sleepNow s c) := by
  simp only [List.cons_subset, List.nil_subset, and_true] at hkw
  unfold State.sleepNow
  repeat' (first | (simp (maxDischargeDepth := 40) only [hk, hkw, Kept.refl, Kept.mk_of, Kept.ite, Kept.foldl, List.cons_subset, List.nil_subset, List.mem_cons, List.mem_singleton, and_true, true_and, true_or, or_true, and_self, implies_true, not_false_eq_true, State.modCluster_kept, State.modTes_kept, State.setStream_kept, State.wipe_kept]; done) | split)

theorem State.beginStandby_kept {W : List Fld} {s0 s : State}  (hk : Kept W s0 s) (hkw : [Fld.out, Fld.tes, Fld.clusters, Fld.lanes, Fld.depot, Fld.port0, Fld.port1, Fld.pcie, Fld.time, Fld.faults, Fld.recorder, Fld.power] ⊆ W) :
    Kept W s0 (State.beginStandby s) := by
  simp only [List.cons_subset, List.nil_subset, and_true] at hkw
  unfold State.beginStandby
  repeat' (first | (simp (maxDischargeDepth := 40) only [hk, hkw, Kept.refl, Kept.mk_of, Kept.ite, Kept.foldl, List.cons_subset, List.nil_subset, List.mem_cons, List.mem_singleton, and_true, true_and, true_or, or_true, and_self, implies_true, not_false_eq_true, State.plannedStop_kept, State.portDown_kept]; done) | split)

theorem State.startStandby_kept {W : List Fld} {s0 s : State}  (c : Cmd) (hk : Kept W s0 s) (hkw : [Fld.out, Fld.tes, Fld.clusters, Fld.lanes, Fld.depot, Fld.journal, Fld.port0, Fld.port1, Fld.pcie, Fld.time, Fld.faults, Fld.recorder, Fld.power] ⊆ W) :
    Kept W s0 (State.startStandby s c) := by
  simp only [List.cons_subset, List.nil_subset, and_true] at hkw
  unfold State.startStandby
  repeat' (first | (simp (maxDischargeDepth := 40) only [hk, hkw, Kept.refl, Kept.mk_of, Kept.ite, Kept.foldl, List.cons_subset, List.nil_subset, List.mem_cons, List.mem_singleton, and_true, true_and, true_or, or_true, and_self, implies_true, not_false_eq_true, State.beginStandby_kept, State.finishLater_kept]; done) | split)

theorem State.holdUnit_kept {W : List Fld} {s0 s : State}  (src : BitVec 16) (hk : Kept W s0 s) (hkw : [Fld.steward] ⊆ W) :
    Kept W s0 (State.holdUnit s src) := by
  simp only [List.cons_subset, List.nil_subset, and_true] at hkw
  unfold State.holdUnit
  repeat' (first | (simp (maxDischargeDepth := 40) only [hk, hkw, Kept.refl, Kept.mk_of, Kept.ite, Kept.foldl, List.cons_subset, List.nil_subset, List.mem_cons, List.mem_singleton, and_true, true_and, true_or, or_true, and_self, implies_true, not_false_eq_true]; done) | split)

theorem State.startKat_kept {W : List Fld} {s0 s : State}  (src : BitVec 16) (hk : Kept W s0 s) (hkw : [Fld.steward, Fld.entropy] ⊆ W) :
    Kept W s0 (State.startKat s src) := by
  simp only [List.cons_subset, List.nil_subset, and_true] at hkw
  unfold State.startKat
  repeat' (first | (simp (maxDischargeDepth := 40) only [hk, hkw, Kept.refl, Kept.mk_of, Kept.ite, Kept.foldl, List.cons_subset, List.nil_subset, List.mem_cons, List.mem_singleton, and_true, true_and, true_or, or_true, and_self, implies_true, not_false_eq_true, State.holdUnit_kept]; done) | split)

theorem State.defer_kept {W : List Fld} {s0 s : State}  (src : BitVec 16) (what : Nat) (hk : Kept W s0 s) (hkw : [Fld.steward] ⊆ W) :
    Kept W s0 (State.defer s src what) := by
  simp only [List.cons_subset, List.nil_subset, and_true] at hkw
  unfold State.defer
  repeat' (first | (simp (maxDischargeDepth := 40) only [hk, hkw, Kept.refl, Kept.mk_of, Kept.ite, Kept.foldl, List.cons_subset, List.nil_subset, List.mem_cons, List.mem_singleton, and_true, true_and, true_or, or_true, and_self, implies_true, not_false_eq_true]; done) | split)

theorem State.runDeferred_kept {W : List Fld} {s0 s : State}  (r : BitVec 16 × Nat) (hk : Kept W s0 s) (hkw : [Fld.out, Fld.mem, Fld.tes, Fld.clusters, Fld.lanes, Fld.depot, Fld.journal, Fld.port0, Fld.port1, Fld.pcie, Fld.time, Fld.faults, Fld.recorder, Fld.power] ⊆ W) :
    Kept W s0 (State.runDeferred s r) := by
  simp only [List.cons_subset, List.nil_subset, and_true] at hkw
  unfold State.runDeferred
  repeat' (first | (simp (maxDischargeDepth := 40) only [hk, hkw, Kept.refl, Kept.mk_of, Kept.ite, Kept.foldl, List.cons_subset, List.nil_subset, List.mem_cons, List.mem_singleton, and_true, true_and, true_or, or_true, and_self, implies_true, not_false_eq_true, State.sleepNow_kept, State.startStandby_kept]; done) | split)

theorem State.releaseHold_kept {W : List Fld} {s0 s : State}  (src : BitVec 16) (hk : Kept W s0 s) (hkw : [Fld.out, Fld.mem, Fld.tes, Fld.clusters, Fld.lanes, Fld.depot, Fld.journal, Fld.port0, Fld.port1, Fld.pcie, Fld.steward, Fld.time, Fld.faults, Fld.recorder, Fld.power] ⊆ W) :
    Kept W s0 (State.releaseHold s src) := by
  simp only [List.cons_subset, List.nil_subset, and_true] at hkw
  unfold State.releaseHold
  repeat' (first | (simp (maxDischargeDepth := 40) only [hk, hkw, Kept.refl, Kept.mk_of, Kept.ite, Kept.foldl, List.cons_subset, List.nil_subset, List.mem_cons, List.mem_singleton, and_true, true_and, true_or, or_true, and_self, implies_true, not_false_eq_true, State.runDeferred_kept]; done) | split)

theorem State.zeroise_kept {W : List Fld} {s0 s : State}  (c : Nat) (hk : Kept W s0 s) (hkw : [Fld.mem, Fld.tes, Fld.clusters] ⊆ W) :
    Kept W s0 (State.zeroise s c) := by
  simp only [List.cons_subset, List.nil_subset, and_true] at hkw
  unfold State.zeroise
  repeat' (first | (simp (maxDischargeDepth := 40) only [hk, hkw, Kept.refl, Kept.mk_of, Kept.ite, Kept.foldl, List.cons_subset, List.nil_subset, List.mem_cons, List.mem_singleton, and_true, true_and, true_or, or_true, and_self, implies_true, not_false_eq_true, State.clearSaveAreas_kept, State.modCluster_kept, State.modTes_kept]; done) | split)

theorem State.endCluster_kept {W : List Fld} {s0 s : State}  (c : Nat) (hk : Kept W s0 s) (hkw : [Fld.out, Fld.mem, Fld.seats, Fld.tes, Fld.clusters, Fld.lanes, Fld.depot, Fld.journal, Fld.port0, Fld.port1, Fld.pcie, Fld.recorder] ⊆ W) :
    Kept W s0 (State.endCluster s c) := by
  simp only [List.cons_subset, List.nil_subset, and_true] at hkw
  unfold State.endCluster
  repeat' (first | (simp (maxDischargeDepth := 40) only [hk, hkw, Kept.refl, Kept.mk_of, Kept.ite, Kept.foldl, List.cons_subset, List.nil_subset, List.mem_cons, List.mem_singleton, and_true, true_and, true_or, or_true, and_self, implies_true, not_false_eq_true, State.abortStream_kept, State.jobLost_kept, State.killSeat_kept, State.modCluster_kept, State.wipe_kept, State.zeroise_kept]; done) | split)

theorem State.modEngagement_kept {W : List Fld} {s0 s : State}  (f : Engagement → Engagement) (hk : Kept W s0 s) (hkw : [Fld.power] ⊆ W) :
    Kept W s0 (State.modEngagement s f) := by
  simp only [List.cons_subset, List.nil_subset, and_true] at hkw
  unfold State.modEngagement
  repeat' (first | (simp (maxDischargeDepth := 40) only [hk, hkw, Kept.refl, Kept.mk_of, Kept.ite, Kept.foldl, List.cons_subset, List.nil_subset, List.mem_cons, List.mem_singleton, and_true, true_and, true_or, or_true, and_self, implies_true, not_false_eq_true]; done) | split)

theorem State.engageDone_kept {W : List Fld} {s0 s : State}  (e : Engagement) (code : Nat) (rsp : Bytes) (hk : Kept W s0 s) (hkw : [Fld.out, Fld.journal, Fld.pcie, Fld.recorder] ⊆ W) :
    Kept W s0 (State.engageDone s e code rsp) := by
  simp only [List.cons_subset, List.nil_subset, and_true] at hkw
  unfold State.engageDone
  repeat' (first | (simp (maxDischargeDepth := 40) only [hk, hkw, Kept.refl, Kept.mk_of, Kept.ite, Kept.foldl, List.cons_subset, List.nil_subset, List.mem_cons, List.mem_singleton, and_true, true_and, true_or, or_true, and_self, implies_true, not_false_eq_true, State.finishLater_kept]; done) | split)

theorem State.dropEngagement_kept {W : List Fld} {s0 s : State}  (hk : Kept W s0 s) (hkw : [Fld.power] ⊆ W) :
    Kept W s0 (State.dropEngagement s) := by
  simp only [List.cons_subset, List.nil_subset, and_true] at hkw
  unfold State.dropEngagement
  repeat' (first | (simp (maxDischargeDepth := 40) only [hk, hkw, Kept.refl, Kept.mk_of, Kept.ite, Kept.foldl, List.cons_subset, List.nil_subset, List.mem_cons, List.mem_singleton, and_true, true_and, true_or, or_true, and_self, implies_true, not_false_eq_true]; done) | split)

theorem State.takeReserve_kept {W : List Fld} {s0 s : State}  (c r : Nat) (hk : Kept W s0 s) (hkw : [Fld.clusters, Fld.steward, Fld.entropy, Fld.power] ⊆ W) :
    Kept W s0 (State.takeReserve s c r) := by
  simp only [List.cons_subset, List.nil_subset, and_true] at hkw
  unfold State.takeReserve
  repeat' (first | (simp (maxDischargeDepth := 40) only [hk, hkw, Kept.refl, Kept.mk_of, Kept.ite, Kept.foldl, List.cons_subset, List.nil_subset, List.mem_cons, List.mem_singleton, and_true, true_and, true_or, or_true, and_self, implies_true, not_false_eq_true, State.holdUnit_kept, State.modCluster_kept, State.modEngagement_kept, State.startKat_kept]; done) | split)

theorem State.startTe_kept {W : List Fld} {s0 s : State}  (c t : Nat) (hk : Kept W s0 s) (hkw : [Fld.mem, Fld.seats, Fld.tes] ⊆ W) :
    Kept W s0 (State.startTe s c t) := by
  simp only [List.cons_subset, List.nil_subset, and_true] at hkw
  unfold State.startTe
  repeat' (first | (simp (maxDischargeDepth := 40) only [hk, hkw, Kept.refl, Kept.mk_of, Kept.ite, Kept.foldl, List.cons_subset, List.nil_subset, List.mem_cons, List.mem_singleton, and_true, true_and, true_or, or_true, and_self, implies_true, not_false_eq_true, State.enterSeat_kept, State.setSeat_kept]; done) | split)

theorem State.startNext_kept {W : List Fld} (hkw : [Fld.out, Fld.tes, Fld.clusters, Fld.depot, Fld.vault, Fld.journal, Fld.port0, Fld.port1, Fld.pcie, Fld.steward, Fld.entropy, Fld.cards, Fld.faults, Fld.recorder, Fld.power] ⊆ W) :
    ∀ (n : Nat) (s0 s : State), Kept W s0 s → Kept W s0 (State.startNext n s)
  | 0, _, _, hk => hk
  | n + 1, s0, s, hk => by
    have sub : ∀ {A : List Fld}, (A ⊆ [Fld.out, Fld.tes, Fld.clusters, Fld.depot, Fld.vault, Fld.journal, Fld.port0, Fld.port1, Fld.pcie, Fld.steward, Fld.entropy, Fld.cards, Fld.faults, Fld.recorder, Fld.power]) → A ⊆ W := fun h => List.Subset.trans h hkw
    have ih := State.startNext_kept hkw n
    have hd := State.dropEngagement_kept hk (sub (by decide))
    unfold State.startNext
    split
    · exact hk
    · split
      · exact hk
      · split
        · exact State.takeReserve_kept _ _ (State.holdUnit_kept _ hk (sub (by decide))) (sub (by decide))
        · split
          · exact ih s0 _ (State.fault_kept _ _ _ _ hd (sub (by decide)))
          · split
            · exact ih s0 _ hd
            · split
              · exact ih s0 _ (State.engageDone_kept _ _ _ hd (sub (by decide)))
              · exact State.modCluster_kept _ _ (State.holdUnit_kept _ hk (sub (by decide))) (sub (by decide))

theorem State.startEngagement_kept {W : List Fld} {s0 s : State}  (hk : Kept W s0 s) (hkw : [Fld.out, Fld.tes, Fld.clusters, Fld.depot, Fld.vault, Fld.journal, Fld.port0, Fld.port1, Fld.pcie, Fld.steward, Fld.entropy, Fld.cards, Fld.faults, Fld.recorder, Fld.power] ⊆ W) :
    Kept W s0 (State.startEngagement s) := by
  unfold State.startEngagement
  try dsimp only
  iterate 40 all_goals (first
    | with_reducible exact hk
    | with_reducible assumption
    | with_reducible exact Kept.refl _ _
    | with_reducible exact .inr rfl
    | (with_reducible exact List.Subset.trans (by decide) hkw)
    | (with_reducible exact .inl (Fld.mem_of hkw (by decide)))
    | (with_reducible apply Kept.ite <;> intro)
    | (apply State.startNext_kept; first | with_reducible exact List.Subset.trans (by decide) hkw | skip)
    | with_reducible apply Kept.getD
    | with_reducible apply Kept.elim
    | (with_reducible apply Kept.foldl; intro _ _; try dsimp only)
    | split
    | (intro _ _; try dsimp only)
    | with_reducible apply Kept.mk_of
    | skip)

theorem State.serveOn_kept {W : List Fld} {s0 s : State}  (c : Nat) (hk : Kept W s0 s) (hkw : [Fld.mem, Fld.seats, Fld.tes, Fld.clusters, Fld.depot] ⊆ W) :
    Kept W s0 (State.serveOn s c) := by
  unfold State.serveOn
  try dsimp only
  iterate 40 all_goals (first
    | with_reducible exact hk
    | with_reducible assumption
    | with_reducible exact Kept.refl _ _
    | with_reducible exact .inr rfl
    | (with_reducible exact List.Subset.trans (by decide) hkw)
    | (with_reducible exact .inl (Fld.mem_of hkw (by decide)))
    | (with_reducible apply Kept.ite <;> intro)
    | with_reducible apply State.modCluster_kept
    | with_reducible apply State.startTe_kept
    | with_reducible apply Kept.getD
    | with_reducible apply Kept.elim
    | (with_reducible apply Kept.foldl; intro _ _; try dsimp only)
    | split
    | (intro _ _; try dsimp only)
    | with_reducible apply Kept.mk_of
    | skip)

theorem State.queueEngagement_kept {W : List Fld} {s0 s : State}  (c cause : Nat) (cmd : Option Cmd) (hk : Kept W s0 s) (hkw : [Fld.out, Fld.tes, Fld.clusters, Fld.depot, Fld.vault, Fld.journal, Fld.port0, Fld.port1, Fld.pcie, Fld.steward, Fld.entropy, Fld.cards, Fld.faults, Fld.recorder, Fld.power] ⊆ W) :
    Kept W s0 (State.queueEngagement s c cause cmd) := by
  simp only [List.cons_subset, List.nil_subset, and_true] at hkw
  unfold State.queueEngagement
  repeat' (first | (simp (maxDischargeDepth := 40) only [hk, hkw, Kept.refl, Kept.mk_of, Kept.ite, Kept.foldl, List.cons_subset, List.nil_subset, List.mem_cons, List.mem_singleton, and_true, true_and, true_or, or_true, and_self, implies_true, not_false_eq_true, State.startEngagement_kept]; done) | split)

theorem State.packAll_kept {W : List Fld} {s0 s : State}  (src target : Nat) (hk : Kept W s0 s) (hkw : [Fld.freeCtr, Fld.tes, Fld.clusters, Fld.depot, Fld.port0, Fld.port1] ⊆ W) :
    Kept W s0 (State.packAll s src target) := by
  simp only [List.cons_subset, List.nil_subset, and_true] at hkw
  unfold State.packAll
  repeat' (first | (simp (maxDischargeDepth := 40) only [hk, hkw, Kept.refl, Kept.mk_of, Kept.ite, Kept.foldl, List.cons_subset, List.nil_subset, List.mem_cons, List.mem_singleton, and_true, true_and, true_or, or_true, and_self, implies_true, not_false_eq_true, State.sendPackage_kept, State.sendStream_kept]; done) | split)

theorem State.reserveFailed_kept {W : List Fld} {s0 s : State}  (r : Nat) (hk : Kept W s0 s) (hkw : [Fld.freeCtr, Fld.out, Fld.mem, Fld.seats, Fld.tes, Fld.clusters, Fld.lanes, Fld.depot, Fld.vault, Fld.journal, Fld.port0, Fld.port1, Fld.pcie, Fld.steward, Fld.time, Fld.entropy, Fld.cards, Fld.faults, Fld.recorder, Fld.power] ⊆ W) :
    Kept W s0 (State.reserveFailed s r) := by
  unfold State.reserveFailed
  try dsimp only
  iterate 40 all_goals (first
    | with_reducible exact hk
    | with_reducible assumption
    | with_reducible exact Kept.refl _ _
    | with_reducible exact .inr rfl
    | (with_reducible exact List.Subset.trans (by decide) hkw)
    | (with_reducible exact .inl (Fld.mem_of hkw (by decide)))
    | (with_reducible apply Kept.ite <;> intro)
    | with_reducible apply State.dropEngagement_kept
    | with_reducible apply State.endCluster_kept
    | with_reducible apply State.engageDone_kept
    | with_reducible apply State.fault_kept
    | with_reducible apply State.modCluster_kept
    | with_reducible apply State.modEngagement_kept
    | with_reducible apply State.packAll_kept
    | with_reducible apply State.releaseHold_kept
    | with_reducible apply State.sendPackage_kept
    | with_reducible apply State.serveOn_kept
    | with_reducible apply State.startEngagement_kept
    | with_reducible apply State.takeReserve_kept
    | with_reducible apply Kept.getD
    | with_reducible apply Kept.elim
    | (with_reducible apply Kept.foldl; intro _ _; try dsimp only)
    | split
    | (intro _ _; try dsimp only)
    | with_reducible apply Kept.mk_of
    | skip)

theorem State.flagFailing_kept {W : List Fld} {s0 s : State}  (c cause : Nat) (whole : Bool) (hk : Kept W s0 s) (hkw : [Fld.freeCtr, Fld.out, Fld.mem, Fld.seats, Fld.tes, Fld.clusters, Fld.lanes, Fld.depot, Fld.vault, Fld.journal, Fld.port0, Fld.port1, Fld.pcie, Fld.steward, Fld.time, Fld.entropy, Fld.cards, Fld.faults, Fld.recorder, Fld.power] ⊆ W) :
    Kept W s0 (State.flagFailing s c cause whole) := by
  unfold State.flagFailing
  try dsimp only
  iterate 40 all_goals (first
    | with_reducible exact hk
    | with_reducible assumption
    | with_reducible exact Kept.refl _ _
    | with_reducible exact .inr rfl
    | (with_reducible exact List.Subset.trans (by decide) hkw)
    | (with_reducible exact .inl (Fld.mem_of hkw (by decide)))
    | (with_reducible apply Kept.ite <;> intro)
    | with_reducible apply State.endCluster_kept
    | with_reducible apply State.fault_kept
    | with_reducible apply State.modCluster_kept
    | with_reducible apply State.queueEngagement_kept
    | with_reducible apply State.reserveFailed_kept
    | with_reducible apply Kept.getD
    | with_reducible apply Kept.elim
    | (with_reducible apply Kept.foldl; intro _ _; try dsimp only)
    | split
    | (intro _ _; try dsimp only)
    | with_reducible apply Kept.mk_of
    | skip)

theorem State.dropPackage_kept {W : List Fld} {s0 s : State}  (g : Package) (hk : Kept W s0 s) (hkw : [Fld.depot] ⊆ W) :
    Kept W s0 (State.dropPackage s g) := by
  simp only [List.cons_subset, List.nil_subset, and_true] at hkw
  unfold State.dropPackage
  repeat' (first | (simp (maxDischargeDepth := 40) only [hk, hkw, Kept.refl, Kept.mk_of, Kept.ite, Kept.foldl, List.cons_subset, List.nil_subset, List.mem_cons, List.mem_singleton, and_true, true_and, true_or, or_true, and_self, implies_true, not_false_eq_true]; done) | split)

theorem State.moveSeat_kept {W : List Fld} {s0 s : State}  (k target : Nat) (hk : Kept W s0 s) (hkw : [Fld.mem, Fld.seats, Fld.tes] ⊆ W) :
    Kept W s0 (State.moveSeat s k target) := by
  simp only [List.cons_subset, List.nil_subset, and_true] at hkw
  unfold State.moveSeat
  repeat' (first | (simp (maxDischargeDepth := 40) only [hk, hkw, Kept.refl, Kept.mk_of, Kept.ite, Kept.foldl, List.cons_subset, List.nil_subset, List.mem_cons, List.mem_singleton, and_true, true_and, true_or, or_true, and_self, implies_true, not_false_eq_true, State.clearSeat_kept, State.renewSlots_kept, State.setSeat_kept, State.store_kept]; done) | split)

theorem State.moveJob_kept {W : List Fld} {s0 s : State}  (src target : Nat) (d : Desc) (hk : Kept W s0 s) (hkw : [Fld.clusters] ⊆ W) :
    Kept W s0 (State.moveJob s src target d) := by
  simp only [List.cons_subset, List.nil_subset, and_true] at hkw
  unfold State.moveJob
  repeat' (first | (simp (maxDischargeDepth := 40) only [hk, hkw, Kept.refl, Kept.mk_of, Kept.ite, Kept.foldl, List.cons_subset, List.nil_subset, List.mem_cons, List.mem_singleton, and_true, true_and, true_or, or_true, and_self, implies_true, not_false_eq_true, State.modCluster_kept]; done) | split)

theorem State.moveFails_kept {W : List Fld} {s0 s : State}  (g : Package) (hk : Kept W s0 s) (hkw : [Fld.freeCtr, Fld.out, Fld.mem, Fld.seats, Fld.tes, Fld.clusters, Fld.lanes, Fld.depot, Fld.vault, Fld.journal, Fld.port0, Fld.port1, Fld.pcie, Fld.steward, Fld.time, Fld.entropy, Fld.cards, Fld.faults, Fld.recorder, Fld.power] ⊆ W) :
    Kept W s0 (State.moveFails s g) := by
  simp only [List.cons_subset, List.nil_subset, and_true] at hkw
  unfold State.moveFails
  repeat' (first | (simp (maxDischargeDepth := 40) only [hk, hkw, Kept.refl, Kept.mk_of, Kept.ite, Kept.foldl, List.cons_subset, List.nil_subset, List.mem_cons, List.mem_singleton, and_true, true_and, true_or, or_true, and_self, implies_true, not_false_eq_true, State.abortStream_kept, State.fault_kept, State.jobLost_kept, State.killSeat_kept, State.modCluster_kept, State.reserveFailed_kept]; done) | split)

theorem State.moveLands_kept {W : List Fld} {s0 s : State}  (g : Package) (hk : Kept W s0 s) (hkw : [Fld.mem, Fld.seats, Fld.tes, Fld.clusters] ⊆ W) :
    Kept W s0 (State.moveLands s g) := by
  simp only [List.cons_subset, List.nil_subset, and_true] at hkw
  unfold State.moveLands
  repeat' (first | (simp (maxDischargeDepth := 40) only [hk, hkw, Kept.refl, Kept.mk_of, Kept.ite, Kept.foldl, List.cons_subset, List.nil_subset, List.mem_cons, List.mem_singleton, and_true, true_and, true_or, or_true, and_self, implies_true, not_false_eq_true, State.modCluster_kept, State.moveJob_kept, State.moveSeat_kept]; done) | split)

theorem State.tableLoad_kept {W : List Fld} {s0 s : State}  (c : Nat) (h : Word) (k : Key) (hk : Kept W s0 s) (hkw : [Fld.clusters] ⊆ W) :
    Kept W s0 (State.tableLoad s c h k) := by
  simp only [List.cons_subset, List.nil_subset, and_true] at hkw
  unfold State.tableLoad
  repeat' (first | (simp (maxDischargeDepth := 40) only [hk, hkw, Kept.refl, Kept.mk_of, Kept.ite, Kept.foldl, List.cons_subset, List.nil_subset, List.mem_cons, List.mem_singleton, and_true, true_and, true_or, or_true, and_self, implies_true, not_false_eq_true, State.modCluster_kept]; done) | split)

theorem State.startLoaded_kept {W : List Fld} {s0 s : State}  (c : Nat) (j : MaeJob) (hk : Kept W s0 s) (hkw : [Fld.clusters, Fld.keys] ⊆ W) :
    Kept W s0 (State.startLoaded s c j) := by
  simp only [List.cons_subset, List.nil_subset, and_true] at hkw
  unfold State.startLoaded
  repeat' (first | (simp (maxDischargeDepth := 40) only [hk, hkw, Kept.refl, Kept.mk_of, Kept.ite, Kept.foldl, List.cons_subset, List.nil_subset, List.mem_cons, List.mem_singleton, and_true, true_and, true_or, or_true, and_self, implies_true, not_false_eq_true, State.modCluster_kept]; done) | split)

theorem State.startMae_kept {W : List Fld} {s0 s : State}  (c : Nat) (j : MaeJob) (hk : Kept W s0 s) (hkw : [Fld.clusters, Fld.keys] ⊆ W) :
    Kept W s0 (State.startMae s c j) := by
  unfold State.startMae
  try dsimp only
  iterate 40 all_goals (first
    | with_reducible exact hk
    | with_reducible assumption
    | with_reducible exact Kept.refl _ _
    | with_reducible exact .inr rfl
    | (with_reducible exact List.Subset.trans (by decide) hkw)
    | (with_reducible exact .inl (Fld.mem_of hkw (by decide)))
    | (with_reducible apply Kept.ite <;> intro)
    | with_reducible apply State.modCluster_kept
    | with_reducible apply State.startLoaded_kept
    | with_reducible apply Kept.getD
    | with_reducible apply Kept.elim
    | (with_reducible apply Kept.foldl; intro _ _; try dsimp only)
    | split
    | (intro _ _; try dsimp only)
    | with_reducible apply Kept.mk_of
    | skip)

theorem State.submitOwn_kept {W : List Fld} {s0 s : State}  (c : Cmd) (job : Nat) (payload : Bytes) (hk : Kept W s0 s) (hkw : [Fld.depot] ⊆ W) :
    Kept W s0 (State.submitOwn s c job payload) := by
  simp only [List.cons_subset, List.nil_subset, and_true] at hkw
  unfold State.submitOwn
  repeat' (first | (simp (maxDischargeDepth := 40) only [hk, hkw, Kept.refl, Kept.mk_of, Kept.ite, Kept.foldl, List.cons_subset, List.nil_subset, List.mem_cons, List.mem_singleton, and_true, true_and, true_or, or_true, and_self, implies_true, not_false_eq_true]; done) | split)

theorem State.vaultKey_keptE {W : List Fld} {s0 s zz : State}  {h : Word} (eq : State.vaultKey s h = some zz) (hk : Kept W s0 s) (hkw : [Fld.freeCtr, Fld.clusters, Fld.keys, Fld.entropy] ⊆ W) :
    Kept W s0 zz := by
  unfold State.vaultKey at eq
  try dsimp only at eq
  repeat' split at eq
  all_goals first | (cases eq; done) | skip
  all_goals (try simp only [Option.some.injEq, Prod.mk.injEq] at eq; first | subst eq | (obtain ⟨e1, e2⟩ := eq; first | subst e1 | skip; first | subst e2 | skip))
  try dsimp only
  iterate 40 all_goals (first
    | with_reducible exact hk
    | with_reducible assumption
    | with_reducible exact Kept.refl _ _
    | with_reducible exact .inr rfl
    | (with_reducible exact List.Subset.trans (by decide) hkw)
    | (with_reducible exact .inl (Fld.mem_of hkw (by decide)))
    | (with_reducible apply Kept.ite <;> intro)
    | with_reducible apply State.hubRead_kept
    | with_reducible refine State.makeRecord_keptE (by with_reducible assumption) ?_ ?_
    | with_reducible apply Kept.getD
    | with_reducible apply Kept.elim
    | (with_reducible apply Kept.foldl; intro _ _; try dsimp only)
    | split
    | (intro _ _; try dsimp only)
    | with_reducible apply Kept.mk_of
    | skip)

theorem State.newVault_kept {W : List Fld} {s0 s : State}  (n : Nat) (hk : Kept W s0 s) (hkw : [Fld.keys, Fld.vault] ⊆ W) :
    Kept W s0 (State.newVault s n) := by
  unfold State.newVault
  try dsimp only
  iterate 40 all_goals (first
    | with_reducible exact hk
    | with_reducible assumption
    | with_reducible exact Kept.refl _ _
    | with_reducible exact .inr rfl
    | (with_reducible exact List.Subset.trans (by decide) hkw)
    | (with_reducible exact .inl (Fld.mem_of hkw (by decide)))
    | (with_reducible apply Kept.ite <;> intro)
    | with_reducible apply State.modVault_kept
    | with_reducible apply State.vaultKeys_kept
    | with_reducible refine State.vaultKeys_keptE (by with_reducible assumption) ?_ ?_
    | with_reducible apply Kept.getD
    | with_reducible apply Kept.elim
    | (with_reducible apply Kept.foldl; intro _ _; try dsimp only)
    | split
    | (intro _ _; try dsimp only)
    | with_reducible apply Kept.mk_of
    | skip)

theorem State.vaultKeyPair_keptE {W : List Fld} {s0 s zz : State} (e : s.vaultKeyPair = some zz) (hk : Kept W s0 s) (hkw : [Fld.freeCtr, Fld.clusters, Fld.keys, Fld.entropy] ⊆ W) :
    Kept W s0 zz := by
  obtain ⟨k, e1, e2⟩ := Option.bind_eq_some_iff.mp e
  exact State.vaultKey_keptE e2 (State.vaultKey_keptE e1 hk hkw) hkw

theorem State.createVault_kept {W : List Fld} {s0 s : State} (c : Cmd) (sp : Spec) (n : Nat) (hk : Kept W s0 s) (hkw : [Fld.freeCtr, Fld.out, Fld.clusters, Fld.tenancy, Fld.keys, Fld.vault, Fld.journal, Fld.pcie, Fld.entropy, Fld.recorder] ⊆ W) :
    Kept W s0 (State.createVault s c sp n) := by
  have sub : ∀ {A : List Fld}, (A ⊆ [Fld.freeCtr, Fld.out, Fld.clusters, Fld.tenancy, Fld.keys, Fld.vault, Fld.journal, Fld.pcie, Fld.entropy, Fld.recorder]) → A ⊆ W := fun h => List.Subset.trans h hkw
  unfold State.createVault
  split
  · exact State.reject_kept _ _ hk (sub (by decide))
  · refine answer_kept _ _ _ (State.configured_kept _ _ ?_ (State.cmdAccepted_kept _ _ (State.begin_kept _ _ hk (sub (by decide)))
      (sub (by decide))) (sub (by decide))) (sub (by decide))
    intro t ht
    apply State.newVault_kept _ _ (sub (by decide))
    cases e : t.vaultKeyPair with
    | none => exact ht
    | some u => exact State.vaultKeyPair_keptE e ht (sub (by decide))

theorem State.markVault_kept {W : List Fld} {s0 s : State}  (l : List (Nat × Nat)) (hk : Kept W s0 s) (hkw : [Fld.port0, Fld.port1] ⊆ W) :
    Kept W s0 (State.markVault s l) := by
  simp only [List.cons_subset, List.nil_subset, and_true] at hkw
  unfold State.markVault
  repeat' (first | (simp (maxDischargeDepth := 40) only [hk, hkw, Kept.refl, Kept.mk_of, Kept.ite, Kept.foldl, List.cons_subset, List.nil_subset, List.mem_cons, List.mem_singleton, and_true, true_and, true_or, or_true, and_self, implies_true, not_false_eq_true]; done) | split)

theorem State.dispatched_kept {W : List Fld} {s0 s : State}  (d : Desc) (src : BitVec 16) (hk : Kept W s0 s) (hkw : [Fld.journal] ⊆ W) :
    Kept W s0 (State.dispatched s d src) := by
  simp only [List.cons_subset, List.nil_subset, and_true] at hkw
  unfold State.dispatched
  repeat' (first | (simp (maxDischargeDepth := 40) only [hk, hkw, Kept.refl, Kept.mk_of, Kept.ite, Kept.foldl, List.cons_subset, List.nil_subset, List.mem_cons, List.mem_singleton, and_true, true_and, true_or, or_true, and_self, implies_true, not_false_eq_true, State.writeMile_kept]; done) | split)

theorem State.leaves_kept {W : List Fld} {s0 s : State}  (n : Nat) (i : Item) (c : Nat) (hk : Kept W s0 s) (hkw : [Fld.lanes, Fld.depot, Fld.port0, Fld.port1] ⊆ W) :
    Kept W s0 (State.leaves s n i c) := by
  simp only [List.cons_subset, List.nil_subset, and_true] at hkw
  unfold State.leaves
  repeat' (first | (simp (maxDischargeDepth := 40) only [hk, hkw, Kept.refl, Kept.mk_of, Kept.ite, Kept.foldl, List.cons_subset, List.nil_subset, List.mem_cons, List.mem_singleton, and_true, true_and, true_or, or_true, and_self, implies_true, not_false_eq_true, State.dispatched_kept, State.dropItem_kept, State.releaseItem_kept, State.setLane_kept]; done) | split)

theorem State.refuseItem_kept {W : List Fld} {s0 s : State}  (n : Nat) (i : Item) (reason : Byte) (hk : Kept W s0 s) (hkw : [Fld.depot, Fld.journal, Fld.held, Fld.port0, Fld.port1, Fld.pcie] ⊆ W) :
    Kept W s0 (State.refuseItem s n i reason) := by
  simp only [List.cons_subset, List.nil_subset, and_true] at hkw
  unfold State.refuseItem
  repeat' (first | (simp (maxDischargeDepth := 40) only [hk, hkw, Kept.refl, Kept.mk_of, Kept.ite, Kept.foldl, List.cons_subset, List.nil_subset, List.mem_cons, List.mem_singleton, and_true, true_and, true_or, or_true, and_self, implies_true, not_false_eq_true, State.countDrained_kept, State.dropItem_kept, State.hold_kept, State.releaseItem_kept]; done) | split)

theorem State.seatItem_kept {W : List Fld} {s0 s : State}  (n : Nat) (i : Item) (x : Image) (u : SeatRef) (hk : Kept W s0 s) (hkw : [Fld.out, Fld.mem, Fld.seats, Fld.tes, Fld.clusters, Fld.lanes, Fld.depot, Fld.vault, Fld.journal, Fld.port0, Fld.port1, Fld.pcie, Fld.gates, Fld.cards, Fld.faults, Fld.recorder, Fld.power] ⊆ W) :
    Kept W s0 (State.seatItem s n i x u) := by
  unfold State.seatItem
  try dsimp only
  iterate 40 all_goals (first
    | with_reducible exact hk
    | with_reducible assumption
    | with_reducible exact Kept.refl _ _
    | with_reducible exact .inr rfl
    | (with_reducible exact List.Subset.trans (by decide) hkw)
    | (with_reducible exact .inl (Fld.mem_of hkw (by decide)))
    | (with_reducible apply Kept.ite <;> intro)
    | with_reducible apply State.dispatched_kept
    | with_reducible apply State.enterSeat_kept
    | with_reducible apply State.gateRefuse_kept
    | with_reducible apply State.killSeat_kept
    | with_reducible apply State.leaves_kept
    | with_reducible apply State.setSeat_kept
    | with_reducible apply State.store_kept
    | with_reducible apply State.useGate_kept
    | with_reducible apply Kept.getD
    | with_reducible apply Kept.elim
    | (with_reducible apply Kept.foldl; intro _ _; try dsimp only)
    | split
    | (intro _ _; try dsimp only)
    | with_reducible apply Kept.mk_of
    | skip)

theorem State.offerRequest_kept {W : List Fld} {s0 s : State}  (n : Nat) (i : Item) (c : Nat) (hk : Kept W s0 s) (hkw : [Fld.out, Fld.mem, Fld.seats, Fld.tes, Fld.clusters, Fld.lanes, Fld.depot, Fld.vault, Fld.journal, Fld.held, Fld.port0, Fld.port1, Fld.pcie, Fld.gates, Fld.cards, Fld.faults, Fld.recorder, Fld.power] ⊆ W) :
    Kept W s0 (State.offerRequest s n i c) := by
  simp only [List.cons_subset, List.nil_subset, and_true] at hkw
  unfold State.offerRequest
  repeat' (first | (simp (maxDischargeDepth := 40) only [hk, hkw, Kept.refl, Kept.mk_of, Kept.ite, Kept.foldl, List.cons_subset, List.nil_subset, List.mem_cons, List.mem_singleton, and_true, true_and, true_or, or_true, and_self, implies_true, not_false_eq_true, State.refuseItem_kept, State.seatItem_kept]; done) | split)

theorem State.resumeItem_kept {W : List Fld} {s0 s : State}  (n : Nat) (i : Item) (t : Seat) (c : Nat) (hk : Kept W s0 s) (hkw : [Fld.mem, Fld.seats, Fld.tes, Fld.depot] ⊆ W) :
    Kept W s0 (State.resumeItem s n i t c) := by
  simp only [List.cons_subset, List.nil_subset, and_true] at hkw
  unfold State.resumeItem
  repeat' (first | (simp (maxDischargeDepth := 40) only [hk, hkw, Kept.refl, Kept.mk_of, Kept.ite, Kept.foldl, List.cons_subset, List.nil_subset, List.mem_cons, List.mem_singleton, and_true, true_and, true_or, or_true, and_self, implies_true, not_false_eq_true, State.dropItem_kept, State.enterSeat_kept, State.renewSlots_kept, State.setSeat_kept, State.store_kept]; done) | split)

theorem State.takeJob_kept {W : List Fld} {s0 s : State}  (n : Nat) (i : Item) (c : Nat) (hk : Kept W s0 s) (hkw : [Fld.clusters, Fld.lanes, Fld.depot, Fld.keys, Fld.journal, Fld.port0, Fld.port1] ⊆ W) :
    Kept W s0 (State.takeJob s n i c) := by
  simp only [List.cons_subset, List.nil_subset, and_true] at hkw
  unfold State.takeJob
  repeat' (first | (simp (maxDischargeDepth := 40) only [hk, hkw, Kept.refl, Kept.mk_of, Kept.ite, Kept.foldl, List.cons_subset, List.nil_subset, List.mem_cons, List.mem_singleton, and_true, true_and, true_or, or_true, and_self, implies_true, not_false_eq_true, State.dispatched_kept, State.leaves_kept, State.startMae_kept]; done) | split)

theorem State.offerJob_kept {W : List Fld} {s0 s : State}  (n : Nat) (i : Item) (c : Nat) (hk : Kept W s0 s) (hkw : [Fld.clusters, Fld.lanes, Fld.depot, Fld.keys, Fld.journal, Fld.held, Fld.port0, Fld.port1, Fld.pcie] ⊆ W) :
    Kept W s0 (State.offerJob s n i c) := by
  simp only [List.cons_subset, List.nil_subset, and_true] at hkw
  unfold State.offerJob
  repeat' (first | (simp (maxDischargeDepth := 40) only [hk, hkw, Kept.refl, Kept.mk_of, Kept.ite, Kept.foldl, List.cons_subset, List.nil_subset, List.mem_cons, List.mem_singleton, and_true, true_and, true_or, or_true, and_self, implies_true, not_false_eq_true, State.refuseItem_kept, State.takeJob_kept]; done) | split)

theorem State.offerSegment_kept {W : List Fld} {s0 s : State}  (n : Nat) (i : Item) (k c : Nat) (hk : Kept W s0 s) (hkw : [Fld.tes, Fld.clusters, Fld.lanes, Fld.depot, Fld.port0, Fld.port1] ⊆ W) :
    Kept W s0 (State.offerSegment s n i k c) := by
  unfold State.offerSegment
  try dsimp only
  iterate 40 all_goals (first
    | with_reducible exact hk
    | with_reducible assumption
    | with_reducible exact Kept.refl _ _
    | with_reducible exact .inr rfl
    | (with_reducible exact List.Subset.trans (by decide) hkw)
    | (with_reducible exact .inl (Fld.mem_of hkw (by decide)))
    | (with_reducible apply Kept.ite <;> intro)
    | with_reducible apply State.leaves_kept
    | with_reducible refine State.takeSegment_keptE (by with_reducible assumption) ?_ ?_
    | with_reducible apply Kept.getD
    | with_reducible apply Kept.elim
    | (with_reducible apply Kept.foldl; intro _ _; try dsimp only)
    | split
    | (intro _ _; try dsimp only)
    | with_reducible apply Kept.mk_of
    | skip)

theorem State.takeTest_kept {W : List Fld} {s0 s : State}  (c : Nat) (src : BitVec 16) (u : Nat) (hk : Kept W s0 s) (hkw : [Fld.tes, Fld.clusters, Fld.power] ⊆ W) :
    Kept W s0 (State.takeTest s c src u) := by
  simp only [List.cons_subset, List.nil_subset, and_true] at hkw
  unfold State.takeTest
  repeat' (first | (simp (maxDischargeDepth := 40) only [hk, hkw, Kept.refl, Kept.mk_of, Kept.ite, Kept.foldl, List.cons_subset, List.nil_subset, List.mem_cons, List.mem_singleton, and_true, true_and, true_or, or_true, and_self, implies_true, not_false_eq_true, State.modCluster_kept, State.setTe_kept]; done) | split)

theorem State.nextJob_keptE {W : List Fld} {s0 s zz : State} {c level : Nat} (e : s.nextJob c level = some zz) (hk : Kept W s0 s)
    (hkw : [Fld.clusters, Fld.lanes, Fld.depot, Fld.keys, Fld.journal, Fld.port0, Fld.port1] ⊆ W) : Kept W s0 zz := by
  have sub : ∀ {A : List Fld}, (A ⊆ [Fld.clusters, Fld.lanes, Fld.depot, Fld.keys, Fld.journal, Fld.port0, Fld.port1]) → A ⊆ W := fun h => List.Subset.trans h hkw
  have take : ∀ w : Option (Nat × Item), w.map (fun p => s.takeJob p.1 p.2 c) = some zz → Kept W s0 zz := by
    intro w e
    obtain ⟨p, _, rfl⟩ := Option.map_eq_some_iff.mp e
    exact State.takeJob_kept _ _ _ hk (sub (by decide))
  unfold State.nextJob at e
  split at e
  · cases e
  · split at e
    · split at e
      · cases e
        exact State.startMae_kept _ _ (by apply Kept.mk_of hk <;> first | exact .inr rfl | exact .inl (hkw (by decide))) (sub (by decide))
      · exact take _ e
    · exact take _ e

theorem State.maeResume_kept {W : List Fld} {s0 s : State}  (c : Nat) (hk : Kept W s0 s) (hkw : [Fld.clusters, Fld.lanes, Fld.depot, Fld.keys, Fld.journal, Fld.port0, Fld.port1] ⊆ W) :
    Kept W s0 (State.maeResume s c) := by
  unfold State.maeResume
  try dsimp only
  iterate 40 all_goals (first
    | with_reducible exact hk
    | with_reducible assumption
    | with_reducible exact Kept.refl _ _
    | with_reducible exact .inr rfl
    | (with_reducible exact List.Subset.trans (by decide) hkw)
    | (with_reducible exact .inl (Fld.mem_of hkw (by decide)))
    | (with_reducible apply Kept.ite <;> intro)
    | with_reducible apply State.modCluster_kept
    | with_reducible refine State.nextJob_keptE (by with_reducible assumption) ?_ ?_
    | with_reducible apply Kept.getD
    | with_reducible apply Kept.elim
    | (with_reducible apply Kept.foldl; intro _ _; try dsimp only)
    | split
    | (intro _ _; try dsimp only)
    | with_reducible apply Kept.mk_of
    | skip)

theorem State.takeOwn_keptE {W : List Fld} {s0 s zz : State}  {c : Nat} (eq : State.takeOwn s c = some zz) (hk : Kept W s0 s) (hkw : [Fld.clusters, Fld.lanes, Fld.depot, Fld.keys, Fld.journal, Fld.port0, Fld.port1] ⊆ W) :
    Kept W s0 zz := by
  unfold State.takeOwn at eq
  try dsimp only at eq
  repeat' split at eq
  all_goals first | (cases eq; done) | skip
  all_goals (try simp only [Option.some.injEq, Prod.mk.injEq] at eq; first | subst eq | (obtain ⟨e1, e2⟩ := eq; first | subst e1 | skip; first | subst e2 | skip))
  try dsimp only
  iterate 40 all_goals (first
    | with_reducible exact hk
    | with_reducible assumption
    | with_reducible exact Kept.refl _ _
    | with_reducible exact .inr rfl
    | (with_reducible exact List.Subset.trans (by decide) hkw)
    | (with_reducible exact .inl (Fld.mem_of hkw (by decide)))
    | (with_reducible apply Kept.ite <;> intro)
    | with_reducible refine State.nextJob_keptE (by with_reducible assumption) ?_ ?_
    | with_reducible apply Kept.getD
    | with_reducible apply Kept.elim
    | (with_reducible apply Kept.foldl; intro _ _; try dsimp only)
    | split
    | (intro _ _; try dsimp only)
    | with_reducible apply Kept.mk_of
    | skip)

theorem State.offerItem_kept {W : List Fld} {s0 s : State}  (n : Nat) (i : Item) (c : Nat) (hk : Kept W s0 s) (hkw : [Fld.out, Fld.mem, Fld.seats, Fld.tes, Fld.clusters, Fld.lanes, Fld.depot, Fld.keys, Fld.vault, Fld.journal, Fld.held, Fld.port0, Fld.port1, Fld.pcie, Fld.gates, Fld.cards, Fld.faults, Fld.recorder, Fld.power] ⊆ W) :
    Kept W s0 (State.offerItem s n i c) := by
  simp only [List.cons_subset, List.nil_subset, and_true] at hkw
  unfold State.offerItem
  repeat' (first | (simp (maxDischargeDepth := 40) only [hk, hkw, Kept.refl, Kept.mk_of, Kept.ite, Kept.foldl, List.cons_subset, List.nil_subset, List.mem_cons, List.mem_singleton, and_true, true_and, true_or, or_true, and_self, implies_true, not_false_eq_true, State.offerJob_kept, State.offerRequest_kept, State.offerSegment_kept, State.resumeItem_kept]; done) | split)

theorem State.replaceIn_kept {W : List Fld} {s0 s : State}  (old new l : Nat) (hk : Kept W s0 s) (hkw : [Fld.mem, Fld.clusters, Fld.lanes] ⊆ W) :
    Kept W s0 (State.replaceIn s old new l) := by
  simp only [List.cons_subset, List.nil_subset, and_true] at hkw
  unfold State.replaceIn
  repeat' (first | (simp (maxDischargeDepth := 40) only [hk, hkw, Kept.refl, Kept.mk_of, Kept.ite, Kept.foldl, List.cons_subset, List.nil_subset, List.mem_cons, List.mem_singleton, and_true, true_and, true_or, or_true, and_self, implies_true, not_false_eq_true, State.placeShare_kept, State.setLane_kept]; done) | split)

theorem State.unitFails_kept {W : List Fld} {s0 s : State}  (c u : Nat) (hk : Kept W s0 s) (hkw : [Fld.freeCtr, Fld.out, Fld.mem, Fld.seats, Fld.tes, Fld.clusters, Fld.lanes, Fld.depot, Fld.vault, Fld.journal, Fld.port0, Fld.port1, Fld.pcie, Fld.steward, Fld.time, Fld.entropy, Fld.cards, Fld.faults, Fld.recorder, Fld.power] ⊆ W) :
    Kept W s0 (State.unitFails s c u) := by
  simp only [List.cons_subset, List.nil_subset, and_true] at hkw
  unfold State.unitFails
  repeat' (first | (simp (maxDischargeDepth := 40) only [hk, hkw, Kept.refl, Kept.mk_of, Kept.ite, Kept.foldl, List.cons_subset, List.nil_subset, List.mem_cons, List.mem_singleton, and_true, true_and, true_or, or_true, and_self, implies_true, not_false_eq_true, State.flagFailing_kept, State.modCluster_kept, State.setTe_kept]; done) | split)

theorem State.maeTested_kept {W : List Fld} {s0 s : State}  (c : Nat) (ok : Bool) (hk : Kept W s0 s) (hkw : [Fld.freeCtr, Fld.out, Fld.mem, Fld.seats, Fld.tes, Fld.clusters, Fld.lanes, Fld.depot, Fld.keys, Fld.vault, Fld.journal, Fld.port0, Fld.port1, Fld.pcie, Fld.gates, Fld.steward, Fld.time, Fld.entropy, Fld.cards, Fld.faults, Fld.recorder, Fld.power] ⊆ W) :
    Kept W s0 (State.maeTested s c ok) := by
  simp only [List.cons_subset, List.nil_subset, and_true] at hkw
  unfold State.maeTested
  repeat' (first | (simp (maxDischargeDepth := 40) only [hk, hkw, Kept.refl, Kept.mk_of, Kept.ite, Kept.foldl, List.cons_subset, List.nil_subset, List.mem_cons, List.mem_singleton, and_true, true_and, true_or, or_true, and_self, implies_true, not_false_eq_true, State.maeResume_kept, State.modCluster_kept, State.rerunDone_kept, State.unitFails_kept]; done) | split)

theorem State.measure_kept {W : List Fld} {s0 s : State}  (hk : Kept W s0 s) (hkw : [Fld.clusters, Fld.depot] ⊆ W) :
    Kept W s0 (State.measure s) := by
  simp only [List.cons_subset, List.nil_subset, and_true] at hkw
  unfold State.measure
  repeat' (first | (simp (maxDischargeDepth := 40) only [hk, hkw, Kept.refl, Kept.mk_of, Kept.ite, Kept.foldl, List.cons_subset, List.nil_subset, List.mem_cons, List.mem_singleton, and_true, true_and, true_or, or_true, and_self, implies_true, not_false_eq_true]; done) | split)

theorem State.keepFloor_kept {W : List Fld} {s0 s : State}  (l : Nat) (hk : Kept W s0 s) (hkw : [Fld.mem, Fld.clusters, Fld.lanes] ⊆ W) :
    Kept W s0 (State.keepFloor s l) := by
  unfold State.keepFloor
  try dsimp only
  iterate 40 all_goals (first
    | with_reducible exact hk
    | with_reducible assumption
    | with_reducible exact Kept.refl _ _
    | with_reducible exact .inr rfl
    | (with_reducible exact List.Subset.trans (by decide) hkw)
    | (with_reducible exact .inl (Fld.mem_of hkw (by decide)))
    | (with_reducible apply Kept.ite <;> intro)
    | with_reducible apply State.place_kept
    | with_reducible apply Kept.getD
    | with_reducible apply Kept.elim
    | (with_reducible apply Kept.foldl; intro _ _; try dsimp only)
    | split
    | (intro _ _; try dsimp only)
    | with_reducible apply Kept.mk_of
    | skip)

theorem State.growToDemand_kept {W : List Fld} (l demand : Nat) (gives : Nat → Nat) (hkw : [Fld.mem, Fld.clusters, Fld.lanes] ⊆ W) :
    ∀ (n : Nat) (s0 s : State), Kept W s0 s → Kept W s0 (s.growToDemand l demand gives n)
  | 0, _, _, hk => hk
  | n + 1, s0, s, hk => by
    unfold State.growToDemand
    split
    · exact hk
    · exact State.growToDemand_kept l demand gives hkw n s0 _ (State.growSet_kept l (List.Subset.trans (by decide) hkw) 1 s0 _ hk)

theorem State.evaluateLane_kept {W : List Fld} {s0 s : State}  (l : Nat) (hk : Kept W s0 s) (hkw : [Fld.freeCtr, Fld.mem, Fld.clusters, Fld.lanes] ⊆ W) :
    Kept W s0 (State.evaluateLane s l) := by
  unfold State.evaluateLane
  try dsimp only
  iterate 40 all_goals (first
    | with_reducible exact hk
    | with_reducible assumption
    | with_reducible exact Kept.refl _ _
    | with_reducible exact .inr rfl
    | (with_reducible exact List.Subset.trans (by decide) hkw)
    | (with_reducible exact .inl (Fld.mem_of hkw (by decide)))
    | (with_reducible apply Kept.ite <;> intro)
    | with_reducible apply State.ensurePlaced_kept
    | (apply State.growToDemand_kept; first | with_reducible exact List.Subset.trans (by decide) hkw | skip)
    | with_reducible apply State.keepFloor_kept
    | with_reducible apply State.setLane_kept
    | with_reducible apply State.unplace_kept
    | with_reducible apply Kept.getD
    | with_reducible apply Kept.elim
    | (with_reducible apply Kept.foldl; intro _ _; try dsimp only)
    | split
    | (intro _ _; try dsimp only)
    | with_reducible apply Kept.mk_of
    | skip)

theorem State.coolCluster_kept {W : List Fld} {s0 s : State}  (c : Nat) (hk : Kept W s0 s) (hkw : [Fld.mem, Fld.clusters, Fld.lanes] ⊆ W) :
    Kept W s0 (State.coolCluster s c) := by
  unfold State.coolCluster
  try dsimp only
  iterate 40 all_goals (first
    | with_reducible exact hk
    | with_reducible assumption
    | with_reducible exact Kept.refl _ _
    | with_reducible exact .inr rfl
    | (with_reducible exact List.Subset.trans (by decide) hkw)
    | (with_reducible exact .inl (Fld.mem_of hkw (by decide)))
    | (with_reducible apply Kept.ite <;> intro)
    | with_reducible apply State.place_kept
    | with_reducible apply State.unplace_kept
    | with_reducible apply Kept.getD
    | with_reducible apply Kept.elim
    | (with_reducible apply Kept.foldl; intro _ _; try dsimp only)
    | split
    | (intro _ _; try dsimp only)
    | with_reducible apply Kept.mk_of
    | skip)

theorem State.moveStrays_kept {W : List Fld} {s0 s : State}  (k : Nat) (hk : Kept W s0 s) (hkw : [Fld.freeCtr, Fld.tes, Fld.clusters, Fld.depot, Fld.port0, Fld.port1] ⊆ W) :
    Kept W s0 (State.moveStrays s k) := by
  simp only [List.cons_subset, List.nil_subset, and_true] at hkw
  unfold State.moveStrays
  repeat' (first | (simp (maxDischargeDepth := 40) only [hk, hkw, Kept.refl, Kept.mk_of, Kept.ite, Kept.foldl, List.cons_subset, List.nil_subset, List.mem_cons, List.mem_singleton, and_true, true_and, true_or, or_true, and_self, implies_true, not_false_eq_true, State.sendStream_kept]; done) | split)

theorem State.clusterAwake_kept {W : List Fld} {s0 s : State}  (c : Nat) (hk : Kept W s0 s) (hkw : [Fld.clusters, Fld.steward, Fld.entropy] ⊆ W) :
    Kept W s0 (State.clusterAwake s c) := by
  simp only [List.cons_subset, List.nil_subset, and_true] at hkw
  unfold State.clusterAwake
  repeat' (first | (simp (maxDischargeDepth := 40) only [hk, hkw, Kept.refl, Kept.mk_of, Kept.ite, Kept.foldl, List.cons_subset, List.nil_subset, List.mem_cons, List.mem_singleton, and_true, true_and, true_or, or_true, and_self, implies_true, not_false_eq_true, State.modCluster_kept, State.seedExpander_kept, State.startKat_kept]; done) | split)

theorem State.modOutside_kept {W : List Fld} {s0 s : State}  (l : Nat) (f : Item → Item) (hk : Kept W s0 s) (hkw : [Fld.depot] ⊆ W) :
    Kept W s0 (State.modOutside s l f) := by
  simp only [List.cons_subset, List.nil_subset, and_true] at hkw
  unfold State.modOutside
  repeat' (first | (simp (maxDischargeDepth := 40) only [hk, hkw, Kept.refl, Kept.mk_of, Kept.ite, Kept.foldl, List.cons_subset, List.nil_subset, List.mem_cons, List.mem_singleton, and_true, true_and, true_or, or_true, and_self, implies_true, not_false_eq_true, State.place_kept]; done) | split)

theorem State.setRefill_kept {W : List Fld} {s0 s : State}  (l : Nat) (v : Bool) (hk : Kept W s0 s) (hkw : [Fld.lanes] ⊆ W) :
    Kept W s0 (State.setRefill s l v) := by
  simp only [List.cons_subset, List.nil_subset, and_true] at hkw
  unfold State.setRefill
  repeat' (first | (simp (maxDischargeDepth := 40) only [hk, hkw, Kept.refl, Kept.mk_of, Kept.ite, Kept.foldl, List.cons_subset, List.nil_subset, List.mem_cons, List.mem_singleton, and_true, true_and, true_or, or_true, and_self, implies_true, not_false_eq_true, State.setLane_kept]; done) | split)

theorem State.retireCell_kept {W : List Fld} {s0 s : State}  (n : Nat) (hk : Kept W s0 s) (hkw : [Fld.out, Fld.tes, Fld.clusters, Fld.depot, Fld.vault, Fld.journal, Fld.port0, Fld.port1, Fld.pcie, Fld.cards, Fld.faults, Fld.recorder, Fld.power] ⊆ W) :
    Kept W s0 (State.retireCell s n) := by
  simp only [List.cons_subset, List.nil_subset, and_true] at hkw
  unfold State.retireCell
  repeat' (first | (simp (maxDischargeDepth := 40) only [hk, hkw, Kept.refl, Kept.mk_of, Kept.ite, Kept.foldl, List.cons_subset, List.nil_subset, List.mem_cons, List.mem_singleton, and_true, true_and, true_or, or_true, and_self, implies_true, not_false_eq_true, State.fault_kept]; done) | split)

theorem State.discardAt_kept {W : List Fld} {s0 s : State}  (n : Nat) (i : Item) (hk : Kept W s0 s) (hkw : [Fld.out, Fld.tes, Fld.clusters, Fld.lanes, Fld.depot, Fld.journal, Fld.port0, Fld.port1, Fld.pcie] ⊆ W) :
    Kept W s0 (State.discardAt s n i) := by
  simp only [List.cons_subset, List.nil_subset, and_true] at hkw
  unfold State.discardAt
  repeat' (first | (simp (maxDischargeDepth := 40) only [hk, hkw, Kept.refl, Kept.mk_of, Kept.ite, Kept.foldl, List.cons_subset, List.nil_subset, List.mem_cons, List.mem_singleton, and_true, true_and, true_or, or_true, and_self, implies_true, not_false_eq_true, State.abortStream_kept, State.dropItem_kept, State.itemEnded_kept, State.releaseItem_kept]; done) | split)

theorem State.putOne_kept {W : List Fld} {s0 s : State}  (c : Cmd) (tin ext : Bytes) (hk : Kept W s0 s) (hkw : [Fld.clusters, Fld.keys, Fld.journal] ⊆ W) :
    Kept W s0 (State.putOne s c tin ext) := by
  simp only [List.cons_subset, List.nil_subset, and_true] at hkw
  unfold State.putOne
  repeat' (first | (simp (maxDischargeDepth := 40) only [hk, hkw, Kept.refl, Kept.mk_of, Kept.ite, Kept.foldl, List.cons_subset, List.nil_subset, List.mem_cons, List.mem_singleton, and_true, true_and, true_or, or_true, and_self, implies_true, not_false_eq_true, State.cmdCommit_kept, State.cmdIntent_kept, State.putRecord_kept]; done) | split)

theorem State.putAll_kept {W : List Fld} {s0 s : State} (c : Cmd) (rs : List (Bytes × Bytes)) (hk : Kept W s0 s) (hkw : [Fld.clusters, Fld.keys, Fld.journal] ⊆ W) :
    Kept W s0 (State.putAll s c rs).1 := by
  have go : ∀ (rs : List (Bytes × Bytes)) (a : State × PutCount), Kept W s0 a.1 → Kept W s0 (rs.foldl (fun (a : State × PutCount) r =>
      match a.1.putFails c.colour r.1 r.2 with
      | some k => (a.1, { a.2 with index := a.2.index + 1, refused := if a.2.refused.isSome then a.2.refused else some (a.2.index, k) })
      | .none => (a.1.putOne c r.1 r.2, { a.2 with index := a.2.index + 1, accepted := a.2.accepted + 1 })) a).1 := by
    intro rs
    induction rs with
    | nil => exact fun a h => h
    | cons r l ih =>
      intro a h
      apply ih
      dsimp only
      split
      · exact h
      · exact State.putOne_kept _ _ _ h (List.Subset.trans (by decide) hkw)
  exact go rs _ hk

theorem State.storeOne_keptE {W : List Fld} {s0 s zz : State} {c : Cmd} {h : Word} {a : KeyAttrs} {material : Bytes}
    (e : s.storeOne c h a material = some zz) (hk : Kept W s0 s) (hkw : [Fld.freeCtr, Fld.out, Fld.clusters, Fld.keys, Fld.vault, Fld.journal, Fld.port0, Fld.port1, Fld.openSerial, Fld.entropy] ⊆ W) : Kept W s0 zz := by
  have sub : ∀ {A : List Fld}, (A ⊆ [Fld.freeCtr, Fld.out, Fld.clusters, Fld.keys, Fld.vault, Fld.journal, Fld.port0, Fld.port1, Fld.openSerial, Fld.entropy]) → A ⊆ W := fun h => List.Subset.trans h hkw
  obtain ⟨k, e1, rfl⟩ := Option.map_eq_some_iff.mp e
  exact State.keyArrived_kept (State.cmdCommit_kept _ _ _ _ (State.makeRecord_keptE e1 (State.cmdIntent_kept _ _ _ _ hk (sub (by decide)))
    (sub (by decide))) (sub (by decide))) (sub (by decide))

theorem State.makeOne_keptE {W : List Fld} {s0 s zz : State} {c : Cmd} {op : Nat} {h : Word} {a : KeyAttrs} {material : Bytes}
    (e : s.makeOne c op h a material = some zz) (hk : Kept W s0 s) (hkw : [Fld.freeCtr, Fld.out, Fld.clusters, Fld.keys, Fld.vault, Fld.journal, Fld.port0, Fld.port1, Fld.openSerial, Fld.entropy] ⊆ W) : Kept W s0 zz := by
  obtain ⟨k, e1, rfl⟩ := Option.map_eq_some_iff.mp e
  have sub : ∀ {A : List Fld}, (A ⊆ [Fld.freeCtr, Fld.out, Fld.clusters, Fld.keys, Fld.vault, Fld.journal, Fld.port0, Fld.port1, Fld.openSerial, Fld.entropy]) → A ⊆ W := fun h => List.Subset.trans h hkw
  exact State.keyArrived_kept (State.cmdCommit_kept _ _ _ _ (State.makeRecord_keptE e1 (State.cmdIntent_kept _ _ _ _
    (State.cmdAccepted_kept _ _ hk (sub (by decide))) (sub (by decide))) (sub (by decide))) (sub (by decide))) (sub (by decide))

theorem State.generated_kept {W : List Fld} {s0 s : State}  (c : Cmd) (m pub : Bytes) (hk : Kept W s0 s) (hkw : [Fld.freeCtr, Fld.out, Fld.clusters, Fld.keys, Fld.vault, Fld.journal, Fld.port0, Fld.port1, Fld.openSerial, Fld.pcie, Fld.entropy, Fld.recorder] ⊆ W) :
    Kept W s0 (State.generated s c m pub) := by
  unfold State.generated
  try dsimp only
  iterate 40 all_goals (first
    | with_reducible exact hk
    | with_reducible assumption
    | with_reducible exact Kept.refl _ _
    | with_reducible exact .inr rfl
    | (with_reducible exact List.Subset.trans (by decide) hkw)
    | (with_reducible exact .inl (Fld.mem_of hkw (by decide)))
    | (with_reducible apply Kept.ite <;> intro)
    | with_reducible apply State.endLater_kept
    | with_reducible apply State.finishLater_kept
    | with_reducible refine State.storeOne_keptE (by with_reducible assumption) ?_ ?_
    | with_reducible apply Kept.getD
    | with_reducible apply Kept.elim
    | (with_reducible apply Kept.foldl; intro _ _; try dsimp only)
    | split
    | (intro _ _; try dsimp only)
    | with_reducible apply Kept.mk_of
    | skip)

theorem State.installImage_kept {W : List Fld} {s0 s : State}  (b : Bytes) (g : Nat) (hk : Kept W s0 s) (hkw : [Fld.mem, Fld.seats, Fld.tenancy] ⊆ W) :
    Kept W s0 (State.installImage s b g) := by
  simp only [List.cons_subset, List.nil_subset, and_true] at hkw
  unfold State.installImage
  repeat' (first | (simp (maxDischargeDepth := 40) only [hk, hkw, Kept.refl, Kept.mk_of, Kept.ite, Kept.foldl, List.cons_subset, List.nil_subset, List.mem_cons, List.mem_singleton, and_true, true_and, true_or, or_true, and_self, implies_true, not_false_eq_true, State.rebindSeats_kept, State.store_kept]; done) | split)

theorem State.refuseImage_kept {W : List Fld} {s0 s : State}  (c : Cmd) (code k off : Nat) (hk : Kept W s0 s) (hkw : [Fld.out, Fld.pcie] ⊆ W) :
    Kept W s0 (State.refuseImage s c code k off) := by
  simp only [List.cons_subset, List.nil_subset, and_true] at hkw
  unfold State.refuseImage
  repeat' (first | (simp (maxDischargeDepth := 40) only [hk, hkw, Kept.refl, Kept.mk_of, Kept.ite, Kept.foldl, List.cons_subset, List.nil_subset, List.mem_cons, List.mem_singleton, and_true, true_and, true_or, or_true, and_self, implies_true, not_false_eq_true, State.reply_kept]; done) | split)

theorem State.loadImage_kept {W : List Fld} {s0 s : State}  (sp : Spec) (c : Cmd) (hk : Kept W s0 s) (hkw : [Fld.out, Fld.mem, Fld.seats, Fld.tenancy, Fld.journal, Fld.pcie, Fld.recorder] ⊆ W) :
    Kept W s0 (State.loadImage s sp c) := by
  unfold State.loadImage
  try dsimp only
  iterate 40 all_goals (first
    | with_reducible exact hk
    | with_reducible assumption
    | with_reducible exact Kept.refl _ _
    | with_reducible exact .inr rfl
    | (with_reducible exact List.Subset.trans (by decide) hkw)
    | (with_reducible exact .inl (Fld.mem_of hkw (by decide)))
    | (with_reducible apply Kept.ite <;> intro)
    | with_reducible apply State.installImage_kept
    | with_reducible apply State.refuseImage_kept
    | with_reducible apply State.reject_kept
    | with_reducible apply answer_kept
    | with_reducible apply Kept.getD
    | with_reducible apply Kept.elim
    | (with_reducible apply Kept.foldl; intro _ _; try dsimp only)
    | split
    | (intro _ _; try dsimp only)
    | with_reducible apply Kept.mk_of
    | skip)

theorem State.checkSignature_kept {W : List Fld} {s0 s : State}  (c : Cmd) (job : Nat) (hk : Kept W s0 s) (hkw : [Fld.out, Fld.depot, Fld.pcie] ⊆ W) :
    Kept W s0 (State.checkSignature s c job) := by
  simp only [List.cons_subset, List.nil_subset, and_true] at hkw
  unfold State.checkSignature
  repeat' (first | (simp (maxDischargeDepth := 40) only [hk, hkw, Kept.refl, Kept.mk_of, Kept.ite, Kept.foldl, List.cons_subset, List.nil_subset, List.mem_cons, List.mem_singleton, and_true, true_and, true_or, or_true, and_self, implies_true, not_false_eq_true, State.refuseImage_kept, State.submitOwn_kept]; done) | split)

theorem State.signatureChecked_kept {W : List Fld} {s0 s : State}  (c : Cmd) (job : Nat) (ok : Bool) (hk : Kept W s0 s) (hkw : [Fld.out, Fld.mem, Fld.seats, Fld.depot, Fld.tenancy, Fld.journal, Fld.pcie, Fld.recorder] ⊆ W) :
    Kept W s0 (State.signatureChecked s c job ok) := by
  simp only [List.cons_subset, List.nil_subset, and_true] at hkw
  unfold State.signatureChecked
  repeat' (first | (simp (maxDischargeDepth := 40) only [hk, hkw, Kept.refl, Kept.mk_of, Kept.ite, Kept.foldl, List.cons_subset, List.nil_subset, List.mem_cons, List.mem_singleton, and_true, true_and, true_or, or_true, and_self, implies_true, not_false_eq_true, State.checkSignature_kept, State.loadImage_kept, State.refuseImage_kept]; done) | split)

theorem State.jobAnswer_kept {W : List Fld} {s0 s : State}  (d : Desc) (code : Nat) (out : Bytes) (hk : Kept W s0 s) (hkw : [Fld.journal, Fld.held, Fld.pcie] ⊆ W) :
    Kept W s0 (State.jobAnswer s d code out) := by
  simp only [List.cons_subset, List.nil_subset, and_true] at hkw
  unfold State.jobAnswer
  repeat' (first | (simp (maxDischargeDepth := 40) only [hk, hkw, Kept.refl, Kept.mk_of, Kept.ite, Kept.foldl, List.cons_subset, List.nil_subset, List.mem_cons, List.mem_singleton, and_true, true_and, true_or, or_true, and_self, implies_true, not_false_eq_true, State.countDrained_kept, State.hold_kept]; done) | split)

theorem State.jobReject_kept {W : List Fld} {s0 s : State}  (c : Nat) (d : Desc) (param phase reason : Nat) (hk : Kept W s0 s) (hkw : [Fld.out, Fld.tes, Fld.clusters, Fld.depot, Fld.vault, Fld.journal, Fld.held, Fld.port0, Fld.port1, Fld.pcie, Fld.cards, Fld.faults, Fld.recorder, Fld.power] ⊆ W) :
    Kept W s0 (State.jobReject s c d param phase reason) := by
  simp only [List.cons_subset, List.nil_subset, and_true] at hkw
  unfold State.jobReject
  repeat' (first | (simp (maxDischargeDepth := 40) only [hk, hkw, Kept.refl, Kept.mk_of, Kept.ite, Kept.foldl, List.cons_subset, List.nil_subset, List.mem_cons, List.mem_singleton, and_true, true_and, true_or, or_true, and_self, implies_true, not_false_eq_true, State.fault_kept, State.jobAnswer_kept, State.ownFails_kept]; done) | split)

theorem State.checkFailed_kept {W : List Fld} {s0 s : State}  (c : Nat) (hk : Kept W s0 s) (hkw : [Fld.freeCtr, Fld.out, Fld.mem, Fld.seats, Fld.tes, Fld.clusters, Fld.lanes, Fld.depot, Fld.vault, Fld.journal, Fld.port0, Fld.port1, Fld.pcie, Fld.steward, Fld.time, Fld.entropy, Fld.cards, Fld.faults, Fld.recorder, Fld.power] ⊆ W) :
    Kept W s0 (State.checkFailed s c) := by
  simp only [List.cons_subset, List.nil_subset, and_true] at hkw
  unfold State.checkFailed
  repeat' (first | (simp (maxDischargeDepth := 40) only [hk, hkw, Kept.refl, Kept.mk_of, Kept.ite, Kept.foldl, List.cons_subset, List.nil_subset, List.mem_cons, List.mem_singleton, and_true, true_and, true_or, or_true, and_self, implies_true, not_false_eq_true, State.flagFailing_kept, State.modCluster_kept]; done) | split)

theorem State.jobStore_kept {W : List Fld} {s0 s : State} (c : Nat) (j : MaeJob) (r : JobReq) (material out : Bytes)
    (hk : Kept W s0 s) (hkw : [Fld.freeCtr, Fld.out, Fld.tes, Fld.clusters, Fld.depot, Fld.keys, Fld.vault, Fld.journal, Fld.held, Fld.port0, Fld.port1, Fld.pcie, Fld.entropy, Fld.cards, Fld.faults, Fld.recorder, Fld.power] ⊆ W) : Kept W s0 (State.jobStore s c j r material out) := by
  have sub : ∀ {A : List Fld}, (A ⊆ [Fld.freeCtr, Fld.out, Fld.tes, Fld.clusters, Fld.depot, Fld.keys, Fld.vault, Fld.journal, Fld.held, Fld.port0, Fld.port1, Fld.pcie, Fld.entropy, Fld.cards, Fld.faults, Fld.recorder, Fld.power]) → A ⊆ W := fun h => List.Subset.trans h hkw
  have ha : ∀ m, Kept W s0 (s.anchor m) := fun m => State.anchor_kept m hk (sub (by decide))
  unfold State.jobStore
  dsimp only
  split
  · next e =>
    split at e
    · exact State.jobAnswer_kept _ _ _ (State.anchor_kept _ (State.makeRecord_keptE e (ha _) (sub (by decide))) (sub (by decide))) (sub (by decide))
    · cases e
  · exact State.jobReject_kept _ _ _ _ _ (State.drawn_kept (State.anchor_kept _ (ha _) (sub (by decide))) (sub (by decide))) (sub (by decide))

theorem State.maeFree_kept {W : List Fld} {s0 s : State}  (c : Nat) (hk : Kept W s0 s) (hkw : [Fld.clusters, Fld.lanes, Fld.depot, Fld.keys, Fld.journal, Fld.port0, Fld.port1] ⊆ W) :
    Kept W s0 (State.maeFree s c) := by
  simp only [List.cons_subset, List.nil_subset, and_true] at hkw
  unfold State.maeFree
  repeat' (first | (simp (maxDischargeDepth := 40) only [hk, hkw, Kept.refl, Kept.mk_of, Kept.ite, Kept.foldl, List.cons_subset, List.nil_subset, List.mem_cons, List.mem_singleton, and_true, true_and, true_or, or_true, and_self, implies_true, not_false_eq_true, State.maeResume_kept, State.modCluster_kept]; done) | split)

theorem State.ownEnds_kept {W : List Fld} {s0 s : State}  (cmd : Cmd) (job code : Nat) (out material : Bytes) (hk : Kept W s0 s) (hkw : [Fld.freeCtr, Fld.out, Fld.mem, Fld.seats, Fld.clusters, Fld.depot, Fld.tenancy, Fld.keys, Fld.vault, Fld.journal, Fld.port0, Fld.port1, Fld.openSerial, Fld.pcie, Fld.entropy, Fld.recorder] ⊆ W) :
    Kept W s0 (State.ownEnds s cmd job code out material) := by
  simp only [List.cons_subset, List.nil_subset, and_true] at hkw
  unfold State.ownEnds
  repeat' (first | (simp (maxDischargeDepth := 40) only [hk, hkw, Kept.refl, Kept.mk_of, Kept.ite, Kept.foldl, List.cons_subset, List.nil_subset, List.mem_cons, List.mem_singleton, and_true, true_and, true_or, or_true, and_self, implies_true, not_false_eq_true, State.generated_kept, State.signatureChecked_kept]; done) | split)

theorem State.jobEnds_kept {W : List Fld} {s0 s : State} (c : Nat) (j : MaeJob) (ok : Bool) (hk : Kept W s0 s) (hkw : [Fld.freeCtr, Fld.out, Fld.mem, Fld.seats, Fld.tes, Fld.clusters, Fld.lanes, Fld.depot, Fld.tenancy, Fld.keys, Fld.vault, Fld.journal, Fld.held, Fld.port0, Fld.port1, Fld.openSerial, Fld.pcie, Fld.steward, Fld.time, Fld.entropy, Fld.cards, Fld.faults, Fld.recorder, Fld.power] ⊆ W) :
    Kept W s0 (State.jobEnds s c j ok) := by
  have sub : ∀ {A : List Fld}, (A ⊆ [Fld.freeCtr, Fld.out, Fld.mem, Fld.seats, Fld.tes, Fld.clusters, Fld.lanes, Fld.depot, Fld.tenancy, Fld.keys, Fld.vault, Fld.journal, Fld.held, Fld.port0, Fld.port1, Fld.openSerial, Fld.pcie, Fld.steward, Fld.time, Fld.entropy, Fld.cards, Fld.faults, Fld.recorder, Fld.power]) → A ⊆ W := fun h => List.Subset.trans h hkw
  unfold State.jobEnds
  dsimp only
  apply State.maeResume_kept _ _ (sub (by decide))
  have hm := State.modCluster_kept c (fun x => { x with mae := { x.mae with running := .none } }) hk (sub (by decide))
  split
  · split
    · exact State.checkFailed_kept _ (State.jobReject_kept _ _ _ _ _ hm (sub (by decide))) (sub (by decide))
    · exact State.jobReject_kept _ _ _ _ _ hm (sub (by decide))
  · exact State.ownEnds_kept _ _ _ _ _ hm (sub (by decide))
  · split
    · exact State.jobStore_kept _ _ _ _ _ hm (sub (by decide))
    · exact State.jobAnswer_kept _ _ _ hm (sub (by decide))

theorem State.requeueJob_kept {W : List Fld} {s0 s : State}  (j : MaeJob) (hk : Kept W s0 s) (hkw : [Fld.depot] ⊆ W) :
    Kept W s0 (State.requeueJob s j) := by
  simp only [List.cons_subset, List.nil_subset, and_true] at hkw
  unfold State.requeueJob
  repeat' (first | (simp (maxDischargeDepth := 40) only [hk, hkw, Kept.refl, Kept.mk_of, Kept.ite, Kept.foldl, List.cons_subset, List.nil_subset, List.mem_cons, List.mem_singleton, and_true, true_and, true_or, or_true, and_self, implies_true, not_false_eq_true]; done) | split)

theorem State.tableFill_kept {W : List Fld} {s0 s : State}  (c : Nat) (j : MaeJob) (hk : Kept W s0 s) (hkw : [Fld.clusters, Fld.keys] ⊆ W) :
    Kept W s0 (State.tableFill s c j) := by
  unfold State.tableFill
  try dsimp only
  iterate 40 all_goals (first
    | with_reducible exact hk
    | with_reducible assumption
    | with_reducible exact Kept.refl _ _
    | with_reducible exact .inr rfl
    | (with_reducible exact List.Subset.trans (by decide) hkw)
    | (with_reducible exact .inl (Fld.mem_of hkw (by decide)))
    | (with_reducible apply Kept.ite <;> intro)
    | with_reducible apply State.fetchKey_kept
    | with_reducible refine State.fetchKey_keptE (by with_reducible assumption) ?_ ?_
    | with_reducible apply State.tableLoad_kept
    | with_reducible apply Kept.getD
    | with_reducible apply Kept.elim
    | (with_reducible apply Kept.foldl; intro _ _; try dsimp only)
    | split
    | (intro _ _; try dsimp only)
    | with_reducible apply Kept.mk_of
    | skip)

theorem State.modFunc_kept {W : List Fld} {s0 s : State}  (fn : Nat) (f : Func → Func) (hk : Kept W s0 s) (hkw : [Fld.pcie] ⊆ W) :
    Kept W s0 (State.modFunc s fn f) := by
  simp only [List.cons_subset, List.nil_subset, and_true] at hkw
  unfold State.modFunc
  repeat' (first | (simp (maxDischargeDepth := 40) only [hk, hkw, Kept.refl, Kept.mk_of, Kept.ite, Kept.foldl, List.cons_subset, List.nil_subset, List.mem_cons, List.mem_singleton, and_true, true_and, true_or, or_true, and_self, implies_true, not_false_eq_true, State.setFunc_kept]; done) | split)

theorem State.takeIn_kept {W : List Fld} {s0 s : State}  (c : Cmd) (opcode : Nat) (ok serial : Bool) (hk : Kept W s0 s) (hkw : [Fld.out, Fld.pcie, Fld.recorder] ⊆ W) :
    Kept W s0 (State.takeIn s c opcode ok serial) := by
  simp only [List.cons_subset, List.nil_subset, and_true] at hkw
  unfold State.takeIn
  repeat' (first | (simp (maxDischargeDepth := 40) only [hk, hkw, Kept.refl, Kept.mk_of, Kept.ite, Kept.foldl, List.cons_subset, List.nil_subset, List.mem_cons, List.mem_singleton, and_true, true_and, true_or, or_true, and_self, implies_true, not_false_eq_true, State.reject_kept]; done) | split)

theorem State.cmdDelivered_kept {W : List Fld} {s0 s : State}  (colour : Colour) (ticket : Word) (hk : Kept W s0 s) (hkw : [Fld.journal] ⊆ W) :
    Kept W s0 (State.cmdDelivered s colour ticket) := by
  simp only [List.cons_subset, List.nil_subset, and_true] at hkw
  unfold State.cmdDelivered
  repeat' (first | (simp (maxDischargeDepth := 40) only [hk, hkw, Kept.refl, Kept.mk_of, Kept.ite, Kept.foldl, List.cons_subset, List.nil_subset, List.mem_cons, List.mem_singleton, and_true, true_and, true_or, or_true, and_self, implies_true, not_false_eq_true, State.writeMile_kept]; done) | split)

theorem State.serveMailbox_kept {W : List Fld} {s0 s : State}  (fn : Nat) (hk : Kept W s0 s) (hkw : [Fld.out, Fld.pcie, Fld.recorder] ⊆ W) :
    Kept W s0 (State.serveMailbox s fn) := by
  simp only [List.cons_subset, List.nil_subset, and_true] at hkw
  unfold State.serveMailbox
  repeat' (first | (simp (maxDischargeDepth := 40) only [hk, hkw, Kept.refl, Kept.mk_of, Kept.ite, Kept.foldl, List.cons_subset, List.nil_subset, List.mem_cons, List.mem_singleton, and_true, true_and, true_or, or_true, and_self, implies_true, not_false_eq_true, State.takeIn_kept]; done) | split)

theorem State.acceptGo_kept {W : List Fld} {s0 s : State}  (fn : Nat) (hk : Kept W s0 s) (hkw : [Fld.journal, Fld.pcie] ⊆ W) :
    Kept W s0 (State.acceptGo s fn) := by
  simp only [List.cons_subset, List.nil_subset, and_true] at hkw
  unfold State.acceptGo
  repeat' (first | (simp (maxDischargeDepth := 40) only [hk, hkw, Kept.refl, Kept.mk_of, Kept.ite, Kept.foldl, List.cons_subset, List.nil_subset, List.mem_cons, List.mem_singleton, and_true, true_and, true_or, or_true, and_self, implies_true, not_false_eq_true, State.cmdDelivered_kept, State.modFunc_kept]; done) | split)

theorem State.writeReg_kept {W : List Fld} {s0 s : State}  (fn off : Nat) (v : Nat) (hk : Kept W s0 s) (hkw : [Fld.out, Fld.pcie] ⊆ W) :
    Kept W s0 (State.writeReg s fn off v) := by
  simp only [List.cons_subset, List.nil_subset, and_true] at hkw
  unfold State.writeReg
  repeat' (first | (simp (maxDischargeDepth := 40) only [hk, hkw, Kept.refl, Kept.mk_of, Kept.ite, Kept.foldl, List.cons_subset, List.nil_subset, List.mem_cons, List.mem_singleton, and_true, true_and, true_or, or_true, and_self, implies_true, not_false_eq_true, State.emit_kept, State.modFunc_kept, State.msix_kept, State.setFunc_kept]; done) | split)

theorem State.resetSquash_kept {W : List Fld} {s0 s : State}  (fn : Nat) (p : LaneState → Bool) (hk : Kept W s0 s) (hkw : [Fld.out, Fld.seats, Fld.tes, Fld.clusters, Fld.lanes, Fld.depot, Fld.journal, Fld.port0, Fld.port1, Fld.pcie] ⊆ W) :
    Kept W s0 (State.resetSquash s fn p) := by
  simp only [List.cons_subset, List.nil_subset, and_true] at hkw
  unfold State.resetSquash
  repeat' (first | (simp (maxDischargeDepth := 40) only [hk, hkw, Kept.refl, Kept.mk_of, Kept.ite, Kept.foldl, List.cons_subset, List.nil_subset, List.mem_cons, List.mem_singleton, and_true, true_and, true_or, or_true, and_self, implies_true, not_false_eq_true, State.modFunc_kept, State.squashLanes_kept]; done) | split)

theorem State.startReset_kept {W : List Fld} {s0 s : State}  (fn : Nat) (waiting : List Cmd) (destroy : Bool) (hk : Kept W s0 s) (hkw : [Fld.out, Fld.seats, Fld.tes, Fld.clusters, Fld.lanes, Fld.depot, Fld.journal, Fld.port0, Fld.port1, Fld.pcie] ⊆ W) :
    Kept W s0 (State.startReset s fn waiting destroy) := by
  unfold State.startReset
  try dsimp only
  iterate 40 all_goals (first
    | with_reducible exact hk
    | with_reducible assumption
    | with_reducible exact Kept.refl _ _
    | with_reducible exact .inr rfl
    | (with_reducible exact List.Subset.trans (by decide) hkw)
    | (with_reducible exact .inl (Fld.mem_of hkw (by decide)))
    | (with_reducible apply Kept.ite <;> intro)
    | with_reducible apply State.drainLane_kept
    | with_reducible apply State.laneTo_kept
    | with_reducible apply State.resetSquash_kept
    | with_reducible apply State.setFunc_kept
    | with_reducible apply Kept.getD
    | with_reducible apply Kept.elim
    | (with_reducible apply Kept.foldl; intro _ _; try dsimp only)
    | split
    | (intro _ _; try dsimp only)
    | with_reducible apply Kept.mk_of
    | skip)

theorem State.endCommands_kept {W : List Fld} {s0 s : State}  (fn : Nat) (hk : Kept W s0 s) (hkw : [Fld.journal, Fld.pcie] ⊆ W) :
    Kept W s0 (State.endCommands s fn) := by
  simp only [List.cons_subset, List.nil_subset, and_true] at hkw
  unfold State.endCommands
  repeat' (first | (simp (maxDischargeDepth := 40) only [hk, hkw, Kept.refl, Kept.mk_of, Kept.ite, Kept.foldl, List.cons_subset, List.nil_subset, List.mem_cons, List.mem_singleton, and_true, true_and, true_or, or_true, and_self, implies_true, not_false_eq_true, State.modFunc_kept, State.writeMile_kept]; done) | split)

theorem State.unassign_kept {W : List Fld} {s0 s : State}  (fn : Nat) (hk : Kept W s0 s) (hkw : [Fld.tenancy, Fld.pcie] ⊆ W) :
    Kept W s0 (State.unassign s fn) := by
  unfold State.unassign
  try dsimp only
  iterate 40 all_goals (first
    | with_reducible exact hk
    | with_reducible assumption
    | with_reducible exact Kept.refl _ _
    | with_reducible exact .inr rfl
    | (with_reducible exact List.Subset.trans (by decide) hkw)
    | (with_reducible exact .inl (Fld.mem_of hkw (by decide)))
    | (with_reducible apply Kept.ite <;> intro)
    | with_reducible apply State.modFunc_kept
    | with_reducible apply State.setPart_kept
    | with_reducible apply Kept.getD
    | with_reducible apply Kept.elim
    | (with_reducible apply Kept.foldl; intro _ _; try dsimp only)
    | split
    | (intro _ _; try dsimp only)
    | with_reducible apply Kept.mk_of
    | skip)

theorem State.resetWaiters_kept {W : List Fld} {s0 s : State}  (fn : Nat) (ws : List Cmd) (hk : Kept W s0 s) (hkw : [Fld.out, Fld.tenancy, Fld.journal, Fld.pcie, Fld.recorder] ⊆ W) :
    Kept W s0 (State.resetWaiters s fn ws) := by
  unfold State.resetWaiters
  try dsimp only
  iterate 40 all_goals (first
    | with_reducible exact hk
    | with_reducible assumption
    | with_reducible exact Kept.refl _ _
    | with_reducible exact .inr rfl
    | (with_reducible exact List.Subset.trans (by decide) hkw)
    | (with_reducible exact .inl (Fld.mem_of hkw (by decide)))
    | (with_reducible apply Kept.ite <;> intro)
    | with_reducible apply State.configured_kept
    | with_reducible apply State.finish_kept
    | with_reducible apply State.unassign_kept
    | with_reducible apply Kept.getD
    | with_reducible apply Kept.elim
    | (with_reducible apply Kept.foldl; intro _ _; try dsimp only)
    | split
    | (intro _ _; try dsimp only)
    | with_reducible apply Kept.mk_of
    | skip)

theorem State.vfsVanish_kept {W : List Fld} {s0 s : State}  (fs : List Nat) (hk : Kept W s0 s) (hkw : [Fld.out, Fld.seats, Fld.tes, Fld.clusters, Fld.lanes, Fld.depot, Fld.journal, Fld.port0, Fld.port1, Fld.pcie] ⊆ W) :
    Kept W s0 (State.vfsVanish s fs) := by
  simp only [List.cons_subset, List.nil_subset, and_true] at hkw
  unfold State.vfsVanish
  repeat' (first | (simp (maxDischargeDepth := 40) only [hk, hkw, Kept.refl, Kept.mk_of, Kept.ite, Kept.foldl, List.cons_subset, List.nil_subset, List.mem_cons, List.mem_singleton, and_true, true_and, true_or, or_true, and_self, implies_true, not_false_eq_true, State.endCommands_kept, State.modFunc_kept, State.startReset_kept]; done) | split)

theorem State.assignVf_kept {W : List Fld} {s0 s : State}  (c : Colour) (p : Part) (hk : Kept W s0 s) (hkw : [Fld.pcie] ⊆ W) :
    Kept W s0 (State.assignVf s c p) := by
  simp only [List.cons_subset, List.nil_subset, and_true] at hkw
  unfold State.assignVf
  repeat' (first | (simp (maxDischargeDepth := 40) only [hk, hkw, Kept.refl, Kept.mk_of, Kept.ite, Kept.foldl, List.cons_subset, List.nil_subset, List.mem_cons, List.mem_singleton, and_true, true_and, true_or, or_true, and_self, implies_true, not_false_eq_true, State.modFunc_kept]; done) | split)

theorem State.addLanes_kept {W : List Fld} {s0 s : State}  (c : Colour) (n map : Nat) (hk : Kept W s0 s) (hkw : [Fld.mem, Fld.clusters, Fld.lanes] ⊆ W) :
    Kept W s0 (State.addLanes s c n map) := by
  simp only [List.cons_subset, List.nil_subset, and_true] at hkw
  unfold State.addLanes
  repeat' (first | (simp (maxDischargeDepth := 40) only [hk, hkw, Kept.refl, Kept.mk_of, Kept.ite, Kept.foldl, List.cons_subset, List.nil_subset, List.mem_cons, List.mem_singleton, and_true, true_and, true_or, or_true, and_self, implies_true, not_false_eq_true, State.ensurePlaced_kept, State.setLane_kept]; done) | split)

theorem State.createPart_kept {W : List Fld} {s0 s : State}  (c : Colour) (x : Creation) (gs : List Nat) (hk : Kept W s0 s) (hkw : [Fld.out, Fld.mem, Fld.clusters, Fld.lanes, Fld.tenancy, Fld.keys, Fld.port0, Fld.port1] ⊆ W) :
    Kept W s0 (State.createPart s c x gs) := by
  simp only [List.cons_subset, List.nil_subset, and_true] at hkw
  unfold State.createPart
  repeat' (first | (simp (maxDischargeDepth := 40) only [hk, hkw, Kept.refl, Kept.mk_of, Kept.ite, Kept.foldl, List.cons_subset, List.nil_subset, List.mem_cons, List.mem_singleton, and_true, true_and, true_or, or_true, and_self, implies_true, not_false_eq_true, State.addLanes_kept, State.creditColour_kept, State.formPartKeys_kept, State.setPart_kept]; done) | split)

theorem State.endLanes_kept {W : List Fld} {s0 s : State}  (c : Colour) (force : Bool) (hk : Kept W s0 s) (hkw : [Fld.out, Fld.seats, Fld.tes, Fld.clusters, Fld.lanes, Fld.depot, Fld.tenancy, Fld.journal, Fld.port0, Fld.port1, Fld.pcie, Fld.gates] ⊆ W) :
    Kept W s0 (State.endLanes s c force) := by
  unfold State.endLanes
  try dsimp only
  iterate 40 all_goals (first
    | with_reducible exact hk
    | with_reducible assumption
    | with_reducible exact Kept.refl _ _
    | with_reducible exact .inr rfl
    | (with_reducible exact List.Subset.trans (by decide) hkw)
    | (with_reducible exact .inl (Fld.mem_of hkw (by decide)))
    | (with_reducible apply Kept.ite <;> intro)
    | with_reducible apply State.laneTo_kept
    | with_reducible apply State.setLane_kept
    | with_reducible apply State.squashLane_kept
    | with_reducible apply State.tagDeleted_kept
    | with_reducible apply Kept.getD
    | with_reducible apply Kept.elim
    | (with_reducible apply Kept.foldl; intro _ _; try dsimp only)
    | split
    | (intro _ _; try dsimp only)
    | with_reducible apply Kept.mk_of
    | skip)

theorem State.eraseColour_kept {W : List Fld} {s0 s : State}  (c : Colour) (hk : Kept W s0 s) (hkw : [Fld.clusters, Fld.tenancy, Fld.keys] ⊆ W) :
    Kept W s0 (State.eraseColour s c) := by
  simp only [List.cons_subset, List.nil_subset, and_true] at hkw
  unfold State.eraseColour
  repeat' (first | (simp (maxDischargeDepth := 40) only [hk, hkw, Kept.refl, Kept.mk_of, Kept.ite, Kept.foldl, List.cons_subset, List.nil_subset, List.mem_cons, List.mem_singleton, and_true, true_and, true_or, or_true, and_self, implies_true, not_false_eq_true, State.dropHandle_kept]; done) | split)

theorem State.zeroGranules_kept {W : List Fld} {s0 s : State}  (gs : List Nat) (hk : Kept W s0 s) (hkw : [Fld.mem, Fld.tenancy] ⊆ W) :
    Kept W s0 (State.zeroGranules s gs) := by
  simp only [List.cons_subset, List.nil_subset, and_true] at hkw
  unfold State.zeroGranules
  repeat' (first | (simp (maxDischargeDepth := 40) only [hk, hkw, Kept.refl, Kept.mk_of, Kept.ite, Kept.foldl, List.cons_subset, List.nil_subset, List.mem_cons, List.mem_singleton, and_true, true_and, true_or, or_true, and_self, implies_true, not_false_eq_true, State.wipe_kept]; done) | split)

theorem State.markStreams_kept {W : List Fld} {s0 s : State}  (c : Colour) (v : Bool) (hk : Kept W s0 s) (hkw : [Fld.port0, Fld.port1] ⊆ W) :
    Kept W s0 (State.markStreams s c v) := by
  simp only [List.cons_subset, List.nil_subset, and_true] at hkw
  unfold State.markStreams
  repeat' (first | (simp (maxDischargeDepth := 40) only [hk, hkw, Kept.refl, Kept.mk_of, Kept.ite, Kept.foldl, List.cons_subset, List.nil_subset, List.mem_cons, List.mem_singleton, and_true, true_and, true_or, or_true, and_self, implies_true, not_false_eq_true, State.setStream_kept]; done) | split)

theorem State.requeueSaved_kept {W : List Fld} {s0 s : State}  (c : Colour) (hk : Kept W s0 s) (hkw : [Fld.clusters, Fld.depot] ⊆ W) :
    Kept W s0 (State.requeueSaved s c) := by
  simp only [List.cons_subset, List.nil_subset, and_true] at hkw
  unfold State.requeueSaved
  repeat' (first | (simp (maxDischargeDepth := 40) only [hk, hkw, Kept.refl, Kept.mk_of, Kept.ite, Kept.foldl, List.cons_subset, List.nil_subset, List.mem_cons, List.mem_singleton, and_true, true_and, true_or, or_true, and_self, implies_true, not_false_eq_true, State.requeueJob_kept]; done) | split)

theorem State.writeMigrated_kept {W : List Fld} {s0 s : State}  (c : Colour) (target : BitVec 128) (hk : Kept W s0 s) (hkw : [Fld.journal] ⊆ W) :
    Kept W s0 (State.writeMigrated s c target) := by
  unfold State.writeMigrated
  try dsimp only
  iterate 40 all_goals (first
    | with_reducible exact hk
    | with_reducible assumption
    | with_reducible exact Kept.refl _ _
    | with_reducible exact .inr rfl
    | (with_reducible exact List.Subset.trans (by decide) hkw)
    | (with_reducible exact .inl (Fld.mem_of hkw (by decide)))
    | (with_reducible apply Kept.ite <;> intro)
    | with_reducible apply State.writeMile_kept
    | with_reducible apply Kept.getD
    | with_reducible apply Kept.elim
    | (with_reducible apply Kept.foldl; intro _ _; try dsimp only)
    | split
    | (intro _ _; try dsimp only)
    | with_reducible apply Kept.mk_of
    | skip)

theorem State.restoreJournal_kept {W : List Fld} {s0 s : State}  (b : Bytes) (hk : Kept W s0 s) (hkw : [Fld.journal] ⊆ W) :
    Kept W s0 (State.restoreJournal s b) := by
  simp only [List.cons_subset, List.nil_subset, and_true] at hkw
  unfold State.restoreJournal
  repeat' (first | (simp (maxDischargeDepth := 40) only [hk, hkw, Kept.refl, Kept.mk_of, Kept.ite, Kept.foldl, List.cons_subset, List.nil_subset, List.mem_cons, List.mem_singleton, and_true, true_and, true_or, or_true, and_self, implies_true, not_false_eq_true, State.writeMile_kept]; done) | split)

theorem State.restoreLane_kept {W : List Fld} {s0 s : State}  (c : Colour) (b : Bytes) (hk : Kept W s0 s) (hkw : [Fld.lanes] ⊆ W) :
    Kept W s0 (State.restoreLane s c b) := by
  simp only [List.cons_subset, List.nil_subset, and_true] at hkw
  unfold State.restoreLane
  repeat' (first | (simp (maxDischargeDepth := 40) only [hk, hkw, Kept.refl, Kept.mk_of, Kept.ite, Kept.foldl, List.cons_subset, List.nil_subset, List.mem_cons, List.mem_singleton, and_true, true_and, true_or, or_true, and_self, implies_true, not_false_eq_true, State.setLane_kept]; done) | split)

theorem State.forceItem_kept {W : List Fld} {s0 s : State}  (i : Item) (hk : Kept W s0 s) (hkw : [Fld.mem, Fld.clusters, Fld.lanes, Fld.depot] ⊆ W) :
    Kept W s0 (State.forceItem s i) := by
  simp only [List.cons_subset, List.nil_subset, and_true] at hkw
  unfold State.forceItem
  repeat' (first | (simp (maxDischargeDepth := 40) only [hk, hkw, Kept.refl, Kept.mk_of, Kept.ite, Kept.foldl, List.cons_subset, List.nil_subset, List.mem_cons, List.mem_singleton, and_true, true_and, true_or, or_true, and_self, implies_true, not_false_eq_true, State.arrivalWake_kept, State.setLane_kept]; done) | split)

theorem State.renumber_kept {W : List Fld} {s0 s : State}  (d : Desc) (hk : Kept W s0 s) (hkw : [Fld.journal] ⊆ W) :
    Kept W s0 (State.renumber s d) := by
  simp only [List.cons_subset, List.nil_subset, and_true] at hkw
  unfold State.renumber
  repeat' (first | (simp (maxDischargeDepth := 40) only [hk, hkw, Kept.refl, Kept.mk_of, Kept.ite, Kept.foldl, List.cons_subset, List.nil_subset, List.mem_cons, List.mem_singleton, and_true, true_and, true_or, or_true, and_self, implies_true, not_false_eq_true]; done) | split)

theorem State.reenter_kept {W : List Fld} {s0 s : State}  (d : Desc) (len : Nat) (hk : Kept W s0 s) (hkw : [Fld.journal] ⊆ W) :
    Kept W s0 (State.reenter s d len) := by
  simp only [List.cons_subset, List.nil_subset, and_true] at hkw
  unfold State.reenter
  repeat' (first | (simp (maxDischargeDepth := 40) only [hk, hkw, Kept.refl, Kept.mk_of, Kept.ite, Kept.foldl, List.cons_subset, List.nil_subset, List.mem_cons, List.mem_singleton, and_true, true_and, true_or, or_true, and_self, implies_true, not_false_eq_true, State.renumber_kept, State.unsettle_kept, State.writeMile_kept]; done) | split)

theorem State.restoreItem_kept {W : List Fld} {s0 s : State}  (c : Colour) (a : RestoreArgs) (b : Bytes) (hk : Kept W s0 s) (hkw : [Fld.mem, Fld.clusters, Fld.lanes, Fld.depot, Fld.journal] ⊆ W) :
    Kept W s0 (State.restoreItem s c a b) := by
  simp only [List.cons_subset, List.nil_subset, and_true] at hkw
  unfold State.restoreItem
  repeat' (first | (simp (maxDischargeDepth := 40) only [hk, hkw, Kept.refl, Kept.mk_of, Kept.ite, Kept.foldl, List.cons_subset, List.nil_subset, List.mem_cons, List.mem_singleton, and_true, true_and, true_or, or_true, and_self, implies_true, not_false_eq_true, State.forceItem_kept, State.reenter_kept]; done) | split)

theorem State.restoreSeat_kept {W : List Fld} {s0 s : State}  (c : Colour) (a : RestoreArgs) (b : Bytes) (hk : Kept W s0 s) (hkw : [Fld.freeCtr, Fld.mem, Fld.clusters, Fld.lanes, Fld.depot, Fld.journal, Fld.held] ⊆ W) :
    Kept W s0 (State.restoreSeat s c a b) := by
  unfold State.restoreSeat
  try dsimp only
  iterate 40 all_goals (first
    | with_reducible exact hk
    | with_reducible assumption
    | with_reducible exact Kept.refl _ _
    | with_reducible exact .inr rfl
    | (with_reducible exact List.Subset.trans (by decide) hkw)
    | (with_reducible exact .inl (Fld.mem_of hkw (by decide)))
    | (with_reducible apply Kept.ite <;> intro)
    | with_reducible apply State.drawn_kept
    | with_reducible apply State.drawnBytes_kept
    | with_reducible apply State.forceItem_kept
    | with_reducible apply State.hold_kept
    | with_reducible apply State.reenter_kept
    | with_reducible apply Kept.getD
    | with_reducible apply Kept.elim
    | (with_reducible apply Kept.foldl; intro _ _; try dsimp only)
    | split
    | (intro _ _; try dsimp only)
    | with_reducible apply Kept.mk_of
    | skip)

theorem State.restoreStream_kept {W : List Fld} {s0 s : State}  (c : Colour) (a : RestoreArgs) (b : Bytes) (hk : Kept W s0 s) (hkw : [Fld.port0, Fld.port1] ⊆ W) :
    Kept W s0 (State.restoreStream s c a b) := by
  simp only [List.cons_subset, List.nil_subset, and_true] at hkw
  unfold State.restoreStream
  repeat' (first | (simp (maxDischargeDepth := 40) only [hk, hkw, Kept.refl, Kept.mk_of, Kept.ite, Kept.foldl, List.cons_subset, List.nil_subset, List.mem_cons, List.mem_singleton, and_true, true_and, true_or, or_true, and_self, implies_true, not_false_eq_true, State.setPort_kept]; done) | split)

theorem State.restore_kept {W : List Fld} {s0 s : State}  (c : Colour) (a : RestoreArgs) (b : Bytes) (secs : List (Nat × Bytes)) (hk : Kept W s0 s) (hkw : [Fld.freeCtr, Fld.out, Fld.mem, Fld.clusters, Fld.lanes, Fld.depot, Fld.tenancy, Fld.journal, Fld.held, Fld.port0, Fld.port1, Fld.pcie] ⊆ W) :
    Kept W s0 (State.restore s c a b secs) := by
  unfold State.restore
  try dsimp only
  iterate 40 all_goals (first
    | with_reducible exact hk
    | with_reducible assumption
    | with_reducible exact Kept.refl _ _
    | with_reducible exact .inr rfl
    | (with_reducible exact List.Subset.trans (by decide) hkw)
    | (with_reducible exact .inl (Fld.mem_of hkw (by decide)))
    | (with_reducible apply Kept.ite <;> intro)
    | with_reducible apply State.creditColour_kept
    | with_reducible apply State.modFunc_kept
    | with_reducible apply State.restoreItem_kept
    | with_reducible apply State.restoreJournal_kept
    | with_reducible apply State.restoreLane_kept
    | with_reducible apply State.restoreSeat_kept
    | with_reducible apply State.restoreStream_kept
    | with_reducible apply State.setPart_kept
    | with_reducible apply Kept.getD
    | with_reducible apply Kept.elim
    | (with_reducible apply Kept.foldl; intro _ _; try dsimp only)
    | split
    | (intro _ _; try dsimp only)
    | with_reducible apply Kept.mk_of
    | skip)

theorem State.unstage_kept {W : List Fld} {s0 s : State}  (fn : Nat) (hk : Kept W s0 s) (hkw : [Fld.pcie] ⊆ W) :
    Kept W s0 (State.unstage s fn) := by
  simp only [List.cons_subset, List.nil_subset, and_true] at hkw
  unfold State.unstage
  repeat' (first | (simp (maxDischargeDepth := 40) only [hk, hkw, Kept.refl, Kept.mk_of, Kept.ite, Kept.foldl, List.cons_subset, List.nil_subset, List.mem_cons, List.mem_singleton, and_true, true_and, true_or, or_true, and_self, implies_true, not_false_eq_true, State.modFunc_kept]; done) | split)

theorem State.restoreAll_kept {W : List Fld} {s0 s : State}  (sp : Spec) (c : Cmd) (a : RestoreArgs) (b : Bytes) (hk : Kept W s0 s) (hkw : [Fld.freeCtr, Fld.out, Fld.mem, Fld.clusters, Fld.lanes, Fld.depot, Fld.tenancy, Fld.journal, Fld.held, Fld.port0, Fld.port1, Fld.pcie, Fld.recorder] ⊆ W) :
    Kept W s0 (State.restoreAll s sp c a b) := by
  unfold State.restoreAll
  try dsimp only
  iterate 40 all_goals (first
    | with_reducible exact hk
    | with_reducible assumption
    | with_reducible exact Kept.refl _ _
    | with_reducible exact .inr rfl
    | (with_reducible exact List.Subset.trans (by decide) hkw)
    | (with_reducible exact .inl (Fld.mem_of hkw (by decide)))
    | (with_reducible apply Kept.ite <;> intro)
    | with_reducible apply State.begin_kept
    | with_reducible apply State.cmdAccepted_kept
    | with_reducible apply State.configured_kept
    | with_reducible apply State.modFunc_kept
    | with_reducible apply State.reject_kept
    | with_reducible apply State.restore_kept
    | with_reducible apply State.unstage_kept
    | with_reducible apply answer_kept
    | with_reducible apply Kept.getD
    | with_reducible apply Kept.elim
    | (with_reducible apply Kept.foldl; intro _ _; try dsimp only)
    | split
    | (intro _ _; try dsimp only)
    | with_reducible apply Kept.mk_of
    | skip)

end Sys2Proof.Machine
end

