-- ==== Sys2Proof/Laws/KeptPower.lean ====
section
/-! SUPPORT. What each operation on the state may change: time, tamper, the life cycle, entropy, the Stewards and power. -/

namespace Sys2Proof.Machine

set_option linter.all false

theorem State.modTime_kept {W : List Fld} {s0 s : State}  (f : Time → Time) (hk : Kept W s0 s) (hkw : [Fld.time] ⊆ W) :
    Kept W s0 (State.modTime s f) := by
  simp only [List.cons_subset, List.nil_subset, and_true] at hkw
  unfold State.modTime
  repeat' (first | (simp (maxDischargeDepth := 40) only [hk, hkw, Kept.refl, Kept.mk_of, Kept.ite, Kept.foldl, List.cons_subset, List.nil_subset, List.mem_cons, List.mem_singleton, and_true, true_and, true_or, or_true, and_self, implies_true, not_false_eq_true]; done) | split)

theorem State.secondBoundary_kept {W : List Fld} {s0 s : State}  (hk : Kept W s0 s) (hkw : [Fld.out, Fld.time] ⊆ W) :
    Kept W s0 (State.secondBoundary s) := by
  simp only [List.cons_subset, List.nil_subset, and_true] at hkw
  unfold State.secondBoundary
  repeat' (first | (simp (maxDischargeDepth := 40) only [hk, hkw, Kept.refl, Kept.mk_of, Kept.ite, Kept.foldl, List.cons_subset, List.nil_subset, List.mem_cons, List.mem_singleton, and_true, true_and, true_or, or_true, and_self, implies_true, not_false_eq_true, State.emit_kept, State.modTime_kept]; done) | split)

theorem State.pass_kept {W : List Fld} {s0 s : State}  (n : Nat) (hk : Kept W s0 s) (hkw : [Fld.now, Fld.clusters] ⊆ W) :
    Kept W s0 (State.pass s n) := by
  simp only [List.cons_subset, List.nil_subset, and_true] at hkw
  unfold State.pass
  repeat' (first | (simp (maxDischargeDepth := 40) only [hk, hkw, Kept.refl, Kept.mk_of, Kept.ite, Kept.foldl, List.cons_subset, List.nil_subset, List.mem_cons, List.mem_singleton, and_true, true_and, true_or, or_true, and_self, implies_true, not_false_eq_true]; done) | split)

theorem State.clockCycle_kept {W : List Fld} {s0 s : State}  (hk : Kept W s0 s) (hkw : [Fld.now, Fld.out, Fld.clusters, Fld.time] ⊆ W) :
    Kept W s0 (State.clockCycle s) := by
  simp only [List.cons_subset, List.nil_subset, and_true] at hkw
  unfold State.clockCycle
  repeat' (first | (simp (maxDischargeDepth := 40) only [hk, hkw, Kept.refl, Kept.mk_of, Kept.ite, Kept.foldl, List.cons_subset, List.nil_subset, List.mem_cons, List.mem_singleton, and_true, true_and, true_or, or_true, and_self, implies_true, not_false_eq_true, State.pass_kept, State.secondBoundary_kept]; done) | split)

theorem State.ptpDrop_kept {W : List Fld} {s0 s : State}  (row : Nat) (hk : Kept W s0 s) (hkw : [Fld.time, Fld.recorder] ⊆ W) :
    Kept W s0 (State.ptpDrop s row) := by
  simp only [List.cons_subset, List.nil_subset, and_true] at hkw
  unfold State.ptpDrop
  repeat' (first | (simp (maxDischargeDepth := 40) only [hk, hkw, Kept.refl, Kept.mk_of, Kept.ite, Kept.foldl, List.cons_subset, List.nil_subset, List.mem_cons, List.mem_singleton, and_true, true_and, true_or, or_true, and_self, implies_true, not_false_eq_true, State.count_kept, State.modTime_kept]; done) | split)

theorem State.steer_kept {W : List Fld} {s0 s : State}  (hk : Kept W s0 s) (hkw : [Fld.freeCtr, Fld.time] ⊆ W) :
    Kept W s0 (State.steer s) := by
  simp only [List.cons_subset, List.nil_subset, and_true] at hkw
  unfold State.steer
  repeat' (first | (simp (maxDischargeDepth := 40) only [hk, hkw, Kept.refl, Kept.mk_of, Kept.ite, Kept.foldl, List.cons_subset, List.nil_subset, List.mem_cons, List.mem_singleton, and_true, true_and, true_or, or_true, and_self, implies_true, not_false_eq_true, State.drawn_kept, State.modTime_kept]; done) | split)

theorem State.usableOffset_kept {W : List Fld} {s0 s : State}  (off : Int) (hk : Kept W s0 s) (hkw : [Fld.freeCtr, Fld.time, Fld.recorder] ⊆ W) :
    Kept W s0 (State.usableOffset s off) := by
  unfold State.usableOffset
  try dsimp only
  iterate 40 all_goals (first
    | with_reducible exact hk
    | with_reducible assumption
    | with_reducible exact Kept.refl _ _
    | with_reducible exact .inr rfl
    | (with_reducible exact List.Subset.trans (by decide) hkw)
    | (with_reducible exact .inl (Fld.mem_of hkw (by decide)))
    | (with_reducible apply Kept.ite <;> intro)
    | with_reducible apply State.count_kept
    | with_reducible apply State.drawn_kept
    | with_reducible apply State.modTime_kept
    | with_reducible apply State.steer_kept
    | with_reducible apply Kept.getD
    | with_reducible apply Kept.elim
    | (with_reducible apply Kept.foldl; intro _ _; try dsimp only)
    | split
    | (intro _ _; try dsimp only)
    | with_reducible apply Kept.mk_of
    | skip)

theorem State.gotDifference_kept {W : List Fld} {s0 s : State}  (d : Int) (hk : Kept W s0 s) (hkw : [Fld.freeCtr, Fld.time, Fld.recorder] ⊆ W) :
    Kept W s0 (State.gotDifference s d) := by
  unfold State.gotDifference
  try dsimp only
  iterate 40 all_goals (first
    | with_reducible exact hk
    | with_reducible assumption
    | with_reducible exact Kept.refl _ _
    | with_reducible exact .inr rfl
    | (with_reducible exact List.Subset.trans (by decide) hkw)
    | (with_reducible exact .inl (Fld.mem_of hkw (by decide)))
    | (with_reducible apply Kept.ite <;> intro)
    | with_reducible apply State.modTime_kept
    | with_reducible apply State.usableOffset_kept
    | with_reducible apply Kept.getD
    | with_reducible apply Kept.elim
    | (with_reducible apply Kept.foldl; intro _ _; try dsimp only)
    | split
    | (intro _ _; try dsimp only)
    | with_reducible apply Kept.mk_of
    | skip)

theorem State.sendPtp_kept {W : List Fld} {s0 s : State}  (typ : Nat) (seq : BitVec 16) (ns : Nat) (requester : Word) (hk : Kept W s0 s) (hkw : [Fld.out] ⊆ W) :
    Kept W s0 (State.sendPtp s typ seq ns requester) := by
  simp only [List.cons_subset, List.nil_subset, and_true] at hkw
  unfold State.sendPtp
  repeat' (first | (simp (maxDischargeDepth := 40) only [hk, hkw, Kept.refl, Kept.mk_of, Kept.ite, Kept.foldl, List.cons_subset, List.nil_subset, List.mem_cons, List.mem_singleton, and_true, true_and, true_or, or_true, and_self, implies_true, not_false_eq_true, State.emit_kept]; done) | split)

theorem State.gotDelay_kept {W : List Fld} {s0 s : State}  (d : Int) (hk : Kept W s0 s) (hkw : [Fld.time] ⊆ W) :
    Kept W s0 (State.gotDelay s d) := by
  simp only [List.cons_subset, List.nil_subset, and_true] at hkw
  unfold State.gotDelay
  repeat' (first | (simp (maxDischargeDepth := 40) only [hk, hkw, Kept.refl, Kept.mk_of, Kept.ite, Kept.foldl, List.cons_subset, List.nil_subset, List.mem_cons, List.mem_singleton, and_true, true_and, true_or, or_true, and_self, implies_true, not_false_eq_true, State.modTime_kept]; done) | split)

theorem State.modSource_kept {W : List Fld} {s0 s : State}  (n : Nat) (f : Source → Source) (hk : Kept W s0 s) (hkw : [Fld.tamper] ⊆ W) :
    Kept W s0 (State.modSource s n f) := by
  simp only [List.cons_subset, List.nil_subset, and_true] at hkw
  unfold State.modSource
  repeat' (first | (simp (maxDischargeDepth := 40) only [hk, hkw, Kept.refl, Kept.mk_of, Kept.ite, Kept.foldl, List.cons_subset, List.nil_subset, List.mem_cons, List.mem_singleton, and_true, true_and, true_or, or_true, and_self, implies_true, not_false_eq_true, State.setSource_kept]; done) | split)

theorem State.modTamper_kept {W : List Fld} {s0 s : State}  (f : Tamper → Tamper) (hk : Kept W s0 s) (hkw : [Fld.tamper] ⊆ W) :
    Kept W s0 (State.modTamper s f) := by
  simp only [List.cons_subset, List.nil_subset, and_true] at hkw
  unfold State.modTamper
  repeat' (first | (simp (maxDischargeDepth := 40) only [hk, hkw, Kept.refl, Kept.mk_of, Kept.ite, Kept.foldl, List.cons_subset, List.nil_subset, List.mem_cons, List.mem_singleton, and_true, true_and, true_or, or_true, and_self, implies_true, not_false_eq_true]; done) | split)

theorem State.squashTenants_kept {W : List Fld} {s0 s : State}  (cause : LaneCause) (hk : Kept W s0 s) (hkw : [Fld.out, Fld.seats, Fld.tes, Fld.clusters, Fld.lanes, Fld.depot, Fld.journal, Fld.port0, Fld.port1, Fld.pcie] ⊆ W) :
    Kept W s0 (State.squashTenants s cause) := by
  unfold State.squashTenants
  try dsimp only
  iterate 40 all_goals (first
    | with_reducible exact hk
    | with_reducible assumption
    | with_reducible exact Kept.refl _ _
    | with_reducible exact .inr rfl
    | (with_reducible exact List.Subset.trans (by decide) hkw)
    | (with_reducible exact .inl (Fld.mem_of hkw (by decide)))
    | (with_reducible apply Kept.ite <;> intro)
    | with_reducible apply State.squashLane_kept
    | with_reducible apply Kept.getD
    | with_reducible apply Kept.elim
    | (with_reducible apply Kept.foldl; intro _ _; try dsimp only)
    | split
    | (intro _ _; try dsimp only)
    | with_reducible apply Kept.mk_of
    | skip)

theorem State.endAllWork_kept {W : List Fld} {s0 s : State}  (hk : Kept W s0 s) (hkw : [Fld.out, Fld.mem, Fld.seats, Fld.tes, Fld.clusters, Fld.lanes, Fld.depot, Fld.journal, Fld.port0, Fld.port1, Fld.pcie, Fld.recorder] ⊆ W) :
    Kept W s0 (State.endAllWork s) := by
  simp only [List.cons_subset, List.nil_subset, and_true] at hkw
  unfold State.endAllWork
  repeat' (first | (simp (maxDischargeDepth := 40) only [hk, hkw, Kept.refl, Kept.mk_of, Kept.ite, Kept.foldl, List.cons_subset, List.nil_subset, List.mem_cons, List.mem_singleton, and_true, true_and, true_or, or_true, and_self, implies_true, not_false_eq_true, State.abortStream_kept, State.discardItems_kept, State.jobLost_kept, State.killSeat_kept]; done) | split)

theorem State.abandonPuts_kept {W : List Fld} {s0 s : State}  (hk : Kept W s0 s) (hkw : [Fld.out, Fld.seats, Fld.vault, Fld.journal, Fld.pcie, Fld.recorder] ⊆ W) :
    Kept W s0 (State.abandonPuts s) := by
  unfold State.abandonPuts
  try dsimp only
  iterate 40 all_goals (first
    | with_reducible exact hk
    | with_reducible assumption
    | with_reducible exact Kept.refl _ _
    | with_reducible exact .inr rfl
    | (with_reducible exact List.Subset.trans (by decide) hkw)
    | (with_reducible exact .inl (Fld.mem_of hkw (by decide)))
    | (with_reducible apply Kept.ite <;> intro)
    | with_reducible apply State.modVault_kept
    | with_reducible apply State.vaultReply_kept
    | with_reducible apply Kept.getD
    | with_reducible apply Kept.elim
    | (with_reducible apply Kept.foldl; intro _ _; try dsimp only)
    | split
    | (intro _ _; try dsimp only)
    | with_reducible apply Kept.mk_of
    | skip)

theorem State.clearEntropy_kept {W : List Fld} {s0 s : State}  (hk : Kept W s0 s) (hkw : [Fld.clusters, Fld.entropy] ⊆ W) :
    Kept W s0 (State.clearEntropy s) := by
  simp only [List.cons_subset, List.nil_subset, and_true] at hkw
  unfold State.clearEntropy
  repeat' (first | (simp (maxDischargeDepth := 40) only [hk, hkw, Kept.refl, Kept.mk_of, Kept.ite, Kept.foldl, List.cons_subset, List.nil_subset, List.mem_cons, List.mem_singleton, and_true, true_and, true_or, or_true, and_self, implies_true, not_false_eq_true]; done) | split)

theorem State.eraseSession_kept {W : List Fld} {s0 s : State}  (hk : Kept W s0 s) (hkw : [Fld.out, Fld.mem, Fld.seats, Fld.tes, Fld.clusters, Fld.lanes, Fld.depot, Fld.keys, Fld.vault, Fld.journal, Fld.port0, Fld.port1, Fld.pcie, Fld.entropy, Fld.cards, Fld.faults, Fld.recorder, Fld.power] ⊆ W) :
    Kept W s0 (State.eraseSession s) := by
  simp only [List.cons_subset, List.nil_subset, and_true] at hkw
  unfold State.eraseSession
  repeat' (first | (simp (maxDischargeDepth := 40) only [hk, hkw, Kept.refl, Kept.mk_of, Kept.ite, Kept.foldl, List.cons_subset, List.nil_subset, List.mem_cons, List.mem_singleton, and_true, true_and, true_or, or_true, and_self, implies_true, not_false_eq_true, State.abandonPuts_kept, State.abortCeremony_kept, State.cardOff_kept, State.clearEntropy_kept, State.endAllWork_kept, State.fillFixed_kept, State.squashTenants_kept, State.zeroise_kept]; done) | split)

theorem State.eraseAll_kept {W : List Fld} {s0 s : State}  (hk : Kept W s0 s) (hkw : [Fld.out, Fld.mem, Fld.seats, Fld.tes, Fld.clusters, Fld.lanes, Fld.depot, Fld.keys, Fld.vault, Fld.journal, Fld.port0, Fld.port1, Fld.pcie, Fld.entropy, Fld.cards, Fld.faults, Fld.recorder, Fld.power] ⊆ W) :
    Kept W s0 (State.eraseAll s) := by
  simp only [List.cons_subset, List.nil_subset, and_true] at hkw
  unfold State.eraseAll
  repeat' (first | (simp (maxDischargeDepth := 40) only [hk, hkw, Kept.refl, Kept.mk_of, Kept.ite, Kept.foldl, List.cons_subset, List.nil_subset, List.mem_cons, List.mem_singleton, and_true, true_and, true_or, or_true, and_self, implies_true, not_false_eq_true, State.eraseSession_kept, State.setEventAll_kept, State.vaultLost_kept]; done) | split)

theorem State.reportAlarms_kept {W : List Fld} {s0 s : State}  (as : List Alarm) (hk : Kept W s0 s) (hkw : [Fld.out, Fld.tes, Fld.clusters, Fld.depot, Fld.vault, Fld.journal, Fld.port0, Fld.port1, Fld.pcie, Fld.cards, Fld.faults, Fld.recorder, Fld.power] ⊆ W) :
    Kept W s0 (State.reportAlarms s as) := by
  simp only [List.cons_subset, List.nil_subset, and_true] at hkw
  unfold State.reportAlarms
  repeat' (first | (simp (maxDischargeDepth := 40) only [hk, hkw, Kept.refl, Kept.mk_of, Kept.ite, Kept.foldl, List.cons_subset, List.nil_subset, List.mem_cons, List.mem_singleton, and_true, true_and, true_or, or_true, and_self, implies_true, not_false_eq_true, State.fault_kept]; done) | split)

theorem State.reportCurrent_kept {W : List Fld} {s0 s : State}  (hk : Kept W s0 s) (hkw : [Fld.out, Fld.tes, Fld.clusters, Fld.depot, Fld.vault, Fld.journal, Fld.port0, Fld.port1, Fld.pcie, Fld.cards, Fld.tamper, Fld.faults, Fld.recorder, Fld.power] ⊆ W) :
    Kept W s0 (State.reportCurrent s) := by
  simp only [List.cons_subset, List.nil_subset, and_true] at hkw
  unfold State.reportCurrent
  repeat' (first | (simp (maxDischargeDepth := 40) only [hk, hkw, Kept.refl, Kept.mk_of, Kept.ite, Kept.foldl, List.cons_subset, List.nil_subset, List.mem_cons, List.mem_singleton, and_true, true_and, true_or, or_true, and_self, implies_true, not_false_eq_true, State.modTamper_kept, State.reportAlarms_kept]; done) | split)

theorem State.executeRank_kept {W : List Fld} {s0 s : State}  (r : Nat) (hk : Kept W s0 s) (hkw : [Fld.out, Fld.mem, Fld.seats, Fld.tes, Fld.clusters, Fld.lanes, Fld.depot, Fld.keys, Fld.vault, Fld.journal, Fld.port0, Fld.port1, Fld.pcie, Fld.entropy, Fld.cards, Fld.tamper, Fld.faults, Fld.recorder, Fld.power] ⊆ W) :
    Kept W s0 (State.executeRank s r) := by
  simp only [List.cons_subset, List.nil_subset, and_true] at hkw
  unfold State.executeRank
  repeat' (first | (simp (maxDischargeDepth := 40) only [hk, hkw, Kept.refl, Kept.mk_of, Kept.ite, Kept.foldl, List.cons_subset, List.nil_subset, List.mem_cons, List.mem_singleton, and_true, true_and, true_or, or_true, and_self, implies_true, not_false_eq_true, State.abortCeremony_kept, State.cardOff_kept, State.eraseAll_kept, State.eraseSession_kept, State.modTamper_kept]; done) | split)

theorem State.respond_kept {W : List Fld} {s0 s : State}  (r : Nat) (as : List Alarm) (hk : Kept W s0 s) (hkw : [Fld.out, Fld.mem, Fld.seats, Fld.tes, Fld.clusters, Fld.lanes, Fld.depot, Fld.keys, Fld.vault, Fld.journal, Fld.port0, Fld.port1, Fld.pcie, Fld.entropy, Fld.cards, Fld.tamper, Fld.faults, Fld.recorder, Fld.power] ⊆ W) :
    Kept W s0 (State.respond s r as) := by
  simp only [List.cons_subset, List.nil_subset, and_true] at hkw
  unfold State.respond
  repeat' (first | (simp (maxDischargeDepth := 40) only [hk, hkw, Kept.refl, Kept.mk_of, Kept.ite, Kept.foldl, List.cons_subset, List.nil_subset, List.mem_cons, List.mem_singleton, and_true, true_and, true_or, or_true, and_self, implies_true, not_false_eq_true, State.executeRank_kept, State.modSource_kept, State.modTamper_kept, State.reportCurrent_kept]; done) | split)

theorem State.nextResponse_kept {W : List Fld} {s0 s : State}  (hk : Kept W s0 s) (hkw : [Fld.out, Fld.mem, Fld.seats, Fld.tes, Fld.clusters, Fld.lanes, Fld.depot, Fld.keys, Fld.vault, Fld.journal, Fld.port0, Fld.port1, Fld.pcie, Fld.entropy, Fld.cards, Fld.tamper, Fld.faults, Fld.recorder, Fld.power] ⊆ W) :
    Kept W s0 (State.nextResponse s) := by
  simp only [List.cons_subset, List.nil_subset, and_true] at hkw
  unfold State.nextResponse
  repeat' (first | (simp (maxDischargeDepth := 40) only [hk, hkw, Kept.refl, Kept.mk_of, Kept.ite, Kept.foldl, List.cons_subset, List.nil_subset, List.mem_cons, List.mem_singleton, and_true, true_and, true_or, or_true, and_self, implies_true, not_false_eq_true, State.modTamper_kept, State.reportCurrent_kept, State.respond_kept]; done) | split)

theorem State.alarmEvidence_kept {W : List Fld} {s0 s : State}  (a : Alarm) (hk : Kept W s0 s) (hkw : [Fld.tamper, Fld.recorder] ⊆ W) :
    Kept W s0 (State.alarmEvidence s a) := by
  simp only [List.cons_subset, List.nil_subset, and_true] at hkw
  unfold State.alarmEvidence
  repeat' (first | (simp (maxDischargeDepth := 40) only [hk, hkw, Kept.refl, Kept.mk_of, Kept.ite, Kept.foldl, List.cons_subset, List.nil_subset, List.mem_cons, List.mem_singleton, and_true, true_and, true_or, or_true, and_self, implies_true, not_false_eq_true, State.count_kept, State.modSource_kept]; done) | split)

theorem State.alarmOnBattery_kept {W : List Fld} {s0 s : State}  (a : Alarm) (hk : Kept W s0 s) (hkw : [Fld.keys, Fld.tamper] ⊆ W) :
    Kept W s0 (State.alarmOnBattery s a) := by
  simp only [List.cons_subset, List.nil_subset, and_true] at hkw
  unfold State.alarmOnBattery
  repeat' (first | (simp (maxDischargeDepth := 40) only [hk, hkw, Kept.refl, Kept.mk_of, Kept.ite, Kept.foldl, List.cons_subset, List.nil_subset, List.mem_cons, List.mem_singleton, and_true, true_and, true_or, or_true, and_self, implies_true, not_false_eq_true, State.modSource_kept]; done) | split)

theorem State.tamperDecide_kept {W : List Fld} {s0 s : State}  (as : List Alarm) (hk : Kept W s0 s) (hkw : [Fld.out, Fld.mem, Fld.seats, Fld.tes, Fld.clusters, Fld.lanes, Fld.depot, Fld.keys, Fld.vault, Fld.journal, Fld.port0, Fld.port1, Fld.pcie, Fld.entropy, Fld.cards, Fld.tamper, Fld.faults, Fld.recorder, Fld.power] ⊆ W) :
    Kept W s0 (State.tamperDecide s as) := by
  simp only [List.cons_subset, List.nil_subset, and_true] at hkw
  unfold State.tamperDecide
  repeat' (first | (simp (maxDischargeDepth := 40) only [hk, hkw, Kept.refl, Kept.mk_of, Kept.ite, Kept.foldl, List.cons_subset, List.nil_subset, List.mem_cons, List.mem_singleton, and_true, true_and, true_or, or_true, and_self, implies_true, not_false_eq_true, State.alarmEvidence_kept, State.alarmOnBattery_kept, State.modTamper_kept, State.nextResponse_kept]; done) | split)

theorem State.sampleSource_kept {W : List Fld} {s0 s : State}  (p : Nat × BitVec 8) (hk : Kept W s0 s) (hkw : [Fld.tamper, Fld.recorder] ⊆ W) :
    Kept W s0 (State.sampleSource s p).1 := by
  unfold State.sampleSource
  try dsimp only
  iterate 40 all_goals (first
    | with_reducible exact hk
    | with_reducible assumption
    | with_reducible exact Kept.refl _ _
    | with_reducible exact .inr rfl
    | (with_reducible exact List.Subset.trans (by decide) hkw)
    | (with_reducible exact .inl (Fld.mem_of hkw (by decide)))
    | (with_reducible apply Kept.ite <;> intro)
    | with_reducible apply State.count_kept
    | with_reducible apply State.setSource_kept
    | with_reducible apply Kept.getD
    | with_reducible apply Kept.elim
    | (with_reducible apply Kept.foldl; intro _ _; try dsimp only)
    | split
    | (intro _ _; try dsimp only)
    | with_reducible apply Kept.mk_of
    | skip)

theorem State.sampleSource_keptE {W : List Fld} {s0 s zz : State}  {p : Nat × BitVec 8} {o : Option Alarm} (eq : State.sampleSource s p = (zz, o)) (hk : Kept W s0 s) (hkw : [Fld.tamper, Fld.recorder] ⊆ W) : Kept W s0 zz := by
  have hp := State.sampleSource_kept (W := W) p hk hkw
  rw [eq] at hp
  exact hp

theorem State.sampleAll_kept {W : List Fld} {s0 s : State} (ps : List (Nat × BitVec 8)) (hk : Kept W s0 s) (hkw : [Fld.out, Fld.mem, Fld.seats, Fld.tes, Fld.clusters, Fld.lanes, Fld.depot, Fld.keys, Fld.vault, Fld.journal, Fld.port0, Fld.port1, Fld.pcie, Fld.entropy, Fld.cards, Fld.tamper, Fld.faults, Fld.recorder, Fld.power] ⊆ W) :
    Kept W s0 (State.sampleAll s ps) := by
  have go : ∀ (ps : List (Nat × BitVec 8)) (a : State × List Alarm), Kept W s0 a.1 →
      Kept W s0 (ps.foldl (fun (a : State × List Alarm) p => ((a.1.sampleSource p).1, a.2 ++ (a.1.sampleSource p).2.toList)) a).1 := by
    intro ps
    induction ps with
    | nil => exact fun a h => h
    | cons p r ih => exact fun a h => ih _ (State.sampleSource_kept _ h (List.Subset.trans (by decide) hkw))
  exact State.tamperDecide_kept _ (go ps (s, []) hk) (List.Subset.trans (by decide) hkw)

theorem State.defaultSources_kept {W : List Fld} {s0 s : State}  (hk : Kept W s0 s) (hkw : [Fld.tamper] ⊆ W) :
    Kept W s0 (State.defaultSources s) := by
  simp only [List.cons_subset, List.nil_subset, and_true] at hkw
  unfold State.defaultSources
  repeat' (first | (simp (maxDischargeDepth := 40) only [hk, hkw, Kept.refl, Kept.mk_of, Kept.ite, Kept.foldl, List.cons_subset, List.nil_subset, List.mem_cons, List.mem_singleton, and_true, true_and, true_or, or_true, and_self, implies_true, not_false_eq_true, State.modTamper_kept]; done) | split)

theorem State.useSources_kept {W : List Fld} {s0 s : State}  (hk : Kept W s0 s) (hkw : [Fld.out, Fld.tes, Fld.clusters, Fld.depot, Fld.vault, Fld.journal, Fld.port0, Fld.port1, Fld.pcie, Fld.cards, Fld.tamper, Fld.faults, Fld.recorder, Fld.power] ⊆ W) :
    Kept W s0 (State.useSources s) := by
  simp only [List.cons_subset, List.nil_subset, and_true] at hkw
  unfold State.useSources
  repeat' (first | (simp (maxDischargeDepth := 40) only [hk, hkw, Kept.refl, Kept.mk_of, Kept.ite, Kept.foldl, List.cons_subset, List.nil_subset, List.mem_cons, List.mem_singleton, and_true, true_and, true_or, or_true, and_self, implies_true, not_false_eq_true, State.defaultSources_kept, State.fault_kept]; done) | split)

theorem State.useLifecycle_kept {W : List Fld} {s0 s : State}  (hk : Kept W s0 s) (hkw : [Fld.out, Fld.tes, Fld.clusters, Fld.depot, Fld.vault, Fld.journal, Fld.port0, Fld.port1, Fld.pcie, Fld.cards, Fld.faults, Fld.recorder, Fld.power] ⊆ W) :
    Kept W s0 (State.useLifecycle s) := by
  simp only [List.cons_subset, List.nil_subset, and_true] at hkw
  unfold State.useLifecycle
  repeat' (first | (simp (maxDischargeDepth := 40) only [hk, hkw, Kept.refl, Kept.mk_of, Kept.ite, Kept.foldl, List.cons_subset, List.nil_subset, List.mem_cons, List.mem_singleton, and_true, true_and, true_or, or_true, and_self, implies_true, not_false_eq_true, State.fault_kept]; done) | split)

theorem State.modLc_kept {W : List Fld} {s0 s : State}  (f : Lifecycle → Lifecycle) (hk : Kept W s0 s) (hkw : [Fld.lc] ⊆ W) :
    Kept W s0 (State.modLc s f) := by
  simp only [List.cons_subset, List.nil_subset, and_true] at hkw
  unfold State.modLc
  repeat' (first | (simp (maxDischargeDepth := 40) only [hk, hkw, Kept.refl, Kept.mk_of, Kept.ite, Kept.foldl, List.cons_subset, List.nil_subset, List.mem_cons, List.mem_singleton, and_true, true_and, true_or, or_true, and_self, implies_true, not_false_eq_true]; done) | split)

theorem State.eraseKeys_kept {W : List Fld} {s0 s : State}  (hk : Kept W s0 s) (hkw : [Fld.out, Fld.mem, Fld.seats, Fld.tes, Fld.clusters, Fld.lanes, Fld.depot, Fld.keys, Fld.vault, Fld.journal, Fld.port0, Fld.port1, Fld.pcie, Fld.recorder] ⊆ W) :
    Kept W s0 (State.eraseKeys s) := by
  simp only [List.cons_subset, List.nil_subset, and_true] at hkw
  unfold State.eraseKeys
  repeat' (first | (simp (maxDischargeDepth := 40) only [hk, hkw, Kept.refl, Kept.mk_of, Kept.ite, Kept.foldl, List.cons_subset, List.nil_subset, List.mem_cons, List.mem_singleton, and_true, true_and, true_or, or_true, and_self, implies_true, not_false_eq_true, State.clearSaveAreas_kept, State.endAllWork_kept, State.modCluster_kept, State.vaultLost_kept]; done) | split)

theorem State.clearEvidence_kept {W : List Fld} {s0 s : State}  (hk : Kept W s0 s) (hkw : [Fld.tamper] ⊆ W) :
    Kept W s0 (State.clearEvidence s) := by
  simp only [List.cons_subset, List.nil_subset, and_true] at hkw
  unfold State.clearEvidence
  repeat' (first | (simp (maxDischargeDepth := 40) only [hk, hkw, Kept.refl, Kept.mk_of, Kept.ite, Kept.foldl, List.cons_subset, List.nil_subset, List.mem_cons, List.mem_singleton, and_true, true_and, true_or, or_true, and_self, implies_true, not_false_eq_true, State.modTamper_kept]; done) | split)

theorem State.wipeUser_kept {W : List Fld} {s0 s : State}  (hk : Kept W s0 s) (hkw : [Fld.mem, Fld.clusters, Fld.lanes, Fld.depot, Fld.tenancy, Fld.vault, Fld.journal, Fld.held, Fld.pcie, Fld.cards, Fld.tamper] ⊆ W) :
    Kept W s0 (State.wipeUser s) := by
  simp only [List.cons_subset, List.nil_subset, and_true] at hkw
  unfold State.wipeUser
  repeat' (first | (simp (maxDischargeDepth := 40) only [hk, hkw, Kept.refl, Kept.mk_of, Kept.ite, Kept.foldl, List.cons_subset, List.nil_subset, List.mem_cons, List.mem_singleton, and_true, true_and, true_or, or_true, and_self, implies_true, not_false_eq_true, State.modTamper_kept, State.modVault_kept, State.wipe_kept]; done) | split)

theorem State.wipeAnalysis_kept {W : List Fld} {s0 s : State}  (hk : Kept W s0 s) (hkw : [Fld.mem, Fld.clusters, Fld.lanes, Fld.depot, Fld.tenancy, Fld.vault, Fld.journal, Fld.held, Fld.pcie, Fld.cards, Fld.tamper, Fld.lc, Fld.power] ⊆ W) :
    Kept W s0 (State.wipeAnalysis s) := by
  simp only [List.cons_subset, List.nil_subset, and_true] at hkw
  unfold State.wipeAnalysis
  repeat' (first | (simp (maxDischargeDepth := 40) only [hk, hkw, Kept.refl, Kept.mk_of, Kept.ite, Kept.foldl, List.cons_subset, List.nil_subset, List.mem_cons, List.mem_singleton, and_true, true_and, true_or, or_true, and_self, implies_true, not_false_eq_true, State.modLc_kept, State.wipeUser_kept]; done) | split)

theorem State.wipeScrap_kept {W : List Fld} {s0 s : State}  (hk : Kept W s0 s) (hkw : [Fld.mem, Fld.clusters, Fld.lanes, Fld.depot, Fld.tenancy, Fld.vault, Fld.journal, Fld.held, Fld.openSerial, Fld.pcie, Fld.cards, Fld.tamper, Fld.lc, Fld.recorder, Fld.power] ⊆ W) :
    Kept W s0 (State.wipeScrap s) := by
  simp only [List.cons_subset, List.nil_subset, and_true] at hkw
  unfold State.wipeScrap
  repeat' (first | (simp (maxDischargeDepth := 40) only [hk, hkw, Kept.refl, Kept.mk_of, Kept.ite, Kept.foldl, List.cons_subset, List.nil_subset, List.mem_cons, List.mem_singleton, and_true, true_and, true_or, or_true, and_self, implies_true, not_false_eq_true, State.modTamper_kept, State.wipeAnalysis_kept]; done) | split)

theorem State.lcWipe_kept {W : List Fld} {s0 s : State}  (t : Nat) (hk : Kept W s0 s) (hkw : [Fld.out, Fld.mem, Fld.seats, Fld.tes, Fld.clusters, Fld.lanes, Fld.depot, Fld.tenancy, Fld.keys, Fld.vault, Fld.journal, Fld.held, Fld.port0, Fld.port1, Fld.openSerial, Fld.pcie, Fld.cards, Fld.tamper, Fld.lc, Fld.recorder, Fld.power] ⊆ W) :
    Kept W s0 (State.lcWipe s t) := by
  simp only [List.cons_subset, List.nil_subset, and_true] at hkw
  unfold State.lcWipe
  repeat' (first | (simp (maxDischargeDepth := 40) only [hk, hkw, Kept.refl, Kept.mk_of, Kept.ite, Kept.foldl, List.cons_subset, List.nil_subset, List.mem_cons, List.mem_singleton, and_true, true_and, true_or, or_true, and_self, implies_true, not_false_eq_true, State.clearEvidence_kept, State.defaultSources_kept, State.eraseKeys_kept, State.wipeAnalysis_kept, State.wipeScrap_kept, State.wipeUser_kept]; done) | split)

theorem State.lcEnter_kept {W : List Fld} {s0 s : State}  (t : Nat) (hk : Kept W s0 s) (hkw : [Fld.lc] ⊆ W) :
    Kept W s0 (State.lcEnter s t) := by
  simp only [List.cons_subset, List.nil_subset, and_true] at hkw
  unfold State.lcEnter
  repeat' (first | (simp (maxDischargeDepth := 40) only [hk, hkw, Kept.refl, Kept.mk_of, Kept.ite, Kept.foldl, List.cons_subset, List.nil_subset, List.mem_cons, List.mem_singleton, and_true, true_and, true_or, or_true, and_self, implies_true, not_false_eq_true, State.modLc_kept]; done) | split)

theorem State.askDirect_kept {W : List Fld} {s0 s : State}  (forBbk : Bool) (hk : Kept W s0 s) (hkw : [Fld.entropy] ⊆ W) :
    Kept W s0 (State.askDirect s forBbk) := by
  simp only [List.cons_subset, List.nil_subset, and_true] at hkw
  unfold State.askDirect
  repeat' (first | (simp (maxDischargeDepth := 40) only [hk, hkw, Kept.refl, Kept.mk_of, Kept.ite, Kept.foldl, List.cons_subset, List.nil_subset, List.mem_cons, List.mem_singleton, and_true, true_and, true_or, or_true, and_self, implies_true, not_false_eq_true]; done) | split)

theorem State.closeSessions_kept {W : List Fld} {s0 s : State}  (hk : Kept W s0 s) (hkw : [Fld.out, Fld.tes, Fld.clusters, Fld.depot, Fld.vault, Fld.port0, Fld.port1] ⊆ W) :
    Kept W s0 (State.closeSessions s) := by
  simp only [List.cons_subset, List.nil_subset, and_true] at hkw
  unfold State.closeSessions
  repeat' (first | (simp (maxDischargeDepth := 40) only [hk, hkw, Kept.refl, Kept.mk_of, Kept.ite, Kept.foldl, List.cons_subset, List.nil_subset, List.mem_cons, List.mem_singleton, and_true, true_and, true_or, or_true, and_self, implies_true, not_false_eq_true, State.closeSession_kept, State.setPort_kept]; done) | split)

theorem State.lcBegin_kept {W : List Fld} {s0 s : State}  (t : Nat) (cmd : Option Cmd) (hk : Kept W s0 s) (hkw : [Fld.out, Fld.seats, Fld.tes, Fld.clusters, Fld.lanes, Fld.depot, Fld.keys, Fld.vault, Fld.journal, Fld.port0, Fld.port1, Fld.pcie, Fld.entropy, Fld.cards, Fld.lc, Fld.faults, Fld.recorder, Fld.power] ⊆ W) :
    Kept W s0 (State.lcBegin s t cmd) := by
  simp only [List.cons_subset, List.nil_subset, and_true] at hkw
  unfold State.lcBegin
  repeat' (first | (simp (maxDischargeDepth := 40) only [hk, hkw, Kept.refl, Kept.mk_of, Kept.ite, Kept.foldl, List.cons_subset, List.nil_subset, List.mem_cons, List.mem_singleton, and_true, true_and, true_or, or_true, and_self, implies_true, not_false_eq_true, State.abortCeremony_kept, State.askDirect_kept, State.cardOff_kept, State.closeSessions_kept, State.modLc_kept, State.squashTenants_kept]; done) | split)

theorem State.lcSettle_kept {W : List Fld} {s0 s : State}  (hk : Kept W s0 s) (hkw : [Fld.out, Fld.pcie, Fld.faults, Fld.recorder, Fld.power] ⊆ W) :
    Kept W s0 (State.lcSettle s) := by
  simp only [List.cons_subset, List.nil_subset, and_true] at hkw
  unfold State.lcSettle
  repeat' (first | (simp (maxDischargeDepth := 40) only [hk, hkw, Kept.refl, Kept.mk_of, Kept.ite, Kept.foldl, List.cons_subset, List.nil_subset, List.mem_cons, List.mem_singleton, and_true, true_and, true_or, or_true, and_self, implies_true, not_false_eq_true, State.setDev_kept]; done) | split)

theorem State.reprovisioned_kept {W : List Fld} {s0 s : State}  (hk : Kept W s0 s) (hkw : [Fld.out, Fld.keys, Fld.journal, Fld.pcie, Fld.tamper, Fld.faults, Fld.recorder, Fld.power] ⊆ W) :
    Kept W s0 (State.reprovisioned s) := by
  simp only [List.cons_subset, List.nil_subset, and_true] at hkw
  unfold State.reprovisioned
  repeat' (first | (simp (maxDischargeDepth := 40) only [hk, hkw, Kept.refl, Kept.mk_of, Kept.ite, Kept.foldl, List.cons_subset, List.nil_subset, List.mem_cons, List.mem_singleton, and_true, true_and, true_or, or_true, and_self, implies_true, not_false_eq_true, State.clearEvidence_kept, State.finishLater_kept, State.formRoots_kept, State.lcSettle_kept]; done) | split)

theorem State.issueNonce_kept {W : List Fld} {s0 s : State}  (hk : Kept W s0 s) (hkw : [Fld.freeCtr, Fld.out, Fld.entropy, Fld.lc] ⊆ W) :
    Kept W s0 (State.issueNonce s) := by
  simp only [List.cons_subset, List.nil_subset, and_true] at hkw
  unfold State.issueNonce
  repeat' (first | (simp (maxDischargeDepth := 40) only [hk, hkw, Kept.refl, Kept.mk_of, Kept.ite, Kept.foldl, List.cons_subset, List.nil_subset, List.mem_cons, List.mem_singleton, and_true, true_and, true_or, or_true, and_self, implies_true, not_false_eq_true, State.emit_kept, State.hubRead_kept, State.modLc_kept]; done) | split)

theorem State.fencedReport_kept {W : List Fld} {s0 s : State}  (src : BitVec 16) (detail : Word) (hk : Kept W s0 s) (hkw : [Fld.out, Fld.tes, Fld.clusters, Fld.depot, Fld.vault, Fld.journal, Fld.port0, Fld.port1, Fld.pcie, Fld.gates, Fld.cards, Fld.faults, Fld.recorder, Fld.power] ⊆ W) :
    Kept W s0 (State.fencedReport s src detail) := by
  unfold State.fencedReport
  try dsimp only
  iterate 40 all_goals (first
    | with_reducible exact hk
    | with_reducible assumption
    | with_reducible exact Kept.refl _ _
    | with_reducible exact .inr rfl
    | (with_reducible exact List.Subset.trans (by decide) hkw)
    | (with_reducible exact .inl (Fld.mem_of hkw (by decide)))
    | (with_reducible apply Kept.ite <;> intro)
    | with_reducible apply State.stewardReach_kept
    | with_reducible refine State.stewardReach_keptE (by with_reducible assumption) ?_ ?_
    | with_reducible apply Kept.getD
    | with_reducible apply Kept.elim
    | (with_reducible apply Kept.foldl; intro _ _; try dsimp only)
    | split
    | (intro _ _; try dsimp only)
    | with_reducible apply Kept.mk_of
    | skip)

theorem State.rerunTest_kept {W : List Fld} {s0 s : State}  (a : Active) (hk : Kept W s0 s) (hkw : [Fld.tes, Fld.clusters, Fld.steward, Fld.entropy] ⊆ W) :
    Kept W s0 (State.rerunTest s a) := by
  simp only [List.cons_subset, List.nil_subset, and_true] at hkw
  unfold State.rerunTest
  repeat' (first | (simp (maxDischargeDepth := 40) only [hk, hkw, Kept.refl, Kept.mk_of, Kept.ite, Kept.foldl, List.cons_subset, List.nil_subset, List.mem_cons, List.mem_singleton, and_true, true_and, true_or, or_true, and_self, implies_true, not_false_eq_true, State.modCluster_kept, State.setTe_kept, State.startKat_kept]; done) | split)

theorem State.modEntropy_kept {W : List Fld} {s0 s : State}  (f : Entropy → Entropy) (hk : Kept W s0 s) (hkw : [Fld.entropy] ⊆ W) :
    Kept W s0 (State.modEntropy s f) := by
  simp only [List.cons_subset, List.nil_subset, and_true] at hkw
  unfold State.modEntropy
  repeat' (first | (simp (maxDischargeDepth := 40) only [hk, hkw, Kept.refl, Kept.mk_of, Kept.ite, Kept.foldl, List.cons_subset, List.nil_subset, List.mem_cons, List.mem_singleton, and_true, true_and, true_or, or_true, and_self, implies_true, not_false_eq_true]; done) | split)

theorem State.cellFails_kept {W : List Fld} {s0 s : State}  (n cause : Nat) (hk : Kept W s0 s) (hkw : [Fld.out, Fld.tes, Fld.clusters, Fld.depot, Fld.vault, Fld.journal, Fld.port0, Fld.port1, Fld.pcie, Fld.entropy, Fld.cards, Fld.faults, Fld.recorder, Fld.power] ⊆ W) :
    Kept W s0 (State.cellFails s n cause) := by
  unfold State.cellFails
  try dsimp only
  iterate 40 all_goals (first
    | with_reducible exact hk
    | with_reducible assumption
    | with_reducible exact Kept.refl _ _
    | with_reducible exact .inr rfl
    | (with_reducible exact List.Subset.trans (by decide) hkw)
    | (with_reducible exact .inl (Fld.mem_of hkw (by decide)))
    | (with_reducible apply Kept.ite <;> intro)
    | with_reducible apply State.fault_kept
    | with_reducible apply State.setCell_kept
    | with_reducible apply Kept.getD
    | with_reducible apply Kept.elim
    | (with_reducible apply Kept.foldl; intro _ _; try dsimp only)
    | split
    | (intro _ _; try dsimp only)
    | with_reducible apply Kept.mk_of
    | skip)

theorem State.windowFailed_kept {W : List Fld} {s0 s : State}  (n test : Nat) (hk : Kept W s0 s) (hkw : [Fld.out, Fld.tes, Fld.clusters, Fld.depot, Fld.vault, Fld.journal, Fld.port0, Fld.port1, Fld.pcie, Fld.entropy, Fld.cards, Fld.faults, Fld.recorder, Fld.power] ⊆ W) :
    Kept W s0 (State.windowFailed s n test) := by
  unfold State.windowFailed
  try dsimp only
  iterate 40 all_goals (first
    | with_reducible exact hk
    | with_reducible assumption
    | with_reducible exact Kept.refl _ _
    | with_reducible exact .inr rfl
    | (with_reducible exact List.Subset.trans (by decide) hkw)
    | (with_reducible exact .inl (Fld.mem_of hkw (by decide)))
    | (with_reducible apply Kept.ite <;> intro)
    | with_reducible apply State.cellFails_kept
    | with_reducible apply State.setCell_kept
    | with_reducible apply Kept.getD
    | with_reducible apply Kept.elim
    | (with_reducible apply Kept.foldl; intro _ _; try dsimp only)
    | split
    | (intro _ _; try dsimp only)
    | with_reducible apply Kept.mk_of
    | skip)

theorem State.windowPassed_kept {W : List Fld} {s0 s : State}  (n : Nat) (w : BitVec 4096) (hk : Kept W s0 s) (hkw : [Fld.entropy] ⊆ W) :
    Kept W s0 (State.windowPassed s n w) := by
  simp only [List.cons_subset, List.nil_subset, and_true] at hkw
  unfold State.windowPassed
  repeat' (first | (simp (maxDischargeDepth := 40) only [hk, hkw, Kept.refl, Kept.mk_of, Kept.ite, Kept.foldl, List.cons_subset, List.nil_subset, List.mem_cons, List.mem_singleton, and_true, true_and, true_or, or_true, and_self, implies_true, not_false_eq_true, State.modEntropy_kept, State.setCell_kept]; done) | split)

theorem State.windowCounted_kept {W : List Fld} {s0 s : State}  (n : Nat) (hk : Kept W s0 s) (hkw : [Fld.entropy] ⊆ W) :
    Kept W s0 (State.windowCounted s n) := by
  simp only [List.cons_subset, List.nil_subset, and_true] at hkw
  unfold State.windowCounted
  repeat' (first | (simp (maxDischargeDepth := 40) only [hk, hkw, Kept.refl, Kept.mk_of, Kept.ite, Kept.foldl, List.cons_subset, List.nil_subset, List.mem_cons, List.mem_singleton, and_true, true_and, true_or, or_true, and_self, implies_true, not_false_eq_true, State.setCell_kept]; done) | split)

theorem State.windowEnds_kept {W : List Fld} {s0 s : State}  (n : Nat) (window : BitVec 4096) (hk : Kept W s0 s) (hkw : [Fld.out, Fld.tes, Fld.clusters, Fld.depot, Fld.vault, Fld.journal, Fld.port0, Fld.port1, Fld.pcie, Fld.entropy, Fld.cards, Fld.faults, Fld.recorder, Fld.power] ⊆ W) :
    Kept W s0 (State.windowEnds s n window) := by
  simp only [List.cons_subset, List.nil_subset, and_true] at hkw
  unfold State.windowEnds
  repeat' (first | (simp (maxDischargeDepth := 40) only [hk, hkw, Kept.refl, Kept.mk_of, Kept.ite, Kept.foldl, List.cons_subset, List.nil_subset, List.mem_cons, List.mem_singleton, and_true, true_and, true_or, or_true, and_self, implies_true, not_false_eq_true, State.setCell_kept, State.windowCounted_kept, State.windowFailed_kept, State.windowPassed_kept]; done) | split)

theorem State.seedFrom_kept {W : List Fld} {s0 s : State}  (e : Nat) (entropy : Bytes) (hk : Kept W s0 s) (hkw : [Fld.clusters, Fld.entropy] ⊆ W) :
    Kept W s0 (State.seedFrom s e entropy) := by
  simp only [List.cons_subset, List.nil_subset, and_true] at hkw
  unfold State.seedFrom
  repeat' (first | (simp (maxDischargeDepth := 40) only [hk, hkw, Kept.refl, Kept.mk_of, Kept.ite, Kept.foldl, List.cons_subset, List.nil_subset, List.mem_cons, List.mem_singleton, and_true, true_and, true_or, or_true, and_self, implies_true, not_false_eq_true, State.setExpander_kept]; done) | split)

theorem State.hubSeeded_kept {W : List Fld} {s0 s : State}  (hk : Kept W s0 s) (hkw : [Fld.freeCtr, Fld.clusters, Fld.entropy] ⊆ W) :
    Kept W s0 (State.hubSeeded s) := by
  simp only [List.cons_subset, List.nil_subset, and_true] at hkw
  unfold State.hubSeeded
  repeat' (first | (simp (maxDischargeDepth := 40) only [hk, hkw, Kept.refl, Kept.mk_of, Kept.ite, Kept.foldl, List.cons_subset, List.nil_subset, List.mem_cons, List.mem_singleton, and_true, true_and, true_or, or_true, and_self, implies_true, not_false_eq_true, State.hubRead_kept, State.modEntropy_kept]; done) | split)

theorem State.serveDraw_kept {W : List Fld} {s0 s : State}  (d : Draw) (out : Bytes) (hk : Kept W s0 s) (hkw : [Fld.freeCtr, Fld.out, Fld.clusters, Fld.keys, Fld.journal, Fld.pcie, Fld.entropy, Fld.tamper, Fld.lc, Fld.faults, Fld.recorder, Fld.power] ⊆ W) :
    Kept W s0 (State.serveDraw s d out) := by
  simp only [List.cons_subset, List.nil_subset, and_true] at hkw
  unfold State.serveDraw
  repeat' (first | (simp (maxDischargeDepth := 40) only [hk, hkw, Kept.refl, Kept.mk_of, Kept.ite, Kept.foldl, List.cons_subset, List.nil_subset, List.mem_cons, List.mem_singleton, and_true, true_and, true_or, or_true, and_self, implies_true, not_false_eq_true, State.hubSeeded_kept, State.modEntropy_kept, State.modLc_kept, State.reprovisioned_kept, State.seedFrom_kept, State.setExpander_kept]; done) | split)

theorem State.katAnswer_kept {W : List Fld} {s0 s : State}  (src : BitVec 16) (ok : Bool) (hk : Kept W s0 s) (hkw : [Fld.out, Fld.journal, Fld.pcie, Fld.recorder] ⊆ W) :
    Kept W s0 (State.katAnswer s src ok) := by
  simp only [List.cons_subset, List.nil_subset, and_true] at hkw
  unfold State.katAnswer
  repeat' (first | (simp (maxDischargeDepth := 40) only [hk, hkw, Kept.refl, Kept.mk_of, Kept.ite, Kept.foldl, List.cons_subset, List.nil_subset, List.mem_cons, List.mem_singleton, and_true, true_and, true_or, or_true, and_self, implies_true, not_false_eq_true, State.finishLater_kept]; done) | split)

theorem State.kettleTested_kept {W : List Fld} {s0 s : State}  (failed cell : Nat) (hk : Kept W s0 s) (hkw : [Fld.out, Fld.tes, Fld.clusters, Fld.depot, Fld.vault, Fld.journal, Fld.port0, Fld.port1, Fld.pcie, Fld.entropy, Fld.cards, Fld.faults, Fld.recorder, Fld.power] ⊆ W) :
    Kept W s0 (State.kettleTested s failed cell) := by
  simp only [List.cons_subset, List.nil_subset, and_true] at hkw
  unfold State.kettleTested
  repeat' (first | (simp (maxDischargeDepth := 40) only [hk, hkw, Kept.refl, Kept.mk_of, Kept.ite, Kept.foldl, List.cons_subset, List.nil_subset, List.mem_cons, List.mem_singleton, and_true, true_and, true_or, or_true, and_self, implies_true, not_false_eq_true, State.cellFails_kept, State.fault_kept, State.modEntropy_kept]; done) | split)

theorem State.hubTested_kept {W : List Fld} {s0 s : State}  (failed : Nat) (hk : Kept W s0 s) (hkw : [Fld.freeCtr, Fld.out, Fld.mem, Fld.tes, Fld.clusters, Fld.lanes, Fld.depot, Fld.vault, Fld.journal, Fld.port0, Fld.port1, Fld.pcie, Fld.steward, Fld.time, Fld.entropy, Fld.cards, Fld.faults, Fld.recorder, Fld.power] ⊆ W) :
    Kept W s0 (State.hubTested s failed) := by
  simp only [List.cons_subset, List.nil_subset, and_true] at hkw
  unfold State.hubTested
  repeat' (first | (simp (maxDischargeDepth := 40) only [hk, hkw, Kept.refl, Kept.mk_of, Kept.ite, Kept.foldl, List.cons_subset, List.nil_subset, List.mem_cons, List.mem_singleton, and_true, true_and, true_or, or_true, and_self, implies_true, not_false_eq_true, State.fault_kept, State.hubSeeded_kept, State.modEntropy_kept, State.releaseHold_kept]; done) | split)

theorem State.clusterTested_kept {W : List Fld} {s0 s : State}  (c failed : Nat) (src : BitVec 16) (hk : Kept W s0 s) (hkw : [Fld.freeCtr, Fld.out, Fld.mem, Fld.seats, Fld.tes, Fld.clusters, Fld.lanes, Fld.depot, Fld.vault, Fld.journal, Fld.port0, Fld.port1, Fld.pcie, Fld.steward, Fld.time, Fld.entropy, Fld.cards, Fld.faults, Fld.recorder, Fld.power] ⊆ W) :
    Kept W s0 (State.clusterTested s c failed src) := by
  simp only [List.cons_subset, List.nil_subset, and_true] at hkw
  unfold State.clusterTested
  repeat' (first | (simp (maxDischargeDepth := 40) only [hk, hkw, Kept.refl, Kept.mk_of, Kept.ite, Kept.foldl, List.cons_subset, List.nil_subset, List.mem_cons, List.mem_singleton, and_true, true_and, true_or, or_true, and_self, implies_true, not_false_eq_true, State.fault_kept, State.flagFailing_kept, State.releaseHold_kept, State.setExpander_kept]; done) | split)

theorem State.modRecorder_kept {W : List Fld} {s0 s : State}  (f : Recorder → Recorder) (hk : Kept W s0 s) (hkw : [Fld.recorder] ⊆ W) :
    Kept W s0 (State.modRecorder s f) := by
  simp only [List.cons_subset, List.nil_subset, and_true] at hkw
  unfold State.modRecorder
  repeat' (first | (simp (maxDischargeDepth := 40) only [hk, hkw, Kept.refl, Kept.mk_of, Kept.ite, Kept.foldl, List.cons_subset, List.nil_subset, List.mem_cons, List.mem_singleton, and_true, true_and, true_or, or_true, and_self, implies_true, not_false_eq_true]; done) | split)

theorem State.laneSample_kept {W : List Fld} {s0 s : State}  (rec : Nat) (value : Int) (hk : Kept W s0 s) (hkw : [Fld.port0, Fld.port1] ⊆ W) :
    Kept W s0 (State.laneSample s rec value) := by
  simp only [List.cons_subset, List.nil_subset, and_true] at hkw
  unfold State.laneSample
  repeat' (first | (simp (maxDischargeDepth := 40) only [hk, hkw, Kept.refl, Kept.mk_of, Kept.ite, Kept.foldl, List.cons_subset, List.nil_subset, List.mem_cons, List.mem_singleton, and_true, true_and, true_or, or_true, and_self, implies_true, not_false_eq_true, State.setPort_kept]; done) | split)

theorem State.flushed_kept {W : List Fld} {s0 s : State}  (hk : Kept W s0 s) (hkw : [Fld.recorder] ⊆ W) :
    Kept W s0 (State.flushed s) := by
  simp only [List.cons_subset, List.nil_subset, and_true] at hkw
  unfold State.flushed
  repeat' (first | (simp (maxDischargeDepth := 40) only [hk, hkw, Kept.refl, Kept.mk_of, Kept.ite, Kept.foldl, List.cons_subset, List.nil_subset, List.mem_cons, List.mem_singleton, and_true, true_and, true_or, or_true, and_self, implies_true, not_false_eq_true, State.modRecorder_kept, State.updateRec_kept]; done) | split)

theorem State.modSteward_kept {W : List Fld} {s0 s : State}  (f : Steward → Steward) (hk : Kept W s0 s) (hkw : [Fld.steward] ⊆ W) :
    Kept W s0 (State.modSteward s f) := by
  simp only [List.cons_subset, List.nil_subset, and_true] at hkw
  unfold State.modSteward
  repeat' (first | (simp (maxDischargeDepth := 40) only [hk, hkw, Kept.refl, Kept.mk_of, Kept.ite, Kept.foldl, List.cons_subset, List.nil_subset, List.mem_cons, List.mem_singleton, and_true, true_and, true_or, or_true, and_self, implies_true, not_false_eq_true]; done) | split)

theorem State.refereeStep_kept {W : List Fld} {s0 s : State}  (cs : List Claim) (hk : Kept W s0 s) (hkw : [Fld.out, Fld.tes, Fld.clusters, Fld.depot, Fld.vault, Fld.journal, Fld.port0, Fld.port1, Fld.pcie, Fld.gates, Fld.steward, Fld.cards, Fld.faults, Fld.recorder, Fld.power] ⊆ W) :
    Kept W s0 (State.refereeStep s cs) := by
  unfold State.refereeStep
  try dsimp only
  iterate 40 all_goals (first
    | with_reducible exact hk
    | with_reducible assumption
    | with_reducible exact Kept.refl _ _
    | with_reducible exact .inr rfl
    | (with_reducible exact List.Subset.trans (by decide) hkw)
    | (with_reducible exact .inl (Fld.mem_of hkw (by decide)))
    | (with_reducible apply Kept.ite <;> intro)
    | with_reducible apply State.fault_kept
    | with_reducible apply State.modSteward_kept
    | with_reducible apply State.setFences_kept
    | with_reducible apply Kept.getD
    | with_reducible apply Kept.elim
    | (with_reducible apply Kept.foldl; intro _ _; try dsimp only)
    | split
    | (intro _ _; try dsimp only)
    | with_reducible apply Kept.mk_of
    | skip)

theorem State.pairFails_kept {W : List Fld} {s0 s : State}  (south : Bool) (cause : Nat) (hk : Kept W s0 s) (hkw : [Fld.out, Fld.tes, Fld.clusters, Fld.depot, Fld.vault, Fld.journal, Fld.port0, Fld.port1, Fld.pcie, Fld.steward, Fld.cards, Fld.faults, Fld.recorder, Fld.power] ⊆ W) :
    Kept W s0 (State.pairFails s south cause) := by
  simp only [List.cons_subset, List.nil_subset, and_true] at hkw
  unfold State.pairFails
  repeat' (first | (simp (maxDischargeDepth := 40) only [hk, hkw, Kept.refl, Kept.mk_of, Kept.ite, Kept.foldl, List.cons_subset, List.nil_subset, List.mem_cons, List.mem_singleton, and_true, true_and, true_or, or_true, and_self, implies_true, not_false_eq_true, State.fault_kept, State.modSteward_kept]; done) | split)

theorem State.orphanCmd_kept {W : List Fld} {s0 s : State}  (c : Cmd) (hk : Kept W s0 s) (hkw : [Fld.journal] ⊆ W) :
    Kept W s0 (State.orphanCmd s c) := by
  simp only [List.cons_subset, List.nil_subset, and_true] at hkw
  unfold State.orphanCmd
  repeat' (first | (simp (maxDischargeDepth := 40) only [hk, hkw, Kept.refl, Kept.mk_of, Kept.ite, Kept.foldl, List.cons_subset, List.nil_subset, List.mem_cons, List.mem_singleton, and_true, true_and, true_or, or_true, and_self, implies_true, not_false_eq_true]; done) | split)

theorem State.payCommand_kept {W : List Fld} {s0 s : State}  (c : Cmd) (hk : Kept W s0 s) (hkw : [Fld.journal] ⊆ W) :
    Kept W s0 (State.payCommand s c) := by
  simp only [List.cons_subset, List.nil_subset, and_true] at hkw
  unfold State.payCommand
  repeat' (first | (simp (maxDischargeDepth := 40) only [hk, hkw, Kept.refl, Kept.mk_of, Kept.ite, Kept.foldl, List.cons_subset, List.nil_subset, List.mem_cons, List.mem_singleton, and_true, true_and, true_or, or_true, and_self, implies_true, not_false_eq_true, State.writeOutcome_kept]; done) | split)

theorem State.interruptCmd_kept {W : List Fld} {s0 s : State}  (x : InFlight) (hk : Kept W s0 s) (hkw : [Fld.out, Fld.journal, Fld.pcie] ⊆ W) :
    Kept W s0 (State.interruptCmd s x) := by
  simp only [List.cons_subset, List.nil_subset, and_true] at hkw
  unfold State.interruptCmd
  repeat' (first | (simp (maxDischargeDepth := 40) only [hk, hkw, Kept.refl, Kept.mk_of, Kept.ite, Kept.foldl, List.cons_subset, List.nil_subset, List.mem_cons, List.mem_singleton, and_true, true_and, true_or, or_true, and_self, implies_true, not_false_eq_true, State.ended_kept, State.orphanCmd_kept, State.payCommand_kept, State.reply_kept, State.writeMile_kept]; done) | split)

theorem State.takeOver_kept {W : List Fld} {s0 s : State}  (hk : Kept W s0 s) (hkw : [Fld.out, Fld.mem, Fld.tes, Fld.clusters, Fld.lanes, Fld.depot, Fld.keys, Fld.vault, Fld.journal, Fld.port0, Fld.port1, Fld.pcie, Fld.steward, Fld.time, Fld.cards, Fld.faults, Fld.recorder, Fld.power] ⊆ W) :
    Kept W s0 (State.takeOver s) := by
  simp only [List.cons_subset, List.nil_subset, and_true] at hkw
  unfold State.takeOver
  repeat' (first | (simp (maxDischargeDepth := 40) only [hk, hkw, Kept.refl, Kept.mk_of, Kept.ite, Kept.foldl, List.cons_subset, List.nil_subset, List.mem_cons, List.mem_singleton, and_true, true_and, true_or, or_true, and_self, implies_true, not_false_eq_true, State.abortCeremony_kept, State.interruptCmd_kept, State.releaseHold_kept]; done) | split)

theorem State.grantToken_kept {W : List Fld} {s0 s : State}  (south : Bool) (hk : Kept W s0 s) (hkw : [Fld.gates, Fld.steward] ⊆ W) :
    Kept W s0 (State.grantToken s south) := by
  simp only [List.cons_subset, List.nil_subset, and_true] at hkw
  unfold State.grantToken
  repeat' (first | (simp (maxDischargeDepth := 40) only [hk, hkw, Kept.refl, Kept.mk_of, Kept.ite, Kept.foldl, List.cons_subset, List.nil_subset, List.mem_cons, List.mem_singleton, and_true, true_and, true_or, or_true, and_self, implies_true, not_false_eq_true, State.modSteward_kept, State.setFences_kept]; done) | split)

theorem State.modPower_kept {W : List Fld} {s0 s : State}  (f : Power → Power) (hk : Kept W s0 s) (hkw : [Fld.power] ⊆ W) :
    Kept W s0 (State.modPower s f) := by
  simp only [List.cons_subset, List.nil_subset, and_true] at hkw
  unfold State.modPower
  repeat' (first | (simp (maxDischargeDepth := 40) only [hk, hkw, Kept.refl, Kept.mk_of, Kept.ite, Kept.foldl, List.cons_subset, List.nil_subset, List.mem_cons, List.mem_singleton, and_true, true_and, true_or, or_true, and_self, implies_true, not_false_eq_true]; done) | split)

theorem State.endRunning_kept {W : List Fld} {s0 s : State}  (reason : BitVec 11) (hk : Kept W s0 s) (hkw : [Fld.mem, Fld.seats, Fld.tes, Fld.clusters, Fld.lanes, Fld.depot, Fld.journal, Fld.pcie] ⊆ W) :
    Kept W s0 (State.endRunning s reason) := by
  simp only [List.cons_subset, List.nil_subset, and_true] at hkw
  unfold State.endRunning
  repeat' (first | (simp (maxDischargeDepth := 40) only [hk, hkw, Kept.refl, Kept.mk_of, Kept.ite, Kept.foldl, List.cons_subset, List.nil_subset, List.mem_cons, List.mem_singleton, and_true, true_and, true_or, or_true, and_self, implies_true, not_false_eq_true, State.itemEnded_kept, State.killSeat_kept]; done) | split)

theorem State.abandonVault_kept {W : List Fld} {s0 s : State}  (hk : Kept W s0 s) (hkw : [Fld.out, Fld.seats, Fld.vault, Fld.journal, Fld.pcie, Fld.recorder] ⊆ W) :
    Kept W s0 (State.abandonVault s) := by
  simp only [List.cons_subset, List.nil_subset, and_true] at hkw
  unfold State.abandonVault
  repeat' (first | (simp (maxDischargeDepth := 40) only [hk, hkw, Kept.refl, Kept.mk_of, Kept.ite, Kept.foldl, List.cons_subset, List.nil_subset, List.mem_cons, List.mem_singleton, and_true, true_and, true_or, or_true, and_self, implies_true, not_false_eq_true, State.modVault_kept, State.vaultReply_kept]; done) | split)

theorem State.dropActivation_kept {W : List Fld} {s0 s : State}  (hk : Kept W s0 s) (hkw : [Fld.journal, Fld.power] ⊆ W) :
    Kept W s0 (State.dropActivation s) := by
  simp only [List.cons_subset, List.nil_subset, and_true] at hkw
  unfold State.dropActivation
  repeat' (first | (simp (maxDischargeDepth := 40) only [hk, hkw, Kept.refl, Kept.mk_of, Kept.ite, Kept.foldl, List.cons_subset, List.nil_subset, List.mem_cons, List.mem_singleton, and_true, true_and, true_or, or_true, and_self, implies_true, not_false_eq_true, State.cmdOrphan_kept, State.modPower_kept]; done) | split)

theorem State.restartPcie_kept {W : List Fld} {s0 s : State}  (keepRst : Bool) (hk : Kept W s0 s) (hkw : [Fld.pcie] ⊆ W) :
    Kept W s0 (State.restartPcie s keepRst) := by
  simp only [List.cons_subset, List.nil_subset, and_true] at hkw
  unfold State.restartPcie
  repeat' (first | (simp (maxDischargeDepth := 40) only [hk, hkw, Kept.refl, Kept.mk_of, Kept.ite, Kept.foldl, List.cons_subset, List.nil_subset, List.mem_cons, List.mem_singleton, and_true, true_and, true_or, or_true, and_self, implies_true, not_false_eq_true]; done) | split)

theorem State.undelete_kept {W : List Fld} {s0 s : State}  (hk : Kept W s0 s) (hkw : [Fld.tenancy] ⊆ W) :
    Kept W s0 (State.undelete s) := by
  simp only [List.cons_subset, List.nil_subset, and_true] at hkw
  unfold State.undelete
  repeat' (first | (simp (maxDischargeDepth := 40) only [hk, hkw, Kept.refl, Kept.mk_of, Kept.ite, Kept.foldl, List.cons_subset, List.nil_subset, List.mem_cons, List.mem_singleton, and_true, true_and, true_or, or_true, and_self, implies_true, not_false_eq_true]; done) | split)

theorem State.powerLoss_kept {W : List Fld} {s0 s : State} (railsLost : Bool) (hk : Kept W s0 s) (hkw : [Fld.now, Fld.freeCtr, Fld.out, Fld.mem, Fld.seats, Fld.tes, Fld.clusters, Fld.lanes, Fld.depot, Fld.tenancy, Fld.keys, Fld.vault, Fld.journal, Fld.held, Fld.port0, Fld.port1, Fld.openSerial, Fld.pcie, Fld.gates, Fld.steward, Fld.time, Fld.entropy, Fld.cards, Fld.tamper, Fld.lc, Fld.faults, Fld.recorder, Fld.power] ⊆ W) :
    Kept W s0 (State.powerLoss s railsLost) := by
  have a (s : State) : ((s.cardOffSlot 0).cardOffSlot 1).pending = s.pending :=
    (State.cardOffSlot_kept (W := Fld.all) 1 (State.cardOffSlot_kept 0 (Kept.refl _ s) (by decide)) (by decide)).pending
  have b (s : State) : (((s.portDown 0).portDown 1).aliveStop).pending = s.pending :=
    (State.aliveStop_kept (W := Fld.all) (State.portDown_kept 1 (State.portDown_kept 0 (Kept.refl _ s) (by decide)) (by decide)) (by decide)).pending
  have c (s : State) : ((s.undelete.restartPcie false).emit .linkDown).pending = s.pending :=
    (State.emit_kept (W := Fld.all) _ (State.restartPcie_kept false (State.undelete_kept (Kept.refl _ s) (by decide)) (by decide)) (by decide)).pending
  have d : (State.powerLoss s railsLost).pending = s.pending := by
    unfold State.powerLoss
    dsimp only
    rw [c]
    dsimp only
    rw [b, a]
  have e : (State.powerLoss s railsLost).mem = [] := by
    unfold State.powerLoss
    dsimp only [State.reset]
  constructor
  · exact d.trans hk.pending
  · intro _
    rw [e]
    exact Memory.wf_nil
  all_goals exact .inl (hkw (by decide))

theorem State.backupDies_kept {W : List Fld} {s0 s : State}  (hk : Kept W s0 s) (hkw : [Fld.keys, Fld.tamper] ⊆ W) :
    Kept W s0 (State.backupDies s) := by
  simp only [List.cons_subset, List.nil_subset, and_true] at hkw
  unfold State.backupDies
  repeat' (first | (simp (maxDischargeDepth := 40) only [hk, hkw, Kept.refl, Kept.mk_of, Kept.ite, Kept.foldl, List.cons_subset, List.nil_subset, List.mem_cons, List.mem_singleton, and_true, true_and, true_or, or_true, and_self, implies_true, not_false_eq_true, State.modTamper_kept]; done) | split)

theorem State.dropCmd_kept {W : List Fld} {s0 s : State}  (x : InFlight) (hk : Kept W s0 s) (hkw : [Fld.journal] ⊆ W) :
    Kept W s0 (State.dropCmd s x) := by
  simp only [List.cons_subset, List.nil_subset, and_true] at hkw
  unfold State.dropCmd
  repeat' (first | (simp (maxDischargeDepth := 40) only [hk, hkw, Kept.refl, Kept.mk_of, Kept.ite, Kept.foldl, List.cons_subset, List.nil_subset, List.mem_cons, List.mem_singleton, and_true, true_and, true_or, or_true, and_self, implies_true, not_false_eq_true, State.ended_kept, State.orphanCmd_kept]; done) | split)

theorem State.endForReset_kept {W : List Fld} {s0 s : State}  (hk : Kept W s0 s) (hkw : [Fld.out, Fld.mem, Fld.seats, Fld.tes, Fld.clusters, Fld.lanes, Fld.depot, Fld.vault, Fld.journal, Fld.held, Fld.port0, Fld.port1, Fld.pcie, Fld.recorder, Fld.power] ⊆ W) :
    Kept W s0 (State.endForReset s) := by
  simp only [List.cons_subset, List.nil_subset, and_true] at hkw
  unfold State.endForReset
  repeat' (first | (simp (maxDischargeDepth := 40) only [hk, hkw, Kept.refl, Kept.mk_of, Kept.ite, Kept.foldl, List.cons_subset, List.nil_subset, List.mem_cons, List.mem_singleton, and_true, true_and, true_or, or_true, and_self, implies_true, not_false_eq_true, State.abandonVault_kept, State.discardItems_kept, State.dropActivation_kept, State.dropCmd_kept, State.endRunning_kept, State.writeOutcomes_kept]; done) | split)

theorem State.toStep_kept {W : List Fld} {s0 s : State}  (x : StartStep) (hk : Kept W s0 s) (hkw : [Fld.power] ⊆ W) :
    Kept W s0 (State.toStep s x) := by
  simp only [List.cons_subset, List.nil_subset, and_true] at hkw
  unfold State.toStep
  repeat' (first | (simp (maxDischargeDepth := 40) only [hk, hkw, Kept.refl, Kept.mk_of, Kept.ite, Kept.foldl, List.cons_subset, List.nil_subset, List.mem_cons, List.mem_singleton, and_true, true_and, true_or, or_true, and_self, implies_true, not_false_eq_true, State.modPower_kept]; done) | split)

theorem State.lcStart_kept {W : List Fld} {s0 s : State}  (hk : Kept W s0 s) (hkw : [Fld.out, Fld.mem, Fld.seats, Fld.tes, Fld.clusters, Fld.lanes, Fld.depot, Fld.tenancy, Fld.keys, Fld.vault, Fld.journal, Fld.held, Fld.port0, Fld.port1, Fld.openSerial, Fld.pcie, Fld.cards, Fld.tamper, Fld.lc, Fld.faults, Fld.recorder, Fld.power] ⊆ W) :
    Kept W s0 (State.lcStart s) := by
  unfold State.lcStart
  try dsimp only
  iterate 40 all_goals (first
    | with_reducible exact hk
    | with_reducible assumption
    | with_reducible exact Kept.refl _ _
    | with_reducible exact .inr rfl
    | (with_reducible exact List.Subset.trans (by decide) hkw)
    | (with_reducible exact .inl (Fld.mem_of hkw (by decide)))
    | (with_reducible apply Kept.ite <;> intro)
    | with_reducible apply State.fault_kept
    | with_reducible apply State.lcEnter_kept
    | with_reducible apply State.lcWipe_kept
    | with_reducible apply State.modLc_kept
    | with_reducible apply State.toStep_kept
    | with_reducible apply Kept.getD
    | with_reducible apply Kept.elim
    | (with_reducible apply Kept.foldl; intro _ _; try dsimp only)
    | split
    | (intro _ _; try dsimp only)
    | with_reducible apply Kept.mk_of
    | skip)

theorem State.backupStart_kept {W : List Fld} {s0 s : State}  (hk : Kept W s0 s) (hkw : [Fld.keys, Fld.tamper] ⊆ W) :
    Kept W s0 (State.backupStart s) := by
  simp only [List.cons_subset, List.nil_subset, and_true] at hkw
  unfold State.backupStart
  repeat' (first | (simp (maxDischargeDepth := 40) only [hk, hkw, Kept.refl, Kept.mk_of, Kept.ite, Kept.foldl, List.cons_subset, List.nil_subset, List.mem_cons, List.mem_singleton, and_true, true_and, true_or, or_true, and_self, implies_true, not_false_eq_true, State.modTamper_kept]; done) | split)

theorem State.entropyStart_kept {W : List Fld} {s0 s : State}  (hk : Kept W s0 s) (hkw : [Fld.steward, Fld.entropy] ⊆ W) :
    Kept W s0 (State.entropyStart s) := by
  unfold State.entropyStart
  try dsimp only
  iterate 40 all_goals (first
    | with_reducible exact hk
    | with_reducible assumption
    | with_reducible exact Kept.refl _ _
    | with_reducible exact .inr rfl
    | (with_reducible exact List.Subset.trans (by decide) hkw)
    | (with_reducible exact .inl (Fld.mem_of hkw (by decide)))
    | (with_reducible apply Kept.ite <;> intro)
    | with_reducible apply State.askDraw_kept
    | with_reducible apply State.setCell_kept
    | with_reducible apply State.startKat_kept
    | with_reducible apply Kept.getD
    | with_reducible apply Kept.elim
    | (with_reducible apply Kept.foldl; intro _ _; try dsimp only)
    | split
    | (intro _ _; try dsimp only)
    | with_reducible apply Kept.mk_of
    | skip)

theorem State.recorderStart_kept {W : List Fld} {s0 s : State}  (newer older : Bool) (hk : Kept W s0 s) (hkw : [Fld.out, Fld.tes, Fld.clusters, Fld.depot, Fld.vault, Fld.journal, Fld.port0, Fld.port1, Fld.pcie, Fld.cards, Fld.faults, Fld.recorder, Fld.power] ⊆ W) :
    Kept W s0 (State.recorderStart s newer older) := by
  simp only [List.cons_subset, List.nil_subset, and_true] at hkw
  unfold State.recorderStart
  repeat' (first | (simp (maxDischargeDepth := 40) only [hk, hkw, Kept.refl, Kept.mk_of, Kept.ite, Kept.foldl, List.cons_subset, List.nil_subset, List.mem_cons, List.mem_singleton, and_true, true_and, true_or, or_true, and_self, implies_true, not_false_eq_true, State.fault_kept, State.modRecorder_kept]; done) | split)

theorem State.selectPair_kept {W : List Fld} {s0 s : State}  (north south : Bool) (hk : Kept W s0 s) (hkw : [Fld.out, Fld.tes, Fld.clusters, Fld.depot, Fld.vault, Fld.journal, Fld.port0, Fld.port1, Fld.pcie, Fld.gates, Fld.steward, Fld.cards, Fld.faults, Fld.recorder, Fld.power] ⊆ W) :
    Kept W s0 (State.selectPair s north south) := by
  simp only [List.cons_subset, List.nil_subset, and_true] at hkw
  unfold State.selectPair
  repeat' (first | (simp (maxDischargeDepth := 40) only [hk, hkw, Kept.refl, Kept.mk_of, Kept.ite, Kept.foldl, List.cons_subset, List.nil_subset, List.mem_cons, List.mem_singleton, and_true, true_and, true_or, or_true, and_self, implies_true, not_false_eq_true, State.fault_kept, State.grantToken_kept, State.modSteward_kept, State.setFences_kept, State.toStep_kept]; done) | split)

theorem State.slotSettings_kept {W : List Fld} {s0 s : State}  (r : Bytes) (hk : Kept W s0 s) (hkw : [Fld.out, Fld.tes, Fld.clusters, Fld.depot, Fld.vault, Fld.journal, Fld.port0, Fld.port1, Fld.pcie, Fld.cards, Fld.faults, Fld.recorder, Fld.power] ⊆ W) :
    Kept W s0 (State.slotSettings s r) := by
  simp only [List.cons_subset, List.nil_subset, and_true] at hkw
  unfold State.slotSettings
  repeat' (first | (simp (maxDischargeDepth := 40) only [hk, hkw, Kept.refl, Kept.mk_of, Kept.ite, Kept.foldl, List.cons_subset, List.nil_subset, List.mem_cons, List.mem_singleton, and_true, true_and, true_or, or_true, and_self, implies_true, not_false_eq_true, State.fault_kept, State.modPower_kept]; done) | split)

theorem State.trainMemory_kept {W : List Fld} {s0 s : State}  (hk : Kept W s0 s) (hkw : [Fld.power] ⊆ W) :
    Kept W s0 (State.trainMemory s) := by
  simp only [List.cons_subset, List.nil_subset, and_true] at hkw
  unfold State.trainMemory
  repeat' (first | (simp (maxDischargeDepth := 40) only [hk, hkw, Kept.refl, Kept.mk_of, Kept.ite, Kept.foldl, List.cons_subset, List.nil_subset, List.mem_cons, List.mem_singleton, and_true, true_and, true_or, or_true, and_self, implies_true, not_false_eq_true, State.modPower_kept]; done) | split)

theorem State.steepRoots_kept {W : List Fld} {s0 s : State}  (hk : Kept W s0 s) (hkw : [Fld.freeCtr, Fld.out, Fld.seats, Fld.clusters, Fld.keys, Fld.vault, Fld.journal, Fld.pcie, Fld.entropy, Fld.tamper, Fld.recorder, Fld.power] ⊆ W) :
    Kept W s0 (State.steepRoots s) := by
  simp only [List.cons_subset, List.nil_subset, and_true] at hkw
  unfold State.steepRoots
  repeat' (first | (simp (maxDischargeDepth := 40) only [hk, hkw, Kept.refl, Kept.mk_of, Kept.ite, Kept.foldl, List.cons_subset, List.nil_subset, List.mem_cons, List.mem_singleton, and_true, true_and, true_or, or_true, and_self, implies_true, not_false_eq_true, State.formPartKeys_kept, State.formRoots_kept, State.hubRead_kept, State.modCluster_kept, State.modPower_kept, State.modTamper_kept, State.vaultLost_kept]; done) | split)

theorem State.testClusters_kept {W : List Fld} {s0 s : State}  (failed : List Nat) (hk : Kept W s0 s) (hkw : [Fld.freeCtr, Fld.out, Fld.mem, Fld.seats, Fld.tes, Fld.clusters, Fld.lanes, Fld.depot, Fld.vault, Fld.journal, Fld.port0, Fld.port1, Fld.pcie, Fld.steward, Fld.time, Fld.entropy, Fld.cards, Fld.faults, Fld.recorder, Fld.power] ⊆ W) :
    Kept W s0 (State.testClusters s failed) := by
  unfold State.testClusters
  try dsimp only
  iterate 40 all_goals (first
    | with_reducible exact hk
    | with_reducible assumption
    | with_reducible exact Kept.refl _ _
    | with_reducible exact .inr rfl
    | (with_reducible exact List.Subset.trans (by decide) hkw)
    | (with_reducible exact .inl (Fld.mem_of hkw (by decide)))
    | (with_reducible apply Kept.ite <;> intro)
    | with_reducible apply State.flagFailing_kept
    | with_reducible apply State.modCluster_kept
    | with_reducible apply State.seedExpander_kept
    | with_reducible apply Kept.getD
    | with_reducible apply Kept.elim
    | (with_reducible apply Kept.foldl; intro _ _; try dsimp only)
    | split
    | (intro _ _; try dsimp only)
    | with_reducible apply Kept.mk_of
    | skip)

theorem State.raiseHeldHalt_kept {W : List Fld} {s0 s : State}  (n : Nat) (hk : Kept W s0 s) (hkw : [Fld.out, Fld.tes, Fld.clusters, Fld.depot, Fld.vault, Fld.journal, Fld.port0, Fld.port1, Fld.pcie, Fld.cards, Fld.tamper, Fld.faults, Fld.recorder, Fld.power] ⊆ W) :
    Kept W s0 (State.raiseHeldHalt s n) := by
  simp only [List.cons_subset, List.nil_subset, and_true] at hkw
  unfold State.raiseHeldHalt
  repeat' (first | (simp (maxDischargeDepth := 40) only [hk, hkw, Kept.refl, Kept.mk_of, Kept.ite, Kept.foldl, List.cons_subset, List.nil_subset, List.mem_cons, List.mem_singleton, and_true, true_and, true_or, or_true, and_self, implies_true, not_false_eq_true, State.fault_kept, State.modSource_kept]; done) | split)

theorem State.restoreTables_kept {W : List Fld} {s0 s : State}  (hk : Kept W s0 s) (hkw : [Fld.out, Fld.mem, Fld.tes, Fld.clusters, Fld.lanes, Fld.depot, Fld.keys, Fld.vault, Fld.journal, Fld.port0, Fld.port1, Fld.openSerial, Fld.pcie, Fld.gates, Fld.cards, Fld.tamper, Fld.faults, Fld.recorder, Fld.power] ⊆ W) :
    Kept W s0 (State.restoreTables s) := by
  simp only [List.cons_subset, List.nil_subset, and_true] at hkw
  unfold State.restoreTables
  repeat' (first | (simp (maxDischargeDepth := 40) only [hk, hkw, Kept.refl, Kept.mk_of, Kept.ite, Kept.foldl, List.cons_subset, List.nil_subset, List.mem_cons, List.mem_singleton, and_true, true_and, true_or, or_true, and_self, implies_true, not_false_eq_true, State.keyArrived_kept, State.raiseHeldHalt_kept, State.reinstateFor_kept, State.setDev_kept, State.setGate_kept, State.toStep_kept, State.train_kept]; done) | split)

theorem State.startupEnds_kept {W : List Fld} {s0 s : State}  (sgmii : Bool) (hk : Kept W s0 s) (hkw : [Fld.out, Fld.depot, Fld.keys, Fld.pcie, Fld.time, Fld.faults, Fld.recorder, Fld.power] ⊆ W) :
    Kept W s0 (State.startupEnds s sgmii) := by
  simp only [List.cons_subset, List.nil_subset, and_true] at hkw
  unfold State.startupEnds
  repeat' (first | (simp (maxDischargeDepth := 40) only [hk, hkw, Kept.refl, Kept.mk_of, Kept.ite, Kept.foldl, List.cons_subset, List.nil_subset, List.mem_cons, List.mem_singleton, and_true, true_and, true_or, or_true, and_self, implies_true, not_false_eq_true, State.serveMailbox_kept, State.setDev_kept, State.toStep_kept]; done) | split)

theorem State.stageAnswer_kept {W : List Fld} {s0 s : State}  (sp : Spec) (c : Cmd) (hk : Kept W s0 s) (hkw : [Fld.out, Fld.journal, Fld.pcie, Fld.recorder] ⊆ W) :
    Kept W s0 (State.stageAnswer s sp c) := by
  simp only [List.cons_subset, List.nil_subset, and_true] at hkw
  unfold State.stageAnswer
  repeat' (first | (simp (maxDischargeDepth := 40) only [hk, hkw, Kept.refl, Kept.mk_of, Kept.ite, Kept.foldl, List.cons_subset, List.nil_subset, List.mem_cons, List.mem_singleton, and_true, true_and, true_or, or_true, and_self, implies_true, not_false_eq_true, answer_kept]; done) | split)

end Sys2Proof.Machine
end

