-- ==== Sys2Proof/Laws/KeptReceive.lean ====
section
/-! SUPPORT. What each operation on the state may change: what arrives over a port, the memories, and the forms a command takes. -/

namespace Sys2Proof.Machine

set_option linter.all false

theorem State.violMsg_kept {W : List Fld} {s0 s : State}  (m : Msg) (code on : Nat) (hk : Kept W s0 s) (hkw : [Fld.out, Fld.tes, Fld.clusters, Fld.depot, Fld.port0, Fld.port1, Fld.recorder] ⊆ W) :
    Kept W s0 (State.violMsg s m code on) := by
  simp only [List.cons_subset, List.nil_subset, and_true] at hkw
  unfold State.violMsg
  repeat' (first | (simp (maxDischargeDepth := 40) only [hk, hkw, Kept.refl, Kept.mk_of, Kept.ite, Kept.foldl, List.cons_subset, List.nil_subset, List.mem_cons, List.mem_singleton, and_true, true_and, true_or, or_true, and_self, implies_true, not_false_eq_true, State.violate_kept]; done) | split)

theorem State.dropCounted_kept {W : List Fld} {s0 s : State}  (m : Msg) (idx code : Nat) (hk : Kept W s0 s) (hkw : [Fld.out, Fld.tes, Fld.clusters, Fld.depot, Fld.port0, Fld.port1, Fld.recorder] ⊆ W) :
    Kept W s0 (State.dropCounted s m idx code) := by
  simp only [List.cons_subset, List.nil_subset, and_true] at hkw
  unfold State.dropCounted
  repeat' (first | (simp (maxDischargeDepth := 40) only [hk, hkw, Kept.refl, Kept.mk_of, Kept.ite, Kept.foldl, List.cons_subset, List.nil_subset, List.mem_cons, List.mem_singleton, and_true, true_and, true_or, or_true, and_self, implies_true, not_false_eq_true, State.modSession_kept, State.violMsg_kept]; done) | split)

theorem State.overrun_kept {W : List Fld} {s0 s : State}  (l : Nat) (hk : Kept W s0 s) (hkw : [Fld.lanes] ⊆ W) :
    Kept W s0 (State.overrun s l) := by
  simp only [List.cons_subset, List.nil_subset, and_true] at hkw
  unfold State.overrun
  repeat' (first | (simp (maxDischargeDepth := 40) only [hk, hkw, Kept.refl, Kept.mk_of, Kept.ite, Kept.foldl, List.cons_subset, List.nil_subset, List.mem_cons, List.mem_singleton, and_true, true_and, true_or, or_true, and_self, implies_true, not_false_eq_true, State.setLane_kept]; done) | split)

theorem State.rxItinReq_keptE {W : List Fld} {s0 s zz : State}  {m : Msg} {x : Session} (eq : State.rxItinReq s m x = some zz) (hk : Kept W s0 s) (hkw : [Fld.out, Fld.mem, Fld.tes, Fld.clusters, Fld.lanes, Fld.depot, Fld.journal, Fld.port0, Fld.port1, Fld.recorder] ⊆ W) :
    Kept W s0 zz := by
  unfold State.rxItinReq at eq
  try dsimp only at eq
  repeat' split at eq
  all_goals first | (cases eq; done) | skip
  all_goals (try simp only [Option.some.injEq, Prod.mk.injEq] at eq; first | subst eq | (obtain ⟨e1, e2⟩ := eq; first | subst e1 | skip; first | subst e2 | skip))
  try dsimp only
  iterate 40 all_goals (first
    | with_reducible exact hk
    | with_reducible assumption
    | with_reducible exact Kept.refl _ _
    | with_reducible exact .inr rfl
    | (with_reducible exact List.Subset.trans (by decide) hkw)
    | (with_reducible exact .inl (Fld.mem_of hkw (by decide)))
    | (with_reducible apply Kept.ite <;> intro)
    | with_reducible apply State.dropCounted_kept
    | with_reducible refine State.enqueueReq_keptE (by with_reducible assumption) ?_ ?_
    | with_reducible apply State.overrun_kept
    | with_reducible apply State.violMsg_kept
    | with_reducible apply Kept.getD
    | with_reducible apply Kept.elim
    | (with_reducible apply Kept.foldl; intro _ _; try dsimp only)
    | split
    | (intro _ _; try dsimp only)
    | with_reducible apply Kept.mk_of
    | skip)

theorem State.openStatus_kept {W : List Fld} {s0 s : State}  (m : Msg) (status : Nat) (hk : Kept W s0 s) (hkw : [Fld.out, Fld.port0, Fld.port1] ⊆ W) :
    Kept W s0 (State.openStatus s m status) := by
  simp only [List.cons_subset, List.nil_subset, and_true] at hkw
  unfold State.openStatus
  repeat' (first | (simp (maxDischargeDepth := 40) only [hk, hkw, Kept.refl, Kept.mk_of, Kept.ite, Kept.foldl, List.cons_subset, List.nil_subset, List.mem_cons, List.mem_singleton, and_true, true_and, true_or, or_true, and_self, implies_true, not_false_eq_true, State.sendMsg_kept]; done) | split)

theorem State.bulkKeys_kept {W : List Fld} {s0 s : State}  (c : Colour) (b : Bytes) (hk : Kept W s0 s) (hkw : [Fld.keys] ⊆ W) :
    Kept W s0 (State.bulkKeys s c b).1 := by
  unfold State.bulkKeys
  try dsimp only
  iterate 40 all_goals (first
    | with_reducible exact hk
    | with_reducible assumption
    | with_reducible exact Kept.refl _ _
    | with_reducible exact .inr rfl
    | (with_reducible exact List.Subset.trans (by decide) hkw)
    | (with_reducible exact .inl (Fld.mem_of hkw (by decide)))
    | (with_reducible apply Kept.ite <;> intro)
    | with_reducible apply State.fetchKey_kept
    | with_reducible refine State.fetchKey_keptE (by with_reducible assumption) ?_ ?_
    | with_reducible apply Kept.getD
    | with_reducible apply Kept.elim
    | (with_reducible apply Kept.foldl; intro _ _; try dsimp only)
    | split
    | (intro _ _; try dsimp only)
    | with_reducible apply Kept.mk_of
    | skip)

theorem State.bulkKeys_keptE {W : List Fld} {s0 s zz : State}  {c : Colour} {b : Bytes} {o : Option Key} (eq : State.bulkKeys s c b = (zz, o)) (hk : Kept W s0 s) (hkw : [Fld.keys] ⊆ W) : Kept W s0 zz := by
  have hp := State.bulkKeys_kept (W := W) c b hk hkw
  rw [eq] at hp
  exact hp

theorem State.rxBulkOpen_kept {W : List Fld} {s0 s : State}  (m : Msg) (x : Session) (hk : Kept W s0 s) (hkw : [Fld.out, Fld.tes, Fld.clusters, Fld.lanes, Fld.depot, Fld.keys, Fld.port0, Fld.port1, Fld.recorder] ⊆ W) :
    Kept W s0 (State.rxBulkOpen s m x) := by
  unfold State.rxBulkOpen
  try dsimp only
  iterate 40 all_goals (first
    | with_reducible exact hk
    | with_reducible assumption
    | with_reducible exact Kept.refl _ _
    | with_reducible exact .inr rfl
    | (with_reducible exact List.Subset.trans (by decide) hkw)
    | (with_reducible exact .inl (Fld.mem_of hkw (by decide)))
    | (with_reducible apply Kept.ite <;> intro)
    | with_reducible apply State.bulkKeys_kept
    | with_reducible refine State.bulkKeys_keptE (by with_reducible assumption) ?_ ?_
    | with_reducible apply State.openStatus_kept
    | with_reducible apply State.overrun_kept
    | with_reducible apply State.setPort_kept
    | with_reducible apply State.violMsg_kept
    | with_reducible apply Kept.getD
    | with_reducible apply Kept.elim
    | (with_reducible apply Kept.foldl; intro _ _; try dsimp only)
    | split
    | (intro _ _; try dsimp only)
    | with_reducible apply Kept.mk_of
    | skip)

theorem State.enqueueAll_keptE {W : List Fld} (c : Colour) (l p n : Nat) (id : BitVec 32) (units : Nat) (hkw : [Fld.mem, Fld.clusters, Fld.lanes, Fld.depot] ⊆ W) :
    ∀ (ds : List Bytes) (off : Nat) (s0 s zz : State), s.enqueueAll c l p n id units off ds = some zz → Kept W s0 s → Kept W s0 zz
  | [], off, s0, s, zz, e, hk => by
    simp only [State.enqueueAll, Option.some.injEq] at e
    exact e ▸ hk
  | [d], off, s0, s, zz, e, hk => by
    simp only [State.enqueueAll] at e
    exact State.enqueueSegment_keptE e hk hkw
  | d :: d' :: r, off, s0, s, zz, e, hk => by
    simp only [State.enqueueAll] at e
    split at e
    · next e1 => exact State.enqueueAll_keptE c l p n id units hkw (d' :: r) _ s0 _ zz e (State.enqueueSegment_keptE e1 hk hkw)
    · cases e

theorem State.rxBulkData_keptE {W : List Fld} {s0 s zz : State} {m : Msg} {x : Session} (e : s.rxBulkData m x = some zz) (hk : Kept W s0 s)
    (hkw : [Fld.out, Fld.mem, Fld.tes, Fld.clusters, Fld.lanes, Fld.depot, Fld.port0, Fld.port1, Fld.recorder] ⊆ W) : Kept W s0 zz := by
  have sub : ∀ {A : List Fld}, (A ⊆ [Fld.out, Fld.mem, Fld.tes, Fld.clusters, Fld.lanes, Fld.depot, Fld.port0, Fld.port1, Fld.recorder]) → A ⊆ W := fun h => List.Subset.trans h hkw
  have dropped : ∀ (i k : Nat), Kept W s0 (s.dropCounted m i k) := fun _ _ => State.dropCounted_kept _ _ _ hk (sub (by decide))
  unfold State.rxBulkData at e
  dsimp only at e
  split at e
  · cases e
    exact State.violMsg_kept _ _ _ hk (sub (by decide))
  · split at e
    · cases e
      exact dropped _ _
    · split at e
      · cases e
        exact State.abortStream_kept _ (dropped _ _) (sub (by decide))
      · split at e
        · cases e
          exact State.abortStream_kept _ (dropped _ _) (sub (by decide))
        · split at e
          · cases e
            exact State.dropCounted_kept _ _ _ (State.overrun_kept _ hk (sub (by decide))) (sub (by decide))
          · exact State.enqueueAll_keptE _ _ _ _ _ _ (sub (by decide)) _ _ s0 _ _ e (State.setStream_kept _ hk (sub (by decide)))

theorem State.rxBulkClose_kept {W : List Fld} {s0 s : State}  (m : Msg) (hk : Kept W s0 s) (hkw : [Fld.out, Fld.tes, Fld.clusters, Fld.depot, Fld.keys, Fld.port0, Fld.port1, Fld.recorder] ⊆ W) :
    Kept W s0 (State.rxBulkClose s m) := by
  simp only [List.cons_subset, List.nil_subset, and_true] at hkw
  unfold State.rxBulkClose
  repeat' (first | (simp (maxDischargeDepth := 40) only [hk, hkw, Kept.refl, Kept.mk_of, Kept.ite, Kept.foldl, List.cons_subset, List.nil_subset, List.mem_cons, List.mem_singleton, and_true, true_and, true_or, or_true, and_self, implies_true, not_false_eq_true, State.setStream_kept, State.tryClose_kept, State.violMsg_kept]; done) | split)

theorem State.rxVaultData_kept {W : List Fld} {s0 s : State}  (m : Msg) (hk : Kept W s0 s) (hkw : [Fld.freeCtr, Fld.out, Fld.seats, Fld.tes, Fld.clusters, Fld.depot, Fld.tenancy, Fld.keys, Fld.vault, Fld.journal, Fld.port0, Fld.port1, Fld.pcie, Fld.cards, Fld.faults, Fld.recorder, Fld.power] ⊆ W) :
    Kept W s0 (State.rxVaultData s m) := by
  unfold State.rxVaultData
  try dsimp only
  iterate 40 all_goals (first
    | with_reducible exact hk
    | with_reducible assumption
    | with_reducible exact Kept.refl _ _
    | with_reducible exact .inr rfl
    | (with_reducible exact List.Subset.trans (by decide) hkw)
    | (with_reducible exact .inl (Fld.mem_of hkw (by decide)))
    | (with_reducible apply Kept.ite <;> intro)
    | with_reducible refine State.vaultAnswer_keptE (by with_reducible assumption) ?_ ?_
    | with_reducible apply State.vaultCount_kept
    | with_reducible apply State.violMsg_kept
    | with_reducible apply Kept.getD
    | with_reducible apply Kept.elim
    | (with_reducible apply Kept.foldl; intro _ _; try dsimp only)
    | split
    | (intro _ _; try dsimp only)
    | with_reducible apply Kept.mk_of
    | skip)

theorem State.violHeard_kept {W : List Fld} {s0 s : State}  (p code : Nat) (hk : Kept W s0 s) (hkw : [Fld.port0, Fld.port1, Fld.recorder] ⊆ W) :
    Kept W s0 (State.violHeard s p code) := by
  simp only [List.cons_subset, List.nil_subset, and_true] at hkw
  unfold State.violHeard
  repeat' (first | (simp (maxDischargeDepth := 40) only [hk, hkw, Kept.refl, Kept.mk_of, Kept.ite, Kept.foldl, List.cons_subset, List.nil_subset, List.mem_cons, List.mem_singleton, and_true, true_and, true_or, or_true, and_self, implies_true, not_false_eq_true, State.count_kept, State.setPort_kept]; done) | split)

theorem State.rxEffect_keptE {W : List Fld} {s0 s zz : State}  {m : Msg} {x : Session} (eq : State.rxEffect s m x = some zz) (hk : Kept W s0 s) (hkw : [Fld.freeCtr, Fld.out, Fld.mem, Fld.seats, Fld.tes, Fld.clusters, Fld.lanes, Fld.depot, Fld.tenancy, Fld.keys, Fld.vault, Fld.journal, Fld.port0, Fld.port1, Fld.pcie, Fld.cards, Fld.faults, Fld.recorder, Fld.power] ⊆ W) :
    Kept W s0 zz := by
  unfold State.rxEffect at eq
  try dsimp only at eq
  repeat' split at eq
  all_goals first | (cases eq; done) | skip
  all_goals (try simp only [Option.some.injEq, Prod.mk.injEq] at eq; first | subst eq | (obtain ⟨e1, e2⟩ := eq; first | subst e1 | skip; first | subst e2 | skip))
  try dsimp only
  iterate 40 all_goals (first
    | with_reducible exact hk
    | with_reducible assumption
    | with_reducible exact Kept.refl _ _
    | with_reducible exact .inr rfl
    | (with_reducible exact List.Subset.trans (by decide) hkw)
    | (with_reducible exact .inl (Fld.mem_of hkw (by decide)))
    | (with_reducible apply Kept.ite <;> intro)
    | with_reducible apply State.rxBulkClose_kept
    | with_reducible refine State.rxBulkData_keptE (by with_reducible assumption) ?_ ?_
    | with_reducible apply State.rxBulkOpen_kept
    | with_reducible refine State.rxItinReq_keptE (by with_reducible assumption) ?_ ?_
    | with_reducible apply State.rxVaultData_kept
    | with_reducible apply State.setPort_kept
    | with_reducible apply State.violHeard_kept
    | with_reducible apply Kept.getD
    | with_reducible apply Kept.elim
    | (with_reducible apply Kept.foldl; intro _ _; try dsimp only)
    | split
    | (intro _ _; try dsimp only)
    | with_reducible apply Kept.mk_of
    | skip)

theorem State.receive_keptE {W : List Fld} {s0 s zz : State}  {m : Msg} (eq : State.receive s m = some zz) (hk : Kept W s0 s) (hkw : [Fld.freeCtr, Fld.out, Fld.mem, Fld.seats, Fld.tes, Fld.clusters, Fld.lanes, Fld.depot, Fld.tenancy, Fld.keys, Fld.vault, Fld.journal, Fld.port0, Fld.port1, Fld.pcie, Fld.cards, Fld.faults, Fld.recorder, Fld.power] ⊆ W) :
    Kept W s0 zz := by
  unfold State.receive at eq
  try dsimp only at eq
  repeat' split at eq
  all_goals first | (cases eq; done) | skip
  all_goals (try simp only [Option.some.injEq, Prod.mk.injEq] at eq; first | subst eq | (obtain ⟨e1, e2⟩ := eq; first | subst e1 | skip; first | subst e2 | skip))
  try dsimp only
  iterate 40 all_goals (first
    | with_reducible exact hk
    | with_reducible assumption
    | with_reducible exact Kept.refl _ _
    | with_reducible exact .inr rfl
    | (with_reducible exact List.Subset.trans (by decide) hkw)
    | (with_reducible exact .inl (Fld.mem_of hkw (by decide)))
    | (with_reducible apply Kept.ite <;> intro)
    | with_reducible apply State.dropCounted_kept
    | with_reducible refine State.rxEffect_keptE (by with_reducible assumption) ?_ ?_
    | with_reducible apply State.setSession_kept
    | with_reducible apply State.violMsg_kept
    | with_reducible apply Kept.getD
    | with_reducible apply Kept.elim
    | (with_reducible apply Kept.foldl; intro _ _; try dsimp only)
    | split
    | (intro _ _; try dsimp only)
    | with_reducible apply Kept.mk_of
    | skip)

theorem State.grant_kept {W : List Fld} {s0 s : State}  (p vc units : Nat) (hk : Kept W s0 s) (hkw : [Fld.port0, Fld.port1] ⊆ W) :
    Kept W s0 (State.grant s p vc units) := by
  simp only [List.cons_subset, List.nil_subset, and_true] at hkw
  unfold State.grant
  repeat' (first | (simp (maxDischargeDepth := 40) only [hk, hkw, Kept.refl, Kept.mk_of, Kept.ite, Kept.foldl, List.cons_subset, List.nil_subset, List.mem_cons, List.mem_singleton, and_true, true_and, true_or, or_true, and_self, implies_true, not_false_eq_true, State.setPort_kept]; done) | split)

theorem State.holdMsg_kept {W : List Fld} {s0 s : State}  (m : Msg) (units : Nat) (first : Bool) (hk : Kept W s0 s) (hkw : [Fld.depot, Fld.port0, Fld.port1, Fld.recorder] ⊆ W) :
    Kept W s0 (State.holdMsg s m units first) := by
  simp only [List.cons_subset, List.nil_subset, and_true] at hkw
  unfold State.holdMsg
  repeat' (first | (simp (maxDischargeDepth := 40) only [hk, hkw, Kept.refl, Kept.mk_of, Kept.ite, Kept.foldl, List.cons_subset, List.nil_subset, List.mem_cons, List.mem_singleton, and_true, true_and, true_or, or_true, and_self, implies_true, not_false_eq_true, State.count_kept, State.setPort_kept]; done) | split)

theorem State.take_kept {W : List Fld} {s0 s : State}  (m : Msg) (units : Nat) (hk : Kept W s0 s) (hkw : [Fld.freeCtr, Fld.out, Fld.mem, Fld.seats, Fld.tes, Fld.clusters, Fld.lanes, Fld.depot, Fld.tenancy, Fld.keys, Fld.vault, Fld.journal, Fld.port0, Fld.port1, Fld.pcie, Fld.cards, Fld.faults, Fld.recorder, Fld.power] ⊆ W) :
    Kept W s0 (State.take s m units) := by
  unfold State.take
  try dsimp only
  iterate 40 all_goals (first
    | with_reducible exact hk
    | with_reducible assumption
    | with_reducible exact Kept.refl _ _
    | with_reducible exact .inr rfl
    | (with_reducible exact List.Subset.trans (by decide) hkw)
    | (with_reducible exact .inl (Fld.mem_of hkw (by decide)))
    | (with_reducible apply Kept.ite <;> intro)
    | with_reducible apply State.grant_kept
    | with_reducible apply State.holdMsg_kept
    | with_reducible refine State.receive_keptE (by with_reducible assumption) ?_ ?_
    | with_reducible apply Kept.getD
    | with_reducible apply Kept.elim
    | (with_reducible apply Kept.foldl; intro _ _; try dsimp only)
    | split
    | (intro _ _; try dsimp only)
    | with_reducible apply Kept.mk_of
    | skip)

theorem State.runHeld_kept {W : List Fld} (p vc : Nat) (hkw : [Fld.freeCtr, Fld.out, Fld.mem, Fld.seats, Fld.tes, Fld.clusters, Fld.lanes, Fld.depot, Fld.tenancy, Fld.keys, Fld.vault, Fld.journal, Fld.port0, Fld.port1, Fld.pcie, Fld.cards, Fld.faults, Fld.recorder, Fld.power] ⊆ W) :
    ∀ (f : Nat) (s0 s : State), Kept W s0 s → Kept W s0 (s.runHeld p vc f)
  | 0, _, _, hk => hk
  | f + 1, s0, s, hk => by
    unfold State.runHeld
    split
    · exact hk
    · split
      · exact hk
      · next e =>
        apply State.runHeld_kept p vc hkw f
        exact State.grant_kept _ _ _ (State.setPort_kept _ _ (State.receive_keptE e hk (List.Subset.trans (by decide) hkw))
          (List.Subset.trans (by decide) hkw)) (List.Subset.trans (by decide) hkw)

theorem State.delivered_kept {W : List Fld} {s0 s : State}  (d : Desc) (hk : Kept W s0 s) (hkw : [Fld.journal] ⊆ W) :
    Kept W s0 (State.delivered s d) := by
  simp only [List.cons_subset, List.nil_subset, and_true] at hkw
  unfold State.delivered
  repeat' (first | (simp (maxDischargeDepth := 40) only [hk, hkw, Kept.refl, Kept.mk_of, Kept.ite, Kept.foldl, List.cons_subset, List.nil_subset, List.mem_cons, List.mem_singleton, and_true, true_and, true_or, or_true, and_self, implies_true, not_false_eq_true, State.settle_kept, State.writeMile_kept]; done) | split)

theorem State.acked_kept {W : List Fld} {s0 s : State}  (p : Nat) (a : BitVec 16) (hk : Kept W s0 s) (hkw : [Fld.journal, Fld.port0, Fld.port1] ⊆ W) :
    Kept W s0 (State.acked s p a) := by
  simp only [List.cons_subset, List.nil_subset, and_true] at hkw
  unfold State.acked
  repeat' (first | (simp (maxDischargeDepth := 40) only [hk, hkw, Kept.refl, Kept.mk_of, Kept.ite, Kept.foldl, List.cons_subset, List.nil_subset, List.mem_cons, List.mem_singleton, and_true, true_and, true_or, or_true, and_self, implies_true, not_false_eq_true, State.announce_kept, State.delivered_kept, State.setPort_kept]; done) | split)

theorem State.heardHeader_kept {W : List Fld} {s0 s : State}  (p : Nat) (f : Bytes) (hk : Kept W s0 s) (hkw : [Fld.journal, Fld.port0, Fld.port1] ⊆ W) :
    Kept W s0 (State.heardHeader s p f) := by
  simp only [List.cons_subset, List.nil_subset, and_true] at hkw
  unfold State.heardHeader
  repeat' (first | (simp (maxDischargeDepth := 40) only [hk, hkw, Kept.refl, Kept.mk_of, Kept.ite, Kept.foldl, List.cons_subset, List.nil_subset, List.mem_cons, List.mem_singleton, and_true, true_and, true_or, or_true, and_self, implies_true, not_false_eq_true, State.acked_kept, State.setPort_kept]; done) | split)

theorem State.sendFrame_kept {W : List Fld} {s0 s : State}  (p typ len : Nat) (body : Bytes) (hk : Kept W s0 s) (hkw : [Fld.out] ⊆ W) :
    Kept W s0 (State.sendFrame s p typ len body) := by
  simp only [List.cons_subset, List.nil_subset, and_true] at hkw
  unfold State.sendFrame
  repeat' (first | (simp (maxDischargeDepth := 40) only [hk, hkw, Kept.refl, Kept.mk_of, Kept.ite, Kept.foldl, List.cons_subset, List.nil_subset, List.mem_cons, List.mem_singleton, and_true, true_and, true_or, or_true, and_self, implies_true, not_false_eq_true, State.emit_kept]; done) | split)

theorem State.nak_kept {W : List Fld} {s0 s : State}  (p reason : Nat) (hk : Kept W s0 s) (hkw : [Fld.out, Fld.port0, Fld.port1, Fld.recorder] ⊆ W) :
    Kept W s0 (State.nak s p reason) := by
  simp only [List.cons_subset, List.nil_subset, and_true] at hkw
  unfold State.nak
  repeat' (first | (simp (maxDischargeDepth := 40) only [hk, hkw, Kept.refl, Kept.mk_of, Kept.ite, Kept.foldl, List.cons_subset, List.nil_subset, List.mem_cons, List.mem_singleton, and_true, true_and, true_or, or_true, and_self, implies_true, not_false_eq_true, State.count_kept, State.sendFrame_kept, State.setPort_kept]; done) | split)

theorem State.takeAll_kept {W : List Fld} (p vc seq units : Nat) (hkw : [Fld.freeCtr, Fld.out, Fld.mem, Fld.seats, Fld.tes, Fld.clusters, Fld.lanes, Fld.depot, Fld.tenancy, Fld.keys, Fld.vault, Fld.journal, Fld.port0, Fld.port1, Fld.pcie, Fld.cards, Fld.faults, Fld.recorder, Fld.power] ⊆ W) :
    ∀ (l : List (Nat × Bytes)) (s0 s : State), Kept W s0 s → Kept W s0 (s.takeAll p vc seq units l)
  | [], _, _, hk => State.grant_kept _ _ _ hk (List.Subset.trans (by decide) hkw)
  | [(_, _)], _, _, hk => State.take_kept _ _ hk hkw
  | (_, _) :: y :: r, s0, _, hk => State.takeAll_kept p vc seq units hkw (y :: r) s0 _ (State.take_kept _ _ hk hkw)

theorem State.acceptData_kept {W : List Fld} {s0 s : State}  (p : Nat) (f : Bytes) (hk : Kept W s0 s) (hkw : [Fld.freeCtr, Fld.out, Fld.mem, Fld.seats, Fld.tes, Fld.clusters, Fld.lanes, Fld.depot, Fld.tenancy, Fld.keys, Fld.vault, Fld.journal, Fld.port0, Fld.port1, Fld.pcie, Fld.cards, Fld.faults, Fld.recorder, Fld.power] ⊆ W) :
    Kept W s0 (State.acceptData s p f) := by
  unfold State.acceptData
  try dsimp only
  iterate 40 all_goals (first
    | with_reducible exact hk
    | with_reducible assumption
    | with_reducible exact Kept.refl _ _
    | with_reducible exact .inr rfl
    | (with_reducible exact List.Subset.trans (by decide) hkw)
    | (with_reducible exact .inl (Fld.mem_of hkw (by decide)))
    | (with_reducible apply Kept.ite <;> intro)
    | with_reducible apply State.grant_kept
    | with_reducible apply State.setPort_kept
    | (apply State.takeAll_kept; first | with_reducible exact List.Subset.trans (by decide) hkw | skip)
    | with_reducible apply State.violate_kept
    | with_reducible apply Kept.getD
    | with_reducible apply Kept.elim
    | (with_reducible apply Kept.foldl; intro _ _; try dsimp only)
    | split
    | (intro _ _; try dsimp only)
    | with_reducible apply Kept.mk_of
    | skip)

theorem State.resend_kept {W : List Fld} {s0 s : State}  (p : Nat) (from_ : BitVec 16) (hk : Kept W s0 s) (hkw : [Fld.out] ⊆ W) :
    Kept W s0 (State.resend s p from_) := by
  simp only [List.cons_subset, List.nil_subset, and_true] at hkw
  unfold State.resend
  repeat' (first | (simp (maxDischargeDepth := 40) only [hk, hkw, Kept.refl, Kept.mk_of, Kept.ite, Kept.foldl, List.cons_subset, List.nil_subset, List.mem_cons, List.mem_singleton, and_true, true_and, true_or, or_true, and_self, implies_true, not_false_eq_true, State.emit_kept]; done) | split)

theorem State.replay_kept {W : List Fld} {s0 s : State}  (p : Nat) (from_ : BitVec 16) (hk : Kept W s0 s) (hkw : [Fld.out, Fld.port0, Fld.port1, Fld.recorder] ⊆ W) :
    Kept W s0 (State.replay s p from_) := by
  simp only [List.cons_subset, List.nil_subset, and_true] at hkw
  unfold State.replay
  repeat' (first | (simp (maxDischargeDepth := 40) only [hk, hkw, Kept.refl, Kept.mk_of, Kept.ite, Kept.foldl, List.cons_subset, List.nil_subset, List.mem_cons, List.mem_singleton, and_true, true_and, true_or, or_true, and_self, implies_true, not_false_eq_true, State.count_kept, State.portRetrain_kept, State.resend_kept, State.setPort_kept]; done) | split)

theorem State.sendIdle_kept {W : List Fld} {s0 s : State}  (p : Nat) (hk : Kept W s0 s) (hkw : [Fld.out] ⊆ W) :
    Kept W s0 (State.sendIdle s p) := by
  simp only [List.cons_subset, List.nil_subset, and_true] at hkw
  unfold State.sendIdle
  repeat' (first | (simp (maxDischargeDepth := 40) only [hk, hkw, Kept.refl, Kept.mk_of, Kept.ite, Kept.foldl, List.cons_subset, List.nil_subset, List.mem_cons, List.mem_singleton, and_true, true_and, true_or, or_true, and_self, implies_true, not_false_eq_true, State.sendFrame_kept]; done) | split)

theorem State.sendInit_kept {W : List Fld} {s0 s : State}  (p : Nat) (hk : Kept W s0 s) (hkw : [Fld.out, Fld.port0, Fld.port1] ⊆ W) :
    Kept W s0 (State.sendInit s p) := by
  simp only [List.cons_subset, List.nil_subset, and_true] at hkw
  unfold State.sendInit
  repeat' (first | (simp (maxDischargeDepth := 40) only [hk, hkw, Kept.refl, Kept.mk_of, Kept.ite, Kept.foldl, List.cons_subset, List.nil_subset, List.mem_cons, List.mem_singleton, and_true, true_and, true_or, or_true, and_self, implies_true, not_false_eq_true, State.emit_kept, State.setPort_kept]; done) | split)

theorem State.linkUp_kept {W : List Fld} {s0 s : State}  (p : Nat) (hk : Kept W s0 s) (hkw : [Fld.out, Fld.mem, Fld.clusters, Fld.lanes, Fld.port0, Fld.port1] ⊆ W) :
    Kept W s0 (State.linkUp s p) := by
  unfold State.linkUp
  try dsimp only
  iterate 40 all_goals (first
    | with_reducible exact hk
    | with_reducible assumption
    | with_reducible exact Kept.refl _ _
    | with_reducible exact .inr rfl
    | (with_reducible exact List.Subset.trans (by decide) hkw)
    | (with_reducible exact .inl (Fld.mem_of hkw (by decide)))
    | (with_reducible apply Kept.ite <;> intro)
    | with_reducible apply State.creditsDue_kept
    | with_reducible apply State.plannedStop_kept
    | with_reducible apply State.pump_kept
    | with_reducible apply State.reinstate_kept
    | with_reducible apply State.resend_kept
    | with_reducible apply State.setPort_kept
    | with_reducible apply Kept.getD
    | with_reducible apply Kept.elim
    | (with_reducible apply Kept.foldl; intro _ _; try dsimp only)
    | split
    | (intro _ _; try dsimp only)
    | with_reducible apply Kept.mk_of
    | skip)

theorem State.losePartner_kept {W : List Fld} {s0 s : State}  (p : Nat) (hk : Kept W s0 s) (hkw : [Fld.out, Fld.tes, Fld.clusters, Fld.depot, Fld.vault, Fld.journal, Fld.port0, Fld.port1, Fld.pcie, Fld.cards, Fld.faults, Fld.recorder, Fld.power] ⊆ W) :
    Kept W s0 (State.losePartner s p) := by
  simp only [List.cons_subset, List.nil_subset, and_true] at hkw
  unfold State.losePartner
  repeat' (first | (simp (maxDischargeDepth := 40) only [hk, hkw, Kept.refl, Kept.mk_of, Kept.ite, Kept.foldl, List.cons_subset, List.nil_subset, List.mem_cons, List.mem_singleton, and_true, true_and, true_or, or_true, and_self, implies_true, not_false_eq_true, State.fault_kept, State.portDown_kept, State.setPort_kept, State.train_kept]; done) | split)

theorem State.sendLane_kept {W : List Fld} {s0 s : State}  (p kind sl : Nat) (map : Vector Nat 4) (hk : Kept W s0 s) (hkw : [Fld.out] ⊆ W) :
    Kept W s0 (State.sendLane s p kind sl map) := by
  simp only [List.cons_subset, List.nil_subset, and_true] at hkw
  unfold State.sendLane
  repeat' (first | (simp (maxDischargeDepth := 40) only [hk, hkw, Kept.refl, Kept.mk_of, Kept.ite, Kept.foldl, List.cons_subset, List.nil_subset, List.mem_cons, List.mem_singleton, and_true, true_and, true_or, or_true, and_self, implies_true, not_false_eq_true, State.sendFrame_kept]; done) | split)

theorem State.rxLaneFails_kept {W : List Fld} {s0 s : State}  (p sl cause : Nat) (hk : Kept W s0 s) (hkw : [Fld.out, Fld.tes, Fld.clusters, Fld.depot, Fld.vault, Fld.journal, Fld.port0, Fld.port1, Fld.pcie, Fld.cards, Fld.faults, Fld.recorder, Fld.power] ⊆ W) :
    Kept W s0 (State.rxLaneFails s p sl cause) := by
  simp only [List.cons_subset, List.nil_subset, and_true] at hkw
  unfold State.rxLaneFails
  repeat' (first | (simp (maxDischargeDepth := 40) only [hk, hkw, Kept.refl, Kept.mk_of, Kept.ite, Kept.foldl, List.cons_subset, List.nil_subset, List.mem_cons, List.mem_singleton, and_true, true_and, true_or, or_true, and_self, implies_true, not_false_eq_true, State.fault_kept, State.portDown_kept, State.portRetrain_kept, State.sendLane_kept, State.setPort_kept]; done) | split)

theorem State.queuePage_kept {W : List Fld} {s0 s : State}  (ch page : Nat) (hk : Kept W s0 s) (hkw : [Fld.power] ⊆ W) :
    Kept W s0 (State.queuePage s ch page) := by
  simp only [List.cons_subset, List.nil_subset, and_true] at hkw
  unfold State.queuePage
  repeat' (first | (simp (maxDischargeDepth := 40) only [hk, hkw, Kept.refl, Kept.mk_of, Kept.ite, Kept.foldl, List.cons_subset, List.nil_subset, List.mem_cons, List.mem_singleton, and_true, true_and, true_or, or_true, and_self, implies_true, not_false_eq_true, State.modPower_kept]; done) | split)

theorem State.poolCorrected_kept {W : List Fld} {s0 s : State}  (cell : Nat) (hk : Kept W s0 s) (hkw : [Fld.lanes, Fld.depot] ⊆ W) :
    Kept W s0 (State.poolCorrected s cell) := by
  unfold State.poolCorrected
  try dsimp only
  iterate 40 all_goals (first
    | with_reducible exact hk
    | with_reducible assumption
    | with_reducible exact Kept.refl _ _
    | with_reducible exact .inr rfl
    | (with_reducible exact List.Subset.trans (by decide) hkw)
    | (with_reducible exact .inl (Fld.mem_of hkw (by decide)))
    | (with_reducible apply Kept.ite <;> intro)
    | with_reducible apply State.setLane_kept
    | with_reducible apply Kept.getD
    | with_reducible apply Kept.elim
    | (with_reducible apply Kept.foldl; intro _ _; try dsimp only)
    | split
    | (intro _ _; try dsimp only)
    | with_reducible apply Kept.mk_of
    | skip)

/-- A result keeps what `Kept` says of its next state. -/
def ResKept (W : List Fld) (s0 : State) (r : Res) : Prop := ∀ t, r = .next t → Kept W s0 t

/-- The state an instruction of a seat leaves keeps what `Kept` says. -/
def TeKept (W : List Fld) (s0 : State) : TeRes → Prop
  | .next s _ _ => Kept W s0 s
  | .jump s _ _ _ => Kept W s0 s
  | .wait s _ _ => Kept W s0 s
  | .exc s _ => Kept W s0 s
  | .gone s => Kept W s0 s

/-- The same of an instruction written with exceptions. -/
def ExKept (W : List Fld) (s0 : State) (r : Except Byte (State × Seat × Nat)) : Prop := ∀ t x n, r = .ok (t, x, n) → Kept W s0 t

theorem ResKept.next {W : List Fld} {s0 t : State} (h : Kept W s0 t) : ResKept W s0 (.next t) := by
  intro t' e
  cases e
  exact h

theorem ResKept.checked {W : List Fld} {s0 t : State} {ok : Bool} (h : Kept W s0 t) : ResKept W s0 (checked ok t) := by
  unfold Machine.checked
  split
  · exact .next h
  · intro t' e
    cases e

theorem ResKept.ite {W : List Fld} {s0 : State} {r q : Res} {c : Prop} [Decidable c] (h : c → ResKept W s0 r) (k : ¬c → ResKept W s0 q) :
    ResKept W s0 (if c then r else q) := by
  split
  · exact h ‹_›
  · exact k ‹_›

theorem TeKept.ite {W : List Fld} {s0 : State} {r q : TeRes} {c : Prop} [Decidable c] (h : c → TeKept W s0 r) (k : ¬c → TeKept W s0 q) :
    TeKept W s0 (if c then r else q) := by
  split
  · exact h ‹_›
  · exact k ‹_›

theorem TeKept.next {W : List Fld} {s0 s : State} {t : Seat} {n : Nat} (h : Kept W s0 s) : TeKept W s0 (.next s t n) := h
theorem TeKept.jump {W : List Fld} {s0 s : State} {t : Seat} {p : BitVec 32} {n : Nat} (h : Kept W s0 s) : TeKept W s0 (.jump s t p n) := h
theorem TeKept.wait {W : List Fld} {s0 s : State} {t : Seat} {n : Nat} (h : Kept W s0 s) : TeKept W s0 (.wait s t n) := h
theorem TeKept.exc {W : List Fld} {s0 s : State} {c : Byte} (h : Kept W s0 s) : TeKept W s0 (.exc s c) := h
theorem TeKept.gone {W : List Fld} {s0 s : State} (h : Kept W s0 s) : TeKept W s0 (.gone s) := h

theorem ExKept.ok {W : List Fld} {s0 s : State} {t : Seat} {n : Nat} (h : Kept W s0 s) : ExKept W s0 (.ok (s, t, n)) := by
  intro _ _ _ e
  cases e
  exact h
theorem ExKept.pure {W : List Fld} {s0 s : State} {t : Seat} {n : Nat} (h : Kept W s0 s) : ExKept W s0 (pure (s, t, n)) := ExKept.ok h
theorem ExKept.error {W : List Fld} {s0 : State} {c : Byte} : ExKept W s0 (.error c) := by
  intro _ _ _ e
  cases e
theorem ExKept.bind {W : List Fld} {s0 : State} {α : Type} {x : Except Byte α} {f : α → Except Byte (State × Seat × Nat)}
    (h : ∀ a, ExKept W s0 (f a)) : ExKept W s0 (x >>= f) := by
  cases x with
  | error c => exact ExKept.error
  | ok a => exact h a

/-- What an instruction leaves, put back into its seat (R47, R142). -/
theorem finishTe_kept {W : List Fld} {s0 : State} (u : SeatRef) (r : TeRes) (h : TeKept W s0 r) (hkw : [Fld.freeCtr, Fld.out, Fld.mem, Fld.seats, Fld.tes, Fld.clusters, Fld.lanes, Fld.depot, Fld.vault, Fld.journal, Fld.held, Fld.port0, Fld.port1, Fld.pcie, Fld.cards, Fld.faults, Fld.recorder, Fld.power] ⊆ W) :
    Kept W s0 (finishTe u r) := by
  have hk := h
  cases r <;> simp only [finishTe, TeKept] at hk ⊢
  try dsimp only
  iterate 40 all_goals (first
    | with_reducible exact hk
    | (with_reducible apply hf)
    | with_reducible assumption
    | with_reducible exact Kept.refl _ _
    | with_reducible exact .inr rfl
    | (with_reducible exact List.Subset.trans (by decide) hkw)
    | (with_reducible exact .inl (Fld.mem_of hkw (by decide)))
    | (with_reducible apply Kept.ite <;> intro)
    | with_reducible apply State.fetch_kept
    | with_reducible apply State.raise_kept
    | with_reducible apply State.setSeat_kept
    | with_reducible apply Kept.getD
    | with_reducible apply Kept.elim
    | (with_reducible apply Kept.foldl; intro _ _; try dsimp only)
    | split
    | (intro _ _; try dsimp only)
    | with_reducible apply Kept.mk_of
    | skip)

theorem runTe_kept {W : List Fld} {s0 s : State} {u : SeatRef} {f : State → Seat → TeRes} (hk : Kept W s0 s)
    (hkw : [Fld.freeCtr, Fld.out, Fld.mem, Fld.seats, Fld.tes, Fld.clusters, Fld.lanes, Fld.depot, Fld.vault, Fld.journal, Fld.held, Fld.port0, Fld.port1, Fld.pcie, Fld.cards, Fld.faults, Fld.recorder, Fld.power] ⊆ W) (hf : ∀ x, TeKept W s0 (f s x)) : ResKept W s0 (runTe u s f) := by
  unfold runTe
  apply ResKept.checked
  split
  · exact finishTe_kept _ _ (hf _) (List.Subset.trans (by decide) hkw)
  · exact hk

theorem runPlain_kept {W : List Fld} {s0 s : State} {u : SeatRef} {f : State → Seat → TeRes} (hk : Kept W s0 s)
    (hkw : [Fld.freeCtr, Fld.out, Fld.mem, Fld.seats, Fld.tes, Fld.clusters, Fld.lanes, Fld.depot, Fld.vault, Fld.journal, Fld.held, Fld.port0, Fld.port1, Fld.pcie, Fld.cards, Fld.faults, Fld.recorder, Fld.power] ⊆ W) (hf : ∀ x, TeKept W s0 (f s x)) : ResKept W s0 (runPlain u s f) :=
  runTe_kept hk hkw fun x => hf _

theorem runVendor_kept {W : List Fld} {s0 s : State} {u : SeatRef} {f : State → Seat → TeRes} (hk : Kept W s0 s)
    (hkw : [Fld.freeCtr, Fld.out, Fld.mem, Fld.seats, Fld.tes, Fld.clusters, Fld.lanes, Fld.depot, Fld.vault, Fld.journal, Fld.held, Fld.port0, Fld.port1, Fld.pcie, Fld.cards, Fld.faults, Fld.recorder, Fld.power] ⊆ W) (hf : ∀ x, TeKept W s0 (f s x)) : ResKept W s0 (runVendor u s f) := by
  apply runPlain_kept hk hkw
  intro x
  split
  · exact hf _
  · exact TeKept.exc hk

theorem runEx_kept {W : List Fld} {s0 s : State} {u : SeatRef} {f : State → Seat → Except Byte (State × Seat × Nat)} (hk : Kept W s0 s)
    (hkw : [Fld.freeCtr, Fld.out, Fld.mem, Fld.seats, Fld.tes, Fld.clusters, Fld.lanes, Fld.depot, Fld.vault, Fld.journal, Fld.held, Fld.port0, Fld.port1, Fld.pcie, Fld.cards, Fld.faults, Fld.recorder, Fld.power] ⊆ W) (hf : ∀ x, ExKept W s0 (f s x)) : ResKept W s0 (runEx u s f) := by
  apply runPlain_kept hk hkw
  intro x
  split
  · next e => exact TeKept.next (hf _ _ _ _ e)
  · exact TeKept.exc hk

/-- A host command: rejected, left waiting, or its effect (R349). -/
theorem runCmd_kept {W : List Fld} {s0 s : State} {op : Nat} {c : Cmd} {wf : Bool} {f : Spec → State → State} (hk : Kept W s0 s)
    (hkw : [Fld.out, Fld.journal, Fld.pcie, Fld.recorder] ⊆ W) (hf : ∀ sp, Kept W s0 (f sp s)) : ResKept W s0 (runCmd op c wf s f) := by
  unfold runCmd
  apply ResKept.checked
  try dsimp only
  iterate 40 all_goals (first
    | with_reducible exact hk
    | (with_reducible apply hf)
    | with_reducible assumption
    | with_reducible exact Kept.refl _ _
    | with_reducible exact .inr rfl
    | (with_reducible exact List.Subset.trans (by decide) hkw)
    | (with_reducible exact .inl (Fld.mem_of hkw (by decide)))
    | (with_reducible apply Kept.ite <;> intro)
    | with_reducible apply State.reject_kept
    | with_reducible apply Kept.getD
    | with_reducible apply Kept.elim
    | (with_reducible apply Kept.foldl; intro _ _; try dsimp only)
    | split
    | (intro _ _; try dsimp only)
    | with_reducible apply Kept.mk_of
    | skip)

theorem frameRow_kept {W : List Fld} {s0 s : State} {typ port : Nat} {b : Bytes} {f : State → State} (hk : Kept W s0 s)
    (hkw : [Fld.out, Fld.journal, Fld.port0, Fld.port1, Fld.recorder] ⊆ W) (hf : ∀ x, Kept W s0 x → Kept W s0 (f x)) : ResKept W s0 (frameRow typ port b s f) := by
  unfold frameRow
  apply ResKept.checked
  try dsimp only
  iterate 40 all_goals (first
    | with_reducible exact hk
    | (with_reducible apply hf)
    | with_reducible assumption
    | with_reducible exact Kept.refl _ _
    | with_reducible exact .inr rfl
    | (with_reducible exact List.Subset.trans (by decide) hkw)
    | (with_reducible exact .inl (Fld.mem_of hkw (by decide)))
    | (with_reducible apply Kept.ite <;> intro)
    | with_reducible apply State.heardHeader_kept
    | with_reducible apply State.nak_kept
    | with_reducible apply State.pump_kept
    | with_reducible apply Kept.getD
    | with_reducible apply Kept.elim
    | (with_reducible apply Kept.foldl; intro _ _; try dsimp only)
    | split
    | (intro _ _; try dsimp only)
    | with_reducible apply Kept.mk_of
    | skip)

theorem rxRow_kept {W : List Fld} {s0 s : State} {typ port vc : Nat} {b : Bytes} (hk : Kept W s0 s)
    (hkw : [Fld.freeCtr, Fld.out, Fld.mem, Fld.seats, Fld.tes, Fld.clusters, Fld.lanes, Fld.depot, Fld.tenancy, Fld.keys, Fld.vault, Fld.journal, Fld.port0, Fld.port1, Fld.pcie, Fld.cards, Fld.faults, Fld.recorder, Fld.power] ⊆ W) : ResKept W s0 (rxRow typ port vc b s) := by
  unfold rxRow
  apply ResKept.checked
  try dsimp only
  iterate 40 all_goals (first
    | with_reducible exact hk
    | (with_reducible apply hf)
    | with_reducible assumption
    | with_reducible exact Kept.refl _ _
    | with_reducible exact .inr rfl
    | (with_reducible exact List.Subset.trans (by decide) hkw)
    | (with_reducible exact .inl (Fld.mem_of hkw (by decide)))
    | (with_reducible apply Kept.ite <;> intro)
    | with_reducible apply State.take_kept
    | with_reducible apply Kept.getD
    | with_reducible apply Kept.elim
    | (with_reducible apply Kept.foldl; intro _ _; try dsimp only)
    | split
    | (intro _ _; try dsimp only)
    | with_reducible apply Kept.mk_of
    | skip)

theorem ptpRow_kept {W : List Fld} {s0 s : State} {m : PtpMsg} {f : State → State} (hk : Kept W s0 s)
    (hkw : [Fld.time, Fld.recorder] ⊆ W) (hf : Kept W s0 (f s)) : ResKept W s0 (ptpRow m s f) := by
  unfold ptpRow
  apply ResKept.next
  try dsimp only
  iterate 40 all_goals (first
    | with_reducible exact hk
    | (with_reducible apply hf)
    | with_reducible assumption
    | with_reducible exact Kept.refl _ _
    | with_reducible exact .inr rfl
    | (with_reducible exact List.Subset.trans (by decide) hkw)
    | (with_reducible exact .inl (Fld.mem_of hkw (by decide)))
    | (with_reducible apply Kept.ite <;> intro)
    | with_reducible apply State.ptpDrop_kept
    | with_reducible apply Kept.getD
    | with_reducible apply Kept.elim
    | (with_reducible apply Kept.foldl; intro _ _; try dsimp only)
    | split
    | (intro _ _; try dsimp only)
    | with_reducible apply Kept.mk_of
    | skip)


/-- The authorisation a command may carry, used up if it fits (R443). -/
theorem useAuthD_kept {W : List Fld} {s0 s : State} (op n : Nat) (b : Bytes) (hk : Kept W s0 s) (hkw : [Fld.out, Fld.tes, Fld.clusters, Fld.depot, Fld.vault, Fld.journal, Fld.port0, Fld.port1, Fld.pcie, Fld.cards, Fld.faults, Fld.recorder, Fld.power] ⊆ W) :
    Kept W s0 ((s.useAuth op n b).getD s) := by
  cases e : s.useAuth op n b with
  | none => exact hk
  | some t => exact State.useAuth_keptE e hk hkw

end Sys2Proof.Machine
end

