-- ==== Sys2Proof/Laws/PerInstr.lean ====
section
/-! SUPPORT. One family of statements about every command as syntax: no word of the table's bits spells it, because no row of
spec/opcode_table.json gives bits (log entry 5). -/

namespace Sys2Proof.Laws.Spelling

/-- No word spells the command: it reaches the machine through its queue alone. -/
def Statement (i : Instr) : Prop := ∀ nbits w : Nat, decodeTableWord nbits w ≠ some i

/-- No word spells any command. -/
theorem none_spelt (i : Instr) : Statement i := fun _ _ h => nomatch h

theorem add : ∀ x0 x1 x2 x3, Statement (.add x0 x1 x2 x3) := fun _ _ _ _ => none_spelt _
theorem sub : ∀ x0 x1 x2 x3, Statement (.sub x0 x1 x2 x3) := fun _ _ _ _ => none_spelt _
theorem and : ∀ x0 x1 x2 x3, Statement (.and x0 x1 x2 x3) := fun _ _ _ _ => none_spelt _
theorem or : ∀ x0 x1 x2 x3, Statement (.or x0 x1 x2 x3) := fun _ _ _ _ => none_spelt _
theorem xor : ∀ x0 x1 x2 x3, Statement (.xor x0 x1 x2 x3) := fun _ _ _ _ => none_spelt _
theorem sll : ∀ x0 x1 x2 x3, Statement (.sll x0 x1 x2 x3) := fun _ _ _ _ => none_spelt _
theorem srl : ∀ x0 x1 x2 x3, Statement (.srl x0 x1 x2 x3) := fun _ _ _ _ => none_spelt _
theorem sra : ∀ x0 x1 x2 x3, Statement (.sra x0 x1 x2 x3) := fun _ _ _ _ => none_spelt _
theorem rol : ∀ x0 x1 x2 x3, Statement (.rol x0 x1 x2 x3) := fun _ _ _ _ => none_spelt _
theorem slt : ∀ x0 x1 x2 x3, Statement (.slt x0 x1 x2 x3) := fun _ _ _ _ => none_spelt _
theorem sltu : ∀ x0 x1 x2 x3, Statement (.sltu x0 x1 x2 x3) := fun _ _ _ _ => none_spelt _
theorem mul : ∀ x0 x1 x2 x3, Statement (.mul x0 x1 x2 x3) := fun _ _ _ _ => none_spelt _
theorem mulhu : ∀ x0 x1 x2 x3, Statement (.mulhu x0 x1 x2 x3) := fun _ _ _ _ => none_spelt _
theorem bswap : ∀ x0 x1 x2, Statement (.bswap x0 x1 x2) := fun _ _ _ => none_spelt _
theorem cmovz : ∀ x0 x1 x2 x3, Statement (.cmovz x0 x1 x2 x3) := fun _ _ _ _ => none_spelt _
theorem addi : ∀ x0 x1 x2 x3, Statement (.addi x0 x1 x2 x3) := fun _ _ _ _ => none_spelt _
theorem andi : ∀ x0 x1 x2 x3, Statement (.andi x0 x1 x2 x3) := fun _ _ _ _ => none_spelt _
theorem ori : ∀ x0 x1 x2 x3, Statement (.ori x0 x1 x2 x3) := fun _ _ _ _ => none_spelt _
theorem xori : ∀ x0 x1 x2 x3, Statement (.xori x0 x1 x2 x3) := fun _ _ _ _ => none_spelt _
theorem slti : ∀ x0 x1 x2 x3, Statement (.slti x0 x1 x2 x3) := fun _ _ _ _ => none_spelt _
theorem shi : ∀ x0 x1 x2 x3, Statement (.shi x0 x1 x2 x3) := fun _ _ _ _ => none_spelt _
theorem insq : ∀ x0 x1 x2 x3, Statement (.insq x0 x1 x2 x3) := fun _ _ _ _ => none_spelt _
theorem sys : ∀ x0 x1 x2, Statement (.sys x0 x1 x2) := fun _ _ _ => none_spelt _
theorem beq : ∀ x0 x1 x2 x3, Statement (.beq x0 x1 x2 x3) := fun _ _ _ _ => none_spelt _
theorem bne : ∀ x0 x1 x2 x3, Statement (.bne x0 x1 x2 x3) := fun _ _ _ _ => none_spelt _
theorem blt : ∀ x0 x1 x2 x3, Statement (.blt x0 x1 x2 x3) := fun _ _ _ _ => none_spelt _
theorem bge : ∀ x0 x1 x2 x3, Statement (.bge x0 x1 x2 x3) := fun _ _ _ _ => none_spelt _
theorem bltu : ∀ x0 x1 x2 x3, Statement (.bltu x0 x1 x2 x3) := fun _ _ _ _ => none_spelt _
theorem bgeu : ∀ x0 x1 x2 x3, Statement (.bgeu x0 x1 x2 x3) := fun _ _ _ _ => none_spelt _
theorem jmp : ∀ x0 x1, Statement (.jmp x0 x1) := fun _ _ => none_spelt _
theorem call : ∀ x0 x1, Statement (.call x0 x1) := fun _ _ => none_spelt _
theorem ret : ∀ x0, Statement (.ret x0) := fun _ => none_spelt _
theorem ld8 : ∀ x0 x1 x2 x3 x4, Statement (.ld8 x0 x1 x2 x3 x4) := fun _ _ _ _ _ => none_spelt _
theorem ld16 : ∀ x0 x1 x2 x3 x4, Statement (.ld16 x0 x1 x2 x3 x4) := fun _ _ _ _ _ => none_spelt _
theorem ld32 : ∀ x0 x1 x2 x3 x4, Statement (.ld32 x0 x1 x2 x3 x4) := fun _ _ _ _ _ => none_spelt _
theorem ld64 : ∀ x0 x1 x2 x3 x4, Statement (.ld64 x0 x1 x2 x3 x4) := fun _ _ _ _ _ => none_spelt _
theorem st8 : ∀ x0 x1 x2 x3 x4, Statement (.st8 x0 x1 x2 x3 x4) := fun _ _ _ _ _ => none_spelt _
theorem st16 : ∀ x0 x1 x2 x3 x4, Statement (.st16 x0 x1 x2 x3 x4) := fun _ _ _ _ _ => none_spelt _
theorem st32 : ∀ x0 x1 x2 x3 x4, Statement (.st32 x0 x1 x2 x3 x4) := fun _ _ _ _ _ => none_spelt _
theorem st64 : ∀ x0 x1 x2 x3 x4, Statement (.st64 x0 x1 x2 x3 x4) := fun _ _ _ _ _ => none_spelt _
theorem ldb : ∀ x0 x1 x2 x3 x4, Statement (.ldb x0 x1 x2 x3 x4) := fun _ _ _ _ _ => none_spelt _
theorem stb : ∀ x0 x1 x2 x3 x4, Statement (.stb x0 x1 x2 x3 x4) := fun _ _ _ _ _ => none_spelt _
theorem cInit : ∀ x0 x1 x2 x3, Statement (.cInit x0 x1 x2 x3) := fun _ _ _ _ => none_spelt _
theorem cEnc : ∀ x0 x1 x2 x3, Statement (.cEnc x0 x1 x2 x3) := fun _ _ _ _ => none_spelt _
theorem cDec : ∀ x0 x1 x2 x3, Statement (.cDec x0 x1 x2 x3) := fun _ _ _ _ => none_spelt _
theorem cAad : ∀ x0 x1 x2, Statement (.cAad x0 x1 x2) := fun _ _ _ => none_spelt _
theorem cMac : ∀ x0 x1 x2, Statement (.cMac x0 x1 x2) := fun _ _ _ => none_spelt _
theorem cFin : ∀ x0 x1, Statement (.cFin x0 x1) := fun _ _ => none_spelt _
theorem cSave : ∀ x0 x1, Statement (.cSave x0 x1) := fun _ _ => none_spelt _
theorem cRest : ∀ x0 x1, Statement (.cRest x0 x1) := fun _ _ => none_spelt _
theorem cFf1e : ∀ x0 x1, Statement (.cFf1e x0 x1) := fun _ _ => none_spelt _
theorem cFf1d : ∀ x0 x1, Statement (.cFf1d x0 x1) := fun _ _ => none_spelt _
theorem cRaw : ∀ x0 x1 x2 x3 x4, Statement (.cRaw x0 x1 x2 x3 x4) := fun _ _ _ _ _ => none_spelt _
theorem dInit : ∀ x0 x1 x2 x3, Statement (.dInit x0 x1 x2 x3) := fun _ _ _ _ => none_spelt _
theorem dAbs : ∀ x0 x1, Statement (.dAbs x0 x1) := fun _ _ => none_spelt _
theorem dLast : ∀ x0 x1 x2, Statement (.dLast x0 x1 x2) := fun _ _ _ => none_spelt _
theorem dOut : ∀ x0 x1 x2, Statement (.dOut x0 x1 x2) := fun _ _ _ => none_spelt _
theorem dCmp : ∀ x0 x1 x2, Statement (.dCmp x0 x1 x2) := fun _ _ _ => none_spelt _
theorem dSave : ∀ x0 x1, Statement (.dSave x0 x1) := fun _ _ => none_spelt _
theorem dRest : ∀ x0 x1, Statement (.dRest x0 x1) := fun _ _ => none_spelt _
theorem gfm : ∀ x0 x1 x2, Statement (.gfm x0 x1 x2) := fun _ _ _ => none_spelt _
theorem cmpct : ∀ x0 x1 x2 x3 x4, Statement (.cmpct x0 x1 x2 x3 x4) := fun _ _ _ _ _ => none_spelt _
theorem kLoad : ∀ x0 x1 x2, Statement (.kLoad x0 x1 x2) := fun _ _ _ => none_spelt _
theorem kClr : ∀ x0 x1, Statement (.kClr x0 x1) := fun _ _ => none_spelt _
theorem kDrv : ∀ x0 x1 x2 x3 x4, Statement (.kDrv x0 x1 x2 x3 x4) := fun _ _ _ _ _ => none_spelt _
theorem kWrap : ∀ x0 x1 x2 x3 x4, Statement (.kWrap x0 x1 x2 x3 x4) := fun _ _ _ _ _ => none_spelt _
theorem kUnwr : ∀ x0 x1 x2 x3 x4, Statement (.kUnwr x0 x1 x2 x3 x4) := fun _ _ _ _ _ => none_spelt _
theorem kStore : ∀ x0 x1 x2, Statement (.kStore x0 x1 x2) := fun _ _ _ => none_spelt _
theorem kAttr : ∀ x0 x1 x2, Statement (.kAttr x0 x1 x2) := fun _ _ _ => none_spelt _
theorem gate : ∀ x0 x1, Statement (.gate x0 x1) := fun _ _ => none_spelt _
theorem gret : ∀ x0 x1, Statement (.gret x0 x1) := fun _ _ => none_spelt _
theorem mileP : ∀ x0 x1 x2, Statement (.mileP x0 x1 x2) := fun _ _ _ => none_spelt _
theorem mileI : ∀ x0 x1 x2 x3, Statement (.mileI x0 x1 x2 x3) := fun _ _ _ _ => none_spelt _
theorem mileC : ∀ x0 x1 x2 x3, Statement (.mileC x0 x1 x2 x3) := fun _ _ _ _ => none_spelt _
theorem yieldPoint : ∀ x0, Statement (.yieldPoint x0) := fun _ => none_spelt _
theorem emit : ∀ x0 x1 x2, Statement (.emit x0 x1 x2) := fun _ _ _ => none_spelt _
theorem trap : ∀ x0 x1, Statement (.trap x0 x1) := fun _ _ => none_spelt _
theorem vget : ∀ x0 x1 x2 x3, Statement (.vget x0 x1 x2 x3) := fun _ _ _ _ => none_spelt _
theorem vput : ∀ x0 x1 x2 x3, Statement (.vput x0 x1 x2 x3) := fun _ _ _ _ => none_spelt _
theorem yieldOverdue : ∀ x0, Statement (.yieldOverdue x0) := fun _ => none_spelt _
theorem scratchUncorrectable : ∀ x0 x1, Statement (.scratchUncorrectable x0 x1) := fun _ _ => none_spelt _
theorem vaultWaitDone : ∀ x0, Statement (.vaultWaitDone x0) := fun _ => none_spelt _
theorem drbgReadDone : ∀ x0, Statement (.drbgReadDone x0) := fun _ => none_spelt _
theorem imageCacheFill : ∀ x0, Statement (.imageCacheFill x0) := fun _ => none_spelt _
theorem caddyMissFill : ∀ x0, Statement (.caddyMissFill x0) := fun _ => none_spelt _
theorem anchorSpaceFree : Statement .anchorSpaceFree := none_spelt _
theorem itinRsp : Statement .itinRsp := none_spelt _
theorem itinReq : ∀ x0 x1 x2, Statement (.itinReq x0 x1 x2) := fun _ _ _ => none_spelt _
theorem itemDispatch : ∀ x0, Statement (.itemDispatch x0) := fun _ => none_spelt _
theorem placementEvaluation : Statement .placementEvaluation := none_spelt _
theorem clusterSleep : ∀ x0, Statement (.clusterSleep x0) := fun _ => none_spelt _
theorem clusterWakeDone : ∀ x0 x1, Statement (.clusterWakeDone x0 x1) := fun _ _ => none_spelt _
theorem overflowRefill : ∀ x0, Statement (.overflowRefill x0) := fun _ => none_spelt _
theorem overflowRefillDone : ∀ x0, Statement (.overflowRefillDone x0) := fun _ => none_spelt _
theorem linkCreditHoldRelease : ∀ x0 x1, Statement (.linkCreditHoldRelease x0 x1) := fun _ _ => none_spelt _
theorem depotCellUncorrectable : ∀ x0 x1, Statement (.depotCellUncorrectable x0 x1) := fun _ _ => none_spelt _
theorem bulkSegmentEnd : ∀ x0 x1, Statement (.bulkSegmentEnd x0 x1) := fun _ _ => none_spelt _
theorem streamKeyFetchDone : ∀ x0 x1, Statement (.streamKeyFetchDone x0 x1) := fun _ _ => none_spelt _
theorem wrappedMoveArrival : ∀ x0 x1 x2, Statement (.wrappedMoveArrival x0 x1 x2) := fun _ _ _ => none_spelt _
theorem maeJobYieldPoint : ∀ x0, Statement (.maeJobYieldPoint x0) := fun _ => none_spelt _
theorem maeJobEnd : ∀ x0 x1, Statement (.maeJobEnd x0 x1) := fun _ _ => none_spelt _
theorem maeKatDone : ∀ x0 x1, Statement (.maeKatDone x0 x1) := fun _ _ => none_spelt _
theorem maeKeyTableMissDone : ∀ x0, Statement (.maeKeyTableMissDone x0) := fun _ => none_spelt _
theorem vaultData : ∀ x0 x1 x2, Statement (.vaultData x0 x1 x2) := fun _ _ _ => none_spelt _
theorem vaultRequestTimeout : ∀ x0, Statement (.vaultRequestTimeout x0) := fun _ => none_spelt _
theorem vaultRefill : Statement .vaultRefill := none_spelt _
theorem watermarkWrite : Statement .watermarkWrite := none_spelt _
theorem journalSpill : Statement .journalSpill := none_spelt _
theorem outcome : Statement .outcome := none_spelt _
theorem pfwNAssert : Statement .pfwNAssert := none_spelt _
theorem pfwGraceEnd : Statement .pfwGraceEnd := none_spelt _
theorem pfwNRelease : Statement .pfwNRelease := none_spelt _
theorem cdrLockLoss : ∀ x0 x1, Statement (.cdrLockLoss x0 x1) := fun _ _ => none_spelt _
theorem laneBerExceeded : ∀ x0 x1, Statement (.laneBerExceeded x0 x1) := fun _ _ => none_spelt _
theorem laneUncorrectableTwice : ∀ x0 x1, Statement (.laneUncorrectableTwice x0 x1) := fun _ _ => none_spelt _
theorem dfeTapAtLimit : ∀ x0 x1, Statement (.dfeTapAtLimit x0 x1) := fun _ _ => none_spelt _
theorem laneFrame : ∀ x0 x1, Statement (.laneFrame x0 x1) := fun _ _ => none_spelt _
theorem remapRealignDone : ∀ x0, Statement (.remapRealignDone x0) := fun _ => none_spelt _
theorem remapSuspensionEnd : ∀ x0, Statement (.remapSuspensionEnd x0) := fun _ => none_spelt _
theorem dataFrame : ∀ x0 x1, Statement (.dataFrame x0 x1) := fun _ _ => none_spelt _
theorem idleFrame : ∀ x0 x1, Statement (.idleFrame x0 x1) := fun _ _ => none_spelt _
theorem nakFrame : ∀ x0 x1, Statement (.nakFrame x0 x1) := fun _ _ => none_spelt _
theorem initFrame : ∀ x0 x1, Statement (.initFrame x0 x1) := fun _ _ => none_spelt _
theorem idleFrameSend : ∀ x0, Statement (.idleFrameSend x0) := fun _ => none_spelt _
theorem initFrameSend : ∀ x0, Statement (.initFrameSend x0) := fun _ => none_spelt _
theorem ackSend : ∀ x0, Statement (.ackSend x0) := fun _ => none_spelt _
theorem replayTimeout : ∀ x0, Statement (.replayTimeout x0) := fun _ => none_spelt _
theorem pcsAlignment : ∀ x0, Statement (.pcsAlignment x0) := fun _ => none_spelt _
theorem trainingTimeout : ∀ x0, Statement (.trainingTimeout x0) := fun _ => none_spelt _
theorem trainingRestart : ∀ x0, Statement (.trainingRestart x0) := fun _ => none_spelt _
theorem initTimeout : ∀ x0, Statement (.initTimeout x0) := fun _ => none_spelt _
theorem retrainTimeout : ∀ x0, Statement (.retrainTimeout x0) := fun _ => none_spelt _
theorem partnerLoss : ∀ x0, Statement (.partnerLoss x0) := fun _ => none_spelt _
theorem violationDownEnd : ∀ x0, Statement (.violationDownEnd x0) := fun _ => none_spelt _
theorem violation : ∀ x0 x1 x2, Statement (.violation x0 x1 x2) := fun _ _ _ => none_spelt _
theorem bulkOpen : ∀ x0 x1 x2, Statement (.bulkOpen x0 x1 x2) := fun _ _ _ => none_spelt _
theorem bulkData : ∀ x0 x1 x2, Statement (.bulkData x0 x1 x2) := fun _ _ _ => none_spelt _
theorem bulkClose : ∀ x0 x1 x2, Statement (.bulkClose x0 x1 x2) := fun _ _ _ => none_spelt _
theorem goingAway : ∀ x0 x1 x2, Statement (.goingAway x0 x1 x2) := fun _ _ _ => none_spelt _
theorem idleMessage : ∀ x0 x1, Statement (.idleMessage x0 x1) := fun _ _ => none_spelt _
theorem idleMessageReceipt : ∀ x0 x1 x2, Statement (.idleMessageReceipt x0 x1 x2) := fun _ _ _ => none_spelt _
theorem credit : ∀ x0 x1, Statement (.credit x0 x1) := fun _ _ => none_spelt _
theorem sessionCloseTimeout : ∀ x0 x1, Statement (.sessionCloseTimeout x0 x1) := fun _ _ => none_spelt _
theorem sessionClosed : ∀ x0 x1, Statement (.sessionClosed x0 x1) := fun _ _ => none_spelt _
theorem drainIntervalEnd : ∀ x0, Statement (.drainIntervalEnd x0) := fun _ => none_spelt _
theorem plannedStopDown : ∀ x0, Statement (.plannedStopDown x0) := fun _ => none_spelt _
theorem portAckWaitEnd : ∀ x0, Statement (.portAckWaitEnd x0) := fun _ => none_spelt _
theorem cmdTail : ∀ x0 x1, Statement (.cmdTail x0 x1) := fun _ _ => none_spelt _
theorem cplHead : ∀ x0 x1, Statement (.cplHead x0 x1) := fun _ _ => none_spelt _
theorem ringFetch : ∀ x0 x1 x2, Statement (.ringFetch x0 x1 x2) := fun _ _ _ => none_spelt _
theorem ringCtrlEnable : ∀ x0 x1, Statement (.ringCtrlEnable x0 x1) := fun _ _ => none_spelt _
theorem go : ∀ x0 x1, Statement (.go x0 x1) := fun _ _ => none_spelt _
theorem eventRw1c : ∀ x0 x1 x2, Statement (.eventRw1c x0 x1 x2) := fun _ _ _ => none_spelt _
theorem registerWrite : ∀ x0 x1 x2 x3, Statement (.registerWrite x0 x1 x2 x3) := fun _ _ _ _ => none_spelt _
theorem completionIrqDelay : ∀ x0, Statement (.completionIrqDelay x0) := fun _ => none_spelt _
theorem flr : ∀ x0, Statement (.flr x0) := fun _ => none_spelt _
theorem instanceResetSquash : ∀ x0, Statement (.instanceResetSquash x0) := fun _ => none_spelt _
theorem instanceResetDone : ∀ x0, Statement (.instanceResetDone x0) := fun _ => none_spelt _
theorem laneEmpty : ∀ x0, Statement (.laneEmpty x0) := fun _ => none_spelt _
theorem vfEnableClear : ∀ x0 x1, Statement (.vfEnableClear x0 x1) := fun _ _ => none_spelt _
theorem vfEnableSet : ∀ x0, Statement (.vfEnableSet x0) := fun _ => none_spelt _
theorem d3hotEntry : Statement .d3hotEntry := none_spelt _
theorem d3hotExit : Statement .d3hotExit := none_spelt _
theorem freezeAtRest : ∀ x0, Statement (.freezeAtRest x0) := fun _ => none_spelt _
theorem deviceInfo : ∀ x0, Statement (.deviceInfo x0) := fun _ => none_spelt _
theorem deviceStatus : ∀ x0, Statement (.deviceStatus x0) := fun _ => none_spelt _
theorem deviceReset : ∀ x0, Statement (.deviceReset x0) := fun _ => none_spelt _
theorem warmReset : Statement .warmReset := none_spelt _
theorem deviceStandby : ∀ x0, Statement (.deviceStandby x0) := fun _ => none_spelt _
theorem deepStandbyEntered : Statement .deepStandbyEntered := none_spelt _
theorem faultRead : ∀ x0, Statement (.faultRead x0) := fun _ => none_spelt _
theorem faultClear : ∀ x0, Statement (.faultClear x0) := fun _ => none_spelt _
theorem recorderRead : ∀ x0, Statement (.recorderRead x0) := fun _ => none_spelt _
theorem lcStatus : ∀ x0, Statement (.lcStatus x0) := fun _ => none_spelt _
theorem lcAdvance : ∀ x0, Statement (.lcAdvance x0) := fun _ => none_spelt _
theorem lcReprovision : ∀ x0, Statement (.lcReprovision x0) := fun _ => none_spelt _
theorem tamperStatus : ∀ x0, Statement (.tamperStatus x0) := fun _ => none_spelt _
theorem tamperConfig : ∀ x0, Statement (.tamperConfig x0) := fun _ => none_spelt _
theorem reserveStatus : ∀ x0, Statement (.reserveStatus x0) := fun _ => none_spelt _
theorem reserveEngage : ∀ x0, Statement (.reserveEngage x0) := fun _ => none_spelt _
theorem partFormat : ∀ x0, Statement (.partFormat x0) := fun _ => none_spelt _
theorem partCreate : ∀ x0, Statement (.partCreate x0) := fun _ => none_spelt _
theorem partDelete : ∀ x0, Statement (.partDelete x0) := fun _ => none_spelt _
theorem partPolicy : ∀ x0, Statement (.partPolicy x0) := fun _ => none_spelt _
theorem partRekey : ∀ x0, Statement (.partRekey x0) := fun _ => none_spelt _
theorem partStatus : ∀ x0, Statement (.partStatus x0) := fun _ => none_spelt _
theorem vfCreate : ∀ x0, Statement (.vfCreate x0) := fun _ => none_spelt _
theorem vfDestroy : ∀ x0, Statement (.vfDestroy x0) := fun _ => none_spelt _
theorem vfReset : ∀ x0, Statement (.vfReset x0) := fun _ => none_spelt _
theorem vfFreeze : ∀ x0, Statement (.vfFreeze x0) := fun _ => none_spelt _
theorem vfThaw : ∀ x0, Statement (.vfThaw x0) := fun _ => none_spelt _
theorem vfSave : ∀ x0, Statement (.vfSave x0) := fun _ => none_spelt _
theorem vfRestore : ∀ x0, Statement (.vfRestore x0) := fun _ => none_spelt _
theorem vfStatus : ∀ x0, Statement (.vfStatus x0) := fun _ => none_spelt _
theorem laneConfig : ∀ x0, Statement (.laneConfig x0) := fun _ => none_spelt _
theorem laneStatus : ∀ x0, Statement (.laneStatus x0) := fun _ => none_spelt _
theorem depotSet : ∀ x0, Statement (.depotSet x0) := fun _ => none_spelt _
theorem depotStatus : ∀ x0, Statement (.depotStatus x0) := fun _ => none_spelt _
theorem placeStatus : ∀ x0, Statement (.placeStatus x0) := fun _ => none_spelt _
theorem keyPut : ∀ x0, Statement (.keyPut x0) := fun _ => none_spelt _
theorem keyGet : ∀ x0, Statement (.keyGet x0) := fun _ => none_spelt _
theorem keyList : ∀ x0, Statement (.keyList x0) := fun _ => none_spelt _
theorem keyGenerate : ∀ x0, Statement (.keyGenerate x0) := fun _ => none_spelt _
theorem keyDelete : ∀ x0, Statement (.keyDelete x0) := fun _ => none_spelt _
theorem keySetattr : ∀ x0, Statement (.keySetattr x0) := fun _ => none_spelt _
theorem keyImport : ∀ x0, Statement (.keyImport x0) := fun _ => none_spelt _
theorem keyExport : ∀ x0, Statement (.keyExport x0) := fun _ => none_spelt _
theorem keyCarryOpen : ∀ x0, Statement (.keyCarryOpen x0) := fun _ => none_spelt _
theorem keyCarryRead : ∀ x0, Statement (.keyCarryRead x0) := fun _ => none_spelt _
theorem caddyStatus : ∀ x0, Statement (.caddyStatus x0) := fun _ => none_spelt _
theorem itinLoad : ∀ x0, Statement (.itinLoad x0) := fun _ => none_spelt _
theorem itinUnload : ∀ x0, Statement (.itinUnload x0) := fun _ => none_spelt _
theorem itinList : ∀ x0, Statement (.itinList x0) := fun _ => none_spelt _
theorem itinSignerAdd : ∀ x0, Statement (.itinSignerAdd x0) := fun _ => none_spelt _
theorem itinSignerRemove : ∀ x0, Statement (.itinSignerRemove x0) := fun _ => none_spelt _
theorem vaultFormat : ∀ x0, Statement (.vaultFormat x0) := fun _ => none_spelt _
theorem vaultAlloc : ∀ x0, Statement (.vaultAlloc x0) := fun _ => none_spelt _
theorem vaultFree : ∀ x0, Statement (.vaultFree x0) := fun _ => none_spelt _
theorem vaultAttach : ∀ x0, Statement (.vaultAttach x0) := fun _ => none_spelt _
theorem vaultVersion : ∀ x0, Statement (.vaultVersion x0) := fun _ => none_spelt _
theorem vaultRecover : ∀ x0, Statement (.vaultRecover x0) := fun _ => none_spelt _
theorem vaultStatus : ∀ x0, Statement (.vaultStatus x0) := fun _ => none_spelt _
theorem journalQuery : ∀ x0, Statement (.journalQuery x0) := fun _ => none_spelt _
theorem journalStatus : ∀ x0, Statement (.journalStatus x0) := fun _ => none_spelt _
theorem freriConfig : ∀ x0, Statement (.freriConfig x0) := fun _ => none_spelt _
theorem freriSessionOpen : ∀ x0, Statement (.freriSessionOpen x0) := fun _ => none_spelt _
theorem freriSessionClose : ∀ x0, Statement (.freriSessionClose x0) := fun _ => none_spelt _
theorem freriStatus : ∀ x0, Statement (.freriStatus x0) := fun _ => none_spelt _
theorem timeStatus : ∀ x0, Statement (.timeStatus x0) := fun _ => none_spelt _
theorem timeConfig : ∀ x0, Statement (.timeConfig x0) := fun _ => none_spelt _
theorem entropyStatus : ∀ x0, Statement (.entropyStatus x0) := fun _ => none_spelt _
theorem entropyConfig : ∀ x0, Statement (.entropyConfig x0) := fun _ => none_spelt _
theorem entropyKat : ∀ x0, Statement (.entropyKat x0) := fun _ => none_spelt _
theorem ceremonyBegin : ∀ x0, Statement (.ceremonyBegin x0) := fun _ => none_spelt _
theorem ceremonyStatus : ∀ x0, Statement (.ceremonyStatus x0) := fun _ => none_spelt _
theorem ceremonyAbort : ∀ x0, Statement (.ceremonyAbort x0) := fun _ => none_spelt _
theorem ceremonyOmk : ∀ x0, Statement (.ceremonyOmk x0) := fun _ => none_spelt _
theorem fwStatus : ∀ x0, Statement (.fwStatus x0) := fun _ => none_spelt _
theorem fwStage : ∀ x0, Statement (.fwStage x0) := fun _ => none_spelt _
theorem fwActivate : ∀ x0, Statement (.fwActivate x0) := fun _ => none_spelt _
theorem fwRewrapDone : Statement .fwRewrapDone := none_spelt _
theorem rekeyRewrapDone : ∀ x0, Statement (.rekeyRewrapDone x0) := fun _ => none_spelt _
theorem authorisationVoid : Statement .authorisationVoid := none_spelt _
theorem sync : ∀ x0, Statement (.sync x0) := fun _ => none_spelt _
theorem followUp : ∀ x0, Statement (.followUp x0) := fun _ => none_spelt _
theorem announce : ∀ x0, Statement (.announce x0) := fun _ => none_spelt _
theorem delayResp : ∀ x0, Statement (.delayResp x0) := fun _ => none_spelt _
theorem pdelayReq : ∀ x0, Statement (.pdelayReq x0) := fun _ => none_spelt _
theorem pdelayResp : ∀ x0, Statement (.pdelayResp x0) := fun _ => none_spelt _
theorem delayReqSend : Statement .delayReqSend := none_spelt _
theorem pdelayReqSend : Statement .pdelayReqSend := none_spelt _
theorem announceReceiptTimeout : Statement .announceReceiptTimeout := none_spelt _
theorem syncLossTimeout : Statement .syncLossTimeout := none_spelt _
theorem holdoverEstimateExceeded : Statement .holdoverEstimateExceeded := none_spelt _
theorem ref10mLost : Statement .ref10mLost := none_spelt _
theorem ppsInEdge : Statement .ppsInEdge := none_spelt _
theorem ppsInMissed : Statement .ppsInMissed := none_spelt _
theorem milepostSecond : Statement .milepostSecond := none_spelt _
theorem ppsOutFall : Statement .ppsOutFall := none_spelt _
theorem timingLinkDown : Statement .timingLinkDown := none_spelt _
theorem cellStabilised : ∀ x0, Statement (.cellStabilised x0) := fun _ => none_spelt _
theorem noiseWindowEnd : ∀ x0 x1, Statement (.noiseWindowEnd x0 x1) := fun _ _ => none_spelt _
theorem fillTimeExceeded : ∀ x0, Statement (.fillTimeExceeded x0) := fun _ => none_spelt _
theorem kettleDraw : Statement .kettleDraw := none_spelt _
theorem drbgGenerate : ∀ x0, Statement (.drbgGenerate x0) := fun _ => none_spelt _
theorem reseedRequested : ∀ x0, Statement (.reseedRequested x0) := fun _ => none_spelt _
theorem reseedRequired : ∀ x0, Statement (.reseedRequired x0) := fun _ => none_spelt _
theorem seedWait : ∀ x0, Statement (.seedWait x0) := fun _ => none_spelt _
theorem katDone : ∀ x0 x1 x2, Statement (.katDone x0 x1 x2) := fun _ _ _ => none_spelt _
theorem cardInserted : ∀ x0, Statement (.cardInserted x0) := fun _ => none_spelt _
theorem cardRemoved : ∀ x0, Statement (.cardRemoved x0) := fun _ => none_spelt _
theorem atr : ∀ x0 x1, Statement (.atr x0 x1) := fun _ _ => none_spelt _
theorem atrTimeout : ∀ x0, Statement (.atrTimeout x0) := fun _ => none_spelt _
theorem classBReactivate : ∀ x0, Statement (.classBReactivate x0) := fun _ => none_spelt _
theorem ppsResponse : ∀ x0 x1, Statement (.ppsResponse x0 x1) := fun _ _ => none_spelt _
theorem t1Block : ∀ x0 x1, Statement (.t1Block x0 x1) := fun _ _ => none_spelt _
theorem blockWaitingTimeout : ∀ x0, Statement (.blockWaitingTimeout x0) := fun _ => none_spelt _
theorem wtxCeiling : ∀ x0, Statement (.wtxCeiling x0) := fun _ => none_spelt _
theorem cardInactivity : ∀ x0, Statement (.cardInactivity x0) := fun _ => none_spelt _
theorem ceremonyTimeout : Statement .ceremonyTimeout := none_spelt _
theorem sourceSample : ∀ x0, Statement (.sourceSample x0) := fun _ => none_spelt _
theorem continuousInterval : ∀ x0, Statement (.continuousInterval x0) := fun _ => none_spelt _
theorem tamperResponseDone : Statement .tamperResponseDone := none_spelt _
theorem shadowCheck : Statement .shadowCheck := none_spelt _
theorem backupShadowMismatch : Statement .backupShadowMismatch := none_spelt _
theorem faultArrival : ∀ x0 x1 x2 x3, Statement (.faultArrival x0 x1 x2 x3) := fun _ _ _ _ => none_spelt _
theorem class3Squash : Statement .class3Squash := none_spelt _
theorem faultHandling : Statement .faultHandling := none_spelt _
theorem gateLatchClear : ∀ x0, Statement (.gateLatchClear x0) := fun _ => none_spelt _
theorem aliveOutToggle : Statement .aliveOutToggle := none_spelt _
theorem peerAliveInEdge : Statement .peerAliveInEdge := none_spelt _
theorem peerAliveLost : Statement .peerAliveLost := none_spelt _
theorem recorderSample : ∀ x0 x1, Statement (.recorderSample x0 x1) := fun _ _ => none_spelt _
theorem recorderFlush : Statement .recorderFlush := none_spelt _
theorem recorderFlushDone : Statement .recorderFlushDone := none_spelt _
theorem recorderPeriodicFlush : Statement .recorderPeriodicFlush := none_spelt _
theorem operatingHoursTick : Statement .operatingHoursTick := none_spelt _
theorem holderRenewal : Statement .holderRenewal := none_spelt _
theorem refereeClaim : ∀ x0, Statement (.refereeClaim x0) := fun _ => none_spelt _
theorem claimLapse : Statement .claimLapse := none_spelt _
theorem lockstepMismatch : Statement .lockstepMismatch := none_spelt _
theorem failoverGrant : Statement .failoverGrant := none_spelt _
theorem stewardSelftestDone : ∀ x0 x1, Statement (.stewardSelftestDone x0 x1) := fun _ _ => none_spelt _
theorem gateEpochFlip : ∀ x0 x1, Statement (.gateEpochFlip x0 x1) := fun _ _ => none_spelt _
theorem gateDrainDone : ∀ x0, Statement (.gateDrainDone x0) := fun _ => none_spelt _
theorem gateDrainOverdue : ∀ x0, Statement (.gateDrainOverdue x0) := fun _ => none_spelt _
theorem innerHoldOverdue : ∀ x0, Statement (.innerHoldOverdue x0) := fun _ => none_spelt _
theorem holdRelease : ∀ x0, Statement (.holdRelease x0) := fun _ => none_spelt _
theorem forcedStop : ∀ x0, Statement (.forcedStop x0) := fun _ => none_spelt _
theorem shareStorePropagated : ∀ x0, Statement (.shareStorePropagated x0) := fun _ => none_spelt _
theorem porstNAssert : Statement .porstNAssert := none_spelt _
theorem porstNRelease : Statement .porstNRelease := none_spelt _
theorem railBelowThreshold : ∀ x0, Statement (.railBelowThreshold x0) := fun _ => none_spelt _
theorem startupStepDone : ∀ x0, Statement (.startupStepDone x0) := fun _ => none_spelt _
theorem governorTick : ∀ x0, Statement (.governorTick x0) := fun _ => none_spelt _
theorem loopAdjust : ∀ x0 x1 x2 x3, Statement (.loopAdjust x0 x1 x2 x3) := fun _ _ _ _ => none_spelt _
theorem marginLow1s : ∀ x0, Statement (.marginLow1s x0) := fun _ => none_spelt _
theorem correctedRateHigh : ∀ x0, Statement (.correctedRateHigh x0) := fun _ => none_spelt _
theorem selftestDue : ∀ x0, Statement (.selftestDue x0) := fun _ => none_spelt _
theorem selftestDone : ∀ x0 x1, Statement (.selftestDone x0 x1) := fun _ _ => none_spelt _
theorem quiesceDone : ∀ x0, Statement (.quiesceDone x0) := fun _ => none_spelt _
theorem reserveEngaged : ∀ x0, Statement (.reserveEngaged x0) := fun _ => none_spelt _
theorem dramPageRemap : ∀ x0, Statement (.dramPageRemap x0) := fun _ => none_spelt _
theorem dramUncorrectable : ∀ x0 x1, Statement (.dramUncorrectable x0 x1) := fun _ _ => none_spelt _
theorem caddyIntegrity : ∀ x0, Statement (.caddyIntegrity x0) := fun _ => none_spelt _
theorem sramCorrected : ∀ x0 x1, Statement (.sramCorrected x0 x1) := fun _ _ => none_spelt _
theorem degradedVputTimeout : ∀ x0, Statement (.degradedVputTimeout x0) := fun _ => none_spelt _
theorem ppsResponseTimeout : ∀ x0, Statement (.ppsResponseTimeout x0) := fun _ => none_spelt _
theorem dramCorrected : ∀ x0 x1, Statement (.dramCorrected x0 x1) := fun _ _ => none_spelt _
theorem mramCorrected : ∀ x0, Statement (.mramCorrected x0) := fun _ => none_spelt _
theorem dmaFault : ∀ x0 x1, Statement (.dmaFault x0 x1) := fun _ _ => none_spelt _
theorem freriRefclkPresent : ∀ x0, Statement (.freriRefclkPresent x0) := fun _ => none_spelt _
theorem dbgUnlock : ∀ x0, Statement (.dbgUnlock x0) := fun _ => none_spelt _
theorem vendorTestMode : ∀ x0, Statement (.vendorTestMode x0) := fun _ => none_spelt _
theorem lcTransitionDone : Statement .lcTransitionDone := none_spelt _
theorem granuleZeroingDone : ∀ x0, Statement (.granuleZeroingDone x0) := fun _ => none_spelt _

end Sys2Proof.Laws.Spelling
end

