-- ==== Sys2Proof/Laws/Seats.lean ====
section
/-! SUPPORT. What running an instruction in a seat does, said once: the fetch of the next instruction, and how the answer of an
instruction becomes a next state. Statements about single instructions cite these lemmas instead of unfolding `runTe`. -/

namespace Sys2Proof.Machine

/-- A seat that runs issues. -/
theorem Runs.issues {s : State} {u : SeatRef} (h : Runs s u) : (s.seat u).issues = true := by
  simp [Seat.issues, h.2.1, h.2.2]

/-- Running an instruction in a seat that runs. -/
theorem runTe_of_runs {s : State} {u : SeatRef} (h : Runs s u) (f : State → Seat → TeRes) :
    runTe u s f = .next (finishTe u (f s (s.seat u))) := by
  simp [runTe, checked, h.1, h.issues]

/-- Running an instruction other than SYS in a seat that runs. -/
theorem runPlain_of_runs {s : State} {u : SeatRef} (h : Runs s u) (f : State → Seat → TeRes) :
    runPlain u s f = .next (finishTe u (f s (s.seat u).plain)) := by
  unfold runPlain; rw [runTe_of_runs h]; rfl

/-- Running a vendor-only instruction in the vendor world. -/
theorem runVendor_of_runs {s : State} {u : SeatRef} (h : Runs s u) (hv : (s.seat u).world = .vendor) (f : State → Seat → TeRes) :
    runVendor u s f = .next (finishTe u (f s (s.seat u).plain)) := by
  unfold runVendor; rw [runPlain_of_runs h]; simp [Seat.plain, hv]

/-- The fetch of the next instruction: the seat takes the new pc, runs on or waits for the line, and nothing else changes. -/
theorem fetch_ran (u : SeatRef) (s1 : State) (x : Seat) (last : Nat) (pc : BitVec 32) (cost : Nat) (hu : u.ok = true)
    (hx : x.phase = .running) : Ran u s1 x pc cost (s1.fetch u (x.charge cost) last pc) := by
  unfold State.fetch
  split
  · refine ⟨rfl, fun v hv hne => ?_, .inl ?_, ?_⟩
    · exact State.seat_setSeat_ne _ _ hu hv (Ne.symm hne)
    · simp [Seat.charge, hx]
    · simp [Seat.charge]
  · refine ⟨rfl, fun v hv hne => ?_, ?_, ?_⟩
    · rw [State.seat_setSeat_ne _ _ hu hv (Ne.symm hne)]; simp
    · simp only [State.seat_setSeat]; split <;> simp
    · simp [Seat.charge]

/-- An instruction that goes on at the next pc. -/
theorem finishTe_next (u : SeatRef) (s1 : State) (x : Seat) (cost : Nat) (hu : u.ok = true) (hx : x.phase = .running) :
    Ran u s1 x (x.pc + 4) cost (finishTe u (.next s1 x cost)) := fetch_ran u s1 x _ (x.pc + 4) cost hu hx

/-- An instruction that goes on elsewhere. -/
theorem finishTe_jump (u : SeatRef) (s1 : State) (x : Seat) (pc : BitVec 32) (cost : Nat) (hu : u.ok = true) (hx : x.phase = .running) :
    Ran u s1 x pc (cost + lineCost ((s1.seat u).line (s1.seat u).pc) (x.line pc)) (finishTe u (.jump s1 x pc cost)) :=
  fetch_ran u s1 x _ pc _ hu hx

/-- What an instruction other than SYS completes with when it goes on at the next pc. -/
theorem completes_next {c : Instr} {s s1 : State} {u : SeatRef} {x : Seat} {cost : Nat} {f : State → Seat → TeRes} (h : Runs s u)
    (he : exec c s = runPlain u s f) (hf : f s (s.seat u).plain = .next s1 x cost) (hx : x.phase = .running) :
    Completes c s (Ran u s1 x (x.pc + 4) cost) := by
  refine ⟨_, ?_, finishTe_next u s1 x cost h.1 hx⟩
  rw [he, runPlain_of_runs h, hf]

/-- What an instruction other than SYS completes with when it goes on elsewhere. -/
theorem completes_jump {c : Instr} {s s1 : State} {u : SeatRef} {x : Seat} {pc : BitVec 32} {cost : Nat} {f : State → Seat → TeRes}
    (h : Runs s u) (he : exec c s = runPlain u s f) (hf : f s (s.seat u).plain = .jump s1 x pc cost) (hx : x.phase = .running) :
    Completes c s (Ran u s1 x pc (cost + lineCost ((s1.seat u).line (s1.seat u).pc) (x.line pc))) := by
  refine ⟨_, ?_, finishTe_jump u s1 x pc cost h.1 hx⟩
  rw [he, runPlain_of_runs h, hf]

/-- What an instruction of Except form completes with. -/
theorem completes_ex {c : Instr} {s s1 : State} {u : SeatRef} {x : Seat} {cost : Nat}
    {f : State → Seat → Except Byte (State × Seat × Nat)} (h : Runs s u) (he : exec c s = runEx u s f)
    (hf : f s (s.seat u).plain = .ok (s1, x, cost)) (hx : x.phase = .running) : Completes c s (Ran u s1 x (x.pc + 4) cost) := by
  refine completes_next h he ?_ hx
  simp [hf]

/-! ## Registers -/

/-- g0 reads zero. -/
@[simp] theorem Seat.reg_zero (x : Seat) : x.reg 0 = 0 := rfl

/-- A write of g0 does nothing. -/
@[simp] theorem Seat.setReg_zero (x : Seat) (v : Word) : x.setReg 0 v = x := rfl

/-- What a register reads after a write. -/
theorem Seat.reg_setReg (x : Seat) (i j : Fin 32) (v : Word) : (x.setReg i v).reg j = if j = i ∧ i ≠ 0 then v else x.reg j := by
  unfold Seat.setReg
  split
  · next h => subst h; simp
  · next h0 =>
    split
    · next h =>
      subst h
      by_cases hj : j = 31
      · subst hj; by_cases hw : x.world = .vendor <;> simp [Seat.reg, hw]
      · by_cases hw : x.world = .vendor <;> simp [Seat.reg, hw, hj]
    · next h31 =>
      by_cases hj : j = i
      · subst hj; simp [Seat.reg, h0, h31]
      · by_cases h0j : j = 0
        · subst h0j; simp; intro h; exact absurd h.symm (by simpa using h0)
        · simp only [Seat.reg, if_neg h0j]
          split
          · simp [hj]
          · have : i.val ≠ j.val := fun e => hj (Fin.ext e.symm)
            simp [hj, Vector.getElem_set_ne _ _ this]

/-- A register write leaves everything but the registers. -/
theorem Seat.setReg_eq (x : Seat) (i : Fin 32) (v : Word) :
    x.setReg i v = { x with g := (x.setReg i v).g, sp := (x.setReg i v).sp, vsp := (x.setReg i v).vsp } := by
  unfold Seat.setReg; split
  · rfl
  · split
    · split <;> rfl
    · rfl

@[simp] theorem Seat.setReg_phase (x : Seat) (i : Fin 32) (v : Word) : (x.setReg i v).phase = x.phase := by rw [Seat.setReg_eq]
@[simp] theorem Seat.setReg_pc (x : Seat) (i : Fin 32) (v : Word) : (x.setReg i v).pc = x.pc := by rw [Seat.setReg_eq]
@[simp] theorem Seat.setReg_cycles (x : Seat) (i : Fin 32) (v : Word) : (x.setReg i v).cycles = x.cycles := by rw [Seat.setReg_eq]
@[simp] theorem Seat.setReg_codeBase (x : Seat) (i : Fin 32) (v : Word) : (x.setReg i v).codeBase = x.codeBase := by rw [Seat.setReg_eq]
@[simp] theorem Seat.setReg_world (x : Seat) (i : Fin 32) (v : Word) : (x.setReg i v).world = x.world := by rw [Seat.setReg_eq]
@[simp] theorem Seat.setBlk_phase (x : Seat) (i : Fin 8) (v : Block) : (x.setBlk i v).phase = x.phase := rfl
@[simp] theorem Seat.setBlk_pc (x : Seat) (i : Fin 8) (v : Block) : (x.setBlk i v).pc = x.pc := rfl
@[simp] theorem Seat.plain_phase (x : Seat) : x.plain.phase = x.phase := rfl
@[simp] theorem Seat.plain_pc (x : Seat) : x.plain.pc = x.pc := rfl
@[simp] theorem Seat.plain_world (x : Seat) : x.plain.world = x.world := rfl
@[simp] theorem Seat.plain_codeBase (x : Seat) : x.plain.codeBase = x.codeBase := rfl
@[simp] theorem Seat.plain_line (x : Seat) (pc : BitVec 32) : x.plain.line pc = x.line pc := rfl
@[simp] theorem Seat.charge_line (x : Seat) (n : Nat) (pc : BitVec 32) : (x.charge n).line pc = x.line pc := rfl
@[simp] theorem Seat.plain_reg (x : Seat) (i : Fin 32) : x.plain.reg i = x.reg i := rfl

/-- What a block register reads after a write. -/
theorem Seat.blk_setBlk (x : Seat) (i j : Fin 8) (v : Block) : (x.setBlk i v).blk j = if j = i then v else x.blk j := by
  unfold Seat.blk Seat.setBlk
  by_cases h : j = i
  · subst h; simp
  · have : i.val ≠ j.val := fun e => h (Fin.ext e.symm)
    simp [h, Vector.getElem_set_ne _ _ this]

end Sys2Proof.Machine
end

