-- ==== Sys2Proof/Machine/Pins.lean ====
section
/-! DEFINITION. Which clock domains run, and what the outward balls show, in a state (R502, R533). -/

namespace Sys2Proof.Machine

/-! ## Clock domains (Table 18.3) -/

/-- The clock domains. -/
inductive ClockDomain where
  | cluster (c : Nat)
  | fabric (q : Nat)
  | hub
  | steward
  | lpddr6 (stack : Nat)
  | freriTx (p : Nat)
  | freriRx (p : Nat)
  | pcie
  | milepost
  | timingPort
  | card (n : Nat)
  | alwaysOn
  | tamper
  | otpMram
  | debug
  | peripheral
  deriving DecidableEq, Repr

/-- The domains of the device: 60 of them. -/
def clockDomains : List ClockDomain :=
  (List.range 36).map .cluster ++ (List.range 4).map .fabric ++ [.hub, .steward] ++ (List.range 4).map .lpddr6 ++
  [.freriTx 0, .freriRx 0, .freriTx 1, .freriRx 1, .pcie, .milepost, .timingPort, .card 0, .card 1, .alwaysOn, .tamper, .otpMram, .debug,
    .peripheral]

/-- The frequency of a domain in Hz; a clock that comes from outside at its own rate is given by its bound. -/
def State.clockHz (s : State) (d : ClockDomain) : Nat :=
  match d with
  | .cluster c => (s.cluster c).clockMHz * 1000000
  | .fabric _ => 1000000000
  | .hub => 1000000000
  | .steward => 1500000000
  | .lpddr6 _ => 1333400000
  | .freriTx _ => 1328125000
  | .freriRx _ => 1328125000
  | .pcie => 1000000000
  | .milepost => 1000000000
  | .timingPort => 125000000
  | .card _ => 100000000 / s.cards.divisor
  | .alwaysOn => 32000000
  | .tamper => 32768
  | .otpMram => 200000000
  | .debug => 50000000
  | .peripheral => 200000000

/-- Whether a card slot is active: a card is supplied (R427, R428). -/
def State.slotActive (s : State) (n : Nat) : Bool :=
  match (s.card n).phase with
  | .off => false
  | .present => false
  | .awaitB => false
  | .refused => false
  | _ => true

/-- Whether the device is in deep standby. -/
def State.inStandby (s : State) : Bool := s.power.standby == .entered

/-- Whether start-up has selected a Steward pair. -/
def State.stewardClocked (s : State) : Bool := !s.power.porst && (s.steward.north == .holder || s.steward.south == .holder)

/-- Whether LPDDR6 is in self-refresh: in deep standby, and from a warm reset or an exit until step 5 (R504, R507). -/
def State.selfRefresh (s : State) : Bool :=
  s.inStandby || ((s.power.kind == .warm || s.power.kind == .exit) &&
    (s.power.step == .s2 || s.power.step == .s3 || s.power.step == .s4 || s.power.step == .s4a || s.power.step == .s5))

/-- Whether a domain's clock runs. A row is one instant, so no access, transfer or TCK burst lasts from one row to the next. -/
def State.clockRuns (s : State) (d : ClockDomain) : Bool :=
  match d with
  | .cluster c => (s.cluster c).power == .awake
  | .fabric q => (List.range 9).any (fun m => (s.cluster (9 * q + m)).power == .awake) ||
      s.depot.packages.any fun g => g.source / 9 == q || g.target / 9 == q
  | .hub => !s.inStandby
  | .steward => s.stewardClocked && !s.inStandby
  | .lpddr6 _ => !s.selfRefresh
  | .freriTx p => (s.port p).link != .down
  | .freriRx p => (s.port p).link != .down
  | .pcie => !s.power.porst
  | .milepost => !s.power.vinOff
  | .timingPort => s.time.running
  | .card n => s.slotActive n
  | .alwaysOn => !s.power.vaonOff
  | .tamper => s.tamper.powered
  | .otpMram => false
  | .debug => false
  | .peripheral => false

/-! ## Balls (Table 19.9) -/

/-- The outward balls. -/
inductive Ball where
  | freriTx (p : Nat)
  | pcieTx
  | timingTx
  | aliveOut
  | ppsOut
  | cardVcc (n : Nat)
  | cardVccEn (n : Nat)
  | xspiCs
  | xspiReset
  | tampDrv (n : Nat)
  | tdo
  deriving DecidableEq, Repr

/-- What a ball shows. -/
inductive Level where
  | undriven
  | electricalIdle
  | silent
  | active
  | low
  | high
  deriving DecidableEq, Repr

/-- A driven level. -/
def levelOf (b : Bool) : Level := if b then .high else .low

/-- Whether the device has no supply but VBAT. -/
def State.unpowered (s : State) : Bool := s.power.vinOff && s.power.vaonOff

/-- The state of a ball. TDO shifts only under TCK. -/
def State.ball (s : State) (b : Ball) : Level :=
  match b with
  | .freriTx p => if s.unpowered then .undriven else if s.power.porst || (s.port p).link == .down then .electricalIdle else .active
  | .pcieTx => if s.unpowered then .undriven else if s.power.porst then .electricalIdle else .active
  | .timingTx => if s.unpowered then .undriven else if s.time.running then .active else .silent
  | .aliveOut => if s.unpowered || s.power.porst then .undriven else levelOf s.faults.aliveOut
  | .ppsOut => if s.unpowered || s.power.porst then .undriven else levelOf s.time.ppsOut
  | .cardVcc n => if s.slotActive n && !(s.card n).classB then .active else .low
  | .cardVccEn n => if s.unpowered then .undriven else levelOf (s.slotActive n && (s.card n).classB)
  | .xspiCs => if s.unpowered then .undriven else .high
  | .xspiReset => if s.unpowered then .undriven else levelOf (!s.power.porst && !s.inStandby)
  | .tampDrv _ => if s.tamper.powered then .active else .undriven
  | .tdo => .undriven

end Sys2Proof.Machine
end

