-- ==== Sys2Proof/Tests/Slice0.lean ====
section
/-! SUPPORT. The model's own tests: that every kind of unit a command can name is checked, examples of the spec and of the published
standards it names, and, for every statement with hypotheses, states and operands that meet them (`witness_<part>`). -/

set_option Elab.async false
set_option maxRecDepth 4000
namespace Sys2Proof.Tests
open Sys2Proof Sys2Proof.Machine

/-- A seat. -/
def u0 : SeatRef := ⟨0, 0, 0⟩
/-- A seat that runs, in the tenant world and in the vendor world. -/
def run : Seat := { Seat.empty with phase := .running }
def vrun : Seat := { run with world := .vendor }
/-- The state after reset with that seat. -/
def here (x : Seat) : State := State.reset.setSeat u0 x
/-- A frame of a CALL and one of a GATE. -/
def callFrame : Frame := { isGate := false, world := .tenant, waymark := 0, retPc := 8 }
def gateFrame : Frame := { callFrame with isGate := true }
/-- A key that may do everything, in slot 0 to 7. -/
def aesKey : Key :=
  { attrs := { ktype := 1, colour := 0, gen := 2, libOnly := false, engine := 0x3F, derivedEngine := 0x3F, usage := 0x7FFF,
               derivedUsage := 0x7FFF, param := 0, notBefore := 0, notAfter := 0xFFFFFFFFFFFF }, material := List.replicate 16 0 }
def slot0 : Slot := { key := aesKey, vendorLoaded := false, libOnly := false, returned := false, serial := 1 }
def keyed : Seat := { run with k := Vector.replicate 8 (some slot0) }
/-- An open context of a mode, and the seat with it. -/
def ctx (m : Nat) : CipherCtx := CipherCtx.opened m 0 slot0
def withCtx (c : CipherCtx) : Seat := { keyed with cctx := some c }
/-- Digest contexts: open for `n` bytes, finished, compared. -/
def dig (n : Nat) : DigestCtx := DigestCtx.opened 2 (BitVec.ofNat 64 n) false
def digDone : DigestCtx := { dig 0 with digest := some (List.replicate 48 7) }
def withDig (c : DigestCtx) : Seat := { run with dctx := some c }
/-- A state with bytes in a seat's scratch. -/
def holds (x : Seat) (b : Bytes) : State := (here x).store (scratchBase u0) b
/-- A caddy entry of a handle of colour 0. -/
def entry (lib : Bool) : CaddyEntry :=
  { handle := 5, slots := [8192], lastUse := 0, key := { aesKey with attrs := { aesKey.attrs with libOnly := lib } } }
def cached (x : Seat) (lib : Bool) : State := { here (x.setReg 2 5) with keys := { Keys.reset with caddy := [entry lib] } }

/-- An open intent, and a vendor seat with it. -/
def intent (kind : BitVec 11) (obj : Word) : Intent := { kind := kind, obj := obj, before := 0, issued := false, left := 0 }
def intending (kind : BitVec 11) (obj : Word) : Seat := { vrun with intent := some (intent kind obj) }
/-- A vendor seat inside a GATE frame. -/
def gated (w : World) : Seat := { vrun with stack := [{ gateFrame with world := w }] }
/-- A cluster that is awake and in service, as it stands in the state. -/
def awake : Cluster := { Cluster.delivered 0 with state := .inService, power := .awake }
def withCluster (x : Cluster) : State := State.reset.setCluster 0 x
/-- An OPEN lane of colour 1 placed on cluster 0. -/
def lane1 : Lane := { Lane.free with colour := 1, state := .opened, placement := [0] }
/-- A descriptor and an item of lane 5, and a state that holds it. -/
def desc1 (id : BitVec 32) (known : Bool) : Desc :=
  { Desc.none with ticket := 9, colour := 1, lane := 5, id := id, len := 8, known := known }
def item1 (d : Desc) (p : Place) : Item :=
  { desc := d, payload := List.replicate 8 0xAB, stream := .none, cells := [], units := 2, place := p, since := 0, suspended := .none,
    migrated := false }
def queued (d : Desc) (p : Place) (l : Lane) : State :=
  { ((withCluster awake).setLane 5 l) with depot := { Depot.reset with items := [item1 d p] } }
def image1 : Image :=
  { id := 0x1000, colour := 1, shared := false, version := 1, granule := 7, entry := 64, codeOff := 64, codeLen := 256, constOff := 0,
    constLen := 0, stack := 0x3000, steps := 1, classes := 0, waymarks := [] }
def withImage (s : State) : State := { s with tenancy := { s.tenancy with images := [image1] } }
def withImages (s : State) (x : Image) : State := { s with tenancy := { s.tenancy with images := [x] } }
/-- Every gate allows colour 1 everything. -/
def allowing (s : State) : State :=
  s.setGate 0 { Gate.blank with bankA := [{ start := 0, stop := 2 ^ 40, mode := .fixed, colour := 1, rd := true, wr := true, vw := false, privOnly := false, inner := false, enable := true }] }
/-- A vault wait answered with a status. -/
def reply3 : VaultReply := { status := 3, version := 0, plain := .none }
def wait3 : VaultWait := { isPut := true, ga := 1, st := 2, addr := 0, rel := 0, abs := 0, reply := some reply3 }
def putOp : VaultOp := vaultOp (.seat u0) Desc.none true 1 0 [] 0
/-- An MAE job. -/
def job (id : BitVec 32) : MaeJob :=
  { desc := desc1 id true, level := 2, payload := [], keyWait := false, bracket := false, squash := false }
def onMae (j : MaeJob) : State := withCluster { awake with mae := { Mae.fresh with running := some j } }
def ownJobs (s : State) (l : List MaeJob) : State := { s with depot := { s.depot with own := l } }
/-- An engagement of cluster 1 for cluster 0. -/
def engage : Engagement := { failing := 0, reserve := 1, cause := 0, quiesced := false, cmd := .none }
def withEngagement (s : State) (e : Engagement) : State := { s with power := { s.power with engagements := [e] } }
/-- A stream of session 3 of port 0 and a state whose TE 15 of cluster 0 serves it; its lane is of colour 0. -/
def stream1 : Stream :=
  { port := 0, session := 3, id := 1, lane := 6, mode := 2, decrypt := false, tdes := false, dataUnit := 0, handle1 := 5, handle2 := 0, key1 := [],
    key2 := [], start := 0, received := 0, processed := 0, short := false, chain := 0, aux := 0, pending := [], sizes := [], output := [],
    sentOff := 0, closeReq := .none, loading := false, frozen := false, te := some (0, 15) }
def serving (x : Stream) : State :=
  { (State.reset.setTe 0 15 { Te.fresh with stream := some x.key }).setLane 6 { Lane.free with colour := 0, cls := 3, state := .opened, placement := [0] } with
    port0 := { Port.delivered with streams := [x] } }
/-- A host command of the PF with a body. -/
def cmd (b : Bytes) : Cmd := { fn := 0, via := .mailbox, tag := 1, ticket := 77, colour := 0, rspLen := 2048, rspAddr := 0, body := b }
def cmdOf (colour : Colour) (b : Bytes) : Cmd := { cmd b with colour := colour }
/-- The device in a state of Table 10.8, and READY. -/
def device (d : DevState) : State := { State.reset with power := { Power.reset with dev := d, porst := false } }
def ready : State := device .ready
/-- An authorisation for a command, 5, and the state that holds it. -/
def granted (op off : Nat) (b : Bytes) : Ceremony :=
  { id := 3, purpose := BitVec.ofNat 16 op, digest := sha384 (splice b off (List.replicate 8 0)), state := .granted, joined := [], enrolled := [],
    auth := some 5, grantedAt := 0, torn := .none }
def authed (s : State) (op off : Nat) (b : Bytes) : State := { s with cards := { s.cards with ceremony := some (granted op off b) } }
theorem authed_ok (s : State) (op off : Nat) (b : Bytes) (ho : op < 65536) (hb : fieldLE b off 8 = 5) :
    (authed s op off b).useAuth op off b = some (authed s op off b).abortCeremony := by
  simp [State.useAuth, authed, granted, hb, Nat.mod_eq_of_lt ho]
/-- A partition of colour 1. -/
def part1 : Part :=
  { policy := 0, caddyQuota := 0, keyQuota := 0, granules := [7], readOnly := [], epoch := 1, vf := 0, share := 32, vectors := 0, vaultQuota := 0,
    extent := .none, deleting := .none }
def parted (s : State) (p : Part) : State := { s with tenancy := { s.tenancy with profile := .compact, parts := [(1, p)] } }
/-- A port that is UP, and the state whose port 0 is as given. -/
def up : Port := { Port.delivered with link := .up }
def port (x : Port) : State := { State.reset with port0 := x }
/-- A session of colour 1 on VC 2. -/
def session1 : Session :=
  { colour := 1, vc := 2, itin := true, bulk := true, vault := false, weight := 1, baseKey := 0, serial := 1, key := List.replicate 32 0, sendSeq := 0,
    recvSeq := 0, closing := false, use := [] }
/-- A function with registers as given. -/
def func (s : State) (fn : Nat) (f : Func) : State := s.setFunc fn f
def ringFn : Func := { Func.default 0 with ringEnable := true, cmdLog2 := 4, cplLog2 := 4, cmdTail := 2 }
def vf1 (st : FuncState) : Func := { Func.reset with state := st, colour := 1, vectors := 1 }
def vfs (s : State) : State := { s with pcie := { s.pcie with vfEnable := true, numVfs := 8 } }
def resetting (done : Bool) : ResetRun :=
  { start := 0, drained := 1, squashed := 2, cmdsDrained := 0, cmdsSquashed := 3, streams := 0, waiting := [], squashDone := done, destroy := false }
def retry1 : RetryFrame := { seq := 1, vc := 2, bytes := [], tickets := [] }
def remap1 : Remap := { failed := 4, cause := 1, doneSeen := true, suspended := true }

/-- Two VIOLATION messages with their tags: of session 0 with number 0, and of session 1 with number 1. -/
def head0 (session : Byte) : Bytes := [0x33, 0, 0, session, 0, 48, 0, 0, 0, 0, 0, 0, 0, 0, 0, session] ++ List.replicate 16 0
def sealed0 : Bytes := head0 0 ++ [133, 149, 179, 167, 248, 107, 42, 20, 239, 145, 193, 87, 189, 81, 129, 12]
def sealed1 : Bytes := head0 1 ++ [24, 23, 220, 22, 164, 196, 160, 33, 152, 190, 199, 100, 98, 137, 156, 68]
/-- A record of the journal. -/
def mile (typ : BitVec 8) : Milestone :=
  { typ := typ, anchored := true, vendor := true, laneIdx := 0, colour := 0, seq := 0, ticket := 77, code := 2, aux := 0, valA := 5, valB := 1, lane := 0,
    secs := 0, nanos := 0 }
/-- A body of `n` zero bytes after some bytes. -/
def pad (b : Bytes) (n : Nat) : Bytes := b ++ List.replicate (n - b.length) 0
/-- READY with a partition of colour 1. -/
def partR : State := parted ready part1
def vfR (st : FuncState) : State := func partR 1 (vf1 st)
/-- A record of eight bytes of material under the device keys, both 32 zero bytes, and the key stores that hold it as the operator
master key and under handle 2. -/
def attrs1 : KeyAttrs := ⟨1, 0, 2, false, 0x3F, 0x3F, 0x7FFF, 0x3FFF, 0, 0, 0xFFFFFFFFFFFF⟩
def tin1 : Tin :=
  { attrs := attrs1, extended := false, context := 1, matLen := 8, handle := 2, version := 1,
    wrapped := [52, 165, 250, 94, 77, 203, 107, 25, 201, 232, 93, 22, 56, 208, 126, 144], tag := 178880364751641335708056208697743314050 }
def keys1 : Keys := { Keys.reset with devWrap := some 0, devBind := some 0, warm := [(1, .live tin1 []), (2, .live tin1 [])] }
def withKeys (s : State) : State := { s with keys := keys1 }
theorem tin_opens : tin1.unwrapped (natBE 32 (0 : BitVec 256).toNat) = some [1, 2, 3, 4, 5, 6, 7, 8] := by decide +kernel
set_option maxRecDepth 20000 in
theorem tin_tagged : tin1.tagOk (natBE 32 (0 : BitVec 256).toNat) = true := by decide +kernel
theorem omk_ok (s : State) (h : s.keys = { keys1 with carry := s.keys.carry }) : s.omk.isSome = true := by
  have e : s.omk = some [1, 2, 3, 4, 5, 6, 7, 8] := by
    unfold State.omk State.deviceKeys
    rw [h]
    exact (if_pos tin_tagged).trans tin_opens
  rw [e]; rfl
theorem key_ok (s : State) (h : s.keys = keys1) : s.recordKey 0 2 = some ⟨attrs1, [1, 2, 3, 4, 5, 6, 7, 8]⟩ := by
  have r : s.record 0 2 = some (tin1, []) := by
    unfold State.record
    rw [h]; rfl
  have o : s.openTin tin1 = some [1, 2, 3, 4, 5, 6, 7, 8] := by
    have k : s.openKeys tin1.context tin1.attrs.colour = [(natBE 32 (0 : BitVec 256).toNat, natBE 32 (0 : BitVec 256).toNat)] := by
      unfold State.openKeys State.tinKeys State.deviceKeys
      rw [h]; rfl
    unfold State.openTin
    rw [k]
    rw [List.findSome?_cons, if_pos tin_tagged, tin_opens]
  unfold State.recordKey
  simp only [r, Option.bind_some]
  unfold State.openRecord
  rw [o]; rfl
theorem omk_there (s : State) (h : s.keys = { keys1 with carry := s.keys.carry }) : ¬s.omk.isNone = true := by
  have := omk_ok s h
  cases e : s.omk <;> simp_all
theorem stored_one (s : State) (c : Cmd) (h : Word) (a : KeyAttrs) (m : Bytes) (ha : a.colour = 0)
    (hk : (s.cmdIntent c 2 h (s.versionOf h).toNat).keys =
      { keys1 with carry := (s.cmdIntent c 2 h (s.versionOf h).toNat).keys.carry }) :
    s.storeOne c h a m = some ((s.storeOne c h a m).getD s) := by
  rcases e : s.storeOne c h a m with _ | x
  · exfalso
    simp only [State.storeOne, State.makeRecord, Option.map_eq_none_iff, ha, State.tinKeys, State.colourKeys, fixedColour] at e
    simp [State.colourKeysFor] at e
    exact omk_there _ hk (by simp [e])
  · rfl
/-- A state whose timing port runs, and a well-formed message. -/
def clocked (t : Time) : State := { ready with time := { t with running := true } }
def ptp : PtpMsg :=
  { frameOk := true, lengthOk := true, version := 2, majorSdo := 0, domain := 0, source := 7, sequence := 1, twoStep := true, originNs := 0,
    correction := 0, requester := clockIdentity, logInterval := 0, rxNs := 0, ptpTimescale := true, dataset := 0 }
/-- A card in a phase, a cell, a source, the backup domain powered. -/
def carded (p : SlotPhase) : State := { ready with cards := { Cards.reset with slots := [(0, { CardSlot.fresh with inserted := true, phase := p })] } }
def cell1 : Cell := { Cell.delivered 0 with state := .inService, running := true, stable := true }
def celled (x : Cell) (e : Entropy) : State := { ready with entropy := { e with cells := [(0, x)] } }
def rawBits (n : Nat) : List (Bool × Bool) := (List.range 4096).map fun i => (n.testBit i, false)
def watched (t : Tamper) : State := { ready with power := { ready.power with vinOff := false }, tamper := { t with powered := true } }
def ceremony1 (p : BitVec 16) (st : CeremonyState) : Ceremony :=
  { id := 3, purpose := p, digest := [], state := st, joined := [], enrolled := [], auth := .none, grantedAt := 0, torn := .none }
/-- An image of one instruction, EMIT or a word no instruction has; a host command in flight. -/
def imageOf (w : Byte) : Bytes :=
  [0x49, 0x54, 0x4E, 0x37, 0, 1, 0, 0, 0, 0, 0, 0, 0, 1, 0, 0, 0, 0, 0, 1, 0, 0, 0, 0, 0, 0, 0, 64, 0, 0, 0, 4, 0, 0, 0, 68, 0, 0, 0, 0,
   0, 0, 0, 68, 0, 0, 0, 0, 0, 0, 0, 0, 0, 1, 0, 0, 0, 0, 0, 0, 0, 0, 0, 0, w, 0x20, 0, 0] ++ List.replicate 4736 0
def flying (s : State) (c : Cmd) : State :=
  { s with pcie := { s.pcie with inFlight := [{ opcode := 0, cmd := c, started := true, serial := false }] } }
/-- H.DRBG seeded. -/
def hubbed (s : State) : State := { s with entropy := { s.entropy with hub := { Expander.fresh with seeded := true } } }
/-- READY with changed parts. -/
def powered (f : Power → Power) : State := { ready with power := f ready.power }
def stewarded (x : Steward) : State := { ready with steward := x }
def faulty (f : Faults) : State := { ready with faults := f }
def gated1 (g : Gate) (now : Nat) : State := { ready.setGate 0 g with now := now }
def obs1 (n so i : Bool) : BootObs :=
  { northOk := n, southOk := so, imageOk := i, failed := [], slotRecord := [], newerCopyOk := true, olderCopyOk := true, sgmii := false }
def package1 : Package := { move := 1, source := 1, target := 0, unit := 0, sealed := [], seat := .none, stream := .none, mae := .none }
/-- An anchor log of open INTENTs; 3,072 fill it. -/
def intentsOpen (n : Nat) : Journal := { Journal.reset with anchors := List.replicate n (mile 4) }
def fullLog : Journal := intentsOpen 3072
theorem open_there (n : Nat) : intentOpen (mile 4) (List.replicate n (mile 4)) = true := by
  unfold intentOpen
  rw [List.any_replicate, show Milestone.closes (mile 4) (mile 4) = false from rfl, ite_self]
  rfl
theorem open_intents (n : Nat) : openIntents (List.replicate n (mile 4)) = List.replicate n (mile 4) := by
  induction n with
  | zero => rfl
  | succ n ih => rw [List.replicate_succ, openIntents, if_pos (open_there n), ih]
theorem none_closed (p : Milestone → Bool) (n : Nat) : dropClosed p (List.replicate n (mile 4)) = none := by
  induction n with
  | zero => rfl
  | succ n ih =>
    have h : anchorClosed (mile 4) (List.replicate n (mile 4)) = false := congrArg (!·) (open_there n)
    rw [List.replicate_succ, dropClosed, h, ih, Bool.and_false]
    rfl
theorem none_reclaimed (k n f : Nat) : (intentsOpen k).reclaim n f = intentsOpen k := by
  have h : (intentsOpen k).reclaimOne = intentsOpen k := by simp only [Journal.reclaimOne, intentsOpen, none_closed]
  induction f with
  | zero => rfl
  | succ f ih => rw [Journal.reclaim, h, ih, ite_self]
theorem room_left (k : Nat) : (intentsOpen k).intentRoom = decide (k + (2 + k) ≤ 6144) := by
  have e : openIntents (intentsOpen k).anchors = List.replicate k (mile 4) := open_intents k
  have l : (intentsOpen k).anchors.length = k := List.length_replicate
  unfold Journal.intentRoom Journal.makeRoom
  simp only [none_reclaimed, e, l, List.length_replicate]
  rfl
theorem log_full : fullLog.intentRoom = false := (room_left 3072).trans (by decide)
theorem none_of_ticket (k : Nat) : (intentsOpen k).recordsOf 0 78 = [] := by
  simp [Journal.recordsOf, intentsOpen, Journal.reset]
  exact fun _ _ => by decide
theorem log_unused : fullLog.ticketInUse 0 78 = false := by
  unfold Journal.ticketInUse fullLog
  rw [none_of_ticket]; rfl

/-! ## Ill-formed commands: each check refuses the first number past its range -/

theorem test_cluster_checked : (.itemDispatch 36 : Instr).wf = false ∧ (.itemDispatch 35 : Instr).wf = true := by decide +kernel

theorem test_seat_cluster_checked : (.add ⟨36, 0, 0⟩ 0 0 0 : Instr).wf = false ∧ (.add ⟨35, 15, 1⟩ 0 0 0 : Instr).wf = true := by decide +kernel

theorem test_seat_te_checked : (.add ⟨0, 16, 0⟩ 0 0 0 : Instr).wf = false ∧ (.add ⟨0, 15, 0⟩ 0 0 0 : Instr).wf = true := by decide +kernel

theorem test_seat_number_checked : (.add ⟨0, 0, 2⟩ 0 0 0 : Instr).wf = false ∧ (.add ⟨0, 0, 1⟩ 0 0 0 : Instr).wf = true := by decide +kernel

theorem test_te_checked : (.bulkSegmentEnd 0 16 : Instr).wf = false ∧ (.bulkSegmentEnd 35 15 : Instr).wf = true := by decide +kernel

theorem test_expander_checked : (.drbgGenerate 37 : Instr).wf = false ∧ (.drbgGenerate 36 : Instr).wf = true := by decide +kernel

theorem test_channel_checked : (.idleMessageReceipt 1 8 [] : Instr).wf = false ∧ (.idleMessageReceipt 1 7 [] : Instr).wf = true := by decide +kernel

theorem test_port_checked : (.ackSend 2 : Instr).wf = false ∧ (.ackSend 1 : Instr).wf = true := by decide +kernel

theorem test_lane_checked : (.laneEmpty 16384 : Instr).wf = false ∧ (.laneEmpty 16383 : Instr).wf = true := by decide +kernel

theorem test_cell_of_bank_checked : (.depotCellUncorrectable 15 4096 : Instr).wf = false ∧ (.depotCellUncorrectable 15 4095 : Instr).wf = true := by decide +kernel

theorem test_bank_checked : (.depotCellUncorrectable 16 0 : Instr).wf = false ∧ (.depotCellUncorrectable 0 0 : Instr).wf = true := by decide +kernel

theorem test_physical_lane_checked : (.cdrLockLoss 0 5 : Instr).wf = false ∧ (.cdrLockLoss 0 4 : Instr).wf = true := by decide +kernel

theorem test_session_checked : (.sessionClosed 0 4096 : Instr).wf = false ∧ (.sessionClosed 0 4095 : Instr).wf = true := by decide +kernel

theorem test_function_checked : (.flr 1024 : Instr).wf = false ∧ (.flr 1023 : Instr).wf = true := by decide +kernel

theorem test_noise_cell_checked : (.cellStabilised 16 : Instr).wf = false ∧ (.cellStabilised 15 : Instr).wf = true := by decide +kernel

theorem test_card_slot_checked : (.cardRemoved 2 : Instr).wf = false ∧ (.cardRemoved 1 : Instr).wf = true := by decide +kernel

theorem test_gate_checked : (.gateDrainDone 47 : Instr).wf = false ∧ (.gateDrainDone 46 : Instr).wf = true := by decide +kernel

theorem test_rail_checked : (.railBelowThreshold 8 : Instr).wf = false ∧ (.railBelowThreshold 7 : Instr).wf = true := by decide +kernel

theorem test_dram_channel_checked : (.dramUncorrectable 16 0 : Instr).wf = false ∧ (.dramUncorrectable 15 0 : Instr).wf = true := by decide +kernel

/-- A command that names no unit of the part faults. -/
theorem test_no_such_unit : exec (.itemDispatch 36) State.reset = .fault .noSuchUnit := rfl

/-- The table gives no row bits. -/
theorem test_no_words : decodeTableWord 32 0 = none := rfl

/-! ## Examples of the spec -/

/-- R473: Q2.C7.TE13 is 0x470D, H.F0.SL2 is 0x8302, H.BACKUP is 0x800F. -/
theorem test_source_identifiers : srcTe ⟨25, 13, 0⟩ = 0x470D ∧ srcPort 0 2 = 0x8302 ∧ srcHub 0x0F = 0x800F := by decide +kernel

/-- R137: the tweak of data unit 203,266. -/
theorem test_xts_tweak : xtsTweak 203266 = 0x021A0300000000000000000000000000 := by decide +kernel

/-- R15: a colour field of 0x8014 has a reserved bit set; 0x0014 is colour 0x014. -/
theorem test_colour_field : natBE 2 (0x014 : Colour).toNat = [0x00, 0x14] ∧ natLE 4 (0x014 : Colour).toNat = [0x14, 0, 0, 0] := by decide +kernel

/-- R49: the sum is modulo 2^64. -/
theorem test_add_wraps : (match exec (.add u0 3 1 2) (here ((run.setReg 1 0xFFFFFFFFFFFFFFFF).setReg 2 2)) with
    | .next t => (t.seat u0).reg 3
    | _ => 0) = 1 := by decide +kernel

/-- Table 2.1: g0 reads zero and ignores writes. -/
theorem test_zero_register : (match exec (.addi u0 0 1 5) (here run) with
    | .next t => (t.seat u0).reg 0
    | _ => 1) = 0 := by decide +kernel

/-! ## Published vectors -/

/-- FIPS 197, appendix C.1. -/
theorem test_aes128 : aesEnc ((List.range 16).map (BitVec.ofNat 8)) 0x00112233445566778899AABBCCDDEEFF =
    0x69C4E0D86A7B0430D8CDB78070B4C55A := by decide +kernel

/-- FIPS 180-4 examples: SHA-384 of "abc". -/
theorem test_sha384 : beNat (sha384 (ascii "abc")) =
    0xCB00753F45A35E8BB5A03D699AC65007272C32AB0EDED1631A8B605A43FF5BED8086072BA1E7CC2358BAECA134C825A7 := by decide +kernel

/-! ## Witnesses -/

theorem witness_StepRunsFront : ∃ s : State, s.pending = [] :=
  ⟨State.reset, by decide +kernel⟩

theorem witness_CommandsOfThePart :
    (∃ c : Instr, c.wf = true) ∧
    (∃ c : Instr, c.wf = false) :=
  ⟨⟨.go 0 1, by decide +kernel⟩,
   ⟨.go 5000 1, by decide +kernel⟩⟩

theorem witness_QueueUntouched : ∃ s : State, ∃ t : State, step s = .next t :=
  ⟨State.reset, _, by exact rfl⟩

theorem witness_ResetState :
    (∃ p, p < 2) ∧
    (∃ n, n ≤ 10) :=
  ⟨⟨1, by decide +kernel⟩,
   ⟨10, by decide +kernel⟩⟩

theorem witness_CanonicalKept : ∃ s : State, ∃ t : State, Canonical s ∧ step s = .next t :=
  ⟨State.reset, _, by exact ⟨by unfold Canonical; decide +kernel, rfl⟩⟩

theorem witness_FramesOfCommands : ∃ c : Instr, ∃ s : State, ∃ t : State, exec c s = .next t :=
  ⟨.shadowCheck, State.reset, _, by exact rfl⟩

theorem witness_RegisterFile :
    (∃ x : Seat, x.world = .vendor) ∧
    (∃ x : Seat, x.world = .tenant) :=
  ⟨⟨vrun, by decide +kernel⟩,
   ⟨run, by decide +kernel⟩⟩

theorem witness_IntegerResults : ∃ s : State, ∃ u : SeatRef, Runs s u :=
  ⟨here run, u0, by unfold Runs; decide +kernel⟩

theorem witness_ImmediateResults :
    (∃ s : State, ∃ u : SeatRef, ∃ imm : BitVec 16, Runs s u ∧ imm.toNat < 64) ∧
    (∃ s : State, ∃ u : SeatRef, ∃ imm : BitVec 16, Runs s u ∧ 64 ≤ imm.toNat ∧ imm.toNat < 128) ∧
    (∃ s : State, ∃ u : SeatRef, ∃ imm : BitVec 16, Runs s u ∧ 128 ≤ imm.toNat ∧ imm.toNat < 192) ∧
    (∃ s : State, ∃ u : SeatRef, ∃ imm : BitVec 16, Runs s u ∧ 192 ≤ imm.toNat ∧ imm.toNat < 256) ∧
    (∃ s : State, ∃ u : SeatRef, ∃ imm : BitVec 16, Runs s u ∧ 256 ≤ imm.toNat) :=
  ⟨⟨here run, u0, 63, by unfold Runs; decide +kernel⟩,
   ⟨here run, u0, 127, by unfold Runs; decide +kernel⟩,
   ⟨here run, u0, 191, by unfold Runs; decide +kernel⟩,
   ⟨here run, u0, 255, by unfold Runs; decide +kernel⟩,
   ⟨here run, u0, 256, by unfold Runs; decide +kernel⟩⟩

theorem witness_SystemValues :
    (∃ s : State, ∃ u : SeatRef, let x := s.seat u; Runs s u ∧ x.sample = .none) ∧
    (∃ s : State, ∃ u : SeatRef, ∃ a, ∃ b, ∃ c, let x := s.seat u; Runs s u ∧ x.sample = some (true, a, b, c)) ∧
    (∃ s : State, ∃ u : SeatRef, ∃ a, ∃ b, ∃ c, let x := s.seat u; Runs s u ∧ x.sample = some (false, a, b, c)) ∧
    (∃ s : State, ∃ u : SeatRef, let e := s.expander u.cluster; Runs s u ∧ 8 ≤ e.buffer.length ∧ e.katFailed = false ∧ s.expanderHeld u.cluster = false) ∧
    (∃ s : State, ∃ u : SeatRef, let e := s.expander u.cluster; Runs s u ∧ (e.buffer.length < 8 ∨ e.katFailed = true ∨ s.expanderHeld u.cluster = true)) ∧
    (∃ s : State, ∃ u : SeatRef, ∃ i : BitVec 16, Runs s u ∧ 9 < i.toNat ∧ i ≠ 0x10) :=
  ⟨⟨here run, u0, by unfold Runs; decide +kernel⟩,
   ⟨here { run with sample := some (true, 1, 2, 3) }, u0, 1, 2, 3, by unfold Runs; decide +kernel⟩,
   ⟨here { run with sample := some (false, 1, 2, 3) }, u0, 1, 2, 3, by unfold Runs; decide +kernel⟩,
   ⟨(here run).setExpander 0 { Expander.fresh with buffer := List.replicate 8 1 }, u0, by unfold Runs; decide +kernel⟩,
   ⟨here run, u0, by unfold Runs; decide +kernel⟩,
   ⟨here run, u0, 10, by unfold Runs; decide +kernel⟩⟩

theorem witness_Branches : ∃ s : State, ∃ u : SeatRef, Runs s u :=
  ⟨here run, u0, by unfold Runs; decide +kernel⟩

theorem witness_CallsReturn :
    (∃ s : State, ∃ u : SeatRef, let x := (s.seat u).plain; Runs s u ∧ x.stack.length < 16) ∧
    (∃ s : State, ∃ u : SeatRef, ∃ w : BitVec 11, let x := (s.seat u).plain; Runs s u ∧ waymarkAllowed (s.policyOf x) w.toNat = true ∧ 16 ≤ x.stack.length) ∧
    (∃ s : State, ∃ u : SeatRef, ∃ f, ∃ r, let x := (s.seat u).plain; Runs s u ∧ x.stack = f :: r ∧ f.isGate = false) ∧
    (∃ s : State, ∃ u : SeatRef, let x := (s.seat u).plain; Runs s u ∧ (∀ f r, x.stack = f :: r → f.isGate = true)) :=
  ⟨⟨here { run with stack := List.replicate 15 callFrame }, u0, by unfold Runs; decide +kernel⟩,
   ⟨here { run with stack := List.replicate 16 callFrame }, u0, BitVec.ofNat 11 (waymarks.headD 0), by unfold Runs; decide +kernel⟩,
   ⟨here { run with stack := [callFrame] }, u0, callFrame, [], by unfold Runs; decide +kernel⟩,
   ⟨here { run with stack := [gateFrame] }, u0, by exact ⟨by unfold Runs; decide +kernel, fun f r h => by cases h; rfl⟩⟩⟩

theorem witness_Loads :
    (∃ s : State, ∃ s1 : State, ∃ u : SeatRef, ∃ rb : Fin 32, ∃ sp : BitVec 2, ∃ off : BitVec 14, ∃ key : Nat, ∃ cost : Nat, let x := (s.seat u).plain; let a := x.reg rb + off.signExtend 64; let found := fun (n : Nat) => s.operand u x sp a n false = (s1, .located key cost); Runs s u ∧ found 1) ∧
    (∃ s : State, ∃ s1 : State, ∃ u : SeatRef, ∃ rb : Fin 32, ∃ sp : BitVec 2, ∃ off : BitVec 14, ∃ key : Nat, ∃ cost : Nat, let x := (s.seat u).plain; let a := x.reg rb + off.signExtend 64; let found := fun (n : Nat) => s.operand u x sp a n false = (s1, .located key cost); Runs s u ∧ found 2) ∧
    (∃ s : State, ∃ s1 : State, ∃ u : SeatRef, ∃ rb : Fin 32, ∃ sp : BitVec 2, ∃ off : BitVec 14, ∃ key : Nat, ∃ cost : Nat, let x := (s.seat u).plain; let a := x.reg rb + off.signExtend 64; let found := fun (n : Nat) => s.operand u x sp a n false = (s1, .located key cost); Runs s u ∧ found 4) ∧
    (∃ s : State, ∃ s1 : State, ∃ u : SeatRef, ∃ rb : Fin 32, ∃ sp : BitVec 2, ∃ off : BitVec 14, ∃ key : Nat, ∃ cost : Nat, let x := (s.seat u).plain; let a := x.reg rb + off.signExtend 64; let found := fun (n : Nat) => s.operand u x sp a n false = (s1, .located key cost); Runs s u ∧ found 8) ∧
    (∃ s : State, ∃ s1 : State, ∃ u : SeatRef, ∃ rb : Fin 32, ∃ sp : BitVec 2, ∃ off : BitVec 14, ∃ key : Nat, ∃ cost : Nat, let x := (s.seat u).plain; let a := x.reg rb + off.signExtend 64; let found := fun (n : Nat) => s.operand u x sp a n false = (s1, .located key cost); Runs s u ∧ found 16) ∧
    (∃ s : State, ∃ u : SeatRef, ∃ rb : Fin 32, ∃ off : BitVec 14, let x := (s.seat u).plain; let a := x.reg rb + off.signExtend 64; Runs s u ∧ a.toNat % 2 ≠ 0) ∧
    (∃ s : State, ∃ u : SeatRef, ∃ rb : Fin 32, ∃ off : BitVec 14, let x := (s.seat u).plain; let a := x.reg rb + off.signExtend 64; Runs s u ∧ a.toNat % 4 ≠ 0) ∧
    (∃ s : State, ∃ u : SeatRef, ∃ rb : Fin 32, ∃ off : BitVec 14, let x := (s.seat u).plain; let a := x.reg rb + off.signExtend 64; Runs s u ∧ a.toNat % 8 ≠ 0) ∧
    (∃ s : State, ∃ u : SeatRef, ∃ rb : Fin 32, ∃ off : BitVec 14, let x := (s.seat u).plain; let a := x.reg rb + off.signExtend 64; Runs s u ∧ a.toNat % 16 ≠ 0) :=
  ⟨⟨(here (run.setReg 1 14335)), (here (run.setReg 1 14335)), u0, 1, 0, 0, scratchBase u0 + 14335, 2, by exact ⟨by unfold Runs; decide +kernel, rfl⟩⟩,
   ⟨(here (run.setReg 1 14334)), (here (run.setReg 1 14334)), u0, 1, 0, 0, scratchBase u0 + 14334, 2, by exact ⟨by unfold Runs; decide +kernel, rfl⟩⟩,
   ⟨(here (run.setReg 1 14332)), (here (run.setReg 1 14332)), u0, 1, 0, 0, scratchBase u0 + 14332, 2, by exact ⟨by unfold Runs; decide +kernel, rfl⟩⟩,
   ⟨(here (run.setReg 1 14328)), (here (run.setReg 1 14328)), u0, 1, 0, 0, scratchBase u0 + 14328, 2, by exact ⟨by unfold Runs; decide +kernel, rfl⟩⟩,
   ⟨(here (run.setReg 1 14320)), (here (run.setReg 1 14320)), u0, 1, 0, 0, scratchBase u0 + 14320, 2, by exact ⟨by unfold Runs; decide +kernel, rfl⟩⟩,
   ⟨(here (run.setReg 1 1)), u0, 1, 0, by unfold Runs; decide +kernel⟩,
   ⟨(here (run.setReg 1 3)), u0, 1, 0, by unfold Runs; decide +kernel⟩,
   ⟨(here (run.setReg 1 7)), u0, 1, 0, by unfold Runs; decide +kernel⟩,
   ⟨(here (run.setReg 1 15)), u0, 1, 0, by unfold Runs; decide +kernel⟩⟩

theorem witness_Stores :
    (∃ s : State, ∃ s1 : State, ∃ u : SeatRef, ∃ rb : Fin 32, ∃ sp : BitVec 2, ∃ off : BitVec 14, ∃ key : Nat, ∃ cost : Nat, let x := (s.seat u).plain; let a := x.reg rb + off.signExtend 64; let found := fun (n : Nat) => s.operand u x sp a n true = (s1, .located key cost); Runs s u ∧ found 1) ∧
    (∃ s : State, ∃ s1 : State, ∃ u : SeatRef, ∃ rb : Fin 32, ∃ sp : BitVec 2, ∃ off : BitVec 14, ∃ key : Nat, ∃ cost : Nat, let x := (s.seat u).plain; let a := x.reg rb + off.signExtend 64; let found := fun (n : Nat) => s.operand u x sp a n true = (s1, .located key cost); Runs s u ∧ found 2) ∧
    (∃ s : State, ∃ s1 : State, ∃ u : SeatRef, ∃ rb : Fin 32, ∃ sp : BitVec 2, ∃ off : BitVec 14, ∃ key : Nat, ∃ cost : Nat, let x := (s.seat u).plain; let a := x.reg rb + off.signExtend 64; let found := fun (n : Nat) => s.operand u x sp a n true = (s1, .located key cost); Runs s u ∧ found 4) ∧
    (∃ s : State, ∃ s1 : State, ∃ u : SeatRef, ∃ rb : Fin 32, ∃ sp : BitVec 2, ∃ off : BitVec 14, ∃ key : Nat, ∃ cost : Nat, let x := (s.seat u).plain; let a := x.reg rb + off.signExtend 64; let found := fun (n : Nat) => s.operand u x sp a n true = (s1, .located key cost); Runs s u ∧ found 8) ∧
    (∃ s : State, ∃ s1 : State, ∃ u : SeatRef, ∃ rb : Fin 32, ∃ sp : BitVec 2, ∃ off : BitVec 14, ∃ key : Nat, ∃ cost : Nat, let x := (s.seat u).plain; let a := x.reg rb + off.signExtend 64; let found := fun (n : Nat) => s.operand u x sp a n true = (s1, .located key cost); Runs s u ∧ found 16) ∧
    (∃ s : State, ∃ u : SeatRef, ∃ rb : Fin 32, ∃ off : BitVec 14, let x := (s.seat u).plain; let a := x.reg rb + off.signExtend 64; Runs s u ∧ a.toNat % 2 ≠ 0) ∧
    (∃ s : State, ∃ u : SeatRef, ∃ rb : Fin 32, ∃ off : BitVec 14, let x := (s.seat u).plain; let a := x.reg rb + off.signExtend 64; Runs s u ∧ a.toNat % 4 ≠ 0) ∧
    (∃ s : State, ∃ u : SeatRef, ∃ rb : Fin 32, ∃ off : BitVec 14, let x := (s.seat u).plain; let a := x.reg rb + off.signExtend 64; Runs s u ∧ a.toNat % 8 ≠ 0) ∧
    (∃ s : State, ∃ u : SeatRef, ∃ rb : Fin 32, ∃ off : BitVec 14, let x := (s.seat u).plain; let a := x.reg rb + off.signExtend 64; Runs s u ∧ a.toNat % 16 ≠ 0) :=
  ⟨⟨(here (run.setReg 1 14335)), (here (run.setReg 1 14335)), u0, 1, 0, 0, scratchBase u0 + 14335, 1, by exact ⟨by unfold Runs; decide +kernel, rfl⟩⟩,
   ⟨(here (run.setReg 1 14334)), (here (run.setReg 1 14334)), u0, 1, 0, 0, scratchBase u0 + 14334, 1, by exact ⟨by unfold Runs; decide +kernel, rfl⟩⟩,
   ⟨(here (run.setReg 1 14332)), (here (run.setReg 1 14332)), u0, 1, 0, 0, scratchBase u0 + 14332, 1, by exact ⟨by unfold Runs; decide +kernel, rfl⟩⟩,
   ⟨(here (run.setReg 1 14328)), (here (run.setReg 1 14328)), u0, 1, 0, 0, scratchBase u0 + 14328, 1, by exact ⟨by unfold Runs; decide +kernel, rfl⟩⟩,
   ⟨(here (run.setReg 1 14320)), (here (run.setReg 1 14320)), u0, 1, 0, 0, scratchBase u0 + 14320, 1, by exact ⟨by unfold Runs; decide +kernel, rfl⟩⟩,
   ⟨(here (run.setReg 1 1)), u0, 1, 0, by unfold Runs; decide +kernel⟩,
   ⟨(here (run.setReg 1 3)), u0, 1, 0, by unfold Runs; decide +kernel⟩,
   ⟨(here (run.setReg 1 7)), u0, 1, 0, by unfold Runs; decide +kernel⟩,
   ⟨(here (run.setReg 1 15)), u0, 1, 0, by unfold Runs; decide +kernel⟩⟩

theorem witness_CipherInstructions :
    (∃ s : State, ∃ u : SeatRef, ∃ by_ : Fin 8, ∃ k : Fin 8, ∃ m : BitVec 6, ∃ q : Slot, ∃ c : CipherCtx, let x := (s.seat u).plain; let n := m.toNat; Runs s u ∧ n ≤ 9 ∧ (¬(n = 8 ∧ k.val % 2 = 1)) ∧ (s.useKey x k (some eTeCipher) (if n = 6 ∨ n = 7 then [uMacGen, uMacVerify] else []) = .ok q) ∧ s.tdesForbidden x q = false ∧ modeAccepts n q.key = true ∧ s.openCipher x n k q (x.blk by_) = .ok c) ∧
    (∃ s : State, ∃ u : SeatRef, ∃ m : BitVec 6, ∃ q : Slot, ∃ c : CipherCtx, let x := (s.seat u).plain; Runs s u ∧ x.cctx = some c ∧ c.mode.toNat ∈ [0, 1, 2, 3, 4, 5, 8] ∧ c.takes m = true ∧ s.useKey x c.slot (some eTeCipher) (x.dataBits false) = .ok q) ∧
    (∃ s : State, ∃ u : SeatRef, ∃ m : BitVec 6, ∃ q : Slot, ∃ c : CipherCtx, let x := (s.seat u).plain; Runs s u ∧ x.cctx = some c ∧ c.mode.toNat ∈ [0, 1, 2, 3, 4, 5, 8] ∧ c.takes m = true ∧ s.useKey x c.slot (some eTeCipher) (x.dataBits true) = .ok q) ∧
    (∃ s : State, ∃ u : SeatRef, ∃ m : BitVec 6, ∃ q : Slot, ∃ c : CipherCtx, let x := (s.seat u).plain; let w := c.width m; Runs s u ∧ x.cctx = some c ∧ (c.mode = 5 ∨ c.mode = 6) ∧ c.aadClosed = false ∧ w ≤ 16 ∧ s.useKey x c.slot (some eTeCipher) (if c.mode = 6 then [uMacGen, uMacVerify] else []) = .ok q) ∧
    (∃ s : State, ∃ u : SeatRef, ∃ m : BitVec 6, ∃ q : Slot, ∃ c : CipherCtx, let x := (s.seat u).plain; let w := c.width m; Runs s u ∧ x.cctx = some c ∧ c.mode = 7 ∧ c.heldPartial = false ∧ w ≤ blockLen c.tdes ∧ s.useKey x c.slot (some eTeCipher) x.macBits = .ok q) ∧
    (∃ s : State, ∃ u : SeatRef, ∃ q : Slot, ∃ c : CipherCtx, let x := (s.seat u).plain; Runs s u ∧ x.cctx = some c ∧ c.mode = 7 ∧ s.useKey x c.slot (some eTeCipher) [uMacGen, uMacVerify] = .ok q ∧ (x.world = .vendor ∨ q.key.may uMacGen = true)) ∧
    (∃ s : State, ∃ u : SeatRef, ∃ q : Slot, ∃ c : CipherCtx, let x := (s.seat u).plain; Runs s u ∧ x.cctx = some c ∧ (c.mode = 5 ∨ c.mode = 6) ∧ (¬(c.ctrA = 0 ∧ c.ctrB = 0)) ∧ s.useKey x c.slot (some eTeCipher) (if c.mode = 5 then [] else [uMacGen, uMacVerify]) = .ok q ∧ (c.mode = 5 ∨ x.world = .vendor ∨ q.key.may uMacGen = true)) ∧
    (∃ s : State, ∃ u : SeatRef, ∃ g : Fin 32, ∃ q : Slot, ∃ c : CipherCtx, ∃ a : Nat, let x := (s.seat u).plain; Runs s u ∧ x.cctx = some c ∧ c.mode.toNat < 10 ∧ s.useKey x c.slot .none [] = .ok q ∧ x.scratchAt u (x.reg g) 64 16 = .ok a) ∧
    (∃ s : State, ∃ u : SeatRef, ∃ g : Fin 32, ∃ q : Slot, ∃ c : CipherCtx, ∃ a : Nat, let x := (s.seat u).plain; Runs s u ∧ x.scratchAt u (x.reg g) 64 16 = .ok a ∧ CipherCtx.ofBytes (s.load a 64) = some c ∧ c.unusedZero = true ∧ s.useKey x c.slot .none [] = .ok q ∧ q.serial = c.serial ∧ ktypeCode q.key.attrs.ktype = c.ktype) ∧
    (∃ s : State, ∃ u : SeatRef, ∃ g : Fin 32, ∃ q : Slot, ∃ c : CipherCtx, let x := (s.seat u).plain; let b := (x.reg g).toNat; let d := s.load (scratchBase u + b) 0xA8; Runs s u ∧ b % 16 = 0 ∧ b + 0xA8 ≤ x.scratchLimit ∧ x.cctx = some c ∧ c.mode = 9 ∧ ff1Valid d = true ∧ s.useKey x c.slot (some eTeCipher) [uTokenise] = .ok q) ∧
    (∃ s : State, ∃ u : SeatRef, ∃ k : Fin 8, ∃ q : Slot, let x := (s.seat u).plain; Runs s u ∧ s.useKey x k (some eTeCipher) (x.dataBits false) = .ok q ∧ (typeTdes q.key.attrs.ktype || typeAes q.key.attrs.ktype) = true) ∧
    (∃ s : State, ∃ u : SeatRef, ∃ k : Fin 8, ∃ q : Slot, let x := (s.seat u).plain; Runs s u ∧ s.useKey x k (some eTeCipher) (x.dataBits true) = .ok q ∧ (typeTdes q.key.attrs.ktype || typeAes q.key.attrs.ktype) = true) ∧
    (∃ s : State, ∃ u : SeatRef, ∃ m : BitVec 6, let n := m.toNat; Runs s u ∧ 2 ≤ n) :=
  ⟨⟨here keyed, u0, 0, 1, 9, slot0, { ctx 9 with slot := 1 }, by unfold Runs; decide +kernel⟩,
   ⟨here (withCtx (ctx 1)), u0, 0, slot0, ctx 1, by unfold Runs; decide +kernel⟩,
   ⟨here (withCtx (ctx 1)), u0, 0, slot0, ctx 1, by unfold Runs; decide +kernel⟩,
   ⟨here (withCtx (ctx 6)), u0, 16, slot0, ctx 6, by unfold Runs; decide +kernel⟩,
   ⟨here (withCtx (ctx 7)), u0, 16, slot0, ctx 7, by unfold Runs; decide +kernel⟩,
   ⟨here (withCtx (ctx 7)), u0, slot0, ctx 7, by unfold Runs; decide +kernel⟩,
   ⟨here (withCtx { ctx 5 with ctrB := 16 }), u0, slot0, { ctx 5 with ctrB := 16 }, by unfold Runs; decide +kernel⟩,
   ⟨here ((withCtx (ctx 9)).setReg 1 0x37C0), u0, 1, slot0, ctx 9, scratchBase u0 + 0x37C0, by unfold Runs; decide +kernel⟩,
   ⟨holds keyed (ctx 2).bytes, u0, 0, slot0, ctx 2, scratchBase u0, by unfold Runs; decide +kernel⟩,
   ⟨holds (withCtx (ctx 9)) ([0, 10, 0, 6] ++ List.replicate 36 0 ++ [1, 2, 3, 4, 5, 9]), u0, 0, slot0, ctx 9, by unfold Runs; decide +kernel⟩,
   ⟨here keyed, u0, 0, slot0, by unfold Runs; decide +kernel⟩,
   ⟨here keyed, u0, 0, slot0, by unfold Runs; decide +kernel⟩,
   ⟨here run, u0, 63, by unfold Runs; decide +kernel⟩⟩

theorem witness_CipherModes :
    (∃ c : CipherCtx, c.tdes = true ∧ c.mode = 1) ∧
    (∃ c : CipherCtx, ∃ x : Block, c.tdes = false ∧ keepHigh 16 x = x ∧ c.mode = 0) ∧
    (∃ c : CipherCtx, ∃ x : Block, c.tdes = false ∧ keepHigh 16 x = x ∧ c.mode = 1) ∧
    (∃ c : CipherCtx, ∃ x : Block, c.tdes = false ∧ keepHigh 16 x = x ∧ c.mode = 2) ∧
    (∃ c : CipherCtx, ∃ x : Block, c.tdes = false ∧ keepHigh 16 x = x ∧ c.mode = 3) ∧
    (∃ c : CipherCtx, ∃ x : Block, c.tdes = false ∧ keepHigh 16 x = x ∧ c.mode = 4) ∧
    (∃ c : CipherCtx, ∃ x : Block, c.tdes = false ∧ keepHigh 16 x = x ∧ c.mode = 5) ∧
    (∃ c : CipherCtx, ∃ x : Block, c.tdes = false ∧ keepHigh 16 x = x ∧ c.mode = 8) :=
  ⟨⟨{ ctx 1 with ktype := 3 }, by decide +kernel⟩,
   ⟨ctx 0, 1, by decide +kernel⟩,
   ⟨ctx 1, 1, by decide +kernel⟩,
   ⟨ctx 2, 1, by decide +kernel⟩,
   ⟨ctx 3, 1, by decide +kernel⟩,
   ⟨ctx 4, 1, by decide +kernel⟩,
   ⟨ctx 5, 1, by decide +kernel⟩,
   ⟨ctx 8, 1, by decide +kernel⟩⟩

theorem witness_DigestInstructions :
    (∃ s : State, ∃ u : SeatRef, ∃ g : Fin 32, ∃ m : BitVec 6, let x := (s.seat u).plain; Runs s u ∧ 1 ≤ m.toNat ∧ m.toNat ≤ 7 ∧ (x.reg g).toNat < 2 ^ 61) ∧
    (∃ s : State, ∃ u : SeatRef, ∃ g : Fin 32, ∃ k : Fin 8, ∃ m : BitVec 6, ∃ q : Slot, let x := (s.seat u).plain; Runs s u ∧ 33 ≤ m.toNat ∧ m.toNat ≤ 39 ∧ (x.reg g).toNat < 2 ^ 61 ∧ s.hmacKey x k = .ok q) ∧
    (∃ s : State, ∃ u : SeatRef, ∃ g : Fin 32, ∃ m : BitVec 6, ∃ c : DigestCtx, let x := (s.seat u).plain; let r := c.absorb ((natBE 8 (x.reg g).toNat).take m.toNat); Runs s u ∧ x.dctx = some c ∧ c.digest = .none ∧ c.hmac = false ∧ 1 ≤ m.toNat ∧ m.toNat ≤ 8 ∧ r.1.count = r.1.len) ∧
    (∃ s : State, ∃ u : SeatRef, ∃ g : Fin 32, ∃ m : BitVec 6, ∃ c : DigestCtx, ∃ q : Slot, let x := (s.seat u).plain; let r := c.absorb ((natBE 8 (x.reg g).toNat).take m.toNat); Runs s u ∧ x.dctx = some c ∧ c.digest = .none ∧ c.hmac = true ∧ 1 ≤ m.toNat ∧ m.toNat ≤ 8 ∧ s.hmacKey x c.slot = .ok q ∧ r.1.count = r.1.len) ∧
    (∃ s : State, ∃ u : SeatRef, ∃ m : BitVec 6, ∃ c : DigestCtx, ∃ d : Bytes, ∃ q : Slot, let x := (s.seat u).plain; Runs s u ∧ x.dctx = some c ∧ c.digest = some d ∧ c.compared = false ∧ c.hmac = true ∧ x.slot c.slot = some q ∧ m.toNat ≤ 3 ∧ 16 * m.toNat < d.length) ∧
    (∃ s : State, ∃ u : SeatRef, ∃ m : BitVec 6, ∃ c : DigestCtx, ∃ d : Bytes, let x := (s.seat u).plain; Runs s u ∧ x.dctx = some c ∧ c.digest = some d ∧ c.compared = false ∧ c.hmac = false ∧ m.toNat ≤ 3 ∧ 16 * m.toNat < d.length) ∧
    (∃ s : State, ∃ u : SeatRef, ∃ g : Fin 32, ∃ c : DigestCtx, ∃ d : Bytes, ∃ a : Nat, let x := (s.seat u).plain; Runs s u ∧ x.dctx = some c ∧ c.digest = some d ∧ c.compared = false ∧ x.scratchAt u (x.reg g) d.length 1 = .ok a) ∧
    (∃ s : State, ∃ u : SeatRef, ∃ g : Fin 32, ∃ m : BitVec 6, ∃ c : DigestCtx, ∃ d : Bytes, ∃ a : Nat, let x := (s.seat u).plain; Runs s u ∧ x.dctx = some c ∧ c.digest = some d ∧ c.compared = false ∧ 8 ≤ m.toNat ∧ m.toNat ≤ d.length ∧ x.scratchAt u (x.reg g) m.toNat 1 = .ok a) ∧
    (∃ s : State, ∃ u : SeatRef, ∃ m : BitVec 6, ∃ c : DigestCtx, ∃ d : Bytes, let x := (s.seat u).plain; Runs s u ∧ x.dctx = some c ∧ c.digest = some d ∧ c.compared = false ∧ m ≠ 0 ∧ (m.toNat < 8 ∨ d.length < m.toNat)) ∧
    (∃ s : State, ∃ u : SeatRef, ∃ g : Fin 32, ∃ c : DigestCtx, ∃ a : Nat, ∃ q : Slot, let x := (s.seat u).plain; Runs s u ∧ x.dctx = some c ∧ c.digest = .none ∧ x.scratchAt u (x.reg g) 256 16 = .ok a ∧ (c.hmac = false ∨ x.world = .vendor ∧ s.useKey x c.slot .none [] = .ok q)) ∧
    (∃ s : State, ∃ u : SeatRef, ∃ c : DigestCtx, let x := (s.seat u).plain; Runs s u ∧ x.dctx = some c ∧ c.digest = .none ∧ c.hmac = true ∧ x.world = .tenant) ∧
    (∃ s : State, ∃ u : SeatRef, ∃ g : Fin 32, ∃ c : DigestCtx, ∃ tr : Bool, ∃ a : Nat, ∃ q : Slot, let x := (s.seat u).plain; Runs s u ∧ x.scratchAt u (x.reg g) 256 16 = .ok a ∧ DigestCtx.ofBytes (s.load a 256) (x.world == .vendor) = some (c, tr) ∧ (c.hmac = false ∨ s.useKey x c.slot .none [] = .ok q ∧ q.serial = c.serial)) ∧
    (∃ s : State, ∃ u : SeatRef, ∃ m : BitVec 6, ∃ c : DigestCtx, let x := (s.seat u).plain; Runs s u ∧ x.dctx = some c ∧ c.digest = .none ∧ m.toNat ≤ 3) ∧
    (∃ s : State, ∃ u : SeatRef, ∃ m : BitVec 6, ∃ c : DigestCtx, ∃ d : Bytes, let x := (s.seat u).plain; Runs s u ∧ x.dctx = some c ∧ c.digest = some d ∧ c.compared = true ∧ m.toNat ≤ 3) :=
  ⟨⟨here (run.setReg 1 0x1FFFFFFFFFFFFFFF), u0, 1, 7, by unfold Runs; decide +kernel⟩,
   ⟨here (keyed.setReg 1 0x1FFFFFFFFFFFFFFF), u0, 1, 0, 33, slot0, by unfold Runs; decide +kernel⟩,
   ⟨here (withDig (dig 8)), u0, 0, 8, dig 8, by unfold Runs; decide +kernel⟩,
   ⟨here ({ keyed with dctx := some { dig 8 with hmac := true } }), u0, 0, 8, { dig 8 with hmac := true }, slot0, by unfold Runs; decide +kernel⟩,
   ⟨here ({ keyed with dctx := some { digDone with hmac := true } }), u0, 2, { digDone with hmac := true }, List.replicate 48 7, slot0, by unfold Runs; decide +kernel⟩,
   ⟨here (withDig digDone), u0, 2, digDone, List.replicate 48 7, by unfold Runs; decide +kernel⟩,
   ⟨here ((withDig digDone).setReg 1 0x37D0), u0, 1, digDone, List.replicate 48 7, scratchBase u0 + 0x37D0, by unfold Runs; decide +kernel⟩,
   ⟨here ((withDig digDone).setReg 1 0x37F8), u0, 1, 8, digDone, List.replicate 48 7, scratchBase u0 + 0x37F8, by unfold Runs; decide +kernel⟩,
   ⟨here (withDig digDone), u0, 49, digDone, List.replicate 48 7, by unfold Runs; decide +kernel⟩,
   ⟨here (({ keyed with world := .vendor, dctx := some { dig 8 with hmac := true } }).setReg 1 0x3700), u0, 1, { dig 8 with hmac := true }, scratchBase u0 + 0x3700, slot0, by unfold Runs; decide +kernel⟩,
   ⟨here ({ keyed with dctx := some { dig 8 with hmac := true } }), u0, { dig 8 with hmac := true }, by unfold Runs; decide +kernel⟩,
   ⟨holds keyed (({ { dig 8 with hmac := true } with serial := 1 } : DigestCtx).bytes true), u0, 0, { { dig 8 with hmac := true } with serial := 1 }, true, scratchBase u0, slot0, by unfold Runs; decide +kernel⟩,
   ⟨here (withDig (dig 8)), u0, 3, dig 8, by unfold Runs; decide +kernel⟩,
   ⟨here (withDig { digDone with compared := true }), u0, 3, { digDone with compared := true }, List.replicate 48 7, by unfold Runs; decide +kernel⟩⟩

theorem witness_BlockAndSlotInstructions :
    (∃ s : State, ∃ u : SeatRef, ∃ m : BitVec 6, Runs s u ∧ m.toNat ≤ 16) ∧
    (∃ s : State, ∃ u : SeatRef, ∃ m : BitVec 6, Runs s u ∧ 16 < m.toNat) ∧
    (∃ s : State, ∃ u : SeatRef, ∃ k : Fin 8, ∃ q : Slot, let x := (s.seat u).plain; Runs s u ∧ s.useKey x k .none [] = .ok q) ∧
    (∃ s : State, ∃ u : SeatRef, ∃ k : Fin 8, let x := (s.seat u).plain; Runs s u ∧ x.slot k = .none) :=
  ⟨⟨here run, u0, 16, by unfold Runs; decide +kernel⟩,
   ⟨here run, u0, 17, by unfold Runs; decide +kernel⟩,
   ⟨here keyed, u0, 7, slot0, by unfold Runs; decide +kernel⟩,
   ⟨here run, u0, 7, by unfold Runs; decide +kernel⟩⟩

theorem witness_KeyInstructions :
    (∃ s : State, ∃ u : SeatRef, ∃ g : Fin 32, ∃ e : CaddyEntry, let x := (s.seat u).plain; Runs s u ∧ s.caddyFind x.desc.colour (x.reg g) = some e) ∧
    (∃ s : State, ∃ u : SeatRef, ∃ g : Fin 32, let x := (s.seat u).plain; Runs s u ∧ s.caddyFind x.desc.colour (x.reg g) = .none) ∧
    (∃ s : State, ∃ u : SeatRef, ∃ w : Fin 8, ∃ m : BitVec 6, ∃ p : Slot, let x := (s.seat u).plain; let n := m.toNat; let a := drvAttrs n p.key.attrs p.libOnly; Runs s u ∧ 1 ≤ n ∧ n ≤ 5 ∧ s.useKey x w (some eTeCipher) [uDerive] = .ok p ∧ s.tdesForbidden x p = false ∧ (if n = 2 ∨ n = 3 then typeTdes p.key.attrs.ktype else typeAes p.key.attrs.ktype) = true ∧ a.usage ≠ 0) ∧
    (∃ s : State, ∃ u : SeatRef, ∃ w : Fin 8, ∃ g : Fin 32, ∃ p : Slot, let x := (s.seat u).plain; Runs s u ∧ x.world = .vendor ∧ x.intends 2 (x.reg g) = true ∧ s.useKey x w .none [] = .ok p) ∧
    (∃ s : State, ∃ u : SeatRef, ∃ g : Fin 32, let x := (s.seat u).plain; let h := x.reg g; Runs s u ∧ handleOk x.desc.colour h = true ∧ systemHandle h = false ∧ s.keys.suspended = true) ∧
    (∃ s : State, ∃ u : SeatRef, ∃ g : Fin 32, let x := (s.seat u).plain; let h := x.reg g; Runs s u ∧ handleOk x.desc.colour h = true ∧ systemHandle h = false ∧ s.keys.suspended = false ∧ (s.tinKeys 0 x.desc.colour).isSome = true ∧ (s.record x.desc.colour h).isSome = true) ∧
    (∃ s : State, ∃ u : SeatRef, ∃ g : Fin 32, ∃ p : Slot, let x := (s.seat u).plain; let h := x.reg g; Runs s u ∧ handleOk x.desc.colour h = true ∧ systemHandle h = false ∧ s.keys.suspended = false ∧ (s.tinKeys 0 x.desc.colour).isSome = true ∧ s.record x.desc.colour h = .none ∧ s.keyRoom x.desc.colour h (recordSize p.key.attrs.ktype p.key.material.length) = false) ∧
    (∃ s : State, ∃ u : SeatRef, let x := (s.seat u).plain; Runs s u ∧ x.world = .tenant) :=
  ⟨⟨cached run false, u0, 2, entry false, by unfold Runs; decide +kernel⟩,
   ⟨here run, u0, 0, by unfold Runs; decide +kernel⟩,
   ⟨here keyed, u0, 0, 5, slot0, by unfold Runs; decide +kernel⟩,
   ⟨here { (vrun.setReg 2 5) with k := Vector.replicate 8 (some slot0), intent := some { kind := 2, obj := 5, before := 0, issued := false, left := 0 } }, u0, 0, 2, slot0, by unfold Runs; decide +kernel⟩,
   ⟨{ here (keyed.setReg 2 5) with keys := { Keys.reset with suspended := true } }, u0, 2, by unfold Runs; decide +kernel⟩,
   ⟨{ here (({ keyed with desc := desc1 0x1000 true }).setReg 2 0x0001000000000002) with keys := { Keys.reset with partKeys := [(1, (0, 0))], warm := [(0x0001000000000002, .live tin1 [])] } }, u0, 2, by unfold Runs; decide +kernel⟩,
   ⟨{ parted (here (({ keyed with desc := desc1 0x1000 true }).setReg 2 0x0001000000000003)) part1 with keys := { Keys.reset with partKeys := [(1, (0, 0))], warm := [(0x0001000000000002, .live tin1 [])] } }, u0, 2, slot0, by unfold Runs; decide +kernel⟩,
   ⟨here run, u0, by unfold Runs; decide +kernel⟩⟩

theorem witness_CaddyMissFills : ∃ s : State, ∃ u : SeatRef, ∃ k : Fin 8, ∃ h : Word, u.ok = true ∧ (s.seat u).phase = .caddyWait k h :=
  ⟨here { run with phase := .caddyWait 3 5 }, u0, 3, 5, by decide +kernel⟩

theorem witness_FillSerials :
    (∃ s : State, s.power.porst = false) ∧
    (∃ u : SeatRef, ∃ k : Fin 8, ∃ j, u.ok = true ∧ j ≠ k) ∧
    (∃ s : State, ∃ u : SeatRef, ∃ k : Fin 8, ∃ key : Key, ∃ lib : Bool, ∃ c : CipherCtx, ∃ c, let r := s.fillSlot u (s.seat u) k key lib; u.ok = true ∧ r.2.cctx = some c) ∧
    (∃ s : State, ∃ u : SeatRef, ∃ k : Fin 8, ∃ key : Key, ∃ lib : Bool, ∃ d, let r := s.fillSlot u (s.seat u) k key lib; u.ok = true ∧ r.2.dctx = some d ∧ d.hmac = true) ∧
    (∃ s : State, ∃ u : SeatRef, ∃ k : Fin 8, ∃ q : Slot, ∃ v : Block, ∃ n : Nat, ∃ c : CipherCtx, s.openCipher (s.seat u) n k q v = .ok c) ∧
    (∃ s : State, ∃ u : SeatRef, ∃ g : Fin 32, ∃ e : CaddyEntry, let x := (s.seat u).plain; Runs s u ∧ s.caddyFind x.desc.colour (x.reg g) = some e) ∧
    (∃ s : State, ∃ u : SeatRef, let x := (s.seat u).plain; Runs s u ∧ x.cctx = .none) ∧
    (∃ s : State, ∃ u : SeatRef, let x := (s.seat u).plain; Runs s u ∧ x.dctx = .none) :=
  ⟨⟨{ State.reset with power := { Power.reset with porst := false } }, by decide +kernel⟩,
   ⟨u0, 0, 1, by decide +kernel⟩,
   ⟨here (withCtx (ctx 9)), u0, 1, aesKey, true, ctx 9, ctx 9, by decide +kernel⟩,
   ⟨here ({ keyed with dctx := some { digDone with hmac := true } }), u0, 1, aesKey, true, { digDone with hmac := true }, by decide +kernel⟩,
   ⟨here keyed, u0, 0, slot0, 0, 9, ctx 9, by exact rfl⟩,
   ⟨cached run false, u0, 2, entry false, by unfold Runs; decide +kernel⟩,
   ⟨here run, u0, by unfold Runs; decide +kernel⟩,
   ⟨here run, u0, by unfold Runs; decide +kernel⟩⟩

theorem witness_LibraryOnlySlots :
    (∃ s : State, ∃ u : SeatRef, ∃ g : Fin 32, ∃ e : CaddyEntry, Runs s u ∧ s.caddyFind (s.seat u).desc.colour ((s.seat u).reg g) = some e ∧ e.key.attrs.libOnly = true) ∧
    (∃ s : State, ∃ u : SeatRef, ∃ k : Fin 8, ∃ h : Word, u.ok = true ∧ (s.seat u).phase = .caddyWait k h) ∧
    (∃ s : State, ∃ u : SeatRef, ∃ k : Fin 8, ∃ z : Slot, (s.seat u).world = .tenant ∧ (s.seat u).slot k = some z ∧ z.libOnly = true ∧ z.key.attrs.within s.time = true ∧ Runs s u) :=
  ⟨⟨cached run true, u0, 2, entry true, by unfold Runs; decide +kernel⟩,
   ⟨here { run with phase := .caddyWait 3 5 }, u0, 3, 5, by decide +kernel⟩,
   ⟨here { run with k := Vector.replicate 8 (some { slot0 with libOnly := true }) }, u0, 7, { slot0 with libOnly := true }, by unfold Runs; decide +kernel⟩⟩

theorem witness_GateAndReturn :
    (∃ s : State, ∃ u : SeatRef, ∃ w : BitVec 11, let x := (s.seat u).plain; Runs s u ∧ waymarkAllowed (s.policyOf x) w.toNat = true ∧ x.stack.length < 16) ∧
    (∃ s : State, ∃ u : SeatRef, ∃ w : BitVec 11, let x := (s.seat u).plain; Runs s u ∧ waymarkAllowed (s.policyOf x) w.toNat = false) ∧
    (∃ s : State, ∃ u : SeatRef, ∃ f : Frame, ∃ r : List Frame, let x := (s.seat u).plain; Runs s u ∧ x.world = .vendor ∧ x.stack = f :: r ∧ f.isGate = true ∧ f.world = .tenant) ∧
    (∃ s : State, ∃ u : SeatRef, ∃ f : Frame, ∃ r : List Frame, let x := (s.seat u).plain; Runs s u ∧ x.world = .vendor ∧ x.stack = f :: r ∧ f.isGate = true ∧ f.world = .vendor) ∧
    (∃ s : State, ∃ u : SeatRef, let x := (s.seat u).plain; Runs s u ∧ x.world = .tenant) :=
  ⟨⟨here { run with stack := List.replicate 15 callFrame }, u0, BitVec.ofNat 11 (waymarks.headD 0), by unfold Runs; decide +kernel⟩,
   ⟨here run, u0, 0x7FF, by unfold Runs; decide +kernel⟩,
   ⟨here (gated .tenant), u0, { gateFrame with world := .tenant }, [], by unfold Runs; decide +kernel⟩,
   ⟨here (gated .vendor), u0, { gateFrame with world := .vendor }, [], by unfold Runs; decide +kernel⟩,
   ⟨here run, u0, by unfold Runs; decide +kernel⟩⟩

theorem witness_MilestoneInstructions :
    (∃ s : State, ∃ u : SeatRef, let x := (s.seat u).plain; Runs s u ∧ x.world = .vendor ∧ x.intent = .none) ∧
    (∃ s : State, ∃ u : SeatRef, ∃ ga : Fin 32, ∃ n : BitVec 11, let x := (s.seat u).plain; Runs s u ∧ x.world = .vendor ∧ x.intends n (x.reg ga) = true) ∧
    (∃ s : State, ∃ u : SeatRef, ∃ ga : Fin 32, ∃ n : BitVec 11, let x := (s.seat u).plain; Runs s u ∧ x.world = .vendor ∧ x.intends n (x.reg ga) = false) :=
  ⟨⟨here vrun, u0, by unfold Runs; decide +kernel⟩,
   ⟨here (intending 0x155 0), u0, 0, 0x155, by unfold Runs; decide +kernel⟩,
   ⟨here (intending 0x155 0), u0, 0, 0x156, by unfold Runs; decide +kernel⟩⟩

theorem witness_ItineraryEnds :
    (∃ s : State, ∃ u : SeatRef, ∃ ga : Fin 32, let x := s.seat u; Runs s u ∧ x.squash = false ∧ x.intent = .none ∧ (x.reg ga).toNat ≤ 8184) ∧
    (∃ s : State, ∃ u : SeatRef, let x := s.seat u; Runs s u ∧ x.intent.isSome = true) ∧
    (∃ s : State, ∃ u : SeatRef, ∃ ga : Fin 32, let x := s.seat u; Runs s u ∧ x.intent = .none ∧ 8184 < (x.reg ga).toNat) ∧
    (∃ s : State, ∃ u : SeatRef, ∃ ga : Fin 32, let x := s.seat u; Runs s u ∧ x.squash = true ∧ x.intent = .none ∧ (x.reg ga).toNat ≤ 8184) :=
  ⟨⟨here (run.setReg 1 8184), u0, 1, by unfold Runs; decide +kernel⟩,
   ⟨here (intending 1 1), u0, by unfold Runs; decide +kernel⟩,
   ⟨here (run.setReg 1 8185), u0, 1, by unfold Runs; decide +kernel⟩,
   ⟨here { (run.setReg 1 8184) with squash := true }, u0, 1, by unfold Runs; decide +kernel⟩⟩

theorem witness_ExceptionTaken : ∃ s : State, ∃ u : SeatRef, u.ok = true ∧ (s.seat u).squash = false :=
  ⟨here run, u0, by decide +kernel⟩

theorem witness_YieldPoints :
    (∃ s : State, ∃ u : SeatRef, let x := (s.seat u).plain; let y := { x with sinceYield := 0 }; Runs s u ∧ (x.squash = false ∧ (s.lane x.desc.lane).state ≠ .frozen ∧ s.quiescing u.cluster = false ∧ s.yieldsTo u y = false ∧ s.yieldOffer u y = .none)) ∧
    (∃ s : State, ∃ u : SeatRef, let x := (s.seat u).plain; let y := { x with sinceYield := 0 }; Runs s u ∧ x.intent.isSome = true ∧ s.yieldsTo u y = false ∧ s.yieldOffer u y = .none) ∧
    (∃ s : State, ∃ u : SeatRef, let x := (s.seat u).plain; let y := { x with sinceYield := 0 }; Runs s u ∧ x.intent = .none ∧ x.squash = false ∧ (s.lane x.desc.lane).state ≠ .frozen ∧ (s.quiescing u.cluster = true ∨ s.yieldsTo u y = true)) ∧
    (∃ s : State, ∃ u : SeatRef, let x := (s.seat u).plain; let y := { x with sinceYield := 0 }; Runs s u ∧ x.intent.isSome = true ∧ s.yieldsTo u y = true) ∧
    (∃ s : State, ∃ u : SeatRef, ∃ n, ∃ i, let x := (s.seat u).plain; let y := { x with sinceYield := 0 }; let left := { y with pc := x.pc + 4, cycles := x.cycles + 40 }; let v := ((s.setSeat u left).seatChange u .ready true).offerItem n i u.cluster; Runs s u ∧ x.squash = false ∧ (s.lane x.desc.lane).state ≠ .frozen ∧ s.quiescing u.cluster = false ∧ s.yieldsTo u y = false ∧ s.yieldOffer u y = some (n, i) ∧ (v.seat (otherSeat u)).phase = .running) ∧
    (∃ s : State, ∃ u : SeatRef, let x := (s.seat u).plain; Runs s u ∧ x.intent = .none ∧ x.squash = true) ∧
    (∃ s : State, ∃ u : SeatRef, let x := (s.seat u).plain; Runs s u ∧ x.intent = .none ∧ x.squash = false ∧ (s.lane x.desc.lane).state = .frozen) :=
  ⟨⟨here run, u0, by unfold Runs; decide +kernel⟩,
   ⟨here { run with intent := some (intent 5 0) }, u0, by unfold Runs; decide +kernel⟩,
   ⟨withEngagement (here run) engage, u0, by unfold Runs; decide +kernel⟩,
   ⟨((here { run with intent := some (intent 5 0) }).setSeat (otherSeat u0) { run with phase := .ready, desc := { Desc.none with lane := 3 } }).setLane 3 { Lane.free with level := 1 }, u0, by unfold Runs; decide +kernel⟩,
   ⟨(List.range 15).foldl (fun s t => s.setTe 0 (t + 1) { Te.fresh with out := true }) ((allowing (withImage (queued (desc1 0x1000 true) .pool { lane1 with level := 1 }))).setSeat u0 run), u0, 0, item1 (desc1 0x1000 true) .pool, by unfold Runs; decide +kernel⟩,
   ⟨here { run with squash := true }, u0, by unfold Runs; decide +kernel⟩,
   ⟨(here run).setLane 0 { Lane.free with state := .frozen }, u0, by unfold Runs; decide +kernel⟩⟩

theorem witness_VaultInstructions :
    (∃ s : State, ∃ u : SeatRef, ∃ ga : Fin 32, ∃ gb : Fin 32, let x := (s.seat u).plain; let a := (x.reg gb).toNat; Runs s u ∧ (s.seat u).world = .vendor ∧ a % 4096 = 0 ∧ a + 4096 ≤ 0x3C00 ∧ x.intends 1 (x.reg ga) = true) ∧
    (∃ s : State, ∃ u : SeatRef, ∃ ga : Fin 32, ∃ gb : Fin 32, let x := (s.seat u).plain; let a := (x.reg gb).toNat; Runs s u ∧ (s.seat u).world = .vendor ∧ a % 4096 = 0 ∧ a + 4096 ≤ 0x3C00 ∧ x.intends 1 (x.reg ga) = false) ∧
    (∃ s : State, ∃ u : SeatRef, ∃ gb : Fin 32, let x := (s.seat u).plain; let a := (x.reg gb).toNat; Runs s u ∧ (s.seat u).world = .vendor ∧ a % 4096 ≠ 0) :=
  ⟨⟨here ((intending 1 4).setReg 3 4 |>.setReg 4 8192), u0, 3, 4, by unfold Runs; decide +kernel⟩,
   ⟨here ((intending 1 5).setReg 3 4 |>.setReg 4 8192), u0, 3, 4, by unfold Runs; decide +kernel⟩,
   ⟨here (vrun.setReg 4 4095), u0, 4, by unfold Runs; decide +kernel⟩⟩

theorem witness_SeatEvents :
    (∃ s : State, ∃ u : SeatRef, let x := s.seat u; u.ok = true ∧ x.phase = .running ∧ 24000 ≤ x.sinceYield) ∧
    (∃ s : State, ∃ u : SeatRef, let x := s.seat u; u.ok = true ∧ x.phase ≠ .empty) ∧
    (∃ s : State, ∃ u : SeatRef, let x := s.seat u; u.ok = true ∧ x.phase = .fetchWait) ∧
    (∃ s : State, ∃ u : SeatRef, ∃ w : VaultWait, ∃ r : VaultReply, let x := s.seat u; u.ok = true ∧ x.phase = .vaultWait ∧ x.vwait = some w ∧ w.reply = some r ∧ r.status ≠ 0) ∧
    (∃ s : State, ∃ u : SeatRef, ∃ rd : Fin 32, ∃ v : Word, ∃ rest : List Reader, ∃ s1 : State, let x := s.seat u; u.ok = true ∧ x.phase = .drbgWait rd ∧ (s.expander u.cluster).waiting = .seat u :: rest ∧ s.takeRandom u.cluster = some (v, s1)) ∧
    (∃ s : State, ∃ u : SeatRef, ∃ isC : Bool, ∃ kind : BitVec 11, ∃ obj : Word, ∃ ver : Word, let x := s.seat u; u.ok = true ∧ s.firstAnchorWait = some u ∧ x.phase = .anchorWait isC kind obj ver ∧ s.journal.intentRoom = true) ∧
    (∃ s : State, ∃ u : SeatRef, ∃ n : Nat, ∃ o : VaultOp, u.ok = true ∧ s.vault.ops.findIdx? (fun o => o.caller == .seat u && o.isPut && o.stage == .queued) = some n ∧ s.vault.ops[n]? = some o ∧ s.vault.state = .degraded) :=
  ⟨⟨here { run with sinceYield := 24000 }, u0, by decide +kernel⟩,
   ⟨here run, u0, by decide +kernel⟩,
   ⟨here { run with phase := .fetchWait }, u0, by decide +kernel⟩,
   ⟨here { vrun with phase := .vaultWait, vwait := some wait3 }, u0, wait3, reply3, by decide +kernel⟩,
   ⟨(here { run with phase := .drbgWait 7 }).setExpander 0 { Expander.fresh with buffer := List.replicate 8 1, waiting := [.seat u0] }, u0, 7, 0x0101010101010101, [], _, by exact ⟨by decide +kernel, by decide +kernel, by decide +kernel, rfl⟩⟩,
   ⟨here { vrun with phase := .anchorWait false 5 6 7 }, u0, false, 5, 6, 7, by decide +kernel⟩,
   ⟨{ here vrun with vault := { Vault.reset with state := .degraded, ops := [putOp] } }, u0, 0, putOp, by decide +kernel⟩⟩

theorem witness_ResponseSent :
    (∃ s : State, ∃ before : List Held, ∃ rest : List Held, ∃ h : Held, let owes := fun (d : Desc) => s.journal.orphans.any fun o => !o.settled && o.ofItem d; let d := h.desc; s.held = before ++ h :: rest ∧ (∀ g ∈ before, owes g.desc = true) ∧ owes d = false ∧ ((s.port d.port).sessions.find? d.session).any (·.carried d) = false ∨ (s.port d.port).openSession d.session = .none ∨ (s.port d.port).carries = false) ∧
    (∃ s : State, ∃ before : List Held, ∃ rest : List Held, ∃ h : Held, ∃ y, let owes := fun (d : Desc) => s.journal.orphans.any fun o => !o.settled && o.ofItem d; let d := h.desc; s.held = before ++ h :: rest ∧ (∀ g ∈ before, owes g.desc = true) ∧ owes d = false ∧ (s.port d.port).openSession d.session = some y ∧ y.carried d = true ∧ (s.port d.port).carries = true) ∧
    (∃ s : State, let owes := fun (d : Desc) => s.journal.orphans.any fun o => !o.settled && o.ofItem d; (∀ g ∈ s.held, owes g.desc = true)) :=
  ⟨⟨{ State.reset with held := [{ desc := { Desc.none with ticket := 77 }, payload := [] }, { desc := Desc.none, payload := [] }], journal := { Journal.reset with orphans := [{ record := mile 2, issued := false, left := 0, unknown := true, settled := false }] } }, [{ desc := { Desc.none with ticket := 77 }, payload := [] }], [], { desc := Desc.none, payload := [] }, by decide +kernel⟩,
   ⟨{ port { up with sessions := [(0, session1)] } with held := [{ desc := { Desc.none with opened := 1 }, payload := [] }] }, [], [], { desc := { Desc.none with opened := 1 }, payload := [] }, session1, by decide +kernel⟩,
   ⟨{ State.reset with held := [{ desc := { Desc.none with ticket := 77 }, payload := [] }], journal := { Journal.reset with orphans := [{ record := mile 2, issued := false, left := 0, unknown := true, settled := false }] } }, by decide +kernel⟩⟩

theorem witness_ItemsDispatched :
    (∃ s : State, ∃ c : Nat, clusterOk c = true ∧ s.takesOffers c = false) ∧
    (∃ s : State, ∃ c : Nat, ∃ src : BitVec 16, ∃ k : Nat, clusterOk c = true ∧ s.takesOffers c = true ∧ s.dueTest c = some (src, k)) ∧
    (∃ s : State, ∃ s1 : State, ∃ c : Nat, clusterOk c = true ∧ s.takesOffers c = true ∧ s.dueTest c = .none ∧ s.takeOwn c = some s1) ∧
    (∃ s : State, ∃ c : Nat, ∃ n : Nat, ∃ i : Item, let d := i.desc; clusterOk c = true ∧ s.takesOffers c = true ∧ s.dueTest c = .none ∧ s.takeOwn c = .none ∧ s.nextOffer c = some (n, i) ∧ i.suspended = .none ∧ i.stream = .none ∧ isJob d.id = false ∧ d.known = false) ∧
    (∃ s : State, ∃ c : Nat, ∃ n : Nat, ∃ i : Item, let d := i.desc; clusterOk c = true ∧ s.takesOffers c = true ∧ s.dueTest c = .none ∧ s.takeOwn c = .none ∧ s.nextOffer c = some (n, i) ∧ i.suspended = .none ∧ i.stream = .none ∧ isJob d.id = false ∧ d.known = true ∧ s.imageOf d.colour d.id = .none) ∧
    (∃ s : State, ∃ c : Nat, ∃ n : Nat, ∃ i : Item, ∃ x : Image, let d := i.desc; clusterOk c = true ∧ s.takesOffers c = true ∧ s.dueTest c = .none ∧ s.takeOwn c = .none ∧ s.nextOffer c = some (n, i) ∧ i.suspended = .none ∧ i.stream = .none ∧ isJob d.id = false ∧ d.known = true ∧ s.imageOf d.colour d.id = some x ∧ x.forbidden (((s.part? d.colour).map (·.policy)).getD 0) = true) ∧
    (∃ s : State, ∃ c : Nat, ∃ n : Nat, ∃ i : Item, ∃ x : Image, ∃ u : SeatRef, let d := i.desc; clusterOk c = true ∧ s.takesOffers c = true ∧ s.dueTest c = .none ∧ s.takeOwn c = .none ∧ s.nextOffer c = some (n, i) ∧ i.suspended = .none ∧ i.stream = .none ∧ isJob d.id = false ∧ d.known = true ∧ s.imageOf d.colour d.id = some x ∧ x.forbidden (((s.part? d.colour).map (·.policy)).getD 0) = false ∧ s.chooseSeat c = some u) ∧
    (∃ s : State, ∃ c : Nat, ∃ n : Nat, ∃ i : Item, let d := i.desc; clusterOk c = true ∧ s.takesOffers c = true ∧ s.dueTest c = .none ∧ s.takeOwn c = .none ∧ s.nextOffer c = some (n, i) ∧ i.suspended = .none ∧ i.stream = .none ∧ isJob d.id = true ∧ jobTypes.contains d.id.toNat = false) ∧
    (∃ s : State, ∃ c : Nat, ∃ n : Nat, ∃ i : Item, let d := i.desc; clusterOk c = true ∧ s.takesOffers c = true ∧ s.dueTest c = .none ∧ s.takeOwn c = .none ∧ s.nextOffer c = some (n, i) ∧ i.suspended = .none ∧ i.stream = .none ∧ isJob d.id = true ∧ jobTypes.contains d.id.toNat = true ∧ s.maeTakes c (s.jobLevel d) = true) :=
  ⟨⟨State.reset, 0, by decide +kernel⟩,
   ⟨{ withCluster awake with power := { Power.reset with selftests := [srcCluster 0 0x10] } }, 0, srcCluster 0 0x10, 0x10, by decide +kernel⟩,
   ⟨ownJobs (withCluster awake) [job 1], _, 0, by exact ⟨by decide +kernel, by decide +kernel, by decide +kernel, rfl⟩⟩,
   ⟨queued (desc1 0x1000 false) .pool lane1, 0, 0, item1 (desc1 0x1000 false) .pool, by decide +kernel⟩,
   ⟨queued (desc1 0x1000 true) .pool lane1, 0, 0, item1 (desc1 0x1000 true) .pool, by decide +kernel⟩,
   ⟨withImages (parted (queued (desc1 0x100 true) .pool lane1) { part1 with policy := 1 }) { image1 with id := 0x100, shared := true, classes := 1 }, 0, 0, item1 (desc1 0x100 true) .pool, { image1 with id := 0x100, shared := true, classes := 1 }, by decide +kernel⟩,
   ⟨withImage (queued (desc1 0x1000 true) .pool lane1), 0, 0, item1 (desc1 0x1000 true) .pool, image1, u0, by decide +kernel⟩,
   ⟨queued (desc1 3 true) .pool lane1, 0, 0, item1 (desc1 3 true) .pool, by decide +kernel⟩,
   ⟨queued (desc1 1 true) .pool lane1, 0, 0, item1 (desc1 1 true) .pool, by decide +kernel⟩⟩

theorem witness_SeatStarted :
    (∃ s : State, ∃ n : Nat, ∃ i : Item, ∃ x : Image, ∃ u : SeatRef, ∃ r : Fin 32, let s1 := ((s.leaves n i u.cluster).dispatched i.desc (srcTe u)).setSeat u (startSeat i.desc x (s.seatPhase u)); let s2 := (if s.seatPhase u = .running then s1.enterSeat u else s1).useGate u.cluster; u.ok = true ∧ s2.gateCheck u.cluster (dmaAccess i.desc.colour true (windowOff u) (max 1 i.payload.length)) = .none ∧ r ≠ 1 ∧ r ≠ 31) ∧
    (∃ s : State, ∃ n : Nat, ∃ i : Item, ∃ x : Image, ∃ u : SeatRef, ∃ a, let s1 := ((s.leaves n i u.cluster).dispatched i.desc (srcTe u)).setSeat u (startSeat i.desc x (s.seatPhase u)); let s2 := (if s.seatPhase u = .running then s1.enterSeat u else s1).useGate u.cluster; let saved := scratchBase (otherSeat u) + 0x3C00; u.ok = true ∧ s2.gateCheck u.cluster (dmaAccess i.desc.colour true (windowOff u) (max 1 i.payload.length)) = .none ∧ s.mem.wf ∧ (a < saved ∨ saved + 0x400 ≤ a)) :=
  ⟨⟨allowing (withImage (queued (desc1 0x1000 true) .pool lane1)), 0, item1 (desc1 0x1000 true) .pool, image1, u0, 30, by decide +kernel⟩,
   ⟨allowing (withImage (queued (desc1 0x1000 true) .pool lane1)), 0, item1 (desc1 0x1000 true) .pool, image1, u0, 0, by decide +kernel⟩⟩

theorem witness_ClusterPowerChanges :
    (∃ s : State, ∃ c : Nat, clusterOk c = true ∧ s.maySleep c = true ∧ s.clusterHeld c = false) ∧
    (∃ s : State, ∃ c : Nat, clusterOk c = true ∧ s.maySleep c = true ∧ s.clusterHeld c = true) ∧
    (∃ s : State, ∃ c : Nat, clusterOk c = true ∧ s.maySleep c = false) ∧
    (∃ s : State, ∃ c : Nat, clusterOk c = true ∧ (s.cluster c).power = .waking ∧ (s.cluster c).state = .inService) :=
  ⟨⟨{ withCluster awake with depot := { Depot.reset with warmFloor := 0 } }, 0, by decide +kernel⟩,
   ⟨{ withCluster awake with depot := { Depot.reset with warmFloor := 0 }, steward := { Steward.reset with holds := [srcWhole 0] } }, 0, by decide +kernel⟩,
   ⟨State.reset, 0, by decide +kernel⟩,
   ⟨withCluster { awake with power := .waking }, 0, by decide +kernel⟩⟩

theorem witness_DepotEvents :
    (∃ s : State, ∃ l : Nat, ∃ i : Item, ∃ cs : List Nat, laneOk l = true ∧ (s.depot.ofLane l).find? (fun i => i.place != .pool) = some i ∧ i.place = .overflow ∧ (s.lane l).refill = true ∨ 2 * s.depot.laneCells l < (s.lane l).quota ∧ (s.depot.laneCells l + i.need ≤ (s.lane l).quota ∨ s.depot.laneCells l = 0) ∧ s.depot.allocate i.desc.colour i.need = some cs) ∧
    (∃ s : State, ∃ l : Nat, ∃ i : Item, laneOk l = true ∧ (s.depot.ofLane l).find? (fun i => i.place != .pool) = some i ∧ i.place = .overflow ∧ (s.lane l).refill = false ∧ (s.lane l).quota ≤ 2 * s.depot.laneCells l ∨ s.depot.laneCells l ≠ 0 ∧ (s.lane l).quota < s.depot.laneCells l + i.need) ∧
    (∃ s : State, ∃ l : Nat, ∃ i : Item, laneOk l = true ∧ (s.depot.ofLane l).find? (fun i => i.place != .pool) = some i ∧ i.place = .refilling) ∧
    (∃ s : State, ∃ l : Nat, ∃ bank : Nat, ∃ cell : Nat, ∃ i : Item, laneOk l = true ∧ bank < 16 ∧ cell < 4096 ∧ s.depot.retired.contains (bank * 4096 + cell) = false ∧ s.depot.items.findIdx? (fun i => i.cells.contains (bank * 4096 + cell)) = .none) :=
  ⟨⟨queued (desc1 0x1000 true) .overflow lane1, 5, item1 (desc1 0x1000 true) .overflow, [1024], by decide +kernel⟩,
   ⟨queued (desc1 0x1000 true) .overflow { lane1 with quota := 0 }, 5, item1 (desc1 0x1000 true) .overflow, by decide +kernel⟩,
   ⟨queued (desc1 0x1000 true) .refilling lane1, 5, item1 (desc1 0x1000 true) .refilling, by decide +kernel⟩,
   ⟨State.reset, 16383, 15, 4095, item1 Desc.none .pool, by decide +kernel⟩⟩

theorem witness_StreamAndJobEvents :
    (∃ s : State, ∃ c : Nat, ∃ te : Nat, ∃ k : Nat, ∃ a : Nat, ∃ x : Stream, ∃ data : Bytes, ∃ rest : List (Nat × Bytes), clusterOk c = true ∧ te < 16 ∧ (s.te c te).stream = some k ∧ s.stream? k = some x ∧ x.pending = (a, data) :: rest) ∧
    (∃ s : State, ∃ s1 : State, ∃ c : Nat, ∃ te : Nat, ∃ k : Nat, ∃ x : Stream, ∃ key : Key, clusterOk c = true ∧ te < 16 ∧ s.fetches (s.te c te) = some k ∧ s.stream? k = some x ∧ x.loading = true ∧ x.handle2 = 0 ∧ s.fetchKey (s.lane x.lane).colour x.handle1 = (s1, some key)) ∧
    (∃ s : State, ∃ c : Nat, ∃ j : MaeJob, let m := (s.cluster c).mae; clusterOk c = true ∧ m.running = some j ∧ j.keyWait = true ∧ j.started = false) ∧
    (∃ s : State, ∃ c : Nat, ∃ j : MaeJob, let m := (s.cluster c).mae; let plain := j.keyWait = false ∧ j.squash = false ∧ (s.lane j.desc.lane).state ≠ .frozen ∧ m.saved.length < 4; clusterOk c = true ∧ m.running = some j ∧ plain ∧ s.quiescing c = true) ∧
    (∃ s : State, ∃ s1 : State, ∃ c : Nat, ∃ x : Stream, ∃ j : MaeJob, let m := (s.cluster c).mae; let save := s.modCluster c fun x => { x with mae := { x.mae with running := .none, saved := x.mae.saved ++ [j] } }; let plain := j.keyWait = false ∧ j.squash = false ∧ (s.lane j.desc.lane).state ≠ .frozen ∧ m.saved.length < 4; clusterOk c = true ∧ m.running = some j ∧ plain ∧ s.quiescing c = false ∧ save.nextJob c (s.jobLevel j.desc) = some s1) ∧
    (∃ s : State, ∃ c : Nat, ∃ x : Stream, ∃ j : MaeJob, let m := (s.cluster c).mae; let save := s.modCluster c fun x => { x with mae := { x.mae with running := .none, saved := x.mae.saved ++ [j] } }; let plain := j.keyWait = false ∧ j.squash = false ∧ (s.lane j.desc.lane).state ≠ .frozen ∧ m.saved.length < 4; clusterOk c = true ∧ m.running = some j ∧ plain ∧ s.quiescing c = false ∧ save.nextJob c (s.jobLevel j.desc) = .none) ∧
    (∃ s : State, ∃ c : Nat, ∃ j : MaeJob, let m := (s.cluster c).mae; let z := s.takeBytes c j.lacks; clusterOk c = true ∧ m.running = some j ∧ j.keyWait = false ∧ j.squash = false ∧ (j.verdict.isSome ∨ j.desc.own.isSome ∨ jobEffects j.desc.id.toNat = false ∨ s.journal.intentRoom = true) ∧ z.1.length = j.lacks) ∧
    (∃ s : State, ∃ c : Nat, ∃ j : MaeJob, let m := (s.cluster c).mae; let z := s.takeBytes c j.lacks; clusterOk c = true ∧ m.running = some j ∧ j.keyWait = false ∧ j.squash = false ∧ (j.verdict.isSome ∨ j.desc.own.isSome ∨ jobEffects j.desc.id.toNat = false ∨ s.journal.intentRoom = true) ∧ z.1.length < j.lacks) ∧
    (∃ s : State, ∃ c : Nat, ∃ j : MaeJob, let m := (s.cluster c).mae; clusterOk c = true ∧ m.running = some j ∧ j.keyWait = false ∧ j.squash = true) ∧
    (∃ s : State, ∃ c : Nat, let m := (s.cluster c).mae; clusterOk c = true ∧ m.kat = true) :=
  ⟨⟨serving { stream1 with pending := [(16, [1])] }, 0, 15, stream1.key, 16, { stream1 with pending := [(16, [1])] }, [1], [], by decide +kernel⟩,
   ⟨{ serving { stream1 with loading := true } with keys := { Keys.reset with caddy := [entry false] } }, _, 0, 15, stream1.key, { stream1 with loading := true }, (entry false).key, by exact ⟨by decide +kernel, by decide +kernel, by decide +kernel, by decide +kernel, by decide +kernel, by decide +kernel, rfl⟩⟩,
   ⟨onMae { job 1 with keyWait := true }, 0, { job 1 with keyWait := true }, by decide +kernel⟩,
   ⟨withEngagement (onMae (job 1)) engage, 0, job 1, by decide +kernel⟩,
   ⟨ownJobs (onMae (job 1)) [job 1], _, 0, stream1, job 1, by exact ⟨by decide +kernel, by decide +kernel, by decide +kernel, by decide +kernel, rfl⟩⟩,
   ⟨onMae (job 1), 0, stream1, job 1, by decide +kernel⟩,
   ⟨onMae (job 2), 0, job 2, by decide +kernel⟩,
   ⟨onMae (job 1), 0, job 1, by decide +kernel⟩,
   ⟨onMae { job 1 with squash := true }, 0, { job 1 with squash := true }, by decide +kernel⟩,
   ⟨withCluster { awake with mae := { Mae.fresh with kat := true } }, 0, by decide +kernel⟩⟩

theorem witness_MessagesAccepted : ∃ s : State, ∃ s2 : State, ∃ p : Nat, ∃ vc : Nat, ∃ raw : Bytes, ∃ x : Session, ∃ c : Instr, ∃ typ : Nat, let m := parseMsg p vc ((s.port p).expSeq - 1).toNat 16 raw; let y := { x with recvSeq := m.seq }; let z := match s.countedLane m y with | some i => y.countUnits i m.units | .none => y; let s1 := s.setSession p m.session z; vcOk p vc = true ∧ (c, typ) ∈ [(Instr.itinReq p vc raw, 0x01), (.bulkOpen p vc raw, 0x10), (.bulkData p vc raw, 0x11), (.bulkClose p vc raw, 0x12), (.vaultData p vc raw, 0x22), (.idleMessageReceipt p vc raw, 0x31), (.goingAway p vc raw, 0x32), (.violation p vc raw, 0x33)] ∧ (s.port p).link = .up ∧ (s.port p).held = [] ∧ m.typ = typ ∧ 48 ≤ raw.length ∧ raw.length = m.len ∧ m.len ≤ 8240 ∧ (s.port p).openSession m.session = some x ∧ x.vc = vc ∧ gcmTag x.key (messageIv m.session 0 p m.seq) (raw.take (raw.length - 16)) [] = raw.drop (raw.length - 16) ∧ x.recvSeq < m.seq ∧ s1.fieldsOk m z = true ∧ s1.rxEffect m z = some s2 :=
  ⟨port { up with sessions := [(0, session1), (1, session1)] }, _, 0, 2, sealed1, session1, .violation 0 2 sealed1, 0x33, by exact ⟨by decide +kernel, by decide +kernel, by decide +kernel, by decide +kernel, by decide +kernel, by decide +kernel, by decide +kernel, by decide +kernel, by decide +kernel, by decide +kernel, by decide +kernel, by decide +kernel, by decide +kernel, rfl⟩⟩

theorem witness_MessageChecks :
    (∃ m : Msg, let shaped := 48 ≤ m.raw.length ∧ m.len ≤ 8240 ∧ m.raw.length = m.len; (¬shaped)) ∧
    (∃ m : Msg, let shaped := 48 ≤ m.raw.length ∧ m.len ≤ 8240 ∧ m.raw.length = m.len; let known := shaped ∧ m.typ ∈ [0x01, 0x10, 0x11, 0x12, 0x22, 0x31, 0x32, 0x33]; shaped ∧ (¬known)) ∧
    (∃ s : State, ∃ m : Msg, let shaped := 48 ≤ m.raw.length ∧ m.len ≤ 8240 ∧ m.raw.length = m.len; let known := shaped ∧ m.typ ∈ [0x01, 0x10, 0x11, 0x12, 0x22, 0x31, 0x32, 0x33]; known ∧ (s.port m.port).openSession m.session = .none) ∧
    (∃ s : State, ∃ m : Msg, ∃ x : Session, let shaped := 48 ≤ m.raw.length ∧ m.len ≤ 8240 ∧ m.raw.length = m.len; let known := shaped ∧ m.typ ∈ [0x01, 0x10, 0x11, 0x12, 0x22, 0x31, 0x32, 0x33]; let opened := known ∧ (s.port m.port).openSession m.session = some x; opened ∧ x.vc ≠ m.vc) ∧
    (∃ s : State, ∃ m : Msg, ∃ x : Session, let shaped := 48 ≤ m.raw.length ∧ m.len ≤ 8240 ∧ m.raw.length = m.len; let known := shaped ∧ m.typ ∈ [0x01, 0x10, 0x11, 0x12, 0x22, 0x31, 0x32, 0x33]; let opened := known ∧ (s.port m.port).openSession m.session = some x; let whole := gcmTag x.key (messageIv m.session 0 m.port m.seq) (m.raw.take (m.raw.length - 16)) [] = m.raw.drop (m.raw.length - 16); opened ∧ x.vc = m.vc ∧ (¬whole)) ∧
    (∃ s : State, ∃ m : Msg, ∃ x : Session, let shaped := 48 ≤ m.raw.length ∧ m.len ≤ 8240 ∧ m.raw.length = m.len; let known := shaped ∧ m.typ ∈ [0x01, 0x10, 0x11, 0x12, 0x22, 0x31, 0x32, 0x33]; let opened := known ∧ (s.port m.port).openSession m.session = some x; let whole := gcmTag x.key (messageIv m.session 0 m.port m.seq) (m.raw.take (m.raw.length - 16)) [] = m.raw.drop (m.raw.length - 16); opened ∧ x.vc = m.vc ∧ whole ∧ m.seq ≤ x.recvSeq) :=
  ⟨⟨parseMsg 0 2 0 16 [], by decide +kernel⟩,
   ⟨{ parseMsg 0 2 0 16 (List.replicate 48 0) with typ := 0x21, len := 48 }, by decide +kernel⟩,
   ⟨State.reset, parseMsg 0 2 0 16 (sealed0), by decide +kernel⟩,
   ⟨port { up with sessions := [(0, session1), (1, session1)] }, parseMsg 0 3 0 16 (sealed0), session1, by decide +kernel⟩,
   ⟨port { up with sessions := [(0, session1), (1, session1)] }, parseMsg 0 2 0 16 (head0 1 ++ List.replicate 16 0), session1, by decide +kernel⟩,
   ⟨port { up with sessions := [(0, session1), (1, session1)] }, parseMsg 0 2 0 16 (sealed0), session1, by decide +kernel⟩⟩

theorem witness_MessageEffects :
    (∃ m : Msg, m.typ = 0x31) ∧
    (∃ m : Msg, m.typ = 0x33 ∧ 1 ≤ m.a ∧ m.a ≤ 15) ∧
    (∃ m : Msg, m.typ = 0x32) ∧
    (∃ s : State, ∃ m : Msg, ∃ x : Session, ∃ l : Nat, let bulk := m.typ = 0x10 ∧ x.closing = false ∧ s.laneOf x.colour m.lane = some l ∧ (s.lane l).cls = 3; bulk ∧ bulkDescOk m.body = false) ∧
    (∃ s : State, ∃ m : Msg, ∃ x : Session, ∃ l : Nat, let bulk := m.typ = 0x10 ∧ x.closing = false ∧ s.laneOf x.colour m.lane = some l ∧ (s.lane l).cls = 3; let room := (s.port m.port).streams.length < 1024 ∧ s.msgStream m = .none; bulk ∧ bulkDescOk m.body = true ∧ (¬room)) ∧
    (∃ s : State, ∃ s1 : State, ∃ m : Msg, ∃ x : Session, ∃ l : Nat, let bulk := m.typ = 0x10 ∧ x.closing = false ∧ s.laneOf x.colour m.lane = some l ∧ (s.lane l).cls = 3; let room := (s.port m.port).streams.length < 1024 ∧ s.msgStream m = .none; bulk ∧ bulkDescOk m.body = true ∧ room ∧ s.bulkKeys x.colour m.body = (s1, .none)) ∧
    (∃ s : State, ∃ s1 : State, ∃ m : Msg, ∃ x : Session, ∃ l : Nat, ∃ k : Key, let bulk := m.typ = 0x10 ∧ x.closing = false ∧ s.laneOf x.colour m.lane = some l ∧ (s.lane l).cls = 3; let room := (s.port m.port).streams.length < 1024 ∧ s.msgStream m = .none; bulk ∧ bulkDescOk m.body = true ∧ room ∧ s.bulkKeys x.colour m.body = (s1, some k) ∧ (s1.lane l).state ≠ .opened) ∧
    (∃ s : State, ∃ s1 : State, ∃ m : Msg, ∃ x : Session, ∃ l : Nat, ∃ k : Key, let bulk := m.typ = 0x10 ∧ x.closing = false ∧ s.laneOf x.colour m.lane = some l ∧ (s.lane l).cls = 3; let room := (s.port m.port).streams.length < 1024 ∧ s.msgStream m = .none; bulk ∧ bulkDescOk m.body = true ∧ room ∧ s.bulkKeys x.colour m.body = (s1, some k) ∧ (s1.lane l).state = .opened) ∧
    (∃ s : State, ∃ m : Msg, m.typ = 0x11 ∧ s.msgStream m = .none) ∧
    (∃ s : State, ∃ m : Msg, ∃ y : Stream, m.typ = 0x11 ∧ s.msgStream m = some y ∧ y.announced = false) ∧
    (∃ s : State, ∃ m : Msg, ∃ y : Stream, m.typ = 0x11 ∧ s.msgStream m = some y ∧ y.announced = true ∧ m.c ≠ y.received) ∧
    (∃ s : State, ∃ m : Msg, ∃ y : Stream, m.typ = 0x11 ∧ s.msgStream m = some y ∧ y.announced = true ∧ m.c = y.received ∧ y.closeReq = .none ∧ (m.body.length % 16 ≠ 0 ∨ y.short = true)) ∧
    (∃ s : State, ∃ m : Msg, m.typ = 0x12 ∧ s.msgStream m = .none) ∧
    (∃ m : Msg, ∃ x : Session, m.typ = 0x01 ∧ x.closing = true) :=
  ⟨⟨{ parseMsg 0 2 0 16 (List.replicate 48 0) with typ := 0x31, len := 48 }, by decide +kernel⟩,
   ⟨{ parseMsg 0 2 0 16 (List.replicate 48 0) with typ := 0x33, len := 48, a := 1 }, by decide +kernel⟩,
   ⟨{ parseMsg 0 2 0 16 (List.replicate 48 0) with typ := 0x32, len := 48 }, by decide +kernel⟩,
   ⟨State.reset.setLane 6 { Lane.free with colour := 0, index := 1, cls := 3, state := .opened }, { parseMsg 0 2 0 16 (List.replicate 48 0) with typ := 0x10, len := 48, lane := 1 }, { session1 with colour := 0 }, 6, by decide +kernel⟩,
   ⟨{ State.reset.setLane 6 { Lane.free with colour := 0, index := 1, cls := 3, state := .opened } with port0 := { up with streams := [stream1] } }, { parseMsg 0 2 0 16 (List.replicate 48 0) with typ := 0x10, len := 48, lane := 1, sessF := 3, b := 4294967296, body := [2, 0, 0, 0, 0, 0, 0, 0] ++ natBE 8 5 ++ List.replicate 32 0 }, { session1 with colour := 0 }, 6, by decide +kernel⟩,
   ⟨State.reset.setLane 6 { Lane.free with colour := 0, index := 1, cls := 3, state := .opened }, _, { parseMsg 0 2 0 16 (List.replicate 48 0) with typ := 0x10, len := 48, lane := 1, body := [2, 0, 0, 0, 0, 0, 0, 0] ++ natBE 8 5 ++ List.replicate 32 0 }, { session1 with colour := 0 }, 6, by exact ⟨by decide +kernel, by decide +kernel, by decide +kernel, rfl⟩⟩,
   ⟨{ (State.reset.setLane 6 { Lane.free with colour := 0, index := 1, cls := 3, state := .closed }) with keys := { Keys.reset with caddy := [entry false] } }, _, { parseMsg 0 2 0 16 (List.replicate 48 0) with typ := 0x10, len := 48, lane := 1, body := [2, 0, 0, 0, 0, 0, 0, 0] ++ natBE 8 5 ++ List.replicate 32 0 }, { session1 with colour := 0 }, 6, (entry false).key, by exact ⟨by decide +kernel, by decide +kernel, by decide +kernel, rfl, by decide +kernel⟩⟩,
   ⟨{ (State.reset.setLane 6 { Lane.free with colour := 0, index := 1, cls := 3, state := .opened }) with keys := { Keys.reset with caddy := [entry false] } }, _, { parseMsg 0 2 0 16 (List.replicate 48 0) with typ := 0x10, len := 48, lane := 1, body := [2, 0, 0, 0, 0, 0, 0, 0] ++ natBE 8 5 ++ List.replicate 32 0 }, { session1 with colour := 0 }, 6, (entry false).key, by exact ⟨by decide +kernel, by decide +kernel, by decide +kernel, rfl, by decide +kernel⟩⟩,
   ⟨State.reset, { parseMsg 0 2 0 16 (List.replicate 48 0) with typ := 0x11, len := 48 }, by decide +kernel⟩,
   ⟨{ State.reset with port0 := { up with streams := [stream1] } }, { parseMsg 0 2 0 16 (List.replicate 48 0) with typ := 0x11, len := 48, sessF := 3, b := 4294967296 }, stream1, by decide +kernel⟩,
   ⟨{ State.reset with port0 := { up with streams := [{ stream1 with announced := true }] } }, { parseMsg 0 2 0 16 (List.replicate 48 0) with typ := 0x11, len := 48, sessF := 3, b := 4294967296, c := 1 }, { stream1 with announced := true }, by decide +kernel⟩,
   ⟨{ State.reset with port0 := { up with streams := [{ stream1 with announced := true }] } }, { parseMsg 0 2 0 16 (List.replicate 48 0) with typ := 0x11, len := 48, sessF := 3, b := 4294967296, body := [1] }, { stream1 with announced := true }, by decide +kernel⟩,
   ⟨State.reset, { parseMsg 0 2 0 16 (List.replicate 48 0) with typ := 0x12, len := 48 }, by decide +kernel⟩,
   ⟨{ parseMsg 0 2 0 16 (List.replicate 48 0) with typ := 0x01, len := 48 }, { session1 with closing := true }, by decide +kernel⟩⟩

theorem witness_ChannelEvents :
    (∃ p : Nat, ∃ vc : Nat, vcOk p vc = true) ∧
    (∃ s : State, ∃ p : Nat, ∃ n : Nat, ∃ x : Session, sessionOk p n = true ∧ (s.port p).openSession n = some x ∧ (s.port p).carries = true) :=
  ⟨⟨1, 7, by decide +kernel⟩,
   ⟨port { up with sessions := [(0, session1), (4095, session1)] }, 0, 4095, session1, by decide +kernel⟩⟩

theorem witness_FramesReceived :
    (∃ s : State, ∃ p : Nat, ∃ f : Bytes, portOk p = true ∧ (s.port p).link = .up ∧ frameOk f = false) ∧
    (∃ s : State, ∃ p : Nat, ∃ f : Bytes, let h := s.heardHeader p f; let seq := BitVec.ofNat 16 (fieldBE f 4 2); let comes := fun (typ : Nat) => frameOk f = true ∧ fieldBE f 0 1 = typ ∧ fieldBE f 0x0C 2 = (s.port p).peerEpoch.toNat; portOk p = true ∧ (s.port p).link = .up ∧ comes 1 ∧ seq = (h.port p).expSeq) ∧
    (∃ s : State, ∃ p : Nat, ∃ f : Bytes, let h := s.heardHeader p f; let seq := BitVec.ofNat 16 (fieldBE f 4 2); let comes := fun (typ : Nat) => frameOk f = true ∧ fieldBE f 0 1 = typ ∧ fieldBE f 0x0C 2 = (s.port p).peerEpoch.toNat; portOk p = true ∧ (s.port p).link = .up ∧ comes 1 ∧ seq ≠ (h.port p).expSeq ∧ frameLe (h.port p).expSeq seq = true) ∧
    (∃ s : State, ∃ p : Nat, ∃ f : Bytes, let h := s.heardHeader p f; let seq := BitVec.ofNat 16 (fieldBE f 4 2); let comes := fun (typ : Nat) => frameOk f = true ∧ fieldBE f 0 1 = typ ∧ fieldBE f 0x0C 2 = (s.port p).peerEpoch.toNat; portOk p = true ∧ (s.port p).link = .up ∧ comes 1 ∧ seq ≠ (h.port p).expSeq ∧ frameLe (h.port p).expSeq seq = false) ∧
    (∃ s : State, ∃ p : Nat, ∃ f : Bytes, let comes := fun (typ : Nat) => frameOk f = true ∧ fieldBE f 0 1 = typ ∧ fieldBE f 0x0C 2 = (s.port p).peerEpoch.toNat; portOk p = true ∧ (s.port p).link = .up ∧ comes 2) ∧
    (∃ s : State, ∃ p : Nat, ∃ f : Bytes, let h := s.heardHeader p f; let comes := fun (typ : Nat) => frameOk f = true ∧ fieldBE f 0 1 = typ ∧ fieldBE f 0x0C 2 = (s.port p).peerEpoch.toNat; portOk p = true ∧ (s.port p).link = .up ∧ comes 3 ∧ (h.port p).replayRuns < 8) ∧
    (∃ s : State, ∃ p : Nat, ∃ f : Bytes, let h := s.heardHeader p f; let comes := fun (typ : Nat) => frameOk f = true ∧ fieldBE f 0 1 = typ ∧ fieldBE f 0x0C 2 = (s.port p).peerEpoch.toNat; portOk p = true ∧ (s.port p).link = .up ∧ comes 3 ∧ 8 ≤ (h.port p).replayRuns ∧ (h.port p).link = .up) :=
  ⟨⟨port up, 0, [], by decide +kernel⟩,
   ⟨port up, 0, buildFrame up 1 0 0 64 0 [], by decide +kernel⟩,
   ⟨port up, 0, buildFrame up 1 0 0 64 1 [], by decide +kernel⟩,
   ⟨port up, 0, buildFrame up 1 0 0 64 65535 [], by decide +kernel⟩,
   ⟨port up, 0, buildFrame up 2 0 0 64 0 [], by decide +kernel⟩,
   ⟨port { up with replayRuns := 7 }, 0, buildFrame up 3 0 0 64 0 [], by decide +kernel⟩,
   ⟨port { up with replayRuns := 8 }, 0, buildFrame up 3 0 0 64 0 [], by decide +kernel⟩⟩

theorem witness_HeartbeatAndReplay :
    (∃ s : State, ∃ p : Nat, let pt := s.port p; portOk p = true ∧ (s.port p).link = .up ∧ pt.ackValid = true) ∧
    (∃ s : State, ∃ p : Nat, ∃ f : RetryFrame, ∃ r : List RetryFrame, let pt := s.port p; portOk p = true ∧ (s.port p).link = .up ∧ pt.retry = f :: r ∧ pt.txSuspended = false ∧ pt.replayRuns < 8) ∧
    (∃ s : State, ∃ p : Nat, ∃ f : RetryFrame, ∃ r : List RetryFrame, let pt := s.port p; portOk p = true ∧ (s.port p).link = .up ∧ pt.retry = f :: r ∧ pt.txSuspended = false ∧ 8 ≤ pt.replayRuns) :=
  ⟨⟨port { up with ackValid := true }, 0, by decide +kernel⟩,
   ⟨port { up with retry := [retry1], replayRuns := 7 }, 0, retry1, [], by decide +kernel⟩,
   ⟨port { up with retry := [retry1], replayRuns := 8 }, 0, retry1, [], by decide +kernel⟩⟩

theorem witness_LinkStateChanges :
    (∃ s : State, ∃ p : Nat, let pt := s.port p; portOk p = true ∧ pt.link = .training ∧ pt.rxRetired ≤ 1) ∧
    (∃ s : State, ∃ p : Nat, portOk p = true ∧ s.mayTrain p = true) ∧
    (∃ s : State, ∃ p : Nat, let pt := s.port p; portOk p = true ∧ pt.link = .retrain ∧ pt.failedRetrains < 2) ∧
    (∃ s : State, ∃ p : Nat, let pt := s.port p; portOk p = true ∧ pt.link = .retrain ∧ 2 ≤ pt.failedRetrains) ∧
    (∃ s : State, ∃ p : Nat, let pt := s.port p; portOk p = true ∧ pt.link = .up ∧ pt.remap = .none ∧ pt.partnerStop = .none) ∧
    (∃ s : State, ∃ p : Nat, ∃ d, let pt := s.port p; portOk p = true ∧ pt.link = .up ∧ pt.remap = .none ∧ pt.partnerStop = some d ∧ s.now ≤ d) ∧
    (∃ s : State, ∃ p : Nat, ∃ r, let pt := s.port p; portOk p = true ∧ pt.link = .up ∧ pt.remap = some r ∧ r.suspended = true) ∧
    (∃ s : State, ∃ p : Nat, let pt := s.port p; portOk p = true ∧ pt.violDown = true) ∧
    (∃ s : State, ∃ p : Nat, let pt := s.port p; portOk p = true ∧ pt.link = .down ∧ pt.enable = true ∧ pt.violDown = false ∧ s.faults.class3Active = false ∧ s.faults.grave = false ∧ s.power.porst = false ∧ s.power.step ∈ [.s9b, .s10, .done]) ∧
    (∃ s : State, ∃ p : Nat, let pt := s.port p; portOk p = true ∧ s.power.step ∉ [.s9b, .s10, .done] ∧ pt.link = .down) ∧
    (∃ s : State, ∃ p : Nat, let pt := s.port p; portOk p = true ∧ (pt.link = .init ∨ pt.link = .retrain)) ∧
    (∃ s : State, ∃ p : Nat, ∃ f : Bytes, let pt := s.port p; portOk p = true ∧ pt.link = .init ∧ pt.aligned = true ∧ pt.initAckSent = false ∧ frameOk f = true ∧ fieldBE f 0 1 = 4 ∧ f.length = 72 ∧ fieldBE f 0x10 1 = 1) ∧
    (∃ s : State, ∃ p : Nat, ∃ f : Bytes, let pt := s.port p; portOk p = true ∧ pt.link = .up ∧ frameOk f = true ∧ fieldBE f 0 1 = 4 ∧ f.length = 72 ∧ fieldBE f 0x10 1 = 1 ∧ bit (fieldBE f 0x11 1) 1 = false ∧ BitVec.ofNat 16 (fieldBE f 0x0C 2) = pt.peerEpoch) :=
  ⟨⟨port { Port.delivered with link := .training, retiredLanes := [4] }, 0, by decide +kernel⟩,
   ⟨{ ready with power := { ready.power with step := .done }, port0 := { Port.delivered with enable := true, refclk := true } }, 0, by decide +kernel⟩,
   ⟨port { Port.delivered with link := .retrain, failedRetrains := 1 }, 0, by decide +kernel⟩,
   ⟨port { Port.delivered with link := .retrain, failedRetrains := 2 }, 0, by decide +kernel⟩,
   ⟨port { Port.delivered with link := .up }, 0, by decide +kernel⟩,
   ⟨port { up with partnerStop := some 5 }, 0, 5, by decide +kernel⟩,
   ⟨port { up with remap := some remap1 }, 0, remap1, by decide +kernel⟩,
   ⟨port { Port.delivered with violDown := true }, 0, by decide +kernel⟩,
   ⟨{ ready with power := { ready.power with step := .s9b }, port0 := { Port.delivered with enable := true } }, 0, by decide +kernel⟩,
   ⟨{ ready with power := { ready.power with step := .s8 }, port0 := Port.delivered }, 0, by decide +kernel⟩,
   ⟨port { Port.delivered with link := .init }, 0, by decide +kernel⟩,
   ⟨port { Port.delivered with link := .init, aligned := true }, 0, buildFrame up 4 0 0 72 0 [1, 1], by decide +kernel⟩,
   ⟨port up, 0, buildFrame up 4 0 0 72 0 [1, 1], by decide +kernel⟩⟩

theorem witness_PortDownLeaves : ∃ s : State, ∃ p : Nat, portOk p = true ∧ (s.port p).link ≠ .down ∧ (s.port p).sessions.wf :=
  ⟨port { up with sessions := [(1, session1), (7, session1)] }, 0, by decide +kernel⟩

theorem witness_LaneReplacement :
    (∃ s : State, ∃ p : Nat, ∃ sl : Nat, let pt := s.port p; slOk p sl = true ∧ pt.link = .up ∧ sl ∈ pt.rxMap.toList ∧ pt.remap = .none ∧ pt.peerReserve = true ∧ pt.rxReserve = false) ∧
    (∃ s : State, ∃ p : Nat, ∃ sl : Nat, ∃ r : Remap, let pt := s.port p; slOk p sl = true ∧ pt.remap = some r ∧ r.doneSeen = true ∧ r.aligned = false) ∧
    (∃ s : State, ∃ p : Nat, ∃ sl : Nat, ∃ r : Remap, let pt := s.port p; slOk p sl = true ∧ pt.remap = some r ∧ r.suspended = true ∧ (pt.txSuspended = true → r.since ≤ pt.txSince)) ∧
    (∃ s : State, ∃ p : Nat, ∃ sl : Nat, ∃ r : Remap, let pt := s.port p; slOk p sl = true ∧ pt.remap = some r ∧ r.suspended = true ∧ pt.txSuspended = true ∧ pt.txSince < r.since) ∧
    (∃ s : State, ∃ p : Nat, ∃ sl : Nat, ∃ f : Bytes, let pt := s.port p; let h := s.heardHeader p f; slOk p sl = true ∧ pt.link = .up ∧ frameOk f = true ∧ fieldBE f 0 1 = 5 ∧ fieldBE f 0x0C 2 = pt.peerEpoch.toNat ∧ fieldBE f 0x10 1 = 1 ∧ fieldBE f 0x11 1 = sl ∧ sl ∈ (h.port p).laneMap.toList ∧ pt.peerReserve = false) ∧
    (∃ s : State, ∃ p : Nat, ∃ sl : Nat, ∃ f : Bytes, let pt := s.port p; let h := s.heardHeader p f; slOk p sl = true ∧ pt.link = .up ∧ frameOk f = true ∧ fieldBE f 0 1 = 5 ∧ fieldBE f 0x0C 2 = pt.peerEpoch.toNat ∧ fieldBE f 0x10 1 = 1 ∧ fieldBE f 0x11 1 = sl ∧ sl ∈ (h.port p).laneMap.toList ∧ pt.peerReserve = true ∧ (h.port p).txReserve = false) :=
  ⟨⟨port { up with peerReserve := true }, 0, 3, by decide +kernel⟩,
   ⟨port { up with remap := some remap1 }, 0, 4, remap1, by decide +kernel⟩,
   ⟨port { up with remap := some remap1 }, 0, 4, remap1, by decide +kernel⟩,
   ⟨port { up with remap := some { remap1 with since := 5 }, txSuspended := true }, 0, 4, { remap1 with since := 5 }, by decide +kernel⟩,
   ⟨port up, 0, 3, buildFrame up 5 0 0 64 0 [1, 3], by decide +kernel⟩,
   ⟨port { up with peerReserve := true }, 0, 3, buildFrame up 5 0 0 64 0 [1, 3], by decide +kernel⟩⟩

theorem witness_StopsAndSessions :
    (∃ s : State, ∃ p : Nat, let pt := s.port p; portOk p = true ∧ pt.stop = .draining) ∧
    (∃ s : State, ∃ p : Nat, let pt := s.port p; portOk p = true ∧ pt.stop = .ackWait ∧ pt.retry = [] ∧ pt.waitQ = []) ∧
    (∃ s : State, ∃ p : Nat, ∃ n : Nat, ∃ x : Session, let pt := s.port p; portOk p = true ∧ n < 4096 ∧ pt.sessions.find? n = some x ∧ x.closing = true ∧ s.sessionBusy p n = false) :=
  ⟨⟨port { Port.delivered with stop := .draining }, 0, by decide +kernel⟩,
   ⟨port { Port.delivered with stop := .ackWait }, 0, by decide +kernel⟩,
   ⟨port { up with sessions := [(4095, { session1 with closing := true })] }, 0, 4095, { session1 with closing := true }, by decide +kernel⟩⟩

theorem witness_RingRegisters :
    (∃ s : State, ∃ fn : Nat, ∃ v : BitVec 32, ∃ c, fnOk fn = true ∧ s.takesWrites fn = false ∧ c ∈ [Instr.ringCtrlEnable fn v, .cmdTail fn v, .cplHead fn v, .go fn v]) ∧
    (∃ s : State, ∃ fn : Nat, ∃ v : BitVec 32, let f := s.func fn; fnOk fn = true ∧ s.takesWrites fn = true ∧ f.ringEnable = false ∧ v.getLsbD 0 = true ∧ 4 ≤ v.toNat / 256 % 32 ∧ v.toNat / 256 % 32 ≤ 16 ∧ 4 ≤ v.toNat / 65536 % 32 ∧ v.toNat / 65536 % 32 ≤ 16) ∧
    (∃ s : State, ∃ fn : Nat, ∃ v : BitVec 32, fnOk fn = true ∧ s.takesWrites fn = true ∧ v.getLsbD 0 = true ∧ (v.toNat / 256 % 32 < 4 ∨ 16 < v.toNat / 256 % 32 ∨ v.toNat / 65536 % 32 < 4 ∨ 16 < v.toNat / 65536 % 32)) ∧
    (∃ s : State, ∃ fn : Nat, ∃ v : BitVec 32, fnOk fn = true ∧ s.takesWrites fn = true ∧ v.getLsbD 0 = false) ∧
    (∃ s : State, ∃ fn : Nat, ∃ v : BitVec 32, let f := s.func fn; let i := v.toNat % 65536; fnOk fn = true ∧ s.takesWrites fn = true ∧ f.ringEnable = true ∧ i < 2 ^ f.cmdLog2) ∧
    (∃ s : State, ∃ fn : Nat, ∃ v : BitVec 32, let f := s.func fn; let i := v.toNat % 65536; fnOk fn = true ∧ s.takesWrites fn = true ∧ f.ringEnable = true ∧ 2 ^ f.cmdLog2 ≤ i) ∧
    (∃ s : State, ∃ fn : Nat, ∃ v : BitVec 32, let f := s.func fn; let i := v.toNat % 65536; fnOk fn = true ∧ s.takesWrites fn = true ∧ f.ringEnable = true ∧ i < 2 ^ f.cplLog2 ∧ (i + 2 ^ f.cplLog2 - f.cplHead.toNat) % 2 ^ f.cplLog2 ≤ (f.cplTail.toNat + 2 ^ f.cplLog2 - f.cplHead.toNat) % 2 ^ f.cplLog2) ∧
    (∃ s : State, ∃ fn : Nat, ∃ v : BitVec 32, let f := s.func fn; let i := v.toNat % 65536; fnOk fn = true ∧ s.takesWrites fn = true ∧ f.ringEnable = true ∧ i < 2 ^ f.cplLog2 ∧ (f.cplTail.toNat + 2 ^ f.cplLog2 - f.cplHead.toNat) % 2 ^ f.cplLog2 < (i + 2 ^ f.cplLog2 - f.cplHead.toNat) % 2 ^ f.cplLog2) ∧
    (∃ s : State, ∃ fn : Nat, ∃ v : BitVec 32, let f := s.func fn; let i := v.toNat % 65536; fnOk fn = true ∧ s.takesWrites fn = true ∧ f.ringEnable = true ∧ 2 ^ f.cplLog2 ≤ i) ∧
    (∃ s : State, ∃ fn : Nat, ∃ v : BitVec 32, let f := s.func fn; fnOk fn = true ∧ s.takesWrites fn = true ∧ v.getLsbD 0 = true ∧ f.mbxBusy = true) :=
  ⟨⟨State.reset, 0, 1, .cmdTail 0 1, by decide +kernel⟩,
   ⟨ready, 0, 0x101001, by decide +kernel⟩,
   ⟨ready, 0, 0x100301, by decide +kernel⟩,
   ⟨ready, 0, 0x101000, by decide +kernel⟩,
   ⟨func ready 0 ringFn, 0, 15, by decide +kernel⟩,
   ⟨func ready 0 ringFn, 0, 16, by decide +kernel⟩,
   ⟨func ready 0 { ringFn with cplTail := 15 }, 0, 15, by decide +kernel⟩,
   ⟨func ready 0 { ringFn with cplTail := 3 }, 0, 4, by decide +kernel⟩,
   ⟨func ready 0 ringFn, 0, 16, by decide +kernel⟩,
   ⟨func ready 0 { Func.default 0 with mbxBusy := true }, 0, 1, by decide +kernel⟩⟩

theorem witness_CommandsTakenIn :
    (∃ s : State, ∃ fn : Nat, ∃ v : BitVec 32, fnOk fn = true ∧ v.getLsbD 0 = true ∧ (s.func fn).mbxBusy = false ∧ s.power.standby ≠ .entered ∧ s.serves fn .mailbox = true) ∧
    (∃ s : State, ∃ fn : Nat, ∃ v : BitVec 32, fnOk fn = true ∧ v.getLsbD 0 = true ∧ (s.func fn).mbxBusy = false ∧ (s.power.standby ≠ .entered ∨ fn ≠ 0) ∧ s.serves fn .mailbox = false) ∧
    (∃ s : State, ∃ fn : Nat, ∃ v : BitVec 32, fnOk fn = true ∧ v.getLsbD 0 = true ∧ (s.func 0).mbxBusy = false ∧ s.power.standby = .entered ∧ s.takesWrites 0 = true) ∧
    (∃ s : State, ∃ fn : Nat, ∃ entry : Bytes, fnOk fn = true ∧ s.serves fn .ring = true ∧ s.mayFetch fn (bit (fieldLE entry 2 2) 1) = true) ∧
    (∃ s : State, ∃ fn : Nat, ∃ entry : Bytes, fnOk fn = true ∧ (s.serves fn .ring = false ∨ s.mayFetch fn (bit (fieldLE entry 2 2) 1) = false)) ∧
    (∃ fn : Nat, ∃ op : Nat, ∃ sp : Spec, fnOk fn = true ∧ specOf op = some sp) :=
  ⟨⟨ready, 0, 1, by decide +kernel⟩,
   ⟨State.reset, 0, 1, by decide +kernel⟩,
   ⟨{ ready with power := { ready.power with standby := .entered } }, 0, 1, by decide +kernel⟩,
   ⟨func ready 0 ringFn, 0, List.replicate 64 0, by decide +kernel⟩,
   ⟨State.reset, 0, List.replicate 64 0, by decide +kernel⟩,
   ⟨1023, 0x0101, ⟨0x0101, false, false, .A, false⟩, by decide +kernel⟩⟩

theorem witness_FunctionRegisters :
    (∃ s : State, ∃ fn : Nat, ∃ off : Nat, fnOk fn = true ∧ s.takesWrites fn = true ∧ off = 0x50) ∧
    (∃ s : State, ∃ fn : Nat, ∃ off : Nat, ∃ v : BitVec 32, fnOk fn = true ∧ s.takesWrites fn = true ∧ off = 0x1004 ∧ v.getLsbD 2 = true) ∧
    (∃ s : State, ∃ fn : Nat, ∃ off : Nat, ∃ v : BitVec 32, fnOk fn = true ∧ (s.takesWrites fn = false ∨ off ≠ 0x50 ∧ ¬(off = 0x1004 ∧ v.getLsbD 2 = true))) ∧
    (∃ s : State, ∃ fn : Nat, ∃ off : Nat, ∃ size : Nat, let f := s.func fn; fnOk fn = true ∧ (s.takesWrites fn = false ∨ accessOk fn off size f.vectors = false)) ∧
    (∃ s : State, ∃ fn : Nat, ∃ off : Nat, let f := s.func fn; let whole := s.takesWrites fn = true ∧ accessOk fn off 4 f.vectors = true; fnOk fn = true ∧ whole ∧ off = 0x20) ∧
    (∃ s : State, ∃ fn : Nat, ∃ off : Nat, let f := s.func fn; let whole := s.takesWrites fn = true ∧ accessOk fn off 4 f.vectors = true; fnOk fn = true ∧ whole ∧ off = 0x24) ∧
    (∃ s : State, ∃ fn : Nat, ∃ off : Nat, let f := s.func fn; let whole := s.takesWrites fn = true ∧ accessOk fn off 4 f.vectors = true; fnOk fn = true ∧ whole ∧ off = 0x28) ∧
    (∃ s : State, ∃ fn : Nat, ∃ off : Nat, let f := s.func fn; let whole := s.takesWrites fn = true ∧ accessOk fn off 4 f.vectors = true; fnOk fn = true ∧ whole ∧ off = 0x2C) ∧
    (∃ s : State, ∃ fn : Nat, ∃ off : Nat, let f := s.func fn; let whole := s.takesWrites fn = true ∧ accessOk fn off 4 f.vectors = true; fnOk fn = true ∧ whole ∧ off = 0x44) ∧
    (∃ s : State, ∃ fn : Nat, ∃ off : Nat, let f := s.func fn; let whole := s.takesWrites fn = true ∧ accessOk fn off 4 f.vectors = true; fnOk fn = true ∧ whole ∧ off = 0x48) ∧
    (∃ s : State, ∃ fn : Nat, ∃ off : Nat, let f := s.func fn; let whole := s.takesWrites fn = true ∧ accessOk fn off 4 f.vectors = true; fnOk fn = true ∧ whole ∧ 0x1040 ≤ off ∧ off < 0x1080) ∧
    (∃ s : State, ∃ fn : Nat, ∃ off : Nat, let f := s.func fn; let whole := s.takesWrites fn = true ∧ accessOk fn off 4 f.vectors = true; fnOk fn = true ∧ whole ∧ 0x1100 ≤ off ∧ off < 0x1900) ∧
    (∃ s : State, ∃ fn : Nat, ∃ off : Nat, ∃ w : Word, let f := s.func fn; let n := w.toNat % 2 ^ 32; let msix := msixBase fn; let whole := s.takesWrites fn = true ∧ accessOk fn off 4 f.vectors = true; let g := { f with msix := f.msix.set ((off - msix) / 4) (BitVec.ofNat 32 n) }; let vec := (off - msix) / 16; fnOk fn = true ∧ whole ∧ msix ≤ off ∧ off < msix + 16 * f.vectors ∧ (f.pba.contains vec = false ∨ g.masked vec = true)) ∧
    (∃ s : State, ∃ fn : Nat, ∃ off : Nat, ∃ w : Word, let f := s.func fn; let n := w.toNat % 2 ^ 32; let msix := msixBase fn; let whole := s.takesWrites fn = true ∧ accessOk fn off 4 f.vectors = true; let g := { f with msix := f.msix.set ((off - msix) / 4) (BitVec.ofNat 32 n) }; let vec := (off - msix) / 16; fnOk fn = true ∧ whole ∧ msix ≤ off ∧ off < msix + 16 * f.vectors ∧ f.pba.contains vec = true ∧ g.masked vec = false) ∧
    (∃ s : State, ∃ fn : Nat, ∃ off : Nat, let f := s.func fn; let msix := msixBase fn; let whole := s.takesWrites fn = true ∧ accessOk fn off 4 f.vectors = true; fnOk fn = true ∧ whole ∧ off ∉ [0x20, 0x24, 0x28, 0x2C, 0x44, 0x48] ∧ (off < 0x1040 ∨ 0x1080 ≤ off ∧ off < 0x1100 ∨ 0x1900 ≤ off ∧ off < msix ∨ msix + 16 * f.vectors ≤ off)) ∧
    (∃ s : State, ∃ fn : Nat, ∃ off : Nat, let f := s.func fn; fnOk fn = true ∧ s.takesWrites fn = true ∧ accessOk fn off 8 f.vectors = true) ∧
    (∃ s : State, ∃ fn : Nat, let f := s.func fn; fnOk fn = true ∧ f.unsignalled ≠ 0 ∧ f.irqCpl.getLsbD 31 = true ∧ f.irqCpl.toNat % 256 ≠ 0) ∧
    (∃ s : State, ∃ fn : Nat, let f := s.func fn; fnOk fn = true ∧ (f.unsignalled = 0 ∨ f.irqCpl.getLsbD 31 = false ∨ f.irqCpl.toNat % 256 = 0)) ∧
    (∃ s : State, ∃ fn : Nat, ∃ x : InFlight, fnOk fn = true ∧ (s.ringFlight fn).find? (fun x => !x.started) = some x) ∧
    (∃ s : State, ∃ fn : Nat, ∃ x : InFlight, fnOk fn = true ∧ (s.ringFlight fn).find? (fun x => !x.started) = .none) ∧
    (∃ s : State, ∃ fn : Nat, fnOk fn = true ∧ s.power.porst = true) ∧
    (∃ s : State, ∃ fn : Nat, let f := s.func fn; fnOk fn = true ∧ s.power.porst = false ∧ (fn = 0 ∨ f.state = .unassigned ∨ f.state = .restoring)) ∧
    (∃ s : State, ∃ fn : Nat, let f := s.func fn; fnOk fn = true ∧ s.power.porst = false ∧ fn ≠ 0 ∧ f.state ≠ .unassigned ∧ f.state ≠ .restoring) :=
  ⟨⟨func ready 0 { Func.default 0 with vectors := 8 }, 0, 0x50, by decide +kernel⟩,
   ⟨func ready 0 { Func.default 0 with vectors := 8 }, 0, 0x1004, 4, by decide +kernel⟩,
   ⟨func ready 0 { Func.default 0 with vectors := 8 }, 0, 0x1004, 0, by decide +kernel⟩,
   ⟨func ready 0 { Func.default 0 with vectors := 8 }, 0, 2, 4, by decide +kernel⟩,
   ⟨func ready 0 { Func.default 0 with vectors := 8 }, 0, 0x20, by decide +kernel⟩,
   ⟨func ready 0 { Func.default 0 with vectors := 8 }, 0, 0x24, by decide +kernel⟩,
   ⟨func ready 0 { Func.default 0 with vectors := 8 }, 0, 0x28, by decide +kernel⟩,
   ⟨func ready 0 { Func.default 0 with vectors := 8 }, 0, 0x2C, by decide +kernel⟩,
   ⟨func ready 0 { Func.default 0 with vectors := 8 }, 0, 0x44, by decide +kernel⟩,
   ⟨func ready 0 { Func.default 0 with vectors := 8 }, 0, 0x48, by decide +kernel⟩,
   ⟨func ready 0 { Func.default 0 with vectors := 8 }, 0, 0x107C, by decide +kernel⟩,
   ⟨func ready 0 { Func.default 0 with vectors := 8 }, 0, 0x18FC, by decide +kernel⟩,
   ⟨func ready 0 { Func.default 0 with vectors := 8 }, 0, 0x807C, 0, by decide +kernel⟩,
   ⟨func ready 0 { Func.default 0 with vectors := 8, pba := [7] }, 0, 0x807C, 0, by decide +kernel⟩,
   ⟨func ready 0 { Func.default 0 with vectors := 8 }, 0, 0x8080, by decide +kernel⟩,
   ⟨func ready 0 { Func.default 0 with vectors := 8 }, 0, 0x1040, by decide +kernel⟩,
   ⟨func State.reset 0 { Func.default 0 with unsignalled := 1, irqCpl := 0x80000001 }, 0, by decide +kernel⟩,
   ⟨func ready 0 { Func.default 0 with vectors := 8 }, 0, by decide +kernel⟩,
   ⟨{ State.reset with pcie := { Pcie.reset with inFlight := [{ opcode := 0x0101, cmd := { cmd [] with via := .ring }, started := false, serial := false }] } }, 0, { opcode := 0x0101, cmd := { cmd [] with via := .ring }, started := false, serial := false }, by decide +kernel⟩,
   ⟨func ready 0 { Func.default 0 with vectors := 8 }, 0, { opcode := 0x0101, cmd := { cmd [] with via := .ring }, started := false, serial := false }, by decide +kernel⟩,
   ⟨State.reset, 0, by decide +kernel⟩,
   ⟨ready, 0, by decide +kernel⟩,
   ⟨func ready 1 (vf1 .active), 1, by decide +kernel⟩⟩

theorem witness_FunctionEvents :
    (∃ s : State, ∃ fn : Nat, ∃ n : Nat, ∃ enable : Bool, ∃ c, let up := s.power.porst = false; fnOk fn = true ∧ n < 1024 ∧ (¬up) ∧ c ∈ [Instr.d3hotEntry, .d3hotExit, .vfEnableSet n, .vfEnableClear n enable]) ∧
    (∃ s : State, ∃ fn : Nat, ∃ n : Nat, let up := s.power.porst = false; fnOk fn = true ∧ n < 1024 ∧ up) ∧
    (∃ s : State, ∃ fn : Nat, ∃ n : Nat, ∃ r : ResetRun, let f := s.func fn; fnOk fn = true ∧ n < 1024 ∧ f.resetRun = some r ∧ r.squashDone = false) ∧
    (∃ s : State, ∃ fn : Nat, ∃ n : Nat, ∃ r : ResetRun, let f := s.func fn; fnOk fn = true ∧ n < 1024 ∧ (f.resetRun = .none ∨ f.resetRun = some r ∧ r.squashDone = true)) ∧
    (∃ s : State, ∃ fn : Nat, ∃ n : Nat, ∃ l : Nat, ∃ r : ResetRun, let f := s.func fn; let busy := (s.lanesOfColour f.colour).any fun l => (s.lane l).cause == .instanceReset && (s.lane l).state != .closed; fnOk fn = true ∧ n < 1024 ∧ f.resetRun = some r ∧ r.squashDone = true ∧ busy = false) ∧
    (∃ s : State, ∃ fn : Nat, ∃ n : Nat, ∃ l : Nat, ∃ r : ResetRun, let f := s.func fn; let busy := (s.lanesOfColour f.colour).any fun l => (s.lane l).cause == .instanceReset && (s.lane l).state != .closed; fnOk fn = true ∧ n < 1024 ∧ (f.resetRun = .none ∨ f.resetRun = some r ∧ (r.squashDone = false ∨ busy = true))) ∧
    (∃ s : State, ∃ fn : Nat, ∃ n : Nat, let f := s.func fn; let rests := f.state = .freezing ∧ s.colourAtRest f.colour = true ∧ (s.pcie.inFlight.any fun x => x.cmd.fn == fn) = false; fnOk fn = true ∧ n < 1024 ∧ rests) ∧
    (∃ s : State, ∃ fn : Nat, ∃ n : Nat, let f := s.func fn; let rests := f.state = .freezing ∧ s.colourAtRest f.colour = true ∧ (s.pcie.inFlight.any fun x => x.cmd.fn == fn) = false; fnOk fn = true ∧ n < 1024 ∧ (¬rests)) ∧
    (∃ s : State, ∃ fn : Nat, ∃ n : Nat, ∃ l : Nat, fnOk fn = true ∧ n < 1024 ∧ laneOk l = true ∧ (s.lane l).state = .draining ∨ (s.lane l).state = .squashing ∧ s.laneBusy l = false) ∧
    (∃ s : State, ∃ fn : Nat, ∃ n : Nat, ∃ l : Nat, fnOk fn = true ∧ n < 1024 ∧ laneOk l = true ∧ (s.lane l).state ≠ .draining ∧ (s.lane l).state ≠ .squashing ∨ s.laneBusy l = true) ∧
    (∃ s : State, ∃ fn : Nat, ∃ n : Nat, ∃ l : Nat, fnOk fn = true ∧ n < 1024 ∧ (s.lane l).cause ∉ [.deletion, .tamper, .class3]) ∧
    (∃ s : State, ∃ fn : Nat, ∃ n : Nat, ∃ l : Nat, fnOk fn = true ∧ n < 1024 ∧ (s.lane l).cause = .deletion) :=
  ⟨⟨State.reset, 0, 1023, true, .d3hotEntry, by decide +kernel⟩,
   ⟨ready, 0, 1023, by decide +kernel⟩,
   ⟨func State.reset 1 { vf1 .resetting with resetRun := some (resetting false) }, 1, 0, resetting false, by decide +kernel⟩,
   ⟨State.reset, 0, 0, resetting true, by decide +kernel⟩,
   ⟨func State.reset 1 { vf1 .resetting with resetRun := some (resetting true) }, 1, 0, 5, resetting true, by decide +kernel⟩,
   ⟨State.reset, 0, 0, 5, resetting false, by decide +kernel⟩,
   ⟨func State.reset 1 (vf1 .freezing), 1, 0, by decide +kernel⟩,
   ⟨State.reset, 0, 0, by decide +kernel⟩,
   ⟨State.reset.setLane 5 { lane1 with state := .draining }, 0, 0, 5, by decide +kernel⟩,
   ⟨ready, 0, 0, 0, by decide +kernel⟩,
   ⟨ready, 0, 0, 0, by decide +kernel⟩,
   ⟨ready.setLane 5 { lane1 with cause := .deletion }, 0, 0, 5, by decide +kernel⟩⟩

theorem witness_CompletionDelivered :
    (∃ c : Cmd, c.via = .mailbox) ∧
    (∃ s : State, ∃ c : Cmd, let f := s.func c.fn; c.via = .ring ∧ f.cplUsable = true) ∧
    (∃ s : State, ∃ c : Cmd, let f := s.func c.fn; c.via = .ring ∧ f.cplUsable = false) :=
  ⟨⟨cmd [], by decide +kernel⟩,
   ⟨func State.reset 0 ringFn, { cmd [] with via := .ring }, by decide +kernel⟩,
   ⟨State.reset, { cmd [] with via := .ring }, by decide +kernel⟩⟩

theorem witness_CommandChecks :
    (∃ s : State, ∃ op : Nat, ∃ c : Cmd, ∃ sp : Spec, let f := s.func c.fn; let assigned := ¬(c.fn ≠ 0 ∧ f.state = .unassigned); fnOk c.fn = true ∧ specOf op = some sp ∧ (¬assigned)) ∧
    (∃ s : State, ∃ op : Nat, ∃ c : Cmd, ∃ sp : Spec, let f := s.func c.fn; let assigned := ¬(c.fn ≠ 0 ∧ f.state = .unassigned); let permitted := assigned ∧ ¬(c.fn ≠ 0 ∧ (sp.pf = true ∨ c.colour ≠ f.colour)) ∧ ¬(c.fn = 0 ∧ sp.onColour = false ∧ c.colour ≠ 0); fnOk c.fn = true ∧ specOf op = some sp ∧ assigned ∧ (¬permitted)) ∧
    (∃ s : State, ∃ op : Nat, ∃ c : Cmd, ∃ sp : Spec, let f := s.func c.fn; let assigned := ¬(c.fn ≠ 0 ∧ f.state = .unassigned); let permitted := assigned ∧ ¬(c.fn ≠ 0 ∧ (sp.pf = true ∨ c.colour ≠ f.colour)) ∧ ¬(c.fn = 0 ∧ sp.onColour = false ∧ c.colour ≠ 0); let ready := permitted ∧ sp.states.ok s.power.dev = true; fnOk c.fn = true ∧ specOf op = some sp ∧ permitted ∧ (¬ready)) ∧
    (∃ s : State, ∃ op : Nat, ∃ c : Cmd, ∃ wf : Bool, ∃ sp : Spec, let f := s.func c.fn; let assigned := ¬(c.fn ≠ 0 ∧ f.state = .unassigned); let permitted := assigned ∧ ¬(c.fn ≠ 0 ∧ (sp.pf = true ∨ c.colour ≠ f.colour)) ∧ ¬(c.fn = 0 ∧ sp.onColour = false ∧ c.colour ≠ 0); let ready := permitted ∧ sp.states.ok s.power.dev = true; let formed := ready ∧ wf = true ∧ ¬(sp.journal = true ∧ c.ticket = 0); fnOk c.fn = true ∧ specOf op = some sp ∧ ready ∧ (¬formed)) ∧
    (∃ s : State, ∃ op : Nat, ∃ c : Cmd, ∃ wf : Bool, ∃ sp : Spec, let f := s.func c.fn; let assigned := ¬(c.fn ≠ 0 ∧ f.state = .unassigned); let permitted := assigned ∧ ¬(c.fn ≠ 0 ∧ (sp.pf = true ∨ c.colour ≠ f.colour)) ∧ ¬(c.fn = 0 ∧ sp.onColour = false ∧ c.colour ≠ 0); let ready := permitted ∧ sp.states.ok s.power.dev = true; let formed := ready ∧ wf = true ∧ ¬(sp.journal = true ∧ c.ticket = 0); fnOk c.fn = true ∧ specOf op = some sp ∧ formed ∧ sp.journal = true ∧ s.journal.ticketInUse c.colour c.ticket = true) ∧
    (∃ s : State, ∃ op : Nat, ∃ c : Cmd, ∃ wf : Bool, ∃ sp : Spec, let f := s.func c.fn; let assigned := ¬(c.fn ≠ 0 ∧ f.state = .unassigned); let permitted := assigned ∧ ¬(c.fn ≠ 0 ∧ (sp.pf = true ∨ c.colour ≠ f.colour)) ∧ ¬(c.fn = 0 ∧ sp.onColour = false ∧ c.colour ≠ 0); let ready := permitted ∧ sp.states.ok s.power.dev = true; let formed := ready ∧ wf = true ∧ ¬(sp.journal = true ∧ c.ticket = 0); fnOk c.fn = true ∧ specOf op = some sp ∧ formed ∧ sp.journal = true ∧ s.journal.ticketInUse c.colour c.ticket = false ∧ s.journal.intentRoom = false) ∧
    (∃ s : State, ∃ op : Nat, ∃ c : Cmd, ∃ wf : Bool, ∃ sp : Spec, let f := s.func c.fn; let assigned := ¬(c.fn ≠ 0 ∧ f.state = .unassigned); let permitted := assigned ∧ ¬(c.fn ≠ 0 ∧ (sp.pf = true ∨ c.colour ≠ f.colour)) ∧ ¬(c.fn = 0 ∧ sp.onColour = false ∧ c.colour ≠ 0); let ready := permitted ∧ sp.states.ok s.power.dev = true; let formed := ready ∧ wf = true ∧ ¬(sp.journal = true ∧ c.ticket = 0); fnOk c.fn = true ∧ specOf op = some sp ∧ formed ∧ (sp.journal = true → s.journal.ticketInUse c.colour c.ticket = false ∧ s.journal.intentRoom = true)) :=
  ⟨⟨State.reset, 0x0101, { cmd [] with fn := 1 }, ⟨0x0101, false, false, .A, false⟩, by decide +kernel⟩,
   ⟨func State.reset 1 (vf1 .active), 0x0F02, { cmdOf 1 [] with fn := 1 }, ⟨0x0F02, true, false, .O, false⟩, by decide +kernel⟩,
   ⟨State.reset, 0x0104, cmd [], ⟨0x0104, true, false, .W, false⟩, by decide +kernel⟩,
   ⟨ready, 0x0104, cmd [], false, ⟨0x0104, true, false, .W, false⟩, by decide +kernel⟩,
   ⟨{ ready with journal := { Journal.reset with anchors := [mile 4] } }, 0x0201, cmd [], true, ⟨0x0201, true, true, .W, false⟩, by decide +kernel⟩,
   ⟨{ ready with journal := fullLog }, 0x0201, { cmd [] with ticket := 78 }, true, ⟨0x0201, true, true, .W, false⟩, by exact ⟨by decide +kernel, by decide +kernel, by decide +kernel, by decide +kernel, log_unused, log_full⟩⟩,
   ⟨ready, 0x0201, cmd [], true, ⟨0x0201, true, true, .W, false⟩, by decide +kernel⟩⟩

theorem witness_ReadsWithoutCommands :
    (∃ s : State, ∃ fn : Nat, ∃ off : Nat, ∃ size : Nat, let f := s.func fn; fnOk fn = true ∧ (s.reaches fn = false ∨ accessOk fn off size f.vectors = false)) ∧
    (∃ s : State, ∃ fn : Nat, fnOk fn = true ∧ s.reaches fn = true) ∧
    (∃ s : State, ∃ fn : Nat, let f := s.func fn; fnOk fn = true ∧ 1 ≤ f.vectors ∧ f.vectors ≤ 2048) ∧
    (∃ s : State, ∃ fn : Nat, ∃ address : Nat, fnOk fn = true ∧ (s.power.porst = true ∨ s.now < s.power.released + 20000000 ∨ (address ≠ 0x5C ∧ address ≠ 0x5D))) ∧
    (∃ s : State, ∃ fn : Nat, ∃ address : Nat, fnOk fn = true ∧ s.power.porst = false ∧ s.power.released + 20000000 ≤ s.now ∧ address = 0x5D) ∧
    (∃ s : State, ∃ fn : Nat, ∃ address : Nat, ∃ code : Nat, ∃ data : Bytes, fnOk fn = true ∧ s.power.porst = false ∧ s.power.released + 20000000 ≤ s.now ∧ address = 0x5C ∧ data = [] ∧ code = 0) ∧
    (∃ s : State, ∃ fn : Nat, ∃ address : Nat, ∃ code : Nat, ∃ data : Bytes, fnOk fn = true ∧ s.power.porst = false ∧ s.power.released + 20000000 ≤ s.now ∧ address = 0x5C ∧ data = [] ∧ code = 1) ∧
    (∃ s : State, ∃ fn : Nat, ∃ address : Nat, ∃ code : Nat, ∃ data : Bytes, fnOk fn = true ∧ s.power.porst = false ∧ s.power.released + 20000000 ≤ s.now ∧ address = 0x5C ∧ data = [] ∧ code = 3) :=
  ⟨⟨State.reset, 0, 0, 0, by decide +kernel⟩,
   ⟨ready, 0, by decide +kernel⟩,
   ⟨func ready 0 { Func.default 0 with vectors := 8 }, 0, by decide +kernel⟩,
   ⟨State.reset, 0, 0, by decide +kernel⟩,
   ⟨{ ready with now := 20000000 }, 0, 0x5D, by decide +kernel⟩,
   ⟨{ ready with now := 20000000 }, 0, 0x5C, 0, [], by decide +kernel⟩,
   ⟨{ ready with now := 20000000 }, 0, 0x5C, 1, [], by decide +kernel⟩,
   ⟨{ ready with now := 20000000 }, 0, 0x5C, 3, [], by decide +kernel⟩⟩

theorem witness_DeviceCommands :
    (∃ s : State, ∃ c : Cmd, ∃ sp : Spec, Admitted 0x0101 sp c s ∧ c.body = []) ∧
    (∃ s : State, ∃ c : Cmd, ∃ sp : Spec, Admitted 0x0102 sp c s ∧ c.body = []) ∧
    (∃ s : State, ∃ c : Cmd, ∃ sp : Spec, Admitted 0x0103 sp c s ∧ c.body = []) ∧
    (∃ s : State, ∃ c : Cmd, ∃ sp : Spec, Admitted 0x0104 sp c s ∧ c.body = [] ∧ (s.tenantLanes.any fun l => (s.lane l).state != .closed) = true) ∧
    (∃ s : State, ∃ c : Cmd, ∃ sp : Spec, Admitted 0x0104 sp c s ∧ c.body = [] ∧ (s.tenantLanes.any fun l => (s.lane l).state != .closed) = false ∧ s.steward.holds = []) ∧
    (∃ s : State, ∃ c : Cmd, ∃ sp : Spec, Admitted 0x0F01 sp c s ∧ c.body.length = 8 ∧ zeroAt c.body 1 7 = true ∧ 1 ≤ fieldLE c.body 0 1 ∧ fieldLE c.body 0 1 ≤ 64) ∧
    (∃ s : State, ∃ c : Cmd, ∃ sp : Spec, ∃ a : Active, Admitted 0x0F02 sp c s ∧ c.body.length = 8 ∧ zeroAt c.body 4 4 = true ∧ s.faults.activeFault (clearNames c.body) = some a ∧ s.cause a = .gone) ∧
    (∃ s : State, ∃ c : Cmd, ∃ sp : Spec, ∃ a : Active, Admitted 0x0F02 sp c s ∧ c.body.length = 8 ∧ zeroAt c.body 4 4 = true ∧ s.faults.activeFault (clearNames c.body) = some a ∧ s.cause a = .present) :=
  ⟨⟨ready, cmd [], ⟨0x0101, false, false, .A, false⟩, by unfold Admitted; decide +kernel⟩,
   ⟨ready, cmd [], ⟨0x0102, false, false, .A, false⟩, by unfold Admitted; decide +kernel⟩,
   ⟨ready, cmd [], ⟨0x0103, true, false, .Q, false⟩, by unfold Admitted; decide +kernel⟩,
   ⟨ready.setLane 5 lane1, cmd [], ⟨0x0104, true, false, .W, false⟩, by unfold Admitted; decide +kernel⟩,
   ⟨ready, cmd [], ⟨0x0104, true, false, .W, false⟩, by unfold Admitted; decide +kernel⟩,
   ⟨ready, cmd (pad [64] 8), ⟨0x0F01, true, false, .A, false⟩, by unfold Admitted; decide +kernel⟩,
   ⟨{ device .faulted with now := 2000000000, faults := { Faults.reset with active := [⟨1, 0x20, 0, 0⟩] } }, cmd (pad [1, 0x20] 8), ⟨0x0F02, true, false, .O, false⟩, ⟨1, 0x20, 0, 0⟩, by unfold Admitted; decide +kernel⟩,
   ⟨{ device .faulted with now := 10, faults := { Faults.reset with active := [⟨1, 0x20, 0, 0⟩] } }, cmd (pad [1, 0x20] 8), ⟨0x0F02, true, false, .O, false⟩, ⟨1, 0x20, 0, 0⟩, by unfold Admitted; decide +kernel⟩⟩

theorem witness_PartitionCommands :
    (∃ s : State, ∃ c : Cmd, ∃ sp : Spec, let b := c.body; Admitted 0x0201 sp c s ∧ b.length = 8 ∧ zeroAt b 1 7 = true ∧ fieldLE b 0 1 = 0 ∧ s.tenancy.parts = []) ∧
    (∃ s : State, ∃ c : Cmd, ∃ sp : Spec, let b := c.body; Admitted 0x0201 sp c s ∧ b.length = 8 ∧ zeroAt b 1 7 = true ∧ fieldLE b 0 1 = 1 ∧ s.tenancy.parts = []) ∧
    (∃ s : State, ∃ c : Cmd, ∃ sp : Spec, ∃ gs : List Nat, let b := c.body; let x : Creation := { lanes := fieldLE b 0 1, policy := fieldLE b 2 2, caddy := fieldLE b 4 4, quota := fieldLE b 8 8, space := fieldLE b 16 8, map := fieldLE b 24 16, fn := 0, share := 32, vectors := 0, vault := 0 }; Admitted 0x0202 sp c s ∧ b.length = 40 ∧ zeroAt b 1 1 = true ∧ x.wellFormed (s.tenancy.profile == .wide) = true ∧ s.tenancy.profile ≠ .unformatted ∧ x.inRange (s.tenancy.profile == .wide) c.colour = true ∧ s.part? c.colour = .none ∧ s.poolsGive x = some gs) ∧
    (∃ s : State, ∃ c : Cmd, ∃ sp : Spec, ∃ p : Part, let b := c.body; Admitted 0x0204 sp c s ∧ b.length = 8 ∧ zeroAt b 2 6 = true ∧ fieldLE b 0 2 < 256 ∧ s.part? c.colour = some p ∧ s.policyConflict c.colour (BitVec.ofNat 16 (fieldLE b 0 2)) = false) ∧
    (∃ s : State, ∃ c : Cmd, ∃ sp : Spec, ∃ p : Part, let b := c.body; Admitted 0x0206 sp c s ∧ b = [] ∧ c.colour ≠ 0 ∧ s.part? c.colour = some p) ∧
    (∃ s : State, ∃ c : Cmd, ∃ sp : Spec, ∃ p : Part, let b := c.body; Admitted 0x0203 sp c s ∧ b.length = 8 ∧ fieldLE b 0 1 < 2 ∧ zeroAt b 1 7 = true ∧ s.part? c.colour = some p ∧ p.vf = 0 ∧ p.extent = .none ∧ p.deleting = .none) ∧
    (∃ s : State, ∃ c : Cmd, ∃ sp : Spec, let b := c.body; Admitted 0x0203 sp c s ∧ b.length = 8 ∧ fieldLE b 0 1 < 2 ∧ zeroAt b 1 7 = true ∧ s.part? c.colour = .none) :=
  ⟨⟨ready, cmd (pad [] 8), ⟨0x0201, true, true, .W, false⟩, by unfold Admitted; decide +kernel⟩,
   ⟨ready, cmd (pad [1] 8), ⟨0x0201, true, true, .W, false⟩, by unfold Admitted; decide +kernel⟩,
   ⟨parted ready part1, cmdOf 2 (pad [4] 40), ⟨0x0202, true, true, .W, true⟩, [], by unfold Admitted; decide +kernel⟩,
   ⟨partR, cmdOf 1 (pad [255] 8), ⟨0x0204, true, true, .W, true⟩, part1, by unfold Admitted; decide +kernel⟩,
   ⟨partR, cmdOf 1 [], ⟨0x0206, false, false, .Q, true⟩, part1, by unfold Admitted; decide +kernel⟩,
   ⟨partR, cmdOf 1 (pad [1] 8), ⟨0x0203, true, true, .W, true⟩, part1, by unfold Admitted; decide +kernel⟩,
   ⟨partR, cmdOf 2 (pad [1] 8), ⟨0x0203, true, true, .W, true⟩, by unfold Admitted; decide +kernel⟩⟩

theorem witness_FunctionCommands :
    (∃ s : State, ∃ c : Cmd, ∃ sp : Spec, ∃ gs : List Nat, let b := c.body; let fn := fieldLE b 0 2; let x : Creation := { fn := fn, lanes := fieldLE b 2 1, share := fieldLE b 3 1, vectors := fieldLE b 4 1, caddy := fieldLE b 8 4, vault := fieldLE b 12 4, quota := fieldLE b 16 8, policy := fieldLE b 24 2, space := fieldLE b 32 8, map := fieldLE b 40 16 }; Admitted 0x0301 sp c s ∧ b.length = 56 ∧ zeroAt b 5 3 = true ∧ zeroAt b 26 6 = true ∧ x.wellFormed (s.tenancy.profile == .wide) = true ∧ s.tenancy.profile ≠ .unformatted ∧ x.inRange (s.tenancy.profile == .wide) c.colour = true ∧ x.vfInRange = true ∧ s.part? c.colour = .none ∧ (s.func fn).state = .unassigned ∧ s.functions.contains fn = true ∧ s.poolsGive x = some gs) ∧
    (∃ s : State, ∃ c : Cmd, ∃ sp : Spec, let b := c.body; let fn := fieldLE b 0 2; Admitted 0x0302 sp c s ∧ fnBodyOk b = true ∧ s.vfFails c fn = .none) ∧
    (∃ s : State, ∃ c : Cmd, ∃ sp : Spec, let b := c.body; let fn := fieldLE b 0 2; Admitted 0x0303 sp c s ∧ fnBodyOk b = true ∧ s.vfFails c fn = .none) ∧
    (∃ s : State, ∃ c : Cmd, ∃ sp : Spec, let b := c.body; let fn := fieldLE b 0 2; Admitted 0x0304 sp c s ∧ fnBodyOk b = true ∧ s.vfFails c fn = .none ∧ (s.func fn).state = .active) ∧
    (∃ s : State, ∃ c : Cmd, ∃ sp : Spec, let b := c.body; let fn := fieldLE b 0 2; Admitted 0x0304 sp c s ∧ fnBodyOk b = true ∧ s.vfFails c fn = .none ∧ (s.func fn).state ≠ .active) ∧
    (∃ s : State, ∃ c : Cmd, ∃ sp : Spec, let b := c.body; let fn := fieldLE b 0 2; Admitted 0x0305 sp c s ∧ fnBodyOk b = true ∧ s.vfFails c fn = .none ∧ (s.func fn).state = .frozen) ∧
    (∃ s : State, ∃ c : Cmd, ∃ sp : Spec, let b := c.body; let fn := fieldLE b 0 2; Admitted 0x0306 sp c s ∧ b.length = 40 ∧ zeroAt b 2 6 = true ∧ zeroAt b 36 4 = true ∧ s.vfFails c fn = .none ∧ fieldLE b 32 4 ≤ 16777216) ∧
    (∃ s : State, ∃ c : Cmd, ∃ sp : Spec, let b := c.body; let fn := fieldLE b 0 2; let piece := b.drop 24; Admitted 0x0307 sp c s ∧ 24 ≤ b.length ∧ zeroAt b 2 2 = true ∧ fn ≠ 0 ∧ fn ≤ 1023 ∧ piece.length ≤ 16777216 ∧ fieldLE b 4 2 ≠ 0 ∧ (s.func fn).state = .unassigned ∧ (s.func fn).staged = [] ∧ (s.func fn).stagedTotal = 0 ∧ s.returnOk c.colour 0 (fieldLE b 4 2) = true ∧ s.returnOk c.colour 1 (fieldLE b 6 2) = true ∧ fieldLE b 8 8 = 0 ∧ piece ≠ [] ∧ piece.length < fieldLE b 16 8) ∧
    (∃ s : State, ∃ c : Cmd, ∃ sp : Spec, let b := c.body; let fn := fieldLE b 0 2; Admitted 0x0308 sp c s ∧ fnBodyOk b = true ∧ fn ≤ 1023) :=
  ⟨⟨vfs partR, cmdOf 2 (pad [2, 0, 4, 32, 1] 56), ⟨0x0301, true, true, .W, true⟩, [], by unfold Admitted; decide +kernel⟩,
   ⟨vfR .active, cmdOf 1 (pad [1] 8), ⟨0x0302, true, true, .W, true⟩, by unfold Admitted; decide +kernel⟩,
   ⟨vfR .active, cmdOf 1 (pad [1] 8), ⟨0x0303, true, false, .O, true⟩, by unfold Admitted; decide +kernel⟩,
   ⟨vfR .active, cmdOf 1 (pad [1] 8), ⟨0x0304, true, false, .W, true⟩, by unfold Admitted; decide +kernel⟩,
   ⟨vfR .frozen, cmdOf 1 (pad [1] 8), ⟨0x0304, true, false, .W, true⟩, by unfold Admitted; decide +kernel⟩,
   ⟨vfR .frozen, cmdOf 1 (pad [1] 8), ⟨0x0305, true, false, .W, true⟩, by unfold Admitted; decide +kernel⟩,
   ⟨vfR .active, cmdOf 1 (pad [1] 40), ⟨0x0306, true, false, .W, true⟩, by unfold Admitted; decide +kernel⟩,
   ⟨{ vfR .active with port0 := { up with sessions := [(3, session1)] } }, cmdOf 1 (pad [2, 0, 0, 0, 3, 0, 0, 0, 0, 0, 0, 0, 0, 0, 0, 0, 2, 0, 0, 0, 0, 0, 0, 0, 0xAA] 25), ⟨0x0307, true, true, .W, true⟩, by unfold Admitted; decide +kernel⟩,
   ⟨vfR .active, cmdOf 1 (pad [1] 8), ⟨0x0308, true, false, .Q, true⟩, by unfold Admitted; decide +kernel⟩⟩

theorem witness_GuardCommands :
    (∃ s : State, ∃ c : Cmd, ∃ sp : Spec, let b := c.body; Admitted 0x0D01 sp c s ∧ b = []) ∧
    (∃ s : State, ∃ s1 : State, ∃ c : Cmd, ∃ sp : Spec, let b := c.body; Admitted 0x0D02 sp c s ∧ b.length = 16 ∧ zeroAt b 1 7 = true ∧ lcAdvances s.lc.code.toNat (fieldLE b 0 1) = true ∧ s.useLifecycle.useAuth 0x0D02 8 b = some s1 ∧ s1.lc.moving = .none) ∧
    (∃ s : State, ∃ c : Cmd, ∃ sp : Spec, let b := c.body; Admitted 0x0D02 sp c s ∧ b.length = 16 ∧ zeroAt b 1 7 = true ∧ lcAdvances s.lc.code.toNat (fieldLE b 0 1) = true ∧ s.useLifecycle.useAuth 0x0D02 8 b = .none) ∧
    (∃ s : State, ∃ s1 : State, ∃ c : Cmd, ∃ sp : Spec, let b := c.body; Admitted 0x0D03 sp c s ∧ b.length = 8 ∧ s.useAuth 0x0D03 0 b = some s1 ∧ s1.lc.moving = .none ∧ s1.entropy.draws.contains (.direct true) = false) ∧
    (∃ s : State, ∃ c : Cmd, ∃ sp : Spec, let b := c.body; Admitted 0x0D04 sp c s ∧ b = []) ∧
    (∃ s : State, ∃ s1 : State, ∃ c : Cmd, ∃ sp : Spec, let b := c.body; let n := fieldLE b 0 1; let x : SourceCfg := { rank := fieldLE b 1 1, n := fieldLE b 2 1, m := fieldLE b 4 2, period := fieldLE b 6 2 }; Admitted 0x0D05 sp c s ∧ b.length = 16 ∧ zeroAt b 3 1 = true ∧ x.ok n = true ∧ s.useAuth 0x0D05 8 b = some s1) ∧
    (∃ s : State, ∃ c : Cmd, ∃ sp : Spec, let b := c.body; Admitted 0x0E01 sp c s ∧ b = []) ∧
    (∃ s : State, ∃ c : Cmd, ∃ sp : Spec, let b := c.body; let k := fieldLE b 0 1 / 16 * 9 + fieldLE b 0 1 % 16; Admitted 0x0E02 sp c s ∧ b.length = 8 ∧ zeroAt b 1 7 = true ∧ fieldLE b 0 1 < 64 ∧ fieldLE b 0 1 % 16 < 9 ∧ (s.cluster k).state = .inService ∧ (s.pickReserve k).isSome = true) ∧
    (∃ s : State, ∃ c : Cmd, ∃ sp : Spec, let b := c.body; Admitted 0x1001 sp c s ∧ b.length = 8 ∧ zeroAt b 6 2 = true ∧ 1 ≤ fieldLE b 4 2 ∧ fieldLE b 4 2 ≤ 256 ∧ fieldLE b 0 4 < 1024) :=
  ⟨⟨ready, cmd [], ⟨0x0D01, false, false, .A, false⟩, by unfold Admitted; decide +kernel⟩,
   ⟨authed ready 0x0D02 8 (pad [3, 0, 0, 0, 0, 0, 0, 0, 5] 16), (authed ready 0x0D02 8 (pad [3, 0, 0, 0, 0, 0, 0, 0, 5] 16)).abortCeremony, cmd (pad [3, 0, 0, 0, 0, 0, 0, 0, 5] 16), ⟨0x0D02, true, false, .C, false⟩, by exact ⟨by unfold Admitted; decide +kernel, by decide +kernel, by decide +kernel, by decide +kernel, authed_ok ready 0x0D02 8 (pad [3, 0, 0, 0, 0, 0, 0, 0, 5] 16) (by decide) (by decide), by decide +kernel⟩⟩,
   ⟨ready, cmd (pad [3, 0, 0, 0, 0, 0, 0, 0, 5] 16), ⟨0x0D02, true, false, .C, false⟩, by unfold Admitted; decide +kernel⟩,
   ⟨authed (device .tamperErased) 0x0D03 0 (pad [5] 8), (authed (device .tamperErased) 0x0D03 0 (pad [5] 8)).abortCeremony, cmd (pad [5] 8), ⟨0x0D03, true, false, .erased, false⟩, by exact ⟨by unfold Admitted; decide +kernel, by decide +kernel, authed_ok (device .tamperErased) 0x0D03 0 (pad [5] 8) (by decide) (by decide), by decide +kernel, by decide +kernel⟩⟩,
   ⟨ready, cmd [], ⟨0x0D04, true, false, .A, false⟩, by unfold Admitted; decide +kernel⟩,
   ⟨authed ready 0x0D05 8 (pad [0, 1, 1, 0, 1, 0, 64, 0, 5] 16), (authed ready 0x0D05 8 (pad [0, 1, 1, 0, 1, 0, 64, 0, 5] 16)).abortCeremony, cmd (pad [0, 1, 1, 0, 1, 0, 64, 0, 5] 16), ⟨0x0D05, true, false, .C, false⟩, by exact ⟨by unfold Admitted; decide +kernel, by decide +kernel, by decide +kernel, by decide +kernel, authed_ok ready 0x0D05 8 (pad [0, 1, 1, 0, 1, 0, 64, 0, 5] 16) (by decide) (by decide)⟩⟩,
   ⟨ready, cmd [], ⟨0x0E01, true, false, .Q, false⟩, by unfold Admitted; decide +kernel⟩,
   ⟨{ ready with clusters := [(0, { Cluster.delivered 0 with state := .inService }), (1, { Cluster.delivered 1 with state := .reserve })] }, cmd (pad [] 8), ⟨0x0E02, true, false, .W, false⟩, by unfold Admitted; decide +kernel⟩,
   ⟨ready, cmd (pad [1, 0, 0, 0, 0, 1] 8), ⟨0x1001, true, false, .A, false⟩, by unfold Admitted; decide +kernel⟩⟩

theorem witness_LaneCommands :
    (∃ s : State, ∃ c : Cmd, ∃ sp : Spec, ∃ l : Nat, let b := c.body; Admitted 0x0801 sp c s ∧ b.length = 12 ∧ fieldLE b 1 1 = 1 ∧ fieldLE b 3 1 = 0 ∧ fieldLE b 4 4 = 0 ∧ fieldLE b 8 4 = 0 ∧ s.laneOf c.colour (fieldLE b 0 1) = some l ∧ 1 ≤ fieldLE b 2 1 ∧ fieldLE b 2 1 ≤ 7 ∧ 64 ≤ (s.lane l).quota ∧ (s.lane l).quota ≤ 16384 ∧ (s.lane l).quota ≤ (s.lane l).window ∧ (s.lane l).window ≤ 1048576 ∧ (s.lane l).state = .opened) ∧
    (∃ s : State, ∃ c : Cmd, ∃ sp : Spec, ∃ l : Nat, let b := c.body; Admitted 0x0802 sp c s ∧ b.length = 8 ∧ zeroAt b 1 7 = true ∧ s.laneOf c.colour (fieldLE b 0 1) = some l) ∧
    (∃ s : State, ∃ c : Cmd, ∃ sp : Spec, let b := c.body; Admitted 0x0802 sp c s ∧ b.length = 8 ∧ zeroAt b 1 7 = true ∧ s.laneOf c.colour (fieldLE b 0 1) = .none) ∧
    (∃ s : State, ∃ c : Cmd, ∃ sp : Spec, let b := c.body; Admitted 0x0803 sp c s ∧ b.length = 8 ∧ zeroAt b 1 3 = true ∧ fieldLE b 0 1 ≤ 32 ∧ 20 ≤ fieldLE b 4 4 ∧ fieldLE b 4 4 ≤ 100000) ∧
    (∃ s : State, ∃ c : Cmd, ∃ sp : Spec, let b := c.body; Admitted 0x0804 sp c s ∧ b = []) ∧
    (∃ s : State, ∃ c : Cmd, ∃ sp : Spec, let b := c.body; Admitted 0x0805 sp c s ∧ b = []) :=
  ⟨⟨ready.setLane 5 { lane1 with index := 3 }, cmdOf 1 (pad [3, 1, 7] 12), ⟨0x0801, true, false, .W, true⟩, 5, by unfold Admitted; decide +kernel⟩,
   ⟨ready.setLane 5 { lane1 with index := 3 }, cmdOf 1 (pad [3] 8), ⟨0x0802, false, false, .Q, true⟩, 5, by unfold Admitted; decide +kernel⟩,
   ⟨ready.setLane 5 { lane1 with index := 3 }, cmdOf 1 (pad [4] 8), ⟨0x0802, false, false, .Q, true⟩, by unfold Admitted; decide +kernel⟩,
   ⟨ready, cmd (pad [32, 0, 0, 0, 20] 8), ⟨0x0803, true, false, .W, false⟩, by unfold Admitted; decide +kernel⟩,
   ⟨ready, cmd [], ⟨0x0804, true, false, .Q, false⟩, by unfold Admitted; decide +kernel⟩,
   ⟨ready, cmd [], ⟨0x0805, true, false, .Q, false⟩, by unfold Admitted; decide +kernel⟩⟩

theorem witness_KeyCommands :
    (∃ s : State, ∃ c : Cmd, ∃ sp : Spec, ∃ rs, let b := c.body; let r := ((s.begin sp c).cmdAccepted c sp.op).putAll c rs; Admitted 0x0401 sp c s ∧ 8 ≤ b.length ∧ zeroAt b 4 4 = true ∧ putRecords (fieldLE b 0 4) (b.drop 8) = some rs ∧ r.2.refused = .none) ∧
    (∃ s : State, ∃ c : Cmd, ∃ sp : Spec, let b := c.body; Admitted 0x0402 sp c s ∧ b.length = 8 + 8 * fieldLE b 0 4 ∧ zeroAt b 4 4 = true) ∧
    (∃ s : State, ∃ c : Cmd, ∃ sp : Spec, let b := c.body; Admitted 0x0403 sp c s ∧ b.length = 16 ∧ zeroAt b 12 4 = true) ∧
    (∃ s : State, ∃ c : Cmd, ∃ sp : Spec, ∃ n, let b := c.body; let h := BitVec.ofNat 64 (fieldLE b 0 8); let a := s.askedAttrs c.colour b; Admitted 0x0404 sp c s ∧ b.length = 40 ∧ fieldLE b 9 1 % 64 = 0 ∧ fieldLE b 9 1 < 128 ∧ maskOk (fieldLE b 12 2) (fieldLE b 14 2) (fieldLE b 16 2) = true ∧ zeroAt b 18 6 = true ∧ zeroAt b 36 4 = true ∧ s.newHandleFails c.colour h = .none ∧ symmetricLen a.ktype.toNat s.free = some n ∧ a.param = 0 ∧ s.keyRoom c.colour h (recordSize a.ktype n) = true) ∧
    (∃ s : State, ∃ c : Cmd, ∃ sp : Spec, let b := c.body; let h := BitVec.ofNat 64 (fieldLE b 0 8); let a := s.askedAttrs c.colour b; Admitted 0x0404 sp c s ∧ b.length = 40 ∧ fieldLE b 9 1 % 64 = 0 ∧ fieldLE b 9 1 < 128 ∧ maskOk (fieldLE b 12 2) (fieldLE b 14 2) (fieldLE b 16 2) = true ∧ zeroAt b 18 6 = true ∧ zeroAt b 36 4 = true ∧ s.newHandleFails c.colour h = .none ∧ symmetricLen a.ktype.toNat s.free = .none ∧ jobMakes a = true ∧ s.keyRoom c.colour h (recordSize a.ktype (privateLen a.param.toNat)) = true) ∧
    (∃ s : State, ∃ s1 : State, ∃ c : Cmd, ∃ sp : Spec, ∃ m : Bytes, let b := c.body; let h := BitVec.ofNat 64 (fieldLE b 0 8); let a := s.askedAttrs c.colour b; Admitted 0x0404 sp c s ∧ b.length = 40 ∧ fieldLE b 9 1 % 64 = 0 ∧ fieldLE b 9 1 < 128 ∧ maskOk (fieldLE b 12 2) (fieldLE b 14 2) (fieldLE b 16 2) = true ∧ zeroAt b 18 6 = true ∧ zeroAt b 36 4 = true ∧ s.newHandleFails c.colour h = .none ∧ s.inFlight c = true ∧ s.keyRoom c.colour h (recordSize a.ktype m.length) = true ∧ s.storeOne c h a m = some s1) ∧
    (∃ s : State, ∃ c : Cmd, ∃ sp : Spec, ∃ t0 : Tin, ∃ e0 : Bytes, let b := c.body; let h := BitVec.ofNat 64 (fieldLE b 0 8); Admitted 0x0405 sp c s ∧ b.length = 8 ∧ (¬(c.colour = 0 ∧ systemHandle h = true)) ∧ s.record c.colour h = some (t0, e0)) ∧
    (∃ s : State, ∃ c : Cmd, ∃ sp : Spec, let b := c.body; let h := BitVec.ofNat 64 (fieldLE b 0 8); Admitted 0x0405 sp c s ∧ b.length = 8 ∧ (¬(c.colour = 0 ∧ systemHandle h = true)) ∧ s.record c.colour h = .none) ∧
    (∃ s : State, ∃ c : Cmd, ∃ sp : Spec, ∃ t0 : Tin, ∃ e0 : Bytes, ∃ k : Key, let b := c.body; let h := BitVec.ofNat 64 (fieldLE b 0 8); let a := { k.attrs with engine := BitVec.ofNat 6 (fieldLE b 8 2), derivedEngine := BitVec.ofNat 6 (fieldLE b 8 2 / 256), usage := BitVec.ofNat 16 (fieldLE b 10 2), derivedUsage := BitVec.ofNat 16 (fieldLE b 12 2), libOnly := bit (fieldLE b 14 1) 6, notBefore := BitVec.ofNat 48 (fieldLE b 16 6), notAfter := BitVec.ofNat 48 (fieldLE b 22 6) }; Admitted 0x0406 sp c s ∧ b.length = 32 ∧ fieldLE b 14 1 % 64 = 0 ∧ fieldLE b 14 1 < 128 ∧ maskOk (fieldLE b 8 2) (fieldLE b 10 2) (fieldLE b 12 2) = true ∧ zeroAt b 15 1 = true ∧ zeroAt b 28 4 = true ∧ (¬(c.colour = 0 ∧ systemHandle h = true)) ∧ s.tinShut c.colour h = false ∧ s.record c.colour h = some (t0, e0) ∧ s.recordKey c.colour h = some k ∧ a.narrows k.attrs = false) ∧
    (∃ s : State, ∃ c : Cmd, ∃ sp : Spec, ∃ t0 : Tin, ∃ e0 : Bytes, ∃ k : Key, let b := c.body; let h := BitVec.ofNat 64 (fieldLE b 0 8); let a := { k.attrs with engine := BitVec.ofNat 6 (fieldLE b 8 2), derivedEngine := BitVec.ofNat 6 (fieldLE b 8 2 / 256), usage := BitVec.ofNat 16 (fieldLE b 10 2), derivedUsage := BitVec.ofNat 16 (fieldLE b 12 2), libOnly := bit (fieldLE b 14 1) 6, notBefore := BitVec.ofNat 48 (fieldLE b 16 6), notAfter := BitVec.ofNat 48 (fieldLE b 22 6) }; Admitted 0x0406 sp c s ∧ b.length = 32 ∧ fieldLE b 14 1 % 64 = 0 ∧ fieldLE b 14 1 < 128 ∧ maskOk (fieldLE b 8 2) (fieldLE b 10 2) (fieldLE b 12 2) = true ∧ zeroAt b 15 1 = true ∧ zeroAt b 28 4 = true ∧ (¬(c.colour = 0 ∧ systemHandle h = true)) ∧ s.tinShut c.colour h = false ∧ s.record c.colour h = some (t0, e0) ∧ s.recordKey c.colour h = some k ∧ a.narrows k.attrs = true) ∧
    (∃ s : State, ∃ c : Cmd, ∃ sp : Spec, ∃ wk : Key, let b := c.body; let h := BitVec.ofNat 64 (fieldLE b 0 8); let h2 := BitVec.ofNat 64 (fieldLE b 8 8); Admitted 0x0407 sp c s ∧ b.length = 24 + fieldLE b 16 2 ∧ zeroAt b 18 6 = true ∧ s.newHandleFails c.colour h2 = .none ∧ s.recordKey c.colour h = some wk ∧ wk.attrs.within s.time = true ∧ s.keyRoom c.colour h2 128 = true) ∧
    (∃ s : State, ∃ c : Cmd, ∃ sp : Spec, ∃ k : Key, ∃ wk : Key, let b := c.body; let h := BitVec.ofNat 64 (fieldLE b 0 8); let w := BitVec.ofNat 64 (fieldLE b 8 8); Admitted 0x0408 sp c s ∧ b.length = 16 ∧ s.tinShut c.colour h = false ∧ s.tinShut c.colour w = false ∧ s.recordKey c.colour h = some k ∧ s.recordKey c.colour w = some wk ∧ k.attrs.libOnly = false ∧ k.attrs.within s.time = true ∧ wk.attrs.within s.time = true) ∧
    (∃ s : State, ∃ c : Cmd, ∃ sp : Spec, let b := c.body; Admitted 0x040B sp c s ∧ b = []) :=
  ⟨⟨ready, cmd (pad [] 8), ⟨0x0401, false, true, .W, true⟩, [], by unfold Admitted; decide +kernel⟩,
   ⟨ready, cmd (pad [] 8), ⟨0x0402, false, false, .W, true⟩, by unfold Admitted; decide +kernel⟩,
   ⟨ready, cmd (pad [] 16), ⟨0x0403, false, false, .W, true⟩, by unfold Admitted; decide +kernel⟩,
   ⟨withKeys (hubbed ready), cmd (pad [3, 0, 0, 0, 0, 0, 0, 0, 1] 40), ⟨0x0404, false, true, .W, true⟩, _, by exact ⟨by unfold Admitted; decide +kernel, by decide +kernel, by decide +kernel, by decide +kernel, by decide +kernel, by decide +kernel, by decide +kernel, by unfold State.newHandleFails; rw [if_neg (by decide), if_neg (by decide +kernel), if_neg (by decide +kernel), if_neg (omk_there (withKeys (hubbed ready)) rfl), if_neg (by decide +kernel)], rfl, by decide +kernel, by decide +kernel⟩⟩,
   ⟨withKeys ready, cmd (pad [4, 0, 0, 0, 0, 0, 0, 0, 0x20, 0, 2, 2] 40), ⟨0x0404, false, true, .W, true⟩, by exact ⟨by unfold Admitted; decide +kernel, by decide +kernel, by decide +kernel, by decide +kernel, by decide +kernel, by decide +kernel, by decide +kernel, by unfold State.newHandleFails; rw [if_neg (by decide), if_neg (by decide +kernel), if_neg (by decide +kernel), if_neg (omk_there (withKeys ready) rfl), if_neg (by decide +kernel)], by decide +kernel, by decide +kernel, by decide +kernel⟩⟩,
   ⟨flying (withKeys (hubbed ready)) (cmd (pad [3, 0, 0, 0, 0, 0, 0, 0, 1] 40)), _, cmd (pad [3, 0, 0, 0, 0, 0, 0, 0, 1] 40), ⟨0x0404, false, true, .W, true⟩, [], by exact ⟨by unfold Admitted; decide +kernel, by decide +kernel, by decide +kernel, by decide +kernel, by decide +kernel, by decide +kernel, by decide +kernel, by unfold State.newHandleFails; rw [if_neg (by decide), if_neg (by decide +kernel), if_neg (by decide +kernel), if_neg (omk_there (flying (withKeys (hubbed ready)) (cmd (pad [3, 0, 0, 0, 0, 0, 0, 0, 1] 40))) rfl), if_neg (by decide +kernel)], by decide +kernel, by decide +kernel, stored_one _ _ _ _ _ rfl rfl⟩⟩,
   ⟨withKeys ready, cmd (pad [2] 8), ⟨0x0405, false, true, .W, true⟩, tin1, [], by unfold Admitted; decide +kernel⟩,
   ⟨withKeys ready, cmd (pad [9] 8), ⟨0x0405, false, true, .W, true⟩, by unfold Admitted; decide +kernel⟩,
   ⟨withKeys ready, cmd (pad [2, 0, 0, 0, 0, 0, 0, 0, 0, 0, 0, 0, 0xFF, 0x7F] 32), ⟨0x0406, false, true, .W, true⟩, tin1, [], ⟨attrs1, [1, 2, 3, 4, 5, 6, 7, 8]⟩, by exact ⟨by unfold Admitted; decide +kernel, by decide +kernel, by decide +kernel, by decide +kernel, by decide +kernel, by decide +kernel, by decide +kernel, by decide +kernel, by unfold State.tinShut; rw [Bool.and_eq_false_iff]; exact .inl (by simpa using omk_ok (withKeys ready) rfl), by decide +kernel, key_ok _ rfl, by decide +kernel⟩⟩,
   ⟨withKeys ready, cmd (pad [2, 0, 0, 0, 0, 0, 0, 0, 0x3F, 0x3F, 0xFF, 0x7F, 0xFF, 0x3F, 0, 0, 0, 0, 0, 0, 0, 0, 255, 255, 255, 255, 255, 255] 32), ⟨0x0406, false, true, .W, true⟩, tin1, [], ⟨attrs1, [1, 2, 3, 4, 5, 6, 7, 8]⟩, by exact ⟨by unfold Admitted; decide +kernel, by decide +kernel, by decide +kernel, by decide +kernel, by decide +kernel, by decide +kernel, by decide +kernel, by decide +kernel, by unfold State.tinShut; rw [Bool.and_eq_false_iff]; exact .inl (by simpa using omk_ok (withKeys ready) rfl), by decide +kernel, key_ok _ rfl, by decide +kernel⟩⟩,
   ⟨withKeys ready, cmd (pad [2, 0, 0, 0, 0, 0, 0, 0, 3] 24), ⟨0x0407, false, true, .W, true⟩, ⟨attrs1, [1, 2, 3, 4, 5, 6, 7, 8]⟩, by exact ⟨by unfold Admitted; decide +kernel, by decide +kernel, by decide +kernel, by unfold State.newHandleFails; rw [if_neg (by decide), if_neg (by decide +kernel), if_neg (by decide +kernel), if_neg (omk_there (withKeys ready) rfl), if_neg (by decide +kernel)], key_ok _ rfl, by decide +kernel, by decide +kernel⟩⟩,
   ⟨withKeys ready, cmd (pad [2, 0, 0, 0, 0, 0, 0, 0, 2] 16), ⟨0x0408, false, false, .W, true⟩, ⟨attrs1, [1, 2, 3, 4, 5, 6, 7, 8]⟩, ⟨attrs1, [1, 2, 3, 4, 5, 6, 7, 8]⟩, by exact ⟨by unfold Admitted; decide +kernel, by decide +kernel, by unfold State.tinShut; rw [Bool.and_eq_false_iff]; exact .inl (by simpa using omk_ok (withKeys ready) rfl), by unfold State.tinShut; rw [Bool.and_eq_false_iff]; exact .inl (by simpa using omk_ok (withKeys ready) rfl), key_ok _ rfl, key_ok _ rfl, by decide +kernel, by decide +kernel, by decide +kernel⟩⟩,
   ⟨ready, cmd [], ⟨0x040B, false, false, .Q, true⟩, by unfold Admitted; decide +kernel⟩⟩

theorem witness_CarryCommands :
    (∃ s : State, ∃ s1 : State, ∃ c : Cmd, ∃ sp : Spec, let b := c.body; Admitted 0x0409 sp c s ∧ b.length = 8 ∧ s.keys.carry = .none ∧ s.useAuth 0x0409 0 b = some s1 ∧ s1.power.stagedState = 2 ∧ s1.omk.isSome = true) ∧
    (∃ s : State, ∃ c : Cmd, ∃ sp : Spec, ∃ y : Carry, let b := c.body; Admitted 0x0409 sp c s ∧ b.length = 8 ∧ s.keys.carry = some y) ∧
    (∃ s : State, ∃ c : Cmd, ∃ sp : Spec, ∃ y : Carry, let b := c.body; Admitted 0x040A sp c s ∧ b.length = 16 ∧ zeroAt b 12 4 = true ∧ s.keys.carry = some y ∧ fieldLE b 0 8 ≤ y.stream.length ∧ s.omk.isSome = true) ∧
    (∃ s : State, ∃ c : Cmd, ∃ sp : Spec, ∃ p : Part, let b := c.body; Admitted 0x0205 sp c s ∧ b = [] ∧ s.part? c.colour = some p ∧ s.omk.isSome = true ∧ (s.keys.rekeying.any (·.1 == c.colour)) = false) :=
  ⟨⟨authed { withKeys ready with power := { ready.power with stagedState := 2 } } 0x0409 0 (pad [5] 8), (authed { withKeys ready with power := { ready.power with stagedState := 2 } } 0x0409 0 (pad [5] 8)).abortCeremony, cmd (pad [5] 8), ⟨0x0409, true, false, .W, false⟩, by exact ⟨by unfold Admitted; decide +kernel, by decide +kernel, by decide +kernel, authed_ok { withKeys ready with power := { ready.power with stagedState := 2 } } 0x0409 0 (pad [5] 8) (by decide) (by decide), by decide +kernel, omk_ok _ rfl⟩⟩,
   ⟨{ withKeys ready with keys := { keys1 with carry := some { measurement := 0, stream := [], position := 0, ended := false } } }, cmd (pad [5] 8), ⟨0x0409, true, false, .W, false⟩, { measurement := 0, stream := [], position := 0, ended := false }, by unfold Admitted; decide +kernel⟩,
   ⟨{ withKeys ready with keys := { keys1 with carry := some { measurement := 0, stream := [], position := 0, ended := false } } }, cmd (pad [] 16), ⟨0x040A, true, false, .W, false⟩, { measurement := 0, stream := [], position := 0, ended := false }, by exact ⟨by unfold Admitted; decide +kernel, by decide +kernel, by decide +kernel, by decide +kernel, by decide +kernel, omk_ok _ rfl⟩⟩,
   ⟨withKeys partR, cmdOf 1 [], ⟨0x0205, true, true, .W, true⟩, part1, by exact ⟨by unfold Admitted; decide +kernel, by decide +kernel, by decide +kernel, omk_ok _ rfl, by decide +kernel⟩⟩⟩

theorem witness_ItineraryCommands :
    (∃ s : State, ∃ c : Cmd, ∃ sp : Spec, ∃ o, let b := c.body; Admitted 0x0501 sp c s ∧ headerFits c b = true ∧ (c.colour = 0 ∨ (s.part? c.colour).isSome = true) ∧ headerFault b = some o) ∧
    (∃ s : State, ∃ c : Cmd, ∃ sp : Spec, let b := c.body; Admitted 0x0501 sp c s ∧ headerFits c b = true ∧ (c.colour = 0 ∨ (s.part? c.colour).isSome = true) ∧ headerFault b = .none ∧ signerOf s.tenancy.signers b = .none) ∧
    (∃ s : State, ∃ c : Cmd, ∃ sp : Spec, ∃ z, let b := c.body; Admitted 0x0501 sp c s ∧ headerFits c b = true ∧ (c.colour = 0 ∨ (s.part? c.colour).isSome = true) ∧ headerFault b = .none ∧ signerOf s.tenancy.signers b = some z) ∧
    (∃ s : State, ∃ c : Cmd, ∃ z, let b := c.body; s.inFlight c = true ∧ signerOf s.tenancy.signers b = some z) ∧
    (∃ s : State, ∃ c : Cmd, ∃ k, ∃ off, let b := c.body; let shared := bit (hdr b 6 2) 0; s.inFlight c = true ∧ zeroAt b (sigOffset b + 4723) 13 = true ∧ codeFault b shared (s.policyOfColour c.colour) (s.tenancy.profile == .compact) = some (k, off)) ∧
    (∃ s : State, ∃ c : Cmd, ∃ g : Nat, ∃ y : Image, let b := c.body; let x := imageRecord b 0; let id := BitVec.ofNat 32 (fieldLE b 0 4); let shared := bit (hdr b 6 2) 0; s.inFlight c = true ∧ zeroAt b (sigOffset b + 4723) 13 = true ∧ codeFault b shared (s.policyOfColour c.colour) (s.tenancy.profile == .compact) = .none ∧ s.tenancy.images.find? (fun (y : Image) => y.names x.colour x.shared x.id) = .none ∧ s.freeGranule = some g ∧ s.tenancy.images.length < 65536) ∧
    (∃ s : State, ∃ c : Cmd, ∃ y : Image, let b := c.body; let x := imageRecord b 0; let id := BitVec.ofNat 32 (fieldLE b 0 4); let shared := bit (hdr b 6 2) 0; s.inFlight c = true ∧ zeroAt b (sigOffset b + 4723) 13 = true ∧ codeFault b shared (s.policyOfColour c.colour) (s.tenancy.profile == .compact) = .none ∧ s.tenancy.images.find? (fun (y : Image) => y.names x.colour x.shared x.id) = some y ∧ x.version ≤ y.version) ∧
    (∃ s : State, ∃ c : Cmd, ∃ sp : Spec, ∃ y : Image, let b := c.body; let id := BitVec.ofNat 32 (fieldLE b 0 4); Admitted 0x0502 sp c s ∧ b.length = 8 ∧ zeroAt b 4 4 = true ∧ (¬(sharedId id = true ∧ (c.fn ≠ 0 ∨ c.colour ≠ 0))) ∧ (s.tenancy.images.any fun (y : Image) => y.names c.colour (sharedId id) id) = true) ∧
    (∃ s : State, ∃ c : Cmd, ∃ sp : Spec, let b := c.body; Admitted 0x0503 sp c s ∧ b.length = 8) ∧
    (∃ s : State, ∃ s1 : State, ∃ c : Cmd, ∃ sp : Spec, let b := c.body; let x := imageRecord b 0; let key := BitVec.ofNat 64 (fieldLE b 0 8); Admitted 0x0504 sp c s ∧ b.length = 2712 ∧ zeroAt b 113 7 = true ∧ (s.tenancy.signers.any fun (x : Signer) => x.ident == key) = false ∧ s.tenancy.signers.length < 16 ∧ s.useAuth 0x0504 8 b = some s1 ∧ s1.tenancy = s.tenancy) ∧
    (∃ s : State, ∃ s1 : State, ∃ c : Cmd, ∃ sp : Spec, let b := c.body; let x := imageRecord b 0; let key := BitVec.ofNat 64 (fieldLE b 0 8); Admitted 0x0505 sp c s ∧ b.length = 16 ∧ (s.tenancy.signers.any fun (x : Signer) => x.ident == key) = true ∧ s.useAuth 0x0505 8 b = some s1 ∧ s1.tenancy = s.tenancy) :=
  ⟨⟨ready, cmd [], ⟨0x0501, false, false, .W, true⟩, 0, by unfold Admitted; decide +kernel⟩,
   ⟨ready, cmd (imageOf 0xC8), ⟨0x0501, false, false, .W, true⟩, by unfold Admitted; decide +kernel⟩,
   ⟨{ ready with tenancy := { ready.tenancy with signers := [⟨0, [], []⟩] } }, cmd (imageOf 0xC8), ⟨0x0501, false, false, .W, true⟩, ⟨0, [], []⟩, by unfold Admitted; decide +kernel⟩,
   ⟨flying { ready with tenancy := { ready.tenancy with signers := [⟨0, [], []⟩] } } (cmd (imageOf 0xC8)), cmd (imageOf 0xC8), ⟨0, [], []⟩, by decide +kernel⟩,
   ⟨flying ready (cmd (imageOf 0)), cmd (imageOf 0), 3, 64, by decide +kernel⟩,
   ⟨flying ready (cmd (imageOf 0xC8)), cmd (imageOf 0xC8), 0, image1, by decide +kernel⟩,
   ⟨flying (withImages ready { image1 with id := 0x10000, colour := 0 }) (cmd (imageOf 0xC8)), cmd (imageOf 0xC8), { image1 with id := 0x10000, colour := 0 }, by decide +kernel⟩,
   ⟨withImage partR, cmdOf 1 (pad [0, 16] 8), ⟨0x0502, false, false, .W, true⟩, image1, by unfold Admitted; decide +kernel⟩,
   ⟨ready, cmd (pad [] 8), ⟨0x0503, false, false, .Q, true⟩, by unfold Admitted; decide +kernel⟩,
   ⟨authed ready 0x0504 8 (pad [0, 0, 0, 0, 0, 0, 0, 0, 5] 2712), (authed ready 0x0504 8 (pad [0, 0, 0, 0, 0, 0, 0, 0, 5] 2712)).abortCeremony, cmd (pad [0, 0, 0, 0, 0, 0, 0, 0, 5] 2712), ⟨0x0504, true, true, .W, false⟩, by exact ⟨by unfold Admitted; decide +kernel, by decide +kernel, by decide +kernel, by decide +kernel, by decide +kernel, authed_ok ready 0x0504 8 (pad [0, 0, 0, 0, 0, 0, 0, 0, 5] 2712) (by decide +kernel) (by decide +kernel), rfl⟩⟩,
   ⟨authed { ready with tenancy := { ready.tenancy with signers := [⟨0, [], []⟩] } } 0x0505 8 (pad [0, 0, 0, 0, 0, 0, 0, 0, 5] 16), (authed { ready with tenancy := { ready.tenancy with signers := [⟨0, [], []⟩] } } 0x0505 8 (pad [0, 0, 0, 0, 0, 0, 0, 0, 5] 16)).abortCeremony, cmd (pad [0, 0, 0, 0, 0, 0, 0, 0, 5] 16), ⟨0x0505, true, true, .W, false⟩, by exact ⟨by unfold Admitted; decide +kernel, by decide +kernel, by decide +kernel, authed_ok { ready with tenancy := { ready.tenancy with signers := [⟨0, [], []⟩] } } 0x0505 8 (pad [0, 0, 0, 0, 0, 0, 0, 0, 5] 16) (by decide +kernel) (by decide +kernel), rfl⟩⟩⟩

theorem witness_VaultCommands :
    (∃ s : State, ∃ c : Cmd, ∃ sp : Spec, let b := c.body; let n := fieldLE b 0 4; Admitted 0x0601 sp c s ∧ b.length = 8 ∧ zeroAt b 4 4 = true ∧ n % 4096 = 0 ∧ n ≤ 2 ^ 31 ∧ s.vault.state = .opened ∧ s.vault.n < n) ∧
    (∃ s : State, ∃ c : Cmd, ∃ sp : Spec, let b := c.body; let n := fieldLE b 0 4; Admitted 0x0601 sp c s ∧ b.length = 8 ∧ zeroAt b 4 4 = true ∧ n % 4096 = 0 ∧ n ≠ 0 ∧ n ≤ 2 ^ 31 ∧ (s.vault.state = .unformatted ∨ s.vault.state = .lost)) ∧
    (∃ s : State, ∃ c : Cmd, ∃ sp : Spec, ∃ p : Part, let b := c.body; let n := fieldLE b 0 4; let size := fieldLE b 4 4; let h1 := BitVec.ofNat 64 (fieldLE b 8 8); let h2 := BitVec.ofNat 64 (fieldLE b 16 8); Admitted 0x0602 sp c s ∧ b.length = 24 ∧ s.part? c.colour = some p ∧ n % 4096 = 0 ∧ size % 4096 = 0 ∧ size ≠ 0 ∧ p.extent = .none ∧ s.extentClash n size = false ∧ s.tinShut c.colour h1 = false ∧ s.tinShut c.colour h2 = false ∧ size ≤ (if p.vf = 0 then s.freeVault else p.vaultQuota)) ∧
    (∃ s : State, ∃ c : Cmd, ∃ sp : Spec, ∃ e : Extent, let b := c.body; Admitted 0x0603 sp c s ∧ b = [] ∧ s.extentOf c.colour = some e ∧ s.colourRuns c.colour = false ∧ (s.vault.state = .opened ∨ s.vault.state = .degraded) ∧ s.vault.sessions ≠ [] ∧ s.vault.freeing = .none) ∧
    (∃ s : State, ∃ c : Cmd, ∃ sp : Spec, let b := c.body; Admitted 0x0604 sp c s ∧ b.length = 8 + 4 * fieldLE b 0 1 ∧ zeroAt b 1 3 = true ∧ ((chunks 4 (b.drop 8)).all fun x => zeroAt x 1 1) = true ∧ fieldLE b 0 1 ≤ 4 ∧ 10 ≤ fieldLE b 4 4 ∧ fieldLE b 4 4 ≤ 10000 ∧ (∀ y ∈ attachList b, y.1 ≤ 1 ∧ y.2 ≠ 0 ∧ y.2 ≤ 4095 ∧ ∃ x, (s.port y.1).sessions.find? y.2 = some x ∧ x.colour = 0)) ∧
    (∃ s : State, ∃ c : Cmd, ∃ sp : Spec, let b := c.body; Admitted 0x0605 sp c s ∧ b.length = 8 ∧ zeroAt b 4 4 = true) ∧
    (∃ s : State, ∃ s1 : State, ∃ s2 : State, ∃ c : Cmd, ∃ sp : Spec, ∃ id : Word, let b := c.body; Admitted 0x0606 sp c s ∧ b.length = 8 ∧ s.vault.state = .stale ∧ s.useAuth 0x0606 0 b = some s1 ∧ s1.vaultGet false false 0 0 = some (s2, id)) ∧
    (∃ s : State, ∃ c : Cmd, ∃ sp : Spec, let b := c.body; Admitted 0x0606 sp c s ∧ b.length = 8 ∧ s.vault.state ≠ .stale) ∧
    (∃ s : State, ∃ c : Cmd, ∃ sp : Spec, let b := c.body; Admitted 0x0607 sp c s ∧ b = []) :=
  ⟨⟨hubbed ({ ready with vault := { Vault.reset with state := .opened, n := 4096 } }), cmd (pad [0, 32] 8), ⟨0x0601, true, true, .W, false⟩, by unfold Admitted; decide +kernel⟩,
   ⟨hubbed ready, cmd (pad [0, 32] 8), ⟨0x0601, true, true, .W, false⟩, by unfold Admitted; decide +kernel⟩,
   ⟨{ partR with vault := { Vault.reset with state := .opened, n := 8192 } }, cmdOf 1 (pad [0, 16, 0, 0, 0, 16] 24), ⟨0x0602, true, true, .W, true⟩, part1, by unfold Admitted; decide +kernel⟩,
   ⟨{ parted ready ({ part1 with extent := some ⟨0, 4096, 5, 6⟩ }) with vault := { Vault.reset with state := .opened, n := 8192, sessions := [(0, 3)] } }, cmdOf 1 [], ⟨0x0603, true, true, .W, true⟩, ⟨0, 4096, 5, 6⟩, by unfold Admitted; decide +kernel⟩,
   ⟨ready, cmd (pad [0, 0, 0, 0, 10] 8), ⟨0x0604, true, false, .W, false⟩, by unfold Admitted; decide +kernel⟩,
   ⟨ready, cmd (pad [] 8), ⟨0x0605, false, false, .W, true⟩, by unfold Admitted; decide +kernel⟩,
   ⟨authed { ready with vault := { Vault.reset with state := .stale, sessions := [(0, 3)] }, port0 := { up with sessions := [(3, session1)] } } 0x0606 0 (pad [5] 8), (authed { ready with vault := { Vault.reset with state := .stale, sessions := [(0, 3)] }, port0 := { up with sessions := [(3, session1)] } } 0x0606 0 (pad [5] 8)).abortCeremony, _, cmd (pad [5] 8), ⟨0x0606, true, false, .W, false⟩, 1, by exact ⟨by unfold Admitted; decide +kernel, by decide +kernel, by decide +kernel, authed_ok { ready with vault := { Vault.reset with state := .stale, sessions := [(0, 3)] }, port0 := { up with sessions := [(3, session1)] } } 0x0606 0 (pad [5] 8) (by decide +kernel) (by decide +kernel), rfl⟩⟩,
   ⟨ready, cmd (pad [] 8), ⟨0x0606, true, false, .W, false⟩, by unfold Admitted; decide +kernel⟩,
   ⟨ready, cmd [], ⟨0x0607, true, false, .Q, false⟩, by unfold Admitted; decide +kernel⟩⟩

theorem witness_PortAndTimeCommands :
    (∃ s : State, ∃ c : Cmd, ∃ sp : Spec, let b := c.body; Admitted 0x0701 sp c s ∧ b.length = 8) ∧
    (∃ s : State, ∃ c : Cmd, ∃ sp : Spec, let b := c.body; Admitted 0x0702 sp c s ∧ b = []) ∧
    (∃ s : State, ∃ c : Cmd, ∃ sp : Spec, let b := c.body; let p := fieldLE b 0 1; let h := BitVec.ofNat 64 (fieldLE b 8 8); Admitted 0x0901 sp c s ∧ b.length = 40 ∧ fieldLE b 1 1 = 0 ∧ zeroAt b 2 2 = true ∧ ((List.range 5).all fun i => zeroAt b (19 + 4 * i) 1) = true ∧ zeroAt b 36 4 = true ∧ p ≤ 1 ∧ 100 ≤ fieldLE b 4 4 ∧ fieldLE b 4 4 ≤ 100000 ∧ h = 0) ∧
    (∃ s : State, ∃ c : Cmd, ∃ sp : Spec, let b := c.body; let p := fieldLE b 0 1; let h := BitVec.ofNat 64 (fieldLE b 8 8); let on := bit (fieldLE b 1 1) 0; let stop := bit (fieldLE b 1 1) 1; let pt := s.port p; Admitted 0x0901 sp c s ∧ b.length = 40 ∧ fieldLE b 1 1 < 4 ∧ zeroAt b 2 2 = true ∧ ((List.range 5).all fun i => zeroAt b (19 + 4 * i) 1) = true ∧ zeroAt b 36 4 = true ∧ p ≤ 1 ∧ 100 ≤ fieldLE b 4 4 ∧ fieldLE b 4 4 ≤ 100000 ∧ (stop = true → on = true ∧ pt.link = .up) ∧ h = 0 ∧ (on = true → pt.baseKey ≠ 0)) ∧
    (∃ s : State, ∃ s1 : State, ∃ c : Cmd, ∃ sp : Spec, ∃ k : Bytes, let b := c.body; let p := fieldLE b 0 1; let h := BitVec.ofNat 64 (fieldLE b 8 8); let on := bit (fieldLE b 1 1) 0; let stop := bit (fieldLE b 1 1) 1; let pt := s.port p; Admitted 0x0901 sp c s ∧ b.length = 40 ∧ fieldLE b 1 1 < 4 ∧ zeroAt b 2 2 = true ∧ ((List.range 5).all fun i => zeroAt b (19 + 4 * i) 1) = true ∧ zeroAt b 36 4 = true ∧ p ≤ 1 ∧ 100 ≤ fieldLE b 4 4 ∧ fieldLE b 4 4 ≤ 100000 ∧ (stop = true → on = true ∧ pt.link = .up) ∧ h ≠ 0 ∧ s.tinShut 0 h = false ∧ s.baseKey 0 h = (s1, some k)) ∧
    (∃ s : State, ∃ c : Cmd, ∃ sp : Spec, let b := c.body; let p := fieldLE b 0 1; let h := BitVec.ofNat 64 (fieldLE b 8 8); let on := bit (fieldLE b 1 1) 0; let stop := bit (fieldLE b 1 1) 1; let pt := s.port p; Admitted 0x0901 sp c s ∧ b.length = 40 ∧ fieldLE b 1 1 < 4 ∧ zeroAt b 2 2 = true ∧ ((List.range 5).all fun i => zeroAt b (19 + 4 * i) 1) = true ∧ zeroAt b 36 4 = true ∧ p ≤ 1 ∧ 100 ≤ fieldLE b 4 4 ∧ fieldLE b 4 4 ≤ 100000 ∧ (stop = true → on = true ∧ pt.link = .up) ∧ h ≠ 0 ∧ s.tinShut 0 h = true) ∧
    (∃ s : State, ∃ s1 : State, ∃ c : Cmd, ∃ sp : Spec, ∃ k : Bytes, let b := c.body; let p := fieldLE b 0 1; let n := fieldLE b 2 2; let h := BitVec.ofNat 64 (fieldLE b 8 8); Admitted 0x0902 sp c s ∧ b.length = 16 ∧ fieldLE b 4 1 < 4 ∧ zeroAt b 6 2 = true ∧ p ≤ 1 ∧ fieldLE b 1 1 ≠ 0 ∧ fieldLE b 1 1 ≤ 7 ∧ n ≠ 0 ∧ n ≤ 4095 ∧ fieldLE b 5 1 ≠ 0 ∧ (s.port p).sessions.has n = false ∧ s.tinShut c.colour h = false ∧ s.baseKey c.colour h = (s1, some k)) ∧
    (∃ s : State, ∃ c : Cmd, ∃ sp : Spec, let b := c.body; let p := fieldLE b 0 1; let n := fieldLE b 2 2; Admitted 0x0902 sp c s ∧ b.length = 16 ∧ fieldLE b 4 1 < 4 ∧ zeroAt b 6 2 = true ∧ p ≤ 1 ∧ fieldLE b 1 1 ≠ 0 ∧ fieldLE b 1 1 ≤ 7 ∧ n ≠ 0 ∧ n ≤ 4095 ∧ fieldLE b 5 1 ≠ 0 ∧ (s.port p).sessions.has n = true) ∧
    (∃ s : State, ∃ c : Cmd, ∃ sp : Spec, ∃ x : Session, let b := c.body; let p := fieldLE b 0 1; let n := fieldLE b 2 2; Admitted 0x0903 sp c s ∧ b.length = 8 ∧ zeroAt b 1 1 = true ∧ zeroAt b 4 4 = true ∧ p ≤ 1 ∧ n ≠ 0 ∧ n ≤ 4095 ∧ (s.port p).sessions.find? n = some x ∧ x.colour = c.colour) ∧
    (∃ s : State, ∃ c : Cmd, ∃ sp : Spec, let b := c.body; let p := fieldLE b 0 1; Admitted 0x0904 sp c s ∧ b.length = 8 ∧ zeroAt b 1 7 = true ∧ p ≤ 1) ∧
    (∃ s : State, ∃ c : Cmd, ∃ sp : Spec, let b := c.body; Admitted 0x0A01 sp c s ∧ b = []) ∧
    (∃ s : State, ∃ c : Cmd, ∃ sp : Spec, let b := c.body; Admitted 0x0A02 sp c s ∧ b.length = 8 ∧ zeroAt b 4 4 = true ∧ fieldLE b 0 1 ≤ 127 ∧ fieldLE b 1 1 ≤ 1 ∧ fieldLE b 2 1 ≤ 1 ∧ fieldLE b 3 1 ≤ 1) :=
  ⟨⟨ready, cmd (pad [] 8), ⟨0x0701, false, false, .Q, true⟩, by unfold Admitted; decide +kernel⟩,
   ⟨ready, cmd [], ⟨0x0702, true, false, .Q, false⟩, by unfold Admitted; decide +kernel⟩,
   ⟨ready, cmd (pad [0, 0, 0, 0, 100] 40), ⟨0x0901, true, false, .W, false⟩, by unfold Admitted; decide +kernel⟩,
   ⟨ready, cmd (pad [0, 0, 0, 0, 100] 40), ⟨0x0901, true, false, .W, false⟩, by unfold Admitted; decide +kernel⟩,
   ⟨{ ready with keys := { Keys.reset with caddy := [{ (entry false) with key := { aesKey with attrs := { aesKey.attrs with ktype := 3 }, material := List.replicate 32 0 } }] } }, _, cmd (pad [0, 0, 0, 0, 100, 0, 0, 0, 5] 40), ⟨0x0901, true, false, .W, false⟩, List.replicate 32 0, by exact ⟨by unfold Admitted; decide +kernel, by decide +kernel, by decide +kernel, by decide +kernel, by decide +kernel, by decide +kernel, by decide +kernel, by decide +kernel, by decide +kernel, by decide +kernel, by decide +kernel, by decide +kernel, rfl⟩⟩,
   ⟨{ ready with keys := { Keys.reset with warm := [(5, .live { tin1 with context := 0 } [])] } }, cmd (pad [0, 0, 0, 0, 100, 0, 0, 0, 5] 40), ⟨0x0901, true, false, .W, false⟩, by unfold Admitted; decide +kernel⟩,
   ⟨{ ready with keys := { Keys.reset with caddy := [{ (entry false) with key := { aesKey with attrs := { aesKey.attrs with ktype := 3 }, material := List.replicate 32 0 } }] } }, _, cmd (pad [0, 1, 1, 0, 3, 1, 0, 0, 5] 16), ⟨0x0902, false, false, .W, true⟩, List.replicate 32 0, by exact ⟨by unfold Admitted; decide +kernel, by decide +kernel, by decide +kernel, by decide +kernel, by decide +kernel, by decide +kernel, by decide +kernel, by decide +kernel, by decide +kernel, by decide +kernel, by decide +kernel, by decide +kernel, rfl⟩⟩,
   ⟨{ ready with port0 := { up with sessions := [(1, session1)] } }, cmd (pad [0, 1, 1, 0, 3, 1, 0, 0, 5] 16), ⟨0x0902, false, false, .W, true⟩, by unfold Admitted; decide +kernel⟩,
   ⟨{ ready with port0 := { up with sessions := [(1, session1)] } }, cmdOf 1 (pad [0, 0, 1] 8), ⟨0x0903, false, false, .O, true⟩, session1, by unfold Admitted; decide +kernel⟩,
   ⟨ready, cmd (pad [1] 8), ⟨0x0904, true, false, .Q, false⟩, by unfold Admitted; decide +kernel⟩,
   ⟨ready, cmd [], ⟨0x0A01, false, false, .Q, false⟩, by unfold Admitted; decide +kernel⟩,
   ⟨ready, cmd (pad [] 8), ⟨0x0A02, true, false, .W, false⟩, by unfold Admitted; decide +kernel⟩⟩

theorem witness_EntropyCeremonyFirmwareCommands :
    (∃ s : State, ∃ c : Cmd, ∃ sp : Spec, let b := c.body; Admitted 0x0B01 sp c s ∧ b = []) ∧
    (∃ s : State, ∃ c : Cmd, ∃ sp : Spec, let b := c.body; Admitted 0x0B02 sp c s ∧ b.length = 8 ∧ zeroAt b 2 6 = true) ∧
    (∃ s : State, ∃ c : Cmd, ∃ sp : Spec, let b := c.body; Admitted 0x0B03 sp c s ∧ b.length = 8 ∧ zeroAt b 2 6 = true ∧ fieldLE b 0 2 = (srcHub 0x0B).toNat) ∧
    (∃ s : State, ∃ c : Cmd, ∃ sp : Spec, let b := c.body; Admitted 0x0C01 sp c s ∧ b.length = 56 ∧ zeroAt b 2 6 = true ∧ purposes.contains (fieldLE b 0 2) = true ∧ (fieldLE b 0 2 = 0x0C04 → allZero (slice b 8 48) = true) ∧ s.openCeremony = .none ∧ (s.card 0).phase = .off ∧ (s.card 1).phase = .off) ∧
    (∃ s : State, ∃ c : Cmd, ∃ sp : Spec, let b := c.body; Admitted 0x0C01 sp c s ∧ b.length = 56 ∧ zeroAt b 2 6 = true ∧ purposes.contains (fieldLE b 0 2) = true ∧ (fieldLE b 0 2 = 0x0C04 → allZero (slice b 8 48) = true) ∧ s.openCeremony.isSome = true) ∧
    (∃ s : State, ∃ c : Cmd, ∃ sp : Spec, ∃ y : Ceremony, let b := c.body; Admitted 0x0C02 sp c s ∧ b.length = 8 ∧ s.ceremonyOf b = some y) ∧
    (∃ s : State, ∃ c : Cmd, ∃ sp : Spec, ∃ y : Ceremony, let b := c.body; Admitted 0x0C03 sp c s ∧ b.length = 8 ∧ s.ceremonyOf b = some y) ∧
    (∃ s : State, ∃ s1 : State, ∃ c : Cmd, ∃ sp : Spec, ∃ y : Ceremony, ∃ key : Bytes, let b := c.body; Admitted 0x0C04 sp c s ∧ b.length = 8 ∧ s.ceremonyOf b = some y ∧ y.purpose = 0x0C04 ∧ y.state = .granted ∧ s.record 0 1 = .none ∧ s.formOmk y = some key ∧ ((((s.begin sp c).cmdAccepted c 0x0C04).cmdIntent c 2 1 (s.versionOf 1).toNat).drawn.makeRecord 1 1 s.omkAttrs (BitVec.ofNat 32 ((s.versionOf 1).toNat + 1)) key) = some s1) ∧
    (∃ s : State, ∃ c : Cmd, ∃ sp : Spec, let b := c.body; Admitted 0x1101 sp c s ∧ b = []) ∧
    (∃ s : State, ∃ c : Cmd, ∃ sp : Spec, let b := c.body; let piece := b.drop 16; let off := fieldLE b 0 8; let total := fieldLE b 8 8; let held := if off = 0 then [] else s.power.staged; Admitted 0x1102 sp c s ∧ 16 ≤ b.length ∧ s.keys.carry = .none ∧ (s.power.stagedTotal = total → s.power.stagedLast ≠ (off, piece)) ∧ piece ≠ [] ∧ piece.length ≤ 16777216 ∧ off = held.length ∧ (off ≠ 0 → total = s.power.stagedTotal) ∧ off + piece.length ≤ total ∧ total ≤ 3145728) ∧
    (∃ s : State, ∃ c : Cmd, ∃ sp : Spec, let b := c.body; Admitted 0x1103 sp c s ∧ b = [] ∧ s.power.stagedState = 2 ∧ s.power.activating = false ∧ s.warmTins = [] ∧ (s.tenantLanes.any fun l => (s.lane l).state != .closed) = false) :=
  ⟨⟨ready, cmd [], ⟨0x0B01, true, false, .Q, false⟩, by unfold Admitted; decide +kernel⟩,
   ⟨ready, cmd (pad [0, 1] 8), ⟨0x0B02, true, false, .W, false⟩, by unfold Admitted; decide +kernel⟩,
   ⟨ready, cmd (pad [(srcHub 0x0B).setWidth 8, (srcHub 0x0B).extractLsb' 8 8] 8), ⟨0x0B03, true, false, .Q, false⟩, by unfold Admitted; decide +kernel⟩,
   ⟨ready, cmd (pad [2, 0x0D] 56), ⟨0x0C01, true, false, .C, false⟩, by unfold Admitted; decide +kernel⟩,
   ⟨{ ready with cards := { Cards.reset with ceremony := some { id := 3, purpose := 0x0D02, digest := [], state := .waiting, joined := [], enrolled := [], auth := .none, grantedAt := 0, torn := .none } } }, cmd (pad [2, 0x0D] 56), ⟨0x0C01, true, false, .C, false⟩, by unfold Admitted; decide +kernel⟩,
   ⟨{ ready with cards := { Cards.reset with ceremony := some { id := 3, purpose := 0x0D02, digest := [], state := .waiting, joined := [], enrolled := [], auth := .none, grantedAt := 0, torn := .none } } }, cmd (pad [3] 8), ⟨0x0C02, true, false, .C, false⟩, { id := 3, purpose := 0x0D02, digest := [], state := .waiting, joined := [], enrolled := [], auth := .none, grantedAt := 0, torn := .none }, by unfold Admitted; decide +kernel⟩,
   ⟨{ ready with cards := { Cards.reset with ceremony := some { id := 3, purpose := 0x0D02, digest := [], state := .waiting, joined := [], enrolled := [], auth := .none, grantedAt := 0, torn := .none } } }, cmd (pad [3] 8), ⟨0x0C03, true, false, .C, false⟩, { id := 3, purpose := 0x0D02, digest := [], state := .waiting, joined := [], enrolled := [], auth := .none, grantedAt := 0, torn := .none }, by unfold Admitted; decide +kernel⟩,
   ⟨{ ({ ready with cards := { Cards.reset with ceremony := some { id := 3, purpose := 0x0C04, digest := [], state := .granted, joined := [], enrolled := [], auth := .none, grantedAt := 0, torn := .none } } }) with keys := { Keys.reset with fbr := some 0, devWrap := some 0, devBind := some 0 } }, _, cmd (pad [3] 8), ⟨0x0C04, true, true, .C, false⟩, { id := 3, purpose := 0x0C04, digest := [], state := .granted, joined := [], enrolled := [], auth := .none, grantedAt := 0, torn := .none }, _, by exact ⟨by unfold Admitted; decide +kernel, by decide +kernel, by decide +kernel, by decide +kernel, by decide +kernel, by decide +kernel, rfl, rfl⟩⟩,
   ⟨ready, cmd [], ⟨0x1101, true, false, .A, false⟩, by unfold Admitted; decide +kernel⟩,
   ⟨ready, cmd (pad [0, 0, 0, 0, 0, 0, 0, 0, 2, 0, 0, 0, 0, 0, 0, 0, 9] 17), ⟨0x1102, true, false, .W, false⟩, by unfold Admitted; decide +kernel⟩,
   ⟨{ ready with power := { ready.power with stagedState := 2 } }, cmd [], ⟨0x1103, true, true, .W, false⟩, by unfold Admitted; decide +kernel⟩⟩

theorem witness_MilepostCounter :
    (∃ s : State, let x := ((s.time.nanos.toNat * 2 ^ 16 + s.time.frac.toNat) * 2 ^ 24 + s.time.sub + s.time.rate); s.power.porst = false ∧ s.time.nanos.toNat < 1000000000 ∧ s.time.sub < 2 ^ 24 ∧ s.time.rate < 2 ^ 41 ∧ x < 1000000000 * 2 ^ 40) ∧
    (∃ s : State, let x := ((s.time.nanos.toNat * 2 ^ 16 + s.time.frac.toNat) * 2 ^ 24 + s.time.sub + s.time.rate); s.power.porst = false ∧ s.time.nanos.toNat < 1000000000 ∧ s.time.sub < 2 ^ 24 ∧ s.time.rate < 2 ^ 41 ∧ 1000000000 * 2 ^ 40 ≤ x) ∧
    (∃ s : State, ∃ r : State, s.power.porst = false ∧ s.time.nanos.toNat < 1000000000 ∧ s.time.sub < 2 ^ 24 ∧ s.time.rate < 2 ^ 41 ∧ r.power.porst = true) :=
  ⟨⟨ready, by decide +kernel⟩,
   ⟨{ ready with time := { Time.reset with nanos := 999999999 } }, by decide +kernel⟩,
   ⟨{ ready with time := { Time.reset with nanos := 999999999 } }, State.reset, by decide +kernel⟩⟩

theorem witness_TimingMessages :
    (∃ s : State, ∃ m : PtpMsg, ∃ row : Nat, ∃ c, s.time.running = true ∧ s.time.ptpBad m = some row ∧ c ∈ [Instr.sync m, .followUp m, .announce m, .delayResp m, .pdelayReq m, .pdelayResp m]) ∧
    (∃ s : State, ∃ m : PtpMsg, s.time.running = true ∧ s.time.ptpBad m = .none ∧ s.time.selected = some m.source ∧ m.twoStep = true) ∧
    (∃ s : State, ∃ m : PtpMsg, s.time.running = true ∧ s.time.ptpBad m = .none ∧ s.time.selected = some m.source ∧ m.twoStep = false) ∧
    (∃ s : State, ∃ m : PtpMsg, ∃ y : PtpMsg, s.time.running = true ∧ s.time.ptpBad m = .none ∧ s.time.selected = some m.source ∧ s.time.sync = some y ∧ y.sequence = m.sequence ∧ m.rxNs ≤ y.rxNs + intervalNs y.logInterval) ∧
    (∃ s : State, ∃ m : PtpMsg, ∃ y : PtpMsg, s.time.running = true ∧ s.time.ptpBad m = .none ∧ s.time.selected = some m.source ∧ s.time.sync = some y ∧ y.sequence ≠ m.sequence) ∧
    (∃ s : State, ∃ m : PtpMsg, ∃ q : BitVec 16, ∃ t3 : Nat, ∃ d : Int, s.time.running = true ∧ s.time.ptpBad m = .none ∧ s.time.selected = some m.source ∧ m.requester = clockIdentity ∧ s.time.peer = false ∧ s.time.t3 = some (q, t3) ∧ q = m.sequence ∧ s.time.ms = some d) ∧
    (∃ s : State, ∃ m : PtpMsg, ∃ t1 : Nat, s.time.running = true ∧ s.time.ptpBad m = .none ∧ s.time.peer = true ∧ m.requester = clockIdentity ∧ s.time.pdelay = some (m.sequence, t1) ∧ m.twoStep = false ∧ s.time.pdelayResp = .none) ∧
    (∃ s : State, ∃ m : PtpMsg, ∃ t1 : Nat, s.time.running = true ∧ s.time.ptpBad m = .none ∧ s.time.peer = true ∧ m.requester = clockIdentity ∧ s.time.pdelay = some (m.sequence, t1) ∧ m.twoStep = true) ∧
    (∃ s : State, ∃ m : PtpMsg, s.time.running = true ∧ s.time.ptpBad m = .none ∧ m.ptpTimescale = true) ∧
    (∃ s : State, ∃ m : PtpMsg, s.time.running = true ∧ s.time.ptpBad m = .none ∧ m.ptpTimescale = false) :=
  ⟨⟨clocked Time.reset, { ptp with frameOk := false }, 0, .sync { ptp with frameOk := false }, by exact ⟨by decide +kernel, by decide +kernel, .head _⟩⟩,
   ⟨clocked { Time.reset with selected := some 7 }, ptp, by decide +kernel⟩,
   ⟨clocked { Time.reset with selected := some 7 }, { ptp with twoStep := false }, by decide +kernel⟩,
   ⟨clocked { Time.reset with selected := some 7, sync := some ptp }, ptp, ptp, by exact ⟨by decide +kernel, by decide +kernel, by decide +kernel, rfl, by decide +kernel, by decide +kernel⟩⟩,
   ⟨clocked { Time.reset with selected := some 7, sync := some { ptp with sequence := 2 } }, ptp, { ptp with sequence := 2 }, by exact ⟨by decide +kernel, by decide +kernel, by decide +kernel, rfl, by decide +kernel⟩⟩,
   ⟨clocked { Time.reset with selected := some 7, t3 := some (1, 0), ms := some 0 }, ptp, 1, 0, 0, by exact ⟨by decide +kernel, by decide +kernel, by decide +kernel, rfl, by decide +kernel, by decide +kernel, by decide +kernel, by decide +kernel⟩⟩,
   ⟨clocked { Time.reset with peer := true, pdelay := some (1, 0) }, { ptp with twoStep := false }, 0, by exact ⟨by decide +kernel, by decide +kernel, by decide +kernel, rfl, by decide +kernel, by decide +kernel, by decide +kernel⟩⟩,
   ⟨clocked { Time.reset with peer := true, pdelay := some (1, 0) }, ptp, 0, by exact ⟨by decide +kernel, by decide +kernel, by decide +kernel, rfl, by decide +kernel, by decide +kernel⟩⟩,
   ⟨clocked { Time.reset with selected := some 7 }, ptp, by decide +kernel⟩,
   ⟨clocked { Time.reset with selected := some 7 }, { ptp with ptpTimescale := false }, by decide +kernel⟩⟩

theorem witness_TimingEvents :
    (∃ s : State, s.time.running = true ∧ s.time.peer = false ∧ s.time.selected.isSome = true) ∧
    (∃ s : State, s.time.running = true ∧ s.time.peer = true) ∧
    (∃ s : State, s.time.quality ≠ .locked) ∧
    (∃ s : State, ∃ i, s.time.selected = some i) ∧
    (∃ s : State, s.time.quality = .holdover ∧ s.time.selected = .none ∧ 1000000 < s.time.estimate) ∧
    (∃ s : State, s.time.source = 1 ∧ s.time.ref10m = true) ∧
    (∃ s : State, s.time.quality = .locked ∧ s.time.offBoundary ≤ 100) ∧
    (∃ s : State, s.time.quality = .locked ∧ 1000 < s.time.offBoundary) :=
  ⟨⟨clocked { Time.reset with selected := some 7 }, by decide +kernel⟩,
   ⟨clocked { Time.reset with peer := true }, by decide +kernel⟩,
   ⟨clocked { Time.reset with domain := 0 }, by decide +kernel⟩,
   ⟨clocked { Time.reset with selected := some 7 }, 7, by decide +kernel⟩,
   ⟨{ clocked { Time.reset with quality := .holdover, e := 1000001 } with now := 10 }, by decide +kernel⟩,
   ⟨clocked { Time.reset with source := 1, ref10m := true }, by decide +kernel⟩,
   ⟨clocked { Time.reset with quality := .locked }, by decide +kernel⟩,
   ⟨clocked { Time.reset with quality := .locked, nanos := 1001 }, by decide +kernel⟩⟩

theorem witness_NoiseAndKettle :
    (∃ s : State, ∃ n : Nat, cellOk n = true ∧ (s.cell n).running = true ∧ (s.cell n).stable = false) ∧
    (∃ s : State, ∃ n : Nat, ∃ raw : List (Bool × Bool), ∃ w : BitVec 4096, let fills := (s.cell n).delivers = true ∧ strainedWindow (s.cell n).mode raw = some w; cellOk n = true ∧ fills ∧ s.entropy.kettleKat = false ∧ windowFails w = .none) ∧
    (∃ s : State, ∃ n : Nat, ∃ raw : List (Bool × Bool), ∃ w : BitVec 4096, ∃ k : Nat, let fills := (s.cell n).delivers = true ∧ strainedWindow (s.cell n).mode raw = some w; cellOk n = true ∧ fills ∧ s.entropy.kettleKat = false ∧ windowFails w = some k) ∧
    (∃ s : State, ∃ n : Nat, ∃ raw : List (Bool × Bool), ∃ w : BitVec 4096, let fills := (s.cell n).delivers = true ∧ strainedWindow (s.cell n).mode raw = some w; cellOk n = true ∧ fills ∧ s.entropy.kettleKat = true) ∧
    (∃ s : State, ∃ n : Nat, ∃ raw : List (Bool × Bool), cellOk n = true ∧ (s.cell n).delivers = false ∨ strainedWindow (s.cell n).mode raw = .none) ∧
    (∃ s : State, ∃ n : Nat, cellOk n = true ∧ (s.cell n).delivers = true ∧ (s.cell n).mode = true ∧ s.entropy.kettleKat = false) ∧
    (∃ s : State, ∃ n : Nat, ∃ d : Draw, cellOk n = true ∧ 512 ≤ s.entropy.credit ∧ s.entropy.kettleKat = false ∧ s.entropy.kettleFailed = false ∧ s.entropy.hub.katFailed = false ∧ s.nextDraw = some d) ∧
    (∃ s : State, ∃ n : Nat, cellOk n = true ∧ s.entropy.credit < 512) :=
  ⟨⟨celled { cell1 with stable := false } Entropy.reset, 0, by decide +kernel⟩,
   ⟨celled cell1 Entropy.reset, 0, rawBits (3 ^ 2585), BitVec.ofNat 4096 ((rawBits (3 ^ 2585)).foldl (fun a b => 2 * a + b2n b.1) 0), by decide +kernel⟩,
   ⟨celled cell1 Entropy.reset, 0, rawBits 0, 0, 0, by decide +kernel⟩,
   ⟨celled cell1 { Entropy.reset with kettleKat := true }, 0, rawBits 0, 0, by decide +kernel⟩,
   ⟨celled cell1 Entropy.reset, 0, [], by decide +kernel⟩,
   ⟨celled { cell1 with mode := true } Entropy.reset, 0, by decide +kernel⟩,
   ⟨celled cell1 { Entropy.reset with credit := 512, draws := [.expander 36] }, 0, .expander 36, by decide +kernel⟩,
   ⟨State.reset, 0, by decide +kernel⟩⟩

theorem witness_ExpandersAndTests :
    (∃ s : State, ∃ e : Nat, e ≤ 36 ∧ (s.expander e).seeded = true ∧ (s.expander e).required = false ∧ (s.expander e).katFailed = false ∧ s.expanderHeld e = false ∧ s.expanderAwake e = true ∧ (s.expander e).buffer.length ≤ 512 ∧ (s.expander e).generates < 65536) ∧
    (∃ s : State, ∃ e : Nat, e ≤ 36 ∧ (s.expander e).seeded = true ∧ (s.expander e).requested = false ∧ (49152 ≤ (s.expander e).generates ∨ 75000000 ≤ s.seedAge e) ∧ s.expanderAwake e = true) ∧
    (∃ s : State, ∃ e : Nat, e ≤ 36 ∧ (s.expander e).seeded = true ∧ (s.expander e).required = false ∧ (65536 ≤ (s.expander e).generates ∨ 100000000 ≤ s.seedAge e)) ∧
    (∃ s : State, ∃ e : Nat, e ≤ 36 ∧ (s.expander e).required = true ∧ (s.expander e).requiredAt + 1000000 ≤ s.now) ∧
    (∃ s : State, ∃ e : Nat, ∃ k : Nat, e ≤ 36 ∧ s.entropy.kettleKat = true ∧ 2 ≤ k ∧ k ≤ 6) :=
  ⟨⟨{ ready with entropy := { Entropy.reset with hub := { Expander.fresh with seeded := true } } }, 36, by decide +kernel⟩,
   ⟨{ ready with entropy := { Entropy.reset with hub := { Expander.fresh with seeded := true, generates := 49152 } } }, 36, by decide +kernel⟩,
   ⟨{ ready with entropy := { Entropy.reset with hub := { Expander.fresh with seeded := true, generates := 65536 } } }, 36, by decide +kernel⟩,
   ⟨{ ready with now := 1000000, entropy := { Entropy.reset with hub := { Expander.fresh with seeded := true, required := true } } }, 36, by decide +kernel⟩,
   ⟨{ ready with entropy := { Entropy.reset with hub := { Expander.fresh with seeded := true }, kettleKat := true } }, 36, 2, by decide +kernel⟩⟩

theorem witness_CardSlots :
    (∃ s : State, ∃ n : Nat, slotOk n = true ∧ (s.card n).inserted = false) ∧
    (∃ s : State, ∃ n : Nat, slotOk n = true ∧ (s.card n).inserted = true) ∧
    (∃ s : State, ∃ n : Nat, ∃ b : Bytes, slotOk n = true ∧ (s.card n).phase = .awaitAtr ∧ parseAtr b = .none) ∧
    (∃ s : State, ∃ n : Nat, ∃ b : Bytes, ∃ a : Atr, slotOk n = true ∧ (s.card n).phase = .awaitAtr ∧ parseAtr b = some a ∧ a.protos.contains 1 = false) ∧
    (∃ s : State, ∃ n : Nat, slotOk n = true ∧ (s.card n).phase = .awaitAtr ∧ s.mayClassB n = false) ∧
    (∃ s : State, ∃ n : Nat, slotOk n = true ∧ (s.card n).phase = .awaitAtr ∧ s.mayClassB n = true) ∧
    (∃ s : State, ∃ n : Nat, slotOk n = true ∧ (s.card n).phase = .awaitB) ∧
    (∃ s : State, ∃ n : Nat, ∃ b : Bytes, slotOk n = true ∧ (s.card n).phase = .awaitPps ∧ b = ppsBytes (s.card n).fi (s.card n).di) ∧
    (∃ s : State, ∃ n : Nat, ∃ b : Bytes, slotOk n = true ∧ (s.card n).phase = .awaitPps ∧ b ≠ ppsBytes (s.card n).fi (s.card n).di) ∧
    (∃ s : State, ∃ n : Nat, ∃ b : Bytes, slotOk n = true ∧ (s.card n).phase.talks = true ∧ t1Ok (s.card n).crc b = true ∧ (0xC0 ≤ fieldBE b 1 1)) ∧
    (∃ s : State, ∃ n : Nat, ∃ b : Bytes, slotOk n = true ∧ (s.card n).phase.talks = true ∧ t1Ok (s.card n).crc b = true ∧ 0x80 ≤ fieldBE b 1 1 ∧ fieldBE b 1 1 < 0xC0) ∧
    (∃ s : State, ∃ n : Nat, ∃ b : Bytes, slotOk n = true ∧ (s.card n).phase.talks = true ∧ t1Ok (s.card n).crc b = true ∧ fieldBE b 1 1 < 0x80) ∧
    (∃ s : State, ∃ n : Nat, ∃ b : Bytes, slotOk n = true ∧ (s.card n).phase.talks = true ∧ t1Ok (s.card n).crc b = false ∧ (s.card n).retries < 3) ∧
    (∃ s : State, ∃ n : Nat, slotOk n = true ∧ (s.card n).phase.talks = true ∧ 3 ≤ (s.card n).retries) ∧
    (∃ s : State, ∃ n : Nat, ∃ y : Ceremony, slotOk n = true ∧ s.openCeremony = some y ∧ (y.state ≠ .granted ∨ y.purpose = 0x0C04)) ∧
    (∃ s : State, ∃ n : Nat, ∃ y : Ceremony, slotOk n = true ∧ s.openCeremony = some y ∧ y.state = .granted ∧ y.purpose ≠ 0x0C04) ∧
    (∃ s : State, ∃ n : Nat, ∃ y : Ceremony, slotOk n = true ∧ s.cards.ceremony = some y) :=
  ⟨⟨ready, 0, by decide +kernel⟩,
   ⟨carded .present, 0, by decide +kernel⟩,
   ⟨carded .awaitAtr, 0, [], by decide +kernel⟩,
   ⟨carded .awaitAtr, 0, [0x3B, 0], _, by exact ⟨by decide +kernel, by decide +kernel, rfl, rfl⟩⟩,
   ⟨carded .awaitAtr, 0, by decide +kernel⟩,
   ⟨{ carded .awaitAtr with cards := { (carded .awaitAtr).cards with classB := 1 } }, 0, by decide +kernel⟩,
   ⟨carded .awaitB, 0, by decide +kernel⟩,
   ⟨carded .awaitPps, 0, ppsBytes 372 1, by decide +kernel⟩,
   ⟨carded .awaitPps, 0, [], by decide +kernel⟩,
   ⟨carded .info, 0, [0, 0xC0, 0, 0xC0], by decide +kernel⟩,
   ⟨carded .info, 0, [0, 0x80, 0, 0x80], by decide +kernel⟩,
   ⟨carded .info, 0, [0, 0, 0, 0], by decide +kernel⟩,
   ⟨carded .info, 0, [], by decide +kernel⟩,
   ⟨{ ready with cards := { Cards.reset with slots := [(0, { CardSlot.fresh with inserted := true, phase := .info, retries := 3 })] } }, 0, by decide +kernel⟩,
   ⟨{ carded .present with cards := { (carded .present).cards with ceremony := some (ceremony1 0x0D02 .waiting) } }, 0, ceremony1 0x0D02 .waiting, by decide +kernel⟩,
   ⟨{ carded .present with cards := { (carded .present).cards with ceremony := some (ceremony1 0x0D02 .granted) } }, 0, ceremony1 0x0D02 .granted, by decide +kernel⟩,
   ⟨{ carded .present with cards := { (carded .present).cards with ceremony := some (ceremony1 0x0D02 .granted) } }, 0, ceremony1 0x0D02 .granted, by decide +kernel⟩⟩

theorem witness_TamperWatch :
    (∃ s : State, ∃ n : Nat, ∃ b : BitVec 8, let w := ((b != 0) :: (s.source n).window).take (s.source n).cfg.m; let k := (w.filter (·)).length; n ≤ 10 ∧ s.tamper.powered = true ∧ s.mainPower = true ∧ (s.source n).armed = true ∧ s.sourceShadowBad = false ∧ (b = 0 ∨ k < (s.source n).cfg.n)) ∧
    (∃ s : State, ∃ n : Nat, ∃ b : BitVec 8, let w := ((b != 0) :: (s.source n).window).take (s.source n).cfg.m; let k := (w.filter (·)).length; n ≤ 10 ∧ s.tamper.powered = true ∧ s.mainPower = true ∧ (s.source n).armed = true ∧ s.sourceShadowBad = false ∧ b ≠ 0 ∧ (s.source n).cfg.n ≤ k ∧ s.tamper.running = .none ∧ s.tamper.waiting = [] ∧ s.tamper.done = []) ∧
    (∃ s : State, ∃ n : Nat, ∃ r : Nat, ∃ r : State, n ≤ 10 ∧ s.tamper.powered = true ∧ s.mainPower = true ∧ (s.source n).armed = true ∧ s.sourceShadowBad = false ∧ r.mainPower = true ∧ r.sourceShadowBad = true) ∧
    (∃ s : State, ∃ n : Nat, ∃ m, n ≤ 10 ∧ s.tamper.powered = true ∧ s.mainPower = true ∧ (s.source n).armed = true ∧ s.sourceShadowBad = false ∧ (m = 8 ∨ m = 9 ∨ m = 10)) ∧
    (∃ s : State, ∃ n : Nat, ∃ r : Nat, n ≤ 10 ∧ s.tamper.powered = true ∧ s.mainPower = true ∧ (s.source n).armed = true ∧ s.sourceShadowBad = false ∧ s.tamper.running = some r ∧ s.tamper.waiting = []) ∧
    (∃ s : State, ∃ n : Nat, n ≤ 10 ∧ s.tamper.powered = true ∧ s.mainPower = true ∧ (s.source n).armed = true ∧ s.sourceShadowBad = false ∧ s.lc.shadow = ~~~s.lc.code ∧ s.steward.epochShadow = ~~~s.steward.epoch ∧ (∀ g, g < 47 → (s.gate g).shadowOk = true) ∧ s.steward.fenceOk = true) :=
  ⟨⟨watched Tamper.reset, 0, 0, by decide +kernel⟩,
   ⟨watched { Tamper.reset with sources := [(0, { Source.default 0 with cfg := { (Source.default 0).cfg with n := 1, m := 1 }, shadow := { (Source.default 0).cfg with n := 1, m := 1 } })] }, 0, 1, by decide +kernel⟩,
   ⟨watched Tamper.reset, 0, 0, watched { Tamper.reset with sources := [(0, { Source.default 0 with cfg := { (Source.default 0).cfg with n := 9 } })] }, by decide +kernel⟩,
   ⟨watched Tamper.reset, 0, 8, by decide +kernel⟩,
   ⟨watched { Tamper.reset with running := some 3 }, 0, 3, by decide +kernel⟩,
   ⟨watched Tamper.reset, 0, by decide +kernel⟩⟩

theorem witness_FaultCollector :
    (∃ s : State, ∃ cls : Fin 5, ∃ kind : Byte, ∃ src : BitVec 16, s.writingCard = .none ∧ cls.val ≤ 2 ∧ (kindClasses kind.toNat).contains cls.val = true ∧ srcListed src = true ∧ kind ≠ 0x35 ∧ (s.faults.queue.find? fun m => m.cls == cls.val && m.kind == kind && m.src == src) = .none ∧ s.faults.queue.length < 64) ∧
    (∃ s : State, ∃ cls : Fin 5, ∃ kind : Byte, ∃ src : BitVec 16, ∃ x : FaultMsg, s.writingCard = .none ∧ cls.val ≤ 2 ∧ (kindClasses kind.toNat).contains cls.val = true ∧ srcListed src = true ∧ kind ≠ 0x35 ∧ (s.faults.queue.find? fun m => m.cls == cls.val && m.kind == kind && m.src == src) = some x ∧ x.rep < 255) ∧
    (∃ s : State, ∃ cls : Fin 5, ∃ kind : Byte, ∃ k, s.writingCard = .none ∧ cls.val ≤ 2 ∧ (kindClasses kind.toNat).contains cls.val = true ∧ (kindClasses kind.toNat).contains (k : Fin 5).val = false) ∧
    (∃ s : State, ∃ cls : Fin 5, ∃ kind : Byte, ∃ src : BitVec 16, s.writingCard = .none ∧ cls.val ≤ 2 ∧ (kindClasses kind.toNat).contains cls.val = true ∧ srcListed src = false) ∧
    (∃ s : State, ∃ cls : Fin 5, ∃ kind : Byte, ∃ src : BitVec 16, s.writingCard = .none ∧ cls.val ≤ 2 ∧ (kindClasses kind.toNat).contains cls.val = true ∧ srcListed src = true ∧ kind = 0x35) ∧
    (∃ s : State, ∃ cls : Fin 5, ∃ kind : Byte, s.writingCard = .none ∧ cls.val ≤ 2 ∧ (kindClasses kind.toNat).contains cls.val = true ∧ s.stewardRuns = true ∧ (s.faults.class3Active = true ∨ s.faults.grave = true)) ∧
    (∃ s : State, ∃ cls : Fin 5, ∃ kind : Byte, s.writingCard = .none ∧ cls.val ≤ 2 ∧ (kindClasses kind.toNat).contains cls.val = true ∧ s.stewardRuns = true ∧ s.faults.class3Active = false ∧ s.faults.grave = false) ∧
    (∃ s : State, ∃ cls : Fin 5, ∃ kind : Byte, ∃ y, s.writingCard = .none ∧ cls.val ≤ 2 ∧ (kindClasses kind.toNat).contains cls.val = true ∧ s.stewardRuns = true ∧ nextFault s.faults.unhandled = some y ∧ s.faults.handling = []) :=
  ⟨⟨ready, 1, 1, 0, by decide +kernel⟩,
   ⟨{ ready with faults := { Faults.reset with queue := [⟨1, 1, 0, 0, 0, 0, 0⟩] } }, 1, 1, 0, ⟨1, 1, 0, 0, 0, 0, 0⟩, by decide +kernel⟩,
   ⟨ready, 1, 1, 0, by decide +kernel⟩,
   ⟨ready, 1, 1, 0xFFFF, by decide +kernel⟩,
   ⟨ready, 0, 0x35, 0, by decide +kernel⟩,
   ⟨{ ready with steward := { Steward.reset with north := .holder }, faults := { Faults.reset with active := [⟨3, 0x18, 0, 0⟩] } }, 1, 1, by decide +kernel⟩,
   ⟨{ ready with steward := { Steward.reset with north := .holder } }, 1, 1, by decide +kernel⟩,
   ⟨{ ready with steward := { Steward.reset with north := .holder }, faults := { Faults.reset with unhandled := [(1, 1, 0)] } }, 1, 1, (1, 1, 0), by decide +kernel⟩⟩

theorem witness_SevereFaultStops :
    (∃ s : State, ∃ kind : Byte, ∃ src : BitVec 16, s.writingCard = .none ∧ srcListed src = true ∧ (kindClasses kind.toNat).contains 3 = true) ∧
    (∃ s : State, ∃ kind : Byte, ∃ src : BitVec 16, s.writingCard = .none ∧ srcListed src = true ∧ (kindClasses kind.toNat).contains 4 = true) :=
  ⟨⟨ready, 0x18, 0, by decide +kernel⟩,
   ⟨ready, 0x12, 0, by decide +kernel⟩⟩

theorem witness_AliveAndRecorder :
    (∃ s : State, let f := s.faults; f.aliveOn = true ∧ s.power.porst = false) ∧
    (∃ s : State, let f := s.faults; (f.aliveOn = false ∨ s.power.porst = true)) ∧
    (∃ s : State, let f := s.faults; f.peerLost = true) ∧
    (∃ s : State, let f := s.faults; f.peerSeen = true ∧ f.peerLost = false) ∧
    (∃ s : State, let f := s.faults; (f.peerSeen = false ∨ f.peerLost = true)) ∧
    (∃ s : State, ∃ g : Nat, ∃ k : Byte, ∃ src : BitVec 16, ∃ t0 : Nat, let f := s.faults; gateOk g = true ∧ (s.gate g).latched = some (k, src, t0) ∧ t0 + 1000000 ≤ s.now ∧ f.activeFault (2, k, src) = .none) ∧
    (∃ s : State, ∃ g : Nat, ∃ k : Byte, ∃ src : BitVec 16, ∃ t0 : Nat, let f := s.faults; gateOk g = true ∧ (s.gate g).latched = some (k, src, t0) ∧ (s.now < t0 + 1000000 ∨ (f.activeFault (2, k, src)).isSome = true)) ∧
    (∃ s : State, ∃ g : Nat, gateOk g = true ∧ (s.gate g).latched = .none) ∧
    (∃ rec : Nat, rec < 36) ∧
    (∃ rec : Nat, rec = 36) ∧
    (∃ s : State, ∃ rec : Nat, ∃ c : Nat, c < 36 ∧ (rec = 82 + c ∨ rec = 118 + c) ∧ (s.cluster c).power = .awake) ∧
    (∃ s : State, ∃ rec : Nat, ∃ c : Nat, c < 36 ∧ rec = 154 + c ∧ (s.cluster c).power = .awake) ∧
    (∃ s : State, ∃ rec : Nat, ∃ c : Nat, c < 36 ∧ (rec = 82 + c ∨ rec = 118 + c ∨ rec = 154 + c) ∧ (s.cluster c).power ≠ .awake) ∧
    (∃ rec : Nat, 190 ≤ rec ∧ (rec < 260 ∨ 290 ≤ rec) ∧ rec < 298) ∧
    (∃ rec : Nat, 260 ≤ rec ∧ rec < 270) ∧
    (∃ rec : Nat, 270 ≤ rec ∧ rec < 280) ∧
    (∃ rec : Nat, 280 ≤ rec ∧ rec < 290) ∧
    (∃ rec : Nat, 37 ≤ rec ∧ rec < 82) ∧
    (∃ rec : Nat, 298 ≤ rec) ∧
    (∃ v : Int, ∃ q : RecKind, ∃ b : List Int, ∃ n : Nat, ∃ m, b.length = 50 ∧ n < 48 ∧ q.base + n * q.width ≤ v ∧ v < q.base + (n + 1) * q.width ∧ m ≠ n + 2) ∧
    (∃ v : Int, ∃ q : RecKind, ∃ b : List Int, b.length = 50 ∧ v < q.base) ∧
    (∃ v : Int, ∃ q : RecKind, ∃ b : List Int, b.length = 50 ∧ q.base + 48 * q.width ≤ v) ∧
    (∃ s : State, s.recorder.pendingFlush = true ∧ s.recorder.flushing = false) ∧
    (∃ s : State, (s.recorder.pendingFlush = false ∨ s.recorder.flushing = true)) ∧
    (∃ s : State, s.recorder.flushing = true) ∧
    (∃ s : State, s.power.porst = true) :=
  ⟨⟨faulty { Faults.reset with aliveOn := true }, by decide +kernel⟩,
   ⟨ready, by decide +kernel⟩,
   ⟨faulty { Faults.reset with peerLost := true }, by decide +kernel⟩,
   ⟨faulty { Faults.reset with peerSeen := true }, by decide +kernel⟩,
   ⟨ready, by decide +kernel⟩,
   ⟨gated1 { Gate.blank with latched := some (0x41, 0, 0) } 1000000, 0, 0x41, 0, 0, by decide +kernel⟩,
   ⟨gated1 { Gate.blank with latched := some (0x41, 0, 0) } 5, 0, 0x41, 0, 0, by decide +kernel⟩,
   ⟨ready, 0, by decide +kernel⟩,
   ⟨35, by decide +kernel⟩,
   ⟨36, by decide +kernel⟩,
   ⟨ready.setCluster 35 { Cluster.delivered 35 with power := .awake }, 117, 35, by decide +kernel⟩,
   ⟨ready.setCluster 35 { Cluster.delivered 35 with power := .awake }, 189, 35, by decide +kernel⟩,
   ⟨ready, 82, 0, by decide +kernel⟩,
   ⟨190, by decide +kernel⟩,
   ⟨269, by decide +kernel⟩,
   ⟨279, by decide +kernel⟩,
   ⟨289, by decide +kernel⟩,
   ⟨81, by decide +kernel⟩,
   ⟨298, by decide +kernel⟩,
   ⟨1039, recKind 36, List.replicate 50 0, 47, 0, by decide +kernel⟩,
   ⟨-401, recKind 36, List.replicate 50 0, by decide +kernel⟩,
   ⟨1040, recKind 36, List.replicate 50 0, by decide +kernel⟩,
   ⟨{ ready with recorder := { Recorder.reset with pendingFlush := true } }, by decide +kernel⟩,
   ⟨ready, by decide +kernel⟩,
   ⟨{ ready with recorder := { Recorder.reset with flushing := true } }, by decide +kernel⟩,
   ⟨State.reset, by decide +kernel⟩⟩

theorem witness_ResetsAndStandby :
    (∃ s : State, s.power.porst = false ∧ s.power.pfw = .none) ∧
    (∃ s : State, s.power.pfw = .grace) ∧
    (∃ s : State, s.power.pfw = .done) ∧
    (∃ s : State, ∃ rail : Nat, railOk rail = true ∧ rail ≠ 7 ∧ s.power.porst = false) ∧
    (∃ s : State, s.power.vaonOff = true ∧ s.tamper.powered = true) ∧
    (∃ s : State, s.power.porst = true) ∧
    (∃ s : State, s.power.resetDue = true ∧ s.power.porst = false) ∧
    (∃ s : State, s.power.resetDue = false) ∧
    (∃ s : State, s.power.standby = .entering ∧ s.port0.link = .down ∧ s.port1.link = .down) :=
  ⟨⟨ready, by decide +kernel⟩,
   ⟨powered fun p => { p with pfw := .grace }, by decide +kernel⟩,
   ⟨powered fun p => { p with pfw := .done }, by decide +kernel⟩,
   ⟨ready, 0, by decide +kernel⟩,
   ⟨{ State.reset with tamper := { Tamper.reset with powered := true } }, by decide +kernel⟩,
   ⟨State.reset, by decide +kernel⟩,
   ⟨powered fun p => { p with resetDue := true }, by decide +kernel⟩,
   ⟨ready, by decide +kernel⟩,
   ⟨powered fun p => { p with standby := .entering }, by decide +kernel⟩⟩

theorem witness_StartupAndLoop :
    (∃ s : State, ∃ o : BootObs, ∃ power : Nat, s.power.porst = false ∧ s.power.step = .s3 ∧ o.northOk = true) ∧
    (∃ s : State, ∃ o : BootObs, ∃ power : Nat, s.power.porst = false ∧ s.power.step = .s3 ∧ o.northOk = false ∧ o.southOk = true) ∧
    (∃ s : State, ∃ o : BootObs, ∃ power : Nat, s.power.porst = false ∧ s.power.step = .s3 ∧ o.northOk = false ∧ o.southOk = false) ∧
    (∃ s : State, ∃ o : BootObs, ∃ power : Nat, s.power.porst = false ∧ s.power.step = .s4 ∧ o.imageOk = true) ∧
    (∃ s : State, ∃ o : BootObs, ∃ power : Nat, s.power.porst = false ∧ s.power.step = .s4 ∧ o.imageOk = false) ∧
    (∃ s : State, ∃ power : Nat, s.power.porst = false ∧ s.power.step = .s5 ∧ s.power.kind ≠ .exit) ∧
    (∃ s : State, ∃ power : Nat, s.power.porst = false ∧ s.power.step = .s6 ∧ s.entropy.firstSeed = true) ∧
    (∃ s : State, ∃ power : Nat, s.power.porst = false ∧ s.power.step = .s6 ∧ s.entropy.firstSeed = false) ∧
    (∃ s : State, ∃ power : Nat, s.power.porst = false ∧ s.power.step = .s7) ∧
    (∃ s : State, ∃ power : Nat, s.power.porst = false ∧ s.power.step = .s8) ∧
    (∃ s : State, ∃ power : Nat, s.power.porst = false ∧ s.power.step = .s9a ∧ s.faults.grave = true) ∧
    (∃ s : State, ∃ power : Nat, s.power.porst = false ∧ s.power.step = .s9b) ∧
    (∃ s : State, ∃ power : Nat, s.power.porst = false ∧ s.power.step = .s10 ∧ s.faults.class3Active = false ∧ s.power.erased = false ∧ s.pcie.heldGo = false) ∧
    (∃ s : State, ∃ c : Nat, ∃ power : Nat, ∃ temp : Int, s.power.porst = false ∧ clusterOk c = true ∧ (s.cluster c).power = .awake ∧ 950 ≤ temp) ∧
    (∃ s : State, ∃ c : Nat, ∃ power : Nat, ∃ slack : Int, ∃ temp : Int, s.power.porst = false ∧ clusterOk c = true ∧ (s.cluster c).power = .awake ∧ temp < 950 ∧ slack < 15 ∧ (s.cluster c).supplyMV < 850) ∧
    (∃ s : State, ∃ c : Nat, ∃ power : Nat, s.power.porst = false ∧ clusterOk c = true ∧ (s.cluster c).power ≠ .awake) :=
  ⟨⟨powered fun p => { p with step := .s3 }, obs1 true true true, 0, by decide +kernel⟩,
   ⟨powered fun p => { p with step := .s3 }, obs1 false true true, 0, by decide +kernel⟩,
   ⟨powered fun p => { p with step := .s3 }, obs1 false false true, 0, by decide +kernel⟩,
   ⟨powered fun p => { p with step := .s4 }, obs1 true true true, 0, by decide +kernel⟩,
   ⟨powered fun p => { p with step := .s4 }, obs1 true true false, 0, by decide +kernel⟩,
   ⟨powered fun p => { p with step := .s5 }, 0, by decide +kernel⟩,
   ⟨{ powered (fun p => { p with step := .s6 }) with entropy := { Entropy.reset with firstSeed := true } }, 0, by decide +kernel⟩,
   ⟨powered fun p => { p with step := .s6 }, 0, by decide +kernel⟩,
   ⟨powered fun p => { p with step := .s7 }, 0, by decide +kernel⟩,
   ⟨powered fun p => { p with step := .s8 }, 0, by decide +kernel⟩,
   ⟨{ powered (fun p => { p with step := .s9a }) with faults := { Faults.reset with grave := true } }, 0, by decide +kernel⟩,
   ⟨powered fun p => { p with step := .s9b }, 0, by decide +kernel⟩,
   ⟨powered fun p => { p with step := .s10 }, 0, by decide +kernel⟩,
   ⟨ready.setCluster 0 awake, 0, 0, 950, by decide +kernel⟩,
   ⟨ready.setCluster 0 { awake with supplyMV := 849 }, 0, 0, 14, 949, by decide +kernel⟩,
   ⟨ready, 0, 0, by decide +kernel⟩⟩

theorem witness_RefereeAndFailover :
    (∃ s : State, s.steward.held = true ∧ s.steward.mismatch = false ∧ s.steward.epochShadow = ~~~s.steward.epoch ∧ s.steward.takeover = .none) ∧
    (∃ s : State, s.steward.epochShadow ≠ ~~~s.steward.epoch) ∧
    (∃ s : State, s.steward.epochShadow = ~~~s.steward.epoch ∧ s.steward.held = true ∧ s.steward.lapse = false ∧ s.steward.takeover = .none) ∧
    (∃ s : State, s.steward.epochShadow = ~~~s.steward.epoch ∧ s.steward.held = true ∧ s.steward.lapse = true ∧ s.steward.takeover = .none ∧ s.steward.pair (!s.steward.holderSouth) = .standby) ∧
    (∃ s : State, ∃ e, e ≠ s.steward.epoch ∧ s.steward.epochShadow = ~~~s.steward.epoch) ∧
    (∃ s : State, s.steward.held = true ∧ s.steward.mismatch = false ∧ s.steward.pair (!s.steward.holderSouth) ≠ .failed ∧ s.writingCard = .none) ∧
    (∃ s : State, ∃ south : Bool, s.steward.takeover = some south ∧ (s.gates.any fun g => g.2.draining) = false ∧ s.steward.held = false) ∧
    (∃ s : State, ∃ south : Bool, s.steward.takeover = some south ∧ (s.gates.any fun g => g.2.draining) = true) ∧
    (∃ s : State, ∃ south : Bool, s.steward.takeover = some south ∧ (s.gates.any fun g => g.2.draining) = false ∧ s.steward.held = true ∧ south ≠ s.steward.holderSouth ∧ s.steward.mismatch = true) ∧
    (∃ s : State, ∃ south : Bool, s.steward.pair south = .selfTest) :=
  ⟨⟨stewarded { Steward.reset with north := .holder, epoch := 0 }, by decide +kernel⟩,
   ⟨stewarded { Steward.reset with epoch := 1 }, by decide +kernel⟩,
   ⟨stewarded { Steward.reset with north := .holder, lapse := false }, by decide +kernel⟩,
   ⟨stewarded { Steward.reset with north := .holder, lapse := true }, by decide +kernel⟩,
   ⟨stewarded { Steward.reset with epoch := 0 }, 1, by decide +kernel⟩,
   ⟨stewarded { Steward.reset with north := .holder, epoch := 0 }, by decide +kernel⟩,
   ⟨stewarded { Steward.reset with takeover := some false }, false, by decide +kernel⟩,
   ⟨{ gated1 { Gate.blank with draining := true } 0 with steward := { Steward.reset with takeover := some false } }, false, by decide +kernel⟩,
   ⟨stewarded { Steward.reset with north := .holder, takeover := some true, mismatch := true }, true, by decide +kernel⟩,
   ⟨stewarded { Steward.reset with south := .selfTest }, true, by decide +kernel⟩⟩

theorem witness_GateAndHoldEvents :
    (∃ s : State, ∃ g : Nat, gateOk g = true ∧ (s.gate g).draining = false) ∧
    (∃ s : State, ∃ d : Word, ∃ south : Bool, let h := d.toNat / 2 ^ 40 % 2 ^ 9; h < 47 ∧ s.fencedOff h (fencedAccess south d) = true ∧ s.steward.verifying = false ∧ (s.gate h).sound = true ∧ (s.gate h).latched = .none) ∧
    (∃ s : State, ∃ d : Word, ∃ south : Bool, let h := d.toNat / 2 ^ 40 % 2 ^ 9; h < 47 ∧ s.fencedOff h (fencedAccess south d) = false) ∧
    (∃ s : State, ∃ g : Nat, gateOk g = true ∧ (s.gate g).draining = true ∧ s.writingCard = .none) ∧
    (∃ s : State, ∃ src : BitVec 16, s.unitHeld src = true ∧ s.steward.deferred = []) ∧
    (∃ s : State, ∃ src : BitVec 16, s.unitHeld src = false) ∧
    (∃ s : State, ∃ colour : Colour, ∃ p : Part, s.part? colour = some p ∧ s.mem.wf ∧ (∀ c, c < 36 → (s.cluster c).shares.length ≤ shareSlots s.tenancy.profile)) :=
  ⟨⟨ready, 0, by decide +kernel⟩,
   ⟨ready, 0, true, by decide +kernel⟩,
   ⟨ready, 0, false, by decide +kernel⟩,
   ⟨gated1 { Gate.blank with draining := true } 0, 0, by decide +kernel⟩,
   ⟨stewarded { Steward.reset with holds := [5] }, 5, by decide +kernel⟩,
   ⟨ready, 0, by decide +kernel⟩,
   ⟨partR, 1, part1, by exact ⟨by decide +kernel, by decide +kernel, by intro c hc; revert c; decide +kernel⟩⟩⟩

theorem witness_ReserveEngagement :
    (∃ s : State, ∃ c : Nat, clusterOk c = true ∧ (s.cluster c).power = .awake ∨ (s.cluster c).power = .waking) ∧
    (∃ s : State, ∃ c : Nat, clusterOk c = true ∧ (s.cluster c).power = .asleep ∨ (s.cluster c).power = .off) ∧
    (∃ s : State, ∃ c : Nat, ∃ e : Engagement, ∃ es : List Engagement, clusterOk c = true ∧ s.power.engagements = e :: es ∧ e.failing = c ∧ e.quiesced = false ∧ (s.cluster c).state = .failing ∧ s.atRest c = true ∧ e.reserve ≠ 36) ∧
    (∃ s : State, ∃ c : Nat, ∃ e : Engagement, ∃ es : List Engagement, clusterOk c = true ∧ s.power.engagements = e :: es ∧ e.failing = c ∧ e.quiesced = false ∧ (s.cluster c).state = .failing ∧ s.atRest c = true ∧ e.reserve = 36) ∧
    (∃ s : State, ∃ c : Nat, clusterOk c = true ∧ s.atRest c = false) ∧
    (∃ s : State, ∃ c : Nat, ∃ g : Package, ∃ mv : BitVec 32, clusterOk c = true ∧ (s.depot.packages.find? fun g => g.move == mv && g.target == c) = some g ∧ (s.cluster c).transferKey.isSome = true) ∧
    (∃ s : State, ∃ c : Nat, ∃ g : Package, ∃ mv : BitVec 32, clusterOk c = true ∧ (s.depot.packages.find? fun g => g.move == mv && g.target == c) = .none) ∧
    (∃ s : State, ∃ c : Nat, ∃ e : Engagement, ∃ g : Package, clusterOk c = true ∧ s.power.engagements = [e] ∧ e.reserve = c ∧ e.quiesced = true ∧ (s.cluster c).power = .awake ∧ s.unitHeld (srcCluster c 0x13) = false ∧ (s.depot.packages.any fun g => g.target == c) = false ∧ clusterOk e.failing = true ∧ e.failing ≠ c ∧ s.steward.deferred = []) ∧
    (∃ s : State, ∃ c : Nat, clusterOk c = true ∧ (s.cluster c).state = .inService) ∧
    (∃ s : State, ∃ c : Nat, clusterOk c = true ∧ (s.cluster c).state ≠ .inService) ∧
    (∃ s : State, ∃ c : Nat, clusterOk c = true ∧ (s.cluster c).state = .reserve ∧ (s.cluster c).power ≠ .awake) ∧
    (∃ s : State, ∃ c : Nat, clusterOk c = true ∧ (s.cluster c).testing = true) ∧
    (∃ s : State, ∃ c : Nat, clusterOk c = true ∧ (s.cluster c).testing = false) :=
  ⟨⟨ready.setCluster 0 awake, 0, by decide +kernel⟩,
   ⟨ready.setCluster 0 { awake with state := .reserve, power := .asleep }, 0, by decide +kernel⟩,
   ⟨{ ready.setCluster 0 { awake with state := .failing } with power := { ready.power with engagements := [engage] } }, 0, engage, [], by decide +kernel⟩,
   ⟨{ ready.setCluster 0 { awake with state := .failing } with power := { ready.power with engagements := [{ engage with reserve := 36 }] } }, 0, { engage with reserve := 36 }, [], by decide +kernel⟩,
   ⟨here run, 0, by decide +kernel⟩,
   ⟨{ ready.setCluster 0 { awake with transferKey := some 1 } with depot := { Depot.reset with packages := [package1] } }, 0, package1, 1, by decide +kernel⟩,
   ⟨ready, 0, package1, 1, by decide +kernel⟩,
   ⟨{ ready.setCluster 0 awake with power := { ready.power with engagements := [{ engage with failing := 1, reserve := 0, quiesced := true }] } }, 0, { engage with failing := 1, reserve := 0, quiesced := true }, package1, by decide +kernel⟩,
   ⟨ready.setCluster 0 { awake with state := .inService }, 0, by decide +kernel⟩,
   ⟨ready.setCluster 0 { awake with state := .retired }, 0, by decide +kernel⟩,
   ⟨ready.setCluster 0 { awake with state := .reserve, power := .asleep }, 0, by decide +kernel⟩,
   ⟨ready.setCluster 0 { awake with testing := true }, 0, by decide +kernel⟩,
   ⟨ready.setCluster 0 { awake with testing := false }, 0, by decide +kernel⟩⟩

theorem witness_MemoryErrors :
    (∃ s : State, ∃ ch : Nat, s.writingCard = .none ∧ chOk ch = true ∧ s.power.rowErrors = []) ∧
    (∃ s : State, ∃ page : Nat, s.writingCard = .none ∧ (∃ q ∈ s.power.remapQueue, q.2 = page) ∧ 0 < s.power.spare) ∧
    (∃ s : State, ∃ page : Nat, s.writingCard = .none ∧ (∃ q ∈ s.power.remapQueue, q.2 = page) ∧ s.power.spare = 0) ∧
    (∃ s : State, ∃ src : BitVec 16, s.writingCard = .none ∧ src = srcHub 1) ∧
    (∃ s : State, ∃ src : BitVec 16, ∃ d : Word, s.writingCard = .none ∧ src = srcHub 0 ∧ d.toNat % 2 ^ 40 / 64 < 65536) :=
  ⟨⟨ready, 0, by decide +kernel⟩,
   ⟨powered fun p => { p with remapQueue := [(1, 9)] }, 9, by decide +kernel⟩,
   ⟨powered fun p => { p with remapQueue := [(1, 9)], spare := 0 }, 9, by decide +kernel⟩,
   ⟨ready, srcHub 1, by decide +kernel⟩,
   ⟨ready, srcHub 0, 0, by decide +kernel⟩⟩

theorem witness_JournalAndVaultEvents :
    (∃ s : State, s.journal.ring.length < 65536) ∧
    (∃ s : State, ∃ m : Milestone, ∃ rest : List Milestone, 65536 ≤ s.journal.ring.length ∧ s.journal.ring = m :: rest ∧ m.anchored = true ∧ s.journal.spill.length < 268435456) ∧
    (∃ s : State, ∃ o : Orphan, (s.journal.orphans.find? fun o => o.settled) = some o) ∧
    (∃ s : State, ∃ o : Orphan, (s.journal.orphans.find? fun o => o.settled) = .none ∧ s.vault.state = .lost) ∧
    (∃ s : State, ∃ o : Orphan, (s.journal.orphans.find? fun o => o.settled) = .none ∧ (s.vault.state = .opened ∨ s.vault.state = .degraded)) ∧
    (∃ s : State, ∃ r : VaultReq, ∃ x : Nat × Nat, (s.vault.reqs.find? fun q => q.id == r.id) = some r ∧ r.retried = false ∧ (s.vaultCount 1).vaultSession (some (r.port, r.session)) = some x) ∧
    (∃ s : State, ∃ r : VaultReq, (s.vault.reqs.find? fun q => q.id == r.id) = some r ∧ r.retried = true) ∧
    (∃ s : State, ∃ r : VaultReq, (s.vault.reqs.find? fun q => q.id == r.id) = .none) ∧
    (∃ s : State, s.vault.missing = false) :=
  ⟨⟨ready, by decide +kernel⟩,
   ⟨{ ready with journal := { Journal.reset with ring := List.replicate 65536 (mile 2) } }, mile 2, List.replicate 65535 (mile 2), by exact ⟨by show 65536 ≤ (List.replicate 65536 (mile 2)).length; rw [List.length_replicate], by exact List.replicate_succ (n := 65535), rfl, by decide⟩⟩,
   ⟨{ ready with journal := { Journal.reset with orphans := [{ record := mile 2, issued := false, left := 0, unknown := true, settled := true }] } }, { record := mile 2, issued := false, left := 0, unknown := true, settled := true }, by decide +kernel⟩,
   ⟨{ ready with journal := { Journal.reset with orphans := [{ record := mile 2, issued := false, left := 0, unknown := true, settled := false }] }, vault := { Vault.reset with state := .lost } }, { record := mile 2, issued := false, left := 0, unknown := true, settled := false }, by decide +kernel⟩,
   ⟨{ ready with vault := { Vault.reset with state := .opened } }, { record := mile 2, issued := false, left := 0, unknown := true, settled := false }, by decide +kernel⟩,
   ⟨{ ready with vault := { Vault.reset with sessions := [(0, 3), (0, 4)], reqs := [{ id := 1, isPut := false, unit := true, previous := false, level := 0, index := 0, port := 0, session := 3, retried := false, payload := [], serial := 0 }] } }, { id := 1, isPut := false, unit := true, previous := false, level := 0, index := 0, port := 0, session := 3, retried := false, payload := [], serial := 0 }, (0, 4), by decide +kernel⟩,
   ⟨{ ready with vault := { Vault.reset with reqs := [{ id := 1, isPut := false, unit := true, previous := false, level := 0, index := 0, port := 0, session := 3, retried := true, payload := [], serial := 0 }] } }, { id := 1, isPut := false, unit := true, previous := false, level := 0, index := 0, port := 0, session := 3, retried := true, payload := [], serial := 0 }, by decide +kernel⟩,
   ⟨ready, { id := 1, isPut := false, unit := true, previous := false, level := 0, index := 0, port := 0, session := 3, retried := true, payload := [], serial := 0 }, by decide +kernel⟩,
   ⟨ready, by decide +kernel⟩⟩

theorem witness_DeferredEnds :
    (∃ s : State, ∃ c : Cmd, s.power.activateCmd = some c) ∧
    (∃ s : State, s.power.activateCmd = .none) ∧
    (∃ s : State, ∃ c : Cmd, ∃ colour : Colour, (s.keys.rekeying.find? fun q => q.1 == colour) = some (colour, c)) ∧
    (∃ s : State, ∃ c : Cmd, ∃ colour : Colour, ∃ p : Part, colour ≠ 0xFFF ∧ s.part? colour = some p ∧ p.deleting = some c ∧ s.lanesOfColour colour = [] ∧ (s.gate 36).draining = false ∧ s.mem.wf ∧ s.tenancy.parts.wf) ∧
    (∃ s : State, ∃ c : Cmd, ∃ colour : Colour, ∃ p : Part, colour ≠ 0xFFF ∧ s.part? colour = some p ∧ p.deleting = some c ∧ s.lanesOfColour colour = [] ∧ (s.gate 36).draining = false ∧ s.tenancy.tags.wf) ∧
    (∃ s : State, ∃ c : Cmd, ∃ colour : Colour, ∃ p : Part, colour ≠ 0xFFF ∧ s.part? colour = some p ∧ p.deleting = some c ∧ (s.lanesOfColour colour ≠ [] ∨ (s.gate 36).draining = true)) ∧
    (∃ s : State, ∃ b : Byte, s.lc.moving = some (b, .none) ∧ lcDraws b.toNat = true ∧ s.keys.bbk.isSome = true) ∧
    (∃ s : State, ∃ b : Byte, s.lc.moving = some (b, .none) ∧ lcDraws b.toNat = true ∧ s.keys.bbk = .none) ∧
    (∃ s : State, ∃ b : Byte, lcVendor s.lc.code.toNat b.toNat = true ∧ s.lc.moving = .none) ∧
    (∃ s : State, ∃ b : Byte, lcVendor s.lc.code.toNat b.toNat = false) ∧
    (∃ s : State, s.lc.shadow ≠ ~~~s.lc.code) ∧
    (∃ s : State, ∃ n : BitVec 128, s.lc.shadow = ~~~s.lc.code ∧ lcReclaimed s.lc.code.toNat = true ∧ s.lc.nonce = some n ∧ s.blank = true) ∧
    (∃ s : State, s.lc.shadow = ~~~s.lc.code ∧ lcReclaimed s.lc.code.toNat = true ∧ (s.lc.nonce = .none ∨ s.blank = false)) ∧
    (∃ s : State, lcReclaimed s.lc.code.toNat = false) :=
  ⟨⟨powered fun p => { p with activateCmd := some (cmd []) }, cmd [], by decide +kernel⟩,
   ⟨ready, by decide +kernel⟩,
   ⟨{ ready with keys := { Keys.reset with rekeying := [(1, cmd [])] } }, cmd [], 1, by decide +kernel⟩,
   ⟨parted ready ({ part1 with deleting := some (cmdOf 1 []) }), cmdOf 1 [], 1, { part1 with deleting := some (cmdOf 1 []) }, by decide +kernel⟩,
   ⟨parted ready ({ part1 with deleting := some (cmdOf 1 []) }), cmdOf 1 [], 1, { part1 with deleting := some (cmdOf 1 []) }, by decide +kernel⟩,
   ⟨(parted ready ({ part1 with deleting := some (cmdOf 1 []) })).setLane 5 lane1, cmdOf 1 [], 1, { part1 with deleting := some (cmdOf 1 []) }, by decide +kernel⟩,
   ⟨{ ready with keys := { Keys.reset with bbk := some 0 }, lc := { Lifecycle.reset with moving := some (3, .none) } }, 3, by decide +kernel⟩,
   ⟨{ ready with lc := { Lifecycle.reset with moving := some (3, .none) } }, 3, by decide +kernel⟩,
   ⟨{ ready with lc := { Lifecycle.reset with code := 0 } }, 1, by decide +kernel⟩,
   ⟨ready, 0, by decide +kernel⟩,
   ⟨{ ready with lc := { Lifecycle.reset with shadow := 0 } }, by decide +kernel⟩,
   ⟨{ ready with lc := { Lifecycle.reset with code := 4, shadow := 0xFB, nonce := some 9 } }, 9, by decide +kernel⟩,
   ⟨{ ready with keys := keys1, lc := { Lifecycle.reset with code := 4, shadow := 0xFB } }, by decide +kernel⟩,
   ⟨ready, by decide +kernel⟩⟩

end Sys2Proof.Tests
end

section
/-! PROOFS. What is read without a command: the BAR0 registers (R16, R326, Table 10.4), a register read back after its write, the
configuration space (Table 10.1) and the management buses (R532). -/

namespace Sys2Proof.Machine

/-! ## A read of BAR0 -/

/-- An aligned access of 4 bytes is one BAR0 takes, at every offset (R326). -/
theorem accessOk_four {off : Nat} (h : off % 4 = 0) (fn vectors : Nat) : accessOk fn off 4 vectors = true := by
  simp [accessOk, h]

/-- An aligned access of 8 bytes that lies within MBX_REQ is one BAR0 takes (R326). -/
theorem accessOk_eight_mbxReq {off : Nat} (h : off % 8 = 0) (hlo : 0x1040 ≤ off) (hhi : off + 8 ≤ 0x1080) (fn vectors : Nat) :
    accessOk fn off 8 vectors = true := by
  simp [accessOk, h, hlo, hhi]

/-- The MSI-X table starts at a multiple of 4. -/
theorem msixBase_mod_four (fn : Nat) : msixBase fn % 4 = 0 := by
  unfold msixBase; split <;> rfl

/-- The MSI-X table lies above every other register that is written. -/
theorem le_msixBase (fn : Nat) : 0x2000 ≤ msixBase fn := by
  unfold msixBase; split <;> decide

/-- A read that BAR0 does not take, or of a function the host does not reach, is zero. -/
theorem State.bar0Read_of_not_taken {s : State} {fn off size : Nat}
    (h : s.reaches fn = false ∨ accessOk fn off size (s.func fn).vectors = false) : s.bar0Read fn off size = 0 := by
  rcases h with h | h <;> simp [State.bar0Read, h]

/-- An aligned 4-byte read of a function the host reaches gives the register. -/
theorem State.bar0Read_four {s : State} {fn off v : Nat} (hoff : off % 4 = 0) (hv : s.readReg fn off = v) (hr : s.reaches fn = true) :
    s.bar0Read fn off 4 = BitVec.ofNat 64 v := by
  simp [State.bar0Read, hr, accessOk_four hoff, hv]

/-- An 8-byte read that BAR0 takes gives the register and the next one above it. -/
theorem State.bar0Read_eight {s : State} {fn off : Nat} (hok : accessOk fn off 8 (s.func fn).vectors = true) (hr : s.reaches fn = true) :
    s.bar0Read fn off 8 = BitVec.ofNat 64 (s.readReg fn off + s.readReg fn (off + 4) * 2 ^ 32) := by
  simp [State.bar0Read, hr, hok]

/-! ## The registers of Table 10.4 -/

section
variable (s : State) (fn : Nat)

@[simp] theorem State.readReg_ident :
    s.readReg fn 0x00 = 0x010000B1 + Config.berconMinor.toNat * 2 ^ 16 + if fn = 0 then 0 else 0x100 := by
  simp only [State.readReg, if_true]
  split <;> omega

@[simp] theorem State.readReg_function (h : fnOk fn = true) : s.readReg fn 0x04 = (s.func fn).colour.toNat * 2 ^ 16 + fn := by
  have hfn : fn % 1024 = fn := Nat.mod_eq_of_lt (of_decide_eq_true h)
  simp [State.readReg, hfn]

@[simp] theorem State.readReg_deviceState : s.readReg fn 0x08 = s.power.dev.code * 2 ^ 12 + b2n (s.mbxReady fn) := rfl
@[simp] theorem State.readReg_functionState : s.readReg fn 0x0C = (s.func fn).state.code * 2 ^ 4 + b2n (s.func fn).ringError * 8 := rfl
@[simp] theorem State.readReg_cmdBaseLow : s.readReg fn 0x20 = (s.func fn).cmdBase.toNat % 2 ^ 32 := rfl
@[simp] theorem State.readReg_cmdBaseHigh : s.readReg fn 0x24 = (s.func fn).cmdBase.toNat / 2 ^ 32 := rfl
@[simp] theorem State.readReg_cplBaseLow : s.readReg fn 0x28 = (s.func fn).cplBase.toNat % 2 ^ 32 := rfl
@[simp] theorem State.readReg_cplBaseHigh : s.readReg fn 0x2C = (s.func fn).cplBase.toNat / 2 ^ 32 := rfl
@[simp] theorem State.readReg_cmdHead : s.readReg fn 0x38 = (s.func fn).cmdHead.toNat := rfl
@[simp] theorem State.readReg_cplTail : s.readReg fn 0x40 = (s.func fn).cplTail.toNat := rfl
@[simp] theorem State.readReg_irqCpl : s.readReg fn 0x44 = (s.func fn).irqCpl.toNat := rfl
@[simp] theorem State.readReg_irqEvt : s.readReg fn 0x48 = (s.func fn).irqEvt.toNat := rfl
@[simp] theorem State.readReg_event : s.readReg fn 0x50 = (s.func fn).event.toNat := rfl
@[simp] theorem State.readReg_error : s.readReg fn 0x54 = (s.func fn).errReason.toNat * 2 ^ 24 + (s.func fn).errIndex.toNat := rfl
@[simp] theorem State.readReg_rstSerial : s.readReg fn 0x60 = (s.func fn).rstSerial.toNat := rfl
@[simp] theorem State.readReg_vfCount :
    s.readReg fn 0x100 = if fn = 0 then (s.tenancy.parts.filter fun q => q.2.vf != 0).length else 0 := rfl
@[simp] theorem State.readReg_faultCount : s.readReg fn 0x104 = if fn = 0 then s.faults.queue.length else 0 := rfl
@[simp] theorem State.readReg_mbxStatus :
    s.readReg fn 0x1004 = 4 * b2n (s.func fn).mbxOverrun + 2 * b2n (s.func fn).mbxDone + b2n (s.func fn).mbxBusy := rfl

/-- MBX_REQ reads back 4 bytes at a time (R328). -/
theorem State.readReg_mbxReq {off : Nat} (hlo : 0x1040 ≤ off) (hhi : off < 0x1080) :
    s.readReg fn off = fieldLE (s.func fn).mbxReq (off - 0x1040) 4 := by
  simp (disch := omega) only [State.readReg, if_neg, if_pos]

/-- The write-only doorbells CMD_TAIL, CPL_HEAD and the mailbox's GO, and an unlisted offset, read as zero (R16). -/
theorem State.readReg_of_not_readable {off : Nat} (h : off ∈ [0x34, 0x3C, 0x1000, 0x200]) : s.readReg fn off = 0 := by
  have hmsix := le_msixBase fn
  have hpba : 0x3000 ≤ if fn = 0 then 0xC000 else 0x3000 := by split <;> omega
  simp only [List.mem_cons, List.not_mem_nil, or_false] at h
  simp (disch := omega) only [State.readReg, if_neg]

/-- The first entry of the MSI-X table, of a function with a vector. -/
theorem State.readReg_msixBase (h : 1 ≤ (s.func fn).vectors) : s.readReg fn (msixBase fn) = ((s.func fn).msix.get 0 0).toNat := by
  have hmsix := le_msixBase fn
  simp (disch := omega) only [State.readReg, if_neg, if_pos, Nat.sub_self, Nat.zero_div, Nat.zero_mod]

end

/-! ## A register read back after its write -/

section
variable (s : State) (fn : Nat)

@[simp] theorem State.func_modFunc (g : Func → Func) : (s.modFunc fn g).func fn = g (s.func fn) := State.func_setFunc s fn _

@[simp] theorem State.reaches_setFunc (x : Func) (j : Nat) : (s.setFunc fn x).reaches j = s.reaches j := rfl
@[simp] theorem State.reaches_modFunc (g : Func → Func) (j : Nat) : (s.modFunc fn g).reaches j = s.reaches j := rfl
@[simp] theorem State.reaches_emit (o : Output) (j : Nat) : (s.emit o).reaches j = s.reaches j := rfl
@[simp] theorem State.func_emit (o : Output) (j : Nat) : (s.emit o).func j = s.func j := rfl

/-- What a write of the low half of a 64-bit base leaves in it: the value above the alignment, below the high half. -/
theorem toNat_mod_lowHalf (x : Word) {v k : Nat} (hv : v < 2 ^ 32) :
    (BitVec.ofNat 64 (x.toNat / 2 ^ 32 * 2 ^ 32 + v / k * k)).toNat % 2 ^ 32 = v / k * k := by
  have hle : v / k * k ≤ v := Nat.div_mul_le_self v k
  rw [BitVec.toNat_ofNat]
  omega

/-- What a write of the high half of a 64-bit base leaves in it. -/
theorem toNat_div_highHalf (x : Word) {v : Nat} (hv : v < 2 ^ 32) :
    (BitVec.ofNat 64 (v * 2 ^ 32 + x.toNat % 2 ^ 32)).toNat / 2 ^ 32 = v := by
  rw [BitVec.toNat_ofNat]
  omega

/-! What a write of each register does. -/

theorem State.writeReg_cmdBaseLow (v : Nat) : s.writeReg fn 0x20 v =
    s.modFunc fn fun f => { f with cmdBase := BitVec.ofNat 64 (f.cmdBase.toNat / 2 ^ 32 * 2 ^ 32 + v / 64 * 64) } := rfl
theorem State.writeReg_cmdBaseHigh (v : Nat) : s.writeReg fn 0x24 v =
    s.modFunc fn fun f => { f with cmdBase := BitVec.ofNat 64 (v * 2 ^ 32 + f.cmdBase.toNat % 2 ^ 32) } := rfl
theorem State.writeReg_cplBaseLow (v : Nat) : s.writeReg fn 0x28 v =
    s.modFunc fn fun f => { f with cplBase := BitVec.ofNat 64 (f.cplBase.toNat / 2 ^ 32 * 2 ^ 32 + v / 32 * 32) } := rfl
theorem State.writeReg_cplBaseHigh (v : Nat) : s.writeReg fn 0x2C v =
    s.modFunc fn fun f => { f with cplBase := BitVec.ofNat 64 (v * 2 ^ 32 + f.cplBase.toNat % 2 ^ 32) } := rfl
theorem State.writeReg_irqCpl (v : Nat) : s.writeReg fn 0x44 v =
    s.modFunc fn fun f => { f with irqCpl := BitVec.ofNat 32 v &&& 0x803FFFFF } := rfl
theorem State.writeReg_irqEvt (v : Nat) : s.writeReg fn 0x48 v =
    s.modFunc fn fun f => { f with irqEvt := BitVec.ofNat 32 v &&& 0x803F0000 } := rfl

/-- Writing the first entry of the MSI-X table sets it; what the write sends or clears of the PBA touches neither the table nor the
vector count. -/
theorem State.func_writeReg_msixBase {v : Nat} (h : 1 ≤ (s.func fn).vectors) :
    ((s.writeReg fn (msixBase fn) v).func fn).msix = (s.func fn).msix.set 0 (BitVec.ofNat 32 v) ∧
      ((s.writeReg fn (msixBase fn) v).func fn).vectors = (s.func fn).vectors := by
  have hmsix := le_msixBase fn
  simp (disch := omega) only [State.writeReg, if_neg, if_pos, Nat.sub_self, Nat.zero_div]
  split <;> simp

/-! The register then reads as what was written, under its mask. -/

theorem State.readReg_writeReg_cmdBaseLow {v : Nat} (hv : v < 2 ^ 32) : (s.writeReg fn 0x20 v).readReg fn 0x20 = v / 64 * 64 := by
  rw [State.readReg_cmdBaseLow, State.writeReg_cmdBaseLow, State.func_modFunc, toNat_mod_lowHalf _ hv]
theorem State.readReg_writeReg_cmdBaseHigh {v : Nat} (hv : v < 2 ^ 32) : (s.writeReg fn 0x24 v).readReg fn 0x24 = v := by
  rw [State.readReg_cmdBaseHigh, State.writeReg_cmdBaseHigh, State.func_modFunc, toNat_div_highHalf _ hv]
theorem State.readReg_writeReg_cplBaseLow {v : Nat} (hv : v < 2 ^ 32) : (s.writeReg fn 0x28 v).readReg fn 0x28 = v / 32 * 32 := by
  rw [State.readReg_cplBaseLow, State.writeReg_cplBaseLow, State.func_modFunc, toNat_mod_lowHalf _ hv]
theorem State.readReg_writeReg_cplBaseHigh {v : Nat} (hv : v < 2 ^ 32) : (s.writeReg fn 0x2C v).readReg fn 0x2C = v := by
  rw [State.readReg_cplBaseHigh, State.writeReg_cplBaseHigh, State.func_modFunc, toNat_div_highHalf _ hv]
theorem State.readReg_writeReg_irqCpl (v : Nat) :
    (s.writeReg fn 0x44 v).readReg fn 0x44 = (BitVec.ofNat 32 v &&& 0x803FFFFF).toNat := by
  rw [State.readReg_irqCpl, State.writeReg_irqCpl, State.func_modFunc]
theorem State.readReg_writeReg_irqEvt (v : Nat) :
    (s.writeReg fn 0x48 v).readReg fn 0x48 = (BitVec.ofNat 32 v &&& 0x803F0000).toNat := by
  rw [State.readReg_irqEvt, State.writeReg_irqEvt, State.func_modFunc]
theorem State.readReg_writeReg_msixBase {v : Nat} (hv : v < 2 ^ 32) (h : 1 ≤ (s.func fn).vectors) :
    (s.writeReg fn (msixBase fn) v).readReg fn (msixBase fn) = v := by
  obtain ⟨hm, hvec⟩ := s.func_writeReg_msixBase fn (v := v) h
  rw [State.readReg_msixBase _ _ (by omega), hm, Tbl.get_set_self, BitVec.toNat_ofNat, Nat.mod_eq_of_lt hv]

/-- A register write moves no function out of the host's reach. -/
@[simp] theorem State.reaches_writeReg (off v j : Nat) : (s.writeReg fn off v).reaches j = s.reaches j := by
  simp only [State.writeReg, apply_ite fun t : State => t.reaches j, State.reaches_modFunc, State.reaches_emit,
    State.reaches_setFunc, ite_self]

end

/-- A 4-byte write the function takes writes the low 32 bits into its register. -/
theorem exec_registerWrite_four {s : State} {fn off : Nat} {w : Word} (hfn : fnOk fn = true) (hoff : off % 4 = 0)
    (hw : s.takesWrites fn = true) : exec (.registerWrite fn off 4 w) s = .next (s.writeReg fn off (w.toNat % 2 ^ 32)) := by
  simp [execRegisterWrite, checked, hfn, hw, accessOk_four hoff]

/-- A function that takes writes is one the host reaches. -/
theorem State.reaches_of_takesWrites {s : State} {fn : Nat} (h : s.takesWrites fn = true) : s.reaches fn = true := by
  simp only [State.takesWrites, Bool.and_eq_true] at h
  exact h.1

/-- After a 4-byte write of a register, a read of BAR0 gives what the register then reads as. -/
theorem bar0Read_after_registerWrite {s t : State} {fn off v : Nat} {w : Word} (hfn : fnOk fn = true) (hoff : off % 4 = 0)
    (hv : (s.writeReg fn off (w.toNat % 2 ^ 32)).readReg fn off = v) (hw : s.takesWrites fn = true)
    (ht : exec (.registerWrite fn off 4 w) s = .next t) : t.bar0Read fn off 4 = BitVec.ofNat 64 v := by
  rw [exec_registerWrite_four hfn hoff hw] at ht
  obtain rfl := Host.Outcome.next.inj ht
  exact State.bar0Read_four hoff hv (by simp [State.reaches_of_takesWrites hw])

/-! ## The management buses (R532) -/

/-- The buses are served from 20 ms after PORST_N on. -/
theorem State.mgmtServed_iff (s : State) : s.mgmtServed = true ↔ s.power.porst = false ∧ s.power.released + 20000000 ≤ s.now := by
  simp [State.mgmtServed]

/-- The codes of the PMBus target whose reads give a word: two temperatures and the power. -/
theorem State.pmbWord_isSome (s : State) (code : Nat) : (s.pmbWord code).isSome = true ↔ code = 0x8D ∨ code = 0x8E ∨ code = 0x97 := by
  unfold State.pmbWord
  repeat' split
  all_goals simp [*]

/-- The SMBus target lists the codes 0 to 3. -/
theorem State.mgmtReg_smbus_isSome (s : State) (code : Nat) : (s.mgmtReg 0x5C code).isSome = true ↔ code < 4 := by
  simp only [State.mgmtReg, if_true]
  repeat' split
  all_goals simp; omega

/-- The PMBus target lists STATUS_BYTE, PMBUS_REVISION and the codes of its words. -/
theorem State.mgmtReg_pmbus_isSome (s : State) (code : Nat) :
    (s.mgmtReg 0x5D code).isSome = true ↔ code ∈ [0x78, 0x8D, 0x8E, 0x97, 0x98] := by
  have hreg : s.mgmtReg 0x5D code =
      if code = 0x98 then some [0x33] else if code = 0x78 then some [s.statusByte] else (s.pmbWord code).map (natLE 2) := rfl
  rw [hreg]
  split_ifs with hrevision hstatus
  · simp [hrevision]
  · simp [hstatus]
  · simp [State.pmbWord_isSome, hrevision, hstatus]

/-- Before the buses are served, and at any other address, no target answers. -/
theorem State.mgmt_silent {s : State} {address : Nat} (h : s.mgmtServed = false ∨ (address ≠ 0x5C ∧ address ≠ 0x5D)) (code : Nat)
    (data : Bytes) : s.mgmt address code data = { addressAck := false, codeAck := false, dataAck := false, bytes := [] } := by
  have hmine : (s.mgmtServed && (address == 0x5C || address == 0x5D)) = false := by
    rcases h with h | ⟨h1, h2⟩ <;> simp [*]
  simp [State.mgmt, hmine]

/-- A served target answers at its address with its register. -/
theorem State.mgmt_answers {s : State} {address : Nat} (hs : s.mgmtServed = true) (ha : address = 0x5C ∨ address = 0x5D) (code : Nat)
    (data : Bytes) : s.mgmt address code data =
      { addressAck := true, codeAck := (s.mgmtReg address code).isSome, dataAck := false,
        bytes := if data.isEmpty then (s.mgmtReg address code).getD [] else [] } := by
  have hmine : (s.mgmtServed && (address == 0x5C || address == 0x5D)) = true := by
    rcases ha with rfl | rfl <;> simp [hs]
  simp [State.mgmt, hmine]

/-- No target takes a byte of a write. -/
@[simp] theorem State.mgmt_dataAck (s : State) (address code : Nat) (data : Bytes) : (s.mgmt address code data).dataAck = false := rfl

/-! ## The obligation -/

/-- Settles O60: each register by its own equation of `readReg`, each write by what it leaves in its register, each bus by who is served. -/
theorem readsWithoutCommands : Obligations.ReadsWithoutCommands := by
  unfold Obligations.ReadsWithoutCommands
  intro s t fn off size address code w data hfn f reads n back
  have hn : n < 2 ^ 32 := Nat.mod_lt _ (by decide)
  have hread : ∀ {o v : Nat}, o % 4 = 0 → s.readReg fn o = v → reads o v := State.bar0Read_four
  have hback : ∀ {o v : Nat}, o % 4 = 0 → (s.writeReg fn o n).readReg fn o = v → back o v := bar0Read_after_registerWrite hfn
  refine ⟨State.bar0Read_of_not_taken, hread rfl (s.readReg_ident fn), hread rfl (s.readReg_function fn hfn),
    hread rfl (s.readReg_deviceState fn), hread rfl (s.readReg_functionState fn), hread rfl (s.readReg_cmdHead fn),
    hread rfl (s.readReg_cplTail fn), hread rfl (s.readReg_event fn), hread rfl (s.readReg_error fn), hread rfl (s.readReg_rstSerial fn),
    hread rfl (s.readReg_vfCount fn), hread rfl (s.readReg_faultCount fn), hread rfl (s.readReg_mbxStatus fn),
    hread rfl (s.readReg_of_not_readable fn (by decide)), hread rfl (s.readReg_of_not_readable fn (by decide)),
    hread rfl (s.readReg_of_not_readable fn (by decide)), hread rfl (s.readReg_of_not_readable fn (by decide)), fun hr => ?mbxReq,
    hback rfl (s.readReg_writeReg_cmdBaseLow fn hn), hback rfl (s.readReg_writeReg_cmdBaseHigh fn hn),
    hback rfl (s.readReg_writeReg_cplBaseLow fn hn), hback rfl (s.readReg_writeReg_cplBaseHigh fn hn),
    hback rfl (s.readReg_writeReg_irqCpl fn n), hback rfl (s.readReg_writeReg_irqEvt fn n),
    fun hvec => hback (msixBase_mod_four fn) (s.readReg_writeReg_msixBase fn hn hvec),
    rfl, rfl, rfl, rfl, rfl, fun hlo hhi => ?tableSize, fun h => ?silent, fun hporst hserved => ?answers, rfl⟩
  case mbxReq =>
    rw [State.bar0Read_eight (accessOk_eight_mbxReq rfl (by omega) (by omega) ..) hr, s.readReg_mbxReq fn (by omega) (by omega),
      s.readReg_mbxReq fn (by omega) (by omega)]
  case tableSize =>
    exact Nat.mod_eq_of_lt (show f.vectors - 1 < 2048 by omega)
  case silent =>
    have hsilent : s.mgmtServed = false ∨ (address ≠ 0x5C ∧ address ≠ 0x5D) := by
      rw [← Bool.not_eq_true, State.mgmtServed_iff]
      rcases h with h | h | h
      · exact .inl fun ⟨hporst, _⟩ => by simp [h] at hporst
      · exact .inl fun ⟨_, hserved⟩ => by omega
      · exact .inr h
    simp [State.mgmt_silent hsilent]
  case answers =>
    have hs : s.mgmtServed = true := s.mgmtServed_iff.mpr ⟨hporst, hserved⟩
    refine ⟨?_, ?_, ?_, ?_, ?_⟩
    · rintro rfl
      simp only [State.mgmt_answers hs (.inl rfl), s.mgmtReg_smbus_isSome, and_self]
    · rintro rfl
      simp only [State.mgmt_answers hs (.inr rfl), s.mgmtReg_pmbus_isSome, and_self]
    all_goals
      rintro rfl rfl rfl
      rw [State.mgmt_answers hs (.inl rfl)]
      rfl

end Sys2Proof.Machine
end

section
/-! PROOFS. The registers of a seat (Table 2.1): what a write leaves as it was. What is read back after a write is said in Laws/Seats. -/

namespace Sys2Proof.Machine

/-- A register write leaves the block registers. -/
@[simp] theorem Seat.setReg_b (x : Seat) (i : Fin 32) (v : Word) : (x.setReg i v).b = x.b := by rw [Seat.setReg_eq]

/-- A register write leaves the key slots. -/
@[simp] theorem Seat.setReg_k (x : Seat) (i : Fin 32) (v : Word) : (x.setReg i v).k = x.k := by rw [Seat.setReg_eq]

/-- In the vendor world g31 is the vendor bank: no register write reaches the tenant's stack pointer. -/
theorem Seat.setReg_sp_of_vendor {x : Seat} (hw : x.world = .vendor) (i : Fin 32) (v : Word) : (x.setReg i v).sp = x.sp := by
  unfold Seat.setReg
  split_ifs <;> rfl

/-- In the tenant world g31 is the tenant bank: no register write reaches the vendor's stack pointer. -/
theorem Seat.setReg_vsp_of_tenant {x : Seat} (hw : x.world = .tenant) (i : Fin 32) (v : Word) : (x.setReg i v).vsp = x.vsp := by
  have hnot : x.world ≠ .vendor := by simp [hw]
  unfold Seat.setReg
  split_ifs <;> rfl

/-- Settles O7: the read-back lemmas of both register files, and the four frames of a write. -/
theorem registerFile : Obligations.RegisterFile := by
  unfold Obligations.RegisterFile
  intro x i j v a b w
  exact ⟨x.reg_zero, x.reg_setReg i j v, fun hw => Seat.setReg_sp_of_vendor hw i v, fun hw => Seat.setReg_vsp_of_tenant hw i v,
    x.setReg_b i v, x.setReg_k i v, x.blk_setBlk a b w, rfl⟩

end Sys2Proof.Machine
end

section
/-! PROOFS. An exception of a TE (R75, Table 2.15) and the response that leaves the part (R34, R252, R299, R300): what the release of a
seat, the end of an itinerary, the arrival of a fault and the sending of a message do, then `State.raise` and ITIN_RSP from them. -/

namespace Sys2Proof.Machine

/-! ## Seats, lanes and ports that a change does not reach -/

/-- Outside the seats every seat reads as before. -/
theorem Kept.seat_eq {W : List Fld} {s t : State} (h : Kept W s t) (hf : Fld.seats ∉ W) (u : SeatRef) : t.seat u = s.seat u := by
  simp [State.seat, h.seats_eq hf]

/-- Outside the lanes every lane reads as before. -/
theorem Kept.lane_eq {W : List Fld} {s t : State} (h : Kept W s t) (hf : Fld.lanes ∉ W) (l : Nat) : t.lane l = s.lane l := by
  simp [State.lane, h.lanes_eq hf]

/-- Outside the ports every port reads as before. -/
theorem Kept.port_eq {W : List Fld} {s t : State} (h : Kept W s t) (hf0 : Fld.port0 ∉ W) (hf1 : Fld.port1 ∉ W) (p : Nat) :
    t.port p = s.port p := by
  simp [State.port, h.port0_eq hf0, h.port1_eq hf1]

/-! ## Releasing a seat (R72, R77, R128) -/

/-- The other seat of a TE of the part is a seat of the part. -/
theorem otherSeat_ok {u : SeatRef} (hu : u.ok = true) : (otherSeat u).ok = true := by
  simp only [SeatRef.ok, Bool.and_eq_true, decide_eq_true_eq] at hu ⊢
  exact ⟨hu.1, show 1 - u.seat < 2 by omega⟩

/-- The other seat of a TE is another seat. -/
theorem otherSeat_ne {u : SeatRef} (hu : u.ok = true) : otherSeat u ≠ u := by
  simp only [SeatRef.ok, Bool.and_eq_true, decide_eq_true_eq] at hu
  intro h
  have hseat : 1 - u.seat = u.seat := congrArg SeatRef.seat h
  omega

/-- Resuming the other seat of a TE leaves this one. -/
theorem State.seat_resumeOther (s : State) {u : SeatRef} (hu : u.ok = true) : (s.resumeOther u).seat u = s.seat u := by
  unfold State.resumeOther
  split
  · rw [State.seat_setTe', State.seat_setSeat_ne _ _ (otherSeat_ok hu) hu (otherSeat_ne hu)]
  · rfl

/-- A released seat is empty. -/
theorem State.seat_releaseSeat (s : State) {u : SeatRef} (hu : u.ok = true) : (s.releaseSeat u).seat u = Seat.empty := by
  unfold State.releaseSeat
  rw [State.seat_resumeOther _ hu]
  simp [State.clearSeat]

/-! ## The end of an itinerary with a response (R34, R72) -/

/-- What an itinerary's end holds back is appended to the held responses. -/
@[simp] theorem State.held_hold (s : State) (d : Desc) (vendor : Bool) (payload : Bytes) :
    (s.hold d vendor payload).held = s.held ++ [{ desc := d, payload := payload }] := rfl

section
variable {s : State} {u : SeatRef} (kind code : Byte) (rsp : BitVec 11) (pc : BitVec 32) (body : Bytes)

/-- An item that is not squashed ends with a response: its seat is released, its response held, the drain of a reset counted. -/
theorem State.endSeat_of_not_squash (hq : (s.seat u).squash = false) :
    s.endSeat u kind code rsp pc body =
      ((s.releaseSeat u).hold (s.seat u).desc ((s.seat u).world == .vendor)
        (completionRecord kind code (s.seat u).intent.isSome rsp pc ++ body)).countDrained (s.seat u).desc.colour := by
  simp [State.endSeat, hq]

/-- The seat of an item that ends with a response is empty. -/
theorem State.seat_endSeat (hu : u.ok = true) (hq : (s.seat u).squash = false) :
    (s.endSeat u kind code rsp pc body).seat u = Seat.empty := by
  rw [State.endSeat_of_not_squash kind code rsp pc body hq,
    (State.countDrained_kept _ (Kept.refl _ _) (List.Subset.refl _)).seat_eq (by decide),
    (State.hold_kept _ _ _ (Kept.refl _ _) (List.Subset.refl _)).seat_eq (by decide), State.seat_releaseSeat s hu]

/-- The response of an item that ends with one is the last held. -/
theorem State.held_endSeat (hq : (s.seat u).squash = false) :
    (s.endSeat u kind code rsp pc body).held =
      s.held ++ [{ desc := (s.seat u).desc, payload := completionRecord kind code (s.seat u).intent.isSome rsp pc ++ body }] := by
  rw [State.endSeat_of_not_squash kind code rsp pc body hq,
    (State.countDrained_kept _ (Kept.refl _ _) (List.Subset.refl _)).held_eq (by decide), State.held_hold,
    (State.releaseSeat_kept _ (Kept.refl _ _) (List.Subset.refl _)).held_eq (by decide)]

/-- The end of an item with a response changes no lane. -/
theorem State.lane_endSeat (hq : (s.seat u).squash = false) (l : Nat) : (s.endSeat u kind code rsp pc body).lane l = s.lane l := by
  rw [State.endSeat_of_not_squash kind code rsp pc body hq,
    (State.countDrained_kept _ (Kept.refl _ _) (List.Subset.refl _)).lane_eq (by decide),
    (State.hold_kept _ _ _ (Kept.refl _ _) (List.Subset.refl _)).lane_eq (by decide),
    (State.releaseSeat_kept _ (Kept.refl _ _) (List.Subset.refl _)).lane_eq (by decide)]

/-- The end of an item does not reach the collector. -/
theorem State.faults_endSeat : (s.endSeat u kind code rsp pc body).faults = s.faults :=
  (State.endSeat_kept _ _ _ _ _ _ (Kept.refl _ _) (List.Subset.refl _)).faults_eq (by decide)

end

/-! ## A fault below class 3 (R480) -/

/-- An EVENT bit does not reach the collector. -/
@[simp] theorem State.setEvent_faults (s : State) (fn b : Nat) : (s.setEvent fn b).faults = s.faults :=
  (State.setEvent_kept _ _ (Kept.refl _ _) (List.Subset.refl _)).faults_eq (by decide)

/-- Below class 3 a fault is its one arrival: it deactivates no card. -/
theorem State.fault_eq_arrive {s : State} {cls : Nat} (h : cls < 3) (kind : Byte) (src : BitVec 16) (detail : Word) :
    s.fault cls kind src detail = s.arrive cls kind src detail := by
  unfold State.fault
  cases s.writingCard with
  | none => rfl
  | some w => exact if_neg (by omega)

/-- An arrival below class 3 takes the collector's next sequence number. -/
theorem State.arrive_seq {s : State} {cls : Nat} (h : cls < 3) (kind : Byte) (src : BitVec 16) (detail : Word) :
    (s.arrive cls kind src detail).faults.seq = s.faults.seq + 1 := by
  have h3 : cls ≠ 3 := by omega
  have h4 : cls ≠ 4 := by omega
  simp only [State.arrive, if_neg h3, if_neg h4]
  split_ifs <;> simp

/-! ## An exception (R75, Table 2.15) -/

/-- The state an exception's fault arrives in: the lane has counted the exception, and the itinerary has ended with completion kind 2. -/
def State.exceptionEnded (s : State) (u : SeatRef) (code : Byte) : State :=
  let t := s.seat u
  (s.setLane t.desc.lane { s.lane t.desc.lane with exceptions := (s.lane t.desc.lane).exceptions + 1 }).endSeat u 2 code 0 t.shownPc []

/-- The detail of an exception's fault: the image's id, the world and the code. -/
def Seat.exceptionDetail (t : Seat) (code : Byte) : Word :=
  BitVec.ofNat 64 (t.desc.id.toNat * 2 ^ 32 + b2n (t.world == .vendor) * 256 + code.toNat)

/-- An exception ends the itinerary, then its fault arrives. -/
theorem State.raise_eq_fault (s : State) (u : SeatRef) (code : Byte) :
    s.raise u code = (s.exceptionEnded u code).fault 0 0x14 (srcTe u) ((s.seat u).exceptionDetail code) := rfl

/-- The end of an itinerary by an exception does not reach the collector. -/
@[simp] theorem State.faults_exceptionEnded (s : State) (u : SeatRef) (code : Byte) : (s.exceptionEnded u code).faults = s.faults := by
  simp [State.exceptionEnded, State.faults_endSeat]

/-- What an exception leaves as its itinerary's end made it: every seat, every lane and the held responses. -/
theorem State.raise_eq_exceptionEnded (s : State) (u : SeatRef) (code : Byte) :
    (∀ v, (s.raise u code).seat v = (s.exceptionEnded u code).seat v) ∧ (∀ l, (s.raise u code).lane l = (s.exceptionEnded u code).lane l) ∧
      (s.raise u code).held = (s.exceptionEnded u code).held := by
  have h := State.fault_kept 0 0x14 (srcTe u) ((s.seat u).exceptionDetail code) (Kept.refl _ (s.exceptionEnded u code))
    (List.Subset.refl _)
  exact ⟨h.seat_eq (by decide), h.lane_eq (by decide), h.held_eq (by decide)⟩

section
variable {s : State} {u : SeatRef} (code : Byte)

/-- The seat of an itinerary that ends by an exception is empty. -/
theorem State.seat_exceptionEnded (hu : u.ok = true) (hq : (s.seat u).squash = false) :
    (s.exceptionEnded u code).seat u = Seat.empty :=
  State.seat_endSeat _ _ _ _ _ hu (by simpa using hq)

/-- Its response is held, a completion record of kind 2 with the code and the pc. -/
theorem State.held_exceptionEnded (hq : (s.seat u).squash = false) :
    (s.exceptionEnded u code).held =
      s.held ++ [{ desc := (s.seat u).desc, payload := completionRecord 2 code (s.seat u).intent.isSome 0 (s.seat u).shownPc }] := by
  rw [State.exceptionEnded, State.held_endSeat _ _ _ _ _ (by simpa using hq)]
  simp

/-- Its lane has counted it. -/
theorem State.exceptions_exceptionEnded (hq : (s.seat u).squash = false) :
    ((s.exceptionEnded u code).lane (s.seat u).desc.lane).exceptions = (s.lane (s.seat u).desc.lane).exceptions + 1 := by
  rw [State.exceptionEnded, State.lane_endSeat _ _ _ _ _ (by simpa using hq)]
  simp

end

/-! ## Sending a message (R299, R300) -/

/-- What has left the part stays on record while a port sends its frames. -/
theorem State.mem_out_pump {s : State} {o : Output} (h : o ∈ s.out) (p : Nat) : o ∈ (s.pump p).out := by
  have hframes : ∀ (fs : List Bytes) (t : State), o ∈ t.out → o ∈ (fs.foldl (fun t f => t.emit (.frame p f)) t).out := by
    intro fs
    induction fs with
    | nil => exact fun _ ht => ht
    | cons f fs ih => exact fun t ht => ih _ (List.mem_cons_of_mem _ ht)
  unfold State.pump
  dsimp only
  split
  · exact hframes _ _ (by simpa using h)
  · exact h

section
variable {s : State} {p n : Nat} (typ laneIdx a : Nat) (b c : Word) (payload : Bytes) (ticket : Option Desc)

/-- A session that is not open, or a port that carries no message, drops the message. -/
theorem State.sendMsg_dropped (h : (s.port p).openSession n = .none ∨ (s.port p).carries = false) :
    s.sendMsg p n typ laneIdx a b c payload ticket = s := by
  unfold State.sendMsg
  dsimp only
  split
  · rfl
  · next x hopen => exact if_neg (by simpa [hopen] using h)

/-- On an open session of a port that carries messages, the message leaves under the session's next sequence number. -/
theorem State.message_mem_out_sendMsg {x : Session} (hopen : (s.port p).openSession n = some x) (hc : (s.port p).carries = true) :
    Output.message p n x.vc (buildMessage x.key p n typ laneIdx a (x.sendSeq + 1) b c payload) ∈
      (s.sendMsg p n typ laneIdx a b c payload ticket).out := by
  simp only [State.sendMsg, hopen, hc, if_true]
  exact State.mem_out_pump List.mem_cons_self p

end

/-- An open session is the one listed under its number. -/
theorem Port.find?_of_openSession {pt : Port} {n : Nat} {x : Session} (h : pt.openSession n = some x) : pt.sessions.find? n = some x := by
  unfold Port.openSession at h
  split at h
  · exact h
  · cases h

/-! ## ITIN_RSP (R34, R252) -/

/-- Erasing the first record that meets a test, where the records before it do not. -/
theorem eraseFirst_append_cons {α : Type} {p : α → Bool} {l r : List α} {a : α} (hl : ∀ x ∈ l, p x = false) (ha : p a = true) :
    eraseFirst p (l ++ a :: r) = l ++ r := by
  induction l with
  | nil => simp [eraseFirst, ha]
  | cons x l ih =>
    obtain ⟨hx, hl⟩ := List.forall_mem_cons.mp hl
    simp [eraseFirst, hx, ih hl]

/-- Whether an item owes an OUTCOME that must wait for its call. -/
def State.owesOutcome (s : State) (d : Desc) : Bool := s.journal.orphans.any fun o => !o.settled && o.ofItem d

/-- Where every held response waits, ITIN_RSP sends nothing. -/
theorem execItinRsp_of_all_wait {s : State} (h : ∀ g ∈ s.held, s.owesOutcome g.desc = true) : execItinRsp s = .next s := by
  have hnone : (s.held.find? fun g => !s.owesOutcome g.desc) = .none :=
    List.find?_eq_none.mpr fun g hg => by simp [h g hg]
  simp only [State.owesOutcome] at hnone
  simp only [execItinRsp, hnone]

/-- The state after the response at a place of the queue has left it and the OUTCOMEs its item owes are written. -/
def State.responseTaken (s : State) (before rest : List Held) (d : Desc) : State := { s with held := before ++ rest }.payOutcomes d

/-- ITIN_RSP takes the first held response that need not wait, and sends it on the session its item came on. -/
theorem execItinRsp_of_first {s : State} {before rest : List Held} {h : Held} (hheld : s.held = before ++ h :: rest)
    (hbefore : ∀ g ∈ before, s.owesOutcome g.desc = true) (hfirst : s.owesOutcome h.desc = false) :
    execItinRsp s = .next (
      let d := h.desc
      let s1 := s.responseTaken before rest d
      if ((s1.port d.port).sessions.find? d.session).any (·.carried d) then
        s1.sendMsg d.port d.session 0x02 0 0 d.ticket (BitVec.ofNat 64 (d.id.toNat * 2 ^ 32 + d.seq.toNat)) h.payload (some d)
      else s1) := by
  have hfind : (s.held.find? fun g => !s.owesOutcome g.desc) = some h :=
    List.find?_eq_some_iff_append.mpr ⟨by simp [hfirst], before, rest, hheld, fun g hg => by simp [hbefore g hg]⟩
  have herase : eraseFirst (fun x => x == h) s.held = before ++ rest := by
    rw [hheld]
    refine eraseFirst_append_cons (fun g hg => beq_eq_false_iff_ne.mpr ?_) (beq_self_eq_true h)
    rintro rfl
    simp [hbefore g hg] at hfirst
  simp only [State.owesOutcome] at hfind
  simp only [execItinRsp, hfind, herase]
  rfl

/-- Taking a response leaves every port. -/
@[simp] theorem State.port_responseTaken (s : State) (before rest : List Held) (d : Desc) (p : Nat) :
    (s.responseTaken before rest d).port p = s.port p :=
  (State.payOutcomes_kept d (Kept.refl _ { s with held := before ++ rest }) (List.Subset.refl _)).port_eq (by decide) (by decide) p

/-- A taken response is gone from the queue. -/
@[simp] theorem State.held_responseTaken (s : State) (before rest : List Held) (d : Desc) :
    (s.responseTaken before rest d).held = before ++ rest :=
  (State.payOutcomes_kept d (Kept.refl _ { s with held := before ++ rest }) (List.Subset.refl _)).held_eq (by decide)

section
variable {s : State} {before rest : List Held} {h : Held} (hheld : s.held = before ++ h :: rest)
  (hbefore : ∀ g ∈ before, s.owesOutcome g.desc = true) (hfirst : s.owesOutcome h.desc = false)
include hheld hbefore hfirst

/-- A response whose session has closed, or whose port carries no message, is dropped. -/
theorem completes_itinRsp_dropped
    (hdrop : ((s.port h.desc.port).sessions.find? h.desc.session).any (·.carried h.desc) = false ∨
      (s.port h.desc.port).openSession h.desc.session = .none ∨ (s.port h.desc.port).carries = false) :
    Completes .itinRsp s fun t => t = s.responseTaken before rest h.desc := by
  refine ⟨_, execItinRsp_of_first hheld hbefore hfirst, ?_⟩
  rcases hdrop with hclosed | hdrop
  · simp [hclosed]
  · exact ite_eq_right_iff.mpr fun _ => State.sendMsg_dropped _ _ _ _ _ _ _ (by simpa using hdrop)

/-- On the session its item came on the response leaves as an ITIN_RSP message. -/
theorem completes_itinRsp_sent {y : Session} (hopen : (s.port h.desc.port).openSession h.desc.session = some y)
    (hitem : y.carried h.desc = true) (hcarries : (s.port h.desc.port).carries = true) :
    Completes .itinRsp s fun t => t.held = before ++ rest ∧ t.journal = (s.responseTaken before rest h.desc).journal ∧
      Output.message h.desc.port h.desc.session y.vc (buildMessage y.key h.desc.port h.desc.session 0x02 0 0 (y.sendSeq + 1) h.desc.ticket
        (BitVec.ofNat 64 (h.desc.id.toNat * 2 ^ 32 + h.desc.seq.toNat)) h.payload) ∈ t.out := by
  refine ⟨_, execItinRsp_of_first hheld hbefore hfirst, ?_⟩
  have hsend : (((s.responseTaken before rest h.desc).port h.desc.port).sessions.find? h.desc.session).any (·.carried h.desc) = true := by
    simp [Port.find?_of_openSession hopen, hitem]
  simp only [hsend, if_true]
  have hkept := State.sendMsg_kept h.desc.port h.desc.session 0x02 0 0 h.desc.ticket
    (BitVec.ofNat 64 (h.desc.id.toNat * 2 ^ 32 + h.desc.seq.toNat)) h.payload (some h.desc) []
    (Kept.refl _ (s.responseTaken before rest h.desc)) (List.Subset.refl _)
  exact ⟨(hkept.held_eq (by decide)).trans (State.held_responseTaken ..), hkept.journal_eq (by decide),
    State.message_mem_out_sendMsg _ _ _ _ _ _ _ (by simpa using hopen) (by simpa using hcarries)⟩

end

/-! ## The obligation -/

/-- Settles O20: an exception as the end of its itinerary and the arrival of its fault; ITIN_RSP by the first held response that need not
wait, dropped or sent. -/
theorem exceptionTaken : Obligations.ExceptionTaken := by
  unfold Obligations.ExceptionTaken
  refine ⟨fun s u code hu hq => ?exception, fun s before rest h => ⟨fun hheld hbefore hfirst => ?response, fun hwait => ?wait⟩⟩
  case exception =>
    obtain ⟨hseat, hlane, hheld⟩ := s.raise_eq_exceptionEnded u code
    refine ⟨(hseat u).trans (State.seat_exceptionEnded code hu hq), hheld.trans (State.held_exceptionEnded code hq),
      ⟨s.exceptionEnded u code, s.raise_eq_fault u code, s.faults_exceptionEnded u code⟩, ?lane, ?seq⟩
    case lane => rw [hlane, State.exceptions_exceptionEnded code hq]
    case seq => rw [State.raise_eq_fault, State.fault_eq_arrive (by decide), State.arrive_seq (by decide), State.faults_exceptionEnded]
  case response =>
    exact ⟨completes_itinRsp_dropped hheld hbefore hfirst, fun y => completes_itinRsp_sent hheld hbefore hfirst⟩
  case wait =>
    exact ⟨s, execItinRsp_of_all_wait hwait, rfl⟩

end Sys2Proof.Machine
end

section
/-! PROOFS. How the answer of a TE instruction becomes a completion, said once for each form an instruction of chapter 2 is written in:
it goes on, jumps, waits, raises an exception or ends its seat. -/

namespace Sys2Proof.Machine

/-- What a completion's outcome meets, a weaker condition meets too. -/
theorem Completes.mono {c : Instr} {s : State} {P Q : State → Prop} (h : Completes c s P) (hPQ : ∀ t, P t → Q t) : Completes c s Q := by
  obtain ⟨t, ht, hP⟩ := h
  exact ⟨t, ht, hPQ t hP⟩

/-! ## The seat an instruction has run in -/

section
variable {u : SeatRef} {s1 t : State} {x : Seat} {dest : BitVec 32} {cost : Nat}

/-- The seat after an instruction: as it answers it, at the new pc, running or waiting for its line. -/
theorem Ran.seat_eq (h : Ran u s1 x dest cost t) :
    t.seat u = { x with phase := (t.seat u).phase, pc := dest, cycles := x.cycles + cost, sinceYield := x.sinceYield + cost } := h.2.2.2

theorem Ran.pc (h : Ran u s1 x dest cost t) : (t.seat u).pc = dest := by rw [h.seat_eq]
theorem Ran.slot (h : Ran u s1 x dest cost t) (i : Fin 8) : (t.seat u).slot i = x.slot i := by rw [h.seat_eq]; rfl
theorem Ran.cctx (h : Ran u s1 x dest cost t) : (t.seat u).cctx = x.cctx := by rw [h.seat_eq]

end

/-! ## How an answer is carried out -/

section
variable {c : Instr} {s s1 : State} {u : SeatRef} {x : Seat} {cost : Nat} {code : Byte} {pc : BitVec 32}

/-- An instruction of a seat that runs completes as its answer is carried out. -/
theorem completes_te {f : State → Seat → TeRes} {r : TeRes} (h : Runs s u) (he : exec c s = runTe u s f) (hf : f s (s.seat u) = r) :
    Completes c s fun t => t = finishTe u r :=
  ⟨_, by rw [he, runTe_of_runs h, hf], rfl⟩

/-- An instruction that waits at no cost leaves its seat waiting. -/
theorem completes_te_wait {f : State → Seat → TeRes} (h : Runs s u) (he : exec c s = runTe u s f) (hf : f s (s.seat u) = .wait s1 x 0) :
    Completes c s fun t => t = s1.setSeat u x := completes_te h he hf

/-- An instruction that leaves the pc goes on at the next instruction of the seat. -/
theorem completes_onward {f : State → Seat → TeRes} (h : Runs s u) (he : exec c s = runPlain u s f)
    (hf : f s (s.seat u).plain = .next s1 x cost) (hphase : x.phase = (s.seat u).phase) (hpc : x.pc = (s.seat u).pc) :
    Completes c s (Ran u s1 x ((s.seat u).plain.pc + 4) cost) := by
  have hdone := completes_next h he hf (hphase.trans h.2.1)
  rwa [hpc] at hdone

/-- An instruction that jumps from a state whose seat is as it was. -/
theorem completes_jump_from {f : State → Seat → TeRes} (h : Runs s u) (he : exec c s = runPlain u s f)
    (hf : f s (s.seat u).plain = .jump s x pc cost) (hphase : x.phase = (s.seat u).phase) :
    Completes c s (Ran u s x pc (cost + lineCost ((s.seat u).plain.line (s.seat u).plain.pc) (x.line pc))) :=
  completes_jump h he hf (hphase.trans h.2.1)

/-- An instruction that raises an exception. -/
theorem completes_exc {f : State → Seat → TeRes} (h : Runs s u) (he : exec c s = runPlain u s f)
    (hf : f s (s.seat u).plain = .exc s1 code) : Completes c s fun t => t = s1.raise u code :=
  ⟨_, by rw [he, runPlain_of_runs h, hf]; rfl, rfl⟩

/-- An instruction that itself ends or leaves its seat. -/
theorem completes_gone {f : State → Seat → TeRes} (h : Runs s u) (he : exec c s = runPlain u s f)
    (hf : f s (s.seat u).plain = .gone s1) : Completes c s fun t => t = s1 :=
  ⟨_, by rw [he, runPlain_of_runs h, hf]; rfl, rfl⟩

/-- An instruction of Except form whose effect is known goes on. -/
theorem completes_ex_onward {f : State → Seat → Except Byte (State × Seat × Nat)} (h : Runs s u) (he : exec c s = runEx u s f)
    (hf : f s (s.seat u).plain = .ok (s1, x, cost)) (hphase : x.phase = (s.seat u).phase) (hpc : x.pc = (s.seat u).pc) :
    Completes c s (Ran u s1 x ((s.seat u).plain.pc + 4) cost) :=
  completes_onward h he (by simp [hf]) hphase hpc

/-- An instruction of Except form whose check fails raises the code. -/
theorem completes_ex_error {f : State → Seat → Except Byte (State × Seat × Nat)} (h : Runs s u) (he : exec c s = runEx u s f)
    (hf : f s (s.seat u).plain = .error code) : Completes c s fun t => t = s.raise u code :=
  completes_exc h he (by simp [hf])

end

end Sys2Proof.Machine
end

section
/-! PROOFS. The integer and immediate instructions (R49, R50, Tables 2.5 and 2.6). -/

namespace Sys2Proof.Machine

section
variable {c : Instr} {s : State} {u : SeatRef} {rd a b : Fin 32} {cost : Nat} {v : Word}

/-- An instruction that writes rd from a seat's state. -/
theorem completes_setReg {f : State → Seat → TeRes} (h : Runs s u) (he : exec c s = runPlain u s f)
    (hf : f s (s.seat u).plain = .next s ((s.seat u).plain.setReg rd v) cost) :
    Completes c s (Ran u s ((s.seat u).plain.setReg rd v) ((s.seat u).plain.pc + 4) cost) :=
  completes_onward h he hf (by simp) (by simp)

/-- An instruction of two registers writes its value to rd. -/
theorem completes_regOp {f : Word → Word → Word} (h : Runs s u) (he : exec c s = regOp u rd a b cost f s)
    (hv : f ((s.seat u).plain.reg a) ((s.seat u).plain.reg b) = v) :
    Completes c s (Ran u s ((s.seat u).plain.setReg rd v) ((s.seat u).plain.pc + 4) cost) :=
  completes_setReg h he (by rw [hv])

/-- An instruction of one register writes its value to rd in one cycle. -/
theorem completes_immOp {f : Word → Word} (h : Runs s u) (he : exec c s = immOp u rd a f s) (hv : f ((s.seat u).plain.reg a) = v) :
    Completes c s (Ran u s ((s.seat u).plain.setReg rd v) ((s.seat u).plain.pc + 4) 1) :=
  completes_setReg h he (by rw [hv])

end

/-- A rotation by a register's amount is two shifts. -/
theorem rotateLeft_shiftAmount (p : Word) {n k : Nat} (h : k = n % 64) : p.rotateLeft k = (p <<< (n % 64)) ||| (p >>> (64 - n % 64)) := by
  rw [h, BitVec.rotateLeft_eq_rotateLeftAux_of_lt (Nat.mod_lt _ (by decide))]; rfl

/-- A signed comparison as a word. -/
theorem flagWord_slt (p q : Word) : flagWord (p.slt q) = if p.toInt < q.toInt then 1 else 0 := by
  simp [flagWord, BitVec.slt]

/-- An unsigned comparison as a word. -/
theorem flagWord_ult (p q : Word) : flagWord (p.ult q) = if p.toNat < q.toNat then 1 else 0 := by
  simp [flagWord, BitVec.ult]

/-- The operation SHI selects, by the range its immediate lies in. -/
theorem shiOp_of_div {imm : BitVec 16} {k : Nat} (h : imm.toNat / 64 = k) (p : Word) : shiOp imm p =
    match k % 4 with
    | 0 => p <<< (imm.toNat % 64)
    | 1 => p >>> (imm.toNat % 64)
    | 2 => p.sshiftRight (imm.toNat % 64)
    | _ => p.rotateLeft (imm.toNat % 64) := by
  subst h; rfl

/-- SHI with imm16[15:8] zero writes its operation's value. -/
theorem completes_shi {s : State} {u : SeatRef} {rd a : Fin 32} {imm : BitVec 16} (h : Runs s u) {v : Word} (himm : imm.toNat < 256)
    (hv : shiOp imm ((s.seat u).plain.reg a) = v) :
    Completes (.shi u rd a imm) s (Ran u s ((s.seat u).plain.setReg rd v) ((s.seat u).plain.pc + 4) 1) :=
  completes_setReg h exec_shi (by rw [if_neg (by omega), hv])

/-- The low sixteen bits. -/
theorem getLsbD_lowQuarter (k : Nat) : (0xFFFF#64).getLsbD k = decide (k < 16) := by
  have hones : (0xFFFF#64) = (BitVec.allOnes 16).setWidth 64 := by decide
  rw [hones, BitVec.getLsbD_setWidth, BitVec.getLsbD_allOnes]
  by_cases hk : k < 16
  · simp [hk, show k < 64 by omega]
  · simp [hk]

/-- INSQ replaces the sixteen bits of its quarter and keeps the others. -/
theorem getLsbD_insertQuarter (w : Word) (q : Fin 4) (imm : BitVec 16) (i : Fin 64) :
    (insertQuarter w q imm).getLsbD i =
      if 16 * q.val ≤ i.val ∧ i.val < 16 * q.val + 16 then imm.getLsbD (i.val - 16 * q.val) else w.getLsbD i := by
  have hi := i.isLt
  simp only [insertQuarter, BitVec.getLsbD_or, BitVec.getLsbD_and, BitVec.getLsbD_not, BitVec.getLsbD_shiftLeft, getLsbD_lowQuarter,
    BitVec.getLsbD_setWidth]
  split_ifs with hin
  · simp [show ¬ i.val < 16 * q.val by omega, show i.val - 16 * q.val < 16 by omega, show i.val - 16 * q.val < 64 by omega]
  · by_cases hlow : i.val < 16 * q.val
    · simp [hlow]
    · simp [hlow, show ¬ i.val - 16 * q.val < 16 by omega, BitVec.getLsbD_of_ge imm (i.val - 16 * q.val) (by omega)]

/-- A byte of a little-endian number is a digit to the base 256. -/
theorem getLsbD_leNat (bs : Bytes) : ∀ i : Nat, (leNat bs).testBit i = (bs.getD (i / 8) 0).getLsbD (i % 8) := by
  induction bs with
  | nil => simp [leNat]
  | cons b r ih =>
    intro i
    have hb : b.toNat < 2 ^ 8 := b.isLt
    rw [leNat, Nat.add_comm, show 256 = 2 ^ 8 from rfl, Nat.testBit_two_pow_mul_add _ hb]
    split
    · next h => simp [Nat.div_eq_of_lt h, Nat.mod_eq_of_lt h, BitVec.getLsbD]
    · rw [ih, show i / 8 = (i - 8) / 8 + 1 by omega, List.getD_cons_succ, show (i - 8) % 8 = i % 8 by omega]

@[simp] theorem length_natLE (n v : Nat) : (natLE n v).length = n := by
  induction n generalizing v with
  | zero => rfl
  | succ n ih => simp [natLE, ih]

theorem getD_natLE (n v i : Nat) (h : i < n) : (natLE n v).getD i 0 = BitVec.ofNat 8 (v / 256 ^ i) := by
  induction n generalizing v i with
  | zero => omega
  | succ n ih =>
    cases i with
    | zero => simp [natLE]
    | succ i => rw [natLE, List.getD_cons_succ, ih _ _ (by omega), Nat.div_div_eq_div_mul, pow_succ']

/-- BSWAP puts byte 7 - i in the place of byte i. -/
theorem getLsbD_byteSwap (w : Word) (i : Fin 64) : (byteSwap w).getLsbD i = w.getLsbD (8 * (7 - i.val / 8) + i.val % 8) := by
  have hi := i.isLt
  have hbyte : (natBE 8 w.toNat).getD (i.val / 8) 0 = BitVec.ofNat 8 (w.toNat / 256 ^ (7 - i.val / 8)) := by
    rw [← getD_natLE 8 w.toNat (7 - i.val / 8) (by omega), natBE, List.getD_eq_getElem?_getD, List.getD_eq_getElem?_getD,
      List.getElem?_reverse (by simp; omega)]
    simp only [length_natLE]
  rw [byteSwap, BitVec.getLsbD_ofNat, getLsbD_leNat, hbyte, BitVec.getLsbD_ofNat, show 256 = 2 ^ 8 from rfl, ← pow_mul,
    Nat.testBit_div_two_pow]
  simp [show i.val % 8 < 8 by omega, BitVec.getLsbD, Nat.add_comm]

/-- Settles O8: each instruction through its form's completion, with the value of Tables 2.5 and 2.6. -/
theorem integerInstructions : Obligations.IntegerInstructions := by
  unfold Obligations.IntegerInstructions
  refine ⟨fun s u rd a b h => ?_, fun s u rd a imm q h => ?_⟩
  · intro x p q n gives
    refine ⟨completes_regOp h exec_add rfl, completes_regOp h exec_sub rfl, completes_regOp h exec_and rfl, completes_regOp h exec_or rfl,
      completes_regOp h exec_xor rfl, completes_regOp h exec_sll rfl, completes_regOp h exec_srl rfl, completes_regOp h exec_sra rfl,
      completes_regOp h exec_rol (rotateLeft_shiftAmount p rfl), completes_regOp h exec_slt (flagWord_slt p q),
      completes_regOp h exec_sltu (flagWord_ult p q), completes_regOp h exec_mul rfl, completes_regOp h exec_mulhu rfl,
      ?cmovz⟩
    case cmovz =>
      refine completes_onward h exec_cmovz rfl ?_ ?_
      all_goals split <;> simp [x]
  · intro x p n gives
    refine ⟨completes_immOp h exec_addi rfl, completes_immOp h exec_andi rfl, completes_immOp h exec_ori rfl, completes_immOp h exec_xori rfl,
      completes_immOp h exec_slti (flagWord_slt p _), fun himm => completes_shi h (by omega) (shiOp_of_div (k := 0) (by omega) p),
      fun hlo hhi => completes_shi h (by omega) (shiOp_of_div (k := 1) (by omega) p),
      fun hlo hhi => completes_shi h (by omega) (shiOp_of_div (k := 2) (by omega) p),
      fun hlo hhi => completes_shi h (by omega) ((shiOp_of_div (k := 3) (by omega) p).trans (rotateLeft_shiftAmount p ?rot)),
      fun himm => completes_exc h exec_shi (if_pos himm), ?insq, ?bswap⟩
    case insq =>
      obtain ⟨t, ht, hran⟩ := completes_setReg h exec_insq (rd := rd) rfl
      exact ⟨t, ht, _, hran, getLsbD_insertQuarter _ q imm⟩
    case bswap =>
      obtain ⟨t, ht, hran⟩ := completes_immOp h exec_bswap rfl
      exact ⟨t, ht, _, hran, getLsbD_byteSwap p⟩
    case rot => omega

end Sys2Proof.Machine
end

section
/-! PROOFS. Branches, jumps, calls and returns (R52-R54). -/

namespace Sys2Proof.Machine

/-- A transfer's cycles: two, and four more into another line (R48, R52). -/
theorem transfer_cost (a b : Nat) : 2 + lineCost a b = if a = b then 2 else 6 := by
  unfold lineCost; split <;> rfl

section
variable {c : Instr} {s : State} {u : SeatRef} {imm : BitVec 16}

/-- A taken relative transfer goes to its target in two cycles, or six into another line. -/
theorem completes_transfer {f : State → Seat → TeRes} (h : Runs s u) (he : exec c s = runPlain u s f)
    (hf : f s (s.seat u).plain = .jump s (s.seat u).plain ((s.seat u).plain.target imm) 2) :
    Completes c s (Ran u s (s.seat u).plain ((s.seat u).plain.target imm)
      (if (s.seat u).plain.line (s.seat u).plain.pc = (s.seat u).plain.line ((s.seat u).plain.target imm) then 2 else 6)) := by
  rw [← transfer_cost]
  exact completes_jump_from h he hf rfl

/-- A branch is a transfer where its condition holds, and one cycle where it does not. -/
theorem completes_branch {a b : Fin 32} {f : Word → Word → Bool} {taken : Prop} [Decidable taken] (h : Runs s u)
    (he : exec c s = branchOp u a b imm f s) (hf : f ((s.seat u).plain.reg a) ((s.seat u).plain.reg b) = true ↔ taken) :
    Completes c s (if taken then Ran u s (s.seat u).plain ((s.seat u).plain.target imm)
        (if (s.seat u).plain.line (s.seat u).plain.pc = (s.seat u).plain.line ((s.seat u).plain.target imm) then 2 else 6)
      else Ran u s (s.seat u).plain ((s.seat u).plain.pc + 4) 1) := by
  by_cases ht : taken
  · rw [if_pos ht]
    exact completes_transfer h he (if_pos (hf.mpr ht))
  · rw [if_neg ht]
    exact completes_onward h he (if_neg fun hc => ht (hf.mp hc)) rfl rfl

end

/-- Settles O10: branches and JMP as relative transfers; CALL, GATE and RET by the depth and the top of the return stack. -/
theorem controlTransfers : Obligations.ControlTransfers := by
  unfold Obligations.ControlTransfers
  refine ⟨fun s u a b imm h => ?_, fun s u imm w h => ?_⟩
  · intro x p q target far goes
    have hlt : ∀ v w : Word, v.slt w = true ↔ v.toInt < w.toInt := fun v w => by simp [BitVec.slt]
    have hult : ∀ v w : Word, v.ult w = true ↔ v.toNat < w.toNat := fun v w => by simp [BitVec.ult]
    exact ⟨completes_branch h exec_beq beq_iff_eq, completes_branch h exec_bne bne_iff_ne, completes_branch h exec_blt (hlt p q),
      completes_branch h exec_bge (by rw [Bool.not_eq_true', ← Bool.not_eq_true, hlt, not_lt]), completes_branch h exec_bltu (hult p q),
      completes_branch h exec_bgeu (by rw [Bool.not_eq_true', ← Bool.not_eq_true, hult, not_lt]), completes_transfer h exec_jmp rfl⟩
  · intro x target
    refine ⟨fun hroom => completes_jump_from h exec_call (if_pos hroom) rfl, fun hfull => completes_exc h exec_call (if_neg (Nat.not_lt.mpr hfull)),
      fun hw hfull => ?gate, fun f r hstack hcall => ?ret, fun hstack => ?frame⟩
    case gate =>
      exact completes_exc h (exec_gate.trans (if_pos hw)) (if_neg (Nat.not_lt.mpr hfull))
    case ret =>
      exact completes_jump_from (x := { x with stack := r }) h exec_ret (by simp only [show (s.seat u).plain.stack = f :: r from hstack, hcall]; rfl) rfl
    case frame =>
      refine completes_exc h exec_ret ?_
      split
      · next f r hs => rw [if_pos (hstack f r hs)]
      · rfl

end Sys2Proof.Machine
end

section
/-! PROOFS. SYS (R51, Table 2.7): the values it reads, the milepost's halves, and the read of the cluster's expander (R417-R420). -/

namespace Sys2Proof.Machine

/-! ## An expander that asks for its seed -/

/-- A seat is no part of an expander. -/
@[simp] theorem State.expander_setSeat (s : State) (u : SeatRef) (x : Seat) (e : Nat) : (s.setSeat u x).expander e = s.expander e := rfl

/-- A draw asked for changes no expander. -/
@[simp] theorem State.expander_askDraw (s : State) (e j : Nat) : (s.askDraw e).expander j = s.expander j := by
  unfold State.askDraw; split <;> rfl

/-- A draw asked for is in the kettle's queue. -/
theorem State.mem_draws_askDraw (s : State) (e : Nat) : Draw.expander e ∈ (s.askDraw e).entropy.draws := by
  unfold State.askDraw
  split
  · next h => exact List.contains_iff_mem.mp h
  · simp

/-- Asking for a seed moves neither the expander's readers nor its output. -/
theorem State.expander_seedExpander (s : State) (e : Nat) : ((s.seedExpander e).expander e).waiting = (s.expander e).waiting ∧
    ((s.seedExpander e).expander e).buffer = (s.expander e).buffer := by
  unfold State.seedExpander
  dsimp only
  split <;> simp

/-- An expander without a seed that serves asks for one. -/
theorem State.mem_draws_seedExpander {s : State} {e : Nat} (h : ((s.expander e).seeded && !(s.expander e).required) = false) :
    Draw.expander e ∈ (s.seedExpander e).entropy.draws := by
  simp only [State.seedExpander, h]
  exact State.mem_draws_askDraw _ e

/-! ## What SYS answers -/

section
variable {s : State} {u : SeatRef} {rd : Fin 32} {i : BitVec 16} {x : Seat} {v : Word} {a : BitVec 48} {b : BitVec 32} {c : BitVec 16}

/-- SYS goes on at the next instruction with a value in rd. -/
theorem completes_sys_onward {s1 : State} {f : State → Seat → TeRes} {cost : Nat} {instr : Instr} (h : Runs s u)
    (he : exec instr s = runTe u s f) (hf : f s (s.seat u) = .next s1 (x.setReg rd v) cost) (hphase : x.phase = (s.seat u).phase)
    (hpc : x.pc = (s.seat u).pc) : Completes instr s (Ran u s1 (x.setReg rd v) ((s.seat u).pc + 4) cost) := by
  refine (completes_te h he hf).mono fun t ht => ?_
  have hran := finishTe_next u s1 (x.setReg rd v) cost h.1 (by rw [Seat.setReg_phase, hphase, h.2.1])
  rwa [← ht, Seat.setReg_pc, hpc] at hran

/-- SYS of an index that is neither a milepost half nor the expander answers by the table. -/
theorem execSys_of_other (hi : i.toNat ∉ [0x5, 0x6, 0x10]) : execSys u rd i s = runTe u s fun s t =>
    match sysValue u t i.toNat with
    | some v => .next s (t.plain.setReg rd v) 1
    | .none => .exc s 0x01 := by
  simp only [List.mem_cons, List.not_mem_nil, or_false, not_or] at hi
  obtain ⟨h5, h6, h10⟩ := hi
  unfold execSys
  congr 1
  funext s t
  dsimp only
  split
  · next h => exact absurd h h5
  · next h => exact absurd h h6
  · next h => exact absurd h h10
  · rfl

/-- A system value of one cycle (Table 2.7). -/
theorem completes_sysValue (h : Runs s u) (hi : i.toNat ∉ [0x5, 0x6, 0x10]) (hv : sysValue u (s.seat u) i.toNat = some v) :
    Completes (.sys u rd i) s (Ran u s ((s.seat u).plain.setReg rd v) ((s.seat u).pc + 4) 1) :=
  completes_sys_onward h (exec_sys.trans (execSys_of_other hi)) (by rw [hv]) rfl rfl

/-- An index the table does not define is illegal. -/
theorem completes_sys_undefined (h : Runs s u) (hlo : 9 < i.toNat) (hi : i.toNat ≠ 0x10) :
    Completes (.sys u rd i) s fun t => t = s.raise u 0x01 := by
  have hother : i.toNat ∉ [0x5, 0x6, 0x10] := by
    simp only [List.mem_cons, List.not_mem_nil, or_false, not_or]
    omega
  have hnone : sysValue u (s.seat u) i.toNat = .none := by
    unfold sysValue
    split
    case h_9 => rfl
    all_goals omega
  exact completes_te h (exec_sys.trans (execSys_of_other hother)) (by rw [hnone])

/-- The upper half of the milepost. -/
theorem completes_sys_high (h : Runs s u) (hx : (s.seat u).keepSample false (readMilepost s (s.seat u) false) = x)
    (hv : (readMilepost s (s.seat u) false).1 = a) (hphase : x.phase = (s.seat u).phase) (hpc : x.pc = (s.seat u).pc) :
    Completes (.sys u rd 0x5) s (Ran u s (x.setReg rd (a.zeroExtend 64)) ((s.seat u).pc + 4) 1) :=
  completes_sys_onward h exec_sys (by rw [← hx, ← hv]; rfl) hphase hpc

/-- The lower half of the milepost. -/
theorem completes_sys_low (h : Runs s u) (hx : (s.seat u).keepSample true (readMilepost s (s.seat u) true) = x)
    (hv : (readMilepost s (s.seat u) true).2 = (b, c)) (hphase : x.phase = (s.seat u).phase) (hpc : x.pc = (s.seat u).pc) :
    Completes (.sys u rd 0x6) s (Ran u s (x.setReg rd ((b.zeroExtend 64 <<< 16) ||| c.zeroExtend 64)) ((s.seat u).pc + 4) 1) :=
  completes_sys_onward h exec_sys (by rw [← hx, ← show _ = b from congrArg Prod.fst hv, ← show _ = c from congrArg Prod.snd hv]; rfl) hphase hpc

end

/-! ## The two halves of a milepost (R51) -/

section
variable {s : State} {x : Seat} {low : Bool} {y : BitVec 48 × BitVec 32 × BitVec 16}

/-- Without a sample a half reads the counter. -/
theorem readMilepost_fresh (h : x.sample = .none) : readMilepost s x low = (s.time.secs, s.time.nanos, s.time.frac) := by
  simp [readMilepost, h]

/-- After the other half a half reads that one's sample. -/
theorem readMilepost_of_other (h : x.sample = some (!low, y)) : readMilepost s x low = y := by
  cases low <;> simp [readMilepost, h]

/-- A first half keeps its sample. -/
theorem Seat.keepSample_fresh (h : x.sample = .none) : x.keepSample low y = { x with sample := some (low, y) } := by
  simp [Seat.keepSample, h]

/-- A second half ends the pair. -/
theorem Seat.keepSample_of_other (h : x.sample = some (!low, y)) (z : BitVec 48 × BitVec 32 × BitVec 16) :
    x.keepSample low z = x.plain := by
  cases low <;> simp [Seat.keepSample, Seat.plain, h]

end

/-! ## The cluster's expander (R417) -/

/-- A read of an expander takes its 8 oldest bytes, or stalls where they are not there, its test failed, or it is held. -/
theorem State.takeRandom_eq (s : State) (e : Nat) : s.takeRandom e =
    if (s.expander e).buffer.length < 8 ∨ (s.expander e).katFailed = true ∨ s.expanderHeld e = true then .none
    else some (BitVec.ofNat 64 (fieldBE (s.expander e).buffer 0 8),
      s.setExpander e { s.expander e with buffer := (s.expander e).buffer.drop 8 }) := rfl

/-- SYS of index 0x0010: 8 bytes in four cycles, or the wait among the expander's readers. -/
theorem execSys_drbg (u : SeatRef) (rd : Fin 32) (s : State) : execSys u rd 0x10 s = runTe u s fun s t =>
    match s.takeRandom u.cluster with
    | some (v, s1) => .next s1 (t.plain.setReg rd v) 4
    | .none => .wait ((s.setExpander u.cluster { s.expander u.cluster with
        waiting := (s.expander u.cluster).waiting ++ [.seat u] }).seedExpander u.cluster) { t.plain with phase := .drbgWait rd } 0 := rfl

/-- A SYS that finds no output leaves its seat waiting among the expander's readers, at no cost. -/
theorem completes_sys_stalled {s : State} {u : SeatRef} {rd : Fin 32} (h : Runs s u) (hnone : s.takeRandom u.cluster = .none) :
    Completes (.sys u rd 0x10) s fun t => t =
      ((s.setExpander u.cluster { s.expander u.cluster with waiting := (s.expander u.cluster).waiting ++ [.seat u] }).seedExpander
        u.cluster).setSeat u { (s.seat u).plain with phase := .drbgWait rd } :=
  completes_te_wait h (exec_sys.trans (execSys_drbg u rd s)) (by rw [hnone])

/-- Settles O9: the table's values, the milepost by whether the other half came just before, index 0x0010 by what the expander gives. -/
theorem systemValues : Obligations.SystemValues := by
  unfold Obligations.SystemValues
  intro s u rd h x gives
  refine ⟨completes_sysValue h (by decide) rfl, completes_sysValue h (by decide) rfl, completes_sysValue h (by decide) rfl,
    completes_sysValue h (by decide) rfl, completes_sysValue h (by decide) rfl, fun hnone => ?highFirst, fun hnone => ?lowFirst,
    fun a b c hsome => ?highSecond, fun a b c hsome => ?lowSecond, completes_sysValue h (by decide) rfl, completes_sysValue h (by decide) rfl,
    completes_sysValue h (by decide) rfl, fun hlen hkat hheld => ?taken, fun hstall => ?stalled, fun i hlo hi => ?undefined⟩
  case highFirst =>
    exact completes_sys_high h (by rw [readMilepost_fresh hnone, Seat.keepSample_fresh hnone]) (by rw [readMilepost_fresh hnone]) rfl rfl
  case lowFirst =>
    exact completes_sys_low h (by rw [readMilepost_fresh hnone, Seat.keepSample_fresh hnone]) (by rw [readMilepost_fresh hnone]) rfl rfl
  case highSecond =>
    exact completes_sys_high h (Seat.keepSample_of_other hsome _) (by rw [readMilepost_of_other hsome]) rfl rfl
  case lowSecond =>
    exact completes_sys_low h (Seat.keepSample_of_other hsome _) (by rw [readMilepost_of_other hsome]) rfl rfl
  case taken =>
    have htake := s.takeRandom_eq u.cluster
    rw [if_neg (by simp only [not_or, Bool.not_eq_true]; exact ⟨by omega, hkat, hheld⟩)] at htake
    exact completes_sys_onward h (exec_sys.trans (execSys_drbg u rd s)) (by rw [htake]) rfl rfl
  case stalled =>
    refine (completes_sys_stalled h ((s.takeRandom_eq _).trans (if_pos hstall))).mono ?_
    rintro t rfl
    rw [State.seat_setSeat, State.expander_setSeat, (State.expander_seedExpander _ _).1, (State.expander_seedExpander _ _).2,
      State.expander_setExpander]
    refine ⟨rfl, rfl, rfl, fun hseed => State.mem_draws_seedExpander ?_⟩
    rw [State.expander_setExpander]
    exact hseed
  case undefined =>
    exact completes_sys_undefined h hlo fun h10 => hi (BitVec.eq_of_toNat_eq h10)

end Sys2Proof.Machine
end

section
/-! PROOFS. The cipher instructions (R56-R58, R130-R143): each instruction's checks in turn, then the data step of each mode. -/

namespace Sys2Proof.Machine

/-! ## Instructions of Except form -/

/-- A check that passes. -/
theorem need_of {c : Bool} {code : Byte} (h : c = true) : need c code = .ok () := if_pos h

/-- A check that fails raises its code. -/
theorem need_error {c : Bool} {code : Byte} (h : c = false) : need c code = .error code := if_neg (by simp [h])

/-- What follows a check or a read that passes. -/
theorem ok_bind {α β : Type} (a : α) (f : α → Except Byte β) : (Except.ok a >>= f) = f a := rfl

/-- A failed check or read is the answer. -/
theorem error_bind {α β : Type} (code : Byte) (f : α → Except Byte β) : (Except.error code >>= f) = .error code := rfl

section
variable {c : Instr} {s s1 : State} {u : SeatRef} {x y : Seat} {cost : Nat} {code : Byte}

/-- An instruction of Except form in a seat `x` whose effect is known goes on. -/
theorem completes_ex_at {f : State → Seat → Except Byte (State × Seat × Nat)} (h : Runs s u) (he : exec c s = runEx u s f)
    (hx : (s.seat u).plain = x) (hf : f s x = .ok (s1, y, cost)) (hphase : y.phase = x.phase) (hpc : y.pc = x.pc) :
    Completes c s (Ran u s1 y (x.pc + 4) cost) := by
  subst hx
  exact completes_ex_onward h he hf hphase hpc

/-- An instruction of Except form in a seat `x` whose check fails raises the code. -/
theorem completes_ex_error_at {f : State → Seat → Except Byte (State × Seat × Nat)} (h : Runs s u) (he : exec c s = runEx u s f)
    (hx : (s.seat u).plain = x) (hf : f s x = .error code) : Completes c s fun t => t = s.raise u code := by
  subst hx
  exact completes_ex_error h he hf

end

/-- An open context of a listed mode. -/
theorem Seat.cipher_of {x : Seat} {c : CipherCtx} {ms : List Nat} (hc : x.cctx = some c) (hm : c.mode.toNat ∈ ms) :
    x.cipher ms = .ok c := by
  simp only [Seat.cipher, hc]
  exact if_pos (List.contains_iff_mem.mpr hm)

/-! ## The instructions -/

section
variable {s : State} {u : SeatRef} {x : Seat} {bx by_ k : Fin 8} {g : Fin 32} {m : BitVec 6} {q : Slot} {c : CipherCtx} {a : Nat}
  (h : Runs s u) (hx : (s.seat u).plain = x)
include h hx

theorem completes_cInit (hn : m.toNat ≤ 9) (hodd : ¬(m.toNat = 8 ∧ k.val % 2 = 1))
    (hkey : s.useKey x k (some eTeCipher) (if m.toNat = 6 ∨ m.toNat = 7 then [uMacGen, uMacVerify] else []) = .ok q)
    (htdes : s.tdesForbidden x q = false) (haccepts : modeAccepts m.toNat q.key = true)
    (hopen : s.openCipher x m.toNat k q (x.blk by_) = .ok c) :
    Completes (.cInit u by_ k m) s
      (Ran u s { x with cctx := some c } (x.pc + 4) (4 + if m.toNat = 7 ∨ m.toNat = 8 then q.key.rounds else 0)) := by
  refine completes_ex_at h exec_cInit hx ?_ rfl rfl
  have hmode : (decide (m.toNat ≤ 9) && !(m.toNat == 8 && k.val % 2 == 1)) = true := by
    rw [decide_eq_true hn, Bool.true_and, Bool.not_eq_true', ← Bool.not_eq_true, Bool.and_eq_true, beq_iff_eq, beq_iff_eq]
    exact hodd
  simp only [need_of hmode, ok_bind, hkey, htdes, Bool.not_false, need_of, haccepts, hopen]
  rfl

/-- C.ENC and C.DEC put their block and step the context. -/
theorem completes_cipherStep {i : Instr} {dec : Bool} (he : exec i s = cipherStep u bx by_ m dec s) (hc : x.cctx = some c)
    (hm : c.mode.toNat ∈ [0, 1, 2, 3, 4, 5, 8]) (htakes : c.takes m = true)
    (hkey : s.useKey x c.slot (some eTeCipher) (x.dataBits dec) = .ok q) :
    Completes i s (Ran u s
      { x.setBlk bx (c.data q.key.material dec (c.width m) (m != 0) (keepHigh (c.width m) (x.blk by_))).1 with
        cctx := some (c.data q.key.material dec (c.width m) (m != 0) (keepHigh (c.width m) (x.blk by_))).2 } (x.pc + 4)
      (q.key.rounds + 1)) := by
  refine completes_ex_at h he hx ?_ rfl rfl
  simp only [Seat.cipher_of hc hm, ok_bind, need_of htakes, hkey]
  rfl

theorem completes_cAad (hc : x.cctx = some c) (hm : c.mode = 5 ∨ c.mode = 6) (hopen : c.aadClosed = false) (hw : c.width m ≤ 16)
    (hkey : s.useKey x c.slot (some eTeCipher) (if c.mode = 6 then [uMacGen, uMacVerify] else []) = .ok q) :
    Completes (.cAad u by_ m) s (Ran u s
      { x with cctx := some { c with aux := ghashStep (aesEnc q.key.material 0) c.aux (keepHigh (c.width m) (x.blk by_)),
                                     ctrA := c.ctrA + BitVec.ofNat 64 (c.width m), aadClosed := m != 0 } } (x.pc + 4) 4) := by
  refine completes_ex_at h exec_cAad hx ?_ rfl rfl
  have hmode : c.mode.toNat ∈ [5, 6] := by rcases hm with hm | hm <;> rw [hm] <;> decide
  have hroom : (!c.aadClosed && decide (c.width m ≤ 16)) = true := by simp [hopen, hw]
  simp only [Seat.cipher_of hc hmode, ok_bind, need_of hroom, hkey]
  rfl

theorem completes_cMac (hc : x.cctx = some c) (hm : c.mode = 7) (hheld : c.heldPartial = false) (hw : c.width m ≤ blockLen c.tdes)
    (hkey : s.useKey x c.slot (some eTeCipher) x.macBits = .ok q) :
    Completes (.cMac u by_ m) s (Ran u s
      { x with cctx := some (c.mac q.key.material (c.width m) (m != 0) (keepHigh (c.width m) (x.blk by_))) } (x.pc + 4)
      (q.key.rounds + 1)) := by
  refine completes_ex_at h exec_cMac hx ?_ rfl rfl
  have hmode : c.mode.toNat ∈ [7] := by rw [hm]; decide
  have hroom : (!c.heldPartial && decide (c.width m ≤ blockLen c.tdes)) = true := by simp [hheld, hw]
  simp only [Seat.cipher_of hc hmode, ok_bind, need_of hroom, hkey]
  rfl

/-- C.FIN under CMAC puts the CMAC value and closes the context. -/
theorem completes_cFin_cmac (hc : x.cctx = some c) (hm : c.mode = 7)
    (hkey : s.useKey x c.slot (some eTeCipher) [uMacGen, uMacVerify] = .ok q) (hmay : x.world = .vendor ∨ q.key.may uMacGen = true) :
    Completes (.cFin u bx) s (Ran u s
      { x.setBlk bx (cmacLast c.tdes q.key.material c.chain c.aux c.held) with cctx := .none } (x.pc + 4) (q.key.rounds + 2)) := by
  refine completes_ex_at h exec_cFin hx ?_ rfl rfl
  have hmode : c.mode.toNat ∈ [5, 6, 7] := by rw [hm]; decide
  have hgen : (c.mode == 5 || x.world == .vendor || q.key.may uMacGen) = true := by rcases hmay with hw | hw <;> simp [hw]
  have hfed : (c.mode == 7 || !(c.ctrA == 0 && c.ctrB == 0)) = true := by simp [hm]
  have h5 : c.mode ≠ 5 := by rw [hm]; decide
  simp only [Seat.cipher_of hc hmode, ok_bind, need_of hfed, if_neg h5, hkey, need_of hgen, if_pos hm]
  rfl

/-- C.FIN under GCM or GMAC puts the tag and closes the context. -/
theorem completes_cFin_tag (hc : x.cctx = some c) (hm : c.mode = 5 ∨ c.mode = 6) (hfed : ¬(c.ctrA = 0 ∧ c.ctrB = 0))
    (hkey : s.useKey x c.slot (some eTeCipher) (if c.mode = 5 then [] else [uMacGen, uMacVerify]) = .ok q)
    (hmay : c.mode = 5 ∨ x.world = .vendor ∨ q.key.may uMacGen = true) :
    Completes (.cFin u bx) s (Ran u s { x.setBlk bx (c.tag q.key.material) with cctx := .none } (x.pc + 4) 8) := by
  refine completes_ex_at h exec_cFin hx ?_ rfl rfl
  have hmode : c.mode.toNat ∈ [5, 6, 7] := by rcases hm with hm | hm <;> rw [hm] <;> decide
  have h7 : c.mode ≠ 7 := by rcases hm with hm | hm <;> rw [hm] <;> decide
  have hbytes : (c.mode == 7 || !(c.ctrA == 0 && c.ctrB == 0)) = true := by
    rw [Bool.or_eq_true, Bool.not_eq_true', ← Bool.not_eq_true, Bool.and_eq_true, beq_iff_eq]
    exact .inr fun hc => hfed ⟨beq_iff_eq.mp hc.1, beq_iff_eq.mp hc.2⟩
  have hgen : (c.mode == 5 || x.world == .vendor || q.key.may uMacGen) = true := by rcases hmay with hw | hw | hw <;> simp [hw]
  simp only [Seat.cipher_of hc hmode, ok_bind, need_of hbytes, hkey, need_of hgen, if_neg h7]
  rfl

theorem completes_cSave (hc : x.cctx = some c) (hm : c.mode.toNat < 10) (hkey : s.useKey x c.slot .none [] = .ok q)
    (ha : x.scratchAt u (x.reg g) 64 16 = .ok a) : Completes (.cSave u g) s (Ran u (s.store a c.bytes) x (x.pc + 4) 8) := by
  refine completes_ex_at h exec_cSave hx ?_ rfl rfl
  simp only [Seat.cipher_of hc (List.mem_range.mpr hm), ok_bind, hkey, ha]
  rfl

theorem completes_cRest (ha : x.scratchAt u (x.reg g) 64 16 = .ok a) (hc : CipherCtx.ofBytes (s.load a 64) = some c)
    (hzero : c.unusedZero = true) (hkey : s.useKey x c.slot .none [] = .ok q) (hserial : q.serial = c.serial)
    (htype : ktypeCode q.key.attrs.ktype = c.ktype) :
    Completes (.cRest u g) s (Ran u s { x with cctx := some c.trimmed } (x.pc + 4) 8) := by
  refine completes_ex_at h exec_cRest hx ?_ rfl rfl
  have hsame : (q.serial == c.serial && ktypeCode q.key.attrs.ktype == c.ktype) = true := by simp [hserial, htype]
  simp only [ha, ok_bind, hc, need_of hzero, hkey, need_of hsame]
  rfl

/-- C.FF1E and C.FF1D replace the digits of a valid descriptor. -/
theorem completes_ff1Step {i : Instr} {dec : Bool} {p : State × Seat} (he : exec i s = ff1Step u g dec s)
    (halign : (x.reg g).toNat % 16 = 0) (hroom : (x.reg g).toNat + 0xA8 ≤ x.scratchLimit) (hc : x.cctx = some c) (hm : c.mode = 9)
    (hvalid : ff1Valid (s.load (scratchBase u + (x.reg g).toNat) 0xA8) = true)
    (hkey : s.useKey x c.slot (some eTeCipher) [uTokenise] = .ok q)
    (hp : (if dec then (s, x) else s.tokenMade u x (ff1Digits q.key.material (s.load (scratchBase u + (x.reg g).toNat) 0xA8) dec)) = p)
    (hphase : p.2.phase = x.phase) (hpc : p.2.pc = x.pc) :
    let d := s.load (scratchBase u + (x.reg g).toNat) 0xA8
    Completes i s (Ran u (p.1.store (scratchBase u + (x.reg g).toNat + 0x28) (ff1Digits q.key.material d dec)) p.2 (x.pc + 4)
      (10 * q.key.rounds * (ff1P (ff1Fields d).1 (ff1Fields d).2.1 (ff1Fields d).2.2 + 1) + 40)) := by
  refine completes_ex_at h he hx ?_ hphase hpc
  have hmode : c.mode.toNat ∈ [9] := by rw [hm]; decide
  have hplace : ((x.reg g).toNat % 16 == 0 && decide ((x.reg g).toNat + 0xA8 ≤ x.scratchLimit)) = true := by simp [halign, hroom]
  simp only [need_of hplace, ok_bind, Seat.cipher_of hc hmode, need_of hvalid, hkey, hp]
  rfl

/-- C.RAW puts one block operation. -/
theorem completes_cRaw {dec : Bool} (hm : m = if dec then 1 else 0)
    (hkey : s.useKey x k (some eTeCipher) (x.dataBits dec) = .ok q) (htype : (typeTdes q.key.attrs.ktype || typeAes q.key.attrs.ktype) = true) :
    Completes (.cRaw u bx by_ k m) s (Ran u s (x.setBlk bx
      ((if dec then cipherDec else cipherEnc) (typeTdes q.key.attrs.ktype) q.key.material
        (startValue (typeTdes q.key.attrs.ktype) (x.blk by_)))) (x.pc + 4) (q.key.rounds + 1)) := by
  refine completes_ex_at h exec_cRaw hx ?_ rfl rfl
  have hle : decide (m.toNat ≤ 1) = true := by subst hm; cases dec <;> rfl
  have hdec : decide (m = 1) = dec := by subst hm; cases dec <;> rfl
  simp only [need_of hle, ok_bind, hdec, hkey, need_of htype]
  subst hm
  cases dec <;> rfl

end

/-- What C.FF1E does for FF1.TOKENISE changes nothing of the seat but where its call stands. -/
theorem State.tokenMade_seat (s : State) (u : SeatRef) (x : Seat) (digits : Bytes) :
    (s.tokenMade u x digits).2 = { x with tok := (s.tokenMade u x digits).2.tok } := by
  unfold State.tokenMade
  split
  · split
    · split <;> rfl
    · rfl
  · rfl

/-! ## The data step of each mode (R133, R134, Table 4.2) -/

/-- A whole block is kept whole. -/
theorem keepHigh_sixteen (x : Block) : keepHigh 16 x = x := rfl

namespace CipherCtx

variable {c : CipherCtx} {key : Bytes} {dec closing : Bool} {n : Nat} {x : Block}

/-- The context after a data step, before its chaining value. -/
def stepped (c : CipherCtx) (closing : Bool) : CipherCtx := { c with dataClosed := c.dataClosed || closing }

theorem data_ecb (hm : c.mode.toNat = 0) :
    c.data key dec n closing x = (if dec then cipherDec c.tdes key x else cipherEnc c.tdes key x, c.stepped closing) := by
  unfold data; rw [hm]; rfl

theorem data_cbc_enc (hm : c.mode.toNat = 1) : c.data key false n closing x =
    (cipherEnc c.tdes key (x ^^^ c.chain), { c.stepped closing with chain := cipherEnc c.tdes key (x ^^^ c.chain) }) := by
  unfold data; rw [hm]; rfl

theorem data_cbc_dec (hm : c.mode.toNat = 1) : c.data key true n closing x =
    (keepHigh n (cipherDec c.tdes key x ^^^ c.chain), { c.stepped closing with chain := x }) := by
  unfold data; rw [hm]; rfl

theorem data_ctr (hm : c.mode.toNat = 2) : c.data key dec n closing x =
    (keepHigh n (x ^^^ cipherEnc c.tdes key c.chain),
      { c.stepped closing with chain := c.chain + (if c.tdes then 1#128 <<< 64 else 1) }) := by
  unfold data; rw [hm]; rfl

theorem data_cfb (hm : c.mode.toNat = 3) : c.data key dec n closing x =
    (keepHigh n (x ^^^ cipherEnc c.tdes key c.chain),
      { c.stepped closing with chain := if dec then x else keepHigh n (x ^^^ cipherEnc c.tdes key c.chain) }) := by
  unfold data; rw [hm]; rfl

theorem data_ofb (hm : c.mode.toNat = 4) : c.data key dec n closing x =
    (keepHigh n (x ^^^ cipherEnc c.tdes key c.chain), { c.stepped closing with chain := cipherEnc c.tdes key c.chain }) := by
  unfold data; rw [hm]; rfl

theorem data_gcm (hm : c.mode.toNat = 5) : c.data key dec n closing x =
    (keepHigh n (x ^^^ aesEnc key (inc32 c.chain)),
      { c.stepped closing with chain := inc32 c.chain, ctrB := c.ctrB + BitVec.ofNat 64 n, aadClosed := true,
                               aux := ghashStep (aesEnc key 0) c.aux (if dec then x else keepHigh n (x ^^^ aesEnc key (inc32 c.chain))) }) := by
  unfold data; rw [hm]; rfl

theorem data_xts (hm : c.mode.toNat = 8) : c.data key dec n closing x =
    ((if dec then aesDec key (x ^^^ c.chain) else aesEnc key (x ^^^ c.chain)) ^^^ c.chain,
      { c.stepped closing with chain := xtsAlpha c.chain, ctrA := c.ctrA + 1 }) := by
  unfold data; rw [hm]; rfl

end CipherCtx

/-- Settles O12: each instruction by its checks in the model's order; each mode's step by its equation. -/
theorem cipherInstructions : Obligations.CipherInstructions := by
  unfold Obligations.CipherInstructions
  refine ⟨fun s u bx by_ k g m q c a h => ?_, fun c key x => ⟨fun htdes hm => ?cbcTdes, fun haes hx => ?aes⟩⟩
  · intro x n w onward
    refine ⟨completes_cInit h rfl, completes_cipherStep h rfl exec_cEnc, completes_cipherStep h rfl exec_cDec, completes_cAad h rfl,
      completes_cMac h rfl, completes_cFin_cmac h rfl, completes_cFin_tag h rfl, completes_cSave h rfl, completes_cRest h rfl,
      fun halign hroom hc hm hvalid hkey => ⟨?ff1e, ?ff1d⟩, completes_cRaw h rfl (dec := false) rfl, completes_cRaw h rfl (dec := true) rfl,
      fun hm => ?illegal⟩
    case ff1e =>
      have hseat := s.tokenMade_seat u x (ff1Digits q.key.material (s.load (scratchBase u + (x.reg g).toNat) 0xA8) false)
      exact completes_ff1Step h rfl exec_cFf1e halign hroom hc hm hvalid hkey rfl (by rw [hseat]) (by rw [hseat])
    case ff1d =>
      exact completes_ff1Step h rfl exec_cFf1d halign hroom hc hm hvalid hkey rfl rfl rfl
    case illegal =>
      exact completes_ex_error_at h exec_cRaw rfl (by rw [need_error (decide_eq_false (by omega))]; rfl)
  case cbcTdes =>
    have hm := congrArg BitVec.toNat hm
    simp only [CipherCtx.data_cbc_enc hm, CipherCtx.data_cbc_dec hm, htdes, and_self]
  case aes =>
    have henc : ∀ v, cipherEnc c.tdes key v = aesEnc key v := fun v => by rw [haes]; rfl
    have hdec : ∀ v, cipherDec c.tdes key v = aesDec key v := fun v => by rw [haes]; rfl
    refine ⟨fun hm => ?_, fun hm => ?_, fun hm => ?_, fun hm => ?_, fun hm => ?_, fun hm => ?_, fun hm => ?_⟩ <;>
      replace hm := congrArg BitVec.toNat hm
    · simp [CipherCtx.data_ecb hm, henc, hdec]
    · simp [CipherCtx.data_cbc_enc hm, CipherCtx.data_cbc_dec hm, henc, hdec, keepHigh_sixteen]
    · simp only [CipherCtx.data_ctr hm, henc]
      simp [haes]
    · simp [CipherCtx.data_cfb hm, henc]
    · simp [CipherCtx.data_ofb hm, henc]
    · simp [CipherCtx.data_gcm hm]
    · simp [CipherCtx.data_xts hm]

end Sys2Proof.Machine
end

section
/-! PROOFS. The digest instructions (R59-R61, R152-R156), block products and comparisons (R62), and the slots' K.CLR and K.ATTR (R63). -/

namespace Sys2Proof.Machine

/-! ## The open context -/

section
variable {x : Seat} {c : DigestCtx} {d : Bytes}

/-- A context whose digest is not finished. -/
theorem Seat.digesting_of (hc : x.dctx = some c) (hd : c.digest = .none) : x.digesting = .ok c := by
  simp [Seat.digesting, hc, hd]

/-- A finished digest takes no more bytes and is not saved. -/
theorem Seat.digesting_of_finished (hc : x.dctx = some c) (hd : c.digest = some d) : x.digesting = .error 0x0D := by
  simp [Seat.digesting, hc, hd]

/-- A finished digest not yet compared. -/
theorem Seat.digested_of (hc : x.dctx = some c) (hd : c.digest = some d) (hcmp : c.compared = false) : x.digested = .ok (c, d) := by
  simp [Seat.digested, hc, hd, hcmp]

/-- A digest not finished cannot be read. -/
theorem Seat.digested_of_unfinished (hc : x.dctx = some c) (hd : c.digest = .none) : x.digested = .error 0x0D := by
  simp [Seat.digested, hc, hd]

/-- Once a digest has been compared, it cannot be read (R61). -/
theorem Seat.digested_of_compared (hc : x.dctx = some c) (hd : c.digest = some d) (hcmp : c.compared = true) :
    x.digested = .error 0x0D := by
  simp [Seat.digested, hc, hd, hcmp]

end

/-! ## The digest instructions -/

section
variable {s : State} {u : SeatRef} {x : Seat} {bx k : Fin 8} {g : Fin 32} {m : BitVec 6} {q : Slot} {c : DigestCtx} {d : Bytes} {a : Nat}
  (h : Runs s u) (hx : (s.seat u).plain = x)
include h hx

theorem completes_dInit (hlo : 1 ≤ m.toNat) (hhi : m.toNat ≤ 7) (hlen : (x.reg g).toNat < 2 ^ 61) :
    Completes (.dInit u 0 g m) s (Ran u s
      { x with dctx := some (DigestCtx.opened m.toNat (x.reg g) (x.world == .vendor)), trunc := false } (x.pc + 4) 4) := by
  refine completes_ex_at h exec_dInit hx ?_ rfl rfl
  have halg : m.toNat % 32 = m.toNat := Nat.mod_eq_of_lt (by omega)
  have hplain : m.getLsbD 5 = false := by
    rw [BitVec.getLsbD, Nat.testBit_eq_decide_div_mod_eq]
    exact decide_eq_false (by omega)
  have hlegal : (decide (1 ≤ m.toNat) && decide (m.toNat ≤ 7) && (false || (0 : Fin 8) == 0)) = true := by simp [hlo, hhi]
  simp only [halg, hplain, need_of hlegal, ok_bind, need_of (decide_eq_true hlen)]
  rfl

/-- An HMAC context takes its key when it opens (R154). -/
theorem completes_dInit_hmac (hlo : 33 ≤ m.toNat) (hhi : m.toNat ≤ 39) (hlen : (x.reg g).toNat < 2 ^ 61) (hkey : s.hmacKey x k = .ok q) :
    Completes (.dInit u k g m) s
      (let n := m.toNat - 32
       let o := DigestCtx.opened n (x.reg g) (x.world == .vendor)
       Ran u s { x with dctx := some { o with hmac := true, slot := k, serial := q.serial,
                                              st := (digestFeed n o.st 0 (hmacPad n q.key.material 0x36)).1 },
                        trunc := false } (x.pc + 4) (4 + algCost n)) := by
  refine completes_ex_at h exec_dInit hx ?_ rfl rfl
  have halg : m.toNat % 32 = m.toNat - 32 := by omega
  have hmac : m.getLsbD 5 = true := by
    rw [BitVec.getLsbD, Nat.testBit_eq_decide_div_mod_eq]
    exact decide_eq_true (by omega)
  have hlegal : (decide (1 ≤ m.toNat - 32) && decide (m.toNat - 32 ≤ 7) && (true || k == 0)) = true := by
    simp [show 1 ≤ m.toNat - 32 by omega, show m.toNat ≤ 7 + 32 by omega]
  simp only [halg, hmac, need_of hlegal, ok_bind, hkey, need_of (decide_eq_true hlen), if_true]
  rfl

theorem completes_dAbs (hc : x.dctx = some c) (hd : c.digest = .none) :
    Completes (.dAbs u bx) s
      (let r := c.absorb (blockBytes (x.blk bx))
       Ran u s { x with dctx := some r.1, trunc := x.trunc || r.2.2 } (x.pc + 4) (1 + r.2.1 * algCost c.alg.toNat)) := by
  refine completes_ex_at h exec_dAbs hx ?_ rfl rfl
  simp only [Seat.digesting_of hc hd, ok_bind]
  rfl

theorem completes_dLast (hc : x.dctx = some c) (hd : c.digest = .none) (hmac : c.hmac = false) (hlo : 1 ≤ m.toNat) (hhi : m.toNat ≤ 8)
    (hfull : (c.absorb ((natBE 8 (x.reg g).toNat).take m.toNat)).1.count = (c.absorb ((natBE 8 (x.reg g).toNat).take m.toNat)).1.len) :
    Completes (.dLast u g m) s
      (let r := c.absorb ((natBE 8 (x.reg g).toNat).take m.toNat)
       let f := digestFinish r.1.alg.toNat r.1.st r.1.count.toNat
       Ran u s { x with dctx := some { r.1 with digest := some f.1 }, trunc := x.trunc || r.2.2 } (x.pc + 4)
        (1 + (r.2.1 + f.2) * algCost r.1.alg.toNat)) := by
  refine completes_ex_at h exec_dLast hx ?_ rfl rfl
  have hlegal : (decide (1 ≤ m.toNat) && decide (m.toNat ≤ 8)) = true := by simp [hlo, hhi]
  have hmac' : (c.absorb ((natBE 8 (x.reg g).toNat).take m.toNat)).1.hmac = false := hmac
  simp only [need_of hlegal, ok_bind, Seat.digesting_of hc hd, need_of (beq_iff_eq.mpr hfull), hmac']
  rfl

/-- An HMAC context takes its key again when it finishes (R154). -/
theorem completes_dLast_hmac (hc : x.dctx = some c) (hd : c.digest = .none) (hmac : c.hmac = true) (hlo : 1 ≤ m.toNat) (hhi : m.toNat ≤ 8)
    (hkey : s.hmacKey x c.slot = .ok q)
    (hfull : (c.absorb ((natBE 8 (x.reg g).toNat).take m.toNat)).1.count = (c.absorb ((natBE 8 (x.reg g).toNat).take m.toNat)).1.len) :
    Completes (.dLast u g m) s
      (let r := c.absorb ((natBE 8 (x.reg g).toNat).take m.toNat)
       let n := r.1.alg.toNat
       let f := digestFinish n r.1.st (r.1.count.toNat + algBlock n)
       Ran u s { x with dctx := some { r.1 with digest := some (hash n (hmacPad n q.key.material 0x5C ++ f.1)) }, trunc := x.trunc || r.2.2 }
        (x.pc + 4) (1 + (r.2.1 + f.2 + 2) * algCost n)) := by
  refine completes_ex_at h exec_dLast hx ?_ rfl rfl
  have hlegal : (decide (1 ≤ m.toNat) && decide (m.toNat ≤ 8)) = true := by simp [hlo, hhi]
  have hmac' : (c.absorb ((natBE 8 (x.reg g).toNat).take m.toNat)).1.hmac = true := hmac
  have hkey' : ∀ b, s.hmacKey { x with trunc := b } (c.absorb ((natBE 8 (x.reg g).toNat).take m.toNat)).1.slot = .ok q := fun _ => hkey
  simp only [need_of hlegal, ok_bind, Seat.digesting_of hc hd, need_of (beq_iff_eq.mpr hfull), hmac', if_true, hkey']
  rfl

/-- D.OUT puts a block of the digest. -/
theorem completes_dOut (hc : x.dctx = some c) (hd : c.digest = some d) (hcmp : c.compared = false)
    (hmay : (c.hmac && (x.slot c.slot).any fun k => k.key.may uMacVerify && !k.key.may uMacGen) = false) (hm : m.toNat ≤ 3)
    (hpiece : 16 * m.toNat < d.length) :
    Completes (.dOut u bx m) s (Ran u s (x.setBlk bx (toBlock (slice d (16 * m.toNat) 16))) (x.pc + 4) 2) := by
  refine completes_ex_at h exec_dOut hx ?_ rfl rfl
  simp only [need_of (decide_eq_true hm), ok_bind, Seat.digested_of hc hd hcmp, need_of (decide_eq_true hpiece), hmay, Bool.not_false,
    need_of]
  rfl

/-- D.OUT releases no digest of a key that may only verify (R61). -/
theorem completes_dOut_verifyOnly (hc : x.dctx = some c) (hd : c.digest = some d) (hcmp : c.compared = false)
    (hverify : (c.hmac && (x.slot c.slot).any fun k => k.key.may uMacVerify && !k.key.may uMacGen) = true) (hm : m.toNat ≤ 3)
    (hpiece : 16 * m.toNat < d.length) : Completes (.dOut u bx m) s fun t => t = s.raise u 0x0A := by
  refine completes_ex_error_at h exec_dOut hx ?_
  simp only [need_of (decide_eq_true hm), ok_bind, Seat.digested_of hc hd hcmp, need_of (decide_eq_true hpiece), hverify, Bool.not_true,
    need_error, error_bind]

/-- A digest that is not finished, or was compared, cannot be read. -/
theorem completes_dOut_error (hd : x.digested = .error 0x0D) (hm : m.toNat ≤ 3) :
    Completes (.dOut u bx m) s fun t => t = s.raise u 0x0D := by
  refine completes_ex_error_at h exec_dOut hx ?_
  simp only [need_of (decide_eq_true hm), ok_bind, hd, error_bind]

/-- D.CMP compares the leading `n` bytes, once. -/
theorem completes_dCmp {n : Nat} (hc : x.dctx = some c) (hd : c.digest = some d) (hcmp : c.compared = false)
    {e : Bytes} (hn : (if m = 0 then d.length else m.toNat) = n) (he : d.take n = e) (hm : m = 0 ∨ 8 ≤ n ∧ n ≤ d.length)
    (ha : x.scratchAt u (x.reg g) n 1 = .ok a) :
    Completes (.dCmp u g m) s (Ran u s
      { x.setReg g (if s.load a n = e then 0 else 1) with dctx := some { c with compared := true } } (x.pc + 4) 6) := by
  subst he
  refine completes_ex_at h exec_dCmp hx ?_ (by simp) (by simp)
  have hlegal : (m == 0 || (decide (8 ≤ n) && decide (n ≤ d.length))) = true := by simpa using hm
  simp only [Seat.digested_of hc hd hcmp, ok_bind, hn, need_of hlegal, ha, beq_iff_eq]
  rfl

theorem completes_dCmp_error (hd : x.digested = .error 0x0D) : Completes (.dCmp u g m) s fun t => t = s.raise u 0x0D := by
  refine completes_ex_error_at h exec_dCmp hx ?_
  simp only [hd, error_bind]

/-- D.CMP of fewer than 8 bytes or more than the digest has raises CONTEXT. -/
theorem completes_dCmp_length (hc : x.dctx = some c) (hd : c.digest = some d) (hcmp : c.compared = false) (hm : m ≠ 0)
    (hlen : m.toNat < 8 ∨ d.length < m.toNat) : Completes (.dCmp u g m) s fun t => t = s.raise u 0x0D := by
  refine completes_ex_error_at h exec_dCmp hx ?_
  have hillegal : (m == 0 || (decide (8 ≤ m.toNat) && decide (m.toNat ≤ d.length))) = false := by
    rw [Bool.or_eq_false_iff, Bool.and_eq_false_iff, decide_eq_false_iff_not, decide_eq_false_iff_not]
    exact ⟨beq_eq_false_iff_ne.mpr hm, by omega⟩
  simp only [Seat.digested_of hc hd hcmp, ok_bind, if_neg hm, need_error hillegal, error_bind]

/-- D.SAVE stores the 256 bytes of Table 4.5; of an HMAC context in the vendor world alone. -/
theorem completes_dSave (hc : x.dctx = some c) (hd : c.digest = .none) (ha : x.scratchAt u (x.reg g) 256 16 = .ok a)
    (hkey : c.hmac = false ∨ x.world = .vendor ∧ s.useKey x c.slot .none [] = .ok q) :
    Completes (.dSave u g) s (Ran u (s.store a (c.bytes x.trunc)) x (x.pc + 4) 32) := by
  refine completes_ex_at h exec_dSave hx ?_ rfl rfl
  have hworld : (!(c.hmac && x.world == .tenant)) = true := by rcases hkey with hk | ⟨hk, _⟩ <;> simp [hk]
  simp only [Seat.digesting_of hc hd, ok_bind, need_of hworld]
  split
  · next hmac =>
    obtain ⟨_, hk⟩ := hkey.resolve_left (by simp [hmac])
    simp only [hk, ok_bind, ha]
    rfl
  · simp only [ok_bind, ha]
    rfl

theorem completes_dSave_finished (hc : x.dctx = some c) (hd : c.digest = some d) :
    Completes (.dSave u g) s fun t => t = s.raise u 0x0D := by
  refine completes_ex_error_at h exec_dSave hx ?_
  simp only [Seat.digesting_of_finished hc hd, error_bind]

theorem completes_dSave_tenant (hc : x.dctx = some c) (hd : c.digest = .none) (hmac : c.hmac = true) (hw : x.world = .tenant) :
    Completes (.dSave u g) s fun t => t = s.raise u 0x0A := by
  refine completes_ex_error_at h exec_dSave hx ?_
  have hworld : (!(c.hmac && x.world == .tenant)) = false := by simp [hmac, hw]
  simp only [Seat.digesting_of hc hd, ok_bind, need_error hworld, error_bind]

theorem completes_dRest {tr : Bool} (ha : x.scratchAt u (x.reg g) 256 16 = .ok a)
    (hc : DigestCtx.ofBytes (s.load a 256) (x.world == .vendor) = some (c, tr))
    (hkey : c.hmac = false ∨ s.useKey x c.slot .none [] = .ok q ∧ q.serial = c.serial) :
    Completes (.dRest u g) s (Ran u s { x with dctx := some c, trunc := tr } (x.pc + 4) 32) := by
  refine completes_ex_at h exec_dRest hx ?_ rfl rfl
  simp only [ha, ok_bind, hc]
  split
  · next hmac =>
    obtain ⟨hk, hserial⟩ := hkey.resolve_left (by simp [hmac])
    simp only [hk, ok_bind, need_of (beq_iff_eq.mpr hserial)]
    rfl
  · rfl

/-! ## Block products, comparisons and slots -/

theorem completes_kAttr (hkey : s.useKey x k .none [] = .ok q) :
    Completes (.kAttr u k g) s (Ran u s (x.setReg g (q.key.attrs.word q.libOnly)) (x.pc + 4) 1) := by
  refine completes_ex_at h exec_kAttr hx ?_ (by simp) (by simp)
  simp only [hkey, ok_bind]
  rfl

end

/-- An empty slot raises KEY_EMPTY (R56). -/
theorem State.useKey_empty {s : State} {x : Seat} {k : Fin 8} {eng : Option Nat} {us : List Nat} (hk : x.slot k = .none) : s.useKey x k eng us = .error 0x09 := by
  simp [State.useKey, hk]

/-- An emptied slot is empty, and no other slot changes. -/
theorem Seat.slot_emptySlot (x : Seat) (i j : Fin 8) : (x.emptySlot i).slot j = if j = i then .none else x.slot j := by
  unfold Seat.slot Seat.emptySlot Seat.setSlot
  by_cases hj : j = i
  · subst hj; simp
  · have hne : i.val ≠ j.val := fun e => hj (Fin.ext e.symm)
    simp [hj, Vector.getElem_set_ne _ _ hne]

/-- No context stays open on an emptied slot (R127). -/
theorem Seat.cctx_emptySlot {x : Seat} {i : Fin 8} {c : CipherCtx} (hc : (x.emptySlot i).cctx = some c) : x.cctx = some c ∧ c.slot ≠ i := by
  simpa [Seat.emptySlot, Option.filter_eq_some_iff] using hc

/-- Settles O13: each instruction by its checks in the model's order; what may not be read by the context's own checks. -/
theorem digestInstructions : Obligations.DigestInstructions := by
  unfold Obligations.DigestInstructions
  refine ⟨fun s u bx g k m c d tr a q h => ?_, fun s u bx by_ k g m q h => ?_⟩
  · intro x onward
    refine ⟨completes_dInit h rfl, completes_dInit_hmac h rfl, completes_dAbs h rfl, completes_dLast h rfl, completes_dLast_hmac h rfl,
      fun hc hd hcmp hmac hk hm hpiece => ?outHmac, fun hc hd hcmp hmac hm hpiece => ?out, fun hc hd hcmp ha => ?cmpWhole,
      fun hc hd hcmp hlo hhi ha => ?cmp, completes_dCmp_length h rfl, completes_dSave h rfl, completes_dSave_tenant h rfl,
      completes_dRest h rfl, fun hc hd => completes_dOut_error h rfl (Seat.digested_of_unfinished hc hd),
      fun hc hd hcmp => completes_dOut_error h rfl (Seat.digested_of_compared hc hd hcmp),
      fun hc hd hcmp => ⟨completes_dCmp_error h rfl (Seat.digested_of_compared hc hd hcmp), completes_dSave_finished h rfl hc hd⟩⟩
    case outHmac =>
      have hflag : (c.hmac && (x.slot c.slot).any fun k => k.key.may uMacVerify && !k.key.may uMacGen) =
          (q.key.may uMacVerify && !q.key.may uMacGen) := by simp only [hmac, hk, Option.any_some, Bool.true_and]
      by_cases hverify : q.key.may uMacVerify = true ∧ q.key.may uMacGen = false
      · simp only [if_pos hverify]
        exact completes_dOut_verifyOnly h rfl hc hd hcmp (hflag.trans (by simpa using hverify)) hm hpiece
      · simp only [if_neg hverify]
        exact completes_dOut h rfl hc hd hcmp (hflag.trans (by simpa using hverify)) hm hpiece
    case out =>
      exact completes_dOut h rfl hc hd hcmp (by simp [hmac]) hm hpiece
    case cmpWhole =>
      exact completes_dCmp h rfl hc hd hcmp (if_pos rfl) List.take_length (.inl rfl) ha
    case cmp =>
      have hm : m ≠ 0 := by rintro rfl; exact absurd hlo (by decide)
      exact completes_dCmp h rfl hc hd hcmp (if_neg hm) rfl (.inr ⟨hlo, hhi⟩) ha
  · intro x
    refine ⟨completes_onward h exec_gfm rfl rfl rfl, fun hm => ?_, fun hm => completes_exc h exec_cmpct (if_pos hm), ?_,
      completes_kAttr h rfl, fun hk => ?_⟩
    · exact completes_setReg h exec_cmpct (if_neg (by omega))
    · refine (completes_onward h exec_kClr rfl rfl rfl).mono fun t ht => ?_
      refine ⟨ht, ?_, fun j hj => ?_, fun c hc => ?_⟩
      · rw [ht.slot, Seat.slot_emptySlot, if_pos rfl]
      · rw [ht.slot, Seat.slot_emptySlot, if_neg hj]
      · rw [ht.cctx] at hc
        exact (Seat.cctx_emptySlot hc).2
    · exact completes_ex_error_at h exec_kAttr rfl (by rw [State.useKey_empty hk]; rfl)

end Sys2Proof.Machine
end

section
/-! PROOFS. The milestones an itinerary writes (R68, R254, R259). -/

namespace Sys2Proof.Machine

section
variable {u : SeatRef} {s s1 t : State} {x : Seat} {dest : BitVec 32} {cost : Nat}

/-- Outside the seats an instruction's effect is the state it answers. -/
theorem Ran.state_eq (h : Ran u s1 x dest cost t) : t = { s1 with seats := t.seats, freeCtr := t.freeCtr } := h.1

theorem Ran.journal (h : Ran u s1 x dest cost t) : t.journal = s1.journal := by rw [h.state_eq]
theorem Ran.mem (h : Ran u s1 x dest cost t) : t.mem = s1.mem := by rw [h.state_eq]
theorem Ran.intent (h : Ran u s1 x dest cost t) : (t.seat u).intent = x.intent := by rw [h.seat_eq]
theorem Ran.lastStep (h : Ran u s1 x dest cost t) : (t.seat u).lastStep = x.lastStep := by rw [h.seat_eq]

/-- In the vendor world a vendor-only instruction runs as any other (R65). -/
theorem runVendor_eq_runPlain (h : Runs s u) (hw : (s.seat u).world = .vendor) (f : State → Seat → TeRes) :
    runVendor u s f = runPlain u s f := by
  rw [runVendor_of_runs h hw, runPlain_of_runs h]

/-- In the tenant world a vendor-only instruction raises WORLD (R65). -/
theorem completes_vendor_tenant {c : Instr} {f : State → Seat → TeRes} (h : Runs s u) (he : exec c s = runVendor u s f)
    (hw : (s.seat u).world = .tenant) : Completes c s fun t => t = s.raise u 0x06 :=
  completes_exc h he (if_neg (by rw [Seat.plain_world, hw]; exact fun hne => nomatch hne))

end

/-- The seat with its intent register open (R254). -/
def Seat.intending (x : Seat) (kind : BitVec 11) (obj version : Word) : Seat :=
  { x with phase := .running, intent := some { kind := kind, obj := obj, before := version, issued := false, left := version } }

/-- Opening an intent anchors its INTENT and goes on. -/
theorem State.openIntent_eq (s : State) (u : SeatRef) (x : Seat) (kind : BitVec 11) (obj version : Word) :
    s.openIntent u x kind obj version =
      .next (s.drawn.anchor (s.mile x.desc 4 true true kind 0 obj (BitVec.ofNat 32 version.toNat))) (x.intending kind obj version)
        (20 + s.waitCost u.cluster 1500) := rfl

/-- An instruction other than SYS that waits at no cost leaves its seat waiting. -/
theorem completes_wait {c : Instr} {s s1 : State} {u : SeatRef} {x : Seat} {f : State → Seat → TeRes} (h : Runs s u)
    (he : exec c s = runPlain u s f) (hf : f s (s.seat u).plain = .wait s1 x 0) : Completes c s fun t => t = s1.setSeat u x :=
  completes_te_wait h he hf

/-- Settles O18: MILE.P as a step's record; MILE.I by the intent register and the anchor log's room; MILE.C by the open intent. -/
theorem milestoneInstructions : Obligations.MilestoneInstructions := by
  unfold Obligations.MilestoneInstructions
  intro s u ga gb n h x rec_
  refine ⟨?mileP, fun hw hnone => ?mileI, fun hw hopen => ?mileC, fun hw hother => ?mileC_other⟩
  case mileP =>
    refine (completes_onward h exec_mileP rfl rfl rfl).mono fun t ht => ?_
    exact ⟨ht.journal, ht.lastStep, ht.pc⟩
  case mileI =>
    have he := (exec_mileI (ga := ga) (gb := gb) (kind := n)).trans (runVendor_eq_runPlain h hw _)
    have hfree : ¬ (s.seat u).plain.intent.isSome = true := by
      rw [show (s.seat u).plain.intent = .none from hnone]
      exact Bool.false_ne_true
    by_cases hroom : s.journal.intentRoom = true
    · simp only [if_pos hroom]
      refine (completes_onward (x := x.intending n (x.reg ga) (x.reg gb)) h he
        (by rw [if_neg hfree, if_pos hroom, State.openIntent_eq]) h.2.1.symm rfl).mono fun t ht => ?_
      exact ⟨ht.journal, ht.intent⟩
    · simp only [if_neg hroom]
      refine (completes_wait h he (by rw [if_neg hfree, if_neg hroom])).mono ?_
      rintro t rfl
      exact ⟨by rw [State.seat_setSeat], rfl⟩
  case mileC =>
    have he := (exec_mileC (ga := ga) (gb := gb) (kind := n)).trans (runVendor_eq_runPlain h hw _)
    refine (completes_onward h he (if_pos hopen) rfl rfl).mono fun t ht => ?_
    exact ⟨ht.journal, ht.intent⟩
  case mileC_other =>
    have he := (exec_mileC (ga := ga) (gb := gb) (kind := n)).trans (runVendor_eq_runPlain h hw _)
    exact completes_exc h he (if_neg (by rw [hother]; exact Bool.false_ne_true))

end Sys2Proof.Machine
end

section
/-! PROOFS. VGET and VPUT (R69-R71): the checks of the scratch page and of the intent, then the submission. -/

namespace Sys2Proof.Machine

/-- What a seat that submits a vault operation waits for. -/
def vaultWaitFor (x : Seat) (isPut : Bool) (ga gb st : Fin 32) : VaultWait :=
  { isPut := isPut, ga := ga, st := st, addr := (x.reg gb).toNat, rel := x.reg ga, abs := 0, reply := .none }

section
variable {s : State} {u : SeatRef} {ga gb st : Fin 32} {isPut : Bool} {i : Instr}
  (h : Runs s u) (hw : (s.seat u).world = .vendor) (he : exec i s = vaultInstr isPut u ga gb st s)
include h hw he

/-- A page of scratch that is not aligned raises MISALIGN, before any other check (log entry 54). -/
theorem completes_vault_misaligned (halign : ((s.seat u).plain.reg gb).toNat % 4096 ≠ 0) : Completes i s fun t => t = s.raise u 0x03 :=
  completes_exc h (he.trans (runVendor_eq_runPlain h hw _)) (if_pos halign)

/-- A VPUT of another object than the open intent's raises INTENT (R69). -/
theorem completes_vault_intent (halign : ((s.seat u).plain.reg gb).toNat % 4096 = 0) (hroom : ((s.seat u).plain.reg gb).toNat + 4096 ≤ 0x3C00)
    (hintent : isPut = true ∧ (!(s.seat u).plain.intends 1 ((s.seat u).plain.reg ga)) = true) :
    Completes i s fun t => t = s.raise u 0x0E :=
  completes_exc h (he.trans (runVendor_eq_runPlain h hw _))
    (by rw [if_neg (not_not.mpr halign), if_neg (Nat.not_lt.mpr hroom), if_pos hintent])

/-- A vault instruction whose checks pass submits its operation, of a put with the page and the intent's call issued, and its seat waits. -/
theorem completes_vault {y : Seat} {plain : Bytes} (halign : ((s.seat u).plain.reg gb).toNat % 4096 = 0)
    (hroom : ((s.seat u).plain.reg gb).toNat + 4096 ≤ 0x3C00)
    (hintent : ¬(isPut = true ∧ (!(s.seat u).plain.intends 1 ((s.seat u).plain.reg ga)) = true))
    (hy : (if isPut then (s.seat u).plain.issued ((s.seat u).plain.intent.elim 0 (·.before)) else (s.seat u).plain) = y)
    (hplain : (if isPut then s.load (scratchBase u + ((s.seat u).plain.reg gb).toNat) 4096 else []) = plain) :
    Completes i s fun t => t =
      ((s.setSeat u { y with phase := .vaultWait, cycles := (s.seat u).plain.cycles + 20, sinceYield := 0,
                             vwait := some (vaultWaitFor (s.seat u).plain isPut ga gb st) }).vaultYield u).vaultSubmit
        (vaultOp (.seat u) (s.seat u).plain.desc isPut (s.seat u).plain.desc.colour ((s.seat u).plain.reg ga) plain
          ((s.seat u).plain.reg st)) := by
  subst hy hplain
  exact completes_gone h (he.trans (runVendor_eq_runPlain h hw _))
    (by rw [if_neg (not_not.mpr halign), if_neg (Nat.not_lt.mpr hroom), if_neg hintent]; rfl)

end

/-- Settles O21: the checks of a vault instruction in the model's order, then its submission. -/
theorem vaultInstructions : Obligations.VaultInstructions := by
  unfold Obligations.VaultInstructions
  intro s u ga gb st h hw x a waits
  refine ⟨fun halign hroom => ?_, fun halign hroom hopen => ?_, fun halign hroom hother => ?_, fun halign => ?_⟩
  · exact completes_vault h hw exec_vget halign hroom (by simp) (if_neg Bool.false_ne_true) (if_neg Bool.false_ne_true)
  · exact completes_vault h hw exec_vput halign hroom (by rw [hopen]; simp) (if_pos rfl) (if_pos rfl)
  · exact completes_vault_intent h hw exec_vput halign hroom ⟨rfl, by rw [hother]; rfl⟩
  · exact completes_vault_misaligned h hw exec_vget halign

end Sys2Proof.Machine
end

section
/-! PROOFS. EMIT and TRAP (R72, R73, R76, R128): the completion record, its FINAL milestone, and what the release of a seat leaves. -/

namespace Sys2Proof.Machine

/-! ## The completion record (Table 2.14) -/

/-- The low bytes of a number spell its remainder. -/
theorem leNat_natLE (n v : Nat) : leNat (natLE n v) = v % 256 ^ n := by
  induction n generalizing v with
  | zero => simp [natLE, leNat, Nat.mod_one]
  | succ n ih =>
    rw [natLE, leNat, ih, BitVec.toNat_ofNat, pow_succ' 256]
    exact Nat.mod_mul.symm

@[simp] theorem beNat_natBE (n v : Nat) : beNat (natBE n v) = v % 256 ^ n := by
  rw [beNat, natBE, List.reverse_reverse, leNat_natLE]

@[simp] theorem length_natBE (n v : Nat) : (natBE n v).length = n := by rw [natBE, List.length_reverse, length_natLE]

section
variable (kind code : Byte) (intentOpen : Bool) (rsp : BitVec 11) (pc : BitVec 32)

/-- A completion record has eight bytes. -/
@[simp] theorem length_completionRecord : (completionRecord kind code intentOpen rsp pc).length = 8 := by
  simp [completionRecord]

/-- A response begins with its completion record. -/
theorem take_completionRecord (body : Bytes) :
    (completionRecord kind code intentOpen rsp pc ++ body).take 8 = completionRecord kind code intentOpen rsp pc :=
  List.take_left' (length_completionRecord kind code intentOpen rsp pc)

/-- The kind and the code are the first two bytes. -/
theorem fieldBE_completionRecord_kind : fieldBE (completionRecord kind code intentOpen rsp pc) 0 2 = kind.toNat * 256 + code.toNat := by
  simp [fieldBE, slice, completionRecord, beNat, leNat]
  omega

/-- The response code is the low eleven bits of the next two. -/
theorem fieldBE_completionRecord_code : BitVec.ofNat 11 (fieldBE (completionRecord kind code intentOpen rsp pc) 2 2) = rsp := by
  have hslice : slice (completionRecord kind code intentOpen rsp pc) 2 2 = natBE 2 (b2n intentOpen * 2 ^ 15 + rsp.toNat) := by
    rw [slice, completionRecord, List.append_assoc]
    exact List.take_left' (length_natBE 2 _)
  have hrsp := rsp.isLt
  rw [fieldBE, hslice, beNat_natBE]
  apply BitVec.eq_of_toNat_eq
  rw [BitVec.toNat_ofNat]
  cases intentOpen <;> simp only [b2n] <;> omega

end

/-! ## The end of an itinerary -/

/-- The seats outside its TE are as they were when a seat is released. -/
theorem State.seat_releaseSeat_ne (s : State) {u v : SeatRef} (hu : u.ok = true) (hv : v.ok = true) (hne : v ≠ u) (hother : v ≠ otherSeat u) :
    (s.releaseSeat u).seat v = s.seat v := by
  have hclear : (((s.leaveIntent (s.seat u)).clearSeat u).seat v) = s.seat v := by
    have hkept := State.leaveIntent_kept (s.seat u) (Kept.refl _ s) (List.Subset.refl _)
    exact (State.seat_setSeat_ne _ _ hu hv hne.symm).trans (hkept.seat_eq (by decide) v)
  unfold State.releaseSeat State.resumeOther
  split
  · rw [State.seat_setTe', State.seat_setSeat_ne _ _ (otherSeat_ok hu) hv hother.symm, hclear]
  · exact hclear

section
variable {s : State} {u : SeatRef} (kind code : Byte) (rsp : BitVec 11) (pc : BitVec 32) (body : Bytes)

/-- The seats outside its TE are as they were when an itinerary ends with a response. -/
theorem State.seat_endSeat_ne (hu : u.ok = true) (hq : (s.seat u).squash = false) {v : SeatRef} (hv : v.ok = true) (hne : v ≠ u)
    (hother : v ≠ otherSeat u) : (s.endSeat u kind code rsp pc body).seat v = s.seat v := by
  rw [State.endSeat_of_not_squash kind code rsp pc body hq,
    (State.countDrained_kept _ (Kept.refl _ _) (List.Subset.refl _)).seat_eq (by decide),
    (State.hold_kept _ _ _ (Kept.refl _ _) (List.Subset.refl _)).seat_eq (by decide), State.seat_releaseSeat_ne s hu hv hne hother]

/-- The FINAL record of an itinerary that ends with a response (R72, Table 8.2). -/
theorem State.journal_endSeat (hq : (s.seat u).squash = false) :
    let x := s.seat u
    let r := s.releaseSeat u
    let head := completionRecord kind code x.intent.isSome rsp pc
    (s.endSeat u kind code rsp pc body).journal =
      (r.writeMile (r.mile x.desc 7 false (x.world == .vendor) rsp (BitVec.ofNat 16 (kind.toNat * 256 + code.toNat))
        (BitVec.ofNat 64 (beNat head)) r.stamp)).journal := by
  intro x r head
  rw [State.endSeat_of_not_squash kind code rsp pc body hq,
    (State.countDrained_kept _ (Kept.refl _ _) (List.Subset.refl _)).journal_eq (by decide)]
  simp only [State.hold, take_completionRecord, fieldBE_completionRecord_kind, fieldBE_completionRecord_code]
  rfl

/-- A squashed item ends without a response. -/
theorem State.endSeat_of_squash (hq : (s.seat u).squash = true) : s.endSeat u kind code rsp pc body = s.killSeat u 1 := by
  simp [State.endSeat, hq]

/-- The seat of an item that ends without a response is empty. -/
theorem State.seat_killSeat (s : State) {u : SeatRef} (hu : u.ok = true) (reason : BitVec 11) : (s.killSeat u reason).seat u = Seat.empty := by
  rw [State.killSeat, (State.itemEnded_kept _ _ (Kept.refl _ _) (List.Subset.refl _)).seat_eq (by decide), State.seat_releaseSeat s hu]

end

/-- What is left where an itinerary has ended with a response: its seat empty, the seats of other TEs as they were, the response held, its
FINAL record written. -/
theorem State.endSeat_ends {s : State} {u : SeatRef} (hu : u.ok = true) (hq : (s.seat u).squash = false) (kind : Byte) (rsp : BitVec 11)
    (pc : BitVec 32) (body : Bytes) :
    let x := s.seat u
    let r := s.releaseSeat u
    let head := completionRecord kind 0 x.intent.isSome rsp pc
    let t := s.endSeat u kind 0 rsp pc body
    t.seat u = Seat.empty ∧ (∀ v : SeatRef, v.ok = true → v ≠ u → v ≠ { u with seat := 1 - u.seat } → t.seat v = s.seat v) ∧
      t.held = s.held ++ [{ desc := x.desc, payload := head ++ body }] ∧
      t.journal = (r.writeMile (r.mile x.desc 7 false (x.world == .vendor) rsp (BitVec.ofNat 16 (kind.toNat * 256))
        (BitVec.ofNat 64 (beNat head)) r.stamp)).journal := by
  have hkind : kind.toNat * 256 = kind.toNat * 256 + (0 : Byte).toNat := by simp
  rw [hkind]
  exact ⟨State.seat_endSeat _ _ _ _ _ hu hq, fun _ hv hne hother => State.seat_endSeat_ne _ _ _ _ _ hu hq hv hne hother,
    State.held_endSeat _ _ _ _ _ hq, State.journal_endSeat _ _ _ _ _ hq⟩

/-- Settles O19: EMIT by its two checks and the end they leave, TRAP by its end; a squashed item by its end without a response. -/
theorem itineraryEnds : Obligations.ItineraryEnds := by
  unfold Obligations.ItineraryEnds
  intro s u ga code h x r ends
  have hclosed : x.intent = .none → ¬ (s.seat u).plain.intent.isSome = true := fun hnone => by
    rw [show (s.seat u).plain.intent = .none from hnone]
    exact Bool.false_ne_true
  have hemit : x.intent = .none → (x.reg ga).toNat ≤ 8184 → Completes (.emit u ga code) s fun t =>
      t = s.endSeat u 0 0 code 0 (s.load (storeBase u.cluster + windowOff u + 0x2000) (x.reg ga).toNat) := fun hnone hlen =>
    completes_gone h exec_emit (by rw [if_neg (hclosed hnone), if_neg (show ¬ 8184 < ((s.seat u).plain.reg ga).toNat from Nat.not_lt.mpr hlen)]; rfl)
  have htrap : Completes (.trap u code) s fun t => t = s.endSeat u 1 0 code x.shownPc [] := completes_gone h exec_trap rfl
  refine ⟨fun hq hnone hlen => (hemit hnone hlen).mono ?_, fun hopen => ?_, fun hnone hlen => ?_, fun hq => htrap.mono ?_,
    fun hq => htrap.mono ?_, fun hq hnone hlen => (hemit hnone hlen).mono ?_⟩
  · rintro t rfl
    exact State.endSeat_ends h.1 hq 0 code 0 _
  · exact completes_exc h exec_emit (if_pos hopen)
  · exact completes_exc h exec_emit (by rw [if_neg (hclosed hnone), if_pos (show 8184 < ((s.seat u).plain.reg ga).toNat from hlen)])
  · rintro t rfl
    exact State.endSeat_ends h.1 hq 1 code x.shownPc []
  · rintro t rfl
    rw [State.endSeat_of_squash _ _ _ _ _ hq]
    exact ⟨rfl, s.seat_killSeat h.1 1⟩
  · rintro t rfl
    exact State.endSeat_of_squash _ _ _ _ _ hq

end Sys2Proof.Machine
end

section
/-! PROOFS. The events of a waiting seat (R48, R71, R75, R81, R242, R259, R417): what each does where its condition holds. -/

namespace Sys2Proof.Machine

/-- An event that names a unit of the part completes in its effect. -/
theorem completes_checked {c : Instr} {s t : State} {ok : Bool} (he : exec c s = checked ok t) (hok : ok = true) :
    Completes c s fun t' => t' = t := ⟨t, by rw [he, hok]; rfl, rfl⟩

/-! ## The seat a fetch leaves -/

section
variable (s : State) (u : SeatRef) (x : Seat) (last : Nat) (pc : BitVec 32)

/-- A fetch puts the seat at the new pc, running or waiting for the line. -/
theorem State.seat_fetch : (s.fetch u x last pc).seat u = { x with pc := pc, phase := ((s.fetch u x last pc).seat u).phase } := by
  unfold State.fetch
  split <;> rw [State.seat_setSeat]

/-- A fetch changes no expander. -/
@[simp] theorem State.expander_fetch (e : Nat) : (s.fetch u x last pc).expander e = s.expander e := by
  unfold State.fetch
  split <;> rfl

/-- A fetch writes nothing to the journal. -/
@[simp] theorem State.journal_fetch : (s.fetch u x last pc).journal = s.journal := by
  unfold State.fetch
  split <;> rfl

end

@[simp] theorem Seat.setReg_vwait (x : Seat) (i : Fin 32) (v : Word) : (x.setReg i v).vwait = x.vwait := by rw [Seat.setReg_eq]

/-- What the written register reads: the value, or zero of g0. -/
theorem Seat.reg_setReg_self (x : Seat) (i : Fin 32) (v : Word) : (x.setReg i v).reg i = if i = 0 then 0 else v := by
  rw [Seat.reg_setReg]
  by_cases hi : i = 0
  · subst hi; simp
  · simp [hi]

/-! ## The vault's answer (R71) -/

section
variable {s : State} {u : SeatRef} {w : VaultWait} {r : VaultReply}

/-- A failed operation gives the seat its status. -/
theorem State.takeReply_failed (x : Seat) (h : r.status ≠ 0) : s.takeReply u x w r =
    s.setSeat u ({ x with vwait := .none, sinceYield := 0, pc := x.pc + 4,
                          phase := if (s.seat (otherSeat u)).phase.keepsTe then .ready else .running }.setReg w.st (BitVec.ofNat 64 r.status)) := by
  simp [State.takeReply, h]

/-- The routine's own account of its call is all that changes of the seat besides. -/
theorem State.seat_tokenReply (s : State) (u : SeatRef) (w : VaultWait) (r : VaultReply) :
    (s.tokenReply u w r).seat u = { s.seat u with tok := ((s.tokenReply u w r).seat u).tok } := by
  unfold State.tokenReply
  dsimp only
  split
  · split
    · rw [State.seat_setSeat]
    · rfl
  · rfl

/-- Entering a seat changes no seat. -/
@[simp] theorem State.seat_makeCurrent (s : State) (u v : SeatRef) : (s.makeCurrent u).seat v = s.seat v :=
  (State.makeCurrent_kept u (Kept.refl _ _) (List.Subset.refl _)).seat_eq (by decide) v

/-- The answer of a seat's operation reaches it. -/
theorem completes_vaultWaitDone (hu : u.ok = true) (hphase : (s.seat u).phase = .vaultWait) (hw : (s.seat u).vwait = some w)
    (hr : w.reply = some r) : Completes (.vaultWaitDone u) s fun t => t = ((s.takeReply u (s.seat u) w r).tokenReply u w r).makeCurrent u := by
  refine (completes_checked exec_vaultWaitDone hu).mono fun t ht => ?_
  simpa only [hphase, hw, hr] using ht

end

/-! ## The bits a stalled read receives (R417) -/

section
variable {s s1 : State} {u : SeatRef} {rd : Fin 32} {v : Word} {rest : List Reader}

/-- Taking output of an expander changes no seat. -/
theorem State.seats_takeRandom {e : Nat} (h : s.takeRandom e = some (v, s1)) : s1.seats = s.seats := by
  rw [State.takeRandom_eq] at h
  split at h
  · cases h
  · obtain ⟨rfl, rfl⟩ := Prod.mk.inj (Option.some.inj h)
    simp

/-- The first reader, a seat, goes on with its value in rd. -/
theorem State.serveReader_seat {e : Nat} (hwait : (s.expander e).waiting = .seat u :: rest) (htake : s.takeRandom e = some (v, s1))
    (hphase : (s.seat u).phase = .drbgWait rd) : s.serveReader e =
      (s1.setExpander e { s1.expander e with waiting := rest }).fetch u ({ (s.seat u).setReg rd v with phase := .running }.charge 4)
        ((s.seat u).line (s.seat u).pc) ((s.seat u).pc + 4) := by
  have hseat : (s1.setExpander e { s1.expander e with waiting := rest }).seat u = s.seat u := by
    rw [State.seat_setExpander', State.seat, s.seats_takeRandom htake]
    rfl
  unfold State.serveReader
  simp only [hwait, htake, hseat, hphase]

end

/-- Settles O22: each event by its own effect, in the state its condition gives. -/
theorem seatEvents : Obligations.SeatEvents := by
  unfold Obligations.SeatEvents
  intro s u off rd w r isC kind obj ver v rest s1 n o hu x
  refine ⟨fun hphase hover => ?overdue, fun hphase => ?uncorrectable, fun hphase => ?fill, fun hphase hw hr hstatus => ?vault,
    fun hphase hwait htake => ?drbg, fun hfirst hphase hroom => ?anchor, fun hfind hop hstate => ?degraded⟩
  case overdue =>
    exact (completes_checked exec_yieldOverdue hu).mono fun t ht => ht.trans (if_pos ⟨hphase, hover⟩)
  case uncorrectable =>
    exact (completes_checked exec_scratchUncorrectable hu).mono fun t ht => ht.trans (if_neg hphase)
  case fill =>
    refine (completes_checked exec_imageCacheFill hu).mono fun t ht => ?_
    obtain rfl := ht.trans (if_pos hphase)
    rw [State.seat_setSeat]
    exact ⟨rfl, Nat.le_add_right _ _, rfl⟩
  case vault =>
    refine (completes_vaultWaitDone hu hphase hw hr).mono ?_
    rintro t rfl
    rw [State.seat_makeCurrent, State.seat_tokenReply, State.takeReply_failed _ hstatus, State.seat_setSeat]
    exact ⟨Seat.setReg_vwait _ _ _, Seat.setReg_pc _ _ _, Seat.reg_setReg_self _ _ _⟩
  case drbg =>
    have hcluster : decide (u.cluster ≤ 36) = true := by
      simp only [SeatRef.ok, clusterOk, Bool.and_eq_true, decide_eq_true_eq] at hu ⊢
      omega
    refine (completes_checked exec_drbgReadDone hcluster).mono ?_
    rintro t rfl
    rw [State.serveReader_seat hwait htake hphase, State.seat_fetch, State.expander_fetch, State.expander_setExpander]
    exact ⟨Seat.reg_setReg_self _ _ _, rfl, rfl⟩
  case anchor =>
    refine ⟨_, exec_anchorSpaceFree, ?_⟩
    simp only [hroom, hfirst, show (s.seat u).phase = _ from hphase, State.openIntent_eq, finishTe, Bool.not_true, if_neg Bool.false_ne_true]
    rw [State.seat_fetch, State.journal_fetch]
    exact ⟨rfl, rfl⟩
  case degraded =>
    refine (completes_checked exec_degradedVputTimeout hu).mono fun t ht => ?_
    simpa only [hfind, hop, hstate, if_true] using ht

end Sys2Proof.Machine
end

section
/-! PROOFS. GATE and GRET between the worlds (R64, R66, R67, R127, R129), and YIELD (R77, R79). -/

namespace Sys2Proof.Machine

/-! ## The slots a GRET to the tenant world leaves (R64, R127) -/

section
variable {x : Seat} {marks : List (Fin 8 × Bool)} {i j : Fin 8} {z : Slot} {l : List (Fin 8)}

/-- A vendor-loaded slot stays only where it is marked returned. -/
theorem returnedSlot_returned {y : Option Slot} (h : returnedSlot marks i y = some z) (hv : z.vendorLoaded = true) : z.returned = true := by
  unfold returnedSlot at h
  split at h
  · next k =>
    by_cases hk : k.vendorLoaded = true
    · rw [if_pos hk] at h
      split at h
      · obtain rfl := Option.some.inj h
        rfl
      · split at h
        · next hr =>
          obtain rfl := Option.some.inj h
          exact hr
        · cases h
    · rw [if_neg hk] at h
      obtain rfl := Option.some.inj h
      exact absurd hv hk
  · cases h

/-- A slot the tenant filled stays. -/
theorem returnedSlot_tenant (h : z.vendorLoaded = false) : returnedSlot marks i (some z) = some z := by
  simp [returnedSlot, h]

/-- An empty slot stays empty. -/
@[simp] theorem returnedSlot_none : returnedSlot marks i .none = .none := rfl

theorem Seat.slot_setSlot (x : Seat) (i j : Fin 8) (v : Option Slot) : (x.setSlot i v).slot j = if j = i then v else x.slot j := by
  unfold Seat.slot Seat.setSlot
  by_cases hj : j = i
  · subst hj; simp
  · have hne : i.val ≠ j.val := fun e => hj (Fin.ext e.symm)
    simp [hj, Vector.getElem_set_ne _ _ hne]

/-- GRET leaves a slot as R64 has it, and every other slot as it was. -/
theorem Seat.slot_returnSlot (x : Seat) (marks : List (Fin 8 × Bool)) (i j : Fin 8) :
    (x.returnSlot marks i).slot j = if j = i then returnedSlot marks i (x.slot i) else x.slot j := by
  unfold Seat.returnSlot
  split
  · next hslot hnone => rw [Seat.slot_emptySlot, hnone]
  · exact Seat.slot_setSlot x i j _

/-- A context that stays open was open, and is on no slot that was emptied. -/
theorem Seat.cctx_returnSlot {c : CipherCtx} (h : (x.returnSlot marks i).cctx = some c) :
    x.cctx = some c ∧ (c.slot = i → (x.slot i).isSome = true → (returnedSlot marks i (x.slot i)).isSome = true) := by
  unfold Seat.returnSlot at h
  split at h
  · obtain ⟨hc, hne⟩ := Seat.cctx_emptySlot h
    exact ⟨hc, fun he => absurd he hne⟩
  · next hkept =>
    refine ⟨h, fun _ hsome => ?_⟩
    obtain ⟨z, hz⟩ := Option.isSome_iff_exists.mp hsome
    rw [Option.isSome_iff_ne_none]
    exact hkept z hz

/-- GRET changes nothing of a seat but its slots and the contexts on them. -/
theorem Seat.returnSlot_eq (x : Seat) (marks : List (Fin 8 × Bool)) (i : Fin 8) : x.returnSlot marks i =
    { x with k := (x.returnSlot marks i).k, cctx := (x.returnSlot marks i).cctx, dctx := (x.returnSlot marks i).dctx } := by
  unfold Seat.returnSlot
  split <;> rfl

/-- GRET over a list of slots. -/
def Seat.returnSlots (x : Seat) (marks : List (Fin 8 × Bool)) (l : List (Fin 8)) : Seat := l.foldl (fun t i => t.returnSlot marks i) x

theorem Seat.returnSlots_cons (x : Seat) : x.returnSlots marks (i :: l) = (x.returnSlot marks i).returnSlots marks l := rfl

theorem Seat.returnSlots_eq (x : Seat) (marks : List (Fin 8 × Bool)) (l : List (Fin 8)) : x.returnSlots marks l =
    { x with k := (x.returnSlots marks l).k, cctx := (x.returnSlots marks l).cctx, dctx := (x.returnSlots marks l).dctx } := by
  induction l generalizing x with
  | nil => rfl
  | cons i l ih =>
    rw [Seat.returnSlots_cons, ih, Seat.returnSlot_eq]

section
variable (x : Seat) (marks : List (Fin 8 × Bool)) (l : List (Fin 8))

@[simp] theorem Seat.passed_returnSlots : (x.returnSlots marks l).passed = x.passed := by rw [Seat.returnSlots_eq]
@[simp] theorem Seat.blk_returnSlots (i : Fin 8) : (x.returnSlots marks l).blk i = x.blk i := by rw [Seat.returnSlots_eq]; rfl
@[simp] theorem Seat.reg_returnSlots (i : Fin 32) : (x.returnSlots marks l).reg i = x.reg i := by rw [Seat.returnSlots_eq]; rfl
@[simp] theorem Seat.phase_returnSlots : (x.returnSlots marks l).phase = x.phase := by rw [Seat.returnSlots_eq]

end

/-- Every listed slot is left as R64 has it. -/
theorem Seat.slot_returnSlots (x : Seat) (hl : l.Nodup) (j : Fin 8) :
    (x.returnSlots marks l).slot j = if j ∈ l then returnedSlot marks j (x.slot j) else x.slot j := by
  induction l generalizing x with
  | nil => rfl
  | cons i l ih =>
    obtain ⟨hi, hl⟩ := List.nodup_cons.mp hl
    rw [Seat.returnSlots_cons, ih _ hl, Seat.slot_returnSlot]
    by_cases hj : j = i
    · subst hj; simp [hi]
    · simp [hj]

/-- A context that stays open was open, and its slot is not one that was emptied. -/
theorem Seat.cctx_returnSlots (hl : l.Nodup) {c : CipherCtx} (h : (x.returnSlots marks l).cctx = some c) :
    x.cctx = some c ∧ (c.slot ∈ l → (x.slot c.slot).isSome = true → (returnedSlot marks c.slot (x.slot c.slot)).isSome = true) := by
  induction l generalizing x with
  | nil => exact ⟨h, fun hmem => nomatch hmem⟩
  | cons i l ih =>
    obtain ⟨hi, hl⟩ := List.nodup_cons.mp hl
    obtain ⟨hc, hrest⟩ := ih hl h
    obtain ⟨hx, hfirst⟩ := Seat.cctx_returnSlot hc
    refine ⟨hx, fun hmem hsome => ?_⟩
    rcases List.mem_cons.mp hmem with he | hmem
    · subst he
      exact hfirst rfl hsome
    · have hne : c.slot ≠ i := fun he => hi (he ▸ hmem)
      rw [Seat.slot_returnSlot, if_neg hne] at hrest
      exact hrest hmem hsome

end

/-! ## What a GRET to the tenant world leaves of the registers (R67, Table 2.19) -/

/-- A waymark returns in g registers only in g1. -/
theorem eq_one_of_mem_waymarkResults {w i : Nat} (h : i ∈ (waymarkResults w).1) : i = 1 := by
  unfold waymarkResults at h
  split at h <;> simp at h <;> exact h

/-- A waymark returns in block registers only in b0 to b2. -/
theorem lt_four_of_mem_waymarkResults {w i : Nat} (h : i ∈ (waymarkResults w).2) : i < 4 := by
  unfold waymarkResults at h
  split at h <;> simp at h <;> omega

/-- A register that is listed keeps its result. -/
theorem returned_of_listed {α : Type} {listed : List Nat} {i : Nat} (h : listed.contains i = true) (was : Option α) (v : α) :
    returned listed i was v = v := if_pos h

/-- A register that is not listed takes back what the tenant passed. -/
theorem returned_of_passed {α : Type} {listed : List Nat} {i n : Nat} {p : List α} (h : listed.contains i = false) (hn : n < p.length)
    (v d : α) : returned listed i p[n]? v = p.getD n d := by
  simp only [returned, h, Bool.false_eq_true, if_false, List.getElem?_eq_getElem hn, Option.getD_some, List.getD_eq_getElem _ _ hn]

namespace Seat

/-- The registers that are not banked. -/
theorem reg_eq_get (x : Seat) {i : Fin 32} (h0 : i.val ≠ 0) (h31 : i.val ≠ 31) : x.reg i = x.g[i] := by
  rw [reg, if_neg (fun h => h0 (congrArg Fin.val h)), if_neg (fun h => h31 (congrArg Fin.val h))]

/-- FF1.TOKENISE's return changes registers and its own account of the call. -/
theorem tokenResults_eq (x : Seat) :
    x.tokenResults = { x with g := x.tokenResults.g, b := x.tokenResults.b, tok := x.tokenResults.tok } := by
  unfold tokenResults
  split
  · split
    · dsimp only
      split <;> rfl
    · rfl
  · rfl

/-- A return without a call of FF1.TOKENISE changes no register. -/
theorem tokenResults_of_none {x : Seat} (h : x.tok = .none) : x.tokenResults = x := by
  simp [tokenResults, h]

/-- What a GRET to the tenant world leaves of a seat whose slots it has returned, with the registers in which its waymark returns results. -/
def leftVendor (y : Seat) (res : List Nat × List Nat) : Seat :=
  { y with
    world := .tenant,
    passed := .none,
    b := Vector.ofFn fun i => if 4 ≤ i.val then 0 else returned res.2 i.val (y.passed.bind fun p => p.2[i.val]?) y.b[i],
    g := Vector.ofFn fun i =>
      if 5 ≤ i.val ∧ i.val ≤ 15 then 0
      else if 1 ≤ i.val ∧ i.val ≤ 4 then returned res.1 i.val (y.passed.bind fun p => p.1[i.val - 1]?) y.g[i]
      else y.g[i],
    dctx := y.dctx.filter fun d => !(d.vendor && !d.hmac) }

section
variable (x : Seat) (marks : List (Fin 8 × Bool)) (res : List Nat × List Nat)

theorem leaveVendor_eq : x.leaveVendor marks =
    (x.returnSlots marks (List.finRange 8)).leftVendor (waymarkResults x.waymark.toNat) := by
  unfold leaveVendor returnSlots leftVendor
  rfl

@[simp] theorem slot_leftVendor (j : Fin 8) : (x.leftVendor res).slot j = x.slot j := by
  unfold leftVendor slot
  rfl
@[simp] theorem phase_leftVendor : (x.leftVendor res).phase = x.phase := by unfold leftVendor; rfl
@[simp] theorem cctx_leftVendor : (x.leftVendor res).cctx = x.cctx := by unfold leftVendor; rfl

theorem blk_leftVendor (i : Fin 8) : (x.leftVendor res).blk i =
    if 4 ≤ i.val then 0 else returned res.2 i.val (x.passed.bind fun p => p.2[i.val]?) (x.blk i) :=
  Vector.getElem_ofFn _

theorem reg_leftVendor {i : Fin 32} (hlo : 1 ≤ i.val) (hhi : i.val ≤ 15) : (x.leftVendor res).reg i =
    if 5 ≤ i.val then 0 else returned res.1 i.val (x.passed.bind fun p => p.1[i.val - 1]?) (x.reg i) := by
  rw [reg_eq_get _ (by omega) (by omega), reg_eq_get x (by omega) (by omega)]
  refine (Vector.getElem_ofFn _).trans ?_
  by_cases h5 : 5 ≤ i.val
  · rw [if_pos h5]
    exact if_pos ⟨h5, hhi⟩
  · rw [if_neg h5]
    exact (if_neg fun h => h5 h.1).trans (if_pos ⟨hlo, Nat.le_of_lt_succ (Nat.lt_of_not_le h5)⟩)

@[simp] theorem phase_leaveVendor : (x.leaveVendor marks).phase = x.phase := by
  rw [leaveVendor_eq, phase_leftVendor, phase_returnSlots]

@[simp] theorem world_leaveVendor : (x.leaveVendor marks).world = .tenant := by
  rw [leaveVendor_eq]
  unfold leftVendor
  rfl

theorem slot_leaveVendor (j : Fin 8) : (x.leaveVendor marks).slot j = returnedSlot marks j (x.slot j) := by
  have hslots := x.slot_returnSlots (marks := marks) (List.nodup_finRange 8) j
  rw [if_pos (List.mem_finRange j)] at hslots
  rw [leaveVendor_eq, slot_leftVendor, hslots]

theorem cctx_leaveVendor {x : Seat} {marks : List (Fin 8 × Bool)} {c : CipherCtx} (h : (x.leaveVendor marks).cctx = some c) :
    x.cctx = some c ∧ ((x.slot c.slot).isSome = true → ((x.leaveVendor marks).slot c.slot).isSome = true) := by
  have hslots : (x.returnSlots marks (List.finRange 8)).cctx = some c := by
    rwa [leaveVendor_eq, cctx_leftVendor] at h
  obtain ⟨hc, hslot⟩ := cctx_returnSlots (List.nodup_finRange 8) hslots
  refine ⟨hc, fun hsome => ?_⟩
  rw [slot_leaveVendor]
  exact hslot (List.mem_finRange _) hsome

/-- A GRET to the tenant world clears b4-b7, and of b0-b3 gives back what the tenant passed but the results. -/
theorem blk_leaveVendor (i : Fin 8) : (x.leaveVendor marks).blk i =
    if 4 ≤ i.val then 0 else returned (waymarkResults x.waymark.toNat).2 i.val (x.passed.bind fun p => p.2[i.val]?) (x.blk i) := by
  rw [leaveVendor_eq, blk_leftVendor, passed_returnSlots, blk_returnSlots]

/-- A GRET to the tenant world clears g5-g15, and of g1-g4 gives back what the tenant passed but the results. -/
theorem reg_leaveVendor {i : Fin 32} (hlo : 1 ≤ i.val) (hhi : i.val ≤ 15) : (x.leaveVendor marks).reg i =
    if 5 ≤ i.val then 0
    else returned (waymarkResults x.waymark.toNat).1 i.val (x.passed.bind fun p => p.1[i.val - 1]?) (x.reg i) := by
  rw [leaveVendor_eq, reg_leftVendor _ _ hlo hhi, passed_returnSlots, reg_returnSlots]

end

end Seat

/-! ## GATE and GRET -/

section
variable {u : SeatRef} {s s1 t : State} {x : Seat} {dest : BitVec 32} {cost : Nat}

theorem Ran.world (h : Ran u s1 x dest cost t) : (t.seat u).world = x.world := by rw [h.seat_eq]
theorem Ran.stack (h : Ran u s1 x dest cost t) : (t.seat u).stack = x.stack := by rw [h.seat_eq]
theorem Ran.waymark (h : Ran u s1 x dest cost t) : (t.seat u).waymark = x.waymark := by rw [h.seat_eq]
theorem Ran.blk (h : Ran u s1 x dest cost t) (i : Fin 8) : (t.seat u).blk i = x.blk i := by rw [h.seat_eq]; rfl
theorem Ran.reg (h : Ran u s1 x dest cost t) (i : Fin 32) : (t.seat u).reg i = x.reg i := by rw [h.seat_eq]; rfl

end

namespace Seat

/-- The seat with its top frame popped. -/
def popped (x : Seat) (r : List Frame) (w : BitVec 11) : Seat := { x with stack := r, waymark := w }

/-- The seat a GRET to the tenant world goes on with: the world left, the frame popped. -/
def backToTenant (x : Seat) (marks : List (Fin 8 × Bool)) (r : List Frame) (w : BitVec 11) : Seat :=
  (x.tokenResults.leaveVendor marks).popped r w

section
variable (x : Seat) (r : List Frame) (w : BitVec 11)

@[simp] theorem phase_popped : (x.popped r w).phase = x.phase := rfl
@[simp] theorem world_popped : (x.popped r w).world = x.world := rfl
@[simp] theorem stack_popped : (x.popped r w).stack = r := rfl
@[simp] theorem waymark_popped : (x.popped r w).waymark = w := rfl
@[simp] theorem cctx_popped : (x.popped r w).cctx = x.cctx := rfl
@[simp] theorem slot_popped (i : Fin 8) : (x.popped r w).slot i = x.slot i := rfl
@[simp] theorem blk_popped (i : Fin 8) : (x.popped r w).blk i = x.blk i := rfl
@[simp] theorem reg_popped (i : Fin 32) : (x.popped r w).reg i = x.reg i := rfl

end

section
variable (x : Seat) (marks : List (Fin 8 × Bool)) (r : List Frame) (w : BitVec 11)

@[simp] theorem phase_tokenResults : x.tokenResults.phase = x.phase := by rw [tokenResults_eq]
@[simp] theorem cctx_tokenResults : x.tokenResults.cctx = x.cctx := by rw [tokenResults_eq]
@[simp] theorem passed_tokenResults : x.tokenResults.passed = x.passed := by rw [tokenResults_eq]
@[simp] theorem waymark_tokenResults : x.tokenResults.waymark = x.waymark := by rw [tokenResults_eq]
@[simp] theorem slot_tokenResults (i : Fin 8) : x.tokenResults.slot i = x.slot i := by rw [tokenResults_eq]; rfl

@[simp] theorem phase_backToTenant : (x.backToTenant marks r w).phase = x.phase := by
  rw [backToTenant, phase_popped, phase_leaveVendor, phase_tokenResults]

@[simp] theorem world_backToTenant : (x.backToTenant marks r w).world = .tenant := by
  rw [backToTenant, world_popped, world_leaveVendor]

@[simp] theorem stack_backToTenant : (x.backToTenant marks r w).stack = r := stack_popped _ r w
@[simp] theorem waymark_backToTenant : (x.backToTenant marks r w).waymark = w := waymark_popped _ r w

theorem slot_backToTenant (i : Fin 8) : (x.backToTenant marks r w).slot i = returnedSlot marks i (x.slot i) := by
  rw [backToTenant, slot_popped, slot_leaveVendor, slot_tokenResults]

/-- A context that is open after the return was open before it, and its slot is not one the return emptied. -/
theorem cctx_backToTenant {x : Seat} {c : CipherCtx} (h : (x.backToTenant marks r w).cctx = some c) :
    x.cctx = some c ∧ ((x.slot c.slot).isSome = true → ((x.backToTenant marks r w).slot c.slot).isSome = true) := by
  rw [backToTenant, cctx_popped] at h
  obtain ⟨hopen, hslot⟩ := cctx_leaveVendor h
  rw [cctx_tokenResults] at hopen
  rw [slot_tokenResults] at hslot
  rw [backToTenant, slot_popped]
  exact ⟨hopen, hslot⟩

theorem blk_backToTenant (i : Fin 8) : (x.backToTenant marks r w).blk i =
    if 4 ≤ i.val then 0
    else returned (waymarkResults x.waymark.toNat).2 i.val (x.passed.bind fun p => p.2[i.val]?) (x.tokenResults.blk i) := by
  rw [backToTenant, blk_popped, blk_leaveVendor, waymark_tokenResults, passed_tokenResults]

theorem reg_backToTenant {i : Fin 32} (hlo : 1 ≤ i.val) (hhi : i.val ≤ 15) : (x.backToTenant marks r w).reg i =
    if 5 ≤ i.val then 0
    else returned (waymarkResults x.waymark.toNat).1 i.val (x.passed.bind fun p => p.1[i.val - 1]?) (x.tokenResults.reg i) := by
  rw [backToTenant, reg_popped, reg_leaveVendor _ _ hlo hhi, waymark_tokenResults, passed_tokenResults]

/-- Of b0-b3, a register in which the waymark returns no result holds again what the tenant passed. -/
theorem blk_backToTenant_passed {x : Seat} {p : List Word × List Block} (hp : x.passed = some p) (hlen : p.2.length = 4) {i : Fin 8}
    (hi : i.val < 4) (hlist : (waymarkResults x.waymark.toNat).2.contains i.val = false) :
    (x.backToTenant marks r w).blk i = p.2.getD i.val 0 := by
  rw [blk_backToTenant, if_neg (Nat.not_le.mpr hi), hp, Option.bind_some, returned_of_passed hlist (by omega)]

/-- Of g1-g4, a register in which the waymark returns no result holds again what the tenant passed. -/
theorem reg_backToTenant_passed {x : Seat} {p : List Word × List Block} (hp : x.passed = some p) (hlen : p.1.length = 4) {i : Fin 32}
    (hlo : 1 ≤ i.val) (hhi : i.val ≤ 4) (hlist : (waymarkResults x.waymark.toNat).1.contains i.val = false) :
    (x.backToTenant marks r w).reg i = p.1.getD (i.val - 1) 0 := by
  rw [reg_backToTenant _ _ _ _ hlo (by omega), if_neg (by omega), hp, Option.bind_some, returned_of_passed hlist (by omega)]

/-- A block register in which the waymark returns a result keeps it. -/
theorem blk_backToTenant_result {x : Seat} (htok : x.tok = .none) {i : Fin 8}
    (hlist : (waymarkResults x.waymark.toNat).2.contains i.val = true) : (x.backToTenant marks r w).blk i = x.blk i := by
  have hi := lt_four_of_mem_waymarkResults (List.contains_iff_mem.mp hlist)
  rw [blk_backToTenant, if_neg (Nat.not_le.mpr hi), returned_of_listed hlist, tokenResults_of_none htok]

/-- A g register in which the waymark returns a result keeps it. -/
theorem reg_backToTenant_result {x : Seat} (htok : x.tok = .none) {i : Fin 32}
    (hlist : (waymarkResults x.waymark.toNat).1.contains i.val = true) : (x.backToTenant marks r w).reg i = x.reg i := by
  have hi := eq_one_of_mem_waymarkResults (List.contains_iff_mem.mp hlist)
  rw [reg_backToTenant _ _ _ _ (by omega) (by omega), if_neg (by omega), returned_of_listed hlist, tokenResults_of_none htok]

end

end Seat

section
variable {s : State} {u : SeatRef} {f : Frame} {r : List Frame} (marks : List (Fin 8 × Bool))

/-- GRET by a GATE frame pushed from the tenant world goes back there, and the vendor quarter of the scratch is cleared. -/
theorem completes_gret_tenant (h : Runs s u) (hw : (s.seat u).world = .vendor) (hstack : (s.seat u).plain.stack = f :: r)
    (hgate : f.isGate = true) (hf : f.world = .tenant) :
    ∃ cost, Completes (.gret u marks) s (Ran u (s.wipe (scratchBase u + 0x3800) (scratchBase u + 0x3C00))
      ((s.seat u).plain.backToTenant marks r f.waymark) f.retPc cost) := by
  refine ⟨_, completes_jump (cost := 20) h (exec_gret.trans (runVendor_eq_runPlain h hw _)) ?_
    ((Seat.phase_backToTenant _ _ _ _).trans h.2.1)⟩
  simp only [hstack, hgate, hf, if_true, Seat.backToTenant, Seat.popped]

/-- GRET by a GATE frame pushed from the vendor world only pops it. -/
theorem completes_gret_vendor {x : Seat} (h : Runs s u) (hw : (s.seat u).world = .vendor) (hstack : (s.seat u).plain.stack = f :: r)
    (hgate : f.isGate = true) (hf : f.world = .vendor) (hx : (s.seat u).plain = x) :
    Completes (.gret u marks) s (Ran u s { x with stack := r, waymark := f.waymark } f.retPc (6 + lineCost (x.line x.pc) (x.line f.retPc))) := by
  subst hx
  refine completes_jump_from (cost := 6) h (exec_gret.trans (runVendor_eq_runPlain h hw _)) ?_ rfl
  simp only [hstack, hgate, hf, if_true]
  rfl

end

/-! ## YIELD -/

/-- A suspended itinerary leaves its seat empty and stands at the front of the Depot. -/
theorem State.seat_suspendSeat (s : State) {u : SeatRef} (hu : u.ok = true) : (s.suspendSeat u).seat u = Seat.empty := by
  unfold State.suspendSeat
  rw [State.seat_resumeOther _ hu]
  simp [State.clearSeat]

theorem State.desc_suspendedItem (s : State) (u : SeatRef) : (s.suspendedItem u).desc = (s.seat u).desc := rfl

theorem State.items_suspendSeat (s : State) (u : SeatRef) : (s.suspendSeat u).depot.items = s.suspendedItem u :: s.depot.items := by
  unfold State.suspendSeat
  rw [(State.resumeOther_kept _ (Kept.refl _ _) (List.Subset.refl _)).depot_eq (by decide),
    (State.clearSeat_kept _ (Kept.refl _ _) (List.Subset.refl _)).depot_eq (by decide)]
  rfl

section
variable {s : State} {u : SeatRef} {x y left : Seat}

/-- A YIELD that stays: the pc goes on, two cycles are charged, and the count since a YIELD starts again. -/
theorem completes_yield_stay (h : Runs s u) (hy : { (s.seat u).plain with sinceYield := 0 } = y)
    (hkill : ¬(y.intent.isNone = true ∧ y.squash = true)) (hfrozen : ¬(y.intent.isNone = true ∧ (s.lane y.desc.lane).state = .frozen))
    (hleave : ¬((y.intent.isNone = true ∧ s.quiescing u.cluster = true) ∨ s.yieldsTo u y = true)) (hoffer : s.yieldOffer u y = .none) :
    Completes (.yieldPoint u) s fun t => (t.seat u).pc = y.pc + 4 ∧ (t.seat u).sinceYield = 0 ∧ (t.seat u).cycles = y.cycles + 2 := by
  subst hy
  refine (completes_gone h exec_yieldPoint
    ((if_neg hkill).trans ((if_neg hfrozen).trans ((if_neg hleave).trans (by rw [hoffer]))))).mono ?_
  rintro t rfl
  rw [State.seat_fetch]
  exact ⟨rfl, rfl, rfl⟩

/-- A YIELD that leaves the seat: it is ready in its save area, and the TE changes to the other one. -/
theorem completes_yield_leave (h : Runs s u) (hy : { (s.seat u).plain with sinceYield := 0 } = y)
    (hkill : ¬(y.intent.isNone = true ∧ y.squash = true)) (hfrozen : ¬(y.intent.isNone = true ∧ (s.lane y.desc.lane).state = .frozen))
    (hleave : (y.intent.isNone = true ∧ s.quiescing u.cluster = true) ∨ s.yieldsTo u y = true) :
    Completes (.yieldPoint u) s fun t => t = (s.setSeat u { y with pc := y.pc + 4, cycles := y.cycles + 40 }).seatChange u .ready true := by
  subst hy
  exact completes_gone h exec_yieldPoint ((if_neg hkill).trans ((if_neg hfrozen).trans (if_pos hleave)))

/-- A YIELD at which an offered item comes to run in the other seat. -/
theorem completes_yield_offer {n : Nat} {i : Item} (h : Runs s u) (hy : { (s.seat u).plain with sinceYield := 0 } = y)
    (hkill : ¬(y.intent.isNone = true ∧ y.squash = true)) (hfrozen : ¬(y.intent.isNone = true ∧ (s.lane y.desc.lane).state = .frozen))
    (hleave : ¬((y.intent.isNone = true ∧ s.quiescing u.cluster = true) ∨ s.yieldsTo u y = true)) (hoffer : s.yieldOffer u y = some (n, i))
    {v : State} (hv : ((s.setSeat u { y with pc := y.pc + 4, cycles := y.cycles + 40 }).seatChange u .ready true).offerItem n i u.cluster = v)
    (hrun : (v.seat (otherSeat u)).phase = .running) : Completes (.yieldPoint u) s fun t => t = v := by
  subst hy hv
  refine completes_gone h exec_yieldPoint ((if_neg hkill).trans ((if_neg hfrozen).trans ((if_neg hleave).trans ?_)))
  rw [hoffer]
  exact congrArg TeRes.gone (if_pos hrun)

/-- A YIELD of a squashed item without an open intent ends it. -/
theorem completes_yield_squash (h : Runs s u) (hy : { (s.seat u).plain with sinceYield := 0 } = y)
    (hkill : y.intent.isNone = true ∧ y.squash = true) : Completes (.yieldPoint u) s fun t => t = s.killSeat u 1 := by
  subst hy
  exact completes_gone h exec_yieldPoint (if_pos hkill)

/-- A YIELD of an itinerary without an open intent in a FROZEN lane suspends it. -/
theorem completes_yield_frozen (h : Runs s u) (hy : { (s.seat u).plain with sinceYield := 0 } = y)
    (hkill : ¬(y.intent.isNone = true ∧ y.squash = true)) (hfrozen : y.intent.isNone = true ∧ (s.lane y.desc.lane).state = .frozen) :
    Completes (.yieldPoint u) s fun t => t = (s.setSeat u { y with pc := y.pc + 4, cycles := y.cycles + 2 }).suspendSeat u := by
  subst hy
  exact completes_gone h exec_yieldPoint ((if_neg hkill).trans (if_pos hfrozen))

end

/-- Settles O17: GATE and GRET by the frame they push and pop, and what a return leaves of the seat and the scratch; YIELD by the
branch its checks take. -/
theorem gateAndReturn : Obligations.GateAndReturn := by
  unfold Obligations.GateAndReturn
  refine ⟨fun s u w marks f r h => ?gates, fun s u h => ?yields⟩
  case gates =>
    intro x
    refine ⟨fun hw hroom => ?gate, fun hw => ?refused, fun hw hstack hgate hf => ?tenant, fun hw hstack hgate hf => ?vendor, fun hw => ?world⟩
    case gate =>
      refine (completes_jump_from h (exec_gate.trans (if_pos hw)) (if_pos hroom) rfl).mono fun t ht => ?_
      rw [ht.seat_eq]
      exact ⟨rfl, rfl, rfl, rfl, rfl, rfl, rfl, fun hx => if_neg (by rw [hx]; exact fun hne => nomatch hne)⟩
    case refused =>
      exact completes_checked (exec_gate.trans (if_neg (ne_true_of_eq_false hw))) h.1
    case tenant =>
      obtain ⟨cost, hdone⟩ := completes_gret_tenant marks h hw hstack hgate hf
      refine hdone.mono fun t ht => ?_
      refine ⟨ht.world.trans (Seat.world_backToTenant _ _ _ _), ht.waymark.trans (Seat.waymark_backToTenant _ _ _ _), ht.pc,
        ht.stack.trans (Seat.stack_backToTenant _ _ _ _), fun i hi => ?b, fun i hlo hhi => ?g, fun p hp hlen i hlo hhi hlist => ?gPassed,
        fun p hp hlen i hi hlist => ?bPassed, fun htok => ⟨fun i hlist => ?gResult, fun i hlist => ?bResult⟩, fun c hc => ?contexts,
        fun i z hz hvendor => ?loaded, fun i z hz htenant => ?kept, fun a hlo hhi => ?wiped, fun a ha => ?memory⟩
      case b => rw [ht.blk, Seat.blk_backToTenant, if_pos hi]
      case g => rw [ht.reg, Seat.reg_backToTenant _ _ _ _ (by omega) hhi, if_pos hlo]
      case gPassed => rw [ht.reg, Seat.reg_backToTenant_passed _ _ _ hp hlen hlo hhi hlist]
      case bPassed => rw [ht.blk, Seat.blk_backToTenant_passed _ _ _ hp hlen hi hlist]
      case gResult => rw [ht.reg, Seat.reg_backToTenant_result _ _ _ htok hlist]
      case bResult => rw [ht.blk, Seat.blk_backToTenant_result _ _ _ htok hlist]
      case contexts =>
        rw [ht.cctx] at hc
        rw [ht.slot]
        exact Seat.cctx_backToTenant _ _ _ hc
      case loaded =>
        rw [ht.slot, Seat.slot_backToTenant] at hz
        exact returnedSlot_returned hz hvendor
      case kept =>
        rw [ht.slot, Seat.slot_backToTenant, show (s.seat u).plain.slot i = some z from hz, returnedSlot_tenant htenant]
      case wiped =>
        rw [ht.mem]
        exact (Memory.read_clear _ _ _ _).trans (if_pos ⟨hlo, hhi⟩)
      case memory =>
        rw [ht.mem]
        exact (Memory.read_clear _ _ _ _).trans (if_neg (by omega))
    case vendor => exact completes_gret_vendor marks h hw hstack hgate hf rfl
    case world => exact completes_vendor_tenant h exec_gret hw
  case yields =>
    intro x y left
    have hopen : x.intent.isSome = true → ¬ y.intent.isNone = true := fun hsome hnone => by
      rw [show x.intent = .none from Option.isNone_iff_eq_none.mp hnone] at hsome
      cases hsome
    refine ⟨fun ⟨hq, hlane, hquiet, hother, hoffer⟩ => ?stay, fun hsome hother hoffer => ?stayOpen, fun hnone hq hlane hasks => ?leave,
      fun hsome hother => ?leaveOpen, fun n i hq hlane hquiet hother hoffer hrun => ?offer, fun hnone hq => ?squashed,
      fun hnone hq hlane => ?frozen⟩
    case stay =>
      refine completes_yield_stay (y := y) h rfl (fun hk => ?_) (fun hk => hlane hk.2) (fun hk => ?_) hoffer
      · exact ne_true_of_eq_false hq hk.2
      · exact hk.elim (fun hk => ne_true_of_eq_false hquiet hk.2) (ne_true_of_eq_false hother)
    case stayOpen =>
      exact completes_yield_stay (y := y) h rfl (fun hk => hopen hsome hk.1) (fun hk => hopen hsome hk.1)
        (fun hk => hk.elim (fun hk => hopen hsome hk.1) (ne_true_of_eq_false hother)) hoffer
    case leave =>
      have hclosed : y.intent.isNone = true := Option.isNone_iff_eq_none.mpr hnone
      exact completes_yield_leave (y := y) h rfl (fun hk => ne_true_of_eq_false hq hk.2) (fun hk => hlane hk.2)
        (hasks.imp (fun hquiet => ⟨hclosed, hquiet⟩) id)
    case leaveOpen =>
      exact completes_yield_leave (y := y) h rfl (fun hk => hopen hsome hk.1) (fun hk => hopen hsome hk.1) (.inr hother)
    case offer =>
      exact completes_yield_offer (y := y) h rfl (fun hk => ne_true_of_eq_false hq hk.2) (fun hk => hlane hk.2)
        (fun hk => hk.elim (fun hk => ne_true_of_eq_false hquiet hk.2) (ne_true_of_eq_false hother)) hoffer rfl hrun
    case squashed =>
      exact completes_yield_squash (y := y) h rfl ⟨Option.isNone_iff_eq_none.mpr hnone, hq⟩
    case frozen =>
      refine (completes_yield_frozen (y := y) h rfl (fun hk => ne_true_of_eq_false hq hk.2) ⟨Option.isNone_iff_eq_none.mpr hnone, hlane⟩).mono ?_
      rintro t rfl
      rw [State.seat_suspendSeat _ h.1, State.items_suspendSeat]
      refine ⟨rfl, rfl, _, rfl, ?_, rfl⟩
      rw [State.desc_suspendedItem, State.seat_setSeat]

end Sys2Proof.Machine
end

section
/-! PROOFS. The itinerary and signer commands (R82-R87, R160): the signature checks ITIN.LOAD asks for, what their verdicts lead to, and
what each command leaves of the images and the signers. -/

namespace Sys2Proof.Machine

/-! ## The checks of an image (R84, R160) -/

section
variable {s : State} {c : Cmd} {job code : Nat}

/-- The check of a signature goes to an MAE for the signer the image names. -/
theorem State.checkSignature_of_signer {z : Signer} (h : signerOf s.tenancy.signers c.body = some z) :
    s.checkSignature c job = s.submitOwn c job (signatureJob z c.body job) := by
  rw [State.checkSignature, h]

/-- An image that names no signer of the part is refused. -/
theorem State.checkSignature_of_none (h : signerOf s.tenancy.signers c.body = .none) :
    s.checkSignature c job = s.refuseImage c 0x0202 2 0x38 := by
  rw [State.checkSignature, h]

/-- The verdict of a signature check reaches a command that is still in flight. -/
theorem State.ownEnds_of_inFlight (h : s.inFlight c = true) (hjob : job ≠ 0x50) (out material : Bytes) :
    s.ownEnds c job code out material = s.signatureChecked c job (code == 0) := by
  rw [State.ownEnds, h, if_neg (by decide), if_neg hjob]

/-- An ECDSA signature that does not verify is refused at its offset. -/
theorem State.signatureChecked_ecdsa_false : s.signatureChecked c 0x11 false = s.refuseImage c 0x0202 2 (sigOffset c.body) := by
  rw [State.signatureChecked, if_pos (by decide), if_pos rfl]

/-- An ML-DSA signature that does not verify is refused at its offset. -/
theorem State.signatureChecked_mldsa_false : s.signatureChecked c 0x31 false = s.refuseImage c 0x0202 2 (sigOffset c.body + 96) := by
  rw [State.signatureChecked, if_pos (by decide), if_neg (by decide)]

/-- The ML-DSA signature is checked once the ECDSA one has verified. -/
theorem State.signatureChecked_ecdsa : s.signatureChecked c 0x11 true = s.checkSignature c 0x31 := by
  rw [State.signatureChecked, if_neg (by decide), if_pos rfl]

/-- With both signatures verified and the rest of their block zero, the image's code is checked. -/
theorem State.signatureChecked_mldsa (h : zeroAt c.body (sigOffset c.body + 4723) 13 = true) :
    s.signatureChecked c 0x31 true = s.loadImage loadSpec c := by
  rw [State.signatureChecked, h]
  rfl

/-- An image whose code fails a check is refused by the check's number and the offset at fault. -/
theorem State.loadImage_of_fault {sp : Spec} {k off : Nat}
    (h : codeFault c.body (bit (hdr c.body 6 2) 0) (s.policyOfColour c.colour) (s.tenancy.profile == .compact) = some (k, off)) :
    s.loadImage sp c = s.refuseImage c 0x0203 k off := by
  rw [State.loadImage, h]

/-- An image under a new name goes into the lowest free granule. -/
theorem State.loadImage_new {sp : Spec} {g : Nat}
    (h : codeFault c.body (bit (hdr c.body 6 2) 0) (s.policyOfColour c.colour) (s.tenancy.profile == .compact) = .none)
    (hnew : s.tenancy.images.find? (fun (y : Image) => y.names (imageRecord c.body 0).colour (imageRecord c.body 0).shared
      (imageRecord c.body 0).id) = .none) (hg : s.freeGranule = some g) (hroom : s.tenancy.images.length < 65536) :
    s.loadImage sp c = answer c (s.installImage c.body g) sp
      (natLE 4 (imageRecord c.body 0).id.toNat ++ natLE 4 (imageRecord c.body 0).version.toNat) := by
  rw [State.loadImage, h]
  simp only [hnew, hg]
  exact if_neg (Nat.not_le.mpr hroom)

/-- An image that is not newer than the one of its name is refused. -/
theorem State.loadImage_old {sp : Spec} {y : Image}
    (h : codeFault c.body (bit (hdr c.body 6 2) 0) (s.policyOfColour c.colour) (s.tenancy.profile == .compact) = .none)
    (hold : s.tenancy.images.find? (fun (y : Image) => y.names (imageRecord c.body 0).colour (imageRecord c.body 0).shared
      (imageRecord c.body 0).id) = some y) (hle : (imageRecord c.body 0).version ≤ y.version) :
    s.loadImage sp c = s.reject c 0x0204 := by
  rw [State.loadImage, h]
  simp only [hold]
  exact if_pos hle

end

/-! ## What the commands leave of the images and the signers -/

section
variable (s : State) (sp : Spec) (c : Cmd)

/-- Completing a command changes nothing of the tenancy. -/
@[simp] theorem tenancy_answer (rsp : Bytes) : (answer c s sp rsp).tenancy = s.tenancy :=
  (State.finish_kept sp c cOk rsp 0 (Kept.refl _ s) (List.Subset.refl _)).tenancy_eq (by decide)

@[simp] theorem State.tenancy_begin : (s.begin sp c).tenancy = s.tenancy :=
  (State.begin_kept sp c (Kept.refl _ s) (List.Subset.refl _)).tenancy_eq (by decide)

@[simp] theorem State.tenancy_cmdAccepted (op : Nat) : (s.cmdAccepted c op).tenancy = s.tenancy :=
  (State.cmdAccepted_kept c op (Kept.refl _ s) (List.Subset.refl _)).tenancy_eq (by decide)

/-- The bracket of a configuration change leaves the signers as the change itself does. -/
theorem State.signers_configured {f : State → State} {l : List Signer} (hf : ∀ t : State, t.tenancy = s.tenancy → (f t).tenancy.signers = l) :
    (s.configured c f).tenancy.signers = l := by
  unfold State.configured
  rw [(State.cmdCommit_kept _ _ _ _ (Kept.refl _ _) (List.Subset.refl _)).tenancy_eq (by decide)]
  exact hf _ ((State.cmdIntent_kept _ _ _ _ (Kept.refl _ _) (List.Subset.refl _)).tenancy_eq (by decide))

end

/-- Settles O40: ITIN.LOAD up to its first signature check, the verdicts of its checks, and the other commands by their own effect. -/
theorem itineraryCommands : Obligations.ItineraryCommands := by
  unfold Obligations.ItineraryCommands
  intro s s1 c sp g y b x id key refused shared
  refine ⟨fun h hfits hcolour => ?load, fun hflight z => ?verdict, fun h hlen hz hright hloaded => ?unload, fun h hlen => ?list,
    fun h hlen hz hfresh hroom hauth hsame => ?add, fun h hlen hknown hauth hsame => ?remove⟩
  case load =>
    have hfit : ¬ (64 ≤ c.body.length ∧ headerFits c c.body = false) := fun hno => ne_true_of_eq_false hno.2 hfits
    have hpart : ¬ (c.colour ≠ 0 ∧ (s.part? c.colour).isNone = true) := fun hno => hcolour.elim hno.1 fun hsome => by
      rw [Option.isNone_iff_eq_none.mp hno.2] at hsome
      cases hsome
    have hchecks : ∀ {P : State → Prop}, P (match headerFault c.body with
        | some o => s.refuseImage c 0x0201 1 o
        | .none => (s.begin sp c).checkSignature c 0x11) → Completes (.itinLoad c) s P := fun hP =>
      completes_cmd h (exec_itinLoad.trans (by unfold execItinLoad; rfl)) rfl (by rw [if_neg hfit, if_neg hpart]; exact hP)
    refine ⟨fun o hfault => hchecks ?_, fun hsound hsigner => hchecks ?_, fun z hsound hsigner => hchecks ?_⟩
    · rw [hfault]
      rfl
    · rw [hsound]
      exact State.checkSignature_of_none (by rw [State.tenancy_begin]; exact hsigner)
    · rw [hsound]
      exact State.checkSignature_of_signer (by rw [State.tenancy_begin]; exact hsigner)
  case verdict =>
    have hverdict := fun (job code : Nat) (hjob : job ≠ 0x50) => State.ownEnds_of_inFlight (code := code) hflight hjob [] []
    have hloads : zeroAt b (sigOffset b + 4723) 13 = true → s.ownEnds c 0x31 0 [] [] = s.loadImage loadSpec c := fun hz =>
      (hverdict 0x31 0 (by decide)).trans (State.signatureChecked_mldsa hz)
    refine ⟨fun hsigner => ?_, (hverdict 0x11 1 (by decide)).trans State.signatureChecked_ecdsa_false,
      (hverdict 0x31 1 (by decide)).trans State.signatureChecked_mldsa_false, fun hz k off hfault => ?_, fun hz hsound =>
      ⟨fun hnew hg hroom => ?_, fun hold hle => ?_⟩⟩
    · rw [hverdict 0x11 0 (by decide)]
      refine State.signatureChecked_ecdsa.trans ?_
      exact State.checkSignature_of_signer hsigner
    · exact (hloads hz).trans (State.loadImage_of_fault hfault)
    · exact (hloads hz).trans (State.loadImage_new hsound hnew hg hroom)
    · exact (hloads hz).trans (State.loadImage_old hsound hold hle)
  case unload =>
    refine completes_cmd h (exec_itinUnload.trans (by unfold execItinUnload; rfl))
      (by simp [show c.body.length = 8 from hlen, show zeroAt c.body 4 4 = true from hz]) ?_
    rw [if_neg hright, if_pos hloaded, tenancy_answer,
      (State.refuseWaiting_kept _ _ _ (Kept.refl _ _) (List.Subset.refl _)).tenancy_eq (by decide)]
  case list =>
    refine completes_cmd h (exec_itinList.trans (by unfold execItinList; rfl)) (beq_iff_eq.mpr hlen) ?_
    rfl
  case add =>
    refine completes_cmd h (exec_itinSignerAdd.trans (by unfold execItinSignerAdd; rfl))
      (by simp [show c.body.length = 2712 from hlen, show zeroAt c.body 113 7 = true from hz]) ?_
    rw [if_neg (ne_true_of_eq_false hfresh), if_neg (Nat.not_le.mpr hroom), hauth, tenancy_answer]
    refine State.signers_configured _ _ fun t ht => ?_
    rw [ht, State.tenancy_cmdAccepted, State.tenancy_begin, hsame]
  case remove =>
    refine completes_cmd h (exec_itinSignerRemove.trans (by unfold execItinSignerRemove; rfl)) (beq_iff_eq.mpr hlen) ?_
    rw [if_neg (by rw [hknown]; exact Bool.false_ne_true), hauth, tenancy_answer]
    refine State.signers_configured _ _ fun t ht => ?_
    rw [ht, State.tenancy_cmdAccepted, State.tenancy_begin, hsame]

end Sys2Proof.Machine
end

section
/-! PROOFS. What the arrival of a fault leaves as it was (R476, R480-R482): below class 3 everything but the collector, the recorder's counters
and the PF's EVENT register; a fault of class 4 latches the grave stop. -/

namespace Sys2Proof.Machine

/-- The state after what the hardware does at an arrival of a class (R476): class 3 and class 4 stop the part. -/
def State.stoppedFor (s : State) (cls : Nat) : State :=
  if cls = 3 then s.stopDevice false else if cls = 4 then s.stopDevice true else s

theorem State.stoppedFor_of_lt {s : State} {cls : Nat} (h : cls < 3) : s.stoppedFor cls = s := by
  rw [State.stoppedFor, if_neg (by omega), if_neg (by omega)]

theorem State.stoppedFor_grave {s : State} : s.stoppedFor 4 = s.stopDevice true := by
  rw [State.stoppedFor, if_neg (by decide), if_pos rfl]

/-- The update of one more record is still a change of the recorder alone. -/
theorem State.updateRec_recorded {s t : State} {n : Nat} {f : List Int → List Int} (h : ∃ r, t = { s with recorder := r }) :
    ∃ r, t.updateRec n f = { s with recorder := r } := by
  obtain ⟨r, rfl⟩ := h
  exact ⟨_, rfl⟩

/-- What the collector does with a message (R480-R482): its own tables, under the grave latch as it stands, the recorder's counters, and for
the first in the queue the alert. -/
def State.Logs (s t : State) : Prop := ∃ (f : Faults) (r : Recorder), f.grave = s.faults.grave ∧
  (t = { s with faults := f, recorder := r } ∨ t = (({ s with faults := f, recorder := r } : State).emit (.smbAlert true)).setEvent 0 5)

section
variable {s t : State}

theorem State.Logs.grave (h : s.Logs t) : t.faults.grave = s.faults.grave := by
  obtain ⟨f, r, hf, rfl | rfl⟩ := h
  · exact hf
  · rw [State.setEvent_faults]; exact hf

theorem State.Logs.kept (h : s.Logs t) : Kept [.out, .pcie, .faults, .recorder] s t := by
  obtain ⟨f, r, -, h⟩ := h
  have hlogged : Kept [.out, .pcie, .faults, .recorder] s { s with faults := f, recorder := r } := by constructor <;> simp
  rcases h with rfl | rfl
  · exact hlogged
  · exact State.setEvent_kept 0 5 (State.emit_kept _ hlogged (by decide)) (by decide)

end

section
variable (s : State) {cls : Nat} (kind : Byte) (src : BitVec 16) (detail : Word)

/-- An arrival is the stop of its class and the collector's part. -/
theorem State.arrive_logs : (s.stoppedFor cls).Logs (s.arrive cls kind src detail) := by
  unfold State.arrive
  rw [← State.stoppedFor]
  extract_lets z m wasEmpty counted
  split
  next q lost joined _ =>
    extract_lets joinedTo lostFrom f logged
    have hcounted : ∃ r, counted = { z with recorder := r } := State.updateRec_recorded ⟨_, rfl⟩
    have hjoined : ∃ r, joinedTo = { z with recorder := r } := by
      unfold joinedTo
      split
      · exact State.updateRec_recorded hcounted
      · exact hcounted
    obtain ⟨r, hr⟩ : ∃ r, lostFrom = { z with recorder := r } := by
      unfold lostFrom
      split
      · exact hjoined
      · exact State.updateRec_recorded hjoined
    have hlogged : logged = { z with faults := logged.faults, recorder := r } := by simp only [logged, hr]
    refine ⟨logged.faults, r, by simp only [logged, f, hr]; rfl, ?_⟩
    rw [← hlogged]
    split
    · exact .inr rfl
    · exact .inl rfl

/-- Below class 3 a fault reaches the collector, the recorder's counters and the PF's EVENT register alone. -/
theorem State.fault_kept_of_lt (h : cls < 3) : Kept [.out, .pcie, .faults, .recorder] s (s.fault cls kind src detail) := by
  rw [State.fault_eq_arrive h]
  simpa only [State.stoppedFor_of_lt h] using (s.arrive_logs (cls := cls) kind src detail).kept

/-- Below class 3 a fault takes the collector's next sequence number. -/
@[simp] theorem State.seq_fault (h : cls < 3) : (s.fault cls kind src detail).faults.seq = s.faults.seq + 1 := by
  rw [State.fault_eq_arrive h, State.arrive_seq h]

@[simp] theorem State.now_fault (h : cls < 3) : (s.fault cls kind src detail).now = s.now :=
  (s.fault_kept_of_lt kind src detail h).now_eq (by decide)

@[simp] theorem State.power_fault (h : cls < 3) : (s.fault cls kind src detail).power = s.power :=
  (s.fault_kept_of_lt kind src detail h).power_eq (by decide)

@[simp] theorem State.keys_fault (h : cls < 3) : (s.fault cls kind src detail).keys = s.keys :=
  (s.fault_kept_of_lt kind src detail h).keys_eq (by decide)

@[simp] theorem State.depot_fault (h : cls < 3) : (s.fault cls kind src detail).depot = s.depot :=
  (s.fault_kept_of_lt kind src detail h).depot_eq (by decide)

end

/-! ## The grave stop (R476, R477) -/

section
variable (s : State)

@[simp] theorem State.power_setEventAll (b : Nat) : (s.setEventAll b).power = s.power :=
  (State.setEventAll_kept b (Kept.refl _ s) (List.Subset.refl _)).power_eq (by decide)

@[simp] theorem State.faults_setEventAll (b : Nat) : (s.setEventAll b).faults = s.faults :=
  (State.setEventAll_kept b (Kept.refl _ s) (List.Subset.refl _)).faults_eq (by decide)

@[simp] theorem State.power_aliveStop : s.aliveStop.power = s.power :=
  (State.aliveStop_kept (Kept.refl _ s) (List.Subset.refl _)).power_eq (by decide)

@[simp] theorem State.grave_aliveStop : s.aliveStop.faults.grave = s.faults.grave := by
  unfold State.aliveStop
  split <;> simp

/-- The device state entered is the one asked for. -/
@[simp] theorem State.dev_setDev (d : DevState) : (s.setDev d).power.dev = d := by
  unfold State.setDev
  split
  · assumption
  · dsimp only
    split <;> split <;> simp

/-- Entering a device state does not touch the grave latch. -/
@[simp] theorem State.grave_setDev (d : DevState) : (s.setDev d).faults.grave = s.faults.grave := by
  unfold State.setDev
  split
  · rfl
  · dsimp only
    split <;> split <;> simp

/-- A stop for a grave fault latches it and enters GRAVE (R476, R477). -/
theorem State.stopDevice_grave : (s.stopDevice true).faults.grave = true ∧ (s.stopDevice true).power.dev = .grave := by
  unfold State.stopDevice
  extract_lets
  rw [if_pos rfl, State.grave_setDev, State.dev_setDev]
  exact ⟨rfl, rfl⟩

/-- With no card writing, a class 4 fault leaves the part in GRAVE under the latch. -/
theorem State.fault_grave (h : s.writingCard = .none) (kind : Byte) (src : BitVec 16) (detail : Word) :
    (s.fault 4 kind src detail).faults.grave = true ∧ (s.fault 4 kind src detail).power.dev = .grave := by
  have harrive : s.fault 4 kind src detail = s.arrive 4 kind src detail := by unfold State.fault; rw [h]
  have hlogs := s.arrive_logs (cls := 4) kind src detail
  rw [harrive, hlogs.grave, hlogs.kept.power_eq (by decide), State.stoppedFor_grave]
  exact s.stopDevice_grave

end

end Sys2Proof.Machine
end

section
/-! PROOFS. Errors of the memories (R94, R202, R511, R518, R519): the queue of page remaps, the counts, and what each event does. -/

namespace Sys2Proof.Machine

/-! ## The queue of page remaps and the count of a bank -/

section
variable (s : State) (ch page cell : Nat)

@[simp] theorem State.faults_queuePage : (s.queuePage ch page).faults = s.faults :=
  (State.queuePage_kept ch page (Kept.refl _ s) (List.Subset.refl _)).faults_eq (by decide)

/-- A page that neither waits for a remap nor has had one joins the queue. -/
theorem State.remapQueue_queuePage {s : State} {page : Nat} (hnew : (s.power.remapQueue.any fun q => q.2 == page) = false)
    (hfresh : s.power.remapped.contains page = false) : (s.queuePage ch page).power.remapQueue = s.power.remapQueue ++ [(ch, page)] := by
  rw [State.queuePage, if_neg (by rw [hnew, hfresh]; decide)]
  rfl

/-- A corrected word of the pool is none of the caddy's. -/
@[simp] theorem State.keys_poolCorrected : (s.poolCorrected cell).keys = s.keys := by
  unfold State.poolCorrected
  dsimp only
  split <;> rfl

/-- It is counted against its bank. -/
@[simp] theorem State.bankCorrected_poolCorrected : (s.poolCorrected cell).depot.bankCorrected =
    s.depot.bankCorrected.set (cell / 4096) (s.depot.bankCorrected.get (cell / 4096) 0 + 1) := by
  unfold State.poolCorrected
  dsimp only
  split <;> rfl

end

/-! ## What each event does where its condition holds -/

section
variable {s : State} {ch page : Nat} {d : Word}

/-- With no row error on record a corrected word is the only one. -/
theorem exec_dramCorrected_first {a : BitVec 40} (hch : chOk ch = true) (hrows : s.power.rowErrors = []) :
    exec (.dramCorrected ch a) s = .next ((s.fault 1 0x03 (srcMem ch) (a.zeroExtend 64)).modPower fun p =>
      { p with rowErrors := [(a.toNat / 8, s.now)] }) := by
  have hfew : ¬ 3 ≤ ([(a.toNat / 8, s.now)].filter fun e => e.1 / 512 == a.toNat / 4096).length :=
    Nat.not_le.mpr (Nat.lt_of_le_of_lt (List.length_filter_le _ _) (Nat.lt_succ_of_lt Nat.one_lt_two))
  simp only [exec_dramCorrected, execDramCorrected, checked, hch, if_true, State.power_fault, State.now_fault, Nat.reduceLT, hrows,
    List.filter_nil, List.nil_append, if_neg hfew]

/-- A page that waits is in the queue. -/
theorem find?_remapQueue (hq : ∃ q ∈ s.power.remapQueue, q.2 = page) : ∃ q, s.power.remapQueue.find? (fun q => q.2 == page) = some q := by
  obtain ⟨q, hq, hpage⟩ := hq
  exact Option.isSome_iff_exists.mp (List.find?_isSome.mpr ⟨q, hq, beq_iff_eq.mpr hpage⟩)

/-- The Steward serves a page that waits from a spare one. -/
theorem exec_dramPageRemap_spare (hq : ∃ q ∈ s.power.remapQueue, q.2 = page) (hspare : 0 < s.power.spare) :
    exec (.dramPageRemap page) s = .next (s.modPower fun p =>
      { p with remapQueue := p.remapQueue.filter fun q => q.2 != page, spare := p.spare - 1, remapped := p.remapped ++ [page] }) := by
  obtain ⟨q, hfind⟩ := find?_remapQueue hq
  rw [exec_dramPageRemap, execDramPageRemap, hfind]
  exact congrArg _ (if_pos hspare)

/-- With no spare page left a page that waits is counted and raises the channel's fault. -/
theorem exec_dramPageRemap_exhausted (hq : ∃ q ∈ s.power.remapQueue, q.2 = page) (hspare : s.power.spare = 0) :
    ∃ c, exec (.dramPageRemap page) s = .next ((s.modPower fun p =>
      { p with remapQueue := p.remapQueue.filter fun q => q.2 != page, rowsCounted := p.rowsCounted + 1 }).fault 2 0x04 (srcMem c)
        (BitVec.ofNat 64 (page * 4096))) := by
  obtain ⟨q, hfind⟩ := find?_remapQueue hq
  rw [exec_dramPageRemap, execDramPageRemap, hfind]
  exact ⟨q.1, congrArg _ (if_neg (Nat.not_lt.mpr (Nat.le_of_eq hspare)))⟩

/-- A corrected word of the caddy. -/
theorem exec_sramCorrected_caddy : exec (.sramCorrected (srcHub 1) d) s =
    .next { s.fault 1 0x01 (srcHub 1) d with
      keys := { s.keys with corrected := s.keys.corrected + 1 } } := by
  have hcluster : clusterOfSrc (srcHub 1) = .none := by decide
  have hpool : ¬ (srcHub 1 = srcHub 0 ∧ d.toNat % 2 ^ 40 / 64 < 65536) := fun h => absurd h.1 (by decide)
  simp only [exec_sramCorrected, execSramCorrected, hcluster, if_neg hpool, if_true, State.keys_fault, Nat.reduceLT]

/-- A corrected word of the Depot's pool. -/
theorem exec_sramCorrected_pool (hcell : d.toNat % 2 ^ 40 / 64 < 65536) : exec (.sramCorrected (srcHub 0) d) s =
    .next ((s.fault 1 0x01 (srcHub 0) d).poolCorrected (d.toNat % 2 ^ 40 / 64)) := by
  have hcluster : clusterOfSrc (srcHub 0) = .none := by decide
  have hcaddy : ¬ srcHub 0 = srcHub 1 := by decide
  simp only [exec_sramCorrected, execSramCorrected, hcluster, hcell, and_self, if_true, if_neg hcaddy]

end

/-- Settles O57: each event by its own equation; a fault below class 3 leaves the memories' counts alone, and one of class 4 is the grave
stop. -/
theorem memoryErrors : Obligations.MemoryErrors := by
  unfold Obligations.MemoryErrors
  intro s ch page a off slot src d hcard
  refine ⟨fun hch => ?uncorrectable, fun hch hrows => ⟨_, exec_dramCorrected_first hch hrows, ?corrected⟩,
    fun hq hspare => ⟨_, exec_dramPageRemap_spare hq hspare, ?remap⟩, fun hq hspare => ?exhausted,
    ⟨_, exec_caddyIntegrity, s.fault_grave hcard _ _ _⟩, fun hsrc => ⟨_, hsrc ▸ exec_sramCorrected_caddy, ?caddy⟩,
    fun hsrc hcell => ⟨_, hsrc ▸ exec_sramCorrected_pool hcell, ?pool⟩, ⟨_, exec_mramCorrected, rfl, by simp⟩⟩
  case uncorrectable =>
    refine (completes_checked exec_dramUncorrectable hch).mono fun t ht => ⟨ht, fun hnew hfresh => ?_, by simp [ht]⟩
    have hpower : (s.fault 2 0x04 (srcMem ch) (a.zeroExtend 64)).power = s.power := by simp
    rw [← hpower] at hnew hfresh ⊢
    rw [ht, State.remapQueue_queuePage ch hnew hfresh]
  case corrected => simp [State.modPower]
  case remap => exact ⟨rfl, rfl, fun q hq => bne_iff_ne.mp (List.mem_filter.mp hq).2, rfl⟩
  case exhausted =>
    obtain ⟨c, hexec⟩ := exec_dramPageRemap_exhausted hq hspare
    exact ⟨_, hexec, by simp [State.modPower, hspare]⟩
  case caddy => simp
  case pool => simp

end Sys2Proof.Machine
end

section
/-! PROOFS. The Depot's overflow and its cells (R94, R113, R115), the sleep and the wake of a cluster (R106-R112, R146, R419, R512), and the
placement evaluation. -/

namespace Sys2Proof.Machine

/-! ## Cells of the pool (R94) -/

/-- A cell retired is listed, the last of its Depot, and no item is touched, whether its bank goes with it or not. -/
theorem State.depot_retireCell (s : State) (n : Nat) :
    (s.retireCell n).depot.retired = s.depot.retired ++ [n] ∧ (s.retireCell n).depot.items = s.depot.items := by
  unfold State.retireCell
  dsimp only
  split <;> simp

/-! ## Sleep (R110, R111, R151) -/

/-- A wiped range reads zero, every other byte as before. -/
theorem State.read_wipe (s : State) (lo hi a : Nat) : (s.wipe lo hi).mem.read a = if lo ≤ a ∧ a < hi then 0 else s.mem.read a :=
  Memory.read_clear s.mem lo hi a

/-- The scratch of the seats ends below the cluster stores. -/
theorem scratchBase_le_storeBase {c d : Nat} (hc : c ≤ 36) : scratchBase ⟨c, 0, 0⟩ ≤ storeBase d := by
  simp only [scratchBase, storeBase, seatKey]
  omega

/-- A sleep first wraps the streams' contexts and empties the TE slots, which no byte of memory shows. -/
theorem State.sleepNow_eq (s : State) (c : Nat) : ∃ z : State, z.mem = s.mem ∧
    s.sleepNow c = ((z.modCluster c fun x =>
      { x with power := .asleep, wrapped := (s.streamsOf c).map Stream.key, mae := { x.mae with keyTable := [] } }).wipe
        (scratchBase ⟨c, 0, 0⟩) (scratchBase ⟨c + 1, 0, 0⟩)).wipe (storeBase c) (storeBase c + 0xC0000) := by
  have hstreams : Kept [.port0, .port1, .tes] s ((s.streamsOf c).foldl (fun s x =>
      s.setStream { x with te := .none, key1 := [], key2 := [], loading := false }) s) :=
    Kept.foldl (fun t x => State.setStream_kept _ (Kept.refl _ t) (by decide)) _ s (Kept.refl _ s)
  have hkept := State.modTes_kept c (fun t => { t with stream := .none, next := .none, store := [] }) hstreams (by decide)
  exact ⟨_, hkept.mem_eq (by decide), rfl⟩

/-- What a sleep leaves of the cluster and of the memory. -/
theorem State.sleepNow_asleep (s : State) {c : Nat} (hc : clusterOk c = true) :
    ((s.sleepNow c).cluster c).power = .asleep ∧ ((s.sleepNow c).cluster c).mae.keyTable = [] ∧
      (∀ a, scratchBase ⟨c, 0, 0⟩ ≤ a → a < scratchBase ⟨c + 1, 0, 0⟩ → (s.sleepNow c).mem.read a = 0) ∧
      (∀ a, storeBase c ≤ a → a < storeBase c + 0xC0000 → (s.sleepNow c).mem.read a = 0) ∧
      (∀ a, storeBase c + 0xC0000 ≤ a → (s.sleepNow c).mem.read a = s.mem.read a) := by
  obtain ⟨z, hmem, hz⟩ := s.sleepNow_eq c
  have hread : ∀ a, (s.sleepNow c).mem.read a = if storeBase c ≤ a ∧ a < storeBase c + 0xC0000 then 0
      else if scratchBase ⟨c, 0, 0⟩ ≤ a ∧ a < scratchBase ⟨c + 1, 0, 0⟩ then 0 else s.mem.read a := fun a => by
    rw [hz, State.read_wipe, State.read_wipe, State.modCluster, State.setCluster_mem, hmem]
  have hbelow : scratchBase ⟨c + 1, 0, 0⟩ ≤ storeBase c := scratchBase_le_storeBase (by simpa [clusterOk] using hc)
  refine ⟨by rw [hz]; simp [State.modCluster], by rw [hz]; simp [State.modCluster], fun a hlo hhi => ?_, fun a hlo hhi => ?_, fun a hlo => ?_⟩ <;>
    rw [hread]
  · rw [if_pos (And.intro hlo hhi), ite_self]
  · rw [if_pos ⟨hlo, hhi⟩]
  · rw [if_neg (by omega), if_neg (by omega)]

/-! ## Wake (R111, R146, R419) -/

/-- An expander is no more of a cluster than its own. -/
theorem State.cluster_setExpander (s : State) (e : Nat) (x : Expander) (c : Nat) :
    ∃ y, (s.setExpander e x).cluster c = { s.cluster c with drbg := y } := by
  unfold State.setExpander
  split
  · exact ⟨_, rfl⟩
  · by_cases hec : e = c
    · subst hec
      exact ⟨x, State.cluster_setCluster ..⟩
    · exact ⟨_, State.cluster_setCluster_ne _ _ hec⟩

/-- Asking for a seed changes nothing of a cluster but its expander. -/
theorem State.cluster_seedExpander (s : State) (e c : Nat) : ∃ y, (s.seedExpander e).cluster c = { s.cluster c with drbg := y } := by
  unfold State.seedExpander
  dsimp only
  split
  · exact ⟨_, rfl⟩
  · have hask : ∀ t : State, (t.askDraw e).cluster c = t.cluster c := fun t => by unfold State.askDraw; split <;> rfl
    rw [hask]
    exact s.cluster_setExpander e _ c

/-- A cluster as it is awake, but for its expander (R146): the key of the start-up, and in service no longer confined. -/
def State.awakened (s : State) (c : Nat) : Cluster :=
  { s.cluster c with power := .awake, transferKey := s.transferKey, confined := (s.cluster c).confined && (s.cluster c).state != .inService }

/-- A cluster in service wakes into that, with no known-answer test to run first. -/
theorem State.cluster_clusterAwake {s : State} {c : Nat} (h : (s.cluster c).state = .inService) :
    ∃ y, (s.clusterAwake c).cluster c = { s.awakened c with drbg := y } := by
  obtain ⟨y, hy⟩ := (s.setCluster c (s.awakened c)).cluster_seedExpander c c
  rw [State.cluster_setCluster] at hy
  have hstate : (((s.setCluster c (s.awakened c)).seedExpander c).cluster c).state ≠ .engaging := by
    rw [hy, show ({ s.awakened c with drbg := y } : Cluster).state = (s.cluster c).state from rfl, h]
    decide
  exact ⟨y, (congrArg (fun t : State => t.cluster c) (if_neg hstate)).trans hy⟩

/-- Settles O24: overflow and retirement by the branches of their events, a sleep by the reads after its two wipes, a wake by what asking
for a seed leaves of the cluster. -/
theorem depotAndClusters : Obligations.DepotAndClusters := by
  unfold Obligations.DepotAndClusters
  refine ⟨fun s l bank cell i cs hl => ⟨fun hhead hplace hbegin hfits hcells => ?refills, fun hhead hplace hover => ?full,
      fun hhead hplace => ?done, fun hbank hcell hnew hfree => ?retired⟩, fun s c hc => ⟨fun hmay hheld => ?sleeps, fun hmay hheld => ?deferred, fun hmay => ?busy,
      fun hpower hstate => ?wakes, fun hpower => ?fails, ⟨_, exec_placementEvaluation, rfl⟩⟩⟩
  case refills =>
    refine (completes_checked exec_overflowRefill hl).mono fun t ht => ?_
    rw [ht, hhead]
    dsimp only
    have hgo : ((s.lane l).refill || decide (2 * s.depot.laneCells l < (s.lane l).quota)) = true := by simpa using hbegin
    rw [if_neg (not_not.mpr hplace), if_pos (And.intro hgo hfits), hcells]
  case full =>
    refine (completes_checked exec_overflowRefill hl).mono fun t ht => ?_
    rw [ht, hhead]
    dsimp only
    rw [if_neg (not_not.mpr hplace), if_neg]
    rintro ⟨hgo, hfits⟩
    rcases hover with ⟨hnot, hquota⟩ | ⟨hsome, hquota⟩
    · have hbelow : 2 * s.depot.laneCells l < (s.lane l).quota := by simpa [hnot] using hgo
      omega
    · omega
  case done =>
    refine (completes_checked exec_overflowRefillDone hl).mono fun t ht => ?_
    rw [ht, hhead]
    exact if_pos hplace
  case retired =>
    refine (completes_checked exec_depotCellUncorrectable (by simp [hbank, hcell])).mono fun t ht => ?_
    rw [ht, if_neg (ne_true_of_eq_false hnew), hfree]
    exact s.depot_retireCell _
  case sleeps =>
    refine (completes_checked exec_clusterSleep hc).mono fun t ht => ?_
    rw [ht, if_pos hmay, if_neg (ne_true_of_eq_false hheld)]
    exact s.sleepNow_asleep hc
  case deferred =>
    refine (completes_checked exec_clusterSleep hc).mono fun t ht => ?_
    rw [ht, if_pos hmay, if_pos hheld]
  case busy =>
    refine (completes_checked exec_clusterSleep hc).mono fun t ht => ?_
    rw [ht, if_neg (ne_true_of_eq_false hmay)]
  case wakes =>
    refine (completes_checked exec_clusterWakeDone hc).mono fun t ht => ?_
    rw [ht, if_pos hpower, if_pos rfl]
    obtain ⟨y, hy⟩ := State.cluster_clusterAwake hstate
    rw [hy]
    exact ⟨rfl, rfl, by simp [State.awakened, hstate]⟩
  case fails =>
    refine (completes_checked exec_clusterWakeDone hc).mono fun t ht => ?_
    rw [ht, if_pos hpower, if_neg Bool.false_ne_true]

end Sys2Proof.Machine
end

section
/-! PROOFS. Fill serials (R127): what a fill of a slot leaves of the TE and of the seat, and what an emptied slot or a closed context leaves
open. -/

namespace Sys2Proof.Machine

/-! ## The serial of a TE -/

/-- Outside the TEs every TE reads as before. -/
theorem Kept.te_eq {W : List Fld} {s t : State} (h : Kept W s t) (hf : Fld.tes ∉ W) (c i : Nat) : t.te c i = s.te c i := by
  simp [State.te, h.tes_eq hf]

/-- A power loss leaves no TE but as it is at power-up. -/
theorem State.te_powerLoss (s : State) (railsLost : Bool) (c i : Nat) : (s.powerLoss railsLost).te c i = Te.fresh := rfl

/-- The TE after an instruction is the one its effect left. -/
theorem Ran.te {u : SeatRef} {s1 t : State} {x : Seat} {pc : BitVec 32} {cost : Nat} (h : Ran u s1 x pc cost t) (c i : Nat) :
    t.te c i = s1.te c i := by
  rw [h.1]
  rfl

theorem Ran.dctx {u : SeatRef} {s1 t : State} {x : Seat} {pc : BitVec 32} {cost : Nat} (h : Ran u s1 x pc cost t) :
    (t.seat u).dctx = x.dctx := by rw [h.seat_eq]

/-! ## Emptied and filled slots -/

/-- No HMAC context stays open on an emptied slot (R127). -/
theorem Seat.dctx_emptySlot {x : Seat} {i : Fin 8} {d : DigestCtx} (hd : (x.emptySlot i).dctx = some d) :
    x.dctx = some d ∧ (d.hmac = true → d.slot ≠ i) := by
  simpa [Seat.emptySlot, Option.filter_eq_some_iff, imp_iff_not_or] using hd

section
variable (s : State) (u : SeatRef) (x : Seat) (k : Fin 8) (key : Key) (lib : Bool)

/-- What a fill puts in its slot (R64, R127, R192). -/
def State.filledSlot : Slot :=
  { key := key, vendorLoaded := x.world == .vendor, libOnly := lib || key.attrs.libOnly, returned := false, serial := (s.te u.cluster u.te).serial }

/-- A fill raises the TE's serial by 1. -/
@[simp] theorem State.serial_fillSlot :
    ((s.fillSlot u x k key lib).1.te u.cluster u.te).serial = (s.te u.cluster u.te).serial + 1 := by
  simp [State.fillSlot]

theorem State.slot_fillSlot (j : Fin 8) :
    (s.fillSlot u x k key lib).2.slot j = if j = k then some (s.filledSlot u x key lib) else x.slot j := by
  rw [State.fillSlot, Seat.slot_setSlot, Seat.slot_emptySlot]
  split <;> rfl

/-- A fill closes the contexts an emptied slot closes, and no other. -/
@[simp] theorem State.cctx_fillSlot : (s.fillSlot u x k key lib).2.cctx = (x.emptySlot k).cctx := rfl
@[simp] theorem State.dctx_fillSlot : (s.fillSlot u x k key lib).2.dctx = (x.emptySlot k).dctx := rfl

end

/-! ## Contexts -/

/-- A context as C.INIT opens it differs from the plain one of its slot in its starting values alone (R131). -/
theorem State.openCipher_ok {s : State} {x : Seat} {n : Nat} {k : Fin 8} {q : Slot} {v : Block} {c : CipherCtx}
    (h : s.openCipher x n k q v = .ok c) : c = { CipherCtx.opened n k q with chain := c.chain, ctrB := c.ctrB } := by
  unfold State.openCipher at h
  split at h
  · cases hkey : s.useKey x (k + 1) (some eTeCipher) [] with
    | error code => rw [hkey] at h; cases h
    | ok q2 =>
      rw [hkey, ok_bind] at h
      cases hpair : modeAccepts 8 q2.key && q2.key.material.length == q.key.material.length && q2.key.material != q.key.material with
      | false => rw [need_error hpair] at h; cases h
      | true => rw [need_of hpair] at h; cases h; rfl
  · split at h
    · split at h <;> cases h
      rfl
    · split at h <;> cases h <;> rfl

/-- No step finds a cipher context that is not open. -/
theorem Seat.cipher_of_closed {x : Seat} (h : x.cctx = .none) (ms : List Nat) : x.cipher ms = .error 0x0D := by
  simp only [Seat.cipher, h]

/-- No step finds a digest context that is not open. -/
theorem Seat.digesting_of_closed {x : Seat} (h : x.dctx = .none) : x.digesting = .error 0x0D := by
  simp only [Seat.digesting, h]

section
variable {i : Instr} {s : State} {u : SeatRef} {code : Byte}

/-- An instruction of Except form whose first check or read `e` fails raises its code. -/
theorem completes_ex_first_error {α : Type} {f : State → Seat → Except Byte (State × Seat × Nat)} {e : Except Byte α}
    {r : α → Except Byte (State × Seat × Nat)} (h : Runs s u) (he : exec i s = runEx u s f) (hf : f s (s.seat u).plain = e >>= r)
    (hfirst : e = .error code) : Completes i s fun t => t = s.raise u code :=
  completes_ex_error h he (by rw [hf, hfirst, error_bind])

/-- C.ENC and C.DEC raise CONTEXT where no cipher context is open. -/
theorem completes_cipherStep_closed {bx by_ : Fin 8} {m : BitVec 6} {dec : Bool} (h : Runs s u)
    (he : exec i s = cipherStep u bx by_ m dec s) (hc : (s.seat u).plain.cctx = .none) : Completes i s fun t => t = s.raise u 0x0D :=
  completes_ex_first_error h he rfl (Seat.cipher_of_closed hc _)

end

/-! ## The key instructions that fill and empty a slot -/

/-- K.LOAD of a key in the caddy fills its slot (R200). -/
theorem completes_kLoad {s : State} {u : SeatRef} {x : Seat} {k : Fin 8} {g : Fin 32} {e : CaddyEntry} (h : Runs s u)
    (hx : (s.seat u).plain = x) (hhit : s.caddyFind x.desc.colour (x.reg g) = some e) :
    Completes (.kLoad u k g) s
      (let r := (s.caddyHit x.desc.colour (x.reg g)).drawn.fillSlot u x k e.key e.key.attrs.libOnly
       Ran u r.1 r.2 (x.pc + 4) (s.waitCost u.cluster 60)) := by
  subst hx
  refine completes_onward h exec_kLoad ?_ rfl rfl
  simp only [hhit]
  rfl

theorem completes_kClr {s : State} {u : SeatRef} {x : Seat} (h : Runs s u) (hx : (s.seat u).plain = x) (k : Fin 8) :
    Completes (.kClr u k) s (Ran u s (x.emptySlot k) (x.pc + 4) 1) := by
  subst hx
  exact completes_onward h exec_kClr rfl rfl rfl

/-- Settles O14: a fill by what it leaves of the TE and of the seat, K.LOAD and K.CLR by the fill and the emptying they are, a closed
context by the step that does not find it. -/
theorem fillSerials : Obligations.FillSerials := by
  unfold Obligations.FillSerials
  intro s u k key lib q v n c g m e bx by_
  refine ⟨fun _ _ => rfl, fun hporst => ?porst, fun hu => ?fill, fun hopen => ?opened, fun h => ?runs⟩
  case porst =>
    refine ⟨s.powerLoss false, ?_, fun i j => by rw [State.te_powerLoss]; rfl⟩
    rw [exec_porstNAssert, execPorstNAssert, if_neg (ne_true_of_eq_false hporst)]
  case fill =>
    refine ⟨State.serial_fillSlot .., ⟨_, (State.slot_fillSlot ..).trans (if_pos rfl), rfl⟩,
      fun j hj => (State.slot_fillSlot ..).trans (if_neg hj), fun c hc => ?_, fun d hd => ?_⟩
    · exact (Seat.cctx_emptySlot hc).2
    · exact (Seat.dctx_emptySlot hd).2
  case opened =>
    rw [State.openCipher_ok hopen]
    exact ⟨rfl, rfl⟩
  case runs =>
    intro x
    refine ⟨fun hhit => ?load, ?clr, fun hc => ?cipher, fun hd => ?digest⟩
    case load =>
      refine (completes_kLoad h rfl hhit).mono fun t ht => ?_
      have hte : (s.caddyHit x.desc.colour (x.reg g)).drawn.te u.cluster u.te = s.te u.cluster u.te :=
        (State.caddyHit_kept (x.desc.colour) (x.reg g) (Kept.refl [.keys] s) (by decide)).te_eq (by decide) _ _
      refine ⟨?_, ⟨_, by rw [ht.slot, State.slot_fillSlot, if_pos rfl], by rw [State.filledSlot, hte]⟩, fun c hc => ?_, fun d hd => ?_⟩
      · rw [ht.te, State.serial_fillSlot, hte]
      · rw [ht.cctx] at hc
        exact (Seat.cctx_emptySlot hc).2
      · rw [ht.dctx] at hd
        exact (Seat.dctx_emptySlot hd).2
    case clr =>
      refine (completes_kClr h rfl k).mono fun t ht => ?_
      refine ⟨by rw [ht.te], by rw [ht.slot, Seat.slot_emptySlot, if_pos rfl], fun c hc => ?_, fun d hd => ?_⟩
      · rw [ht.cctx] at hc
        exact (Seat.cctx_emptySlot hc).2
      · rw [ht.dctx] at hd
        exact (Seat.dctx_emptySlot hd).2
    case cipher =>
      have hclosed := Seat.cipher_of_closed hc
      exact ⟨completes_cipherStep_closed h exec_cEnc hc, completes_cipherStep_closed h exec_cDec hc,
        completes_ex_first_error h exec_cAad rfl (hclosed _), completes_ex_first_error h exec_cMac rfl (hclosed _),
        completes_ex_first_error h exec_cFin rfl (hclosed _), completes_ex_first_error h exec_cSave rfl (hclosed _)⟩
    case digest =>
      have hclosed := Seat.digesting_of_closed hd
      exact ⟨completes_ex_first_error h exec_dAbs rfl hclosed, completes_ex_first_error h exec_dSave rfl hclosed⟩

end Sys2Proof.Machine
end

section
/-! PROOFS. Bulk segments and stream keys (R145-R149, R303), and the jobs of an MAE (R166-R177): their start, their yield points and their
ends. -/

namespace Sys2Proof.Machine

/-! ## Stream events (R148, R149, R303) -/

section
variable {s s1 : State} {c te k a : Nat} {x : Stream} {data : Bytes} {rest : List (Nat × Bytes)} {key : Key}

theorem completes_bulkSegmentEnd (hte : teOk c te = true) (hslot : (s.te c te).stream = some k) (hstream : s.stream? k = some x)
    (hpending : x.pending = (a, data) :: rest) :
    Completes (.bulkSegmentEnd c te) s fun t =>
      let y := { x.segment data with pending := [] }
      let z := s.sendOutput y y.sizes
      t = ((z.1.setStream z.2).tryClose k).moveStrays k := by
  refine (completes_checked exec_bulkSegmentEnd hte).mono fun t ht => ?_
  rw [ht]
  simp only [hslot, hstream, hpending]

/-- The key of a stream that has one key comes, and the stream loads no more. -/
theorem completes_streamKeyFetchDone (hte : teOk c te = true) (hfetches : s.fetches (s.te c te) = some k) (hstream : s.stream? k = some x)
    (hloading : x.loading = true) (hone : x.handle2 = 0) (hkey : s.fetchKey (s.lane x.lane).colour x.handle1 = (s1, some key)) :
    Completes (.streamKeyFetchDone c te) s fun t => t = s1.setStream { x with key1 := key.material, loading := false } := by
  refine (completes_checked exec_streamKeyFetchDone hte).mono fun t ht => ?_
  rw [ht]
  simp only [hfetches, hstream, if_pos hloading, hkey, if_pos hone]

end

/-! ## The start of a job (R166, R167) -/

/-- A job starts on the keys the table has of those it needs. -/
theorem State.running_startLoaded (s : State) (c : Nat) (j : MaeJob) :
    ∃ v, ((s.startLoaded c j).cluster c).mae.running = some { j with
      keyWait := false, started := true, verdict := v
      keys := ((JobReq.ofBytes j.payload).keyNeeds j.desc.id.toNat).filterMap fun n => (s.cluster c).mae.entry n.handle } := by
  simp [State.startLoaded, State.modCluster, List.filterMap_map]

section
variable {s : State} {c : Nat} {j : MaeJob} (hc : clusterOk c = true) (hrun : (s.cluster c).mae.running = some j)
include hc hrun

theorem completes_maeKeyTableMissDone (hwait : j.keyWait = true) (hnew : j.started = false) :
    Completes (.maeKeyTableMissDone c) s fun t => t = (s.tableFill c j).startLoaded c j := by
  refine (completes_checked exec_maeKeyTableMissDone hc).mono fun t ht => ?_
  rw [ht]
  simp only [hrun, if_pos hwait, if_neg (ne_true_of_eq_false hnew)]

/-! ## Yield points (R175-R177) -/

/-- A job that has its keys and is neither squashed nor frozen, with room to save it, is saved for a quiesce, or for the waiting job that
starts in its place. -/
theorem completes_maeJobYieldPoint (hwait : j.keyWait = false) (hsquash : j.squash = false) (hlane : (s.lane j.desc.lane).state ≠ .frozen)
    (hroom : (s.cluster c).mae.saved.length < 4) :
    Completes (.maeJobYieldPoint c) s fun t =>
      let save := s.modCluster c fun x => { x with mae := { x.mae with running := .none, saved := x.mae.saved ++ [j] } }
      t = if s.quiescing c then save else (save.nextJob c (s.jobLevel j.desc)).getD s := by
  refine (completes_checked exec_maeJobYieldPoint hc).mono fun t ht => ?_
  rw [ht]
  simp only [hrun, hwait, hsquash, if_neg Bool.false_ne_true, if_neg hlane, if_neg (Nat.not_le.mpr hroom)]

/-! ## Ends (R169, R173, R177) -/

/-- A squashed job leaves its MAE without a response. -/
theorem completes_maeJobEnd_squashed (hwait : j.keyWait = false) (hsquash : j.squash = true) (ok : Bool) :
    Completes (.maeJobEnd c ok) s fun t => t = (s.maeFree c).itemEnded j.desc 1 := by
  refine (completes_checked exec_maeJobEnd hc).mono fun t ht => ?_
  rw [ht]
  simp only [hrun, hwait, if_neg Bool.false_ne_true, if_pos hsquash]

/-- A job that waits for no space of the anchor log draws, and ends if it lacks no more. -/
theorem completes_maeJobEnd_drawing (hwait : j.keyWait = false) (hsquash : j.squash = false)
    (hspace : j.verdict.isSome ∨ j.desc.own.isSome ∨ jobEffects j.desc.id.toNat = false ∨ s.journal.intentRoom = true) (ok : Bool) :
    Completes (.maeJobEnd c ok) s fun t =>
      let z := s.takeBytes c j.lacks
      let y := { j with rnd := j.rnd ++ z.1 }
      t = if y.lacks = 0 then z.2.jobEnds c y ok
        else (z.2.modCluster c fun x => { x with mae := { x.mae with running := some y } }).seedExpander c := by
  refine (completes_checked exec_maeJobEnd hc).mono fun t ht => ?_
  have hgo : ¬(j.verdict.isNone = true ∧ j.desc.own.isNone = true ∧ jobEffects j.desc.id.toNat = true ∧ (!s.journal.intentRoom) = true) := by
    rintro ⟨hverdict, hown, heffects, hfull⟩
    rcases hspace with h | h | h | h
    · simp [Option.isNone_iff_eq_none.mp hverdict] at h
    · simp [Option.isNone_iff_eq_none.mp hown] at h
    · simp [h] at heffects
    · simp [h] at hfull
  rw [ht]
  simp only [hrun, hwait, hsquash, if_neg Bool.false_ne_true, if_neg hgo]

end

/-- What a job lacks falls by what it draws. -/
theorem MaeJob.lacks_append (j : MaeJob) (b : Bytes) : { j with rnd := j.rnd ++ b }.lacks = j.lacks - b.length := by
  unfold MaeJob.lacks
  split
  · exact (Nat.zero_sub _).symm
  · rw [List.length_append, Nat.sub_add_eq]

/-- The known-answer tests of an MAE under test end. -/
theorem completes_maeKatDone {s : State} {c : Nat} (hc : clusterOk c = true) (hkat : (s.cluster c).mae.kat = true) (ok : Bool) :
    Completes (.maeKatDone c ok) s fun t => t = s.maeTested c ok := by
  refine (completes_checked exec_maeKatDone hc).mono fun t ht => ?_
  rw [ht, if_pos hkat]

/-- Settles O25: each event by its own equation; a started job by the key table it starts from, an ending one by what it still lacks. -/
theorem streamAndJobEvents : Obligations.StreamAndJobEvents := by
  unfold Obligations.StreamAndJobEvents
  intro s s1 c te k a x j data rest key hc m save plain
  have hunit : te < 16 → teOk c te = true := fun hte => by simp [teOk, hc, hte]
  have hwaiting : m.running = some j → plain → s.quiescing c = false → ∀ {next}, save.nextJob c (s.jobLevel j.desc) = next →
      Completes (.maeJobYieldPoint c) s fun t => t = next.getD s := by
    rintro hrun ⟨hwait, hsquash, hlane, hroom⟩ hquiesce next rfl
    exact (completes_maeJobYieldPoint hc hrun hwait hsquash hlane hroom).mono fun t ht => ht.trans (if_neg (ne_true_of_eq_false hquiesce))
  refine ⟨fun hte => completes_bulkSegmentEnd (hunit hte), fun hte => completes_streamKeyFetchDone (hunit hte),
    fun hrun hwait hnew => ?starts, fun hrun ⟨hwait, hsquash, hlane, hroom⟩ hquiesce => ?saved,
    fun hrun hplain hquiesce hnext => hwaiting hrun hplain hquiesce hnext, fun hrun hplain hquiesce hnext => hwaiting hrun hplain hquiesce hnext,
    fun hrun hwait hsquash hspace => ?ends, completes_maeJobEnd_squashed hc, completes_maeKatDone hc⟩
  case starts =>
    refine (completes_maeKeyTableMissDone hc hrun hwait hnew).mono fun t ht => ⟨ht, ?_⟩
    subst ht
    obtain ⟨v, hstarted⟩ := (s.tableFill c j).running_startLoaded c j
    exact ⟨_, hstarted, rfl, rfl, rfl, rfl⟩
  case saved =>
    exact (completes_maeJobYieldPoint hc hrun hwait hsquash hlane hroom).mono fun t ht => ht.trans (if_pos hquiesce)
  case ends =>
    intro z y ok
    have hlacks : y.lacks = j.lacks - z.1.length := j.lacks_append z.1
    refine ⟨fun hall => ?_, fun hshort => ?_⟩ <;>
      refine (completes_maeJobEnd_drawing hc hrun hwait hsquash hspace ok).mono fun t ht => ht.trans ?_
    · exact if_pos (hlacks.trans (Nat.sub_eq_zero_of_le hall.ge))
    · exact if_neg (hlacks.trans_ne (Nat.sub_ne_zero_of_lt hshort))

end Sys2Proof.Machine
end

section
/-! PROOFS. Library-only slots (R192): the tag a fill gives, and the check of R56 that refuses it in the tenant world; the completion of a
caddy miss (R200). -/

namespace Sys2Proof.Machine

/-- A key's slot is tagged library-only where its tin is, whatever world loads it (R192). -/
theorem State.slot_loadSlot (s : State) (u : SeatRef) (x : Seat) (k : Fin 8) (key : Key) :
    ∃ z, (s.loadSlot u x k key).2.slot k = some z ∧ z.key = key ∧ (key.attrs.libOnly = true → z.libOnly = true) :=
  ⟨_, (State.slot_fillSlot ..).trans (if_pos rfl), rfl, fun h => by simp [State.filledSlot, h]⟩

/-- An empty seat holds no key. -/
@[simp] theorem Seat.slot_empty (i : Fin 8) : Seat.empty.slot i = .none := Vector.getElem_replicate i.isLt

/-- The seat of an itinerary that an exception ends is empty, with a response or without one. -/
theorem State.seat_raise (s : State) {u : SeatRef} (hu : u.ok = true) (code : Byte) : (s.raise u code).seat u = Seat.empty := by
  rw [(State.raise_eq_exceptionEnded s u code).1]
  cases hq : (s.seat u).squash with
  | false => exact State.seat_exceptionEnded code hu hq
  | true => rw [State.exceptionEnded, State.endSeat_of_squash _ _ _ _ _ (by simpa using hq), State.seat_killSeat _ hu]

section
variable {s s1 : State} {u : SeatRef} {k : Fin 8} {h : Word}

/-- A caddy miss whose fetch answers a key fills the slot that waits (R200). -/
theorem completes_caddyMissFill_found {key : Key} (hu : u.ok = true) (hphase : (s.seat u).phase = .caddyWait k h)
    (hfetch : s.drawn.fetchMiss (s.seat u).desc.colour h = (s1, some key)) :
    Completes (.caddyMissFill u) s
      (let x := { s.seat u with phase := .running }
       let r := s1.loadSlot u x k key
       Ran u r.1 r.2 (x.pc + 4) (s.waitCost u.cluster 600)) := by
  refine (completes_checked exec_caddyMissFill hu).mono fun t ht => ?_
  simp only [hphase, hfetch] at ht
  rw [ht]
  exact finishTe_next u _ _ _ hu rfl

/-- A caddy miss whose fetch answers none ends its itinerary with KEY_MISSING (R200). -/
theorem completes_caddyMissFill_missing (hu : u.ok = true) (hphase : (s.seat u).phase = .caddyWait k h)
    (hfetch : s.drawn.fetchMiss (s.seat u).desc.colour h = (s1, .none)) :
    Completes (.caddyMissFill u) s fun t =>
      t = (s1.setSeat u ({ s.seat u with phase := .running }.charge (s.waitCost u.cluster 600))).raise u 0x0C := by
  refine (completes_checked exec_caddyMissFill hu).mono fun t ht => ?_
  simpa only [hphase, hfetch] using ht

end

/-- The tenant world does not use a library-only slot (R56): where an engine or a usage fails too, the exception is the same one. -/
theorem State.useKey_libOnly {s : State} {x : Seat} {k : Fin 8} {z : Slot} (hworld : x.world = .tenant) (hslot : x.slot k = some z)
    (hlib : z.libOnly = true) (hwithin : z.key.attrs.within s.time = true) (eng : Option Nat) (us : List Nat) :
    s.useKey x k eng us = .error 0x0A := by
  simp only [State.useKey, hslot, hwithin, hworld, hlib]
  split <;> rfl

/-- Settles O15: a load by the tag its fill gives, the check by the one that precedes the tag's. -/
theorem libraryOnlySlots : Obligations.LibraryOnlySlots := by
  unfold Obligations.LibraryOnlySlots
  intro s u k g e h z eng us
  refine ⟨fun hruns hhit hlib => ?load, fun hu hphase => ?miss, fun hworld hslot hlib hwithin => ⟨?use, fun hruns => ?attr⟩⟩
  case load =>
    refine (completes_kLoad hruns rfl hhit).mono fun t ht => ?_
    obtain ⟨z, hz, hkey, htag⟩ := State.slot_loadSlot (s.caddyHit (s.seat u).desc.colour ((s.seat u).reg g)).drawn u (s.seat u).plain k e.key
    exact ⟨z, (ht.slot k).trans hz, hkey, htag hlib⟩
  case miss =>
    rcases hfetch : s.drawn.fetchMiss (s.seat u).desc.colour h with ⟨s1, _ | key⟩
    · refine (completes_caddyMissFill_missing hu hphase hfetch).mono fun t ht z hz => ?_
      rw [ht, State.seat_raise _ hu] at hz
      simp at hz
    · refine (completes_caddyMissFill_found hu hphase hfetch).mono fun t ht => ?_
      obtain ⟨z, hz, htag⟩ := State.slot_loadSlot s1 u { s.seat u with phase := .running } k key
      exact ⟨z, (ht.slot k).trans hz, htag⟩
  case use => exact State.useKey_libOnly hworld hslot hlib hwithin eng us
  case attr =>
    exact completes_ex_first_error hruns exec_kAttr rfl (State.useKey_libOnly (x := (s.seat u).plain) hworld hslot hlib hwithin .none [])

end Sys2Proof.Machine
end

section
/-! PROOFS. The key commands (R181-R187, R193, R194, R206-R210, Table 11.5), the carry (R214-R216) and a partition's re-key (R207): what each
admitted command does where its own checks pass. -/

namespace Sys2Proof.Machine

/-! ## What a command's brackets and its completion leave of the keys -/

section
variable (s : State) (sp : Spec) (c : Cmd)

/-- Completing a command changes nothing of the keys. -/
@[simp] theorem keys_answer (rsp : Bytes) : (answer c s sp rsp).keys = s.keys :=
  (State.finish_kept sp c cOk rsp 0 (Kept.refl _ s) (List.Subset.refl _)).keys_eq (by decide)

@[simp] theorem State.keys_cmdCommit (kind : Nat) (obj : Word) (after : Nat) : (s.cmdCommit c kind obj after).keys = s.keys :=
  (State.cmdCommit_kept c kind obj after (Kept.refl _ s) (List.Subset.refl _)).keys_eq (by decide)

/-- The partitions a re-key's bracket leaves are those its change leaves. -/
theorem State.part?_configured {f : State → State} {d : Colour} {q : Option Part} (hf : ∀ t : State, (f t).part? d = q) :
    (s.configured c f).part? d = q := by
  unfold State.configured
  exact (congrArg (fun t : Tenancy => t.parts.find? d.toNat)
    ((State.cmdCommit_kept _ _ _ _ (Kept.refl _ _) (List.Subset.refl _)).tenancy_eq (by decide))).trans (hf _)

/-- Forming tin keys changes no partition. -/
@[simp] theorem State.part?_formPartKeys (cs : List Colour) (d : Colour) : (s.formPartKeys cs).part? d = s.part? d := by
  unfold State.part?
  rw [(State.formPartKeys_kept cs (Kept.refl _ s) (List.Subset.refl _)).tenancy_eq (by decide)]

end

/-- The handle a command's body names at an offset. -/
abbrev bodyHandle (b : Bytes) (off : Nat) : Word := BitVec.ofNat 64 (fieldLE b off 8)

/-! ## Records put and read (R181, R186, R187, R196) -/

section
variable {s : State} {c : Cmd} {sp : Spec} {t0 : Tin} {e0 : Bytes}

/-- A KEY.PUT of which no record is refused answers the count of its records. -/
theorem completes_keyPut {rs : List (Bytes × Bytes)} {r : State × PutCount} (h : Admitted 0x0401 sp c s) (hlen : 8 ≤ c.body.length)
    (hz : zeroAt c.body 4 4 = true) (hrs : putRecords (fieldLE c.body 0 4) (c.body.drop 8) = some rs)
    (hput : ((s.begin sp c).cmdAccepted c sp.op).putAll c rs = r) (hall : r.2.refused = .none) :
    Completes (.keyPut c) s (Answered sp c r.1.keyArrived
      (natLE 4 r.2.accepted ++ natLE 4 0xFFFFFFFF ++ natLE 2 0 ++ List.replicate 6 0)) := by
  refine completes_cmd h (exec_keyPut.trans (by unfold execKeyPut; rfl)) (by simp [hlen, hz, hrs]) ?_
  simp only [hrs, Option.getD_some, hput, hall]
  rfl

theorem completes_keyGet (h : Admitted 0x0402 sp c s) (hlen : c.body.length = 8 + 8 * fieldLE c.body 0 4) (hz : zeroAt c.body 4 4 = true) :
    Completes (.keyGet c) s (Answered sp c s ((chunks 8 (c.body.drop 8)).flatMap fun x =>
      match s.record c.colour (BitVec.ofNat 64 (leNat x)) with
      | some (t, e) => recordBytes t e
      | .none => List.replicate 128 0)) := by
  refine completes_cmd h (exec_keyGet.trans (by unfold execKeyGet; rfl)) (by simp [← hlen, hz]) ?_
  rfl

/-- KEY.LIST's response begins with the number of the records it lists. -/
theorem completes_keyList (h : Admitted 0x0403 sp c s) (hlen : c.body.length = 16) (hz : zeroAt c.body 12 4 = true) :
    Completes (.keyList c) s fun t => ∃ rsp, Answered sp c s rsp t ∧
      rsp.take 4 = natLE 4 ((s.recordsFrom c.colour (fieldLE c.body 0 8)).take (fieldLE c.body 8 4)).length := by
  refine completes_cmd h exec_keyList (by simp [hlen, hz]) ⟨_, rfl, ?_⟩
  simp only [List.append_assoc]
  exact List.take_left' (length_natLE 4 _)

/-- KEY.DELETE leaves a tombstone of the record's version (R203). -/
theorem completes_keyDelete (h : Admitted 0x0405 sp c s) (hlen : c.body.length = 8)
    (hright : ¬(c.colour = 0 ∧ systemHandle (bodyHandle c.body 0) = true))
    (hrec : s.record c.colour (bodyHandle c.body 0) = some (t0, e0)) : Completes (.keyDelete c) s fun t =>
      t.keys.warm.find? (bodyHandle c.body 0).toNat = some (.tombstone t0.version) := by
  refine completes_cmd h (exec_keyDelete.trans (by unfold execKeyDelete; rfl)) (beq_iff_eq.mpr hlen) ?_
  rw [if_neg hright, hrec, keys_answer, State.keys_cmdCommit]
  exact (Tbl.find?_set ..).trans (if_pos rfl)

theorem completes_keyDelete_absent (h : Admitted 0x0405 sp c s) (hlen : c.body.length = 8)
    (hright : ¬(c.colour = 0 ∧ systemHandle (bodyHandle c.body 0) = true))
    (hrec : s.record c.colour (bodyHandle c.body 0) = .none) : Completes (.keyDelete c) s fun t => t = s.reject c cNotFound := by
  refine completes_cmd h (exec_keyDelete.trans (by unfold execKeyDelete; rfl)) (beq_iff_eq.mpr hlen) ?_
  rw [if_neg hright, hrec]

/-- CADDY.STATUS answers 48 bytes, two counts of 4 and five of 8 (R218). -/
theorem completes_caddyStatus (h : Admitted 0x040B sp c s) (hb : c.body = []) :
    Completes (.caddyStatus c) s fun t => ∃ rsp, Answered sp c s rsp t ∧ rsp.length = 48 := by
  refine completes_cmd h exec_caddyStatus (by simp [hb]) ⟨_, rfl, ?_⟩
  simp only [List.length_append, length_natLE]

end

/-! ## Keys made and narrowed (R193, R194, Table 11.5) -/

section
variable {s s1 : State} {c : Cmd} {sp : Spec}

/-! ### KEY.GENERATE of a sound body under a free handle -/

section
variable {a : KeyAttrs} (h : Admitted 0x0404 sp c s) (hlen : c.body.length = 40) (hflags : fieldLE c.body 9 1 % 64 = 0)
  (hlib : fieldLE c.body 9 1 < 128) (hmask : maskOk (fieldLE c.body 12 2) (fieldLE c.body 14 2) (fieldLE c.body 16 2) = true)
  (hz : zeroAt c.body 18 6 = true) (hz2 : zeroAt c.body 36 4 = true) (hnew : s.newHandleFails c.colour (bodyHandle c.body 0) = .none)
  (ha : s.askedAttrs c.colour c.body = a)
include h hlen hflags hlib hmask hz hz2 hnew ha

/-- A symmetric key is drawn from H.DRBG and stored at once. -/
theorem completes_keyGenerate_symmetric {n : Nat} (hsym : symmetricLen a.ktype.toNat s.free = some n) (hparam : a.param = 0)
    (hroom : s.keyRoom c.colour (bodyHandle c.body 0) (recordSize a.ktype n) = true) :
    Completes (.keyGenerate c) s fun t =>
      match ((s.drawn.hubRead n).begin sp c).makeOne c sp.op (bodyHandle c.body 0) a (s.drawn.hubBytes n) with
      | some s2 => Answered sp c s2 (s2.madeBytes c.colour (bodyHandle c.body 0)) t
      | .none => t = s.reject c cBadState := by
  refine completes_cmd h (exec_keyGenerate.trans (by unfold execKeyGenerate; rfl)) (by simp [hlen, hflags, hlib, hmask, hz, hz2]) ?_
  simp only [hnew, ha, hsym, hparam, hroom, ne_eq, not_true_eq_false, Bool.not_true, Bool.false_eq_true, ↓reduceIte]
  split
  next hmade => rw [hmade]; rfl
  next hmade => rw [hmade]

/-- An asymmetric key is asked of an MAE (R160). -/
theorem completes_keyGenerate_job (hasym : symmetricLen a.ktype.toNat s.free = .none) (hjob : jobMakes a = true)
    (hroom : s.keyRoom c.colour (bodyHandle c.body 0) (recordSize a.ktype (privateLen a.param.toNat)) = true) :
    Completes (.keyGenerate c) s fun t =>
      t = ((s.begin sp c).cmdAccepted c sp.op).submitOwn c 0x50 (keygenJob a) := by
  refine completes_cmd h (exec_keyGenerate.trans (by unfold execKeyGenerate; rfl)) (by simp [hlen, hflags, hlib, hmask, hz, hz2]) ?_
  simp only [hnew, ha, hasym, hjob, hroom]
  rfl

end

/-- The key a KEYGEN job made is stored, and KEY.GENERATE completes. -/
theorem State.ownEnds_keygen {a : KeyAttrs} {m pub : Bytes} (hflight : s.inFlight c = true)
    (hnew : s.newHandleFails c.colour (bodyHandle c.body 0) = .none) (ha : s.askedAttrs c.colour c.body = a)
    (hroom : s.keyRoom c.colour (bodyHandle c.body 0) (recordSize a.ktype m.length) = true)
    (hstore : s.storeOne c (bodyHandle c.body 0) a m = some s1) :
    s.ownEnds c 0x50 0 pub m = s1.finishLater generateSpec c cOk (s1.madeBytes c.colour (bodyHandle c.body 0) ++ pub) 0 := by
  simp [State.ownEnds, State.generated, hflight, hnew, ha, hroom, hstore]

/-! ### KEY.SETATTR, KEY.IMPORT and KEY.EXPORT -/

/-- What KEY.SETATTR asks for in the place of a key's engines, usages, LIBRARY_ONLY and window. -/
def KeyAttrs.setFrom (a : KeyAttrs) (b : Bytes) : KeyAttrs :=
  { a with engine := BitVec.ofNat 6 (fieldLE b 8 2), derivedEngine := BitVec.ofNat 6 (fieldLE b 8 2 / 256),
           usage := BitVec.ofNat 16 (fieldLE b 10 2), derivedUsage := BitVec.ofNat 16 (fieldLE b 12 2), libOnly := bit (fieldLE b 14 1) 6,
           notBefore := BitVec.ofNat 48 (fieldLE b 16 6), notAfter := BitVec.ofNat 48 (fieldLE b 22 6) }

section
variable {t0 : Tin} {e0 : Bytes} {k : Key} (h : Admitted 0x0406 sp c s) (hlen : c.body.length = 32) (hflags : fieldLE c.body 14 1 % 64 = 0)
  (hlib : fieldLE c.body 14 1 < 128) (hmask : maskOk (fieldLE c.body 8 2) (fieldLE c.body 10 2) (fieldLE c.body 12 2) = true)
  (hz : zeroAt c.body 15 1 = true) (hz2 : zeroAt c.body 28 4 = true)
  (hright : ¬(c.colour = 0 ∧ systemHandle (bodyHandle c.body 0) = true))
  (hshut : s.tinShut c.colour (bodyHandle c.body 0) = false) (hrec : s.record c.colour (bodyHandle c.body 0) = some (t0, e0))
  (hkey : s.recordKey c.colour (bodyHandle c.body 0) = some k)
include h hlen hflags hlib hmask hz hz2 hright hshut hrec hkey

/-- What is no narrower is refused (R194). -/
theorem completes_keySetattr_wider (hn : (k.attrs.setFrom c.body).narrows k.attrs = false) :
    Completes (.keySetattr c) s fun t => t = s.reject c 0x0102 := by
  refine completes_cmd h (exec_keySetattr.trans (by unfold execKeySetattr; rfl)) (by simp [hlen, hflags, hlib, hmask, hz, hz2]) ?_
  rw [KeyAttrs.setFrom] at hn
  simp only [if_neg hright, hshut, hrec, hkey, hn]
  rfl

/-- A narrower record takes the place of the old one, with the next version (R194). -/
theorem completes_keySetattr (hn : (k.attrs.setFrom c.body).narrows k.attrs = true) :
    Completes (.keySetattr c) s fun t =>
      match (((s.begin sp c).cmdAccepted c sp.op).cmdIntent c 2 (bodyHandle c.body 0) t0.version.toNat).makeRecord t0.context
        (bodyHandle c.body 0) (k.attrs.setFrom c.body) (t0.version + 1) k.material with
      | some s1 =>
        let s2 := s1.cmdCommit c 2 (bodyHandle c.body 0) (t0.version.toNat + 1)
        Answered sp c s2 ((s2.madeBytes c.colour (bodyHandle c.body 0)).take 128) t
      | .none => t = s.reject c cBadState := by
  refine completes_cmd h (exec_keySetattr.trans (by unfold execKeySetattr; rfl)) (by simp [hlen, hflags, hlib, hmask, hz, hz2]) ?_
  rw [KeyAttrs.setFrom] at hn ⊢
  simp only [if_neg hright, hshut, hrec, hkey, hn, Bool.not_true, Bool.false_eq_true, ↓reduceIte]
  split
  next hmade => rw [hmade]; rfl
  next hmade => rw [hmade]

end

/-- KEY.IMPORT stores the key its block holds; a block that does not open is refused (R208-R210). -/
theorem completes_keyImport {wk : Key} (h : Admitted 0x0407 sp c s) (hlen : c.body.length = 24 + fieldLE c.body 16 2)
    (hz : zeroAt c.body 18 6 = true) (hnew : s.newHandleFails c.colour (bodyHandle c.body 8) = .none)
    (hkey : s.recordKey c.colour (bodyHandle c.body 0) = some wk) (hwithin : wk.attrs.within s.time = true)
    (hroom : s.keyRoom c.colour (bodyHandle c.body 8) 128 = true) :
    Completes (.keyImport c) s fun t => match kbImport wk c.colour s.lc.gen (c.body.drop 24) with
      | .none => t = s.reject c 0x0103
      | some k => match (s.begin sp c).makeOne c sp.op (bodyHandle c.body 8) k.attrs k.material with
        | some s1 => Answered sp c s1 (s1.madeBytes c.colour (bodyHandle c.body 8)) t
        | .none => t = s.reject c cBadState := by
  refine completes_cmd h (exec_keyImport.trans (by unfold execKeyImport; rfl)) (by simp [← hlen, hz]) ?_
  cases himport : kbImport wk c.colour s.lc.gen (c.body.drop 24) with
  | none => simp only [hnew, hkey, hwithin, himport, Bool.not_true, Bool.false_eq_true, ↓reduceIte]
  | some k =>
    simp only [hnew, hkey, hwithin, himport, hroom, Bool.not_true, Bool.false_eq_true, ↓reduceIte]
    split
    next hmade => rw [hmade]; rfl
    next hmade => rw [hmade]

/-- KEY.EXPORT answers the block of a key that may leave under its wrapping key, and refuses any other (R206, R208). -/
theorem completes_keyExport {k wk : Key} (h : Admitted 0x0408 sp c s) (hlen : c.body.length = 16)
    (hshut : s.tinShut c.colour (bodyHandle c.body 0) = false)
    (hshut2 : s.tinShut c.colour (bodyHandle c.body 8) = false)
    (hkey : s.recordKey c.colour (bodyHandle c.body 0) = some k)
    (hwrap : s.recordKey c.colour (bodyHandle c.body 8) = some wk)
    (hlib : k.attrs.libOnly = false) (hwithin : k.attrs.within s.time = true) (hwithin2 : wk.attrs.within s.time = true) :
    Completes (.keyExport c) s fun t => if kbMayExport wk k = true then
      Answered sp c (s.kbExport wk k).2 (natLE 2 (s.kbExport wk k).1.length ++ List.replicate 6 0 ++ (s.kbExport wk k).1) t
      else t = s.reject c 0x0103 := by
  refine completes_cmd h (exec_keyExport.trans (by unfold execKeyExport; rfl)) (by simp [hlen]) ?_
  simp only [hshut, hshut2, hkey, hwrap, hlib, hwithin, hwithin2]
  cases hmay : kbMayExport wk k <;> rfl

end

/-! ## The carry (R214-R216) and a re-key (R207) -/

section
variable {s s1 : State} {c : Cmd} {sp : Spec} {y : Carry}

/-- KEY.CARRY.OPEN measures the staged image and lists the tins (R215). -/
theorem completes_keyCarryOpen (h : Admitted 0x0409 sp c s) (hlen : c.body.length = 8) (hclosed : s.keys.carry = .none)
    (hauth : s.useAuth 0x0409 0 c.body = some s1) (hstaged : s1.power.stagedState = 2) (homk : s1.omk.isSome = true) :
    Completes (.keyCarryOpen c) s fun t => t.keys.carry =
      some { measurement := BitVec.ofNat 384 (beNat (sha384 s1.power.staged)), stream := s1.warmTins, position := 0,
             ended := s1.warmTins.isEmpty } := by
  refine completes_cmd h exec_keyCarryOpen (by simp [hlen]) ?_
  have hformed : s1.omk.isNone = false := Option.isNone_eq_false_iff.mpr homk
  simp only [hclosed, hauth, hstaged, hformed, Option.getD_some, Option.isSome_none, Option.isNone_some, Bool.false_and, ne_eq,
    not_true_eq_false, Nat.reduceEqDiff, Bool.false_eq_true, ↓reduceIte, keys_answer]

/-- KEY.CARRY.OPEN of an open carry is refused; its authorisation is consumed all the same (R215). -/
theorem completes_keyCarryOpen_open (h : Admitted 0x0409 sp c s) (hlen : c.body.length = 8) (hopen : s.keys.carry = some y) :
    Completes (.keyCarryOpen c) s fun t => t = ((s.useAuth 0x0409 0 c.body).getD s).reject c cBadState := by
  refine completes_cmd h exec_keyCarryOpen (by simp [hlen]) ?_
  simp only [hopen]
  rfl

/-- KEY.CARRY.READ moves the position past the tins it answers (R215). -/
theorem completes_keyCarryRead (h : Admitted 0x040A sp c s) (hlen : c.body.length = 16) (hz : zeroAt c.body 12 4 = true)
    (hopen : s.keys.carry = some y) (hpos : fieldLE c.body 0 8 ≤ y.stream.length) (homk : s.omk.isSome = true) :
    Completes (.keyCarryRead c) s fun t => ∃ z, t.keys.carry = some z ∧ z.stream = y.stream ∧
      z.position = fieldLE c.body 0 8 +
        (s.carryTake y.measurement (fieldLE c.body 8 4) 16777200 (y.stream.drop (fieldLE c.body 0 8))).length := by
  refine completes_cmd h (exec_keyCarryRead.trans (by unfold execKeyCarryRead; rfl)) (by simp [hlen, hz]) ?_
  have hformed : s.omk.isNone = false := Option.isNone_eq_false_iff.mpr homk
  simp only [hopen, if_neg (Nat.not_lt.mpr hpos), hformed, Bool.false_and, Bool.false_eq_true, ↓reduceIte, keys_answer]
  exact ⟨_, rfl, rfl, rfl⟩

/-- PART.REKEY raises the partition's epoch and leaves its re-wrap to be done (R207). -/
theorem completes_partRekey {p : Part} (h : Admitted 0x0205 sp c s) (hb : c.body = []) (hpart : s.part? c.colour = some p)
    (homk : s.omk.isSome = true) (hnone : (s.keys.rekeying.any (·.1 == c.colour)) = false) :
    Completes (.partRekey c) s fun t => t.part? c.colour = some { p with epoch := p.epoch + 1 } ∧ (c.colour, c) ∈ t.keys.rekeying := by
  refine completes_cmd h exec_partRekey (by simp [hb]) ?_
  have hformed : s.omk.isNone = false := Option.isNone_eq_false_iff.mpr homk
  simp only [hpart, hformed, hnone, Bool.false_eq_true, ↓reduceIte]
  have hraised := State.part?_configured ((s.begin sp c).cmdAccepted c sp.op) c (d := c.colour)
    (f := fun t => (t.setPart c.colour { p with epoch := p.epoch + 1 }).formPartKeys [c.colour])
    fun t => (State.part?_formPartKeys _ _ _).trans (State.part?_setPart t c.colour _)
  exact ⟨hraised, List.mem_append_right _ (List.mem_singleton_self _)⟩

end

/-- Settles O39: each command by its lemma, KEY.GENERATE by the type its key has. -/
theorem keyCommands : Obligations.KeyCommands := by
  unfold Obligations.KeyCommands
  refine ⟨?store, ?carry⟩
  case store =>
    intro s s1 c sp t0 e0 k wk m pub b h
    refine ⟨fun rs hadm hlen hz hrs => completes_keyPut hadm hlen hz hrs rfl, completes_keyGet, completes_keyList, ?generate,
      completes_keyDelete, completes_keyDelete_absent, ?setattr, completes_keyImport, completes_keyExport, completes_caddyStatus⟩
    case generate =>
      intro a hadm hlen hflags hlib hmask hz hz2 hnew
      exact ⟨fun n => completes_keyGenerate_symmetric hadm hlen hflags hlib hmask hz hz2 hnew rfl,
        completes_keyGenerate_job hadm hlen hflags hlib hmask hz hz2 hnew rfl, fun hflight => State.ownEnds_keygen hflight hnew rfl⟩
    case setattr =>
      intro a hadm hlen hflags hlib hmask hz hz2 hright hshut hrec hkey
      exact ⟨completes_keySetattr_wider hadm hlen hflags hlib hmask hz hz2 hright hshut hrec hkey,
        completes_keySetattr hadm hlen hflags hlib hmask hz hz2 hright hshut hrec hkey⟩
  case carry =>
    intro s s1 c sp y p b
    refine ⟨fun hadm hlen hclosed hauth hstaged homk => ?opened, completes_keyCarryOpen_open, completes_keyCarryRead,
      fun hadm hb hpart homk hnone => ?rekeyed⟩
    case opened =>
      exact (completes_keyCarryOpen hadm hlen hclosed hauth hstaged homk).mono fun t ht => ⟨_, ht, rfl, rfl, rfl⟩
    case rekeyed =>
      exact (completes_partRekey hadm hb hpart homk hnone).mono fun t ht => ⟨⟨_, ht.1, rfl⟩, ht.2⟩

end Sys2Proof.Machine
end

section
/-! PROOFS. What a table reads after keys are unlisted, and what a granule reads after it is zeroed (R376). -/

namespace Sys2Proof.Machine

/-! ## Keys unlisted from a table -/

/-- A key below every listed one is not listed. -/
theorem Tbl.find?_of_lt_keys {α : Type} {t : Tbl α} {i : Nat} (h : ∀ k ∈ t.map Prod.fst, i < k) : t.find? i = .none := by
  induction t with
  | nil => rfl
  | cons p t ih =>
    have hp : i < p.1 := h p.1 (by simp)
    exact (if_neg hp.ne').trans (ih fun k hk => h k (List.mem_cons_of_mem _ hk))

/-- Reading a table of rising keys after a key is unlisted: nothing at that key, every other key as before. -/
theorem Tbl.find?_erase {α : Type} {t : Tbl α} (hwf : t.wf) (i j : Nat) :
    (t.erase i).find? j = if i = j then .none else t.find? j := by
  induction t with
  | nil => simp [Tbl.erase, Tbl.find?]
  | cons p t ih =>
    obtain ⟨k, v⟩ := p
    obtain ⟨habove, hrest⟩ := List.pairwise_cons.mp hwf
    rw [Tbl.erase]
    split
    · next hki =>
      subst hki
      split
      · next hkj => exact hkj ▸ Tbl.find?_of_lt_keys habove
      · next hkj => exact (if_neg hkj).symm
    · next hki =>
      simp only [Tbl.find?, ih hrest]
      split_ifs <;> simp_all

/-- Unlisting a key leaves no other keys than were listed. -/
theorem Tbl.keys_erase_sublist {α : Type} (t : Tbl α) (i : Nat) : ((t.erase i).map Prod.fst).Sublist (t.map Prod.fst) := by
  induction t with
  | nil => exact .slnil
  | cons p t ih =>
    rw [Tbl.erase]
    split
    · exact List.sublist_cons_self _ _
    · exact ih.cons_cons _

/-- Reading a table of rising keys after several keys are unlisted. -/
theorem Tbl.find?_foldl_erase {α : Type} (l : List Nat) {t : Tbl α} (hwf : t.wf) (j : Nat) :
    (l.foldl (fun t i => t.erase i) t).find? j = if j ∈ l then .none else t.find? j := by
  induction l generalizing t with
  | nil => simp
  | cons i l ih =>
    rw [List.foldl_cons, ih (hwf.sublist (t.keys_erase_sublist i)), Tbl.find?_erase hwf]
    by_cases hj : j = i
    · simp [hj]
    · simp [hj, Ne.symm hj]

/-! ## Granules zeroed -/

/-- A granule is 64 KiB. -/
theorem granuleAddr_succ (g : Nat) : granuleAddr (g + 1) = granuleAddr g + 0x10000 := by
  unfold granuleAddr
  omega

/-- Wiping granules changes the byte memory alone. -/
theorem State.wipeGranules_eq (gs : List Nat) (s : State) :
    ∃ m, gs.foldl (fun s g => s.wipe (dramBase + granuleAddr g) (dramBase + granuleAddr (g + 1))) s = { s with mem := m } := by
  induction gs generalizing s with
  | nil => exact ⟨s.mem, rfl⟩
  | cons g gs ih => exact ih (s.wipe (dramBase + granuleAddr g) (dramBase + granuleAddr (g + 1)))

/-- A byte that reads zero, or lies in a granule wiped, reads zero once the granules are wiped. -/
theorem State.read_wipeGranules (gs : List Nat) (s : State) (a : Nat)
    (h : s.mem.read a = 0 ∨ ∃ g ∈ gs, dramBase + granuleAddr g ≤ a ∧ a < dramBase + granuleAddr (g + 1)) :
    (gs.foldl (fun s g => s.wipe (dramBase + granuleAddr g) (dramBase + granuleAddr (g + 1))) s).mem.read a = 0 := by
  induction gs generalizing s with
  | nil => simpa using h
  | cons g gs ih =>
    refine ih _ ?_
    rw [State.read_wipe]
    split
    · exact .inl rfl
    · next hout =>
      rcases h with hzero | ⟨g', hg', hin⟩
      · exact .inl hzero
      · rcases List.mem_cons.mp hg' with rfl | hg'
        · exact absurd hin hout
        · exact .inr ⟨g', hg', hin⟩

section
variable (s : State) (gs : List Nat)

/-- Zeroed granules are tagged free, and nothing else of the tenancy changes. -/
theorem State.tenancy_zeroGranules :
    (s.zeroGranules gs).tenancy = { s.tenancy with tags := gs.foldl (fun t g => t.erase g) s.tenancy.tags } := by
  unfold State.zeroGranules
  obtain ⟨m, hm⟩ := State.wipeGranules_eq gs s
  rw [hm]

/-- Every byte of a zeroed granule reads zero. -/
theorem State.read_zeroGranules {g k : Nat} (hg : g ∈ gs) (hk : k < 0x10000) :
    (s.zeroGranules gs).mem.read (dramBase + granuleAddr g + k) = 0 :=
  State.read_wipeGranules gs s _ (.inr ⟨g, hg, by rw [granuleAddr_succ]; omega⟩)

end

/-! ## A deleted colour erased (R99, R376) -/

section
variable (s : State) (c : Colour)

/-- Erasing a colour takes its images from the tenancy and nothing else. -/
theorem State.tenancy_eraseColour : (s.eraseColour c).tenancy =
    { s.tenancy with images := s.tenancy.images.filter fun x => x.shared || x.colour != c } := by
  have hdropped : ∀ hs : List Nat, (hs.foldl (fun s h => s.dropHandle (BitVec.ofNat 64 h)) s).tenancy = s.tenancy := fun hs =>
    (Kept.foldl (W := [.clusters, .keys]) (fun s h => State.dropHandle_kept _ (Kept.refl _ s) (List.Subset.refl _)) hs s
      (Kept.refl _ s)).tenancy_eq (by decide)
  simp only [State.eraseColour, hdropped]

/-- What the end of a deletion does within its bracket: the colour erased, its granules zeroed and free, the colour free. -/
def State.colourErased (gs : List Nat) : State :=
  let s := ((s.eraseColour c).zeroGranules gs).flipTags
  { s with tenancy := { s.tenancy with parts := s.tenancy.parts.erase c.toNat } }

variable (gs : List Nat)

theorem State.tenancy_colourErased : (s.colourErased c gs).tenancy =
    { s.tenancy with parts := s.tenancy.parts.erase c.toNat, tags := gs.foldl (fun t g => t.erase g) s.tenancy.tags,
                     images := s.tenancy.images.filter fun x => x.shared || x.colour != c } := by
  have hflip := (State.flipTags_kept (Kept.refl [.gates] ((s.eraseColour c).zeroGranules gs)) (List.Subset.refl _)).tenancy_eq (by decide)
  simp only [State.colourErased, hflip, State.tenancy_zeroGranules, State.tenancy_eraseColour]

theorem State.read_colourErased {g k : Nat} (hg : g ∈ gs) (hk : k < 0x10000) :
    (s.colourErased c gs).mem.read (dramBase + granuleAddr g + k) = 0 := (s.eraseColour c).read_zeroGranules gs hg hk

/-- The H.MEM gate drains after its change of tags (R370). -/
theorem State.draining_colourErased : ((s.colourErased c gs).gate 36).draining = true :=
  congrArg Gate.draining (State.gate_setGate _ 36 _)

theorem State.steward_colourErased : (s.colourErased c gs).steward = s.steward :=
  (State.flipTags_kept (State.zeroGranules_kept gs (State.eraseColour_kept c (Kept.refl [.mem, .clusters, .tenancy, .keys, .gates] s)
    (by decide)) (by decide)) (by decide)).steward_eq (by decide)

end

end Sys2Proof.Machine
end

section
/-! PROOFS. What ends later: a firmware activation (R216, R243), a re-key's re-wrap (R207), a deletion (R376), a life-cycle transition
(R463-R467), vendor test mode and functional debug (R468). -/

namespace Sys2Proof.Machine

/-- An event that names no unit completes in its effect. -/
theorem completes_event {i : Instr} {s t : State} (he : exec i s = .next t) : Completes i s fun t' => t' = t := ⟨t, he, rfl⟩

/-! ## Activation and re-wrap -/

section
variable {s : State} {c : Cmd} {colour : Colour}

/-- The activation commits the staged image in the place of the boot image and asks for the restart (R216). -/
theorem completes_fwRewrapDone (hcmd : s.power.activateCmd = some c) : Completes .fwRewrapDone s fun t =>
    t.power = { s.power with boot := BitVec.ofNat 384 (beNat (sha384 s.power.staged)), bootSerial := s.power.bootSerial + 1,
                             activateCmd := .none, resetDue := true, staged := [], stagedTotal := 0, stagedLast := (0, []),
                             stagedState := 0 } ∧ t.journal.mramMarks = t.journal.watermarks := by
  refine (completes_event (exec_fwRewrapDone.trans rfl)).mono fun t ht => ?_
  subst ht
  rw [hcmd]
  exact ⟨rfl, rfl⟩

theorem completes_fwRewrapDone_idle (hcmd : s.power.activateCmd = .none) : Completes .fwRewrapDone s fun t => t = s := by
  refine (completes_event (exec_fwRewrapDone.trans rfl)).mono fun t ht => ht.trans ?_
  rw [hcmd]

/-- The tins of a rekeyed colour are under its new epoch, and the colour is rekeyed no more (R207). -/
theorem completes_rekeyRewrapDone (hfind : (s.keys.rekeying.find? fun q => q.1 == colour) = some (colour, c)) :
    Completes (.rekeyRewrapDone colour) s fun t =>
      t.keys.warm = (s.keys.warm.map fun q => (q.1, (s.rekeyed colour q.2).getD q.2)) ∧
        t.keys.rekeying = s.keys.rekeying.filter (·.1 != colour) := by
  refine (completes_event (exec_rekeyRewrapDone.trans rfl)).mono fun t ht => ?_
  subst ht
  simp only [hfind]
  rw [(State.finishLater_kept _ _ _ _ _ (Kept.refl _ _) (List.Subset.refl _)).keys_eq (by decide)]
  exact ⟨rfl, rfl⟩

end

/-! ## Deletion -/

section
variable {s : State} {c : Cmd} {colour : Colour} {p : Part} (hpart : s.part? colour = some p) (hdel : p.deleting = some c)
include hpart hdel

/-- The deletion of a colour without lanes ends once the tags have drained: the colour is erased within the bracket of its configuration,
and PART.DELETE waits for the change of tags. -/
theorem completes_granuleZeroingDone (hlanes : s.lanesOfColour colour = []) (hdrained : (s.gate 36).draining = false) :
    Completes (.granuleZeroingDone colour) s fun t =>
      t = (s.configured c fun s => s.colourErased colour p.granules).awaitRules 36 c := by
  refine (completes_event (exec_granuleZeroingDone.trans rfl)).mono fun t ht => ht.trans ?_
  simp only [hpart, Option.bind_some, hdel, Option.map_some, hlanes, hdrained]
  rfl

theorem completes_granuleZeroingDone_early (hearly : s.lanesOfColour colour ≠ [] ∨ (s.gate 36).draining = true) :
    Completes (.granuleZeroingDone colour) s fun t => t = s := by
  refine (completes_event (exec_granuleZeroingDone.trans rfl)).mono fun t ht => ht.trans ?_
  simp only [hpart, Option.bind_some, hdel, Option.map_some]
  exact if_pos (by simpa using hearly)

end

/-- The bracket of a configuration change writes the journal and the configuration serials besides the change itself. -/
theorem State.configured_eq (s : State) (c : Cmd) (f : State → State) : ∃ j j' n, s.configured c f =
    { f { s with journal := j } with tenancy := { (f { s with journal := j }).tenancy with serials := n }, journal := j' } :=
  ⟨_, _, _, rfl⟩

/-! ## The life-cycle word -/

section
variable (s : State)

/-- The check of the word changes nothing of it. -/
@[simp] theorem State.lc_useLifecycle : s.useLifecycle.lc = s.lc :=
  (State.useLifecycle_kept (Kept.refl _ s) (List.Subset.refl _)).lc_eq (by decide)

variable {s}

theorem State.useLifecycle_of_shadow (h : s.lc.shadow = ~~~s.lc.code) : s.useLifecycle = s := if_neg (by simp [h])

theorem State.useLifecycle_of_not_shadow (h : s.lc.shadow ≠ ~~~s.lc.code) : s.useLifecycle = s.fault 4 0x65 (srcHub 0x0A) 0 :=
  if_pos (bne_iff_ne.mpr h)

end

/-! ## Transitions -/

section
variable (s : State) (t : Nat)

/-- A transition begins with its target in the word, the BBK erased and the caddy empty (R465, R467). -/
theorem State.lcBegin_begins (cmd : Option Cmd) :
    (s.lcBegin t cmd).lc =
      { s.lc with copy0 := s.lc.copy0 ||| lcGroup t, moving := some (BitVec.ofNat 8 t, cmd), debug := false } ∧
    (s.lcBegin t cmd).keys.bbk = .none ∧ (s.lcBegin t cmd).keys.caddy = [] := by
  unfold State.lcBegin
  extract_lets begun closed aborted keys erased
  have hbegun : Kept [.out, .seats, .tes, .clusters, .lanes, .depot, .vault, .journal, .port0, .port1, .pcie, .cards, .faults, .recorder, .power]
      begun aborted :=
    State.abortCeremony_kept (State.cardOff_kept 1 (State.cardOff_kept 0 (State.closeSessions_kept
      (State.squashTenants_kept .deletion (Kept.refl _ _) (by decide)) (by decide)) (by decide)) (by decide)) (by decide)
  have haborted : aborted.lc = begun.lc := hbegun.lc_eq (by decide)
  clear_value aborted
  split_ifs <;> exact ⟨haborted, rfl, rfl⟩

/-- A transition ends with its state in effect. -/
theorem State.lc_transitionEnd : ((s.lcWipe t).lcEnter t).formRoots.lcSettle.lc = ((s.lcWipe t).lcEnter t).lc :=
  (State.lcSettle_kept (State.formRoots_kept (Kept.refl [.out, .pcie, .faults, .recorder, .power, .keys] _) (by decide)) (by decide)).lc_eq
    (by decide)

end

section
variable {s : State} {b : Byte}

theorem completes_lcTransitionDone (hmoving : s.lc.moving = some (b, .none)) (hdraws : lcDraws b.toNat = true)
    (hbbk : s.keys.bbk.isSome = true) :
    Completes .lcTransitionDone s fun t => t = ((s.lcWipe b.toNat).lcEnter b.toNat).formRoots.lcSettle := by
  refine (completes_event (exec_lcTransitionDone.trans rfl)).mono fun t ht => ht.trans ?_
  have hdrawn : s.keys.bbk.isNone = false := Option.isNone_eq_false_iff.mpr hbbk
  simp only [hmoving, hdraws, hdrawn]
  rfl

/-- A transition to a state with a BBK of its own waits until it is drawn. -/
theorem completes_lcTransitionDone_undrawn (hmoving : s.lc.moving = some (b, .none)) (hdraws : lcDraws b.toNat = true)
    (hbbk : s.keys.bbk = .none) : Completes .lcTransitionDone s fun t => t = s := by
  refine (completes_event (exec_lcTransitionDone.trans rfl)).mono fun t ht => ht.trans ?_
  simp only [hmoving, hdraws, hbbk]
  rfl

theorem completes_vendorTestMode (hto : lcVendor s.lc.code.toNat b.toNat = true) (hstill : s.lc.moving = .none) :
    Completes (.vendorTestMode b) s fun t => t = s.useLifecycle.lcBegin b.toNat .none := by
  refine (completes_event (exec_vendorTestMode.trans rfl)).mono fun t ht => ht.trans ?_
  exact if_pos (by simp [hto, hstill])

theorem completes_vendorTestMode_refused (hto : lcVendor s.lc.code.toNat b.toNat = false) :
    Completes (.vendorTestMode b) s fun t => t = s.useLifecycle := by
  refine (completes_event (exec_vendorTestMode.trans rfl)).mono fun t ht => ht.trans ?_
  exact if_neg (by simp [hto])

end

/-! ## Functional debug (R468) -/

section
variable (s : State)

/-- A fresh nonce is all that issuing one changes of the life-cycle machine. -/
theorem State.lc_issueNonce : s.issueNonce.lc = { s.lc with nonce := some (BitVec.ofNat 128 (beNat (s.hubBytes 16))) } := by
  have hread : (s.hubRead 16).lc = s.lc := (State.hubRead_kept 16 (Kept.refl _ s) (List.Subset.refl _)).lc_eq (by decide)
  rw [← hread]
  rfl

/-- Settling the device state changes neither the life-cycle machine nor the keys. -/
theorem State.lcSettle_keeps : s.lcSettle.lc = s.lc ∧ s.lcSettle.keys = s.keys :=
  have hkept := State.lcSettle_kept (Kept.refl _ s) (List.Subset.refl _)
  ⟨hkept.lc_eq (by decide), hkept.keys_eq (by decide)⟩

end

section
variable {s : State} {u : Bytes}

/-- Outside the RECLAIMED states a debug record is not looked at. -/
theorem completes_dbgUnlock_elsewhere (hstate : lcReclaimed s.lc.code.toNat = false) :
    Completes (.dbgUnlock u) s fun t => t = s.useLifecycle := by
  refine (completes_event (exec_dbgUnlock.trans rfl)).mono fun t ht => ht.trans ?_
  exact if_pos (by rw [State.lc_useLifecycle, hstate])

section
variable (hshadow : s.lc.shadow = ~~~s.lc.code) (hstate : lcReclaimed s.lc.code.toNat = true)
include hshadow hstate

/-- A record that verifies against the nonce just issued, with the stores blank, opens debug and erases the BBK. -/
theorem completes_dbgUnlock_opened {n : BitVec 128} (hnonce : s.lc.nonce = some n) (hblank : s.blank = true)
    (hgood : Config.debugVerify u n = true) : Completes (.dbgUnlock u) s fun t =>
      t.lc.debug = true ∧ t.lc.nonce = .none ∧ t.keys.bbk = .none := by
  refine (completes_event (exec_dbgUnlock.trans (by unfold execDbgUnlock; rfl))).mono fun t ht => ?_
  subst ht
  rw [State.useLifecycle_of_shadow hshadow]
  simp only [hstate, hnonce, hgood, hblank, Bool.true_eq_false, Bool.and_self, ↓reduceIte, State.lcSettle_keeps]
  exact ⟨rfl, rfl, rfl⟩

/-- Any other presentation is answered with a fresh nonce. -/
theorem completes_dbgUnlock_refused (hbad : ∀ n, s.lc.nonce = some n → s.blank = true → Config.debugVerify u n = false) :
    Completes (.dbgUnlock u) s fun t =>
      t.lc.debug = s.lc.debug ∧ t.lc.nonce = some (BitVec.ofNat 128 (beNat (s.hubBytes 16))) := by
  refine (completes_event (exec_dbgUnlock.trans (by unfold execDbgUnlock; rfl))).mono fun t ht => ?_
  subst ht
  rw [State.useLifecycle_of_shadow hshadow, if_neg (by simp [hstate]), if_neg, State.lc_issueNonce]
  · exact ⟨rfl, rfl⟩
  · cases hnonce : s.lc.nonce with
    | none => simp
    | some n =>
      intro h
      obtain ⟨hgood, hblank⟩ := Bool.and_eq_true_iff.mp h
      exact Bool.false_ne_true ((hbad n hnonce hblank).symm.trans hgood)

end

end

/-- Settles O59: each end by its lemma; of a deletion, what the erasure within the bracket leaves of the tenancy, the memory and the gate. -/
theorem deferredEnds : Obligations.DeferredEnds := by
  unfold Obligations.DeferredEnds
  intro s c colour p b n u
  refine ⟨fun hcmd => ?activated, completes_fwRewrapDone_idle, fun hfind => ?rewrapped, fun _ hpart hdel hlanes hdrained _ hparts => ?zeroed,
    fun _ hpart hdel hlanes hdrained htags => ?freed, fun _ hpart hdel => completes_granuleZeroingDone_early hpart hdel,
    fun hmoving hdraws hbbk => ?entered, completes_lcTransitionDone_undrawn, fun hto hstill => ?tested, completes_vendorTestMode_refused,
    State.useLifecycle_of_not_shadow, State.useLifecycle_of_shadow, fun hshadow hstate hnonce hblank => ?unlock,
    fun hshadow hstate hno => ?refused, completes_dbgUnlock_elsewhere⟩
  case activated =>
    refine (completes_fwRewrapDone hcmd).mono fun t ⟨hpower, hmarks⟩ => ?_
    rw [hpower]
    exact ⟨rfl, rfl, rfl, rfl, rfl, hmarks⟩
  case rewrapped =>
    refine (completes_rekeyRewrapDone hfind).mono fun t ⟨hwarm, hleft⟩ => ⟨hwarm, fun q hq => ?_⟩
    rw [hleft] at hq
    exact bne_iff_ne.mp (List.mem_filter.mp hq).2
  case zeroed =>
    refine (completes_granuleZeroingDone hpart hdel hlanes hdrained).mono fun t ht => ?_
    obtain ⟨j, j', serials, hbracket⟩ := State.configured_eq s c fun s => s.colourErased colour p.granules
    rw [ht, hbracket]
    refine ⟨?_, fun g hg k hk => State.read_colourErased { s with journal := j } colour p.granules hg hk⟩
    have herased := congrArg Tenancy.parts (State.tenancy_colourErased { s with journal := j } colour p.granules)
    exact (congrArg (Tbl.find? · colour.toNat) herased).trans ((Tbl.find?_erase hparts ..).trans (if_pos rfl))
  case freed =>
    refine (completes_granuleZeroingDone hpart hdel hlanes hdrained).mono fun t ht => ?_
    obtain ⟨j, j', serials, hbracket⟩ := State.configured_eq s c fun s => s.colourErased colour p.granules
    rw [ht, hbracket]
    have herased := congrArg Tenancy.tags (State.tenancy_colourErased { s with journal := j } colour p.granules)
    have hsteward := State.steward_colourErased { s with journal := j } colour p.granules
    exact ⟨State.draining_colourErased { s with journal := j } colour p.granules, congrArg (fun w : Steward => w.ruleCmds ++ [(36, c)]) hsteward,
      fun g => (congrArg (Tbl.find? · g) herased).trans (Tbl.find?_foldl_erase p.granules htags g)⟩
  case entered =>
    refine (completes_lcTransitionDone hmoving hdraws hbbk).mono fun t ht => ⟨ht, ?_⟩
    rw [ht, State.lc_transitionEnd]
    simp [State.lcEnter, State.modLc]
  case tested =>
    refine (completes_vendorTestMode hto hstill).mono fun t ht => ?_
    obtain ⟨hlc, hbbk, hcaddy⟩ := State.lcBegin_begins s.useLifecycle b.toNat .none
    rw [ht, hlc]
    exact ⟨by simp, by simp, hbbk, hcaddy⟩
  case unlock =>
    cases hgood : Config.debugVerify u n with
    | true => exact completes_dbgUnlock_opened hshadow hstate hnonce hblank hgood
    | false =>
      refine completes_dbgUnlock_refused hshadow hstate fun n' hn' _ => ?_
      rwa [← Option.some.inj (hnonce.symm.trans hn')]
  case refused =>
    refine completes_dbgUnlock_refused hshadow hstate fun n' hn' hblank => ?_
    rcases hno with hnone | hfull
    · cases hnone.symm.trans hn'
    · cases hfull.symm.trans hblank

end Sys2Proof.Machine
end

section
/-! PROOFS. The vault commands (R223-R229, R236, R244-R246, R249, Table 11.7; log entry 36): what each admitted command does where its own
checks pass. -/

namespace Sys2Proof.Machine

/-! ## What a command's brackets and its completion leave of the vault -/

section
variable (s : State) (sp : Spec) (c : Cmd)

/-- Completing a command changes nothing of the vault. -/
@[simp] theorem vault_answer (rsp : Bytes) : (answer c s sp rsp).vault = s.vault :=
  (answer_kept c sp rsp (Kept.refl _ s) (List.Subset.refl _)).vault_eq (by decide)

@[simp] theorem State.vault_begin : (s.begin sp c).vault = s.vault :=
  (State.begin_kept sp c (Kept.refl _ s) (List.Subset.refl _)).vault_eq (by decide)

@[simp] theorem State.vault_cmdAccepted (op : Nat) : (s.cmdAccepted c op).vault = s.vault :=
  (State.cmdAccepted_kept c op (Kept.refl _ s) (List.Subset.refl _)).vault_eq (by decide)

@[simp] theorem State.vault_modVault (f : Vault → Vault) : (s.modVault f).vault = f s.vault := rfl

/-- The bracket of a configuration change leaves of the vault what the change itself leaves. -/
theorem State.vault_configured {f : State → State} {v : Vault} (hf : ∀ t : State, t.vault = s.vault → (f t).vault = v) :
    (s.configured c f).vault = v := by
  unfold State.configured
  rw [(State.cmdCommit_kept _ _ _ _ (Kept.refl _ _) (List.Subset.refl _)).vault_eq (by decide)]
  exact hf _ ((State.cmdIntent_kept _ _ _ _ (Kept.refl _ _) (List.Subset.refl _)).vault_eq (by decide))

end

section
variable {s s1 s2 : State} {c : Cmd} {sp : Spec}

/-! ## VAULT.FORMAT (R227, R229) -/

section
variable (h : Admitted 0x0601 sp c s) (hlen : c.body.length = 8) (hz : zeroAt c.body 4 4 = true) (halign : fieldLE c.body 0 4 % 4096 = 0)
  (hmax : fieldLE c.body 0 4 ≤ 2 ^ 31)
include h hlen hz halign hmax

/-- VAULT.FORMAT of an OPEN vault to more units changes its size and nothing else of it. -/
theorem completes_vaultFormat_grown (hopen : s.vault.state = .opened) (hmore : s.vault.n < fieldLE c.body 0 4) :
    Completes (.vaultFormat c) s fun t => t.vault = { s.vault with n := fieldLE c.body 0 4 } := by
  refine completes_cmd h (exec_vaultFormat.trans (by unfold execVaultFormat; rfl)) (by simp [hlen, hz]) ?_
  rw [if_neg (by omega)]
  simp only [hopen]
  rw [if_neg (Nat.not_le.mpr hmore), vault_answer]
  refine State.vault_configured _ _ fun t ht => ?_
  rw [State.vault_modVault, ht, State.vault_cmdAccepted, State.vault_begin, hopen]

/-- VAULT.FORMAT of a vault that is UNFORMATTED or LOST creates it. -/
theorem completes_vaultFormat_created (hsome : fieldLE c.body 0 4 ≠ 0) (hstate : s.vault.state = .unformatted ∨ s.vault.state = .lost) :
    Completes (.vaultFormat c) s fun t => t = s.createVault c sp (fieldLE c.body 0 4) := by
  refine completes_cmd h (exec_vaultFormat.trans (by unfold execVaultFormat; rfl)) (by simp [hlen, hz]) ?_
  rw [if_neg (by omega)]
  rcases hstate with hstate | hstate <;> rw [hstate]

end

/-! ## Extents: VAULT.ALLOC (R224) and VAULT.FREE (R226, R227) -/

section
variable {p : Part} (h : Admitted 0x0602 sp c s) (hlen : c.body.length = 24) (hpart : s.part? c.colour = some p)
  (hbase : fieldLE c.body 0 4 % 4096 = 0) (hsize : fieldLE c.body 4 4 % 4096 = 0) (hsome : fieldLE c.body 4 4 ≠ 0)
  (hfree : p.extent = .none) (hclash : s.extentClash (fieldLE c.body 0 4) (fieldLE c.body 4 4) = false)
  (hshut1 : s.tinShut c.colour (bodyHandle c.body 8) = false) (hshut2 : s.tinShut c.colour (bodyHandle c.body 16) = false)
include h hlen hpart hbase hsize hsome hfree hclash hshut1 hshut2

/-- Keys that make no XTS pair are refused. -/
theorem completes_vaultAlloc_badKeys (hpair : s.xtsPairOk c.colour (bodyHandle c.body 8) (bodyHandle c.body 16) = false) :
    Completes (.vaultAlloc c) s fun t => t = s.reject c 0x0102 := by
  refine completes_cmd h (exec_vaultAlloc.trans (by unfold execVaultAlloc; rfl)) (beq_iff_eq.mpr hlen) ?_
  simp only [hpart, hbase, hsize, hsome, hfree, hclash, hshut1, hshut2, hpair]
  rfl

/-- Under a good pair, and within what is free or its quota, the colour gets its extent. -/
theorem completes_vaultAlloc (hpair : s.xtsPairOk c.colour (bodyHandle c.body 8) (bodyHandle c.body 16) = true)
    (hroom : fieldLE c.body 4 4 ≤ if p.vf = 0 then s.freeVault else p.vaultQuota) :
    Completes (.vaultAlloc c) s fun t => t.part? c.colour = some { p with
      extent := some { base := fieldLE c.body 0 4, size := fieldLE c.body 4 4,
                       key1 := bodyHandle c.body 8, key2 := bodyHandle c.body 16 } } := by
  refine completes_cmd h (exec_vaultAlloc.trans (by unfold execVaultAlloc; rfl)) (beq_iff_eq.mpr hlen) ?_
  simp only [hpart, hbase, hsize, hsome, hfree, hclash, hshut1, hshut2, hpair, if_neg (Nat.not_lt.mpr hroom)]
  exact (congrArg (fun t : Tenancy => t.parts.find? c.colour.toNat) (tenancy_answer _ _ _ _)).trans
    (State.part?_configured _ _ fun t => State.part?_setPart t c.colour _)

end

/-- VAULT.FREE of an extent of which nothing runs takes its place in the pipeline of a vault that serves. -/
theorem completes_vaultFree {e : Extent} (h : Admitted 0x0603 sp c s) (hb : c.body = []) (hextent : s.extentOf c.colour = some e)
    (hidle : s.colourRuns c.colour = false) (hstate : s.vault.state = .opened ∨ s.vault.state = .degraded) (hsessions : s.vault.sessions ≠ [])
    (hnone : s.vault.freeing = .none) : Completes (.vaultFree c) s fun t =>
      t = (((s.begin sp c).cmdAccepted c sp.op).modVault fun v =>
        { v with freeing := some { cmd := c, base := e.base, size := e.size, reqs := [], nodes := [], root := 0 } }).vaultRun := by
  refine completes_cmd h (exec_vaultFree.trans (by unfold execVaultFree; rfl)) (by simp [hb]) ?_
  have hserves : ¬((s.vault.state ≠ .opened ∧ s.vault.state ≠ .degraded) ∨ s.vault.sessions.isEmpty = true) := by
    rintro (⟨hopened, hdegraded⟩ | hempty)
    · exact hstate.elim hopened hdegraded
    · exact hsessions (List.isEmpty_iff.mp hempty)
  simp only [hextent, hidle, if_neg hserves, hnone]
  rfl

/-! ## VAULT.ATTACH (R236) -/

/-- A session VAULT.ATTACH may name: one open on a port, of colour 0. -/
def State.attachable (s : State) (y : Nat × Nat) : Prop :=
  y.1 ≤ 1 ∧ y.2 ≠ 0 ∧ y.2 ≤ 4095 ∧ ∃ x, (s.port y.1).sessions.find? y.2 = some x ∧ x.colour = 0

/-- No attachable session is refused for its number, its absence or its colour. -/
theorem State.attachable_passes {l : List (Nat × Nat)} (h : ∀ y ∈ l, s.attachable y) :
    (l.any fun x => decide (1 < x.1) || x.2 == 0 || decide (4095 < x.2)) = false ∧
    (l.any fun x => !(s.port x.1).sessions.has x.2) = false ∧
    (l.any fun x => ((s.port x.1).sessions.find? x.2).any fun y => y.colour != 0) = false := by
  refine ⟨List.any_eq_false.mpr fun y hy => ?number, List.any_eq_false.mpr fun y hy => ?present,
    List.any_eq_false.mpr fun y hy => ?colour⟩ <;>
    obtain ⟨hport, hne, hle, x, hx, hcolour⟩ := h y hy
  case number => simp [hport, hne, hle]
  case present => simp [Tbl.has, hx]
  case colour => simp [hx, hcolour]

/-- VAULT.ATTACH of at most four attachable sessions names them and the timeout; a reload and what waits then go on. -/
theorem completes_vaultAttach (h : Admitted 0x0604 sp c s) (hlen : c.body.length = 8 + 4 * fieldLE c.body 0 1)
    (hz : zeroAt c.body 1 3 = true) (hzs : ((chunks 4 (c.body.drop 8)).all fun x => zeroAt x 1 1) = true) (hfour : fieldLE c.body 0 1 ≤ 4)
    (hmin : 10 ≤ fieldLE c.body 4 4) (hmax : fieldLE c.body 4 4 ≤ 10000) (hsessions : ∀ y ∈ attachList c.body, s.attachable y) :
    Completes (.vaultAttach c) s (Answered sp c ((s.markVault (attachList c.body)).modVault fun v =>
      { v with sessions := attachList c.body, timeoutUs := fieldLE c.body 4 4 }).vaultReload.vaultRun []) := by
  refine completes_cmd h (exec_vaultAttach.trans (by unfold execVaultAttach; rfl)) (by simp [← hlen, hz, hzs]) ?_
  obtain ⟨hnumber, hpresent, hcolour⟩ := State.attachable_passes hsessions
  rw [if_neg (by omega), hnumber, hpresent, hcolour]
  rfl

/-! ## VAULT.VERSION (R246), VAULT.RECOVER (R244), VAULT.STATUS (R249) -/


/-- VAULT.VERSION asks the engine for the version of the unit it names. -/
theorem completes_vaultVersion (h : Admitted 0x0605 sp c s) (hlen : c.body.length = 8) (hz : zeroAt c.body 4 4 = true) :
    Completes (.vaultVersion c) s fun t =>
      t = (s.begin sp c).vaultSubmit (vaultOp (.version c) Desc.none false c.colour (BitVec.ofNat 64 (fieldLE c.body 0 4)) [] 0) :=
  completes_cmd h exec_vaultVersion (by simp [hlen, hz]) rfl

/-- An authorised VAULT.RECOVER of a STALE vault asks for the level-0 node and waits for it. -/
theorem completes_vaultRecover {id : Word} (h : Admitted 0x0606 sp c s) (hlen : c.body.length = 8) (hstale : s.vault.state = .stale)
    (hauth : s.useAuth 0x0606 0 c.body = some s1) (hasked : s1.vaultGet false false 0 0 = some (s2, id)) :
    Completes (.vaultRecover c) s fun t => t = (s2.begin sp c).modVault fun v => { v with recover := some c } := by
  refine completes_cmd h exec_vaultRecover (beq_iff_eq.mpr hlen) ?_
  simp only [hauth, hstale, Option.getD_some, hasked]
  rfl

/-- In any other state VAULT.RECOVER is refused; its authorisation is consumed all the same (R352). -/
theorem completes_vaultRecover_refused (h : Admitted 0x0606 sp c s) (hlen : c.body.length = 8) (hstate : s.vault.state ≠ .stale) :
    Completes (.vaultRecover c) s fun t => t = ((s.useAuth 0x0606 0 c.body).getD s).reject c 0x0401 :=
  completes_cmd h exec_vaultRecover (beq_iff_eq.mpr hlen) (if_pos hstate)

/-! The fields of VAULT.STATUS before its counts (Table 11.7): the state and its sizes, the root version and the write serial, the puts in
flight, the two hit rates. -/

def State.vaultStatusSizes (s : State) : Bytes :=
  [BitVec.ofNat 8 s.vault.state.code, 0, 0, 0] ++ natLE 4 (s.tenancy.parts.filter fun q => q.2.extent.isSome).length ++
    natLE 4 s.vault.n ++ [0, 0, 0, 0]

def Vault.statusSerials (v : Vault) : Bytes := natLE 8 v.rootVersion.toNat ++ natLE 8 v.serial.toNat

def Vault.statusPuts (v : Vault) : Bytes := natLE 1 v.putsInFlight ++ List.replicate 7 0

def Vault.statusRates (v : Vault) : Bytes :=
  natLE 2 (perMille v.treeHits v.treeLooks) ++ natLE 2 (perMille v.verHits v.verLooks) ++ List.replicate 4 0

/-- What VAULT.STATUS answers. -/
def State.vaultStatus (s : State) : Bytes :=
  s.vaultStatusSizes ++ (s.vault.statusSerials ++ (s.vault.statusPuts ++ (natLE 8 s.vault.refill ++ (s.vault.statusRates ++
    s.vault.counts.toList.flatMap (natLE 8)))))

@[simp] theorem State.length_vaultStatusSizes (s : State) : s.vaultStatusSizes.length = 16 := by simp [State.vaultStatusSizes]
@[simp] theorem Vault.length_statusSerials (v : Vault) : v.statusSerials.length = 16 := by simp [Vault.statusSerials]
@[simp] theorem Vault.length_statusPuts (v : Vault) : v.statusPuts.length = 8 := by simp [Vault.statusPuts]
@[simp] theorem Vault.length_statusRates (v : Vault) : v.statusRates.length = 8 := by simp [Vault.statusRates]

/-- Seven counts of eight bytes each. -/
@[simp] theorem length_vaultCounts (counts : Vector Nat 7) : (counts.toList.flatMap (natLE 8)).length = 56 := by
  simp [List.length_flatMap]

/-- Where each field of VAULT.STATUS lies. -/
theorem State.vaultStatus_layout (s : State) : s.vaultStatus.length = 112 ∧ s.vaultStatus.take 16 = s.vaultStatusSizes ∧
    slice s.vaultStatus 16 16 = s.vault.statusSerials ∧ slice s.vaultStatus 40 8 = natLE 8 s.vault.refill ∧
    s.vaultStatus.drop 56 = s.vault.counts.toList.flatMap (natLE 8) := by
  refine ⟨?_, List.take_left' s.length_vaultStatusSizes, ?_, ?_, ?_⟩ <;>
    simp [State.vaultStatus, slice, List.drop_append, List.drop_eq_nil_of_le]

/-- VAULT.STATUS answers its fields and its seven counts. -/
theorem completes_vaultStatus (h : Admitted 0x0607 sp c s) (hb : c.body = []) :
    Completes (.vaultStatus c) s (Answered sp c s s.vaultStatus) := by
  refine completes_cmd h exec_vaultStatus (by simp [hb]) ?_
  simp only [Answered, answer, State.vaultStatus, State.vaultStatusSizes, Vault.statusSerials, Vault.statusPuts, Vault.statusRates,
    List.append_assoc]
  rfl

end

/-- Settles O41: each command by its lemma, VAULT.ALLOC by whether its keys make a pair; VAULT.STATUS by the layout of its answer. -/
theorem vaultCommands : Obligations.VaultCommands := by
  unfold Obligations.VaultCommands
  intro s s1 s2 c sp p e id b run n
  refine ⟨fun h hlen hz halign hmax hopen hmore => ?grown,
    fun h hlen hz halign hsome hmax => completes_vaultFormat_created h hlen hz halign hmax hsome, ?alloc, completes_vaultFree, completes_vaultAttach, completes_vaultVersion, fun h hlen hstale hauth hasked => ?recover,
    completes_vaultRecover_refused, ?status⟩
  case grown =>
    refine (completes_vaultFormat_grown h hlen hz halign hmax hopen hmore).mono fun t ht => ?_
    rw [ht]
    exact ⟨rfl, hopen, rfl⟩
  case alloc =>
    intro size h1 h2 h hlen hpart hbase hsize hsome hfree hclash hshut1 hshut2 hroom
    cases hpair : s.xtsPairOk c.colour h1 h2 with
    | true => exact completes_vaultAlloc h hlen hpart hbase hsize hsome hfree hclash hshut1 hshut2 hpair hroom
    | false => exact completes_vaultAlloc_badKeys h hlen hpart hbase hsize hsome hfree hclash hshut1 hshut2 hpair
  case recover =>
    refine (completes_vaultRecover h hlen hstale hauth hasked).mono fun t ht => ?_
    rw [ht, State.vault_modVault]
  case status =>
    intro v h hb
    refine (completes_vaultStatus h hb).mono fun t ht => ⟨_, ht, s.vaultStatus_layout⟩

end Sys2Proof.Machine
end

section
/-! PROOFS. The journal's and the vault's own events: WATERMARK_WRITE (R92, R259), JOURNAL_SPILL (R257), OUTCOME (R254, R266),
VAULT_REQUEST_TIMEOUT (R240) and VAULT_REFILL (R243). -/

namespace Sys2Proof.Machine

/-! ## The spill of an anchored record (R257) -/

/-- Within its size the spill area keeps every record. -/
theorem spillBound_of_le {l : List Milestone} (h : l.length ≤ spillCap) : spillBound l = l := by
  rw [spillBound, Nat.sub_eq_zero_of_le h, List.drop_zero]

/-- An anchored record is not compacted: it leaves the ring's head for the spill area's end. -/
theorem Journal.spillOne_of_anchored {j : Journal} {m : Milestone} {r : List Milestone} (hring : j.ring = m :: r) (ha : m.anchored = true)
    (hroom : j.spill.length < spillCap) : j.spillOne = { j with ring := r, spill := j.spill ++ [m] } := by
  have hlen : (j.spill ++ [m]).length ≤ spillCap := by simpa using hroom
  simp [Journal.spillOne, hring, ha, spillBound_of_le hlen]

/-! ## The record of an OUTCOME (R254) -/

section
variable (s : State)

/-- Settling an item touches its lane's numbers, not the anchor log. -/
@[simp] theorem State.anchors_settle (d : Desc) : (s.settle d).journal.anchors = s.journal.anchors := by
  unfold State.settle
  extract_lets unsettled unsettled' mark
  split <;> rfl

@[simp] theorem State.anchors_settleEnded (d : Desc) : (s.settleEnded d).journal.anchors = s.journal.anchors := by
  unfold State.settleEnded
  extract_lets records
  split
  · rfl
  · exact s.anchors_settle d

/-- A record just anchored is in the anchor log, whatever had to make room. -/
theorem State.mem_anchors_anchor (m : Milestone) : m ∈ (s.anchor m).journal.anchors := by
  unfold State.anchor
  extract_lets put roomy
  exact List.mem_append_right roomy.anchors (List.mem_singleton_self m)

/-- The OUTCOME of an intent a call or a power loss left behind: the version found, or 0 where it is unknown (log entry 36). -/
def State.outcomeRecord (o : Orphan) : Milestone :=
  { s.mile o.record.desc 6 true true o.record.code (BitVec.ofNat 16 (2 * b2n o.unknown + b2n o.issued)) o.record.valA
      (if o.unknown then 0 else BitVec.ofNat 32 o.left.toNat) with vendor := o.record.vendor }

/-- The anchor log after an OUTCOME is that of anchoring its record: the item's own end leaves it. -/
theorem State.anchors_writeOutcome (o : Orphan) :
    (s.writeOutcome o).journal.anchors = (s.anchor (s.outcomeRecord o)).journal.anchors := by
  unfold State.writeOutcome
  extract_lets m aux v made written journal erased records
  split
  · exact State.anchors_settleEnded erased m.desc
  · rfl

/-- The OUTCOME written is in the anchor log. -/
theorem State.mem_anchors_writeOutcome (o : Orphan) : s.outcomeRecord o ∈ (s.writeOutcome o).journal.anchors := by
  rw [State.anchors_writeOutcome]
  exact s.mem_anchors_anchor _

end

section
variable {s : State}

/-! ## The journal's events -/

/-- A ring with room spills nothing. -/
theorem completes_journalSpill_room (h : s.journal.ring.length < ringCap) : Completes .journalSpill s fun t => t = s :=
  (completes_event (exec_journalSpill.trans rfl)).mono fun _ ht => ht.trans (if_pos h)

/-- A full ring spills its oldest record. -/
theorem completes_journalSpill_full (h : ringCap ≤ s.journal.ring.length) :
    Completes .journalSpill s fun t => t = { s with journal := s.journal.spillOne } :=
  (completes_event (exec_journalSpill.trans rfl)).mono fun _ ht => ht.trans (if_neg (Nat.not_lt.mpr h))

/-- The oldest settled orphan gets its OUTCOME. -/
theorem completes_outcome_settled {o : Orphan} (h : (s.journal.orphans.find? fun o => o.settled) = some o) :
    Completes .outcome s fun t => t = s.writeOutcome o := by
  refine (completes_event (exec_outcome.trans rfl)).mono fun t ht => ht.trans ?_
  rw [h]

/-- With no orphan settled, a vault that serves reads the versions of the others. -/
theorem completes_outcome_reads (h : (s.journal.orphans.find? fun o => o.settled) = .none)
    (hstate : s.vault.state = .opened ∨ s.vault.state = .degraded) : Completes .outcome s fun t => t = s.outcomeReads := by
  refine (completes_event (exec_outcome.trans rfl)).mono fun t ht => ht.trans ?_
  rw [h]
  exact if_pos hstate

/-- While the vault serves no reads, unsettled orphans wait. -/
theorem completes_outcome_idle (h : (s.journal.orphans.find? fun o => o.settled) = .none)
    (hstate : ¬(s.vault.state = .opened ∨ s.vault.state = .degraded)) : Completes .outcome s fun t => t = s := by
  refine (completes_event (exec_outcome.trans rfl)).mono fun t ht => ht.trans ?_
  rw [h]
  exact if_neg hstate

/-! ## A vault request's timeout (R240) -/

section
variable {r : VaultReq}

/-- A request that is no longer there does not time out. -/
theorem completes_vaultRequestTimeout_gone (h : (s.vault.reqs.find? fun q => q.id == r.id) = .none) :
    Completes (.vaultRequestTimeout r.id) s fun t => t = s := by
  refine (completes_event (exec_vaultRequestTimeout.trans rfl)).mono fun t ht => ht.trans ?_
  rw [State.vaultTimeout, h]

variable (h : (s.vault.reqs.find? fun q => q.id == r.id) = some r)
include h

/-- The first timeout repeats the request on a session that may carry it. -/
theorem completes_vaultRequestTimeout_repeated {x : Nat × Nat} (hfirst : r.retried = false)
    (hsession : (s.vaultCount 1).vaultSession (some (r.port, r.session)) = some x) :
    Completes (.vaultRequestTimeout r.id) s fun t =>
      let r' := { r with port := x.1, session := x.2, retried := true }
      t = ((s.vaultCount 1).modVault fun v => { v with reqs := modFirst (fun q => q.id == r.id) (fun _ => r') v.reqs }).vaultMsg r' := by
  refine (completes_event (exec_vaultRequestTimeout.trans rfl)).mono fun t ht => ht.trans ?_
  rw [State.vaultTimeout, h]
  simp only [hfirst, hsession]
  rfl

/-- The second timeout fails it. -/
theorem completes_vaultRequestTimeout_failed (hsecond : r.retried = true) :
    Completes (.vaultRequestTimeout r.id) s fun t => t = ((s.vaultCount 1).vaultTimedOut r).vaultRun := by
  refine (completes_event (exec_vaultRequestTimeout.trans rfl)).mono fun t ht => ht.trans ?_
  rw [State.vaultTimeout, h]
  exact if_pos hsecond

end

/-! ## The refill (R243) -/

/-- Of a whole tree the refill reads nothing. -/
theorem State.refillStep_of_whole (h : s.vault.missing = false) : s.refillStep = s := by
  rw [State.refillStep, if_neg]
  simp [h]

end

/-- Settles O58: each event by its lemma; the OUTCOME written is the orphan's own record, found in the anchor log. -/
theorem journalAndVaultEvents : Obligations.JournalAndVaultEvents := by
  unfold Obligations.JournalAndVaultEvents
  intro s o m rest r x
  refine ⟨?marks, completes_journalSpill_room, fun hfull hring ha hroom => ?spilled, fun hfind => ?outcome, fun hnone hlost => ?lost,
    completes_outcome_reads, fun h => completes_vaultRequestTimeout_repeated h, completes_vaultRequestTimeout_failed,
    completes_vaultRequestTimeout_gone, completes_event exec_vaultRefill, fun hwhole => ?whole⟩
  case marks =>
    refine (completes_event exec_watermarkWrite).mono fun t ht => ?_
    rw [ht]
    exact ⟨rfl, rfl, rfl, rfl⟩
  case spilled =>
    refine (completes_journalSpill_full hfull).mono fun t ht => ?_
    rw [ht, Journal.spillOne_of_anchored hring ha hroom]
    exact ⟨rfl, rfl, rfl⟩
  case outcome =>
    refine (completes_outcome_settled hfind).mono fun t ht => ⟨ht, s.outcomeRecord o, ?_, rfl, rfl, rfl, fun hknown => ?_⟩
    · rw [ht]
      exact s.mem_anchors_writeOutcome o
    · rw [State.outcomeRecord, hknown]
      rfl
  case lost =>
    exact completes_outcome_idle hnone (by simp [hlost])
  case whole =>
    exact (completes_event exec_vaultRefill).mono fun t ht => ht.trans (State.refillStep_of_whole hwhole)

end Sys2Proof.Machine
end

section
/-! PROOFS. The journal, port, session and time commands (R258-R261, R294, R314, R389-R399, Tables 11.7, 11.8; log entry 31): what each
admitted command does where its own checks pass. -/

namespace Sys2Proof.Machine

/-! ## Bytes at a known place -/

/-- Equal parts make up a whole of their number times their length. -/
theorem length_flatMap_range {α : Type} {n w : Nat} {f : Nat → List α} (hf : ∀ i < n, (f i).length = w) :
    ((List.range n).flatMap f).length = n * w := by
  have hmap : (List.range n).map (fun i => (f i).length) = (List.range n).map fun _ => w :=
    List.map_congr_left fun i hi => hf i (List.mem_range.mp hi)
  simp [List.length_flatMap, hmap]

/-- A part of the bytes between two others. -/
theorem slice_append_middle {a x z : Bytes} {off len : Nat} (h : off + len ≤ x.length) :
    slice (a ++ (x ++ z)) (a.length + off) len = slice x off len := by
  rw [slice, ← List.drop_drop, List.drop_left, List.drop_append_of_le_length (by omega),
    List.take_append_of_le_length (by rw [List.length_drop]; omega), slice]

/-- A part of the one among equal parts, behind a head of known length. -/
theorem slice_flatMap_range {n w off len i : Nat} {f : Nat → Bytes} {a z : Bytes} (hf : ∀ j < n, (f j).length = w) (hi : i < n)
    (h : off + len ≤ w) : slice (a ++ ((List.range n).flatMap f ++ z)) (a.length + i * w + off) len = slice (f i) off len := by
  obtain ⟨m, rfl⟩ := Nat.exists_eq_add_of_le hi
  have hbefore : ((List.range i).flatMap f).length = i * w := length_flatMap_range fun j hj => hf j (by omega)
  have hmiddle := slice_append_middle (a := a ++ (List.range i).flatMap f)
    (z := ((List.range m).map (i + 1 + ·)).flatMap f ++ z) (h.trans_eq (hf i hi).symm)
  rw [List.length_append, hbefore] at hmiddle
  rw [← hmiddle, List.range_add, List.range_succ]
  simp

@[simp] theorem State.length_freeBytes (s : State) (n : Nat) : (s.freeBytes n).length = n := by
  have hwords : n ≤ ceilDiv n 8 * 8 := by
    unfold ceilDiv
    omega
  rw [State.freeBytes, List.length_take, length_flatMap_range fun _ _ => length_natBE 8 _, Nat.min_eq_left hwords]

/-! ## What a command's completion leaves of the ports and of the time -/

section
variable (s : State) (sp : Spec) (c : Cmd)

@[simp] theorem port_answer (rsp : Bytes) (p : Nat) : (answer c s sp rsp).port p = s.port p :=
  (answer_kept c sp rsp (Kept.refl _ s) (List.Subset.refl _)).port_eq (by decide) (by decide) p

@[simp] theorem time_answer (rsp : Bytes) : (answer c s sp rsp).time = s.time :=
  (answer_kept c sp rsp (Kept.refl _ s) (List.Subset.refl _)).time_eq (by decide)

@[simp] theorem State.time_modTime (f : Time → Time) : (s.modTime f).time = f s.time := rfl

/-- A change of the time made where a condition holds. -/
theorem State.time_ite_modTime (q : Prop) [Decidable q] (f : Time → Time) :
    (if q then s.modTime f else s).time = if q then f s.time else s.time := apply_ite State.time q _ _

/-! ## What a port going DOWN leaves of it (R286, R287) -/

/-- A port is one of two. -/
theorem State.port_congr {p q : Nat} (h : p = 0 ↔ q = 0) : s.port p = s.port q := by simp [State.port, h]

/-- A change of a session reaches nothing of a port but its sessions. -/
theorem State.port_modSession (p n : Nat) (f : Session → Session) (q : Nat) :
    ∃ sessions, (s.modSession p n f).port q = { s.port q with sessions } := by
  unfold State.modSession
  split
  next x _ =>
    by_cases h : p = 0 ↔ q = 0
    · refine ⟨(s.port p).sessions.set n (f x), ?_⟩
      rw [State.port_congr _ h.symm, State.port_congr _ h.symm]
      exact State.port_setPort s p _
    · exact ⟨(s.port q).sessions, State.port_setPort_ne s _ h⟩
  · exact ⟨(s.port q).sessions, rfl⟩

/-- Releasing items reaches nothing of a port but its sessions. -/
theorem State.port_foldl_releaseItem (items : List Item) (q : Nat) :
    ∃ sessions, (items.foldl State.releaseItem s).port q = { s.port q with sessions } := by
  induction items generalizing s with
  | nil => exact ⟨(s.port q).sessions, rfl⟩
  | cons i rest ih =>
    obtain ⟨_, hone⟩ := s.port_modSession i.desc.port i.desc.session
      (fun x => if x.carried i.desc then x.releaseUnits i.desc.laneIdx i.units else x) q
    obtain ⟨sessions, hrest⟩ := ih (s.releaseItem i)
    refine ⟨sessions, hrest.trans ?_⟩
    rw [State.releaseItem, hone]

/-- Forgetting streams reaches nothing of a port but its sessions. -/
theorem State.port_forgetStreams (ks : List Nat) (q : Nat) : ∃ sessions, (s.forgetStreams ks).port q = { s.port q with sessions } :=
  s.port_foldl_releaseItem _ q

/-- A port as it goes DOWN. -/
def Port.wentDown (pt : Port) : Port :=
  { pt with link := .down, retry := [], waitQ := [], replayRuns := 0, remap := .none, failedRetrains := 0, streams := [],
            aligned := false, initGot := false, initAckSent := false, initAckGot := false, txSuspended := false, lastNak := .none,
            held := pt.held.map fun h => (h.1, 0, h.2.2) }

theorem State.portDown_of_not_down {p : Nat} (h : (s.port p).link ≠ .down) : s.portDown p =
    ((s.setPort p (s.port p).wentDown).forgetStreams ((s.port p).streams.map Stream.key)).emit (.idle p) := if_neg h

/-- A port taken DOWN is DOWN and keeps its configuration. -/
theorem State.port_portDown (p : Nat) : ((s.portDown p).port p).link = .down ∧ ((s.portDown p).port p).enable = (s.port p).enable ∧
    ((s.portDown p).port p).drainUs = (s.port p).drainUs ∧ ((s.portDown p).port p).baseKey = (s.port p).baseKey := by
  by_cases h : (s.port p).link = .down
  · have hsame : s.portDown p = s := if_pos h
    rw [hsame]
    exact ⟨h, rfl, rfl, rfl⟩
  · obtain ⟨sessions, hport⟩ := (s.setPort p (s.port p).wentDown).port_forgetStreams ((s.port p).streams.map Stream.key) p
    have hdown : (s.portDown p).port p = { (s.port p).wentDown with sessions } := by
      rw [State.portDown_of_not_down s h]
      exact hport.trans (by rw [State.port_setPort])
    rw [hdown]
    exact ⟨rfl, rfl, rfl, rfl⟩

end

section
variable {s s1 : State} {c : Cmd} {sp : Spec} {k : Bytes}

/-! ## The journal (R258, R267) -/

theorem completes_journalQuery (h : Admitted 0x0701 sp c s) (hlen : c.body.length = 8) :
    Completes (.journalQuery c) s (Answered sp c s (s.journalAnswer c.colour (bodyHandle c.body 0))) :=
  completes_cmd h exec_journalQuery (beq_iff_eq.mpr hlen) rfl

/-- JOURNAL.STATUS answers 56 bytes and the watermark of each of the 16384 lanes. -/
theorem completes_journalStatus (h : Admitted 0x0702 sp c s) (hb : c.body = []) :
    Completes (.journalStatus c) s fun t => ∃ rsp, Answered sp c s rsp t ∧ rsp.length = 65592 := by
  refine completes_cmd h exec_journalStatus (by simp [hb]) ⟨_, rfl, ?_⟩
  simp only [List.length_append, length_natLE, List.length_replicate, List.length_cons, List.length_nil,
    length_flatMap_range fun _ _ => length_natLE 4 _]

/-! ## FRERI.CONFIG (R291, R292, R314) -/

/-- The settings FRERI.CONFIG's body gives a port; handle 0 leaves the old base key. -/
def State.portConfigured (s : State) (b : Bytes) (oldKey : Word) : State :=
  s.setPort (fieldLE b 0 1) { s.port (fieldLE b 0 1) with
    enable := bit (fieldLE b 1 1) 0, drainUs := fieldLE b 4 4, equal := slice b 16 20,
    baseKey := if bodyHandle b 8 = 0 then oldKey else bodyHandle b 8 }

/-- What FRERI.CONFIG then begins: training or the port's way DOWN, and a planned stop. -/
def State.portStarted (s : State) (b : Bytes) : State :=
  let s := if bit (fieldLE b 1 1) 0 then s.train (fieldLE b 0 1) else s.portDown (fieldLE b 0 1)
  if bit (fieldLE b 1 1) 1 then s.plannedStop (fieldLE b 0 1) 1 true else s

/-- Neither flag set, the port goes DOWN. -/
theorem State.portStarted_of_off (s : State) {b : Bytes} (hoff : fieldLE b 1 1 = 0) : s.portStarted b = s.portDown (fieldLE b 0 1) := by
  rw [State.portStarted, hoff]
  rfl

theorem freriConfig_wellFormed {b : Bytes} {equal : Bool} (hlen : b.length = 40) (hflags : fieldLE b 1 1 < 4) (hz : zeroAt b 2 2 = true)
    (hequal : equal = true) (hz2 : zeroAt b 36 4 = true) :
    (b.length == 40 && decide (fieldLE b 1 1 < 4) && zeroAt b 2 2 && equal && zeroAt b 36 4) = true := by
  simp [hlen, hflags, hz, hequal, hz2]

/-- Where the command's numbers are in range, its checks of them pass. -/
theorem freriConfig_bounds {p drain : Nat} {on stop : Bool} {up : Prop} (hport : p ≤ 1) (hmin : 100 ≤ drain) (hmax : drain ≤ 100000)
    (hstop : stop = true → on = true ∧ up) : ¬(1 < p ∨ drain < 100 ∨ 100000 < drain ∨ (stop = true ∧ (!on) = true)) := by
  rintro (hbad | hbad | hbad | ⟨hset, hoff⟩)
  · omega
  · omega
  · omega
  · simp [(hstop hset).1] at hoff

/-- A planned stop asked for only of a port that is UP is not refused for the link. -/
theorem freriConfig_link {on stop : Bool} {link : LinkState} (hstop : stop = true → on = true ∧ link = .up) :
    ¬(stop = true ∧ link ≠ .up) := fun ⟨hset, hlink⟩ => hlink (hstop hset).2

section
variable (h : Admitted 0x0901 sp c s) (hlen : c.body.length = 40) (hflags : fieldLE c.body 1 1 < 4) (hz : zeroAt c.body 2 2 = true)
  (hequal : ((List.range 5).all fun i => zeroAt c.body (19 + 4 * i) 1) = true) (hz2 : zeroAt c.body 36 4 = true)
  (hport : fieldLE c.body 0 1 ≤ 1) (hmin : 100 ≤ fieldLE c.body 4 4) (hmax : fieldLE c.body 4 4 ≤ 100000)
  (hstop : bit (fieldLE c.body 1 1) 1 = true → bit (fieldLE c.body 1 1) 0 = true ∧ (s.port (fieldLE c.body 0 1)).link = .up)
include h hlen hflags hz hequal hz2 hport hmin hmax hstop

/-- With handle 0 the port keeps its base key, and no port session opens. -/
theorem completes_freriConfig_kept (hkey : bodyHandle c.body 8 = 0)
    (hon : bit (fieldLE c.body 1 1) 0 = true → (s.port (fieldLE c.body 0 1)).baseKey ≠ 0) : Completes (.freriConfig c) s
      (Answered sp c ((s.portConfigured c.body (s.port (fieldLE c.body 0 1)).baseKey).portStarted c.body) (natLE 8 0)) := by
  refine completes_cmd h (exec_freriConfig.trans (by unfold execFreriConfig; rfl)) (freriConfig_wellFormed hlen hflags hz hequal hz2) ?_
  have hbounds := freriConfig_bounds hport hmin hmax hstop
  have hkeyed : ¬(bit (fieldLE c.body 1 1) 0 = true ∧ (s.port (fieldLE c.body 0 1)).baseKey = 0) :=
    fun ⟨hset, hzero⟩ => hon hset hzero
  have hlink := freriConfig_link hstop
  simp only [Answered, State.portConfigured, hbounds, hkey, hkeyed, hlink, ne_eq, not_true_eq_false, false_and, true_and, ↓reduceIte]
  rfl

/-- A new base key opens the port session anew under the next open serial, which the command answers. -/
theorem completes_freriConfig_keyed (hkey : bodyHandle c.body 8 ≠ 0) (hshut : s.tinShut 0 (bodyHandle c.body 8) = false)
    (hbase : s.baseKey 0 (bodyHandle c.body 8) = (s1, some k)) : Completes (.freriConfig c) s
      (let t := ((s1.portConfigured c.body (s.port (fieldLE c.body 0 1)).baseKey).openPortSession (fieldLE c.body 0 1)
        (bodyHandle c.body 8) k).portStarted c.body
      Answered sp c t (natLE 8 t.openSerial.toNat)) := by
  refine completes_cmd h (exec_freriConfig.trans (by unfold execFreriConfig; rfl)) (freriConfig_wellFormed hlen hflags hz hequal hz2) ?_
  have hbounds := freriConfig_bounds hport hmin hmax hstop
  have hlink := freriConfig_link hstop
  simp only [Answered, State.portConfigured, hbounds, hkey, hshut, hbase, hlink, Option.isNone_some,
    Bool.false_eq_true, false_and, and_false, ↓reduceIte]
  rfl

/-- A base key under the absent operator master key is refused (R545). -/
theorem completes_freriConfig_shut (hkey : bodyHandle c.body 8 ≠ 0) (hshut : s.tinShut 0 (bodyHandle c.body 8) = true) :
    Completes (.freriConfig c) s fun t => t = s.reject c cBadState := by
  refine completes_cmd h (exec_freriConfig.trans (by unfold execFreriConfig; rfl)) (freriConfig_wellFormed hlen hflags hz hequal hz2) ?_
  have hbounds := freriConfig_bounds hport hmin hmax hstop
  rw [if_neg hbounds, if_pos ⟨hkey, hshut⟩]

end

/-- With no flag set and handle 0 the port goes DOWN, disabled, with the drain interval named and the base key it had. -/
theorem completes_freriConfig_disabled (h : Admitted 0x0901 sp c s) (hlen : c.body.length = 40) (hoff : fieldLE c.body 1 1 = 0)
    (hz : zeroAt c.body 2 2 = true) (hequal : ((List.range 5).all fun i => zeroAt c.body (19 + 4 * i) 1) = true)
    (hz2 : zeroAt c.body 36 4 = true) (hport : fieldLE c.body 0 1 ≤ 1) (hmin : 100 ≤ fieldLE c.body 4 4)
    (hmax : fieldLE c.body 4 4 ≤ 100000) (hkey : bodyHandle c.body 8 = 0) : Completes (.freriConfig c) s fun t =>
      let pt := t.port (fieldLE c.body 0 1)
      pt.enable = false ∧ pt.drainUs = fieldLE c.body 4 4 ∧ pt.link = .down ∧ pt.baseKey = (s.port (fieldLE c.body 0 1)).baseKey := by
  have hbits : ∀ i, bit (fieldLE c.body 1 1) i = false := fun i => by simp [hoff, bit]
  refine (completes_freriConfig_kept h hlen (by omega) hz hequal hz2 hport hmin hmax (by simp [hbits]) hkey (by simp [hbits])).mono
    fun t ht => ?_
  rw [Answered, ← answer, State.portStarted_of_off _ hoff] at ht
  obtain ⟨hlink, henable, hdrain, hbase⟩ :=
    (s.portConfigured c.body (s.port (fieldLE c.body 0 1)).baseKey).port_portDown (fieldLE c.body 0 1)
  simp only [ht, port_answer, hlink, henable, hdrain, hbase]
  simp [State.portConfigured, hbits, hkey]

/-! ## Sessions (R292, R294) -/

/-- The session FRERI.SESSION.OPEN's body asks for, under a base key and an open serial. -/
def askedSession (c : Cmd) (k : Bytes) (serial : Word) : Session :=
  newSession c.colour (fieldLE c.body 1 1) (bit (fieldLE c.body 4 1) 0) (bit (fieldLE c.body 4 1) 1) (fieldLE c.body 5 1)
    (bodyHandle c.body 8) serial (sessionKey k (fieldLE c.body 0 1) (fieldLE c.body 2 2) serial)

section
variable (h : Admitted 0x0902 sp c s) (hlen : c.body.length = 16) (hroles : fieldLE c.body 4 1 < 4) (hz : zeroAt c.body 6 2 = true)
  (hport : fieldLE c.body 0 1 ≤ 1) (hvc : fieldLE c.body 1 1 ≠ 0) (hvc7 : fieldLE c.body 1 1 ≤ 7) (hn : fieldLE c.body 2 2 ≠ 0)
  (hn2 : fieldLE c.body 2 2 ≤ 4095) (hweight : fieldLE c.body 5 1 ≠ 0)
include h hlen hroles hz hport hvc hvc7 hn hn2 hweight

/-- A number in use is refused. -/
theorem completes_freriSessionOpen_exists (hused : (s.port (fieldLE c.body 0 1)).sessions.has (fieldLE c.body 2 2) = true) :
    Completes (.freriSessionOpen c) s fun t => t = s.reject c cExists := by
  refine completes_cmd h (exec_freriSessionOpen.trans (by unfold execFreriSessionOpen; rfl)) (by simp [hlen, hroles, hz]) ?_
  rw [if_neg (by omega), if_pos hused]

/-- A session opens under the next open serial and is told what it may send. -/
theorem completes_freriSessionOpen (hfree : (s.port (fieldLE c.body 0 1)).sessions.has (fieldLE c.body 2 2) = false)
    (hshut : s.tinShut c.colour (bodyHandle c.body 8) = false) (hbase : s.baseKey c.colour (bodyHandle c.body 8) = (s1, some k)) :
    Completes (.freriSessionOpen c) s
      (let t := (s1.nextSerial.setSession (fieldLE c.body 0 1) (fieldLE c.body 2 2)
        (askedSession c k s1.nextSerial.openSerial)).sendCredit (fieldLE c.body 0 1) (fieldLE c.body 2 2) true
      Answered sp c t (natLE 8 t.openSerial.toNat)) := by
  refine completes_cmd h (exec_freriSessionOpen.trans (by unfold execFreriSessionOpen; rfl)) (by simp [hlen, hroles, hz]) ?_
  rw [if_neg (by omega)]
  simp only [hfree, hshut, hbase]
  rfl

end

/-- FRERI.SESSION.CLOSE of a session of the colour begins its end; the windows of the colour's sessions are told anew. -/
theorem completes_freriSessionClose {x : Session} (h : Admitted 0x0903 sp c s) (hlen : c.body.length = 8) (hz : zeroAt c.body 1 1 = true)
    (hz2 : zeroAt c.body 4 4 = true) (hport : fieldLE c.body 0 1 ≤ 1) (hn : fieldLE c.body 2 2 ≠ 0) (hn2 : fieldLE c.body 2 2 ≤ 4095)
    (hfind : (s.port (fieldLE c.body 0 1)).sessions.find? (fieldLE c.body 2 2) = some x) (hcolour : x.colour = c.colour) :
    Completes (.freriSessionClose c) s (Answered sp c
      ((s.setSession (fieldLE c.body 0 1) (fieldLE c.body 2 2) { x with closing := true }).creditColour c.colour) []) := by
  refine completes_cmd h (exec_freriSessionClose.trans (by unfold execFreriSessionClose; rfl)) (by simp [hlen, hz, hz2]) ?_
  rw [if_neg (by omega)]
  simp only [hfind, Option.any_some, hcolour, beq_self_eq_true, ↓reduceIte, State.modSession]
  rfl

/-! ## FRERI.STATUS (R271, Table 11.7) -/

/-- The fields of FRERI.STATUS before its lanes. -/
def Port.statusHead (pt : Port) : Bytes :=
  natLE 1 pt.link.code ++ [0] ++ natLE 2 pt.epoch.toNat ++ natLE 2 pt.peerEpoch.toNat ++ pt.laneMap.toList.map (BitVec.ofNat 8) ++
    List.replicate 6 0

/-- One lane of FRERI.STATUS: the settings last sampled, the taps that no sample reads, and the corrected symbols. -/
def Port.statusLane (pt : Port) (taps : Bytes) (i : Nat) : Bytes :=
  [BitVec.ofInt 8 (pt.ctle.get i 0), BitVec.ofInt 8 (pt.tap1.get i 0)] ++ (taps.drop (11 * i)).take 11 ++ [0, 0, 0] ++
    natLE 8 (pt.symbols.get i 0)

/-- The fields of FRERI.STATUS after its lanes: counts of replays and of credit, sessions and streams, violations, the port session. -/
def Port.statusTail (pt : Port) : Bytes :=
  natLE 8 pt.replays.toNat ++ natLE 8 pt.nakSent.toNat ++ natLE 8 pt.nakGot.toNat ++ natLE 8 pt.creditHolds.toNat ++
    natLE 4 pt.sessions.length ++ natLE 4 pt.streams.length ++ ((List.range 15).flatMap fun i => natLE 8 (pt.viol.get (i + 1) 0)) ++
    natLE 8 (((pt.sessions.find? 0).map Session.serial).getD 0).toNat

/-- What FRERI.STATUS answers of a port. -/
def Port.status (pt : Port) (taps : Bytes) : Bytes := pt.statusHead ++ ((List.range 5).flatMap (pt.statusLane taps) ++ pt.statusTail)

@[simp] theorem Port.length_statusHead (pt : Port) : pt.statusHead.length = 16 := by simp [Port.statusHead]

@[simp] theorem Port.length_statusTail (pt : Port) : pt.statusTail.length = 168 := by
  simp [Port.statusTail, length_flatMap_range fun _ _ => length_natLE 8 _]

/-- Of 55 free bytes each of the five lanes takes eleven. -/
theorem Port.length_statusLane (pt : Port) {taps : Bytes} (htaps : taps.length = 55) {i : Nat} (hi : i < 5) :
    (pt.statusLane taps i).length = 24 := by
  simp only [Port.statusLane, List.length_append, List.length_cons, List.length_nil, List.length_take, List.length_drop, length_natLE]
  omega

/-- Where the fields of FRERI.STATUS lie. -/
theorem Port.status_layout (pt : Port) {taps : Bytes} (htaps : taps.length = 55) : (pt.status taps).length = 304 ∧
    (pt.status taps).take 6 = [BitVec.ofNat 8 pt.link.code, 0] ++ natLE 2 pt.epoch.toNat ++ natLE 2 pt.peerEpoch.toNat ∧
    ∀ i < 5, slice (pt.status taps) (16 + 24 * i) 2 = [BitVec.ofInt 8 (pt.ctle.get i 0), BitVec.ofInt 8 (pt.tap1.get i 0)] ∧
      slice (pt.status taps) (32 + 24 * i) 8 = natLE 8 (pt.symbols.get i 0) := by
  have hlanes : ∀ i < 5, (pt.statusLane taps i).length = 24 := fun i hi => pt.length_statusLane htaps hi
  refine ⟨?total, rfl, fun i hi => ?lane⟩
  case total => simp [Port.status, length_flatMap_range hlanes]
  case lane =>
    have hpart : ∀ off len, off + len ≤ 24 → slice (pt.status taps) (16 + i * 24 + off) len = slice (pt.statusLane taps i) off len :=
      fun off len h => pt.length_statusHead ▸ slice_flatMap_range hlanes hi h
    have hsymbols : slice (pt.statusLane taps i) 16 8 = natLE 8 (pt.symbols.get i 0) := by
      have htaken : ((taps.drop (11 * i)).take 11).length = 11 := by
        rw [List.length_take, List.length_drop, htaps]
        omega
      simp [Port.statusLane, slice, List.drop_append, htaken, List.drop_eq_nil_of_le]
    refine ⟨?_, ?_⟩
    · rw [show 16 + 24 * i = 16 + i * 24 + 0 by omega, hpart 0 2 (by decide)]
      rfl
    · rw [show 32 + 24 * i = 16 + i * 24 + 16 by omega, hpart 16 8 (by decide), hsymbols]

/-- FRERI.STATUS answers its fields, the taps that no sample reads being free values. -/
theorem completes_freriStatus (h : Admitted 0x0904 sp c s) (hlen : c.body.length = 8) (hz : zeroAt c.body 1 7 = true)
    (hport : fieldLE c.body 0 1 ≤ 1) :
    Completes (.freriStatus c) s (Answered sp c (s.drawnBytes 55) ((s.port (fieldLE c.body 0 1)).status (s.freeBytes 55))) := by
  refine completes_cmd h (exec_freriStatus.trans (by unfold execFreriStatus; rfl)) (by simp [hlen, hz]) ?_
  rw [if_neg (Nat.not_lt.mpr hport)]
  simp only [Answered, answer, Port.status, Port.statusHead, Port.statusTail, List.append_assoc]
  rfl

/-! ## Time (R389-R399) -/

/-- TIME.STATUS begins with the quality and the seconds. -/
theorem completes_timeStatus (h : Admitted 0x0A01 sp c s) (hb : c.body = []) : Completes (.timeStatus c) s fun t => ∃ rsp,
    Answered sp c s rsp t ∧ rsp.take 12 = [BitVec.ofNat 8 s.time.quality.code, 0, 0, 0] ++ natLE 8 s.time.secs.toNat :=
  completes_cmd h exec_timeStatus (by simp [hb]) ⟨_, rfl, rfl⟩

/-- The time in the domain and with the mechanism asked for, selecting a master anew where one of them is new. -/
def Time.inDomain (t : Time) (domain : Nat) (peer : Bool) : Time :=
  if domain ≠ t.domain ∨ peer ≠ t.peer then t.reselect domain peer else t

/-- The time with the holdover source asked for. -/
def Time.withSource (t : Time) (source : Nat) : Time := if source ≠ t.source then t.useSource source else t

/-- TIME.CONFIG sets the domain, the mechanism and the source; PPS_OUT waits for the next second. -/
theorem completes_timeConfig (h : Admitted 0x0A02 sp c s) (hlen : c.body.length = 8) (hz : zeroAt c.body 4 4 = true)
    (hdomain : fieldLE c.body 0 1 ≤ 127) (hmech : fieldLE c.body 1 1 ≤ 1) (hpps : fieldLE c.body 2 1 ≤ 1)
    (hsource : fieldLE c.body 3 1 ≤ 1) :
    Completes (.timeConfig c) s fun t => t.time = { (s.time.inDomain (fieldLE c.body 0 1) (fieldLE c.body 1 1 == 1)).withSource
      (fieldLE c.body 3 1) with ppsPending := some (fieldLE c.body 2 1 == 1) } := by
  refine completes_cmd h (exec_timeConfig.trans (by unfold execTimeConfig; rfl)) (by simp [hlen, hz]) ?_
  rw [if_neg (by omega), time_answer]
  simp only [State.time_modTime, State.time_ite_modTime]
  rfl

end

/-- Settles O42: each command by its lemma; FRERI.CONFIG of a cleared ENABLE by what a port going DOWN leaves. -/
theorem portAndTimeCommands : Obligations.PortAndTimeCommands := by
  unfold Obligations.PortAndTimeCommands
  intro s s1 c sp k x b p n handle
  refine ⟨completes_journalQuery, completes_journalStatus, completes_freriConfig_disabled, ?config,
    completes_freriSessionOpen, completes_freriSessionOpen_exists, completes_freriSessionClose, ?status, completes_timeStatus,
    completes_timeConfig⟩
  case config =>
    intro on stop pt set run h hlen hflags hz hequal hz2 hport hmin hmax hstop
    exact ⟨completes_freriConfig_kept h hlen hflags hz hequal hz2 hport hmin hmax hstop,
      completes_freriConfig_keyed h hlen hflags hz hequal hz2 hport hmin hmax hstop,
      completes_freriConfig_shut h hlen hflags hz hequal hz2 hport hmin hmax hstop⟩
  case status =>
    intro h hlen hz hport
    exact (completes_freriStatus h hlen hz hport).mono fun t ht => ⟨_, ht, (s.port p).status_layout (s.length_freeBytes 55)⟩

end Sys2Proof.Machine
end

section
/-! PROOFS. Freri messages as they arrive (R289, R296, R308, Table 9.6): each check answers a message that fails it; what a message that
passes them all leaves to its type's effect. -/

namespace Sys2Proof.Machine

/-! ## The checks of a message, in order (R296) -/

/-- Check 1: a message of a length Table 9.4 allows, which is the length its header names. -/
def Msg.shaped (m : Msg) : Prop := 48 ≤ m.raw.length ∧ m.len ≤ 8240 ∧ m.raw.length = m.len

/-- Check 5: the tag is the session's over the message's other bytes. -/
def Msg.whole (m : Msg) (x : Session) : Prop :=
  gcmTag x.key (messageIv m.session 0 m.port m.seq) (m.raw.take (m.raw.length - 16)) [] = m.raw.drop (m.raw.length - 16)

/-- A session that has accepted a message: its highest number is the message's, whose units are counted on the lane it names (R308). -/
def State.accepting (s : State) (m : Msg) (x : Session) : Session :=
  let y := { x with recvSeq := m.seq }
  match s.countedLane m y with
  | some i => y.countUnits i m.units
  | .none => y

theorem Msg.shaped_iff (m : Msg) : m.shaped ↔ ¬(m.raw.length < 48 ∨ 8240 < m.len ∨ m.raw.length ≠ m.len) := by
  unfold Msg.shaped
  omega

section
variable {s s2 : State} {m : Msg} {x : Session}

theorem State.receive_of_not_shaped (hshape : ¬m.shaped) : s.receive m = some (s.violMsg m 1 0) := by
  unfold State.receive
  exact if_pos (not_not.mp (mt m.shaped_iff.mpr hshape))

variable (hshape : m.shaped)
include hshape

theorem State.receive_of_unknown_type (htyp : m.typ ∉ rxTypes) : s.receive m = some (s.violMsg m 2 0) := by
  unfold State.receive
  rw [if_neg (m.shaped_iff.mp hshape)]
  exact if_pos (by simpa using htyp)

variable (htyp : m.typ ∈ rxTypes)
include htyp

/-- Checks 1 and 2 passed, the session decides. -/
theorem State.receive_of_no_session (hnone : (s.port m.port).openSession m.session = .none) :
    s.receive m = some (s.violMsg m 3 0) := by
  unfold State.receive
  rw [if_neg (m.shaped_iff.mp hshape), if_neg (by simpa using htyp), hnone]

variable (hopen : (s.port m.port).openSession m.session = some x)
include hopen

theorem State.receive_of_wrong_channel (hvc : x.vc ≠ m.vc) : s.receive m = some (s.violMsg m 4 0) := by
  unfold State.receive
  rw [if_neg (m.shaped_iff.mp hshape), if_neg (by simpa using htyp), hopen]
  exact if_pos hvc

variable (hvc : x.vc = m.vc)
include hvc

theorem State.receive_of_bad_tag (hwhole : ¬m.whole x) : s.receive m = some (s.violMsg m 5 m.session) := by
  unfold State.receive
  rw [if_neg (m.shaped_iff.mp hshape), if_neg (by simpa using htyp), hopen]
  exact (if_neg (not_not.mpr hvc)).trans (if_pos hwhole)

variable (hwhole : m.whole x)
include hwhole

theorem State.receive_of_old_number (hold : m.seq ≤ x.recvSeq) : s.receive m = some (s.violMsg m 6 m.session) := by
  unfold State.receive
  rw [if_neg (m.shaped_iff.mp hshape), if_neg (by simpa using htyp), hopen]
  exact (if_neg (not_not.mpr hvc)).trans ((if_neg (not_not.mpr hwhole)).trans (if_pos hold))

/-- Past check 6 the session accepts the number; past check 7 the message has its type's effect. -/
theorem State.receive_of_accepted (hnew : x.recvSeq < m.seq)
    (hfields : (s.setSession m.port m.session (s.accepting m x)).fieldsOk m (s.accepting m x) = true) :
    s.receive m = (s.setSession m.port m.session (s.accepting m x)).rxEffect m (s.accepting m x) := by
  unfold State.receive
  rw [if_neg (m.shaped_iff.mp hshape), if_neg (by simpa using htyp), hopen]
  exact (if_neg (not_not.mpr hvc)).trans ((if_neg (not_not.mpr hwhole)).trans ((if_neg (BitVec.not_le.mpr hnew)).trans (if_pos hfields)))

end

/-! ## The message rows (R289) -/

section
variable {s s2 : State} {p vc : Nat} {raw : Bytes} {c : Instr} {typ : Nat}

/-- The row of each type of Table 9.5 a partner may send. -/
def rxRows (p vc : Nat) (raw : Bytes) : List (Instr × Nat) :=
  [(.itinReq p vc raw, 0x01), (.bulkOpen p vc raw, 0x10), (.bulkData p vc raw, 0x11), (.bulkClose p vc raw, 0x12),
    (.vaultData p vc raw, 0x22), (.idleMessageReceipt p vc raw, 0x31), (.goingAway p vc raw, 0x32), (.violation p vc raw, 0x33)]

/-- The rows are those of the types check 2 passes. -/
theorem mem_rxTypes_of_mem_rxRows (h : (c, typ) ∈ rxRows p vc raw) : typ ∈ rxTypes :=
  List.mem_map_of_mem (f := Prod.snd) h

theorem exec_rxRow (h : (c, typ) ∈ rxRows p vc raw) : exec c s = rxRow typ p vc raw s := by
  simp only [rxRows, List.mem_cons, Prod.mk.injEq, List.not_mem_nil, or_false] at h
  rcases h with ⟨rfl, rfl⟩ | ⟨rfl, rfl⟩ | ⟨rfl, rfl⟩ | ⟨rfl, rfl⟩ | ⟨rfl, rfl⟩ | ⟨rfl, rfl⟩ | ⟨rfl, rfl⟩ | ⟨rfl, rfl⟩ <;> rfl

/-- With nothing held, a message that finds room has its effect at once, and its channel's credits are returned. -/
theorem completes_rxRow (hrow : (c, typ) ∈ rxRows p vc raw) (hvc : vcOk p vc = true) (hup : (s.port p).link = .up)
    (hheld : (s.port p).held = [])
    (htyp : (parseMsg p vc ((s.port p).expSeq - 1).toNat 16 raw).typ = typ)
    (hreceive : s.receive (parseMsg p vc ((s.port p).expSeq - 1).toNat 16 raw) = some s2) :
    Completes c s fun t => t = s2.grant p vc 0 := by
  refine (completes_checked (exec_rxRow hrow) hvc).mono fun t ht => ht.trans ?_
  rw [if_pos ⟨htyp, hup⟩]
  have hfree : ((s.port p).held.any fun h => h.1 == vc) = false := by simp [hheld]
  exact (if_neg (ne_true_of_eq_false hfree)).trans (by rw [hreceive]; rfl)

end

/-- Settles O26: an accepted message by `State.receive_of_accepted` through its row; a failed check by its own lemma. -/
theorem messagesAccepted : Obligations.MessagesAccepted := by
  unfold Obligations.MessagesAccepted
  refine ⟨?accepted, fun s m x => ⟨State.receive_of_not_shaped, ?kind, ?session, ?channel, ?tag, ?number⟩⟩
  case accepted =>
    intro s s2 p vc raw x c typ hvc hrow m hup hheld htyp hmin hlen hmax hopen hchannel hwhole hnew y z s1 hfields heffect
    have hknown : m.typ ∈ rxTypes := htyp ▸ mem_rxTypes_of_mem_rxRows hrow
    exact completes_rxRow hrow hvc hup hheld htyp
      ((State.receive_of_accepted ⟨hmin, hmax, hlen⟩ hknown hopen hchannel hwhole hnew hfields).trans heffect)
  case kind => exact fun hshape hunknown => State.receive_of_unknown_type hshape fun htyp => hunknown ⟨hshape, htyp⟩
  case session => exact fun ⟨hshape, htyp⟩ hnone => State.receive_of_no_session hshape htyp hnone
  case channel => exact fun ⟨⟨hshape, htyp⟩, hopen⟩ hvc => State.receive_of_wrong_channel hshape htyp hopen hvc
  case tag => exact fun ⟨⟨hshape, htyp⟩, hopen⟩ hvc hbad => State.receive_of_bad_tag hshape htyp hopen hvc hbad
  case number => exact fun ⟨⟨hshape, htyp⟩, hopen⟩ hvc hwhole hold => State.receive_of_old_number hshape htyp hopen hvc hwhole hold

end Sys2Proof.Machine
end

section
/-! PROOFS. What a port sends (R282, R283, R299) and what it leaves of the port. -/

namespace Sys2Proof.Machine

/-! ## Frames sent -/

/-- A port that has sent DATA frames differs in what waits, the frames it keeps, the next number and the credits used alone. -/
def Port.Sent (pt pt' : Port) : Prop := ∃ waitQ sendSeq retry used, pt' = { pt with waitQ, sendSeq, retry, used }

theorem Port.Sent.trans {pt pt' pt'' : Port} (h : pt.Sent pt') (h' : pt'.Sent pt'') : pt.Sent pt'' := by
  obtain ⟨_, _, _, _, rfl⟩ := h
  obtain ⟨waitQ, sendSeq, retry, used, rfl⟩ := h'
  exact ⟨waitQ, sendSeq, retry, used, rfl⟩

theorem pumpPass_sent (bulk : Bool) (ms : List OutMsg) (pt : Port) (blocked : List Nat) (left : List OutMsg) (sent : List Bytes) :
    pt.Sent (pumpPass bulk ms pt blocked left sent).1 := by
  induction ms generalizing pt blocked left sent with
  | nil => exact ⟨left.reverse, pt.sendSeq, pt.retry, pt.used, rfl⟩
  | cons m r ih =>
    unfold pumpPass
    dsimp only
    split
    · exact ih _ _ _ _
    · split
      · exact ⟨left.reverse ++ m :: r, pt.sendSeq, pt.retry, pt.used, rfl⟩
      · exact .trans ⟨pt.waitQ, _, _, _, rfl⟩ (ih _ _ _ _)

theorem pumpPort_sent (pt : Port) : pt.Sent (pumpPort pt).1 := by
  have hfirst := pumpPass_sent false pt.waitQ pt [] [] []
  unfold pumpPort
  split
  next h =>
    rw [h] at hfirst
    exact hfirst
  next h =>
    rw [h] at hfirst
    exact hfirst.trans (pumpPass_sent true _ _ _ _ _)

section
variable (s : State) (p : Nat)

/-- Frames that leave reach no port. -/
@[simp] theorem State.port_foldl_emit {α : Type} (f : α → Output) (xs : List α) (q : Nat) :
    (xs.foldl (fun t x => t.emit (f x)) s).port q = s.port q := by
  induction xs generalizing s with
  | nil => rfl
  | cons x xs ih => exact (ih (s.emit (f x))).trans (State.port_emit' s (f x) q)

theorem State.port_pump : (s.port p).Sent ((s.pump p).port p) := by
  unfold State.pump
  dsimp only
  split
  · rw [State.port_foldl_emit, State.port_setPort]
    exact pumpPort_sent _
  · exact ⟨_, _, _, _, rfl⟩

theorem State.pump_of_not_up (h : (s.port p).link ≠ .up) : s.pump p = s := if_neg h

/-- Sending changes nothing but the port and what has left the part. -/
theorem State.pump_keeps : Kept [.out, .port0, .port1] s (s.pump p) := State.pump_kept p (Kept.refl _ s) (List.Subset.refl _)

end

/-- A message sent on an open session takes the session's next number. -/
theorem State.sendSeq_sendMsg {s : State} {p n : Nat} (typ laneIdx a : Nat) (b c : Word) (payload : Bytes) (ticket : Option Desc)
    {x : Session} (hopen : (s.port p).openSession n = some x) (hcarries : (s.port p).carries = true) :
    ∃ y, ((s.sendMsg p n typ laneIdx a b c payload ticket).port p).sessions.find? n = some y ∧ y.sendSeq = x.sendSeq + 1 := by
  refine ⟨{ x with sendSeq := x.sendSeq + 1 }, ?_, rfl⟩
  simp only [State.sendMsg, hopen, if_pos hcarries]
  obtain ⟨_, _, _, _, hsent⟩ := State.port_pump _ p
  rw [hsent]
  simp [Tbl.find?_set]

end Sys2Proof.Machine
end

section
/-! PROOFS. What accepted messages do (R295-R305, R315), held channels, IDLE and CREDIT (R117, R285, R308, R310;
log entry 30). -/

namespace Sys2Proof.Machine

/-! ## The effect of each type (R295) -/

section
variable (s : State) {m : Msg} (x : Session)

theorem State.rxEffect_itinReq (h : m.typ = 0x01) : s.rxEffect m x = s.rxItinReq m x := by simp only [State.rxEffect, h]

theorem State.rxEffect_bulkOpen (h : m.typ = 0x10) : s.rxEffect m x = some (s.rxBulkOpen m x) := by simp only [State.rxEffect, h]

theorem State.rxEffect_bulkData (h : m.typ = 0x11) : s.rxEffect m x = s.rxBulkData m x := by simp only [State.rxEffect, h]

theorem State.rxEffect_bulkClose (h : m.typ = 0x12) : s.rxEffect m x = some (s.rxBulkClose m) := by simp only [State.rxEffect, h]

theorem State.rxEffect_idle (h : m.typ = 0x31) : s.rxEffect m x = some s := by simp only [State.rxEffect, h]

theorem State.rxEffect_goingAway (h : m.typ = 0x32) :
    s.rxEffect m x = some (s.setPort m.port { s.port m.port with partnerStop := some (s.now + m.c + 100000) }) := by
  simp only [State.rxEffect, h]

theorem State.rxEffect_violation (h : m.typ = 0x33) : s.rxEffect m x = some (s.violHeard m.port m.a) := by
  simp only [State.rxEffect, h]

end

/-- An ITIN_REQ on a session that closes is violation 8. -/
theorem State.rxItinReq_of_closing (s : State) (m : Msg) {x : Session} (h : x.closing = true) :
    s.rxItinReq m x = some (s.dropCounted m m.lane 8) := if_pos h

theorem State.rxBulkClose_of_unknown {s : State} {m : Msg} (h : s.msgStream m = .none) :
    s.rxBulkClose m = s.violMsg m 10 m.session := by
  rw [State.rxBulkClose, h]

/-! ## VIOLATION (R298) -/

/-- A VIOLATION of a code of Table 9.6 is counted as received, under its code, and leaves the journal, the memory and what has left the part. -/
theorem State.violHeard_of_code (s : State) (p : Nat) {code : Nat} (hmin : 1 ≤ code) (hmax : code ≤ 15) :
    ((s.violHeard p code).port p).violReceived = (s.port p).violReceived + 1 ∧
      ((s.violHeard p code).port p).viol.get code 0 = (s.port p).viol.get code 0 + 1 ∧ (s.violHeard p code).journal = s.journal ∧
      (s.violHeard p code).mem = s.mem ∧ (s.violHeard p code).out = s.out := by
  simp [State.violHeard, hmin, hmax]

/-! ## BULK_OPEN (R301, R302) -/

section
variable {s s1 : State} {m : Msg} {x : Session} {l : Nat} {k : Key} (hopen : x.closing = false)
  (hlane : s.laneOf x.colour m.lane = some l) (hclass : (s.lane l).cls = 3)
include hopen hlane hclass

theorem State.rxBulkOpen_of_bad_descriptor (hdesc : bulkDescOk m.body = false) : s.rxBulkOpen m x = s.openStatus m 2 := by
  simp [State.rxBulkOpen, hopen, hlane, hclass, hdesc]

variable (hdesc : bulkDescOk m.body = true)
include hdesc

theorem State.rxBulkOpen_of_no_room (hroom : ¬((s.port m.port).streams.length < 1024 ∧ s.msgStream m = .none)) :
    s.rxBulkOpen m x = s.openStatus m 3 := by
  have hfull : 1024 ≤ (s.port m.port).streams.length ∨ (s.msgStream m).isSome = true := by
    rw [← not_lt, Option.isSome_iff_ne_none]
    exact not_and_or.mp hroom
  simp [State.rxBulkOpen, hopen, hlane, hclass, hdesc, hfull]

variable (hlength : (s.port m.port).streams.length < 1024) (hnew : s.msgStream m = .none)
include hlength hnew

theorem State.rxBulkOpen_of_no_key (hkeys : s.bulkKeys x.colour m.body = (s1, .none)) : s.rxBulkOpen m x = s1.openStatus m 1 := by
  simp [State.rxBulkOpen, hopen, hlane, hclass, hdesc, hlength.not_ge, hnew, hkeys]

variable (hkeys : s.bulkKeys x.colour m.body = (s1, some k))
include hkeys

theorem State.rxBulkOpen_of_lane_not_open (hstate : (s1.lane l).state ≠ .opened) :
    s.rxBulkOpen m x = (s1.overrun l).violMsg m 14 m.session := by
  simp [State.rxBulkOpen, hopen, hlane, hclass, hdesc, hlength.not_ge, hnew, hkeys, hstate]

theorem State.rxBulkOpen_of_lane_open (hstate : (s1.lane l).state = .opened) : s.rxBulkOpen m x =
    (s1.setPort m.port { s1.port m.port with streams := (s1.port m.port).streams ++ [openedStream m l k] }).openStatus m 0 := by
  simp [State.rxBulkOpen, hopen, hlane, hclass, hdesc, hlength.not_ge, hnew, hkeys, hstate]

end

/-! ## BULK_DATA (R302, R303, R305) -/

section
variable {s : State} {m : Msg} {x : Session} {y : Stream}

theorem State.rxBulkData_of_unknown (hnone : s.msgStream m = .none) : s.rxBulkData m x = some (s.violMsg m 10 m.session) := by
  simp [State.rxBulkData, hnone]

variable (hstream : s.msgStream m = some y)
include hstream

theorem State.rxBulkData_of_unannounced (hearly : y.announced = false) :
    s.rxBulkData m x = some (s.dropCounted m (s.lane y.lane).index 10) := by
  simp [State.rxBulkData, hstream, hearly]

variable (hannounced : y.announced = true)
include hannounced

theorem State.rxBulkData_of_out_of_order (horder : m.c ≠ y.received) :
    s.rxBulkData m x = some ((s.dropCounted m (s.lane y.lane).index 11).abortStream y.key) := by
  simp [State.rxBulkData, hstream, hannounced, horder]

theorem State.rxBulkData_of_not_blocks (horder : m.c = y.received) (hclose : y.closeReq = .none)
    (hblocks : m.body.length % 16 ≠ 0 ∨ y.short = true) :
    s.rxBulkData m x = some ((s.dropCounted m (s.lane y.lane).index 12).abortStream y.key) := by
  simp [State.rxBulkData, hstream, hannounced, horder, hclose, hblocks]

end

/-! ## IDLE (R310) -/

/-- A silent session sends an IDLE with the highest number it has accepted. -/
theorem completes_idleMessage {s : State} {p n : Nat} {x : Session} (hok : sessionOk p n = true)
    (hopen : (s.port p).openSession n = some x) :
    Completes (.idleMessage p n) s fun t => t = s.sendMsg p n 0x31 0 0 x.recvSeq 0 [] .none := by
  refine (completes_checked exec_idleMessage hok).mono fun t ht => ht.trans ?_
  rw [Port.find?_of_openSession hopen]

/-- Settles O27: each type's effect by the lemma of its case; the release, IDLE and CREDIT by their own equations. -/
theorem messageEffects : Obligations.MessageEffects := by
  unfold Obligations.MessageEffects
  refine ⟨fun s s1 m x l k y => ?effects, fun s p vc n x => ⟨completes_checked exec_linkCreditHoldRelease, fun hok hopen hcarries => ?idle,
    completes_checked exec_credit⟩⟩
  case effects =>
    intro pt bulk room gives
    have hopens : bulk → ∀ {t}, (x.closing = false → s.laneOf x.colour m.lane = some l → (s.lane l).cls = 3 → s.rxBulkOpen m x = t) →
        gives t := fun ⟨htyp, hopen, hlane, hclass⟩ _ h => (s.rxEffect_bulkOpen x htyp).trans (congrArg some (h hopen hlane hclass))
    have hdata : ∀ {t}, m.typ = 0x11 → s.rxBulkData m x = some t → gives t := fun htyp h => (s.rxEffect_bulkData x htyp).trans h
    refine ⟨s.rxEffect_idle x, fun htyp hmin hmax => ⟨_, s.rxEffect_violation x htyp, s.violHeard_of_code m.port hmin hmax⟩,
      s.rxEffect_goingAway x, fun hbulk hdesc => hopens hbulk ?descriptor, fun hbulk hdesc hroom => hopens hbulk ?full,
      fun hbulk hdesc ⟨hlength, hnew⟩ hkeys => hopens hbulk ?unkeyed, fun hbulk hdesc ⟨hlength, hnew⟩ hkeys hstate => hopens hbulk ?shut,
      fun hbulk hdesc ⟨hlength, hnew⟩ hkeys hstate => hopens hbulk ?opened, fun htyp hnone => hdata htyp (State.rxBulkData_of_unknown hnone),
      fun htyp hstream hearly => hdata htyp (State.rxBulkData_of_unannounced hstream hearly),
      fun htyp hstream hannounced horder => hdata htyp (State.rxBulkData_of_out_of_order hstream hannounced horder),
      fun htyp hstream hannounced horder hclose hblocks =>
        hdata htyp (State.rxBulkData_of_not_blocks hstream hannounced horder hclose hblocks),
      fun htyp hnone => (s.rxEffect_bulkClose x htyp).trans (congrArg some (State.rxBulkClose_of_unknown hnone)),
      fun htyp hclosing => (s.rxEffect_itinReq x htyp).trans (s.rxItinReq_of_closing m hclosing)⟩
    case descriptor => exact fun hopen hlane hclass => State.rxBulkOpen_of_bad_descriptor hopen hlane hclass hdesc
    case full => exact fun hopen hlane hclass => State.rxBulkOpen_of_no_room hopen hlane hclass hdesc hroom
    case unkeyed => exact fun hopen hlane hclass => State.rxBulkOpen_of_no_key hopen hlane hclass hdesc hlength hnew hkeys
    case shut => exact fun hopen hlane hclass => State.rxBulkOpen_of_lane_not_open hopen hlane hclass hdesc hlength hnew hkeys hstate
    case opened => exact fun hopen hlane hclass => State.rxBulkOpen_of_lane_open hopen hlane hclass hdesc hlength hnew hkeys hstate
  case idle =>
    refine (completes_idleMessage hok hopen).mono fun t ht => ?_
    rw [ht]
    exact ⟨State.message_mem_out_sendMsg _ _ _ _ _ _ _ hopen hcarries, State.sendSeq_sendMsg _ _ _ _ _ _ _ hopen hcarries⟩

end Sys2Proof.Machine
end

section
/-! PROOFS. Freri frames as they arrive, what a NAK and a replay timeout send again, the heartbeat (R275-R283). -/

namespace Sys2Proof.Machine

/-! ## Frames that arrive on a port that is UP (R279) -/

section
variable {c : Instr} {s : State} {typ p : Nat} {f : Bytes} {effect : State → State} (he : exec c s = frameRow typ p f s effect)
  (hp : portOk p = true) (hup : (s.port p).link = .up)
include he hp hup

theorem completes_frameRow_broken (hbroken : frameOk f = false) : Completes c s fun t => t = s.nak p 1 := by
  refine (completes_checked he hp).mono fun t ht => ht.trans ?_
  rw [if_neg (not_not.mpr hup), hbroken]
  rfl

/-- A whole frame of the type and epoch is heard, has its effect, and the port sends what it may. -/
theorem completes_frameRow_whole (hwhole : frameOk f = true) (htyp : fieldBE f 0 1 = typ)
    (hepoch : fieldBE f 0x0C 2 = (s.port p).peerEpoch.toNat) :
    Completes c s fun t => t = (effect (s.heardHeader p f)).pump p := by
  refine (completes_checked he hp).mono fun t ht => ht.trans ?_
  rw [if_neg (not_not.mpr hup), hwhole, if_neg (by decide), if_neg (by simp [htyp, hepoch])]

end

/-! ## Replay (R281) -/

section
variable (s : State) (p : Nat)

/-- Outputs recorded one after another stand newest first. -/
theorem State.out_foldl_emit {α : Type} (f : α → Output) (xs : List α) :
    (xs.foldl (fun t x => t.emit (f x)) s).out = (xs.map f).reverse ++ s.out := by
  induction xs generalizing s with
  | nil => rfl
  | cons x xs ih =>
    rw [List.foldl_cons, ih]
    simp [State.emit]

@[simp] theorem State.port_resend (a : BitVec 16) (q : Nat) : (s.resend p a).port q = s.port q := State.port_foldl_emit s _ _ q

/-- The frames a replay from a number sends. -/
def Port.resent (pt : Port) (p : Nat) (a : BitVec 16) : List Output :=
  (pt.retry.filter fun g => frameLe a g.seq).map fun g => .frame p g.bytes

theorem State.out_resend (a : BitVec 16) : (s.resend p a).out = ((s.port p).resent p a).reverse ++ s.out :=
  State.out_foldl_emit s _ _

variable {s p}

theorem State.link_portRetrain (hup : (s.port p).link = .up) : ((s.portRetrain p).port p).link = .retrain := by
  rw [State.portRetrain, if_pos hup]
  simp

/-- One of the first eight replays in a row is counted and sends the retry buffer again from the number on. -/
theorem State.replay_of_few (hfew : (s.port p).replayRuns < 8) (a : BitVec 16) :
    (s.replay p a).port p = { s.port p with replayRuns := (s.port p).replayRuns + 1, replays := (s.port p).replays + 1 } ∧
      (s.replay p a).out = ((s.port p).resent p a).reverse ++ s.out := by
  rw [State.replay, if_neg hfew.not_ge]
  refine ⟨?_, ?_⟩
  · simp
  · rw [State.out_resend]
    simp [Port.resent]

/-- The ninth retrains the link. -/
theorem State.link_replay_of_many (hmany : 8 ≤ (s.port p).replayRuns) (hup : (s.port p).link = .up) (a : BitVec 16) :
    ((s.replay p a).port p).link = .retrain := by
  rw [State.replay, if_pos hmany, State.link_portRetrain hup]

/-- A NAK counted: the transmit direction is no longer suspended. -/
def State.nakCounted (s : State) (p : Nat) : State :=
  (s.setPort p { s.port p with nakGot := (s.port p).nakGot + 1, txSuspended := false }).count (298 + p) 17

theorem State.port_nakCounted : (s.nakCounted p).port p = { s.port p with nakGot := (s.port p).nakGot + 1, txSuspended := false } := by
  simp [State.nakCounted]

theorem State.out_nakCounted : (s.nakCounted p).out = s.out := by simp [State.nakCounted]

end

section
variable {s : State} {p : Nat} {f : RetryFrame} {r : List RetryFrame} (hp : portOk p = true) (hup : (s.port p).link = .up)
include hp hup

/-- A replay timeout replays from the oldest frame of the retry buffer. -/
theorem completes_replayTimeout (hretry : (s.port p).retry = f :: r) (hsend : (s.port p).txSuspended = false) :
    Completes (.replayTimeout p) s fun t => t = s.replay p f.seq := by
  refine (completes_checked exec_replayTimeout hp).mono fun t ht => ht.trans ?_
  simp only [hretry, hup, hsend]
  rfl

/-! ## Heartbeat (R278, R280) -/

theorem completes_idleFrameSend : Completes (.idleFrameSend p) s fun t => t = s.sendIdle p :=
  (completes_checked exec_idleFrameSend hp).mono fun _ ht => ht.trans (if_pos hup)

theorem completes_ackSend (hack : (s.port p).ackValid = true) : Completes (.ackSend p) s fun t => t = s.sendIdle p :=
  (completes_checked exec_ackSend hp).mono fun _ ht => ht.trans (if_pos ⟨hup, hack⟩)

end

/-- Settles O28: each frame by its row, its effect by its number; NAK and replay timeout by what a replay does. -/
theorem framesReceived : Obligations.FramesReceived := by
  unfold Obligations.FramesReceived
  refine ⟨fun s p f hp hup => ?arriving, fun s p f r hp hup => ?sending⟩
  case arriving =>
    intro h seq comes
    have hwhole : ∀ {c typ effect}, exec c s = frameRow typ p f s effect → comes typ → Completes c s fun t => t = (effect h).pump p :=
      fun he ⟨hok, htyp, hepoch⟩ => completes_frameRow_whole he hp hup hok htyp hepoch
    have hnak : comes 3 → Completes (.nakFrame p f) s fun t =>
        t = ((h.nakCounted p).replay p (BitVec.ofNat 16 (fieldBE f 0x10 2))).pump p := hwhole exec_nakFrame
    refine ⟨fun hbroken => ⟨completes_frameRow_broken exec_dataFrame hp hup hbroken, completes_frameRow_broken exec_idleFrame hp hup hbroken,
      completes_frameRow_broken exec_nakFrame hp hup hbroken⟩, fun hcomes hseq => ?expected, fun hcomes hseq hahead => ?ahead,
      fun hcomes hseq hbehind => ?behind, hwhole exec_idleFrame, fun hcomes hfew => ?replay, fun hcomes hmany hlink => ?retrain⟩
    case expected =>
      exact (hwhole exec_dataFrame hcomes).mono fun t ht => ht.trans (congrArg (State.pump · p) (if_pos hseq))
    case ahead =>
      exact (hwhole exec_dataFrame hcomes).mono fun t ht => ht.trans (congrArg (State.pump · p) ((if_neg hseq).trans (if_pos hahead)))
    case behind =>
      exact (hwhole exec_dataFrame hcomes).mono fun t ht =>
        ht.trans (congrArg (State.pump · p) ((if_neg hseq).trans (if_neg (ne_true_of_eq_false hbehind))))
    case replay =>
      obtain ⟨hport, hout⟩ := State.replay_of_few (s := h.nakCounted p) (p := p) (by rw [State.port_nakCounted]; exact hfew)
        (BitVec.ofNat 16 (fieldBE f 0x10 2))
      rw [State.port_nakCounted] at hport hout
      rw [State.out_nakCounted] at hout
      refine (hnak hcomes).mono fun t ht => ⟨_, ht, ?_⟩
      rw [hport]
      exact ⟨rfl, rfl, rfl, rfl, hout⟩
    case retrain =>
      have hlink' : (((h.nakCounted p).replay p (BitVec.ofNat 16 (fieldBE f 0x10 2))).port p).link = .retrain :=
        State.link_replay_of_many (by rw [State.port_nakCounted]; exact hmany) (by rw [State.port_nakCounted]; exact hlink) _
      refine (hnak hcomes).mono fun t ht => ?_
      rw [ht, State.pump_of_not_up _ p (by rw [hlink']; decide), hlink']
  case sending =>
    intro pt idle
    refine ⟨completes_idleFrameSend hp hup, completes_ackSend hp hup, fun hretry hsend hfew => ?replay, fun hretry hsend hmany => ?retrain⟩
    case replay =>
      refine (completes_replayTimeout hp hup hretry hsend).mono fun t ht => ?_
      obtain ⟨hport, hout⟩ := State.replay_of_few hfew f.seq
      rw [ht, hport]
      exact ⟨rfl, rfl, rfl, hout⟩
    case retrain =>
      refine (completes_replayTimeout hp hup hretry hsend).mono fun t ht => ?_
      rw [ht, State.link_replay_of_many hmany hup]

end Sys2Proof.Machine
end

section
/-! PROOFS. What a fault below class 3, a port going DOWN and its training leave of the ports (R286, R287, R305, R313, R480). -/

namespace Sys2Proof.Machine

/-! ## Keys of a table that a change of a listed record keeps -/

/-- Putting a record in the place of a listed one keeps the keys. -/
theorem Tbl.keys_set_of_find? {α : Type} {t : Tbl α} (hwf : t.wf) {i : Nat} {y : α} (hlisted : t.find? i = some y) (x : α) :
    (t.set i x).map Prod.fst = t.map Prod.fst := by
  induction t with
  | nil => cases hlisted
  | cons q t ih =>
    obtain ⟨k, v⟩ := q
    rw [Tbl.wf, List.map_cons, List.pairwise_cons] at hwf
    obtain ⟨hk, hwf⟩ := hwf
    by_cases hki : k = i
    · simp [Tbl.set, hki]
    · rw [Tbl.find?, if_neg hki] at hlisted
      have hlt : ¬i < k := fun hlt => by
        rw [Tbl.find?_of_lt_keys fun j hj => hlt.trans (hk j hj)] at hlisted
        cases hlisted
      simp [Tbl.set, hki, hlt, ih hwf hlisted]

section
variable (s : State)

/-- Releasing an item keeps a port's session numbers. -/
theorem State.sessions_releaseItem {p : Nat} (hwf : (s.port p).sessions.wf) (i : Item) :
    ((s.releaseItem i).port p).sessions.map Prod.fst = (s.port p).sessions.map Prod.fst := by
  unfold State.releaseItem State.modSession
  split
  next x hfind =>
    by_cases h : i.desc.port = 0 ↔ p = 0
    · rw [s.port_congr h] at hfind
      rw [State.port_congr _ h.symm, State.setSession, State.port_setPort, s.port_congr h]
      exact Tbl.keys_set_of_find? hwf hfind _
    · rw [State.setSession, State.port_setPort_ne s _ h]
  · rfl

theorem State.sessions_foldl_releaseItem {p : Nat} (hwf : (s.port p).sessions.wf) (items : List Item) :
    ((items.foldl State.releaseItem s).port p).sessions.map Prod.fst = (s.port p).sessions.map Prod.fst := by
  induction items generalizing s with
  | nil => rfl
  | cons i rest ih =>
    have hone := s.sessions_releaseItem hwf i
    have hwf' : ((s.releaseItem i).port p).sessions.wf := by rw [Tbl.wf, hone]; exact hwf
    exact (ih (s.releaseItem i) hwf').trans hone

/-- Forgetting streams keeps a port's session numbers. -/
theorem State.sessions_forgetStreams {p : Nat} (hwf : (s.port p).sessions.wf) (ks : List Nat) :
    ((s.forgetStreams ks).port p).sessions.map Prod.fst = (s.port p).sessions.map Prod.fst :=
  s.sessions_foldl_releaseItem hwf _

/-! ## A port going DOWN (R286, R287, R305, R313) -/

variable (p : Nat)

theorem State.portDown_of_down (h : (s.port p).link = .down) : s.portDown p = s := if_pos h

theorem State.portDown_keeps : Kept [.out, .tes, .clusters, .depot, .port0, .port1] s (s.portDown p) :=
  State.portDown_kept p (Kept.refl _ s) (List.Subset.refl _)

@[simp] theorem State.faults_portDown : (s.portDown p).faults = s.faults := (s.portDown_keeps p).faults_eq (by decide)

@[simp] theorem State.link_portDown : ((s.portDown p).port p).link = .down := (s.port_portDown p).1

/-- A port taken DOWN has what `Port.wentDown` leaves it, its sessions' windows apart. -/
theorem State.port_portDown_of_not_down (h : (s.port p).link ≠ .down) :
    ∃ sessions, (s.portDown p).port p = { (s.port p).wentDown with sessions } := by
  obtain ⟨sessions, hport⟩ := (s.setPort p (s.port p).wentDown).port_forgetStreams ((s.port p).streams.map Stream.key) p
  refine ⟨sessions, ?_⟩
  rw [s.portDown_of_not_down h, State.port_emit', hport, State.port_setPort]

/-- The sessions of a port taken DOWN stay (R287). -/
theorem State.sessions_portDown (hwf : (s.port p).sessions.wf) :
    ((s.portDown p).port p).sessions.map Prod.fst = (s.port p).sessions.map Prod.fst := by
  by_cases h : (s.port p).link = .down
  · rw [s.portDown_of_down p h]
  · have hset : ((s.setPort p (s.port p).wentDown).port p).sessions = (s.port p).sessions := by rw [State.port_setPort]; rfl
    rw [s.portDown_of_not_down h, State.port_emit', State.sessions_forgetStreams _ (by rw [hset]; exact hwf), hset]

/-- The other port keeps all but its sessions' windows. -/
theorem State.port_portDown_ne {q : Nat} (hq : ¬(p = 0 ↔ q = 0)) : ∃ sessions, (s.portDown p).port q = { s.port q with sessions } := by
  by_cases h : (s.port p).link = .down
  · exact ⟨(s.port q).sessions, by rw [s.portDown_of_down p h]⟩
  · obtain ⟨sessions, hport⟩ := (s.setPort p (s.port p).wentDown).port_forgetStreams ((s.port p).streams.map Stream.key) q
    refine ⟨sessions, ?_⟩
    rw [s.portDown_of_not_down h, State.port_emit', hport, State.port_setPort_ne s _ hq]

/-- The ports of the part are each other's. -/
theorem otherPort_ne {p : Nat} (hp : portOk p = true) : ¬(p = 0 ↔ 1 - p = 0) := by
  simp only [portOk, decide_eq_true_eq] at hp
  omega

/-! ## Training (R286, R495) -/

theorem State.mayTrain_iff : s.mayTrain p = true ↔ (s.port p).link = .down ∧ (s.port p).enable = true ∧ (s.port p).refclk = true ∧
    (s.port p).violDown = false ∧ s.faults.class3Active = false ∧ s.faults.grave = false ∧ s.power.porst = false ∧
    s.power.step.portsRun = true := by
  simp [State.mayTrain, and_assoc]

theorem StartStep.portsRun_iff (x : StartStep) : x.portsRun = true ↔ x ∈ [StartStep.s9b, .s10, .done] := by
  simp [StartStep.portsRun, or_assoc]

theorem State.train_of_may (h : s.mayTrain p = true) : s.train p = s.setPort p { s.port p with link := .training } := if_pos h

theorem State.train_of_may_not (h : ¬s.mayTrain p = true) : s.train p = s := if_neg h

theorem State.train_keeps : Kept [.port0, .port1] s (s.train p) := State.train_kept p (Kept.refl _ s) (List.Subset.refl _)

/-- Training changes a port's link alone, and only from DOWN. -/
theorem State.port_train : (s.train p).port p = s.port p ∨
    (s.port p).link = .down ∧ (s.train p).port p = { s.port p with link := .training } := by
  by_cases h : s.mayTrain p = true
  · exact .inr ⟨((s.mayTrain_iff p).mp h).1, by rw [s.train_of_may p h, State.port_setPort]⟩
  · exact .inl (by rw [s.train_of_may_not p h])

end

/-- Below class 3 a fault reaches no port. -/
@[simp] theorem State.port_fault (s : State) {cls : Nat} (kind : Byte) (src : BitVec 16) (detail : Word) (h : cls < 3) (q : Nat) :
    (s.fault cls kind src detail).port q = s.port q :=
  (s.fault_kept_of_lt kind src detail h).port_eq (by decide) (by decide) q

end Sys2Proof.Machine
end

section
/-! PROOFS. The states of a Freri link (R284, R286, R287, R297, R313, Table 9.3; log entry 31): what ends each of them, and what a port that goes
DOWN leaves. -/

namespace Sys2Proof.Machine

/-! ## INIT frames (R284, R286) -/

/-- Limits heard change a port's limits alone. -/
theorem Port.hearAll_eq (pt : Port) (f : Bytes) (off : Nat) : ∃ limit, pt.hearAll f off = { pt with limit } := by
  have hhear : ∀ (pt : Port) vc v, ∃ limit, pt.hear vc v = { pt with limit } := fun pt vc v => by
    unfold Port.hear
    split
    · exact ⟨_, rfl⟩
    · exact ⟨pt.limit, rfl⟩
  unfold Port.hearAll
  generalize List.range 8 = vcs
  induction vcs generalizing pt with
  | nil => exact ⟨pt.limit, rfl⟩
  | cons vc vcs ih =>
    obtain ⟨_, hone⟩ := hhear pt vc (BitVec.ofNat 24 (fieldBE f (off + 4 * vc) 4))
    obtain ⟨limit, hrest⟩ := ih (pt.hear vc (BitVec.ofNat 24 (fieldBE f (off + 4 * vc) 4)))
    exact ⟨limit, hrest.trans (by rw [hone])⟩

/-- Until both ports have acknowledged, the exchange goes on. -/
theorem State.linkUp_of_not_acked {s : State} {p : Nat} (h : (s.port p).initAckSent = false) : s.linkUp p = s :=
  if_neg fun hacked => by simp [h] at hacked

/-- A whole INIT frame of the version of the manual. -/
def InitFrame (f : Bytes) : Prop := frameOk f = true ∧ fieldBE f 0 1 = 4 ∧ f.length = 72 ∧ fieldBE f 0x10 1 = 1

/-- A port in INIT after an INIT frame: the limits, the acknowledgement, the reserve lane and the epoch it tells. -/
def Port.initHeard (pt : Port) (f : Bytes) : Port :=
  { ({ pt with limit := Vector.replicate 8 0 } : Port).hearAll f 0x18 with
    initGot := true, initAckGot := pt.initAckGot || bit (fieldBE f 0x11 1) 1, peerReserve := bit (fieldBE f 0x11 1) 0,
    peerEpoch := BitVec.ofNat 16 (fieldBE f 0x0C 2) }

theorem Port.initHeard_eq (pt : Port) (f : Bytes) : ∃ limit, pt.initHeard f =
    { pt with limit, initGot := true, initAckGot := pt.initAckGot || bit (fieldBE f 0x11 1) 1, peerReserve := bit (fieldBE f 0x11 1) 0,
              peerEpoch := BitVec.ofNat 16 (fieldBE f 0x0C 2) } := by
  obtain ⟨limit, hheard⟩ := ({ pt with limit := Vector.replicate 8 0 } : Port).hearAll_eq f 0x18
  exact ⟨limit, by rw [Port.initHeard, hheard]⟩

section
variable {s : State} {p : Nat} {f : Bytes} (hp : portOk p = true)
include hp

theorem completes_initFrame_init (hlink : (s.port p).link = .init) (haligned : (s.port p).aligned = true) (hframe : InitFrame f) :
    Completes (.initFrame p f) s fun t => t = (s.setPort p ((s.port p).initHeard f)).linkUp p := by
  obtain ⟨hok, htyp, hlen, hversion⟩ := hframe
  refine (completes_checked exec_initFrame hp).mono fun t ht => ht.trans ?_
  simp [hlink, haligned, hok, htyp, hlen, hversion, Port.initHeard]

/-- On a port that is UP, an INIT frame of the partner's epoch that acknowledges nothing retrains the link. -/
theorem completes_initFrame_up (hup : (s.port p).link = .up) (hframe : InitFrame f) (hack : bit (fieldBE f 0x11 1) 1 = false)
    (hepoch : BitVec.ofNat 16 (fieldBE f 0x0C 2) = (s.port p).peerEpoch) :
    Completes (.initFrame p f) s fun t => t = s.portRetrain p := by
  obtain ⟨hok, htyp, hlen, hversion⟩ := hframe
  refine (completes_checked exec_initFrame hp).mono fun t ht => ht.trans ?_
  simp [hup, hok, htyp, hlen, hversion, hack, hepoch]

/-! ## Alignment and timeouts (R284, R286, R287, Table 17.3) -/

/-- Alignment ends TRAINING in INIT: numbers, tallies and retry buffer new, the initial grants. -/
theorem completes_pcsAlignment (hlink : (s.port p).link = .training) (hlanes : (s.port p).rxRetired ≤ 1) :
    Completes (.pcsAlignment p) s fun t => t.port p =
      { s.port p with
        link := .init, aligned := true, initGot := false, initAckSent := false, initAckGot := false, sendSeq := 0, expSeq := 0,
        ackValid := false, retry := [], used := Vector.replicate 8 0, heard := Vector.replicate 8 0, limit := Vector.replicate 8 0,
        granted := initialGrants } := by
  refine (completes_checked exec_pcsAlignment hp).mono fun t ht => ?_
  rw [ht, if_neg hlanes.not_gt, if_pos hlink, State.port_setPort]

theorem completes_trainingTimeout (hlink : (s.port p).link = .training) : Completes (.trainingTimeout p) s fun t => t = s.portDown p :=
  (completes_checked exec_trainingTimeout hp).mono fun _ ht => ht.trans (if_pos hlink)

theorem completes_trainingRestart (hmay : s.mayTrain p = true) :
    Completes (.trainingRestart p) s fun t => t = s.setPort p { s.port p with link := .training } :=
  (completes_checked exec_trainingRestart hp).mono fun _ ht => ht.trans (s.train_of_may p hmay)

theorem completes_initTimeout (hlink : (s.port p).link = .init) : Completes (.initTimeout p) s fun t => t = (s.portDown p).train p :=
  (completes_checked exec_initTimeout hp).mono fun _ ht => ht.trans (if_pos hlink)

/-- The first two failed attempts to retrain are counted. -/
theorem completes_retrainTimeout_again (hlink : (s.port p).link = .retrain) (hfew : (s.port p).failedRetrains < 2) :
    Completes (.retrainTimeout p) s fun t => t.port p =
      { s.port p with failedRetrains := (s.port p).failedRetrains + 1, aligned := false, initGot := false, initAckSent := false,
                      initAckGot := false } := by
  refine (completes_checked exec_retrainTimeout hp).mono fun t ht => ?_
  rw [ht, if_pos hlink, if_pos hfew, State.port_setPort]

/-- The third in a row takes the port DOWN. -/
theorem completes_retrainTimeout_down (hlink : (s.port p).link = .retrain) (hmany : 2 ≤ (s.port p).failedRetrains) :
    Completes (.retrainTimeout p) s fun t =>
      t = ((s.portDown p).fault 2 0x21 (srcPort p 0xFF) (if 1 < (s.port p).rxRetired then 1 else 2)).train p :=
  (completes_checked exec_retrainTimeout hp).mono fun _ ht => ht.trans ((if_pos hlink).trans (if_neg hmany.not_gt))

theorem completes_violationDownEnd (hdown : (s.port p).violDown = true) :
    Completes (.violationDownEnd p) s fun t => t = (s.setPort p { s.port p with violDown := false }).train p :=
  (completes_checked exec_violationDownEnd hp).mono fun _ ht => ht.trans (if_pos hdown)

theorem completes_initFrameSend (hlink : (s.port p).link = .init ∨ (s.port p).link = .retrain) :
    Completes (.initFrameSend p) s fun t => t = (s.sendInit p).linkUp p :=
  (completes_checked exec_initFrameSend hp).mono fun _ ht => ht.trans (if_pos hlink)

/-! ## The loss of the partner (R274, R313, R315) -/

theorem completes_partnerLoss (hup : (s.port p).link = .up) (hdetects : ((s.port p).remap.any fun r => r.suspended) = false) :
    Completes (.partnerLoss p) s fun t => t = s.losePartner p :=
  (completes_checked exec_partnerLoss hp).mono fun _ ht => ht.trans (if_pos ⟨hup, by simp [hdetects]⟩)

/-- While loss detection is suspended nothing is lost. -/
theorem completes_partnerLoss_suspended (hsuspended : ((s.port p).remap.any fun r => r.suspended) = true) :
    Completes (.partnerLoss p) s fun t => t = s :=
  (completes_checked exec_partnerLoss hp).mono fun _ ht => ht.trans (if_neg (by simp [hsuspended]))

/-! ## The reference clock (R495) -/

/-- A port whose clock is there. -/
def State.clocked (s : State) (p : Nat) : State := s.setPort p { s.port p with refclk := true }

theorem completes_freriRefclkPresent : Completes (.freriRefclkPresent p) s fun t => t = (s.clocked p).train p :=
  completes_checked exec_freriRefclkPresent hp

end

section
variable (s : State) (p : Nat)

theorem State.port_clocked : (s.clocked p).port p = { s.port p with refclk := true } := State.port_setPort s p _

/-- Whether a clocked port may train, by what its clock leaves as it was. -/
theorem State.mayTrain_clocked_iff : (s.clocked p).mayTrain p = true ↔ (s.port p).link = .down ∧ (s.port p).enable = true ∧
    (s.port p).violDown = false ∧ s.faults.class3Active = false ∧ s.faults.grave = false ∧ s.power.porst = false ∧
    s.power.step ∈ [StartStep.s9b, .s10, .done] := by
  rw [State.mayTrain_iff, State.port_clocked, StartStep.portsRun_iff]
  simp [State.clocked]

/-- A loss that no announced stop covers is a fault of class 0. -/
theorem State.losePartner_unplanned (h : (s.port p).partnerStop = .none) :
    s.losePartner p = ((s.portDown p).fault 0 0x22 (srcPort p 0xFF) ((s.port p).epoch.zeroExtend 64)).train p := by
  simp [State.losePartner, h]

/-- A loss within an announced stop is counted. -/
theorem State.losePartner_planned {d : Nat} (hstop : (s.port p).partnerStop = some d) (hnow : s.now ≤ d) : s.losePartner p =
    ((s.portDown p).setPort p { (s.portDown p).port p with plannedDowns := (s.port p).plannedDowns + 1 }).train p := by
  simp [State.losePartner, hstop, hnow]

/-- It raises no fault, and leaves the port DOWN or training. -/
theorem State.losePartner_planned_leaves {d : Nat} (hstop : (s.port p).partnerStop = some d) (hnow : s.now ≤ d) :
    (s.losePartner p).faults = s.faults ∧ ((s.losePartner p).port p).plannedDowns = (s.port p).plannedDowns + 1 ∧
      (((s.losePartner p).port p).link = .down ∨ ((s.losePartner p).port p).link = .training) := by
  rw [s.losePartner_planned p hstop hnow]
  refine ⟨?faults, ?counted⟩
  case faults =>
    rw [(State.train_keeps _ p).faults_eq (by decide)]
    simp
  case counted =>
    rcases State.port_train ((s.portDown p).setPort p _) p with hstays | ⟨-, htrains⟩
    · rw [hstays, State.port_setPort]
      exact ⟨rfl, .inl (s.link_portDown p)⟩
    · rw [htrains, State.port_setPort]
      exact ⟨rfl, .inr rfl⟩

end

/-- Settles O29: each event by its own lemma; a port going DOWN by `State.port_portDown_of_not_down` and what its sessions keep. -/
theorem linkStates : Obligations.LinkStates := by
  unfold Obligations.LinkStates
  refine ⟨fun s p f hp => ?events, fun s p hp hlink hwf => ?down⟩
  case events =>
    intro pt
    refine ⟨fun hlink hlanes => ?alignment, fun hlink => ?training, completes_trainingRestart hp, completes_initTimeout hp,
      fun hlink hfew => ?again, completes_retrainTimeout_down hp, fun hup hremap hstop => ?lost, fun d hup hremap hstop hnow => ?planned,
      fun r hup hremap hsuspended => completes_partnerLoss_suspended hp (by rw [hremap]; exact hsuspended), completes_violationDownEnd hp,
      fun hlink henable hviol hclass3 hgrave hporst hstep => ?clock, fun hstep hlink => ?early, completes_initFrameSend hp,
      fun hlink haligned hack hok htyp hlen hversion => ?init, fun hup hok htyp hlen hversion hack hepoch => ?up⟩
    case alignment =>
      refine (completes_pcsAlignment hp hlink hlanes).mono fun t ht => ?_
      rw [ht]
      exact ⟨rfl, rfl, rfl, rfl, rfl, rfl, rfl⟩
    case training =>
      refine (completes_trainingTimeout hp hlink).mono fun t ht => ?_
      rw [ht, State.link_portDown]
    case again =>
      refine (completes_retrainTimeout_again hp hlink hfew).mono fun t ht => ?_
      rw [ht]
      exact ⟨hlink, rfl, rfl⟩
    case lost =>
      exact (completes_partnerLoss hp hup (by rw [hremap]; rfl)).mono fun t ht => ht.trans (s.losePartner_unplanned p hstop)
    case planned =>
      refine (completes_partnerLoss hp hup (by rw [hremap]; rfl)).mono fun t ht => ?_
      rw [ht]
      exact s.losePartner_planned_leaves p hstop hnow
    case clock =>
      refine (completes_freriRefclkPresent hp).mono fun t ht => ?_
      have hmay := (s.mayTrain_clocked_iff p).mpr ⟨hlink, henable, hviol, hclass3, hgrave, hporst, hstep⟩
      rw [ht, State.train_of_may _ p hmay, State.port_setPort, State.port_clocked]
      exact ⟨rfl, rfl⟩
    case early =>
      refine (completes_freriRefclkPresent hp).mono fun t ht => ?_
      have hnot : ¬(s.clocked p).mayTrain p = true := fun hmay => by
        obtain ⟨-, -, -, -, -, -, hrun⟩ := (s.mayTrain_clocked_iff p).mp hmay
        exact hstep hrun
      rw [ht, State.train_of_may_not _ p hnot, State.port_clocked]
      exact ⟨hlink, rfl⟩
    case init =>
      refine (completes_initFrame_init hp hlink haligned ⟨hok, htyp, hlen, hversion⟩).mono fun t ht => ?_
      obtain ⟨limit, hheard⟩ := pt.initHeard_eq f
      rw [hheard] at ht
      rw [ht, State.linkUp_of_not_acked (by rw [State.port_setPort]; exact hack), State.port_setPort]
      exact ⟨hlink, rfl, rfl, rfl⟩
    case up =>
      refine (completes_initFrame_up hp hup ⟨hok, htyp, hlen, hversion⟩ hack hepoch).mono fun t ht => ?_
      rw [ht, State.link_portRetrain hup]
  case down =>
    intro t
    obtain ⟨_, hport⟩ : ∃ sessions, t.port p = { (s.port p).wentDown with sessions } := s.port_portDown_of_not_down p hlink
    obtain ⟨_, hother⟩ : ∃ sessions, t.port (1 - p) = { s.port (1 - p) with sessions } := s.port_portDown_ne p (otherPort_ne hp)
    have hkeeps := s.portDown_keeps p
    have hsessions : (t.port p).sessions.map Prod.fst = (s.port p).sessions.map Prod.fst := s.sessions_portDown p hwf
    rw [hport] at hsessions
    rw [hport, hother]
    exact ⟨rfl, rfl, rfl, rfl, rfl, hsessions, rfl, rfl, rfl, rfl, rfl, hkeeps.journal_eq (by decide), hkeeps.mem_eq (by decide)⟩

end Sys2Proof.Machine
end

section
/-! PROOFS. Lane replacement (R272-R274), planned stops and the closing of sessions (R294, R314; log entry 31). -/

namespace Sys2Proof.Machine

/-! ## What an acknowledgement and a NAK leave of the ports (R279, R280) -/

section
variable (s : State)

/-- Putting a stream reaches nothing of a port but its streams. -/
theorem State.port_setStream (x : Stream) (q : Nat) : ∃ streams, (s.setStream x).port q = { s.port q with streams } := by
  unfold State.setStream
  by_cases h : x.port = 0 ↔ q = 0
  · refine ⟨modFirst (fun y => y.key == x.key) (fun _ => x) (s.port x.port).streams, ?_⟩
    rw [State.port_congr _ h.symm, State.port_setPort, s.port_congr h]
  · exact ⟨(s.port q).streams, State.port_setPort_ne s _ h⟩

theorem State.port_foldl_announce (ks : List Nat) (q : Nat) :
    ∃ streams, (ks.foldl State.announce s).port q = { s.port q with streams } := by
  induction ks generalizing s with
  | nil => exact ⟨(s.port q).streams, rfl⟩
  | cons k ks ih =>
    obtain ⟨_, hone⟩ : ∃ streams, (s.announce k).port q = { s.port q with streams } := by
      unfold State.announce
      split
      · exact s.port_setStream _ q
      · exact ⟨(s.port q).streams, rfl⟩
    obtain ⟨streams, hrest⟩ := ih (s.announce k)
    exact ⟨streams, hrest.trans (by rw [hone])⟩

@[simp] theorem State.port_foldl_delivered (ds : List Desc) (q : Nat) : (ds.foldl State.delivered s).port q = s.port q := by
  induction ds generalizing s with
  | nil => rfl
  | cons d ds ih =>
    exact (ih (s.delivered d)).trans ((State.delivered_kept d (Kept.refl _ s) (List.Subset.refl _)).port_eq (by decide) (by decide) q)

variable (p : Nat)

/-- An acknowledgement reaches nothing of its port but the retry buffer, its replays and its streams. -/
theorem State.port_acked (a : BitVec 16) : ∃ retry replayRuns txSuspended streams,
    (s.acked p a).port p = { s.port p with retry, replayRuns, txSuspended, streams } := by
  unfold State.acked
  dsimp only
  split
  · exact ⟨_, _, _, _, rfl⟩
  · rw [State.port_foldl_delivered]
    obtain ⟨streams, hport⟩ := State.port_foldl_announce _ _ p
    exact ⟨_, _, _, streams, hport.trans (by rw [State.port_setPort])⟩

/-- What a frame's header tells leaves what is known of the partner's reserve lane. -/
@[simp] theorem State.peerReserve_heardHeader (f : Bytes) : ((s.heardHeader p f).port p).peerReserve = (s.port p).peerReserve := by
  have hhear : ∀ (pt : Port) vc v, (pt.hear vc v).peerReserve = pt.peerReserve := fun pt vc v => by
    unfold Port.hear
    split <;> rfl
  unfold State.heardHeader
  dsimp only
  split
  · obtain ⟨_, _, _, _, hport⟩ := State.port_acked _ p _
    rw [hport, State.port_setPort]
    exact hhear ..
  · rw [State.port_setPort]
    exact hhear ..

/-- A NAK reaches nothing of its port but the record of NAKs. -/
theorem State.port_nak (reason : Nat) : ∃ lastNak nakSent, (s.nak p reason).port p = { s.port p with lastNak, nakSent } := by
  unfold State.nak
  dsimp only
  split
  · exact ⟨_, _, rfl⟩
  · exact ⟨_, _, by rw [State.sendFrame, State.port_emit', State.port_count', State.port_setPort]⟩

@[simp] theorem State.faults_nak (reason : Nat) : (s.nak p reason).faults = s.faults :=
  (State.nak_kept p reason (Kept.refl _ s) (List.Subset.refl _)).faults_eq (by decide)

end

/-! ## A receive lane that fails (R272, R273) -/

section
variable (s : State) (p kind sl : Nat) (map : Vector Nat 4)

@[simp] theorem State.port_sendLane (q : Nat) : (s.sendLane p kind sl map).port q = s.port q := State.port_emit' s _ q

@[simp] theorem State.faults_sendLane : (s.sendLane p kind sl map).faults = s.faults := rfl

end

/-- The replacement a failing receive lane begins. -/
def State.remapOf (s : State) (sl cause : Nat) : Remap :=
  { failed := sl, cause := cause, doneSeen := false, suspended := true, since := s.now }

/-- With both reserves there, an in-service receive lane that fails asks the partner for its reserve lane, loss detection suspended. -/
theorem State.rxLaneFails_asks {s : State} {p sl : Nat} (hup : (s.port p).link = .up) (hlane : sl ∈ (s.port p).rxMap.toList)
    (hremap : (s.port p).remap = .none) (hpeer : (s.port p).peerReserve = true) (hreserve : (s.port p).rxReserve = false) (cause : Nat) :
    ((s.rxLaneFails p sl cause).port p).remap = some (s.remapOf sl cause) ∧ ((s.rxLaneFails p sl cause).port p).link = .up ∧
      ∃ b, (s.rxLaneFails p sl cause).out = .frame p b :: s.out := by
  have hasks : s.rxLaneFails p sl cause =
      (s.setPort p { s.port p with remap := some (s.remapOf sl cause) }).sendLane p 1 sl (s.port p).rxMap := by
    simp [State.rxLaneFails, State.remapOf, hup, Vector.mem_toList_iff.mp hlane, hremap, hpeer, hreserve]
  rw [hasks, State.port_sendLane, State.port_setPort]
  exact ⟨rfl, hup, _, congrArg (List.cons _) (State.setPort_out s p _)⟩

/-! ## The lanes moved (R273, R274) -/

/-- Once the lanes are aligned a replacement lasts as long as its suspension. -/
theorem Remap.going_of_aligned {r : Remap} (h : r.aligned = true) : r.going = if r.suspended then some r else .none := by
  cases hsuspended : r.suspended <;> simp [Remap.going, h, hsuspended]

/-- A port whose receiver has moved its reserve lane into a failed one's place. -/
def Port.realigned (pt : Port) (r : Remap) : Port :=
  { pt with rxMap := moveLane pt.rxMap r.failed, rxReserve := true, remap := ({ r with aligned := true } : Remap).going, lastNak := .none,
            retiredLanes := r.failed :: pt.retiredLanes }

/-- The state after the move, before the NAK and the report. -/
def State.realigned (s : State) (p : Nat) (r : Remap) : State := s.setPort p ((s.port p).realigned r)

section
variable {s : State} {p : Nat} (hp : portOk p = true)
include hp

/-- The re-alignment that a REMAP_DONE allows moves the lanes, asks for a replay and reports the failed lane. -/
theorem completes_remapRealignDone {r : Remap} (hremap : (s.port p).remap = some r) (hdone : r.doneSeen = true) (hnew : r.aligned = false) :
    Completes (.remapRealignDone p) s fun t => t =
      (((s.realigned p r).drawn.nak p (1 + (s.realigned p r).free.toNat % 2)).fault 2 0x20 (srcPort p r.failed)
        (BitVec.ofNat 64 r.cause)).count (298 + p) 19 := by
  refine (completes_checked exec_remapRealignDone hp).mono fun t ht => ht.trans ?_
  dsimp only
  rw [hremap]
  exact if_pos ⟨hdone, by simp [hnew]⟩

end

/-! ## The end of a suspension (R274) -/

section
variable {s : State} {p : Nat} {r : Remap} (hp : portOk p = true)
include hp

/-- With no replacement under way the transmit direction's suspension ends. -/
theorem completes_remapSuspensionEnd_transmit_alone (hremap : (s.port p).remap = .none) :
    Completes (.remapSuspensionEnd p) s fun t => (t.port p).txSuspended = false ∧ (t.port p).remap = .none := by
  refine (completes_checked exec_remapSuspensionEnd hp).mono fun t ht => ?_
  simp [ht, hremap]

variable (hremap : (s.port p).remap = some r) (hsuspended : r.suspended = true)
include hremap hsuspended

/-- The receive direction's suspension ends where it began first; a transmit direction suspended later stays so. -/
theorem completes_remapSuspensionEnd_receive (hfirst : (s.port p).txSuspended = true → r.since ≤ (s.port p).txSince) :
    Completes (.remapSuspensionEnd p) s fun t =>
      (t.port p).remap = (if r.aligned then .none else some { r with suspended := false }) ∧
      ((s.port p).txSuspended = true → r.since < (s.port p).txSince → (t.port p).txSuspended = true) := by
  refine (completes_checked exec_remapSuspensionEnd hp).mono fun t ht => ?_
  rw [ht]
  refine ⟨?receive, fun htx hbefore => ?transmit⟩
  case receive =>
    have hends : (s.port p).txSuspended = false ∨ r.since ≤ (s.port p).txSince :=
      (Bool.eq_false_or_eq_true _).symm.imp_right hfirst
    simp [hremap, hsuspended, hends, Remap.going]
  case transmit => simp [hremap, hsuspended, htx, hbefore]

/-- The transmit direction's ends where that one began first, and leaves the replacement as it was. -/
theorem completes_remapSuspensionEnd_transmit (htx : (s.port p).txSuspended = true) (hlater : (s.port p).txSince < r.since) :
    Completes (.remapSuspensionEnd p) s fun t => (t.port p).txSuspended = false ∧ (t.port p).remap = some r := by
  refine (completes_checked exec_remapSuspensionEnd hp).mono fun t ht => ?_
  simp [ht, hremap, hsuspended, htx, hlater, hlater.le]

end

/-! ## REMAP (R273) -/

/-- A port that has moved its transmit lane out of a failed one, the direction suspended. -/
def State.remapped (s : State) (p sl : Nat) : State :=
  s.setPort p { s.port p with laneMap := moveLane (s.port p).laneMap sl, txReserve := true, txSuspended := true, txSince := s.now,
                              retiredLanes := (8 + sl) :: (s.port p).retiredLanes }

/-- The transmit lane retired where the partner has no reserve lane, and the port DOWN. -/
def State.remapRefused (s : State) (p sl : Nat) : State :=
  (s.setPort p { s.port p with retiredLanes := (8 + sl) :: (s.port p).retiredLanes }).portDown p

/-- A lane of the part in a port's map is one a REMAP may name. -/
theorem laneInService {lanes : List Nat} {sl : Nat} (hlane : sl ∈ lanes) (hsl : sl < 5) :
    ¬((!lanes.contains sl) = true ∨ 4 < sl) := by
  rw [List.contains_iff_mem.mpr hlane]
  simp only [Bool.not_true, Bool.false_eq_true, false_or, not_lt]
  omega

/-- A REMAP of an epoch's partner for a lane. -/
def RemapFrame (pt : Port) (f : Bytes) (sl : Nat) : Prop :=
  frameOk f = true ∧ fieldBE f 0 1 = 5 ∧ fieldBE f 0x0C 2 = pt.peerEpoch.toNat ∧ fieldBE f 0x10 1 = 1 ∧ fieldBE f 0x11 1 = sl

section
variable {s : State} {p sl : Nat} {f : Bytes} (hp : portOk p = true) (hup : (s.port p).link = .up) (hframe : RemapFrame (s.port p) f sl)
  (hsl : sl < 5) (hlane : sl ∈ ((s.heardHeader p f).port p).laneMap.toList)
include hp hup hframe hsl hlane

/-- A REMAP takes the link DOWN where the partner has announced no reserve lane. -/
theorem completes_laneFrame_refused (hpeer : (s.port p).peerReserve = false) : Completes (.laneFrame p f) s fun t =>
    t = ((s.heardHeader p f).remapRefused p sl).fault 2 0x20 (srcPort p sl) 0x100 := by
  obtain ⟨hok, htyp, hepoch, hkind, rfl⟩ := hframe
  refine (completes_frameRow_whole exec_laneFrame hp hup hok htyp hepoch).mono fun t ht => ht.trans ?_
  have hdown : ((((s.heardHeader p f).remapRefused p (fieldBE f 0x11 1)).fault 2 0x20 (srcPort p (fieldBE f 0x11 1)) 0x100).port p).link ≠
      .up := by
    rw [State.port_fault _ _ _ _ (by decide), State.remapRefused, State.link_portDown]
    decide
  refine Eq.trans (congrArg (State.pump · p) ?_) (State.pump_of_not_up _ p hdown)
  exact (if_pos hkind).trans ((if_neg (laneInService hlane hsl)).trans (if_pos (by simp [hpeer])))

/-- With its reserve free the port moves its transmit lane, tells the partner and reports the failed lane. -/
theorem completes_laneFrame_remapped (hpeer : (s.port p).peerReserve = true)
    (hreserve : ((s.heardHeader p f).port p).txReserve = false) : Completes (.laneFrame p f) s fun t =>
    t = (((((s.heardHeader p f).remapped p sl).sendLane p 2 sl (moveLane ((s.heardHeader p f).port p).laneMap sl)).fault 2 0x20
      (srcPort p sl) 0x100).count (298 + p) 19).pump p := by
  obtain ⟨hok, htyp, hepoch, hkind, rfl⟩ := hframe
  refine (completes_frameRow_whole exec_laneFrame hp hup hok htyp hepoch).mono fun t ht => ht.trans ?_
  exact congrArg (State.pump · p) ((if_pos hkind).trans ((if_neg (laneInService hlane hsl)).trans
    ((if_neg (by simp [hpeer])).trans (if_pos (by simp [hreserve])))))

end

/-! ## Planned stops (R314) -/

section
variable (s : State) (p : Nat)

@[simp] theorem State.stopClears_portDown : ((s.portDown p).port p).stopClears = (s.port p).stopClears := by
  by_cases h : (s.port p).link = .down
  · rw [s.portDown_of_down p h]
  · obtain ⟨_, hport⟩ := s.port_portDown_of_not_down p h
    rw [hport]
    rfl

/-- The end of a planned stop: the port DOWN, and disabled where the stop was asked to clear it. -/
theorem State.stopEnds_leaves : ((s.stopEnds p).port p).link = .down ∧ ((s.stopEnds p).port p).stop = .none ∧
    ((s.stopEnds p).port p).enable = ((s.port p).enable && !(s.port p).stopClears) := by
  obtain ⟨hlink, henable, -, -⟩ := s.port_portDown p
  have hstop : ∀ t : State, t.stopOver.port p = t.port p := fun t =>
    (State.stopOver_kept (Kept.refl _ t) (List.Subset.refl _)).port_eq (by decide) (by decide) p
  rw [State.stopEnds, hstop, State.port_setPort]
  exact ⟨hlink, rfl, by rw [henable, State.stopClears_portDown]⟩

end

section
variable {s : State} {p : Nat} (hp : portOk p = true)
include hp

/-- The end of the drain interval aborts the streams still open; then the port waits for its acknowledgements. -/
theorem completes_drainIntervalEnd (hstop : (s.port p).stop = .draining) :
    Completes (.drainIntervalEnd p) s fun t => (t.port p).stop = .ackWait := by
  refine (completes_checked exec_drainIntervalEnd hp).mono fun t ht => ?_
  rw [ht, if_pos hstop, State.port_setPort]

theorem completes_plannedStopDown (hstop : (s.port p).stop = .ackWait) (hretry : (s.port p).retry = []) (hwait : (s.port p).waitQ = []) :
    Completes (.plannedStopDown p) s fun t => t = s.stopEnds p :=
  (completes_checked exec_plannedStopDown hp).mono fun _ ht => ht.trans (if_pos ⟨hstop, by rw [hretry]; rfl, by rw [hwait]; rfl⟩)

theorem completes_portAckWaitEnd (hstop : (s.port p).stop = .ackWait) : Completes (.portAckWaitEnd p) s fun t => t = s.stopEnds p :=
  (completes_checked exec_portAckWaitEnd hp).mono fun _ ht => ht.trans (if_pos hstop)

/-! ## The end of a session (R294) -/

variable {n : Nat} {x : Session} (hn : n < 4096) (hfind : (s.port p).sessions.find? n = some x) (hclosing : x.closing = true)
include hn hfind hclosing

theorem completes_sessionClosed (hidle : s.sessionBusy p n = false) : Completes (.sessionClosed p n) s fun t => t = s.closeSession p n :=
  (completes_checked exec_sessionClosed (by simp [sessionOk, hp, hn])).mono fun _ ht =>
    ht.trans (if_pos ⟨by rw [hfind]; exact hclosing, hidle⟩)

theorem completes_sessionCloseTimeout : Completes (.sessionCloseTimeout p n) s fun t => t = s.closeSession p n :=
  (completes_checked exec_sessionCloseTimeout (by simp [sessionOk, hp, hn])).mono fun _ ht =>
    ht.trans (if_pos (by rw [hfind]; exact hclosing))

end

/-- Settles O30: lane events by what a failing lane, a re-alignment, a suspension's end and a REMAP do; stops by `State.stopEnds_leaves`. -/
theorem lanesAndStops : Obligations.LanesAndStops := by
  unfold Obligations.LanesAndStops
  refine ⟨fun s p sl f r hsl => ?lanes, fun s p n x hp => ?stops⟩
  case lanes =>
    obtain ⟨hp, hlt⟩ : portOk p = true ∧ sl < 5 := by simpa [slOk] using hsl
    intro pt h asks
    refine ⟨fun hup hlane hremap hpeer hreserve => ?fails, fun hremap hdone hnew => ?realigned,
      completes_remapSuspensionEnd_transmit_alone hp,
      fun hremap hsuspended hfirst => completes_remapSuspensionEnd_receive hp hremap hsuspended hfirst,
      fun hremap hsuspended htx hlater => completes_remapSuspensionEnd_transmit hp hremap hsuspended htx hlater,
      fun hup hok htyp hepoch hkind hfailed hlane hpeer => ?refused,
      fun hup hok htyp hepoch hkind hfailed hlane hpeer hreserve => ?remapped⟩
    case fails =>
      have hfails : ∀ {c : Instr} {cause : Nat}, exec c s = checked (slOk p sl) (s.rxLaneFails p sl cause) → Completes c s (asks cause) :=
        fun he => (completes_checked he hsl).mono fun t ht => by
          rw [ht]
          exact State.rxLaneFails_asks hup hlane hremap hpeer hreserve _
      exact ⟨hfails exec_cdrLockLoss, hfails exec_laneBerExceeded, hfails exec_laneUncorrectableTwice, hfails exec_dfeTapAtLimit⟩
    case realigned =>
      refine (completes_remapRealignDone hp hremap hdone hnew).mono fun t ht => ?_
      obtain ⟨_, _, hport⟩ := (s.realigned p r).drawn.port_nak p (1 + (s.realigned p r).free.toNat % 2)
      rw [ht, State.count_faults, State.seq_fault _ _ _ _ (by decide), State.port_count', State.port_fault _ _ _ _ (by decide), hport,
        State.faults_nak, State.drawn_faults, State.port_drawn', State.realigned, State.port_setPort, State.setPort_faults]
      exact ⟨rfl, rfl, Remap.going_of_aligned rfl, rfl, rfl⟩
    case refused =>
      refine (completes_laneFrame_refused hp hup ⟨hok, htyp, hepoch, hkind, hfailed⟩ hlt hlane hpeer).mono fun t ht => ?_
      rw [ht, State.seq_fault _ _ _ _ (by decide), State.port_fault _ _ _ _ (by decide)]
      simp [State.remapRefused, h]
    case remapped =>
      refine (completes_laneFrame_remapped hp hup ⟨hok, htyp, hepoch, hkind, hfailed⟩ hlt hlane hpeer hreserve).mono fun t ht => ?_
      obtain ⟨_, _, _, _, hsent⟩ := State.port_pump _ p
      rw [ht, hsent, (State.pump_keeps _ p).faults_eq (by decide), State.count_faults, State.seq_fault _ _ _ _ (by decide),
        State.port_count', State.port_fault _ _ _ _ (by decide), State.port_sendLane, State.faults_sendLane]
      simp [State.remapped, h]
  case stops =>
    intro pt
    refine ⟨completes_drainIntervalEnd hp, fun hstop hretry hwait => ?down, fun hstop => ?later,
      fun hn hfind hclosing hidle => completes_sessionClosed hp hn hfind hclosing hidle,
      fun hn hfind hclosing => completes_sessionCloseTimeout hp hn hfind hclosing⟩
    case down =>
      refine (completes_plannedStopDown hp hstop hretry hwait).mono fun t ht => ?_
      rw [ht]
      exact s.stopEnds_leaves p
    case later =>
      refine (completes_portAckWaitEnd hp hstop).mono fun t ht => ?_
      rw [ht]
      exact s.stopEnds_leaves p

end Sys2Proof.Machine
end

section
/-! PROOFS. What interrupts, events and completions leave of the PCIe functions (R328, R331-R333, R336): a vector sent or left pending, an
event set, a completion counted, and what no completion changes of a function. -/

namespace Sys2Proof.Machine

/-! ## Functions put -/

/-- Of two records put at one key the later stays. -/
theorem Tbl.set_set {α : Type} (t : Tbl α) (i : Nat) (x y : α) : (t.set i x).set i y = t.set i y := by
  induction t with
  | nil => simp [Tbl.set]
  | cons p t ih =>
    obtain ⟨k, v⟩ := p
    by_cases hk : k = i
    · simp [Tbl.set, hk]
    · by_cases hlt : i < k <;> simp [Tbl.set, hk, hlt, ih]

section
variable (s : State) (fn : Nat)

@[simp] theorem State.setFunc_setFunc (x y : Func) : (s.setFunc fn x).setFunc fn y = s.setFunc fn y := by
  simp [State.setFunc, Tbl.set_set]

theorem State.modFunc_eq (g : Func → Func) : s.modFunc fn g = s.setFunc fn (g (s.func fn)) := rfl

/-! ## Interrupts and events (R333) -/

/-- A vector is not sent, left pending in the PBA, or sent. -/
theorem State.msix_cases (vec : Nat) : s.msix fn vec = s ∨ (∃ pba, s.msix fn vec = s.setFunc fn { s.func fn with pba }) ∨
    s.msix fn vec = s.emit (.msix fn vec) := by
  unfold State.msix
  dsimp only
  split
  · exact .inl rfl
  · split
    · exact .inr (.inl ⟨_, rfl⟩)
    · exact .inr (.inr rfl)

theorem State.func_msix (vec : Nat) : ∃ pba, (s.msix fn vec).func fn = { s.func fn with pba } := by
  rcases s.msix_cases fn vec with h | ⟨pba, h⟩ | h
  · exact ⟨(s.func fn).pba, by rw [h]⟩
  · exact ⟨pba, by rw [h, State.func_setFunc]⟩
  · exact ⟨(s.func fn).pba, by rw [h, State.func_emit]⟩

theorem State.func_msix_ne {g : Nat} (hg : fn ≠ g) (vec : Nat) : (s.msix fn vec).func g = s.func g := by
  rcases s.msix_cases fn vec with h | ⟨pba, h⟩ | h
  · rw [h]
  · rw [h, State.func_setFunc_ne _ _ hg]
  · rw [h, State.func_emit]

theorem State.mem_out_msix {o : Output} (ho : o ∈ s.out) (vec : Nat) : o ∈ (s.msix fn vec).out := by
  rcases s.msix_cases fn vec with h | ⟨pba, h⟩ | h
  · rwa [h]
  · rwa [h]
  · rw [h]
    exact List.mem_cons_of_mem _ ho

/-- Setting a bit that is set changes nothing. -/
theorem or_bit_of_getLsbD {x : BitVec 32} {b : Nat} (h : x.getLsbD b = true) : x ||| (1#32 <<< b) = x := by
  refine BitVec.eq_of_getLsbD_eq fun i hi => ?_
  rcases eq_or_ne i b with rfl | hne
  · simp [h]
  · have hoff : ¬(b ≤ i ∧ i - b = 0) := by omega
    simp [hi]
    omega

/-- The bit set is set, every other as before. -/
theorem getLsbD_or_bit {x : BitVec 32} {b : Nat} (hb : b < 32) : (x ||| (1#32 <<< b)).getLsbD b = true := by simp [hb]

/-- A function with an event set. -/
def Func.withEvent (f : Func) (b : Nat) : Func := { f with event := f.event ||| (1#32 <<< b) }

/-- An event is set already, or set; a change may send its interrupt. -/
theorem State.setEvent_cases (b : Nat) : s.setEvent fn b = s ∧ (s.func fn).withEvent b = s.func fn ∨
    s.setEvent fn b = s.setFunc fn ((s.func fn).withEvent b) ∨
    ∃ vec, s.setEvent fn b = (s.setFunc fn ((s.func fn).withEvent b)).msix fn vec := by
  unfold State.setEvent
  dsimp only
  split
  next hset => exact .inl ⟨rfl, by rw [Func.withEvent, or_bit_of_getLsbD hset]⟩
  next =>
    split
    · exact .inr (.inr ⟨_, rfl⟩)
    · exact .inr (.inl rfl)

theorem State.func_setEvent (b : Nat) : ∃ pba, (s.setEvent fn b).func fn = { (s.func fn).withEvent b with pba } := by
  rcases s.setEvent_cases fn b with ⟨h, hsame⟩ | h | ⟨vec, h⟩
  · exact ⟨(s.func fn).pba, by rw [h, hsame]⟩
  · exact ⟨((s.func fn).withEvent b).pba, by rw [h, State.func_setFunc]⟩
  · obtain ⟨pba, hsent⟩ := (s.setFunc fn ((s.func fn).withEvent b)).func_msix fn vec
    exact ⟨pba, by rw [h, hsent, State.func_setFunc]⟩

theorem State.func_setEvent_ne {g : Nat} (hg : fn ≠ g) (b : Nat) : (s.setEvent fn b).func g = s.func g := by
  rcases s.setEvent_cases fn b with ⟨h, -⟩ | h | ⟨vec, h⟩
  · rw [h]
  · rw [h, State.func_setFunc_ne _ _ hg]
  · rw [h, State.func_msix_ne _ _ hg, State.func_setFunc_ne _ _ hg]

theorem State.mem_out_setEvent {o : Output} (ho : o ∈ s.out) (b : Nat) : o ∈ (s.setEvent fn b).out := by
  rcases s.setEvent_cases fn b with ⟨h, -⟩ | h | ⟨vec, h⟩
  · rwa [h]
  · rwa [h]
  · rw [h]
    exact State.mem_out_msix (s.setFunc fn _) fn ho vec

/-- A completion is counted; enough of them may send their interrupt. -/
theorem State.cplSignal_cases : ∃ unsignalled, s.cplSignal fn = s.setFunc fn { s.func fn with unsignalled } ∨
    ∃ vec, s.cplSignal fn = (s.setFunc fn { s.func fn with unsignalled }).msix fn vec := by
  unfold State.cplSignal
  dsimp only
  split
  · exact ⟨_, .inr ⟨_, rfl⟩⟩
  · exact ⟨_, .inl rfl⟩

theorem State.func_cplSignal : ∃ unsignalled pba, (s.cplSignal fn).func fn = { s.func fn with unsignalled, pba } := by
  obtain ⟨unsignalled, h | ⟨vec, h⟩⟩ := s.cplSignal_cases fn
  · exact ⟨unsignalled, (s.func fn).pba, by rw [h, State.func_setFunc]⟩
  · obtain ⟨pba, hsent⟩ := (s.setFunc fn { s.func fn with unsignalled }).func_msix fn vec
    exact ⟨unsignalled, pba, by rw [h, hsent, State.func_setFunc]⟩

theorem State.func_cplSignal_ne {g : Nat} (hg : fn ≠ g) : (s.cplSignal fn).func g = s.func g := by
  obtain ⟨unsignalled, h | ⟨vec, h⟩⟩ := s.cplSignal_cases fn
  · rw [h, State.func_setFunc_ne _ _ hg]
  · rw [h, State.func_msix_ne _ _ hg, State.func_setFunc_ne _ _ hg]

theorem State.mem_out_cplSignal {o : Output} (ho : o ∈ s.out) : o ∈ (s.cplSignal fn).out := by
  obtain ⟨unsignalled, h | ⟨vec, h⟩⟩ := s.cplSignal_cases fn
  · rwa [h]
  · rw [h]
    exact State.mem_out_msix (s.setFunc fn _) fn ho vec

/-- A ring error sets the error, its cause and EVENT.RING_ERR (R332, Table 10.7). -/
theorem State.func_ringFail (reason idx : Nat) : ((s.ringFail fn reason idx).func fn).ringError = true ∧
    ((s.ringFail fn reason idx).func fn).errReason = BitVec.ofNat 8 reason ∧
    ((s.ringFail fn reason idx).func fn).errIndex = BitVec.ofNat 16 idx ∧
    ((s.ringFail fn reason idx).func fn).cplLost = ((s.func fn).cplLost || reason == 6) ∧
    ((s.ringFail fn reason idx).func fn).event.getLsbD 0 = true := by
  obtain ⟨pba, hevent⟩ := (s.setFunc fn { s.func fn with
    ringError := true, errReason := BitVec.ofNat 8 reason, errIndex := BitVec.ofNat 16 idx,
    cplLost := (s.func fn).cplLost || reason == 6 }).func_setEvent fn 0
  rw [State.func_setFunc] at hevent
  rw [State.ringFail, State.func_count', hevent]
  exact ⟨rfl, rfl, rfl, rfl, getLsbD_or_bit (by decide)⟩

end

/-! ## What follows a function under completions -/

/-- What of a function no completion changes: all but the mailbox's answer, the completion ring's tail, the signals and a reset's count of
the commands that end (R328, R332, R336). -/
def Func.lasting (f : Func) : Func :=
  { f with resetRun := f.resetRun.map fun r => { r with cmdsDrained := 0 }, mbxData := [], mbxCpl := [], mbxBusy := false, mbxDone := false,
           mbxTicket := .none, cplTail := 0, phase := false, slots := [], unsignalled := 0, event := 0, pba := [] }

/-- A function as completions may leave it: what lasts is the same, and no event set is cleared. -/
structure Func.Follows (f g : Func) : Prop where
  lasting : g.lasting = f.lasting
  events : ∀ b, f.event.getLsbD b = true → g.event.getLsbD b = true

theorem Func.Follows.refl (f : Func) : f.Follows f := ⟨rfl, fun _ => id⟩

theorem Func.Follows.trans {f g h : Func} (hfg : f.Follows g) (hgh : g.Follows h) : f.Follows h :=
  ⟨hgh.lasting.trans hfg.lasting, fun b hb => hgh.events b (hfg.events b hb)⟩

/-- Every function of a state as completions may leave it. -/
def State.FuncsFollow (s t : State) : Prop := ∀ g, (s.func g).Follows (t.func g)

section
variable {s t : State} {fn : Nat} {c : Cmd}

theorem State.FuncsFollow.trans {u : State} (h : s.FuncsFollow t) (k : t.FuncsFollow u) : s.FuncsFollow u := fun g => (h g).trans (k g)

/-- A change of one function that it follows. -/
theorem State.FuncsFollow.of_one (hfn : (s.func fn).Follows (t.func fn)) (hne : ∀ g, fn ≠ g → t.func g = s.func g) : s.FuncsFollow t := by
  intro g
  rcases eq_or_ne fn g with rfl | h
  · exact hfn
  · rw [hne g h]
    exact .refl _

theorem State.funcsFollow_setFunc {x : Func} (h : (s.func fn).Follows x) : s.FuncsFollow (s.setFunc fn x) :=
  .of_one (by rwa [State.func_setFunc]) fun _ => State.func_setFunc_ne s x

variable (s fn)

theorem State.funcsFollow_setEvent (b : Nat) : s.FuncsFollow (s.setEvent fn b) := by
  obtain ⟨pba, hset⟩ := s.func_setEvent fn b
  refine .of_one ⟨by rw [hset]; rfl, fun i hi => ?_⟩ fun _ h => s.func_setEvent_ne fn h b
  rw [hset]
  simp [Func.withEvent, hi]

theorem State.funcsFollow_cplSignal : s.FuncsFollow (s.cplSignal fn) := by
  obtain ⟨unsignalled, pba, hset⟩ := s.func_cplSignal fn
  exact .of_one ⟨by rw [hset]; rfl, fun i hi => by rw [hset]; exact hi⟩ fun _ h => s.func_cplSignal_ne fn h

@[simp] theorem State.func_unflight (c : Cmd) (g : Nat) : (s.unflight c).func g = s.func g := rfl

theorem State.funcsFollow_cmdDrained : s.FuncsFollow (s.cmdDrained fn) := by
  unfold State.cmdDrained
  split
  next r hr => exact State.funcsFollow_setFunc ⟨by simp [Func.lasting, hr], fun _ => id⟩
  next => exact fun g => .refl _

/-- A command counted toward a reset changes nothing else of its function. -/
theorem State.func_cmdDrained : ∃ resetRun, (s.cmdDrained fn).func fn = { s.func fn with resetRun } := by
  unfold State.cmdDrained
  split
  · exact ⟨_, State.func_setFunc s fn _⟩
  · exact ⟨_, rfl⟩

theorem State.out_cmdDrained : (s.cmdDrained fn).out = s.out :=
  (State.cmdDrained_kept fn (Kept.refl _ s) (List.Subset.refl _)).out_eq (by decide)

end

/-! ## Completions (R328, R331-R333, Table 10.6) -/

section
variable (s : State) (c : Cmd) (code : Nat) (effect : Bool) (rsp : Bytes) (detail : Word) (j : Bool)

/-- The state a completion is written in: its command no longer in flight, and counted toward a reset in progress. -/
def State.completing : State := (s.unflight c).cmdDrained c.fn

/-- It differs in the function's count alone. -/
theorem State.func_completing : ∃ resetRun, (s.completing c).func c.fn = { s.func c.fn with resetRun } :=
  (s.unflight c).func_cmdDrained c.fn

theorem State.out_completing : (s.completing c).out = s.out := (s.unflight c).out_cmdDrained c.fn

theorem State.funcsFollow_completing : s.FuncsFollow (s.completing c) := (s.unflight c).funcsFollow_cmdDrained c.fn

/-- The ticket whose delivery a completion's taking is (R255). -/
def deliveredTicket (c : Cmd) (j : Bool) : Option (Colour × Word) := if j then some (c.colour, c.ticket) else .none

/-- A function with a completion in its mailbox. -/
def Func.mailed (f : Func) : Func :=
  { f with mbxData := putBytes f.mbxData 0 (rsp.take c.rspLen), mbxCpl := completionBytes c code true effect rsp.length detail,
           mbxBusy := false, mbxDone := true, mbxTicket := deliveredTicket c j }

/-- A function with a completion on its ring. -/
def Func.ringed (f : Func) : Func :=
  { f with cplTail := BitVec.ofNat 16 ((f.cplTail.toNat + 1) % 2 ^ f.cplLog2),
           phase := if (f.cplTail.toNat + 1) % 2 ^ f.cplLog2 = 0 then !f.phase else f.phase,
           slots := match deliveredTicket c j with
             | some (col, t) => f.slots ++ [(f.cplTail.toNat, col, t)]
             | .none => f.slots }

theorem Func.follows_mailed (f : Func) : f.Follows (f.mailed c code effect rsp detail j) := ⟨rfl, fun _ => id⟩

theorem Func.follows_ringed (f : Func) : f.Follows (f.ringed c j) := ⟨rfl, fun _ => id⟩

theorem State.reply_mailbox (h : c.via = .mailbox) : s.reply c code effect rsp detail j =
    (((s.completing c).setFunc c.fn (((s.completing c).func c.fn).mailed c code effect rsp detail j)).emit
      (.completion c.fn .mailbox (completionBytes c code true effect rsp.length detail) (rsp.take c.rspLen) 0)).setEvent c.fn 1 := by
  rw [State.reply, h]
  rfl

theorem State.reply_ring (h : c.via = .ring) (hu : (s.func c.fn).cplUsable = true) : s.reply c code effect rsp detail j =
    (((s.completing c).setFunc c.fn (((s.completing c).func c.fn).ringed c j)).emit
      (.completion c.fn .ring (completionBytes c code (s.func c.fn).phase effect rsp.length detail) (rsp.take c.rspLen) c.rspAddr)).cplSignal
        c.fn := by
  obtain ⟨_, hf⟩ := s.func_completing c
  have hphase : ((s.completing c).func c.fn).phase = (s.func c.fn).phase := by rw [hf]
  have husable : ((s.completing c).func c.fn).cplUsable = true := by rw [hf]; exact hu
  rw [← hphase]
  rw [State.reply, h]
  exact if_pos husable

theorem State.reply_ring_lost (h : c.via = .ring) (hu : (s.func c.fn).cplUsable = false) :
    s.reply c code effect rsp detail j = s.completing c := by
  obtain ⟨_, hf⟩ := s.func_completing c
  have husable : ((s.completing c).func c.fn).cplUsable = false := by rw [hf]; exact hu
  rw [State.reply, h]
  exact if_neg (by rw [← State.completing, husable]; decide)

/-- A completion leaves every function what it was but for what completions write. -/
theorem State.funcsFollow_reply : s.FuncsFollow (s.reply c code effect rsp detail j) := by
  refine (s.funcsFollow_completing c).trans ?_
  cases h : c.via with
  | mailbox =>
    rw [State.reply_mailbox _ _ _ _ _ _ _ h]
    refine .trans (fun g => ?_) (State.funcsFollow_setEvent _ c.fn 1)
    rw [State.func_emit]
    exact State.funcsFollow_setFunc (Func.follows_mailed c code effect rsp detail j _) g
  | ring =>
    cases hu : (s.func c.fn).cplUsable with
    | true =>
      rw [State.reply_ring _ _ _ _ _ _ _ h hu]
      refine .trans (fun g => ?_) (State.funcsFollow_cplSignal _ c.fn)
      rw [State.func_emit]
      exact State.funcsFollow_setFunc (Func.follows_ringed c j _) g
    | false =>
      rw [State.reply_ring_lost _ _ _ _ _ _ _ h hu]
      exact fun g => .refl _

theorem State.funcsFollow_finish (sp : Spec) : s.FuncsFollow (s.finish sp c code rsp detail) := by
  have hsame : ∀ t : State, t.pcie.funcs = s.pcie.funcs → ∀ code effect rsp j, s.FuncsFollow (t.reply c code effect rsp detail j) :=
    fun t ht code effect rsp j => by
      have hfunc : ∀ g, t.func g = s.func g := fun g => by rw [State.func, ht]; rfl
      intro g
      rw [← hfunc g]
      exact t.funcsFollow_reply c code effect rsp detail j g
  unfold State.finish
  refine hsame _ ?_ _ _ _ _
  split <;> split <;> rfl

theorem State.funcsFollow_finishLater (sp : Spec) : s.FuncsFollow (s.finishLater sp c code rsp detail) := by
  unfold State.finishLater
  split
  · exact s.funcsFollow_finish c code rsp detail sp
  · exact fun g => .refl _

end

end Sys2Proof.Machine
end

section
/-! PROOFS. The ring and mailbox registers (R328, R330, R332, Table 10.7), and how a GO and a fetched entry are taken in (R328, R332, R506;
log entry 38). -/

namespace Sys2Proof.Machine

/-- A function that is served takes writes. -/
theorem State.takesWrites_of_serves {s : State} {fn : Nat} {via : Channel} (h : s.serves fn via = true) : s.takesWrites fn = true := by
  simp only [State.serves, Bool.and_eq_true] at h
  exact h.1.1

section
variable {s : State} {fn : Nat} {v : BitVec 32} (hfn : fnOk fn = true)
include hfn

/-- A function that takes no writes discards those of its rings and its mailbox. -/
theorem completes_doorbell_discarded (hw : s.takesWrites fn = false) {c : Instr}
    (hc : c ∈ [Instr.ringCtrlEnable fn v, .cmdTail fn v, .cplHead fn v, .go fn v]) : Completes c s fun t => t = s := by
  simp only [List.mem_cons, List.not_mem_nil, or_false] at hc
  rcases hc with rfl | rfl | rfl | rfl
  · exact (completes_checked exec_ringCtrlEnable hfn).mono fun _ ht => ht.trans (if_pos (by simp [hw]))
  · exact (completes_checked exec_cmdTail hfn).mono fun _ ht => ht.trans (if_pos (by simp [hw]))
  · exact (completes_checked exec_cplHead hfn).mono fun _ ht => ht.trans (if_pos (by simp [hw]))
  · exact (completes_checked exec_go hfn).mono fun _ ht => ht.trans (if_pos (by simp [hw]))

end

/-! ## RING_CTRL (R330, R332) -/

/-- A function with RING_CTRL written; a rising ENABLE starts both rings at index 0 with phase 1. -/
def Func.ringWritten (f : Func) (v : BitVec 32) : Func :=
  let g := { f with ringEnable := v.getLsbD 0, cmdLog2 := v.toNat / 256 % 32, cplLog2 := v.toNat / 65536 % 32 }
  if v.getLsbD 0 && !f.ringEnable then
    { g with cmdTail := 0, cmdHead := 0, cplHead := 0, cplTail := 0, phase := true, slots := [], unsignalled := 0, ringError := false,
             cplLost := false }
  else g

/-- Whether a size RING_CTRL names is out of range beside ENABLE. -/
def ringSizesBad (v : BitVec 32) : Prop := v.getLsbD 0 = true ∧ (v.toNat / 256 % 32 < 4 ∨ 16 < v.toNat / 256 % 32 ∨
  v.toNat / 65536 % 32 < 4 ∨ 16 < v.toNat / 65536 % 32)

section
variable {s : State} {fn : Nat} {v : BitVec 32} (hfn : fnOk fn = true) (hw : s.takesWrites fn = true)
include hfn hw

theorem exec_ringCtrlEnable_taken : ∃ t, exec (.ringCtrlEnable fn v) s = .next t ∧
    (¬ringSizesBad v → t = s.setFunc fn ((s.func fn).ringWritten v)) ∧
    (ringSizesBad v → t = (s.setFunc fn ((s.func fn).ringWritten v)).ringFail fn 1 0) := by
  obtain ⟨t, ht, heq⟩ := completes_checked (exec_ringCtrlEnable (v := v) (s := s)) hfn
  have hset : (if (v.getLsbD 0 && !(s.func fn).ringEnable) = true then
      (s.modFunc fn fun f => { f with ringEnable := v.getLsbD 0, cmdLog2 := bits v.toNat 12 8, cplLog2 := bits v.toNat 20 16 }).modFunc fn
        fun f => { f with cmdTail := 0, cmdHead := 0, cplHead := 0, cplTail := 0, phase := true, slots := [], unsignalled := 0,
                          ringError := false, cplLost := false }
      else s.modFunc fn fun f => { f with ringEnable := v.getLsbD 0, cmdLog2 := bits v.toNat 12 8, cplLog2 := bits v.toNat 20 16 }) =
      s.setFunc fn ((s.func fn).ringWritten v) := by
    unfold Func.ringWritten
    split
    · rw [State.modFunc_eq, State.func_modFunc, State.modFunc_eq, State.setFunc_setFunc]
      rfl
    · rfl
  refine ⟨t, ht, fun hsizes => ?_, fun hsizes => ?_⟩
  · rw [heq, if_neg (by simp [hw]), ← hset]
    exact if_neg hsizes
  · rw [heq, if_neg (by simp [hw]), ← hset]
    exact if_pos hsizes

end

/-! ## CMD_TAIL and CPL_HEAD (R332, Table 10.7) -/

/-- The index a doorbell names: its low half. -/
theorem bits_low (v : Nat) : bits v 15 0 = v % 65536 := by simp [bits]

/-- How far an index of a function's completion ring lies ahead of its head. -/
def Func.cplAhead (f : Func) (i : Nat) : Nat := (i + 2 ^ f.cplLog2 - f.cplHead.toNat) % 2 ^ f.cplLog2

/-- A function whose completions are taken up to an index. -/
def Func.freedTo (f : Func) (i : Nat) : Func :=
  { f with cplHead := BitVec.ofNat 16 i, slots := f.slots.filter fun x => !between (2 ^ f.cplLog2) f.cplHead.toNat i x.1 }

/-- The state when completions are taken up to an index: each command freed is marked delivered. -/
def State.cplFreed (s : State) (fn i : Nat) : State :=
  ((s.func fn).slots.filter fun x => between (2 ^ (s.func fn).cplLog2) (s.func fn).cplHead.toNat i x.1).foldl
    (fun s x => s.cmdDelivered x.2.1 x.2.2) (s.setFunc fn ((s.func fn).freedTo i))

section
variable {s : State} {fn : Nat} {v : BitVec 32} (hfn : fnOk fn = true) (hw : s.takesWrites fn = true)
include hfn hw

theorem completes_cmdTail_taken : Completes (.cmdTail fn v) s fun t => t =
    if (s.func fn).ringEnable = false then s.ringFail fn 3 (v.toNat % 65536)
    else if 2 ^ (s.func fn).cmdLog2 ≤ v.toNat % 65536 then s.ringFail fn 2 (v.toNat % 65536)
    else s.setFunc fn { s.func fn with cmdTail := BitVec.ofNat 16 (v.toNat % 65536) } := by
  refine (completes_checked exec_cmdTail hfn).mono fun t ht => ht.trans ?_
  simp only [hw, bits_low, Bool.not_true, Bool.false_eq_true, if_false, Bool.not_eq_true']
  rfl

theorem completes_cplHead_taken : Completes (.cplHead fn v) s fun t => t =
    if (s.func fn).ringEnable = false then s.ringFail fn 3 (v.toNat % 65536)
    else if 2 ^ (s.func fn).cplLog2 ≤ v.toNat % 65536 then s.ringFail fn 2 (v.toNat % 65536)
    else if (s.func fn).cplAhead (s.func fn).cplTail.toNat < (s.func fn).cplAhead (v.toNat % 65536) then
      s.ringFail fn 4 (v.toNat % 65536)
    else s.cplFreed fn (v.toNat % 65536) := by
  refine (completes_checked exec_cplHead hfn).mono fun t ht => ht.trans ?_
  simp only [hw, bits_low, Bool.not_true, Bool.false_eq_true, if_false, Bool.not_eq_true']
  rfl

section
variable (hoff : (s.func fn).ringEnable = false)
include hoff

theorem completes_cmdTail_disabled : Completes (.cmdTail fn v) s fun t => t = s.ringFail fn 3 (v.toNat % 65536) :=
  (completes_cmdTail_taken hfn hw).mono fun _ ht => ht.trans (if_pos hoff)

theorem completes_cplHead_disabled : Completes (.cplHead fn v) s fun t => t = s.ringFail fn 3 (v.toNat % 65536) :=
  (completes_cplHead_taken hfn hw).mono fun _ ht => ht.trans (if_pos hoff)

end

variable (hon : (s.func fn).ringEnable = true)
include hon

theorem completes_cmdTail_outside (hout : 2 ^ (s.func fn).cmdLog2 ≤ v.toNat % 65536) :
    Completes (.cmdTail fn v) s fun t => t = s.ringFail fn 2 (v.toNat % 65536) :=
  (completes_cmdTail_taken hfn hw).mono fun _ ht => ht.trans <| (if_neg (Bool.ne_false_iff.mpr hon)).trans (if_pos hout)

theorem completes_cmdTail (hin : v.toNat % 65536 < 2 ^ (s.func fn).cmdLog2) :
    Completes (.cmdTail fn v) s fun t => t = s.setFunc fn { s.func fn with cmdTail := BitVec.ofNat 16 (v.toNat % 65536) } :=
  (completes_cmdTail_taken hfn hw).mono fun _ ht => ht.trans <| (if_neg (Bool.ne_false_iff.mpr hon)).trans (if_neg hin.not_ge)

theorem completes_cplHead_outside (hout : 2 ^ (s.func fn).cplLog2 ≤ v.toNat % 65536) :
    Completes (.cplHead fn v) s fun t => t = s.ringFail fn 2 (v.toNat % 65536) :=
  (completes_cplHead_taken hfn hw).mono fun _ ht => ht.trans <| (if_neg (Bool.ne_false_iff.mpr hon)).trans (if_pos hout)

section
variable (hin : v.toNat % 65536 < 2 ^ (s.func fn).cplLog2)
include hin

theorem completes_cplHead_ahead (hahead : (s.func fn).cplAhead (s.func fn).cplTail.toNat < (s.func fn).cplAhead (v.toNat % 65536)) :
    Completes (.cplHead fn v) s fun t => t = s.ringFail fn 4 (v.toNat % 65536) :=
  (completes_cplHead_taken hfn hw).mono fun _ ht =>
    ht.trans <| (if_neg (Bool.ne_false_iff.mpr hon)).trans <| (if_neg hin.not_ge).trans (if_pos hahead)

theorem completes_cplHead (hnot : (s.func fn).cplAhead (v.toNat % 65536) ≤ (s.func fn).cplAhead (s.func fn).cplTail.toNat) :
    Completes (.cplHead fn v) s fun t => t = s.cplFreed fn (v.toNat % 65536) :=
  (completes_cplHead_taken hfn hw).mono fun _ ht =>
    ht.trans <| (if_neg (Bool.ne_false_iff.mpr hon)).trans <| (if_neg hin.not_ge).trans (if_neg hnot.not_gt)

end

end

theorem State.func_cplFreed (s : State) (fn i : Nat) : (s.cplFreed fn i).func fn = (s.func fn).freedTo i := by
  have hkept := Kept.foldl (W := [.journal]) (fun (t : State) (x : Nat × Colour × Word) =>
    State.cmdDelivered_kept x.2.1 x.2.2 (Kept.refl _ t) (List.Subset.refl _))
    ((s.func fn).slots.filter fun x => between (2 ^ (s.func fn).cplLog2) (s.func fn).cplHead.toNat i x.1)
    (s.setFunc fn ((s.func fn).freedTo i)) (Kept.refl _ _)
  rw [State.cplFreed, State.func, hkept.pcie_eq (by decide)]
  exact State.func_setFunc s fn _

/-! ## GO (R328, R506) -/

section
variable (s : State) (fn : Nat)

/-- The function after a GO is accepted: its earlier completion is taken. -/
theorem State.func_acceptGo : (s.acceptGo fn).func fn = { s.func fn with mbxBusy := true, mbxDone := false, mbxTicket := .none } := by
  unfold State.acceptGo
  split <;> exact State.func_modFunc _ _ _

theorem State.inFlight_acceptGo : (s.acceptGo fn).pcie.inFlight = s.pcie.inFlight := by
  unfold State.acceptGo
  split <;> rfl

end

section
variable {s : State} {fn : Nat} {v : BitVec 32} (hfn : fnOk fn = true)
include hfn

theorem completes_go_off (hoff : v.getLsbD 0 = false) : Completes (.go fn v) s fun t => t = s :=
  (completes_checked exec_go hfn).mono fun _ ht => ht.trans <| if_pos (by rw [hoff]; rfl)

theorem completes_go_busy (hon : v.getLsbD 0 = true) (hw : s.takesWrites fn = true) (hbusy : (s.func fn).mbxBusy = true) :
    Completes (.go fn v) s fun t => t = s.setFunc fn { s.func fn with mbxOverrun := true } :=
  (completes_checked exec_go hfn).mono fun _ ht => ht.trans <| (if_neg (by simp [hon, hw])).trans <| if_pos hbusy

theorem completes_go_served (hon : v.getLsbD 0 = true) (hidle : (s.func fn).mbxBusy = false)
    (hawake : s.power.standby ≠ .entered) (hserves : s.serves fn .mailbox = true) :
    Completes (.go fn v) s fun t => t = (s.acceptGo fn).serveMailbox fn :=
  (completes_checked exec_go hfn).mono fun _ ht => ht.trans <| (if_neg (by simp [hon, State.takesWrites_of_serves hserves])).trans <|
    (if_neg (by simp [hidle])).trans <| (if_neg fun h => hawake h.2).trans <| if_neg (by simp [hserves])

/-- A GO that is not served changes nothing. -/
theorem completes_go_unserved (hidle : (s.func fn).mbxBusy = false)
    (hawake : s.power.standby ≠ .entered ∨ fn ≠ 0) (hserves : s.serves fn .mailbox = false) :
    Completes (.go fn v) s fun t => t = s := by
  refine (completes_checked exec_go hfn).mono fun t ht => ht.trans ?_
  split
  · rfl
  · rw [if_neg (by simp [hidle]), if_neg fun h => hawake.elim (fun hne => hne h.2) (fun hne => hne h.1), if_pos (by simp [hserves])]

end

/-- In deep standby the PF's GO is held and the exit begins. -/
theorem completes_go_standby {s : State} {v : BitVec 32} (hon : v.getLsbD 0 = true) (hidle : (s.func 0).mbxBusy = false)
    (hasleep : s.power.standby = .entered) (hw : s.takesWrites 0 = true) : Completes (.go 0 v) s fun t => (t.func 0).mbxBusy = true ∧
      t.pcie.heldGo = true ∧ t.power.kind = .exit ∧ t.power.step = .s4a ∧ t.pcie.inFlight = s.pcie.inFlight := by
  refine (completes_checked exec_go (by decide)).mono fun t ht => ?_
  rw [if_neg (by simp [hon, hw]), if_neg (by simp [hidle]), if_pos ⟨rfl, hasleep⟩] at ht
  have hbusy : ((s.acceptGo 0).func 0).mbxBusy = true := by rw [State.func_acceptGo]
  rw [ht]
  exact ⟨hbusy, rfl, rfl, rfl, s.inFlight_acceptGo 0⟩

/-! ## RING_FETCH (R332) -/

section
variable {s : State} {fn : Nat} {entry body : Bytes} (hfn : fnOk fn = true)
include hfn

theorem completes_ringFetch (hserves : s.serves fn .ring = true) (hmay : s.mayFetch fn (bit (fieldLE entry 2 2) 1) = true) :
    Completes (.ringFetch fn entry body) s fun t =>
      t = (s.modFunc fn fun f => { f with cmdHead := BitVec.ofNat 16 ((f.cmdHead.toNat + 1) % 2 ^ f.cmdLog2) }).takeIn
        (entryCmd fn .ring entry body) (fieldLE entry 0 2) (entryOk .ring entry) (bit (fieldLE entry 2 2) 1) :=
  (completes_checked exec_ringFetch hfn).mono fun _ ht => ht.trans (if_pos (by simp [hserves, hmay]))

theorem completes_ringFetch_waits (hnot : s.serves fn .ring = false ∨ s.mayFetch fn (bit (fieldLE entry 2 2) 1) = false) :
    Completes (.ringFetch fn entry body) s fun t => t = s :=
  (completes_checked exec_ringFetch hfn).mono fun _ ht => ht.trans (if_neg (by rcases hnot with h | h <;> simp [h]))

end

/-- A well-formed entry of a catalogued opcode is in flight, not yet started. -/
theorem State.inFlight_takeIn {s : State} {c : Cmd} {op : Nat} {serial : Bool} {sp : Spec} (h : specOf op = some sp) :
    (s.takeIn c op true serial).pcie.inFlight =
      s.pcie.inFlight ++ [{ opcode := BitVec.ofNat 16 op, cmd := c, started := false, serial := serial }] := by
  simp [State.takeIn, h]

/-- Settles O31: each register's write and each fetch by its lemma; RING_CTRL by whether the sizes it names are in range. -/
theorem ringsAndMailboxes : Obligations.RingsAndMailboxes := by
  unfold Obligations.RingsAndMailboxes
  refine ⟨fun s fn v hfn => ⟨fun hw c hc => completes_doorbell_discarded hfn hw hc, fun hw => ?writes⟩,
    fun s fn v entry body c op serial sp hfn => ?taken⟩
  case writes =>
    intro f i
    obtain ⟨t, ht, hset, hfail⟩ := exec_ringCtrlEnable_taken (v := v) hfn hw
    refine ⟨fun hoff hon hlo hhi hlo' hhi' => ⟨t, ht, ?starts⟩, fun hon hsizes => ⟨t, ht, ?sizes⟩, fun hoff => ⟨t, ht, ?disables⟩,
      completes_cmdTail hfn hw, completes_cmdTail_outside hfn hw, completes_cmdTail_disabled hfn hw, fun hon hin hnot => ?frees,
      completes_cplHead_ahead hfn hw, completes_cplHead_outside hfn hw, completes_cplHead_disabled hfn hw, completes_go_off hfn,
      fun hon => completes_go_busy hfn hon hw⟩
    case starts =>
      have hwritten : t = _ := hset fun ⟨_, hbad⟩ => by omega
      have hfunc : t.func fn = f.ringWritten v := by rw [hwritten, State.func_setFunc]
      have hrise : (v.getLsbD 0 && !f.ringEnable) = true := by simp [hon, hoff]
      rw [Func.ringWritten, if_pos hrise] at hfunc
      beta_reduce
      rw [hfunc]
      refine ⟨hon, rfl, rfl, rfl, rfl, rfl, rfl, rfl, rfl, fun g hg => ?_, by rw [hwritten]; rfl, by rw [hwritten]; rfl⟩
      rw [hwritten, State.func_setFunc_ne _ _ hg.symm]
    case sizes =>
      obtain ⟨herror, hreason, -, -, hevent⟩ := (s.setFunc fn (f.ringWritten v)).func_ringFail fn 1 0
      rw [hfail ⟨hon, hsizes⟩]
      exact ⟨herror, hreason, hevent⟩
    case disables =>
      have hsizes : ¬ringSizesBad v := fun ⟨hon, _⟩ => Bool.false_ne_true (hoff.symm.trans hon)
      have hrise : ¬(v.getLsbD 0 && !f.ringEnable) = true := by rw [hoff]; exact Bool.false_ne_true
      rw [hset hsizes, Func.ringWritten, if_neg hrise, hoff]
    case frees =>
      refine (completes_cplHead hfn hw hon hin hnot).mono fun t ht => ?_
      rw [ht, State.func_cplFreed]
      refine ⟨rfl, fun x hx => ?_⟩
      obtain ⟨hmem, hleft⟩ := List.mem_filter.mp hx
      exact ⟨hmem, by simpa using hleft⟩
  case taken =>
    exact ⟨fun hon hidle hawake hserves => completes_go_served hfn hon hidle hawake hserves,
      fun _ hidle hawake hserves => completes_go_unserved hfn hidle hawake hserves, completes_go_standby,
      by rw [State.func_acceptGo]; exact ⟨rfl, rfl⟩, completes_ringFetch hfn, completes_ringFetch_waits hfn, State.inFlight_takeIn⟩

end Sys2Proof.Machine
end

section
/-! PROOFS. The completion of a command (R328, R331-R333, Table 10.6), and the checks of a command in their order (R349, Tables 11.1, 11.2,
11.10). -/

namespace Sys2Proof.Machine

/-! ## What a completion delivers -/

section
variable (s : State) (c : Cmd) (code : Nat) (effect : Bool) (rsp : Bytes) (detail : Word) (j : Bool)

/-- In the mailbox it lies with DONE, and leaves the part. -/
theorem State.reply_mailbox_delivers (h : c.via = .mailbox) : let t := s.reply c code effect rsp detail j
    (t.func c.fn).mbxBusy = false ∧ (t.func c.fn).mbxDone = true ∧
      (t.func c.fn).mbxCpl = completionBytes c code true effect rsp.length detail ∧
      Output.completion c.fn .mailbox (completionBytes c code true effect rsp.length detail) (rsp.take c.rspLen) 0 ∈ t.out := by
  intro t
  have ht : t = _ := s.reply_mailbox c code effect rsp detail j h
  obtain ⟨_, hfunc⟩ := (((s.completing c).setFunc c.fn (((s.completing c).func c.fn).mailed c code effect rsp detail j)).emit
    (.completion c.fn .mailbox (completionBytes c code true effect rsp.length detail) (rsp.take c.rspLen) 0)).func_setEvent c.fn 1
  rw [State.func_emit, State.func_setFunc] at hfunc
  rw [ht, hfunc]
  exact ⟨rfl, rfl, rfl, State.mem_out_setEvent _ c.fn List.mem_cons_self 1⟩

/-- On a usable ring it lies at the tail, which moves on; the phase turns over at index 0. -/
theorem State.reply_ring_delivers (h : c.via = .ring) (hu : (s.func c.fn).cplUsable = true) : let t := s.reply c code effect rsp detail j
    let next := ((s.func c.fn).cplTail.toNat + 1) % 2 ^ (s.func c.fn).cplLog2
    (t.func c.fn).cplTail = BitVec.ofNat 16 next ∧
      (t.func c.fn).phase = (if next = 0 then !(s.func c.fn).phase else (s.func c.fn).phase) ∧
      Output.completion c.fn .ring (completionBytes c code (s.func c.fn).phase effect rsp.length detail) (rsp.take c.rspLen) c.rspAddr ∈
        t.out := by
  intro t next
  have ht : t = _ := s.reply_ring c code effect rsp detail j h hu
  obtain ⟨_, hbefore⟩ := s.func_completing c
  obtain ⟨_, _, hfunc⟩ := (((s.completing c).setFunc c.fn (((s.completing c).func c.fn).ringed c j)).emit
    (.completion c.fn .ring (completionBytes c code (s.func c.fn).phase effect rsp.length detail) (rsp.take c.rspLen)
      c.rspAddr)).func_cplSignal c.fn
  rw [State.func_emit, State.func_setFunc] at hfunc
  rw [ht, hfunc, hbefore]
  exact ⟨rfl, rfl, State.mem_out_cplSignal _ c.fn List.mem_cons_self⟩

end

/-! ## The checks of a command (R349) -/

section
variable {s : State} {op : Nat} {c : Cmd} {wf : Bool} {sp : Spec} {effect : Spec → State → State}

/-- Whether a function may issue a command (check 2). -/
def Func.permits (f : Func) (sp : Spec) (c : Cmd) : Prop :=
  ¬(c.fn ≠ 0 ∧ (sp.pf = true ∨ c.colour ≠ f.colour)) ∧ ¬(c.fn = 0 ∧ sp.onColour = false ∧ c.colour ≠ 0)

theorem State.admission_unassigned (h : c.fn ≠ 0 ∧ (s.func c.fn).state = .unassigned) : s.admission sp c = some cUnassigned := if_pos h

section
variable (hassigned : ¬(c.fn ≠ 0 ∧ (s.func c.fn).state = .unassigned))
include hassigned

theorem State.admission_not_permitted (h : ¬(s.func c.fn).permits sp c) : s.admission sp c = some cNotPermitted := by
  refine (if_neg hassigned).trans ?_
  by_cases hforeign : c.fn ≠ 0 ∧ (sp.pf = true ∨ c.colour ≠ (s.func c.fn).colour)
  · exact if_pos hforeign
  · have hcoloured : c.fn = 0 ∧ sp.onColour = false ∧ c.colour ≠ 0 := by_contra fun hnot => h ⟨hforeign, hnot⟩
    exact (if_neg hforeign).trans (if_pos (by simpa using hcoloured))

theorem State.admission_of_permitted (h : (s.func c.fn).permits sp c) :
    s.admission sp c = if sp.states.ok s.power.dev then .none else some cNotReady := by
  obtain ⟨hforeign, hcoloured⟩ := h
  refine (if_neg hassigned).trans ((if_neg hforeign).trans ((if_neg (by simpa using hcoloured)).trans ?_))
  cases sp.states.ok s.power.dev <;> rfl

end

variable (hfn : fnOk c.fn = true) (hsp : specOf op = some sp)
include hfn hsp

/-- A command that checks 1 to 4 refuse completes with their code. -/
theorem runCmd_of_refused {code : Nat} (h : s.admission sp c = some code) : runCmd op c wf s effect = .next (s.reject c code) := by
  simp [runCmd, checked, hfn, hsp, h]

section
variable (hadmitted : s.admission sp c = .none)
include hadmitted

theorem runCmd_of_malformed (h : ¬(wf = true ∧ ¬(sp.journal = true ∧ c.ticket = 0))) :
    runCmd op c wf s effect = .next (s.reject c cMalformed) := by
  have hbad : (!wf || (sp.journal && c.ticket == 0)) = true := by
    by_contra hnot
    simp only [Bool.or_eq_true, Bool.and_eq_true, beq_iff_eq, not_or, Bool.not_eq_true', Bool.not_eq_false] at hnot
    exact h hnot
  simp only [runCmd, checked, hfn, hsp, hadmitted, hbad, if_true]

variable (hwf : wf = true) (hticket : ¬(sp.journal = true ∧ c.ticket = 0))
include hwf hticket

theorem runCmd_of_ticketInUse (hj : sp.journal = true) (h : s.journal.ticketInUse c.colour c.ticket = true) :
    runCmd op c wf s effect = .next (s.reject c cTicketInUse) := by
  have hfree : ¬c.ticket = 0#64 := fun hzero => hticket ⟨hj, hzero⟩
  simp [runCmd, checked, hfn, hsp, hadmitted, hwf, hj, hfree, h]

/-- A journalled command without room for its intents waits, and its wait is counted (R259). -/
theorem runCmd_of_no_room (hj : sp.journal = true) (h : s.journal.ticketInUse c.colour c.ticket = false) (hfull : s.journal.intentRoom = false) :
    runCmd op c wf s effect = .next { s with journal := { s.journal with waits := s.journal.waits + 1 } } := by
  have hfree : ¬c.ticket = 0#64 := fun hzero => hticket ⟨hj, hzero⟩
  simp [runCmd, checked, hfn, hsp, hadmitted, hwf, hj, hfree, h, hfull]

/-- Any other waits as R351 and R417 say, or has its effect. -/
theorem runCmd_of_checked (h : sp.journal = true → s.journal.ticketInUse c.colour c.ticket = false ∧ s.journal.intentRoom = true) :
    runCmd op c wf s effect = .next (if s.waits op c then s else effect sp s) := by
  cases hj : sp.journal with
  | false => simp [runCmd, checked, hfn, hsp, hadmitted, hwf, hj]
  | true =>
    have hfree : ¬c.ticket = 0#64 := fun hzero => hticket ⟨hj, hzero⟩
    obtain ⟨hunused, hroom⟩ := h hj
    simp [runCmd, checked, hfn, hsp, hadmitted, hwf, hj, hfree, hunused, hroom]

end

end

/-- Settles O33: a completion by the channel it takes, the checks by the first that refuses. -/
theorem commandsAnswered : Obligations.CommandsAnswered := by
  unfold Obligations.CommandsAnswered
  refine ⟨fun s c code effect rsp detail j => ?delivered, fun s op c wf sp effect hfn hsp => ?checks⟩
  case delivered =>
    have hkept := State.reply_kept c code effect rsp detail j (Kept.refl _ s) (List.Subset.refl _)
    exact ⟨s.reply_mailbox_delivers c code effect rsp detail j, s.reply_ring_delivers c code effect rsp detail j,
      fun hvia hlost => by rw [s.reply_ring_lost c code effect rsp detail j hvia hlost, State.out_completing],
      hkept.journal_eq (by decide), hkept.mem_eq (by decide)⟩
  case checks =>
    intro f gives assigned permitted ready formed
    have hadmitted : ready → s.admission sp c = .none := fun ⟨⟨hassigned, hpermitted⟩, hready⟩ =>
      (State.admission_of_permitted hassigned hpermitted).trans (if_pos hready)
    refine ⟨fun hnot => runCmd_of_refused hfn hsp (State.admission_unassigned (not_not.mp hnot)), fun hassigned hnot => ?_,
      fun hpermitted hnot => ?_, fun hready hnot => ?_, fun ⟨hready, hwf, hticket⟩ => ?_, fun ⟨hready, hwf, hticket⟩ => ?_,
      fun ⟨hready, hwf, hticket⟩ => ?_⟩
    · exact runCmd_of_refused hfn hsp (State.admission_not_permitted hassigned fun hp => hnot ⟨hassigned, hp⟩)
    · obtain ⟨hassigned, hp⟩ := hpermitted
      exact runCmd_of_refused hfn hsp <| (State.admission_of_permitted hassigned hp).trans <|
        if_neg fun hok => hnot ⟨⟨hassigned, hp⟩, hok⟩
    · exact runCmd_of_malformed hfn hsp (hadmitted hready) fun hformed => hnot ⟨hready, hformed⟩
    · exact runCmd_of_ticketInUse hfn hsp (hadmitted hready) hwf hticket
    · exact runCmd_of_no_room hfn hsp (hadmitted hready) hwf hticket
    · exact runCmd_of_checked hfn hsp (hadmitted hready) hwf hticket

end Sys2Proof.Machine
end

section
/-! PROOFS. The commands on virtual functions (R323, R337-R342, Table 11.4; log entry 40): what each admitted command does where its own checks
pass. -/

namespace Sys2Proof.Machine

section
variable {s : State} {c : Cmd} {sp : Spec}

/-! ## Creation (R323) -/

/-- The partition and the function VF.CREATE's body asks for. -/
def vfAsked (b : Bytes) : Creation :=
  { fn := fieldLE b 0 2, lanes := fieldLE b 2 1, share := fieldLE b 3 1, vectors := fieldLE b 4 1, caddy := fieldLE b 8 4,
    vault := fieldLE b 12 4, quota := fieldLE b 16 8, policy := fieldLE b 24 2, space := fieldLE b 32 8, map := fieldLE b 40 16 }

/-- VF.CREATE waits while the H.MEM gate drains; else it makes the partition, activates the function and waits for its own drain. -/
theorem completes_vfCreate {gs : List Nat} (h : Admitted 0x0301 sp c s) (hlen : c.body.length = 56) (hz : zeroAt c.body 5 3 = true)
    (hz2 : zeroAt c.body 26 6 = true) (hform : (vfAsked c.body).wellFormed (s.tenancy.profile == .wide) = true)
    (hprofile : s.tenancy.profile ≠ .unformatted) (hrange : (vfAsked c.body).inRange (s.tenancy.profile == .wide) c.colour = true)
    (hvf : (vfAsked c.body).vfInRange = true) (hnew : s.part? c.colour = .none) (hfree : (s.func (vfAsked c.body).fn).state = .unassigned)
    (hseen : s.functions.contains (vfAsked c.body).fn = true) (hpools : s.poolsGive (vfAsked c.body) = some gs) :
    Completes (.vfCreate c) s fun t => t = if (s.gate 36).draining then s else
      (((s.begin sp c).cmdAccepted c sp.op).configured c fun s => ((s.createPart c.colour (vfAsked c.body) gs).flipTags).modFunc
        (vfAsked c.body).fn fun f => { f with state := .active, colour := c.colour, vectors := (vfAsked c.body).vectors }).awaitRules 36 c := by
  have hwf : (c.body.length == 56 && zeroAt c.body 5 3 && zeroAt c.body 26 6 &&
      (vfAsked c.body).wellFormed (s.tenancy.profile == .wide)) = true := by simp [hlen, hz, hz2, hform]
  refine completes_cmd h (exec_vfCreate.trans (by unfold execVfCreate; rfl)) hwf ?_
  have hbad : ¬((!(vfAsked c.body).inRange (s.tenancy.profile == .wide) c.colour || !(vfAsked c.body).vfInRange) = true) := by
    simp [hrange, hvf]
  have htaken : ¬((s.part? c.colour).isSome = true ∨ (s.func (vfAsked c.body).fn).state ≠ .unassigned ∨
      s.functions.contains (vfAsked c.body).fn = false) := by
    rw [hnew, hfree, hseen]
    decide
  refine (if_neg hprofile).trans ((if_neg hbad).trans ((if_neg htaken).trans ?_))
  change (match s.poolsGive (vfAsked c.body) with | .none => _ | some gs => _) = _
  rw [hpools]
  rfl

/-! ## End, reset, freezing and thawing (R337-R339) -/

section
variable (hbody : fnBodyOk c.body = true) (hserved : s.vfFails c (fieldLE c.body 0 2) = .none)
include hbody hserved

theorem completes_vfDestroy (h : Admitted 0x0302 sp c s) : Completes (.vfDestroy c) s fun t =>
    t = ((s.begin sp c).cmdAccepted c sp.op).startReset (fieldLE c.body 0 2) [c] true := by
  refine completes_cmd h (exec_vfDestroy.trans (by unfold execVfDestroy; rfl)) hbody ?_
  rw [hserved]

theorem completes_vfReset (h : Admitted 0x0303 sp c s) : Completes (.vfReset c) s fun t =>
    t = (s.begin sp c).startReset (fieldLE c.body 0 2) [c] false := by
  refine completes_cmd h (exec_vfReset.trans (by unfold execVfReset; rfl)) hbody ?_
  rw [hserved]

/-- The colour's lanes, streams and saved jobs as a freeze of its function finds them. -/
def State.freezing (s : State) (sp : Spec) (c : Cmd) : State :=
  let y := (s.begin sp c).modFunc (fieldLE c.body 0 2) fun f => { f with state := .freezing, freezeCmd := some c }
  let z := (y.lanesOfColour c.colour).foldl (fun s l =>
    if (s.lane l).state = .opened ∨ (s.lane l).state = .draining then s.laneTo l .frozen .none else s) y
  (z.markStreams c.colour true).requeueSaved c.colour

theorem completes_vfFreeze (h : Admitted 0x0304 sp c s) (hactive : (s.func (fieldLE c.body 0 2)).state = .active) :
    Completes (.vfFreeze c) s fun t =>
      t = ((s.freezing sp c).parkedSeats c.colour).foldl State.suspendSeat (s.freezing sp c) := by
  refine completes_cmd h (exec_vfFreeze.trans (by unfold execVfFreeze; rfl)) hbody ?_
  rw [hserved]
  exact if_neg (not_not.mpr hactive)

/-- Only an ACTIVE function is frozen. -/
theorem completes_vfFreeze_refused (h : Admitted 0x0304 sp c s) (hnot : (s.func (fieldLE c.body 0 2)).state ≠ .active) :
    Completes (.vfFreeze c) s fun t => t = s.reject c cBadState := by
  refine completes_cmd h (exec_vfFreeze.trans (by unfold execVfFreeze; rfl)) hbody ?_
  rw [hserved]
  exact if_pos hnot

/-- A function going on, its streams unfrozen. -/
def State.thawing (s : State) (c : Cmd) : State :=
  (s.modFunc (fieldLE c.body 0 2) fun f => { f with state := .active }).markStreams c.colour false

theorem completes_vfThaw (h : Admitted 0x0305 sp c s) (hfrozen : (s.func (fieldLE c.body 0 2)).state = .frozen) :
    Completes (.vfThaw c) s (Answered sp c
      ((((s.thawing c).lanesOfColour c.colour).filter fun l => ((s.thawing c).lane l).state == .frozen).foldl
        (fun s l => s.laneTo l .opened .none) (s.thawing c)) []) := by
  refine completes_cmd h (exec_vfThaw.trans (by unfold execVfThaw; rfl)) hbody ?_
  rw [hserved]
  exact if_neg (not_not.mpr hfrozen)

end

/-- VF.STATUS answers the function's state, colour and vectors. -/
theorem completes_vfStatus (h : Admitted 0x0308 sp c s) (hbody : fnBodyOk c.body = true) (hfn : fieldLE c.body 0 2 ≤ 1023) :
    Completes (.vfStatus c) s (Answered sp c s
      (natLE 1 (s.func (fieldLE c.body 0 2)).state.code ++ [0] ++ natLE 2 (s.func (fieldLE c.body 0 2)).colour.toNat ++
        natLE 1 (s.func (fieldLE c.body 0 2)).vectors ++ [0, 0, 0])) := by
  refine completes_cmd h (exec_vfStatus.trans (by unfold execVfStatus; rfl)) hbody ?_
  exact if_neg hfn.not_gt

/-! ## Migration (R339-R342) -/

/-- VF.SAVE answers the piece asked for of the package for its target, or says why there is none. -/
theorem completes_vfSave (h : Admitted 0x0306 sp c s) (hlen : c.body.length = 40) (hz : zeroAt c.body 2 6 = true)
    (hz2 : zeroAt c.body 36 4 = true) (hserved : s.vfFails c (fieldLE c.body 0 2) = .none) (hpiece : fieldLE c.body 32 4 ≤ 16777216) :
    Completes (.vfSave c) s fun t => match s.packageOf (fieldLE c.body 0 2) (BitVec.ofNat 128 (fieldLE c.body 8 16)) with
      | .ok (s1, pkg) => if fieldLE c.body 24 8 < pkg.length
          then Answered sp c s1 (slice pkg (fieldLE c.body 24 8) (fieldLE c.body 32 4)) t else t = s.reject c cInvalid
      | .error code => t = s.reject c code := by
  refine completes_cmd h (exec_vfSave.trans (by unfold execVfSave; rfl)) (by simp [hlen, hz, hz2]) ?_
  rw [hserved]
  cases s.packageOf (fieldLE c.body 0 2) (BitVec.ofNat 128 (fieldLE c.body 8 16)) with
  | error code => rfl
  | ok made =>
    obtain ⟨s1, pkg⟩ := made
    by_cases hin : fieldLE c.body 24 8 < pkg.length
    · simp only [if_pos hin]
      exact if_neg (by omega)
    · simp only [if_neg hin]
      exact if_pos (.inr (not_lt.mp hin))

/-- A function with the first piece of a package staged. -/
def Func.stagedFirst (f : Func) (piece : Bytes) (total : Nat) : Func :=
  { f with staged := piece, stagedLast := (0, piece), stagedTotal := total }

/-- The first piece of a longer package is staged where there is room for the whole. -/
theorem completes_vfRestore_first (h : Admitted 0x0307 sp c s) (hlen : 24 ≤ c.body.length) (hz : zeroAt c.body 2 2 = true)
    (hfn0 : fieldLE c.body 0 2 ≠ 0) (hfn : fieldLE c.body 0 2 ≤ 1023) (hsize : (c.body.drop 24).length ≤ 16777216)
    (hsess : fieldLE c.body 4 2 ≠ 0) (hfree : (s.func (fieldLE c.body 0 2)).state = .unassigned)
    (hstaged : (s.func (fieldLE c.body 0 2)).staged = []) (htotal : (s.func (fieldLE c.body 0 2)).stagedTotal = 0)
    (hret0 : s.returnOk c.colour 0 (fieldLE c.body 4 2) = true) (hret1 : s.returnOk c.colour 1 (fieldLE c.body 6 2) = true)
    (hoff : fieldLE c.body 8 8 = 0) (hsome : c.body.drop 24 ≠ []) (hmore : (c.body.drop 24).length < fieldLE c.body 16 8) :
    Completes (.vfRestore c) s fun t => t = if fieldLE c.body 16 8 ≤ Config.stagingFree then
      answer c (((s.setFunc (fieldLE c.body 0 2) ((s.func (fieldLE c.body 0 2)).stagedFirst (c.body.drop 24) (fieldLE c.body 16 8))).begin
        sp c).cmdAccepted c sp.op) sp []
      else s.reject c cExhausted := by
  refine completes_cmd h (exec_vfRestore.trans (by unfold execVfRestore; rfl)) (by simp [hlen, hz]) ?_
  have hargs : ¬(fieldLE c.body 0 2 = 0 ∨ 1023 < fieldLE c.body 0 2 ∨ 16777216 < (c.body.drop 24).length ∨
      (fieldLE c.body 4 2 = 0 ∧ fieldLE c.body 6 2 = 0)) := by omega
  have hnone : (c.body.drop 24).isEmpty = false := by simpa using hsome
  have hfits : ¬(fieldLE c.body 16 8 < (c.body.drop 24).length ∨ False) := fun hno => hno.elim (fun hlt => by omega) id
  have hshort : ([] ++ c.body.drop 24).length < fieldLE c.body 16 8 := hmore
  simp only [hoff, hstaged, htotal, hfree, hret0, hret1, hnone, hargs, hfits, hshort, List.length_nil, Nat.zero_add, ne_eq,
    not_true_eq_false, lt_irrefl, false_and, false_or, Bool.not_true, Bool.or_false, Bool.false_eq_true, if_false, if_true, true_and,
    State.modFunc_eq, State.func_setFunc, Func.stagedFirst]
  by_cases hroom : fieldLE c.body 16 8 ≤ Config.stagingFree
  · rw [if_neg hroom.not_gt, if_pos hroom]
    rfl
  · rw [if_pos (not_le.mp hroom), if_neg hroom]

end

/-- Settles O36: each command by its lemma; a staged piece stays with its function over the command's completion. -/
theorem functionCommands : Obligations.FunctionCommands := by
  unfold Obligations.FunctionCommands
  intro s c sp gs b fn run
  refine ⟨completes_vfCreate, fun h hbody hserved => completes_vfDestroy hbody hserved h,
    fun h hbody hserved => completes_vfReset hbody hserved h,
    fun h hbody hserved => ⟨completes_vfFreeze hbody hserved h, completes_vfFreeze_refused hbody hserved h⟩,
    fun h hbody hserved => completes_vfThaw hbody hserved h, completes_vfSave,
    fun h hlen hz hfn0 hfn hsize hsess hfree hstaged htotal hret0 hret1 hoff hsome hmore => ?restore, completes_vfStatus⟩
  case restore =>
    refine (completes_vfRestore_first h hlen hz hfn0 hfn hsize hsess hfree hstaged htotal hret0 hret1 hoff hsome hmore).mono fun t ht => ?_
    split
    next hroom =>
      rw [if_pos hroom] at ht
      have hlasting := ((((s.setFunc fn ((s.func fn).stagedFirst (b.drop 24) (fieldLE b 16 8))).begin sp c).cmdAccepted c
        sp.op).funcsFollow_finish c cOk [] 0 sp fn).lasting
      have hfunc : (((s.setFunc fn ((s.func fn).stagedFirst (b.drop 24) (fieldLE b 16 8))).begin sp c).cmdAccepted c sp.op).func fn =
        (s.func fn).stagedFirst (b.drop 24) (fieldLE b 16 8) := State.func_setFunc s fn _
      rw [hfunc] at hlasting
      rw [ht]
      exact ⟨congrArg Func.staged hlasting, congrArg Func.stagedTotal hlasting, (congrArg Func.state hlasting).trans hfree⟩
    next hroom => exact ht.trans (if_neg hroom)

end Sys2Proof.Machine
end

section
/-! PROOFS. The other registers of a function, its interrupts and DMA faults (R16, R326, R327, R331, R333), and the events of the PCIe functions
(R320-R322, R324, R335-R338, R99, R543; log entry 38). -/

namespace Sys2Proof.Machine

/-! ## What BAR0 takes (R326) -/

/-- An access BAR0 takes is aligned. -/
theorem mod_four_of_accessOk {fn off vectors : Nat} (h : accessOk fn off 4 vectors = true) : off % 4 = 0 := by
  simp only [accessOk, Bool.and_eq_true, beq_iff_eq] at h
  exact h.1

/-- Both halves of an 8-byte access are aligned. -/
theorem mod_eight_of_accessOk {fn off vectors : Nat} (h : accessOk fn off 8 vectors = true) : off % 8 = 0 := by
  simp only [accessOk, Bool.and_eq_true, beq_iff_eq] at h
  exact h.1

/-! ## What a write of a register leaves (R16, R326) -/

section
variable (s : State) (fn : Nat) (v : Nat)

/-- A write of MBX_REQ (R328). -/
theorem State.writeReg_mbxReq {off : Nat} (hlo : 0x1040 ≤ off) (hhi : off < 0x1080) : s.writeReg fn off v =
    s.setFunc fn { s.func fn with mbxReq := splice (s.func fn).mbxReq (off - 0x1040) (natLE 4 v) } := by
  simp (disch := omega) only [State.writeReg, if_neg, if_pos, State.modFunc_eq]

/-- A write of MBX_DATA (R328). -/
theorem State.writeReg_mbxData {off : Nat} (hlo : 0x1100 ≤ off) (hhi : off < 0x1900) : s.writeReg fn off v =
    s.setFunc fn { s.func fn with mbxData := putBytes (s.func fn).mbxData (off - 0x1100) (natLE 4 v) } := by
  simp (disch := omega) only [State.writeReg, if_neg, if_pos, State.modFunc_eq]

/-- A function with four bytes of its MSI-X table written. -/
def Func.vectorWritten (f : Func) (fn off v : Nat) : Func := { f with msix := f.msix.set ((off - msixBase fn) / 4) (BitVec.ofNat 32 v) }

section
variable {off : Nat} (hlo : msixBase fn ≤ off) (hhi : off < msixBase fn + 16 * (s.func fn).vectors)
include hlo hhi

/-- A write of the MSI-X table sends what was pending of a vector no longer masked (R333). -/
theorem State.writeReg_msix : s.writeReg fn off v =
    if ((s.func fn).pba.contains ((off - msixBase fn) / 16)) = true ∧
        ((s.func fn).vectorWritten fn off v).masked ((off - msixBase fn) / 16) = false then
      (s.setFunc fn { (s.func fn).vectorWritten fn off v with
        pba := (s.func fn).pba.filter (· != (off - msixBase fn) / 16) }).emit (.msix fn ((off - msixBase fn) / 16))
    else s.setFunc fn ((s.func fn).vectorWritten fn off v) := by
  have hmsix := le_msixBase fn
  simp (disch := omega) only [State.writeReg, if_neg, if_pos, State.modFunc_eq, State.func_setFunc, State.setFunc_setFunc,
    Func.vectorWritten]
  rfl

end

/-- A write of any other offset is discarded. -/
theorem State.writeReg_reserved {off : Nat} (hreg : off ∉ [0x20, 0x24, 0x28, 0x2C, 0x44, 0x48])
    (hoff : off < 0x1040 ∨ 0x1080 ≤ off ∧ off < 0x1100 ∨ 0x1900 ≤ off ∧ off < msixBase fn ∨
      msixBase fn + 16 * (s.func fn).vectors ≤ off) : s.writeReg fn off v = s := by
  have hmsix := le_msixBase fn
  simp only [List.mem_cons, List.not_mem_nil, or_false, not_or] at hreg
  simp (disch := omega) only [State.writeReg, if_neg]

/-- A write changes neither the function's state nor its vectors. -/
theorem State.state_writeReg (off : Nat) : ((s.writeReg fn off v).func fn).state = (s.func fn).state := by
  simp only [State.writeReg, apply_ite fun t : State => (t.func fn).state, State.func_modFunc, State.func_emit, State.func_setFunc,
    ite_self]

theorem State.takesWrites_writeReg (off : Nat) : (s.writeReg fn off v).takesWrites fn = s.takesWrites fn := by
  rw [State.takesWrites, State.reaches_writeReg, State.state_writeReg, State.takesWrites]

end

section
variable {s : State} {fn off size : Nat} {w : Word} (hfn : fnOk fn = true)
include hfn

theorem completes_registerWrite_discarded (h : s.takesWrites fn = false ∨ accessOk fn off size (s.func fn).vectors = false) :
    Completes (.registerWrite fn off size w) s fun t => t = s :=
  (completes_checked exec_registerWrite hfn).mono fun _ ht => ht.trans (if_pos (by rcases h with h | h <;> simp [h]))

variable (hw : s.takesWrites fn = true)
include hw

theorem completes_registerWrite_four (hoff : off % 4 = 0) :
    Completes (.registerWrite fn off 4 w) s fun t => t = s.writeReg fn off (w.toNat % 2 ^ 32) :=
  completes_event (exec_registerWrite_four hfn hoff hw)

/-- An 8-byte write that BAR0 takes writes its two halves in turn. -/
theorem completes_registerWrite_eight (hok : accessOk fn off 8 (s.func fn).vectors = true) :
    Completes (.registerWrite fn off 8 w) s fun t => ∃ s1, Completes (.registerWrite fn off 4 w) s (fun z => z = s1) ∧
      Completes (.registerWrite fn (off + 4) 4 (BitVec.ofNat 64 (w.toNat / 2 ^ 32))) s1 (fun z => z = t) := by
  have hoff := mod_eight_of_accessOk hok
  have hhigh : (BitVec.ofNat 64 (w.toNat / 2 ^ 32)).toNat % 2 ^ 32 = w.toNat / 2 ^ 32 := by
    have := w.isLt
    rw [BitVec.toNat_ofNat]
    omega
  refine (completes_checked exec_registerWrite hfn).mono fun t ht => ?_
  refine ⟨_, completes_registerWrite_four hfn hw (by omega), ?_⟩
  refine (completes_registerWrite_four hfn (by rwa [State.takesWrites_writeReg]) (by omega)).mono fun z hz => ?_
  rw [hz, hhigh, ht, if_neg (by simp [hw, hok]), if_pos rfl]

end

/-! ## EVENT and MBX_STATUS (R327, R328) -/

section
variable {s : State} {fn off : Nat} {v : BitVec 32} (hfn : fnOk fn = true)
include hfn

theorem completes_eventRw1c_event (hw : s.takesWrites fn = true) (hoff : off = 0x50) : Completes (.eventRw1c fn off v) s fun t =>
    t = s.setFunc fn { s.func fn with event := (s.func fn).event &&& ~~~v } :=
  (completes_checked exec_eventRw1c hfn).mono fun _ ht => ht.trans <| (if_neg (by simp [hw])).trans (if_pos hoff)

theorem completes_eventRw1c_overrun (hw : s.takesWrites fn = true) (hoff : off = 0x1004) (hbit : v.getLsbD 2 = true) :
    Completes (.eventRw1c fn off v) s fun t => t = s.setFunc fn { s.func fn with mbxOverrun := false } :=
  (completes_checked exec_eventRw1c hfn).mono fun _ ht => ht.trans <| (if_neg (by simp [hw])).trans <|
    (if_neg (by omega)).trans (if_pos ⟨hoff, hbit⟩)

theorem completes_eventRw1c_discarded (h : s.takesWrites fn = false ∨ off ≠ 0x50 ∧ ¬(off = 0x1004 ∧ v.getLsbD 2 = true)) :
    Completes (.eventRw1c fn off v) s fun t => t = s := by
  refine (completes_checked exec_eventRw1c hfn).mono fun t ht => ht.trans ?_
  cases hw : s.takesWrites fn with
  | false => rfl
  | true =>
    obtain ⟨hevent, hoverrun⟩ := h.resolve_left (by simp [hw])
    exact (if_neg hevent).trans (if_neg hoverrun)

/-! ## Interrupts held back (R333) and DMA faults (R331, R332) -/

theorem completes_completionIrqDelay (hsome : (s.func fn).unsignalled ≠ 0) (hon : (s.func fn).irqCpl.getLsbD 31 = true)
    (hdelay : (s.func fn).irqCpl.toNat % 256 ≠ 0) : Completes (.completionIrqDelay fn) s fun t =>
      (t.func fn).unsignalled = 0 ∧
        t = (s.setFunc fn { s.func fn with unsignalled := 0 }).msix fn ((s.func fn).irqCpl.toNat / 65536 % 64) := by
  refine (completes_checked exec_completionIrqDelay hfn).mono fun t ht => ?_
  have hsent : t = (s.setFunc fn { s.func fn with unsignalled := 0 }).msix fn ((s.func fn).irqCpl.toNat / 65536 % 64) :=
    ht.trans (if_pos ⟨hsome, hon, by simpa [bits] using hdelay⟩)
  obtain ⟨_, hfunc⟩ := (s.setFunc fn { s.func fn with unsignalled := 0 }).func_msix fn ((s.func fn).irqCpl.toNat / 65536 % 64)
  refine ⟨?_, hsent⟩
  rw [hsent, hfunc, State.func_setFunc]

theorem completes_completionIrqDelay_nothing (h : (s.func fn).unsignalled = 0 ∨ (s.func fn).irqCpl.getLsbD 31 = false ∨
    (s.func fn).irqCpl.toNat % 256 = 0) : Completes (.completionIrqDelay fn) s fun t => t = s := by
  refine (completes_checked exec_completionIrqDelay hfn).mono fun t ht => ht.trans (if_neg ?_)
  rintro ⟨hsome, hon, hdelay⟩
  rcases h with h | h | h
  · exact hsome h
  · exact Bool.false_ne_true (h.symm.trans hon)
  · exact hdelay (by simpa [bits] using h)

theorem completes_dmaFault_fetch : Completes (.dmaFault fn .fetch) s fun t => (t.func fn).ringError = true ∧ (t.func fn).errReason = 5 ∧
    (t.func fn).errIndex = (s.func fn).cmdHead := by
  refine (completes_checked exec_dmaFault hfn).mono fun t ht => ?_
  obtain ⟨herror, hreason, hindex, -, -⟩ := s.func_ringFail fn 5 (s.func fn).cmdHead.toNat
  rw [ht]
  exact ⟨herror, hreason, hindex.trans (BitVec.ofNat_toNat ..)⟩

theorem completes_dmaFault_completionWrite : Completes (.dmaFault fn .completionWrite) s fun t => (t.func fn).ringError = true ∧
    (t.func fn).errReason = 6 ∧ (t.func fn).cplLost = true := by
  refine (completes_checked exec_dmaFault hfn).mono fun t ht => ?_
  obtain ⟨herror, hreason, -, hlost, -⟩ := s.func_ringFail fn 6 (s.func fn).cplTail.toNat
  rw [ht]
  exact ⟨herror, hreason, hlost.trans (Bool.or_true _)⟩

theorem completes_dmaFault_responseWrite : Completes (.dmaFault fn .responseWrite) s fun t =>
    t = { s with pcie := { s.pcie with respFault := s.pcie.respFault ++ [fn] } } := completes_checked exec_dmaFault hfn

/-- A failed read of a request ends the oldest ring command that has not started. -/
theorem completes_dmaFault_requestRead {found : Option InFlight} (h : (s.ringFlight fn).find? (fun x => !x.started) = found) :
    Completes (.dmaFault fn .requestRead) s fun t => t = found.elim s fun x => s.reject x.cmd cBufferFault := by
  refine (completes_checked exec_dmaFault hfn).mono fun t ht => ht.trans ?_
  subst h
  dsimp only
  split
  next x hx => rw [hx]; rfl
  next hnone => rw [hnone]; rfl

/-! ## FLR (R327, R335) -/

theorem completes_flr_linkDown (hdown : s.power.porst = true) : Completes (.flr fn) s fun t => t = s :=
  (completes_checked exec_flr hfn).mono fun _ ht => ht.trans (if_pos (by simp [State.pcieUp, hdown]))

section
variable (hup : s.power.porst = false)
include hup

/-- The PF, and a VF not at work, have their registers reset. -/
theorem completes_flr_registers (h : fn = 0 ∨ (s.func fn).state = .unassigned ∨ (s.func fn).state = .restoring) :
    Completes (.flr fn) s fun t => t = s.setFunc fn (s.func fn).rwReset := by
  refine (completes_checked exec_flr hfn).mono fun t ht => ht.trans <| (if_neg (by simp [State.pcieUp, hup])).trans (if_pos ?_)
  rw [State.func_modFunc]
  exact h

/-- An assigned VF is reset as R335 says too. -/
theorem completes_flr_instance (hvf : fn ≠ 0) (hassigned : (s.func fn).state ≠ .unassigned) (hidle : (s.func fn).state ≠ .restoring) :
    Completes (.flr fn) s fun t => t = (s.setFunc fn (s.func fn).rwReset).startReset fn [] false := by
  refine (completes_checked exec_flr hfn).mono fun t ht => ht.trans <| (if_neg (by simp [State.pcieUp, hup])).trans (if_neg ?_)
  rw [State.func_modFunc]
  exact fun h => h.elim hvf fun h => h.elim hassigned hidle

end

end

/-! ## The VFs the host has enabled (R322, R324) -/

/-- What each step leaves, the steps leave together. -/
theorem State.foldl_keeps {α β : Type} (φ : State → β) {f : State → α → State} (hf : ∀ t x, φ (f t x) = φ t) (l : List α) (s : State) :
    φ (l.foldl f s) = φ s :=
  (List.foldl_hom φ (g₂ := fun x _ => x) fun t x => (hf t x).symm).symm.trans (List.foldl_fixed l)

/-- What the host has set of the VFs: VF Enable and NumVFs. -/
def State.vfsSet (s : State) : Bool × Nat := (s.pcie.vfEnable, s.pcie.numVfs)

section
variable (s : State)

theorem State.vfsSet_of_pcie {s t : State} (h : t.pcie = s.pcie) : t.vfsSet = s.vfsSet := by rw [State.vfsSet, h, State.vfsSet]

@[simp] theorem State.vfsSet_setFunc (fn : Nat) (x : Func) : (s.setFunc fn x).vfsSet = s.vfsSet := rfl

/-- An item that ends counts toward a reset in progress at most. -/
theorem State.vfsSet_itemEnded (d : Desc) (reason : BitVec 11) : (s.itemEnded d reason).vfsSet = s.vfsSet := by
  have hreset : ∀ (t : State) c g, (t.modReset c g).vfsSet = t.vfsSet := fun t c g => by
    unfold State.modReset
    repeat' split
    all_goals rfl
  have hended : (s.ended d reason).vfsSet = s.vfsSet :=
    State.vfsSet_of_pcie ((State.ended_kept d reason (Kept.refl _ s) (List.Subset.refl _)).pcie_eq (by decide))
  unfold State.itemEnded
  split
  · exact (hreset _ _ _).trans hended
  · exact hended

theorem State.vfsSet_discardItems (p : Item → Bool) (reason : BitVec 11) : (s.discardItems p reason).vfsSet = s.vfsSet := by
  have hreleased := (State.releaseItems_kept (fun i => p i && i.stream.isNone) (Kept.refl _ s) (List.Subset.refl _)).pcie_eq (by decide)
  unfold State.discardItems
  dsimp only
  rw [State.foldl_keeps State.vfsSet fun t i => t.vfsSet_itemEnded _ reason]
  refine State.vfsSet_of_pcie ?_
  dsimp only
  exact hreleased

theorem State.vfsSet_squashMae (p : Desc → Bool) (reason : BitVec 11) : (s.squashMae p reason).vfsSet = s.vfsSet := by
  unfold State.squashMae
  dsimp only
  rw [State.foldl_keeps State.vfsSet fun t j => t.vfsSet_itemEnded _ reason]
  refine State.vfsSet_of_pcie ?_
  dsimp only

theorem State.vfsSet_squashLane (l : Nat) (cause : LaneCause) : (s.squashLane l cause).vfsSet = s.vfsSet := by
  have habort : ∀ (t : State) k, (t.abortStream k).vfsSet = t.vfsSet := fun t k => State.vfsSet_of_pcie <|
    (State.abortStream_kept k (Kept.refl _ t) (List.Subset.refl _)).pcie_eq (by decide)
  have hcredit : ∀ (t : State) c, (t.creditColour c).vfsSet = t.vfsSet := fun t c => State.vfsSet_of_pcie <|
    (State.creditColour_kept c (Kept.refl _ t) (List.Subset.refl _)).pcie_eq (by decide)
  unfold State.squashLane
  split
  · rfl
  · rw [hcredit, State.foldl_keeps State.vfsSet habort, State.vfsSet_squashMae]
    exact State.vfsSet_discardItems _ _ _

theorem State.vfsSet_resetSquash (fn : Nat) (p : LaneState → Bool) : (s.resetSquash fn p).vfsSet = s.vfsSet :=
  State.foldl_keeps State.vfsSet (fun t l => t.vfsSet_squashLane l .instanceReset) _ _

theorem State.vfsSet_startReset (fn : Nat) (waiting : List Cmd) (destroy : Bool) : (s.startReset fn waiting destroy).vfsSet = s.vfsSet := by
  have hlane : ∀ (t : State) (l : Nat), (if (t.lane l).state = .frozen then t.laneTo l .draining .instanceReset
      else t.drainLane l .instanceReset).vfsSet = t.vfsSet := fun t l => by
    split
    · exact State.vfsSet_of_pcie ((State.laneTo_kept l _ _ (Kept.refl _ t) (List.Subset.refl _)).pcie_eq (by decide))
    · exact State.vfsSet_of_pcie ((State.drainLane_kept l _ (Kept.refl _ t) (List.Subset.refl _)).pcie_eq (by decide))
  unfold State.startReset
  dsimp only
  split
  · rfl
  · rw [State.foldl_keeps State.vfsSet hlane]
    split
    · rw [State.vfsSet_resetSquash, State.vfsSet_setFunc]
    · rfl

theorem State.vfsSet_endCommands (fn : Nat) : (s.endCommands fn).vfsSet = s.vfsSet :=
  State.foldl_keeps State.vfsSet (fun t x => by split <;> rfl) _ _

/-- The VFs that disappear are reset under the settings that take them away. -/
theorem State.vfsSet_vfsVanish (fs : List Nat) : (s.vfsVanish fs).vfsSet = s.vfsSet :=
  State.foldl_keeps State.vfsSet (fun t f => by
    split
    · exact State.vfsSet_endCommands _ f
    · exact t.vfsSet_startReset f [] false) _ _

theorem State.vfsSet_assignVf (c : Colour) (p : Part) : (s.assignVf c p).vfsSet = s.vfsSet := by
  unfold State.assignVf
  split <;> rfl

end

/-! ## D3hot, VF Enable and NumVFs (R320-R322, R324) -/

section
variable {s : State} {n : Nat}

theorem State.pcieUp_of_released (h : s.power.porst = false) : s.pcieUp = true := by simp [State.pcieUp, h]

/-- With the link down no configuration write arrives. -/
theorem completes_config_linkDown {enable : Bool} (hn : fnOk n = true) (hdown : ¬s.power.porst = false) {c : Instr}
    (hc : c ∈ [Instr.d3hotEntry, .d3hotExit, .vfEnableSet n, .vfEnableClear n enable]) : Completes c s fun t => t = s := by
  have hoff : s.pcieUp = false := by simpa [State.pcieUp] using hdown
  simp only [List.mem_cons, List.not_mem_nil, or_false] at hc
  rcases hc with rfl | rfl | rfl | rfl
  · exact (completes_event exec_d3hotEntry).mono fun _ ht => ht.trans (if_neg (by simp [hoff]))
  · exact (completes_event exec_d3hotExit).mono fun _ ht => ht.trans (if_neg (by simp [hoff]))
  · exact (completes_checked exec_vfEnableSet hn).mono fun _ ht => ht.trans (if_pos (by simp [hoff]))
  · exact (completes_checked exec_vfEnableClear hn).mono fun _ ht => ht.trans (if_pos (by simp [hoff]))

section
variable (hup : s.power.porst = false)
include hup

theorem completes_d3hotEntry : Completes .d3hotEntry s fun t => t = { s with pcie := { s.pcie with d3hot := true } } :=
  (completes_event exec_d3hotEntry).mono fun _ ht => ht.trans (if_pos (State.pcieUp_of_released hup))

theorem completes_d3hotExit : Completes .d3hotExit s fun t => t = { s with pcie := { s.pcie with d3hot := false } } :=
  (completes_event exec_d3hotExit).mono fun _ ht => ht.trans (if_pos (State.pcieUp_of_released hup))

variable (hn : fnOk n = true)
include hn

/-- The state with VF Enable and NumVFs set, the VFs above it reset. -/
def State.vfsShown (s : State) (n : Nat) : State :=
  ({ s with pcie := { s.pcie with vfEnable := true, numVfs := n } }).vfsVanish (s.functions.filter fun g => g != 0 && decide (n < g))

omit hup hn in
theorem State.tenancy_vfsShown : (s.vfsShown n).tenancy = s.tenancy :=
  (State.vfsVanish_kept _ (Kept.refl _ { s with pcie := { s.pcie with vfEnable := true, numVfs := n } }) (List.Subset.refl _)).tenancy_eq
    (by decide)

/-- VF Enable set: the VFs above NumVFs are reset, those of the partitions come back. -/
theorem completes_vfEnableSet : Completes (.vfEnableSet n) s fun t => t.vfsSet = (true, n) ∧
    t = s.tenancy.parts.foldl (fun y q => if q.2.vf ≤ n then y.assignVf (BitVec.ofNat 12 q.1) q.2 else y) (s.vfsShown n) := by
  refine (completes_checked exec_vfEnableSet hn).mono fun t ht => ?_
  have hset := ht.trans (if_neg (by simp [State.pcieUp_of_released hup]))
  have hsame : t = s.tenancy.parts.foldl (fun y q => if q.2.vf ≤ n then y.assignVf (BitVec.ofNat 12 q.1) q.2 else y) (s.vfsShown n) := by
    rw [← State.tenancy_vfsShown (n := n)]
    exact hset
  refine ⟨?_, hsame⟩
  rw [hsame, State.foldl_keeps State.vfsSet fun t q => ?assigned]
  · exact State.vfsSet_vfsVanish _ _
  case assigned =>
    split
    · exact t.vfsSet_assignVf _ _
    · rfl

/-- VF Enable cleared, or NumVFs reduced: the VFs taken away are reset. -/
theorem completes_vfEnableClear (enable : Bool) : Completes (.vfEnableClear n enable) s fun t =>
    t.vfsSet = (enable && s.pcie.vfEnable, min n s.pcie.numVfs) ∧
    t = ({ s with pcie := { s.pcie with vfEnable := enable && s.pcie.vfEnable, numVfs := min n s.pcie.numVfs } }).vfsVanish
      (s.functions.filter fun g => g != 0 && (!enable || decide (n < g))) := by
  refine (completes_checked exec_vfEnableClear hn).mono fun t ht => ?_
  have hset := ht.trans (if_neg (by simp [State.pcieUp_of_released hup]))
  refine ⟨?_, hset⟩
  rw [hset]
  exact State.vfsSet_vfsVanish _ _

end

end

/-! ## The reset of a function (R335-R337) -/

section
variable {s : State} {fn : Nat} {r : ResetRun} (hfn : fnOk fn = true)
include hfn

/-- At its deadline a reset squashes what still drains and ends its function's commands. -/
theorem completes_instanceResetSquash (hrun : (s.func fn).resetRun = some r) (hdue : r.squashDone = false) :
    Completes (.instanceResetSquash fn) s fun t => t = ((s.resetSquash fn fun st => st == .draining).endCommands fn).modFunc fn fun f =>
      { f with resetRun := f.resetRun.map fun r => { r with squashDone := true } } := by
  refine (completes_checked exec_instanceResetSquash hfn).mono fun t ht => ht.trans ?_
  rw [hrun]
  exact if_neg (by simp [hdue])

theorem completes_instanceResetSquash_nothing (h : (s.func fn).resetRun = .none ∨ (s.func fn).resetRun = some r ∧ r.squashDone = true) :
    Completes (.instanceResetSquash fn) s fun t => t = s := by
  refine (completes_checked exec_instanceResetSquash hfn).mono fun t ht => ht.trans ?_
  rcases h with hnone | ⟨hrun, hdone⟩
  · rw [hnone]
  · rw [hrun]
    exact if_pos hdone

end

/-- What of a function neither a completion nor its leaving the colour changes: the counts of its last reset among it. -/
def Func.reported (f : Func) : Func := { f.lasting with state := .active, colour := 0, vectors := 0 }

/-- With no reset in progress, none is afterwards. -/
theorem Func.resetRun_of_reported {f g : Func} (h : g.reported = f.reported) (hnone : f.resetRun = .none) : g.resetRun = .none := by
  have hmapped : g.resetRun.map _ = f.resetRun.map _ := congrArg Func.resetRun h
  rwa [hnone, Option.map_none, Option.map_eq_none_iff] at hmapped

section
variable (s : State) (fn g : Nat) (c : Cmd)

theorem State.func_configured (f : State → State) : (s.configured c f).func g =
    (f (s.cmdIntent c 5 (c.colour.zeroExtend 64) (s.cfgSerial c.colour).toNat)).func g := rfl

theorem State.reported_unassign : ((s.unassign fn).func g).reported = (s.func g).reported := by
  have hpart : ∀ t : State, t.pcie = s.pcie →
      ((t.modFunc fn fun f => { f with state := .unassigned, colour := 0xFFF, vectors := 0 }).func g).reported = (s.func g).reported :=
    fun t ht => by
      have hfunc : ∀ j, t.func j = s.func j := fun j => by rw [State.func, ht, State.func]
      rcases eq_or_ne fn g with rfl | hne
      · rw [State.func_modFunc, hfunc]
        rfl
      · rw [State.modFunc_eq, State.func_setFunc_ne _ _ hne, hfunc]
  unfold State.unassign
  refine hpart _ ?_
  split <;> rfl

theorem State.reported_finish (sp : Spec) (code : Nat) (rsp : Bytes) (detail : Word) :
    ((s.finish sp c code rsp detail).func g).reported = (s.func g).reported := by
  rw [Func.reported, (s.funcsFollow_finish c code rsp detail sp g).lasting, Func.reported]

/-- The commands that waited for a reset complete with its counts as they are. -/
theorem State.reported_resetWaiters (ws : List Cmd) : ((s.resetWaiters fn ws).func g).reported = (s.func g).reported := by
  refine State.foldl_keeps (fun t : State => (t.func g).reported) (fun t c => ?_) ws s
  split
  · split
    · rw [State.reported_finish, State.func_configured, State.reported_unassign]
      rfl
    · exact t.reported_finish g c _ _ _ _
  · rfl

end

/-- A function as its reset ends: the counts it reports. -/
def Func.counted (f : Func) (r : ResetRun) (now : Nat) : Func :=
  { f with
    rstSerial := f.rstSerial + 1, rstItemsDrained := BitVec.ofNat 32 r.drained, rstItemsSquashed := BitVec.ofNat 32 r.squashed,
    rstCmdsDrained := BitVec.ofNat 32 r.cmdsDrained, rstCmdsSquashed := BitVec.ofNat 32 r.cmdsSquashed,
    rstStreams := BitVec.ofNat 32 r.streams, rstTime := BitVec.ofNat 32 ((now - r.start) / 100) }

/-- Its registers reset, the function is ACTIVE again. -/
def Func.reinstated (f : Func) : Func := { f.rwReset with state := .active, resetRun := .none, mbxDone := false }

/-- The lanes a function's reset has closed. -/
def State.resetLanes (s : State) (fn : Nat) : List Nat :=
  (s.lanesOfColour (s.func fn).colour).filter fun l => (s.lane l).cause == .instanceReset

/-- Whether a lane of a function's reset still works. -/
def State.resetBusy (s : State) (fn : Nat) : Bool :=
  (s.lanesOfColour (s.func fn).colour).any fun l => (s.lane l).cause == .instanceReset && (s.lane l).state != .closed

/-- The state in which a function's reset is over, before the commands that waited for it complete. -/
def State.resetOver (s : State) (fn : Nat) (r : ResetRun) : State :=
  (((s.resetLanes fn).foldl State.reinstate (s.setFunc fn ((s.func fn).counted r s.now))).modFunc fn Func.reinstated).setEvent fn 2

theorem State.func_resetOver (s : State) (fn : Nat) (r : ResetRun) :
    ∃ pba, (s.resetOver fn r).func fn = { (((s.func fn).counted r s.now).reinstated).withEvent 2 with pba } := by
  have hkept := Kept.foldl (fun t l => State.reinstate_kept l (Kept.refl _ t) (List.Subset.refl _)) (s.resetLanes fn)
    (s.setFunc fn ((s.func fn).counted r s.now)) (Kept.refl _ _)
  have hopen : ((s.resetLanes fn).foldl State.reinstate (s.setFunc fn ((s.func fn).counted r s.now))).func fn =
      (s.func fn).counted r s.now := by
    rw [State.func, hkept.pcie_eq (by decide)]
    exact State.func_setFunc s fn _
  obtain ⟨pba, hevent⟩ := (((s.resetLanes fn).foldl State.reinstate (s.setFunc fn ((s.func fn).counted r s.now))).modFunc fn
    Func.reinstated).func_setEvent fn 2
  rw [State.func_modFunc, hopen] at hevent
  exact ⟨pba, hevent⟩

/-- A function as its freeze ends. -/
def Func.frozenNow (f : Func) : Func := { f with state := .frozen, freezeCmd := .none }

section
variable {s : State} {fn : Nat} {r : ResetRun} (hfn : fnOk fn = true)
include hfn

theorem completes_instanceResetDone (hrun : (s.func fn).resetRun = some r) (hdone : r.squashDone = true) (hidle : s.resetBusy fn = false) :
    Completes (.instanceResetDone fn) s fun t => t = (s.resetOver fn r).resetWaiters fn r.waiting := by
  refine (completes_checked exec_instanceResetDone hfn).mono fun t ht => ht.trans ?_
  have hover : ¬((!r.squashDone || s.resetBusy fn) = true) := by simp [hdone, hidle]
  dsimp only
  split
  next r' hr' =>
    obtain rfl := Option.some.inj (hrun.symm.trans hr')
    exact (if_neg hover).trans rfl
  next hnone => exact nomatch hrun.symm.trans hnone

/-- Until its squash is done and its lanes are closed, a reset is not over. -/
theorem completes_instanceResetDone_nothing
    (h : (s.func fn).resetRun = .none ∨ (s.func fn).resetRun = some r ∧ (r.squashDone = false ∨ s.resetBusy fn = true)) :
    Completes (.instanceResetDone fn) s fun t => t = s := by
  refine (completes_checked exec_instanceResetDone hfn).mono fun t ht => ht.trans ?_
  dsimp only
  rcases h with hnone | ⟨hrun, hbusy⟩
  · rw [hnone]
  · rw [hrun]
    have hgoes : (!r.squashDone || s.resetBusy fn) = true := by rcases hbusy with h | h <;> simp [h]
    exact if_pos hgoes

/-! ## A freeze at rest (R338) -/

/-- Whether a function that freezes is at rest. -/
def State.freezeRests (s : State) (fn : Nat) : Prop := (s.func fn).state = .freezing ∧ s.colourAtRest (s.func fn).colour = true ∧
  (s.pcie.inFlight.any fun x => x.cmd.fn == fn) = false

theorem completes_freezeAtRest (hrests : s.freezeRests fn) : Completes (.freezeAtRest fn) s fun t =>
    (t.func fn).state = .frozen ∧ (t.func fn).freezeCmd = .none ∧ (t.func fn).event.getLsbD 3 = true := by
  obtain ⟨hstate, hrest, hnone⟩ := hrests
  have hgoes : ¬((s.func fn).state ≠ .freezing ∨ (!s.colourAtRest (s.func fn).colour) = true ∨
      (s.pcie.inFlight.any fun x => x.cmd.fn == fn) = true) := by simp [hstate, hrest, hnone]
  refine (completes_checked exec_freezeAtRest hfn).mono fun t ht => ?_
  have hend := ht.trans (if_neg hgoes)
  have hfollows : (((s.setFunc fn (s.func fn).frozenNow).setEvent fn 3).func fn).Follows (t.func fn) := by
    rw [hend]
    dsimp only
    cases (s.func fn).freezeCmd with
    | none => exact .refl _
    | some c => exact State.funcsFollow_finishLater _ _ _ _ _ _ fn
  obtain ⟨_, hset⟩ := (s.setFunc fn (s.func fn).frozenNow).func_setEvent fn 3
  rw [State.func_setFunc] at hset
  rw [hset] at hfollows
  exact ⟨congrArg Func.state hfollows.lasting, congrArg Func.freezeCmd hfollows.lasting,
    hfollows.events 3 (getLsbD_or_bit (by decide))⟩

theorem completes_freezeAtRest_nothing (hnot : ¬s.freezeRests fn) : Completes (.freezeAtRest fn) s fun t => t = s := by
  refine (completes_checked exec_freezeAtRest hfn).mono fun t ht => ht.trans (if_pos ?_)
  by_contra hno
  simp only [not_or, not_not, Bool.not_eq_true, Bool.not_eq_false'] at hno
  exact hnot hno

end

/-! ## Lanes that close (R99, R543) -/

section
variable {s : State} {l : Nat} (hl : laneOk l = true)
include hl

theorem completes_laneEmpty (hends : (s.lane l).state = .draining ∨ (s.lane l).state = .squashing) (hidle : s.laneBusy l = false) :
    Completes (.laneEmpty l) s fun t => t = s.closeLane l :=
  (completes_checked exec_laneEmpty hl).mono fun _ ht => ht.trans (if_pos ⟨hends, hidle⟩)

theorem completes_laneEmpty_nothing
    (h : (s.lane l).state ≠ .draining ∧ (s.lane l).state ≠ .squashing ∨ s.laneBusy l = true) :
    Completes (.laneEmpty l) s fun t => t = s := by
  refine (completes_checked exec_laneEmpty hl).mono fun t ht => ht.trans (if_neg ?_)
  rintro ⟨hends, hidle⟩
  rcases h with ⟨hdraining, hsquashing⟩ | hbusy
  · exact hends.elim hdraining hsquashing
  · exact Bool.false_ne_true (hidle.symm.trans hbusy)

end

/-- A lane closed for no cause that deletes or reopens it stays CLOSED. -/
theorem State.closeLane_closed {s : State} {l : Nat} (h : (s.lane l).cause ∉ [.deletion, .tamper, .class3]) :
    s.closeLane l = s.setLane l { s.lane l with state := .closed } := by
  unfold State.closeLane
  dsimp only
  split
  next hc => simp [hc] at h
  next hc => simp [hc] at h
  next hc => simp [hc] at h
  next => rfl

/-- A deleted lane returns to the free lanes. -/
theorem State.lanes_closeLane_deleted {s : State} {l : Nat} (h : (s.lane l).cause = .deletion) : (s.closeLane l).lanes = s.lanes.erase l := by
  have hclosed : s.closeLane l = ({ s with lanes := s.lanes.erase l } : State).tagDeleted (s.lane l).colour := by
    unfold State.closeLane
    dsimp only
    rw [h]
  rw [hclosed, (State.tagDeleted_kept _ (Kept.refl _ _) (List.Subset.refl _)).lanes_eq (by decide)]

/-- Settles O32: each register's write by its own equation of `writeReg`, each event by its lemma; VF Enable and NumVFs by what no reset
touches, a reset's counts by what no completion touches. -/
theorem functionEvents : Obligations.FunctionEvents := by
  unfold Obligations.FunctionEvents
  refine ⟨fun s fn off size v w x hfn => ?registers, fun s fn n l enable r hfn hn => ?events⟩
  case registers =>
    intro f n msix whole sets
    have hfour : whole → ∀ t, s.writeReg fn off n = t → Completes (.registerWrite fn off 4 w) s fun z => z = t :=
      fun ⟨hw, hok⟩ t ht => (completes_registerWrite_four hfn hw (mod_four_of_accessOk hok)).mono fun z hz => hz.trans ht
    refine ⟨completes_eventRw1c_event hfn, completes_eventRw1c_overrun hfn, completes_eventRw1c_discarded hfn,
      completes_registerWrite_discarded hfn, fun h hoff => hfour h _ ?cmdLow, fun h hoff => hfour h _ ?cmdHigh,
      fun h hoff => hfour h _ ?cplLow, fun h hoff => hfour h _ ?cplHigh, fun h hoff => hfour h _ ?irqCpl, fun h hoff => hfour h _ ?irqEvt,
      fun h hlo hhi => hfour h _ (s.writeReg_mbxReq fn n hlo hhi), fun h hlo hhi => hfour h _ (s.writeReg_mbxData fn n hlo hhi),
      fun h hlo hhi => ⟨fun hquiet => hfour h _ ?quiet, fun hpending hunmasked => hfour h _ ?sent⟩,
      fun h hreg hoff => hfour h _ (s.writeReg_reserved fn n hreg hoff), completes_registerWrite_eight hfn,
      completes_completionIrqDelay hfn, completes_completionIrqDelay_nothing hfn, completes_dmaFault_fetch hfn,
      completes_dmaFault_completionWrite hfn, completes_dmaFault_responseWrite hfn, completes_dmaFault_requestRead hfn,
      completes_dmaFault_requestRead hfn, completes_flr_linkDown hfn, completes_flr_registers hfn, completes_flr_instance hfn⟩
    case cmdLow => rw [hoff, State.writeReg_cmdBaseLow]; rfl
    case cmdHigh => rw [hoff, State.writeReg_cmdBaseHigh]; rfl
    case cplLow => rw [hoff, State.writeReg_cplBaseLow]; rfl
    case cplHigh => rw [hoff, State.writeReg_cplBaseHigh]; rfl
    case irqCpl => rw [hoff, State.writeReg_irqCpl]; rfl
    case irqEvt => rw [hoff, State.writeReg_irqEvt]; rfl
    case quiet =>
      refine (s.writeReg_msix fn n hlo hhi).trans (if_neg ?_)
      rintro ⟨hpending, hunmasked⟩
      rcases hquiet with hnone | hmasked
      · exact Bool.false_ne_true (hnone.symm.trans hpending)
      · exact Bool.false_ne_true (hunmasked.symm.trans hmasked)
    case sent => exact (s.writeReg_msix fn n hlo hhi).trans (if_pos ⟨hpending, hunmasked⟩)
  case events =>
    intro f up busy rests
    refine ⟨fun hdown c => completes_config_linkDown (decide_eq_true hn) hdown, completes_d3hotEntry, completes_d3hotExit, fun hup => ?enable,
      fun hup => ?clear, completes_instanceResetSquash hfn, completes_instanceResetSquash_nothing hfn, fun hrun hdone hidle => ?ended,
      completes_instanceResetDone_nothing hfn, completes_freezeAtRest hfn, completes_freezeAtRest_nothing hfn, fun hl => completes_laneEmpty hl,
      fun hl => completes_laneEmpty_nothing hl, State.closeLane_closed, State.lanes_closeLane_deleted⟩
    case enable =>
      refine (completes_vfEnableSet hup (decide_eq_true hn)).mono fun t ht => ?_
      obtain ⟨hset, hsame⟩ := ht
      exact ⟨congrArg Prod.fst hset, congrArg Prod.snd hset, hsame⟩
    case clear =>
      refine (completes_vfEnableClear hup (decide_eq_true hn) enable).mono fun t ht => ?_
      obtain ⟨hset, hsame⟩ := ht
      exact ⟨congrArg Prod.fst hset, congrArg Prod.snd hset, hsame⟩
    case ended =>
      refine (completes_instanceResetDone hfn hrun hdone hidle).mono fun t ht => ?_
      obtain ⟨pba, hover⟩ := s.func_resetOver fn r
      have hreported := State.reported_resetWaiters (s.resetOver fn r) fn fn r.waiting
      rw [← ht, hover] at hreported
      refine ⟨congrArg Func.rstSerial hreported, Func.resetRun_of_reported hreported rfl,
        congrArg Func.rstItemsDrained hreported, congrArg Func.rstItemsSquashed hreported, congrArg Func.rstCmdsDrained hreported,
        congrArg Func.rstCmdsSquashed hreported, congrArg Func.rstStreams hreported, congrArg Func.rstTime hreported, fun hnone => ?_⟩
      rw [ht, hnone]
      rw [show (s.resetOver fn r).resetWaiters fn [] = s.resetOver fn r from rfl, hover]
      exact ⟨rfl, getLsbD_or_bit (by decide)⟩

end Sys2Proof.Machine
end

section
/-! PROOFS. The referee, lockstep and failover (R385-R388, Table 12.8; log entry 47): what a claim, a lost lockstep, a grant and a self-test
leave of the Steward, and the fence lines put at every gate. -/

namespace Sys2Proof.Machine

/-! ## What faults leave of the Steward and the gates (R480) -/

section
variable (s : State) (cls : Nat) (kind : Byte) (src : BitVec 16) (detail : Word)

@[simp] theorem State.steward_fault : (s.fault cls kind src detail).steward = s.steward :=
  (State.fault_kept cls kind src detail (Kept.refl _ s) (List.Subset.refl _)).steward_eq (by decide)

@[simp] theorem State.gate_fault (g : Nat) : (s.fault cls kind src detail).gate g = s.gate g := by
  rw [State.gate, (State.fault_kept cls kind src detail (Kept.refl _ s) (List.Subset.refl _)).gates_eq (by decide), State.gate]

@[simp] theorem State.steward_rerunDone (ok : Bool) : (s.rerunDone src ok).steward = s.steward :=
  (State.rerunDone_kept src ok (Kept.refl _ s) (List.Subset.refl _)).steward_eq (by decide)

end

/-! ## Fence lines (R386) -/

section
variable (x : Gate) (south on : Bool)

/-- A fence line put reads as it was put. -/
@[simp] theorem Gate.fenced_setFence : (x.setFence south on).fenced south = on := by
  unfold Gate.setFence
  split
  · assumption
  · cases south <;> rfl

/-- A fence line that changes starts a drain. -/
theorem Gate.draining_setFence (h : x.fenced south ≠ on) : (x.setFence south on).draining = true := by
  rw [Gate.setFence, if_neg h]
  cases south <;> rfl

end

/-- Each of some gates changed once; every other gate as before. -/
theorem State.gate_foldl_setGate (f : Gate → Gate) (g : Nat) : ∀ (gs : List Nat) (s : State), gs.Nodup →
    (gs.foldl (fun s g => s.setGate g (f (s.gate g))) s).gate g = if g ∈ gs then f (s.gate g) else s.gate g
  | [], _, _ => rfl
  | j :: gs, s, h => by
    obtain ⟨hj, hgs⟩ := List.nodup_cons.mp h
    rw [List.foldl_cons, State.gate_foldl_setGate f g gs _ hgs]
    by_cases hjg : j = g
    · subst hjg
      simp [hj]
    · rw [State.gate_setGate_ne _ _ hjg]
      simp [Ne.symm hjg]

/-- A pair's fence lines are put at every gate of the part. -/
theorem State.gate_setFences (s : State) (south on : Bool) {g : Nat} (hg : g < 47) :
    (s.setFences south on).gate g = (s.gate g).setFence south on :=
  (State.gate_foldl_setGate (Gate.setFence · south on) g _ s List.nodup_range).trans (if_pos (List.mem_range.mpr hg))

@[simp] theorem State.steward_setFences (s : State) (south on : Bool) : (s.setFences south on).steward = s.steward :=
  (State.setFences_kept south on (Kept.refl _ s) (List.Subset.refl _)).steward_eq (by decide)

@[simp] theorem State.steward_modSteward (s : State) (f : Steward → Steward) : (s.modSteward f).steward = f s.steward := rfl

@[simp] theorem State.gate_modSteward (s : State) (f : Steward → Steward) (g : Nat) : (s.modSteward f).gate g = s.gate g := rfl

/-! ## The pairs -/

namespace Steward

variable (x : Steward) (south : Bool) (p : PairState)

@[simp] theorem pair_setPair : (x.setPair south p).pair south = p := by cases south <;> rfl

@[simp] theorem pair_setPair_other : (x.setPair south p).pair (!south) = x.pair (!south) := by cases south <;> rfl

variable {x}

theorem held_iff : x.held = true ↔ x.pair x.holderSouth = .holder := beq_iff_eq

/-! ## The decision on a step's claims (R387, Table 12.8) -/

/-- The claims that count: those that carry the epoch, of a pair that may claim. -/
def counted (x : Steward) (cs : List Claim) : List Claim := cs.filter fun k => k.epoch == x.epoch && x.mayClaim k.south

/-- Claims that carry another epoch decide nothing. -/
theorem judge_of_stale {cs : List Claim} (h : ∀ k ∈ cs, k.epoch ≠ x.epoch) : x.judge cs = x := by
  have hnone : (cs.filter fun k => k.epoch == x.epoch && x.mayClaim k.south) = [] :=
    List.filter_eq_nil_iff.mpr fun k hk => by simp [h k hk]
  simp [judge, hnone]

section
variable (hheld : x.held = true) (htake : x.takeover = .none)
include hheld htake

/-- Under a holder, a step's claims are a renewal, or else a takeover of a lapsed one. -/
theorem judge_of_held (cs : List Claim) : x.judge cs =
    if (x.counted cs).any fun k => k.renewal && k.south == x.holderSouth then { x with lapse := false }
    else if x.lapse ∧ (x.counted cs).any fun k => !k.renewal && k.south != x.holderSouth then { x with takeover := some (!x.holderSouth) }
    else x := by
  simp [judge, counted, hheld, htake]

/-- The holder's renewal clears the lapse flag. -/
theorem judge_renewal : x.judge [{ south := x.holderSouth, renewal := true, epoch := x.epoch }] = { x with lapse := false } := by
  have hmay : x.mayClaim x.holderSouth = true := by simp [mayClaim, held_iff.mp hheld]
  rw [judge_of_held hheld htake]
  simp [counted, hmay]

/-- A holder that has not lapsed stays, whatever is claimed. -/
theorem judge_of_not_lapsed (hlapse : x.lapse = false) (cs : List Claim) : x.judge cs = x := by
  rw [judge_of_held hheld htake, hlapse]
  split
  · rw [← hlapse]
  · rfl

/-- The standby's claim takes over from a holder that has lapsed. -/
theorem judge_takeover (hlapse : x.lapse = true) (hstandby : x.pair (!x.holderSouth) = .standby) :
    x.judge [{ south := !x.holderSouth, renewal := false, epoch := x.epoch }] = { x with takeover := some (!x.holderSouth) } := by
  have hmay : x.mayClaim (!x.holderSouth) = true := by simp [mayClaim, hstandby]
  rw [judge_of_held hheld htake]
  simp [counted, hmay, hlapse]

end

end Steward

section
variable {s : State} (cs : List Claim)

/-- An epoch that differs from its shadow is the grave fault, and no claim is decided (R385). -/
theorem State.refereeStep_of_not_shadow (h : s.steward.epochShadow ≠ ~~~s.steward.epoch) :
    s.refereeStep cs = s.fault 4 0x3A (srcHub 0x06) 0 := if_pos (bne_iff_ne.mpr h)

variable (hshadow : s.steward.epochShadow = ~~~s.steward.epoch)
include hshadow

/-- Fences aside, a step leaves the Steward as its claims are decided. -/
theorem State.steward_refereeStep : (s.refereeStep cs).steward = s.steward.judge cs := by
  rw [State.refereeStep, if_neg (by simp [hshadow])]
  dsimp only
  split
  · rw [State.steward_setFences, State.steward_modSteward]
  · rfl

/-- A takeover that is accepted fences the other pair at every gate. -/
theorem State.gate_refereeStep {south : Bool} (hbefore : s.steward.takeover = .none) (hafter : (s.steward.judge cs).takeover = some south)
    {g : Nat} (hg : g < 47) : ((s.refereeStep cs).gate g) = (s.gate g).setFence (!south) true := by
  rw [State.refereeStep, if_neg (by simp [hshadow])]
  simp only [State.steward_modSteward, hbefore, hafter]
  rw [State.gate_setFences _ _ _ hg, State.gate_modSteward]

end

/-! ## The referee's events -/

section
variable {s : State} {south : Bool}

theorem completes_refereeClaim (cs : List Claim) : Completes (.refereeClaim cs) s fun t => t = s.refereeStep cs :=
  ⟨_, exec_refereeClaim, rfl⟩

theorem completes_holderRenewal (hheld : s.steward.held = true) (hmatch : s.steward.mismatch = false) :
    Completes .holderRenewal s fun t =>
      t = s.refereeStep [{ south := s.steward.holderSouth, renewal := true, epoch := s.steward.epoch }] :=
  ⟨_, exec_holderRenewal, if_pos ⟨hheld, by simp [hmatch]⟩⟩

/-! ## Lockstep and self-tests (R388) -/

/-- A pair's failure beside a pair that has not failed is the one fault. -/
theorem State.pairFails_of_other (h : s.steward.pair (!south) ≠ .failed) (cause : Nat) :
    s.pairFails south cause = s.fault 2 0x17 (srcPair south) (BitVec.ofNat 64 cause) :=
  if_neg (by rwa [State.steward_fault])

/-- A pair that has failed stays so when its failure is reported. -/
theorem State.pair_pairFails (h : s.steward.pair south = .failed) (cause : Nat) : (s.pairFails south cause).steward.pair south = .failed := by
  rw [State.pairFails]
  split
  · simp
  · rwa [State.steward_fault]

theorem completes_lockstepMismatch (hheld : s.steward.held = true) (hmatch : s.steward.mismatch = false)
    (hother : s.steward.pair (!s.steward.holderSouth) ≠ .failed) :
    Completes .lockstepMismatch s fun t =>
      t.steward.lapse = true ∧ t.steward.mismatch = true ∧ t.faults.seq = s.faults.seq + 1 := by
  refine ⟨_, exec_lockstepMismatch, ?_⟩
  rw [if_pos ⟨hheld, hmatch⟩]
  have hfails : (s.modSteward fun x => { x with lapse := true, mismatch := true }).steward.pair (!s.steward.holderSouth) ≠ .failed := hother
  rw [State.pairFails_of_other hfails]
  dsimp only
  rw [State.steward_fault, State.seq_fault _ _ _ _ (by decide)]
  exact ⟨rfl, rfl, rfl⟩

section
variable (htest : s.steward.pair south = .selfTest)
include htest

theorem completes_stewardSelftestDone_passed : Completes (.stewardSelftestDone south true) s fun t =>
    t = (s.modSteward fun x => x.setPair south .standby).rerunDone (srcPair south) true ∧ t.steward.pair south = .standby := by
  refine ⟨_, exec_stewardSelftestDone, ?_⟩
  rw [if_neg (not_not.mpr htest), if_pos rfl]
  exact ⟨rfl, by simp⟩

theorem completes_stewardSelftestDone_failed : Completes (.stewardSelftestDone south false) s fun t => t.steward.pair south = .failed := by
  refine ⟨_, exec_stewardSelftestDone, ?_⟩
  rw [if_neg (not_not.mpr htest), if_neg Bool.false_ne_true]
  dsimp only
  rw [State.steward_rerunDone]
  exact State.pair_pairFails (by simp) 2

end

/-! ## The grant (R386, R388) -/

/-- The grant opens the new holder's fence lines. -/
theorem State.fenced_grantToken (s : State) (south : Bool) {g : Nat} (hg : g < 47) : ((s.grantToken south).gate g).fenced south = false := by
  rw [State.grantToken, State.gate_modSteward, State.gate_setFences _ _ _ hg, Gate.fenced_setFence]

/-- The grant makes the pair the running holder of the next epoch, sound under its shadow and not lapsed. -/
theorem State.steward_grantToken (s : State) (south : Bool) : let x := (s.grantToken south).steward
    x.epoch = s.steward.epoch + 1 ∧ x.epochShadow = ~~~x.epoch ∧ x.holderSouth = south ∧ x.held = true ∧ x.lapse = false ∧
      x.takeover = .none := by
  unfold State.grantToken
  rw [State.steward_modSteward, State.steward_setFences]
  refine ⟨?_, ?_, rfl, ?_, rfl, rfl⟩ <;> cases south <;> dsimp only <;> split <;> rfl

variable (htake : s.steward.takeover = some south)
include htake

theorem completes_failoverGrant_draining (hdrain : (s.gates.any fun g => g.2.draining) = true) :
    Completes .failoverGrant s fun t => t = s := by
  refine ⟨_, exec_failoverGrant, ?_⟩
  rw [htake]
  exact if_pos hdrain

variable (hdrained : (s.gates.any fun g => g.2.draining) = false)
include hdrained

/-- With no holder that runs, there is no work to take over. -/
theorem completes_failoverGrant_unheld (hheld : s.steward.held = false) :
    Completes .failoverGrant s fun t => t = s.grantToken south := by
  refine ⟨_, exec_failoverGrant, ?_⟩
  rw [htake]
  exact (if_neg (ne_true_of_eq_false hdrained)).trans (if_neg (by simp [hheld]))

/-- From a holder that lost its lockstep, whose failure stands reported, the new one takes its work over. -/
theorem completes_failoverGrant_takeOver (hheld : s.steward.held = true) (hsouth : south ≠ s.steward.holderSouth)
    (hmismatch : s.steward.mismatch = true) :
    Completes .failoverGrant s fun t => t = ((s.grantToken south).modSteward fun x => { x with verifying := true }).takeOver := by
  refine ⟨_, exec_failoverGrant, ?_⟩
  rw [htake]
  dsimp only
  rw [if_neg (ne_true_of_eq_false hdrained), if_pos ⟨hheld, bne_iff_ne.mpr hsouth⟩, if_pos hmismatch]

end

/-- Settles O54: the claims by how they are decided, a takeover and a grant by the fence lines they put, the failure of a pair by what its
report leaves of the Steward. -/
theorem refereeAndFailover : Obligations.RefereeAndFailover := by
  unfold Obligations.RefereeAndFailover
  refine fun s south cs => ⟨fun hheld hmatch hshadow htake => ?renewal, ⟨_, exec_claimLapse, rfl⟩, fun hshadow => ?shadow,
    fun hshadow hheld hlapse htake => ?unlapsed, fun hshadow hheld hlapse htake hstandby => ?takeover, fun e he hshadow => ?stale,
    fun hheld hmatch hother _ => completes_lockstepMismatch hheld hmatch hother, fun htake hdrained hheld => ?granted,
    completes_failoverGrant_draining, completes_failoverGrant_takeOver, completes_stewardSelftestDone_passed,
    completes_stewardSelftestDone_failed⟩
  case renewal =>
    refine (completes_holderRenewal hheld hmatch).mono fun t ht => ?_
    rw [ht, State.steward_refereeStep _ hshadow, Steward.judge_renewal hheld htake]
  case shadow =>
    exact (completes_refereeClaim cs).mono fun t ht => ht.trans (State.refereeStep_of_not_shadow cs hshadow)
  case unlapsed =>
    refine (completes_refereeClaim cs).mono fun t ht => ?_
    rw [ht, State.steward_refereeStep _ hshadow, Steward.judge_of_not_lapsed hheld htake hlapse]
  case takeover =>
    have hjudge := Steward.judge_takeover hheld htake hlapse hstandby
    refine (completes_refereeClaim _).mono fun t ht => ?_
    rw [ht]
    refine ⟨(State.steward_refereeStep _ hshadow).trans hjudge, fun g hg => ?_⟩
    rw [State.gate_refereeStep _ hshadow htake (congrArg Steward.takeover hjudge) hg, Bool.not_not]
    exact ⟨Gate.fenced_setFence .., fun h => Gate.draining_setFence _ _ _ (by simp [h])⟩
  case stale =>
    refine (completes_refereeClaim _).mono fun t ht => ?_
    rw [ht, State.steward_refereeStep _ hshadow, Steward.judge_of_stale (by simpa using he)]
  case granted =>
    refine (completes_failoverGrant_unheld htake hdrained hheld).mono fun t ht => ?_
    rw [ht]
    obtain ⟨hepoch, hshadow, hsouth, hholder, hlapse, hnone⟩ := s.steward_grantToken south
    exact ⟨hepoch, hshadow, hsouth, hholder, hlapse, hnone, fun g hg => s.fenced_grantToken south hg⟩

end Sys2Proof.Machine
end

section
/-! PROOFS. Changes of a gate's rules and their drain (R369-R371), the access of a fenced pair (R386), holds (R382, R383) and the copies of a
colour's stored bytes (R379). -/

namespace Sys2Proof.Machine

/-! ## Gates (R369-R371) -/

/-- A flip puts the rules into the bank that was inactive, leaves the other and makes theirs the one in force. -/
theorem Gate.banks_flip (x : Gate) (rules : List Region) : let y := x.flip rules
    y.draining = true ∧ y.epoch = (!x.epoch) ∧ (if y.epoch then y.bankB else y.bankA) = rules ∧
      (if y.epoch then y.bankA = x.bankA else y.bankB = x.bankB) := by
  unfold Gate.flip
  refine ⟨rfl, rfl, ?_, ?_⟩ <;> cases x.epoch <;> rfl

/-- The end of a command leaves the gates. -/
@[simp] theorem State.gate_foldl_endLater (cs : List (Nat × Cmd)) (s : State) (g : Nat) :
    (cs.foldl (fun s q => s.endLater q.2 cOk) s).gate g = s.gate g := by
  have hgates := State.foldl_keeps State.gates
    (fun (t : State) (q : Nat × Cmd) => (State.endLater_kept q.2 cOk (Kept.refl _ t) (List.Subset.refl _)).gates_eq (by decide)) cs s
  rw [State.gate, hgates, State.gate]

section
variable {s : State} {g : Nat} (hg : gateOk g = true)
include hg

theorem completes_gateEpochFlip (hdrain : (s.gate g).draining = false) (rules : List Region) :
    Completes (.gateEpochFlip g rules) s fun t =>
      t = s.setGate g ((s.gate g).flip (rules.map fun r => { r with enableShadow := !r.enable })) :=
  (completes_checked exec_gateEpochFlip hg).mono fun _ ht => ht.trans (if_neg (ne_true_of_eq_false hdrain))

theorem completes_gateEpochFlip_draining (hdrain : (s.gate g).draining = true) (rules : List Region) :
    Completes (.gateEpochFlip g rules) s fun t => t = s :=
  (completes_checked exec_gateEpochFlip hg).mono fun _ ht => ht.trans (if_pos hdrain)

theorem completes_gateDrainOverdue (hdrain : (s.gate g).draining = true) :
    Completes (.gateDrainOverdue g) s fun t => t = s.fault 2 0x36 (gateSrc g) 0 :=
  (completes_checked exec_gateDrainOverdue hg).mono fun _ ht => ht.trans (if_pos hdrain)

theorem completes_gateDrainOverdue_drained (hdrain : (s.gate g).draining = false) :
    Completes (.gateDrainOverdue g) s fun t => t = s :=
  (completes_checked exec_gateDrainOverdue hg).mono fun _ ht => ht.trans (if_neg (ne_true_of_eq_false hdrain))

end

/-! ## The access of a fenced pair (R366-R368, R386) -/

theorem srcPair_beq (south : Bool) : (srcPair south == srcPair true) = south := by cases south <;> decide

theorem eq_srcPair (south : Bool) : srcPair south = srcPair false ∨ south = true := by cases south <;> decide

/-- GATE_FENCED of a pair comes by way of the gate the detail names, where that gate fences the access off. -/
theorem completes_faultArrival_fenced (s : State) (south : Bool) (d : Word) :
    Completes (.faultArrival 0 0x35 (srcPair south) d) s fun t =>
      let h := d.toNat / 2 ^ 40 % 2 ^ 9
      t = if h < 47 ∧ s.fencedOff h (fencedAccess south d) then (s.stewardReach h (fencedAccess south d)).1 else s := by
  have hsent : ¬((!(kindClasses 0x35).contains 0 || !srcListed (srcPair south)) = true) := by cases south <;> decide
  refine ⟨_, exec_faultArrival, ?_⟩
  refine (if_neg hsent).trans ((if_pos rfl).trans ?_)
  simp only [State.fencedReport, srcPair_beq, eq_srcPair, true_and]

/-- An unlatched gate refuses a fenced pair's access with the class 0 fault, latches it and counts it. -/
theorem State.gateRefuse_fenced {s : State} {g : Nat} (hlatch : (s.gate g).latched = .none) (a : Access) (last : Bool) (src : BitVec 16) :
    let t := s.gateRefuse g a 0x35 last src
    t.faults.seq = s.faults.seq + 1 ∧ (t.gate g).latched = some (0x35, src, s.now) ∧ (t.gate g).refusals = (s.gate g).refusals + 1 := by
  simp [State.gateRefuse, hlatch]

/-- A fenced pair past its verification meets a sound gate's fence. -/
theorem State.stewardReach_fenced {s : State} {g : Nat} {a : Access} (hfenced : s.fencedOff g a = true) (hverified : s.steward.verifying = false)
    (hsound : (s.gate g).sound = true) : (s.stewardReach g a).1 = s.gateRefuse g a 0x35 false (srcPair (a.pair.getD false)) := by
  simp [State.stewardReach, State.stewardPasses, hverified, State.useGate, hsound, State.gateCheck, hfenced]

/-! ## Holds (R382, R383) -/

/-- With no request deferred, a release takes the hold off and no more. -/
theorem State.releaseHold_of_not_deferred {s : State} (h : s.steward.deferred = []) (src : BitVec 16) :
    s.releaseHold src = s.modSteward fun x => { x with holds := eraseFirst (· == src) x.holds } := by
  simp [State.releaseHold, State.modSteward, h]

/-! ## The copies of a colour's stored bytes (R379) -/

/-- Bytes put where a cluster's store carries a colour's share, the shares of a size. -/
def State.mirrorShare (colour : Colour) (size : Nat) (data : Bytes) (s : State) (c : Nat) : State :=
  match (s.cluster c).shares.findIdx? (· == colour) with
  | some i => s.store (storeBase c + 0xC0000 + i * size) data
  | .none => s

theorem completes_shareStorePropagated {s : State} {colour : Colour} {p : Part} (h : s.part? colour = some p) :
    Completes (.shareStorePropagated colour) s fun t =>
      t = (List.range 36).foldl (State.mirrorShare colour (shareSize s.tenancy.profile)
        (s.load (dramBase + granuleAddr (p.granules.getD 0 0)) (shareLen s.tenancy.profile p))) s := by
  refine ⟨_, exec_shareStorePropagated, ?_⟩
  rw [h]
  rfl

/-- The shares a cluster store has room for fill 192 KiB of it. -/
theorem shareSlots_mul_shareSize (pr : Profile) : shareSlots pr * shareSize pr = 0x30000 := by cases pr <;> rfl

/-- Where a colour's share lies, the bytes of one share end with the shares' 192 KiB. -/
theorem shareOff_le {pr : Profile} {l : List Colour} {colour : Colour} {i n : Nat} (hl : l.length ≤ shareSlots pr)
    (hi : l.findIdx? (· == colour) = some i) (hn : n ≤ shareSize pr) : i * shareSize pr + n ≤ 0x30000 := by
  obtain ⟨hlt, -⟩ := List.findIdx?_eq_some_iff_getElem.mp hi
  calc i * shareSize pr + n ≤ (i + 1) * shareSize pr := by rw [Nat.add_one_mul]; omega
    _ ≤ shareSlots pr * shareSize pr := Nat.mul_le_mul_right _ (by omega)
    _ = 0x30000 := shareSlots_mul_shareSize pr

section
variable {colour : Colour} {pr : Profile} {data : Bytes} (hdata : data.length ≤ shareSize pr)

/-- A mirrored copy changes no record and keeps the memory canonical. -/
theorem State.mirrorShare_kept (s : State) (size c : Nat) : Kept [.mem] s (s.mirrorShare colour size data c) := by
  unfold State.mirrorShare
  split
  · exact State.store_kept _ _ (Kept.refl _ s) (List.Subset.refl _)
  · exact Kept.refl _ s

include hdata

/-- A copy mirrored into a cluster's store: its bytes lie in this store's share, and another store's share reads as before. -/
theorem State.read_mirrorShare {s : State} {c d i k : Nat} (hwf : s.mem.wf)
    (hlen : ∀ c, c < 36 → (s.cluster c).shares.length ≤ shareSlots pr) (hc : c < 36) (hd : d < 36)
    (hi : (s.cluster c).shares.findIdx? (· == colour) = some i) (hk : k < data.length) :
    (s.mirrorShare colour (shareSize pr) data d).mem.read (storeBase c + 0xC0000 + i * shareSize pr + k) =
      if d = c then data.getD k 0 else s.mem.read (storeBase c + 0xC0000 + i * shareSize pr + k) := by
  have hfits := shareOff_le (hlen c hc) hi hdata
  unfold State.mirrorShare
  split
  next j hj =>
    have hfitsd := shareOff_le (hlen d hd) hj hdata
    rw [State.store, Memory.read_writeBytes _ _ _ _ hwf]
    by_cases hdc : d = c
    · subst hdc
      obtain rfl : j = i := Option.some.inj (hj.symm.trans hi)
      rw [if_pos rfl, if_pos (by omega), Nat.add_sub_cancel_left]
    · rw [if_neg hdc, if_neg]
      simp only [storeBase]
      omega
  next hnone =>
    have hdc : d ≠ c := by
      rintro rfl
      exact Option.some_ne_none i (hi.symm.trans hnone)
    rw [if_neg hdc]

/-- Mirrored into some stores, the bytes lie in each of them that carries the colour's share. -/
theorem State.read_foldl_mirrorShare {c i k : Nat} (hc : c < 36) (hk : k < data.length) : ∀ (cs : List Nat) (s : State), s.mem.wf →
    (∀ c, c < 36 → (s.cluster c).shares.length ≤ shareSlots pr) → (∀ d ∈ cs, d < 36) →
    (s.cluster c).shares.findIdx? (· == colour) = some i →
    (cs.foldl (State.mirrorShare colour (shareSize pr) data) s).mem.read (storeBase c + 0xC0000 + i * shareSize pr + k) =
      if c ∈ cs then data.getD k 0 else s.mem.read (storeBase c + 0xC0000 + i * shareSize pr + k)
  | [], _, _, _, _, _ => rfl
  | d :: cs, s, hwf, hlen, hcs, hi => by
    have hkept := s.mirrorShare_kept (colour := colour) (data := data) (shareSize pr) d
    have hsame : ∀ c, (s.mirrorShare colour (shareSize pr) data d).cluster c = s.cluster c := fun c => by
      rw [State.cluster, hkept.clusters_eq (by decide), State.cluster]
    rw [List.foldl_cons, State.read_foldl_mirrorShare hc hk cs _ (hkept.wf hwf) (by simpa only [hsame] using hlen)
      (fun e he => hcs e (List.mem_cons_of_mem _ he)) (by rw [hsame, hi]),
      State.read_mirrorShare hdata hwf hlen hc (hcs d List.mem_cons_self) hi hk]
    by_cases hcd : d = c
    · simp [hcd]
    · simp [hcd, Ne.symm hcd]

end

/-- A byte of a load is the byte that lies there. -/
theorem State.getD_load (s : State) (a : Nat) {n k : Nat} (hk : k < n) : (s.load a n).getD k 0 = s.mem.read (a + k) := by
  simp [State.load, Memory.readBytes, hk]

/-- Settles O55: a flip by what it does to the banks, a fenced access by the refusal at its gate, a release by what it leaves of the holds,
the mirrored bytes by the stores lying apart. -/
theorem gateAndHoldEvents : Obligations.GateAndHoldEvents := by
  unfold Obligations.GateAndHoldEvents
  intro s g rs src colour p d south h
  refine ⟨fun hg hdrain => ?flip, fun hg hdrain => completes_gateEpochFlip_draining hg hdrain rs, fun hg => ?drained,
    fun hh hfenced hverified hsound hlatch => ?refused, fun _ hopen => ?passed, fun hg hdrain _ => ?overdue,
    fun hg hdrain => completes_gateDrainOverdue_drained hg hdrain, fun hheld => ?held, fun hheld hnone => ?released,
    fun hfree => ⟨_, exec_holdRelease, if_neg (ne_true_of_eq_false hfree)⟩, fun hpart hwf hlen => ?mirrored⟩
  case flip =>
    refine (completes_gateEpochFlip hg hdrain rs).mono fun t ht => ?_
    obtain ⟨hdraining, hepoch, hnew, hold⟩ := (s.gate g).banks_flip (rs.map fun r => { r with enableShadow := !r.enable })
    rw [ht, State.gate_setGate]
    exact ⟨hdraining, hepoch, hnew, hold, fun j hj => State.gate_setGate_ne _ _ (Ne.symm hj)⟩
  case drained =>
    refine (completes_checked exec_gateDrainDone hg).mono fun t ht => ⟨?_, ht⟩
    rw [ht, State.gate_foldl_endLater, State.gate_modSteward, State.gate_setGate]
  case refused =>
    refine (completes_faultArrival_fenced s south d).mono fun t ht => ?_
    rw [ht, if_pos ⟨hh, hfenced⟩, State.stewardReach_fenced hfenced hverified hsound]
    exact State.gateRefuse_fenced hlatch _ _ _
  case passed =>
    exact (completes_faultArrival_fenced s south d).mono fun t ht => ht.trans (if_neg fun hfenced => ne_true_of_eq_false hopen hfenced.2)
  case overdue =>
    refine (completes_gateDrainOverdue hg hdrain).mono fun t ht => ?_
    rw [ht]
    exact ⟨State.seq_fault _ _ _ _ (by decide), State.gate_fault ..⟩
  case held =>
    refine ⟨_, exec_innerHoldOverdue, ?_⟩
    rw [if_pos hheld]
    exact ⟨rfl, by rw [State.steward_fault]⟩
  case released =>
    refine ⟨_, exec_holdRelease, ?_⟩
    rw [if_pos hheld, State.releaseHold_of_not_deferred hnone]
    rfl
  case mirrored =>
    refine (completes_shareStorePropagated hpart).mono fun t ht c i hc hi k hk => ?_
    have hlength : (s.load (dramBase + granuleAddr (p.granules.getD 0 0)) (shareLen s.tenancy.profile p)).length =
        shareLen s.tenancy.profile p := by simp [State.load, Memory.readBytes]
    have hfits : shareLen s.tenancy.profile p ≤ shareSize s.tenancy.profile := Nat.min_le_left ..
    rw [ht, State.read_foldl_mirrorShare (hlength.trans_le hfits) hc (hk.trans_eq hlength.symm) _ s hwf hlen
      (fun _ => List.mem_range.mp) hi, if_pos (List.mem_range.mpr hc), State.getD_load _ _ hk]

end Sys2Proof.Machine
end

section
/-! PROOFS. The end of a cluster (R384, R512, R513), the steps of an engagement and its packages (R146, R514-R517; log entry 33), wear and
self-tests (R511, R512, Table 18.5). -/

namespace Sys2Proof.Machine

/-! ## Source identifiers (R473) -/

/-- A unit's source identifier names the unit. -/
theorem clusterOfSrc_srcCluster {c u : Nat} (hc : c < 36) (hu : u < 256) : clusterOfSrc (srcCluster c u) = some (c, u) := by
  have hval : (srcCluster c u).toNat = c / 9 * 8192 + c % 9 * 256 + u := by
    rw [srcCluster, BitVec.toNat_ofNat]
    omega
  unfold clusterOfSrc
  rw [hval]
  dsimp only
  rw [if_pos (by omega)]
  exact congrArg some (Prod.ext (by dsimp only; omega) (by dsimp only; omega))

theorem clusterOfSrc_srcWhole {c : Nat} (hc : clusterOk c = true) : clusterOfSrc (srcWhole c) = some (c, 0xFF) :=
  clusterOfSrc_srcCluster (of_decide_eq_true hc) (by decide)

/-! ## A cluster changed -/

@[simp] theorem State.cluster_modCluster (s : State) (c : Nat) (f : Cluster → Cluster) : (s.modCluster c f).cluster c = f (s.cluster c) :=
  State.cluster_setCluster ..

theorem State.cluster_modCluster_ne (s : State) {c d : Nat} (f : Cluster → Cluster) (h : c ≠ d) :
    (s.modCluster c f).cluster d = s.cluster d := State.cluster_setCluster_ne _ _ h

/-- The end of a cluster's work lifts no hold. -/
@[simp] theorem State.clusterHeld_endCluster (s : State) (c : Nat) : (s.endCluster c).clusterHeld c = s.clusterHeld c := by
  rw [State.clusterHeld, (State.endCluster_kept c (Kept.refl _ s) (List.Subset.refl _)).steward_eq (by decide), State.clusterHeld]

section
variable {s : State} {c : Nat} (hc : clusterOk c = true)
include hc

/-! ## Forced stop (R384) -/

theorem completes_forcedStop (hpower : (s.cluster c).power = .awake ∨ (s.cluster c).power = .waking) :
    Completes (.forcedStop c) s fun t => t = (if s.clusterHeld c then (s.endCluster c).fault 2 0x38 (srcWhole c) 0 else s.endCluster c).modCluster c
      fun x => { x with power := .asleep } := by
  refine (completes_checked exec_forcedStop hc).mono fun t ht => ht.trans ?_
  simp only [if_pos hpower, State.clusterHeld_endCluster]

theorem completes_forcedStop_stopped (hpower : (s.cluster c).power = .asleep ∨ (s.cluster c).power = .off) :
    Completes (.forcedStop c) s fun t => t = s := by
  refine (completes_checked exec_forcedStop hc).mono fun t ht => ht.trans (if_neg ?_)
  rcases hpower with h | h <;> simp [h]

/-! ## Quiesce (R514, R517) -/

/-- At the end of its quiesce a failing cluster is packed for its reserve; with no reserve left its work ends. -/
theorem completes_quiesceDone {e : Engagement} {es : List Engagement} (hhead : s.power.engagements = e :: es) (hfailing : e.failing = c)
    (hnew : e.quiesced = false) (hstate : (s.cluster c).state = .failing) (hrest : s.atRest c = true) :
    Completes (.quiesceDone c) s fun t =>
      t = if e.reserve = 36 then (((s.endCluster c).releaseHold (srcWhole c)).dropEngagement.fault 4 0x12 (srcWhole c) 0).startEngagement
        else (s.modEngagement fun e => { e with quiesced := true }).packAll c e.reserve := by
  refine (completes_checked exec_quiesceDone hc).mono fun t ht => ht.trans ?_
  rw [hhead]
  exact if_pos ⟨hfailing, hnew, hstate, hrest⟩

theorem completes_quiesceDone_busy (hbusy : s.atRest c = false) : Completes (.quiesceDone c) s fun t => t = s := by
  refine (completes_checked exec_quiesceDone hc).mono fun t ht => ht.trans ?_
  split
  · exact if_neg fun ⟨_, _, _, hrest⟩ => ne_true_of_eq_false hbusy hrest
  · rfl

/-! ## Arrival of a package (R146, R516) -/

theorem completes_wrappedMoveArrival {g : Package} {mv : BitVec 32} (hfind : (s.depot.packages.find? fun g => g.move == mv && g.target == c) = some g) (ok : Bool) :
    Completes (.wrappedMoveArrival c mv ok) s fun t =>
      t = if ok ∧ (s.cluster c).transferKey.isSome then (s.dropPackage g).moveLands g else (s.dropPackage g).moveFails g := by
  refine (completes_checked exec_wrappedMoveArrival hc).mono fun t ht => ht.trans ?_
  rw [hfind]
  rfl

theorem completes_wrappedMoveArrival_unknown {mv : BitVec 32} (hnone : (s.depot.packages.find? fun g => g.move == mv && g.target == c) = .none) (ok : Bool) :
    Completes (.wrappedMoveArrival c mv ok) s fun t => t = s := by
  refine (completes_checked exec_wrappedMoveArrival hc).mono fun t ht => ht.trans ?_
  rw [hnone]

end

/-! ## What an MAE that takes a job leaves of the clusters (R166, R175) -/

/-- Every cluster is as it was but for its MAE. -/
def State.MaeOnly (s t : State) : Prop := ∀ d, ∃ m, t.cluster d = { s.cluster d with mae := m }

section
variable {s t z : State}

theorem State.MaeOnly.of_clusters (h : t.clusters = s.clusters) : s.MaeOnly t := fun d =>
  ⟨(s.cluster d).mae, by rw [State.cluster, h, State.cluster]⟩

theorem State.MaeOnly.trans (h : s.MaeOnly t) (k : t.MaeOnly z) : s.MaeOnly z := fun d => by
  obtain ⟨m, hm⟩ := h d
  obtain ⟨n, hn⟩ := k d
  exact ⟨n, by rw [hn, hm]⟩

/-! What such a change leaves of a cluster. -/

theorem State.MaeOnly.state (h : s.MaeOnly t) (d : Nat) : (t.cluster d).state = (s.cluster d).state := by obtain ⟨m, hm⟩ := h d; rw [hm]
theorem State.MaeOnly.power (h : s.MaeOnly t) (d : Nat) : (t.cluster d).power = (s.cluster d).power := by obtain ⟨m, hm⟩ := h d; rw [hm]
theorem State.MaeOnly.confined (h : s.MaeOnly t) (d : Nat) : (t.cluster d).confined = (s.cluster d).confined := by obtain ⟨m, hm⟩ := h d; rw [hm]
theorem State.MaeOnly.shares (h : s.MaeOnly t) (d : Nat) : (t.cluster d).shares = (s.cluster d).shares := by obtain ⟨m, hm⟩ := h d; rw [hm]

theorem State.maeOnly_modCluster (s : State) (c : Nat) (f : Cluster → Mae) : s.MaeOnly (s.modCluster c fun x => { x with mae := f x }) :=
  fun d => by
    by_cases hcd : c = d
    · subst hcd
      exact ⟨_, State.cluster_modCluster ..⟩
    · exact ⟨_, State.cluster_modCluster_ne _ _ hcd⟩

theorem State.maeOnly_startMae (s : State) (c : Nat) (j : MaeJob) : s.MaeOnly (s.startMae c j) := by
  unfold State.startMae
  dsimp only
  split
  · exact s.maeOnly_modCluster c _
  · split
    · exact s.maeOnly_modCluster c _
    · exact State.maeOnly_modCluster { s with keys := { s.keys with useClock := s.keys.useClock + 1 } } c _

theorem State.maeOnly_takeJob (s : State) (n : Nat) (i : Item) (c : Nat) : s.MaeOnly (s.takeJob n i c) := by
  have hleaves : (s.leaves n i c).clusters = s.clusters :=
    (State.leaves_kept n i c (Kept.refl _ s) (List.Subset.refl _)).clusters_eq (by decide)
  have hdispatched : ((s.leaves n i c).dispatched i.desc (srcCluster c 0x10)).clusters = s.clusters := hleaves
  exact (State.MaeOnly.of_clusters hdispatched).trans (State.maeOnly_startMae _ c _)

theorem State.maeOnly_nextJob {c level : Nat} (h : s.nextJob c level = some t) : s.MaeOnly t := by
  have hwaiting : ((s.waitingJob c level).map fun p => s.takeJob p.1 p.2 c) = some t → s.MaeOnly t := by
    intro hw
    obtain ⟨p, -, rfl⟩ := Option.map_eq_some_iff.mp hw
    exact s.maeOnly_takeJob p.1 p.2 c
  rw [State.nextJob] at h
  split at h
  · exact absurd h.symm (Option.some_ne_none t)
  · cases hown : s.depot.own with
    | nil => exact hwaiting (by rwa [hown] at h)
    | cons j r =>
      rw [hown] at h
      dsimp only at h
      split at h
      · obtain rfl := Option.some.inj h
        exact State.maeOnly_startMae { s with depot := { s.depot with own := r } } c j
      · exact hwaiting h

/-- An MAE that has become idle takes a job or resumes one, and no cluster changes but in its MAE. -/
theorem State.maeOnly_maeResume (s : State) (c : Nat) : s.MaeOnly (s.maeResume c) := by
  unfold State.maeResume
  dsimp only
  split
  · exact State.MaeOnly.of_clusters rfl
  · split
    next j _ =>
      cases hnext : s.nextJob c (s.jobLevel j.desc) with
      | none => exact s.maeOnly_modCluster c fun x => { x.mae with running := some j, saved := eraseFirst (fun y => y == j) x.mae.saved }
      | some t => exact State.maeOnly_nextJob hnext
    · exact State.MaeOnly.of_clusters rfl

end

/-! ## The end of an engagement (R514 steps 5, 6) -/

/-- A reserve has taken the place of the failing cluster: in every placement set, in service, its engagement over. -/
def State.exchanged (s : State) (failing c : Nat) : State :=
  let s := (s.lanes.map Prod.fst).foldl (fun s l => s.replaceIn failing c l) s
  let s := (s.endCluster failing).modCluster failing fun x => { x with state := .retired, power := .off, shares := [] }
  (s.modCluster c fun x => { x with state := .inService, confined := false }).dropEngagement

/-- The TEs and the MAE of a cluster run what waits there. -/
def State.runWaiting (s : State) (c : Nat) : State := ((List.range 16).foldl (fun s t => s.startTe c t) s).maeResume c

/-- What follows the exchange: both holds end, the reserve's TEs and MAE run what has arrived, the report and the answer leave, the next
engagement starts. -/
def State.takesUp (s : State) (e : Engagement) (c : Nat) : State :=
  let s := (s.releaseHold (srcWhole e.failing)).releaseHold (srcWhole c)
  let s := s.runWaiting c
  let s := s.fault 0 0x11 (srcWhole c) (BitVec.ofNat 64 (addrByte e.failing * 256 + addrByte c))
  (s.engageDone e cOk ([BitVec.ofNat 8 (addrByte c)] ++ List.replicate 7 0)).startEngagement

theorem completes_reserveEngaged {s : State} {c : Nat} {e : Engagement} {es : List Engagement} (hc : clusterOk c = true)
    (hhead : s.power.engagements = e :: es) (hreserve : e.reserve = c) (hquiesced : e.quiesced = true) (hpower : (s.cluster c).power = .awake)
    (htested : s.unitHeld (srcCluster c 0x13) = false) (harrived : (s.depot.packages.any fun g => g.target == c) = false) :
    Completes (.reserveEngaged c) s fun t => t = (s.exchanged e.failing c).takesUp e c := by
  refine (completes_checked exec_reserveEngaged hc).mono fun t ht => ht.trans ?_
  rw [hhead]
  exact if_pos ⟨hreserve, hquiesced, hpower, htested, by rw [harrived]; rfl⟩

@[simp] theorem State.steward_dropEngagement (s : State) : s.dropEngagement.steward = s.steward := rfl
@[simp] theorem State.cluster_dropEngagement (s : State) (d : Nat) : s.dropEngagement.cluster d = s.cluster d := rfl
@[simp] theorem State.engagements_dropEngagement (s : State) : s.dropEngagement.power.engagements = s.power.engagements.drop 1 := rfl

section
variable (s : State) (failing c : Nat)

/-- The exchange leaves the Steward, and drops the engagement at the head. -/
theorem State.exchanged_keeps : (s.exchanged failing c).steward = s.steward ∧
    (s.exchanged failing c).power.engagements = s.power.engagements.drop 1 := by
  have hreplaced := Kept.foldl (f := fun s l => State.replaceIn s failing c l) (W := [.mem, .clusters, .lanes])
    (fun t l => State.replaceIn_kept failing c l (Kept.refl _ t) (List.Subset.refl _)) (s.lanes.map Prod.fst) s (Kept.refl _ s)
  have hended := State.endCluster_kept failing (hreplaced.mono (by decide)) (List.Subset.refl _)
  have hkept := State.modCluster_kept c (fun x => { x with state := .inService, confined := false }) (State.modCluster_kept failing
    (fun x => { x with state := .retired, power := .off, shares := [] }) hended (by decide)) (by decide)
  rw [State.exchanged, State.steward_dropEngagement, State.engagements_dropEngagement]
  exact ⟨hkept.steward_eq (by decide), by rw [hkept.power_eq (by decide)]⟩

theorem State.cluster_exchanged : ((s.exchanged failing c).cluster c).state = .inService ∧ ((s.exchanged failing c).cluster c).confined = false := by
  rw [State.exchanged, State.cluster_dropEngagement, State.cluster_modCluster]
  exact ⟨rfl, rfl⟩

theorem State.cluster_exchanged_failing {failing c : Nat} (h : failing ≠ c) : ((s.exchanged failing c).cluster failing).state = .retired ∧
    ((s.exchanged failing c).cluster failing).power = .off ∧ ((s.exchanged failing c).cluster failing).shares = [] := by
  rw [State.exchanged, State.cluster_dropEngagement, State.cluster_modCluster_ne _ _ h.symm, State.cluster_modCluster]
  exact ⟨rfl, rfl, rfl⟩

end

/-- With no request deferred a release of a hold reaches the Steward alone, and still none is deferred. -/
theorem State.releaseHold_keeps {s : State} (h : s.steward.deferred = []) (src : BitVec 16) :
    Kept [.steward] s (s.releaseHold src) ∧ (s.releaseHold src).steward.deferred = [] := by
  rw [State.releaseHold_of_not_deferred h]
  exact ⟨State.modSteward_kept _ (Kept.refl _ s) (List.Subset.refl _), h⟩

/-- With no engagement waiting none starts. -/
theorem State.startEngagement_of_none {s : State} (h : s.power.engagements = []) : s.startEngagement = s := by
  simp [State.startEngagement, State.startNext, h]

/-- What runs on a cluster changes no cluster but in its MAE, and nothing of the power bookkeeping. -/
theorem State.runWaiting_keeps (s : State) (c : Nat) : s.MaeOnly (s.runWaiting c) ∧ (s.runWaiting c).power = s.power := by
  have htes : Kept [.mem, .seats, .tes] s ((List.range 16).foldl (fun s t => s.startTe c t) s) :=
    Kept.foldl (fun z t => State.startTe_kept c t (Kept.refl _ z) (List.Subset.refl _)) _ s (Kept.refl _ s)
  have hmae := State.maeResume_kept c (htes.mono (by decide)) (W := [.mem, .seats, .tes, .clusters, .lanes, .depot, .keys, .journal, .port0, .port1])
    (by decide)
  exact ⟨(State.MaeOnly.of_clusters (htes.clusters_eq (by decide))).trans (State.maeOnly_maeResume _ c), hmae.power_eq (by decide)⟩

/-- Where no request is deferred and no engagement waits, taking up the work changes no cluster but in its MAE, and nothing of the power
bookkeeping. -/
theorem State.takesUp_keeps {s : State} (hdeferred : s.steward.deferred = []) (hnone : s.power.engagements = []) (e : Engagement) (c : Nat) :
    s.MaeOnly (s.takesUp e c) ∧ (s.takesUp e c).power = s.power := by
  obtain ⟨hfirst, hdeferred⟩ := State.releaseHold_keeps hdeferred (srcWhole e.failing)
  obtain ⟨hsecond, -⟩ := State.releaseHold_keeps hdeferred (srcWhole c)
  unfold State.takesUp
  extract_lets released resumed reported
  have hreleased : Kept [.steward] s released := hfirst.trans hsecond
  obtain ⟨hmae, hpower⟩ : released.MaeOnly resumed ∧ resumed.power = released.power := released.runWaiting_keeps c
  have hreported : Kept [.out, .pcie, .faults, .recorder] resumed reported := State.fault_kept_of_lt _ _ _ _ (by decide)
  have hanswered := State.engageDone_kept e cOk ([BitVec.ofNat 8 (addrByte c)] ++ List.replicate 7 0) (hreported.mono (by decide))
    (W := [.out, .journal, .pcie, .recorder, .faults]) (by decide)
  have hkept := (hanswered.power_eq (by decide)).trans (hpower.trans (hreleased.power_eq (by decide)))
  rw [State.startEngagement_of_none (by rw [hkept, hnone])]
  exact ⟨((State.MaeOnly.of_clusters (hreleased.clusters_eq (by decide))).trans hmae).trans
    (State.MaeOnly.of_clusters (hanswered.clusters_eq (by decide))), hkept⟩

/-! ## Wear and self-tests (R511, R512, Table 18.5) -/

section
variable {s : State} {c : Nat} (hc : clusterOk c = true)
include hc

theorem completes_marginLow1s : Completes (.marginLow1s c) s fun t =>
    t = if (s.cluster c).state = .inService then s.flagFailing c 1 false else s := completes_checked exec_marginLow1s hc

theorem completes_correctedRateHigh : Completes (.correctedRateHigh c) s fun t =>
    t = if (s.cluster c).state = .inService then s.flagFailing c 2 false else s := completes_checked exec_correctedRateHigh hc

/-- A reserve's test confines it and wakes it. -/
theorem completes_selftestDue_reserve (hstate : (s.cluster c).state = .reserve) (hpower : (s.cluster c).power ≠ .awake) :
    Completes (.selftestDue (srcWhole c)) s fun t =>
      t.cluster c = { s.cluster c with testing := true, confined := true, power := .waking } := by
  refine ⟨_, exec_selftestDue, ?_⟩
  rw [clusterOfSrc_srcWhole hc]
  dsimp only
  rw [if_pos rfl, if_pos hstate, State.cluster_modCluster, if_neg hpower]

/-- A whole cluster that passes its test is confined no more. -/
theorem completes_selftestDone_passed (htest : (s.cluster c).testing = true) : Completes (.selftestDone (srcWhole c) true) s fun t =>
    (t.cluster c).testing = false ∧ (t.cluster c).confined = false ∧ (t.cluster c).state = (s.cluster c).state := by
  refine ⟨_, exec_selftestDone, ?_⟩
  rw [clusterOfSrc_srcWhole hc]
  dsimp only
  rw [if_pos rfl, if_pos htest, if_pos rfl, State.cluster_modCluster]
  exact ⟨rfl, rfl, rfl⟩

theorem completes_selftestDone_nothing (htest : (s.cluster c).testing = false) (ok : Bool) :
    Completes (.selftestDone (srcWhole c) ok) s fun t => t = s := by
  refine ⟨_, exec_selftestDone, ?_⟩
  rw [clusterOfSrc_srcWhole hc]
  dsimp only
  rw [if_pos rfl, if_neg (ne_true_of_eq_false htest)]

end

/-- Settles O56: each event by the branch it takes; an engagement that ends, by the exchange of the two clusters and by what the reserve then
takes up leaving them but for their MAEs. -/
theorem reserveEngagement : Obligations.ReserveEngagement := by
  unfold Obligations.ReserveEngagement
  intro s c e es g mv hc
  refine ⟨fun hpower => ?stopped, completes_forcedStop_stopped hc, fun hhead hfailing hnew hstate hrest hreserve => ?packed,
    fun hhead hfailing hnew hstate hrest hreserve => ?exhausted, completes_quiesceDone_busy hc, fun hfind hkey => ?lands, fun hfind => ?fails,
    completes_wrappedMoveArrival_unknown hc,
    fun hhead hreserve hquiesced hpower htested harrived _ hother hdeferred => ?engaged, fun hstate => ⟨?margin, ?rate⟩,
    fun hstate => ⟨?marginNot, ?rateNot⟩, completes_selftestDue_reserve hc, completes_selftestDone_passed hc, completes_selftestDone_nothing hc⟩
  case stopped =>
    refine (completes_forcedStop hc hpower).mono fun t ht => ⟨fun hfree => ?_, fun hheld => ?_⟩
    · rw [ht, if_neg (ne_true_of_eq_false hfree)]
    · rw [ht, if_pos hheld]
  case packed => exact (completes_quiesceDone hc hhead hfailing hnew hstate hrest).mono fun t ht => ht.trans (if_neg hreserve)
  case exhausted => exact (completes_quiesceDone hc hhead hfailing hnew hstate hrest).mono fun t ht => ht.trans (if_pos hreserve)
  case lands => exact (completes_wrappedMoveArrival hc hfind true).mono fun t ht => ht.trans (if_pos ⟨rfl, hkey⟩)
  case fails => exact (completes_wrappedMoveArrival hc hfind false).mono fun t ht => ht.trans (if_neg fun h => Bool.false_ne_true h.1)
  case engaged =>
    refine (completes_reserveEngaged hc hhead hreserve hquiesced hpower htested harrived).mono fun t ht => ?_
    obtain ⟨hsteward, hdropped⟩ := s.exchanged_keeps e.failing c
    have hnone : (s.exchanged e.failing c).power.engagements = [] := by rw [hdropped, hhead]; rfl
    obtain ⟨hmae, hkept⟩ := State.takesUp_keeps (by rw [hsteward, hdeferred]) hnone e c
    obtain ⟨hstate, hconfined⟩ := s.cluster_exchanged e.failing c
    obtain ⟨hretired, hoff, hshares⟩ := s.cluster_exchanged_failing hother
    rw [ht, hmae.state, hmae.confined, hmae.state, hmae.power, hmae.shares, hkept]
    exact ⟨hstate, hconfined, hretired, hoff, hshares, hnone⟩
  case margin => exact (completes_marginLow1s hc).mono fun t ht => ht.trans (if_pos hstate)
  case rate => exact (completes_correctedRateHigh hc).mono fun t ht => ht.trans (if_pos hstate)
  case marginNot => exact (completes_marginLow1s hc).mono fun t ht => ht.trans (if_neg hstate)
  case rateNot => exact (completes_correctedRateHigh hc).mono fun t ht => ht.trans (if_neg hstate)

end Sys2Proof.Machine
end

section
/-! PROOFS. The frames of the instructions whose proof takes a case split of its own, and the shapes that families of instructions share. -/

namespace Sys2Proof.Machine

/-- Writing the journal of a state leaves its other fields. -/
theorem Kept.with_journal {W : List Fld} {s : State} {x : Journal} (h : Fld.journal ∈ W) : Kept W s { s with journal := x } := by
  constructor <;> first | exact .inr rfl | exact .inl h | exact id | rfl

/-! ## Shared shapes of the instructions -/

theorem ExKept.ite {W : List Fld} {s0 : State} {r q : Except Byte (State × Seat × Nat)} {c : Prop} [Decidable c]
    (h : c → ExKept W s0 r) (k : ¬c → ExKept W s0 q) : ExKept W s0 (if c then r else q) := by
  split
  · exact h ‹_›
  · exact k ‹_›

theorem regOp_kept (u : SeatRef) (rd rs1 rs2 : Fin 32) (cost : Nat) (f : Word → Word → Word) (s : State) :
    ResKept seatFields s (regOp u rd rs1 rs2 cost f s) :=
  runPlain_kept (Kept.refl _ _) (by decide) fun _ => TeKept.next (Kept.refl _ _)

theorem immOp_kept (u : SeatRef) (rd rs1 : Fin 32) (f : Word → Word) (s : State) : ResKept seatFields s (immOp u rd rs1 f s) :=
  runPlain_kept (Kept.refl _ _) (by decide) fun _ => TeKept.next (Kept.refl _ _)

theorem branchOp_kept (u : SeatRef) (ra rb : Fin 32) (imm : BitVec 16) (c : Word → Word → Bool) (s : State) :
    ResKept seatFields s (branchOp u ra rb imm c s) :=
  runPlain_kept (Kept.refl _ _) (by decide) fun _ =>
    TeKept.ite (fun _ => TeKept.jump (Kept.refl _ _)) fun _ => TeKept.next (Kept.refl _ _)

theorem loadOp_kept (u : SeatRef) (rb : Fin 32) (sp : BitVec 2) (off : BitVec 14) (n : Nat) (f : Seat → Bytes → Seat) (s : State) :
    ResKept (seatFields ++ [.gates]) s (loadOp u rb sp off n f s) := by
  refine runPlain_kept (Kept.refl _ _) (by decide) fun t => ?_
  dsimp only
  split
  · next e => exact TeKept.next (State.operand_keptE e (Kept.refl _ _) (by decide))
  · next e => exact TeKept.exc (State.operand_keptE e (Kept.refl _ _) (by decide))

theorem storeOp_kept (u : SeatRef) (rb : Fin 32) (sp : BitVec 2) (off : BitVec 14) (n : Nat) (f : Seat → Bytes) (s : State) :
    ResKept (seatFields ++ [.gates]) s (storeOp u rb sp off n f s) := by
  refine runPlain_kept (Kept.refl _ _) (by decide) fun t => ?_
  split
  · next e => exact TeKept.next (State.store_kept _ _ (State.operand_keptE e (Kept.refl _ _) (by decide)) (by decide))
  · next e => exact TeKept.exc (State.operand_keptE e (Kept.refl _ _) (by decide))

theorem loadReg_kept (u : SeatRef) (rt rb : Fin 32) (sp : BitVec 2) (off : BitVec 14) (n : Nat) (s : State) :
    ResKept (seatFields ++ [.gates]) s (loadReg u rt rb sp off n s) := loadOp_kept _ _ _ _ _ _ _

theorem storeReg_kept (u : SeatRef) (rt rb : Fin 32) (sp : BitVec 2) (off : BitVec 14) (n : Nat) (s : State) :
    ResKept (seatFields ++ [.gates]) s (storeReg u rt rb sp off n s) := storeOp_kept _ _ _ _ _ _ _

theorem vaultInstr_kept (isPut : Bool) (u : SeatRef) (ga gb st : Fin 32) (s : State) :
    ResKept (takeFields ++ [.held]) s (vaultInstr isPut u ga gb st s) := by
  have hsubmit : ∀ (x : Seat) (o : VaultOp), Kept (takeFields ++ [.held]) s (((s.setSeat u x).vaultYield u).vaultSubmit o) := fun x o =>
    State.vaultSubmit_kept _ (State.vaultYield_kept _ (State.setSeat_kept _ _ (Kept.refl _ _) (by decide)) (by decide)) (by decide)
  unfold vaultInstr
  with_reducible refine runVendor_kept (Kept.refl _ _) ?_ fun t => ?_
  · decide
  extract_lets a plain w t' waiting yielded
  by_cases halign : a % 4096 ≠ 0
  · rw [if_pos halign]
    exact TeKept.exc (Kept.refl _ _)
  by_cases hfits : 0x3C00 < a + 4096
  · rw [if_neg halign, if_pos hfits]
    exact TeKept.exc (Kept.refl _ _)
  rw [if_neg halign, if_neg hfits]
  split
  · exact TeKept.exc (Kept.refl _ _)
  · exact TeKept.gone (hsubmit _ _)

/-- The cipher steps change their seat only. -/
theorem cipherStep_kept (u : SeatRef) (x y : Fin 8) (m : BitVec 6) (dec : Bool) (s : State) :
    ResKept seatFields s (cipherStep u x y m dec s) := by
  refine runEx_kept (Kept.refl _ _) (by decide) fun t => ?_
  repeat' with_reducible first
    | apply ExKept.pure | (apply ExKept.bind; intro _) | exact Kept.refl _ _

theorem ff1Step_kept (u : SeatRef) (g : Fin 32) (dec : Bool) (s : State) : ResKept seatFields s (ff1Step u g dec s) := by
  refine runEx_kept (Kept.refl _ _) (by decide) fun t => ?_
  have htoken : ∀ x : Bytes, Kept seatFields s (if dec then (s, t) else s.tokenMade u t x).1 := by
    intro x
    split
    · exact Kept.refl _ _
    · exact State.tokenMade_kept _ _ _ (Kept.refl _ _) (by decide)
  repeat' with_reducible first
    | apply ExKept.pure | (apply ExKept.bind; intro _) | apply State.store_kept | exact htoken _ | decide

/-- Opening an intent anchors it (R68). -/
theorem State.openIntent_kept (s : State) (u : SeatRef) (t : Seat) (kind : BitVec 11) (obj version : Word) :
    TeKept seatFields s (s.openIntent u t kind obj version) :=
  TeKept.next (State.anchor_kept _ (State.drawn_kept (Kept.refl _ _) (by decide)) (by decide))

theorem wrapTin_kept (s : State) (u : SeatRef) (t : Seat) (x k : Fin 8) (g : Fin 32) : ExKept seatFields s (wrapTin s u t x k g) := by
  unfold wrapTin
  repeat' with_reducible first
    | exact ExKept.error | apply ExKept.pure | (apply ExKept.bind; intro _) | exact Kept.refl _ _ | apply State.store_kept
    | apply State.drawn_kept | split | decide

theorem wrapBlock_kept (s : State) (u : SeatRef) (t : Seat) (x k : Fin 8) (g : Fin 32) :
    ExKept seatFields s (wrapBlock s u t x k g) := by
  unfold wrapBlock
  repeat' with_reducible first
    | apply ExKept.pure | (apply ExKept.bind; intro _) | exact Kept.refl _ _ | apply State.store_kept | apply State.kbExport_kept
    | decide

theorem unwrapTin_kept (s : State) (u : SeatRef) (t : Seat) (x k : Fin 8) (g : Fin 32) :
    ExKept seatFields s (unwrapTin s u t x k g) := by
  unfold unwrapTin
  repeat' with_reducible first
    | exact ExKept.error | apply ExKept.pure | (apply ExKept.bind; intro _) | exact Kept.refl _ _ | apply State.fillSlot_kept | split
    | decide

theorem unwrapBlock_kept (s : State) (u : SeatRef) (t : Seat) (x k : Fin 8) (g : Fin 32) :
    ExKept seatFields s (unwrapBlock s u t x k g) := by
  unfold unwrapBlock
  repeat' with_reducible first
    | exact ExKept.error | apply ExKept.pure | (apply ExKept.bind; intro _) | exact Kept.refl _ _ | apply State.fillSlot_kept | split
    | decide

/-! ## Instructions -/

theorem execSys_kept (u : SeatRef) (rd : Fin 32) (idx : BitVec 16) (s : State) :
    ResKept (seatFields ++ [.entropy]) s (execSys u rd idx s) := by
  refine runTe_kept (Kept.refl _ _) (by decide) fun t => ?_
  dsimp only
  split
  · exact TeKept.next (Kept.refl _ _)
  · exact TeKept.next (Kept.refl _ _)
  · split
    · next e => exact TeKept.next (State.takeRandom_keptE e (Kept.refl _ _) (by decide))
    · exact TeKept.wait (State.seedExpander_kept _ (State.setExpander_kept _ _ (Kept.refl _ _) (by decide)) (by decide))
  · split
    · exact TeKept.next (Kept.refl _ _)
    · exact TeKept.exc (Kept.refl _ _)

theorem execCSave_kept (u : SeatRef) (g : Fin 32) (s : State) : ResKept seatFields s (execCSave u g s) := by
  refine runEx_kept (Kept.refl _ _) (by decide) fun t => ?_
  repeat' with_reducible first
    | apply ExKept.pure | (apply ExKept.bind; intro _) | exact Kept.refl _ _ | apply State.store_kept | decide

theorem execCRest_kept (u : SeatRef) (g : Fin 32) (s : State) : ResKept seatFields s (execCRest u g s) := by
  refine runEx_kept (Kept.refl _ _) (by decide) fun t => ?_
  repeat' with_reducible first
    | exact ExKept.error | apply ExKept.pure | (apply ExKept.bind; intro _) | exact Kept.refl _ _ | split

theorem execDInit_kept (u : SeatRef) (k : Fin 8) (g : Fin 32) (m : BitVec 6) (s : State) :
    ResKept seatFields s (execDInit u k g m s) := by
  refine runEx_kept (Kept.refl _ _) (by decide) fun t => ?_
  repeat' with_reducible first
    | apply ExKept.ite <;> intro _ | apply ExKept.pure | (apply ExKept.bind; intro _) | exact Kept.refl _ _

theorem execDLast_kept (u : SeatRef) (g : Fin 32) (m : BitVec 6) (s : State) : ResKept seatFields s (execDLast u g m s) := by
  refine runEx_kept (Kept.refl _ _) (by decide) fun t => ?_
  repeat' with_reducible first
    | apply ExKept.ite <;> intro _ | apply ExKept.pure | (apply ExKept.bind; intro _) | exact Kept.refl _ _

theorem execDSave_kept (u : SeatRef) (g : Fin 32) (s : State) : ResKept seatFields s (execDSave u g s) := by
  refine runEx_kept (Kept.refl _ _) (by decide) fun t => ?_
  repeat' with_reducible first
    | apply ExKept.ite <;> intro _ | apply ExKept.pure | (apply ExKept.bind; intro _) | exact Kept.refl _ _ | apply State.store_kept
    | decide

theorem execDRest_kept (u : SeatRef) (g : Fin 32) (s : State) : ResKept seatFields s (execDRest u g s) := by
  refine runEx_kept (Kept.refl _ _) (by decide) fun t => ?_
  repeat' with_reducible first
    | exact ExKept.error | apply ExKept.ite <;> intro _ | apply ExKept.pure | (apply ExKept.bind; intro _) | exact Kept.refl _ _ | split

theorem execKWrap_kept (u : SeatRef) (x k : Fin 8) (g : Fin 32) (m : BitVec 6) (s : State) :
    ResKept seatFields s (execKWrap u x k g m s) :=
  runEx_kept (Kept.refl _ _) (by decide) fun t => .ite (fun _ => wrapTin_kept s u t x k g) fun _ =>
    .ite (fun _ => wrapBlock_kept s u t x k g) fun _ => .error

theorem execKUnwr_kept (u : SeatRef) (x k : Fin 8) (g : Fin 32) (m : BitVec 6) (s : State) :
    ResKept seatFields s (execKUnwr u x k g m s) :=
  runEx_kept (Kept.refl _ _) (by decide) fun t => .ite (fun _ => unwrapTin_kept s u t x k g) fun _ =>
    .ite (fun _ => unwrapBlock_kept s u t x k g) fun _ => .error

theorem execKAttr_kept (u : SeatRef) (k : Fin 8) (g : Fin 32) (s : State) : ResKept seatFields s (execKAttr u k g s) :=
  runEx_kept (Kept.refl _ _) (by decide) fun _ => .bind fun _ => .pure (Kept.refl _ _)

theorem execKStore_kept (u : SeatRef) (x : Fin 8) (g : Fin 32) (s : State) :
    ResKept (seatFields ++ [.keys, .entropy]) s (execKStore u x g s) := by
  refine runVendor_kept (Kept.refl _ _) (by decide) fun t => ?_
  dsimp only
  refine TeKept.ite (fun _ => TeKept.exc (Kept.refl _ _)) fun _ => ?_
  split
  · exact TeKept.exc (Kept.refl _ _)
  · exact TeKept.next (State.keyStore_kept _ _ _ (State.drawn_kept (Kept.refl _ _) (by decide)) (by decide))

theorem execGate_kept (u : SeatRef) (w : BitVec 11) (s : State) : ResKept seatFields s (execGate u w s) :=
  .ite
    (fun _ => runPlain_kept (Kept.refl _ _) (by decide) fun _ =>
      .ite (fun _ => TeKept.jump (Kept.refl _ _)) fun _ => TeKept.exc (Kept.refl _ _))
    fun _ => .checked (Kept.refl _ _)

theorem execMileI_kept (u : SeatRef) (ga gb : Fin 32) (kind : BitVec 11) (s : State) :
    ResKept seatFields s (execMileI u ga gb kind s) := by
  unfold execMileI
  with_reducible refine runVendor_kept (Kept.refl _ _) ?_ fun t => ?_
  · decide
  refine TeKept.ite (fun _ => TeKept.exc (Kept.refl _ _)) fun _ => TeKept.ite (fun _ => s.openIntent_kept ..) fun _ => ?_
  exact TeKept.wait (Kept.with_journal (by decide))

/-- A seat that stands at a YIELD goes on, is suspended, or leaves its TE to the other seat or to an item of the Depot. -/
theorem execYieldPoint_kept (u : SeatRef) (s : State) : ResKept (seatFields ++ [.keys, .gates]) s (execYieldPoint u s) := by
  unfold execYieldPoint
  dsimp only
  with_reducible refine runPlain_kept (Kept.refl _ _) ?_ fun t => ?_
  repeat' with_reducible first
    | apply TeKept.ite <;> intro _ | apply TeKept.gone | apply Kept.ite <;> intro _ | exact Kept.refl _ _ | apply State.killSeat_kept
    | apply State.suspendSeat_kept | apply State.seatChange_kept | apply State.offerItem_kept | apply State.fetch_kept
    | apply State.setSeat_kept | split | decide

theorem execCaddyMissFill_kept (u : SeatRef) (s : State) : ResKept (seatFields ++ [.keys]) s (execCaddyMissFill u s) := by
  refine ResKept.checked ?_
  split
  · dsimp only
    split
    · next e =>
      have hfill := State.fetchMiss_keptE e (State.drawn_kept (Kept.refl (seatFields ++ [.keys]) s) (by decide)) (by decide)
      exact finishTe_kept _ _ (TeKept.next (State.loadSlot_kept _ _ _ _ hfill (by decide))) (by decide)
    · next e =>
      have hfill := State.fetchMiss_keptE e (State.drawn_kept (Kept.refl (seatFields ++ [.keys]) s) (by decide)) (by decide)
      exact State.raise_kept _ _ (State.setSeat_kept _ _ hfill (by decide)) (by decide)
  · exact Kept.refl _ _

theorem execAnchorSpaceFree_kept (s : State) : ResKept seatFields s (execAnchorSpaceFree s) := by
  refine ResKept.next (Kept.ite (fun _ => Kept.refl _ _) fun _ => ?_)
  split
  · split
    · exact finishTe_kept _ _ (s.openIntent_kept ..) (by decide)
    · exact Kept.refl _ _
  · exact State.writeRecord_kept _ _ (Kept.refl _ _) (by decide)
  · exact State.modCard_kept _ _ (Kept.refl _ _) (by decide)
  · exact Kept.refl _ _

end Sys2Proof.Machine
end

section
/-! PROOFS. The frames of the events and commands that go through several parts of the state. -/

namespace Sys2Proof.Machine

theorem Kept.with_entropy {W : List Fld} {s : State} {x : Entropy} (h : Fld.entropy ∈ W) : Kept W s { s with entropy := x } := by
  constructor <;> first | exact .inr rfl | exact .inl h | exact id | rfl
theorem Kept.with_steward {W : List Fld} {s : State} {x : Steward} (h : Fld.steward ∈ W) : Kept W s { s with steward := x } := by
  constructor <;> first | exact .inr rfl | exact .inl h | exact id | rfl

theorem execItemDispatch_kept (c : Nat) (s : State) :
    ResKept (faultFields ++ [.mem, .seats, .lanes, .keys, .held, .gates]) s (execItemDispatch c s) := by
  unfold execItemDispatch
  refine ResKept.checked ?_
  repeat' with_reducible first
    | exact Kept.refl _ _ | apply State.takeTest_kept | apply State.offerItem_kept
    | (refine State.takeOwn_keptE (by assumption) ?_ ?_) | apply Kept.ite <;> intro _ | split | decide

theorem execStreamKeyFetchDone_kept (c te : Nat) (s : State) :
    ResKept [.out, .tes, .clusters, .depot, .keys, .port0, .port1] s (execStreamKeyFetchDone c te s) := by
  unfold execStreamKeyFetchDone
  refine ResKept.checked ?_
  dsimp only
  repeat' with_reducible first
    | exact Kept.refl _ _ | apply State.abortStream_kept | apply State.setStream_kept
    | (refine State.fetchKey_keptE (by assumption) ?_ ?_) | apply Kept.ite <;> intro _ | split | decide

theorem execMaeJobYieldPoint_kept (c : Nat) (s : State) :
    ResKept [.clusters, .lanes, .depot, .keys, .journal, .port0, .port1, .pcie] s (execMaeJobYieldPoint c s) := by
  unfold execMaeJobYieldPoint
  refine ResKept.checked ?_
  dsimp only
  repeat' with_reducible first
    | exact Kept.refl _ _ | apply State.itemEnded_kept | apply State.maeFree_kept | apply State.requeueJob_kept
    | apply State.modCluster_kept | (refine State.nextJob_keptE (by assumption) ?_ ?_) | (apply Kept.getD; intro _ _)
    | apply Kept.ite <;> intro _ | split | decide

theorem execKettleDraw_kept (s : State) :
    ResKept (hostFields ++ [.freeCtr, .clusters, .keys, .entropy, .tamper, .lc, .faults, .power]) s (execKettleDraw s) := by
  unfold execKettleDraw
  refine ResKept.next (Kept.ite (fun _ => Kept.refl _ _) fun _ => ?_)
  split
  · exact Kept.refl _ _
  · refine State.serveDraw_kept _ _ ?_ (by decide)
    exact Kept.with_entropy (by decide)

theorem Kept.with_pcie {W : List Fld} {s : State} {x : Pcie} (h : Fld.pcie ∈ W) : Kept W s { s with pcie := x } := by
  constructor <;> first | exact .inr rfl | exact .inl h | exact id | rfl
theorem execShadowCheck_kept (s : State) : ResKept (faultFields ++ [.steward, .tamper]) s (execShadowCheck s) := by
  unfold execShadowCheck
  refine ResKept.next (Kept.ite (fun _ => Kept.refl _ _) fun _ => ?_)
  refine Kept.trans ?_ (Kept.with_steward (by decide))
  repeat' with_reducible first
    | exact Kept.refl _ _ | apply State.useSources_kept | apply State.useLifecycle_kept | apply State.fault_kept
    | apply State.useGate_kept | (apply Kept.foldl; intro _ _) | apply Kept.ite <;> intro _ | decide




theorem Kept.with_time {W : List Fld} {s : State} {x : Time} (h : Fld.time ∈ W) : Kept W s { s with time := x } := by
  constructor <;> first | exact .inr rfl | exact .inl h | exact id | rfl

theorem State.packageOf_keptE {s t : State} {fn : Nat} {target : BitVec 128} {b : Bytes} (h : s.packageOf fn target = .ok (t, b)) :
    Kept hostFields s t := by
  unfold State.packageOf at h
  dsimp only at h
  repeat' split at h
  case h_3 =>
    obtain ⟨rfl, -⟩ := Prod.mk.inj (Except.ok.inj h)
    refine State.modFunc_kept _ _ (State.writeMigrated_kept _ _ ?_ (by decide)) (by decide)
    exact Kept.with_pcie (by decide)
  all_goals cases h
  exact Kept.refl _ _

theorem execVfSave_kept (c : Cmd) (s : State) : ResKept hostFields s (execVfSave c s) := by
  unfold execVfSave
  dsimp only
  with_reducible refine runCmd_kept (Kept.refl _ _) ?_ fun _ => ?_
  repeat' with_reducible first
    | exact Kept.refl _ _ | exact State.packageOf_keptE (by assumption) | apply State.reject_kept | apply answer_kept
    | apply Kept.ite <;> intro _ | split | decide

theorem execPfwGraceEnd_kept (s : State) : ResKept (faultFields ++ [.mem, .seats, .lanes, .time]) s (execPfwGraceEnd s) := by
  refine ResKept.next (Kept.ite (fun _ => Kept.refl _ _) fun _ => ?_)
  extract_lets ended flushed down clock stopped cut
  have hdown : Kept (faultFields ++ [.mem, .seats, .lanes, .time]) s down := by
    repeat' with_reducible first
      | exact Kept.refl _ _ | apply State.portDown_kept | apply State.modRecorder_kept | apply State.flushed_kept
      | apply State.writeMarks_kept | apply State.anchorRoot_kept | apply State.writeOutcomes_kept | apply State.abandonVault_kept
      | apply State.dropActivation_kept | apply State.endRunning_kept | decide
  clear_value down
  have hcut : Kept (faultFields ++ [.mem, .seats, .lanes, .time]) s cut :=
    State.cardOff_kept _ (State.cardOff_kept _ (hdown.trans (Kept.with_time (by decide))) (by decide)) (by decide)
  clear_value cut
  exact State.modPower_kept _ hcut (by decide)

/-- The warm reset ends what runs and cuts every link, then starts its registers afresh (R545). -/
theorem execWarmReset_kept (s : State) :
    ResKept (faultFields ++ [.mem, .seats, .lanes, .tenancy, .keys, .held, .steward, .time, .entropy, .lc]) s (execWarmReset s) := by
  refine ResKept.next (Kept.ite (fun _ => Kept.refl _ _) fun _ => ?_)
  extract_lets wanted cut ended restarted wiped
  have hwiped : Kept (faultFields ++ [.mem, .seats, .lanes, .tenancy, .keys, .held, .steward, .time, .entropy, .lc]) s wiped := by
    repeat' with_reducible first
      | exact Kept.refl _ _ | apply State.wipe_kept | apply State.emit_kept | apply State.restartPcie_kept | apply State.undelete_kept
      | apply State.endForReset_kept | apply State.portDown_kept | apply State.abortCeremony_kept | apply State.cardOff_kept
      | apply State.flushWanted_kept | apply State.setDev_kept | decide
  refine hwiped.trans ?_
  clear_value wiped
  constructor <;> first | exact .inl (by decide) | exact .inr rfl | exact id | rfl

theorem execDeepStandbyEntered_kept (s : State) :
    ResKept (faultFields ++ [.mem, .seats, .lanes, .time, .entropy]) s (execDeepStandbyEntered s) := by
  refine ResKept.next (Kept.ite (fun _ => Kept.refl _ _) fun _ => ?_)
  extract_lets cut flushed ended
  have hended : Kept (faultFields ++ [.mem, .seats, .lanes, .time, .entropy]) s ended := by
    repeat' with_reducible first
      | exact Kept.refl _ _ | (apply Kept.foldl; intro _ _) | apply State.endCluster_kept | apply State.flushed_kept
      | apply State.writeMarks_kept | apply State.anchorRoot_kept | apply State.setDev_kept | apply State.abortCeremony_kept
      | apply State.cardOff_kept | apply Kept.ite <;> intro _ | decide
  refine hended.trans ?_
  clear_value ended
  constructor <;> first | exact .inl (by decide) | exact .inr rfl | exact id | rfl

end Sys2Proof.Machine
end

section
/-! PROOFS. The frames of the remaining instructions, commands and events: each is the composition of the frames of the operations it calls. -/

namespace Sys2Proof.Machine

theorem execCmovz_kept (u : SeatRef) (rd rs1 rs2 : Fin 32) (s : State) : ResKept seatFields s (execCmovz u rd rs1 rs2 s) := by
  unfold execCmovz
  with_reducible refine runPlain_kept (Kept.refl _ _) ?_ fun _ => ?_
  repeat' with_reducible first
    | apply TeKept.next | exact Kept.refl _ _ | decide

theorem execShi_kept (u : SeatRef) (rd rs1 : Fin 32) (imm : BitVec 16) (s : State) : ResKept seatFields s (execShi u rd rs1 imm s) := by
  unfold execShi
  with_reducible refine runPlain_kept (Kept.refl _ _) ?_ fun _ => ?_
  repeat' with_reducible first
    | apply TeKept.next | apply TeKept.exc | apply TeKept.ite <;> intro _ | exact Kept.refl _ _ | decide

theorem execInsq_kept (u : SeatRef) (rd : Fin 32) (q : Fin 4) (imm : BitVec 16) (s : State) :
    ResKept seatFields s (execInsq u rd q imm s) := by
  unfold execInsq
  with_reducible refine runPlain_kept (Kept.refl _ _) ?_ fun _ => ?_
  repeat' with_reducible first
    | apply TeKept.next | exact Kept.refl _ _ | decide

theorem execJmp_kept (u : SeatRef) (imm : BitVec 16) (s : State) : ResKept seatFields s (execJmp u imm s) := by
  unfold execJmp
  with_reducible refine runPlain_kept (Kept.refl _ _) ?_ fun _ => ?_
  repeat' with_reducible first
    | apply TeKept.jump | exact Kept.refl _ _ | decide

theorem execCall_kept (u : SeatRef) (imm : BitVec 16) (s : State) : ResKept seatFields s (execCall u imm s) := by
  unfold execCall
  with_reducible refine runPlain_kept (Kept.refl _ _) ?_ fun _ => ?_
  repeat' with_reducible first
    | apply TeKept.jump | apply TeKept.exc | apply TeKept.ite <;> intro _ | exact Kept.refl _ _ | decide

theorem execRet_kept (u : SeatRef) (s : State) : ResKept seatFields s (execRet u s) := by
  unfold execRet
  with_reducible refine runPlain_kept (Kept.refl _ _) ?_ fun _ => ?_
  repeat' with_reducible first
    | apply TeKept.jump | apply TeKept.exc | apply TeKept.ite <;> intro _ | exact Kept.refl _ _ | split | decide

theorem execCInit_kept (u : SeatRef) (y k : Fin 8) (m : BitVec 6) (s : State) : ResKept seatFields s (execCInit u y k m s) := by
  unfold execCInit
  dsimp only
  with_reducible refine runEx_kept (Kept.refl _ _) ?_ fun _ => ?_
  repeat' with_reducible first
    | apply ExKept.pure | (apply ExKept.bind; intro _) | exact Kept.refl _ _ | decide

theorem execCAad_kept (u : SeatRef) (y : Fin 8) (m : BitVec 6) (s : State) : ResKept seatFields s (execCAad u y m s) := by
  unfold execCAad
  dsimp only
  with_reducible refine runEx_kept (Kept.refl _ _) ?_ fun _ => ?_
  repeat' with_reducible first
    | apply ExKept.pure | (apply ExKept.bind; intro _) | exact Kept.refl _ _ | decide

theorem execCMac_kept (u : SeatRef) (y : Fin 8) (m : BitVec 6) (s : State) : ResKept seatFields s (execCMac u y m s) := by
  unfold execCMac
  dsimp only
  with_reducible refine runEx_kept (Kept.refl _ _) ?_ fun _ => ?_
  repeat' with_reducible first
    | apply ExKept.pure | (apply ExKept.bind; intro _) | exact Kept.refl _ _ | decide

theorem execCFin_kept (u : SeatRef) (x : Fin 8) (s : State) : ResKept seatFields s (execCFin u x s) := by
  unfold execCFin
  dsimp only
  with_reducible refine runEx_kept (Kept.refl _ _) ?_ fun _ => ?_
  repeat' with_reducible first
    | apply ExKept.pure | (apply ExKept.bind; intro _) | exact Kept.refl _ _ | decide

theorem execCRaw_kept (u : SeatRef) (x y k : Fin 8) (m : BitVec 6) (s : State) : ResKept seatFields s (execCRaw u x y k m s) := by
  unfold execCRaw
  dsimp only
  with_reducible refine runEx_kept (Kept.refl _ _) ?_ fun _ => ?_
  repeat' with_reducible first
    | apply ExKept.pure | (apply ExKept.bind; intro _) | exact Kept.refl _ _ | decide

theorem execDAbs_kept (u : SeatRef) (y : Fin 8) (s : State) : ResKept seatFields s (execDAbs u y s) := by
  unfold execDAbs
  dsimp only
  with_reducible refine runEx_kept (Kept.refl _ _) ?_ fun _ => ?_
  repeat' with_reducible first
    | apply ExKept.pure | (apply ExKept.bind; intro _) | exact Kept.refl _ _ | decide

theorem execDOut_kept (u : SeatRef) (x : Fin 8) (m : BitVec 6) (s : State) : ResKept seatFields s (execDOut u x m s) := by
  unfold execDOut
  dsimp only
  with_reducible refine runEx_kept (Kept.refl _ _) ?_ fun _ => ?_
  repeat' with_reducible first
    | apply ExKept.pure | (apply ExKept.bind; intro _) | exact Kept.refl _ _ | decide

theorem execDCmp_kept (u : SeatRef) (g : Fin 32) (m : BitVec 6) (s : State) : ResKept seatFields s (execDCmp u g m s) := by
  unfold execDCmp
  dsimp only
  with_reducible refine runEx_kept (Kept.refl _ _) ?_ fun _ => ?_
  repeat' with_reducible first
    | apply ExKept.pure | (apply ExKept.bind; intro _) | exact Kept.refl _ _ | decide

theorem execGfm_kept (u : SeatRef) (x y : Fin 8) (s : State) : ResKept seatFields s (execGfm u x y s) := by
  unfold execGfm
  with_reducible refine runPlain_kept (Kept.refl _ _) ?_ fun _ => ?_
  repeat' with_reducible first
    | apply TeKept.next | exact Kept.refl _ _ | decide

theorem execCmpct_kept (u : SeatRef) (x y : Fin 8) (g : Fin 32) (m : BitVec 6) (s : State) :
    ResKept seatFields s (execCmpct u x y g m s) := by
  unfold execCmpct
  dsimp only
  with_reducible refine runPlain_kept (Kept.refl _ _) ?_ fun _ => ?_
  repeat' with_reducible first
    | apply TeKept.next | apply TeKept.exc | apply TeKept.ite <;> intro _ | exact Kept.refl _ _ | decide

theorem execKLoad_kept (u : SeatRef) (k : Fin 8) (g : Fin 32) (s : State) : ResKept (seatFields ++ [.keys]) s (execKLoad u k g s) := by
  unfold execKLoad
  dsimp only
  with_reducible refine runPlain_kept (Kept.refl _ _) ?_ fun _ => ?_
  repeat' with_reducible first
    | apply TeKept.next | apply TeKept.wait | exact Kept.refl _ _ | apply State.caddyHit_kept | apply State.drawn_kept
    | apply State.loadSlot_kept | split | decide

theorem execKClr_kept (u : SeatRef) (k : Fin 8) (s : State) : ResKept seatFields s (execKClr u k s) := by
  unfold execKClr
  with_reducible refine runPlain_kept (Kept.refl _ _) ?_ fun _ => ?_
  repeat' with_reducible first
    | apply TeKept.next | exact Kept.refl _ _ | decide

theorem execKDrv_kept (u : SeatRef) (x y k : Fin 8) (m : BitVec 6) (s : State) : ResKept seatFields s (execKDrv u x y k m s) := by
  unfold execKDrv
  dsimp only
  with_reducible refine runEx_kept (Kept.refl _ _) ?_ fun _ => ?_
  repeat' with_reducible first
    | apply ExKept.pure | (apply ExKept.bind; intro _) | exact Kept.refl _ _ | apply State.fillSlot_kept | decide

theorem execGret_kept (u : SeatRef) (marks : List (Fin 8 × Bool)) (s : State) : ResKept seatFields s (execGret u marks s) := by
  unfold execGret
  with_reducible refine runVendor_kept (Kept.refl _ _) ?_ fun _ => ?_
  repeat' with_reducible first
    | apply TeKept.jump | apply TeKept.exc | apply TeKept.ite <;> intro _ | exact Kept.refl _ _ | apply State.wipe_kept | split | decide

theorem execMileP_kept (u : SeatRef) (ga : Fin 32) (n : BitVec 11) (s : State) : ResKept seatFields s (execMileP u ga n s) := by
  unfold execMileP
  dsimp only
  with_reducible refine runPlain_kept (Kept.refl _ _) ?_ fun _ => ?_
  repeat' with_reducible first
    | apply TeKept.next | exact Kept.refl _ _ | apply State.drawn_kept | apply State.writeMile_kept | decide

theorem execMileC_kept (u : SeatRef) (ga gb : Fin 32) (kind : BitVec 11) (s : State) : ResKept seatFields s (execMileC u ga gb kind s) := by
  unfold execMileC
  dsimp only
  with_reducible refine runVendor_kept (Kept.refl _ _) ?_ fun _ => ?_
  repeat' with_reducible first
    | apply TeKept.next | apply TeKept.exc | apply TeKept.ite <;> intro _ | exact Kept.refl _ _ | apply State.drawn_kept
    | apply State.anchor_kept | decide

theorem execEmit_kept (u : SeatRef) (ga : Fin 32) (code : BitVec 11) (s : State) : ResKept seatFields s (execEmit u ga code s) := by
  unfold execEmit
  dsimp only
  with_reducible refine runPlain_kept (Kept.refl _ _) ?_ fun _ => ?_
  repeat' with_reducible first
    | apply TeKept.exc | apply TeKept.gone | apply TeKept.ite <;> intro _ | exact Kept.refl _ _ | apply State.endSeat_kept | decide

theorem execTrap_kept (u : SeatRef) (code : BitVec 11) (s : State) : ResKept seatFields s (execTrap u code s) := by
  unfold execTrap
  with_reducible refine runPlain_kept (Kept.refl _ _) ?_ fun _ => ?_
  repeat' with_reducible first
    | apply TeKept.gone | exact Kept.refl _ _ | apply State.endSeat_kept | decide

theorem execYieldOverdue_kept (u : SeatRef) (s : State) :
    ResKept (faultFields ++ [.mem, .seats, .lanes, .held]) s (execYieldOverdue u s) := by
  unfold execYieldOverdue
  refine ResKept.checked ?_
  repeat' with_reducible first
    | exact Kept.refl _ _ | apply State.raise_kept | apply Kept.ite <;> intro _ | decide

theorem execScratchUncorrectable_kept (u : SeatRef) (off : BitVec 40) (s : State) :
    ResKept (faultFields ++ [.mem, .seats, .lanes, .held]) s (execScratchUncorrectable u off s) := by
  unfold execScratchUncorrectable
  refine ResKept.checked ?_
  repeat' with_reducible first
    | exact Kept.refl _ _ | apply State.raise_kept | apply State.fault_kept | apply Kept.ite <;> intro _ | decide

theorem execVaultWaitDone_kept (u : SeatRef) (s : State) : ResKept [.freeCtr, .mem, .seats, .tes] s (execVaultWaitDone u s) := by
  unfold execVaultWaitDone
  dsimp only
  refine ResKept.checked ?_
  repeat' with_reducible first
    | exact Kept.refl _ _ | apply State.takeReply_kept | apply State.tokenReply_kept | apply State.makeCurrent_kept | split | decide

theorem execDrbgReadDone_kept (e : Nat) (s : State) : ResKept [.freeCtr, .seats, .clusters, .entropy] s (execDrbgReadDone e s) := by
  unfold execDrbgReadDone
  refine ResKept.checked ?_
  repeat' with_reducible first
    | exact Kept.refl _ _ | apply State.serveReader_kept | decide

theorem execImageCacheFill_kept (u : SeatRef) (s : State) : ResKept [.freeCtr, .seats] s (execImageCacheFill u s) := by
  unfold execImageCacheFill
  dsimp only
  refine ResKept.checked ?_
  repeat' with_reducible first
    | exact Kept.refl _ _ | apply State.drawn_kept | apply State.setSeat_kept | apply Kept.ite <;> intro _ | decide

theorem execItinRsp_kept (s : State) : ResKept [.out, .journal, .held, .port0, .port1] s (execItinRsp s) := by
  unfold execItinRsp
  dsimp only
  refine ResKept.next ?_
  repeat' with_reducible first
    | exact Kept.refl _ _ | apply State.payOutcomes_kept | apply State.sendMsg_kept | apply Kept.ite <;> intro _ | split | decide
    | exact .inr rfl | exact .inl (by decide) | apply Kept.mk_of

theorem execPlacementEvaluation_kept (s : State) :
    ResKept [.freeCtr, .mem, .tes, .clusters, .lanes, .depot, .port0, .port1] s (execPlacementEvaluation s) := by
  unfold execPlacementEvaluation
  dsimp only
  refine ResKept.next ?_
  repeat' with_reducible first
    | exact Kept.refl _ _ | apply State.measure_kept | apply State.wake_kept | apply State.evaluateLane_kept
    | apply State.coolCluster_kept | apply State.moveStrays_kept | (apply Kept.foldl; intro _ _) | decide

theorem execClusterSleep_kept (c : Nat) (s : State) :
    ResKept [.mem, .tes, .clusters, .port0, .port1, .steward] s (execClusterSleep c s) := by
  unfold execClusterSleep
  refine ResKept.checked ?_
  repeat' with_reducible first
    | exact Kept.refl _ _ | apply State.defer_kept | apply State.sleepNow_kept | apply Kept.ite <;> intro _ | decide

theorem execClusterWakeDone_kept (c : Nat) (ok : Bool) (s : State) :
    ResKept (faultFields ++ [.freeCtr, .mem, .seats, .lanes, .steward, .time, .entropy]) s (execClusterWakeDone c ok s) := by
  unfold execClusterWakeDone
  refine ResKept.checked ?_
  repeat' with_reducible first
    | exact Kept.refl _ _ | apply State.clusterAwake_kept | apply State.flagFailing_kept | apply Kept.ite <;> intro _ | decide

theorem execOverflowRefill_kept (lane : Nat) (s : State) : ResKept [.lanes, .depot] s (execOverflowRefill lane s) := by
  unfold execOverflowRefill
  dsimp only
  refine ResKept.checked ?_
  repeat' with_reducible first
    | exact Kept.refl _ _ | apply State.setRefill_kept | apply State.modOutside_kept | apply Kept.ite <;> intro _ | split | decide

theorem execOverflowRefillDone_kept (lane : Nat) (s : State) : ResKept [.depot] s (execOverflowRefillDone lane s) := by
  unfold execOverflowRefillDone
  refine ResKept.checked ?_
  repeat' with_reducible first
    | exact Kept.refl _ _ | apply State.modOutside_kept | apply Kept.ite <;> intro _ | split | decide

theorem execLinkCreditHoldRelease_kept (port vc : Nat) (s : State) : ResKept takeFields s (execLinkCreditHoldRelease port vc s) := by
  unfold execLinkCreditHoldRelease
  refine ResKept.checked ?_
  repeat' with_reducible first
    | exact Kept.refl _ _ | apply State.runHeld_kept | decide

theorem execDepotCellUncorrectable_kept (bank cell : Nat) (s : State) :
    ResKept (faultFields ++ [.lanes]) s (execDepotCellUncorrectable bank cell s) := by
  unfold execDepotCellUncorrectable
  dsimp only
  refine ResKept.checked ?_
  repeat' with_reducible first
    | exact Kept.refl _ _ | apply State.discardAt_kept | apply State.retireCell_kept | apply Kept.ite <;> intro _ | split | decide

theorem execBulkSegmentEnd_kept (c te : Nat) (s : State) :
    ResKept [.freeCtr, .out, .tes, .clusters, .depot, .keys, .port0, .port1] s (execBulkSegmentEnd c te s) := by
  unfold execBulkSegmentEnd
  dsimp only
  refine ResKept.checked ?_
  repeat' with_reducible first
    | exact Kept.refl _ _ | apply State.sendOutput_kept | apply State.setStream_kept | apply State.tryClose_kept
    | apply State.moveStrays_kept | split | decide

theorem execWrappedMoveArrival_kept (c : Nat) (move : BitVec 32) (ok : Bool) (s : State) :
    ResKept (faultFields ++ [.freeCtr, .mem, .seats, .lanes, .steward, .time, .entropy]) s (execWrappedMoveArrival c move ok s) := by
  unfold execWrappedMoveArrival
  dsimp only
  refine ResKept.checked ?_
  repeat' with_reducible first
    | exact Kept.refl _ _ | apply State.dropPackage_kept | apply State.moveLands_kept | apply State.moveFails_kept
    | apply Kept.ite <;> intro _ | split | decide

theorem execMaeJobEnd_kept (c : Nat) (ok : Bool) (s : State) :
    ResKept (takeFields ++ [.held, .openSerial, .steward, .time, .entropy]) s (execMaeJobEnd c ok s) := by
  unfold execMaeJobEnd
  dsimp only
  refine ResKept.checked ?_
  repeat' with_reducible first
    | exact Kept.refl _ _ | apply State.maeFree_kept | apply State.itemEnded_kept | apply State.takeBytes_kept | apply State.jobEnds_kept
    | apply State.modCluster_kept | apply State.seedExpander_kept | apply Kept.ite <;> intro _ | split | decide | exact .inr rfl
    | exact .inl (by decide) | apply Kept.mk_of

theorem execMaeKatDone_kept (c : Nat) (ok : Bool) (s : State) :
    ResKept (faultFields ++ [.freeCtr, .mem, .seats, .lanes, .keys, .gates, .steward, .time, .entropy]) s (execMaeKatDone c ok s) := by
  unfold execMaeKatDone
  refine ResKept.checked ?_
  repeat' with_reducible first
    | exact Kept.refl _ _ | apply State.maeTested_kept | apply Kept.ite <;> intro _ | decide

theorem execMaeKeyTableMissDone_kept (c : Nat) (s : State) : ResKept [.clusters, .keys] s (execMaeKeyTableMissDone c s) := by
  unfold execMaeKeyTableMissDone
  dsimp only
  refine ResKept.checked ?_
  repeat' with_reducible first
    | exact Kept.refl _ _ | apply State.tableFill_kept | apply State.modCluster_kept | apply State.startLoaded_kept
    | apply Kept.ite <;> intro _ | split | decide

theorem execVaultRequestTimeout_kept (req : Word) (s : State) :
    ResKept (hostFields ++ [.freeCtr, .seats, .tenancy, .keys, .vault, .port0, .port1]) s (execVaultRequestTimeout req s) := by
  unfold execVaultRequestTimeout
  refine ResKept.next ?_
  repeat' with_reducible first
    | exact Kept.refl _ _ | apply State.vaultTimeout_kept | decide

theorem execVaultRefill_kept (s : State) :
    ResKept (hostFields ++ [.freeCtr, .seats, .tenancy, .keys, .vault, .port0, .port1]) s (execVaultRefill s) := by
  unfold execVaultRefill
  refine ResKept.next ?_
  repeat' with_reducible first
    | exact Kept.refl _ _ | apply State.refillStep_kept | decide

theorem execWatermarkWrite_kept (s : State) : ResKept [.depot, .journal] s (execWatermarkWrite s) := by
  unfold execWatermarkWrite
  refine ResKept.next ?_
  repeat' with_reducible first
    | exact Kept.refl _ _ | apply State.writeMarks_kept | decide

theorem execJournalSpill_kept (s : State) : ResKept [.journal] s (execJournalSpill s) := by
  unfold execJournalSpill
  refine ResKept.next ?_
  repeat' with_reducible first
    | exact Kept.refl _ _ | apply Kept.ite <;> intro _ | decide | exact .inr rfl | exact .inl (by decide) | apply Kept.mk_of

theorem execOutcome_kept (s : State) :
    ResKept (hostFields ++ [.freeCtr, .seats, .tenancy, .keys, .vault, .port0, .port1]) s (execOutcome s) := by
  unfold execOutcome
  refine ResKept.next ?_
  repeat' with_reducible first
    | exact Kept.refl _ _ | apply State.writeOutcome_kept | apply State.outcomeReads_kept | apply Kept.ite <;> intro _ | split | decide

theorem execPfwNAssert_kept (s : State) : ResKept [.depot, .recorder, .power] s (execPfwNAssert s) := by
  unfold execPfwNAssert
  dsimp only
  refine ResKept.next ?_
  repeat' with_reducible first
    | exact Kept.refl _ _ | apply State.modPower_kept | apply State.modRecorder_kept | apply Kept.ite <;> intro _ | decide
    | exact .inr rfl | exact .inl (by decide) | apply Kept.mk_of

theorem execPfwNRelease_kept (s : State) : ResKept [.power] s (execPfwNRelease s) := by
  unfold execPfwNRelease
  refine ResKept.next ?_
  repeat' with_reducible first
    | exact Kept.refl _ _ | apply State.modPower_kept | split | decide

theorem execCdrLockLoss_kept (port sl : Nat) (s : State) : ResKept faultFields s (execCdrLockLoss port sl s) := by
  unfold execCdrLockLoss
  refine ResKept.checked ?_
  repeat' with_reducible first
    | exact Kept.refl _ _ | apply State.rxLaneFails_kept | decide

theorem execLaneBerExceeded_kept (port sl : Nat) (s : State) : ResKept faultFields s (execLaneBerExceeded port sl s) := by
  unfold execLaneBerExceeded
  refine ResKept.checked ?_
  repeat' with_reducible first
    | exact Kept.refl _ _ | apply State.rxLaneFails_kept | decide

theorem execLaneUncorrectableTwice_kept (port sl : Nat) (s : State) : ResKept faultFields s (execLaneUncorrectableTwice port sl s) := by
  unfold execLaneUncorrectableTwice
  refine ResKept.checked ?_
  repeat' with_reducible first
    | exact Kept.refl _ _ | apply State.rxLaneFails_kept | decide

theorem execDfeTapAtLimit_kept (port sl : Nat) (s : State) : ResKept faultFields s (execDfeTapAtLimit port sl s) := by
  unfold execDfeTapAtLimit
  refine ResKept.checked ?_
  repeat' with_reducible first
    | exact Kept.refl _ _ | apply State.rxLaneFails_kept | decide

theorem execLaneFrame_kept (port : Nat) (frame : Bytes) (s : State) : ResKept faultFields s (execLaneFrame port frame s) := by
  unfold execLaneFrame
  dsimp only
  with_reducible refine frameRow_kept (Kept.refl _ _) ?_ fun _ _ => ?_
  repeat' with_reducible first
    | exact Kept.refl _ _ | assumption | apply State.setPort_kept | apply State.portDown_kept | apply State.fault_kept
    | apply State.sendLane_kept | apply State.count_kept | apply Kept.ite <;> intro _ | decide

theorem execRemapRealignDone_kept (port : Nat) (s : State) : ResKept (faultFields ++ [.freeCtr]) s (execRemapRealignDone port s) := by
  unfold execRemapRealignDone
  dsimp only
  refine ResKept.checked ?_
  repeat' with_reducible first
    | exact Kept.refl _ _ | apply State.setPort_kept | apply State.drawn_kept | apply State.nak_kept | apply State.fault_kept
    | apply State.count_kept | apply Kept.ite <;> intro _ | split | decide

theorem execRemapSuspensionEnd_kept (port : Nat) (s : State) : ResKept [.port0, .port1] s (execRemapSuspensionEnd port s) := by
  unfold execRemapSuspensionEnd
  dsimp only
  refine ResKept.checked ?_
  repeat' with_reducible first
    | exact Kept.refl _ _ | apply State.setPort_kept | decide

theorem execDataFrame_kept (port : Nat) (frame : Bytes) (s : State) : ResKept takeFields s (execDataFrame port frame s) := by
  unfold execDataFrame
  dsimp only
  with_reducible refine frameRow_kept (Kept.refl _ _) ?_ fun _ _ => ?_
  repeat' with_reducible first
    | exact Kept.refl _ _ | assumption | apply State.acceptData_kept | apply State.nak_kept | apply Kept.ite <;> intro _ | decide

theorem execIdleFrame_kept (port : Nat) (frame : Bytes) (s : State) :
    ResKept [.out, .journal, .port0, .port1, .recorder] s (execIdleFrame port frame s) := by
  unfold execIdleFrame
  with_reducible refine frameRow_kept (Kept.refl _ _) ?_ fun _ _ => ?_
  repeat' with_reducible first
    | exact Kept.refl _ _ | assumption | apply State.setPort_kept | decide

theorem execNakFrame_kept (port : Nat) (frame : Bytes) (s : State) :
    ResKept [.out, .journal, .port0, .port1, .recorder] s (execNakFrame port frame s) := by
  unfold execNakFrame
  dsimp only
  with_reducible refine frameRow_kept (Kept.refl _ _) ?_ fun _ _ => ?_
  repeat' with_reducible first
    | exact Kept.refl _ _ | assumption | apply State.setPort_kept | apply State.count_kept | apply State.replay_kept | decide

theorem execInitFrame_kept (port : Nat) (frame : Bytes) (s : State) :
    ResKept (faultFields ++ [.mem, .lanes]) s (execInitFrame port frame s) := by
  unfold execInitFrame
  dsimp only
  refine ResKept.checked ?_
  repeat' with_reducible first
    | exact Kept.refl _ _ | apply State.nak_kept | apply State.portRetrain_kept | apply State.losePartner_kept | apply State.setPort_kept
    | apply State.acked_kept | apply State.linkUp_kept | apply Kept.ite <;> intro _ | decide

theorem execIdleFrameSend_kept (port : Nat) (s : State) : ResKept [.out] s (execIdleFrameSend port s) := by
  unfold execIdleFrameSend
  refine ResKept.checked ?_
  repeat' with_reducible first
    | exact Kept.refl _ _ | apply State.sendIdle_kept | apply Kept.ite <;> intro _ | decide

theorem execInitFrameSend_kept (port : Nat) (s : State) :
    ResKept [.out, .mem, .clusters, .lanes, .port0, .port1] s (execInitFrameSend port s) := by
  unfold execInitFrameSend
  refine ResKept.checked ?_
  repeat' with_reducible first
    | exact Kept.refl _ _ | apply State.sendInit_kept | apply State.linkUp_kept | apply Kept.ite <;> intro _ | decide

theorem execAckSend_kept (port : Nat) (s : State) : ResKept [.out] s (execAckSend port s) := by
  unfold execAckSend
  refine ResKept.checked ?_
  repeat' with_reducible first
    | exact Kept.refl _ _ | apply State.sendIdle_kept | apply Kept.ite <;> intro _ | decide

theorem execReplayTimeout_kept (port : Nat) (s : State) : ResKept [.out, .port0, .port1, .recorder] s (execReplayTimeout port s) := by
  unfold execReplayTimeout
  dsimp only
  refine ResKept.checked ?_
  repeat' with_reducible first
    | exact Kept.refl _ _ | apply State.replay_kept | apply Kept.ite <;> intro _ | split | decide

theorem execPcsAlignment_kept (port : Nat) (s : State) : ResKept [.port0, .port1] s (execPcsAlignment port s) := by
  unfold execPcsAlignment
  dsimp only
  refine ResKept.checked ?_
  repeat' with_reducible first
    | exact Kept.refl _ _ | apply State.setPort_kept | apply Kept.ite <;> intro _ | decide

theorem execTrainingTimeout_kept (port : Nat) (s : State) :
    ResKept [.out, .tes, .clusters, .depot, .port0, .port1] s (execTrainingTimeout port s) := by
  unfold execTrainingTimeout
  refine ResKept.checked ?_
  repeat' with_reducible first
    | exact Kept.refl _ _ | apply State.portDown_kept | apply Kept.ite <;> intro _ | decide

theorem execTrainingRestart_kept (port : Nat) (s : State) : ResKept [.port0, .port1] s (execTrainingRestart port s) := by
  unfold execTrainingRestart
  refine ResKept.checked ?_
  repeat' with_reducible first
    | exact Kept.refl _ _ | apply State.train_kept | decide

theorem execInitTimeout_kept (port : Nat) (s : State) :
    ResKept [.out, .tes, .clusters, .depot, .port0, .port1] s (execInitTimeout port s) := by
  unfold execInitTimeout
  refine ResKept.checked ?_
  repeat' with_reducible first
    | exact Kept.refl _ _ | apply State.portDown_kept | apply State.train_kept | apply Kept.ite <;> intro _ | decide

theorem execRetrainTimeout_kept (port : Nat) (s : State) : ResKept faultFields s (execRetrainTimeout port s) := by
  unfold execRetrainTimeout
  dsimp only
  refine ResKept.checked ?_
  repeat' with_reducible first
    | exact Kept.refl _ _ | apply State.setPort_kept | apply State.portDown_kept | apply State.fault_kept | apply State.train_kept
    | apply Kept.ite <;> intro _ | decide

theorem execPartnerLoss_kept (port : Nat) (s : State) : ResKept faultFields s (execPartnerLoss port s) := by
  unfold execPartnerLoss
  dsimp only
  refine ResKept.checked ?_
  repeat' with_reducible first
    | exact Kept.refl _ _ | apply State.losePartner_kept | apply Kept.ite <;> intro _ | decide

theorem execViolationDownEnd_kept (port : Nat) (s : State) : ResKept [.port0, .port1] s (execViolationDownEnd port s) := by
  unfold execViolationDownEnd
  refine ResKept.checked ?_
  repeat' with_reducible first
    | exact Kept.refl _ _ | apply State.setPort_kept | apply State.train_kept | apply Kept.ite <;> intro _ | decide

theorem execIdleMessage_kept (port session : Nat) (s : State) : ResKept [.out, .port0, .port1] s (execIdleMessage port session s) := by
  unfold execIdleMessage
  refine ResKept.checked ?_
  repeat' with_reducible first
    | exact Kept.refl _ _ | apply State.sendMsg_kept | split | decide

theorem execCredit_kept (port session : Nat) (s : State) : ResKept [.out, .port0, .port1] s (execCredit port session s) := by
  unfold execCredit
  refine ResKept.checked ?_
  repeat' with_reducible first
    | exact Kept.refl _ _ | apply State.sendCredit_kept | decide

theorem execSessionCloseTimeout_kept (port session : Nat) (s : State) :
    ResKept [.out, .tes, .clusters, .depot, .vault, .port0, .port1] s (execSessionCloseTimeout port session s) := by
  unfold execSessionCloseTimeout
  refine ResKept.checked ?_
  repeat' with_reducible first
    | exact Kept.refl _ _ | apply State.closeSession_kept | apply Kept.ite <;> intro _ | decide

theorem execSessionClosed_kept (port session : Nat) (s : State) :
    ResKept [.out, .tes, .clusters, .depot, .vault, .port0, .port1] s (execSessionClosed port session s) := by
  unfold execSessionClosed
  refine ResKept.checked ?_
  repeat' with_reducible first
    | exact Kept.refl _ _ | apply State.closeSession_kept | apply Kept.ite <;> intro _ | decide

theorem execDrainIntervalEnd_kept (port : Nat) (s : State) :
    ResKept [.out, .tes, .clusters, .depot, .port0, .port1] s (execDrainIntervalEnd port s) := by
  unfold execDrainIntervalEnd
  dsimp only
  refine ResKept.checked ?_
  repeat' with_reducible first
    | exact Kept.refl _ _ | apply State.abortStream_kept | apply State.setPort_kept | apply Kept.ite <;> intro _
    | (apply Kept.foldl; intro _ _) | decide

theorem execPlannedStopDown_kept (port : Nat) (s : State) :
    ResKept [.out, .tes, .clusters, .depot, .port0, .port1, .pcie, .faults, .recorder, .power] s (execPlannedStopDown port s) := by
  unfold execPlannedStopDown
  refine ResKept.checked ?_
  repeat' with_reducible first
    | exact Kept.refl _ _ | apply State.stopEnds_kept | apply Kept.ite <;> intro _ | decide

theorem execPortAckWaitEnd_kept (port : Nat) (s : State) :
    ResKept [.out, .tes, .clusters, .depot, .port0, .port1, .pcie, .faults, .recorder, .power] s (execPortAckWaitEnd port s) := by
  unfold execPortAckWaitEnd
  refine ResKept.checked ?_
  repeat' with_reducible first
    | exact Kept.refl _ _ | apply State.stopEnds_kept | apply Kept.ite <;> intro _ | decide

theorem execCmdTail_kept (fn : Nat) (v : BitVec 32) (s : State) : ResKept [.out, .pcie, .recorder] s (execCmdTail fn v s) := by
  unfold execCmdTail
  dsimp only
  refine ResKept.checked ?_
  repeat' with_reducible first
    | exact Kept.refl _ _ | apply State.ringFail_kept | apply State.modFunc_kept | apply Kept.ite <;> intro _ | decide

theorem execCplHead_kept (fn : Nat) (v : BitVec 32) (s : State) : ResKept hostFields s (execCplHead fn v s) := by
  unfold execCplHead
  dsimp only
  refine ResKept.checked ?_
  repeat' with_reducible first
    | exact Kept.refl _ _ | apply State.ringFail_kept | apply State.modFunc_kept | apply State.cmdDelivered_kept
    | apply Kept.ite <;> intro _ | (apply Kept.foldl; intro _ _) | decide

theorem execRingFetch_kept (fn : Nat) (entry body : Bytes) (s : State) :
    ResKept [.out, .pcie, .recorder] s (execRingFetch fn entry body s) := by
  unfold execRingFetch
  dsimp only
  refine ResKept.checked ?_
  repeat' with_reducible first
    | exact Kept.refl _ _ | apply State.modFunc_kept | apply State.takeIn_kept | apply Kept.ite <;> intro _ | decide

theorem execRingCtrlEnable_kept (fn : Nat) (v : BitVec 32) (s : State) :
    ResKept [.out, .pcie, .recorder] s (execRingCtrlEnable fn v s) := by
  unfold execRingCtrlEnable
  dsimp only
  refine ResKept.checked ?_
  repeat' with_reducible first
    | exact Kept.refl _ _ | apply State.modFunc_kept | apply State.ringFail_kept | apply Kept.ite <;> intro _ | decide

theorem execGo_kept (fn : Nat) (v : BitVec 32) (s : State) : ResKept (hostFields ++ [.time, .power]) s (execGo fn v s) := by
  unfold execGo
  dsimp only
  refine ResKept.checked ?_
  repeat' with_reducible first
    | exact Kept.refl _ _ | apply State.modFunc_kept | apply State.acceptGo_kept | apply State.serveMailbox_kept
    | apply Kept.ite <;> intro _ | decide | exact .inr rfl | exact .inl (by decide) | apply Kept.mk_of

theorem execEventRw1c_kept (fn off : Nat) (v : BitVec 32) (s : State) : ResKept [.pcie] s (execEventRw1c fn off v s) := by
  unfold execEventRw1c
  refine ResKept.checked ?_
  repeat' with_reducible first
    | exact Kept.refl _ _ | apply State.modFunc_kept | apply Kept.ite <;> intro _ | decide

theorem execRegisterWrite_kept (fn off size : Nat) (v : Word) (s : State) :
    ResKept [.out, .pcie] s (execRegisterWrite fn off size v s) := by
  unfold execRegisterWrite
  refine ResKept.checked ?_
  repeat' with_reducible first
    | exact Kept.refl _ _ | apply State.writeReg_kept | apply Kept.ite <;> intro _ | decide

theorem execCompletionIrqDelay_kept (fn : Nat) (s : State) : ResKept [.out, .pcie] s (execCompletionIrqDelay fn s) := by
  unfold execCompletionIrqDelay
  dsimp only
  refine ResKept.checked ?_
  repeat' with_reducible first
    | exact Kept.refl _ _ | apply State.setFunc_kept | apply State.msix_kept | apply Kept.ite <;> intro _ | decide

theorem execFlr_kept (fn : Nat) (s : State) :
    ResKept [.out, .seats, .tes, .clusters, .lanes, .depot, .journal, .port0, .port1, .pcie] s (execFlr fn s) := by
  unfold execFlr
  dsimp only
  refine ResKept.checked ?_
  repeat' with_reducible first
    | exact Kept.refl _ _ | apply State.modFunc_kept | apply State.startReset_kept | apply Kept.ite <;> intro _ | decide

theorem execInstanceResetSquash_kept (fn : Nat) (s : State) :
    ResKept [.out, .seats, .tes, .clusters, .lanes, .depot, .journal, .port0, .port1, .pcie] s (execInstanceResetSquash fn s) := by
  unfold execInstanceResetSquash
  dsimp only
  refine ResKept.checked ?_
  repeat' with_reducible first
    | exact Kept.refl _ _ | apply State.resetSquash_kept | apply State.endCommands_kept | apply State.modFunc_kept
    | apply Kept.ite <;> intro _ | split | decide

theorem execInstanceResetDone_kept (fn : Nat) (s : State) :
    ResKept (hostFields ++ [.mem, .clusters, .lanes, .tenancy, .port0, .port1]) s (execInstanceResetDone fn s) := by
  unfold execInstanceResetDone
  dsimp only
  refine ResKept.checked ?_
  repeat' with_reducible first
    | exact Kept.refl _ _ | apply State.setFunc_kept | apply State.reinstate_kept | apply State.modFunc_kept | apply State.setEvent_kept
    | apply State.resetWaiters_kept | apply Kept.ite <;> intro _ | (apply Kept.foldl; intro _ _) | split | decide

theorem execLaneEmpty_kept (lane : Nat) (s : State) :
    ResKept [.out, .mem, .clusters, .lanes, .tenancy, .port0, .port1, .gates] s (execLaneEmpty lane s) := by
  unfold execLaneEmpty
  dsimp only
  refine ResKept.checked ?_
  repeat' with_reducible first
    | exact Kept.refl _ _ | apply State.closeLane_kept | apply Kept.ite <;> intro _ | decide

theorem execVfEnableClear_kept (numVFs : Nat) (enable : Bool) (s : State) :
    ResKept [.out, .seats, .tes, .clusters, .lanes, .depot, .journal, .port0, .port1, .pcie] s (execVfEnableClear numVFs enable s) := by
  unfold execVfEnableClear
  dsimp only
  refine ResKept.checked ?_
  repeat' with_reducible first
    | exact Kept.refl _ _ | apply State.vfsVanish_kept | apply Kept.ite <;> intro _ | decide | exact .inr rfl | exact .inl (by decide)
    | apply Kept.mk_of

theorem execVfEnableSet_kept (numVFs : Nat) (s : State) :
    ResKept [.out, .seats, .tes, .clusters, .lanes, .depot, .journal, .port0, .port1, .pcie] s (execVfEnableSet numVFs s) := by
  unfold execVfEnableSet
  dsimp only
  refine ResKept.checked ?_
  repeat' with_reducible first
    | exact Kept.refl _ _ | apply State.vfsVanish_kept | apply State.assignVf_kept | apply Kept.ite <;> intro _
    | (apply Kept.foldl; intro _ _) | decide | exact .inr rfl | exact .inl (by decide) | apply Kept.mk_of

theorem execD3hotEntry_kept (s : State) : ResKept [.pcie] s (execD3hotEntry s) := by
  unfold execD3hotEntry
  refine ResKept.next ?_
  repeat' with_reducible first
    | exact Kept.refl _ _ | apply Kept.ite <;> intro _ | decide | exact .inr rfl | exact .inl (by decide) | apply Kept.mk_of

theorem execD3hotExit_kept (s : State) : ResKept [.pcie] s (execD3hotExit s) := by
  unfold execD3hotExit
  refine ResKept.next ?_
  repeat' with_reducible first
    | exact Kept.refl _ _ | apply Kept.ite <;> intro _ | decide | exact .inr rfl | exact .inl (by decide) | apply Kept.mk_of

theorem execFreezeAtRest_kept (fn : Nat) (s : State) : ResKept hostFields s (execFreezeAtRest fn s) := by
  unfold execFreezeAtRest
  dsimp only
  refine ResKept.checked ?_
  repeat' with_reducible first
    | exact Kept.refl _ _ | apply State.setFunc_kept | apply State.setEvent_kept | apply State.finishLater_kept
    | apply Kept.ite <;> intro _ | split | decide

theorem execDeviceInfo_kept (c : Cmd) (s : State) : ResKept hostFields s (execDeviceInfo c s) := by
  unfold execDeviceInfo
  with_reducible refine runCmd_kept (Kept.refl _ _) ?_ fun _ => ?_
  repeat' with_reducible first
    | exact Kept.refl _ _ | apply answer_kept | decide

theorem execDeviceStatus_kept (c : Cmd) (s : State) : ResKept (hostFields ++ [.freeCtr]) s (execDeviceStatus c s) := by
  unfold execDeviceStatus
  dsimp only
  with_reducible refine runCmd_kept (Kept.refl _ _) ?_ fun _ => ?_
  repeat' with_reducible first
    | exact Kept.refl _ _ | apply State.drawn_kept | apply answer_kept | decide

theorem execDeviceReset_kept (c : Cmd) (s : State) : ResKept (hostFields ++ [.power]) s (execDeviceReset c s) := by
  unfold execDeviceReset
  with_reducible refine runCmd_kept (Kept.refl _ _) ?_ fun _ => ?_
  repeat' with_reducible first
    | exact Kept.refl _ _ | apply answer_kept | decide | exact .inr rfl | exact .inl (by decide) | apply Kept.mk_of

theorem execDeviceStandby_kept (c : Cmd) (s : State) :
    ResKept (hostFields ++ [.tes, .clusters, .lanes, .depot, .port0, .port1, .steward, .time, .faults, .power]) s (execDeviceStandby c s) := by
  unfold execDeviceStandby
  dsimp only
  with_reducible refine runCmd_kept (Kept.refl _ _) ?_ fun _ => ?_
  repeat' with_reducible first
    | exact Kept.refl _ _ | apply State.reject_kept | apply State.begin_kept | apply State.startStandby_kept | apply State.defer_kept
    | apply Kept.ite <;> intro _ | decide | exact .inr rfl | exact .inl (by decide) | apply Kept.mk_of

theorem execFaultRead_kept (c : Cmd) (s : State) : ResKept (hostFields ++ [.faults]) s (execFaultRead c s) := by
  unfold execFaultRead
  dsimp only
  with_reducible refine runCmd_kept (Kept.refl _ _) ?_ fun _ => ?_
  repeat' with_reducible first
    | exact Kept.refl _ _ | apply State.reject_kept | apply State.emit_kept | apply answer_kept | apply Kept.ite <;> intro _ | decide
    | exact .inr rfl | exact .inl (by decide) | apply Kept.mk_of

theorem execFaultClear_kept (c : Cmd) (s : State) :
    ResKept (hostFields ++ [.mem, .tes, .clusters, .lanes, .depot, .port0, .port1, .gates, .steward, .entropy, .faults, .power]) s (execFaultClear c s) := by
  unfold execFaultClear
  dsimp only
  with_reducible refine runCmd_kept (Kept.refl _ _) ?_ fun _ => ?_
  repeat' with_reducible first
    | exact Kept.refl _ _ | apply State.reject_kept | apply State.clearActive_kept | apply State.begin_kept | apply State.rerunTest_kept
    | apply answer_kept | split | decide

theorem execRecorderRead_kept (c : Cmd) (s : State) : ResKept hostFields s (execRecorderRead c s) := by
  unfold execRecorderRead
  dsimp only
  with_reducible refine runCmd_kept (Kept.refl _ _) ?_ fun _ => ?_
  repeat' with_reducible first
    | exact Kept.refl _ _ | apply State.reject_kept | apply answer_kept | apply Kept.ite <;> intro _ | decide

theorem execLcStatus_kept (c : Cmd) (s : State) : ResKept faultFields s (execLcStatus c s) := by
  unfold execLcStatus
  dsimp only
  with_reducible refine runCmd_kept (Kept.refl _ _) ?_ fun _ => ?_
  repeat' with_reducible first
    | exact Kept.refl _ _ | apply State.useLifecycle_kept | apply answer_kept | decide

theorem execLcAdvance_kept (c : Cmd) (s : State) :
    ResKept (faultFields ++ [.seats, .lanes, .keys, .entropy, .lc]) s (execLcAdvance c s) := by
  unfold execLcAdvance
  dsimp only
  with_reducible refine runCmd_kept (Kept.refl _ _) ?_ fun _ => ?_
  repeat' with_reducible first
    | exact Kept.refl _ _ | assumption | apply State.useLifecycle_kept | apply State.reject_kept | apply State.begin_kept
    | apply State.lcBegin_kept | (refine State.useAuth_keptE (by assumption) ?_ ?_) | apply useAuthD_kept | apply Kept.ite <;> intro _
    | split | decide

theorem execLcReprovision_kept (c : Cmd) (s : State) : ResKept (faultFields ++ [.entropy]) s (execLcReprovision c s) := by
  unfold execLcReprovision
  with_reducible refine runCmd_kept (Kept.refl _ _) ?_ fun _ => ?_
  repeat' with_reducible first
    | exact Kept.refl _ _ | assumption | apply State.reject_kept | apply State.begin_kept | apply State.askDirect_kept
    | (refine State.useAuth_keptE (by assumption) ?_ ?_) | apply Kept.ite <;> intro _ | split | decide

theorem execTamperStatus_kept (c : Cmd) (s : State) : ResKept hostFields s (execTamperStatus c s) := by
  unfold execTamperStatus
  with_reducible refine runCmd_kept (Kept.refl _ _) ?_ fun _ => ?_
  repeat' with_reducible first
    | exact Kept.refl _ _ | apply answer_kept | decide

theorem execTamperConfig_kept (c : Cmd) (s : State) : ResKept (faultFields ++ [.tamper]) s (execTamperConfig c s) := by
  unfold execTamperConfig
  dsimp only
  with_reducible refine runCmd_kept (Kept.refl _ _) ?_ fun _ => ?_
  repeat' with_reducible first
    | exact Kept.refl _ _ | assumption | apply State.reject_kept | apply State.modSource_kept | apply State.modTamper_kept
    | (refine State.useAuth_keptE (by assumption) ?_ ?_) | apply answer_kept | apply useAuthD_kept | apply Kept.ite <;> intro _ | split
    | decide

theorem execReserveStatus_kept (c : Cmd) (s : State) : ResKept hostFields s (execReserveStatus c s) := by
  unfold execReserveStatus
  dsimp only
  with_reducible refine runCmd_kept (Kept.refl _ _) ?_ fun _ => ?_
  repeat' with_reducible first
    | exact Kept.refl _ _ | apply answer_kept | decide

theorem execReserveEngage_kept (c : Cmd) (s : State) : ResKept (faultFields ++ [.steward, .entropy]) s (execReserveEngage c s) := by
  unfold execReserveEngage
  dsimp only
  with_reducible refine runCmd_kept (Kept.refl _ _) ?_ fun _ => ?_
  repeat' with_reducible first
    | exact Kept.refl _ _ | apply State.reject_kept | apply State.begin_kept | apply State.queueEngagement_kept
    | apply Kept.ite <;> intro _ | decide

theorem execPartFormat_kept (c : Cmd) (s : State) : ResKept (hostFields ++ [.mem, .clusters, .lanes, .tenancy]) s (execPartFormat c s) := by
  unfold execPartFormat
  dsimp only
  with_reducible refine runCmd_kept (Kept.refl _ _) ?_ fun _ => ?_
  repeat' with_reducible first
    | exact Kept.refl _ _ | assumption | apply State.reject_kept | apply State.begin_kept | apply State.cmdAccepted_kept
    | apply State.configured_kept | apply State.addLanes_kept | apply answer_kept | apply Kept.ite <;> intro _ | intro _ _ | decide
    | exact .inr rfl | exact .inl (by decide) | apply Kept.mk_of

theorem execPartCreate_kept (c : Cmd) (s : State) :
    ResKept (hostFields ++ [.mem, .clusters, .lanes, .tenancy, .keys, .port0, .port1, .gates, .steward]) s (execPartCreate c s) := by
  unfold execPartCreate
  dsimp only
  with_reducible refine runCmd_kept (Kept.refl _ _) ?_ fun _ => ?_
  repeat' with_reducible first
    | exact Kept.refl _ _ | assumption | apply State.reject_kept | apply State.begin_kept | apply State.cmdAccepted_kept
    | apply State.configured_kept | apply State.createPart_kept | apply State.flipTags_kept | apply State.awaitRules_kept
    | apply Kept.ite <;> intro _ | intro _ _ | split | decide

theorem execPartDelete_kept (c : Cmd) (s : State) :
    ResKept (hostFields ++ [.seats, .tes, .clusters, .lanes, .depot, .tenancy, .port0, .port1, .gates]) s (execPartDelete c s) := by
  unfold execPartDelete
  dsimp only
  with_reducible refine runCmd_kept (Kept.refl _ _) ?_ fun _ => ?_
  repeat' with_reducible first
    | exact Kept.refl _ _ | apply State.reject_kept | apply State.begin_kept | apply State.cmdAccepted_kept | apply State.setPart_kept
    | apply State.endLanes_kept | apply Kept.ite <;> intro _ | split | decide

theorem execPartPolicy_kept (c : Cmd) (s : State) : ResKept (hostFields ++ [.tenancy]) s (execPartPolicy c s) := by
  unfold execPartPolicy
  dsimp only
  with_reducible refine runCmd_kept (Kept.refl _ _) ?_ fun _ => ?_
  repeat' with_reducible first
    | exact Kept.refl _ _ | assumption | apply State.reject_kept | apply State.begin_kept | apply State.cmdAccepted_kept
    | apply State.configured_kept | apply State.setPart_kept | apply answer_kept | apply Kept.ite <;> intro _ | intro _ _ | split | decide

theorem execPartRekey_kept (c : Cmd) (s : State) : ResKept (hostFields ++ [.tenancy, .keys]) s (execPartRekey c s) := by
  unfold execPartRekey
  dsimp only
  with_reducible refine runCmd_kept (Kept.refl _ _) ?_ fun _ => ?_
  repeat' with_reducible first
    | exact Kept.refl _ _ | assumption | apply State.reject_kept | apply State.begin_kept | apply State.cmdAccepted_kept
    | apply State.configured_kept | apply State.setPart_kept | apply State.formPartKeys_kept | apply Kept.ite <;> intro _ | intro _ _
    | split | decide | exact .inr rfl | exact .inl (by decide) | apply Kept.mk_of

theorem execPartStatus_kept (c : Cmd) (s : State) : ResKept hostFields s (execPartStatus c s) := by
  unfold execPartStatus
  with_reducible refine runCmd_kept (Kept.refl _ _) ?_ fun _ => ?_
  repeat' with_reducible first
    | exact Kept.refl _ _ | apply State.reject_kept | apply answer_kept | apply Kept.ite <;> intro _ | split | decide

theorem execVfCreate_kept (c : Cmd) (s : State) :
    ResKept (hostFields ++ [.mem, .clusters, .lanes, .tenancy, .keys, .port0, .port1, .gates, .steward]) s (execVfCreate c s) := by
  unfold execVfCreate
  dsimp only
  with_reducible refine runCmd_kept (Kept.refl _ _) ?_ fun _ => ?_
  repeat' with_reducible first
    | exact Kept.refl _ _ | assumption | apply State.reject_kept | apply State.begin_kept | apply State.cmdAccepted_kept
    | apply State.configured_kept | apply State.createPart_kept | apply State.flipTags_kept | apply State.modFunc_kept
    | apply State.awaitRules_kept | apply Kept.ite <;> intro _ | intro _ _ | split | decide

theorem execVfDestroy_kept (c : Cmd) (s : State) :
    ResKept (hostFields ++ [.seats, .tes, .clusters, .lanes, .depot, .port0, .port1]) s (execVfDestroy c s) := by
  unfold execVfDestroy
  dsimp only
  with_reducible refine runCmd_kept (Kept.refl _ _) ?_ fun _ => ?_
  repeat' with_reducible first
    | exact Kept.refl _ _ | apply State.reject_kept | apply State.begin_kept | apply State.cmdAccepted_kept | apply State.startReset_kept
    | split | decide

theorem execVfReset_kept (c : Cmd) (s : State) :
    ResKept (hostFields ++ [.seats, .tes, .clusters, .lanes, .depot, .port0, .port1]) s (execVfReset c s) := by
  unfold execVfReset
  dsimp only
  with_reducible refine runCmd_kept (Kept.refl _ _) ?_ fun _ => ?_
  repeat' with_reducible first
    | exact Kept.refl _ _ | apply State.reject_kept | apply State.begin_kept | apply State.startReset_kept | split | decide

theorem execVfFreeze_kept (c : Cmd) (s : State) :
    ResKept (hostFields ++ [.freeCtr, .mem, .seats, .tes, .clusters, .lanes, .depot, .port0, .port1]) s (execVfFreeze c s) := by
  unfold execVfFreeze
  dsimp only
  with_reducible refine runCmd_kept (Kept.refl _ _) ?_ fun _ => ?_
  repeat' with_reducible first
    | exact Kept.refl _ _ | apply State.reject_kept | apply State.begin_kept | apply State.modFunc_kept | apply State.laneTo_kept
    | apply State.markStreams_kept | apply State.requeueSaved_kept | apply State.suspendSeat_kept | apply Kept.ite <;> intro _
    | (apply Kept.foldl; intro _ _) | split | decide

theorem execVfThaw_kept (c : Cmd) (s : State) : ResKept (hostFields ++ [.lanes, .port0, .port1]) s (execVfThaw c s) := by
  unfold execVfThaw
  dsimp only
  with_reducible refine runCmd_kept (Kept.refl _ _) ?_ fun _ => ?_
  repeat' with_reducible first
    | exact Kept.refl _ _ | apply State.reject_kept | apply State.modFunc_kept | apply State.markStreams_kept | apply State.laneTo_kept
    | apply answer_kept | apply Kept.ite <;> intro _ | (apply Kept.foldl; intro _ _) | split | decide

theorem execVfRestore_kept (c : Cmd) (s : State) :
    ResKept (hostFields ++ [.freeCtr, .mem, .clusters, .lanes, .depot, .tenancy, .held, .port0, .port1]) s (execVfRestore c s) := by
  unfold execVfRestore
  dsimp only
  with_reducible refine runCmd_kept (Kept.refl _ _) ?_ fun _ => ?_
  repeat' with_reducible first
    | exact Kept.refl _ _ | apply State.reject_kept | apply State.begin_kept | apply State.cmdAccepted_kept | apply State.modFunc_kept
    | apply State.restoreAll_kept | apply answer_kept | apply Kept.ite <;> intro _ | decide

theorem execVfStatus_kept (c : Cmd) (s : State) : ResKept hostFields s (execVfStatus c s) := by
  unfold execVfStatus
  dsimp only
  with_reducible refine runCmd_kept (Kept.refl _ _) ?_ fun _ => ?_
  repeat' with_reducible first
    | exact Kept.refl _ _ | apply State.reject_kept | apply answer_kept | apply Kept.ite <;> intro _ | decide

theorem execLaneConfig_kept (c : Cmd) (s : State) : ResKept (hostFields ++ [.lanes, .port0, .port1]) s (execLaneConfig c s) := by
  unfold execLaneConfig
  dsimp only
  with_reducible refine runCmd_kept (Kept.refl _ _) ?_ fun _ => ?_
  repeat' with_reducible first
    | exact Kept.refl _ _ | apply State.reject_kept | apply State.setLane_kept | apply State.creditColour_kept | apply answer_kept
    | apply Kept.ite <;> intro _ | split | decide

theorem execLaneStatus_kept (c : Cmd) (s : State) : ResKept hostFields s (execLaneStatus c s) := by
  unfold execLaneStatus
  dsimp only
  with_reducible refine runCmd_kept (Kept.refl _ _) ?_ fun _ => ?_
  repeat' with_reducible first
    | exact Kept.refl _ _ | apply State.reject_kept | apply answer_kept | split | decide

theorem execDepotSet_kept (c : Cmd) (s : State) : ResKept (hostFields ++ [.clusters, .depot]) s (execDepotSet c s) := by
  unfold execDepotSet
  dsimp only
  with_reducible refine runCmd_kept (Kept.refl _ _) ?_ fun _ => ?_
  repeat' with_reducible first
    | exact Kept.refl _ _ | apply State.reject_kept | apply State.wake_kept | apply answer_kept | apply Kept.ite <;> intro _
    | (apply Kept.foldl; intro _ _) | decide | exact .inr rfl | exact .inl (by decide) | apply Kept.mk_of

theorem execDepotStatus_kept (c : Cmd) (s : State) : ResKept hostFields s (execDepotStatus c s) := by
  unfold execDepotStatus
  dsimp only
  with_reducible refine runCmd_kept (Kept.refl _ _) ?_ fun _ => ?_
  repeat' with_reducible first
    | exact Kept.refl _ _ | apply answer_kept | decide

theorem execPlaceStatus_kept (c : Cmd) (s : State) : ResKept hostFields s (execPlaceStatus c s) := by
  unfold execPlaceStatus
  dsimp only
  with_reducible refine runCmd_kept (Kept.refl _ _) ?_ fun _ => ?_
  repeat' with_reducible first
    | exact Kept.refl _ _ | apply answer_kept | decide

theorem execKeyPut_kept (c : Cmd) (s : State) :
    ResKept (hostFields ++ [.clusters, .keys, .vault, .port0, .port1, .openSerial]) s (execKeyPut c s) := by
  unfold execKeyPut
  dsimp only
  with_reducible refine runCmd_kept (Kept.refl _ _) ?_ fun _ => ?_
  repeat' with_reducible first
    | exact Kept.refl _ _ | apply State.begin_kept | apply State.cmdAccepted_kept | apply State.putAll_kept | apply State.keyArrived_kept
    | apply State.finish_kept | decide

theorem execKeyGet_kept (c : Cmd) (s : State) : ResKept hostFields s (execKeyGet c s) := by
  unfold execKeyGet
  dsimp only
  with_reducible refine runCmd_kept (Kept.refl _ _) ?_ fun _ => ?_
  repeat' with_reducible first
    | exact Kept.refl _ _ | apply answer_kept | split | decide

theorem execKeyList_kept (c : Cmd) (s : State) : ResKept hostFields s (execKeyList c s) := by
  unfold execKeyList
  dsimp only
  with_reducible refine runCmd_kept (Kept.refl _ _) ?_ fun _ => ?_
  repeat' with_reducible first
    | exact Kept.refl _ _ | apply answer_kept | decide

theorem execKeyGenerate_kept (c : Cmd) (s : State) :
    ResKept (hostFields ++ [.freeCtr, .clusters, .depot, .keys, .vault, .port0, .port1, .openSerial, .entropy]) s (execKeyGenerate c s) := by
  unfold execKeyGenerate
  dsimp only
  with_reducible refine runCmd_kept (Kept.refl _ _) ?_ fun _ => ?_
  repeat' with_reducible first
    | exact Kept.refl _ _ | apply State.reject_kept | apply State.drawn_kept | apply State.hubRead_kept | apply State.begin_kept
    | apply State.cmdAccepted_kept | apply State.submitOwn_kept | (refine State.makeOne_keptE (by assumption) ?_ ?_) | apply answer_kept
    | apply Kept.ite <;> intro _ | split | decide

theorem execKeyDelete_kept (c : Cmd) (s : State) : ResKept (hostFields ++ [.clusters, .keys]) s (execKeyDelete c s) := by
  unfold execKeyDelete
  dsimp only
  with_reducible refine runCmd_kept (Kept.refl _ _) ?_ fun _ => ?_
  repeat' with_reducible first
    | exact Kept.refl _ _ | apply State.reject_kept | apply State.begin_kept | apply State.cmdAccepted_kept | apply State.cmdIntent_kept
    | apply State.dropHandle_kept | apply State.cmdCommit_kept | apply answer_kept | apply Kept.ite <;> intro _ | split | decide
    | exact .inr rfl | exact .inl (by decide) | apply Kept.mk_of

theorem execKeySetattr_kept (c : Cmd) (s : State) :
    ResKept (hostFields ++ [.freeCtr, .clusters, .keys, .entropy]) s (execKeySetattr c s) := by
  unfold execKeySetattr
  dsimp only
  with_reducible refine runCmd_kept (Kept.refl _ _) ?_ fun _ => ?_
  repeat' with_reducible first
    | exact Kept.refl _ _ | apply State.reject_kept | apply State.begin_kept | apply State.cmdAccepted_kept | apply State.cmdIntent_kept
    | apply State.cmdCommit_kept | (refine State.makeRecord_keptE (by assumption) ?_ ?_) | apply answer_kept | apply Kept.ite <;> intro _
    | split | decide

theorem execKeyImport_kept (c : Cmd) (s : State) :
    ResKept (hostFields ++ [.freeCtr, .clusters, .keys, .vault, .port0, .port1, .openSerial, .entropy]) s (execKeyImport c s) := by
  unfold execKeyImport
  dsimp only
  with_reducible refine runCmd_kept (Kept.refl _ _) ?_ fun _ => ?_
  repeat' with_reducible first
    | exact Kept.refl _ _ | apply State.reject_kept | apply State.begin_kept | (refine State.makeOne_keptE (by assumption) ?_ ?_)
    | apply answer_kept | apply Kept.ite <;> intro _ | split | decide

theorem execKeyExport_kept (c : Cmd) (s : State) : ResKept (hostFields ++ [.freeCtr]) s (execKeyExport c s) := by
  unfold execKeyExport
  dsimp only
  with_reducible refine runCmd_kept (Kept.refl _ _) ?_ fun _ => ?_
  repeat' with_reducible first
    | exact Kept.refl _ _ | apply State.reject_kept | apply State.kbExport_kept | apply answer_kept | apply Kept.ite <;> intro _ | split
    | decide

theorem execKeyCarryOpen_kept (c : Cmd) (s : State) : ResKept (faultFields ++ [.keys]) s (execKeyCarryOpen c s) := by
  unfold execKeyCarryOpen
  dsimp only
  with_reducible refine runCmd_kept (Kept.refl _ _) ?_ fun _ => ?_
  repeat' with_reducible first
    | exact Kept.refl _ _ | assumption | apply State.reject_kept | apply answer_kept | apply useAuthD_kept | apply Kept.ite <;> intro _
    | decide | exact .inr rfl | exact .inl (by decide) | apply Kept.mk_of

theorem execKeyCarryRead_kept (c : Cmd) (s : State) : ResKept (hostFields ++ [.keys]) s (execKeyCarryRead c s) := by
  unfold execKeyCarryRead
  dsimp only
  with_reducible refine runCmd_kept (Kept.refl _ _) ?_ fun _ => ?_
  repeat' with_reducible first
    | exact Kept.refl _ _ | apply State.reject_kept | apply answer_kept | apply Kept.ite <;> intro _ | split | decide | exact .inr rfl
    | exact .inl (by decide) | apply Kept.mk_of

theorem execCaddyStatus_kept (c : Cmd) (s : State) : ResKept hostFields s (execCaddyStatus c s) := by
  unfold execCaddyStatus
  dsimp only
  with_reducible refine runCmd_kept (Kept.refl _ _) ?_ fun _ => ?_
  repeat' with_reducible first
    | exact Kept.refl _ _ | apply answer_kept | decide

theorem execItinLoad_kept (c : Cmd) (s : State) : ResKept (hostFields ++ [.depot]) s (execItinLoad c s) := by
  unfold execItinLoad
  dsimp only
  with_reducible refine runCmd_kept (Kept.refl _ _) ?_ fun _ => ?_
  repeat' with_reducible first
    | exact Kept.refl _ _ | apply State.reject_kept | apply State.refuseImage_kept | apply State.begin_kept
    | apply State.checkSignature_kept | apply Kept.ite <;> intro _ | split | decide

theorem execItinUnload_kept (c : Cmd) (s : State) :
    ResKept (hostFields ++ [.mem, .seats, .tes, .lanes, .tenancy, .held]) s (execItinUnload c s) := by
  unfold execItinUnload
  dsimp only
  with_reducible refine runCmd_kept (Kept.refl _ _) ?_ fun _ => ?_
  repeat' with_reducible first
    | exact Kept.refl _ _ | apply State.reject_kept | apply State.refuseWaiting_kept | apply answer_kept | apply Kept.ite <;> intro _
    | decide | exact .inr rfl | exact .inl (by decide) | apply Kept.mk_of

theorem execItinList_kept (c : Cmd) (s : State) : ResKept hostFields s (execItinList c s) := by
  unfold execItinList
  dsimp only
  with_reducible refine runCmd_kept (Kept.refl _ _) ?_ fun _ => ?_
  repeat' with_reducible first
    | exact Kept.refl _ _ | apply answer_kept | decide

theorem execItinSignerAdd_kept (c : Cmd) (s : State) : ResKept (faultFields ++ [.tenancy]) s (execItinSignerAdd c s) := by
  unfold execItinSignerAdd
  dsimp only
  with_reducible refine runCmd_kept (Kept.refl _ _) ?_ fun _ => ?_
  repeat' with_reducible first
    | exact Kept.refl _ _ | assumption | apply State.reject_kept | apply State.begin_kept | apply State.cmdAccepted_kept
    | apply State.configured_kept | (refine State.useAuth_keptE (by assumption) ?_ ?_) | apply answer_kept | apply useAuthD_kept
    | apply Kept.ite <;> intro _ | intro _ _ | split | decide | exact .inr rfl | exact .inl (by decide) | apply Kept.mk_of

theorem execItinSignerRemove_kept (c : Cmd) (s : State) : ResKept (faultFields ++ [.tenancy]) s (execItinSignerRemove c s) := by
  unfold execItinSignerRemove
  dsimp only
  with_reducible refine runCmd_kept (Kept.refl _ _) ?_ fun _ => ?_
  repeat' with_reducible first
    | exact Kept.refl _ _ | assumption | apply State.reject_kept | apply State.begin_kept | apply State.cmdAccepted_kept
    | apply State.configured_kept | (refine State.useAuth_keptE (by assumption) ?_ ?_) | apply answer_kept | apply useAuthD_kept
    | apply Kept.ite <;> intro _ | intro _ _ | split | decide | exact .inr rfl | exact .inl (by decide) | apply Kept.mk_of

theorem execVaultFormat_kept (c : Cmd) (s : State) :
    ResKept (hostFields ++ [.freeCtr, .clusters, .tenancy, .keys, .vault, .entropy]) s (execVaultFormat c s) := by
  unfold execVaultFormat
  dsimp only
  with_reducible refine runCmd_kept (Kept.refl _ _) ?_ fun _ => ?_
  repeat' with_reducible first
    | exact Kept.refl _ _ | assumption | apply State.reject_kept | apply State.begin_kept | apply State.cmdAccepted_kept
    | apply State.configured_kept | apply State.modVault_kept | apply State.createVault_kept | apply answer_kept
    | apply Kept.ite <;> intro _ | intro _ _ | split | decide

theorem execVaultAlloc_kept (c : Cmd) (s : State) : ResKept (hostFields ++ [.tenancy]) s (execVaultAlloc c s) := by
  unfold execVaultAlloc
  dsimp only
  with_reducible refine runCmd_kept (Kept.refl _ _) ?_ fun _ => ?_
  repeat' with_reducible first
    | exact Kept.refl _ _ | assumption | apply State.reject_kept | apply State.begin_kept | apply State.cmdAccepted_kept
    | apply State.configured_kept | apply State.setPart_kept | apply answer_kept | apply Kept.ite <;> intro _ | intro _ _ | split | decide

theorem execVaultFree_kept (c : Cmd) (s : State) :
    ResKept (hostFields ++ [.freeCtr, .seats, .tenancy, .keys, .vault, .port0, .port1]) s (execVaultFree c s) := by
  unfold execVaultFree
  with_reducible refine runCmd_kept (Kept.refl _ _) ?_ fun _ => ?_
  repeat' with_reducible first
    | exact Kept.refl _ _ | apply State.reject_kept | apply State.begin_kept | apply State.cmdAccepted_kept | apply State.modVault_kept
    | apply State.vaultRun_kept | apply Kept.ite <;> intro _ | split | decide

theorem execVaultAttach_kept (c : Cmd) (s : State) :
    ResKept (hostFields ++ [.freeCtr, .seats, .tenancy, .keys, .vault, .port0, .port1]) s (execVaultAttach c s) := by
  unfold execVaultAttach
  dsimp only
  with_reducible refine runCmd_kept (Kept.refl _ _) ?_ fun _ => ?_
  repeat' with_reducible first
    | exact Kept.refl _ _ | apply State.reject_kept | apply State.markVault_kept | apply State.modVault_kept
    | apply State.vaultReload_kept | apply State.vaultRun_kept | apply answer_kept | apply Kept.ite <;> intro _ | decide

theorem execVaultVersion_kept (c : Cmd) (s : State) :
    ResKept (hostFields ++ [.freeCtr, .seats, .tenancy, .keys, .vault, .port0, .port1]) s (execVaultVersion c s) := by
  unfold execVaultVersion
  with_reducible refine runCmd_kept (Kept.refl _ _) ?_ fun _ => ?_
  repeat' with_reducible first
    | exact Kept.refl _ _ | apply State.begin_kept | apply State.vaultSubmit_kept | decide

theorem execVaultRecover_kept (c : Cmd) (s : State) : ResKept faultFields s (execVaultRecover c s) := by
  unfold execVaultRecover
  dsimp only
  with_reducible refine runCmd_kept (Kept.refl _ _) ?_ fun _ => ?_
  repeat' with_reducible first
    | exact Kept.refl _ _ | assumption | apply State.reject_kept | apply State.begin_kept | apply State.modVault_kept
    | (refine State.vaultGet_keptE (by assumption) ?_ ?_) | apply useAuthD_kept | apply Kept.ite <;> intro _ | split | decide

theorem execVaultStatus_kept (c : Cmd) (s : State) : ResKept hostFields s (execVaultStatus c s) := by
  unfold execVaultStatus
  dsimp only
  with_reducible refine runCmd_kept (Kept.refl _ _) ?_ fun _ => ?_
  repeat' with_reducible first
    | exact Kept.refl _ _ | apply answer_kept | decide

theorem execJournalQuery_kept (c : Cmd) (s : State) : ResKept hostFields s (execJournalQuery c s) := by
  unfold execJournalQuery
  with_reducible refine runCmd_kept (Kept.refl _ _) ?_ fun _ => ?_
  repeat' with_reducible first
    | exact Kept.refl _ _ | apply answer_kept | decide

theorem execJournalStatus_kept (c : Cmd) (s : State) : ResKept hostFields s (execJournalStatus c s) := by
  unfold execJournalStatus
  dsimp only
  with_reducible refine runCmd_kept (Kept.refl _ _) ?_ fun _ => ?_
  repeat' with_reducible first
    | exact Kept.refl _ _ | apply answer_kept | decide

theorem execFreriConfig_kept (c : Cmd) (s : State) :
    ResKept (hostFields ++ [.tes, .clusters, .lanes, .depot, .keys, .port0, .port1, .openSerial, .faults, .power]) s (execFreriConfig c s) := by
  unfold execFreriConfig
  dsimp only
  with_reducible refine runCmd_kept (Kept.refl _ _) ?_ fun _ => ?_
  repeat' with_reducible first
    | exact Kept.refl _ _ | apply State.reject_kept | apply State.baseKey_kept | apply State.setPort_kept
    | apply State.openPortSession_kept | apply State.train_kept | apply State.portDown_kept | apply State.plannedStop_kept
    | apply answer_kept | apply Kept.ite <;> intro _ | split | decide

theorem execFreriSessionOpen_kept (c : Cmd) (s : State) :
    ResKept (hostFields ++ [.keys, .port0, .port1, .openSerial]) s (execFreriSessionOpen c s) := by
  unfold execFreriSessionOpen
  dsimp only
  with_reducible refine runCmd_kept (Kept.refl _ _) ?_ fun _ => ?_
  repeat' with_reducible first
    | exact Kept.refl _ _ | apply State.reject_kept | apply State.nextSerial_kept | apply State.setSession_kept
    | apply State.sendCredit_kept | (refine State.baseKey_keptE (by assumption) ?_ ?_) | apply answer_kept | apply Kept.ite <;> intro _
    | split | decide

theorem execFreriSessionClose_kept (c : Cmd) (s : State) : ResKept (hostFields ++ [.port0, .port1]) s (execFreriSessionClose c s) := by
  unfold execFreriSessionClose
  dsimp only
  with_reducible refine runCmd_kept (Kept.refl _ _) ?_ fun _ => ?_
  repeat' with_reducible first
    | exact Kept.refl _ _ | apply State.reject_kept | apply State.modSession_kept | apply State.creditColour_kept | apply answer_kept
    | apply Kept.ite <;> intro _ | decide

theorem execFreriStatus_kept (c : Cmd) (s : State) : ResKept (hostFields ++ [.freeCtr]) s (execFreriStatus c s) := by
  unfold execFreriStatus
  dsimp only
  with_reducible refine runCmd_kept (Kept.refl _ _) ?_ fun _ => ?_
  repeat' with_reducible first
    | exact Kept.refl _ _ | apply State.reject_kept | apply State.drawnBytes_kept | apply answer_kept | apply Kept.ite <;> intro _
    | decide

theorem execTimeStatus_kept (c : Cmd) (s : State) : ResKept hostFields s (execTimeStatus c s) := by
  unfold execTimeStatus
  dsimp only
  with_reducible refine runCmd_kept (Kept.refl _ _) ?_ fun _ => ?_
  repeat' with_reducible first
    | exact Kept.refl _ _ | apply answer_kept | decide

theorem execTimeConfig_kept (c : Cmd) (s : State) : ResKept (hostFields ++ [.time]) s (execTimeConfig c s) := by
  unfold execTimeConfig
  dsimp only
  with_reducible refine runCmd_kept (Kept.refl _ _) ?_ fun _ => ?_
  repeat' with_reducible first
    | exact Kept.refl _ _ | apply State.reject_kept | apply State.modTime_kept | apply answer_kept | apply Kept.ite <;> intro _ | decide

theorem execEntropyStatus_kept (c : Cmd) (s : State) : ResKept hostFields s (execEntropyStatus c s) := by
  unfold execEntropyStatus
  dsimp only
  with_reducible refine runCmd_kept (Kept.refl _ _) ?_ fun _ => ?_
  repeat' with_reducible first
    | exact Kept.refl _ _ | apply answer_kept | decide

theorem execEntropyConfig_kept (c : Cmd) (s : State) : ResKept (hostFields ++ [.entropy]) s (execEntropyConfig c s) := by
  unfold execEntropyConfig
  dsimp only
  with_reducible refine runCmd_kept (Kept.refl _ _) ?_ fun _ => ?_
  repeat' with_reducible first
    | exact Kept.refl _ _ | apply State.setCell_kept | apply answer_kept | (apply Kept.foldl; intro _ _) | decide

theorem execEntropyKat_kept (c : Cmd) (s : State) : ResKept (hostFields ++ [.steward, .entropy]) s (execEntropyKat c s) := by
  unfold execEntropyKat
  dsimp only
  with_reducible refine runCmd_kept (Kept.refl _ _) ?_ fun _ => ?_
  repeat' with_reducible first
    | exact Kept.refl _ _ | apply State.reject_kept | apply State.begin_kept | apply State.startKat_kept | apply Kept.ite <;> intro _
    | split | decide

theorem execCeremonyBegin_kept (c : Cmd) (s : State) : ResKept (hostFields ++ [.freeCtr, .cards]) s (execCeremonyBegin c s) := by
  unfold execCeremonyBegin
  dsimp only
  with_reducible refine runCmd_kept (Kept.refl _ _) ?_ fun _ => ?_
  repeat' with_reducible first
    | exact Kept.refl _ _ | apply State.reject_kept | apply State.drawn_kept | apply State.activateCard_kept | apply State.joinNext_kept
    | apply answer_kept | apply Kept.ite <;> intro _ | (apply Kept.foldl; intro _ _) | decide | exact .inr rfl | exact .inl (by decide)
    | apply Kept.mk_of

theorem execCeremonyStatus_kept (c : Cmd) (s : State) : ResKept hostFields s (execCeremonyStatus c s) := by
  unfold execCeremonyStatus
  dsimp only
  with_reducible refine runCmd_kept (Kept.refl _ _) ?_ fun _ => ?_
  repeat' with_reducible first
    | exact Kept.refl _ _ | apply State.reject_kept | apply answer_kept | split | decide

theorem execCeremonyAbort_kept (c : Cmd) (s : State) : ResKept faultFields s (execCeremonyAbort c s) := by
  unfold execCeremonyAbort
  with_reducible refine runCmd_kept (Kept.refl _ _) ?_ fun _ => ?_
  repeat' with_reducible first
    | exact Kept.refl _ _ | apply State.reject_kept | apply State.abortCeremony_kept | apply answer_kept | split | decide

theorem execCeremonyOmk_kept (c : Cmd) (s : State) :
    ResKept (faultFields ++ [.freeCtr, .keys, .openSerial, .entropy]) s (execCeremonyOmk c s) := by
  unfold execCeremonyOmk
  dsimp only
  with_reducible refine runCmd_kept (Kept.refl _ _) ?_ fun _ => ?_
  repeat' with_reducible first
    | exact Kept.refl _ _ | apply State.reject_kept | apply State.begin_kept | apply State.cmdAccepted_kept | apply State.cmdIntent_kept
    | apply State.drawn_kept | apply State.cmdCommit_kept | apply State.abortCeremony_kept | apply State.keyArrived_kept
    | (refine State.makeRecord_keptE (by assumption) ?_ ?_) | apply answer_kept | apply Kept.ite <;> intro _ | split | decide
    | exact .inr rfl | exact .inl (by decide) | apply Kept.mk_of

theorem execFwStatus_kept (c : Cmd) (s : State) : ResKept hostFields s (execFwStatus c s) := by
  unfold execFwStatus
  dsimp only
  with_reducible refine runCmd_kept (Kept.refl _ _) ?_ fun _ => ?_
  repeat' with_reducible first
    | exact Kept.refl _ _ | apply answer_kept | decide

theorem execFwStage_kept (c : Cmd) (s : State) : ResKept (hostFields ++ [.power]) s (execFwStage c s) := by
  unfold execFwStage
  dsimp only
  with_reducible refine runCmd_kept (Kept.refl _ _) ?_ fun _ => ?_
  repeat' with_reducible first
    | exact Kept.refl _ _ | apply State.reject_kept | apply State.stageAnswer_kept | apply State.modPower_kept | apply State.finish_kept
    | apply Kept.ite <;> intro _ | decide

theorem execFwActivate_kept (c : Cmd) (s : State) : ResKept (hostFields ++ [.keys, .faults, .power]) s (execFwActivate c s) := by
  unfold execFwActivate
  dsimp only
  with_reducible refine runCmd_kept (Kept.refl _ _) ?_ fun _ => ?_
  repeat' with_reducible first
    | exact Kept.refl _ _ | apply State.reject_kept | apply State.begin_kept | apply State.cmdAccepted_kept | apply State.modPower_kept
    | apply State.cmdIntent_kept | apply State.setDev_kept | apply State.finish_kept | apply Kept.ite <;> intro _ | decide
    | exact .inr rfl | exact .inl (by decide) | apply Kept.mk_of

theorem execFwRewrapDone_kept (s : State) : ResKept [.depot, .keys, .vault, .journal, .power] s (execFwRewrapDone s) := by
  unfold execFwRewrapDone
  dsimp only
  refine ResKept.next ?_
  repeat' with_reducible first
    | exact Kept.refl _ _ | apply State.modPower_kept | apply State.cmdCommit_kept | apply State.anchorRoot_kept
    | apply State.writeMarks_kept | split | decide | exact .inr rfl | exact .inl (by decide) | apply Kept.mk_of

theorem execRekeyRewrapDone_kept (colour : Colour) (s : State) : ResKept (hostFields ++ [.keys]) s (execRekeyRewrapDone colour s) := by
  unfold execRekeyRewrapDone
  dsimp only
  refine ResKept.next ?_
  repeat' with_reducible first
    | exact Kept.refl _ _ | apply State.finishLater_kept | split | decide | exact .inr rfl | exact .inl (by decide) | apply Kept.mk_of

theorem execAuthorisationVoid_kept (s : State) : ResKept [.cards] s (execAuthorisationVoid s) := by
  unfold execAuthorisationVoid
  refine ResKept.next ?_
  repeat' with_reducible first
    | exact Kept.refl _ _ | apply State.modCeremony_kept | decide

theorem execSync_kept (m : PtpMsg) (s : State) : ResKept [.freeCtr, .time, .recorder] s (execSync m s) := by
  unfold execSync
  with_reducible refine ptpRow_kept (Kept.refl _ _) ?_ ?_
  repeat' with_reducible first
    | exact Kept.refl _ _ | apply State.modTime_kept | apply State.gotDifference_kept | apply Kept.ite <;> intro _ | decide

theorem execFollowUp_kept (m : PtpMsg) (s : State) : ResKept [.freeCtr, .time, .recorder] s (execFollowUp m s) := by
  unfold execFollowUp
  with_reducible refine ptpRow_kept (Kept.refl _ _) ?_ ?_
  repeat' with_reducible first
    | exact Kept.refl _ _ | apply State.gotDifference_kept | apply State.ptpDrop_kept | apply Kept.ite <;> intro _ | split | decide

theorem execAnnounce_kept (m : PtpMsg) (s : State) : ResKept [.time, .recorder] s (execAnnounce m s) := by
  unfold execAnnounce
  dsimp only
  with_reducible refine ptpRow_kept (Kept.refl _ _) ?_ ?_
  repeat' with_reducible first
    | exact Kept.refl _ _ | apply State.ptpDrop_kept | apply State.modTime_kept | apply Kept.ite <;> intro _ | decide

theorem execDelayResp_kept (m : PtpMsg) (s : State) : ResKept [.time, .recorder] s (execDelayResp m s) := by
  unfold execDelayResp
  with_reducible refine ptpRow_kept (Kept.refl _ _) ?_ ?_
  repeat' with_reducible first
    | exact Kept.refl _ _ | apply State.gotDelay_kept | apply State.modTime_kept | apply Kept.ite <;> intro _ | split | decide

theorem execPdelayReq_kept (m : PtpMsg) (s : State) : ResKept [.out, .time, .recorder] s (execPdelayReq m s) := by
  unfold execPdelayReq
  with_reducible refine ptpRow_kept (Kept.refl _ _) ?_ ?_
  repeat' with_reducible first
    | exact Kept.refl _ _ | apply State.sendPtp_kept | apply Kept.ite <;> intro _ | decide

theorem execPdelayResp_kept (m : PtpMsg) (s : State) : ResKept [.time, .recorder] s (execPdelayResp m s) := by
  unfold execPdelayResp
  dsimp only
  with_reducible refine ptpRow_kept (Kept.refl _ _) ?_ ?_
  repeat' with_reducible first
    | exact Kept.refl _ _ | apply State.modTime_kept | apply State.gotDelay_kept | apply Kept.ite <;> intro _ | split | decide

theorem execDelayReqSend_kept (s : State) : ResKept [.out, .time] s (execDelayReqSend s) := by
  unfold execDelayReqSend
  dsimp only
  refine ResKept.next ?_
  repeat' with_reducible first
    | exact Kept.refl _ _ | apply State.modTime_kept | apply State.sendPtp_kept | apply Kept.ite <;> intro _ | decide

theorem execPdelayReqSend_kept (s : State) : ResKept [.out, .time] s (execPdelayReqSend s) := by
  unfold execPdelayReqSend
  dsimp only
  refine ResKept.next ?_
  repeat' with_reducible first
    | exact Kept.refl _ _ | apply State.modTime_kept | apply State.sendPtp_kept | apply Kept.ite <;> intro _ | decide

theorem execAnnounceReceiptTimeout_kept (s : State) : ResKept [.time] s (execAnnounceReceiptTimeout s) := by
  unfold execAnnounceReceiptTimeout
  refine ResKept.next ?_
  repeat' with_reducible first
    | exact Kept.refl _ _ | apply State.modTime_kept | split | decide

theorem execSyncLossTimeout_kept (s : State) : ResKept [.time] s (execSyncLossTimeout s) := by
  unfold execSyncLossTimeout
  refine ResKept.next ?_
  repeat' with_reducible first
    | exact Kept.refl _ _ | apply State.modTime_kept | decide

theorem execHoldoverEstimateExceeded_kept (s : State) : ResKept [.time] s (execHoldoverEstimateExceeded s) := by
  unfold execHoldoverEstimateExceeded
  refine ResKept.next ?_
  repeat' with_reducible first
    | exact Kept.refl _ _ | apply State.modTime_kept | apply Kept.ite <;> intro _ | decide

theorem execRef10mLost_kept (s : State) : ResKept (faultFields ++ [.time]) s (execRef10mLost s) := by
  unfold execRef10mLost
  refine ResKept.next ?_
  repeat' with_reducible first
    | exact Kept.refl _ _ | apply State.modTime_kept | apply State.fault_kept | apply Kept.ite <;> intro _ | decide

theorem execPpsInEdge_kept (s : State) : ResKept [.freeCtr, .time] s (execPpsInEdge s) := by
  unfold execPpsInEdge
  dsimp only
  refine ResKept.next ?_
  repeat' with_reducible first
    | exact Kept.refl _ _ | apply State.modTime_kept | apply State.steer_kept | apply Kept.ite <;> intro _ | split | decide

theorem execPpsInMissed_kept (s : State) : ResKept [.time] s (execPpsInMissed s) := by
  unfold execPpsInMissed
  refine ResKept.next ?_
  repeat' with_reducible first
    | exact Kept.refl _ _ | apply State.modTime_kept | decide

theorem execMilepostSecond_kept (s : State) : ResKept [.now, .out, .clusters, .time] s (execMilepostSecond s) := by
  unfold execMilepostSecond
  dsimp only
  refine ResKept.next ?_
  repeat' with_reducible first
    | exact Kept.refl _ _ | apply State.pass_kept | apply State.modTime_kept | apply State.secondBoundary_kept
    | apply Kept.ite <;> intro _ | decide

theorem execPpsOutFall_kept (s : State) : ResKept [.out, .time] s (execPpsOutFall s) := by
  unfold execPpsOutFall
  refine ResKept.next ?_
  repeat' with_reducible first
    | exact Kept.refl _ _ | apply State.modTime_kept | apply State.emit_kept | apply Kept.ite <;> intro _ | decide

theorem execTimingLinkDown_kept (s : State) : ResKept [.time] s (execTimingLinkDown s) := by
  unfold execTimingLinkDown
  refine ResKept.next ?_
  repeat' with_reducible first
    | exact Kept.refl _ _ | apply State.modTime_kept | decide

theorem execCellStabilised_kept (n : Nat) (s : State) : ResKept [.entropy] s (execCellStabilised n s) := by
  unfold execCellStabilised
  dsimp only
  refine ResKept.checked ?_
  repeat' with_reducible first
    | exact Kept.refl _ _ | apply State.setCell_kept | apply Kept.ite <;> intro _ | decide

theorem execNoiseWindowEnd_kept (n : Nat) (raw : List (Bool × Bool)) (s : State) :
    ResKept (faultFields ++ [.entropy]) s (execNoiseWindowEnd n raw s) := by
  unfold execNoiseWindowEnd
  refine ResKept.checked ?_
  repeat' with_reducible first
    | exact Kept.refl _ _ | apply State.windowEnds_kept | split | decide

theorem execFillTimeExceeded_kept (n : Nat) (s : State) : ResKept (faultFields ++ [.entropy]) s (execFillTimeExceeded n s) := by
  unfold execFillTimeExceeded
  dsimp only
  refine ResKept.checked ?_
  repeat' with_reducible first
    | exact Kept.refl _ _ | apply State.windowCounted_kept | apply State.windowFailed_kept | apply Kept.ite <;> intro _ | decide

theorem execDrbgGenerate_kept (e : Nat) (s : State) : ResKept [.clusters, .entropy] s (execDrbgGenerate e s) := by
  unfold execDrbgGenerate
  dsimp only
  refine ResKept.checked ?_
  repeat' with_reducible first
    | exact Kept.refl _ _ | apply State.setExpander_kept | apply Kept.ite <;> intro _ | decide

theorem execReseedRequested_kept (e : Nat) (s : State) : ResKept [.clusters, .entropy] s (execReseedRequested e s) := by
  unfold execReseedRequested
  dsimp only
  refine ResKept.checked ?_
  repeat' with_reducible first
    | exact Kept.refl _ _ | apply State.setExpander_kept | apply State.askDraw_kept | apply Kept.ite <;> intro _ | decide

theorem execReseedRequired_kept (e : Nat) (s : State) : ResKept [.clusters, .entropy] s (execReseedRequired e s) := by
  unfold execReseedRequired
  dsimp only
  refine ResKept.checked ?_
  repeat' with_reducible first
    | exact Kept.refl _ _ | apply State.setExpander_kept | apply State.askDraw_kept | apply Kept.ite <;> intro _ | decide

theorem execSeedWait_kept (e : Nat) (s : State) : ResKept faultFields s (execSeedWait e s) := by
  unfold execSeedWait
  dsimp only
  refine ResKept.checked ?_
  repeat' with_reducible first
    | exact Kept.refl _ _ | apply State.fault_kept | apply Kept.ite <;> intro _ | decide

theorem execKatDone_kept (src : BitVec 16) (failed : Nat) (cell : Nat) (s : State) :
    ResKept (faultFields ++ [.freeCtr, .mem, .seats, .lanes, .gates, .steward, .time, .entropy]) s (execKatDone src failed cell s) := by
  unfold execKatDone
  dsimp only
  refine ResKept.next ?_
  repeat' with_reducible first
    | exact Kept.refl _ _ | apply State.kettleTested_kept | apply State.hubTested_kept | apply State.clusterTested_kept
    | apply State.katAnswer_kept | apply State.rerunDone_kept | apply Kept.ite <;> intro _ | split | decide

theorem execCardInserted_kept (slot : Nat) (s : State) : ResKept [.out, .cards] s (execCardInserted slot s) := by
  unfold execCardInserted
  refine ResKept.checked ?_
  repeat' with_reducible first
    | exact Kept.refl _ _ | apply State.activateCard_kept | apply Kept.ite <;> intro _ | decide

theorem execCardRemoved_kept (slot : Nat) (s : State) : ResKept faultFields s (execCardRemoved slot s) := by
  unfold execCardRemoved
  dsimp only
  refine ResKept.checked ?_
  repeat' with_reducible first
    | exact Kept.refl _ _ | apply State.count_kept | apply State.cardOff_kept | apply State.setCard_kept | apply State.joinNext_kept
    | apply Kept.ite <;> intro _ | decide

theorem execAtr_kept (slot : Nat) (bytes : Bytes) (s : State) : ResKept faultFields s (execAtr slot bytes s) := by
  unfold execAtr
  dsimp only
  refine ResKept.checked ?_
  repeat' with_reducible first
    | exact Kept.refl _ _ | apply State.refuseCard_kept | apply State.tryClassB_kept | apply State.modCard_kept | apply State.sendIfs_kept
    | apply State.emit_kept | apply Kept.ite <;> intro _ | split | decide

theorem execAtrTimeout_kept (slot : Nat) (s : State) : ResKept faultFields s (execAtrTimeout slot s) := by
  unfold execAtrTimeout
  refine ResKept.checked ?_
  repeat' with_reducible first
    | exact Kept.refl _ _ | apply State.tryClassB_kept | apply State.refuseCard_kept | apply Kept.ite <;> intro _ | decide

theorem execClassBReactivate_kept (slot : Nat) (s : State) : ResKept [.out, .cards] s (execClassBReactivate slot s) := by
  unfold execClassBReactivate
  refine ResKept.checked ?_
  repeat' with_reducible first
    | exact Kept.refl _ _ | apply State.activateCard_kept | apply Kept.ite <;> intro _ | decide

theorem execPpsResponse_kept (slot : Nat) (bytes : Bytes) (s : State) : ResKept faultFields s (execPpsResponse slot bytes s) := by
  unfold execPpsResponse
  dsimp only
  refine ResKept.checked ?_
  repeat' with_reducible first
    | exact Kept.refl _ _ | apply State.sendIfs_kept | apply State.refuseCard_kept | apply Kept.ite <;> intro _ | decide

theorem execT1Block_kept (slot : Nat) (bytes : Bytes) (s : State) :
    ResKept (faultFields ++ [.freeCtr, .entropy]) s (execT1Block slot bytes s) := by
  unfold execT1Block
  dsimp only
  refine ResKept.checked ?_
  repeat' with_reducible first
    | exact Kept.refl _ _ | apply State.t1Error_kept | apply State.gotI_kept | apply State.gotR_kept | apply State.gotS_kept
    | apply Kept.ite <;> intro _ | decide

theorem execBlockWaitingTimeout_kept (slot : Nat) (s : State) : ResKept faultFields s (execBlockWaitingTimeout slot s) := by
  unfold execBlockWaitingTimeout
  refine ResKept.checked ?_
  repeat' with_reducible first
    | exact Kept.refl _ _ | apply State.t1Error_kept | apply Kept.ite <;> intro _ | decide

theorem execWtxCeiling_kept (slot : Nat) (s : State) : ResKept faultFields s (execWtxCeiling slot s) := by
  unfold execWtxCeiling
  refine ResKept.checked ?_
  repeat' with_reducible first
    | exact Kept.refl _ _ | apply State.cardFails_kept | apply Kept.ite <;> intro _ | decide

theorem execCardInactivity_kept (slot : Nat) (s : State) : ResKept faultFields s (execCardInactivity slot s) := by
  unfold execCardInactivity
  refine ResKept.checked ?_
  repeat' with_reducible first
    | exact Kept.refl _ _ | apply State.cardOff_kept | apply State.joinNext_kept | decide

theorem execCeremonyTimeout_kept (s : State) : ResKept faultFields s (execCeremonyTimeout s) := by
  unfold execCeremonyTimeout
  refine ResKept.next ?_
  repeat' with_reducible first
    | exact Kept.refl _ _ | apply State.abortCeremony_kept | apply Kept.ite <;> intro _ | split | decide

theorem execSourceSample_kept (samples : List (Nat × BitVec 8)) (s : State) :
    ResKept (faultFields ++ [.mem, .seats, .lanes, .keys, .entropy, .tamper]) s (execSourceSample samples s) := by
  unfold execSourceSample
  refine ResKept.next ?_
  repeat' with_reducible first
    | exact Kept.refl _ _ | apply State.useSources_kept | apply State.sampleAll_kept | decide

theorem execContinuousInterval_kept (samples : List (Nat × BitVec 8)) (s : State) :
    ResKept (faultFields ++ [.mem, .seats, .lanes, .keys, .entropy, .tamper]) s (execContinuousInterval samples s) := by
  unfold execContinuousInterval
  refine ResKept.next ?_
  repeat' with_reducible first
    | exact Kept.refl _ _ | apply State.useSources_kept | apply State.sampleAll_kept | decide

theorem execTamperResponseDone_kept (s : State) :
    ResKept (faultFields ++ [.mem, .seats, .lanes, .keys, .entropy, .tamper]) s (execTamperResponseDone s) := by
  unfold execTamperResponseDone
  dsimp only
  refine ResKept.next ?_
  repeat' with_reducible first
    | exact Kept.refl _ _ | apply State.reportCurrent_kept | apply State.modTamper_kept | apply State.nextResponse_kept
    | apply Kept.ite <;> intro _ | decide

theorem execBackupShadowMismatch_kept (s : State) : ResKept [.tamper] s (execBackupShadowMismatch s) := by
  unfold execBackupShadowMismatch
  refine ResKept.next ?_
  repeat' with_reducible first
    | exact Kept.refl _ _ | apply State.defaultSources_kept | apply State.modTamper_kept | apply Kept.ite <;> intro _ | decide

theorem execFaultArrival_kept (cls : Fin 5) (kind : Byte) (src : BitVec 16) (detail : Word) (s : State) :
    ResKept (faultFields ++ [.gates]) s (execFaultArrival cls kind src detail s) := by
  unfold execFaultArrival
  refine ResKept.next ?_
  repeat' with_reducible first
    | exact Kept.refl _ _ | apply State.fencedReport_kept | apply State.fault_kept | apply Kept.ite <;> intro _ | decide

theorem execClass3Squash_kept (s : State) :
    ResKept [.out, .seats, .tes, .clusters, .lanes, .depot, .journal, .port0, .port1, .pcie] s (execClass3Squash s) := by
  unfold execClass3Squash
  refine ResKept.next ?_
  repeat' with_reducible first
    | exact Kept.refl _ _ | apply State.squashTenants_kept | apply Kept.ite <;> intro _ | decide

theorem execFaultHandling_kept (s : State) : ResKept [.faults] s (execFaultHandling s) := by
  unfold execFaultHandling
  dsimp only
  refine ResKept.next ?_
  repeat' with_reducible first
    | exact Kept.refl _ _ | apply Kept.ite <;> intro _ | split | decide | exact .inr rfl | exact .inl (by decide) | apply Kept.mk_of

theorem execGateLatchClear_kept (gate : Nat) (s : State) : ResKept [.gates] s (execGateLatchClear gate s) := by
  unfold execGateLatchClear
  dsimp only
  refine ResKept.checked ?_
  repeat' with_reducible first
    | exact Kept.refl _ _ | apply State.setGate_kept | apply Kept.ite <;> intro _ | split | decide

theorem execAliveOutToggle_kept (s : State) : ResKept [.out, .faults] s (execAliveOutToggle s) := by
  unfold execAliveOutToggle
  refine ResKept.next ?_
  repeat' with_reducible first
    | exact Kept.refl _ _ | apply State.emit_kept | apply Kept.ite <;> intro _ | decide | exact .inr rfl | exact .inl (by decide)
    | apply Kept.mk_of

theorem execPeerAliveInEdge_kept (s : State) : ResKept faultFields s (execPeerAliveInEdge s) := by
  unfold execPeerAliveInEdge
  dsimp only
  refine ResKept.next ?_
  repeat' with_reducible first
    | exact Kept.refl _ _ | apply State.fault_kept | apply Kept.ite <;> intro _ | decide | exact .inr rfl | exact .inl (by decide)
    | apply Kept.mk_of

theorem execPeerAliveLost_kept (s : State) : ResKept faultFields s (execPeerAliveLost s) := by
  unfold execPeerAliveLost
  refine ResKept.next ?_
  repeat' with_reducible first
    | exact Kept.refl _ _ | apply State.count_kept | apply State.fault_kept | apply Kept.ite <;> intro _ | decide | exact .inr rfl
    | exact .inl (by decide) | apply Kept.mk_of

theorem execRecorderSample_kept (rec : Nat) (value : Int) (s : State) :
    ResKept [.out, .clusters, .port0, .port1, .recorder, .power] s (execRecorderSample rec value s) := by
  unfold execRecorderSample
  dsimp only
  refine ResKept.next ?_
  repeat' with_reducible first
    | exact Kept.refl _ _ | apply State.laneSample_kept | apply State.tempChange_kept | apply State.modCluster_kept
    | apply State.updateRec_kept | apply Kept.ite <;> intro _ | decide | exact .inr rfl | exact .inl (by decide) | apply Kept.mk_of

theorem execRecorderFlush_kept (s : State) : ResKept [.recorder] s (execRecorderFlush s) := by
  unfold execRecorderFlush
  refine ResKept.next ?_
  repeat' with_reducible first
    | exact Kept.refl _ _ | apply State.modRecorder_kept | apply Kept.ite <;> intro _ | decide

theorem execRecorderFlushDone_kept (s : State) : ResKept [.recorder] s (execRecorderFlushDone s) := by
  unfold execRecorderFlushDone
  refine ResKept.next ?_
  repeat' with_reducible first
    | exact Kept.refl _ _ | apply State.flushed_kept | apply Kept.ite <;> intro _ | decide

theorem execRecorderPeriodicFlush_kept (s : State) : ResKept [.recorder] s (execRecorderPeriodicFlush s) := by
  unfold execRecorderPeriodicFlush
  refine ResKept.next ?_
  repeat' with_reducible first
    | exact Kept.refl _ _ | apply State.flushWanted_kept | decide

theorem execOperatingHoursTick_kept (s : State) : ResKept [.recorder] s (execOperatingHoursTick s) := by
  unfold execOperatingHoursTick
  refine ResKept.next ?_
  repeat' with_reducible first
    | exact Kept.refl _ _ | apply State.modRecorder_kept | apply Kept.ite <;> intro _ | decide

theorem execHolderRenewal_kept (s : State) : ResKept (faultFields ++ [.gates, .steward]) s (execHolderRenewal s) := by
  unfold execHolderRenewal
  refine ResKept.next ?_
  repeat' with_reducible first
    | exact Kept.refl _ _ | apply State.refereeStep_kept | apply Kept.ite <;> intro _ | split | decide

theorem execRefereeClaim_kept (claims : List Claim) (s : State) :
    ResKept (faultFields ++ [.gates, .steward]) s (execRefereeClaim claims s) := by
  unfold execRefereeClaim
  refine ResKept.next ?_
  repeat' with_reducible first
    | exact Kept.refl _ _ | apply State.refereeStep_kept | decide

theorem execClaimLapse_kept (s : State) : ResKept [.steward] s (execClaimLapse s) := by
  unfold execClaimLapse
  refine ResKept.next ?_
  repeat' with_reducible first
    | exact Kept.refl _ _ | apply State.modSteward_kept | decide

theorem execLockstepMismatch_kept (s : State) : ResKept (faultFields ++ [.steward]) s (execLockstepMismatch s) := by
  unfold execLockstepMismatch
  refine ResKept.next ?_
  repeat' with_reducible first
    | exact Kept.refl _ _ | apply State.modSteward_kept | apply State.pairFails_kept | apply Kept.ite <;> intro _ | split | decide

theorem execFailoverGrant_kept (s : State) :
    ResKept (faultFields ++ [.mem, .lanes, .keys, .gates, .steward, .time]) s (execFailoverGrant s) := by
  unfold execFailoverGrant
  dsimp only
  refine ResKept.next ?_
  repeat' with_reducible first
    | exact Kept.refl _ _ | apply State.fault_kept | apply State.grantToken_kept | apply State.modSteward_kept | apply State.takeOver_kept
    | apply Kept.ite <;> intro _ | split | decide

theorem execStewardSelftestDone_kept (south : Bool) (ok : Bool) (s : State) :
    ResKept (faultFields ++ [.mem, .lanes, .gates, .steward]) s (execStewardSelftestDone south ok s) := by
  unfold execStewardSelftestDone
  refine ResKept.next ?_
  repeat' with_reducible first
    | exact Kept.refl _ _ | apply State.modSteward_kept | apply State.rerunDone_kept | apply State.pairFails_kept
    | apply Kept.ite <;> intro _ | decide

theorem execGateEpochFlip_kept (gate : Nat) (rules : List Region) (s : State) : ResKept [.gates] s (execGateEpochFlip gate rules s) := by
  unfold execGateEpochFlip
  dsimp only
  refine ResKept.checked ?_
  repeat' with_reducible first
    | exact Kept.refl _ _ | apply State.setGate_kept | apply Kept.ite <;> intro _ | decide

theorem execGateDrainDone_kept (gate : Nat) (s : State) : ResKept (hostFields ++ [.gates, .steward]) s (execGateDrainDone gate s) := by
  unfold execGateDrainDone
  dsimp only
  refine ResKept.checked ?_
  repeat' with_reducible first
    | exact Kept.refl _ _ | apply State.setGate_kept | apply State.modSteward_kept | apply State.endLater_kept
    | (apply Kept.foldl; intro _ _) | decide

theorem execGateDrainOverdue_kept (gate : Nat) (s : State) : ResKept faultFields s (execGateDrainOverdue gate s) := by
  unfold execGateDrainOverdue
  refine ResKept.checked ?_
  repeat' with_reducible first
    | exact Kept.refl _ _ | apply State.fault_kept | apply Kept.ite <;> intro _ | decide

theorem execInnerHoldOverdue_kept (src : BitVec 16) (s : State) : ResKept faultFields s (execInnerHoldOverdue src s) := by
  unfold execInnerHoldOverdue
  refine ResKept.next ?_
  repeat' with_reducible first
    | exact Kept.refl _ _ | apply State.fault_kept | apply Kept.ite <;> intro _ | decide

theorem execHoldRelease_kept (src : BitVec 16) (s : State) :
    ResKept (hostFields ++ [.mem, .tes, .clusters, .lanes, .depot, .port0, .port1, .steward, .time, .faults, .power]) s (execHoldRelease src s) := by
  unfold execHoldRelease
  refine ResKept.next ?_
  repeat' with_reducible first
    | exact Kept.refl _ _ | apply State.releaseHold_kept | apply Kept.ite <;> intro _ | decide

theorem execForcedStop_kept (c : Nat) (s : State) : ResKept (faultFields ++ [.mem, .seats, .lanes]) s (execForcedStop c s) := by
  unfold execForcedStop
  dsimp only
  refine ResKept.checked ?_
  repeat' with_reducible first
    | exact Kept.refl _ _ | apply State.endCluster_kept | apply State.fault_kept | apply State.modCluster_kept
    | apply Kept.ite <;> intro _ | decide

theorem execShareStorePropagated_kept (colour : Colour) (s : State) : ResKept [.mem] s (execShareStorePropagated colour s) := by
  unfold execShareStorePropagated
  dsimp only
  refine ResKept.next ?_
  repeat' with_reducible first
    | exact Kept.refl _ _ | apply State.store_kept | (apply Kept.foldl; intro _ _) | split | decide

theorem execPorstNAssert_kept (s : State) : ResKept Fld.all s (execPorstNAssert s) := by
  unfold execPorstNAssert
  refine ResKept.next ?_
  repeat' with_reducible first
    | exact Kept.refl _ _ | apply State.powerLoss_kept | apply Kept.ite <;> intro _ | decide

theorem execPorstNRelease_kept (s : State) : ResKept [.time, .recorder, .power] s (execPorstNRelease s) := by
  unfold execPorstNRelease
  dsimp only
  refine ResKept.next ?_
  repeat' with_reducible first
    | exact Kept.refl _ _ | apply State.modRecorder_kept | apply State.modPower_kept | apply Kept.ite <;> intro _ | decide
    | exact .inr rfl | exact .inl (by decide) | apply Kept.mk_of

theorem execRailBelowThreshold_kept (rail : Nat) (s : State) : ResKept Fld.all s (execRailBelowThreshold rail s) := by
  unfold execRailBelowThreshold
  dsimp only
  refine ResKept.checked ?_
  repeat' with_reducible first
    | exact Kept.refl _ _ | apply State.backupDies_kept | apply State.modPower_kept | apply State.powerLoss_kept
    | apply Kept.ite <;> intro _ | decide | exact .inr rfl | exact .inl (by decide) | apply Kept.mk_of

theorem execStartupStepDone_kept (obs : BootObs) (s : State) :
    ResKept (takeFields ++ [.held, .openSerial, .gates, .steward, .time, .entropy, .tamper, .lc]) s (execStartupStepDone obs s) := by
  unfold execStartupStepDone
  dsimp only
  refine ResKept.next ?_
  repeat' with_reducible first
    | exact Kept.refl _ _ | apply State.lcStart_kept | apply State.backupStart_kept | apply State.entropyStart_kept
    | apply State.recorderStart_kept | apply State.selectPair_kept | apply State.modPower_kept | apply State.slotSettings_kept
    | apply State.toStep_kept | apply State.trainMemory_kept | apply State.steepRoots_kept | apply State.writeOutcomes_kept
    | apply State.testClusters_kept | apply State.restoreTables_kept | apply State.startupEnds_kept | apply Kept.ite <;> intro _ | split
    | decide

theorem execGovernorTick_kept (power : Nat) (s : State) : ResKept [.clusters, .power] s (execGovernorTick power s) := by
  unfold execGovernorTick
  dsimp only
  refine ResKept.next ?_
  repeat' with_reducible first
    | exact Kept.refl _ _ | apply State.modPower_kept | apply State.modCluster_kept | apply Kept.ite <;> intro _ | split | decide

theorem execLoopAdjust_kept (c : Nat) (slack temp : Int) (stretch : Bool) (s : State) :
    ResKept [.out, .clusters, .recorder] s (execLoopAdjust c slack temp stretch s) := by
  unfold execLoopAdjust
  dsimp only
  refine ResKept.checked ?_
  repeat' with_reducible first
    | exact Kept.refl _ _ | apply State.tempChange_kept | apply State.modCluster_kept | apply State.updateRec_kept
    | apply Kept.ite <;> intro _ | decide

theorem execMarginLow1s_kept (c : Nat) (s : State) :
    ResKept (faultFields ++ [.freeCtr, .mem, .seats, .lanes, .steward, .time, .entropy]) s (execMarginLow1s c s) := by
  unfold execMarginLow1s
  refine ResKept.checked ?_
  repeat' with_reducible first
    | exact Kept.refl _ _ | apply State.flagFailing_kept | apply Kept.ite <;> intro _ | decide

theorem execCorrectedRateHigh_kept (c : Nat) (s : State) :
    ResKept (faultFields ++ [.freeCtr, .mem, .seats, .lanes, .steward, .time, .entropy]) s (execCorrectedRateHigh c s) := by
  unfold execCorrectedRateHigh
  refine ResKept.checked ?_
  repeat' with_reducible first
    | exact Kept.refl _ _ | apply State.flagFailing_kept | apply Kept.ite <;> intro _ | decide

theorem execSelftestDue_kept (src : BitVec 16) (s : State) : ResKept [.clusters, .power] s (execSelftestDue src s) := by
  unfold execSelftestDue
  refine ResKept.next ?_
  repeat' with_reducible first
    | exact Kept.refl _ _ | apply State.modCluster_kept | apply Kept.ite <;> intro _ | split | decide | exact .inr rfl
    | exact .inl (by decide) | apply Kept.mk_of

theorem execSelftestDone_kept (src : BitVec 16) (ok : Bool) (s : State) :
    ResKept (faultFields ++ [.freeCtr, .mem, .seats, .lanes, .keys, .gates, .steward, .time, .entropy]) s (execSelftestDone src ok s) := by
  unfold execSelftestDone
  dsimp only
  refine ResKept.next ?_
  repeat' with_reducible first
    | exact Kept.refl _ _ | apply State.modCluster_kept | apply State.flagFailing_kept | apply State.maeTested_kept
    | apply State.setTe_kept | apply State.unitFails_kept | apply State.rerunDone_kept | apply Kept.ite <;> intro _ | split | decide

theorem execQuiesceDone_kept (c : Nat) (s : State) :
    ResKept (faultFields ++ [.freeCtr, .mem, .seats, .lanes, .steward, .time, .entropy]) s (execQuiesceDone c s) := by
  unfold execQuiesceDone
  refine ResKept.checked ?_
  repeat' with_reducible first
    | exact Kept.refl _ _ | apply State.endCluster_kept | apply State.releaseHold_kept | apply State.dropEngagement_kept
    | apply State.fault_kept | apply State.startEngagement_kept | apply State.modEngagement_kept | apply State.packAll_kept
    | apply Kept.ite <;> intro _ | split | decide

theorem execReserveEngaged_kept (c : Nat) (s : State) :
    ResKept (faultFields ++ [.mem, .seats, .lanes, .keys, .steward, .time, .entropy]) s (execReserveEngaged c s) := by
  unfold execReserveEngaged
  dsimp only
  refine ResKept.checked ?_
  repeat' with_reducible first
    | exact Kept.refl _ _ | apply State.replaceIn_kept | apply State.endCluster_kept | apply State.modCluster_kept
    | apply State.dropEngagement_kept | apply State.releaseHold_kept | apply State.startTe_kept | apply State.maeResume_kept
    | apply State.fault_kept | apply State.engageDone_kept | apply State.startEngagement_kept | apply Kept.ite <;> intro _
    | (apply Kept.foldl; intro _ _) | split | decide

theorem execDramPageRemap_kept (page : Nat) (s : State) : ResKept faultFields s (execDramPageRemap page s) := by
  unfold execDramPageRemap
  dsimp only
  refine ResKept.next ?_
  repeat' with_reducible first
    | exact Kept.refl _ _ | apply State.modPower_kept | apply State.fault_kept | apply Kept.ite <;> intro _ | split | decide

theorem execDramUncorrectable_kept (ch : Nat) (addr : BitVec 40) (s : State) : ResKept faultFields s (execDramUncorrectable ch addr s) := by
  unfold execDramUncorrectable
  refine ResKept.checked ?_
  repeat' with_reducible first
    | exact Kept.refl _ _ | apply State.fault_kept | apply State.queuePage_kept | decide

theorem execCaddyIntegrity_kept (slot : BitVec 17) (s : State) : ResKept faultFields s (execCaddyIntegrity slot s) := by
  unfold execCaddyIntegrity
  refine ResKept.next ?_
  repeat' with_reducible first
    | exact Kept.refl _ _ | apply State.fault_kept | decide

theorem execSramCorrected_kept (src : BitVec 16) (detail : Word) (s : State) :
    ResKept (faultFields ++ [.lanes, .keys]) s (execSramCorrected src detail s) := by
  unfold execSramCorrected
  dsimp only
  refine ResKept.next ?_
  repeat' with_reducible first
    | exact Kept.refl _ _ | apply State.fault_kept | apply State.poolCorrected_kept | apply State.modCluster_kept
    | apply Kept.ite <;> intro _ | split | decide | exact .inr rfl | exact .inl (by decide) | apply Kept.mk_of

theorem execDegradedVputTimeout_kept (u : SeatRef) (s : State) :
    ResKept (hostFields ++ [.seats, .vault]) s (execDegradedVputTimeout u s) := by
  unfold execDegradedVputTimeout
  refine ResKept.checked ?_
  repeat' with_reducible first
    | exact Kept.refl _ _ | apply State.endOp_kept | apply Kept.ite <;> intro _ | split | decide

theorem execPpsResponseTimeout_kept (slot : Nat) (s : State) : ResKept [.out, .cards] s (execPpsResponseTimeout slot s) := by
  unfold execPpsResponseTimeout
  dsimp only
  refine ResKept.checked ?_
  repeat' with_reducible first
    | exact Kept.refl _ _ | apply State.emit_kept | apply State.activateCard_kept | apply Kept.ite <;> intro _ | decide

theorem execDramCorrected_kept (ch : Nat) (addr : BitVec 40) (s : State) : ResKept faultFields s (execDramCorrected ch addr s) := by
  unfold execDramCorrected
  dsimp only
  refine ResKept.checked ?_
  repeat' with_reducible first
    | exact Kept.refl _ _ | apply State.fault_kept | apply State.modPower_kept | apply State.queuePage_kept | apply Kept.ite <;> intro _
    | decide

theorem execMramCorrected_kept (off : BitVec 21) (s : State) : ResKept faultFields s (execMramCorrected off s) := by
  unfold execMramCorrected
  refine ResKept.next ?_
  repeat' with_reducible first
    | exact Kept.refl _ _ | apply State.fault_kept | decide

theorem execDmaFault_kept (fn : Nat) (at_ : DmaPoint) (s : State) : ResKept [.out, .pcie, .recorder] s (execDmaFault fn at_ s) := by
  unfold execDmaFault
  refine ResKept.checked ?_
  repeat' with_reducible first
    | exact Kept.refl _ _ | apply State.ringFail_kept | apply State.reject_kept | split | decide | exact .inr rfl | exact .inl (by decide)
    | apply Kept.mk_of

theorem execFreriRefclkPresent_kept (port : Nat) (s : State) : ResKept [.port0, .port1] s (execFreriRefclkPresent port s) := by
  unfold execFreriRefclkPresent
  refine ResKept.checked ?_
  repeat' with_reducible first
    | exact Kept.refl _ _ | apply State.setPort_kept | apply State.train_kept | decide

theorem execDbgUnlock_kept (unlock : Bytes) (s : State) :
    ResKept (faultFields ++ [.freeCtr, .keys, .entropy, .lc]) s (execDbgUnlock unlock s) := by
  unfold execDbgUnlock
  dsimp only
  refine ResKept.next ?_
  repeat' with_reducible first
    | exact Kept.refl _ _ | apply State.useLifecycle_kept | apply State.modLc_kept | apply State.lcSettle_kept
    | apply State.issueNonce_kept | apply Kept.ite <;> intro _ | split | decide | exact .inr rfl | exact .inl (by decide)
    | apply Kept.mk_of

theorem execVendorTestMode_kept (target : Byte) (s : State) :
    ResKept (faultFields ++ [.seats, .lanes, .keys, .entropy, .lc]) s (execVendorTestMode target s) := by
  unfold execVendorTestMode
  dsimp only
  refine ResKept.next ?_
  repeat' with_reducible first
    | exact Kept.refl _ _ | apply State.useLifecycle_kept | apply State.lcBegin_kept | apply Kept.ite <;> intro _ | decide

theorem execLcTransitionDone_kept (s : State) :
    ResKept (faultFields ++ [.mem, .seats, .lanes, .tenancy, .keys, .held, .openSerial, .tamper, .lc]) s (execLcTransitionDone s) := by
  unfold execLcTransitionDone
  dsimp only
  refine ResKept.next ?_
  repeat' with_reducible first
    | exact Kept.refl _ _ | apply State.lcWipe_kept | apply State.lcEnter_kept | apply State.formRoots_kept | apply State.lcSettle_kept
    | apply State.finishLater_kept | apply Kept.ite <;> intro _ | split | decide

theorem execGranuleZeroingDone_kept (colour : Colour) (s : State) :
    ResKept [.mem, .clusters, .tenancy, .keys, .journal, .gates, .steward] s (execGranuleZeroingDone colour s) := by
  unfold execGranuleZeroingDone
  dsimp only
  refine ResKept.next ?_
  repeat' with_reducible first
    | exact Kept.refl _ _ | assumption | apply State.configured_kept | apply State.eraseColour_kept | apply State.zeroGranules_kept
    | apply State.flipTags_kept | apply State.awaitRules_kept | apply Kept.ite <;> intro _ | intro _ _ | split | decide | exact .inr rfl
    | exact .inl (by decide) | apply Kept.mk_of

theorem execAdd_kept (u : SeatRef) (rd rs1 rs2 : Fin 32) (s : State) : ResKept seatFields s (execAdd u rd rs1 rs2 s) :=
  regOp_kept _ _ _ _ _ _ _

theorem execSub_kept (u : SeatRef) (rd rs1 rs2 : Fin 32) (s : State) : ResKept seatFields s (execSub u rd rs1 rs2 s) :=
  regOp_kept _ _ _ _ _ _ _

theorem execAnd_kept (u : SeatRef) (rd rs1 rs2 : Fin 32) (s : State) : ResKept seatFields s (execAnd u rd rs1 rs2 s) :=
  regOp_kept _ _ _ _ _ _ _

theorem execOr_kept (u : SeatRef) (rd rs1 rs2 : Fin 32) (s : State) : ResKept seatFields s (execOr u rd rs1 rs2 s) :=
  regOp_kept _ _ _ _ _ _ _

theorem execXor_kept (u : SeatRef) (rd rs1 rs2 : Fin 32) (s : State) : ResKept seatFields s (execXor u rd rs1 rs2 s) :=
  regOp_kept _ _ _ _ _ _ _

theorem execSll_kept (u : SeatRef) (rd rs1 rs2 : Fin 32) (s : State) : ResKept seatFields s (execSll u rd rs1 rs2 s) :=
  regOp_kept _ _ _ _ _ _ _

theorem execSrl_kept (u : SeatRef) (rd rs1 rs2 : Fin 32) (s : State) : ResKept seatFields s (execSrl u rd rs1 rs2 s) :=
  regOp_kept _ _ _ _ _ _ _

theorem execSra_kept (u : SeatRef) (rd rs1 rs2 : Fin 32) (s : State) : ResKept seatFields s (execSra u rd rs1 rs2 s) :=
  regOp_kept _ _ _ _ _ _ _

theorem execRol_kept (u : SeatRef) (rd rs1 rs2 : Fin 32) (s : State) : ResKept seatFields s (execRol u rd rs1 rs2 s) :=
  regOp_kept _ _ _ _ _ _ _

theorem execSlt_kept (u : SeatRef) (rd rs1 rs2 : Fin 32) (s : State) : ResKept seatFields s (execSlt u rd rs1 rs2 s) :=
  regOp_kept _ _ _ _ _ _ _

theorem execSltu_kept (u : SeatRef) (rd rs1 rs2 : Fin 32) (s : State) : ResKept seatFields s (execSltu u rd rs1 rs2 s) :=
  regOp_kept _ _ _ _ _ _ _

theorem execMul_kept (u : SeatRef) (rd rs1 rs2 : Fin 32) (s : State) : ResKept seatFields s (execMul u rd rs1 rs2 s) :=
  regOp_kept _ _ _ _ _ _ _

theorem execMulhu_kept (u : SeatRef) (rd rs1 rs2 : Fin 32) (s : State) : ResKept seatFields s (execMulhu u rd rs1 rs2 s) :=
  regOp_kept _ _ _ _ _ _ _

theorem execBswap_kept (u : SeatRef) (rd rs1 : Fin 32) (s : State) : ResKept seatFields s (execBswap u rd rs1 s) := immOp_kept _ _ _ _ _

theorem execAddi_kept (u : SeatRef) (rd rs1 : Fin 32) (imm : BitVec 16) (s : State) : ResKept seatFields s (execAddi u rd rs1 imm s) :=
  immOp_kept _ _ _ _ _

theorem execAndi_kept (u : SeatRef) (rd rs1 : Fin 32) (imm : BitVec 16) (s : State) : ResKept seatFields s (execAndi u rd rs1 imm s) :=
  immOp_kept _ _ _ _ _

theorem execOri_kept (u : SeatRef) (rd rs1 : Fin 32) (imm : BitVec 16) (s : State) : ResKept seatFields s (execOri u rd rs1 imm s) :=
  immOp_kept _ _ _ _ _

theorem execXori_kept (u : SeatRef) (rd rs1 : Fin 32) (imm : BitVec 16) (s : State) : ResKept seatFields s (execXori u rd rs1 imm s) :=
  immOp_kept _ _ _ _ _

theorem execSlti_kept (u : SeatRef) (rd rs1 : Fin 32) (imm : BitVec 16) (s : State) : ResKept seatFields s (execSlti u rd rs1 imm s) :=
  immOp_kept _ _ _ _ _

theorem execBeq_kept (u : SeatRef) (ra rb : Fin 32) (imm : BitVec 16) (s : State) : ResKept seatFields s (execBeq u ra rb imm s) :=
  branchOp_kept _ _ _ _ _ _

theorem execBne_kept (u : SeatRef) (ra rb : Fin 32) (imm : BitVec 16) (s : State) : ResKept seatFields s (execBne u ra rb imm s) :=
  branchOp_kept _ _ _ _ _ _

theorem execBlt_kept (u : SeatRef) (ra rb : Fin 32) (imm : BitVec 16) (s : State) : ResKept seatFields s (execBlt u ra rb imm s) :=
  branchOp_kept _ _ _ _ _ _

theorem execBge_kept (u : SeatRef) (ra rb : Fin 32) (imm : BitVec 16) (s : State) : ResKept seatFields s (execBge u ra rb imm s) :=
  branchOp_kept _ _ _ _ _ _

theorem execBltu_kept (u : SeatRef) (ra rb : Fin 32) (imm : BitVec 16) (s : State) : ResKept seatFields s (execBltu u ra rb imm s) :=
  branchOp_kept _ _ _ _ _ _

theorem execBgeu_kept (u : SeatRef) (ra rb : Fin 32) (imm : BitVec 16) (s : State) : ResKept seatFields s (execBgeu u ra rb imm s) :=
  branchOp_kept _ _ _ _ _ _

theorem execLd8_kept (u : SeatRef) (rt rb : Fin 32) (sp : BitVec 2) (off : BitVec 14) (s : State) :
    ResKept (seatFields ++ [.gates]) s (execLd8 u rt rb sp off s) := loadReg_kept _ _ _ _ _ _ _

theorem execLd16_kept (u : SeatRef) (rt rb : Fin 32) (sp : BitVec 2) (off : BitVec 14) (s : State) :
    ResKept (seatFields ++ [.gates]) s (execLd16 u rt rb sp off s) := loadReg_kept _ _ _ _ _ _ _

theorem execLd32_kept (u : SeatRef) (rt rb : Fin 32) (sp : BitVec 2) (off : BitVec 14) (s : State) :
    ResKept (seatFields ++ [.gates]) s (execLd32 u rt rb sp off s) := loadReg_kept _ _ _ _ _ _ _

theorem execLd64_kept (u : SeatRef) (rt rb : Fin 32) (sp : BitVec 2) (off : BitVec 14) (s : State) :
    ResKept (seatFields ++ [.gates]) s (execLd64 u rt rb sp off s) := loadReg_kept _ _ _ _ _ _ _

theorem execSt8_kept (u : SeatRef) (rt rb : Fin 32) (sp : BitVec 2) (off : BitVec 14) (s : State) :
    ResKept (seatFields ++ [.gates]) s (execSt8 u rt rb sp off s) := storeReg_kept _ _ _ _ _ _ _

theorem execSt16_kept (u : SeatRef) (rt rb : Fin 32) (sp : BitVec 2) (off : BitVec 14) (s : State) :
    ResKept (seatFields ++ [.gates]) s (execSt16 u rt rb sp off s) := storeReg_kept _ _ _ _ _ _ _

theorem execSt32_kept (u : SeatRef) (rt rb : Fin 32) (sp : BitVec 2) (off : BitVec 14) (s : State) :
    ResKept (seatFields ++ [.gates]) s (execSt32 u rt rb sp off s) := storeReg_kept _ _ _ _ _ _ _

theorem execSt64_kept (u : SeatRef) (rt rb : Fin 32) (sp : BitVec 2) (off : BitVec 14) (s : State) :
    ResKept (seatFields ++ [.gates]) s (execSt64 u rt rb sp off s) := storeReg_kept _ _ _ _ _ _ _

theorem execLdb_kept (u : SeatRef) (rt : Fin 8) (rb : Fin 32) (sp : BitVec 2) (off : BitVec 14) (s : State) :
    ResKept (seatFields ++ [.gates]) s (execLdb u rt rb sp off s) := loadOp_kept _ _ _ _ _ _ _

theorem execStb_kept (u : SeatRef) (rt : Fin 8) (rb : Fin 32) (sp : BitVec 2) (off : BitVec 14) (s : State) :
    ResKept (seatFields ++ [.gates]) s (execStb u rt rb sp off s) := storeOp_kept _ _ _ _ _ _ _

theorem execCEnc_kept (u : SeatRef) (x y : Fin 8) (m : BitVec 6) (s : State) : ResKept seatFields s (execCEnc u x y m s) :=
  cipherStep_kept _ _ _ _ _ _

theorem execCDec_kept (u : SeatRef) (x y : Fin 8) (m : BitVec 6) (s : State) : ResKept seatFields s (execCDec u x y m s) :=
  cipherStep_kept _ _ _ _ _ _

theorem execCFf1e_kept (u : SeatRef) (g : Fin 32) (s : State) : ResKept seatFields s (execCFf1e u g s) := ff1Step_kept _ _ _ _

theorem execCFf1d_kept (u : SeatRef) (g : Fin 32) (s : State) : ResKept seatFields s (execCFf1d u g s) := ff1Step_kept _ _ _ _

theorem execVget_kept (u : SeatRef) (ga gb st : Fin 32) (s : State) : ResKept (takeFields ++ [.held]) s (execVget u ga gb st s) :=
  vaultInstr_kept _ _ _ _ _ _

theorem execVput_kept (u : SeatRef) (ga gb st : Fin 32) (s : State) : ResKept (takeFields ++ [.held]) s (execVput u ga gb st s) :=
  vaultInstr_kept _ _ _ _ _ _

theorem execItinReq_kept (port vc : Nat) (msg : Bytes) (s : State) : ResKept takeFields s (execItinReq port vc msg s) :=
  rxRow_kept (Kept.refl _ _) (by decide)

theorem execVaultData_kept (port vc : Nat) (msg : Bytes) (s : State) : ResKept takeFields s (execVaultData port vc msg s) :=
  rxRow_kept (Kept.refl _ _) (by decide)

theorem execViolation_kept (port vc : Nat) (msg : Bytes) (s : State) : ResKept takeFields s (execViolation port vc msg s) :=
  rxRow_kept (Kept.refl _ _) (by decide)

theorem execBulkOpen_kept (port vc : Nat) (msg : Bytes) (s : State) : ResKept takeFields s (execBulkOpen port vc msg s) :=
  rxRow_kept (Kept.refl _ _) (by decide)

theorem execBulkData_kept (port vc : Nat) (msg : Bytes) (s : State) : ResKept takeFields s (execBulkData port vc msg s) :=
  rxRow_kept (Kept.refl _ _) (by decide)

theorem execBulkClose_kept (port vc : Nat) (msg : Bytes) (s : State) : ResKept takeFields s (execBulkClose port vc msg s) :=
  rxRow_kept (Kept.refl _ _) (by decide)

theorem execGoingAway_kept (port vc : Nat) (msg : Bytes) (s : State) : ResKept takeFields s (execGoingAway port vc msg s) :=
  rxRow_kept (Kept.refl _ _) (by decide)

theorem execIdleMessageReceipt_kept (port vc : Nat) (msg : Bytes) (s : State) :
    ResKept takeFields s (execIdleMessageReceipt port vc msg s) := rxRow_kept (Kept.refl _ _) (by decide)

end Sys2Proof.Machine
end

section
/-! PROOFS. What every step holds (spec/95): the frame of each command (O6), the units it names (O2), the queue (O3), the form of the byte
memory (O5), the front of the queue (O1), and the state after reset (O4). -/

namespace Sys2Proof.Machine

/-- Whatever command runs, what it leaves differs in its fields only (`writes`). -/
theorem exec_kept (c : Instr) (s : State) : ResKept (writes c) s (exec c s) := by
  cases c with
  | add => exact execAdd_kept _ _ _ _ _
  | sub => exact execSub_kept _ _ _ _ _
  | and => exact execAnd_kept _ _ _ _ _
  | or => exact execOr_kept _ _ _ _ _
  | xor => exact execXor_kept _ _ _ _ _
  | sll => exact execSll_kept _ _ _ _ _
  | srl => exact execSrl_kept _ _ _ _ _
  | sra => exact execSra_kept _ _ _ _ _
  | rol => exact execRol_kept _ _ _ _ _
  | slt => exact execSlt_kept _ _ _ _ _
  | sltu => exact execSltu_kept _ _ _ _ _
  | mul => exact execMul_kept _ _ _ _ _
  | mulhu => exact execMulhu_kept _ _ _ _ _
  | bswap => exact execBswap_kept _ _ _ _
  | cmovz => exact execCmovz_kept _ _ _ _ _
  | addi => exact execAddi_kept _ _ _ _ _
  | andi => exact execAndi_kept _ _ _ _ _
  | ori => exact execOri_kept _ _ _ _ _
  | xori => exact execXori_kept _ _ _ _ _
  | slti => exact execSlti_kept _ _ _ _ _
  | shi => exact execShi_kept _ _ _ _ _
  | insq => exact execInsq_kept _ _ _ _ _
  | sys => exact execSys_kept _ _ _ _
  | beq => exact execBeq_kept _ _ _ _ _
  | bne => exact execBne_kept _ _ _ _ _
  | blt => exact execBlt_kept _ _ _ _ _
  | bge => exact execBge_kept _ _ _ _ _
  | bltu => exact execBltu_kept _ _ _ _ _
  | bgeu => exact execBgeu_kept _ _ _ _ _
  | jmp => exact execJmp_kept _ _ _
  | call => exact execCall_kept _ _ _
  | ret => exact execRet_kept _ _
  | ld8 => exact execLd8_kept _ _ _ _ _ _
  | ld16 => exact execLd16_kept _ _ _ _ _ _
  | ld32 => exact execLd32_kept _ _ _ _ _ _
  | ld64 => exact execLd64_kept _ _ _ _ _ _
  | st8 => exact execSt8_kept _ _ _ _ _ _
  | st16 => exact execSt16_kept _ _ _ _ _ _
  | st32 => exact execSt32_kept _ _ _ _ _ _
  | st64 => exact execSt64_kept _ _ _ _ _ _
  | ldb => exact execLdb_kept _ _ _ _ _ _
  | stb => exact execStb_kept _ _ _ _ _ _
  | cInit => exact execCInit_kept _ _ _ _ _
  | cEnc => exact execCEnc_kept _ _ _ _ _
  | cDec => exact execCDec_kept _ _ _ _ _
  | cAad => exact execCAad_kept _ _ _ _
  | cMac => exact execCMac_kept _ _ _ _
  | cFin => exact execCFin_kept _ _ _
  | cSave => exact execCSave_kept _ _ _
  | cRest => exact execCRest_kept _ _ _
  | cFf1e => exact execCFf1e_kept _ _ _
  | cFf1d => exact execCFf1d_kept _ _ _
  | cRaw => exact execCRaw_kept _ _ _ _ _ _
  | dInit => exact execDInit_kept _ _ _ _ _
  | dAbs => exact execDAbs_kept _ _ _
  | dLast => exact execDLast_kept _ _ _ _
  | dOut => exact execDOut_kept _ _ _ _
  | dCmp => exact execDCmp_kept _ _ _ _
  | dSave => exact execDSave_kept _ _ _
  | dRest => exact execDRest_kept _ _ _
  | gfm => exact execGfm_kept _ _ _ _
  | cmpct => exact execCmpct_kept _ _ _ _ _ _
  | kLoad => exact execKLoad_kept _ _ _ _
  | kClr => exact execKClr_kept _ _ _
  | kDrv => exact execKDrv_kept _ _ _ _ _ _
  | kWrap => exact execKWrap_kept _ _ _ _ _ _
  | kUnwr => exact execKUnwr_kept _ _ _ _ _ _
  | kStore => exact execKStore_kept _ _ _ _
  | kAttr => exact execKAttr_kept _ _ _ _
  | gate => exact execGate_kept _ _ _
  | gret => exact execGret_kept _ _ _
  | mileP => exact execMileP_kept _ _ _ _
  | mileI => exact execMileI_kept _ _ _ _ _
  | mileC => exact execMileC_kept _ _ _ _ _
  | yieldPoint => exact execYieldPoint_kept _ _
  | emit => exact execEmit_kept _ _ _ _
  | trap => exact execTrap_kept _ _ _
  | vget => exact execVget_kept _ _ _ _ _
  | vput => exact execVput_kept _ _ _ _ _
  | yieldOverdue => exact execYieldOverdue_kept _ _
  | scratchUncorrectable => exact execScratchUncorrectable_kept _ _ _
  | vaultWaitDone => exact execVaultWaitDone_kept _ _
  | drbgReadDone => exact execDrbgReadDone_kept _ _
  | imageCacheFill => exact execImageCacheFill_kept _ _
  | caddyMissFill => exact execCaddyMissFill_kept _ _
  | anchorSpaceFree => exact execAnchorSpaceFree_kept _
  | itinRsp => exact execItinRsp_kept _
  | itinReq => exact execItinReq_kept _ _ _ _
  | itemDispatch => exact execItemDispatch_kept _ _
  | placementEvaluation => exact execPlacementEvaluation_kept _
  | clusterSleep => exact execClusterSleep_kept _ _
  | clusterWakeDone => exact execClusterWakeDone_kept _ _ _
  | overflowRefill => exact execOverflowRefill_kept _ _
  | overflowRefillDone => exact execOverflowRefillDone_kept _ _
  | linkCreditHoldRelease => exact execLinkCreditHoldRelease_kept _ _ _
  | depotCellUncorrectable => exact execDepotCellUncorrectable_kept _ _ _
  | bulkSegmentEnd => exact execBulkSegmentEnd_kept _ _ _
  | streamKeyFetchDone => exact execStreamKeyFetchDone_kept _ _ _
  | wrappedMoveArrival => exact execWrappedMoveArrival_kept _ _ _ _
  | maeJobYieldPoint => exact execMaeJobYieldPoint_kept _ _
  | maeJobEnd => exact execMaeJobEnd_kept _ _ _
  | maeKatDone => exact execMaeKatDone_kept _ _ _
  | maeKeyTableMissDone => exact execMaeKeyTableMissDone_kept _ _
  | vaultData => exact execVaultData_kept _ _ _ _
  | vaultRequestTimeout => exact execVaultRequestTimeout_kept _ _
  | vaultRefill => exact execVaultRefill_kept _
  | watermarkWrite => exact execWatermarkWrite_kept _
  | journalSpill => exact execJournalSpill_kept _
  | outcome => exact execOutcome_kept _
  | pfwNAssert => exact execPfwNAssert_kept _
  | pfwGraceEnd => exact execPfwGraceEnd_kept _
  | pfwNRelease => exact execPfwNRelease_kept _
  | cdrLockLoss => exact execCdrLockLoss_kept _ _ _
  | laneBerExceeded => exact execLaneBerExceeded_kept _ _ _
  | laneUncorrectableTwice => exact execLaneUncorrectableTwice_kept _ _ _
  | dfeTapAtLimit => exact execDfeTapAtLimit_kept _ _ _
  | laneFrame => exact execLaneFrame_kept _ _ _
  | remapRealignDone => exact execRemapRealignDone_kept _ _
  | remapSuspensionEnd => exact execRemapSuspensionEnd_kept _ _
  | dataFrame => exact execDataFrame_kept _ _ _
  | idleFrame => exact execIdleFrame_kept _ _ _
  | nakFrame => exact execNakFrame_kept _ _ _
  | initFrame => exact execInitFrame_kept _ _ _
  | idleFrameSend => exact execIdleFrameSend_kept _ _
  | initFrameSend => exact execInitFrameSend_kept _ _
  | ackSend => exact execAckSend_kept _ _
  | replayTimeout => exact execReplayTimeout_kept _ _
  | pcsAlignment => exact execPcsAlignment_kept _ _
  | trainingTimeout => exact execTrainingTimeout_kept _ _
  | trainingRestart => exact execTrainingRestart_kept _ _
  | initTimeout => exact execInitTimeout_kept _ _
  | retrainTimeout => exact execRetrainTimeout_kept _ _
  | partnerLoss => exact execPartnerLoss_kept _ _
  | violationDownEnd => exact execViolationDownEnd_kept _ _
  | violation => exact execViolation_kept _ _ _ _
  | bulkOpen => exact execBulkOpen_kept _ _ _ _
  | bulkData => exact execBulkData_kept _ _ _ _
  | bulkClose => exact execBulkClose_kept _ _ _ _
  | goingAway => exact execGoingAway_kept _ _ _ _
  | idleMessage => exact execIdleMessage_kept _ _ _
  | idleMessageReceipt => exact execIdleMessageReceipt_kept _ _ _ _
  | credit => exact execCredit_kept _ _ _
  | sessionCloseTimeout => exact execSessionCloseTimeout_kept _ _ _
  | sessionClosed => exact execSessionClosed_kept _ _ _
  | drainIntervalEnd => exact execDrainIntervalEnd_kept _ _
  | plannedStopDown => exact execPlannedStopDown_kept _ _
  | portAckWaitEnd => exact execPortAckWaitEnd_kept _ _
  | cmdTail => exact execCmdTail_kept _ _ _
  | cplHead => exact execCplHead_kept _ _ _
  | ringFetch => exact execRingFetch_kept _ _ _ _
  | ringCtrlEnable => exact execRingCtrlEnable_kept _ _ _
  | go => exact execGo_kept _ _ _
  | eventRw1c => exact execEventRw1c_kept _ _ _ _
  | registerWrite => exact execRegisterWrite_kept _ _ _ _ _
  | completionIrqDelay => exact execCompletionIrqDelay_kept _ _
  | flr => exact execFlr_kept _ _
  | instanceResetSquash => exact execInstanceResetSquash_kept _ _
  | instanceResetDone => exact execInstanceResetDone_kept _ _
  | laneEmpty => exact execLaneEmpty_kept _ _
  | vfEnableClear => exact execVfEnableClear_kept _ _ _
  | vfEnableSet => exact execVfEnableSet_kept _ _
  | d3hotEntry => exact execD3hotEntry_kept _
  | d3hotExit => exact execD3hotExit_kept _
  | freezeAtRest => exact execFreezeAtRest_kept _ _
  | deviceInfo => exact execDeviceInfo_kept _ _
  | deviceStatus => exact execDeviceStatus_kept _ _
  | deviceReset => exact execDeviceReset_kept _ _
  | warmReset => exact execWarmReset_kept _
  | deviceStandby => exact execDeviceStandby_kept _ _
  | deepStandbyEntered => exact execDeepStandbyEntered_kept _
  | faultRead => exact execFaultRead_kept _ _
  | faultClear => exact execFaultClear_kept _ _
  | recorderRead => exact execRecorderRead_kept _ _
  | lcStatus => exact execLcStatus_kept _ _
  | lcAdvance => exact execLcAdvance_kept _ _
  | lcReprovision => exact execLcReprovision_kept _ _
  | tamperStatus => exact execTamperStatus_kept _ _
  | tamperConfig => exact execTamperConfig_kept _ _
  | reserveStatus => exact execReserveStatus_kept _ _
  | reserveEngage => exact execReserveEngage_kept _ _
  | partFormat => exact execPartFormat_kept _ _
  | partCreate => exact execPartCreate_kept _ _
  | partDelete => exact execPartDelete_kept _ _
  | partPolicy => exact execPartPolicy_kept _ _
  | partRekey => exact execPartRekey_kept _ _
  | partStatus => exact execPartStatus_kept _ _
  | vfCreate => exact execVfCreate_kept _ _
  | vfDestroy => exact execVfDestroy_kept _ _
  | vfReset => exact execVfReset_kept _ _
  | vfFreeze => exact execVfFreeze_kept _ _
  | vfThaw => exact execVfThaw_kept _ _
  | vfSave => exact execVfSave_kept _ _
  | vfRestore => exact execVfRestore_kept _ _
  | vfStatus => exact execVfStatus_kept _ _
  | laneConfig => exact execLaneConfig_kept _ _
  | laneStatus => exact execLaneStatus_kept _ _
  | depotSet => exact execDepotSet_kept _ _
  | depotStatus => exact execDepotStatus_kept _ _
  | placeStatus => exact execPlaceStatus_kept _ _
  | keyPut => exact execKeyPut_kept _ _
  | keyGet => exact execKeyGet_kept _ _
  | keyList => exact execKeyList_kept _ _
  | keyGenerate => exact execKeyGenerate_kept _ _
  | keyDelete => exact execKeyDelete_kept _ _
  | keySetattr => exact execKeySetattr_kept _ _
  | keyImport => exact execKeyImport_kept _ _
  | keyExport => exact execKeyExport_kept _ _
  | keyCarryOpen => exact execKeyCarryOpen_kept _ _
  | keyCarryRead => exact execKeyCarryRead_kept _ _
  | caddyStatus => exact execCaddyStatus_kept _ _
  | itinLoad => exact execItinLoad_kept _ _
  | itinUnload => exact execItinUnload_kept _ _
  | itinList => exact execItinList_kept _ _
  | itinSignerAdd => exact execItinSignerAdd_kept _ _
  | itinSignerRemove => exact execItinSignerRemove_kept _ _
  | vaultFormat => exact execVaultFormat_kept _ _
  | vaultAlloc => exact execVaultAlloc_kept _ _
  | vaultFree => exact execVaultFree_kept _ _
  | vaultAttach => exact execVaultAttach_kept _ _
  | vaultVersion => exact execVaultVersion_kept _ _
  | vaultRecover => exact execVaultRecover_kept _ _
  | vaultStatus => exact execVaultStatus_kept _ _
  | journalQuery => exact execJournalQuery_kept _ _
  | journalStatus => exact execJournalStatus_kept _ _
  | freriConfig => exact execFreriConfig_kept _ _
  | freriSessionOpen => exact execFreriSessionOpen_kept _ _
  | freriSessionClose => exact execFreriSessionClose_kept _ _
  | freriStatus => exact execFreriStatus_kept _ _
  | timeStatus => exact execTimeStatus_kept _ _
  | timeConfig => exact execTimeConfig_kept _ _
  | entropyStatus => exact execEntropyStatus_kept _ _
  | entropyConfig => exact execEntropyConfig_kept _ _
  | entropyKat => exact execEntropyKat_kept _ _
  | ceremonyBegin => exact execCeremonyBegin_kept _ _
  | ceremonyStatus => exact execCeremonyStatus_kept _ _
  | ceremonyAbort => exact execCeremonyAbort_kept _ _
  | ceremonyOmk => exact execCeremonyOmk_kept _ _
  | fwStatus => exact execFwStatus_kept _ _
  | fwStage => exact execFwStage_kept _ _
  | fwActivate => exact execFwActivate_kept _ _
  | fwRewrapDone => exact execFwRewrapDone_kept _
  | rekeyRewrapDone => exact execRekeyRewrapDone_kept _ _
  | authorisationVoid => exact execAuthorisationVoid_kept _
  | sync => exact execSync_kept _ _
  | followUp => exact execFollowUp_kept _ _
  | announce => exact execAnnounce_kept _ _
  | delayResp => exact execDelayResp_kept _ _
  | pdelayReq => exact execPdelayReq_kept _ _
  | pdelayResp => exact execPdelayResp_kept _ _
  | delayReqSend => exact execDelayReqSend_kept _
  | pdelayReqSend => exact execPdelayReqSend_kept _
  | announceReceiptTimeout => exact execAnnounceReceiptTimeout_kept _
  | syncLossTimeout => exact execSyncLossTimeout_kept _
  | holdoverEstimateExceeded => exact execHoldoverEstimateExceeded_kept _
  | ref10mLost => exact execRef10mLost_kept _
  | ppsInEdge => exact execPpsInEdge_kept _
  | ppsInMissed => exact execPpsInMissed_kept _
  | milepostSecond => exact execMilepostSecond_kept _
  | ppsOutFall => exact execPpsOutFall_kept _
  | timingLinkDown => exact execTimingLinkDown_kept _
  | cellStabilised => exact execCellStabilised_kept _ _
  | noiseWindowEnd => exact execNoiseWindowEnd_kept _ _ _
  | fillTimeExceeded => exact execFillTimeExceeded_kept _ _
  | kettleDraw => exact execKettleDraw_kept _
  | drbgGenerate => exact execDrbgGenerate_kept _ _
  | reseedRequested => exact execReseedRequested_kept _ _
  | reseedRequired => exact execReseedRequired_kept _ _
  | seedWait => exact execSeedWait_kept _ _
  | katDone => exact execKatDone_kept _ _ _ _
  | cardInserted => exact execCardInserted_kept _ _
  | cardRemoved => exact execCardRemoved_kept _ _
  | atr => exact execAtr_kept _ _ _
  | atrTimeout => exact execAtrTimeout_kept _ _
  | classBReactivate => exact execClassBReactivate_kept _ _
  | ppsResponse => exact execPpsResponse_kept _ _ _
  | t1Block => exact execT1Block_kept _ _ _
  | blockWaitingTimeout => exact execBlockWaitingTimeout_kept _ _
  | wtxCeiling => exact execWtxCeiling_kept _ _
  | cardInactivity => exact execCardInactivity_kept _ _
  | ceremonyTimeout => exact execCeremonyTimeout_kept _
  | sourceSample => exact execSourceSample_kept _ _
  | continuousInterval => exact execContinuousInterval_kept _ _
  | tamperResponseDone => exact execTamperResponseDone_kept _
  | shadowCheck => exact execShadowCheck_kept _
  | backupShadowMismatch => exact execBackupShadowMismatch_kept _
  | faultArrival => exact execFaultArrival_kept _ _ _ _ _
  | class3Squash => exact execClass3Squash_kept _
  | faultHandling => exact execFaultHandling_kept _
  | gateLatchClear => exact execGateLatchClear_kept _ _
  | aliveOutToggle => exact execAliveOutToggle_kept _
  | peerAliveInEdge => exact execPeerAliveInEdge_kept _
  | peerAliveLost => exact execPeerAliveLost_kept _
  | recorderSample => exact execRecorderSample_kept _ _ _
  | recorderFlush => exact execRecorderFlush_kept _
  | recorderFlushDone => exact execRecorderFlushDone_kept _
  | recorderPeriodicFlush => exact execRecorderPeriodicFlush_kept _
  | operatingHoursTick => exact execOperatingHoursTick_kept _
  | holderRenewal => exact execHolderRenewal_kept _
  | refereeClaim => exact execRefereeClaim_kept _ _
  | claimLapse => exact execClaimLapse_kept _
  | lockstepMismatch => exact execLockstepMismatch_kept _
  | failoverGrant => exact execFailoverGrant_kept _
  | stewardSelftestDone => exact execStewardSelftestDone_kept _ _ _
  | gateEpochFlip => exact execGateEpochFlip_kept _ _ _
  | gateDrainDone => exact execGateDrainDone_kept _ _
  | gateDrainOverdue => exact execGateDrainOverdue_kept _ _
  | innerHoldOverdue => exact execInnerHoldOverdue_kept _ _
  | holdRelease => exact execHoldRelease_kept _ _
  | forcedStop => exact execForcedStop_kept _ _
  | shareStorePropagated => exact execShareStorePropagated_kept _ _
  | porstNAssert => exact execPorstNAssert_kept _
  | porstNRelease => exact execPorstNRelease_kept _
  | railBelowThreshold => exact execRailBelowThreshold_kept _ _
  | startupStepDone => exact execStartupStepDone_kept _ _
  | governorTick => exact execGovernorTick_kept _ _
  | loopAdjust => exact execLoopAdjust_kept _ _ _ _ _
  | marginLow1s => exact execMarginLow1s_kept _ _
  | correctedRateHigh => exact execCorrectedRateHigh_kept _ _
  | selftestDue => exact execSelftestDue_kept _ _
  | selftestDone => exact execSelftestDone_kept _ _ _
  | quiesceDone => exact execQuiesceDone_kept _ _
  | reserveEngaged => exact execReserveEngaged_kept _ _
  | dramPageRemap => exact execDramPageRemap_kept _ _
  | dramUncorrectable => exact execDramUncorrectable_kept _ _ _
  | caddyIntegrity => exact execCaddyIntegrity_kept _ _
  | sramCorrected => exact execSramCorrected_kept _ _ _
  | degradedVputTimeout => exact execDegradedVputTimeout_kept _ _
  | ppsResponseTimeout => exact execPpsResponseTimeout_kept _ _
  | dramCorrected => exact execDramCorrected_kept _ _ _
  | mramCorrected => exact execMramCorrected_kept _ _
  | dmaFault => exact execDmaFault_kept _ _ _
  | freriRefclkPresent => exact execFreriRefclkPresent_kept _ _
  | dbgUnlock => exact execDbgUnlock_kept _ _
  | vendorTestMode => exact execVendorTestMode_kept _ _
  | lcTransitionDone => exact execLcTransitionDone_kept _
  | granuleZeroingDone => exact execGranuleZeroingDone_kept _ _

/-- An instruction of a seat is checked against its seat. -/
theorem runPlain_eq_checked (u : SeatRef) (s : State) (f : State → Seat → TeRes) : ∃ t, runPlain u s f = checked u.ok t :=
  ⟨_, rfl⟩

/-- What a command answers is checked against the units it names (`Instr.wf`). -/
theorem exec_eq_checked (c : Instr) (s : State) : ∃ t, exec c s = checked c.wf t := by
  cases c
  case gate u w =>
    rw [exec_gate, execGate]
    split
    · exact runPlain_eq_checked ..
    · exact ⟨_, rfl⟩
  case railBelowThreshold rail => exact ⟨_, congrArg (checked · _) (decide_eq_decide.mpr (by omega))⟩
  case drbgReadDone e | drbgGenerate e | reseedRequested e | reseedRequired e | seedWait e =>
    exact ⟨_, congrArg (checked · _) (decide_eq_decide.mpr (by omega))⟩
  all_goals exact ⟨_, rfl⟩

/-- Settles O2: every command's answer is checked against the units it names. -/
theorem commandsOfThePart : Obligations.CommandsOfThePart := by
  unfold Obligations.CommandsOfThePart
  intro c s
  obtain ⟨t, ht⟩ := exec_eq_checked c s
  rw [ht]
  exact ⟨fun h => ⟨t, by rw [h]; rfl⟩, fun h => by rw [h]; rfl⟩

/-- Settles O6, by the frame of each command. -/
theorem framesOfCommands : Obligations.FramesOfCommands := exec_kept

/-- Settles O1: both halves are the definition of a step. -/
theorem stepRunsFront : Obligations.StepRunsFront := by
  unfold Obligations.StepRunsFront
  refine ⟨fun c s => rfl, fun s h => ?_⟩
  rw [step, h]

/-- A step keeps what its command keeps of the state with the queue's rest. -/
theorem step_kept {s t : State} (h : step s = .next t) : ∃ W, Kept W { s with pending := s.pending.drop 1 } t := by
  rcases hp : s.pending with _ | ⟨c, rest⟩
  · rw [step, hp] at h
    cases h
    refine ⟨_, State.clockCycle_kept ?_ (List.Subset.refl _)⟩
    have hs : { s with pending := [] } = s := by rw [← hp]
    rw [List.drop_nil, hs]
    exact Kept.refl _ s
  · rw [step, hp] at h
    exact ⟨_, exec_kept c _ t h⟩

/-- Settles O3: the frame of a command never holds the queue. -/
theorem queueUntouched : Obligations.QueueUntouched := by
  unfold Obligations.QueueUntouched
  intro s t h
  obtain ⟨W, hk⟩ := step_kept h
  exact hk.pending

/-- Settles O5: the frame of a command keeps the form of the memory. -/
theorem canonicalKept : Obligations.CanonicalKept := by
  unfold Obligations.CanonicalKept
  intro s t hs h
  obtain ⟨W, hk⟩ := step_kept h
  exact hk.wf hs

/-- Settles O4: each clause is a reset value of a state table. -/
theorem resetState : Obligations.ResetState := by
  unfold Obligations.ResetState
  intro s
  refine ⟨rfl, ?_, rfl, ?_, rfl, rfl, rfl, rfl, rfl, rfl, rfl, rfl, rfl, fun _ => rfl, fun _ _ => rfl, fun _ => rfl, rfl, rfl, rfl, rfl, rfl,
    fun p hp => ?_, fun f => ?_, rfl, rfl, rfl, rfl, rfl, rfl, rfl, rfl, rfl, ?_, rfl, rfl, rfl, fun n hn => ?_⟩
  · exact State.reset_wf
  · decide
  · match p with
    | 0 | 1 => exact ⟨rfl, rfl⟩
  · show (Func.default f).ringEnable = false ∧ (Func.default f).mbxBusy = false
    rw [Func.default]
    split <;> exact ⟨rfl, rfl⟩
  · decide
  · exact ⟨rfl, rfl⟩

end Sys2Proof.Machine
end

section
/-! PROOFS. The device and fault commands (Tables 11.3, 10.8, 17.4; log entry 47). -/

namespace Sys2Proof.Machine

section
variable {s : State} {c : Cmd} {sp : Spec} {a : Active}

@[simp] theorem faults_answer (rsp : Bytes) : (answer c s sp rsp).faults = s.faults :=
  (answer_kept c sp rsp (Kept.refl _ s) (List.Subset.refl _)).faults_eq (by decide)

/-- DEVICE.STATUS answers 24 bytes, the device's state first. -/
theorem completes_deviceStatus (h : Admitted 0x0102 sp c s) (hb : c.body = []) : Completes (.deviceStatus c) s fun t => ∃ rsp,
    Answered sp c s.drawn rsp t ∧ rsp.take 4 = [BitVec.ofNat 8 s.power.dev.code, 0, 0, 0] ∧ rsp.length = 24 :=
  completes_cmd h exec_deviceStatus (by simp [hb]) ⟨_, rfl, rfl, by simp [intLE2]⟩

section
variable (h : Admitted 0x0104 sp c s) (hb : c.body = [])
include h hb

theorem completes_deviceStandby_open (hopen : (s.tenantLanes.any fun l => (s.lane l).state != .closed) = true) :
    Completes (.deviceStandby c) s fun t => t = s.reject c cBadState :=
  completes_cmd h exec_deviceStandby (by simp [hb]) (if_pos hopen)

theorem completes_deviceStandby (hclosed : (s.tenantLanes.any fun l => (s.lane l).state != .closed) = false)
    (hholds : s.steward.holds = []) : Completes (.deviceStandby c) s fun t => t = (s.begin sp c).startStandby c := by
  refine completes_cmd h exec_deviceStandby (by simp [hb]) ?_
  have hnone : (s.begin sp c).steward.holds.isEmpty = true := by
    rw [(State.begin_kept sp c (Kept.refl _ s) (List.Subset.refl _)).steward_eq (by decide), hholds]
    rfl
  exact (if_neg (ne_true_of_eq_false hclosed)).trans (if_pos hnone)

end

/-- FAULT.READ takes its messages from the head of the queue. -/
theorem completes_faultRead (h : Admitted 0x0F01 sp c s) (hlen : c.body.length = 8) (hz : zeroAt c.body 1 7 = true)
    (hmin : 1 ≤ fieldLE c.body 0 1) (hmax : fieldLE c.body 0 1 ≤ 64) : Completes (.faultRead c) s fun t =>
      t.faults = { s.faults with queue := s.faults.queue.drop (fieldLE c.body 0 1) } := by
  refine completes_cmd h (exec_faultRead.trans (by unfold execFaultRead; rfl)) (by simp [hlen, hz]) ?_
  rw [if_neg (by omega), faults_answer]
  split <;> rfl

section
variable (h : Admitted 0x0F02 sp c s) (hlen : c.body.length = 8) (hz : zeroAt c.body 4 4 = true)
  (hactive : s.faults.activeFault (clearNames c.body) = some a)
include h hlen hz hactive

theorem completes_faultClear_gone (hcause : s.cause a = .gone) :
    Completes (.faultClear c) s (Answered sp c (s.clearActive (clearNames c.body)) []) := by
  refine completes_cmd h (exec_faultClear.trans (by unfold execFaultClear; rfl)) (by simp [hlen, hz]) ?_
  simp only [hactive, hcause]
  rfl

theorem completes_faultClear_present (hcause : s.cause a = .present) : Completes (.faultClear c) s fun t => t = s.reject c cBadState := by
  refine completes_cmd h (exec_faultClear.trans (by unfold execFaultClear; rfl)) (by simp [hlen, hz]) ?_
  simp only [hactive, hcause]

end
end

/-- Settles O34, each command by its lemma. -/
theorem deviceCommands : Obligations.DeviceCommands := by
  unfold Obligations.DeviceCommands
  intro s c sp a
  refine ⟨?info, completes_deviceStatus, ?reset, completes_deviceStandby_open, completes_deviceStandby, ?read, completes_faultClear_gone,
    completes_faultClear_present⟩
  case info => exact fun h hb => completes_cmd h exec_deviceInfo (by simp [hb]) rfl
  case reset => exact fun h hb => completes_cmd h exec_deviceReset (by simp [hb]) rfl
  case read =>
    intro h hlen hz hmin hmax
    exact (completes_faultRead h hlen hz hmin hmax).mono fun t ht => by simp [ht]

end Sys2Proof.Machine
end

section
/-! PROOFS. The milepost counter, its second boundary and PPS_OUT (R389, R402, R403; log entry 3). -/

namespace Sys2Proof.Machine

/-! ## The counter as one number -/

/-- The counter within its second, in steps of 2^-40 ns. -/
def Time.position (t : Time) : Nat := (t.nanos.toNat * 2 ^ 16 + t.frac.toNat) * 2 ^ 24 + t.sub

theorem Time.position_add_eq (t : Time) (n : Nat) : (t.add n).1.position =
    ((BitVec.ofNat 32 ((t.position + n) / 2 ^ 40 % 1000000000)).toNat * 2 ^ 16 + (BitVec.ofNat 16 ((t.position + n) / 2 ^ 24)).toNat) * 2 ^ 24 +
      (t.position + n) % 2 ^ 24 := rfl

theorem Time.secs_add (t : Time) (n : Nat) : (t.add n).1.secs = t.secs + BitVec.ofNat 48 ((t.position + n) / 2 ^ 40 / 1000000000) := rfl

theorem Time.carry_add (t : Time) (n : Nat) : (t.add n).2 = decide (1000000000 ≤ (t.position + n) / 2 ^ 40) := rfl

/-- Adding writes the counter's registers alone. -/
theorem Time.add_registers (t : Time) (n : Nat) :
    ∃ secs nanos frac sub carry, t.add n = ({ t with secs := secs, nanos := nanos, frac := frac, sub := sub }, carry) :=
  ⟨_, _, _, _, _, rfl⟩

theorem Time.ppsOut_add (t : Time) (n : Nat) : (t.add n).1.ppsOut = t.ppsOut := by
  obtain ⟨secs, nanos, frac, sub, carry, hadd⟩ := t.add_registers n
  rw [hadd]

theorem Time.nanos_add (t : Time) (n : Nat) : (t.add n).1.nanos = BitVec.ofNat 32 ((t.position + n) / 2 ^ 40 % 1000000000) := rfl

/-- Adding to the counter adds to its position, modulo a second. -/
theorem Time.position_add (t : Time) (n : Nat) : (t.add n).1.position = (t.position + n) % (1000000000 * 2 ^ 40) := by
  rw [Time.position_add_eq, BitVec.toNat_ofNat, BitVec.toNat_ofNat]
  generalize t.position + n = x
  omega

theorem Time.nanos_add_lt (t : Time) (n : Nat) : (t.add n).1.nanos.toNat < 1000000000 := by
  rw [Time.nanos_add, BitVec.toNat_ofNat]
  generalize t.position + n = x
  omega

section
variable {t : Time} {n : Nat}

/-- Within the second nothing carries. -/
theorem Time.add_within (h : t.position + n < 1000000000 * 2 ^ 40) : (t.add n).1.secs = t.secs ∧ (t.add n).2 = false := by
  rw [Time.secs_add, Time.carry_add]
  generalize t.position + n = x at h
  have hwhole : x / 2 ^ 40 / 1000000000 = 0 := by omega
  refine ⟨?_, decide_eq_false (by omega)⟩
  rw [hwhole]
  exact BitVec.add_zero _

/-- Past its end, by less than another second, the seconds rise by one. -/
theorem Time.add_past (h : 1000000000 * 2 ^ 40 ≤ t.position + n) (hlt : t.position + n < 2000000000 * 2 ^ 40) :
    (t.add n).1.secs = t.secs + 1 ∧ (t.add n).2 = true := by
  rw [Time.secs_add, Time.carry_add]
  generalize t.position + n = x at h hlt
  have hwhole : x / 2 ^ 40 / 1000000000 = 1 := by omega
  exact ⟨by rw [hwhole]; rfl, decide_eq_true (by omega)⟩

/-- A counter in its range stands before the end of its second. -/
theorem Time.position_lt (hnanos : t.nanos.toNat < 1000000000) (hsub : t.sub < 2 ^ 24) : t.position < 1000000000 * 2 ^ 40 := by
  have hfrac := t.frac.isLt
  unfold Time.position
  omega

end

/-! ## Second boundaries -/

/-- The time as a change of the PPS_OUT enable takes effect (R403). -/
def Time.ppsTaken (t : Time) : Time := { t with ppsEnable := t.ppsPending.getD t.ppsEnable, ppsPending := .none }

/-- At a second boundary the enable takes effect and PPS_OUT rises where it is enabled and the time valid. -/
theorem State.time_secondBoundary (s : State) : s.secondBoundary.time =
    { s.time.ppsTaken with ppsOut := s.time.ppsOut || (s.time.ppsTaken.ppsEnable && s.time.ppsTaken.valid) } := by
  unfold State.secondBoundary
  show (if s.time.ppsTaken.ppsEnable ∧ s.time.ppsTaken.valid then _ else _ : State).time = _
  split
  · next h =>
    rw [h.1, h.2, Bool.and_true, Bool.or_true]
    rfl
  · next h =>
    have hno : (s.time.ppsTaken.ppsEnable && s.time.ppsTaken.valid) = false := by simpa using h
    rw [hno, Bool.or_false]
    rfl

@[simp] theorem State.now_secondBoundary (s : State) : s.secondBoundary.now = s.now :=
  (State.secondBoundary_kept (Kept.refl _ s) (List.Subset.refl _)).now_eq (by decide)

section
variable (s : State)

theorem State.secs_secondBoundary : s.secondBoundary.time.secs = s.time.secs := by rw [State.time_secondBoundary]; rfl

theorem State.nanos_secondBoundary : s.secondBoundary.time.nanos = s.time.nanos := by rw [State.time_secondBoundary]; rfl

theorem State.position_secondBoundary : s.secondBoundary.time.position = s.time.position := by
  rw [State.time_secondBoundary, Time.position, Time.position]
  rfl

end

/-! ## The clock's cycle -/

section
variable {s : State}

theorem State.clockCycle_stopped (h : s.power.porst = true) : s.clockCycle = s.pass 1 := if_pos h

variable (h : s.power.porst = false)
include h

theorem State.clockCycle_running : s.clockCycle =
    (let u := { s.pass 1 with time := (s.time.add s.time.rate).1 }
      if (s.time.add s.time.rate).2 then u.secondBoundary else u) := if_neg (ne_true_of_eq_false h)

/-- A cycle adds the rate. -/
theorem State.clockCycle_within (hcarry : (s.time.add s.time.rate).2 = false) :
    s.clockCycle = { s.pass 1 with time := (s.time.add s.time.rate).1 } :=
  (State.clockCycle_running h).trans (if_neg (ne_true_of_eq_false hcarry))

/-- Where the nanoseconds carry, the cycle is a second boundary. -/
theorem State.clockCycle_past (hcarry : (s.time.add s.time.rate).2 = true) :
    s.clockCycle = { s.pass 1 with time := (s.time.add s.time.rate).1 }.secondBoundary :=
  (State.clockCycle_running h).trans (if_pos hcarry)

end

/-- What a cycle of a running counter leaves. -/
theorem State.clockCycle_time {s : State} (hporst : s.power.porst = false) (hnanos : s.time.nanos.toNat < 1000000000)
    (hsub : s.time.sub < 2 ^ 24) (hrate : s.time.rate < 2 ^ 41) : s.clockCycle.now = s.now + 1 ∧
      s.clockCycle.time.position = (s.time.position + s.time.rate) % (1000000000 * 2 ^ 40) ∧ s.clockCycle.time.nanos.toNat < 1000000000 ∧
      (s.time.position + s.time.rate < 1000000000 * 2 ^ 40 →
        s.clockCycle.time.secs = s.time.secs ∧ s.clockCycle.time.ppsOut = s.time.ppsOut ∧ s.clockCycle.out = s.out) ∧
      (1000000000 * 2 ^ 40 ≤ s.time.position + s.time.rate → s.clockCycle.time.secs = s.time.secs + 1) := by
  have hposition := s.time.position_add s.time.rate
  have hlt := s.time.nanos_add_lt s.time.rate
  rcases Nat.lt_or_ge (s.time.position + s.time.rate) (1000000000 * 2 ^ 40) with hwithin | hpast
  · obtain ⟨hsecs, hcarry⟩ := Time.add_within hwithin
    rw [State.clockCycle_within hporst hcarry]
    exact ⟨rfl, hposition, hlt, fun _ => ⟨hsecs, s.time.ppsOut_add _, rfl⟩, fun h => absurd hwithin (Nat.not_lt.mpr h)⟩
  · have hrange := Time.position_lt hnanos hsub
    obtain ⟨hsecs, hcarry⟩ := Time.add_past hpast (by omega)
    rw [State.clockCycle_past hporst hcarry, State.now_secondBoundary, State.position_secondBoundary, State.nanos_secondBoundary,
      State.secs_secondBoundary]
    exact ⟨rfl, hposition, hlt, fun h => absurd h (Nat.not_lt.mpr hpast), fun _ => hsecs⟩

/-- Settles O44: a cycle adds to the counter's position, and a second boundary is one lemma for both clauses that meet it. -/
theorem milepostCounter : Obligations.MilepostCounter := by
  unfold Obligations.MilepostCounter
  intro s hporst hnanos hsub hrate
  refine ⟨?cycle, fun r hr => ⟨?stands, ?idle⟩, ?second, ?fall⟩
  case cycle => exact State.clockCycle_time hporst hnanos hsub hrate
  case stands => rw [State.clockCycle_stopped hr]; rfl
  case idle => exact ⟨r, congrArg _ (if_pos hr), rfl⟩
  case second =>
    refine ⟨_, exec_milepostSecond.trans (congrArg Host.Outcome.next (if_neg (ne_true_of_eq_false hporst))), ?_⟩
    simp only [State.time_secondBoundary, State.now_secondBoundary]
    exact ⟨rfl, rfl, rfl, rfl, rfl, rfl, rfl⟩
  case fall =>
    refine ⟨_, rfl, ?_⟩
    split
    · exact ⟨rfl, rfl, rfl⟩
    · next hout => exact ⟨Bool.eq_false_iff.mpr hout, rfl, rfl⟩

end Sys2Proof.Machine
end

section
/-! PROOFS. The lengths of AES under a key of 32 bytes, and of a generate of an expander (R416; log entry 9). -/

namespace Sys2Proof.Machine

/-! ## Pieces of a list -/

/-- A list of k whole pieces is cut into them. -/
theorem chunksFuel_whole {α : Type} {n k : Nat} (hn : 0 < n) {f : Nat} (hf : k ≤ f) {l : List α} (hl : l.length = n * k) :
    (chunksFuel n f l).length = k ∧ ∀ c ∈ chunksFuel n f l, c.length = n ∧ c ⊆ l := by
  induction k generalizing f l with
  | zero =>
    obtain rfl := List.eq_nil_of_length_eq_zero hl
    cases f <;> exact ⟨rfl, fun c hc => absurd hc List.not_mem_nil⟩
  | succ k ih =>
    obtain ⟨f, rfl⟩ : ∃ g, f = g + 1 := ⟨f - 1, by omega⟩
    rw [Nat.mul_succ] at hl
    have hne : l ≠ [] := List.ne_nil_of_length_pos (by omega)
    have hcut : chunksFuel n (f + 1) l = l.take n :: chunksFuel n f (l.drop n) := by
      cases l with
      | nil => exact absurd rfl hne
      | cons x r => rfl
    obtain ⟨hlen, hpieces⟩ := ih (f := f) (by omega) (l := l.drop n) (by rw [List.length_drop]; omega)
    rw [hcut]
    refine ⟨congrArg (· + 1) hlen, fun c hc => ?_⟩
    rcases List.mem_cons.mp hc with rfl | hc
    · exact ⟨by rw [List.length_take]; omega, List.take_subset n l⟩
    · exact ⟨(hpieces c hc).1, List.Subset.trans (hpieces c hc).2 (List.drop_subset n l)⟩

theorem chunks_whole {α : Type} {n k : Nat} (hn : 0 < n) {l : List α} (hl : l.length = n * k) :
    (chunks n l).length = k ∧ ∀ c ∈ chunks n l, c.length = n ∧ c ⊆ l :=
  chunksFuel_whole hn (hl ▸ Nat.le_mul_of_pos_left k hn) hl

/-- Pieces of one length joined. -/
theorem length_flatten_of_all {α : Type} {n : Nat} {ls : List (List α)} (h : ∀ l ∈ ls, l.length = n) :
    ls.flatten.length = ls.length * n := by
  rw [List.length_flatten, List.map_congr_left h, List.map_const', List.sum_replicate, smul_eq_mul]

theorem length_xorBytes (a b : Bytes) : (xorBytes a b).length = min a.length b.length := List.length_zipWith

/-! ## The key schedule -/

/-- Every word of the schedule has four bytes, and the schedule is as long as it counts. -/
theorem aesWords_whole {nk : Nat} (hnk : 0 < nk) {f i : Nat} {ws : List Bytes} {rcon : Byte} (hlen : nk ≤ ws.length)
    (hws : ∀ w ∈ ws, w.length = 4) :
    (aesWords nk f i ws rcon).length = ws.length + f ∧ ∀ w ∈ aesWords nk f i ws rcon, w.length = 4 := by
  induction f generalizing i ws rcon with
  | zero => exact ⟨rfl, hws⟩
  | succ f ih =>
    have hprev : (ws.headD []).length = 4 := by
      cases ws with
      | nil => exact absurd hlen (by simp only [List.length_nil]; omega)
      | cons w r => exact hws w List.mem_cons_self
    have hback : (ws.getD (nk - 1) []).length = 4 := by
      rw [List.getD_eq_getElem _ _ (by omega)]
      exact hws _ (List.getElem_mem _)
    unfold aesWords
    extract_lets prev t
    have hword : t.length = 4 := by
      unfold t
      split
      · rfl
      · split
        · rw [List.length_map]
          exact hprev
        · exact hprev
    have hnew : (xorBytes (ws.getD (nk - 1) []) t).length = 4 := by
      rw [length_xorBytes, hback, hword]
      rfl
    obtain ⟨hcount, hall⟩ := ih (i := i + 1) (ws := xorBytes (ws.getD (nk - 1) []) t :: ws) (rcon := if i % nk = 0 then xtime rcon else rcon)
      (by rw [List.length_cons]; omega) fun w hw => by
        rcases List.mem_cons.mp hw with rfl | hw
        · exact hnew
        · exact hws w hw
    refine ⟨?_, hall⟩
    rw [hcount, List.length_cons]
    omega

/-- The round keys of a key of 32 bytes have 16 bytes. -/
theorem length_aesSchedule {key : Bytes} (hkey : key.length = 32) : ∀ k ∈ aesSchedule key, k.length = 16 := by
  intro k hk
  obtain ⟨hcount, hwords⟩ := chunks_whole (n := 4) (by decide) (k := 8) hkey
  obtain ⟨htotal, hall⟩ := aesWords_whole (nk := 8) (by decide) (f := 52) (i := 8) (ws := (chunks 4 key).reverse) (rcon := 1)
    (by rw [List.length_reverse, hcount]) fun w hw => (hwords w (List.mem_reverse.mp hw)).1
  rw [aesSchedule, hkey] at hk
  obtain ⟨ws, hws, rfl⟩ := List.mem_map.mp hk
  obtain ⟨-, hpieces⟩ := chunks_whole (n := 4) (by decide) (k := 15)
    (l := (aesWords 8 52 8 (chunks 4 key).reverse 1).reverse) (by rw [List.length_reverse, htotal, List.length_reverse, hcount])
  obtain ⟨hfour, hsub⟩ := hpieces ws hws
  rw [length_flatten_of_all fun w hw => hall w (List.mem_reverse.mp (hsub hw)), hfour]

/-! ## The rounds -/

theorem length_aesEncRounds {ks : List Bytes} (hks : ∀ k ∈ ks, k.length = 16) {b : Bytes} (hb : b.length = 16) :
    (aesEncRounds ks b).length = 16 := by
  induction ks generalizing b with
  | nil => exact hb
  | cons k r ih =>
    have hk : k.length = 16 := hks k List.mem_cons_self
    cases r with
    | nil =>
      rw [aesEncRounds, length_xorBytes, hk]
      rfl
    | cons k2 r =>
      rw [aesEncRounds]
      · refine ih (fun x hx => hks x (List.mem_cons_of_mem _ hx)) ?_
        rw [length_xorBytes, hk]
        rfl
      · exact List.cons_ne_nil _ _

theorem length_aesEncB {key b : Bytes} (hkey : key.length = 32) (hb : b.length = 16) : (aesEncB key b).length = 16 := by
  have hks := length_aesSchedule hkey
  unfold aesEncB
  split
  · exact hb
  · next k r h =>
    rw [h] at hks
    refine length_aesEncRounds (fun x hx => hks x (List.mem_cons_of_mem _ hx)) ?_
    rw [length_xorBytes, hb, hks k List.mem_cons_self]
    rfl

/-- A generate gives 16 bytes for each block. -/
theorem length_drbgGen {key : Bytes} (hkey : key.length = 32) (v : Bytes) (n : Nat) : (drbgGen key v n).1.length = n * 16 := by
  have hblocks : ∀ b ∈ (List.range n).map fun i => aesEncB key (natBE 16 (beNat v + i + 1)), b.length = 16 := by
    intro b hb
    obtain ⟨i, -, rfl⟩ := List.mem_map.mp hb
    exact length_aesEncB hkey (length_natBE 16 _)
  exact (length_flatten_of_all hblocks).trans (by rw [List.length_map, List.length_range])

end Sys2Proof.Machine
end

section
/-! PROOFS. The expanders' generates and reseeds, and the end of the kettle's known-answer test (R416-R423). -/

namespace Sys2Proof.Machine

/-! ## Expanders -/

/-- A generate adds 512 bytes to the buffer. -/
theorem Expander.buffer_generate (x : Expander) : ∃ b, x.generate.buffer = x.buffer ++ b ∧ b.length = 512 :=
  ⟨_, rfl, length_drbgGen (length_natBE 32 _) _ 32⟩

/-- A cluster's power is no part of its expander. -/
@[simp] theorem State.expanderAwake_setExpander (s : State) (e : Nat) (x : Expander) (j : Nat) :
    (s.setExpander e x).expanderAwake j = s.expanderAwake j := by
  obtain ⟨y, hcluster⟩ := s.cluster_setExpander e x j
  rw [State.expanderAwake, State.expanderAwake, hcluster]

section
variable {s : State} {e : Nat} (he : e ≤ 36)
include he

theorem completes_drbgGenerate (hseeded : (s.expander e).seeded = true) (hrequired : (s.expander e).required = false)
    (hkat : (s.expander e).katFailed = false) (hheld : s.expanderHeld e = false) (hawake : s.expanderAwake e = true)
    (hroom : (s.expander e).buffer.length ≤ 512) (hcount : (s.expander e).generates < 65536) :
    Completes (.drbgGenerate e) s fun t => t = s.setExpander e (s.expander e).generate := by
  refine (completes_checked exec_drbgGenerate (decide_eq_true he)).mono fun t ht => ht.trans (if_pos ?_)
  simp [hseeded, hrequired, hkat, hheld, hawake, hroom, hcount]

theorem completes_drbgGenerate_blocked (hrequired : (s.expander e).required = true) : Completes (.drbgGenerate e) s fun t => t = s :=
  (completes_checked exec_drbgGenerate (decide_eq_true he)).mono fun t ht => ht.trans (if_neg (by simp [hrequired]))

theorem completes_reseedRequested (hseeded : (s.expander e).seeded = true) (hrequested : (s.expander e).requested = false)
    (hdue : 49152 ≤ (s.expander e).generates ∨ 75000000 ≤ s.seedAge e) (hawake : s.expanderAwake e = true) :
    Completes (.reseedRequested e) s fun t => t = (s.setExpander e { s.expander e with requested := true }).askDraw e := by
  refine (completes_checked exec_reseedRequested (decide_eq_true he)).mono fun _ ht => ht.trans ?_
  exact (if_pos ⟨hseeded, by rw [hrequested]; rfl, hdue⟩).trans (if_pos (by rw [State.expanderAwake_setExpander, hawake]))

/-- A reseed that is required empties the buffer, whether or not its cluster is awake. -/
theorem completes_reseedRequired (hseeded : (s.expander e).seeded = true) (hrequired : (s.expander e).required = false)
    (hdue : 65536 ≤ (s.expander e).generates ∨ 100000000 ≤ s.seedAge e) :
    Completes (.reseedRequired e) s fun t => t.expander e = { s.expander e with required := true, requiredAt := s.now, buffer := [] } := by
  refine (completes_checked exec_reseedRequired (decide_eq_true he)).mono fun _ ht => ?_
  rw [ht.trans (if_pos ⟨hseeded, by rw [hrequired]; rfl, hdue⟩)]
  dsimp only
  split <;> simp

theorem completes_seedWait (hrequired : (s.expander e).required = true) (hwait : (s.expander e).requiredAt + 1000000 ≤ s.now) :
    Completes (.seedWait e) s fun t =>
      t = s.fault 0 0x43 (srcExpander e) (BitVec.ofNat 64 ((s.now - (s.expander e).requiredAt) / 1000)) :=
  (completes_checked exec_seedWait (decide_eq_true he)).mono fun _ ht => ht.trans (if_pos ⟨hrequired, hwait⟩)

end

/-! ## The kettle's known-answer test -/

/-- The kettle's test is answered and its rerun ended from what its result leaves, which keeps the entropy path. -/
theorem completes_katDone_kettle {s : State} {k : Nat} (cell : Nat) (hkat : s.entropy.kettleKat = true) (hk : k ≤ 6) :
    Completes (.katDone (srcHub 0x0B) k cell) s fun t => t.entropy = (s.kettleTested k cell).entropy := by
  refine ⟨_, exec_katDone.trans (congrArg Host.Outcome.next (if_neg ?_)), ?_⟩
  · have hruns : s.katRuns (srcHub 0x0B) = true := hkat
    simp [hruns, hk]
  · exact (State.rerunDone_kept _ _ (State.katAnswer_kept _ _ (Kept.refl _ _) (by decide)) (List.Subset.refl _)).entropy_eq (by decide)

/-- A failure past the strainer stalls the draws. -/
theorem State.entropy_kettleTested_failed (s : State) {k : Nat} (cell : Nat) (hk : 2 ≤ k) :
    (s.kettleTested k cell).entropy = { s.entropy with kettleKat := false, kettleFailed := true } := by
  unfold State.kettleTested
  rw [if_neg (by omega), if_neg (by omega)]
  exact (State.fault_kept _ _ _ _ (Kept.refl _ _) (List.Subset.refl _)).entropy_eq (by decide)

/-- Settles O47, each event by its lemma. -/
theorem expandersAndTests : Obligations.ExpandersAndTests := by
  unfold Obligations.ExpandersAndTests
  intro s e k cell he
  refine ⟨?generate, completes_drbgGenerate_blocked he, ?requested, ?required, completes_seedWait he, ?passed, ?failed⟩
  case generate =>
    intro hseeded hrequired hkat hheld hawake hroom hcount
    refine (completes_drbgGenerate he hseeded hrequired hkat hheld hawake hroom hcount).mono fun t ht => ?_
    rw [ht, State.expander_setExpander]
    exact ⟨rfl, rfl, Expander.buffer_generate _⟩
  case requested =>
    intro hseeded hrequested hdue hawake
    refine (completes_reseedRequested he hseeded hrequested hdue hawake).mono fun t ht => ⟨ht, ?_⟩
    rw [ht, State.expander_askDraw, State.expander_setExpander]
  case required =>
    intro hseeded hrequired hdue
    exact (completes_reseedRequired he hseeded hrequired hdue).mono fun t ht => by rw [ht]; exact ⟨rfl, rfl, rfl⟩
  case passed =>
    intro hkat
    exact (completes_katDone_kettle cell hkat (by decide)).mono fun t ht => by rw [ht]; exact ⟨rfl, rfl⟩
  case failed =>
    intro hkat hmin hmax
    refine (completes_katDone_kettle cell hkat hmax).mono fun t ht => ?_
    rw [ht, State.entropy_kettleTested_failed s cell hmin]
    exact ⟨rfl, rfl⟩

end Sys2Proof.Machine
end

section
/-! PROOFS. The noise cells' windows, what the kettle absorbs and credits, and its draws (R407-R415, Table 14.1; log entry 45). -/

namespace Sys2Proof.Machine

/-! ## What reaches the pool -/

/-- From `e` to `e'` nothing of the entropy path changed but its cells. -/
def Entropy.CellsOnly (e e' : Entropy) : Prop := ∃ cells, e' = { e with cells := cells }

theorem Entropy.CellsOnly.trans {e e' e'' : Entropy} (h : e.CellsOnly e') (h' : e'.CellsOnly e'') : e.CellsOnly e'' := by
  obtain ⟨_, rfl⟩ := h
  obtain ⟨cells, rfl⟩ := h'
  exact ⟨cells, rfl⟩

theorem Entropy.CellsOnly.pool {e e' : Entropy} (h : e.CellsOnly e') : e'.pool = e.pool ∧ e'.credit = e.credit := by
  obtain ⟨_, rfl⟩ := h
  exact ⟨rfl, rfl⟩

section
variable (s : State)

theorem State.cellsOnly_setCell (n : Nat) (x : Cell) : s.entropy.CellsOnly (s.setCell n x).entropy := ⟨_, rfl⟩

/-- A fault message leaves the entropy path. -/
@[simp] theorem State.entropy_fault (cls : Nat) (kind : Byte) (src : BitVec 16) (d : Word) : (s.fault cls kind src d).entropy = s.entropy :=
  (State.fault_kept _ _ _ _ (Kept.refl _ _) (List.Subset.refl _)).entropy_eq (by decide)

@[simp] theorem State.cell_fault (cls : Nat) (kind : Byte) (src : BitVec 16) (d : Word) (n : Nat) :
    (s.fault cls kind src d).cell n = s.cell n := by
  rw [State.cell, State.cell, State.entropy_fault]

/-! ## Windows that fail (R411, R412) -/

/-- The reserve cell that takes a failed one's place is put into service. -/
def State.reserveCellTaken (s : State) : State :=
  match (List.range 16).find? fun m => (s.cell m).state == .reserve with
  | some m => s.setCell m (if (s.cell m).running then { s.cell m with state := .inService } else { s.cell m with state := .inService }.start)
  | .none => s

theorem State.cellsOnly_reserveCellTaken : s.entropy.CellsOnly s.reserveCellTaken.entropy := by
  unfold State.reserveCellTaken
  split
  · exact ⟨_, rfl⟩
  · exact ⟨_, rfl⟩

/-- No cell but a reserve is put into service. -/
theorem State.cell_reserveCellTaken {n : Nat} (h : (s.cell n).state ≠ .reserve) : s.reserveCellTaken.cell n = s.cell n := by
  unfold State.reserveCellTaken
  split
  · next m hfind =>
    have hreserve : (s.cell m).state = .reserve := by simpa using List.find?_some hfind
    exact State.cell_setCell_ne s _ fun heq => h (heq ▸ hreserve)
  · rfl

theorem State.cellFails_eq (n cause : Nat) : s.cellFails n cause =
    (let s1 := (s.setCell n { (s.cell n).stop with state := .failed }).fault 2 0x40 (srcNoise n)
        (BitVec.ofNat 64 (cause * 256 + (s.cell n).lastTest))
      if (s.cell n).state = .inService then
        if (List.range 16).any fun m => (s1.reserveCellTaken.cell m).state == .inService then s1.reserveCellTaken
        else s1.reserveCellTaken.fault 3 0x42 (srcHub 0x0B) 0
      else s1) := by
  unfold State.cellFails State.reserveCellTaken
  rfl

/-- A cell that fails stops, whatever takes its place. -/
theorem State.cellFails_cell (n cause : Nat) : s.entropy.CellsOnly (s.cellFails n cause).entropy ∧
    (s.cellFails n cause).cell n = { (s.cell n).stop with state := .failed } := by
  have hput := s.cellsOnly_setCell n { (s.cell n).stop with state := .failed }
  have hread := s.cell_setCell n { (s.cell n).stop with state := .failed }
  rw [State.cellFails_eq]
  generalize hfault : (s.setCell n { (s.cell n).stop with state := .failed }).fault 2 0x40 (srcNoise n)
    (BitVec.ofNat 64 (cause * 256 + (s.cell n).lastTest)) = s1
  have hcells : s.entropy.CellsOnly s1.entropy := by rw [← hfault, State.entropy_fault]; exact hput
  have hcell : s1.cell n = { (s.cell n).stop with state := .failed } := by rw [← hfault, State.cell_fault, hread]
  dsimp only
  split
  · have htaken := s1.cell_reserveCellTaken (n := n) (by rw [hcell]; exact CellState.noConfusion)
    split
    · exact ⟨hcells.trans s1.cellsOnly_reserveCellTaken, htaken.trans hcell⟩
    · rw [State.entropy_fault, State.cell_fault]
      exact ⟨hcells.trans s1.cellsOnly_reserveCellTaken, htaken.trans hcell⟩
  · exact ⟨hcells, hcell⟩

/-- A failed window is counted in its cell, and absorbed by nothing. -/
theorem State.windowFailed_cell (n test : Nat) : s.entropy.CellsOnly (s.windowFailed n test).entropy ∧
    ((s.windowFailed n test).cell n).windows = (s.cell n).windows ∧
    ((s.windowFailed n test).cell n).failures = (s.cell n).failures + 1 ∧ ((s.windowFailed n test).cell n).lastTest = test := by
  unfold State.windowFailed
  dsimp only
  split
  · next cause _ =>
    obtain ⟨hcells, hcell⟩ := (s.setCell n _).cellFails_cell n cause
    rw [hcell, State.cell_setCell]
    exact ⟨(s.cellsOnly_setCell n _).trans hcells, rfl, rfl, rfl⟩
  · rw [State.cell_setCell]
    exact ⟨s.cellsOnly_setCell n _, rfl, rfl, rfl⟩

/-! ## Windows that pass (R407, R413) -/

/-- A cell is read from the cells alone. -/
theorem State.cell_modEntropy {f : Entropy → Entropy} (h : (f s.entropy).cells = s.entropy.cells) (n : Nat) :
    (s.modEntropy f).cell n = s.cell n := congrArg (Tbl.get · n (Cell.delivered n)) h

/-- Absorbing changes the pool alone. -/
theorem Entropy.absorb_eq (e : Entropy) (n : Nat) (w : BitVec 4096) : e.absorb n w = { e with pool := (e.absorb n w).pool } := by
  rw [Entropy.absorb]

theorem State.cell_absorb (n m : Nat) (w : BitVec 4096) : (s.modEntropy fun e => e.absorb n w).cell m = s.cell m :=
  s.cell_modEntropy (by rw [Entropy.absorb_eq]) m

/-- A cell after a window that passed, under its start-up test or not. -/
def Cell.passed (x : Cell) : Cell :=
  let y := { x with recent := (false :: x.recent).take 1024 }
  if 0 < x.starting then
    let z := { y with starting := x.starting - 1 }
    if z.starting = 0 ∧ z.state = .reserve then z.stop else z
  else y

theorem Cell.passed_kept (x : Cell) : x.passed.windows = x.windows ∧ x.passed.failures = x.failures ∧ x.passed.mode = x.mode ∧
    x.passed.starting = x.starting - 1 := by
  unfold Cell.passed
  dsimp only
  split
  · split <;> exact ⟨rfl, rfl, rfl, rfl⟩
  · exact ⟨rfl, rfl, rfl, by show x.starting = x.starting - 1; omega⟩

/-- A passing window leaves the cells and the credit to its cell's test, from the state that has absorbed it. -/
theorem State.windowPassed_from (n : Nat) (w : BitVec 4096) : ∃ t : State, (∀ m, t.cell m = s.cell m) ∧ t.entropy = s.entropy.absorb n w ∧
    s.windowPassed n w = (if 0 < (t.cell n).starting then t.setCell n (t.cell n).passed
      else (t.setCell n (t.cell n).passed).modEntropy fun e => { e with credit := min 4096 (e.credit + 64) }) := by
  refine ⟨s.modEntropy fun e => e.absorb n w, fun m => s.cell_absorb n m w, rfl, ?_⟩
  unfold State.windowPassed Cell.passed
  generalize s.modEntropy (fun e => e.absorb n w) = t
  dsimp only
  by_cases h : 0 < (t.cell n).starting
  · simp only [if_pos h]
  · simp only [if_neg h]

/-- A passing window is absorbed; it is credited unless its cell is under its start-up test. -/
theorem State.windowPassed_cell (n : Nat) (w : BitVec 4096) :
    (s.windowPassed n w).entropy.pool = (s.entropy.absorb n w).pool ∧
    (s.windowPassed n w).entropy.credit = (if 0 < (s.cell n).starting then s.entropy.credit else min 4096 (s.entropy.credit + 64)) ∧
    (s.windowPassed n w).cell n = (s.cell n).passed := by
  have hcredit : (s.entropy.absorb n w).credit = s.entropy.credit := by rw [Entropy.absorb_eq]
  obtain ⟨t, hcell, habsorbed, hpassed⟩ := s.windowPassed_from n w
  rw [hpassed, ← hcredit, ← habsorbed, hcell]
  split
  · exact ⟨rfl, rfl, State.cell_setCell ..⟩
  · exact ⟨rfl, rfl, (State.cell_modEntropy _ rfl n).trans (State.cell_setCell ..)⟩

/-! ## Windows that end (R408, R409) -/

/-- A cell whose window ended: counted, in the mode that was set for it, with the measures of the window. -/
def Cell.measured (x : Cell) (bias : Int) (corr : Vector Int 4) : Cell :=
  { x with windows := x.windows + 1, mode := x.nextMode, bias := bias, corr := corr }

/-- Outside the kettle's known-answer test a window that ends is tested, from a state in which its cell alone differs. -/
theorem State.windowEnds_from (n : Nat) (w : BitVec 4096) (hkat : s.entropy.kettleKat = false) :
    ∃ (t : State) (bias : Int) (corr : Vector Int 4), s.entropy.CellsOnly t.entropy ∧ t.cell n = (s.cell n).measured bias corr ∧
      (∀ k, windowFails w = some k → s.windowEnds n w = t.windowFailed n k) ∧
      (windowFails w = .none → s.windowEnds n w = t.windowPassed n w) := by
  unfold State.windowEnds
  extract_lets counted mille x measured
  have hcounted : x = { s.cell n with windows := (s.cell n).windows + 1, mode := (s.cell n).nextMode } := State.cell_setCell ..
  have hcells : s.entropy.CellsOnly measured.entropy := (s.cellsOnly_setCell n _).trans (counted.cellsOnly_setCell n _)
  have hmeasured : measured.cell n = { x with bias := measured.cell n |>.bias, corr := (measured.cell n).corr } := by
    rw [State.cell_setCell]
  rw [if_neg (show ¬counted.entropy.kettleKat = true from ne_true_of_eq_false hkat)]
  clear_value measured x
  refine ⟨measured, (measured.cell n).bias, (measured.cell n).corr, hcells, ?_, fun k hfails => ?_, fun hfails => ?_⟩
  · rw [hmeasured, hcounted]
    rfl
  · rw [hfails]
  · rw [hfails]

/-- During the kettle's known-answer test a window is counted alone. -/
theorem State.windowEnds_kat (n : Nat) (w : BitVec 4096) (hkat : s.entropy.kettleKat = true) : s.windowEnds n w = s.windowCounted n := by
  unfold State.windowEnds
  exact if_pos hkat

/-! ## Draws (R414) -/

/-- A draw costs 512 credited bits and takes a serial; the pool is ratcheted. -/
theorem Entropy.draw_kettle (e : Entropy) : ∃ pool, e.draw.2 = { e with pool := pool, credit := e.credit - 512, serial := e.serial + 1 } :=
  ⟨_, rfl⟩

/-- From `e` to `e'` nothing of the entropy path changed but H.DRBG and what the first seed waits for. -/
def Entropy.HubOnly (e e' : Entropy) : Prop := ∃ hub drawn seed, e' = { e with hub := hub, hubDrawn := drawn, firstSeed := seed }

theorem Entropy.HubOnly.refl (e : Entropy) : e.HubOnly e := ⟨_, _, _, rfl⟩

theorem Entropy.HubOnly.trans {e e' e'' : Entropy} (h : e.HubOnly e') (h' : e'.HubOnly e'') : e.HubOnly e'' := by
  obtain ⟨_, _, _, rfl⟩ := h
  obtain ⟨hub, drawn, seed, rfl⟩ := h'
  exact ⟨hub, drawn, seed, rfl⟩

theorem State.hubOnly_setExpander (e : Nat) (x : Expander) : s.entropy.HubOnly (s.setExpander e x).entropy := by
  unfold State.setExpander
  split
  · exact ⟨_, _, _, rfl⟩
  · exact .refl _

theorem State.hubOnly_hubRead (n : Nat) : s.entropy.HubOnly (s.hubRead n).entropy := by
  unfold State.hubRead
  split
  · exact ⟨_, _, _, rfl⟩
  · rw [(State.drawnBytes_kept _ (Kept.refl _ _) (List.Subset.refl _)).entropy_eq (by decide)]
    exact .refl _

theorem State.hubOnly_hubSeeded : s.entropy.HubOnly s.hubSeeded.entropy := by
  unfold State.hubSeeded
  dsimp only
  have hseed : s.entropy.HubOnly (s.modEntropy fun e => { e with firstSeed := true, hubDrawn := false }).entropy := ⟨_, _, _, rfl⟩
  split
  · exact hseed.trans (State.hubOnly_hubRead _ 32)
  · exact hseed

/-- What a draw's output goes to takes nothing of the pool. -/
theorem State.hubOnly_serveDraw (d : Draw) (out : Bytes) : s.entropy.HubOnly (s.serveDraw d out).entropy := by
  unfold State.serveDraw
  split
  · next e =>
    have hseed : s.entropy.HubOnly (s.seedFrom e out).entropy := s.hubOnly_setExpander e _
    dsimp only
    split
    · exact hseed
    · split
      · exact hseed.trans ((State.hubOnly_setExpander _ 36 _).trans ⟨_, _, _, rfl⟩)
      · exact hseed.trans (State.hubOnly_hubSeeded _)
  · rw [(State.reprovisioned_kept (Kept.refl _ _) (List.Subset.refl _)).entropy_eq (by decide)]
    exact .refl _
  · exact .refl _

end

/-! ## The events -/

section
variable {s : State} {n : Nat} (hn : cellOk n = true)
include hn

theorem completes_cellStabilised (hruns : (s.cell n).running = true) (hfresh : (s.cell n).stable = false) :
    Completes (.cellStabilised n) s fun t => t = s.setCell n { s.cell n with stable := true } :=
  (completes_checked exec_cellStabilised hn).mono fun t ht => ht.trans (if_pos ⟨hruns, by rw [hfresh]; rfl⟩)

theorem completes_noiseWindowEnd {raw : List (Bool × Bool)} {w : BitVec 4096} (hdelivers : (s.cell n).delivers = true)
    (hfills : strainedWindow (s.cell n).mode raw = some w) : Completes (.noiseWindowEnd n raw) s fun t => t = s.windowEnds n w := by
  refine (completes_checked exec_noiseWindowEnd hn).mono fun t ht => ht.trans ?_
  rw [hdelivers, hfills]

theorem completes_noiseWindowEnd_none {raw : List (Bool × Bool)}
    (h : (s.cell n).delivers = false ∨ strainedWindow (s.cell n).mode raw = .none) : Completes (.noiseWindowEnd n raw) s fun t => t = s := by
  refine (completes_checked exec_noiseWindowEnd hn).mono fun t ht => ht.trans ?_
  rcases h with hidle | hshort
  · rw [hidle]
  · rw [hshort]
    cases (s.cell n).delivers <;> rfl

theorem completes_fillTimeExceeded (hdelivers : (s.cell n).delivers = true) (hmode : (s.cell n).mode = true)
    (hkat : s.entropy.kettleKat = false) :
    Completes (.fillTimeExceeded n) s fun t => t = (s.windowCounted n).windowFailed n 5 :=
  (completes_checked exec_fillTimeExceeded hn).mono fun _ ht =>
    ht.trans ((if_pos ⟨hdelivers, hmode⟩).trans (if_neg (ne_true_of_eq_false hkat)))

end

section
variable {s : State} {d : Draw}

/-- A draw goes to who asked first, and its credit and serial are the kettle's after it. -/
theorem completes_kettleDraw (hcredit : 512 ≤ s.entropy.credit) (hkat : s.entropy.kettleKat = false)
    (hfailed : s.entropy.kettleFailed = false) (hhub : s.entropy.hub.katFailed = false) (hnext : s.nextDraw = some d) :
    Completes .kettleDraw s fun t =>
      t = ({ s with entropy := { s.entropy.draw.2 with draws := eraseFirst (· == d) s.entropy.draws } } : State).serveDraw d s.entropy.draw.1 := by
  refine ⟨_, exec_kettleDraw.trans (congrArg Host.Outcome.next (if_neg ?_)), ?_⟩
  · simp [hkat, hfailed, hhub, hcredit]
  · have hdraws : s.entropy.draw.2.draws = s.entropy.draws := by
      obtain ⟨pool, hkettle⟩ := s.entropy.draw_kettle
      rw [hkettle]
    generalize s.entropy.draw = taken at hdraws ⊢
    rw [hnext, ← hdraws]

theorem completes_kettleDraw_short (hcredit : s.entropy.credit < 512) : Completes .kettleDraw s fun t => t = s :=
  ⟨s, congrArg Host.Outcome.next (if_pos (.inl hcredit)), rfl⟩

end

/-- Settles O46: a window's effect is its test's, on the state that has counted it; a draw's is its taker's. -/
theorem noiseAndKettle : Obligations.NoiseAndKettle := by
  unfold Obligations.NoiseAndKettle
  intro s n raw w d k hn fills
  refine ⟨?stabilised, ?passed, ?failed, ?tested, completes_noiseWindowEnd_none hn, ?overdue, ?drawn, completes_kettleDraw_short⟩
  case stabilised =>
    intro hruns hfresh
    refine (completes_cellStabilised hn hruns hfresh).mono fun t ht => ?_
    rw [ht, State.cell_setCell]
    exact ⟨rfl, rfl⟩
  case passed =>
    intro ⟨hdelivers, hfills⟩ hkat hpasses
    refine (completes_noiseWindowEnd hn hdelivers hfills).mono fun t ht => ?_
    obtain ⟨t1, bias, corr, ⟨cells, hcells⟩, hcell, -, hpassed⟩ := s.windowEnds_from n w hkat
    obtain ⟨hpool, hcredit, hafter⟩ := t1.windowPassed_cell n w
    obtain ⟨hwindows, hfailures, hmode, hstarting⟩ := ((s.cell n).measured bias corr).passed_kept
    rw [ht, hpassed hpasses, hafter, hpool, hcredit, hcell, hwindows, hfailures, hmode, hstarting, hcells]
    exact ⟨rfl, rfl, rfl, rfl, rfl, rfl⟩
  case failed =>
    intro ⟨hdelivers, hfills⟩ hkat hfails
    refine (completes_noiseWindowEnd hn hdelivers hfills).mono fun t ht => ?_
    obtain ⟨t1, bias, corr, hcells, hcell, hfailed, -⟩ := s.windowEnds_from n w hkat
    obtain ⟨hkept, hwindows, hfailures, htest⟩ := t1.windowFailed_cell n k
    obtain ⟨hpool, hcredit⟩ := (hcells.trans hkept).pool
    rw [ht, hfailed k hfails, hwindows, hfailures, htest, hcell, hpool, hcredit]
    exact ⟨rfl, rfl, rfl, rfl, rfl⟩
  case tested =>
    intro ⟨hdelivers, hfills⟩ hkat
    refine (completes_noiseWindowEnd hn hdelivers hfills).mono fun t ht => ?_
    rw [ht, State.windowEnds_kat _ _ _ hkat, State.windowCounted, State.cell_setCell]
    exact ⟨rfl, rfl, rfl⟩
  case overdue =>
    intro hdelivers hmode hkat
    refine (completes_fillTimeExceeded hn hdelivers hmode hkat).mono fun t ht => ?_
    obtain ⟨hkept, -, hfailures, htest⟩ := (s.windowCounted n).windowFailed_cell n 5
    rw [ht, hfailures, htest, hkept.pool.2, State.windowCounted, State.cell_setCell]
    exact ⟨rfl, rfl, rfl⟩
  case drawn =>
    intro hcredit hkat hfailed hhub hnext
    refine (completes_kettleDraw hcredit hkat hfailed hhub hnext).mono fun t ht => ⟨ht, ?_⟩
    obtain ⟨pool, hkettle⟩ := s.entropy.draw_kettle
    obtain ⟨hub, drawn, seed, hkept⟩ :=
      ({ s with entropy := { s.entropy.draw.2 with draws := eraseFirst (· == d) s.entropy.draws } } : State).hubOnly_serveDraw d s.entropy.draw.1
    rw [ht, hkept, hkettle]
    exact ⟨rfl, rfl⟩

end Sys2Proof.Machine
end

section
/-! PROOFS. The entropy, ceremony and firmware commands (R407, R421, R438-R443, Table 11.8; log entries 35, 45, 51). -/

namespace Sys2Proof.Machine

section
variable {s s1 : State} {c : Cmd} {sp : Spec} {y : Ceremony} {key : Bytes}

/-! ## Entropy (Table 11.8) -/

/-- ENTROPY.STATUS begins with the pool's credit. -/
theorem completes_entropyStatus (h : Admitted 0x0B01 sp c s) (hb : c.body = []) : Completes (.entropyStatus c) s fun t => ∃ rsp,
    Answered sp c s rsp t ∧ rsp.take 8 = natLE 4 s.entropy.credit ++ [BitVec.ofNat 8 (b2n s.entropy.firstSeed), 0, 0, 0] :=
  completes_cmd h exec_entropyStatus (by simp [hb]) ⟨_, rfl, List.take_left' (by simp)⟩

@[simp] theorem cell_answer (rsp : Bytes) (n : Nat) : (answer c s sp rsp).cell n = s.cell n := by
  rw [State.cell, (answer_kept c sp rsp (Kept.refl _ s) (List.Subset.refl _)).entropy_eq (by decide)]
  rfl

/-- The next mode set for each cell of a list. -/
def State.setModes (s : State) (modes : Nat) (ns : List Nat) : State :=
  ns.foldl (fun s n => s.setCell n { s.cell n with nextMode := bit modes n }) s

/-- Each cell named has its bit for its next mode; setting another's leaves it. -/
theorem State.cell_setModes (modes n : Nat) (ns : List Nat) (s : State) : (s.setModes modes ns).cell n =
    if n ∈ ns then { s.cell n with nextMode := bit modes n } else s.cell n := by
  induction ns generalizing s with
  | nil => rfl
  | cons m ns ih =>
    rw [State.setModes, List.foldl_cons]
    refine (ih _).trans ?_
    by_cases hm : m = n
    · subst hm
      simp
    · rw [State.cell_setCell_ne s _ hm]
      simp [Ne.symm hm]

theorem completes_entropyConfig (h : Admitted 0x0B02 sp c s) (hlen : c.body.length = 8) (hz : zeroAt c.body 2 6 = true) :
    Completes (.entropyConfig c) s fun t => ∀ n, n < 16 → t.cell n = { s.cell n with nextMode := bit (fieldLE c.body 0 2) n } := by
  refine completes_cmd h (exec_entropyConfig.trans (by unfold execEntropyConfig; rfl)) (by simp [hlen, hz]) fun n hn => ?_
  rw [cell_answer]
  exact (State.cell_setModes _ n (List.range 16) s).trans (if_pos (List.mem_range.mpr hn))

/-- ENTROPY.KAT of the kettle starts its known-answer test. -/
theorem completes_entropyKat (h : Admitted 0x0B03 sp c s) (hlen : c.body.length = 8) (hz : zeroAt c.body 2 6 = true)
    (hsrc : fieldLE c.body 0 2 = (srcHub 0x0B).toNat) : Completes (.entropyKat c) s fun t => t = (s.begin sp c).startKat (srcHub 0x0B) := by
  refine completes_cmd h (exec_entropyKat.trans (by unfold execEntropyKat; rfl)) (by simp [hlen, hz]) ?_
  have hhub : clusterOfSrc (srcHub 0x0B) = .none := by decide
  simp [hsrc, hhub]

/-! ## Ceremonies (R438-R443) -/

@[simp] theorem cards_answer (rsp : Bytes) : (answer c s sp rsp).cards = s.cards :=
  (answer_kept c sp rsp (Kept.refl _ s) (List.Subset.refl _)).cards_eq (by decide)

/-- A ceremony asks for no card while both slots are off. -/
theorem State.joinNext_off (h : (s.card 0).phase = .off) (h1 : (s.card 1).phase = .off) : s.joinNext = s := by
  have hready : ∀ f : Nat → Bool, f 0 = false → f 1 = false → [0, 1].find? f = .none := fun f hf hf1 => by simp [hf, hf1]
  unfold State.joinNext
  split
  · split
    · rfl
    · dsimp only
      rw [hready _ (by rw [h]; rfl) (by rw [h1]; rfl)]
  · rfl

/-- A ceremony as CEREMONY.BEGIN forms it. -/
def begunCeremony (s : State) (b : Bytes) : Ceremony :=
  { id := s.free, purpose := BitVec.ofNat 16 (fieldLE b 0 2), digest := slice b 8 48, state := .waiting, joined := [], enrolled := [],
    auth := .none, grantedAt := 0, torn := .none }

/-- A purpose of Table 15.3, with no digest where it is the operator master key's, is a valid one. -/
theorem ceremonyBegin_valid {b : Bytes} (hpurpose : purposes.contains (fieldLE b 0 2) = true)
    (hdigest : fieldLE b 0 2 = 0x0C04 → allZero (slice b 8 48) = true) :
    ¬((!purposes.contains (fieldLE b 0 2)) = true ∨ (fieldLE b 0 2 = 0x0C04 ∧ (!allZero (slice b 8 48)) = true)) := by
  rintro (hbad | ⟨homk, hbad⟩)
  · simp only [hpurpose, Bool.not_true, Bool.false_eq_true] at hbad
  · simp only [hdigest homk, Bool.not_true, Bool.false_eq_true] at hbad

section
variable (h : Admitted 0x0C01 sp c s) (hlen : c.body.length = 56) (hz : zeroAt c.body 2 6 = true)
  (hpurpose : purposes.contains (fieldLE c.body 0 2) = true) (hdigest : fieldLE c.body 0 2 = 0x0C04 → allZero (slice c.body 8 48) = true)
include h hlen hz hpurpose hdigest

/-- Only one ceremony is open at a time. -/
theorem completes_ceremonyBegin_open (hopen : s.openCeremony.isSome = true) : Completes (.ceremonyBegin c) s fun t => t = s.reject c cBadState := by
  refine completes_cmd h (exec_ceremonyBegin.trans (by unfold execCeremonyBegin; rfl)) (by simp [hlen, hz]) ?_
  rw [if_neg (ceremonyBegin_valid hpurpose hdigest), if_pos hopen]

/-- With both slots off the ceremony begins WAITING. -/
theorem completes_ceremonyBegin (hopen : s.openCeremony = .none) (hoff : (s.card 0).phase = .off) (hoff1 : (s.card 1).phase = .off) :
    Completes (.ceremonyBegin c) s fun t => t.cards.ceremony = some (begunCeremony s c.body) := by
  refine completes_cmd h (exec_ceremonyBegin.trans (by unfold execCeremonyBegin; rfl)) (by simp [hlen, hz]) ?_
  rw [if_neg (ceremonyBegin_valid hpurpose hdigest), if_neg (by simp [hopen]), cards_answer]
  obtain ⟨z, hz⟩ : ∃ z, z = { s.drawn with cards := { s.cards with ceremony := some (begunCeremony s c.body) } } := ⟨_, rfl⟩
  have hslots : ∀ n, z.card n = s.card n := fun n => by rw [hz]; rfl
  have hinactive : ([0, 1].foldl (fun (s : State) n => if (s.card n).phase = .present then s.activateCard n false false else s) z) = z := by
    simp [hslots, hoff, hoff1]
  rw [hz] at hinactive hslots
  refine (congrArg (fun t : State => t.joinNext.cards.ceremony) hinactive).trans ?_
  rw [State.joinNext_off (by rw [hslots, hoff]) (by rw [hslots, hoff1])]

end

theorem completes_ceremonyStatus (h : Admitted 0x0C02 sp c s) (hlen : c.body.length = 8) (hy : s.ceremonyOf c.body = some y) :
    Completes (.ceremonyStatus c) s (Answered sp c s
      (natLE 1 y.state.code ++ List.replicate 7 0 ++ natLE 8 (if y.state = .granted then y.auth.getD 0 else 0).toNat)) := by
  refine completes_cmd h exec_ceremonyStatus (by simp [hlen]) ?_
  rw [hy]
  rfl

theorem completes_ceremonyAbort (h : Admitted 0x0C03 sp c s) (hlen : c.body.length = 8) (hy : s.ceremonyOf c.body = some y) :
    Completes (.ceremonyAbort c) s (Answered sp c s.abortCeremony []) := by
  refine completes_cmd h exec_ceremonyAbort (by simp [hlen]) ?_
  rw [hy]
  rfl

/-- CEREMONY.OMK of a granted ceremony wraps the operator master key its shares form; the ceremony is over. -/
theorem completes_ceremonyOmk (h : Admitted 0x0C04 sp c s) (hlen : c.body.length = 8) (hy : s.ceremonyOf c.body = some y)
    (hpurpose : y.purpose = 0x0C04) (hgranted : y.state = .granted) (hnone : s.record 0 1 = .none) (hkey : s.formOmk y = some key)
    (hmade : ((((s.begin sp c).cmdAccepted c 0x0C04).cmdIntent c 2 1 (s.versionOf 1).toNat).drawn.makeRecord 1 1 s.omkAttrs
        (BitVec.ofNat 32 ((s.versionOf 1).toNat + 1)) key) = some s1) : Completes (.ceremonyOmk c) s fun t => ∃ s2 rsp,
      Answered sp c s2 rsp t ∧ s2 = (let z := s1.cmdCommit c 2 1 ((s.versionOf 1).toNat + 1)
        { z with cards := { z.cards with roster := (y.joined ++ y.enrolled).map fun (j : Joined) => (j.serial, j.keyHash) } }).abortCeremony.keyArrived := by
  refine completes_cmd h exec_ceremonyOmk (by simp [hlen]) ?_
  simp only [hy, hpurpose, hgranted, hnone, hkey, hmade]
  exact ⟨_, _, rfl, rfl⟩

/-! ## Firmware (R527-R531, Table 11.8) -/

theorem completes_fwStatus (h : Admitted 0x1101 sp c s) (hb : c.body = []) : Completes (.fwStatus c) s fun t => ∃ rsp,
    Answered sp c s rsp t ∧ rsp.take 48 = natBE 48 s.power.running.toNat := by
  refine completes_cmd h exec_fwStatus (by simp [hb]) ⟨_, rfl, ?_⟩
  simp only [List.append_assoc]
  exact List.take_left' (length_natBE 48 _)

/-- The image staged once a piece that fits has come. -/
def State.stagedWith (s : State) (b : Bytes) : State :=
  let piece := b.drop 16
  let total := fieldLE b 8 8
  let whole := (if fieldLE b 0 8 = 0 then [] else s.power.staged) ++ piece
  s.modPower fun p => { p with
    staged := whole, stagedTotal := total, stagedLast := (fieldLE b 0 8, piece),
    stagedState := if whole.length < total then 1 else if Config.bootRomVerify whole then 2 else 3 }

/-- A piece that fits is staged; a whole image that does not verify completes with that. -/
theorem completes_fwStage (h : Admitted 0x1102 sp c s) (hlen : 16 ≤ c.body.length) (hcarry : s.keys.carry = .none)
    (hnew : s.power.stagedTotal = fieldLE c.body 8 8 → s.power.stagedLast ≠ (fieldLE c.body 0 8, c.body.drop 16))
    (hpiece : c.body.drop 16 ≠ []) (hmax : (c.body.drop 16).length ≤ 16777216)
    (hoff : fieldLE c.body 0 8 = (if fieldLE c.body 0 8 = 0 then [] else s.power.staged).length)
    (hsame : fieldLE c.body 0 8 ≠ 0 → fieldLE c.body 8 8 = s.power.stagedTotal)
    (hfits : fieldLE c.body 0 8 + (c.body.drop 16).length ≤ fieldLE c.body 8 8) (htotal : fieldLE c.body 8 8 ≤ 3145728) :
    Completes (.fwStage c) s fun t => t = (if (s.stagedWith c.body).power.stagedState = 3 then (s.stagedWith c.body).finish sp c 0x0601 [] 0
      else (s.stagedWith c.body).stageAnswer sp c) := by
  refine completes_cmd h (exec_fwStage.trans (by unfold execFwStage; rfl)) (decide_eq_true hlen) ?_
  have hagain : ¬(decide (0 < s.power.stagedTotal ∧ s.power.stagedTotal = fieldLE c.body 8 8) &&
      s.power.stagedLast == (fieldLE c.body 0 8, c.body.drop 16)) = true := fun hboth => by
    obtain ⟨⟨-, htot⟩, hlast⟩ : (0 < s.power.stagedTotal ∧ s.power.stagedTotal = fieldLE c.body 8 8) ∧
        s.power.stagedLast = (fieldLE c.body 0 8, c.body.drop 16) := by simpa using hboth
    exact hnew htot hlast
  dsimp only
  rw [if_neg (by simp [hcarry]), if_neg hagain, if_neg ?_]
  · rfl
  · rintro (hbad | hbad | hbad | ⟨hbad, hbad2⟩ | hbad | hbad)
    · omega
    · exact hpiece (List.isEmpty_iff.mp hbad)
    · exact hbad hoff
    · exact hbad2 (hsame hbad)
    · omega
    · omega

/-- Entering a device state changes nothing else of the power state. -/
theorem State.power_setDev (d : DevState) : (s.setDev d).power = { s.power with dev := d } := by
  unfold State.setDev
  split
  · next h => rw [← h]
  · dsimp only
    split <;> split <;> simp

/-- FW.ACTIVATE of a staged image with no record to carry and every tenant lane CLOSED begins the activation. -/
theorem completes_fwActivate (h : Admitted 0x1103 sp c s) (hb : c.body = []) (hstaged : s.power.stagedState = 2)
    (hidle : s.power.activating = false) (hwarm : s.warmTins = []) (hclosed : (s.tenantLanes.any fun l => (s.lane l).state != .closed) = false) :
    Completes (.fwActivate c) s fun t => t.power = { s.power with activating := true, activateCmd := some c, dev := .stopping } ∧
      t.keys = { s.keys with suspended := true } := by
  refine completes_cmd h exec_fwActivate (by simp [hb]) ?_
  dsimp only
  rw [if_neg (by simp [hstaged]), if_neg (by simp [hstaged, hidle]), if_neg (by simp [hwarm]), if_neg (ne_true_of_eq_false hclosed)]
  have hbegun : Kept [.pcie, .journal] s ((s.begin sp c).cmdAccepted c sp.op) :=
    State.cmdAccepted_kept _ _ (State.begin_kept _ _ (Kept.refl _ _) (by decide)) (by decide)
  have hintent : ∀ (z : State) (before : Nat), Kept [.journal] z (z.cmdIntent c 4 0 before) := fun z before =>
    State.cmdIntent_kept _ _ _ _ (Kept.refl _ _) (by decide)
  have hended : ∀ z : State, Kept [.out, .journal, .pcie, .recorder] z (z.finish sp c cOk [] 0) := fun z =>
    State.finish_kept _ _ _ _ _ (Kept.refl _ _) (by decide)
  have hstopped : ∀ z : State, Kept [.out, .pcie, .faults, .recorder, .power] z (z.setDev .stopping) := fun z =>
    State.setDev_kept _ (Kept.refl _ _) (by decide)
  rw [(hended _).power_eq (by decide), State.power_setDev, (hintent _ _).power_eq (by decide), (hended _).keys_eq (by decide),
    (hstopped _).keys_eq (by decide), (hintent _ _).keys_eq (by decide)]
  simp only [State.modPower, hbegun.power_eq (by decide), hbegun.keys_eq (by decide), and_self]

end

/-- Settles O43, each command by its lemma. -/
theorem entropyCeremonyFirmwareCommands : Obligations.EntropyCeremonyFirmwareCommands := by
  unfold Obligations.EntropyCeremonyFirmwareCommands
  intro s s1 c sp y key b
  refine ⟨completes_entropyStatus, completes_entropyConfig, completes_entropyKat, ?begun, completes_ceremonyBegin_open, completes_ceremonyStatus,
    completes_ceremonyAbort, completes_ceremonyOmk, completes_fwStatus, ?staged, ?activated⟩
  case begun =>
    intro h hlen hz hpurpose hdigest hopen hoff hoff1
    exact (completes_ceremonyBegin h hlen hz hpurpose hdigest hopen hoff hoff1).mono fun t ht => ⟨_, ht, rfl, rfl, rfl, rfl⟩
  case staged =>
    intro piece off total held whole st staged h hlen hcarry hnew hpiece hmax hoff hsame hfits htotal
    refine (completes_fwStage h hlen hcarry hnew hpiece hmax hoff hsame hfits htotal).mono fun t ht => ?_
    change if (s.stagedWith b).power.stagedState = 3 then t = (s.stagedWith b).finish sp c 0x0601 [] 0
      else t = (s.stagedWith b).stageAnswer sp c
    rw [ht]
    split <;> rfl
  case activated =>
    intro h hb hstaged hidle hwarm hclosed
    exact (completes_fwActivate h hb hstaged hidle hwarm hclosed).mono fun t ⟨hpower, hkeys⟩ => by simp [hpower, hkeys]

end Sys2Proof.Machine
end

section
/-! PROOFS. The life-cycle, tamper, reserve and recorder commands (R449, R457, R462, R465, R491, Table 11.3). -/

namespace Sys2Proof.Machine

section
variable {s s1 : State} {c : Cmd} {sp : Spec}

/-! ## Life cycle (R457, R462, R465) -/

theorem completes_lcStatus (h : Admitted 0x0D01 sp c s) (hb : c.body = []) : Completes (.lcStatus c) s (Answered sp c s.useLifecycle
    ([s.lc.code, s.lc.gen, BitVec.ofNat 8 (lcCycles s.lc.code.toNat)] ++ List.replicate 5 0)) :=
  completes_cmd h exec_lcStatus (by simp [hb]) (by simp only [State.lc_useLifecycle]; rfl)

section
variable (h : Admitted 0x0D02 sp c s) (hlen : c.body.length = 16) (hz : zeroAt c.body 1 7 = true)
  (hadvances : lcAdvances s.lc.code.toNat (fieldLE c.body 0 1) = true)
include h hlen hz hadvances

theorem completes_lcAdvance (hauth : s.useLifecycle.useAuth 0x0D02 8 c.body = some s1) (hrest : s1.lc.moving = .none) :
    Completes (.lcAdvance c) s fun t => t = (s1.begin sp c).lcBegin (fieldLE c.body 0 1) (some c) := by
  refine completes_cmd h (exec_lcAdvance.trans (by unfold execLcAdvance; rfl)) (by simp [hlen, hz]) ?_
  simp only [State.lc_useLifecycle, hadvances, hauth, hrest, Bool.true_eq_false, Option.isSome_none, Bool.false_eq_true, ↓reduceIte]

theorem completes_lcAdvance_unauthorised (hauth : s.useLifecycle.useAuth 0x0D02 8 c.body = .none) :
    Completes (.lcAdvance c) s fun t => t = s.useLifecycle.reject c cAuthorisation := by
  refine completes_cmd h (exec_lcAdvance.trans (by unfold execLcAdvance; rfl)) (by simp [hlen, hz]) ?_
  simp only [State.lc_useLifecycle, hadvances, hauth, Bool.true_eq_false, ↓reduceIte]

end

theorem completes_lcReprovision (h : Admitted 0x0D03 sp c s) (hlen : c.body.length = 8) (hauth : s.useAuth 0x0D03 0 c.body = some s1)
    (hrest : s1.lc.moving = .none) (hdraw : s1.entropy.draws.contains (.direct true) = false) :
    Completes (.lcReprovision c) s fun t => t = (s1.begin sp c).askDirect true := by
  refine completes_cmd h exec_lcReprovision (by simp [hlen]) ?_
  simp only [hauth, hrest, hdraw, Option.isSome_none, Bool.false_eq_true, or_self, ↓reduceIte]

/-! ## Tamper sources (R449, R459) -/

theorem completes_tamperStatus (h : Admitted 0x0D04 sp c s) (hb : c.body = []) : Completes (.tamperStatus c) s (Answered sp c s
    (natLE 4 s.stickyFlags ++ natLE 2 s.tamper.hx3 ++ [0, 0] ++ (List.range 16).flatMap fun n => natLE 4 (s.alarmCount n).toNat)) :=
  completes_cmd h exec_tamperStatus (by simp [hb]) rfl

/-- A source put back configured, with its shadow, its window empty. -/
def Source.configured (y : Source) (x : SourceCfg) : Source := { y with cfg := x, shadow := x, window := [] }

/-- TAMPER.CONFIG sets a source, its shadow and its copy in MRAM. -/
theorem completes_tamperConfig (h : Admitted 0x0D05 sp c s) (hlen : c.body.length = 16) (hz : zeroAt c.body 3 1 = true) {x : SourceCfg}
    (hx : x = { rank := fieldLE c.body 1 1, n := fieldLE c.body 2 1, m := fieldLE c.body 4 2, period := fieldLE c.body 6 2 })
    (hok : x.ok (fieldLE c.body 0 1) = true) (hauth : s.useAuth 0x0D05 8 c.body = some s1) : Completes (.tamperConfig c) s fun t =>
      t.source (fieldLE c.body 0 1) = (s1.source (fieldLE c.body 0 1)).configured x ∧ t.tamper.mramCfg.find? (fieldLE c.body 0 1) = some x := by
  refine completes_cmd h (exec_tamperConfig.trans (by unfold execTamperConfig; rfl)) (by simp [hlen, hz]) ?_
  subst hx
  have htamper : ∀ (z : State) (rsp : Bytes), (answer c z sp rsp).tamper = z.tamper := fun z rsp =>
    (answer_kept c sp rsp (Kept.refl _ z) (List.Subset.refl _)).tamper_eq (by decide)
  simp only [hok, hauth, Bool.true_eq_false, ↓reduceIte, State.source, htamper]
  refine ⟨?_, ?_⟩
  · exact State.source_setSource s1 (fieldLE c.body 0 1) _
  · simp [State.modTamper, Tbl.find?_set]

/-! ## The reserve and the recorder (R491, R513) -/

/-- RESERVE.STATUS answers four bytes for each cluster and four more. -/
theorem completes_reserveStatus (h : Admitted 0x0E01 sp c s) (hb : c.body = []) : Completes (.reserveStatus c) s fun t => ∃ rsp,
    Answered sp c s rsp t ∧ rsp.length = 148 := by
  refine completes_cmd h exec_reserveStatus (by simp [hb]) ⟨_, rfl, ?_⟩
  rw [List.length_append, length_flatMap_range (w := 4) fun _ _ => rfl]
  rfl

theorem completes_reserveEngage (h : Admitted 0x0E02 sp c s) (hlen : c.body.length = 8) (hz : zeroAt c.body 1 7 = true)
    (hquadrant : fieldLE c.body 0 1 < 64) (hnumber : fieldLE c.body 0 1 % 16 < 9)
    (hstate : (s.cluster (fieldLE c.body 0 1 / 16 * 9 + fieldLE c.body 0 1 % 16)).state = .inService)
    (hreserve : (s.pickReserve (fieldLE c.body 0 1 / 16 * 9 + fieldLE c.body 0 1 % 16)).isSome = true) :
    Completes (.reserveEngage c) s fun t =>
      t = (s.begin sp c).queueEngagement (fieldLE c.body 0 1 / 16 * 9 + fieldLE c.body 0 1 % 16) 0 (some c) := by
  refine completes_cmd h (exec_reserveEngage.trans (by unfold execReserveEngage; rfl)) (by simp [hlen, hz]) ?_
  rw [if_neg (by omega), if_neg (not_not.mpr hstate), if_neg (by simp [Option.isSome_iff_ne_none.mp hreserve])]

theorem completes_recorderRead (h : Admitted 0x1001 sp c s) (hlen : c.body.length = 8) (hz : zeroAt c.body 6 2 = true)
    (hmin : 1 ≤ fieldLE c.body 4 2) (hmax : fieldLE c.body 4 2 ≤ 256) (hfirst : fieldLE c.body 0 4 < 1024) :
    Completes (.recorderRead c) s
      (let n := min (fieldLE c.body 4 2) (1024 - fieldLE c.body 0 4)
      Answered sp c s (natLE 2 n ++ [0, 0] ++ natLE 4 (fieldLE c.body 0 4 + n) ++
        (List.range n).flatMap fun i => (s.recorder.records.get (fieldLE c.body 0 4 + i) Rec.blank).bytes (fieldLE c.body 0 4 + i))) := by
  refine completes_cmd h (exec_recorderRead.trans (by unfold execRecorderRead; rfl)) (by simp [hlen, hz]) ?_
  rw [if_neg (by omega)]
  rfl

end

/-- Settles O37, each command by its lemma. -/
theorem guardCommands : Obligations.GuardCommands := by
  unfold Obligations.GuardCommands
  intro s s1 c sp b k
  refine ⟨completes_lcStatus, completes_lcAdvance, completes_lcAdvance_unauthorised, completes_lcReprovision, completes_tamperStatus, ?config,
    completes_reserveStatus, completes_reserveEngage, completes_recorderRead⟩
  case config =>
    intro n x h hlen hz hok hauth
    refine (completes_tamperConfig h hlen hz rfl hok hauth).mono fun t ⟨hsource, hcopy⟩ => ?_
    rw [hsource]
    exact ⟨rfl, rfl, rfl, hcopy⟩

end Sys2Proof.Machine
end

section
/-! PROOFS. The card slots: activation, refusals, the blocks of T=1 and the ceremony's end (R426-R431, R443; log entry 35). -/

namespace Sys2Proof.Machine

/-! ## What a slot holds after the others' operations -/

section
variable (s : State) (n : Nat)

@[simp] theorem State.card_emit (o : Output) : (s.emit o).card n = s.card n := rfl

@[simp] theorem State.card_count (rec i : Nat) : (s.count rec i).card n = s.card n := rfl

@[simp] theorem State.card_modCard (f : CardSlot → CardSlot) : (s.modCard n f).card n = f (s.card n) := State.card_setCard ..

theorem State.card_modCard_ne {m : Nat} (f : CardSlot → CardSlot) (h : m ≠ n) : (s.modCard m f).card n = s.card n :=
  State.card_setCard_ne s _ h

/-- A slot activated awaits its answer to reset. -/
theorem State.card_activateCard (classB noPps : Bool) : (s.activateCard n classB noPps).card n =
    { CardSlot.fresh with inserted := true, phase := .awaitAtr, classB := classB, noPps := noPps } := State.card_setCard ..

/-- Of the blocks of a slot only that slot changes. -/
theorem State.card_apdu_ne {m : Nat} (phase : SlotPhase) (bytes : Bytes) (h : m ≠ n) : (s.apdu m phase bytes).card n = s.card n := by
  simp only [State.apdu, State.sendI, State.sendBlock, State.card_emit, State.card_modCard_ne _ _ _ h]

/-- The next exchange goes to no slot but an idle one. -/
theorem State.card_joinNext (h : (s.card n).phase ≠ .idle) : s.joinNext.card n = s.card n := by
  unfold State.joinNext
  split
  · split
    · rfl
    · dsimp only
      split
      · next m hfind =>
        have hready := List.find?_some hfind
        have hidle : (s.card m).phase = .idle := by
          rw [Bool.and_eq_true] at hready
          exact beq_iff_eq.mp hready.1
        exact s.card_apdu_ne n _ _ fun heq => h (heq ▸ hidle)
      · rfl
  · rfl

end

/-! ## Activation and refusal (R426-R430) -/

section
variable {s : State} {n : Nat} (hn : slotOk n = true) {b : Bytes} {a : Atr}
include hn

theorem completes_cardInserted (hout : (s.card n).inserted = false) :
    Completes (.cardInserted n) s fun t => t = s.activateCard n false false :=
  (completes_checked exec_cardInserted hn).mono fun _ ht => ht.trans (if_neg (ne_true_of_eq_false hout))

theorem completes_cardInserted_again (hin : (s.card n).inserted = true) : Completes (.cardInserted n) s fun t => t = s :=
  (completes_checked exec_cardInserted hn).mono fun _ ht => ht.trans (if_pos hin)

/-- A card taken out leaves an empty slot. -/
theorem completes_cardRemoved (hin : (s.card n).inserted = true) : Completes (.cardRemoved n) s fun t =>
    t = (((s.count 301 (5 * n + 3)).cardOff n).setCard n CardSlot.fresh).joinNext ∧ t.card n = CardSlot.fresh := by
  refine (completes_checked exec_cardRemoved hn).mono fun t ht => ?_
  have hempty := (((s.count 301 (5 * n + 3)).cardOff n)).card_setCard n CardSlot.fresh
  rw [ht.trans (if_pos hin), State.card_joinNext _ _ (by rw [hempty]; exact SlotPhase.noConfusion)]
  exact ⟨rfl, hempty⟩

theorem completes_cardRemoved_none (hout : (s.card n).inserted = false) : Completes (.cardRemoved n) s fun t => t = s :=
  (completes_checked exec_cardRemoved hn).mono fun _ ht => ht.trans (if_neg (ne_true_of_eq_false hout))

section
variable (hphase : (s.card n).phase = .awaitAtr)
include hphase

theorem completes_atr_malformed (hatr : parseAtr b = .none) : Completes (.atr n b) s fun t => t = s.refuseCard n 2 := by
  refine (completes_checked exec_atr hn).mono fun _ ht => ht.trans ((if_neg (not_not.mpr hphase)).trans ?_)
  rw [hatr]

/-- An answer to reset that does not offer T=1 is refused. -/
theorem completes_atr_refused (hatr : parseAtr b = some a) (hprotos : a.protos.contains 1 = false) :
    Completes (.atr n b) s fun t => t = s.refuseCard n 3 := by
  refine (completes_checked exec_atr hn).mono fun _ ht => ht.trans ((if_neg (not_not.mpr hphase)).trans ?_)
  rw [hatr]
  exact if_pos (by rw [hprotos]; rfl)

theorem completes_atrTimeout (hclass : s.mayClassB n = false) : Completes (.atrTimeout n) s fun t => t = s.refuseCard n 1 :=
  (completes_checked exec_atrTimeout hn).mono fun _ ht =>
    ht.trans ((if_neg (not_not.mpr hphase)).trans (if_neg (ne_true_of_eq_false hclass)))

theorem completes_atrTimeout_classB (hclass : s.mayClassB n = true) : Completes (.atrTimeout n) s fun t => t = s.tryClassB n :=
  (completes_checked exec_atrTimeout hn).mono fun _ ht => ht.trans ((if_neg (not_not.mpr hphase)).trans (if_pos hclass))

end

theorem completes_classBReactivate (hphase : (s.card n).phase = .awaitB) :
    Completes (.classBReactivate n) s fun t => t = s.activateCard n true false :=
  (completes_checked exec_classBReactivate hn).mono fun _ ht => ht.trans (if_pos hphase)

section
variable (hphase : (s.card n).phase = .awaitPps)
include hphase

/-- An echoed negotiation goes on to the information field size. -/
theorem completes_ppsResponse (hecho : b = ppsBytes (s.card n).fi (s.card n).di) :
    Completes (.ppsResponse n b) s fun t => t = s.sendIfs n :=
  (completes_checked exec_ppsResponse hn).mono fun _ ht => ht.trans ((if_neg (not_not.mpr hphase)).trans (if_pos hecho))

theorem completes_ppsResponse_refused (hecho : b ≠ ppsBytes (s.card n).fi (s.card n).di) :
    Completes (.ppsResponse n b) s fun t => t = s.refuseCard n 4 :=
  (completes_checked exec_ppsResponse hn).mono fun _ ht => ht.trans ((if_neg (not_not.mpr hphase)).trans (if_neg hecho))

/-- A negotiation left unanswered is given up by a new activation. -/
theorem completes_ppsResponseTimeout : Completes (.ppsResponseTimeout n) s fun t =>
    t = (s.emit (.cardOff n)).activateCard n (s.card n).classB true :=
  (completes_checked exec_ppsResponseTimeout hn).mono fun _ ht => ht.trans (if_pos hphase)

end

/-! ## Blocks (R431) -/

section
variable (htalks : (s.card n).phase.talks = true)
include htalks

/-- A sound block is taken by its kind. -/
theorem completes_t1Block (hsound : t1Ok (s.card n).crc b = true) : Completes (.t1Block n b) s fun t =>
    t = (if fieldBE b 1 1 < 0x80 then s.gotI n (fieldBE b 1 1) (slice b 3 (fieldBE b 2 1))
      else if fieldBE b 1 1 < 0xC0 then s.gotR n (fieldBE b 1 1) else s.gotS n (fieldBE b 1 1) (slice b 3 (fieldBE b 2 1))) :=
  (completes_checked exec_t1Block hn).mono fun _ ht =>
    ht.trans ((if_neg (by rw [htalks]; decide)).trans (if_neg (by rw [hsound]; decide)))

theorem completes_t1Block_error (hbad : t1Ok (s.card n).crc b = false) : Completes (.t1Block n b) s fun t => t = s.t1Error n :=
  (completes_checked exec_t1Block hn).mono fun _ ht => ht.trans ((if_neg (by rw [htalks]; decide)).trans (if_pos (by rw [hbad]; rfl)))

theorem completes_blockWaitingTimeout : Completes (.blockWaitingTimeout n) s fun t => t = s.t1Error n :=
  (completes_checked exec_blockWaitingTimeout hn).mono fun _ ht => ht.trans (if_pos htalks)

theorem completes_wtxCeiling : Completes (.wtxCeiling n) s fun t => t = s.cardFails n :=
  (completes_checked exec_wtxCeiling hn).mono fun _ ht => ht.trans (if_pos htalks)

end

omit hn in
/-- A block in error is asked for again, up to three times. -/
theorem State.retries_t1Error (h : (s.card n).retries < 3) : ((s.t1Error n).card n).retries = (s.card n).retries + 1 := by
  unfold State.t1Error
  dsimp only
  rw [State.card_count, if_neg (Nat.not_le.mpr h), State.sendR, State.card_emit, State.card_count, State.card_modCard, State.card_count]

omit hn in
theorem State.t1Error_failed (h : 3 ≤ (s.card n).retries) : s.t1Error n = (s.count 301 (5 * n)).cardFails n := if_pos h

theorem completes_cardInactivity : Completes (.cardInactivity n) s fun t => t = (s.cardOff n).joinNext :=
  completes_checked exec_cardInactivity hn

end

/-! ## The ceremony's end (R443) -/

section
variable {s : State} {y : Ceremony}

theorem completes_ceremonyTimeout (hopen : s.openCeremony = some y) (h : y.state ≠ .granted ∨ y.purpose = 0x0C04) :
    Completes .ceremonyTimeout s fun t => t = s.abortCeremony := by
  refine (completes_event exec_ceremonyTimeout).mono fun t ht => ht.trans ?_
  rw [hopen]
  exact if_neg fun ⟨hgranted, hpurpose⟩ => h.elim (· hgranted) hpurpose

theorem completes_ceremonyTimeout_granted (hopen : s.openCeremony = some y) (hgranted : y.state = .granted) (hpurpose : y.purpose ≠ 0x0C04) :
    Completes .ceremonyTimeout s fun t => t = s := by
  refine (completes_event exec_ceremonyTimeout).mono fun t ht => ht.trans ?_
  rw [hopen]
  exact if_pos ⟨hgranted, hpurpose⟩

theorem completes_authorisationVoid (hy : s.cards.ceremony = some y) : Completes .authorisationVoid s fun t =>
    t.cards.ceremony = some { y with auth := .none } ∧ t.cards.slots = s.cards.slots := by
  refine (completes_event exec_authorisationVoid).mono fun t ht => ?_
  rw [ht]
  exact ⟨congrArg (Option.map _) hy, rfl⟩

end

/-- Settles O48, each event by its lemma; a sound block by the range of its control byte. -/
theorem cardSlots : Obligations.CardSlots := by
  unfold Obligations.CardSlots
  intro s n b a y hn
  refine ⟨?inserted, completes_cardInserted_again hn, completes_cardRemoved hn, completes_cardRemoved_none hn, completes_atr_malformed hn,
    completes_atr_refused hn, completes_atrTimeout hn, completes_atrTimeout_classB hn, ?classB, ?echoed, completes_ppsResponse_refused hn,
    ?silent, ?supervisory, ?receive, ?information, ?garbled, ?late, ?failed, completes_wtxCeiling hn, completes_cardInactivity hn,
    completes_ceremonyTimeout, completes_ceremonyTimeout_granted, completes_authorisationVoid⟩
  case inserted =>
    intro hout
    refine (completes_cardInserted hn hout).mono fun t ht => ?_
    rw [ht, State.card_activateCard]
    exact ⟨rfl, rfl, rfl, rfl⟩
  case classB =>
    intro hphase
    refine (completes_classBReactivate hn hphase).mono fun t ht => ?_
    rw [ht, State.card_activateCard]
    exact ⟨rfl, rfl⟩
  case echoed =>
    intro hphase hecho
    refine (completes_ppsResponse hn hphase hecho).mono fun t ht => ⟨ht, ?_⟩
    rw [ht, State.sendIfs, State.sendBlock, State.card_emit, State.card_modCard, State.card_modCard]
  case silent =>
    intro hphase
    refine (completes_ppsResponseTimeout hn hphase).mono fun t ht => ?_
    rw [ht, State.card_activateCard]
    exact ⟨rfl, rfl, rfl⟩
  case supervisory =>
    intro htalks hsound hmin
    exact (completes_t1Block hn htalks hsound).mono fun t ht => ht.trans ((if_neg (by omega)).trans (if_neg (by omega)))
  case receive =>
    intro htalks hsound hmin hmax
    exact (completes_t1Block hn htalks hsound).mono fun t ht => ht.trans ((if_neg (by omega)).trans (if_pos hmax))
  case information =>
    intro htalks hsound hmax
    exact (completes_t1Block hn htalks hsound).mono fun t ht => ht.trans (if_pos hmax)
  case garbled =>
    intro htalks hbad hretries
    exact (completes_t1Block_error hn htalks hbad).mono fun t ht => by rw [ht, State.retries_t1Error hretries]
  case late =>
    intro htalks hretries
    exact (completes_blockWaitingTimeout hn htalks).mono fun t ht => by rw [ht, State.retries_t1Error hretries]
  case failed =>
    intro htalks hretries
    exact (completes_blockWaitingTimeout hn htalks).mono fun t ht => ht.trans (State.t1Error_failed hretries)

end Sys2Proof.Machine
end

section
/-! PROOFS. The shadow check (R372, R386, R462, Table 16.6): it compares the fence lines of every gate with their inverted shadows, which the
statement O49 leaves open. -/

namespace Sys2Proof.Machine

/-- The delivered part with main power and a backup domain, but for gate 0: the shadow of its North fence line does not invert the line. -/
def fenceUnshadowed : State :=
  { State.reset with
    power := { Power.reset with vinOff := false }
    tamper := { Tamper.reset with powered := true }
    gates := [(0, { Gate.blank with fenceNorthShadow := Gate.blank.fenceNorth })] }

/-- The enables of the gate's rules agree with their shadows, its fence lines do not. -/
theorem fenceUnshadowed_gate : (fenceUnshadowed.gate 0).shadowOk = true ∧ (fenceUnshadowed.gate 0).sound = false := by decide

/-- The shadow check raises the grave fault of an unsound gate. -/
theorem shadowCheck_fenceUnshadowed : Completes .shadowCheck fenceUnshadowed fun t => t.faults.grave = true :=
  ⟨_, rfl, by decide +kernel⟩

/-- Refutes O49: with every register of the statement's premises in agreement with its shadow, a fence line that differs from its own still
raises the grave fault, so the check does not leave the state. -/
theorem not_tamperWatch : ¬ Obligations.TamperWatch := by
  unfold Obligations.TamperWatch
  intro h
  obtain ⟨-, -, -, -, -, -, hcheck, -, -⟩ := h fenceUnshadowed 0 0 0 (by decide) rfl rfl rfl (by decide)
  obtain ⟨t, hrun, hkept⟩ := hcheck (by decide) (by decide) (by decide) rfl
  obtain ⟨t', hrun', hgrave⟩ := shadowCheck_fenceUnshadowed
  obtain rfl : t = t' := Host.Outcome.next.inj (hrun.symm.trans hrun')
  rw [hkept] at hgrave
  exact absurd hgrave (by decide)

end Sys2Proof.Machine
end

section
/-! PROOFS. Messages at the fault collector (R473-R476, R480-R483), and what classes 3 and 4 stop (R476, R479; log entries 18, 44). -/

namespace Sys2Proof.Machine

/-! ## What the collector does with a message -/

/-- From `s` to `t` records of the recorder alone changed. -/
def State.Counted (s t : State) : Prop := ∃ records, t = { s with recorder := { s.recorder with records := records } }

theorem State.Counted.updateRec {s t : State} (h : s.Counted t) (n : Nat) (f : List Int → List Int) : s.Counted (t.updateRec n f) := by
  obtain ⟨_, rfl⟩ := h
  exact ⟨_, rfl⟩

/-- The message of a fault as the collector dates it. -/
def State.message (s : State) (cls : Nat) (kind : Byte) (src : BitVec 16) (detail : Word) : FaultMsg :=
  { cls := cls, kind := kind, src := src, seq := s.faults.seq, rep := 0, mile := s.time.nanos.extractLsb' 17 13, detail := detail }

/-- The collector's tables with a message (R480-R483). -/
def Faults.logged (f : Faults) (m : FaultMsg) (now : Nat) : Faults :=
  { f with
    seq := f.seq + 1, queue := (queueEvent f.queue m).1, overflow := f.overflow + BitVec.ofNat 32 (queueEvent f.queue m).2.1,
    active := activeAdd f.active { cls := m.cls, kind := m.kind, src := m.src, last := now },
    unhandled := if m.cls = 4 then (m.cls, m.kind, m.src) :: f.unhandled.filter (·.1 == 4) else f.unhandled ++ [(m.cls, m.kind, m.src)],
    handling := if m.cls = 4 then [] else f.handling }

/-- A class 4 message ends the handling of every other. -/
theorem Faults.handling_logged {f : Faults} {m : FaultMsg} {now : Nat} (h : m.cls = 4) : (f.logged m now).handling = [] := if_pos h

/-- The state with the collector's tables and the recorder's counts as they are after a message; the first in the queue is told. -/
def State.told (z : State) (f : Faults) (records : Tbl Rec) : State :=
  let t := { z with faults := f, recorder := { z.recorder with records := records } }
  if z.faults.queue.isEmpty && !f.queue.isEmpty then (t.emit (.smbAlert true)).setEvent 0 5 else t

section
variable (s : State) (cls : Nat) (kind : Byte) (src : BitVec 16) (detail : Word)

/-- After the stop of its class an arrival is logged, counted, and for the first in the queue told. -/
theorem State.arrive_eq : ∃ records, s.arrive cls kind src detail =
    (s.stoppedFor cls).told ((s.stoppedFor cls).faults.logged ((s.stoppedFor cls).message cls kind src detail) (s.stoppedFor cls).now)
      records := by
  unfold State.arrive
  rw [← State.stoppedFor]
  generalize s.stoppedFor cls = z
  have hmessage : z.message cls kind src detail = ⟨cls, kind, src, z.faults.seq, 0, z.time.nanos.extractLsb' 17 13, detail⟩ := rfl
  dsimp only
  rw [← hmessage]
  unfold Faults.logged
  rcases queueEvent z.faults.queue (z.message cls kind src detail) with ⟨q, lost, joined⟩
  dsimp only
  have hcounted : z.Counted (z.count 304 cls) := .updateRec ⟨_, rfl⟩ _ _
  generalize z.count 304 cls = counted at hcounted ⊢
  have hjoined : z.Counted (if joined = true then counted.count 304 5 else counted) := by
    split
    · exact hcounted.updateRec _ _
    · exact hcounted
  generalize (if joined = true then counted.count 304 5 else counted) = joinedTo at hjoined ⊢
  obtain ⟨records, hrecords⟩ : z.Counted (if lost = 0 then joinedTo else joinedTo.updateRec 304 (bumpCounter 6 lost)) := by
    split
    · exact hjoined
    · exact hjoined.updateRec _ _
  refine ⟨records, ?_⟩
  rw [hrecords]
  rfl

theorem State.stoppedFor_class3 {s : State} : s.stoppedFor 3 = s.stopDevice false := if_pos rfl

/-- With no card writing, a fault arrives. -/
theorem State.fault_eq_arrive_of_idle {s : State} (h : s.writingCard = .none) :
    s.fault cls kind src detail = s.arrive cls kind src detail := by
  unfold State.fault
  rw [h]

/-- What an arrival leaves of the collector, the recorder and the fields it does not reach. -/
theorem State.arrive_leaves :
    (s.arrive cls kind src detail).faults =
      (s.stoppedFor cls).faults.logged ((s.stoppedFor cls).message cls kind src detail) (s.stoppedFor cls).now ∧
    (s.arrive cls kind src detail).recorder.pendingFlush = (s.stoppedFor cls).recorder.pendingFlush ∧
    Kept [.out, .pcie, .faults, .recorder] (s.stoppedFor cls) (s.arrive cls kind src detail) := by
  refine ⟨?_, ?_, (s.arrive_logs kind src detail).kept⟩
  all_goals
    obtain ⟨records, harrive⟩ := s.arrive_eq cls kind src detail
    rw [harrive, State.told]
    split
  · rw [State.setEvent_faults]; rfl
  · rfl
  · rw [(State.setEvent_kept 0 5 (Kept.refl _ _) (List.Subset.refl _)).recorder_eq (by decide)]; rfl
  · rfl

end

/-! ## The queue and the active set (R481, R482) -/

section
variable {q : List FaultMsg} {m x : FaultMsg}

/-- A message that no other of the queue equals in class, kind and source is queued while there is room. -/
theorem queueEvent_new (hnew : (q.find? fun x => x.cls == m.cls && x.kind == m.kind && x.src == m.src) = .none) (hroom : q.length < 64) :
    queueEvent q m = (q ++ [m], 0, false) := by
  unfold queueEvent
  dsimp only
  rw [hnew]
  exact if_pos hroom

/-- A further one joins the message it equals. -/
theorem queueEvent_again (hfind : (q.find? fun x => x.cls == m.cls && x.kind == m.kind && x.src == m.src) = some x) (hrep : x.rep < 255) :
    ∃ p f, queueEvent q m = (modFirst p f q, 0, true) := by
  unfold queueEvent
  dsimp only
  rw [hfind]
  exact ⟨_, _, if_pos hrep⟩

theorem length_modFirst {α : Type} (p : α → Bool) (f : α → α) (l : List α) : (modFirst p f l).length = l.length := by
  induction l with
  | nil => rfl
  | cons y r ih =>
    rw [modFirst]
    split
    · rfl
    · rw [List.length_cons, ih, List.length_cons]

theorem activeAdd_first {x : Active} (h : 1 ≤ x.cls) (h3 : x.cls ≤ 3) : activeAdd [] x = [x] := by
  unfold activeAdd
  dsimp only
  rw [if_neg (by omega)]
  rfl

theorem activeAdd_class0 {a : List Active} {x : Active} (h : x.cls = 0) : activeAdd a x = a := if_pos (.inl h)

end

/-! ## The stop of classes 3 and 4 (R476, R479) -/

section
variable (s : State) (grave : Bool)

/-- Dispatch stays stopped while a port goes DOWN. -/
@[simp] theorem State.stopped_portDown (p : Nat) : (s.portDown p).depot.stopped = s.depot.stopped := by
  by_cases h : (s.port p).link = .down
  · rw [s.portDown_of_down p h]
  · rw [s.portDown_of_not_down h, State.emit_depot]
    unfold State.forgetStreams
    dsimp only
    rw [(State.releaseItems_kept _ (Kept.refl _ _) (List.Subset.refl _)).depot_eq (by decide), State.setPort_depot]

/-- Both ports are DOWN once each has been taken down. -/
theorem State.link_portsDown : (((s.portDown 0).portDown 1).port 0).link = .down ∧ (((s.portDown 0).portDown 1).port 1).link = .down := by
  obtain ⟨_, hport⟩ := (s.portDown 0).port_portDown_ne 1 (q := 0) (by decide)
  exact ⟨by rw [hport]; exact s.link_portDown 0, State.link_portDown _ 1⟩

@[simp] theorem State.pendingFlush_aliveStop : s.aliveStop.recorder.pendingFlush = s.recorder.pendingFlush := by
  unfold State.aliveStop
  split <;> rfl

@[simp] theorem State.pendingFlush_setDev (d : DevState) : (s.setDev d).recorder.pendingFlush = s.recorder.pendingFlush := by
  have hevents : ∀ (z : State) (b : Nat), (z.setEventAll b).recorder = z.recorder := fun z b =>
    (State.setEventAll_kept b (Kept.refl _ z) (List.Subset.refl _)).recorder_eq (by decide)
  unfold State.setDev
  split
  · rfl
  · dsimp only
    split <;> split <;> simp [hevents]

/-- The state with dispatch stopped, both ports DOWN and both card slots off. -/
def State.unitsStopped (s : State) : State :=
  ((((({ s with depot := { s.depot with stopped := true } } : State).portDown 0).portDown 1).cardOffSlot 0).cardOffSlot 1)

/-- The state in which a stop for class 3 or class 4 enters its device state: its units stopped, the watermarks written and the flush
wanted. -/
def State.halted (s : State) : State :=
  let t := s.unitsStopped.anchorRoot.writeMarks.flushWanted
  { t with faults := { t.faults with erasedAtFault := t.faults.erasedAtFault || t.power.dev == DevState.tamperErased } }

theorem State.unitsStopped_leaves : s.unitsStopped.depot.stopped = true ∧ (s.unitsStopped.port 0).link = .down ∧
    (s.unitsStopped.port 1).link = .down ∧ s.unitsStopped.faults.grave = s.faults.grave := by
  have hslots : ∀ z : State, Kept [.out, .cards, .recorder] z ((z.cardOffSlot 0).cardOffSlot 1) := fun z =>
    State.cardOffSlot_kept 1 (State.cardOffSlot_kept 0 (Kept.refl _ z) (List.Subset.refl _)) (List.Subset.refl _)
  unfold State.unitsStopped
  generalize hz : ({ s with depot := { s.depot with stopped := true } } : State) = z
  have hstopped : z.depot.stopped = true := by rw [← hz]
  have hgrave : z.faults.grave = s.faults.grave := by rw [← hz]
  have hoff := hslots ((z.portDown 0).portDown 1)
  obtain ⟨hport0, hport1⟩ := z.link_portsDown
  rw [hoff.depot_eq (by decide), hoff.port_eq (by decide) (by decide), hoff.port_eq (by decide) (by decide), hoff.faults_eq (by decide),
    State.stopped_portDown, State.stopped_portDown, State.faults_portDown, State.faults_portDown]
  exact ⟨hstopped, hport0, hport1, hgrave⟩

theorem State.halted_leaves : s.halted.depot.stopped = true ∧ (s.halted.port 0).link = .down ∧ (s.halted.port 1).link = .down ∧
    s.halted.recorder.pendingFlush = true ∧ s.halted.faults.grave = s.faults.grave ∧ s.halted.journal.mramMarks = s.halted.journal.watermarks := by
  obtain hleft := s.unitsStopped_leaves
  unfold State.halted
  generalize s.unitsStopped = z at hleft ⊢
  obtain ⟨hstopped, hport0, hport1, hgrave⟩ := hleft
  exact ⟨hstopped, hport0, hport1, rfl, hgrave, rfl⟩

theorem State.stopDevice_eq : s.stopDevice grave =
    (if grave then
      let z := if s.halted.faults.grave then s.halted else s.halted.count 304 7
      ({ z with faults := { z.faults with grave := true } } : State).setDev .grave
    else if s.halted.power.dev = .grave ∨ s.halted.power.dev = .booting then s.halted.aliveStop else s.halted.setDev .faulted) := by
  unfold State.stopDevice State.halted State.unitsStopped
  dsimp only

/-- Writing the collector's tables leaves the other fields of a state. -/
theorem Kept.with_faults {W : List Fld} {s : State} {x : Faults} (h : Fld.faults ∈ W) : Kept W s { s with faults := x } := by
  constructor <;> first | exact .inr rfl | exact .inl h | exact id | rfl

/-- Entering the device state keeps what has stopped. -/
theorem State.stopDevice_keeps : Kept [.out, .pcie, .faults, .recorder, .power] s.halted (s.stopDevice grave) ∧
    (s.stopDevice grave).recorder.pendingFlush = s.halted.recorder.pendingFlush := by
  rw [State.stopDevice_eq]
  generalize s.halted = z
  cases grave with
  | true =>
    have hcounted : Kept [.out, .pcie, .faults, .recorder, .power] z (if z.faults.grave then z else z.count 304 7) ∧
        (if z.faults.grave then z else z.count 304 7).recorder.pendingFlush = z.recorder.pendingFlush := by
      split
      · exact ⟨Kept.refl _ z, rfl⟩
      · exact ⟨State.count_kept _ _ (Kept.refl _ z) (by decide), rfl⟩
    obtain ⟨hkept, hflush⟩ := hcounted
    generalize (if z.faults.grave then z else z.count 304 7) = y at hkept hflush
    exact ⟨hkept.trans (State.setDev_kept _ (Kept.with_faults (by decide)) (by decide)), (State.pendingFlush_setDev _ _).trans hflush⟩
  | false =>
    rw [if_neg Bool.false_ne_true]
    split
    · exact ⟨State.aliveStop_kept (Kept.refl _ z) (by decide), z.pendingFlush_aliveStop⟩
    · exact ⟨State.setDev_kept _ (Kept.refl _ z) (by decide), z.pendingFlush_setDev _⟩

/-- A class 3 stop does not touch the grave latch. -/
theorem State.grave_stopDevice : (s.stopDevice false).faults.grave = s.faults.grave := by
  obtain ⟨-, -, -, -, hgrave, -⟩ := s.halted_leaves
  rw [State.stopDevice_eq, if_neg Bool.false_ne_true]
  split
  · rw [State.grave_aliveStop, hgrave]
  · rw [State.grave_setDev, hgrave]

end

/-! ## Arrivals (R473-R476) -/

section
variable {s : State} {cls : Fin 5} {kind : Byte} {src : BitVec 16} {d : Word}

theorem completes_faultArrival_unknown (hkind : (kindClasses kind.toNat).contains cls.val = false) :
    Completes (.faultArrival cls kind src d) s fun t => t = s :=
  (completes_event exec_faultArrival).mono fun _ ht => ht.trans (if_pos (by simp only [hkind, Bool.not_false, Bool.true_or]))

theorem completes_faultArrival_unlisted (hsrc : srcListed src = false) : Completes (.faultArrival cls kind src d) s fun t => t = s :=
  (completes_event exec_faultArrival).mono fun _ ht => ht.trans (if_pos (by simp only [hsrc, Bool.not_false, Bool.or_true]))

section
variable (hkind : (kindClasses kind.toNat).contains cls.val = true) (hsrc : srcListed src = true)
include hkind hsrc

theorem completes_faultArrival_reported (hfence : kind = 0x35) : Completes (.faultArrival cls kind src d) s fun t => t = s.fencedReport src d :=
  (completes_event exec_faultArrival).mono fun _ ht =>
    ht.trans ((if_neg (by simp only [hkind, hsrc, Bool.not_true, Bool.or_false, Bool.false_eq_true, not_false_eq_true])).trans (if_pos hfence))

/-- A message that is sent arrives at the collector. -/
theorem completes_faultArrival (hfence : kind ≠ 0x35) : Completes (.faultArrival cls kind src d) s fun t => t = s.fault cls.val kind src d :=
  (completes_event exec_faultArrival).mono fun _ ht =>
    ht.trans ((if_neg (by simp only [hkind, hsrc, Bool.not_true, Bool.or_false, Bool.false_eq_true, not_false_eq_true])).trans (if_neg hfence))

end

/-- GATE_FENCED is of class 0 alone. -/
theorem ne_fenced_of_class (hkind : (kindClasses kind.toNat).contains cls.val = true) (hcls : cls.val ≠ 0) : kind ≠ 0x35 := by
  rintro rfl
  have hzero : cls.val ∈ ([0] : List Nat) := List.contains_iff_mem.mp hkind
  exact hcls (List.mem_singleton.mp hzero)

/-- Below class 3 a fault is logged in the collector's tables. -/
theorem State.faults_fault {cls : Nat} (h : cls < 3) : (s.fault cls kind src d).faults = s.faults.logged (s.message cls kind src d) s.now := by
  have hleaves := (s.arrive_leaves cls kind src d).1
  rwa [State.stoppedFor_of_lt h, ← State.fault_eq_arrive h] at hleaves

/-- The first message in the queue takes SMB_ALERT_N low. -/
theorem State.mem_out_fault {cls : Nat} (h : cls < 3) (hempty : s.faults.queue = []) : Output.smbAlert true ∈ (s.fault cls kind src d).out := by
  obtain ⟨records, harrive⟩ := s.arrive_eq cls kind src d
  rw [State.fault_eq_arrive h, harrive, State.stoppedFor_of_lt h, State.told, if_pos]
  · exact State.mem_out_setEvent _ 0 List.mem_cons_self 5
  · rw [hempty]
    simp only [Faults.logged, hempty]
    rw [queueEvent_new rfl (by decide)]
    rfl

/-- What a class 3 or class 4 fault has stopped once it has arrived. -/
theorem State.fault_stops {cls : Nat} {grave : Bool} (hidle : s.writingCard = .none) (hcls : s.stoppedFor cls = s.stopDevice grave) :
    (s.fault cls kind src d).depot.stopped = true ∧ ((s.fault cls kind src d).port 0).link = .down ∧
    ((s.fault cls kind src d).port 1).link = .down ∧ (s.fault cls kind src d).recorder.pendingFlush = true ∧
    (s.fault cls kind src d).journal.mramMarks = (s.fault cls kind src d).journal.watermarks := by
  obtain ⟨hstopped, hport0, hport1, hflush, -, hmarks⟩ := s.halted_leaves
  obtain ⟨-, hpending, hkept⟩ := s.arrive_leaves cls kind src d
  obtain ⟨hstop, hwanted⟩ := s.stopDevice_keeps grave
  rw [State.fault_eq_arrive_of_idle _ _ _ _ hidle, hpending, hkept.depot_eq (by decide), hkept.journal_eq (by decide),
    hkept.port_eq (by decide) (by decide), hkept.port_eq (by decide) (by decide), hcls, hwanted, hstop.depot_eq (by decide),
    hstop.journal_eq (by decide), hstop.port_eq (by decide) (by decide), hstop.port_eq (by decide) (by decide)]
  exact ⟨hstopped, hport0, hport1, hflush, hmarks⟩

end

/-! ## Handling (R477, R483) -/

section
variable {s : State} (hruns : s.stewardRuns = true)
include hruns

theorem completes_class3Squash (hactive : s.faults.class3Active = true ∨ s.faults.grave = true) :
    Completes .class3Squash s fun t => t = s.squashTenants .class3 :=
  (completes_event exec_class3Squash).mono fun _ ht => ht.trans (if_pos ⟨hruns, hactive⟩)

omit hruns in
theorem completes_class3Squash_none (hactive : s.faults.class3Active = false) (hgrave : s.faults.grave = false) :
    Completes .class3Squash s fun t => t = s :=
  (completes_event exec_class3Squash).mono fun _ ht => ht.trans (if_neg (by simp [hactive, hgrave]))

/-- With none in hand the next fault of the work list is handled. -/
theorem completes_faultHandling {y : Nat × Byte × BitVec 16} (hnext : nextFault s.faults.unhandled = some y) (hnone : s.faults.handling = []) :
    Completes .faultHandling s fun t => t.faults = { s.faults with
      handling := [y], unhandled := eraseFirst (· == y) s.faults.unhandled } := by
  refine (completes_event exec_faultHandling).mono fun t ht => ?_
  rw [ht.trans (if_neg (by rw [hruns]; decide))]
  dsimp only
  rw [hnext, hnone]

end

/-- Settles O50: below class 3 by what the collector logs, for classes 3 and 4 by what the hardware has stopped. -/
theorem faultCollector : Obligations.FaultCollector := by
  unfold Obligations.FaultCollector
  refine ⟨fun s cls kind src d x hidle hcls hkind => ⟨?new, ?again, fun k => completes_faultArrival_unknown, completes_faultArrival_unlisted,
    completes_faultArrival_reported hkind, completes_class3Squash, fun _ => completes_class3Squash_none, ?handled⟩,
    fun s kind src d hidle hsrc => ⟨fun hkind => ?stopped, fun hkind => ?grave⟩⟩
  case new =>
    intro hsrc hfence hnew hroom
    have hlt : cls.val < 3 := Nat.lt_succ_of_le hcls
    refine (completes_faultArrival hkind hsrc hfence).mono fun t ht => ?_
    have hqueue := queueEvent_new (m := s.message cls.val kind src d) hnew hroom
    rw [ht, State.faults_fault hlt, State.power_fault _ _ _ _ hlt, State.depot_fault _ _ _ _ hlt]
    rw [Faults.logged, hqueue]
    refine ⟨rfl, rfl, BitVec.add_zero _, fun hmin hactive => ?_, fun hzero => activeAdd_class0 hzero, rfl, rfl, State.mem_out_fault hlt⟩
    rw [hactive]
    exact activeAdd_first hmin (Nat.le_of_lt hlt)
  case again =>
    intro hsrc hfence hfind hrep
    have hlt : cls.val < 3 := Nat.lt_succ_of_le hcls
    refine (completes_faultArrival hkind hsrc hfence).mono fun t ht => ?_
    obtain ⟨p, f, hqueue⟩ := queueEvent_again (m := s.message cls.val kind src d) hfind hrep
    rw [ht, State.faults_fault hlt]
    rw [Faults.logged, hqueue]
    exact ⟨length_modFirst p f _, rfl, BitVec.add_zero _⟩
  case handled =>
    intro y hruns hnext hnone
    exact (completes_faultHandling hruns hnext hnone).mono fun t ht => by rw [ht]; exact ⟨rfl, rfl, rfl⟩
  case stopped =>
    refine (completes_faultArrival (cls := 3) hkind hsrc (ne_fenced_of_class (cls := 3) hkind (by decide))).mono fun t ht => ?_
    obtain ⟨hstopped, hport0, hport1, hflush, hmarks⟩ := State.fault_stops (kind := kind) (src := src) (d := d) hidle
      State.stoppedFor_class3
    have hlogs := s.arrive_logs (cls := 3) kind src d
    have hgrave : (s.fault 3 kind src d).faults.grave = s.faults.grave := by
      rw [State.fault_eq_arrive_of_idle _ _ _ _ hidle, hlogs.grave, State.stoppedFor_class3, s.grave_stopDevice]
    have harrived : t = s.fault 3 kind src d := ht
    rw [harrived]
    exact ⟨hstopped, hport0, hport1, hflush, hgrave, hmarks⟩
  case grave =>
    refine (completes_faultArrival (cls := 4) hkind hsrc (ne_fenced_of_class (cls := 4) hkind (by decide))).mono fun t ht => ?_
    obtain ⟨hstopped, hport0, hport1, hflush, -⟩ := State.fault_stops (kind := kind) (src := src) (d := d) hidle State.stoppedFor_grave
    obtain ⟨hgrave, hdev⟩ := s.fault_grave hidle kind src d
    have hhandling : (s.fault 4 kind src d).faults.handling = [] := by
      rw [State.fault_eq_arrive_of_idle _ _ _ _ hidle, (s.arrive_leaves 4 kind src d).1]
      exact Faults.handling_logged rfl
    have harrived : t = s.fault 4 kind src d := ht
    rw [harrived]
    exact ⟨hstopped, hport0, hport1, hflush, hgrave, hhandling, hdev⟩

end Sys2Proof.Machine
end

section
/-! PROOFS. The alive pins, the first-violation latches and the recorder (R368, R485, R487-R493; log entries 31, 46, 50). -/

namespace Sys2Proof.Machine

/-! ## The kinds of records (Table 17.6) -/

/-- A property of the type holds of a choice of kinds when it holds of each under its condition. -/
theorem RecKind.typ_ite {P : Nat → Prop} {c : Prop} [Decidable c] {a b : RecKind} (ha : c → P a.typ) (hb : ¬c → P b.typ) :
    P (if c then a else b).typ := by
  split
  · exact ha ‹_›
  · exact hb ‹_›

/-- The type of a record by its number: a histogram, extremes, or one that takes no samples. -/
theorem typ_recKind {P : Nat → Prop} {n : Nat} (hhistogram : n ≤ 36 ∨ 82 ≤ n ∧ n ≤ 279 ∨ 290 ≤ n ∧ n ≤ 297 → P 1)
    (hextremes : 37 ≤ n ∧ n ≤ 81 ∨ 280 ≤ n ∧ n ≤ 289 → P 2) (hother : 298 ≤ n → P 3 ∧ P 4 ∧ P 0) : P (recKind n).typ := by
  unfold recKind
  repeat' refine RecKind.typ_ite (P := P) (fun _ => ?_) fun _ => ?_
  all_goals dsimp only; grind

theorem typ_recKind_histogram {n : Nat} (h : n ≤ 36 ∨ 82 ≤ n ∧ n ≤ 279 ∨ 290 ≤ n ∧ n ≤ 297) : (recKind n).typ = 1 :=
  typ_recKind (P := (· = 1)) (fun _ => rfl) (fun _ => by omega) fun _ => by omega

theorem typ_recKind_extremes {n : Nat} (h : 37 ≤ n ∧ n ≤ 81 ∨ 280 ≤ n ∧ n ≤ 289) : (recKind n).typ = 2 :=
  typ_recKind (P := (· = 2)) (fun _ => by omega) (fun _ => rfl) fun _ => by omega

theorem typ_recKind_other {n : Nat} (h : 298 ≤ n) : (recKind n).typ ≠ 1 ∧ (recKind n).typ ≠ 2 :=
  typ_recKind (P := fun k => k ≠ 1 ∧ k ≠ 2) (fun _ => by omega) (fun _ => by omega) fun _ => by decide

/-! ## Samples (R488-R490) -/

/-- The hub's or a cluster's temperature follows the sample of its record. -/
def State.heated (s : State) (rec : Nat) (v : Int) : State :=
  if rec = 36 then s.tempChange { s with power := { s.power with hubTemp := v } }
  else if rec < 36 then s.tempChange (s.modCluster rec fun x => { x with temp := v }) else s

/-- What reads the metric of a record follows the sample: a temperature, or a margin's loss. -/
def State.followed (s : State) (rec : Nat) (v : Int) : State :=
  if 154 ≤ rec then (if rec ≤ 189 then (s.heated rec v).modCluster (rec - 154) fun x =>
    { x with marginLoss := (Config.baselineSlack (rec - 154) - v).toNat } else s.heated rec v) else s.heated rec v

section
variable (s : State) {rec : Nat} (v : Int)

theorem State.heated_other (h : 36 < rec) : s.heated rec v = s := (if_neg (by omega)).trans (if_neg (by omega))

theorem State.followed_heated (h : rec < 154 ∨ 189 < rec) : s.followed rec v = s.heated rec v := by
  unfold State.followed
  split
  · exact if_neg (by omega)
  · rfl

theorem State.followed_hub : s.followed 36 v = s.tempChange { s with power := { s.power with hubTemp := v } } := rfl

theorem State.followed_cluster (h : rec < 36) : s.followed rec v = s.tempChange (s.modCluster rec fun x => { x with temp := v }) :=
  (s.followed_heated v (by omega)).trans ((if_neg (by omega)).trans (if_pos h))

theorem State.followed_margin {c : Nat} (h : c < 36) : s.followed (154 + c) v =
    s.modCluster c fun x => { x with marginLoss := (Config.baselineSlack c - v).toNat } := by
  unfold State.followed
  rw [if_pos (by omega), if_pos (by omega), s.heated_other v (by omega), Nat.add_sub_cancel_left]

theorem State.followed_other (h : 36 < rec) (hmargin : rec < 154 ∨ 189 < rec) : s.followed rec v = s :=
  (s.followed_heated v hmargin).trans (s.heated_other v h)

theorem State.laneSample_other (h : rec < 260 ∨ 289 < rec) : s.laneSample rec v = s := if_pos h

/-- The settings and symbols of a port's lanes leave the clusters and the recorder. -/
theorem State.laneSample_leaves (rec : Nat) : (s.laneSample rec v).clusters = s.clusters ∧ (s.laneSample rec v).recorder = s.recorder := by
  unfold State.laneSample
  dsimp only
  split_ifs <;> simp

end

/-- A sample of a cluster's supply, clock or margin that is asleep. -/
def State.sampleAsleep (s : State) (rec : Nat) : Bool := 82 ≤ rec && rec ≤ 189 && (s.cluster ((rec - 82) % 36)).power != .awake

section
variable {s : State} {rec c : Nat} {v : Int}

theorem State.sampleAsleep_other (h : rec < 82 ∨ 189 < rec) : s.sampleAsleep rec = false := by
  unfold State.sampleAsleep
  rcases h with h | h
  · simp [show ¬82 ≤ rec by omega]
  · simp [show ¬rec ≤ 189 by omega]

theorem State.sampleAsleep_cluster (hc : c < 36) (h : rec = 82 + c ∨ rec = 118 + c ∨ rec = 154 + c) :
    s.sampleAsleep rec = ((s.cluster c).power != .awake) := by
  unfold State.sampleAsleep
  rw [show (rec - 82) % 36 = c by omega, decide_eq_true (by omega : 82 ≤ rec),
    decide_eq_true (by omega : rec ≤ 189), Bool.true_and, Bool.true_and]

/-- A sample goes into its record's histogram or extremes. -/
theorem completes_recorderSample : Completes (.recorderSample rec v) s fun t => t =
    if (recKind rec).typ = 1 ∧ s.sampleAsleep rec = false then ((s.laneSample rec v).followed rec v).updateRec rec (histogram (recKind rec) v)
    else if (recKind rec).typ = 2 then
      (s.laneSample rec v).updateRec rec (extremes s.recorder.hours.toNat s.recorder.cycles.toNat v)
    else s.laneSample rec v := by
  refine (completes_event exec_recorderSample).mono fun t ht => ht.trans ?_
  obtain ⟨hclusters, hrecorder⟩ := s.laneSample_leaves v rec
  have hasleep : s.sampleAsleep rec = (s.laneSample rec v).sampleAsleep rec := by
    unfold State.sampleAsleep State.cluster
    rw [hclusters]
  rw [hasleep, ← hrecorder]
  rfl

theorem completes_sample_bins (htyp : (recKind rec).typ = 1) (hawake : s.sampleAsleep rec = false) : Completes (.recorderSample rec v) s
    fun t => t = ((s.laneSample rec v).followed rec v).updateRec rec (histogram (recKind rec) v) :=
  completes_recorderSample.mono fun _ ht => ht.trans (if_pos ⟨htyp, hawake⟩)

theorem completes_sample_ends (htyp : (recKind rec).typ = 2) : Completes (.recorderSample rec v) s fun t => t =
    (s.laneSample rec v).updateRec rec (extremes s.recorder.hours.toNat s.recorder.cycles.toNat v) :=
  completes_recorderSample.mono fun _ ht => ht.trans ((if_neg (by simp [htyp])).trans (if_pos htyp))

theorem completes_sample_other (h : 298 ≤ rec) : Completes (.recorderSample rec v) s fun t => t = s := by
  obtain ⟨hhistogram, hextremes⟩ := typ_recKind_other h
  exact completes_recorderSample.mono fun _ ht =>
    ht.trans <| (if_neg fun hk => hhistogram hk.1).trans <| (if_neg hextremes).trans (s.laneSample_other v (by omega))

/-- The samples of a cluster asleep are not taken. -/
theorem completes_sample_asleep (hc : c < 36) (hrec : rec = 82 + c ∨ rec = 118 + c ∨ rec = 154 + c) (hpower : (s.cluster c).power ≠ .awake) :
    Completes (.recorderSample rec v) s fun t => t = s := by
  have hasleep : s.sampleAsleep rec ≠ false := by rw [State.sampleAsleep_cluster hc hrec]; simpa using hpower
  have htyp : (recKind rec).typ ≠ 2 := by rw [typ_recKind_histogram (by omega)]; decide
  exact completes_recorderSample.mono fun _ ht =>
    ht.trans <| (if_neg fun hk => hasleep hk.2).trans <| (if_neg htyp).trans (s.laneSample_other v (by omega))

theorem State.sampleAwake (hc : c < 36) (hrec : rec = 82 + c ∨ rec = 118 + c ∨ rec = 154 + c) (hpower : (s.cluster c).power = .awake) :
    s.sampleAsleep rec = false := by
  rw [State.sampleAsleep_cluster hc hrec, hpower]
  rfl

end

/-! ## Histograms (R489) -/

section
variable {q : RecKind} {v : Int} {b : List Int} {n : Nat}

theorem getD_modNth {α : Type} (f : α → α) (d : α) : ∀ (n m : Nat) (l : List α), n < l.length →
    (modNth f n l).getD m d = if m = n then f (l.getD m d) else l.getD m d
  | 0, 0, x :: r, _ => by simp [modNth]
  | 0, m + 1, x :: r, _ => by simp [modNth]
  | n + 1, 0, x :: r, _ => by simp [modNth]
  | n + 1, m + 1, x :: r, h => by
    have hrest := getD_modNth f d n m r (Nat.lt_of_succ_lt_succ h)
    simpa [modNth] using hrest

/-- The bin of a histogram a value counts in. -/
def RecKind.bin (q : RecKind) (v : Int) : Nat :=
  if v < q.base then 0 else if q.base + 48 * q.width ≤ v then 1 else ((v - q.base) / q.width).toNat + 2

theorem RecKind.bin_below (h : v < q.base) : q.bin v = 0 := if_pos h

theorem RecKind.bin_above (h : q.base + 48 * q.width ≤ v) : q.bin v = 1 := (if_neg (by omega)).trans (if_pos h)

theorem RecKind.bin_inside (hn : n < 48) (hlo : q.base + n * q.width ≤ v) (hhi : v < q.base + (n + 1) * q.width) : q.bin v = n + 2 := by
  have hwide : ((n : Int) + 1) * q.width ≤ 48 * q.width := Int.mul_le_mul_of_nonneg_right (by omega) (by omega)
  have hlow : (0 : Int) ≤ n * q.width := by positivity
  have hstep : ((n : Int) + 1) * q.width = n * q.width + q.width := by ring
  have hpos : (0 : Int) < q.width := by omega
  have hdiv : (v - q.base) / q.width = n := by
    rw [Int.ediv_eq_iff_of_pos hpos]
    omega
  unfold RecKind.bin
  rw [if_neg (by omega), if_neg (by omega), hdiv, Int.toNat_natCast]

theorem RecKind.bin_lt : q.bin v < 50 := by
  unfold RecKind.bin
  split_ifs with hlow hhigh
  · decide
  · decide
  · have hpos : (0 : Int) < q.width := by omega
    have hdiv : (v - q.base) / q.width < 48 := Int.ediv_lt_of_lt_mul hpos (by omega)
    omega

theorem getD_histogram (hb : b.length = 50) (m : Nat) :
    (histogram q v b).getD m 0 = if m = q.bin v then sat4 (b.getD m 0) else b.getD m 0 := by
  have hfull : b ++ List.replicate (50 - b.length) 0 = b := by rw [hb]; simp
  unfold histogram
  rw [hfull]
  exact getD_modNth sat4 0 (q.bin v) m b (hb ▸ RecKind.bin_lt)

end

/-! ## The alive pins (R368, R485) -/

section
variable {s : State}

theorem completes_aliveOutToggle (hon : s.faults.aliveOn = true) (hporst : s.power.porst = false) : Completes .aliveOutToggle s
    fun t => t = ({ s with faults := { s.faults with aliveOut := !s.faults.aliveOut } } : State).emit (.alive (!s.faults.aliveOut)) :=
  (completes_event exec_aliveOutToggle).mono fun _ ht => ht.trans (if_pos ⟨hon, hporst⟩)

theorem completes_aliveOutToggle_none (h : s.faults.aliveOn = false ∨ s.power.porst = true) :
    Completes .aliveOutToggle s fun t => t = s := by
  refine (completes_event exec_aliveOutToggle).mono fun _ ht => ht.trans (if_neg ?_)
  rintro ⟨hon, hporst⟩
  rcases h with h | h
  · rw [h] at hon; exact absurd hon Bool.false_ne_true
  · rw [h] at hporst; exact absurd hporst.symm Bool.false_ne_true

theorem completes_peerAliveInEdge (h : s.faults.peerLost = false) : Completes .peerAliveInEdge s fun t =>
    t = { s with faults := { s.faults with peerSeen := true, peerLost := false, peerLast := s.now } } :=
  (completes_event exec_peerAliveInEdge).mono fun _ ht => ht.trans (if_neg (by simp [h]))

/-- The first edge after a loss reports how long it lasted. -/
theorem completes_peerAliveInEdge_back (h : s.faults.peerLost = true) : Completes .peerAliveInEdge s fun t => t =
    ({ s with faults := { s.faults with peerSeen := true, peerLost := false, peerLast := s.now } } : State).fault 0 0x71 (srcHub 0x07)
      (BitVec.ofNat 64 ((s.now - s.faults.peerLast) / 1000000 % 2 ^ 32)) :=
  (completes_event exec_peerAliveInEdge).mono fun _ ht => ht.trans (if_pos h)

theorem Faults.active_logged_class0 {f : Faults} {m : FaultMsg} {now : Nat} (h : m.cls = 0) : (f.logged m now).active = f.active :=
  activeAdd_class0 h

/-- The peer's silence is counted and reported once. -/
theorem completes_peerAliveLost (hseen : s.faults.peerSeen = true) (hlost : s.faults.peerLost = false) :
    Completes .peerAliveLost s fun t => t.faults.peerLost = true ∧ t.faults.seq = s.faults.seq + 1 ∧ t.faults.active = s.faults.active := by
  refine (completes_event exec_peerAliveLost).mono fun t ht => ?_
  rw [ht.trans (if_pos ⟨hseen, hlost⟩), State.faults_fault (by decide), State.count_faults]
  exact ⟨rfl, rfl, Faults.active_logged_class0 rfl⟩

theorem completes_peerAliveLost_none (h : s.faults.peerSeen = false ∨ s.faults.peerLost = true) :
    Completes .peerAliveLost s fun t => t = s := by
  refine (completes_event exec_peerAliveLost).mono fun _ ht => ht.trans (if_neg ?_)
  rintro ⟨hseen, hlost⟩
  rcases h with h | h
  · rw [h] at hseen; exact absurd hseen Bool.false_ne_true
  · rw [h] at hlost; exact absurd hlost.symm Bool.false_ne_true

end

/-! ## The first-violation latches (R368) -/

section
variable {s : State} {g : Nat} (hgate : gateOk g = true)
include hgate

theorem completes_gateLatchClear_open (hlatch : (s.gate g).latched = .none) : Completes (.gateLatchClear g) s fun t => t = s := by
  refine (completes_checked exec_gateLatchClear hgate).mono fun _ ht => ht.trans ?_
  dsimp only
  rw [hlatch]

variable {k : Byte} {src : BitVec 16} {t0 : Nat} (hlatch : (s.gate g).latched = some (k, src, t0))
include hlatch

theorem completes_gateLatchClear_latched : Completes (.gateLatchClear g) s fun t => t =
    if t0 + 1000000 ≤ s.now ∧ (s.faults.activeFault (2, k, src)).isNone then s.setGate g { s.gate g with latched := .none } else s := by
  refine (completes_checked exec_gateLatchClear hgate).mono fun _ ht => ht.trans ?_
  dsimp only
  rw [hlatch]

/-- A latch clears after 1 ms with its fault gone. -/
theorem completes_gateLatchClear (hdue : t0 + 1000000 ≤ s.now) (hgone : s.faults.activeFault (2, k, src) = .none) :
    Completes (.gateLatchClear g) s fun t => t = s.setGate g { s.gate g with latched := .none } :=
  (completes_gateLatchClear_latched hgate hlatch).mono fun _ ht => ht.trans (if_pos ⟨hdue, by rw [hgone]; rfl⟩)

theorem completes_gateLatchClear_held (h : s.now < t0 + 1000000 ∨ (s.faults.activeFault (2, k, src)).isSome = true) :
    Completes (.gateLatchClear g) s fun t => t = s := by
  refine (completes_gateLatchClear_latched hgate hlatch).mono fun _ ht => ht.trans (if_neg ?_)
  rintro ⟨hdue, hgone⟩
  rcases h with h | h
  · omega
  · simp [Option.isNone_iff_eq_none.mp hgone] at h

end

/-! ## Flushes and the hours (R491-R493) -/

section
variable {s : State}

theorem completes_recorderFlush (hpending : s.recorder.pendingFlush = true) (hidle : s.recorder.flushing = false) :
    Completes .recorderFlush s fun t => t = { s with recorder := { s.recorder with pendingFlush := false, flushing := true } } :=
  (completes_event exec_recorderFlush).mono fun _ ht => ht.trans (if_pos ⟨hpending, hidle⟩)

theorem completes_recorderFlush_none (h : s.recorder.pendingFlush = false ∨ s.recorder.flushing = true) :
    Completes .recorderFlush s fun t => t = s := by
  refine (completes_event exec_recorderFlush).mono fun _ ht => ht.trans (if_neg ?_)
  rintro ⟨hpending, hidle⟩
  rcases h with h | h
  · rw [h] at hpending; exact absurd hpending Bool.false_ne_true
  · rw [h] at hidle; exact absurd hidle.symm Bool.false_ne_true

/-- A flush that ends is written to the older copy. -/
theorem State.flushing_flushed (s : State) : s.flushed.recorder.flushing = false := by
  unfold State.flushed State.modRecorder
  dsimp only
  split <;> rfl

theorem completes_recorderFlushDone (h : s.recorder.flushing = true) : Completes .recorderFlushDone s fun t => t = s.flushed :=
  (completes_event exec_recorderFlushDone).mono fun _ ht => ht.trans (if_pos h)

theorem completes_recorderFlushDone_none (h : s.recorder.flushing = false) : Completes .recorderFlushDone s fun t => t = s :=
  (completes_event exec_recorderFlushDone).mono fun _ ht => ht.trans (if_neg (by simp [h]))

theorem completes_operatingHoursTick (h : s.power.porst = false) : Completes .operatingHoursTick s fun t =>
    t = { s with recorder := { s.recorder with hours := s.recorder.hours + 1 } } :=
  (completes_event exec_operatingHoursTick).mono fun _ ht => ht.trans (if_neg (by simp [h]))

theorem completes_operatingHoursTick_none (h : s.power.porst = true) : Completes .operatingHoursTick s fun t => t = s :=
  (completes_event exec_operatingHoursTick).mono fun _ ht => ht.trans (if_pos h)

end

/-! ## The lanes of a port (R490) -/

section
variable (s : State) {rec : Nat} (v : Int)

theorem State.laneSample_ctle (hlo : 260 ≤ rec) (hhi : rec < 270) : s.laneSample rec v = s.setPort ((rec - 260) / 5 % 2)
    { s.port ((rec - 260) / 5 % 2) with ctle := (s.port ((rec - 260) / 5 % 2)).ctle.set ((rec - 260) % 5) v } := by
  unfold State.laneSample
  dsimp only
  rw [if_neg (by omega), if_pos (by omega)]

theorem State.laneSample_tap (hlo : 270 ≤ rec) (hhi : rec < 280) : s.laneSample rec v = s.setPort ((rec - 260) / 5 % 2)
    { s.port ((rec - 260) / 5 % 2) with tap1 := (s.port ((rec - 260) / 5 % 2)).tap1.set ((rec - 260) % 5) v } := by
  unfold State.laneSample
  dsimp only
  rw [if_neg (by omega), if_neg (by omega), if_pos (by omega)]

theorem State.laneSample_symbols (hlo : 280 ≤ rec) (hhi : rec < 290) : s.laneSample rec v = s.setPort ((rec - 260) / 5 % 2)
    { s.port ((rec - 260) / 5 % 2) with
      symbols := (s.port ((rec - 260) / 5 % 2)).symbols.set ((rec - 260) % 5)
        ((s.port ((rec - 260) / 5 % 2)).symbols.get ((rec - 260) % 5) 0 + v.toNat) } := by
  unfold State.laneSample
  dsimp only
  rw [if_neg (by omega), if_neg (by omega), if_neg (by omega)]

end

/-- Settles O51: the samples by the type of their record, the rest by the event's cases. -/
theorem aliveAndRecorder : Obligations.AliveAndRecorder := by
  unfold Obligations.AliveAndRecorder
  intro s g rec c k src t0 v
  dsimp only
  refine ⟨fun hon hporst => (completes_aliveOutToggle hon hporst).mono fun t ht => by rw [ht]; exact ⟨rfl, rfl⟩,
    completes_aliveOutToggle_none, fun h => (completes_peerAliveInEdge h).mono fun t ht => by rw [ht, h], completes_peerAliveInEdge_back,
    completes_peerAliveLost, completes_peerAliveLost_none, fun hgate => completes_gateLatchClear hgate,
    fun hgate hlatch => completes_gateLatchClear_held hgate hlatch,
    completes_gateLatchClear_open, fun hrec => ?temp, fun hrec => ?hub, fun hc hrec hpower => ?supply, fun hc hrec hpower => ?margin,
    completes_sample_asleep, fun hlo hrange hhi => ?plain, fun hlo hhi => ?ctle, fun hlo hhi => ?tap, fun hlo hhi => ?symbols,
    fun hlo hhi => ?extremes, completes_sample_other, fun q b n hb hn hlo hhi => ?inside, fun q b hb => ⟨fun h => ?below, fun h => ?above⟩,
    completes_recorderFlush, completes_recorderFlush_none,
    fun h => (completes_recorderFlushDone h).mono fun t ht => ⟨ht, by rw [ht]; exact s.flushing_flushed⟩, completes_recorderFlushDone_none,
    completes_event rfl, completes_operatingHoursTick, completes_operatingHoursTick_none⟩
  case temp =>
    have hbins := completes_sample_bins (s := s) (v := v) (typ_recKind_histogram (n := rec) (by omega)) (State.sampleAsleep_other (by omega))
    rwa [s.laneSample_other v (by omega), s.followed_cluster v hrec] at hbins
  case hub =>
    subst hrec
    exact completes_sample_bins (typ_recKind_histogram (by decide)) (State.sampleAsleep_other (by decide))
  case supply =>
    have hbins := completes_sample_bins (v := v) (typ_recKind_histogram (n := rec) (by omega)) (State.sampleAwake hc (by omega) hpower)
    rwa [s.laneSample_other v (by omega), s.followed_other v (by omega) (by omega)] at hbins
  case margin =>
    have hbins := completes_sample_bins (v := v) (typ_recKind_histogram (n := rec) (by omega)) (State.sampleAwake hc (by omega) hpower)
    rw [s.laneSample_other v (by omega)] at hbins
    rw [hrec, s.followed_margin v hc] at hbins
    rwa [hrec]
  case plain =>
    have hbins := completes_sample_bins (s := s) (v := v) (typ_recKind_histogram (n := rec) (by omega)) (State.sampleAsleep_other (by omega))
    rwa [s.laneSample_other v (by omega), s.followed_other v (by omega) (by omega)] at hbins
  case ctle =>
    have hbins := completes_sample_bins (s := s) (v := v) (typ_recKind_histogram (n := rec) (by omega)) (State.sampleAsleep_other (by omega))
    rwa [State.followed_other _ v (by omega) (by omega), s.laneSample_ctle v hlo hhi] at hbins
  case tap =>
    have hbins := completes_sample_bins (s := s) (v := v) (typ_recKind_histogram (n := rec) (by omega)) (State.sampleAsleep_other (by omega))
    rwa [State.followed_other _ v (by omega) (by omega), s.laneSample_tap v hlo hhi] at hbins
  case symbols =>
    have hends := completes_sample_ends (s := s) (v := v) (typ_recKind_extremes (n := rec) (by omega))
    rwa [s.laneSample_symbols v hlo hhi] at hends
  case extremes =>
    have hends := completes_sample_ends (s := s) (v := v) (typ_recKind_extremes (n := rec) (by omega))
    rwa [s.laneSample_other v (by omega)] at hends
  case inside =>
    have hbin := RecKind.bin_inside hn hlo hhi
    exact ⟨by rw [getD_histogram hb, hbin, if_pos rfl], fun m hm => by rw [getD_histogram hb, hbin, if_neg hm]⟩
  case below => rw [getD_histogram hb, RecKind.bin_below h, if_pos rfl]
  case above => rw [getD_histogram hb, RecKind.bin_above h, if_pos rfl, if_neg (by omega)]

end Sys2Proof.Machine
end

section
/-! PROOFS. The power-fail warning, PORST_N, the rails, the warm reset and deep standby (R496-R507, R545, R546; log entries 48, 49). -/

namespace Sys2Proof.Machine

/-! ## A card slot that goes off (R431) -/

section
variable (s : State) (n : Nat)

theorem State.card_tearCard (c : CardSlot) : (s.tearCard c).card n = s.card n := by
  unfold State.tearCard
  split <;> rfl

/-- A slot that is off holds no write. -/
theorem State.phase_cardOffSlot : ((s.cardOffSlot n).card n).phase ≠ .write := by
  unfold State.cardOffSlot
  dsimp only
  split
  next h => rcases h with h | h | h <;> rw [h] <;> decide
  next => rw [State.card_emit, State.card_setCard]; exact (by decide : SlotPhase.present ≠ .write)

theorem State.card_cardOffSlot_ne {m : Nat} (h : m ≠ n) : (s.cardOffSlot m).card n = s.card n := by
  have htorn : ∀ c : CardSlot, (if c.phase = .write then (s.tearCard c).count 301 (5 * m + 4) else s).card n = s.card n := fun c => by
    split
    · exact s.card_tearCard n c
    · rfl
  unfold State.cardOffSlot
  dsimp only
  split
  · rfl
  · exact (State.card_setCard_ne _ _ h).trans (htorn _)

/-- Turning a slot off reports a write it held, and nothing more. -/
theorem State.cardOff_leaves : Kept [.out, .pcie, .faults, .recorder] (s.cardOffSlot n) (s.cardOff n) ∧
    (s.cardOff n).recorder.pendingFlush = (s.cardOffSlot n).recorder.pendingFlush := by
  unfold State.cardOff
  dsimp only
  split
  · refine ⟨State.fault_kept_of_lt _ _ _ _ (by decide), ?_⟩
    rw [State.fault_eq_arrive (by decide)]
    exact (State.arrive_leaves _ _ _ _ _).2.1
  · exact ⟨Kept.refl _ _, rfl⟩

theorem State.cardOffSlot_keeps : Kept [.out, .cards, .recorder] s (s.cardOffSlot n) ∧
    (s.cardOffSlot n).recorder.pendingFlush = s.recorder.pendingFlush := by
  refine ⟨State.cardOffSlot_kept n (Kept.refl _ s) (List.Subset.refl _), ?_⟩
  unfold State.cardOffSlot
  dsimp only
  split
  · rfl
  · split
    · unfold State.tearCard
      split <;> rfl
    · rfl

theorem State.cardOff_keeps : Kept [.out, .cards, .pcie, .faults, .recorder] s (s.cardOff n) ∧
    (s.cardOff n).recorder.pendingFlush = s.recorder.pendingFlush := by
  obtain ⟨hslot, hslotFlush⟩ := s.cardOffSlot_keeps n
  obtain ⟨hoff, hoffFlush⟩ := s.cardOff_leaves n
  exact ⟨(hslot.mono (by decide)).trans (hoff.mono (by decide)), hoffFlush.trans hslotFlush⟩

theorem State.card_eq_of_cards {s t : State} (h : t.cards = s.cards) : t.card n = s.card n := congrArg (·.slots.get n CardSlot.fresh) h

/-- With both slots turned off neither holds a write. -/
theorem State.phase_cardsOff : (((s.cardOff 0).cardOff 1).card 0).phase ≠ .write ∧ (((s.cardOff 0).cardOff 1).card 1).phase ≠ .write := by
  have hoff : ∀ (z : State) (m k : Nat), (z.cardOff m).card k = (z.cardOffSlot m).card k := fun z m k =>
    State.card_eq_of_cards k ((z.cardOff_leaves m).1.cards_eq (by decide))
  refine ⟨?_, ?_⟩
  · rw [hoff, State.card_cardOffSlot_ne _ _ (by decide), hoff]
    exact s.phase_cardOffSlot 0
  · rw [hoff]
    exact State.phase_cardOffSlot _ 1

end

/-! ## The power-fail warning (R496-R498) -/

section
variable {s : State}

theorem Recorder.flushing_cutOff (r : Recorder) : r.cutOff.flushing = false := by
  unfold Recorder.cutOff
  dsimp only
  split_ifs with hflushing
  · rfl
  · rfl
  · exact Bool.eq_false_iff.mpr hflushing

/-- The warning stops dispatch, cuts a flush off and asks for another. -/
theorem completes_pfwNAssert (hporst : s.power.porst = false) (hpfw : s.power.pfw = .none) : Completes .pfwNAssert s fun t =>
    t.power = { s.power with pfw := .grace, pfwReleased := false } ∧ t.depot = { s.depot with stopped := true } ∧
    t.recorder = { s.recorder.cutOff with pendingFlush := true } :=
  (completes_event exec_pfwNAssert).mono fun _ ht => by
    rw [ht.trans (if_neg (by simp [hporst, hpfw]))]
    exact ⟨rfl, rfl, rfl⟩

theorem State.power_dropActivation (s : State) :
    s.dropActivation.power.resetDue = s.power.resetDue ∧ s.dropActivation.power.pfwReleased = s.power.pfwReleased := by
  unfold State.dropActivation
  split <;> exact ⟨rfl, rfl⟩

/-- The end of the grace ends what runs, flushes the recorder and takes the units off. -/
theorem completes_pfwGraceEnd (hpfw : s.power.pfw = .grace) : Completes .pfwGraceEnd s fun t => t.power.pfw = .done ∧
    t.power.resetDue = (s.power.resetDue || s.power.pfwReleased) ∧ t.recorder.pendingFlush = false ∧ t.time.running = false ∧
    (t.port 0).link = .down ∧ (t.port 1).link = .down ∧ (t.card 0).phase ≠ .write ∧ (t.card 1).phase ≠ .write := by
  refine (completes_event exec_pfwGraceEnd).mono fun t ht => ?_
  replace ht := ht.trans (if_neg (by simp [hpfw]))
  extract_lets ended flushed down time clock off at ht
  have hdropped : (s.endRunning 5).dropActivation.power.resetDue = s.power.resetDue ∧
      (s.endRunning 5).dropActivation.power.pfwReleased = s.power.pfwReleased := by
    rw [← (State.endRunning_kept 5 (Kept.refl _ s) (List.Subset.refl _)).power_eq (by decide)]
    exact State.power_dropActivation _
  have hended : ended.power = (s.endRunning 5).dropActivation.power :=
    (State.writeMarks_kept (State.anchorRoot_kept (State.writeOutcomes_kept (State.abandonVault_kept
      (Kept.refl [.out, .seats, .vault, .journal, .pcie, .recorder, .depot] _) (by decide)) (by decide)) (by decide))
      (by decide)).power_eq (by decide)
  clear_value ended
  have hflushed : flushed.power = ended.power :=
    (State.modRecorder_kept _ (State.flushed_kept (Kept.refl _ ended) (List.Subset.refl _)) (List.Subset.refl _)).power_eq (by decide)
  have hpending : flushed.recorder.pendingFlush = false := rfl
  clear_value flushed
  have hdown : Kept [.out, .tes, .clusters, .depot, .port0, .port1] flushed down := (flushed.portDown_keeps 0).trans (State.portDown_keeps _ 1)
  obtain ⟨hlink0, hlink1⟩ : (down.port 0).link = .down ∧ (down.port 1).link = .down := flushed.link_portsDown
  clear_value down
  obtain ⟨hoff0, hflush0⟩ := clock.cardOff_keeps 0
  obtain ⟨hoff1, hflush1⟩ := (clock.cardOff 0).cardOff_keeps 1
  have hoff : Kept [.out, .cards, .pcie, .faults, .recorder] clock off := hoff0.trans hoff1
  have hflush : off.recorder.pendingFlush = down.recorder.pendingFlush := hflush1.trans hflush0
  obtain ⟨hcard0, hcard1⟩ : (off.card 0).phase ≠ .write ∧ (off.card 1).phase ≠ .write := clock.phase_cardsOff
  have hpower : off.power = down.power := hoff.power_eq (by decide)
  have htime : off.time.running = false := by rw [hoff.time_eq (by decide)]
  have hport : ∀ p, off.port p = down.port p := hoff.port_eq (by decide) (by decide)
  clear_value off
  obtain ⟨hreset, hreleased⟩ := hdropped
  rw [← hended, ← hflushed, ← hdown.power_eq (by decide), ← hpower] at hreset hreleased
  rw [← hreset, ← hreleased, ht]
  refine ⟨rfl, rfl, ?_, htime, ?_, ?_, hcard0, hcard1⟩
  · exact hflush.trans ((congrArg Recorder.pendingFlush (hdown.recorder_eq (by decide))).trans hpending)
  · exact (congrArg Port.link (hport 0)).trans hlink0
  · exact (congrArg Port.link (hport 1)).trans hlink1

theorem completes_pfwNRelease_grace (h : s.power.pfw = .grace) : Completes .pfwNRelease s fun t =>
    t.power = { s.power with pfwReleased := true } :=
  (completes_event exec_pfwNRelease).mono fun _ ht => by rw [h] at ht; rw [ht]; rfl

theorem completes_pfwNRelease_done (h : s.power.pfw = .done) : Completes .pfwNRelease s fun t => t.power = { s.power with resetDue := true } :=
  (completes_event exec_pfwNRelease).mono fun _ ht => by rw [h] at ht; rw [ht]; rfl

end

/-! ## PORST_N and the rails (R499, R501) -/

/-- Writing the tenancy leaves the other fields of a state. -/
theorem Kept.with_tenancy {W : List Fld} {s : State} {x : Tenancy} (h : Fld.tenancy ∈ W) : Kept W s { s with tenancy := x } := by
  constructor <;> first | exact .inr rfl | exact .inl h | exact id | rfl

section
variable (s : State) (railsLost : Bool)

/-- Deletions of partitions forgotten, the same partitions are listed. -/
theorem State.keys_undelete : s.undelete.tenancy.parts.keys = s.tenancy.parts.keys := by
  simp only [State.undelete, Tbl.keys, Tbl.mapVals, List.map_map]
  rfl

/-- What a loss of power leaves of the volatile registers, and what it keeps. -/
theorem State.powerLoss_leaves : (s.powerLoss railsLost).power = s.power.afterLoss ∧ (s.powerLoss railsLost).seats = [] ∧
    (s.powerLoss railsLost).depot.items = [] ∧ (s.powerLoss railsLost).keys = { Keys.reset with bbk := s.keys.bbk } ∧
    (s.powerLoss railsLost).mem = [] ∧ (s.powerLoss railsLost).journal.ring = [] ∧ (s.powerLoss railsLost).time = Time.reset ∧
    (s.powerLoss railsLost).journal.watermarks = s.journal.mramMarks ∧
    (s.powerLoss railsLost).vault.anchorRoot = s.vault.anchorRoot ∧
    (s.powerLoss railsLost).tenancy.parts.keys = s.tenancy.parts.keys := by
  generalize hloss : s.powerLoss railsLost = t
  unfold State.powerLoss at hloss
  extract_lets slots down tenancy cut r at hloss
  have hslots : Kept [.out, .cards, .recorder] s slots := (s.cardOffSlot_keeps 0).1.trans ((s.cardOffSlot 0).cardOffSlot_keeps 1).1
  clear_value slots
  have hports : Kept [.out, .tes, .clusters, .depot, .port0, .port1] slots ((slots.portDown 0).portDown 1) :=
    (slots.portDown_keeps 0).trans (State.portDown_keeps _ 1)
  have halive : Kept [.out, .faults, .recorder] ((slots.portDown 0).portDown 1) down :=
    State.aliveStop_kept (Kept.refl _ _) (List.Subset.refl _)
  have hdown : Kept [.out, .cards, .tes, .clusters, .depot, .port0, .port1, .faults, .recorder] s down :=
    ((hslots.mono (by decide)).trans (hports.mono (by decide))).trans (halive.mono (by decide))
  clear_value down
  have hcut : Kept [.out, .pcie, .tenancy] down cut :=
    State.emit_kept _ (State.restartPcie_kept false (State.undelete_kept (Kept.with_tenancy (by decide)) (by decide)) (by decide)) (by decide)
  have htenancy : cut.tenancy.parts.keys = down.tenancy.parts.keys := State.keys_undelete { down with tenancy := tenancy }
  clear_value cut r
  rw [← hloss]
  have hkeys : cut.keys = s.keys := (hcut.keys_eq (by decide)).trans (hdown.keys_eq (by decide))
  have hpower : cut.power = s.power := (hcut.power_eq (by decide)).trans (hdown.power_eq (by decide))
  have hjournal : cut.journal = s.journal := (hcut.journal_eq (by decide)).trans (hdown.journal_eq (by decide))
  have hvault : cut.vault = s.vault := (hcut.vault_eq (by decide)).trans (hdown.vault_eq (by decide))
  have hparts : cut.tenancy.parts.keys = s.tenancy.parts.keys := by rw [htenancy, hdown.tenancy_eq (by decide)]
  refine ⟨congrArg Power.afterLoss hpower, rfl, rfl, ?_, rfl, rfl, rfl, congrArg Journal.mramMarks hjournal,
    ?_, hparts⟩
  · rw [← hkeys]
  · rw [← hvault]
    rfl


end

section
variable {s : State} {rail : Nat}

theorem completes_porstNAssert (h : s.power.porst = false) : Completes .porstNAssert s fun t => t = s.powerLoss false :=
  (completes_event exec_porstNAssert).mono fun _ ht => ht.trans (if_neg (by simp [h]))

/-- A monitored rail but the battery's below its threshold marks it and loses the volatile registers. -/
theorem completes_railBelowThreshold (hrail : railOk rail = true) (hne : rail ≠ 7) (hporst : s.power.porst = false) :
    Completes (.railBelowThreshold rail) s fun t => t = (s.modPower fun p =>
      { p with vinOff := p.vinOff || rail == 0, vaonOff := p.vaonOff || rail == 1 }).powerLoss true :=
  (completes_checked exec_railBelowThreshold hrail).mono fun _ ht =>
    ht.trans ((if_neg hne).trans (if_neg (by simp [State.modPower, hporst])))

/-- With VAON off the battery's loss takes the backup domain with it. -/
theorem completes_railBelowThreshold_battery (hvaon : s.power.vaonOff = true) (hpowered : s.tamper.powered = true) :
    Completes (.railBelowThreshold 7) s fun t => t = s.backupDies :=
  (completes_checked exec_railBelowThreshold (by decide)).mono fun _ ht => ht.trans ((if_pos rfl).trans (if_pos ⟨hvaon, hpowered⟩))

/-- The release begins the cold start. -/
theorem completes_porstNRelease (h : s.power.porst = true) : Completes .porstNRelease s fun t =>
    t.power.porst = false ∧ t.power.kind = .cold ∧ t.power.step = .s2 ∧ t.time.running = true ∧
    t.recorder.cycles = if s.power.vinOff then s.recorder.cycles + 1 else s.recorder.cycles := by
  refine (completes_event exec_porstNRelease).mono fun t ht => ?_
  replace ht := ht.trans (if_neg (by simp [h]))
  extract_lets counted time running at ht
  have hcycles : counted.recorder.cycles = if s.power.vinOff then s.recorder.cycles + 1 else s.recorder.cycles := by
    simp only [counted]
    split <;> rfl
  clear_value counted
  rw [ht]
  exact ⟨rfl, rfl, rfl, rfl, hcycles⟩

end

/-! ## The warm reset (R545) -/

section
variable (s : State)

/-- Releasing items leaves a port's link. -/
theorem State.link_releaseItems (p : Item → Bool) (q : Nat) : ((s.releaseItems p).port q).link = (s.port q).link := by
  obtain ⟨_, hport⟩ := s.port_foldl_releaseItem (s.depot.items.filter p) q
  rw [State.releaseItems, hport]

/-- Discarding items leaves a port's link. -/
theorem State.link_discardItems (p : Item → Bool) (reason : BitVec 11) (q : Nat) :
    ((s.discardItems p reason).port q).link = (s.port q).link := by
  have hone : ∀ (z : State) (i : Item), Kept [.lanes, .journal, .pcie] z (z.itemEnded i.desc reason) := fun z i =>
    State.itemEnded_kept i.desc reason (Kept.refl _ z) (List.Subset.refl _)
  have hended : ∀ (gone : List Item) (z : State), (gone.foldl (fun y i => y.itemEnded i.desc reason) z).port q = z.port q := fun gone z =>
    (Kept.foldl hone gone z (Kept.refl _ z)).port_eq (by decide) (by decide) q
  unfold State.discardItems
  dsimp only
  rw [hended]
  exact s.link_releaseItems _ q

/-- What ends for a reset: no response stays held, and the ports are as they were. -/
theorem State.endForReset_leaves : s.endForReset.held = [] ∧ ∀ q, (s.endForReset.port q).link = (s.port q).link := by
  generalize hend : s.endForReset = t
  unfold State.endForReset at hend
  extract_lets ended dropped at hend
  have hlinks : ∀ q, (ended.port q).link = (s.port q).link := fun q => by
    rw [State.link_discardItems, (State.endRunning_kept 3 (Kept.refl _ s) (List.Subset.refl _)).port_eq (by decide) (by decide)]
  clear_value ended
  have hdropped : Kept [.journal] ended dropped :=
    Kept.foldl (fun z x => State.dropCmd_kept x (Kept.refl _ z) (List.Subset.refl _)) _ _ (Kept.refl _ ended)
  clear_value dropped
  have hrest : Kept [.out, .seats, .vault, .journal, .pcie, .recorder, .power] { dropped with held := [] } t := by
    rw [← hend]
    exact State.writeOutcomes_kept (State.abandonVault_kept (State.dropActivation_kept (Kept.refl _ _) (by decide)) (by decide)) (by decide)
  refine ⟨hrest.held_eq (by decide), fun q => ?_⟩
  rw [hrest.port_eq (by decide) (by decide)]
  exact (congrArg Port.link (hdropped.port_eq (by decide) (by decide) q)).trans (hlinks q)

/-- A warm reset ends what ran, takes both ports DOWN and wipes the working memory, then starts the registers afresh. -/
theorem completes_warmReset (hdue : s.power.resetDue = true) (hporst : s.power.porst = false) : Completes .warmReset s fun t =>
    t.power.resetDue = false ∧ t.power.kind = .warm ∧ t.power.step = .s2 ∧ t.seats = [] ∧ t.depot.items = [] ∧ t.keys.caddy = [] ∧
    t.keys.warm = s.keys.warm ∧ t.keys.bbk = s.keys.bbk ∧ t.held = [] ∧ (t.port 0).link = .down ∧ (t.port 1).link = .down ∧
    t.steward.holds = [] ∧ ∀ a, a < dramBase → t.mem.read a = 0 := by
  refine (completes_event exec_warmReset).mono fun t ht => ?_
  replace ht := ht.trans (if_neg (by simp [hdue, hporst]))
  extract_lets wanted cut ended restarted wiped at ht
  have hwanted : Kept [.out, .pcie, .faults, .recorder, .power] s wanted :=
    State.flushWanted_kept (State.setDev_kept .booting (Kept.refl _ s) (by decide)) (by decide)
  clear_value wanted
  have hcut : Kept faultFields wanted cut :=
    State.portDown_kept 1 (State.portDown_kept 0 (State.abortCeremony_kept (State.cardOff_kept 1 (State.cardOff_kept 0
      (Kept.refl _ wanted) (by decide)) (by decide)) (by decide)) (by decide)) (by decide)
  obtain ⟨hlink0, hlink1⟩ : (cut.port 0).link = .down ∧ (cut.port 1).link = .down := State.link_portsDown _
  clear_value cut
  have hended : Kept (faultFields ++ [.mem, .seats, .lanes, .held]) cut ended := State.endForReset_kept (Kept.refl _ cut) (by decide)
  obtain ⟨hheld, hlinks⟩ : ended.held = [] ∧ ∀ q, (ended.port q).link = (cut.port q).link := cut.endForReset_leaves
  clear_value ended
  have hrestarted : Kept [.out, .pcie, .tenancy] ended restarted :=
    State.emit_kept _ (State.restartPcie_kept true (State.undelete_kept (Kept.refl _ ended) (by decide)) (by decide)) (by decide)
  clear_value restarted
  have hwiped : Kept [.mem] restarted wiped := State.wipe_kept 0 dramBase (Kept.refl _ restarted) (List.Subset.refl _)
  have hmem : ∀ a, a < dramBase → wiped.mem.read a = 0 := fun a ha => by rw [State.read_wipe, if_pos ⟨Nat.zero_le a, ha⟩]
  clear_value wiped
  have hkeys : wiped.keys = s.keys := (hwiped.keys_eq (by decide)).trans <| (hrestarted.keys_eq (by decide)).trans <|
    (hended.keys_eq (by decide)).trans <| (hcut.keys_eq (by decide)).trans (hwanted.keys_eq (by decide))
  have hports : ∀ q, (wiped.port q).link = (cut.port q).link := fun q => by
    rw [hwiped.port_eq (by decide) (by decide), hrestarted.port_eq (by decide) (by decide), hlinks]
  have hnone : wiped.held = [] := (hwiped.held_eq (by decide)).trans ((hrestarted.held_eq (by decide)).trans hheld)
  rw [ht]
  exact ⟨rfl, rfl, rfl, rfl, rfl, rfl, by rw [← hkeys], by rw [← hkeys], hnone, (hports 0).trans hlink0,
    (hports 1).trans hlink1, rfl, hmem⟩

/-- Deep standby is entered once both links are down. -/
theorem completes_deepStandbyEntered (hstandby : s.power.standby = .entering) (hlink0 : s.port0.link = .down) (hlink1 : s.port1.link = .down) :
    Completes .deepStandbyEntered s fun t => t.power.standby = .entered ∧ t.power.step = .s1 ∧ t.seats = [] ∧ t.depot.stopped = true ∧
      t.time.quality = .invalid ∧ t.entropy.credit = 0 ∧ t.keys.bbk = s.keys.bbk := by
  refine (completes_event exec_deepStandbyEntered).mono fun t ht => ?_
  replace ht := ht.trans (if_neg (by simp [hstandby, hlink0, hlink1]))
  extract_lets cut flushed ended at ht
  have hflushed : Kept faultFields s flushed :=
    State.flushed_kept (State.writeMarks_kept (State.anchorRoot_kept (State.setDev_kept _ (State.abortCeremony_kept (State.cardOff_kept 1
      (State.cardOff_kept 0 (Kept.refl _ s) (by decide)) (by decide)) (by decide)) (by decide)) (by decide)) (by decide)) (by decide)
  clear_value flushed
  have hended : Kept (faultFields ++ [.mem, .seats, .lanes]) flushed ended :=
    Kept.foldl (fun z c => Kept.ite (fun _ => State.endCluster_kept c (Kept.refl _ z) (by decide)) fun _ => Kept.refl _ z) _ _ (Kept.refl _ flushed)
  clear_value ended
  have hkeys : ended.keys = s.keys := (hended.keys_eq (by decide)).trans (hflushed.keys_eq (by decide))
  rw [ht]
  exact ⟨rfl, rfl, rfl, rfl, rfl, rfl, congrArg Keys.bbk hkeys⟩

end

/-- Settles O52: each event by what it ends, cuts and starts afresh. -/
theorem resetsAndStandby : Obligations.ResetsAndStandby := by
  unfold Obligations.ResetsAndStandby
  intro s rail
  refine ⟨fun hporst hpfw => ?warn, completes_pfwGraceEnd, completes_pfwNRelease_grace, completes_pfwNRelease_done, fun hporst => ?assert,
    fun hrail hne hporst => ?below, fun hvaon hpowered => ?battery, completes_porstNRelease, fun hdue hporst => ?warm, fun hdue => ?idle,
    completes_deepStandbyEntered s⟩
  case warn =>
    refine (completes_pfwNAssert hporst hpfw).mono fun t ht => ?_
    obtain ⟨hpower, hdepot, hrecorder⟩ := ht
    rw [hpower, hdepot, hrecorder]
    exact ⟨rfl, rfl, rfl, s.recorder.flushing_cutOff, rfl⟩
  case assert =>
    refine (completes_porstNAssert hporst).mono fun t ht => ?_
    obtain ⟨hpower, hseats, hitems, hkeys, hmem, hring, htime, hmarks, hroot, hparts⟩ := s.powerLoss_leaves false
    refine ⟨ht, ?_⟩
    rw [ht, hpower, hkeys, htime]
    exact ⟨rfl, hseats, hitems, rfl, rfl, rfl, hmem, hring, rfl, hmarks, hroot, hparts⟩
  case below =>
    refine (completes_railBelowThreshold hrail hne hporst).mono fun t ht => ?_
    obtain ⟨hpower, hseats, -, hkeys, -⟩ := (s.modPower fun p =>
      { p with vinOff := p.vinOff || rail == 0, vaonOff := p.vaonOff || rail == 1 }).powerLoss_leaves true
    rw [ht, hpower, hkeys]
    exact ⟨rfl, rfl, rfl, hseats, rfl⟩
  case battery => exact (completes_railBelowThreshold_battery hvaon hpowered).mono fun t ht => by rw [ht]; exact ⟨rfl, rfl, rfl⟩
  case warm =>
    refine (completes_warmReset s hdue hporst).mono fun t ht => ?_
    obtain ⟨hreset, hkind, hstep, hseats, hitems, hcaddy, hwarm, hbbk, hheld, hlink0, hlink1, hholds, hmem⟩ := ht
    exact ⟨hreset, hkind, hstep, hseats, hitems, hcaddy, hwarm, hbbk, hheld, hlink0, hlink1, hholds, fun _ => hmem⟩
  case idle => exact (completes_event exec_warmReset).mono fun t ht => ht.trans (if_pos (.inl hdue))

end Sys2Proof.Machine
end

section
/-! PROOFS. The messages and events of the timing port (R390, R392-R401, Tables 13.3, 13.5, 13.8; log entry 41). -/

namespace Sys2Proof.Machine

/-! ## The selection of a master (R393, R398) -/

theorem betterMaster_mem {a b : Master} {l : List Master} (ha : a ∈ l) (hb : b ∈ l) : betterMaster a b ∈ l := by
  unfold betterMaster
  split
  · exact hb
  · exact ha

theorem foldl_betterMaster_mem {l : List Master} :
    ∀ (r : List Master) (m : Master), m ∈ l → (∀ x ∈ r, x ∈ l) → r.foldl betterMaster m ∈ l
  | [], _, hm, _ => hm
  | x :: r, _, hm, hr => foldl_betterMaster_mem r _ (betterMaster_mem hm (hr x List.mem_cons_self)) fun y hy => hr y (List.mem_cons_of_mem x hy)

/-- The best master is one that is listed. -/
theorem Time.bestMaster_mem {t : Time} {i : Word} (h : t.bestMaster = some i) : ∃ x ∈ t.masters, x.ident = i := by
  unfold Time.bestMaster at h
  split at h
  · cases h
  next m r hlist =>
    have hmem := foldl_betterMaster_mem (l := m :: r) r m List.mem_cons_self fun x hx => List.mem_cons_of_mem m hx
    rw [← hlist] at hmem
    exact ⟨_, (List.mem_filter.mp hmem).1, Option.some.inj h⟩

theorem Time.quality_unlock (t : Time) : t.unlock.quality ≠ .locked := by
  unfold Time.unlock
  split
  · exact (by decide : Quality.holdover ≠ .locked)
  · assumption

/-- A selection leaves the masters, selects the best and never enters LOCKED. -/
theorem Time.select_leaves (t : Time) : t.select.masters = t.masters ∧ t.select.selected = t.bestMaster ∧
    (t.quality ≠ .locked → t.select.quality ≠ .locked) := by
  by_cases h : t.bestMaster = t.selected
  · have hsame : t.select = t := if_pos h
    rw [hsame]
    exact ⟨rfl, h.symm, id⟩
  · have hmasters : t.unlock.masters = t.masters := by unfold Time.unlock; split <;> rfl
    have hquality := t.quality_unlock
    generalize hu : t.select = u
    unfold Time.select at hu
    replace hu := (if_neg h).symm.trans hu
    extract_lets restarted entered at hu
    have hentered : entered.masters = t.masters ∧ entered.selected = t.bestMaster ∧ entered.quality ≠ .locked := ⟨hmasters, rfl, hquality⟩
    clear_value entered restarted
    obtain ⟨hlisted, hselected, hunlocked⟩ := hentered
    have hcases : u = entered.toAcquiring ∨ u = entered.toInvalid ∨ u = entered := by
      rw [← hu]
      generalize t.bestMaster = b
      generalize entered.quality = q
      cases b <;> cases q <;> simp only [true_or, or_true]
    rcases hcases with rfl | rfl | rfl
    · exact ⟨hlisted, hselected, fun _ => (by decide : Quality.acquiring ≠ .locked)⟩
    · exact ⟨hlisted, hselected, fun _ => (by decide : Quality.invalid ≠ .locked)⟩
    · exact ⟨hlisted, hselected, fun _ => hunlocked⟩

/-- A master forgotten is not selected. -/
theorem Time.forget_leaves (t : Time) (i : Word) :
    let u := ({ t with masters := t.masters.filter fun x => x.ident != i } : Time).select
    u.selected ≠ some i ∧ ∀ x ∈ u.masters, x.ident ≠ i := by
  obtain ⟨hmasters, hselected, -⟩ := ({ t with masters := t.masters.filter fun x => x.ident != i } : Time).select_leaves
  have hgone : ∀ x ∈ t.masters.filter fun x => x.ident != i, x.ident ≠ i := fun x hx => bne_iff_ne.mp (List.mem_filter.mp hx).2
  refine ⟨fun h => ?_, fun x hx => hgone x (by rwa [hmasters] at hx)⟩
  obtain ⟨x, hx, hident⟩ := Time.bestMaster_mem (hselected.symm.trans h)
  exact hgone x hx hident

/-! ## The messages (Table 13.8) -/

section
variable {s : State} {m : PtpMsg} {c : Instr} {f : State → State} (hrun : s.time.running = true)
include hrun

theorem completes_ptpRow (he : exec c s = ptpRow m s f) (hok : s.time.ptpBad m = .none) : Completes c s fun t => t = f s :=
  (completes_event he).mono fun t ht => by rw [ht.trans (if_neg (by simp [hrun])), hok]

theorem completes_ptpRow_dropped {row : Nat} (he : exec c s = ptpRow m s f) (hbad : s.time.ptpBad m = some row) :
    Completes c s fun t => t = s.ptpDrop row :=
  (completes_event he).mono fun t ht => by rw [ht.trans (if_neg (by simp [hrun])), hbad]

end

/-- A dropped message is counted in its row. -/
theorem State.time_ptpDrop (s : State) (row : Nat) :
    (s.ptpDrop row).time = { s.time with drops := s.time.drops.set row (s.time.drops.get row 0 + 1) } := State.count_time ..

section
variable {s : State} {m : PtpMsg} (hrun : s.time.running = true)
include hrun

theorem completes_ptp_dropped {row : Nat} (hbad : s.time.ptpBad m = some row) :
    ∀ c ∈ [Instr.sync m, .followUp m, .announce m, .delayResp m, .pdelayReq m, .pdelayResp m], Completes c s fun t => t = s.ptpDrop row := by
  intro c hc
  simp only [List.mem_cons, List.not_mem_nil, or_false] at hc
  rcases hc with rfl | rfl | rfl | rfl | rfl | rfl
  · exact completes_ptpRow_dropped hrun exec_sync hbad
  · exact completes_ptpRow_dropped hrun exec_followUp hbad
  · exact completes_ptpRow_dropped hrun exec_announce hbad
  · exact completes_ptpRow_dropped hrun exec_delayResp hbad
  · exact completes_ptpRow_dropped hrun exec_pdelayReq hbad
  · exact completes_ptpRow_dropped hrun exec_pdelayResp hbad

variable (hok : s.time.ptpBad m = .none)
include hok

/-! ### Offsets (R392, R393) -/

section
variable (hfrom : s.time.selected = some m.source)
include hfrom

theorem completes_sync_twoStep (htwo : m.twoStep = true) : Completes (.sync m) s fun t => t = s.modTime fun t => { t with sync := some m } :=
  (completes_ptpRow hrun exec_sync hok).mono fun _ ht => ht.trans ((if_neg (not_not.mpr hfrom)).trans (if_pos htwo))

theorem completes_sync_oneStep (hone : m.twoStep = false) :
    Completes (.sync m) s fun t => t = s.gotDifference ((m.rxNs : Int) - m.originNs - m.correction) :=
  (completes_ptpRow hrun exec_sync hok).mono fun _ ht => ht.trans ((if_neg (not_not.mpr hfrom)).trans (if_neg (by simp [hone])))

/-- A Follow_Up belongs to the Sync it follows, by its sequence and within its interval. -/
theorem completes_followUp {y : PtpMsg} (hsync : s.time.sync = some y) : Completes (.followUp m) s fun t => t =
    if y.sequence = m.sequence ∧ m.rxNs ≤ y.rxNs + intervalNs y.logInterval then
      s.gotDifference ((y.rxNs : Int) - m.originNs - y.correction - m.correction) else s.ptpDrop 4 := by
  refine (completes_ptpRow hrun exec_followUp hok).mono fun _ ht => (ht.trans (if_neg (not_not.mpr hfrom))).trans ?_
  rw [hsync]

/-- A Delay_Resp to the port's request measures the path. -/
theorem completes_delayResp {t3 : Nat} {d : Int} (hmine : m.requester = clockIdentity) (hpeer : s.time.peer = false)
    (hsent : s.time.t3 = some (m.sequence, t3)) (hms : s.time.ms = some d) : Completes (.delayResp m) s fun t =>
      t = (s.gotDelay ((d + ((m.originNs : Int) - m.correction - t3)) / 2)).modTime fun t => { t with t3 := .none } := by
  refine (completes_ptpRow hrun exec_delayResp hok).mono fun _ ht => (ht.trans (if_neg (by simp [hmine, hfrom, hpeer]))).trans ?_
  rw [hsent, hms]
  exact if_pos rfl

end

/-! ### Peer operation (R399) -/

section
variable (hpeer : s.time.peer = true)
include hpeer

theorem completes_pdelayReq : Completes (.pdelayReq m) s fun t =>
    t = (s.sendPtp 3 m.sequence m.rxNs m.source).sendPtp 10 m.sequence s.time.ns m.source :=
  (completes_ptpRow hrun exec_pdelayReq hok).mono fun _ ht => ht.trans (if_pos hpeer)

variable {t1 : Nat} (hmine : m.requester = clockIdentity) (hsent : s.time.pdelay = some (m.sequence, t1))
include hmine hsent

theorem completes_pdelayResp_oneStep (hone : m.twoStep = false) (hnone : s.time.pdelayResp = .none) : Completes (.pdelayResp m) s fun t =>
    t = (s.modTime fun t => { t with pdelay := .none, pdelayResp := .none }).gotDelay (((m.rxNs : Int) - t1 - m.correction) / 2) := by
  refine (completes_ptpRow hrun exec_pdelayResp hok).mono fun _ ht => (ht.trans (if_neg (by simp [hmine, hpeer]))).trans ?_
  rw [hsent]
  refine (if_neg (not_not.mpr rfl)).trans ((if_neg (by simp [hone])).trans ?_)
  rw [hnone]

theorem completes_pdelayResp_twoStep (htwo : m.twoStep = true) : Completes (.pdelayResp m) s fun t =>
    t = s.modTime fun t => { t with pdelayResp := some (((m.originNs : Int) + m.correction).toNat, m.rxNs) } := by
  refine (completes_ptpRow hrun exec_pdelayResp hok).mono fun _ ht => (ht.trans (if_neg (by simp [hmine, hpeer]))).trans ?_
  rw [hsent]
  exact (if_neg (not_not.mpr rfl)).trans (if_pos htwo)

end

/-! ### Masters (R398) -/

/-- The sender of an Announce as the master it makes. -/
def Time.hearing (t : Time) (m : PtpMsg) : Master :=
  { ident := m.source, dataset := m.dataset, announces := ((t.masters.find? fun x => x.ident == m.source).map (·.announces)).getD 0 + 1 }

/-- An Announce makes its sender a master, or counts it again. -/
theorem completes_announce (hptp : m.ptpTimescale = true) : Completes (.announce m) s fun t => s.time.hearing m ∈ t.time.masters := by
  refine (completes_ptpRow hrun exec_announce hok).mono fun t ht => ?_
  have htime : t.time = ({ s.time with masters := (s.time.masters.filter fun y => y.ident != m.source) ++ [s.time.hearing m] } : Time).select := by
    rw [ht.trans (if_neg (by simp [hptp]))]
    rfl
  rw [htime, (Time.select_leaves _).1]
  exact List.mem_append_right _ List.mem_cons_self

theorem completes_announce_forgets (hptp : m.ptpTimescale = false) :
    Completes (.announce m) s fun t => ∀ x ∈ t.time.masters, x.ident ≠ m.source := by
  refine (completes_ptpRow hrun exec_announce hok).mono fun t ht => ?_
  rw [ht.trans (if_pos (by simp [hptp]))]
  exact (Time.forget_leaves _ m.source).2

end

/-! ## The port's own events (R394-R398, R401) -/

section
variable {s : State}

theorem completes_delayReqSend (hrun : s.time.running = true) (hpeer : s.time.peer = false) (hselected : s.time.selected.isSome = true) :
    Completes .delayReqSend s fun t => t = (s.modTime fun t => { t with
      seqOut := s.time.seqOut + 1, t3 := some (s.time.seqOut + 1, s.time.ns), delayAge := t.delayAge + 1
    }).sendPtp 1 (s.time.seqOut + 1) s.time.ns 0 :=
  (completes_event exec_delayReqSend).mono fun _ ht => ht.trans (if_pos ⟨hrun, by simp [hpeer], hselected⟩)

theorem completes_pdelayReqSend (hrun : s.time.running = true) (hpeer : s.time.peer = true) : Completes .pdelayReqSend s fun t =>
    t = (s.modTime fun t => { t with
      seqOut := s.time.seqOut + 1, pdelay := some (s.time.seqOut + 1, s.time.ns), pdelayResp := .none,
      delayAge := t.delayAge + 1 }).sendPtp 2 (s.time.seqOut + 1) s.time.ns 0 :=
  (completes_event exec_pdelayReqSend).mono fun _ ht => ht.trans (if_pos ⟨hrun, hpeer⟩)

theorem completes_syncLossTimeout : Completes .syncLossTimeout s fun t => t.time = s.time.unlock :=
  (completes_event exec_syncLossTimeout).mono fun _ ht => by rw [ht]; rfl

theorem completes_announceReceiptTimeout {i : Word} (h : s.time.selected = some i) : Completes .announceReceiptTimeout s fun t =>
    t.time = ({ s.time with masters := s.time.masters.filter fun x => x.ident != i } : Time).select :=
  (completes_event exec_announceReceiptTimeout).mono fun _ ht => by rw [ht, h]; rfl

/-- With the link down no master is left. -/
theorem completes_timingLinkDown : Completes .timingLinkDown s fun t =>
    t.time.masters = [] ∧ t.time.selected = .none ∧ t.time.quality ≠ .locked := by
  refine (completes_event exec_timingLinkDown).mono fun t ht => ?_
  obtain ⟨hmasters, hselected, hquality⟩ := ({ s.time.unlock with masters := [] } : Time).select_leaves
  rw [ht]
  exact ⟨hmasters, hselected, hquality s.time.quality_unlock⟩

theorem completes_holdoverEstimateExceeded (hheld : s.time.quality = .holdover) (hnone : s.time.selected = .none)
    (hover : 1000000 < s.time.estimate) : Completes .holdoverEstimateExceeded s fun t => t = s.modTime Time.toInvalid :=
  (completes_event exec_holdoverEstimateExceeded).mono fun _ ht => ht.trans (if_pos ⟨hheld, hnone, hover⟩)

theorem completes_ref10mLost (hsource : s.time.source = 1) (hpresent : s.time.ref10m = true) : Completes .ref10mLost s fun t =>
    t = (s.modTime fun t => { t.foldEstimate with ref10m := false, activeSource := 0 }).fault 0 0x24 (srcHub 0x11) 0 :=
  (completes_event exec_ref10mLost).mono fun _ ht => ht.trans (if_pos ⟨hsource, hpresent⟩)

/-- In LOCKED an edge of PPS_IN counts toward its qualification, or ends it. -/
theorem completes_ppsInEdge_locked (hlocked : s.time.quality = .locked) : Completes .ppsInEdge s fun t => t.time =
    if 1000 < s.time.offBoundary then ({ s.time with ppsIn := s.time.ns, ppsMissed := 0 } : Time).unqualify
    else { s.time with
      ppsIn := s.time.ns, ppsMissed := 0, ppsGood := if s.time.offBoundary ≤ 100 then s.time.ppsGood + 1 else 0,
      ppsQualified := s.time.ppsQualified || decide (60 ≤ if s.time.offBoundary ≤ 100 then s.time.ppsGood + 1 else 0) } := by
  refine (completes_event exec_ppsInEdge).mono fun t ht => ?_
  have hedge : (s.modTime fun t => { t with ppsIn := t.ns, ppsMissed := 0 }).time.quality = .locked := hlocked
  rw [hedge] at ht
  rw [ht]
  rfl

end

/-- Settles O45: the messages by their header's check, the events by their case. -/
theorem timingPort : Obligations.TimingPort := by
  unfold Obligations.TimingPort
  refine ⟨fun s m y row q t1 t3 d hrun => ⟨fun hbad c hc => ?dropped, fun hok hfrom => ⟨fun htwo => ?sync,
    completes_sync_oneStep hrun hok hfrom, fun hsync hseq hage => ?follow, fun hsync hseq => ?late,
    fun hmine hpeer hsent hq hms => ?delay⟩, fun hok hpeer => ⟨?answer, fun hmine hsent hone hnone => ?oneStep,
    fun hmine hsent htwo => ?twoStep⟩, fun hok hptp => ?master, completes_announce_forgets hrun⟩,
    fun s => ⟨fun hrun hpeer hselected => ?request, fun hrun hpeer => ?peerRequest, fun hlocked => ?holdover, fun hfree => ?unlocked,
    fun i hi => ?receipt, completes_timingLinkDown, fun hheld hnone hover => ?estimate, fun hsource hpresent => ?reference,
    fun hlocked hnear => ?edge, fun hlocked hfar => ?far, ?missed⟩⟩
  case dropped =>
    refine (completes_ptp_dropped hrun hbad c hc).mono fun t ht => ?_
    rw [ht, State.time_ptpDrop]
    exact ⟨rfl, Tbl.get_set_self .., rfl, rfl⟩
  case sync => exact (completes_sync_twoStep hrun hok hfrom htwo).mono fun t ht => by rw [ht]; rfl
  case follow => exact (completes_followUp hrun hok hfrom hsync).mono fun t ht => ht.trans (if_pos ⟨hseq, hage⟩)
  case late => exact (completes_followUp hrun hok hfrom hsync).mono fun t ht => ht.trans (if_neg fun h => hseq h.1)
  case delay =>
    subst hq
    exact (completes_delayResp hrun hok hfrom hmine hpeer hsent hms).mono fun t ht => by rw [ht]; exact ⟨rfl, rfl, rfl, rfl⟩
  case answer => exact (completes_pdelayReq hrun hok hpeer).mono fun t ht => by rw [ht]; exact ⟨rfl, rfl⟩
  case oneStep =>
    exact (completes_pdelayResp_oneStep hrun hok hpeer hmine hsent hone hnone).mono fun t ht => by rw [ht]; exact ⟨rfl, rfl, rfl⟩
  case twoStep => exact (completes_pdelayResp_twoStep hrun hok hpeer hmine hsent htwo).mono fun t ht => by rw [ht]; exact ⟨rfl, rfl⟩
  case master => exact (completes_announce hrun hok hptp).mono fun t ht => ⟨_, ht, rfl, rfl, rfl⟩
  case request => exact (completes_delayReqSend hrun hpeer hselected).mono fun t ht => by rw [ht]; exact ⟨rfl, rfl, rfl, rfl⟩
  case peerRequest => exact (completes_pdelayReqSend hrun hpeer).mono fun t ht => by rw [ht]; exact ⟨rfl, rfl, rfl, rfl⟩
  case holdover =>
    refine completes_syncLossTimeout.mono fun t ht => ?_
    rw [ht, Time.unlock, if_pos hlocked]
    exact ⟨rfl, rfl, rfl, rfl⟩
  case unlocked => exact completes_syncLossTimeout.mono fun t ht => ht.trans (if_neg hfree)
  case receipt =>
    refine (completes_announceReceiptTimeout hi).mono fun t ht => ?_
    rw [ht]
    exact s.time.forget_leaves i
  case estimate => exact (completes_holdoverEstimateExceeded hheld hnone hover).mono fun t ht => by rw [ht]; exact ⟨rfl, rfl⟩
  case reference => exact (completes_ref10mLost hsource hpresent).mono fun t ht => ⟨_, ht, rfl, rfl, rfl⟩
  case edge =>
    refine (completes_ppsInEdge_locked hlocked).mono fun t ht => ?_
    rw [ht, if_neg (by omega), if_pos hnear]
    exact ⟨rfl, rfl, rfl⟩
  case far =>
    refine (completes_ppsInEdge_locked hlocked).mono fun t ht => ?_
    rw [ht, if_pos hfar]
    exact ⟨rfl, rfl⟩
  case missed => exact (completes_event exec_ppsInMissed).mono fun t ht => by rw [ht]; exact ⟨rfl, rfl⟩

end Sys2Proof.Machine
end
